-- ==== Sys2Proof/Word.lean ====
section
/-! DEFINITION. The word types of the module: bytes, hub register words, lane words. -/

namespace Sys2Proof

/-- One byte, the smallest addressable unit (02 R57: little-endian byte order is decided in Machine/Ops.lean). -/
abbrev Byte := BitVec 8
/-- A hub register word and an instruction word (01 R34, 02 R62). -/
abbrev Word32 := BitVec 32
/-- A lane general register (02 R41). -/
abbrev Word64 := BitVec 64

end Sys2Proof
end

