-- ==== Sys2Proof/Syntax.lean ====
section
/-! DEFINITION. The commands of the module: one constructor of Instr for each row of spec/opcode_table.json, in its order,
with what the command carries from outside (a lane instruction's fields, a record on a lane link, a received
frame, a value written, a pin's level). -/

namespace Sys2Proof

/-- A lane's hub access as its record names it (01 R16): core pair, privilege level (0 tenant, 1 runtime, 2 monitor), tenant, sequence number. -/
structure Acc where
  pair : Fin 4
  level : Fin 3
  tenant : Fin 32
  seq : Nat
deriving DecidableEq, Repr

/-- The three shapes of an op 0x00/0x01 word, and a word whose major opcode is reserved (02 R63). -/
inductive AluForm where
  | x64 | x32 | reservedMajor
deriving DecidableEq, Repr

/-- What a hub transaction does (01 R16, 02 R59). -/
inductive RecKind where
  | read
  | write
  | atomic (fn : Nat)
deriving DecidableEq, Repr

/-- The voted record of a hub transaction (01 R16, 03 R79): `data` is little-endian, `len` bytes long; `cmp` is the value
compare-and-swap compares with. -/
structure Rec where
  pair : Fin 4
  kind : RecKind
  seq : Nat
  addr : Nat
  len : Nat
  data : Nat
  cmp : Nat
  level : Fin 3
  tenant : Fin 32
deriving DecidableEq, Repr

/-- A checkpoint report (03 R90): count, digest and, for the report of a PACE wait, the 1,280 enable bits and whether the report
shows an enabled source pending (05 R140, R141). -/
structure Ckpt where
  count : Nat
  digest : BitVec 64
  pace : Option (Nat × Bool)
deriving DecidableEq, Repr

/-- Which buffer of the Assay a deadline or a freed entry belongs to. -/
inductive VoteKind where
  | write | read | ckpt
deriving DecidableEq, Repr

/-- Hub faults of 01 R37 that no other command reports. -/
inductive HubFault where
  | copies | e2eCrc | bankNotReady | safeMsgUnits
deriving DecidableEq, Repr

/-- What a checker test found wrong (04 R109, R110): a checker of a lane, or one of the hub. -/
inductive TestFail where
  | lane (l : Fin 3) (p : Fin 4)
  | hub
deriving DecidableEq, Repr

/-- Who writes the data image (06 R165): a lane access, or a hub unit's producer identity and time-stamp. -/
inductive Writer where
  | lane (a : Acc)
  | unit (id stamp : Nat)
deriving DecidableEq, Repr


/-- A transmit connection of the safe message section (16 R408): own endpoint, destination identity, source variable, carrier. -/
structure SafeTx where
  endpoint : Nat
  dest : Nat
  source : Nat
  carrier : Nat
deriving DecidableEq, Repr

/-- A receive connection (16 R408): own endpoint, expected source identity, carrier, destination variable, period (100 µs), t_exp (ms),
max_age (100 µs), max_gap, k_good, crc_max, auto_rec, rec_min (ms). -/
structure SafeRx where
  endpoint : Nat
  src : Nat
  carrier : Nat
  dst : Nat
  period : Nat
  texp : Nat
  maxAge : Nat
  maxGap : Nat
  kGood : Nat
  crcMax : Nat
  autoRec : Bool
  recMin : Nat
deriving DecidableEq, Repr

/-- A speed channel in the configuration (14 R363): mode, dir_inv, glitch (0.1 µs), ss_to (ms), variable. -/
structure SpeedChanCfg where
  mode : Nat
  dirInv : Bool
  glitch : Nat
  ssTo : Nat
  var : Nat
deriving DecidableEq, Repr

/-- The speed section (14 R363): channels from 0 on, cmask, min_valid, plaus_v, plaus_t, consolidated variable. -/
structure SpeedCfg where
  chans : List SpeedChanCfg
  cmask : Nat
  minValid : Nat
  plausV : Nat
  plausT : Nat
  var : Nat
deriving DecidableEq, Repr

/-- A CAN frame (12 R316, R325): identifier as word 0 of R325 holds it (bits 28 to 0), formats and flags, DLC, payload. -/
structure CanFrame where
  id : Nat
  ext : Bool
  rtr : Bool
  fdf : Bool
  brs : Bool
  esi : Bool
  dlc : Nat
  data : List Byte
deriving DecidableEq, Repr

/-- A CAN protocol error (12 R316): kind and field in the codes of CAN_ERRLOG, in the data phase or not, and no dominant bit seen while a passive
error flag was sent. -/
structure CanErr where
  kind : Fin 7
  field : Fin 7
  data : Bool
  quiet : Bool
deriving DecidableEq, Repr

/-- A record as a unit hands it to the Ledger (18 R442, R448). -/
structure LRec where
  code : Nat
  sev : Nat
  tenant : Nat
  params : List (BitVec 32)
deriving DecidableEq, Repr

/-- What the NAND devices answer while a storage command runs (19 R468, R469): most bits corrected in a codeword on either device, sectors of the command that
do not decode (and whether the other copy does), blocks that failed to program or erase, blocks erased: (device, block). -/
structure StResult where
  corr0 : Nat
  corr1 : Nat
  lost : List (Nat × Bool)
  grown : List (Fin 2 × Nat)
  erased : List (Fin 2 × Nat)
deriving DecidableEq, Repr

/-- What a NAND device shows at mount (19 R469, R475): it returns its identity; spare blocks its maker and its defects at delivery leave. -/
structure NandId where
  ok : Bool
  spare : Nat
deriving DecidableEq, Repr

/-- A scrub read's data that do not decode (19 R468): partition, sector, and whether the other copy decodes. -/
structure ScrubLoss where
  part : Nat
  sector : Nat
  other : Bool
deriving DecidableEq, Repr

/-- How an SD read ends (19 R477): blocks delivered, blocks read with CRC errors, and the reason where it ends early (0; 1 removed, 2 CRC, 3 timeout). -/
structure SdResult where
  blocks : List (List Byte)
  crcErrs : Nat
  reason : Fin 4
deriving DecidableEq, Repr

/-- A safety output's binding in the configuration (15 R393): output, variable, bit, paralleled with the pair partner's (SO_BIND bit 21). -/
structure SoBind where
  n : Nat
  var : Nat
  bit : Nat
  pair : Bool
deriving DecidableEq, Repr

/-- The signed configuration as the hub firmware reads it (00 R13, 21 R525; spec/ does not give its stored format): in form, format major, digest, identity
of its data image section, what that section puts into hub SRAM (offset, bytes), switch image, speed section, safe message section (own identity, connections),
safety output bindings, variable of the lane speed, tamper sources 0 to 2 armed, Ledger format, MIR_CTL and MIR_RS. -/
structure SignedCfg where
  good : Bool
  major : Nat
  digest : Nat
  ident : Nat
  image : List (Nat × List Byte)
  sw : Option Nat
  speed : Option SpeedCfg
  own : Nat
  tx : List SafeTx
  rx : List SafeRx
  so : List SoBind
  laneVar : Option Nat
  arm : Nat
  quicen : Bool
  mirCtl : Nat
  mirRs : Nat
deriving DecidableEq, Repr

/-- What a start finds outside the hub (20 R488): the stored configuration's content, input voltage (0.1 V), hold-up capacitance (µF), the switches as the hub
and the Millwright read them, and whether the hub checker tests of a cold start pass. -/
structure StartInputs where
  cfg : SignedCfg
  vin : Nat
  uF : Nat
  pins : Nat
  mwPins : Nat
  tests : Bool
deriving DecidableEq, Repr

/-- A wake source (20 R493): FIO_WAKE channel, CAN controller, consist port, timer. -/
inductive WakeSrc where
  | di (i : Fin 12) (n : Fin 8)
  | can (c : Fin 16)
  | eth (x : Fin 4)
  | timer
deriving DecidableEq, Repr

/-- What initialising an SD card finds (19 R476, R477): it answered the identification, SDSC, highest bus mode of card and slot, SDXC, capacity, identification. -/
structure SdInit where
  ok : Bool
  sdsc : Bool
  mode : Nat
  xc : Bool
  cap : Nat
  cid : Nat
deriving DecidableEq, Repr

/-- The commands, one constructor per row of spec/opcode_table.json, in its order. -/
inductive Instr where
  /-- R64: A format A integer register instruction (op 0x00 or 0x01) computes its result into gd and retires one unit. -/
  | aluRegisterOp (l : Fin 3) (p : Fin 4) (form : AluForm) (gd gs1 gs2 : Fin 32) (fn : BitVec 11)
  /-- R64: An integer immediate instruction (ADDI to ADDIW, shifts) computes its result into gd and retires one unit. -/
  | immediateOp (l : Fin 3) (p : Fin 4) (k : Fin 8) (gd gs1 : Fin 32) (imm : BitVec 16)
  /-- R64: LUI or AUIPC writes the shifted sign-extended immediate, plus the PC for AUIPC, to gd. -/
  | upperImmediate (l : Fin 3) (p : Fin 4) (auipc : Bool) (gd gs1 : Fin 32) (imm : BitVec 16)
  /-- R64: A load reads 1 to 8 bytes from lane-served memory or, through read agreement, from the hub into gd. -/
  | load (l : Fin 3) (p : Fin 4) (k : Fin 7) (gd gs1 : Fin 32) (imm : BitVec 16)
  /-- R64: A store writes the low bytes of gs2 to memory; a hub store leaves as a voted write record and is folded into the digest. -/
  | store (l : Fin 3) (p : Fin 4) (k : Fin 4) (gs2 gs1 : Fin 32) (imm : BitVec 16)
  /-- R59: A hub atomic is voted as a write, performed once at the bank after release, and returns the old value to every lane. -/
  | atomic (l : Fin 3) (p : Fin 4) (gd gs1 gs2 : Fin 32) (fn : BitVec 11)
  /-- R64: A conditional branch compares gs1 with gs2 and adds the displacement to the PC when the condition holds. -/
  | branch (l : Fin 3) (p : Fin 4) (k : Fin 6) (gs1 gs2 : Fin 32) (disp : BitVec 16)
  /-- R64: J adds the 26-bit displacement to the PC. -/
  | jump (l : Fin 3) (p : Fin 4) (disp : BitVec 26)
  /-- R64: JAL writes PC + 4 to g31 and jumps by the displacement. -/
  | jal (l : Fin 3) (p : Fin 4) (disp : BitVec 26)
  /-- R64: JALR jumps to gs1 plus the immediate with bits [1:0] cleared and writes PC + 4 to gd. -/
  | jalr (l : Fin 3) (p : Fin 4) (gd gs1 : Fin 32) (imm : BitVec 16)
  /-- R64: FLD, FSD, FLW or FSW moves a floating-point value between memory and a v register. -/
  | fpLoadStore (l : Fin 3) (p : Fin 4) (k : Fin 4) (vr gs1 : Fin 32) (imm : BitVec 16)
  /-- R64: An op 0x32 instruction performs IEEE arithmetic, fused multiply-add or square root with canonical NaNs. -/
  | fpArithmetic (l : Fin 3) (p : Fin 4) (vd vs1 vs2 : Fin 32) (fn : BitVec 11)
  /-- R64: An op 0x33 instruction converts, compares, copies sign or moves bits between register files. -/
  | fpConvertCompareMove (l : Fin 3) (p : Fin 4) (rd rs1 rs2 : Fin 32) (fn : BitVec 11)
  /-- R48: SYSCALL retires one unit and raises exception 0x08, routed by SR_MDELEG. -/
  | syscall (l : Fin 3) (p : Fin 4) (g : Fin 32) (code : BitVec 10)
  /-- R48: MCALL retires one unit and raises exception 0x09 to the monitor. -/
  | mcall (l : Fin 3) (p : Fin 4) (g : Fin 32) (code : BitVec 10)
  /-- R45: BRK raises exception 0x0A without retiring a unit. -/
  | brk (l : Fin 3) (p : Fin 4) (g : Fin 32) (code : BitVec 10)
  /-- R47: ERET restores level and ie from the saved fields, clears the exl flag and continues at the saved return address. -/
  | eret (l : Fin 3) (p : Fin 4)
  /-- R58: FENCE retires only when every earlier access of the pair has completed. -/
  | fence (l : Fin 3) (p : Fin 4)
  /-- R58: FENCE.I makes instruction fetch observe every earlier store of the pair. -/
  | fenceI (l : Fin 3) (p : Fin 4)
  /-- R42: MFS reads a system register into a general register, subject to privilege. -/
  | mfs (l : Fin 3) (p : Fin 4) (g : Fin 32) (n : BitVec 10)
  /-- R42: MTS writes a system register from a general register with clamping, subject to privilege. -/
  | mts (l : Fin 3) (p : Fin 4) (g : Fin 32) (n : BitVec 10)
  /-- R56: A write of 1 to SR_MPAIRRUN bit p starts core pair p at monitor level at its TCM with count 0. -/
  | pairStart (l : Fin 3) (q : Fin 4)
  /-- R55: An MTS to SR_MGOTD sets the owner of the granule selected by SR_MGOTX unless a running pair would be affected. -/
  | granuleTableWrite (l : Fin 3) (v : BitVec 64)
  /-- R69: One chunk of BCOPY copies up to 64 bytes, advances the address registers and decreases the count. -/
  | bcopy (l : Fin 3) (p : Fin 4) (gd gs1 gs2 : Fin 32) (fnHi : BitVec 7)
  /-- R70: One chunk of BFILL writes up to 64 bytes of the pattern and advances the progress registers. -/
  | bfill (l : Fin 3) (p : Fin 4) (gd gs1 gs2 : Fin 32) (fnHi : BitVec 7)
  /-- R71: One chunk of BCRC divides up to 64 bytes into the selected CRC accumulator and advances the progress registers. -/
  | bcrc (l : Fin 3) (p : Fin 4) (gd gs1 gs2 : Fin 32) (fnHi : BitVec 7)
  /-- R72: PACE sends its checkpoint report and waits, clock-gated, for the Courier's release. -/
  | pace (l : Fin 3) (p : Fin 4) (gd gs1 gs2 : Fin 32) (fnHi : BitVec 7)
  /-- R72: On the release a waiting PACE retires one unit and the events named by the release become pending. -/
  | paceComplete (l : Fin 3) (p : Fin 4)
  /-- R73: RDCNT writes the 64-bit value of the selected per-pair counter to gd. -/
  | rdcnt (l : Fin 3) (p : Fin 4) (gd sel gs2 : Fin 32) (fnHi : BitVec 7)
  /-- R74: YIELD increments CNT_EV[6]; at tenant level it raises exception 0x0B. -/
  | yield (l : Fin 3) (p : Fin 4) (gd hi lo : Fin 32) (fnHi : BitVec 7)
  /-- R76: When the retired-unit count reaches a delivery stamp, the sources it carries become pending. -/
  | stampDue (l : Fin 3) (p : Fin 4)
  /-- R90: When the count reaches a multiple of 256, the pair sends its count and digest to the hub. -/
  | checkpointReport (l : Fin 3) (p : Fin 4)
  /-- R40: A lane reset clears the pair registers, counters and digests and starts pair 0 in the boot ROM. -/
  | laneReset (l : Fin 3)
  /-- R106: The pair comparator finds leader and shadow differ; the lane stops and sends a fault flit and the hub isolates it. -/
  | pairComparatorMismatch (l : Fin 3) (p : Fin 4) (item : Fin 5)
  /-- R106: An uncorrectable SECDED error in lane memory is a lane fault and isolates the lane. -/
  | laneMemoryUncorrectable (l : Fin 3) (p : Fin 4)
  /-- R107: No valid flit from a lane for 1 µs isolates it with cause link lost. -/
  | flitWatchdogExpiry (l : Fin 3)
  /-- R16: A link CRC error replays the flit once; a second error on the same flit is a divergence of that lane. -/
  | linkFlitCrcError (l : Fin 3) (r : Rec) (again : Bool)
  /-- R20: A lane's write record arrives at the Assay and is held, released on agreement or compared with the released record. -/
  | writeRecordArrival (l : Fin 3) (r : Rec)
  /-- R80: A lane's hub read record arrives and is answered from the captured value or compared against the capturing record. -/
  | readRecordArrival (l : Fin 3) (r : Rec)
  /-- R26: The hub read value is captured once, after the pair's earlier writes are released, with any side effect performed once. -/
  | readCapture (p : Fin 4) (seq : Nat)
  /-- R91: A checkpoint report reaches the Assay and opens or is compared with the entry of its count. -/
  | checkpointArrival (l : Fin 3) (p : Fin 4) (c : Ckpt)
  /-- R92: A lane whose record, read or checkpoint has not arrived within the skew limit is isolated or the module goes passive. -/
  | skewLimitExpiry (k : VoteKind) (p : Fin 4) (n : Nat)
  /-- R24: A write, read-match or checkpoint entry frees and a lane held for a full buffer proceeds. -/
  | bufferEntryFreed (k : VoteKind) (p : Fin 4) (n : Nat)
  /-- R37: A hub control copy disagreement or an end-to-end CRC failure at a target sets the passive latch. -/
  | hubFaultDetected (k : HubFault)
  /-- R36: The clock monitor finds the fabric or Clockmaker clock off by more than 2 % for 1 µs: a hub fault. -/
  | hubClockDeviation (fabric : Bool) (dev10ppm : Nat)
  /-- R112: A booting lane completes its tests and image verification and becomes ready. -/
  | laneReady (l : Fin 3) (failed : Option (Fin 4))
  /-- R112: At the ready deadline with fewer than two lanes ready the module goes passive and unready lanes are isolated. -/
  | readyDeadlineExpiry
  /-- R110: At the LM_TEST interval the checker injection tests repeat, isolating a lane or going passive on failure. -/
  | periodicTest (failure : Option TestFail)
  /-- R126: A write of run_now starts a periodic test at once and restarts the interval. -/
  | lmTestRunNow (a : Acc) (failure : Option TestFail)
  /-- R114: LM_CMD action 1 resets an ISOLATED or OFF lane into BOOT to start a rejoin, if accepted. -/
  | lmResetRejoin (a : Acc) (l : Fin 3)
  /-- R126: LM_CMD action 2 powers an ISOLATED lane down to OFF. -/
  | lmPowerDown (a : Acc) (l : Fin 3)
  /-- R126: LM_CMD action 3 abandons the rejoin in progress, returning the lane to ISOLATED. -/
  | lmAbandonRejoin (a : Acc) (l : Fin 3)
  /-- R115: The rejoining lane passes its tests, enters APPRENTICE and the first copy pass begins. -/
  | rejoinBootComplete (failed : Option (Fin 4))
  /-- R120: A rejoin boot not complete within 60 ms fails the rejoin. -/
  | rejoinBootTimeout
  /-- R116: A copy pass ends and the next pass, or the hold at the next adm_class edge, follows by the dirty count. -/
  | copyPassEnd (crcFail : Bool)
  /-- R117: An ACTIVE lane's pair reaches its hold count or a PACE wait and stops. -/
  | holdPointReached (l : Fin 3) (p : Fin 4)
  /-- R118: If not every pair is held within skew limit plus 1 µs, the hold is released and a further pass runs. -/
  | holdTimeout
  /-- R118: The state block and dirty pages are copied and all three lanes resume together with stamps sent to the apprentice. -/
  | admissionWindowEnd
  /-- R119: 100 ms without confirmation fails the rejoin and returns the lane to ISOLATED. -/
  | confirmationTimeout
  /-- R121: A debugger attach request puts an eligible lane into DEBUG and opens the safety command switches, or is refused. -/
  | debugAttach (l : Fin 3)
  /-- R123: A detach resets the lane into BOOT, after which it enters ISOLATED. -/
  | debugDetach
  /-- R123: Loss of the debug link for 1 s detaches the debugger. -/
  | debugLinkLoss
  /-- R123: The post-detach boot ends with its tests and the lane enters ISOLATED with cause 10. -/
  | detachBootEnd (passed : Bool)
  /-- R123: A post-detach boot not complete 60 ms after the detach ends there with record 0x0904. -/
  | detachBootTimeout
  /-- R129: DBG_CTL halt stops the pair at the next unit boundary. -/
  | dbgHalt (l : Fin 3) (p : Fin 4)
  /-- R129: DBG_CTL resume lets a halted pair run again. -/
  | dbgResume (l : Fin 3) (p : Fin 4)
  /-- R129: DBG_CTL step retires one unit and halts again. -/
  | dbgStep (l : Fin 3) (p : Fin 4)
  /-- R129: A write to DBG_REGDATA_HI stores both halves into the selected register of the halted pair. -/
  | dbgRegdataWrite (l : Fin 3) (p : Fin 4) (v : Nat)
  /-- R129: Execution reaches an enabled breakpoint address and the pair halts. -/
  | breakpointHit (l : Fin 3) (p : Fin 4)
  /-- R129: An access matches an enabled watchpoint and the pair halts. -/
  | watchpointHit (l : Fin 3) (p : Fin 4) (addr : Nat) (len : Nat) (store : Bool)
  /-- R149: A released write to COUR_SOFT raises an event of software source 1216 + n. -/
  | courSoftWrite (a : Acc) (v : Nat)
  /-- R133: The Courier forms a delivery stamp D = H + lead over up to 16 waiting sources and pending store faults. -/
  | stampFormation (p : Fin 4)
  /-- R136: A stamp or release reaches a lane, which accepts it or, being past D, sends a stamp-late flit. -/
  | stampArrivalAtLane (l : Fin 3) (p : Fin 4) (num : Nat)
  /-- R136: A stamp-late flit is treated as a missing checkpoint, isolating the lane, or fails a rejoin. -/
  | stampLateFlit (l : Fin 3) (p : Fin 4) (d : Nat)
  /-- R131: A W1C write to INT_CLR clears INT_RAW bits and re-raises the source if INT_STAT stays non-zero. -/
  | intClrWrite (a : Acc) (page : Nat) (v : Nat)
  /-- R567: A write to INT_EN that makes INT_STAT non-zero raises one event. -/
  | intEnWrite (a : Acc) (page : Nat) (v : Nat)
  /-- R151: A W1C store to INTC_PEND clears pending bits at the retirement of the store. -/
  | intcPendClear (l : Fin 3) (p : Fin 4) (n : Fin 40) (v : BitVec 32)
  /-- R151: A store to INTC_EN changes source enables at its retirement. -/
  | intcEnWrite (l : Fin 3) (p : Fin 4) (n : Fin 40) (v : BitVec 32)
  /-- R77: A write to CNT_CLR sets the selected counters 1 to 7 to 0 when the store retires. -/
  | cntClrWrite (l : Fin 3) (p : Fin 4) (v : BitVec 32)
  /-- R152: The formatted time reaches n × base and the cycle unit generates boundary n with its class edges. -/
  | baseBoundary
  /-- R154: One guard before a class boundary, completion is checked and complete classes' outputs are frozen and handed on. -/
  | guardStart (cls : Fin 8)
  /-- R157: A write to CYC_DONE sets done bits of the class in CYC_DSTAT. -/
  | cycDoneWrite (a : Acc) (cls : Fin 8) (v : Nat)
  /-- R170: A write of 1 to CYCLE BLK_CTL run starts the cycle unit from the next base boundary. -/
  | cycleRunWrite (a : Acc) (v : Nat)
  /-- R172: CYC_RESTART 1 requests a warm restart at the next boundary. -/
  | cycRestartWarm (a : Acc)
  /-- R168: CYC_RESTART 2 requests a cold restart at the next boundary. -/
  | cycRestartCold (a : Acc)
  /-- R167: A write to a value view is judged by windows, late period and merge rule and accepted into staging or discarded. -/
  | dataImageWrite (w : Writer) (off : Nat) (bytes : List Byte)
  /-- R164: DIMG_LOCK checks every descriptor and locks the tables, or refuses them naming the first failure. -/
  | dimgLock (a : Acc)
  /-- R174: DIMG_PATCH_CMD arm checks the patch list and arms it for its class, or refuses it. -/
  | dimgPatchArm (a : Acc)
  /-- R174: DIMG_PATCH_CMD cancel disarms an armed patch list. -/
  | dimgPatchCancel (a : Acc)
  /-- R191: MEMCTL_EPOCH_CMD commit checks the queue lists and copies all pending tenant sets to active, incrementing the epoch. -/
  | epochCommit (a : Acc)
  /-- R193: The last access of an older epoch completes and drained goes to 1. -/
  | epochDrained
  /-- R188: A write to TEN_SOFT raises the tenant's own software sources. -/
  | tenSoftWrite (a : Acc) (t : Fin 32) (v : Nat)
  /-- R200: MEMCTL_FILL_CMD start fills a line range with the pattern on port B, or is refused. -/
  | memctlFillStart (a : Acc)
  /-- R200: A fill ends, covered banks become ready and fill_done is raised. -/
  | fillComplete
  /-- R199: A retained bank returns to ready 40 µs after its supply returns and waiting accesses proceed. -/
  | bankReady (b : Fin 16)
  /-- R37: The scrubber corrects hub SRAM words; a word corrected in two consecutive passes is a stuck bit. -/
  | hubSramScrub (corrected : List Nat)
  /-- R211: A write to a QMGR_QSEL copy selects the queue and clears that copy's group latch and LASTTAG. -/
  | qmgrQselWrite (a : Acc) (v : Nat)
  /-- R211: A write to QMGR_QSEL_T sets the tenant-level copy of the pair and clears its latch and LASTTAG. -/
  | qmgrQselTWrite (a : Acc) (v : Nat)
  /-- R212: A write to QMGR_PUSH appends a word to the selected queue or is held when no word is free. -/
  | qmgrPush (a : Acc) (v : Nat)
  /-- R212: A write to QMGR_PUSH_LAST[k] appends a word with k valid bytes and ends the packet or burst. -/
  | qmgrPushLast (a : Acc) (k : Fin 4) (v : Nat)
  /-- R216: A write held at a full queue completes within 6 ns of the pop that frees its space. -/
  | heldPushComplete (q : Nat)
  /-- R217: A read of QMGR_POP pops the head word or group, captured once for all lanes. -/
  | qmgrPop (a : Acc) (bad : Bool)
  /-- R233: A write to QMGR_QCLR clears the sticky underrun of the selected queue. -/
  | qmgrQclr (a : Acc) (v : Nat)
  /-- R222: QMGR_CMD enable enables the configured queue with an empty ring, or refuses it. -/
  | qmgrEnable (a : Acc)
  /-- R223: QMGR_CMD disable abandons the queue's content and completes held writes with hub store faults. -/
  | qmgrDisable (a : Acc)
  /-- R227: An arbiter grants a bank port or register target to the oldest eligible requester. -/
  | tallyGrant (portB : Bool) (bank : Fin 17) (r : Nat) (waitNs : Nat)
  /-- R229: A quota period ends and masked high-priority requesters become eligible again. -/
  | quotaPeriodEnd
  /-- R225: A fabric tag returns and an access waiting for one proceeds. -/
  | fabricTagFreed (system : Bool)
  /-- R189: A credit returns and a tenant access held at its limit is released or captured. -/
  | tenantCreditReturned (t : Nat)
  /-- R261: A consist port loses its link, stops and is reported. -/
  | portLinkLoss (x : Fin 4)
  /-- R261: A returning or enabled port completes training and receives from then on. -/
  | portTrainingComplete (x : Fin 4) (fec : Bool)
  /-- R251: A frame received on an up port passes length, address, entry, schedule, ownership, time and duplicate checks. -/
  | consistFrameReceived (x : Fin 4) (f : List Byte) (fcsOk : Bool)
  /-- R239: A source address not seen for 400 ms is forgotten in the PRP discard table. -/
  | discardTableAgeOut (mac : Nat)
  /-- R241: A new basic cycle begins and the Clockmaker strobes the Porters. -/
  | basicCycleStart
  /-- R241: A new matrix cycle begins; armed bank switches, port joins and the resync take place. -/
  | matrixCycleStart
  /-- R249: ALM_FETCH before an exclusive window the engine fetches the committed listed values and builds the frame. -/
  | exclusiveFetch (e : Nat)
  /-- R248: At window start + txoff the kind 0 frame is sent on every up port of the mask, or the window counts missed. -/
  | exclusiveWindowStart (e : Nat)
  /-- R250: In an arbitrating window packets of the highest non-empty transmit class are sent while they fit. -/
  | arbitratingWindow (e : Nat)
  /-- R272: A sync node sends one sync frame in each occurrence of its sync entries. -/
  | syncWindow (e : Nat)
  /-- R254: At window end + ALM_RXLAT a receive entry with no accepted copy counts a miss. -/
  | receiveMissCheck (r : Nat)
  /-- R244: ALM_CMD validate checks the inactive bank and marks it valid or invalid. -/
  | almValidate (a : Acc)
  /-- R245: ALM_CMD switch arms a bank switch for the ALM_SWITCH count, or is refused. -/
  | almSwitchArm (a : Acc)
  /-- R265: ALM_CMD cancel disarms an armed Almanac bank switch. -/
  | almSwitchCancel (a : Acc)
  /-- R256: A basic cycle strobe reaches the Porter, which accepts or rejects it against its prediction. -/
  | porterStrobe (t4ns : Nat)
  /-- R257: PORTER_GUARD before a window of its table the Porter opens the port's switch. -/
  | porterWindowOpen (e : Nat)
  /-- R257: PORTER_GUARD after a window ends, or at the byte budget, the Porter shuts the switch. -/
  | porterWindowClose (e : Nat)
  /-- R259: PORTER_CMD lifts a port's silence from the next matrix cycle start. -/
  | porterUnsilence (a : Acc) (ports : Nat)
  /-- R266: PORTER_CMD arms the Porter table bank switch at PORTER_SWITCH. -/
  | porterSwitchArm (a : Acc)
  /-- R270: A read of CM_TIME_LO captures the 64-bit formatted time and latches the high word for the reader's copy. -/
  | cmTimeRead (a : Acc)
  /-- R270: A read of CM_CNT_LO captures counter_ns and latches the high word. -/
  | cmCntRead (a : Acc)
  /-- R278: When the accumulated slew equals the correction the slew ends and the remainder is added to offset. -/
  | slewEnd
  /-- R271: hold_max elapsed in HOLDOVER puts the Clockmaker in LOST. -/
  | holdoverExpiry
  /-- R274: A delay response not arrived within two matrix cycles yields no sample. -/
  | delayResponseTimeout (node : Fin 15) (plane : Fin 2)
  /-- R280: CM_CMD accept applies the pending jump at once. -/
  | cmAccept (a : Acc)
  /-- R280: CM_CMD reject clears jump_pending. -/
  | cmReject (a : Acc)
  /-- R280: CM_CMD set steps the time to CM_SETVAL as an accepted jump, where allowed. -/
  | cmSet (a : Acc)
  /-- R271: Writing en 0 makes the module its own domain in SYNCED; writing en 0 to 1 enters UNSET. -/
  | cmSyncCtlWrite (a : Acc) (v : Nat)
  /-- R290: A monitor write of CM_RATE in UNSET or LOST sets the rate with a re-anchor. -/
  | cmRateWrite (a : Acc) (v : Nat)
  /-- R287: At each multiple of the period while synchronised the time pulse port drives a pulse. -/
  | timePulseOutput
  /-- R287: A rising edge in input mode is stamped into TS_PCAP and counted. -/
  | timePulseCapture
  /-- R291: A read of TS_TXLAST_LO returns the low word and latches the high word of the last departure stamp. -/
  | tsTxlastRead (a : Acc) (x : Fin 6)
  /-- R291: A read of TS_PCAP_LO returns the low word and latches the high word of the last input edge time. -/
  | tsPcapRead (a : Acc)
  /-- R299: A poll bus basic period begins; armed bank switches and resumes take effect. -/
  | pollBasicPeriodStart (c : Fin 8)
  /-- R300: At an entry's start the master sends its master frame and waits for the reply. -/
  | pollSlotStart (c : Fin 8) (e : Nat) (echoOk : Bool)
  /-- R303: No slave start delimiter within rto counts a miss and may mark the entry silent. -/
  | pollReplyTimeout (c : Fin 8)
  /-- R305: A slave frame is checked, judged as a poll outcome, and delivered through a receive entry. -/
  | pollSlaveFrameReceived (c : Fin 8) (data : List Byte) (ok : Bool)
  /-- R307: A valid master frame is decoded; a matching answer entry answers it. -/
  | pollMasterFrameReceived (c : Fin 8) (fcode set addr : Nat) (echoOk : Bool)
  /-- R308: A slave channel without a valid master frame for slave_to enters silence. -/
  | slaveSilenceTimeout (c : Fin 8)
  /-- R301: POLL_CMD validate checks the inactive poll table bank. -/
  | pollValidate (a : Acc) (c : Fin 8)
  /-- R302: POLL_CMD arm schedules a bank switch at POLL_SWITCH, or is refused. -/
  | pollSwitchArm (a : Acc) (c : Fin 8)
  /-- R314: POLL_CMD cancel disarms an armed poll bank switch. -/
  | pollSwitchCancel (a : Acc) (c : Fin 8)
  /-- R304: POLL_CMD resume leaves foreign or echo_fault at the next basic period start. -/
  | pollResume (a : Acc) (c : Fin 8)
  /-- R309: POLL_CMD unsilence lifts transmitter silence at the next basic period start. -/
  | pollUnsilence (a : Acc) (c : Fin 8)
  /-- R301: A write to POLL_CTL rate or rto marks both banks invalid, stopping polling after the current slot. -/
  | pollCtlWrite (a : Acc) (c : Fin 8) (v : Nat)
  /-- R319: CAN_CMD start moves a controller from INIT to DETECT, ON or LISTEN with its bit timing clamped. -/
  | canStart (a : Acc) (c : Fin 16)
  /-- R319: CAN_CMD stop returns the controller to INIT at the end of the frame in progress. -/
  | canStop (a : Acc) (c : Fin 16)
  /-- R318: CAN_CMD recover starts bus-off recovery. -/
  | canRecover (a : Acc) (c : Fin 16)
  /-- R321: CAN_CMD redetect restarts bit rate detection at the next bus idle. -/
  | canRedetect (a : Acc) (c : Fin 16)
  /-- R329: A frame received without error is matched against the filters and written to a list or queue. -/
  | canFrameReceived (c : Fin 16) (f : CanFrame)
  /-- R326: At a start of frame the controller offers the ready frame that would win arbitration. -/
  | canStartOfFrame (c : Fin 16) (tdcv : Nat)
  /-- R324: A transmitted frame completes and its mailbox pops or records the result. -/
  | canTxComplete (c : Fin 16)
  /-- R327: A lost arbitration retries, or abandons the frame in one-shot mode. -/
  | canArbitrationLost (c : Fin 16)
  /-- R316: A protocol error is signalled and the error counters change as ISO 11898-1 requires. -/
  | canErrorDetected (c : Fin 16) (e : CanErr)
  /-- R318: 128 occurrences of 11 recessive bits complete recovery and the controller rejoins. -/
  | canBusoffRecovered (c : Fin 16)
  /-- R319: With listen cleared and the state allowing it, the controller enters ON at the next bus idle. -/
  | canListenExit (c : Fin 16)
  /-- R333: In STABLE a wake-up pattern on a wake-enabled transceiver wakes the module. -/
  | canWakePattern (c : Fin 16) (ticks : Nat)
  /-- R342: Every 25 µs the link master sends a refresh frame, with pulse or sample flags when due. -/
  | fioRefreshSlot (i : Fin 12) (got : Bool) (seen : List Nat) (mv : Nat)
  /-- R341: A good uplink frame updates island status, inputs and read-back. -/
  | fioUplinkReceived (i : Fin 12) (b : List Byte)
  /-- R342: An expected uplink frame not complete and good 5 µs after its downlink counts as missing. -/
  | fioUplinkTimeout (i : Fin 12) (bad : Bool)
  /-- R19: No good downlink frame for 75 µs de-energises the island's outputs. -/
  | islandMonostableExpiry (i : Fin 12)
  /-- R344: A microcode parity error stops the island, de-energises its outputs and sets halt and fault. -/
  | islandParityError (i : Fin 12)
  /-- R353: A switch in current limit for 2 ms, or overheated, turns off and latches off. -/
  | outputCurrentLimitExpiry (i : Fin 12) (n : Fin 8)
  /-- R353: Island total current above 2.4 A for 10 ms turns off and latches every switch. -/
  | islandOvercurrentTrip (i : Fin 12)
  /-- R344: No load answer 20 ms after start puts the island in failed. -/
  | fioLoadTimeout (i : Fin 12)
  /-- R344: FIO_CMD start loads the island microcode from the chosen slot. -/
  | fioStart (a : Acc) (i : Fin 12) (slotB : Bool)
  /-- R344: FIO_CMD stop stops the link and the island goes off. -/
  | fioStop (a : Acc) (i : Fin 12)
  /-- R344: FIO_CMD reload reloads a halted or failed island. -/
  | fioReload (a : Acc) (i : Fin 12) (slotB : Bool)
  /-- R356: FIO_CMD sends the clear fault config item to the island. -/
  | fioClearFault (a : Acc) (i : Fin 12)
  /-- R360: A write to FIO_IN_CFG is sent to the island as a config item. -/
  | fioInCfgWrite (a : Acc) (i : Fin 12) (n : Fin 8) (v : Nat)
  /-- R360: A write to FIO_OUT_CFG rebinds at the next guard start and sends the slew as a config item. -/
  | fioOutCfgWrite (a : Acc) (i : Fin 12) (n : Fin 8) (v : Nat)
  /-- R349: In STABLE a wake channel's level change held for 2 ms wakes the module. -/
  | diWakeChange (i : Fin 12) (n : Fin 8) (ticks : Nat)
  /-- R365: A speed track class change held for glitch becomes a time-stamped quadrature edge. -/
  | trackEdge (n : Fin 8) (l1 l2 : Nat) (held : Bool)
  /-- R364: A track in a fault band for 100 µs fails its channel. -/
  | trackFaultTimeout (n : Fin 8) (mw t2 : Bool) (lv : Nat)
  /-- R364: A sensor supply out of range or limiting for 1 ms fails the channel with cause 3. -/
  | sensorSupplyFault (n : Fin 8) (mv : Nat) (limiting : Bool)
  /-- R368: No valid period within ss_to sets standstill and f to 0. -/
  | standstillTimeout (n : Fin 8)
  /-- R370: ss_to after entry into init without fault the channel becomes valid at standstill. -/
  | speedInitTimeout (n : Fin 8) (mw : Bool)
  /-- R369: A channel without a valid period for plaus_t while another reports motion fails as frozen. -/
  | frozenChannel (n : Fin 8) (mw : Bool)
  /-- R374: 10 µs before each base boundary channel values and consolidation are frozen and written to the data image. -/
  | speedEvaluation
  /-- R371: SPD_CMD readmit returns failed channels to valid if the conditions hold. -/
  | speedReadmit (a : Acc) (mask : Nat)
  /-- R373: SPD_CMD zero sets a channel's odometer to 0 at the next evaluation instant. -/
  | odometerZero (a : Acc) (mask : Nat)
  /-- R378: A read of SPD_C_ODO_LO returns the low word and latches the high word. -/
  | odometerRead (a : Acc) (n : Fin 8)
  /-- R382: The Millwright leaves reset, checks its ROM and switches, and enters WAIT or SAFE. -/
  | mwResetRelease
  /-- R392: Every 10 µs the hub sends the Millwright its command, speed, failed and switch-slice frame. -/
  | hubFrameSend
  /-- R382: The Millwright checks a hub frame; four good loaded frames with matching switch slices enter RUN. -/
  | mwHubFrameReceived (b : List Byte)
  /-- R18: Three consecutive missing or bad hub frames, or out-of-range intervals, put the Millwright in FAULT. -/
  | mwFrameTimeout (interval : Bool)
  /-- R392: The hub receives the Millwright's frame of permits, state and readings. -/
  | millwrightFrameReceived (b : List Byte)
  /-- R18: The hub-healthy line going low makes the Millwright withdraw every permit within 1 µs. -/
  | hubHealthyLow
  /-- R389: Every 10 µs the Millwright evaluates each output's conditions and drives or stops its permit line. -/
  | mwEvaluationTick
  /-- R386: The Millwright decodes a speed edge and re-evaluates permits. -/
  | mwTrackEdge (n : Fin 8) (a b : Bool)
  /-- R387: No edge within ss_to enters consolidated standstill, zeroing position and clearing latched sets. -/
  | mwStandstillEntry
  /-- R383: Every 100 ms the Millwright checks its parameter ROM CRC; a failure enters FAULT. -/
  | mwRomCheck (ok : Bool)
  /-- R381: The Millwright samples DI0 to DI7 in each wetting pulse and updates CLOSED or OPEN. -/
  | mwDiSample (closed : Nat)
  /-- R381: No wetting pulse for 3 ms makes the Millwright read its DI contacts OPEN. -/
  | mwDiPulseTimeout
  /-- R391: A speed disagreement lasting t_xc puts the Millwright in FAULT. -/
  | mwCrossCheckTimeout (lane : Bool)
  /-- R394: Every 10 µs the hub senses midpoint, output and permit; three bad samples mark the output failed. -/
  | safetyOutputSense (mid out permit : Nat) (supplyOk : Bool)
  /-- R395: At the SO_TEST interval a test pulse is requested on each energised safety output in turn. -/
  | testPulseDue
  /-- R395: A 200 µs test pulse ends, the output restored or failed with cause 6. -/
  | testPulseEnd (ok : Bool)
  /-- R402: A write of SO_TEST bit 16 starts a test round at once. -/
  | soTestRunNow (a : Acc)
  /-- R396: Every 1 ms the hub and Millwright sample the switch banks, debounced over 10 samples. -/
  | switchSample (pins mwPins : Nat)
  /-- R397: A reading difference for 50 ms or a change after the check stages commands 0 and puts the Millwright in SAFE. -/
  | switchMismatchTimeout
  /-- R414: t_exp without an accepted packet puts the connection in FAILED with the fallback. -/
  | safeWatchdogExpiry (n : Fin 64)
  /-- R413: With auto_rec, rec_min in FAILED returns the connection to WAIT. -/
  | safeAutoRecovery (n : Fin 64)
  /-- R417: SM_CMD reset returns a FAILED connection to WAIT after rec_min, or is refused. -/
  | smReset (a : Acc) (n : Fin 64)
  /-- R423: A good segment from either mirror link is taken once and the other copy discarded. -/
  | mirrorSegmentReceived (link : Fin 2) (g : List Byte)
  /-- R427: A standby holding a whole boundary set applies its records as one step and renews the lease. -/
  | boundarySetApply
  /-- R424: Every 100 µs in SEEK or PASSIVE the module sends a hello segment. -/
  | helloSend
  /-- R423: No good segment on a link for 1 ms takes it down. -/
  | mirrorLinkTimeout (link : Fin 2)
  /-- R421: pair_wait elapsed in SEEK without a hello makes the module ACTIVE or STANDBY by own-address frames. -/
  | pairWaitExpiry
  /-- R430: 3 base cycles after the last renewal the lease expires and the standby is promoted or reports lease_lost. -/
  | leaseExpiry
  /-- R431: MIR_CMD abdicate hands control to a sync standby over two boundaries, or is refused. -/
  | mirAbdicate (a : Acc)
  /-- R431: MIR_CMD rearm clears hold. -/
  | mirRearm (a : Acc)
  /-- R432: MIR_CMD take promotes a standby at the next boundary when no partner is active. -/
  | mirTake (a : Acc)
  /-- R440: MIR_CMD restarts the full pass at the next boundary. -/
  | mirRestartPass (a : Acc)
  /-- R448: An arriving record passes freeze, repeat and rate checks, is numbered and placed in staging. -/
  | ledgerRecordArrival (r : LRec)
  /-- R447: A write to LG_SUB_GO forms a software record from the port copy. -/
  | lgSubGo (a : Acc)
  /-- R454: 128 unflushed records, 1 s age or a high-severity record starts a flush to the partition. -/
  | ledgerFlushStart
  /-- R454: A flush completes, marking its records flushed and storing the Ledger head. -/
  | ledgerFlushDone
  /-- R454: A failed flush is retried every 1 s with flush_err raised. -/
  | ledgerFlushRetry
  /-- R461: LG_CMD flush starts a flush. -/
  | lgFlush (a : Acc)
  /-- R451: At an operating millisecond token buckets gain their tokens. -/
  | operatingMillisecond
  /-- R452: At each operating second drop and refusal summary records are written. -/
  | operatingSecond
  /-- R453: 1 s after its first time a repeated Quicen record is released for flushing. -/
  | quicenRepeatHoldExpiry
  /-- R458: LG_CMD freeze stops recording, or is refused while frozen. -/
  | lgFreeze (a : Acc)
  /-- R458: LG_CMD unfreeze resumes recording and writes record 0x0703. -/
  | lgUnfreeze (a : Acc)
  /-- R458: freeze_max after a freeze began, recording resumes with record 0x0703. -/
  | freezeMaxExpiry
  /-- R458: A write of freeze_max moves the end of a freeze in force and may end it at once. -/
  | lgFreezeMaxWrite (a : Acc) (v : Nat)
  /-- R457: A write to LG_CURSOR seeks the record at or after the sequence number into the window. -/
  | lgCursorWrite (a : Acc) (v : Nat)
  /-- R457: LG_CMD next moves the window to the following record. -/
  | lgNext (a : Acc)
  /-- R457: LG_CMD prev moves the window to the preceding record. -/
  | lgPrev (a : Acc)
  /-- R457: LG_CMD newest moves the window to the newest record. -/
  | lgNewest (a : Acc)
  /-- R457: LG_CMD oldest moves the window to the oldest record. -/
  | lgOldest (a : Acc)
  /-- R457: The window is filled from staging or the partition and ready is set. -/
  | ledgerWindowReady
  /-- R451: A write of a rate table entry refills its bucket. -/
  | lgRateEntryWrite (a : Acc) (off : Nat) (v : Nat)
  /-- R451: A write of LG_RATE_DEF sets and fills the common bucket. -/
  | lgRateDefWrite (a : Acc) (v : Nat)
  /-- R456: The Ledger head is read from the partition and buffered records are numbered. -/
  | ledgerHeadMount
  /-- R467: ST_GO read moves sectors from a partition into the buffer area. -/
  | stRead (a : Acc)
  /-- R467: ST_GO write moves sectors from the buffer area into a writable partition. -/
  | stWrite (a : Acc)
  /-- R467: ST_GO discard discards sectors of a writable partition. -/
  | stDiscard (a : Acc)
  /-- R467: A storage command completes with done or error and the STORE event is raised. -/
  | storeCommandComplete (r : StResult)
  /-- R471: Every 42.2 s per device the scrubber reads a whole block. -/
  | scrubBlock (d : Fin 2) (bits reads : Nat) (loss : List ScrubLoss)
  /-- R470: An erase-count spread above 600 moves the least worn block's content to a worn free block. -/
  | staticWearMove (d : Fin 2)
  /-- R469: A device failing identity or 8 consecutive operations is failed and the other device carries on. -/
  | nandDeviceFail (d : Fin 2)
  /-- R475: Mount of both devices completes and mounted is set. -/
  | nandMount (d0 d1 : NandId)
  /-- R477: A debounced card insertion or removal raises insert or remove. -/
  | sdCardDetect (present : Bool)
  /-- R477: SD_CMD init identifies the card and sets up the bus. -/
  | sdInit (a : Acc)
  /-- R477: SD_CMD read transfers blocks of the card as one packet into SD_QUEUE. -/
  | sdRead (a : Acc)
  /-- R477: An SD read ends complete, or early with a poisoned packet end and an error. -/
  | sdReadEnd (r : SdResult)
  /-- R480: SD_CMD powers the card off. -/
  | sdPowerOff (a : Acc)
  /-- R483: Loss of the battery input starts ride-through on the hold-up store. -/
  | supplyInterruption (vin : Nat)
  /-- R483: An interruption that ends before power fail is bridged and recorded. -/
  | interruptionEnd (ms01 : Nat)
  /-- R485: The store at 32 V declares power fail and runs the shutdown and save sequence to OFF. -/
  | powerFailDeclare (full0 full1 : Bool)
  /-- R488: With the input in range for 10 ms the module runs its start sequence, cold or warm. -/
  | startFromOff (c : StartInputs)
  /-- R490: PWR_CMD doze arms DOZE, or is refused during rejoin or DEBUG. -/
  | pwrDoze (a : Acc)
  /-- R487: PWR_CMD run disarms DOZE at the next base boundary. -/
  | pwrRun (a : Acc)
  /-- R491: PWR_CMD stable starts entry into STABLE, or is refused with no wake source. -/
  | pwrStable (a : Acc)
  /-- R490: All pairs in PACE for 100 µs with no stamp outstanding gate the lanes and slow the fabric. -/
  | dozeEntry
  /-- R493: An enabled wake source in STABLE wakes the module. -/
  | wakeEvent (src : WakeSrc) (ticks : Nat)
  /-- R493: PWR_TIMER expires after entry into STABLE and wakes the module. -/
  | wakeTimerExpiry (ticks : Nat)
  /-- R495: A gated or stopped clock started by an access becomes available and the access proceeds. -/
  | clockStartOnDemand (d : Fin 41) (ns : Nat) (late : Bool)
  /-- R497: Every 10 ms the junction sensors are read and the controlling temperature formed. -/
  | thermalSample (t0 t1 t2 t3 : Int)
  /-- R498: A condition held for 2 s changes the thermal state or lane step. -/
  | thermalDwellExpiry
  /-- R500: 125 °C on any die for 10 ms sets the passive latch and powers the lanes down. -/
  | thermalTrip (die : Fin 4)
  /-- R516: LK_CMD open with a service token opens a service window. -/
  | lkOpenWindow (a : Acc)
  /-- R516: LK_CMD close closes the service window, checking cover and seal. -/
  | lkCloseWindow (a : Acc)
  /-- R516: The service window's length elapses and it closes, an open cover being a tamper. -/
  | serviceWindowEnd
  /-- R517: LK_CMD release with a tamper token clears the tamper latch. -/
  | lkReleaseTamper (a : Acc)
  /-- R508: LK_CMD transition burns lifecycle fuses, key hashes, wipes the Strongroom and cold-starts. -/
  | lkLifecycleTransition (a : Acc)
  /-- R510: LK_CMD sign signs a digest with the device identity key. -/
  | lkSign (a : Acc)
  /-- R510: LK_CMD returns the public device identity key. -/
  | lkPubkey (a : Acc)
  /-- R510: LK_CMD computes HMAC-SHA-384 with the device MAC key. -/
  | lkMac (a : Acc)
  /-- R510: LK_CMD verify checks a signed object or image header. -/
  | lkVerify (a : Acc)
  /-- R512: LK_CMD revoke with a revoke token burns a generation's revocation fuse. -/
  | lkRevoke (a : Acc)
  /-- R510: A Locksmith operation completes, writing its result and status. -/
  | locksmithOpComplete
  /-- R514: An armed tamper source fires, latches and wipes the Strongroom. -/
  | tamperEvent (src : Fin 6) (firing bad : Bool)
  /-- R523: UPD_CMD verify checks a container header and opens the session. -/
  | updVerify (a : Acc)
  /-- R523: UPD_CMD begin verifies a component header and opens its inactive slot. -/
  | updBegin (a : Acc)
  /-- R523: UPD_CMD end closes the slot and validates it by read-back hash. -/
  | updEnd (a : Acc)
  /-- R523: UPD_CMD abort ends the session, leaving its slots invalid. -/
  | updAbort (a : Acc)
  /-- R523: UPD_CMD activate writes the trial set to the boot control record and may restart. -/
  | updActivate (a : Acc) (now : Bool)
  /-- R524: UPD_CMD confirm makes the trial set the confirmed set. -/
  | updConfirm (a : Acc)
  /-- R524: UPD_CMD booted reports a successful boot and clears the failed boot count. -/
  | updBooted (a : Acc)
  /-- R524: No booted write within 20 s of reset is a failed boot. -/
  | bootedTimeout
  /-- R524: UPD_TRIAL elapsed without confirmation abandons the trial set. -/
  | trialTimeout
  /-- R526: Cobbler accepts a TFTP write of recover.euc on service port 0 and installs it. -/
  | tftpWriteRequest (sd : Bool) (req file : List Byte)
  /-- R527: After an install, with recovery off and cover and seal closed for 1 s, Cobbler starts the module from OFF. -/
  | cobblerRestart
  /-- R542: The bridge takes the head request packet into a free buffer entry, or refuses it. -/
  | bridgeRequestTake
  /-- R536: The bridge issues the next buffered request as a Quicen bus cycle. -/
  | bridgeBusCycleStart
  /-- R537: QP_ACK or QP_ERR ends a data phase, transferring a word or ending the cycle in error. -/
  | bridgeDataPhaseEnd (err : Bool) (data : BitVec 32)
  /-- R537: No ACK or ERR within tmo bus clocks ends the cycle with status timeout. -/
  | bridgeDataPhaseTimeout
  /-- R542: A read completion is written to the completion queue when it has room. -/
  | bridgeCompletionWrite
  /-- R545: A lead before a sample edge the class's scan reads enter the issue order. -/
  | bridgeScanInstant (cls : Fin 8)
  /-- R550: BR_CMD flush closes every taken request not on the bus and every open read. -/
  | brFlush (a : Acc)
  /-- R547: BR_CMD drives QP_RESET low for 100 µs after the current cycle. -/
  | brReset (a : Acc)
  /-- R547: QP_RESET low ends the bus cycle at the next clock and stops issuing. -/
  | qpResetAssert
  /-- R547: QP_RESET high for 1 ms lets the bridge issue buffered requests again. -/
  | qpResetRecoveryEnd
  /-- R546: An assertion of a Quicen interrupt or sideband line raises one Courier event. -/
  | quicenLineAssert (n : Fin 11) (levels : BitVec 11)
  /-- R564: A service port frame is checked and written whole to the receive queue, or dropped. -/
  | svcFrameReceived (x : Fin 2) (f : List Byte) (fcsOk : Bool)
  /-- R564: A service port sends a transmit queue packet with padding, FCS and optional PTP insertion. -/
  | svcFrameSend (x : Fin 2)
  /-- R565: A service port link goes up or down and is recorded. -/
  | svcLinkChange (x : Fin 2) (up : Bool) (speed : Fin 3)
  /-- R566: A read of HDBG_T_LO returns the low word and latches the high word of the last attach time. -/
  | hdbgTRead (a : Acc)
  /-- R85: A read of an RC field returns its value and sets it to 0 once, at the capture. -/
  | readClearAccess (a : Acc) (page off : Nat)
  /-- R558: A write to a register without a row of its own stores its fields after clamping. -/
  | registerWrite (a : Acc) (page off : Nat) (v : Nat)
  /-- R583: A safety output command switch that has limited at 2.5 A for 5 ms opens while its command stays closed. -/
  | safetyOutputOverload (n : Fin 8)
  /-- R501: With the supply lost in STABLE, the hold-up store falls to 20 V and the module goes to OFF. -/
  | holdupStoreExhausted
  /-- R482: The battery input falls into the fluctuation range below 16.8 V for up to 100 ms and record 0x0207 is written. -/
  | inputFluctuation (vin : Nat)
  /-- R374: While the cycle unit is not running, the speed unit updates its registers and consolidation every 1 ms without writing variables. -/
  | speedRegisterUpdate
  /-- R477: The card identification and bus setup started by SD_CMD init ends with ready set or with an error. -/
  | sdInitComplete (r : SdInit)
  /-- R523: An UPDATE command such as verify, begin or end (with its slot read-back) completes, leaving done or error in UPD_STAT and validating the slot where the check passes. -/
  | updateCommandComplete (bad : Bool)
  /-- R423: A mirror link loses 64b/66b block lock and goes down at once. -/
  | mirrorBlockLockLoss (link : Fin 2)
deriving DecidableEq, Repr

end Sys2Proof
end

