-- ==== Sys2Proof/Config.lean ====
section
/-! DEFINITION. The values spec/ leaves open, as constants without a body: nothing can be proved of a value of one. The
assumption log's row of each is named beside it. -/

namespace Sys2Proof.Config

/-- Tininess is detected after rounding (IEEE 754-2019 leaves the choice; log entry 9). -/
opaque tinyAfterRounding : Bool

/-- A fused multiply-add of zero and infinity with a quiet NaN addend raises invalid (IEEE 754-2019 leaves the choice; log entry 9). -/
opaque fmaNanInvalid : Bool

/-- The n-th value of a result the spec does not fix, drawn with State.freeCtr (log entry 8). -/
opaque freeValue : Nat → Nat

/-- The device keys the Locksmith's derivation gives, for the hub unique key, the chip identity and the lifecycle counter: identity key before its reduction
to a private key, and MAC key (21 R509 names the scheme and leaves its field widths open; log entry 30). -/
opaque kdf : Nat → Nat → Nat → Nat × Nat

end Sys2Proof.Config
end

