-- ==== Sys2Proof/Machine/Bits.lean ====
section
/-! DEFINITION. Bit fields, byte order and list helpers on Nat. -/

namespace Sys2Proof.Machine

/-- Bits lo + w - 1 down to lo of v. -/
def bitsOf (v lo w : Nat) : Nat := v / 2 ^ lo % 2 ^ w

/-- Bit i of v. -/
def bitOf (v i : Nat) : Bool := v / 2 ^ i % 2 == 1

/-- v with bit i set. -/
def setBit (v i : Nat) : Nat := if bitOf v i then v else v + 2 ^ i

/-- v with bit i cleared. -/
def clrBit (v i : Nat) : Nat := if bitOf v i then v - 2 ^ i else v

/-- v with bits lo + w - 1 down to lo replaced by x. -/
def putBits (v lo w x : Nat) : Nat := v - bitsOf v lo w * 2 ^ lo + x % 2 ^ w * 2 ^ lo

/-- 1 for true. -/
def b2n (b : Bool) : Nat := if b then 1 else 0

/-- The Nat a little-endian byte list spells. -/
def leNat : List Byte → Nat
  | [] => 0
  | b :: r => b.toNat + 256 * leNat r

/-- The Nat a big-endian byte list spells. -/
def beNat (l : List Byte) : Nat := leNat l.reverse

/-- n bytes of v, little-endian. -/
def leBytes : Nat → Nat → List Byte
  | 0, _ => []
  | n + 1, v => BitVec.ofNat 8 v :: leBytes n (v / 256)

/-- n bytes of v, big-endian. -/
def beBytes (n v : Nat) : List Byte := (leBytes n v).reverse

/-- v, taken as w bits, as a signed number. -/
def sint (w v : Nat) : Int := if v % 2 ^ w < 2 ^ (w - 1) then (v % 2 ^ w : Int) else (v % 2 ^ w : Int) - 2 ^ w

/-- A signed number as w bits. -/
def unsint (w : Nat) (i : Int) : Nat := (i % 2 ^ w).toNat

/-- Sign extension of w bits to 64. -/
def sext64 (w v : Nat) : Nat := unsint 64 (sint w v)

/-- The indices of the bits set in m among the first n, ascending. -/
def bitList (n m : Nat) : List Nat := (List.range n).filter (bitOf m)

/-- Number of bits set among the first n. -/
def popc (n m : Nat) : Nat := (bitList n m).length

/-- Replace element i of a list. -/
def setAt {α : Type} : List α → Nat → α → List α
  | [], _, _ => []
  | _ :: r, 0, x => x :: r
  | a :: r, n + 1, x => a :: setAt r n x

/-- A 32-bit word of a record. -/
def w32 (n : Nat) : BitVec 32 := BitVec.ofNat 32 n

/-- Slice of a byte list. -/
def sub {α : Type} (l : List α) (off n : Nat) : List α := (l.drop off).take n

/-- The big-endian field of n bytes at offset off of a frame. -/
def beAt (l : List Byte) (off n : Nat) : Nat := beNat (sub l off n)

/-- The little-endian field of n bytes at offset off. -/
def leAt (l : List Byte) (off n : Nat) : Nat := leNat (sub l off n)

end Sys2Proof.Machine
end

