-- ==== Sys2Proof/Machine/Float.lean ====
section
/-! DEFINITION. IEEE 754-2019 binary64 and binary32 arithmetic on exact integers, as 02 R41 and R64 fix it: one rounding, canonical
NaNs, no flush to zero. A finite value is a sign, a mantissa and a power of two. -/

namespace Sys2Proof.Machine

/-- A format: precision, exponent of the last place of subnormals and of the largest binade. -/
structure Fmt where
  prec : Nat
  emin : Int
  emax : Int
  bits : Nat
deriving DecidableEq, Repr

def fmt64 : Fmt := { prec := 53, emin := -1074, emax := 971, bits := 64 }
def fmt32 : Fmt := { prec := 24, emin := -149, emax := 104, bits := 32 }

/-- A value taken apart. -/
inductive Fp where
  | nan (signalling : Bool)
  | inf (neg : Bool)
  | fin (neg : Bool) (m : Nat) (e : Int)
deriving DecidableEq, Repr

/-- Sticky flags (02 R42): invalid bit 0, divide-by-zero 1, overflow 2, underflow 3, inexact 4 (of SR_FCSR bits 4 to 8). -/
abbrev FFlags := Nat

def fInvalid : FFlags := 1
def fDivZero : FFlags := 2
def fOverflow : FFlags := 4
def fUnderflow : FFlags := 8
def fInexact : FFlags := 16

/-- Exponent field width. -/
def Fmt.ew (f : Fmt) : Nat := f.bits - f.prec

/-- The canonical NaN of a format, without boxing. -/
def Fmt.nan (f : Fmt) : Nat := (2 ^ (f.ew + 1) - 1) * 2 ^ (f.prec - 2)

/-- Infinity. -/
def Fmt.inf (f : Fmt) (neg : Bool) : Nat := b2n neg * 2 ^ (f.bits - 1) + (2 ^ f.ew - 1) * 2 ^ (f.prec - 1)

/-- Take a format's bits apart. -/
def Fmt.unpack (f : Fmt) (v : Nat) : Fp :=
  let neg := bitOf v (f.bits - 1)
  let ex := bitsOf v (f.prec - 1) f.ew
  let fr := bitsOf v 0 (f.prec - 1)
  if ex = 2 ^ f.ew - 1 then (if fr = 0 then .inf neg else .nan (!bitOf fr (f.prec - 2)))
  else if ex = 0 then .fin neg fr f.emin
  else .fin neg (fr + 2 ^ (f.prec - 1)) (f.emin + (ex : Int) - 1)

/-- A register's operand (02 R41, R64): a binary32 value not boxed with ones reads as the canonical NaN. -/
def Fmt.operand (f : Fmt) (v : Nat) : Fp :=
  if f.bits = 32 then (if v / 2 ^ 32 = 2 ^ 32 - 1 then f.unpack (v % 2 ^ 32) else .nan false) else f.unpack v

/-- A result's register value: binary32 boxed with ones (02 R41). -/
def Fmt.box (f : Fmt) (v : Nat) : Nat := if f.bits = 32 then (2 ^ 32 - 1) * 2 ^ 32 + v else v

/-- Round up: mode 0 nearest even, 1 toward zero, 2 down, 3 up (02 R42). `half` compares the remainder with half an ulp. -/
def roundUp (rm : Nat) (neg odd inexact : Bool) (half : Ordering) : Bool :=
  if rm = 0 then half == .gt || (half == .eq && odd)
  else if rm = 1 then false
  else if rm = 2 then neg && inexact
  else !neg && inexact

/-- m × 2^e rounded to an integer multiple of 2^q: the mantissa and whether it is inexact. -/
def roundAt (rm : Nat) (neg : Bool) (m : Nat) (e q : Int) : Nat × Bool :=
  if q ≤ e then (m * 2 ^ (e - q).toNat, false) else
  let sh := (q - e).toNat
  let r := m % 2 ^ sh
  let k := m / 2 ^ sh
  (k + b2n (roundUp rm neg (k % 2 == 1) (r != 0) (compare (2 * r) (2 ^ sh))), r != 0)

/-- Round m × 2^e to a format: the bits and the flags raised. -/
def Fmt.round (f : Fmt) (rm : Nat) (neg : Bool) (m : Nat) (e : Int) : Nat × FFlags :=
  let sgn := b2n neg * 2 ^ (f.bits - 1)
  if m = 0 then (sgn, 0) else
  let len : Int := (Nat.log2 m : Int) + 1
  let q0 := e + len - f.prec
  let q := max q0 f.emin
  let (k, ix) := roundAt rm neg m e q
  let (k', q') := if k = 2 ^ f.prec then (2 ^ (f.prec - 1), q + 1) else (k, q)
  let (ku, _) := roundAt rm neg m e q0
  let tinyB := q0 < f.emin
  let tinyA := q0 < f.emin - 1 ∨ (q0 = f.emin - 1 ∧ ku < 2 ^ f.prec)
  if f.emax < q' then
    let toInf := rm == 0 || (rm == 2 && neg) || (rm == 3 && !neg)
    (if toInf then f.inf neg else f.inf neg - 1, fOverflow ||| fInexact)
  else
    let fl := if ix then fInexact ||| (if (if Config.tinyAfterRounding then decide tinyA else decide tinyB) then fUnderflow else 0) else 0
    if k' < 2 ^ (f.prec - 1) then (sgn + k', fl)
    else (sgn + (q' - f.emin + 1).toNat * 2 ^ (f.prec - 1) + (k' - 2 ^ (f.prec - 1)), fl)

/-- Any operand signalling: invalid. -/
def snan (l : List Fp) : FFlags := if l.any (fun x => x == .nan true) then fInvalid else 0

def Fp.isNan : Fp → Bool | .nan _ => true | _ => false
def Fp.neg : Fp → Fp | .nan s => .nan s | .inf n => .inf (!n) | .fin n m e => .fin (!n) m e

/-- Exact sum of two finite values: sign, mantissa, exponent. -/
def addExact (rm : Nat) (an : Bool) (am : Nat) (ae : Int) (bn : Bool) (bm : Nat) (be : Int) : Bool × Nat × Int :=
  let e := min ae be
  let x : Int := (if an then -1 else 1) * ((am * 2 ^ (ae - e).toNat : Nat) : Int)
  let y : Int := (if bn then -1 else 1) * ((bm * 2 ^ (be - e).toNat : Nat) : Int)
  let z := x + y
  if z = 0 then ((if am = 0 && bm = 0 && an == bn then an else rm == 2), 0, e)
  else (decide (z < 0), z.natAbs, e)

/-- Sum. -/
def Fmt.add (f : Fmt) (rm : Nat) (a b : Fp) : Nat × FFlags :=
  match a, b with
  | .nan _, _ | _, .nan _ => (f.nan, snan [a, b])
  | .inf x, .inf y => if x == y then (f.inf x, 0) else (f.nan, fInvalid)
  | .inf x, _ => (f.inf x, 0)
  | _, .inf y => (f.inf y, 0)
  | .fin an am ae, .fin bn bm be =>
    let (n, m, e) := addExact rm an am ae bn bm be
    f.round rm n m e

/-- Product. -/
def Fmt.mul (f : Fmt) (rm : Nat) (a b : Fp) : Nat × FFlags :=
  match a, b with
  | .nan _, _ | _, .nan _ => (f.nan, snan [a, b])
  | .inf x, .inf y => (f.inf (x != y), 0)
  | .inf x, .fin y m _ | .fin y m _, .inf x => if m = 0 then (f.nan, fInvalid) else (f.inf (x != y), 0)
  | .fin an am ae, .fin bn bm be => f.round rm (an != bn) (am * bm) (ae + be)

/-- Quotient: enough bits and a sticky bit. -/
def Fmt.div (f : Fmt) (rm : Nat) (a b : Fp) : Nat × FFlags :=
  match a, b with
  | .nan _, _ | _, .nan _ => (f.nan, snan [a, b])
  | .inf _, .inf _ => (f.nan, fInvalid)
  | .inf x, .fin y _ _ => (f.inf (x != y), 0)
  | .fin x _ _, .inf y => (b2n (x != y) * 2 ^ (f.bits - 1), 0)
  | .fin an am ae, .fin bn bm be =>
    if bm = 0 then (if am = 0 then (f.nan, fInvalid) else (f.inf (an != bn), fDivZero))
    else
      let num := am * 2 ^ 128
      f.round rm (an != bn) (num / bm * 2 + b2n (num % bm != 0)) (ae - be - 129)

/-- Integer square root, bit by bit from bit n - 1. -/
def isqrt (x : Nat) : Nat → Nat → Nat
  | 0, r => r
  | n + 1, r => let t := r + 2 ^ n; isqrt x n (if t * t ≤ x then t else r)

/-- Square root. -/
def Fmt.sqrt (f : Fmt) (rm : Nat) (a : Fp) : Nat × FFlags :=
  match a with
  | .nan _ => (f.nan, snan [a])
  | .inf n => if n then (f.nan, fInvalid) else (f.inf false, 0)
  | .fin n m e =>
    if m = 0 then (b2n n * 2 ^ (f.bits - 1), 0)
    else if n then (f.nan, fInvalid)
    else
      let (m', e') := if e % 2 = 0 then (m * 2 ^ 128, e - 128) else (m * 2 ^ 129, e - 129)
      let r := isqrt m' 96 0
      f.round rm false (r * 2 + b2n (r * r != m')) (e' / 2 - 1)

/-- Fused a × b + c. -/
def Fmt.fma (f : Fmt) (rm : Nat) (a b c : Fp) : Nat × FFlags :=
  let inv := match a, b with
    | .inf _, .fin _ m _ | .fin _ m _, .inf _ => m == 0
    | _, _ => false
  if a.isNan || b.isNan || c.isNan then
    (f.nan, snan [a, b, c] ||| (if inv && Config.fmaNanInvalid then fInvalid else 0))
  else if inv then (f.nan, fInvalid) else
  match a, b, c with
  | .fin an am ae, .fin bn bm be, .fin cn cm ce =>
    let (n, m, e) := addExact rm (an != bn) (am * bm) (ae + be) cn cm ce
    f.round rm n m e
  | .fin _ _ _, .fin _ _ _, .inf y => (f.inf y, 0)
  | a, b, c =>
    let sg (x : Fp) : Bool := match x with | .inf n => n | .fin n _ _ => n | .nan _ => false
    let p := sg a != sg b
    match c with
    | .inf y => if p == y then (f.inf p, 0) else (f.nan, fInvalid)
    | _ => (f.inf p, 0)

/-- Order of two values that are no NaN: a < b, a = b (zeros equal). -/
def Fp.cmp (a b : Fp) : Ordering :=
  let key (x : Fp) (e : Int) : Int := match x with
    | .fin n m xe => (if n then -1 else 1) * ((m * 2 ^ (xe - e).toNat : Nat) : Int)
    | _ => 0
  match a, b with
  | .inf x, .inf y => compare (b2n y) (b2n x)
  | .inf x, _ => if x then .lt else .gt
  | _, .inf y => if y then .gt else .lt
  | .fin _ _ ae, .fin _ _ be => let e := min ae be; compare (key a e) (key b e)
  | _, _ => .eq

/-- A sign of zero decides equal values (IEEE 754-2019 minimumNumber, -0 below +0). -/
def Fp.isNeg : Fp → Bool | .inf n => n | .fin n _ _ => n | .nan _ => false

/-- Lesser (`mx` false) or greater of two operands; their own bits come back, a NaN as canonical (02 R64). -/
def Fmt.minmax (f : Fmt) (mx : Bool) (av bv : Nat) : Nat × FFlags :=
  let a := f.operand av
  let b := f.operand bv
  let fl := snan [a, b]
  let m := 2 ^ f.bits
  match a.isNan, b.isNan with
  | true, true => (f.nan, fl)
  | true, false => (bv % m, fl)
  | false, true => (av % m, fl)
  | false, false =>
    let lt := a.cmp b == .lt || (a.cmp b == .eq && a.isNeg && !b.isNeg)
    (if lt != mx then av % m else bv % m, fl)

/-- Conversion to an integer between lo and hi, with saturation (02 R64). -/
def Fp.toInt (rm : Nat) (lo hi : Int) (a : Fp) : Int × FFlags :=
  match a with
  | .nan _ => (hi, fInvalid)
  | .inf n => (if n then lo else hi, fInvalid)
  | .fin n m e =>
    let (k, ix) := roundAt rm n m e 0
    let v : Int := if n then -(k : Int) else k
    if v < lo then (lo, fInvalid) else if hi < v then (hi, fInvalid) else (v, if ix then fInexact else 0)

/-- Conversion from an integer. -/
def Fmt.ofInt (f : Fmt) (rm : Nat) (i : Int) : Nat × FFlags := f.round rm (decide (i < 0)) i.natAbs 0

/-- Conversion between formats. -/
def Fmt.convert (f : Fmt) (rm : Nat) (a : Fp) : Nat × FFlags :=
  match a with
  | .nan _ => (f.nan, snan [a])
  | .inf n => (f.inf n, 0)
  | .fin n m e => f.round rm n m e

end Sys2Proof.Machine
end

