-- ==== Sys2Proof/Machine/Crc.lean ====
section
/-! DEFINITION. Cyclic redundancy codes, bit by bit: reflected and non-reflected (02 R71, 03 R88). -/

namespace Sys2Proof.Machine

/-- Apply f n times. -/
def iter {α : Type} (f : α → α) : Nat → α → α
  | 0, x => x
  | n + 1, x => iter f n (f x)

/-- One byte into a non-reflected CRC of width w, most significant bit first. -/
def crcByte (w poly crc byte : Nat) : Nat :=
  iter (fun c => if 2 ^ (w - 1) ≤ c then (c * 2 % 2 ^ w) ^^^ poly else c * 2 % 2 ^ w) 8 ((crc ^^^ (byte * 2 ^ (w - 8))) % 2 ^ w)

/-- One byte into a reflected CRC (poly bit-reversed), least significant bit first. -/
def crcByteR (poly crc byte : Nat) : Nat :=
  iter (fun c => if c % 2 = 1 then (c / 2) ^^^ poly else c / 2) 8 (crc ^^^ byte)

def crc (w poly init : Nat) (l : List Byte) : Nat := l.foldl (fun c b => crcByte w poly c b.toNat) init
def crcR (poly init : Nat) (l : List Byte) : Nat := l.foldl (fun c b => crcByteR poly c b.toNat) init

/-- CRC-64 ECMA-182 over bytes, from an accumulator (03 R88). -/
def crc64 (acc : Nat) (l : List Byte) : Nat := crc 64 0x42F0E1EBA9EA3693 acc l
/-- CRC-32C over bytes, from an accumulator (02 R71). -/
def crc32c (acc : Nat) (l : List Byte) : Nat := crcR 0x82F63B78 acc l
/-- CRC-32 over bytes, from an accumulator. -/
def crc32 (acc : Nat) (l : List Byte) : Nat := crcR 0xEDB88320 acc l
/-- CRC-16, polynomial 0x1021, non-reflected. -/
def crc16 (acc : Nat) (l : List Byte) : Nat := crc 16 0x1021 acc l

/-- BCRC's accumulator step (02 R71): selection, accumulator, bytes; bits above the width are written as 0. -/
def bcrcStep (sel : Nat) (acc : Nat) (l : List Byte) : Nat :=
  if sel = 0 then crc32c (acc % 2 ^ 32) l
  else if sel = 1 then crc32 (acc % 2 ^ 32) l
  else if sel = 2 then crc64 (acc % 2 ^ 64) l
  else crc16 (acc % 2 ^ 16) l

end Sys2Proof.Machine
end

