-- ==== Sys2Proof/Machine/SMap.lean ====
section
/-! DEFINITION. Sparse maps from Nat in canonical form (keys strictly rising, no entry equal to the default), and
the description of a register field and of a row of a register table. -/

namespace Sys2Proof.Machine

/-- A sparse map: (key, value) pairs, keys strictly rising; an unlisted key reads as the default its reader names. -/
abbrev SMap (α : Type) := List (Nat × α)

/-- The listed value of a key, if any. -/
def SMap.find? {α : Type} : SMap α → Nat → Option α
  | [], _ => none
  | (a, x) :: r, k => if a = k then some x else SMap.find? r k

/-- The value of a key, the default where it is not listed. -/
def SMap.get {α : Type} (m : SMap α) (k : Nat) (d : α) : α := (SMap.find? m k).getD d

/-- The map without a key. -/
def SMap.erase {α : Type} : SMap α → Nat → SMap α
  | [], _ => []
  | (a, x) :: r, k => if a = k then SMap.erase r k else (a, x) :: SMap.erase r k

/-- Insert a key that is not listed, keeping the keys rising. -/
def SMap.insert {α : Type} : SMap α → Nat → α → SMap α
  | [], k, v => [(k, v)]
  | (a, x) :: r, k, v => if k < a then (k, v) :: (a, x) :: r else (a, x) :: SMap.insert r k v

/-- Write a key: the entry is listed only where the value differs from the default. -/
def SMap.put {α : Type} [DecidableEq α] (m : SMap α) (k : Nat) (d v : α) : SMap α :=
  if v = d then SMap.erase m k else SMap.insert (SMap.erase m k) k v

/-- One field of a hub register: page, offset in the page, lowest bit, width, reset value, and `sel`: 0 for
the register itself, 1 + n for copy or window entry n of it. -/
structure Fld where
  page : Nat
  off : Nat
  lo : Nat
  w : Nat
  rst : Nat
  sel : Nat
deriving DecidableEq, Repr

/-- The key of a field in State.regs: different (sel, page, off, lo) give different keys. -/
def Fld.key (f : Fld) : Nat := ((f.sel * 128 + f.page) * 4096 + f.off) * 32 + f.lo

/-- Access of a register field (00 R11). `ros` is an RWS field whose writes the table says are ignored. -/
inductive Access where
  | ro | rw | rws | ros | wo | w1c | rc
deriving DecidableEq, Repr

/-- One row of a register table: a field, or an array of `cnt` like fields at distance `stride`. -/
structure Row where
  off : Nat
  cnt : Nat
  stride : Nat
  lo : Nat
  w : Nat
  acc : Access
  rst : Nat → Nat → Nat
  clamp : Nat → Nat

/-- Clamp to a range (00 R12: the nearest legal value). -/
def clampR (lo hi v : Nat) : Nat := if v < lo then lo else if hi < v then hi else v

end Sys2Proof.Machine
end

