-- ==== Sys2Proof/Machine/RegFields.lean ====
section
/-! DEFINITION. Every field of every hub register page, one name each: page, offset, lowest bit,
width, reset value and the copy or window entry it belongs to. Transcribed from the register tables of spec/ (the rule of the
table stands before each field). `n` is the instance of a page that exists several times, `i` the index in an array, `e` the
entry behind a select register, `c` the banked copy (pair * 3 + level). A reset value given in words (fuses, factory, boot
control record) stands here as 0: log entry 4. -/

namespace Sys2Proof.Machine

/-- R560. -/
def SYS_debug : Fld := ⟨0x00, 0x010, 0, 1, 0, 0⟩

/-- R560. -/
def SYS_svc_only : Fld := ⟨0x00, 0x010, 1, 1, 0, 0⟩

/-- R560. -/
def SYS_degraded : Fld := ⟨0x00, 0x010, 2, 1, 0, 0⟩

/-- R560. -/
def SYS_raw : Fld := ⟨0x00, 0x020, 0, 2, 0, 0⟩

/-- R560. -/
def SYS_en : Fld := ⟨0x00, 0x024, 0, 2, 0, 0⟩

/-- R560. -/
def SYS_err_count : Fld := ⟨0x00, 0x030, 0, 16, 0, 0⟩

/-- R561. -/
def SYS_IDENT_0 : Fld := ⟨0x00, 0x040, 0, 8, 0, 0⟩

/-- R561. -/
def SYS_IDENT_8 : Fld := ⟨0x00, 0x040, 8, 4, 0, 0⟩

/-- R561. -/
def SYS_IDENT_12 : Fld := ⟨0x00, 0x040, 12, 1, 0, 0⟩

/-- R561. -/
def SYS_IDENT_16 : Fld := ⟨0x00, 0x040, 16, 16, 3, 0⟩

/-- R561. -/
def SYS_SERIAL_LO_0 : Fld := ⟨0x00, 0x044, 0, 32, 0, 0⟩

/-- R561. -/
def SYS_SERIAL_HI_0 : Fld := ⟨0x00, 0x048, 0, 32, 0, 0⟩

/-- R561. -/
def SYS_MFG_0 : Fld := ⟨0x00, 0x04C, 0, 16, 0, 0⟩

/-- R561. -/
def SYS_MFG_16 : Fld := ⟨0x00, 0x04C, 16, 16, 0, 0⟩

/-- R561. -/
def SYS_PAGES_0 (i : Nat) : Fld := ⟨0x00, (0x060 + 4 * i), 0, 32, 0, 0⟩

/-- R561. -/
def SYS_CNT0_0 : Fld := ⟨0x00, 0x070, 0, 3, 4, 0⟩

/-- R561. -/
def SYS_CNT0_4 : Fld := ⟨0x00, 0x070, 4, 3, 4, 0⟩

/-- R561. -/
def SYS_CNT0_8 : Fld := ⟨0x00, 0x070, 8, 2, 2, 0⟩

/-- R561. -/
def SYS_CNT0_10 : Fld := ⟨0x00, 0x070, 10, 2, 2, 0⟩

/-- R561. -/
def SYS_CNT0_12 : Fld := ⟨0x00, 0x070, 12, 4, 8, 0⟩

/-- R561. -/
def SYS_CNT0_16 : Fld := ⟨0x00, 0x070, 16, 5, 16, 0⟩

/-- R561. -/
def SYS_CNT1_0 : Fld := ⟨0x00, 0x074, 0, 7, 64, 0⟩

/-- R561. -/
def SYS_CNT1_8 : Fld := ⟨0x00, 0x074, 8, 6, 32, 0⟩

/-- R561. -/
def SYS_CNT1_16 : Fld := ⟨0x00, 0x074, 16, 4, 8, 0⟩

/-- R561. -/
def SYS_CNT1_20 : Fld := ⟨0x00, 0x074, 20, 4, 8, 0⟩

/-- R561. -/
def SYS_CNT1_24 : Fld := ⟨0x00, 0x074, 24, 1, 1, 0⟩

/-- R561. -/
def SYS_CNT1_25 : Fld := ⟨0x00, 0x074, 25, 1, 1, 0⟩

/-- R561. -/
def SYS_CNT1_26 : Fld := ⟨0x00, 0x074, 26, 1, 1, 0⟩

/-- R561. -/
def SYS_CNT1_27 : Fld := ⟨0x00, 0x074, 27, 1, 1, 0⟩

/-- R561. -/
def SYS_MEM_0 : Fld := ⟨0x00, 0x078, 0, 8, 16, 0⟩

/-- R561. -/
def SYS_MEM_8 : Fld := ⟨0x00, 0x078, 8, 8, 16, 0⟩

/-- R561. -/
def SYS_MEM_16 : Fld := ⟨0x00, 0x078, 16, 8, 16, 0⟩

/-- R561. -/
def SYS_STATE_0 : Fld := ⟨0x00, 0x080, 0, 2, 0, 0⟩

/-- R561. -/
def SYS_STATE_2 : Fld := ⟨0x00, 0x080, 2, 3, 0, 0⟩

/-- R561. -/
def SYS_STATE_5 : Fld := ⟨0x00, 0x080, 5, 3, 0, 0⟩

/-- R561. -/
def SYS_STATE_8 : Fld := ⟨0x00, 0x080, 8, 3, 0, 0⟩

/-- R561. -/
def SYS_STATE_11 : Fld := ⟨0x00, 0x080, 11, 2, 0, 0⟩

/-- R561. -/
def SYS_DEBUG_0 : Fld := ⟨0x00, 0x084, 0, 1, 0, 0⟩

/-- R561. -/
def SYS_DEBUG_1 : Fld := ⟨0x00, 0x084, 1, 1, 0, 0⟩

/-- R561. -/
def SYS_DEBUG_8 : Fld := ⟨0x00, 0x084, 8, 8, 0, 0⟩

/-- R561. -/
def SYS_PASSIVE_0 : Fld := ⟨0x00, 0x088, 0, 5, 0, 0⟩

/-- R561. -/
def SYS_PASSIVE_5 : Fld := ⟨0x00, 0x088, 5, 1, 0, 0⟩

/-- R503. -/
def CLK_spread : Fld := ⟨0x01, 0x010, 0, 1, 1, 0⟩

/-- R503. -/
def CLK_raw : Fld := ⟨0x01, 0x020, 0, 2, 0, 0⟩

/-- R503. -/
def CLK_en : Fld := ⟨0x01, 0x024, 0, 2, 0, 0⟩

/-- R503. -/
def CLK_start_count : Fld := ⟨0x01, 0x030, 0, 16, 0, 0⟩

/-- R503. -/
def CLK_SPREAD_0 : Fld := ⟨0x01, 0x040, 0, 1, 1, 0⟩

/-- R503. -/
def CLK_RUN_LO_0 : Fld := ⟨0x01, 0x044, 0, 32, 0, 0⟩

/-- R503. -/
def CLK_RUN_HI_0 : Fld := ⟨0x01, 0x048, 0, 9, 0, 0⟩

/-- R503. -/
def CLK_LANE_0 (i : Nat) : Fld := ⟨0x01, (0x050 + 4 * i), 0, 2, 0, 0⟩

/-- R503. -/
def CLK_LANE_4 (i : Nat) : Fld := ⟨0x01, (0x050 + 4 * i), 4, 1, 0, 0⟩

/-- R503. -/
def CLK_MON_0 : Fld := ⟨0x01, 0x060, 0, 16, 0, 0⟩

/-- R503. -/
def CLK_MON_16 : Fld := ⟨0x01, 0x060, 16, 16, 0, 0⟩

/-- R503. -/
def CLK_START_LATE_0 : Fld := ⟨0x01, 0x064, 0, 16, 0, 0⟩

/-- R502. -/
def PWR_doze : Fld := ⟨0x02, 0x010, 0, 1, 0, 0⟩

/-- R502. -/
def PWR_ride : Fld := ⟨0x02, 0x010, 1, 1, 0, 0⟩

/-- R502. -/
def PWR_raw : Fld := ⟨0x02, 0x020, 0, 3, 0, 0⟩

/-- R502. -/
def PWR_en : Fld := ⟨0x02, 0x024, 0, 3, 0, 0⟩

/-- R502. -/
def PWR_ride_count : Fld := ⟨0x02, 0x030, 0, 16, 0, 0⟩

/-- R502. -/
def PWR_CMD_0 : Fld := ⟨0x02, 0x040, 0, 2, 0, 0⟩

/-- R502. -/
def PWR_CMD_STAT_0 : Fld := ⟨0x02, 0x044, 0, 2, 0, 0⟩

/-- R502. -/
def PWR_WAKE_EN_0 : Fld := ⟨0x02, 0x048, 0, 4, 0, 0⟩

/-- R502. -/
def PWR_WAKE_EN_8 : Fld := ⟨0x02, 0x048, 8, 4, 0, 0⟩

/-- R502. -/
def PWR_TIMER_0 : Fld := ⟨0x02, 0x04C, 0, 24, 3600, 0⟩

/-- R502. -/
def PWR_WAKE_CAUSE_0 : Fld := ⟨0x02, 0x050, 0, 4, 0, 0⟩

/-- R502. -/
def PWR_WAKE_CAUSE_8 : Fld := ⟨0x02, 0x050, 8, 8, 0, 0⟩

/-- R502. -/
def PWR_VIN_0 : Fld := ⟨0x02, 0x054, 0, 12, 0, 0⟩

/-- R502. -/
def PWR_VIN_16 : Fld := ⟨0x02, 0x054, 16, 12, 0, 0⟩

/-- R502. -/
def PWR_PIN_0 : Fld := ⟨0x02, 0x058, 0, 10, 0, 0⟩

/-- R502. -/
def PWR_RIDE_MAX_0 : Fld := ⟨0x02, 0x05C, 0, 16, 0, 0⟩

/-- R502. -/
def PWR_HOLDUP_0 : Fld := ⟨0x02, 0x060, 0, 12, 0, 0⟩

/-- R502. -/
def PWR_HOLDUP_16 : Fld := ⟨0x02, 0x060, 16, 1, 0, 0⟩

/-- R504. -/
def THERM_state : Fld := ⟨0x03, 0x010, 0, 2, 0, 0⟩

/-- R504. -/
def THERM_step : Fld := ⟨0x03, 0x010, 2, 2, 0, 0⟩

/-- R504. -/
def THERM_raw : Fld := ⟨0x03, 0x020, 0, 2, 0, 0⟩

/-- R504. -/
def THERM_en : Fld := ⟨0x03, 0x024, 0, 2, 0, 0⟩

/-- R504. -/
def THERM_step_count : Fld := ⟨0x03, 0x030, 0, 16, 0, 0⟩

/-- R504. -/
def THERM_CTL_0 : Fld := ⟨0x03, 0x040, 0, 3, 0, 0⟩

/-- R504. -/
def THERM_CTL_4 : Fld := ⟨0x03, 0x040, 4, 1, 1, 0⟩

/-- R504. -/
def THERM_LIMITS_0 : Fld := ⟨0x03, 0x044, 0, 8, 100, 0⟩

/-- R504. -/
def THERM_LIMITS_8 : Fld := ⟨0x03, 0x044, 8, 8, 108, 0⟩

/-- R504. -/
def THERM_LIMITS_16 : Fld := ⟨0x03, 0x044, 16, 8, 118, 0⟩

/-- R504. -/
def THERM_LIMITS_24 : Fld := ⟨0x03, 0x044, 24, 8, 125, 0⟩

/-- R504. -/
def THERM_CTRL_T_0 : Fld := ⟨0x03, 0x048, 0, 16, 0, 0⟩

/-- R504. -/
def THERM_T_0 (i : Nat) : Fld := ⟨0x03, (0x050 + 4 * i), 0, 16, 0, 0⟩

/-- R504. -/
def THERM_TMAX_0 (i : Nat) : Fld := ⟨0x03, (0x060 + 4 * i), 0, 16, 0, 0⟩

/-- R529. -/
def LOCK_life : Fld := ⟨0x04, 0x010, 0, 3, 0, 0⟩

/-- R529. -/
def LOCK_keys : Fld := ⟨0x04, 0x010, 3, 1, 0, 0⟩

/-- R529. -/
def LOCK_latched : Fld := ⟨0x04, 0x010, 4, 1, 0, 0⟩

/-- R529. -/
def LOCK_window : Fld := ⟨0x04, 0x010, 5, 1, 0, 0⟩

/-- R529. -/
def LOCK_svc_only : Fld := ⟨0x04, 0x010, 6, 1, 0, 0⟩

/-- R529. -/
def LOCK_raw : Fld := ⟨0x04, 0x020, 0, 4, 0, 0⟩

/-- R529. -/
def LOCK_en : Fld := ⟨0x04, 0x024, 0, 4, 0, 0⟩

/-- R529. -/
def LOCK_tamper_count : Fld := ⟨0x04, 0x030, 0, 16, 0, 0⟩

/-- R530. -/
def LK_LIFE_0 : Fld := ⟨0x04, 0x040, 0, 3, 0, 0⟩

/-- R530. -/
def LK_LIFE_16 : Fld := ⟨0x04, 0x040, 16, 5, 0, 0⟩

/-- R530. -/
def LK_LIFE_24 : Fld := ⟨0x04, 0x040, 24, 3, 0, 0⟩

/-- R530. -/
def LK_TAMPER_0 : Fld := ⟨0x04, 0x044, 0, 6, 0, 0⟩

/-- R530. -/
def LK_TAMPER_8 : Fld := ⟨0x04, 0x044, 8, 6, 0, 0⟩

/-- R530. -/
def LK_TAMPER_16 : Fld := ⟨0x04, 0x044, 16, 2, 0, 0⟩

/-- R530. -/
def LK_T_OPTIME_0 : Fld := ⟨0x04, 0x048, 0, 32, 0, 0⟩

/-- R530. -/
def LK_T_PCYCLE_0 : Fld := ⟨0x04, 0x04C, 0, 24, 0, 0⟩

/-- R530. -/
def LK_ARM_0 : Fld := ⟨0x04, 0x050, 0, 6, 56, 0⟩

/-- R530. -/
def LK_WINDOW_0 : Fld := ⟨0x04, 0x054, 0, 12, 0, 0⟩

/-- R530. -/
def LK_NONCE_LO_0 : Fld := ⟨0x04, 0x058, 0, 32, 0, 0⟩

/-- R530. -/
def LK_NONCE_HI_0 : Fld := ⟨0x04, 0x05C, 0, 32, 0, 0⟩

/-- R530. -/
def LK_CMD_0 : Fld := ⟨0x04, 0x060, 0, 4, 0, 0⟩

/-- R530. -/
def LK_BUF_12 : Fld := ⟨0x04, 0x064, 12, 12, 3840, 0⟩

/-- R530. -/
def LK_LEN_0 : Fld := ⟨0x04, 0x068, 0, 13, 328, 0⟩

/-- R530. -/
def LK_STAT_0 : Fld := ⟨0x04, 0x06C, 0, 2, 0, 0⟩

/-- R530. -/
def LK_STAT_4 : Fld := ⟨0x04, 0x06C, 4, 4, 0, 0⟩

/-- R530. -/
def LK_STAT_8 : Fld := ⟨0x04, 0x06C, 8, 1, 0, 0⟩

/-- R530. -/
def LK_SVC_0 : Fld := ⟨0x04, 0x070, 0, 3, 0, 0⟩

/-- R530. -/
def LK_FLOOR_0 : Fld := ⟨0x04, 0x074, 0, 7, 0, 0⟩

/-- R530. -/
def LK_KEYS_0 : Fld := ⟨0x04, 0x078, 0, 4, 0, 0⟩

/-- R530. -/
def LK_KEYS_8 : Fld := ⟨0x04, 0x078, 8, 8, 0, 0⟩

/-- R530. -/
def LK_KEYS_16 : Fld := ⟨0x04, 0x078, 16, 8, 0, 0⟩

/-- R530. -/
def LK_KEYS_24 : Fld := ⟨0x04, 0x078, 24, 8, 0, 0⟩

/-- R530. -/
def LK_CHIPID_LO_0 : Fld := ⟨0x04, 0x080, 0, 32, 0, 0⟩

/-- R530. -/
def LK_CHIPID_HI_0 : Fld := ⟨0x04, 0x084, 0, 32, 0, 0⟩

/-- R530. -/
def LK_RESULT_0 (i : Nat) : Fld := ⟨0x04, (0x100 + 4 * i), 0, 32, 0, 0⟩

/-- R531. -/
def UPDATE_session : Fld := ⟨0x05, 0x010, 0, 1, 0, 0⟩

/-- R531. -/
def UPDATE_trial : Fld := ⟨0x05, 0x010, 1, 1, 0, 0⟩

/-- R531. -/
def UPDATE_raw : Fld := ⟨0x05, 0x020, 0, 4, 0, 0⟩

/-- R531. -/
def UPDATE_en : Fld := ⟨0x05, 0x024, 0, 4, 0, 0⟩

/-- R531. -/
def UPDATE_refusals : Fld := ⟨0x05, 0x030, 0, 16, 0, 0⟩

/-- R532. -/
def UPD_CMD_0 : Fld := ⟨0x05, 0x040, 0, 4, 0, 0⟩

/-- R532. -/
def UPD_CMD_8 : Fld := ⟨0x05, 0x040, 8, 1, 0, 0⟩

/-- R532. -/
def UPD_BUF_12 : Fld := ⟨0x05, 0x044, 12, 12, 3840, 0⟩

/-- R532. -/
def UPD_STAT_0 : Fld := ⟨0x05, 0x048, 0, 2, 0, 0⟩

/-- R532. -/
def UPD_STAT_4 : Fld := ⟨0x05, 0x048, 4, 4, 0, 0⟩

/-- R532. -/
def UPD_SESSION_0 : Fld := ⟨0x05, 0x04C, 0, 6, 0, 0⟩

/-- R532. -/
def UPD_SESSION_8 : Fld := ⟨0x05, 0x04C, 8, 6, 0, 0⟩

/-- R532. -/
def UPD_SESSION_16 : Fld := ⟨0x05, 0x04C, 16, 3, 0, 0⟩

/-- R532. -/
def UPD_ACTIVE_0 : Fld := ⟨0x05, 0x050, 0, 6, 0, 0⟩

/-- R532. -/
def UPD_ACTIVE_8 : Fld := ⟨0x05, 0x050, 8, 6, 0, 0⟩

/-- R532. -/
def UPD_ACTIVE_16 : Fld := ⟨0x05, 0x050, 16, 2, 0, 0⟩

/-- R532. -/
def UPD_TRIAL_0 : Fld := ⟨0x05, 0x054, 0, 12, 600, 0⟩

/-- R532. -/
def UPD_CFGVER_0 : Fld := ⟨0x05, 0x058, 0, 8, 0, 0⟩

/-- R532. -/
def UPD_CFGVER_8 : Fld := ⟨0x05, 0x058, 8, 8, 0, 0⟩

/-- R532. -/
def UPD_CFGVER_16 : Fld := ⟨0x05, 0x058, 16, 1, 0, 0⟩

/-- R532. -/
def UPD_START_0 : Fld := ⟨0x05, 0x05C, 0, 2, 0, 0⟩

/-- R532. -/
def UPD_START_4 : Fld := ⟨0x05, 0x05C, 4, 4, 0, 0⟩

/-- R532. -/
def UPD_VER_0 (i : Nat) : Fld := ⟨0x05, (0x080 + 8 * i), 0, 32, 0, 0⟩

/-- R532. -/
def UPD_EPOCH_0 (i : Nat) : Fld := ⟨0x05, (0x084 + 8 * i), 0, 16, 0, 0⟩

/-- R532. -/
def UPD_EPOCH_16 (i : Nat) : Fld := ⟨0x05, (0x084 + 8 * i), 16, 16, 0, 0⟩

/-- R479. -/
def STORE_mounted : Fld := ⟨0x06, 0x010, 0, 1, 0, 0⟩

/-- R479. -/
def STORE_busy : Fld := ⟨0x06, 0x010, 1, 1, 0, 0⟩

/-- R479. -/
def STORE_degraded : Fld := ⟨0x06, 0x010, 2, 1, 0, 0⟩

/-- R479. -/
def STORE_raw : Fld := ⟨0x06, 0x020, 0, 6, 0, 0⟩

/-- R479. -/
def STORE_en : Fld := ⟨0x06, 0x024, 0, 6, 0, 0⟩

/-- R479. -/
def STORE_uncorr_count : Fld := ⟨0x06, 0x030, 0, 16, 0, 0⟩

/-- R479. -/
def ST_PART_0 : Fld := ⟨0x06, 0x040, 0, 4, 14, 0⟩

/-- R479. -/
def ST_LBA_0 : Fld := ⟨0x06, 0x044, 0, 23, 0, 0⟩

/-- R479. -/
def ST_COUNT_0 : Fld := ⟨0x06, 0x048, 0, 7, 1, 0⟩

/-- R479. -/
def ST_BUF_12 : Fld := ⟨0x06, 0x04C, 12, 12, 3840, 0⟩

/-- R479. -/
def ST_GO_0 : Fld := ⟨0x06, 0x050, 0, 2, 0, 0⟩

/-- R479. -/
def ST_STAT_0 : Fld := ⟨0x06, 0x054, 0, 2, 0, 0⟩

/-- R479. -/
def ST_STAT_2 : Fld := ⟨0x06, 0x054, 2, 4, 0, 0⟩

/-- R479. -/
def ST_STAT_8 : Fld := ⟨0x06, 0x054, 8, 7, 0, 0⟩

/-- R479. -/
def ST_ERRSEC_0 : Fld := ⟨0x06, 0x058, 0, 23, 0, 0⟩

/-- R479. -/
def ST_SLOTOPEN_0 : Fld := ⟨0x06, 0x05C, 0, 12, 0, 0⟩

/-- R479. -/
def ST_D_STAT_0 (i : Nat) : Fld := ⟨0x06, (0x080 + 32 * i), 0, 1, 0, 0⟩

/-- R479. -/
def ST_D_STAT_1 (i : Nat) : Fld := ⟨0x06, (0x080 + 32 * i), 1, 1, 0, 0⟩

/-- R479. -/
def ST_D_STAT_2 (i : Nat) : Fld := ⟨0x06, (0x080 + 32 * i), 2, 1, 0, 0⟩

/-- R479. -/
def ST_D_SPARE_0 (i : Nat) : Fld := ⟨0x06, (0x084 + 32 * i), 0, 13, 0, 0⟩

/-- R479. -/
def ST_D_SPARE_16 (i : Nat) : Fld := ⟨0x06, (0x084 + 32 * i), 16, 13, 0, 0⟩

/-- R479. -/
def ST_D_WEAR_0 (i : Nat) : Fld := ⟨0x06, (0x088 + 32 * i), 0, 16, 0, 0⟩

/-- R479. -/
def ST_D_WEAR_16 (i : Nat) : Fld := ⟨0x06, (0x088 + 32 * i), 16, 16, 0, 0⟩

/-- R479. -/
def ST_D_SCRUB_0 (i : Nat) : Fld := ⟨0x06, (0x08C + 32 * i), 0, 15, 0, 0⟩

/-- R479. -/
def ST_D_SCRUB_16 (i : Nat) : Fld := ⟨0x06, (0x08C + 32 * i), 16, 16, 0, 0⟩

/-- R479. -/
def ST_D_REFRESH_0 (i : Nat) : Fld := ⟨0x06, (0x090 + 32 * i), 0, 32, 0, 0⟩

/-- R479. -/
def ST_D_CORR_0 (i : Nat) : Fld := ⟨0x06, (0x094 + 32 * i), 0, 6, 0, 0⟩

/-- R479. -/
def ST_D_UNCORR_0 (i : Nat) : Fld := ⟨0x06, (0x098 + 32 * i), 0, 32, 0, 0⟩

/-- R479. -/
def ST_PINFO_0 (i : Nat) : Fld := ⟨0x06, (0x100 + 4 * i), 0, 23, 0, 0⟩

/-- R479. -/
def ST_PINFO_24 (i : Nat) : Fld := ⟨0x06, (0x100 + 4 * i), 24, 2, 0, 0⟩

/-- R479. -/
def ST_PINFO_26 (i : Nat) : Fld := ⟨0x06, (0x100 + 4 * i), 26, 1, 1, 0⟩

/-- R479. -/
def ST_PF_0 : Fld := ⟨0x06, 0x140, 0, 16, 0, 0⟩

/-- R479. -/
def ST_PF_16 : Fld := ⟨0x06, 0x140, 16, 1, 0, 0⟩

/-- R479. -/
def ST_PF_17 : Fld := ⟨0x06, 0x140, 17, 1, 0, 0⟩

/-- R479. -/
def ST_SCRUBCFG_0 : Fld := ⟨0x06, 0x144, 0, 5, 14, 0⟩

/-- R479. -/
def ST_SCRUBCFG_8 : Fld := ⟨0x06, 0x144, 8, 6, 24, 0⟩

/-- R460. -/
def LEDGER_frozen : Fld := ⟨0x07, 0x010, 0, 1, 0, 0⟩

/-- R460. -/
def LEDGER_fmt : Fld := ⟨0x07, 0x010, 1, 1, 0, 0⟩

/-- R460. -/
def LEDGER_mounted : Fld := ⟨0x07, 0x010, 2, 1, 0, 0⟩

/-- R460. -/
def LEDGER_raw : Fld := ⟨0x07, 0x020, 0, 6, 0, 0⟩

/-- R460. -/
def LEDGER_en : Fld := ⟨0x07, 0x024, 0, 6, 0, 0⟩

/-- R460. -/
def LEDGER_dropped : Fld := ⟨0x07, 0x030, 0, 16, 0, 0⟩

/-- R461. -/
def LG_CTL_0 : Fld := ⟨0x07, 0x040, 0, 1, 0, 0⟩

/-- R461. -/
def LG_CTL_8 : Fld := ⟨0x07, 0x040, 8, 3, 6, 0⟩

/-- R461. -/
def LG_CTL_16 : Fld := ⟨0x07, 0x040, 16, 8, 10, 0⟩

/-- R461. -/
def LG_CMD_0 : Fld := ⟨0x07, 0x044, 0, 1, 0, 0⟩

/-- R461. -/
def LG_CMD_1 : Fld := ⟨0x07, 0x044, 1, 1, 0, 0⟩

/-- R461. -/
def LG_CMD_2 : Fld := ⟨0x07, 0x044, 2, 1, 0, 0⟩

/-- R461. -/
def LG_CMD_3 : Fld := ⟨0x07, 0x044, 3, 1, 0, 0⟩

/-- R461. -/
def LG_CMD_4 : Fld := ⟨0x07, 0x044, 4, 1, 0, 0⟩

/-- R461. -/
def LG_CMD_5 : Fld := ⟨0x07, 0x044, 5, 1, 0, 0⟩

/-- R461. -/
def LG_CMD_6 : Fld := ⟨0x07, 0x044, 6, 1, 0, 0⟩

/-- R461. -/
def LG_CMD_STAT_0 : Fld := ⟨0x07, 0x048, 0, 2, 0, 0⟩

/-- R461. -/
def LG_HEAD_0 : Fld := ⟨0x07, 0x04C, 0, 32, 0, 0⟩

/-- R461. -/
def LG_OLDEST_0 : Fld := ⟨0x07, 0x050, 0, 32, 0, 0⟩

/-- R461. -/
def LG_FLUSHED_0 : Fld := ⟨0x07, 0x054, 0, 32, 0, 0⟩

/-- R461. -/
def LG_STAGED_0 : Fld := ⟨0x07, 0x058, 0, 16, 0, 0⟩

/-- R461. -/
def LG_OPTIME_0 : Fld := ⟨0x07, 0x05C, 0, 32, 0, 0⟩

/-- R461. -/
def LG_PCYCLE_0 : Fld := ⟨0x07, 0x060, 0, 24, 0, 0⟩

/-- R461. -/
def LG_FROZEN_LOST_0 : Fld := ⟨0x07, 0x064, 0, 24, 0, 0⟩

/-- R461. -/
def LG_FROZEN_LOST_24 : Fld := ⟨0x07, 0x064, 24, 3, 0, 0⟩

/-- R461. -/
def LG_CURSOR_0 : Fld := ⟨0x07, 0x080, 0, 32, 0, 0⟩

/-- R461. -/
def LG_RDSTAT_0 : Fld := ⟨0x07, 0x084, 0, 1, 0, 0⟩

/-- R461. -/
def LG_RDSTAT_1 : Fld := ⟨0x07, 0x084, 1, 1, 0, 0⟩

/-- R461. -/
def LG_RDSTAT_2 : Fld := ⟨0x07, 0x084, 2, 1, 0, 0⟩

/-- R461. -/
def LG_RDSTAT_3 : Fld := ⟨0x07, 0x084, 3, 1, 0, 0⟩

/-- R461. -/
def LG_RDSTAT_4 : Fld := ⟨0x07, 0x084, 4, 1, 0, 0⟩

/-- R461. -/
def LG_RSEQ_0 : Fld := ⟨0x07, 0x088, 0, 32, 0, 0⟩

/-- R461. -/
def LG_WIN_0 (i : Nat) : Fld := ⟨0x07, (0x0A0 + 4 * i), 0, 32, 0, 0⟩

/-- R461. -/
def LG_DROP_0 (i : Nat) : Fld := ⟨0x07, (0x0C0 + 4 * i), 0, 32, 0, 0⟩

/-- R461. -/
def LG_OVERWR_0 (i : Nat) : Fld := ⟨0x07, (0x0E0 + 4 * i), 0, 32, 0, 0⟩

/-- R461. -/
def LG_SUB_HDR_0 (c : Nat) : Fld := ⟨0x07, 0x100, 0, 16, 26112, (1 + c)⟩

/-- R461. -/
def LG_SUB_HDR_16 (c : Nat) : Fld := ⟨0x07, 0x100, 16, 3, 0, (1 + c)⟩

/-- R461. -/
def LG_SUB_HDR_24 (c : Nat) : Fld := ⟨0x07, 0x100, 24, 5, 0, (1 + c)⟩

/-- R461. -/
def LG_SUB_HDR_31 (c : Nat) : Fld := ⟨0x07, 0x100, 31, 1, 1, (1 + c)⟩

/-- R461. -/
def LG_SUB_P_0 (i c : Nat) : Fld := ⟨0x07, (0x104 + 4 * i), 0, 32, 0, (1 + c)⟩

/-- R461. -/
def LG_SUB_GO_0 (c : Nat) : Fld := ⟨0x07, 0x114, 0, 1, 0, (1 + c)⟩

/-- R461. -/
def LG_RSEL_0 : Fld := ⟨0x07, 0x13C, 0, 12, 0, 0⟩

/-- R461. -/
def LG_R_CODE_0 (e : Nat) : Fld := ⟨0x07, 0x140, 0, 16, 0, (1 + e)⟩

/-- R461. -/
def LG_R_CODE_31 (e : Nat) : Fld := ⟨0x07, 0x140, 31, 1, 0, (1 + e)⟩

/-- R461. -/
def LG_R_RATE_0 (e : Nat) : Fld := ⟨0x07, 0x144, 0, 10, 10, (1 + e)⟩

/-- R461. -/
def LG_R_RATE_16 (e : Nat) : Fld := ⟨0x07, 0x144, 16, 10, 20, (1 + e)⟩

/-- R461. -/
def LG_R_SUPP_0 (e : Nat) : Fld := ⟨0x07, 0x148, 0, 32, 0, (1 + e)⟩

/-- R461. -/
def LG_RATE_DEF_0 : Fld := ⟨0x07, 0x150, 0, 10, 100, 0⟩

/-- R461. -/
def LG_RATE_DEF_16 : Fld := ⟨0x07, 0x150, 16, 10, 200, 0⟩

/-- R461. -/
def LG_DEF_SUPP_0 : Fld := ⟨0x07, 0x154, 0, 32, 0, 0⟩

/-- R101. -/
def ASSAY_log_hold : Fld := ⟨0x08, 0x00C, 0, 1, 1, 0⟩

/-- R101. -/
def ASSAY_voters : Fld := ⟨0x08, 0x010, 0, 3, 7, 0⟩

/-- R101. -/
def ASSAY_mode : Fld := ⟨0x08, 0x010, 4, 2, 3, 0⟩

/-- R101. -/
def ASSAY_raw : Fld := ⟨0x08, 0x020, 0, 4, 0, 0⟩

/-- R101. -/
def ASSAY_en : Fld := ⟨0x08, 0x024, 0, 4, 0, 0⟩

/-- R101. -/
def ASSAY_div_count : Fld := ⟨0x08, 0x030, 0, 16, 0, 0⟩

/-- R102. -/
def ASSAY_SKEW_0 : Fld := ⟨0x08, 0x040, 0, 11, 200, 0⟩

/-- R102. -/
def ASSAY_SKEW_16 : Fld := ⟨0x08, 0x040, 16, 11, 100, 0⟩

/-- R102. -/
def ASSAY_LAG_0 (i : Nat) : Fld := ⟨0x08, (0x050 + 4 * i), 0, 16, 0, 0⟩

/-- R102. -/
def ASSAY_LAG_MAX_0 (i : Nat) : Fld := ⟨0x08, (0x060 + 4 * i), 0, 16, 0, 0⟩

/-- R102. -/
def ASSAY_OCC_0 (i : Nat) : Fld := ⟨0x08, (0x070 + 4 * i), 0, 8, 0, 0⟩

/-- R102. -/
def ASSAY_OCC_8 (i : Nat) : Fld := ⟨0x08, (0x070 + 4 * i), 8, 8, 0, 0⟩

/-- R102. -/
def ASSAY_OCC_16 (i : Nat) : Fld := ⟨0x08, (0x070 + 4 * i), 16, 11, 0, 0⟩

/-- R102. -/
def ASSAY_HOLDS_0 (i : Nat) : Fld := ⟨0x08, (0x080 + 4 * i), 0, 32, 0, 0⟩

/-- R102. -/
def ASSAY_DIV_CAUSE_0 : Fld := ⟨0x08, 0x100, 0, 2, 3, 0⟩

/-- R102. -/
def ASSAY_DIV_CAUSE_2 : Fld := ⟨0x08, 0x100, 2, 2, 0, 0⟩

/-- R102. -/
def ASSAY_DIV_CAUSE_4 : Fld := ⟨0x08, 0x100, 4, 4, 0, 0⟩

/-- R102. -/
def ASSAY_DIV_CAUSE_8 : Fld := ⟨0x08, 0x100, 8, 1, 0, 0⟩

/-- R102. -/
def ASSAY_DIV_CAUSE_9 : Fld := ⟨0x08, 0x100, 9, 1, 0, 0⟩

/-- R102. -/
def ASSAY_DIV_CAUSE_10 : Fld := ⟨0x08, 0x100, 10, 1, 0, 0⟩

/-- R102. -/
def ASSAY_DIV_SEQ_0 : Fld := ⟨0x08, 0x104, 0, 16, 0, 0⟩

/-- R102. -/
def ASSAY_DIV_SEQ_16 : Fld := ⟨0x08, 0x104, 16, 1, 0, 0⟩

/-- R102. -/
def ASSAY_DIV_ADDR_LO_0 : Fld := ⟨0x08, 0x108, 0, 32, 0, 0⟩

/-- R102. -/
def ASSAY_DIV_ADDR_HI_0 : Fld := ⟨0x08, 0x10C, 0, 4, 0, 0⟩

/-- R102. -/
def ASSAY_DIV_CNT_LO_0 : Fld := ⟨0x08, 0x110, 0, 32, 0, 0⟩

/-- R102. -/
def ASSAY_DIV_CNT_HI_0 : Fld := ⟨0x08, 0x114, 0, 32, 0, 0⟩

/-- R102. -/
def ASSAY_DIV_TIME_LO_0 : Fld := ⟨0x08, 0x118, 0, 32, 0, 0⟩

/-- R102. -/
def ASSAY_DIV_TIME_HI_0 : Fld := ⟨0x08, 0x11C, 0, 32, 0, 0⟩

/-- R102. -/
def ASSAY_DIV_SYND_LO_0 : Fld := ⟨0x08, 0x120, 0, 32, 0, 0⟩

/-- R102. -/
def ASSAY_DIV_SYND_HI_0 : Fld := ⟨0x08, 0x124, 0, 32, 0, 0⟩

/-- R102. -/
def ASSAY_DIG_LO_0 (i : Nat) : Fld := ⟨0x08, (0x140 + 16 * i), 0, 32, 0, 0⟩

/-- R102. -/
def ASSAY_DIG_HI_0 (i : Nat) : Fld := ⟨0x08, (0x144 + 16 * i), 0, 32, 0, 0⟩

/-- R102. -/
def ASSAY_DIG_CNT_LO_0 (i : Nat) : Fld := ⟨0x08, (0x148 + 16 * i), 0, 32, 0, 0⟩

/-- R102. -/
def ASSAY_DIG_CNT_HI_0 (i : Nat) : Fld := ⟨0x08, (0x14C + 16 * i), 0, 32, 0, 0⟩

/-- R125. -/
def LANEMGR_rejoin_lane : Fld := ⟨0x09, 0x010, 0, 3, 7, 0⟩

/-- R125. -/
def LANEMGR_raw : Fld := ⟨0x09, 0x020, 0, 6, 0, 0⟩

/-- R125. -/
def LANEMGR_en : Fld := ⟨0x09, 0x024, 0, 6, 0, 0⟩

/-- R125. -/
def LANEMGR_iso_count : Fld := ⟨0x09, 0x030, 0, 16, 0, 0⟩

/-- R126. -/
def LM_STATE_0 : Fld := ⟨0x09, 0x040, 0, 3, 1, 0⟩

/-- R126. -/
def LM_STATE_4 : Fld := ⟨0x09, 0x040, 4, 3, 1, 0⟩

/-- R126. -/
def LM_STATE_8 : Fld := ⟨0x09, 0x040, 8, 3, 1, 0⟩

/-- R126. -/
def LM_STATE_16 : Fld := ⟨0x09, 0x040, 16, 1, 0, 0⟩

/-- R126. -/
def LM_CMD_0 : Fld := ⟨0x09, 0x044, 0, 2, 0, 0⟩

/-- R126. -/
def LM_CMD_4 : Fld := ⟨0x09, 0x044, 4, 4, 0, 0⟩

/-- R126. -/
def LM_CMD_STAT_0 : Fld := ⟨0x09, 0x048, 0, 4, 0, 0⟩

/-- R126. -/
def LM_CAUSE_0 (i : Nat) : Fld := ⟨0x09, (0x050 + 4 * i), 0, 4, 0, 0⟩

/-- R126. -/
def LM_CAUSE_4 (i : Nat) : Fld := ⟨0x09, (0x050 + 4 * i), 4, 2, 0, 0⟩

/-- R126. -/
def LM_CAUSE_8 (i : Nat) : Fld := ⟨0x09, (0x050 + 4 * i), 8, 4, 0, 0⟩

/-- R126. -/
def LM_REJOIN_0 : Fld := ⟨0x09, 0x060, 0, 4, 3, 0⟩

/-- R126. -/
def LM_REJOIN_4 : Fld := ⟨0x09, 0x060, 4, 8, 200, 0⟩

/-- R126. -/
def LM_REJOIN_12 : Fld := ⟨0x09, 0x060, 12, 3, 0, 0⟩

/-- R126. -/
def LM_REJOIN_16 : Fld := ⟨0x09, 0x060, 16, 5, 16, 0⟩

/-- R126. -/
def LM_REJOIN_24 : Fld := ⟨0x09, 0x060, 24, 4, 3, 0⟩

/-- R126. -/
def LM_REJ_STAT_0 : Fld := ⟨0x09, 0x064, 0, 3, 0, 0⟩

/-- R126. -/
def LM_REJ_STAT_4 : Fld := ⟨0x09, 0x064, 4, 5, 0, 0⟩

/-- R126. -/
def LM_REJ_DIRTY_0 : Fld := ⟨0x09, 0x068, 0, 21, 0, 0⟩

/-- R126. -/
def LM_REJ_WIN_0 : Fld := ⟨0x09, 0x06C, 0, 12, 0, 0⟩

/-- R126. -/
def LM_REJ_CNT_0 : Fld := ⟨0x09, 0x070, 0, 12, 0, 0⟩

/-- R126. -/
def LM_TEST_0 : Fld := ⟨0x09, 0x078, 0, 9, 60, 0⟩

/-- R126. -/
def LM_TEST_16 : Fld := ⟨0x09, 0x078, 16, 1, 0, 0⟩

/-- R126. -/
def LM_TEST_STAT_0 : Fld := ⟨0x09, 0x07C, 0, 16, 0, 0⟩

/-- R126. -/
def LM_TEST_STAT_16 : Fld := ⟨0x09, 0x07C, 16, 1, 0, 0⟩

/-- R126. -/
def LM_ECC_CORR_0 (i : Nat) : Fld := ⟨0x09, (0x080 + 4 * i), 0, 32, 0, 0⟩

/-- R126. -/
def LM_PAIRSTOP_0 : Fld := ⟨0x09, 0x090, 0, 4, 0, 0⟩

/-- R126. -/
def LM_DBG_0 : Fld := ⟨0x09, 0x094, 0, 2, 3, 0⟩

/-- R126. -/
def LM_DBG_4 : Fld := ⟨0x09, 0x094, 4, 1, 0, 0⟩

/-- R148. -/
def COURIER_suspended : Fld := ⟨0x0A, 0x010, 0, 1, 0, 0⟩

/-- R148. -/
def COURIER_raw : Fld := ⟨0x0A, 0x020, 0, 3, 0, 0⟩

/-- R148. -/
def COURIER_en : Fld := ⟨0x0A, 0x024, 0, 3, 0, 0⟩

/-- R148. -/
def COURIER_late_count : Fld := ⟨0x0A, 0x030, 0, 16, 0, 0⟩

/-- R149. -/
def COUR_LEAD_0 : Fld := ⟨0x0A, 0x040, 0, 16, 4096, 0⟩

/-- R149. -/
def COUR_SOFT_0 : Fld := ⟨0x0A, 0x044, 0, 6, 0, 0⟩

/-- R149. -/
def COUR_PAIRSTAT_0 (i : Nat) : Fld := ⟨0x0A, (0x050 + 4 * i), 0, 9, 0, 0⟩

/-- R149. -/
def COUR_PAIRSTAT_12 (i : Nat) : Fld := ⟨0x0A, (0x050 + 4 * i), 12, 1, 0, 0⟩

/-- R149. -/
def COUR_PAIRSTAT_13 (i : Nat) : Fld := ⟨0x0A, (0x050 + 4 * i), 13, 1, 0, 0⟩

/-- R149. -/
def COUR_HIGH_LO_0 (i : Nat) : Fld := ⟨0x0A, (0x060 + 8 * i), 0, 32, 0, 0⟩

/-- R149. -/
def COUR_HIGH_HI_0 (i : Nat) : Fld := ⟨0x0A, (0x064 + 8 * i), 0, 32, 0, 0⟩

/-- R149. -/
def COUR_LASTD_LO_0 (i : Nat) : Fld := ⟨0x0A, (0x080 + 8 * i), 0, 32, 0, 0⟩

/-- R149. -/
def COUR_LASTD_HI_0 (i : Nat) : Fld := ⟨0x0A, (0x084 + 8 * i), 0, 32, 0, 0⟩

/-- R149. -/
def COUR_OCC_0 (i : Nat) : Fld := ⟨0x0A, (0x0A0 + 4 * i), 0, 9, 0, 0⟩

/-- R149. -/
def COUR_STAMPS_0 (i : Nat) : Fld := ⟨0x0A, (0x0B0 + 4 * i), 0, 32, 0, 0⟩

/-- R149. -/
def COUR_DROP_0 : Fld := ⟨0x0A, 0x0C0, 0, 32, 0, 0⟩

/-- R149. -/
def COUR_ROUTE_0 (i : Nat) : Fld := ⟨0x0A, (0x400 + 4 * i), 0, 2, 0, 0⟩

/-- R149. -/
def COUR_ROUTE_2 (i : Nat) : Fld := ⟨0x0A, (0x400 + 4 * i), 2, 1, 0, 0⟩

/-- R149. -/
def COUR_ROUTE_3 (i : Nat) : Fld := ⟨0x0A, (0x400 + 4 * i), 3, 4, 0, 0⟩

/-- R149. -/
def COUR_ROUTE_8 (i : Nat) : Fld := ⟨0x0A, (0x400 + 4 * i), 8, 2, 0, 0⟩

/-- R149. -/
def COUR_ROUTE_10 (i : Nat) : Fld := ⟨0x0A, (0x400 + 4 * i), 10, 1, 0, 0⟩

/-- R149. -/
def COUR_ROUTE_11 (i : Nat) : Fld := ⟨0x0A, (0x400 + 4 * i), 11, 4, 0, 0⟩

/-- R149. -/
def COUR_ROUTE_16 (i : Nat) : Fld := ⟨0x0A, (0x400 + 4 * i), 16, 2, 0, 0⟩

/-- R149. -/
def COUR_ROUTE_18 (i : Nat) : Fld := ⟨0x0A, (0x400 + 4 * i), 18, 1, 0, 0⟩

/-- R149. -/
def COUR_ROUTE_19 (i : Nat) : Fld := ⟨0x0A, (0x400 + 4 * i), 19, 4, 0, 0⟩

/-- R149. -/
def COUR_ROUTE_24 (i : Nat) : Fld := ⟨0x0A, (0x400 + 4 * i), 24, 2, 0, 0⟩

/-- R149. -/
def COUR_ROUTE_26 (i : Nat) : Fld := ⟨0x0A, (0x400 + 4 * i), 26, 1, 0, 0⟩

/-- R149. -/
def COUR_ROUTE_27 (i : Nat) : Fld := ⟨0x0A, (0x400 + 4 * i), 27, 4, 0, 0⟩

/-- R177. -/
def CYCLE_run : Fld := ⟨0x0B, 0x00C, 0, 1, 0, 0⟩

/-- R177. -/
def CYCLE_running : Fld := ⟨0x0B, 0x010, 0, 1, 0, 0⟩

/-- R177. -/
def CYCLE_raw : Fld := ⟨0x0B, 0x020, 0, 3, 0, 0⟩

/-- R177. -/
def CYCLE_en : Fld := ⟨0x0B, 0x024, 0, 3, 0, 0⟩

/-- R177. -/
def CYCLE_overrun_count : Fld := ⟨0x0B, 0x030, 0, 16, 0, 0⟩

/-- R178. -/
def CYC_BASE_0 : Fld := ⟨0x0B, 0x040, 0, 14, 100, 0⟩

/-- R178. -/
def CYC_RESTART_0 : Fld := ⟨0x0B, 0x044, 0, 2, 0, 0⟩

/-- R178. -/
def CYC_START_0 : Fld := ⟨0x0B, 0x048, 0, 2, 0, 0⟩

/-- R178. -/
def CYC_START_4 : Fld := ⟨0x0B, 0x048, 4, 4, 0, 0⟩

/-- R178. -/
def CYC_BNUM_LO_0 : Fld := ⟨0x0B, 0x050, 0, 32, 0, 0⟩

/-- R178. -/
def CYC_BNUM_HI_0 : Fld := ⟨0x0B, 0x054, 0, 32, 0, 0⟩

/-- R178. -/
def CYC_CFG_0 (i : Nat) : Fld := ⟨0x0B, (0x080 + 16 * i), 0, 11, 1, 0⟩

/-- R178. -/
def CYC_CFG_11 (i : Nat) : Fld := ⟨0x0B, (0x080 + 16 * i), 11, 10, 0, 0⟩

/-- R178. -/
def CYC_CFG_21 (i : Nat) : Fld := ⟨0x0B, (0x080 + 16 * i), 21, 1, 0, 0⟩

/-- R178. -/
def CYC_GUARD_0 (i : Nat) : Fld := ⟨0x0B, (0x084 + 16 * i), 0, 10, 50, 0⟩

/-- R178. -/
def CYC_ESC_0 (i : Nat) : Fld := ⟨0x0B, (0x088 + 16 * i), 0, 4, 3, 0⟩

/-- R178. -/
def CYC_ESC_4 (i : Nat) : Fld := ⟨0x0B, (0x088 + 16 * i), 4, 2, 0, 0⟩

/-- R178. -/
def CYC_TMASK_0 (i : Nat) : Fld := ⟨0x0B, (0x08C + 16 * i), 0, 32, 0, 0⟩

/-- R178. -/
def CYC_DONE_0 (i : Nat) : Fld := ⟨0x0B, (0x100 + 4 * i), 0, 32, 0, 0⟩

/-- R178. -/
def CYC_DSTAT_0 (i : Nat) : Fld := ⟨0x0B, (0x120 + 4 * i), 0, 32, 0, 0⟩

/-- R178. -/
def CYC_OVSTAT_0 (i : Nat) : Fld := ⟨0x0B, (0x140 + 4 * i), 0, 8, 0, 0⟩

/-- R178. -/
def CYC_OVSTAT_8 (i : Nat) : Fld := ⟨0x0B, (0x140 + 4 * i), 8, 1, 0, 0⟩

/-- R178. -/
def CYC_OVSTAT_9 (i : Nat) : Fld := ⟨0x0B, (0x140 + 4 * i), 9, 1, 0, 0⟩

/-- R178. -/
def CYC_OVCNT_0 (i : Nat) : Fld := ⟨0x0B, (0x160 + 4 * i), 0, 32, 0, 0⟩

/-- R178. -/
def CYC_CYCNT_0 (i : Nat) : Fld := ⟨0x0B, (0x180 + 4 * i), 0, 32, 0, 0⟩

/-- R178. -/
def CYC_STALL_CLS_0 : Fld := ⟨0x0B, 0x1A0, 0, 3, 0, 0⟩

/-- R178. -/
def CYC_STALL_CLS_31 : Fld := ⟨0x0B, 0x1A0, 31, 1, 0, 0⟩

/-- R178. -/
def CYC_STALL_T_0 : Fld := ⟨0x0B, 0x1A4, 0, 32, 0, 0⟩

/-- R178. -/
def CYC_STALL_0 (i : Nat) : Fld := ⟨0x0B, (0x200 + 4 * i), 0, 2, 0, 0⟩

/-- R178. -/
def CYC_STALL_2 (i : Nat) : Fld := ⟨0x0B, (0x200 + 4 * i), 2, 1, 0, 0⟩

/-- R178. -/
def CYC_STALL_3 (i : Nat) : Fld := ⟨0x0B, (0x200 + 4 * i), 3, 1, 0, 0⟩

/-- R178. -/
def CYC_STALL_4 (i : Nat) : Fld := ⟨0x0B, (0x200 + 4 * i), 4, 10, 0, 0⟩

/-- R178. -/
def CYC_STALL_14 (i : Nat) : Fld := ⟨0x0B, (0x200 + 4 * i), 14, 1, 0, 0⟩

/-- R178. -/
def CYC_STALL_15 (i : Nat) : Fld := ⟨0x0B, (0x200 + 4 * i), 15, 1, 0, 0⟩

/-- R179. -/
def DIMG_table : Fld := ⟨0x0C, 0x010, 0, 2, 0, 0⟩

/-- R179. -/
def DIMG_raw : Fld := ⟨0x0C, 0x020, 0, 4, 0, 0⟩

/-- R179. -/
def DIMG_en : Fld := ⟨0x0C, 0x024, 0, 4, 0, 0⟩

/-- R179. -/
def DIMG_reject_count : Fld := ⟨0x0C, 0x030, 0, 16, 0, 0⟩

/-- R179. -/
def DIMG_LOCK_0 : Fld := ⟨0x0C, 0x040, 0, 1, 0, 0⟩

/-- R179. -/
def DIMG_LOCK_STAT_0 : Fld := ⟨0x0C, 0x044, 0, 16, 0, 0⟩

/-- R179. -/
def DIMG_LOCK_STAT_16 : Fld := ⟨0x0C, 0x044, 16, 4, 0, 0⟩

/-- R179. -/
def DIMG_NVAR_0 : Fld := ⟨0x0C, 0x048, 0, 17, 0, 0⟩

/-- R179. -/
def DIMG_USED_0 : Fld := ⟨0x0C, 0x04C, 0, 22, 0, 0⟩

/-- R179. -/
def DIMG_RETAIN_0 : Fld := ⟨0x0C, 0x050, 0, 18, 0, 0⟩

/-- R179. -/
def DIMG_RETAIN_24 : Fld := ⟨0x0C, 0x050, 24, 1, 0, 0⟩

/-- R179. -/
def DIMG_REJ_LAST_0 : Fld := ⟨0x0C, 0x060, 0, 16, 0, 0⟩

/-- R179. -/
def DIMG_REJ_LAST_16 : Fld := ⟨0x0C, 0x060, 16, 16, 0, 0⟩

/-- R179. -/
def DIMG_LATE_0 : Fld := ⟨0x0C, 0x064, 0, 32, 0, 0⟩

/-- R179. -/
def DIMG_LATE_LAST_0 : Fld := ⟨0x0C, 0x068, 0, 16, 0, 0⟩

/-- R179. -/
def DIMG_MERGED_0 : Fld := ⟨0x0C, 0x06C, 0, 32, 0, 0⟩

/-- R179. -/
def DIMG_PATCH_CTL_0 : Fld := ⟨0x0C, 0x070, 0, 9, 1, 0⟩

/-- R179. -/
def DIMG_PATCH_CTL_12 : Fld := ⟨0x0C, 0x070, 12, 3, 0, 0⟩

/-- R179. -/
def DIMG_PATCH_CMD_0 : Fld := ⟨0x0C, 0x074, 0, 1, 0, 0⟩

/-- R179. -/
def DIMG_PATCH_CMD_1 : Fld := ⟨0x0C, 0x074, 1, 1, 0, 0⟩

/-- R179. -/
def DIMG_PATCH_STAT_0 : Fld := ⟨0x0C, 0x078, 0, 2, 0, 0⟩

/-- R179. -/
def DIMG_PATCH_STAT_4 : Fld := ⟨0x0C, 0x078, 4, 8, 0, 0⟩

/-- R179. -/
def DIMG_PATCH_STAT_12 : Fld := ⟨0x0C, 0x078, 12, 4, 0, 0⟩

/-- R234. -/
def TALLY_masked : Fld := ⟨0x0D, 0x010, 0, 16, 0, 0⟩

/-- R234. -/
def TALLY_raw : Fld := ⟨0x0D, 0x020, 0, 3, 0, 0⟩

/-- R234. -/
def TALLY_en : Fld := ⟨0x0D, 0x024, 0, 3, 0, 0⟩

/-- R234. -/
def TALLY_sat_count : Fld := ⟨0x0D, 0x030, 0, 16, 0, 0⟩

/-- R234. -/
def TALLY_PERIOD_0 : Fld := ⟨0x0D, 0x040, 0, 16, 1000, 0⟩

/-- R234. -/
def TALLY_DEAD_0 : Fld := ⟨0x0D, 0x044, 0, 32, 0, 0⟩

/-- R234. -/
def TALLY_TAGS_0 : Fld := ⟨0x0D, 0x048, 0, 13, 0, 0⟩

/-- R234. -/
def TALLY_TAGS_13 : Fld := ⟨0x0D, 0x048, 13, 11, 0, 0⟩

/-- R234. -/
def TALLY_TAGS_MAX_0 : Fld := ⟨0x0D, 0x04C, 0, 24, 0, 0⟩

/-- R234. -/
def TALLY_TAGWAIT_0 : Fld := ⟨0x0D, 0x050, 0, 32, 0, 0⟩

/-- R234. -/
def TALLY_HP_0 (i : Nat) : Fld := ⟨0x0D, (0x080 + 4 * i), 0, 1, (if i = 0 ∨ i = 3 then 1 else 0), 0⟩

/-- R234. -/
def TALLY_HP_1 (i : Nat) : Fld := ⟨0x0D, (0x080 + 4 * i), 1, 8, 4, 0⟩

/-- R234. -/
def TALLY_WAITA_0 (i : Nat) : Fld := ⟨0x0D, (0x0C0 + 4 * i), 0, 16, 0, 0⟩

/-- R234. -/
def TALLY_WAITB_0 (i : Nat) : Fld := ⟨0x0D, (0x100 + 4 * i), 0, 16, 0, 0⟩

/-- R234. -/
def TALLY_GRANTS_0 (i : Nat) : Fld := ⟨0x0D, (0x140 + 4 * i), 0, 32, 0, 0⟩

/-- R232. -/
def QMGR_enabled : Fld := ⟨0x0E, 0x010, 0, 11, 0, 0⟩

/-- R232. -/
def QMGR_held : Fld := ⟨0x0E, 0x010, 11, 11, 0, 0⟩

/-- R232. -/
def QMGR_raw : Fld := ⟨0x0E, 0x020, 0, 4, 0, 0⟩

/-- R232. -/
def QMGR_en : Fld := ⟨0x0E, 0x024, 0, 4, 0, 0⟩

/-- R232. -/
def QMGR_poison_count : Fld := ⟨0x0E, 0x030, 0, 16, 0, 0⟩

/-- R233. -/
def QMGR_QSEL_0 (c : Nat) : Fld := ⟨0x0E, 0x040, 0, 10, 0, (1 + c)⟩

/-- R233. -/
def QMGR_QSEL_16 (c : Nat) : Fld := ⟨0x0E, 0x040, 16, 8, 0, (1 + c)⟩

/-- R233. -/
def QMGR_PUSH_0 : Fld := ⟨0x0E, 0x044, 0, 32, 0, 0⟩

/-- R233. -/
def QMGR_PUSH_LAST_0 (i : Nat) : Fld := ⟨0x0E, (0x048 + 4 * i), 0, 32, 0, 0⟩

/-- R233. -/
def QMGR_POP_0 : Fld := ⟨0x0E, 0x058, 0, 32, 0, 0⟩

/-- R233. -/
def QMGR_GRP_0 (i c : Nat) : Fld := ⟨0x0E, (0x05C + 4 * i), 0, 32, 0, (1 + c)⟩

/-- R233. -/
def QMGR_LASTTAG_0 (c : Nat) : Fld := ⟨0x0E, 0x068, 0, 5, 0, (1 + c)⟩

/-- R233. -/
def QMGR_LASTTAG_5 (c : Nat) : Fld := ⟨0x0E, 0x068, 5, 1, 0, (1 + c)⟩

/-- R233. -/
def QMGR_LASTTAG_6 (c : Nat) : Fld := ⟨0x0E, 0x068, 6, 1, 0, (1 + c)⟩

/-- R233. -/
def QMGR_LASTTAG_7 (c : Nat) : Fld := ⟨0x0E, 0x068, 7, 1, 0, (1 + c)⟩

/-- R233. -/
def QMGR_QSTAT_0 : Fld := ⟨0x0E, 0x06C, 0, 22, 0, 0⟩

/-- R233. -/
def QMGR_QSTAT_22 : Fld := ⟨0x0E, 0x06C, 22, 1, 0, 0⟩

/-- R233. -/
def QMGR_QSTAT_23 : Fld := ⟨0x0E, 0x06C, 23, 1, 0, 0⟩

/-- R233. -/
def QMGR_QSTAT_24 : Fld := ⟨0x0E, 0x06C, 24, 1, 0, 0⟩

/-- R233. -/
def QMGR_QSTAT_25 : Fld := ⟨0x0E, 0x06C, 25, 1, 0, 0⟩

/-- R233. -/
def QMGR_QSTAT_26 : Fld := ⟨0x0E, 0x06C, 26, 1, 0, 0⟩

/-- R233. -/
def QMGR_QSTAT_27 : Fld := ⟨0x0E, 0x06C, 27, 1, 0, 0⟩

/-- R233. -/
def QMGR_QSPACE_0 : Fld := ⟨0x0E, 0x070, 0, 22, 0, 0⟩

/-- R233. -/
def QMGR_QCLR_0 : Fld := ⟨0x0E, 0x074, 0, 1, 0, 0⟩

/-- R233. -/
def QMGR_QSEL_T_0 : Fld := ⟨0x0E, 0x080, 0, 24, 0, 0⟩

/-- R233. -/
def QMGR_LASTTAG_T_0 : Fld := ⟨0x0E, 0x084, 0, 8, 0, 0⟩

/-- R233. -/
def QMGR_GRP_T_0 (i : Nat) : Fld := ⟨0x0E, (0x088 + 4 * i), 0, 32, 0, 0⟩

/-- R233. -/
def QMGR_CSEL_0 : Fld := ⟨0x0E, 0x100, 0, 10, 0, 0⟩

/-- R233. -/
def QMGR_CFG_BASE_0 (e : Nat) : Fld := ⟨0x0E, 0x104, 0, 18, 65536, (1 + e)⟩

/-- R233. -/
def QMGR_CFG_LINES_0 (e : Nat) : Fld := ⟨0x0E, 0x108, 0, 18, 1, (1 + e)⟩

/-- R233. -/
def QMGR_CFG_MODE_0 (e : Nat) : Fld := ⟨0x0E, 0x10C, 0, 1, 0, (1 + e)⟩

/-- R233. -/
def QMGR_CFG_MODE_1 (e : Nat) : Fld := ⟨0x0E, 0x10C, 1, 1, 0, (1 + e)⟩

/-- R233. -/
def QMGR_CFG_MAX_0 (e : Nat) : Fld := ⟨0x0E, 0x110, 0, 16, 65535, (1 + e)⟩

/-- R233. -/
def QMGR_CFG_EVT_0 (e : Nat) : Fld := ⟨0x0E, 0x114, 0, 2, 0, (1 + e)⟩

/-- R233. -/
def QMGR_CFG_EVT_2 (e : Nat) : Fld := ⟨0x0E, 0x114, 2, 22, 1, (1 + e)⟩

/-- R233. -/
def QMGR_CMD_0 : Fld := ⟨0x0E, 0x118, 0, 1, 0, 0⟩

/-- R233. -/
def QMGR_CMD_1 : Fld := ⟨0x0E, 0x118, 1, 1, 0, 0⟩

/-- R233. -/
def QMGR_CMD_STAT_0 : Fld := ⟨0x0E, 0x11C, 0, 1, 0, 0⟩

/-- R233. -/
def QMGR_CMD_STAT_1 : Fld := ⟨0x0E, 0x11C, 1, 3, 0, 0⟩

/-- R233. -/
def QMGR_CMD_STAT_4 : Fld := ⟨0x0E, 0x11C, 4, 10, 0, 0⟩

/-- R233. -/
def QMGR_OVERSIZE_0 : Fld := ⟨0x0E, 0x140, 0, 32, 0, 0⟩

/-- R233. -/
def QMGR_UNDERRUN_0 : Fld := ⟨0x0E, 0x144, 0, 32, 0, 0⟩

/-- R233. -/
def QMGR_POISON_LAST_0 : Fld := ⟨0x0E, 0x148, 0, 10, 0, 0⟩

/-- R233. -/
def QMGR_POISON_LAST_10 : Fld := ⟨0x0E, 0x148, 10, 22, 0, 0⟩

/-- R206. -/
def MEMCTL_fill_busy : Fld := ⟨0x0F, 0x010, 0, 1, 0, 0⟩

/-- R206. -/
def MEMCTL_raw : Fld := ⟨0x0F, 0x020, 0, 5, 0, 0⟩

/-- R206. -/
def MEMCTL_en : Fld := ⟨0x0F, 0x024, 0, 5, 0, 0⟩

/-- R206. -/
def MEMCTL_ecc_count : Fld := ⟨0x0F, 0x030, 0, 16, 0, 0⟩

/-- R206. -/
def MEMCTL_EPOCH_0 : Fld := ⟨0x0F, 0x040, 0, 16, 0, 0⟩

/-- R206. -/
def MEMCTL_EPOCH_16 : Fld := ⟨0x0F, 0x040, 16, 1, 1, 0⟩

/-- R206. -/
def MEMCTL_EPOCH_CMD_0 : Fld := ⟨0x0F, 0x044, 0, 1, 0, 0⟩

/-- R206. -/
def MEMCTL_EPOCH_STAT_0 : Fld := ⟨0x0F, 0x048, 0, 1, 0, 0⟩

/-- R206. -/
def MEMCTL_EPOCH_STAT_1 : Fld := ⟨0x0F, 0x048, 1, 10, 0, 0⟩

/-- R206. -/
def MEMCTL_EPOCH_STAT_11 : Fld := ⟨0x0F, 0x048, 11, 5, 0, 0⟩

/-- R206. -/
def MEMCTL_EPOCH_STAT_16 : Fld := ⟨0x0F, 0x048, 16, 5, 0, 0⟩

/-- R206. -/
def MEMCTL_EPOCH_STAT_21 : Fld := ⟨0x0F, 0x048, 21, 1, 0, 0⟩

/-- R206. -/
def MEMCTL_OLD_0 : Fld := ⟨0x0F, 0x04C, 0, 14, 0, 0⟩

/-- R206. -/
def MEMCTL_OLD_14 : Fld := ⟨0x0F, 0x04C, 14, 1, 0, 0⟩

/-- R206. -/
def MEMCTL_OLD_15 : Fld := ⟨0x0F, 0x04C, 15, 1, 0, 0⟩

/-- R206. -/
def MEMCTL_FWCRED_0 : Fld := ⟨0x0F, 0x050, 0, 11, 0, 0⟩

/-- R206. -/
def MEMCTL_RET_0 : Fld := ⟨0x0F, 0x060, 0, 16, 65535, 0⟩

/-- R206. -/
def MEMCTL_BANKSTAT_0 : Fld := ⟨0x0F, 0x064, 0, 32, 0, 0⟩

/-- R206. -/
def MEMCTL_SCRUB_0 : Fld := ⟨0x0F, 0x068, 0, 16, 0, 0⟩

/-- R206. -/
def MEMCTL_ECC_LAST_0 : Fld := ⟨0x0F, 0x06C, 0, 24, 0, 0⟩

/-- R206. -/
def MEMCTL_ECC_0 (i : Nat) : Fld := ⟨0x0F, (0x0A0 + 4 * i), 0, 32, 0, 0⟩

/-- R206. -/
def MEMCTL_FILL_BASE_0 : Fld := ⟨0x0F, 0x070, 0, 18, 0, 0⟩

/-- R206. -/
def MEMCTL_FILL_LEN_0 : Fld := ⟨0x0F, 0x074, 0, 19, 1, 0⟩

/-- R206. -/
def MEMCTL_FILL_PAT_LO_0 : Fld := ⟨0x0F, 0x078, 0, 32, 0, 0⟩

/-- R206. -/
def MEMCTL_FILL_PAT_HI_0 : Fld := ⟨0x0F, 0x07C, 0, 32, 0, 0⟩

/-- R206. -/
def MEMCTL_FILL_CMD_0 : Fld := ⟨0x0F, 0x080, 0, 1, 0, 0⟩

/-- R206. -/
def MEMCTL_FILL_STAT_0 : Fld := ⟨0x0F, 0x084, 0, 2, 0, 0⟩

/-- R206. -/
def MEMCTL_FILL_STAT_4 : Fld := ⟨0x0F, 0x084, 4, 2, 0, 0⟩

/-- R206. -/
def MEMCTL_FILL_POS_0 : Fld := ⟨0x0F, 0x088, 0, 19, 0, 0⟩

/-- R204. -/
def TEN_ctl_en (n : Nat) : Fld := ⟨(0x10 + n), 0x00C, 0, 1, 0, 0⟩

/-- R204. -/
def TEN_active_en (n : Nat) : Fld := ⟨(0x10 + n), 0x010, 0, 1, 0, 0⟩

/-- R204. -/
def TEN_credits (n : Nat) : Fld := ⟨(0x10 + n), 0x010, 1, 11, 0, 0⟩

/-- R204. -/
def TEN_raw (n : Nat) : Fld := ⟨(0x10 + n), 0x020, 0, 2, 0, 0⟩

/-- R204. -/
def TEN_en (n : Nat) : Fld := ⟨(0x10 + n), 0x024, 0, 2, 0, 0⟩

/-- R204. -/
def TEN_refuse_count (n : Nat) : Fld := ⟨(0x10 + n), 0x030, 0, 16, 0, 0⟩

/-- R205. -/
def TEN_CREDIT_0 (n : Nat) : Fld := ⟨(0x10 + n), 0x040, 0, 11, 256, 0⟩

/-- R205. -/
def TEN_CRED_MAX_0 (n : Nat) : Fld := ⟨(0x10 + n), 0x044, 0, 11, 0, 0⟩

/-- R205. -/
def TEN_CRED_HOLD_0 (n : Nat) : Fld := ⟨(0x10 + n), 0x048, 0, 32, 0, 0⟩

/-- R205. -/
def TEN_SOFTSRC_0 (n : Nat) : Fld := ⟨(0x10 + n), 0x050, 0, 11, 0, 0⟩

/-- R205. -/
def TEN_SOFT_0 (n : Nat) : Fld := ⟨(0x10 + n), 0x060, 0, 2, 0, 0⟩

/-- R205. -/
def TEN_REFUSE_LO_0 (n : Nat) : Fld := ⟨(0x10 + n), 0x064, 0, 32, 0, 0⟩

/-- R205. -/
def TEN_REFUSE_HI_0 (n : Nat) : Fld := ⟨(0x10 + n), 0x068, 0, 4, 0, 0⟩

/-- R205. -/
def TEN_REFUSE_HI_4 (n : Nat) : Fld := ⟨(0x10 + n), 0x068, 4, 3, 0, 0⟩

/-- R205. -/
def TEN_REFUSE_HI_7 (n : Nat) : Fld := ⟨(0x10 + n), 0x068, 7, 1, 0, 0⟩

/-- R205. -/
def TEN_EPOCH_0 (n : Nat) : Fld := ⟨(0x10 + n), 0x06C, 0, 16, 0, 0⟩

/-- R205. -/
def TEN_WIN_BASE_0 (n i : Nat) : Fld := ⟨(0x10 + n), (0x100 + 16 * i), 0, 18, 0, 0⟩

/-- R205. -/
def TEN_WIN_LIMIT_0 (n i : Nat) : Fld := ⟨(0x10 + n), (0x104 + 16 * i), 0, 18, 0, 0⟩

/-- R205. -/
def TEN_WIN_CTL_0 (n i : Nat) : Fld := ⟨(0x10 + n), (0x108 + 16 * i), 0, 1, 0, 0⟩

/-- R205. -/
def TEN_WIN_CTL_1 (n i : Nat) : Fld := ⟨(0x10 + n), (0x108 + 16 * i), 1, 1, 0, 0⟩

/-- R205. -/
def TEN_WIN_CTL_2 (n i : Nat) : Fld := ⟨(0x10 + n), (0x108 + 16 * i), 2, 1, 0, 0⟩

/-- R205. -/
def TEN_WIN_CTL_4 (n i : Nat) : Fld := ⟨(0x10 + n), (0x108 + 16 * i), 4, 1, 0, 0⟩

/-- R205. -/
def TEN_QUEUE_0 (n i : Nat) : Fld := ⟨(0x10 + n), (0x300 + 4 * i), 0, 10, 0, 0⟩

/-- R205. -/
def TEN_QUEUE_12 (n i : Nat) : Fld := ⟨(0x10 + n), (0x300 + 4 * i), 12, 1, 0, 0⟩

/-- R205. -/
def TEN_QUEUE_13 (n i : Nat) : Fld := ⟨(0x10 + n), (0x300 + 4 * i), 13, 1, 0, 0⟩

/-- R205. -/
def TEN_AWIN_BASE_0 (n i : Nat) : Fld := ⟨(0x10 + n), (0x200 + 16 * i), 0, 18, 0, 0⟩

/-- R205. -/
def TEN_AWIN_LIMIT_0 (n i : Nat) : Fld := ⟨(0x10 + n), (0x204 + 16 * i), 0, 18, 0, 0⟩

/-- R205. -/
def TEN_AWIN_CTL_0 (n i : Nat) : Fld := ⟨(0x10 + n), (0x208 + 16 * i), 0, 1, 0, 0⟩

/-- R205. -/
def TEN_AWIN_CTL_1 (n i : Nat) : Fld := ⟨(0x10 + n), (0x208 + 16 * i), 1, 1, 0, 0⟩

/-- R205. -/
def TEN_AWIN_CTL_2 (n i : Nat) : Fld := ⟨(0x10 + n), (0x208 + 16 * i), 2, 1, 0, 0⟩

/-- R205. -/
def TEN_AWIN_CTL_4 (n i : Nat) : Fld := ⟨(0x10 + n), (0x208 + 16 * i), 4, 1, 0, 0⟩

/-- R205. -/
def TEN_AQUEUE_0 (n i : Nat) : Fld := ⟨(0x10 + n), (0x380 + 4 * i), 0, 10, 0, 0⟩

/-- R205. -/
def TEN_AQUEUE_12 (n i : Nat) : Fld := ⟨(0x10 + n), (0x380 + 4 * i), 12, 1, 0, 0⟩

/-- R205. -/
def TEN_AQUEUE_13 (n i : Nat) : Fld := ⟨(0x10 + n), (0x380 + 4 * i), 13, 1, 0, 0⟩

/-- R264. -/
def ETH_up (n : Nat) : Fld := ⟨(0x30 + n), 0x010, 0, 1, 0, 0⟩

/-- R264. -/
def ETH_raw (n : Nat) : Fld := ⟨(0x30 + n), 0x020, 0, 4, 0, 0⟩

/-- R264. -/
def ETH_en (n : Nat) : Fld := ⟨(0x30 + n), 0x024, 0, 4, 0, 0⟩

/-- R264. -/
def ETH_err_count (n : Nat) : Fld := ⟨(0x30 + n), 0x030, 0, 16, 0, 0⟩

/-- R264. -/
def ETH_MAC_LO_0 (n : Nat) : Fld := ⟨(0x30 + n), 0x040, 0, 32, 0, 0⟩

/-- R264. -/
def ETH_MAC_HI_0 (n : Nat) : Fld := ⟨(0x30 + n), 0x044, 0, 16, 0, 0⟩

/-- R264. -/
def ETH_LINK_CTL_0 (n : Nat) : Fld := ⟨(0x30 + n), 0x048, 0, 1, 0, 0⟩

/-- R264. -/
def ETH_LINK_CTL_1 (n : Nat) : Fld := ⟨(0x30 + n), 0x048, 1, 1, 0, 0⟩

/-- R264. -/
def ETH_LINK_CTL_2 (n : Nat) : Fld := ⟨(0x30 + n), 0x048, 2, 1, 1, 0⟩

/-- R264. -/
def ETH_LINK_STAT_0 (n : Nat) : Fld := ⟨(0x30 + n), 0x04C, 0, 1, 0, 0⟩

/-- R264. -/
def ETH_LINK_STAT_1 (n : Nat) : Fld := ⟨(0x30 + n), 0x04C, 1, 1, 0, 0⟩

/-- R264. -/
def ETH_LINK_STAT_2 (n : Nat) : Fld := ⟨(0x30 + n), 0x04C, 2, 1, 0, 0⟩

/-- R264. -/
def ETH_LINK_STAT_3 (n : Nat) : Fld := ⟨(0x30 + n), 0x04C, 3, 1, 0, 0⟩

/-- R264. -/
def ETH_LINK_DOWNS_0 (n : Nat) : Fld := ⟨(0x30 + n), 0x050, 0, 16, 0, 0⟩

/-- R264. -/
def ETH_MCAST_addr_lo_0 (n i : Nat) : Fld := ⟨(0x30 + n), (0x080 + 8 * i), 0, 32, 0, 0⟩

/-- R264. -/
def ETH_MCAST_addr_hi_0 (n i : Nat) : Fld := ⟨(0x30 + n), (0x084 + 8 * i), 0, 16, 0, 0⟩

/-- R264. -/
def ETH_MCAST_en_31 (n i : Nat) : Fld := ⟨(0x30 + n), (0x084 + 8 * i), 31, 1, 0, 0⟩

/-- R264. -/
def ETH_FILTER_0 (n i : Nat) : Fld := ⟨(0x30 + n), (0x100 + 4 * i), 0, 16, 0, 0⟩

/-- R264. -/
def ETH_FILTER_16 (n i : Nat) : Fld := ⟨(0x30 + n), (0x100 + 4 * i), 16, 10, 0, 0⟩

/-- R264. -/
def ETH_FILTER_31 (n i : Nat) : Fld := ⟨(0x30 + n), (0x100 + 4 * i), 31, 1, 0, 0⟩

/-- R264. -/
def ETH_RX_GOOD_0 (n : Nat) : Fld := ⟨(0x30 + n), 0x140, 0, 32, 0, 0⟩

/-- R264. -/
def ETH_RX_FCS_0 (n : Nat) : Fld := ⟨(0x30 + n), 0x144, 0, 32, 0, 0⟩

/-- R264. -/
def ETH_RX_LONG_0 (n : Nat) : Fld := ⟨(0x30 + n), 0x148, 0, 32, 0, 0⟩

/-- R264. -/
def ETH_RX_SHORT_0 (n : Nat) : Fld := ⟨(0x30 + n), 0x14C, 0, 32, 0, 0⟩

/-- R264. -/
def ETH_RX_DUP_0 (n : Nat) : Fld := ⟨(0x30 + n), 0x150, 0, 32, 0, 0⟩

/-- R264. -/
def ETH_RX_LATE_0 (n : Nat) : Fld := ⟨(0x30 + n), 0x154, 0, 32, 0, 0⟩

/-- R264. -/
def ETH_RX_INTRUDER_0 (n : Nat) : Fld := ⟨(0x30 + n), 0x158, 0, 32, 0, 0⟩

/-- R264. -/
def ETH_RX_SCHED_0 (n : Nat) : Fld := ⟨(0x30 + n), 0x15C, 0, 32, 0, 0⟩

/-- R264. -/
def ETH_RX_NOMATCH_0 (n : Nat) : Fld := ⟨(0x30 + n), 0x160, 0, 32, 0, 0⟩

/-- R264. -/
def ETH_RX_QFULL_0 (n : Nat) : Fld := ⟨(0x30 + n), 0x164, 0, 32, 0, 0⟩

/-- R264. -/
def ETH_RX_PAUSE_0 (n : Nat) : Fld := ⟨(0x30 + n), 0x168, 0, 32, 0, 0⟩

/-- R264. -/
def ETH_TX_FRAMES_0 (n : Nat) : Fld := ⟨(0x30 + n), 0x16C, 0, 32, 0, 0⟩

/-- R264. -/
def ETH_TX_MISSED_0 (n : Nat) : Fld := ⟨(0x30 + n), 0x170, 0, 32, 0, 0⟩

/-- R264. -/
def ETH_TX_BLOCKED_0 (n : Nat) : Fld := ⟨(0x30 + n), 0x174, 0, 32, 0, 0⟩

/-- R264. -/
def ETH_TX_LONG_0 (n : Nat) : Fld := ⟨(0x30 + n), 0x178, 0, 32, 0, 0⟩

/-- R439. -/
def MIRROR_state : Fld := ⟨0x34, 0x010, 0, 3, 0, 0⟩

/-- R439. -/
def MIRROR_sync : Fld := ⟨0x34, 0x010, 3, 1, 0, 0⟩

/-- R439. -/
def MIRROR_hold : Fld := ⟨0x34, 0x010, 4, 1, 0, 0⟩

/-- R439. -/
def MIRROR_raw : Fld := ⟨0x34, 0x020, 0, 6, 0, 0⟩

/-- R439. -/
def MIRROR_en : Fld := ⟨0x34, 0x024, 0, 6, 0, 0⟩

/-- R439. -/
def MIRROR_seg_errs : Fld := ⟨0x34, 0x030, 0, 16, 0, 0⟩

/-- R440. -/
def MIR_CTL_0 : Fld := ⟨0x34, 0x040, 0, 1, 0, 0⟩

/-- R440. -/
def MIR_CTL_4 : Fld := ⟨0x34, 0x040, 4, 10, 20, 0⟩

/-- R440. -/
def MIR_CTL_16 : Fld := ⟨0x34, 0x040, 16, 2, 3, 0⟩

/-- R440. -/
def MIR_RS_0 : Fld := ⟨0x34, 0x044, 0, 18, 16384, 0⟩

/-- R440. -/
def MIR_CMD_0 : Fld := ⟨0x34, 0x048, 0, 1, 0, 0⟩

/-- R440. -/
def MIR_CMD_1 : Fld := ⟨0x34, 0x048, 1, 1, 0, 0⟩

/-- R440. -/
def MIR_CMD_2 : Fld := ⟨0x34, 0x048, 2, 1, 0, 0⟩

/-- R440. -/
def MIR_CMD_3 : Fld := ⟨0x34, 0x048, 3, 1, 0, 0⟩

/-- R440. -/
def MIR_CMD_STAT_0 : Fld := ⟨0x34, 0x04C, 0, 3, 0, 0⟩

/-- R440. -/
def MIR_LEASE_0 : Fld := ⟨0x34, 0x050, 0, 32, 0, 0⟩

/-- R440. -/
def MIR_PROMOTE_0 : Fld := ⟨0x34, 0x054, 0, 16, 0, 0⟩

/-- R440. -/
def MIR_PARTNER_0 : Fld := ⟨0x34, 0x058, 0, 3, 0, 0⟩

/-- R440. -/
def MIR_PARTNER_3 : Fld := ⟨0x34, 0x058, 3, 1, 0, 0⟩

/-- R440. -/
def MIR_PARTNER_4 : Fld := ⟨0x34, 0x058, 4, 1, 0, 0⟩

/-- R440. -/
def MIR_PARTNER_5 : Fld := ⟨0x34, 0x058, 5, 1, 0, 0⟩

/-- R440. -/
def MIR_PARTNER_8 : Fld := ⟨0x34, 0x058, 8, 2, 0, 0⟩

/-- R440. -/
def MIR_PMAC_LO_0 : Fld := ⟨0x34, 0x05C, 0, 32, 0, 0⟩

/-- R440. -/
def MIR_PMAC_HI_0 : Fld := ⟨0x34, 0x060, 0, 16, 0, 0⟩

/-- R440. -/
def MIR_BUDGET_0 : Fld := ⟨0x34, 0x064, 0, 20, 0, 0⟩

/-- R440. -/
def MIR_BUDGET_20 : Fld := ⟨0x34, 0x064, 20, 1, 0, 0⟩

/-- R440. -/
def MIR_LAST_0 : Fld := ⟨0x34, 0x068, 0, 20, 0, 0⟩

/-- R440. -/
def MIR_SYNC_STAT_0 : Fld := ⟨0x34, 0x06C, 0, 3, 0, 0⟩

/-- R440. -/
def MIR_SYNC_STAT_16 : Fld := ⟨0x34, 0x06C, 16, 16, 0, 0⟩

/-- R440. -/
def MIR_PHEAD_0 : Fld := ⟨0x34, 0x070, 0, 32, 0, 0⟩

/-- R440. -/
def MIR_PHEAD_CODE_0 : Fld := ⟨0x34, 0x074, 0, 16, 0, 0⟩

/-- R440. -/
def MIR_LOCALDROP_0 : Fld := ⟨0x34, 0x078, 0, 32, 0, 0⟩

/-- R440. -/
def MIR_SEG_GOOD_0 (i : Nat) : Fld := ⟨0x34, (0x080 + 4 * i), 0, 32, 0, 0⟩

/-- R440. -/
def MIR_SETS_LOST_0 : Fld := ⟨0x34, 0x088, 0, 16, 0, 0⟩

/-- R440. -/
def MIR_SETS_LOST_16 : Fld := ⟨0x34, 0x088, 16, 16, 0, 0⟩

/-- R565. -/
def SVC_up : Fld := ⟨0x35, 0x010, 0, 2, 0, 0⟩

/-- R565. -/
def SVC_raw : Fld := ⟨0x35, 0x020, 0, 3, 0, 0⟩

/-- R565. -/
def SVC_en : Fld := ⟨0x35, 0x024, 0, 3, 0, 0⟩

/-- R565. -/
def SVC_err_count : Fld := ⟨0x35, 0x030, 0, 16, 0, 0⟩

/-- R565. -/
def SVC_MAC_LO_0 (i : Nat) : Fld := ⟨0x35, (0x040 + 128 * i), 0, 32, 0, 0⟩

/-- R565. -/
def SVC_MAC_HI_0 (i : Nat) : Fld := ⟨0x35, (0x044 + 128 * i), 0, 16, 0, 0⟩

/-- R565. -/
def SVC_CTL_0 (i : Nat) : Fld := ⟨0x35, (0x048 + 128 * i), 0, 1, 0, 0⟩

/-- R565. -/
def SVC_CTL_1 (i : Nat) : Fld := ⟨0x35, (0x048 + 128 * i), 1, 1, 1, 0⟩

/-- R565. -/
def SVC_CTL_2 (i : Nat) : Fld := ⟨0x35, (0x048 + 128 * i), 2, 2, 2, 0⟩

/-- R565. -/
def SVC_CTL_4 (i : Nat) : Fld := ⟨0x35, (0x048 + 128 * i), 4, 1, 0, 0⟩

/-- R565. -/
def SVC_LINK_0 (i : Nat) : Fld := ⟨0x35, (0x04C + 128 * i), 0, 1, 0, 0⟩

/-- R565. -/
def SVC_LINK_1 (i : Nat) : Fld := ⟨0x35, (0x04C + 128 * i), 1, 2, 0, 0⟩

/-- R565. -/
def SVC_TXQ_0 (i : Nat) : Fld := ⟨0x35, (0x050 + 128 * i), 0, 10, 0, 0⟩

/-- R565. -/
def SVC_TXQ_31 (i : Nat) : Fld := ⟨0x35, (0x050 + 128 * i), 31, 1, 0, 0⟩

/-- R565. -/
def SVC_RXQ_0 (i : Nat) : Fld := ⟨0x35, (0x054 + 128 * i), 0, 10, 0, 0⟩

/-- R565. -/
def SVC_RXQ_31 (i : Nat) : Fld := ⟨0x35, (0x054 + 128 * i), 31, 1, 0, 0⟩

/-- R565. -/
def SVC_RX_GOOD_0 (i : Nat) : Fld := ⟨0x35, (0x060 + 128 * i), 0, 32, 0, 0⟩

/-- R565. -/
def SVC_RX_DROP_0 (i : Nat) : Fld := ⟨0x35, (0x064 + 128 * i), 0, 32, 0, 0⟩

/-- R565. -/
def SVC_RX_QFULL_0 (i : Nat) : Fld := ⟨0x35, (0x068 + 128 * i), 0, 32, 0, 0⟩

/-- R565. -/
def SVC_TX_FRAMES_0 (i : Nat) : Fld := ⟨0x35, (0x06C + 128 * i), 0, 32, 0, 0⟩

/-- R565. -/
def SVC_TX_LONG_0 (i : Nat) : Fld := ⟨0x35, (0x070 + 128 * i), 0, 32, 0, 0⟩

/-- R265. -/
def ALMANAC_active_bank : Fld := ⟨0x36, 0x010, 0, 1, 0, 0⟩

/-- R265. -/
def ALMANAC_valid : Fld := ⟨0x36, 0x010, 1, 2, 0, 0⟩

/-- R265. -/
def ALMANAC_raw : Fld := ⟨0x36, 0x020, 0, 4, 0, 0⟩

/-- R265. -/
def ALMANAC_en : Fld := ⟨0x36, 0x024, 0, 4, 0, 0⟩

/-- R265. -/
def ALMANAC_miss_count : Fld := ⟨0x36, 0x030, 0, 16, 0, 0⟩

/-- R265. -/
def ALM_FA_0 : Fld := ⟨0x36, 0x040, 0, 16, 1, 0⟩

/-- R265. -/
def ALM_BASIC_0 : Fld := ⟨0x36, 0x044, 0, 15, 1000, 0⟩

/-- R265. -/
def ALM_MATRIX_0 : Fld := ⟨0x36, 0x048, 0, 7, 1, 0⟩

/-- R265. -/
def ALM_SCHED_ID_0 : Fld := ⟨0x36, 0x04C, 0, 16, 0, 0⟩

/-- R265. -/
def ALM_SWITCH_0 : Fld := ⟨0x36, 0x050, 0, 32, 0, 0⟩

/-- R265. -/
def ALM_CMD_0 : Fld := ⟨0x36, 0x054, 0, 1, 0, 0⟩

/-- R265. -/
def ALM_CMD_1 : Fld := ⟨0x36, 0x054, 1, 1, 0, 0⟩

/-- R265. -/
def ALM_CMD_2 : Fld := ⟨0x36, 0x054, 2, 1, 0, 0⟩

/-- R265. -/
def ALM_VSTAT_0 : Fld := ⟨0x36, 0x058, 0, 12, 0, 0⟩

/-- R265. -/
def ALM_VSTAT_12 : Fld := ⟨0x36, 0x058, 12, 4, 0, 0⟩

/-- R265. -/
def ALM_VSTAT_16 : Fld := ⟨0x36, 0x058, 16, 1, 0, 0⟩

/-- R265. -/
def ALM_FETCH_0 : Fld := ⟨0x36, 0x05C, 0, 10, 30, 0⟩

/-- R265. -/
def ALM_RXLAT_0 : Fld := ⟨0x36, 0x060, 0, 10, 20, 0⟩

/-- R265. -/
def ALM_MSGQ_0 : Fld := ⟨0x36, 0x064, 0, 10, 0, 0⟩

/-- R265. -/
def ALM_MSGQ_31 : Fld := ⟨0x36, 0x064, 31, 1, 0, 0⟩

/-- R265. -/
def ALM_POS_0 : Fld := ⟨0x36, 0x068, 0, 6, 0, 0⟩

/-- R265. -/
def ALM_MCOUNT_0 : Fld := ⟨0x36, 0x06C, 0, 32, 0, 0⟩

/-- R265. -/
def ALM_TXQ_0 (i : Nat) : Fld := ⟨0x36, (0x070 + 4 * i), 0, 10, 0, 0⟩

/-- R265. -/
def ALM_TXQ_31 (i : Nat) : Fld := ⟨0x36, (0x070 + 4 * i), 31, 1, 0, 0⟩

/-- R265. -/
def ALM_ESEL_0 : Fld := ⟨0x36, 0x0FC, 0, 12, 0, 0⟩

/-- R265. -/
def ALM_ESEL_12 : Fld := ⟨0x36, 0x0FC, 12, 1, 0, 0⟩

/-- R265. -/
def ALM_E_START_0 (e : Nat) : Fld := ⟨0x36, 0x100, 0, 22, 0, (1 + e)⟩

/-- R265. -/
def ALM_E_LEN_0 (e : Nat) : Fld := ⟨0x36, 0x104, 0, 20, 1, (1 + e)⟩

/-- R265. -/
def ALM_E_SCHED_0 (e : Nat) : Fld := ⟨0x36, 0x108, 0, 6, 0, (1 + e)⟩

/-- R265. -/
def ALM_E_SCHED_8 (e : Nat) : Fld := ⟨0x36, 0x108, 8, 3, 0, (1 + e)⟩

/-- R265. -/
def ALM_E_SCHED_12 (e : Nat) : Fld := ⟨0x36, 0x108, 12, 2, 0, (1 + e)⟩

/-- R265. -/
def ALM_E_SCHED_16 (e : Nat) : Fld := ⟨0x36, 0x108, 16, 4, 0, (1 + e)⟩

/-- R265. -/
def ALM_E_SCHED_20 (e : Nat) : Fld := ⟨0x36, 0x108, 20, 1, 0, (1 + e)⟩

/-- R265. -/
def ALM_E_SCHED_21 (e : Nat) : Fld := ⟨0x36, 0x108, 21, 3, 0, (1 + e)⟩

/-- R265. -/
def ALM_E_OWNER_0 (e : Nat) : Fld := ⟨0x36, 0x10C, 0, 16, 0, (1 + e)⟩

/-- R265. -/
def ALM_E_OWNER_16 (e : Nat) : Fld := ⟨0x36, 0x10C, 16, 12, 0, (1 + e)⟩

/-- R265. -/
def ALM_E_DMAC_LO_0 (e : Nat) : Fld := ⟨0x36, 0x110, 0, 32, 0, (1 + e)⟩

/-- R265. -/
def ALM_E_DMAC_HI_0 (e : Nat) : Fld := ⟨0x36, 0x114, 0, 16, 0, (1 + e)⟩

/-- R265. -/
def ALM_E_LIST_0 (e : Nat) : Fld := ⟨0x36, 0x118, 0, 16, 0, (1 + e)⟩

/-- R265. -/
def ALM_E_LIST_16 (e : Nat) : Fld := ⟨0x36, 0x118, 16, 9, 0, (1 + e)⟩

/-- R265. -/
def ALM_E_TXOFF_0 (e : Nat) : Fld := ⟨0x36, 0x11C, 0, 16, 0, (1 + e)⟩

/-- R265. -/
def ALM_RSEL_0 : Fld := ⟨0x36, 0x13C, 0, 12, 0, 0⟩

/-- R265. -/
def ALM_R_MATCH_0 (e : Nat) : Fld := ⟨0x36, 0x140, 0, 16, 0, (1 + e)⟩

/-- R265. -/
def ALM_R_MATCH_16 (e : Nat) : Fld := ⟨0x36, 0x140, 16, 12, 0, (1 + e)⟩

/-- R265. -/
def ALM_R_MATCH_31 (e : Nat) : Fld := ⟨0x36, 0x140, 31, 1, 0, (1 + e)⟩

/-- R265. -/
def ALM_R_TGT_0 (e : Nat) : Fld := ⟨0x36, 0x144, 0, 16, 0, (1 + e)⟩

/-- R265. -/
def ALM_R_TGT_16 (e : Nat) : Fld := ⟨0x36, 0x144, 16, 9, 0, (1 + e)⟩

/-- R265. -/
def ALM_R_TGT_28 (e : Nat) : Fld := ⟨0x36, 0x144, 28, 1, 0, (1 + e)⟩

/-- R265. -/
def ALM_R_CNT_0 (e : Nat) : Fld := ⟨0x36, 0x148, 0, 16, 0, (1 + e)⟩

/-- R265. -/
def ALM_R_CNT_16 (e : Nat) : Fld := ⟨0x36, 0x148, 16, 16, 0, (1 + e)⟩

/-- R265. -/
def ALM_R_SHORT_0 (e : Nat) : Fld := ⟨0x36, 0x14C, 0, 16, 0, (1 + e)⟩

/-- R266. -/
def PORTER_state : Fld := ⟨0x37, 0x010, 0, 2, 0, 0⟩

/-- R266. -/
def PORTER_raw : Fld := ⟨0x37, 0x020, 0, 3, 0, 0⟩

/-- R266. -/
def PORTER_en : Fld := ⟨0x37, 0x024, 0, 3, 0, 0⟩

/-- R266. -/
def PORTER_rej_count : Fld := ⟨0x37, 0x030, 0, 16, 0, 0⟩

/-- R266. -/
def PORTER_GUARD_0 : Fld := ⟨0x37, 0x040, 0, 8, 64, 0⟩

/-- R266. -/
def PORTER_TOL_0 : Fld := ⟨0x37, 0x044, 0, 12, 250, 0⟩

/-- R266. -/
def PORTER_SWITCH_0 : Fld := ⟨0x37, 0x048, 0, 32, 0, 0⟩

/-- R266. -/
def PORTER_CMD_0 : Fld := ⟨0x37, 0x04C, 0, 4, 0, 0⟩

/-- R266. -/
def PORTER_CMD_4 : Fld := ⟨0x37, 0x04C, 4, 1, 0, 0⟩

/-- R266. -/
def PORTER_STATE_0 : Fld := ⟨0x37, 0x050, 0, 1, 0, 0⟩

/-- R266. -/
def PORTER_STATE_4 : Fld := ⟨0x37, 0x050, 4, 4, 0, 0⟩

/-- R266. -/
def PORTER_STATE_8 : Fld := ⟨0x37, 0x050, 8, 4, 0, 0⟩

/-- R266. -/
def PORTER_STATE_12 : Fld := ⟨0x37, 0x050, 12, 1, 0, 0⟩

/-- R266. -/
def PORTER_BLK_0 (i : Nat) : Fld := ⟨0x37, (0x060 + 4 * i), 0, 32, 0, 0⟩

/-- R266. -/
def PORTER_BUDCUT_0 : Fld := ⟨0x37, 0x070, 0, 32, 0, 0⟩

/-- R266. -/
def PORTER_WSEL_0 : Fld := ⟨0x37, 0x0FC, 0, 9, 0, 0⟩

/-- R266. -/
def PORTER_WSEL_9 : Fld := ⟨0x37, 0x0FC, 9, 1, 0, 0⟩

/-- R266. -/
def PORTER_W_START_0 (e : Nat) : Fld := ⟨0x37, 0x100, 0, 22, 0, (1 + e)⟩

/-- R266. -/
def PORTER_W_LEN_0 (e : Nat) : Fld := ⟨0x37, 0x104, 0, 20, 1, (1 + e)⟩

/-- R266. -/
def PORTER_W_SCHED_0 (e : Nat) : Fld := ⟨0x37, 0x108, 0, 6, 0, (1 + e)⟩

/-- R266. -/
def PORTER_W_SCHED_8 (e : Nat) : Fld := ⟨0x37, 0x108, 8, 3, 0, (1 + e)⟩

/-- R266. -/
def PORTER_W_SCHED_12 (e : Nat) : Fld := ⟨0x37, 0x108, 12, 2, 0, (1 + e)⟩

/-- R266. -/
def PORTER_W_SCHED_16 (e : Nat) : Fld := ⟨0x37, 0x108, 16, 4, 0, (1 + e)⟩

/-- R266. -/
def PORTER_W_BUDGET_0 (e : Nat) : Fld := ⟨0x37, 0x10C, 0, 16, 0, (1 + e)⟩

/-- R289. -/
def CLOCKMAKER_state : Fld := ⟨0x38, 0x010, 0, 3, 0, 0⟩

/-- R289. -/
def CLOCKMAKER_sync : Fld := ⟨0x38, 0x010, 3, 1, 0, 0⟩

/-- R289. -/
def CLOCKMAKER_jump_pending : Fld := ⟨0x38, 0x010, 4, 1, 0, 0⟩

/-- R289. -/
def CLOCKMAKER_confirm : Fld := ⟨0x38, 0x010, 5, 2, 0, 0⟩

/-- R289. -/
def CLOCKMAKER_raw : Fld := ⟨0x38, 0x020, 0, 5, 0, 0⟩

/-- R289. -/
def CLOCKMAKER_en : Fld := ⟨0x38, 0x024, 0, 5, 0, 0⟩

/-- R289. -/
def CLOCKMAKER_jump_count : Fld := ⟨0x38, 0x030, 0, 16, 0, 0⟩

/-- R290. -/
def CM_TIME_LO_0 : Fld := ⟨0x38, 0x040, 0, 32, 0, 0⟩

/-- R290. -/
def CM_TIME_HI_0 (c : Nat) : Fld := ⟨0x38, 0x044, 0, 32, 0, (1 + c)⟩

/-- R290. -/
def CM_CNT_LO_0 : Fld := ⟨0x38, 0x048, 0, 32, 0, 0⟩

/-- R290. -/
def CM_CNT_HI_0 (c : Nat) : Fld := ⟨0x38, 0x04C, 0, 32, 0, (1 + c)⟩

/-- R290. -/
def CM_OFFSET_LO_0 : Fld := ⟨0x38, 0x050, 0, 32, 0, 0⟩

/-- R290. -/
def CM_OFFSET_HI_0 : Fld := ⟨0x38, 0x054, 0, 32, 0, 0⟩

/-- R290. -/
def CM_ANCHOR_LO_0 : Fld := ⟨0x38, 0x058, 0, 32, 0, 0⟩

/-- R290. -/
def CM_ANCHOR_HI_0 : Fld := ⟨0x38, 0x05C, 0, 32, 0, 0⟩

/-- R290. -/
def CM_RATE_0 : Fld := ⟨0x38, 0x060, 0, 32, 0, 0⟩

/-- R290. -/
def CM_SYNC_CTL_0 : Fld := ⟨0x38, 0x064, 0, 1, 0, 0⟩

/-- R290. -/
def CM_SYNC_CTL_1 : Fld := ⟨0x38, 0x064, 1, 1, 0, 0⟩

/-- R290. -/
def CM_SYNC_CTL_2 : Fld := ⟨0x38, 0x064, 2, 8, 0, 0⟩

/-- R290. -/
def CM_SYNC_CTL_10 : Fld := ⟨0x38, 0x064, 10, 2, 3, 0⟩

/-- R290. -/
def CM_SYNC_CTL_12 : Fld := ⟨0x38, 0x064, 12, 2, 1, 0⟩

/-- R290. -/
def CM_SYNC_CTL_14 : Fld := ⟨0x38, 0x064, 14, 3, 3, 0⟩

/-- R290. -/
def CM_JUMP_0 : Fld := ⟨0x38, 0x068, 0, 10, 100, 0⟩

/-- R290. -/
def CM_JUMP_16 : Fld := ⟨0x38, 0x068, 16, 10, 20, 0⟩

/-- R290. -/
def CM_SLEW_0 : Fld := ⟨0x38, 0x06C, 0, 9, 100, 0⟩

/-- R290. -/
def CM_SLEW_16 : Fld := ⟨0x38, 0x06C, 16, 13, 100, 0⟩

/-- R290. -/
def CM_CMD_0 : Fld := ⟨0x38, 0x070, 0, 2, 0, 0⟩

/-- R290. -/
def CM_CMD_STAT_0 : Fld := ⟨0x38, 0x074, 0, 2, 0, 0⟩

/-- R290. -/
def CM_SETVAL_LO_0 : Fld := ⟨0x38, 0x078, 0, 32, 0, 0⟩

/-- R290. -/
def CM_SETVAL_HI_0 : Fld := ⟨0x38, 0x07C, 0, 32, 0, 0⟩

/-- R290. -/
def CM_LASTCORR_LO_0 : Fld := ⟨0x38, 0x080, 0, 32, 0, 0⟩

/-- R290. -/
def CM_LASTCORR_HI_0 : Fld := ⟨0x38, 0x084, 0, 32, 0, 0⟩

/-- R290. -/
def CM_PEND_LO_0 : Fld := ⟨0x38, 0x088, 0, 32, 0, 0⟩

/-- R290. -/
def CM_PEND_HI_0 : Fld := ⟨0x38, 0x08C, 0, 32, 0, 0⟩

/-- R290. -/
def CM_RESYNC_0 : Fld := ⟨0x38, 0x090, 0, 4, 0, 0⟩

/-- R290. -/
def CM_RESYNC_4 : Fld := ⟨0x38, 0x090, 4, 2, 0, 0⟩

/-- R290. -/
def CM_RESYNC_8 : Fld := ⟨0x38, 0x090, 8, 24, 0, 0⟩

/-- R290. -/
def CM_DLY_0 : Fld := ⟨0x38, 0x098, 0, 6, 8, 0⟩

/-- R290. -/
def CM_N_CFG_0 (i : Nat) : Fld := ⟨0x38, (0x100 + 16 * i), 0, 16, 0, 0⟩

/-- R290. -/
def CM_N_CFG_31 (i : Nat) : Fld := ⟨0x38, (0x100 + 16 * i), 31, 1, 0, 0⟩

/-- R290. -/
def CM_N_DELAY_0 (i : Nat) : Fld := ⟨0x38, (0x104 + 16 * i), 0, 16, 0, 0⟩

/-- R290. -/
def CM_N_DELAY_16 (i : Nat) : Fld := ⟨0x38, (0x104 + 16 * i), 16, 16, 0, 0⟩

/-- R290. -/
def CM_N_DEV_0 (i : Nat) : Fld := ⟨0x38, (0x108 + 16 * i), 0, 32, 0, 0⟩

/-- R290. -/
def CM_N_STAT_0 (i : Nat) : Fld := ⟨0x38, (0x10C + 16 * i), 0, 1, 0, 0⟩

/-- R290. -/
def CM_N_STAT_1 (i : Nat) : Fld := ⟨0x38, (0x10C + 16 * i), 1, 1, 0, 0⟩

/-- R290. -/
def CM_N_STAT_2 (i : Nat) : Fld := ⟨0x38, (0x10C + 16 * i), 2, 1, 0, 0⟩

/-- R290. -/
def CM_N_STAT_3 (i : Nat) : Fld := ⟨0x38, (0x10C + 16 * i), 3, 1, 0, 0⟩

/-- R290. -/
def CM_N_STAT_4 (i : Nat) : Fld := ⟨0x38, (0x10C + 16 * i), 4, 1, 0, 0⟩

/-- R290. -/
def CM_N_STAT_5 (i : Nat) : Fld := ⟨0x38, (0x10C + 16 * i), 5, 3, 0, 0⟩

/-- R290. -/
def CM_N_STAT_8 (i : Nat) : Fld := ⟨0x38, (0x10C + 16 * i), 8, 8, 0, 0⟩

/-- R291. -/
def TSTAMP_raw : Fld := ⟨0x39, 0x020, 0, 1, 0, 0⟩

/-- R291. -/
def TSTAMP_en : Fld := ⟨0x39, 0x024, 0, 1, 0, 0⟩

/-- R291. -/
def TSTAMP_cap_count : Fld := ⟨0x39, 0x030, 0, 16, 0, 0⟩

/-- R291. -/
def TS_PORTCTL_0 (i : Nat) : Fld := ⟨0x39, (0x040 + 4 * i), 0, 1, 0, 0⟩

/-- R291. -/
def TS_PORTCTL_1 (i : Nat) : Fld := ⟨0x39, (0x040 + 4 * i), 1, 1, 0, 0⟩

/-- R291. -/
def TS_PORTCTL_2 (i : Nat) : Fld := ⟨0x39, (0x040 + 4 * i), 2, 1, 0, 0⟩

/-- R291. -/
def TS_PORTCTL_8 (i : Nat) : Fld := ⟨0x39, (0x040 + 4 * i), 8, 10, 0, 0⟩

/-- R291. -/
def TS_PORTCTL_18 (i : Nat) : Fld := ⟨0x39, (0x040 + 4 * i), 18, 10, 0, 0⟩

/-- R291. -/
def TS_TXLAST_LO_0 (i : Nat) : Fld := ⟨0x39, (0x060 + 8 * i), 0, 32, 0, 0⟩

/-- R291. -/
def TS_TXLAST_HI_0 (i c : Nat) : Fld := ⟨0x39, (0x064 + 8 * i), 0, 32, 0, (1 + c)⟩

/-- R291. -/
def TS_PULSE_0 : Fld := ⟨0x39, 0x0A0, 0, 1, 0, 0⟩

/-- R291. -/
def TS_PULSE_1 : Fld := ⟨0x39, 0x0A0, 1, 1, 0, 0⟩

/-- R291. -/
def TS_PULSE_2 : Fld := ⟨0x39, 0x0A0, 2, 2, 0, 0⟩

/-- R291. -/
def TS_PULSE_4 : Fld := ⟨0x39, 0x0A0, 4, 20, 100, 0⟩

/-- R291. -/
def TS_PCAP_LO_0 : Fld := ⟨0x39, 0x0A4, 0, 32, 0, 0⟩

/-- R291. -/
def TS_PCAP_HI_0 (c : Nat) : Fld := ⟨0x39, 0x0A8, 0, 32, 0, (1 + c)⟩

/-- R313. -/
def POLL_state (n : Nat) : Fld := ⟨(0x3A + n), 0x010, 0, 3, 0, 0⟩

/-- R313. -/
def POLL_tx_silenced (n : Nat) : Fld := ⟨(0x3A + n), 0x010, 3, 1, 0, 0⟩

/-- R313. -/
def POLL_raw (n : Nat) : Fld := ⟨(0x3A + n), 0x020, 0, 6, 0, 0⟩

/-- R313. -/
def POLL_en (n : Nat) : Fld := ⟨(0x3A + n), 0x024, 0, 6, 0, 0⟩

/-- R313. -/
def POLL_err_count (n : Nat) : Fld := ⟨(0x3A + n), 0x030, 0, 16, 0, 0⟩

/-- R314. -/
def POLL_CTL_0 (n : Nat) : Fld := ⟨(0x3A + n), 0x040, 0, 1, 0, 0⟩

/-- R314. -/
def POLL_CTL_1 (n : Nat) : Fld := ⟨(0x3A + n), 0x040, 1, 1, 0, 0⟩

/-- R314. -/
def POLL_CTL_2 (n : Nat) : Fld := ⟨(0x3A + n), 0x040, 2, 2, 0, 0⟩

/-- R314. -/
def POLL_CTL_4 (n : Nat) : Fld := ⟨(0x3A + n), 0x040, 4, 8, 24, 0⟩

/-- R314. -/
def POLL_PERIOD_0 (n : Nat) : Fld := ⟨(0x3A + n), 0x044, 0, 3, 2, 0⟩

/-- R314. -/
def POLL_SWITCH_0 (n : Nat) : Fld := ⟨(0x3A + n), 0x048, 0, 32, 0, 0⟩

/-- R314. -/
def POLL_CMD_0 (n : Nat) : Fld := ⟨(0x3A + n), 0x04C, 0, 1, 0, 0⟩

/-- R314. -/
def POLL_CMD_1 (n : Nat) : Fld := ⟨(0x3A + n), 0x04C, 1, 1, 0, 0⟩

/-- R314. -/
def POLL_CMD_2 (n : Nat) : Fld := ⟨(0x3A + n), 0x04C, 2, 1, 0, 0⟩

/-- R314. -/
def POLL_CMD_3 (n : Nat) : Fld := ⟨(0x3A + n), 0x04C, 3, 1, 0, 0⟩

/-- R314. -/
def POLL_CMD_4 (n : Nat) : Fld := ⟨(0x3A + n), 0x04C, 4, 1, 0, 0⟩

/-- R314. -/
def POLL_VSTAT_0 (n : Nat) : Fld := ⟨(0x3A + n), 0x050, 0, 10, 0, 0⟩

/-- R314. -/
def POLL_VSTAT_12 (n : Nat) : Fld := ⟨(0x3A + n), 0x050, 12, 4, 0, 0⟩

/-- R314. -/
def POLL_VSTAT_16 (n : Nat) : Fld := ⟨(0x3A + n), 0x050, 16, 1, 0, 0⟩

/-- R314. -/
def POLL_VSTAT_17 (n : Nat) : Fld := ⟨(0x3A + n), 0x050, 17, 2, 0, 0⟩

/-- R314. -/
def POLL_VSTAT_19 (n : Nat) : Fld := ⟨(0x3A + n), 0x050, 19, 1, 0, 0⟩

/-- R314. -/
def POLL_SILENT_0 (n : Nat) : Fld := ⟨(0x3A + n), 0x054, 0, 8, 3, 0⟩

/-- R314. -/
def POLL_SILENT_8 (n : Nat) : Fld := ⟨(0x3A + n), 0x054, 8, 16, 16, 0⟩

/-- R314. -/
def POLL_BPCOUNT_0 (n : Nat) : Fld := ⟨(0x3A + n), 0x058, 0, 32, 0, 0⟩

/-- R314. -/
def POLL_STATUSBYTE_0 (n : Nat) : Fld := ⟨(0x3A + n), 0x05C, 0, 8, 0, 0⟩

/-- R314. -/
def POLL_ESEL_0 (n : Nat) : Fld := ⟨(0x3A + n), 0x0FC, 0, 10, 0, 0⟩

/-- R314. -/
def POLL_ESEL_10 (n : Nat) : Fld := ⟨(0x3A + n), 0x0FC, 10, 1, 0, 0⟩

/-- R314. -/
def POLL_E_START_0 (n e : Nat) : Fld := ⟨(0x3A + n), 0x100, 0, 20, 0, (1 + e)⟩

/-- R314. -/
def POLL_E_SCHED_0 (n e : Nat) : Fld := ⟨(0x3A + n), 0x104, 0, 3, 0, (1 + e)⟩

/-- R314. -/
def POLL_E_SCHED_4 (n e : Nat) : Fld := ⟨(0x3A + n), 0x104, 4, 7, 0, (1 + e)⟩

/-- R314. -/
def POLL_E_SCHED_12 (n e : Nat) : Fld := ⟨(0x3A + n), 0x104, 12, 2, 3, (1 + e)⟩

/-- R314. -/
def POLL_E_SCHED_16 (n e : Nat) : Fld := ⟨(0x3A + n), 0x104, 16, 4, 0, (1 + e)⟩

/-- R314. -/
def POLL_E_ADDR_0 (n e : Nat) : Fld := ⟨(0x3A + n), 0x108, 0, 12, 1, (1 + e)⟩

/-- R314. -/
def POLL_E_ADDR_16 (n e : Nat) : Fld := ⟨(0x3A + n), 0x108, 16, 8, 1, (1 + e)⟩

/-- R314. -/
def POLL_E_STAT_0 (n e : Nat) : Fld := ⟨(0x3A + n), 0x10C, 0, 8, 0, (1 + e)⟩

/-- R314. -/
def POLL_E_STAT_8 (n e : Nat) : Fld := ⟨(0x3A + n), 0x10C, 8, 1, 0, (1 + e)⟩

/-- R314. -/
def POLL_E_MISS_0 (n e : Nat) : Fld := ⟨(0x3A + n), 0x110, 0, 16, 0, (1 + e)⟩

/-- R314. -/
def POLL_E_MISS_16 (n e : Nat) : Fld := ⟨(0x3A + n), 0x110, 16, 16, 0, (1 + e)⟩

/-- R314. -/
def POLL_RSEL_0 (n : Nat) : Fld := ⟨(0x3A + n), 0x13C, 0, 10, 0, 0⟩

/-- R314. -/
def POLL_R_MATCH_0 (n e : Nat) : Fld := ⟨(0x3A + n), 0x140, 0, 12, 1, (1 + e)⟩

/-- R314. -/
def POLL_R_MATCH_12 (n e : Nat) : Fld := ⟨(0x3A + n), 0x140, 12, 4, 0, (1 + e)⟩

/-- R314. -/
def POLL_R_MATCH_16 (n e : Nat) : Fld := ⟨(0x3A + n), 0x140, 16, 2, 0, (1 + e)⟩

/-- R314. -/
def POLL_R_MATCH_31 (n e : Nat) : Fld := ⟨(0x3A + n), 0x140, 31, 1, 0, (1 + e)⟩

/-- R314. -/
def POLL_R_TGT_0 (n e : Nat) : Fld := ⟨(0x3A + n), 0x144, 0, 16, 0, (1 + e)⟩

/-- R314. -/
def POLL_R_TGT_16 (n e : Nat) : Fld := ⟨(0x3A + n), 0x144, 16, 9, 0, (1 + e)⟩

/-- R314. -/
def POLL_R_TGT_28 (n e : Nat) : Fld := ⟨(0x3A + n), 0x144, 28, 1, 0, (1 + e)⟩

/-- R314. -/
def POLL_R_CNT_0 (n e : Nat) : Fld := ⟨(0x3A + n), 0x148, 0, 16, 0, (1 + e)⟩

/-- R314. -/
def POLL_R_CNT_16 (n e : Nat) : Fld := ⟨(0x3A + n), 0x148, 16, 16, 0, (1 + e)⟩

/-- R314. -/
def POLL_ASEL_0 (n : Nat) : Fld := ⟨(0x3A + n), 0x17C, 0, 6, 0, 0⟩

/-- R314. -/
def POLL_A_MATCH_0 (n e : Nat) : Fld := ⟨(0x3A + n), 0x180, 0, 12, 1, (1 + e)⟩

/-- R314. -/
def POLL_A_MATCH_12 (n e : Nat) : Fld := ⟨(0x3A + n), 0x180, 12, 4, 0, (1 + e)⟩

/-- R314. -/
def POLL_A_MATCH_16 (n e : Nat) : Fld := ⟨(0x3A + n), 0x180, 16, 2, 0, (1 + e)⟩

/-- R314. -/
def POLL_A_MATCH_20 (n e : Nat) : Fld := ⟨(0x3A + n), 0x180, 20, 1, 0, (1 + e)⟩

/-- R314. -/
def POLL_A_MATCH_31 (n e : Nat) : Fld := ⟨(0x3A + n), 0x180, 31, 1, 0, (1 + e)⟩

/-- R314. -/
def POLL_A_SRC_0 (n e : Nat) : Fld := ⟨(0x3A + n), 0x184, 0, 16, 0, (1 + e)⟩

/-- R314. -/
def POLL_A_SRC_16 (n e : Nat) : Fld := ⟨(0x3A + n), 0x184, 16, 9, 0, (1 + e)⟩

/-- R314. -/
def POLL_A_SRC_25 (n e : Nat) : Fld := ⟨(0x3A + n), 0x184, 25, 3, 0, (1 + e)⟩

/-- R314. -/
def POLL_A_LEN_0 (n e : Nat) : Fld := ⟨(0x3A + n), 0x188, 0, 8, 1, (1 + e)⟩

/-- R314. -/
def POLL_A_CNT_0 (n e : Nat) : Fld := ⟨(0x3A + n), 0x18C, 0, 16, 0, (1 + e)⟩

/-- R314. -/
def POLL_A_CNT_16 (n e : Nat) : Fld := ⟨(0x3A + n), 0x18C, 16, 16, 0, (1 + e)⟩

/-- R314. -/
def POLL_TX_MF_0 (n : Nat) : Fld := ⟨(0x3A + n), 0x1C0, 0, 32, 0, 0⟩

/-- R314. -/
def POLL_TX_ANS_0 (n : Nat) : Fld := ⟨(0x3A + n), 0x1C4, 0, 32, 0, 0⟩

/-- R314. -/
def POLL_RX_GOOD_0 (n : Nat) : Fld := ⟨(0x3A + n), 0x1C8, 0, 32, 0, 0⟩

/-- R314. -/
def POLL_RX_ERR_0 (n : Nat) : Fld := ⟨(0x3A + n), 0x1CC, 0, 32, 0, 0⟩

/-- R314. -/
def POLL_RX_LEN_0 (n : Nat) : Fld := ⟨(0x3A + n), 0x1D0, 0, 32, 0, 0⟩

/-- R314. -/
def POLL_MISS_0 (n : Nat) : Fld := ⟨(0x3A + n), 0x1D4, 0, 32, 0, 0⟩

/-- R314. -/
def POLL_RX_QFULL_0 (n : Nat) : Fld := ⟨(0x3A + n), 0x1D8, 0, 32, 0, 0⟩

/-- R314. -/
def POLL_ECHO_0 (n : Nat) : Fld := ⟨(0x3A + n), 0x1DC, 0, 32, 0, 0⟩

/-- R314. -/
def POLL_FOREIGN_0 (n : Nat) : Fld := ⟨(0x3A + n), 0x1E0, 0, 32, 0, 0⟩

/-- R314. -/
def POLL_BLOCKED_0 (n : Nat) : Fld := ⟨(0x3A + n), 0x1E4, 0, 32, 0, 0⟩

/-- R335. -/
def CAN_state (n : Nat) : Fld := ⟨(0x42 + n), 0x010, 0, 3, 0, 0⟩

/-- R335. -/
def CAN_err_state (n : Nat) : Fld := ⟨(0x42 + n), 0x010, 3, 2, 0, 0⟩

/-- R335. -/
def CAN_raw (n : Nat) : Fld := ⟨(0x42 + n), 0x020, 0, 6, 0, 0⟩

/-- R335. -/
def CAN_en (n : Nat) : Fld := ⟨(0x42 + n), 0x024, 0, 6, 0, 0⟩

/-- R335. -/
def CAN_err_count (n : Nat) : Fld := ⟨(0x42 + n), 0x030, 0, 16, 0, 0⟩

/-- R336. -/
def CAN_CTL_0 (n : Nat) : Fld := ⟨(0x42 + n), 0x040, 0, 1, 0, 0⟩

/-- R336. -/
def CAN_CTL_1 (n : Nat) : Fld := ⟨(0x42 + n), 0x040, 1, 1, 0, 0⟩

/-- R336. -/
def CAN_CTL_2 (n : Nat) : Fld := ⟨(0x42 + n), 0x040, 2, 1, 1, 0⟩

/-- R336. -/
def CAN_CTL_3 (n : Nat) : Fld := ⟨(0x42 + n), 0x040, 3, 1, 0, 0⟩

/-- R336. -/
def CAN_NBT_0 (n : Nat) : Fld := ⟨(0x42 + n), 0x044, 0, 9, 10, 0⟩

/-- R336. -/
def CAN_NBT_9 (n : Nat) : Fld := ⟨(0x42 + n), 0x044, 9, 9, 63, 0⟩

/-- R336. -/
def CAN_NBT_18 (n : Nat) : Fld := ⟨(0x42 + n), 0x044, 18, 7, 16, 0⟩

/-- R336. -/
def CAN_NBT_25 (n : Nat) : Fld := ⟨(0x42 + n), 0x044, 25, 7, 16, 0⟩

/-- R336. -/
def CAN_DBT_0 (n : Nat) : Fld := ⟨(0x42 + n), 0x048, 0, 6, 2, 0⟩

/-- R336. -/
def CAN_DBT_6 (n : Nat) : Fld := ⟨(0x42 + n), 0x048, 6, 6, 29, 0⟩

/-- R336. -/
def CAN_DBT_12 (n : Nat) : Fld := ⟨(0x42 + n), 0x048, 12, 5, 10, 0⟩

/-- R336. -/
def CAN_DBT_17 (n : Nat) : Fld := ⟨(0x42 + n), 0x048, 17, 5, 10, 0⟩

/-- R336. -/
def CAN_TDC_0 (n : Nat) : Fld := ⟨(0x42 + n), 0x04C, 0, 1, 0, 0⟩

/-- R336. -/
def CAN_TDC_8 (n : Nat) : Fld := ⟨(0x42 + n), 0x04C, 8, 7, 0, 0⟩

/-- R336. -/
def CAN_AUTO_0 (n : Nat) : Fld := ⟨(0x42 + n), 0x050, 0, 4, 3, 0⟩

/-- R336. -/
def CAN_AUTO_8 (n : Nat) : Fld := ⟨(0x42 + n), 0x050, 8, 4, 15, 0⟩

/-- R336. -/
def CAN_AUTO_12 (n : Nat) : Fld := ⟨(0x42 + n), 0x050, 12, 4, 15, 0⟩

/-- R336. -/
def CAN_AUTO_16 (n : Nat) : Fld := ⟨(0x42 + n), 0x050, 16, 4, 6, 0⟩

/-- R336. -/
def CAN_CMD_0 (n : Nat) : Fld := ⟨(0x42 + n), 0x054, 0, 1, 0, 0⟩

/-- R336. -/
def CAN_CMD_1 (n : Nat) : Fld := ⟨(0x42 + n), 0x054, 1, 1, 0, 0⟩

/-- R336. -/
def CAN_CMD_2 (n : Nat) : Fld := ⟨(0x42 + n), 0x054, 2, 1, 0, 0⟩

/-- R336. -/
def CAN_CMD_3 (n : Nat) : Fld := ⟨(0x42 + n), 0x054, 3, 1, 0, 0⟩

/-- R336. -/
def CAN_ERRCNT_0 (n : Nat) : Fld := ⟨(0x42 + n), 0x058, 0, 9, 0, 0⟩

/-- R336. -/
def CAN_ERRCNT_16 (n : Nat) : Fld := ⟨(0x42 + n), 0x058, 16, 8, 0, 0⟩

/-- R336. -/
def CAN_ERRLOG_0 (n : Nat) : Fld := ⟨(0x42 + n), 0x05C, 0, 3, 0, 0⟩

/-- R336. -/
def CAN_ERRLOG_4 (n : Nat) : Fld := ⟨(0x42 + n), 0x05C, 4, 3, 0, 0⟩

/-- R336. -/
def CAN_ERRLOG_7 (n : Nat) : Fld := ⟨(0x42 + n), 0x05C, 7, 1, 0, 0⟩

/-- R336. -/
def CAN_ERRLOG_8 (n : Nat) : Fld := ⟨(0x42 + n), 0x05C, 8, 1, 0, 0⟩

/-- R336. -/
def CAN_TDCV_0 (n : Nat) : Fld := ⟨(0x42 + n), 0x060, 0, 7, 0, 0⟩

/-- R336. -/
def CAN_MSEL_0 (n : Nat) : Fld := ⟨(0x42 + n), 0x0FC, 0, 6, 0, 0⟩

/-- R336. -/
def CAN_M_ID_0 (n e : Nat) : Fld := ⟨(0x42 + n), 0x100, 0, 32, 0, (1 + e)⟩

/-- R336. -/
def CAN_M_CTL_0 (n e : Nat) : Fld := ⟨(0x42 + n), 0x104, 0, 4, 0, (1 + e)⟩

/-- R336. -/
def CAN_M_CTL_4 (n e : Nat) : Fld := ⟨(0x42 + n), 0x104, 4, 1, 0, (1 + e)⟩

/-- R336. -/
def CAN_M_CTL_5 (n e : Nat) : Fld := ⟨(0x42 + n), 0x104, 5, 1, 0, (1 + e)⟩

/-- R336. -/
def CAN_M_CTL_6 (n e : Nat) : Fld := ⟨(0x42 + n), 0x104, 6, 1, 0, (1 + e)⟩

/-- R336. -/
def CAN_M_CTL_8 (n e : Nat) : Fld := ⟨(0x42 + n), 0x104, 8, 2, 0, (1 + e)⟩

/-- R336. -/
def CAN_M_CTL_12 (n e : Nat) : Fld := ⟨(0x42 + n), 0x104, 12, 3, 0, (1 + e)⟩

/-- R336. -/
def CAN_M_SRC_0 (n e : Nat) : Fld := ⟨(0x42 + n), 0x108, 0, 16, 0, (1 + e)⟩

/-- R336. -/
def CAN_M_SRC_16 (n e : Nat) : Fld := ⟨(0x42 + n), 0x108, 16, 7, 0, (1 + e)⟩

/-- R336. -/
def CAN_M_STAT_0 (n e : Nat) : Fld := ⟨(0x42 + n), 0x10C, 0, 3, 0, (1 + e)⟩

/-- R336. -/
def CAN_M_STAT_4 (n e : Nat) : Fld := ⟨(0x42 + n), 0x10C, 4, 3, 0, (1 + e)⟩

/-- R336. -/
def CAN_M_CNT_0 (n e : Nat) : Fld := ⟨(0x42 + n), 0x110, 0, 16, 0, (1 + e)⟩

/-- R336. -/
def CAN_M_CNT_16 (n e : Nat) : Fld := ⟨(0x42 + n), 0x110, 16, 16, 0, (1 + e)⟩

/-- R336. -/
def CAN_FSEL_0 (n : Nat) : Fld := ⟨(0x42 + n), 0x13C, 0, 7, 0, 0⟩

/-- R336. -/
def CAN_F_ID_0 (n e : Nat) : Fld := ⟨(0x42 + n), 0x140, 0, 29, 0, (1 + e)⟩

/-- R336. -/
def CAN_F_ID_29 (n e : Nat) : Fld := ⟨(0x42 + n), 0x140, 29, 1, 0, (1 + e)⟩

/-- R336. -/
def CAN_F_MASK_0 (n e : Nat) : Fld := ⟨(0x42 + n), 0x144, 0, 29, 0, (1 + e)⟩

/-- R336. -/
def CAN_F_CTL_0 (n e : Nat) : Fld := ⟨(0x42 + n), 0x148, 0, 1, 0, (1 + e)⟩

/-- R336. -/
def CAN_F_CTL_1 (n e : Nat) : Fld := ⟨(0x42 + n), 0x148, 1, 1, 0, (1 + e)⟩

/-- R336. -/
def CAN_F_CTL_2 (n e : Nat) : Fld := ⟨(0x42 + n), 0x148, 2, 1, 0, (1 + e)⟩

/-- R336. -/
def CAN_F_CTL_3 (n e : Nat) : Fld := ⟨(0x42 + n), 0x148, 3, 1, 0, (1 + e)⟩

/-- R336. -/
def CAN_F_CTL_4 (n e : Nat) : Fld := ⟨(0x42 + n), 0x148, 4, 2, 0, (1 + e)⟩

/-- R336. -/
def CAN_F_TGT_0 (n e : Nat) : Fld := ⟨(0x42 + n), 0x14C, 0, 16, 0, (1 + e)⟩

/-- R336. -/
def CAN_F_TGT_16 (n e : Nat) : Fld := ⟨(0x42 + n), 0x14C, 16, 7, 0, (1 + e)⟩

/-- R336. -/
def CAN_F_CNT_0 (n e : Nat) : Fld := ⟨(0x42 + n), 0x150, 0, 16, 0, (1 + e)⟩

/-- R336. -/
def CAN_F_CNT_16 (n e : Nat) : Fld := ⟨(0x42 + n), 0x150, 16, 16, 0, (1 + e)⟩

/-- R336. -/
def CAN_TX_FRAMES_0 (n : Nat) : Fld := ⟨(0x42 + n), 0x1C0, 0, 32, 0, 0⟩

/-- R336. -/
def CAN_RX_GOOD_0 (n : Nat) : Fld := ⟨(0x42 + n), 0x1C4, 0, 32, 0, 0⟩

/-- R336. -/
def CAN_RX_NOMATCH_0 (n : Nat) : Fld := ⟨(0x42 + n), 0x1C8, 0, 32, 0, 0⟩

/-- R336. -/
def CAN_RX_QFULL_0 (n : Nat) : Fld := ⟨(0x42 + n), 0x1CC, 0, 32, 0, 0⟩

/-- R336. -/
def CAN_ARB_LOST_0 (n : Nat) : Fld := ⟨(0x42 + n), 0x1D0, 0, 32, 0, 0⟩

/-- R336. -/
def CAN_COLLIDE_0 (n : Nat) : Fld := ⟨(0x42 + n), 0x1D4, 0, 32, 0, 0⟩

/-- R336. -/
def CAN_ABANDON_0 (n : Nat) : Fld := ⟨(0x42 + n), 0x1D8, 0, 32, 0, 0⟩

/-- R336. -/
def CAN_BUSOFF_0 (n : Nat) : Fld := ⟨(0x42 + n), 0x1DC, 0, 32, 0, 0⟩

/-- R336. -/
def CAN_TX_NOBRS_0 (n : Nat) : Fld := ⟨(0x42 + n), 0x1E0, 0, 32, 0, 0⟩

/-- R336. -/
def CAN_TX_PKTDROP_0 (n : Nat) : Fld := ⟨(0x42 + n), 0x1E4, 0, 32, 0, 0⟩

/-- R359. -/
def FIO_state (n : Nat) : Fld := ⟨(0x52 + n), 0x010, 0, 3, 0, 0⟩

/-- R359. -/
def FIO_fault (n : Nat) : Fld := ⟨(0x52 + n), 0x010, 3, 1, 0, 0⟩

/-- R359. -/
def FIO_raw (n : Nat) : Fld := ⟨(0x52 + n), 0x020, 0, 6, 0, 0⟩

/-- R359. -/
def FIO_en (n : Nat) : Fld := ⟨(0x52 + n), 0x024, 0, 6, 0, 0⟩

/-- R359. -/
def FIO_err_count (n : Nat) : Fld := ⟨(0x52 + n), 0x030, 0, 16, 0, 0⟩

/-- R360. -/
def FIO_CMD_0 (n : Nat) : Fld := ⟨(0x52 + n), 0x040, 0, 1, 0, 0⟩

/-- R360. -/
def FIO_CMD_1 (n : Nat) : Fld := ⟨(0x52 + n), 0x040, 1, 1, 0, 0⟩

/-- R360. -/
def FIO_CMD_2 (n : Nat) : Fld := ⟨(0x52 + n), 0x040, 2, 1, 0, 0⟩

/-- R360. -/
def FIO_CMD_3 (n : Nat) : Fld := ⟨(0x52 + n), 0x040, 3, 1, 0, 0⟩

/-- R360. -/
def FIO_CMD_4 (n : Nat) : Fld := ⟨(0x52 + n), 0x040, 4, 1, 0, 0⟩

/-- R360. -/
def FIO_CMD_STAT_0 (n : Nat) : Fld := ⟨(0x52 + n), 0x044, 0, 2, 0, 0⟩

/-- R360. -/
def FIO_LINK_0 (n : Nat) : Fld := ⟨(0x52 + n), 0x048, 0, 8, 0, 0⟩

/-- R360. -/
def FIO_LINK_8 (n : Nat) : Fld := ⟨(0x52 + n), 0x048, 8, 8, 0, 0⟩

/-- R360. -/
def FIO_LINK_16 (n : Nat) : Fld := ⟨(0x52 + n), 0x048, 16, 8, 0, 0⟩

/-- R360. -/
def FIO_MISS_0 (n : Nat) : Fld := ⟨(0x52 + n), 0x04C, 0, 32, 0, 0⟩

/-- R360. -/
def FIO_BAD_0 (n : Nat) : Fld := ⟨(0x52 + n), 0x050, 0, 32, 0, 0⟩

/-- R360. -/
def FIO_DLLOST_0 (n : Nat) : Fld := ⟨(0x52 + n), 0x054, 0, 32, 0, 0⟩

/-- R360. -/
def FIO_STALE_CNT_0 (n : Nat) : Fld := ⟨(0x52 + n), 0x058, 0, 16, 0, 0⟩

/-- R360. -/
def FIO_MC_0 (n : Nat) : Fld := ⟨(0x52 + n), 0x05C, 0, 1, 0, 0⟩

/-- R360. -/
def FIO_MC_16 (n : Nat) : Fld := ⟨(0x52 + n), 0x05C, 16, 16, 0, 0⟩

/-- R360. -/
def FIO_PULSE_0 (n : Nat) : Fld := ⟨(0x52 + n), 0x080, 0, 3, n, 0⟩

/-- R360. -/
def FIO_IN_STATE_0 (n : Nat) : Fld := ⟨(0x52 + n), 0x084, 0, 16, 0, 0⟩

/-- R360. -/
def FIO_IN_RAW_0 (n : Nat) : Fld := ⟨(0x52 + n), 0x088, 0, 16, 0, 0⟩

/-- R360. -/
def FIO_IN_CHG_0 (n : Nat) : Fld := ⟨(0x52 + n), 0x08C, 0, 8, 0, 0⟩

/-- R360. -/
def FIO_WAKE_0 (n : Nat) : Fld := ⟨(0x52 + n), 0x090, 0, 8, 0, 0⟩

/-- R360. -/
def FIO_IN_CFG_0 (n i : Nat) : Fld := ⟨(0x52 + n), (0x100 + 4 * i), 0, 8, 3, 0⟩

/-- R360. -/
def FIO_IN_CFG_8 (n i : Nat) : Fld := ⟨(0x52 + n), (0x100 + 4 * i), 8, 8, 10, 0⟩

/-- R360. -/
def FIO_IN_CFG_16 (n i : Nat) : Fld := ⟨(0x52 + n), (0x100 + 4 * i), 16, 1, 0, 0⟩

/-- R360. -/
def FIO_IN_BIND_0 (n i : Nat) : Fld := ⟨(0x52 + n), (0x120 + 4 * i), 0, 16, 0, 0⟩

/-- R360. -/
def FIO_IN_BIND_31 (n i : Nat) : Fld := ⟨(0x52 + n), (0x120 + 4 * i), 31, 1, 0, 0⟩

/-- R360. -/
def FIO_RB_CFG_0 (n : Nat) : Fld := ⟨(0x52 + n), 0x080, 0, 8, 8, 0⟩

/-- R360. -/
def FIO_RB_CFG_8 (n : Nat) : Fld := ⟨(0x52 + n), 0x080, 8, 8, 3, 0⟩

/-- R360. -/
def FIO_OUT_STATE_0 (n : Nat) : Fld := ⟨(0x52 + n), 0x084, 0, 8, 0, 0⟩

/-- R360. -/
def FIO_OUT_STATE_8 (n : Nat) : Fld := ⟨(0x52 + n), 0x084, 8, 8, 0, 0⟩

/-- R360. -/
def FIO_OUT_STATE_16 (n : Nat) : Fld := ⟨(0x52 + n), 0x084, 16, 8, 0, 0⟩

/-- R360. -/
def FIO_RB_0 (n : Nat) : Fld := ⟨(0x52 + n), 0x088, 0, 16, 0, 0⟩

/-- R360. -/
def FIO_RB_MIS_0 (n : Nat) : Fld := ⟨(0x52 + n), 0x08C, 0, 8, 0, 0⟩

/-- R360. -/
def FIO_RB_MIS_8 (n : Nat) : Fld := ⟨(0x52 + n), 0x08C, 8, 8, 0, 0⟩

/-- R360. -/
def FIO_RB_MIS_16 (n : Nat) : Fld := ⟨(0x52 + n), 0x08C, 16, 8, 0, 0⟩

/-- R360. -/
def FIO_RB_LATCH_0 (n : Nat) : Fld := ⟨(0x52 + n), 0x090, 0, 24, 0, 0⟩

/-- R360. -/
def FIO_PARTNER_0 (n : Nat) : Fld := ⟨(0x52 + n), 0x094, 0, 8, 0, 0⟩

/-- R360. -/
def FIO_STAGE_MISS_0 (n : Nat) : Fld := ⟨(0x52 + n), 0x098, 0, 32, 0, 0⟩

/-- R360. -/
def FIO_OUT_CFG_0 (n i : Nat) : Fld := ⟨(0x52 + n), (0x100 + 4 * i), 0, 16, 0, 0⟩

/-- R360. -/
def FIO_OUT_CFG_16 (n i : Nat) : Fld := ⟨(0x52 + n), (0x100 + 4 * i), 16, 5, 0, 0⟩

/-- R360. -/
def FIO_OUT_CFG_21 (n i : Nat) : Fld := ⟨(0x52 + n), (0x100 + 4 * i), 21, 1, 0, 0⟩

/-- R360. -/
def FIO_OUT_CFG_22 (n i : Nat) : Fld := ⟨(0x52 + n), (0x100 + 4 * i), 22, 1, 0, 0⟩

/-- R360. -/
def FIO_OUT_CFG_23 (n i : Nat) : Fld := ⟨(0x52 + n), (0x100 + 4 * i), 23, 1, 0, 0⟩

/-- R360. -/
def FIO_OUT_CFG_24 (n i : Nat) : Fld := ⟨(0x52 + n), (0x100 + 4 * i), 24, 5, 10, 0⟩

/-- R377. -/
def SPEED_loaded : Fld := ⟨0x5E, 0x010, 0, 1, 0, 0⟩

/-- R377. -/
def SPEED_raw : Fld := ⟨0x5E, 0x020, 0, 5, 0, 0⟩

/-- R377. -/
def SPEED_en : Fld := ⟨0x5E, 0x024, 0, 5, 0, 0⟩

/-- R377. -/
def SPEED_fail_count : Fld := ⟨0x5E, 0x030, 0, 16, 0, 0⟩

/-- R378. -/
def SPD_CFG_0 : Fld := ⟨0x5E, 0x040, 0, 8, 0, 0⟩

/-- R378. -/
def SPD_CFG_8 : Fld := ⟨0x5E, 0x040, 8, 4, 0, 0⟩

/-- R378. -/
def SPD_CFG_16 : Fld := ⟨0x5E, 0x040, 16, 16, 0, 0⟩

/-- R378. -/
def SPD_PLAUS_0 : Fld := ⟨0x5E, 0x044, 0, 14, 0, 0⟩

/-- R378. -/
def SPD_PLAUS_16 : Fld := ⟨0x5E, 0x044, 16, 14, 0, 0⟩

/-- R378. -/
def SPD_WHEEL_0 : Fld := ⟨0x5E, 0x048, 0, 14, 0, 0⟩

/-- R378. -/
def SPD_WHEEL_16 : Fld := ⟨0x5E, 0x048, 16, 11, 0, 0⟩

/-- R378. -/
def SPD_CONS_V_0 : Fld := ⟨0x5E, 0x050, 0, 32, 2147483647, 0⟩

/-- R378. -/
def SPD_CONS_STAT_0 : Fld := ⟨0x5E, 0x054, 0, 9, 0, 0⟩

/-- R378. -/
def SPD_CONS_STAT_16 : Fld := ⟨0x5E, 0x054, 16, 8, 0, 0⟩

/-- R378. -/
def SPD_SPREAD_0 : Fld := ⟨0x5E, 0x058, 0, 32, 0, 0⟩

/-- R378. -/
def SPD_CMD_0 : Fld := ⟨0x5E, 0x05C, 0, 8, 0, 0⟩

/-- R378. -/
def SPD_CMD_8 : Fld := ⟨0x5E, 0x05C, 8, 8, 0, 0⟩

/-- R378. -/
def SPD_CMD_STAT_0 : Fld := ⟨0x5E, 0x060, 0, 8, 0, 0⟩

/-- R378. -/
def SPD_CMD_STAT_8 : Fld := ⟨0x5E, 0x060, 8, 2, 0, 0⟩

/-- R378. -/
def SPD_C_CFG_0 (i : Nat) : Fld := ⟨0x5E, (0x100 + 64 * i), 0, 2, 0, 0⟩

/-- R378. -/
def SPD_C_CFG_2 (i : Nat) : Fld := ⟨0x5E, (0x100 + 64 * i), 2, 1, 0, 0⟩

/-- R378. -/
def SPD_C_CFG_4 (i : Nat) : Fld := ⟨0x5E, (0x100 + 64 * i), 4, 7, 0, 0⟩

/-- R378. -/
def SPD_C_CFG_16 (i : Nat) : Fld := ⟨0x5E, (0x100 + 64 * i), 16, 11, 0, 0⟩

/-- R378. -/
def SPD_C_BIND_0 (i : Nat) : Fld := ⟨0x5E, (0x104 + 64 * i), 0, 16, 0, 0⟩

/-- R378. -/
def SPD_C_BIND_31 (i : Nat) : Fld := ⟨0x5E, (0x104 + 64 * i), 31, 1, 0, 0⟩

/-- R378. -/
def SPD_C_STAT_0 (i : Nat) : Fld := ⟨0x5E, (0x108 + 64 * i), 0, 9, 0, 0⟩

/-- R378. -/
def SPD_C_STAT_16 (i : Nat) : Fld := ⟨0x5E, (0x108 + 64 * i), 16, 2, 0, 0⟩

/-- R378. -/
def SPD_C_STAT_18 (i : Nat) : Fld := ⟨0x5E, (0x108 + 64 * i), 18, 1, 0, 0⟩

/-- R378. -/
def SPD_C_PERIOD_0 (i : Nat) : Fld := ⟨0x5E, (0x10C + 64 * i), 0, 28, 0, 0⟩

/-- R378. -/
def SPD_C_FREQ_0 (i : Nat) : Fld := ⟨0x5E, (0x110 + 64 * i), 0, 25, 0, 0⟩

/-- R378. -/
def SPD_C_SPEED_0 (i : Nat) : Fld := ⟨0x5E, (0x114 + 64 * i), 0, 32, 0, 0⟩

/-- R378. -/
def SPD_C_ODO_LO_0 (i : Nat) : Fld := ⟨0x5E, (0x118 + 64 * i), 0, 32, 0, 0⟩

/-- R378. -/
def SPD_C_ODO_HI_0 (i c : Nat) : Fld := ⟨0x5E, (0x11C + 64 * i), 0, 32, 0, (1 + c)⟩

/-- R378. -/
def SPD_C_EVT_0 (i : Nat) : Fld := ⟨0x5E, (0x120 + 64 * i), 0, 16, 0, 0⟩

/-- R378. -/
def SPD_C_EVT_16 (i : Nat) : Fld := ⟨0x5E, (0x120 + 64 * i), 16, 8, 0, 0⟩

/-- R378. -/
def SPD_C_EVT_24 (i : Nat) : Fld := ⟨0x5E, (0x120 + 64 * i), 24, 8, 0, 0⟩

/-- R378. -/
def SPD_C_LEVEL_0 (i : Nat) : Fld := ⟨0x5E, (0x124 + 64 * i), 0, 10, 0, 0⟩

/-- R378. -/
def SPD_C_LEVEL_16 (i : Nat) : Fld := ⟨0x5E, (0x124 + 64 * i), 16, 10, 0, 0⟩

/-- R401. -/
def MILLWRIGHT_state : Fld := ⟨0x5F, 0x010, 0, 3, 0, 0⟩

/-- R401. -/
def MILLWRIGHT_raw : Fld := ⟨0x5F, 0x020, 0, 4, 0, 0⟩

/-- R401. -/
def MILLWRIGHT_en : Fld := ⟨0x5F, 0x024, 0, 4, 0, 0⟩

/-- R401. -/
def MILLWRIGHT_frame_errs : Fld := ⟨0x5F, 0x030, 0, 16, 0, 0⟩

/-- R401. -/
def MW_ROM_ID_0 : Fld := ⟨0x5F, 0x040, 0, 32, 0, 0⟩

/-- R401. -/
def MW_PROFILE_0 : Fld := ⟨0x5F, 0x044, 0, 4, 0, 0⟩

/-- R401. -/
def MW_PROFILE_16 : Fld := ⟨0x5F, 0x044, 16, 16, 0, 0⟩

/-- R401. -/
def MW_PERMIT_0 : Fld := ⟨0x5F, 0x048, 0, 8, 0, 0⟩

/-- R401. -/
def MW_PERMIT_8 : Fld := ⟨0x5F, 0x048, 8, 8, 0, 0⟩

/-- R401. -/
def MW_COND_0 : Fld := ⟨0x5F, 0x04C, 0, 4, 0, 0⟩

/-- R401. -/
def MW_COND_4 : Fld := ⟨0x5F, 0x04C, 4, 4, 0, 0⟩

/-- R401. -/
def MW_COND_8 : Fld := ⟨0x5F, 0x04C, 8, 6, 0, 0⟩

/-- R401. -/
def MW_SPEED_0 : Fld := ⟨0x5F, 0x050, 0, 32, 2147483647, 0⟩

/-- R401. -/
def MW_POS_0 : Fld := ⟨0x5F, 0x054, 0, 16, 0, 0⟩

/-- R401. -/
def MW_POS_16 : Fld := ⟨0x5F, 0x054, 16, 8, 0, 0⟩

/-- R401. -/
def MW_POS_24 : Fld := ⟨0x5F, 0x054, 24, 8, 0, 0⟩

/-- R401. -/
def MW_FAULT_0 : Fld := ⟨0x5F, 0x058, 0, 5, 0, 0⟩

/-- R401. -/
def MW_SWIMG_LO_0 : Fld := ⟨0x5F, 0x05C, 0, 32, 0, 0⟩

/-- R401. -/
def MW_SWIMG_HI_0 : Fld := ⟨0x5F, 0x060, 0, 28, 0, 0⟩

/-- R401. -/
def MW_XC_0 : Fld := ⟨0x5F, 0x064, 0, 16, 0, 0⟩

/-- R401. -/
def MW_ROMSEL_0 : Fld := ⟨0x5F, 0x080, 0, 10, 0, 0⟩

/-- R401. -/
def MW_ROMDATA_0 : Fld := ⟨0x5F, 0x084, 0, 32, 0, 0⟩

/-- R402. -/
def SAFEOUT_checked : Fld := ⟨0x60, 0x010, 0, 1, 0, 0⟩

/-- R402. -/
def SAFEOUT_safe_block : Fld := ⟨0x60, 0x010, 1, 1, 0, 0⟩

/-- R402. -/
def SAFEOUT_raw : Fld := ⟨0x60, 0x020, 0, 3, 0, 0⟩

/-- R402. -/
def SAFEOUT_en : Fld := ⟨0x60, 0x024, 0, 3, 0, 0⟩

/-- R402. -/
def SAFEOUT_fault_count : Fld := ⟨0x60, 0x030, 0, 16, 0, 0⟩

/-- R402. -/
def SO_STATE_0 : Fld := ⟨0x60, 0x040, 0, 8, 0, 0⟩

/-- R402. -/
def SO_STATE_8 : Fld := ⟨0x60, 0x040, 8, 8, 0, 0⟩

/-- R402. -/
def SO_STATE_16 : Fld := ⟨0x60, 0x040, 16, 8, 0, 0⟩

/-- R402. -/
def SO_FAILED_0 : Fld := ⟨0x60, 0x044, 0, 8, 0, 0⟩

/-- R402. -/
def SO_TEST_0 : Fld := ⟨0x60, 0x048, 0, 9, 60, 0⟩

/-- R402. -/
def SO_TEST_16 : Fld := ⟨0x60, 0x048, 16, 1, 0, 0⟩

/-- R402. -/
def SO_TEST_STAT_0 : Fld := ⟨0x60, 0x04C, 0, 16, 0, 0⟩

/-- R402. -/
def SO_TEST_STAT_16 : Fld := ⟨0x60, 0x04C, 16, 8, 0, 0⟩

/-- R402. -/
def SO_BIND_0 (i : Nat) : Fld := ⟨0x60, (0x100 + 4 * i), 0, 16, 0, 0⟩

/-- R402. -/
def SO_BIND_16 (i : Nat) : Fld := ⟨0x60, (0x100 + 4 * i), 16, 5, 0, 0⟩

/-- R402. -/
def SO_BIND_21 (i : Nat) : Fld := ⟨0x60, (0x100 + 4 * i), 21, 1, 0, 0⟩

/-- R402. -/
def SO_BIND_31 (i : Nat) : Fld := ⟨0x60, (0x100 + 4 * i), 31, 1, 0, 0⟩

/-- R402. -/
def SO_CAUSE_0 (i : Nat) : Fld := ⟨0x60, (0x140 + 4 * i), 0, 3, 0, 0⟩

/-- R416. -/
def SAFEMSG_loaded : Fld := ⟨0x61, 0x010, 0, 1, 0, 0⟩

/-- R416. -/
def SAFEMSG_failed : Fld := ⟨0x61, 0x010, 1, 7, 0, 0⟩

/-- R416. -/
def SAFEMSG_raw : Fld := ⟨0x61, 0x020, 0, 4, 0, 0⟩

/-- R416. -/
def SAFEMSG_en : Fld := ⟨0x61, 0x024, 0, 4, 0, 0⟩

/-- R416. -/
def SAFEMSG_err_count : Fld := ⟨0x61, 0x030, 0, 16, 0, 0⟩

/-- R417. -/
def SM_OWN_0 : Fld := ⟨0x61, 0x040, 0, 16, 0, 0⟩

/-- R417. -/
def SM_CMD_0 : Fld := ⟨0x61, 0x044, 0, 6, 0, 0⟩

/-- R417. -/
def SM_CMD_8 : Fld := ⟨0x61, 0x044, 8, 1, 0, 0⟩

/-- R417. -/
def SM_CMD_STAT_0 : Fld := ⟨0x61, 0x048, 0, 2, 0, 0⟩

/-- R417. -/
def SM_T_BIND_0 (i : Nat) : Fld := ⟨0x61, (0x100 + 16 * i), 0, 16, 0, 0⟩

/-- R417. -/
def SM_T_BIND_31 (i : Nat) : Fld := ⟨0x61, (0x100 + 16 * i), 31, 1, 0, 0⟩

/-- R417. -/
def SM_T_DEST_0 (i : Nat) : Fld := ⟨0x61, (0x104 + 16 * i), 0, 32, 0, 0⟩

/-- R417. -/
def SM_T_SEQ_0 (i : Nat) : Fld := ⟨0x61, (0x108 + 16 * i), 0, 32, 0, 0⟩

/-- R417. -/
def SM_T_CNT_0 (i : Nat) : Fld := ⟨0x61, (0x10C + 16 * i), 0, 32, 0, 0⟩

/-- R417. -/
def SM_R_BIND_0 (i : Nat) : Fld := ⟨0x61, (0x800 + 32 * i), 0, 16, 0, 0⟩

/-- R417. -/
def SM_R_BIND_31 (i : Nat) : Fld := ⟨0x61, (0x800 + 32 * i), 31, 1, 0, 0⟩

/-- R417. -/
def SM_R_SRC_0 (i : Nat) : Fld := ⟨0x61, (0x804 + 32 * i), 0, 32, 0, 0⟩

/-- R417. -/
def SM_R_TIME_0 (i : Nat) : Fld := ⟨0x61, (0x808 + 32 * i), 0, 14, 0, 0⟩

/-- R417. -/
def SM_R_TIME_16 (i : Nat) : Fld := ⟨0x61, (0x808 + 32 * i), 16, 16, 0, 0⟩

/-- R417. -/
def SM_R_STAT_0 (i : Nat) : Fld := ⟨0x61, (0x80C + 32 * i), 0, 2, 0, 0⟩

/-- R417. -/
def SM_R_STAT_2 (i : Nat) : Fld := ⟨0x61, (0x80C + 32 * i), 2, 4, 0, 0⟩

/-- R417. -/
def SM_R_STAT_6 (i : Nat) : Fld := ⟨0x61, (0x80C + 32 * i), 6, 4, 0, 0⟩

/-- R417. -/
def SM_R_SEQ_0 (i : Nat) : Fld := ⟨0x61, (0x810 + 32 * i), 0, 32, 0, 0⟩

/-- R417. -/
def SM_R_AGE_0 (i : Nat) : Fld := ⟨0x61, (0x814 + 32 * i), 0, 32, 0, 0⟩

/-- R417. -/
def SM_R_ERR_0 (i : Nat) : Fld := ⟨0x61, (0x818 + 32 * i), 0, 8, 0, 0⟩

/-- R417. -/
def SM_R_ERR_8 (i : Nat) : Fld := ⟨0x61, (0x818 + 32 * i), 8, 8, 0, 0⟩

/-- R417. -/
def SM_R_ERR_16 (i : Nat) : Fld := ⟨0x61, (0x818 + 32 * i), 16, 8, 0, 0⟩

/-- R417. -/
def SM_R_ERR_24 (i : Nat) : Fld := ⟨0x61, (0x818 + 32 * i), 24, 8, 0, 0⟩

/-- R417. -/
def SM_R_CNT_0 (i : Nat) : Fld := ⟨0x61, (0x81C + 32 * i), 0, 32, 0, 0⟩

/-- R550. -/
def BRIDGE_state : Fld := ⟨0x62, 0x010, 0, 2, 0, 0⟩

/-- R550. -/
def BRIDGE_sysfail_out : Fld := ⟨0x62, 0x010, 2, 1, 0, 0⟩

/-- R550. -/
def BRIDGE_in_reset : Fld := ⟨0x62, 0x010, 3, 1, 0, 0⟩

/-- R550. -/
def BRIDGE_raw : Fld := ⟨0x62, 0x020, 0, 4, 0, 0⟩

/-- R550. -/
def BRIDGE_en : Fld := ⟨0x62, 0x024, 0, 4, 0, 0⟩

/-- R550. -/
def BRIDGE_err_count : Fld := ⟨0x62, 0x030, 0, 16, 0, 0⟩

/-- R550. -/
def BR_CTL_0 : Fld := ⟨0x62, 0x040, 0, 1, 0, 0⟩

/-- R550. -/
def BR_CTL_8 : Fld := ⟨0x62, 0x040, 8, 10, 64, 0⟩

/-- R550. -/
def BR_REQQ_0 : Fld := ⟨0x62, 0x044, 0, 10, 0, 0⟩

/-- R550. -/
def BR_CPLQ_0 : Fld := ⟨0x62, 0x048, 0, 10, 0, 0⟩

/-- R550. -/
def BR_CMD_0 : Fld := ⟨0x62, 0x04C, 0, 1, 0, 0⟩

/-- R550. -/
def BR_CMD_1 : Fld := ⟨0x62, 0x04C, 1, 1, 0, 0⟩

/-- R550. -/
def BR_OCC_0 : Fld := ⟨0x62, 0x050, 0, 6, 0, 0⟩

/-- R550. -/
def BR_OCC_8 : Fld := ⟨0x62, 0x050, 8, 5, 0, 0⟩

/-- R550. -/
def BR_OCC_16 : Fld := ⟨0x62, 0x050, 16, 5, 0, 0⟩

/-- R550. -/
def BR_LINES_0 : Fld := ⟨0x62, 0x054, 0, 8, 0, 0⟩

/-- R550. -/
def BR_LINES_8 : Fld := ⟨0x62, 0x054, 8, 1, 0, 0⟩

/-- R550. -/
def BR_LINES_9 : Fld := ⟨0x62, 0x054, 9, 1, 0, 0⟩

/-- R550. -/
def BR_LINES_10 : Fld := ⟨0x62, 0x054, 10, 1, 0, 0⟩

/-- R550. -/
def BR_ERR_ADDR_0 : Fld := ⟨0x62, 0x058, 0, 24, 0, 0⟩

/-- R550. -/
def BR_ERR_ADDR_24 : Fld := ⟨0x62, 0x058, 24, 4, 0, 0⟩

/-- R550. -/
def BR_ERR_ADDR_31 : Fld := ⟨0x62, 0x058, 31, 1, 0, 0⟩

/-- R550. -/
def BR_ERR_DATA_0 : Fld := ⟨0x62, 0x05C, 0, 32, 0, 0⟩

/-- R550. -/
def BR_SCANCTL_0 : Fld := ⟨0x62, 0x060, 0, 10, 50, 0⟩

/-- R550. -/
def BR_SCANCTL_31 : Fld := ⟨0x62, 0x060, 31, 1, 0, 0⟩

/-- R550. -/
def BR_WRITES_0 : Fld := ⟨0x62, 0x080, 0, 32, 0, 0⟩

/-- R550. -/
def BR_READS_0 : Fld := ⟨0x62, 0x084, 0, 32, 0, 0⟩

/-- R550. -/
def BR_FARERR_0 : Fld := ⟨0x62, 0x088, 0, 32, 0, 0⟩

/-- R550. -/
def BR_TMO_0 : Fld := ⟨0x62, 0x08C, 0, 32, 0, 0⟩

/-- R550. -/
def BR_REFUSED_0 : Fld := ⟨0x62, 0x090, 0, 32, 0, 0⟩

/-- R550. -/
def BR_DISCARD_0 : Fld := ⟨0x62, 0x094, 0, 32, 0, 0⟩

/-- R550. -/
def BR_SSEL_0 : Fld := ⟨0x62, 0x0FC, 0, 5, 0, 0⟩

/-- R550. -/
def BR_S_ADDR_0 (e : Nat) : Fld := ⟨0x62, 0x100, 0, 24, 0, (1 + e)⟩

/-- R550. -/
def BR_S_ADDR_24 (e : Nat) : Fld := ⟨0x62, 0x100, 24, 2, 2, (1 + e)⟩

/-- R550. -/
def BR_S_ADDR_26 (e : Nat) : Fld := ⟨0x62, 0x100, 26, 3, 0, (1 + e)⟩

/-- R550. -/
def BR_S_ADDR_31 (e : Nat) : Fld := ⟨0x62, 0x100, 31, 1, 0, (1 + e)⟩

/-- R550. -/
def BR_S_TGT_0 (e : Nat) : Fld := ⟨0x62, 0x104, 0, 16, 0, (1 + e)⟩

/-- R550. -/
def BR_S_TGT_16 (e : Nat) : Fld := ⟨0x62, 0x104, 16, 3, 0, (1 + e)⟩

/-- R550. -/
def BR_S_CNT_0 (e : Nat) : Fld := ⟨0x62, 0x108, 0, 16, 0, (1 + e)⟩

/-- R550. -/
def BR_S_CNT_16 (e : Nat) : Fld := ⟨0x62, 0x108, 16, 16, 0, (1 + e)⟩

/-- R480. -/
def SDSLOT_present : Fld := ⟨0x63, 0x010, 0, 1, 0, 0⟩

/-- R480. -/
def SDSLOT_busy : Fld := ⟨0x63, 0x010, 1, 1, 0, 0⟩

/-- R480. -/
def SDSLOT_raw : Fld := ⟨0x63, 0x020, 0, 4, 0, 0⟩

/-- R480. -/
def SDSLOT_en : Fld := ⟨0x63, 0x024, 0, 4, 0, 0⟩

/-- R480. -/
def SDSLOT_crc_errs : Fld := ⟨0x63, 0x030, 0, 16, 0, 0⟩

/-- R480. -/
def SD_STAT_0 : Fld := ⟨0x63, 0x040, 0, 1, 0, 0⟩

/-- R480. -/
def SD_STAT_1 : Fld := ⟨0x63, 0x040, 1, 3, 0, 0⟩

/-- R480. -/
def SD_STAT_4 : Fld := ⟨0x63, 0x040, 4, 1, 0, 0⟩

/-- R480. -/
def SD_STAT_5 : Fld := ⟨0x63, 0x040, 5, 1, 0, 0⟩

/-- R480. -/
def SD_STAT_6 : Fld := ⟨0x63, 0x040, 6, 1, 0, 0⟩

/-- R480. -/
def SD_CAP_0 : Fld := ⟨0x63, 0x044, 0, 32, 0, 0⟩

/-- R480. -/
def SD_CTL_0 : Fld := ⟨0x63, 0x048, 0, 3, 5, 0⟩

/-- R480. -/
def SD_CTL_8 : Fld := ⟨0x63, 0x048, 8, 1, 1, 0⟩

/-- R480. -/
def SD_CMD_0 : Fld := ⟨0x63, 0x04C, 0, 1, 0, 0⟩

/-- R480. -/
def SD_CMD_1 : Fld := ⟨0x63, 0x04C, 1, 1, 0, 0⟩

/-- R480. -/
def SD_CMD_2 : Fld := ⟨0x63, 0x04C, 2, 1, 0, 0⟩

/-- R480. -/
def SD_LBA_0 : Fld := ⟨0x63, 0x050, 0, 32, 0, 0⟩

/-- R480. -/
def SD_COUNT_0 : Fld := ⟨0x63, 0x054, 0, 6, 1, 0⟩

/-- R480. -/
def SD_QUEUE_0 : Fld := ⟨0x63, 0x058, 0, 10, 0, 0⟩

/-- R480. -/
def SD_RSTAT_0 : Fld := ⟨0x63, 0x05C, 0, 2, 0, 0⟩

/-- R480. -/
def SD_RSTAT_2 : Fld := ⟨0x63, 0x05C, 2, 4, 0, 0⟩

/-- R480. -/
def SD_RSTAT_8 : Fld := ⟨0x63, 0x05C, 8, 6, 0, 0⟩

/-- R480. -/
def SD_CID_0 (i : Nat) : Fld := ⟨0x63, (0x060 + 4 * i), 0, 32, 0, 0⟩

/-- R403. -/
def SWITCHES_passed : Fld := ⟨0x64, 0x010, 0, 1, 0, 0⟩

/-- R403. -/
def SWITCHES_cfg_diff : Fld := ⟨0x64, 0x010, 1, 1, 0, 0⟩

/-- R403. -/
def SWITCHES_mw_diff : Fld := ⟨0x64, 0x010, 2, 1, 0, 0⟩

/-- R403. -/
def SWITCHES_changed : Fld := ⟨0x64, 0x010, 3, 1, 0, 0⟩

/-- R403. -/
def SWITCHES_raw : Fld := ⟨0x64, 0x020, 0, 2, 0, 0⟩

/-- R403. -/
def SWITCHES_en : Fld := ⟨0x64, 0x024, 0, 2, 0, 0⟩

/-- R403. -/
def SWITCHES_changes : Fld := ⟨0x64, 0x030, 0, 16, 0, 0⟩

/-- R403. -/
def SW_READ_LO_0 : Fld := ⟨0x64, 0x040, 0, 32, 0, 0⟩

/-- R403. -/
def SW_READ_HI_0 : Fld := ⟨0x64, 0x044, 0, 32, 0, 0⟩

/-- R403. -/
def SW_CFG_LO_0 : Fld := ⟨0x64, 0x048, 0, 32, 0, 0⟩

/-- R403. -/
def SW_CFG_HI_0 : Fld := ⟨0x64, 0x04C, 0, 32, 0, 0⟩

/-- R403. -/
def SW_ROLE_0 : Fld := ⟨0x64, 0x050, 0, 1, 0, 0⟩

/-- R403. -/
def SW_ROLE_1 : Fld := ⟨0x64, 0x050, 1, 1, 0, 0⟩

/-- R403. -/
def SW_ROLE_2 : Fld := ⟨0x64, 0x050, 2, 1, 0, 0⟩

/-- R403. -/
def SW_ADDR_0 : Fld := ⟨0x64, 0x054, 0, 16, 0, 0⟩

/-- R403. -/
def SW_WHEEL_0 : Fld := ⟨0x64, 0x058, 0, 14, 0, 0⟩

/-- R403. -/
def SW_WHEEL_16 : Fld := ⟨0x64, 0x058, 16, 11, 0, 0⟩

/-- R403. -/
def SW_PROF_0 : Fld := ⟨0x64, 0x05C, 0, 4, 0, 0⟩

/-- R566. -/
def DEBUG_connected : Fld := ⟨0x65, 0x010, 0, 1, 0, 0⟩

/-- R566. -/
def DEBUG_attached : Fld := ⟨0x65, 0x010, 1, 1, 0, 0⟩

/-- R566. -/
def DEBUG_raw : Fld := ⟨0x65, 0x020, 0, 3, 0, 0⟩

/-- R566. -/
def DEBUG_en : Fld := ⟨0x65, 0x024, 0, 3, 0, 0⟩

/-- R566. -/
def DEBUG_link_errs : Fld := ⟨0x65, 0x030, 0, 16, 0, 0⟩

/-- R566. -/
def HDBG_STAT_0 : Fld := ⟨0x65, 0x040, 0, 2, 3, 0⟩

/-- R566. -/
def HDBG_STAT_2 : Fld := ⟨0x65, 0x040, 2, 1, 0, 0⟩

/-- R566. -/
def HDBG_STAT_4 : Fld := ⟨0x65, 0x040, 4, 4, 0, 0⟩

/-- R566. -/
def HDBG_CNT_0 : Fld := ⟨0x65, 0x044, 0, 8, 0, 0⟩

/-- R566. -/
def HDBG_CNT_8 : Fld := ⟨0x65, 0x044, 8, 8, 0, 0⟩

/-- R566. -/
def HDBG_T_LO_0 : Fld := ⟨0x65, 0x048, 0, 32, 0, 0⟩

/-- R566. -/
def HDBG_T_HI_0 (c : Nat) : Fld := ⟨0x65, 0x04C, 0, 32, 0, (1 + c)⟩

/-- R566. -/
def HDBG_LINK_0 : Fld := ⟨0x65, 0x050, 0, 6, 0, 0⟩

end Sys2Proof.Machine
end

