-- ==== Sys2Proof/Machine/State.lean ====
section
/-! DEFINITION. The state of the module: everything spec/ gives it, as plain data. Hub registers stand in `regs`, one
entry per field (Machine/RegFields.lean names every field); the rest of the hub, the lanes, the Millwright and the
islands have the fields below. -/

namespace Sys2Proof.Machine

/-- The three module variants (00 R3). -/
inductive Variant where
  | eulT3F | eulT3C | eulT3S
deriving DecidableEq, Repr

/-- Three like things, one per lane. -/
structure Tri (α : Type) where
  a : α
  b : α
  c : α
deriving DecidableEq, Repr

/-- Four like things, one per core pair. -/
structure Quad (α : Type) where
  a : α
  b : α
  c : α
  d : α
deriving DecidableEq, Repr

/-- Element i. -/
def Tri.get {α : Type} (t : Tri α) (i : Fin 3) : α :=
  match i with | 0 => t.a | 1 => t.b | 2 => t.c

/-- Replace element i. -/
def Tri.set {α : Type} (t : Tri α) (i : Fin 3) (x : α) : Tri α :=
  match i with
  | 0 => ⟨x, t.b, t.c⟩
  | 1 => ⟨t.a, x, t.c⟩
  | 2 => ⟨t.a, t.b, x⟩

/-- Element p. -/
def Quad.get {α : Type} (t : Quad α) (i : Fin 4) : α :=
  match i with | 0 => t.a | 1 => t.b | 2 => t.c | 3 => t.d

/-- Replace element p. -/
def Quad.set {α : Type} (t : Quad α) (i : Fin 4) (x : α) : Quad α :=
  match i with
  | 0 => ⟨x, t.b, t.c, t.d⟩
  | 1 => ⟨t.a, x, t.c, t.d⟩
  | 2 => ⟨t.a, t.b, x, t.d⟩
  | 3 => ⟨t.a, t.b, t.c, x⟩

/-- The same in every lane. -/
def Tri.all {α : Type} (x : α) : Tri α := ⟨x, x, x⟩

/-- The same in every pair. -/
def Quad.all {α : Type} (x : α) : Quad α := ⟨x, x, x, x⟩

/-- The answer to a hub read: a value, or an error with the info kind of R51 (03 R84). -/
inductive Ans where
  | value (v : Nat)
  | error (info : Nat)
deriving DecidableEq, Repr

/-- A delivery stamp (05 R133, R134): number, count D, sources with their priorities, hub store faults (sequence number, address). -/
structure Stamp where
  num : Nat
  due : Nat
  srcs : List (Nat × Nat)
  faults : List (Nat × Nat)
deriving DecidableEq, Repr

/-- What a pair does with the answer of the hub read it waits for: a load into g or v (`kind` as 02 R63 numbers the loads, 7 FLD, 8 FLW),
an atomic's old value, or a chunk of BCOPY or BCRC whose source is in the hub (`got` holds the bytes of a first record). -/
inductive HubCont where
  | load (kind : Nat) (rd : Fin 32)
  | atomic (rd : Fin 32) (wide : Bool)
  | bcopy (gd gs1 gs2 : Fin 32) (len : Nat) (got : List Byte)
  | bcrc (gd gs1 gs2 : Fin 32) (sel : Fin 4) (len : Nat) (got : List Byte)
deriving DecidableEq, Repr

/-- What a pair waits for: nothing, a PACE at its count, or the answer to the hub read or atomic of a sequence number, address and length. -/
inductive Wait where
  | none
  | pace (c : Nat)
  | hub (seq addr len : Nat) (k : HubCont)
deriving DecidableEq, Repr

/-- One core pair of a lane (02 R40, R42, R77, R88; 05 R151; 04 R129). -/
structure PairS where
  /-- General registers g1 to g31; an unlisted one is 0 (02 R40). -/
  g : SMap Word64
  /-- Floating-point registers. -/
  v : SMap Word64
  /-- Program counter. -/
  pc : Word64
  /-- System registers by number (02 R42); an unlisted one holds its reset value. -/
  sr : SMap Word64
  /-- CNT_EV[0..7] (02 R77). -/
  cnt : SMap Nat
  /-- State digest (03 R88). -/
  digest : Nat
  /-- Next read and write sequence numbers (01 R16). -/
  seqR : Nat
  seqW : Nat
  /-- Stopped by R49 until lane reset. -/
  stopped : Bool
  /-- The last unit was a chunk of a block instruction that is not complete (02 R68). -/
  inBlk : Bool
  wait : Wait
  /-- INTC_CTL thresh, INTC_EN and INTC_PEND as bit masks over 1,280 sources, and the priorities the pending sources came with (05 R138, R151). -/
  thresh : Nat
  en : Nat
  pend : Nat
  prio : SMap Nat
  /-- Stamps accepted and not yet due (05 R136), the release held (PACE count, last stamp number named, numbers of the stamps it makes pending; 05 R141),
  and due hub store faults. -/
  stamps : List Stamp
  release : Option (Nat × Nat × List Nat)
  faults : List (Nat × Nat)
  /-- Checkpoint reports of boundaries passed, not yet sent (03 R90). -/
  due : List Ckpt
  /-- Held at a rejoin hold point (04 R117). -/
  held : Bool
  /-- Debug page (04 R129): halted, halt reason, one unit to retire, and its other registers by offset. -/
  halted : Bool
  haltWhy : Nat
  stepping : Bool
  dbg : SMap Nat
deriving DecidableEq, Repr

/-- One lane die (01 R31, R34; 02 R55, R56). -/
structure LaneS where
  pairs : Quad PairS
  /-- Lane memory by address of 01 R34; a pair's tightly coupled memory at its second-view address. -/
  mem : SMap Byte
  /-- Dirty pages (04 R116). -/
  dirty : SMap Nat
  /-- SR_MPAIRRUN, SR_MGOTX and the granule table (02 R55, R56). -/
  mpairrun : Nat
  mgotx : Nat
  gran : SMap Nat
  /-- Records and checkpoint reports sent on the lane link and not yet arrived (01 R16, 03 R90). -/
  out : List Rec
  reports : List (Fin 4 × Ckpt)
  /-- Flits answered with one replay so far: records whose link CRC failed once (01 R16). -/
  replayed : List Rec
deriving DecidableEq, Repr

/-- A write record at the Assay (01 R20 to R24): the lanes that delivered it, and the record released. `held`: it waits for a credit (07 R189); `lags`:
lags of lanes whose record has not matched yet (03 R102). -/
structure WEnt where
  pair : Fin 4
  seq : Nat
  recs : List (Fin 3 × Rec)
  released : Option Rec
  complete : Bool
  /-- Created after an admission window: waits for the apprentice too (04 R119). -/
  app : Bool
  t0 : Nat
  held : Bool
  lags : List (Fin 3 × Nat)
deriving DecidableEq, Repr

/-- A read-match entry (01 R26, R27; 03 R80). `capt` holds the answer captured; `side` a read-clear or pop performed; `served` the lanes answered. -/
structure REnt where
  pair : Fin 4
  seq : Nat
  recs : List (Fin 3 × Rec)
  first : Option Rec
  capt : Option Ans
  side : Bool
  served : List (Fin 3)
  app : Bool
  t0 : Nat
  held : Bool
  lags : List (Fin 3 × Nat)
deriving DecidableEq, Repr

/-- A checkpoint entry (03 R91). -/
structure CEnt where
  pair : Fin 4
  count : Nat
  reps : List (Fin 3 × Ckpt)
  app : Bool
  t0 : Nat
  lags : List (Fin 3 × Nat)
deriving DecidableEq, Repr

/-- The Assay (03). -/
structure AssayS where
  writes : List WEnt
  reads : List REnt
  ckpts : List CEnt
  /-- Highest checkpoint of each pair that all active lanes reported and that matched (03 R95). -/
  last : Quad (Nat × Nat)
  /-- Skew limit in force, in 100 ns (03 R102: a write applies from the next hallmark edge). -/
  limit : Nat
  /-- Each lane's highest reported count per pair (03 R92, 05 R137). -/
  high : Tri (Quad Nat)
  /-- Records and checkpoint reports held in a lane's link for a full buffer (01 R24, R27; R93). -/
  heldRecs : List (Fin 3 × Rec)
  heldReps : List (Fin 3 × Fin 4 × Ckpt)
deriving DecidableEq, Repr

/-- A matched PACE report (05 R140): the count, the enabled sources, and the sources pending and enabled at the count. -/
structure PaceRep where
  count : Nat
  en : Nat
  ready : Bool
deriving DecidableEq, Repr

/-- An outstanding stamp (05 R137), with the count of the PACE whose release carried it, if one did. -/
structure OutStamp where
  st : Stamp
  carried : Option Nat
deriving DecidableEq, Repr

/-- The Courier's part for one core pair (05 R132 to R141). -/
structure CourS where
  waiting : Nat
  refused : List (Nat × Nat)
  out : List OutStamp
  num : Nat
  pace : Option PaceRep
  /-- Stamps and releases formed, on the way to lanes: (lane, stamp), (lane, PACE count, number named, numbers of the stamps
  formed up to it with D above the count). -/
  flits : List (Fin 3 × Stamp)
  rels : List (Fin 3 × Nat × Nat × List Nat)
deriving DecidableEq, Repr

/-- The lane manager (04). -/
structure MgrS where
  ready : Tri Bool
  /-- Lane in its boot after a debugger detach (R123). -/
  detach : Option (Fin 3)
  /-- Hold counts of the rejoin hold in progress (R117). -/
  hold : Option (Quad Nat)
  /-- After a copy pass that ends low enough, the hold waits for the next adm_class edge (R115). -/
  holdDue : Bool
  /-- Pairs whose apprentice reports have matched above their hold count since the window (R119). -/
  conf : Quad Bool
  /-- Hold counts of the window the confirmation follows. -/
  confAt : Quad Nat
  /-- Starts of rejoins of each lane, operating time (R114). -/
  starts : Tri (List Nat)
  /-- A periodic test fell due and waits (R110). -/
  testDue : Bool
deriving DecidableEq, Repr

/-- A record kept by the Ledger (18 R442, R453): `staged` in hub SRAM, `flushed` in the partition. -/
structure LKept where
  seq : Nat
  code : Nat
  sev : Nat
  lanes : Nat
  sw : Bool
  tenant : Nat
  optime : Nat
  pcycle : Nat
  tick : Nat
  params : List (BitVec 32)
  quicen : Bool
  rep : Nat
  last : Nat
  ms : Nat
  staged : Bool
  flushed : Bool
  /-- Slot of the staging ring it was placed in. -/
  slot : Nat
deriving DecidableEq, Repr

/-- The Ledger (18). -/
structure LedgerS where
  /-- Records kept, in order of sequence number. -/
  recs : List LKept
  next : Nat
  /-- Tokens missing from each bucket (R451), by rate table entry, 4096 the common bucket; records refused this second by bucket. -/
  spent : SMap Nat
  refused : SMap Nat
  /-- Records dropped in this second and the highest severity among them (R450). -/
  dropN : Nat
  dropSev : Nat
  /-- Records waiting for the partition head (R456). -/
  startBuf : List LKept
  /-- Start of the freeze in force, operating milliseconds (R458). -/
  frozenAt : Nat
  /-- Millisecond of the operating second (R451). -/
  ms : Nat
  flushing : Bool
  retry : Bool
  /-- The window move in progress and what it found (R457). -/
  move : Option (Option LKept)
  /-- Last writing of each limited record, counter + 1 (R452). -/
  limits : SMap Nat
  /-- Head saved by a flush or at power fail: next sequence number, operating time, power-cycle count; records lost at power fail; a power-fail save exists (R455). -/
  headSeq : Nat
  headOp : Nat
  headPc : Nat
  lost : Nat
  saved : Bool
  /-- Records written since the last cold start (17 R425). -/
  written : Nat
  /-- Next slot of the staging ring; sequence number the running flush ends before; the newest Quicen record is held for its repeats (1; 2 no longer); records
  discarded in the freeze in force and the highest severity among them; records in the journal, not yet in a page; pages written. -/
  ring : Nat
  flushTo : Nat
  hold : Nat
  fzN : Nat
  fzSev : Nat
  journal : List LKept
  pages : Nat
deriving DecidableEq, Repr

/-- A hub access released and not yet complete (07 R189, R193): its credit owner (tenant, 32 firmware), its epoch, the pair and sequence
number of its write, and whether its target has written it. -/
structure Flight where
  owner : Nat
  epoch : Nat
  pair : Fin 4
  seq : Nat
  done : Bool
deriving DecidableEq, Repr

/-- Memory control (07). -/
structure MemS where
  flight : List Flight
  /-- Words corrected in the last scrub pass (01 R37), and banks waiting to return from retention (R199). -/
  scrubbed : List Nat
  /-- Base, length and pattern of the fill that runs (R200). -/
  fill : Nat × Nat × Nat
  waking : List Nat
deriving DecidableEq, Repr

/-- The Clockmaker beyond its registers (10): the slew in force as a rate in 2^-40. -/
structure ClockS where
  slewRate : Int
  /-- What the running slew works off and the counter (ns) at its start (10 R278). -/
  slewC : Int
  slewFrom : Nat
  /-- ACQUIRING: the state it came from and the resync result held (10 R271). -/
  acqFrom : Nat
  c1 : Int
  /-- Consecutive resyncs missed; the first refused c (10 R279). -/
  miss : Nat
  firstC : Int
  /-- Per node * 2 + plane: this matrix cycle's deviation, rate, sender's state; the last accepted frame's source time and counter (10 R275). -/
  meas : SMap (Int × Option Int × Nat)
  prev : SMap (Int × Nat)
  /-- Per node * 4 + port: the last 8 delay samples; the request outstanding, its number and departure; nodes due for a request; requests to answer:
  port, requester, number, arrival time (10 R274). -/
  delays : SMap (List Int)
  reqs : SMap (Nat × Int)
  reqNum : Nat
  reqDue : List Nat
  answers : List (Nat × Nat × Nat × Nat)
  /-- Index + 1 of the last period pulsed (10 R287). -/
  pulse : Nat
deriving DecidableEq, Repr

/-- A descriptor of the data image as locked (06 R164). -/
structure Desc where
  v : Nat
  off : Nat
  size : Nat
  kind : Nat
  owner : Nat
  wgroup : Nat
  cls : Nat
  merge : Nat
  retain : Bool
  mirror : Bool
  patch : Bool
  fresh : Nat
  type : Nat
  fallback : Bool
  safety : Bool
  rsv : Bool
deriving DecidableEq, Repr

/-- A staged value that a write has been accepted into: writer, write time, producer's time-stamp where it has one, and whether it is a
fallback value that the safe message layer put there (06 R166, R167; 16 R413). -/
structure VStage where
  writer : Nat
  wtime : Nat
  vtime : Option Nat
  fb : Bool
deriving DecidableEq, Repr

/-- The data image beyond hub SRAM (06): descriptors in use as locked, staging, the armed patch list (count, class), the retain
partition's slots, newest first, and the configuration identity of R171. -/
structure ImgS where
  vars : List Desc
  stage : SMap VStage
  patch : Option (Nat × Nat)
  slots : List (SMap Byte)
  cfgId : Nat
deriving DecidableEq, Repr

/-- A class of the cycle unit (06): a cycle is in progress, its guard start was taken, it overran, its output writes are late; the
guard (µs) and the supervised tenants in force (R178), the tenants whose done bits the last overrun missed. -/
structure ClassS where
  begun : Bool
  checked : Bool
  overran : Bool
  late : Bool
  guard : Nat
  tmask : Nat
  miss : Nat
deriving DecidableEq, Repr

/-- The cycle unit (06): its classes, the index of the next boundary, a realignment pending (R155), a restart asked for (R172: 1 warm, 2 cold; 3 into OFF for an activation, 21 R524),
and the pair + 1 of each tenant's last hub access (R162). -/
structure CycS where
  cls : SMap ClassS
  next : Nat
  realign : Bool
  restart : Nat
  lastPair : SMap Nat
deriving DecidableEq, Repr
/-- A packet in progress in a queue (08 R212 to R214): its reserved word, bytes and words kept, cut, a poisoned word, source tag, the last
kept data word. -/
structure QProg where
  res : Nat
  bytes : Nat
  words : Nat
  cut : Bool
  poison : Bool
  tag : Nat
  lastIx : Nat
deriving DecidableEq, Repr

/-- A write held at a full queue (08 R216): the write's pair, sequence number and credit owner (none: a hub engine), its word, its valid
bytes (0: QMGR_PUSH), source tag and poison mark. -/
structure QHeld where
  src : Option (Fin 4 × Nat × Nat)
  addr : Nat
  word : Nat
  k : Nat
  tag : Nat
  poison : Bool
deriving DecidableEq, Repr

/-- A queue (08 R208 to R224). The ring holds `occ` words from `head` on, the first `vis` of them visible; `pkts` the words still to pop of each
complete packet; `bad` the words whose last pop failed parity or SECDED; `claim`: a hub engine holds the head packet (12 R334). -/
structure QS where
  enabled : Bool
  head : Nat
  occ : Nat
  vis : Nat
  pkts : List Nat
  prog : Option QProg
  hold : List QHeld
  last : Nat
  sticky : Bool
  bad : List Nat
  claim : Bool
deriving DecidableEq, Repr

/-- Port arbitration (08 R225 to R229): grants of each port B requester in the quota period, fabric tags waiting not held. -/
structure TallyS where
  used : SMap Nat
deriving DecidableEq, Repr
/-- A transmit connection's run (16 R410): number of the next packet, packets formed since the start. -/
structure SafeTxRun where
  next : Nat
  formed : Nat
deriving DecidableEq, Repr

/-- A receive connection's run (16 R411, R413): a reference number stands, consecutive out-of-sequence discards, the second and number of
its bad packets, when it entered FAILED. -/
structure SafeRxRun where
  ref : Bool
  outRun : Nat
  badSec : Nat
  badN : Nat
  failedAt : Nat
deriving DecidableEq, Repr

/-- The safe message layer (16): the configuration's section, the connections' runs, the sequence numbers kept with the retain area. -/
structure SafeS where
  own : Nat
  tx : List SafeTx
  rx : List SafeRx
  txs : SMap SafeTxRun
  rxs : SMap SafeRxRun
  saved : SMap Nat
deriving DecidableEq, Repr
/-- A bank's base values: basic cycle in µs, matrix length, schedule identity (09 R245). -/
structure AlmBase where
  b : Nat
  m : Nat
  id : Nat
deriving DecidableEq, Repr

/-- A source address in the PRP discard table: highest number, mark of the 64 below it (09 R239); the table keeps the oldest first. -/
structure PrpEnt where
  mac : Nat
  high : Nat
  mark : Nat
deriving DecidableEq, Repr

/-- A Porter (09 R255 to R259): accepted basic cycle length and last strobe in ticks, rejects in a row, strobes seen while acquiring (last,
spacing, good ones), time windows may open, table entries open, bytes sent per open entry and port, blocked attempts per port in this matrix
cycle, ports to unsilence. -/
structure PorterS where
  len : Nat
  last : Nat
  rejects : Nat
  acqLast : Option Nat
  acqLen : Option Nat
  good : Nat
  run : Bool
  opened : List Nat
  sent : SMap Nat
  blocked : SMap Nat
  unsilence : Nat
deriving DecidableEq, Repr

/-- The consist network (09): basic cycle index, base values of the active bank, armed switch count, last accepted occurrence + 1 of each
receive entry (count * 64 + position), discard table, redundancy control number, frames fetched per entry (position, count, frame from the
EtherType on). -/
structure ConsS where
  k : Nat
  act : AlmBase
  swAt : Nat
  rx : SMap Nat
  prp : List PrpEnt
  rct : Nat
  built : SMap (List Byte)
  porter : PorterS
deriving DecidableEq, Repr

/-- Power state (20 R486); DOZE is PWR_doze in RUN. -/
inductive PowerSt where
  | off | run | stable
deriving DecidableEq, Repr

/-- The pair logic and the Scrivener (17): times of own-address frames (counter ns), one seen since SEEK began, time of the last promotion and of the last renewal
+ 1, lease expired, partner last seen ACTIVE + 1 and last seen + 1, was_active, abdication (1 announced next boundary, 2 announced), a promotion due (1
expiry, 2 take, 3 abdication), next variable of the full pass sent, segments of the set being received, its index + 1, the last set applied + 1, a full pass
received up to an index, a pass complete, a set lost or late, record 0x3408 written, last good segment of each link + 1, block lock of each link, pair_wait elapsed,
the segments sent last, pass restart asked, last hello: partner's role and configuration agree. -/
structure MirS where
  own : List Nat
  ownSeen : Bool
  promoted : Nat
  renewed : Nat
  expired : Bool
  pActive : Nat
  pSeen : Nat
  pWas : Bool
  wasActive : Bool
  abd : Nat
  due : Nat
  pass : Option Nat
  segs : List (Nat × List Byte)
  setN : Nat
  applied : Nat
  rxPass : Nat
  passDone : Bool
  why : Nat
  told : Bool
  good : SMap Nat
  seekGo : Nat
  sent : List (List Byte)
  badPair : Bool
  /-- The own Almanac record at the latest boundary, that boundary's index + 1, the index + 1 of the boundary whose set was checked last, the full pass starts
  again at the next boundary, a boundary set's Almanac record differed, a set has been applied since the last guard start that checks, and none had at one. -/
  alm : List Byte
  almN : Nat
  setChk : Nat
  restart : Bool
  almBad : Bool
  heard : Bool
  gap : Bool
deriving DecidableEq, Repr
/-- A poll in progress on a master channel: entry of the active bank. -/
structure PollSlot where
  e : Nat
  n : Nat
deriving DecidableEq, Repr

/-- A master frame (11 R295): fcode, set, address and the 32-bit word as sent. -/
structure MasterFrame where
  fcode : Nat
  set : Nat
  addr : Nat
  word : Nat
deriving DecidableEq, Repr

/-- A poll bus channel (11): basic period index, period code of the active bank, armed switch count + 1, resume and unsilence asked for, foreign (4)
or echo_fault (5), polling allowed since a basic period start, the slot that waits for its reply, the master frame a slave frame would belong to,
consecutive echo errors, answer buffers, silence of a slave, blocked attempts' counter values, last opening of the driver by the Porter in 100 ns. -/
structure PollS where
  k : Nat
  per : Nat
  swAt : Nat
  resume : Bool
  unsil : Bool
  fault : Nat
  go : Bool
  slot : Option PollSlot
  last : Option MasterFrame
  echo : Nat
  bufs : SMap (List Byte)
  silent : Bool
  blk : List Nat
  opened : Option Nat
deriving DecidableEq, Repr
/-- A transmit mailbox's run (12 R324): the frame that is ready, the one requested while it is in transmission, packets released and not sent. -/
structure MboxS where
  frame : Option CanFrame
  next : Option CanFrame
  left : Nat
deriving DecidableEq, Repr

/-- A CAN controller's run (12): mailboxes, the one in transmission, stop, redetection and bus-off recovery asked for, nominal and data candidates
with their counts, a frame with bit rate switching seen. -/
structure CanS where
  mbox : SMap MboxS
  sending : Option Nat
  stopReq : Bool
  redReq : Bool
  recov : Bool
  cand : Nat
  cnt : Nat
  dcand : Nat
  dcnt : Nat
deriving DecidableEq, Repr
/-- An input channel's filter in its island (13 R347): counters, latched decisions, the limits and wb_en the island holds. -/
structure IChan where
  cc : Nat
  cb : Nat
  closed : Bool
  broken : Bool
  lim : Nat
  brk : Nat
  wb : Bool
deriving DecidableEq, Repr

/-- An isolation island and its link (13). Link master: next downlink number, refresh slots since the last pulse, realignment asked for, downlink
numbers not yet echoed, filtered states received since it runs, last stage number, states frozen since the last commit symbol (channel, state), a stage frame
sent since then, stage number expected and the downlink number at its commit; per output channel the slots its comparison is suspended, the disagreement
run (flag kind * 256 + length), the agreement run.
Island: its link delivers, microcode runs, halted, fault bit, a wetting current fault, field supply out of range, last good downlink number, filters, raw classes,
next sample is the first, a sample was taken, applied states, switches latched off, stage held, stage number applied, monostable tripped, de-energised, slew
of each channel, microcode RAM. -/
structure IslS where
  seq : Nat
  slots : Option Nat
  resync : Bool
  unechoed : List Nat
  filt : Option Nat
  num : Nat
  frozen : SMap Bool
  stageSent : Bool
  expect : Option (Nat × Nat)
  blank : SMap Nat
  dis : SMap Nat
  agr : SMap Nat
  linked : Bool
  alive : Bool
  halt : Bool
  fault : Bool
  wet : Bool
  supply : Bool
  good : Nat
  chans : SMap IChan
  raw : Nat
  first : Bool
  sampled : Bool
  applied : Nat
  latched : Nat
  held : Option (Nat × Nat)
  snum : Nat
  tripped : Bool
  dead : Bool
  slew : SMap Nat
  ram : SMap Byte
deriving DecidableEq, Repr
/-- A speed channel's measurement (14 R365 to R370; the Millwright's by 15 R386): state, cause, standstill, gap, direction, track states, direction of the last
step, start of the period open on each track, first period after init to come, consecutive overranges, T_last, stamp of the edge that ended it, odometer,
stamp of the last edge, stamps of the last quadrature errors, track and supply faults now, zero asked for. -/
structure SpdChan where
  st : Nat
  cause : Nat
  still : Bool
  gap : Bool
  dir : Nat
  t1 : Bool
  t2 : Bool
  step : Nat
  rise1 : Option Nat
  rise2 : Option Nat
  fresh : Bool
  overs : Nat
  tLast : Nat
  tEnd : Option Nat
  odo : Int
  last : Option Nat
  qerrs : List Nat
  f1 : Bool
  f2 : Bool
  fs : Bool
  zero : Bool
deriving DecidableEq, Repr
/-- The safety outputs at the hub (15 R393 to R397): commands staged since the last hallmark edge, consecutive samples of each condition (output * 8 + cause),
samples the comparison is still suspended, command and sensed permit of the last sample, command switches opened by overload, output under test, outputs waiting in
the round, tested in it, permits withdrawn while their output was energised, a switch change holds the commands 0, supply out of range, a configuration is accepted, the variable of the lane speed + 1, next hub frame
number, last Millwright frame number + 1, second of MW_XC. -/
structure SoS where
  staged : SMap Bool
  bad : SMap Nat
  blank : SMap Nat
  cmd : Nat
  permit : Nat
  limited : Nat
  test : Option Nat
  want : Nat
  tested : Nat
  fell : Nat
  block : Bool
  noSup : Bool
  accepted : Bool
  laneVar : Nat
  seq : Nat
  mwSeq : Nat
  xcSec : Nat
deriving DecidableEq, Repr

/-- The Millwright (15 R380 to R392): state and cause, parameter ROM, own switch reading, last hub frame number + 1, bad frames in a row, good frames in a row
with equal slices, last good hub frame, channels, edge counts, ref, limit sets exceeded, outputs with a step in their forbidden direction, outputs interlocked, permit lines driven,
output under test, DI samples in a row, DI readings, own next frame number. -/
structure MwS where
  st : Nat
  cause : Nat
  rom : SMap Byte
  img : Nat
  seqIn : Nat
  bad : Nat
  good : Nat
  hub : List Byte
  ch : SMap SpdChan
  pos : SMap Int
  ref : Bool
  exceeded : Nat
  dirBad : Nat
  lock : Nat
  permits : Nat
  test : Option Nat
  diRun : SMap Nat
  di : Nat
  seq : Nat
deriving DecidableEq, Repr
/-- A NAND device (19 R463 to R471): spare blocks beside the grown defects, grown bad blocks, failed, erase counts by block. -/
structure DevS where
  spare : Nat
  grown : Nat
  failed : Bool
  erase : SMap Nat
deriving DecidableEq, Repr

/-- A storage command in progress (19 R467): 1 read, 2 write, 3 discard; partition, first sector, sectors, hub SRAM offset. -/
structure StCmd where
  op : Nat
  part : Nat
  lba : Nat
  count : Nat
  buf : Nat
deriving DecidableEq, Repr

/-- The slot open in an update session (21 R523): type, its header, next sector due, hash of the payload blocks so far and of the whole, failed. -/
structure OpenSlot where
  type : Nat
  hdr : List Byte
  next : Nat
  hash : List Nat
  digest : Option (List Byte)
  failed : Bool
deriving DecidableEq, Repr

/-- An update session (21 R522, R523): table of (type, length), raise_floor, container version, last type begun, slot open. -/
structure UpdSess where
  table : List (Nat × Nat)
  raiseFloor : Bool
  version : Nat
  last : Nat
  slot : Option OpenSlot
deriving DecidableEq, Repr

/-- The storage controller (19): devices, command, what the last save took (10 us), its retain image complete, its Ledger part complete, RWS fields saved,
saves written, SD read in progress (first block, blocks, queue), SD initialisation in progress. -/
structure StoreS where
  dev0 : DevS
  dev1 : DevS
  cmd : Option StCmd
  pfTime : Nat
  pfRet : Bool
  pfLed : Bool
  rws : SMap Nat
  saves : Nat
  sd : Option (Nat × Nat × Nat)
  sdInit : Bool
deriving DecidableEq, Repr

/-- A Locksmith operation in progress (21 R510). -/
structure LkOp where
  op : Nat
  input : List Byte
deriving DecidableEq, Repr

/-- The Locksmith (21 R506 to R517): chip identity, hub unique key, key hashes by slot * 16 + generation, generations burnt in slots 1 and 2, generations revoked,
lifecycle bits and security floor burnt, keys in the Strongroom (private key, MAC key), operation, end of the service window (counter), sources 0 to 2 armed by
the configuration, start-up before the first boundary, tamper events of STABLE whose records wait for the next start. -/
structure LockS where
  chip : Nat
  huk : Nat
  hashes : SMap Nat
  burnt1 : Nat
  burnt2 : Nat
  rev0 : Nat
  rev1 : Nat
  rev2 : Nat
  n : Nat
  floor : Nat
  keys : Option (Nat × Nat)
  op : Option LkOp
  window : Option Nat
  arm : Nat
  startup : Bool
  owed : Nat
deriving DecidableEq, Repr

/-- The update logic (21 R518 to R527): boot control record (confirmed set, set selected for the next start, a trial set waits to start, its raise_floor, failed
boot count, cause of the last failed boot, how the next set is started, pairs of configuration digest and firmware version noted), command in progress, header latched
for it, session, running a trial set, booted was written, the last boot failed, Cobbler runs, Cobbler has installed. -/
structure UpdS where
  conf : Nat
  sel : Nat
  trial : Bool
  raiseFloor : Bool
  fails : Nat
  last : Nat
  next : Nat
  noted : List (Nat × Nat)
  cmd : Nat
  input : List Byte
  sess : Option UpdSess
  onTrial : Bool
  booted : Bool
  failed : Bool
  cobbler : Bool
  installed : Bool
deriving DecidableEq, Repr
/-- The power unit's run (20): STABLE accepted and waiting for the boundary, PWR_CMD run likewise, lanes gated in DOZE, a wake event held during the entry
(source bits, index), sensors read since THERM_TMAX was, the start sequence has run. -/
structure PwrS where
  stabDue : Bool
  runDue : Bool
  dozing : Bool
  held : Option (Nat × Nat)
  tmax : Nat
  started : Bool
deriving DecidableEq, Repr
/-- A request of the Quicen bridge (22 R536, R539, R545): kind (0 posted write, 1 read, 2 scan read), Quicen address, size, words, tag (of a scan read its
entry), words to write or words read so far, words transferred, open (R543), class and base boundary index of a scan read's sample edge. -/
structure BrReq where
  kind : Nat
  addr : Nat
  size : Nat
  k : Nat
  tag : Nat
  data : List Nat
  n : Nat
  live : Bool
  cls : Nat
  edge : Nat
deriving DecidableEq, Repr

/-- The Quicen bridge (22): requests in issue order, the one on the bus, completions waiting for the queue, promoted since the latest base boundary,
a drive of QP_RESET asked for. -/
structure BridgeS where
  wait : List BrReq
  bus : Option BrReq
  cpl : List (List Byte)
  held : Bool
  rst : Bool
deriving DecidableEq, Repr

/-- The module. -/
structure State where
  /-- Commands waiting, first in first out. -/
  pending : List Instr
  variant : Variant
  /-- Clockmaker counter, 500 MHz (10 R268). -/
  counter : Nat
  /-- Hub register fields that do not hold their reset value. -/
  regs : SMap Nat
  /-- Hub SRAM bytes by offset (01 R32); an unlisted byte is 0. -/
  hub : SMap Byte
  lanes : Tri LaneS
  assay : AssayS
  cour : Quad CourS
  mgr : MgrS
  ledger : LedgerS
  /-- The three copies of the passive latch, and the cause held in the always-on domain, 0 none (01 R38, 23 R561). -/
  latch : Tri Bool
  aoCause : Nat
  memctl : MemS
  clk : ClockS
  img : ImgS
  cyc : CycS
  queues : SMap QS
  tally : TallyS
  safe : SafeS
  cons : ConsS
  mir : MirS
  power : PowerSt
  /-- The last frame each transmitter sent: consist ports 0 to 3, service ports 4 and 5, poll bus channel c at 8 + c, island i at 32 + i. -/
  wire : SMap (List Byte)
  polls : SMap PollS
  cans : SMap CanS
  isl : SMap IslS
  /-- Content of the NAND partitions (19 R464, R465): key partition * 2^36 + byte offset; a byte never written is 0. -/
  flash : SMap Byte
  spd : SMap SpdChan
  so : SoS
  mw : MwS
  /-- Switch positions' consecutive samples unlike the reading: the hub's, and the Millwright's at 64 + position (15 R396). -/
  swRun : SMap Nat
  store : StoreS
  lock : LockS
  upd : UpdS
  pw : PwrS
  /-- The signed configuration in use, as loaded at the last start (06 R164, R171). -/
  cfg : Option SignedCfg
  bridge : BridgeS
  /-- The model's own: how many free values have been drawn. -/
  freeCtr : Nat
deriving DecidableEq, Repr

/-- No fault is raised: every command of the table has an effect the spec gives. -/
inductive Fault where
deriving DecidableEq, Repr

/-- Why a command is refused. -/
inductive Refusal where
  /-- Raised by an arm of Machine/Dispatch.lean for a command without a meaning; safe. -/
  | notModelled (mnemonic : String)
deriving DecidableEq, Repr

/-- The outcome type of every meaning. -/
abbrev Out := Host.Outcome State Fault Refusal

/-- A core pair after lane reset (02 R40). -/
def PairS.init : PairS :=
  { g := [], v := [], pc := 0, sr := [], cnt := [], digest := 0, seqR := 0, seqW := 0, stopped := false, inBlk := false,
    wait := .none, thresh := 0, en := 0, pend := 0, prio := [], stamps := [], release := none, faults := [], due := [],
    held := false, halted := false, haltWhy := 0, stepping := false, dbg := [] }

/-- A lane after lane reset, memory empty. -/
def LaneS.init : LaneS :=
  { pairs := Quad.all PairS.init, mem := [], dirty := [], mpairrun := 1, mgotx := 0, gran := [], out := [], reports := [], replayed := [] }

/-- The Courier's part for a pair after a start (05 R146). -/
def CourS.init : CourS := { waiting := 0, refused := [], out := [], num := 0, pace := none, flits := [], rels := [] }

/-- The Assay after a start (03 R103). -/
def AssayS.init : AssayS :=
  { writes := [], reads := [], ckpts := [], last := Quad.all (0, 0), limit := 200, high := Tri.all (Quad.all 0), heldRecs := [], heldReps := [] }

/-- The lane manager after a start. -/
def MgrS.init : MgrS :=
  { ready := Tri.all false, detach := none, hold := none, holdDue := false, conf := Quad.all false, confAt := Quad.all 0, starts := Tri.all [], testDue := false }

/-- The Ledger, empty. -/
def LedgerS.init : LedgerS :=
  { recs := [], next := 0, spent := [], refused := [], dropN := 0, dropSev := 0, startBuf := [], frozenAt := 0, ms := 0,
    flushing := false, retry := false, move := none, limits := [], headSeq := 0, headOp := 0, headPc := 0, lost := 0, saved := false, written := 0,
    ring := 0, flushTo := 0, hold := 0, fzN := 0, fzSev := 0, journal := [], pages := 0 }

def ClockS.init : ClockS :=
  { slewRate := 0, slewC := 0, slewFrom := 0, acqFrom := 0, c1 := 0, miss := 0, firstC := 0, meas := [], prev := [], delays := [], reqs := [],
    reqNum := 0, reqDue := [], answers := [], pulse := 0 }

def ImgS.init : ImgS := { vars := [], stage := [], patch := none, slots := [], cfgId := 0 }
def ClassS.init : ClassS := { begun := false, checked := false, overran := false, late := false, guard := 50, tmask := 0, miss := 0 }
def CycS.init : CycS := { cls := [], next := 0, realign := false, restart := 0, lastPair := [] }

def QS.init : QS :=
  { enabled := false, head := 0, occ := 0, vis := 0, pkts := [], prog := none, hold := [], last := 0, sticky := false, bad := [], claim := false }

def SafeTxRun.init : SafeTxRun := { next := 0, formed := 0 }
def SafeRxRun.init : SafeRxRun := { ref := false, outRun := 0, badSec := 0, badN := 0, failedAt := 0 }
def SafeS.init : SafeS := { own := 0, tx := [], rx := [], txs := [], rxs := [], saved := [] }

def PorterS.init : PorterS :=
  { len := 0, last := 0, rejects := 0, acqLast := none, acqLen := none, good := 0, run := false, opened := [], sent := [],
    blocked := [], unsilence := 0 }
def ConsS.init : ConsS :=
  { k := 0, act := { b := 1000, m := 1, id := 0 }, swAt := 0, rx := [], prp := [], rct := 0, built := [], porter := PorterS.init }
def MirS.init : MirS :=
  { own := [], ownSeen := false, promoted := 0, renewed := 0, expired := false, pActive := 0, pSeen := 0, pWas := false, wasActive := false,
    abd := 0, due := 0, pass := none, segs := [], setN := 0, applied := 0, rxPass := 0, passDone := false, why := 0, told := false, good := [],
    seekGo := 0, sent := [], badPair := false, alm := [], almN := 0, setChk := 0, restart := false, almBad := false, heard := false, gap := false }
def PollS.init : PollS :=
  { k := 0, per := 2, swAt := 0, resume := false, unsil := false, fault := 0, go := false, slot := none, last := none, echo := 0, bufs := [],
    silent := false, blk := [], opened := none }
def MboxS.init : MboxS := { frame := none, next := none, left := 0 }
def CanS.init : CanS :=
  { mbox := [], sending := none, stopReq := false, redReq := false, recov := false, cand := 0, cnt := 0, dcand := 0, dcnt := 0 }
def IChan.init : IChan := { cc := 0, cb := 0, closed := false, broken := false, lim := 3, brk := 10, wb := false }
def IslS.init : IslS :=
  { seq := 0, slots := none, resync := false, unechoed := [], filt := none, num := 0, frozen := [], stageSent := false, expect := none, blank := [],
    dis := [], agr := [], linked := true, alive := false, halt := false, fault := false, wet := false, supply := false, good := 0, chans := [], raw := 0,
    first := true, sampled := false, applied := 0, latched := 0, held := none, snum := 0, tripped := false, dead := false, slew := [], ram := [] }
def SpdChan.init : SpdChan :=
  { st := 0, cause := 0, still := false, gap := false, dir := 0, t1 := false, t2 := false, step := 0, rise1 := none, rise2 := none, fresh := true,
    overs := 0, tLast := 0, tEnd := none, odo := 0, last := none, qerrs := [], f1 := false, f2 := false, fs := false, zero := false }
def SoS.init : SoS :=
  { staged := [], bad := [], blank := [], cmd := 0, permit := 0, limited := 0, test := none, want := 0, tested := 0, fell := 0, block := false, noSup := false,
    accepted := false, laneVar := 0, seq := 0, mwSeq := 0, xcSec := 0 }
def MwS.init : MwS :=
  { st := 0, cause := 0, rom := [], img := 0, seqIn := 0, bad := 0, good := 0, hub := [], ch := [], pos := [], ref := false, exceeded := 0,
    dirBad := 0, lock := 0, permits := 0, test := none, diRun := [], di := 0, seq := 0 }
def DevS.init : DevS := { spare := 0, grown := 0, failed := false, erase := [] }
def StoreS.init : StoreS :=
  { dev0 := DevS.init, dev1 := DevS.init, cmd := none, pfTime := 0, pfRet := false, pfLed := false, rws := [], saves := 0, sd := none, sdInit := false }
def LockS.init : LockS :=
  { chip := 0, huk := 0, hashes := [], burnt1 := 0, burnt2 := 0, rev0 := 0, rev1 := 0, rev2 := 0, n := 0, floor := 0, keys := none, op := none,
    window := none, arm := 0, startup := true, owed := 0 }
def UpdS.init : UpdS :=
  { conf := 0, sel := 0, trial := false, raiseFloor := false, fails := 0, last := 0, next := 0, noted := [], cmd := 0, input := [], sess := none,
    onTrial := false, booted := false, failed := false, cobbler := false, installed := false }
def PwrS.init : PwrS := { stabDue := false, runDue := false, dozing := false, held := none, tmax := 0, started := false }
def BridgeS.init : BridgeS := { wait := [], bus := none, cpl := [], held := false, rst := false }

/-- The module right after reset. -/
def State.reset : State :=
  { pending := [], variant := .eulT3F, counter := 0, regs := [], hub := [], lanes := Tri.all LaneS.init, assay := AssayS.init,
    cour := Quad.all CourS.init, mgr := MgrS.init,
    ledger := LedgerS.init, latch := Tri.all false, aoCause := 0,
    memctl := { flight := [], scrubbed := [], fill := (0, 0, 0), waking := [] },
    clk := ClockS.init,
    img := ImgS.init, cyc := CycS.init,
    queues := [], tally := { used := [] },
    safe := SafeS.init,
    cons := ConsS.init, mir := MirS.init, power := .run, wire := [],
    polls := [],
    cans := [],
    isl := [],
    flash := [],
    spd := [],
    so := SoS.init,
    mw := MwS.init,
    swRun := [],
    store := StoreS.init,
    lock := LockS.init,
    upd := UpdS.init,
    pw := PwrS.init,
    cfg := none,
    bridge := BridgeS.init,
    freeCtr := 0 }

end Sys2Proof.Machine
end

