-- ==== Sys2Proof/Machine/Ops.lean ====
section
/-! DEFINITION. The named operations the meanings share: register fields, hub SRAM, lanes, interrupt latches and Courier
events, the Ledger's record path. -/

namespace Sys2Proof.Machine

/-- Apply f where c holds. -/
def State.on (s : State) (c : Bool) (f : State → State) : State := if c then f s else s

/-- Fold over a list of things, in order. -/
def State.each {α : Type} (s : State) (l : List α) (f : State → α → State) : State := l.foldl f s

/-- The value of a register field. -/
def State.get (s : State) (f : Fld) : Nat := SMap.get s.regs f.key f.rst

/-- The value of a one-bit field. -/
def State.flag (s : State) (f : Fld) : Bool := s.get f != 0

/-- Set a register field. -/
def State.set (s : State) (f : Fld) (v : Nat) : State :=
  { s with regs := SMap.put s.regs f.key f.rst (v % 2 ^ f.w) }

/-- Set a one-bit field. -/
def State.setB (s : State) (f : Fld) (b : Bool) : State := s.set f (b2n b)

/-- Add to a counter field that saturates (23 R556). -/
def State.addSat (s : State) (f : Fld) (n : Nat) : State := s.set f (min (s.get f + n) (2 ^ f.w - 1))

/-- Count one in a saturating counter field. -/
def State.count (s : State) (f : Fld) : State := s.addSat f 1

/-- Raise a high-water field. -/
def State.raiseTo (s : State) (f : Fld) (n : Nat) : State := s.set f (max (s.get f) (min n (2 ^ f.w - 1)))

/-- Set a 64-bit value in a pair of 32-bit registers. -/
def State.set64 (s : State) (lo hi : Fld) (v : Nat) : State := (s.set lo v).set hi (v / 2 ^ 32)

/-- A 64-bit value from a pair of 32-bit registers. -/
def State.get64 (s : State) (lo hi : Fld) : Nat := s.get lo + 2 ^ 32 * s.get hi

/-- The copy of a banked register an access reaches (08 R211): one per core pair and level. -/
def copyOf (a : Acc) : Nat := a.pair.val * 3 + a.level.val

/-! ## One update for each part of the state -/

def State.updLg (s : State) (f : LedgerS → LedgerS) : State := { s with ledger := f s.ledger }
def State.updA (s : State) (f : AssayS → AssayS) : State := { s with assay := f s.assay }
def State.updM (s : State) (f : MgrS → MgrS) : State := { s with mgr := f s.mgr }
def State.updMc (s : State) (f : MemS → MemS) : State := { s with memctl := f s.memctl }
def State.updK (s : State) (f : ClockS → ClockS) : State := { s with clk := f s.clk }
def State.updI (s : State) (f : ImgS → ImgS) : State := { s with img := f s.img }
def State.updCyc (s : State) (f : CycS → CycS) : State := { s with cyc := f s.cyc }
def State.updTl (s : State) (f : TallyS → TallyS) : State := { s with tally := f s.tally }
def State.updS (s : State) (f : SafeS → SafeS) : State := { s with safe := f s.safe }
def State.updN (s : State) (f : ConsS → ConsS) : State := { s with cons := f s.cons }
def State.updMir (s : State) (f : MirS → MirS) : State := { s with mir := f s.mir }
def State.updSo (s : State) (f : SoS → SoS) : State := { s with so := f s.so }
def State.updMw (s : State) (f : MwS → MwS) : State := { s with mw := f s.mw }
def State.updSt (s : State) (f : StoreS → StoreS) : State := { s with store := f s.store }
def State.updLk (s : State) (f : LockS → LockS) : State := { s with lock := f s.lock }
def State.updU (s : State) (f : UpdS → UpdS) : State := { s with upd := f s.upd }
def State.updPw (s : State) (f : PwrS → PwrS) : State := { s with pw := f s.pw }
def State.updBr (s : State) (f : BridgeS → BridgeS) : State := { s with bridge := f s.bridge }
def State.setPower (s : State) (p : PowerSt) : State := { s with power := p }
def State.setLatch (s : State) (l : Tri Bool) (cause : Nat) : State := { s with latch := l, aoCause := cause }
def State.setCour (s : State) (c : Quad CourS) : State := { s with cour := c }
def State.setCfg (s : State) (c : Option SignedCfg) : State := { s with cfg := c }
def State.setPolls (s : State) (m : SMap PollS) : State := { s with polls := m }
def State.setCans (s : State) (m : SMap CanS) : State := { s with cans := m }
def State.setIsl (s : State) (m : SMap IslS) : State := { s with isl := m }
def State.setSpd (s : State) (m : SMap SpdChan) : State := { s with spd := m }
def State.setSwRun (s : State) (m : SMap Nat) : State := { s with swRun := m }
def State.setCounter (s : State) (n : Nat) : State := { s with counter := n }
/-- The last frame of transmitter k. -/
def State.setWire (s : State) (k : Nat) (b : List Byte) : State := { s with wire := SMap.put s.wire k [] b }

/-! ## Memory -/

/-- n bytes of hub SRAM from an offset. -/
def State.hubRead (s : State) (off n : Nat) : List Byte := (List.range n).map fun i => SMap.get s.hub (off + i) 0

/-- Write bytes into a sparse byte memory. -/
def writeBytes (m : SMap Byte) (off : Nat) (l : List Byte) : SMap Byte :=
  (l.foldl (fun (p : SMap Byte × Nat) b => (SMap.put p.1 p.2 0 b, p.2 + 1)) (m, off)).1

/-- Write bytes into hub SRAM. -/
def State.hubWrite (s : State) (off : Nat) (l : List Byte) : State := { s with hub := writeBytes s.hub off l }

/-- A little-endian number of n bytes in hub SRAM. -/
def State.hubNat (s : State) (off n : Nat) : Nat := leNat (s.hubRead off n)

/-- Write a little-endian number of n bytes. -/
def State.hubSet (s : State) (off n v : Nat) : State := s.hubWrite off (leBytes n v)

/-- Hub SRAM entries that do not satisfy p read 0 again. -/
def State.hubCut (s : State) (p : Nat × Byte → Bool) : State := { s with hub := s.hub.filter p }

/-- Write bytes into the NAND partitions. -/
def State.flashPut (s : State) (k : Nat) (b : List Byte) : State := { s with flash := writeBytes s.flash k b }

/-- NAND entries that do not satisfy p read 0 again. -/
def State.flashCut (s : State) (p : Nat × Byte → Bool) : State := { s with flash := s.flash.filter p }

/-- Set a range of hub SRAM to 0. -/
def State.hubZero (s : State) (off n : Nat) : State :=
  s.hubCut fun e => e.1 < off || off + n ≤ e.1

/-! ## Variant -/

/-- EUL-T3F. -/
def State.isF (s : State) : Bool := s.variant == .eulT3F
/-- EUL-T3S. -/
def State.isS (s : State) : Bool := s.variant == .eulT3S

/-- By variant: the number for EUL-T3F, EUL-T3C and EUL-T3S. -/
def State.byVar (s : State) (f c t : Nat) : Nat :=
  match s.variant with | .eulT3F => f | .eulT3C => c | .eulT3S => t

/-- Core pairs per lane (00 R3). -/
def State.nPairs (s : State) : Nat := s.byVar 4 4 2

/-- Hub page n is present in the variant (23 R553). -/
def State.pagePresent (s : State) (n : Nat) : Bool :=
  if n ≤ 0x2F then true
  else if n ≤ 0x33 then n < 0x30 + s.byVar 4 2 2
  else if n = 0x34 then s.byVar 1 1 0 = 1
  else if n ≤ 0x39 then true
  else if n ≤ 0x41 then n < 0x3A + s.byVar 8 4 2
  else if n ≤ 0x51 then n < 0x42 + s.byVar 16 8 4
  else if n ≤ 0x59 then n < 0x52 + s.byVar 8 4 2
  else if n ≤ 0x5D then n < 0x5A + s.byVar 4 2 1
  else if n ≤ 0x61 then s.byVar 1 1 0 = 1
  else if n = 0x62 then s.byVar 1 0 0 = 1
  else n ≤ 0x65

/-- Island i is present: input islands 0 to 7, output islands 8 to 11 (01 R15). -/
def State.islandPresent (s : State) (i : Nat) : Bool := i < 12 && s.pagePresent (0x52 + i)

/-! ## Lanes -/

def State.ln (s : State) (l : Fin 3) : LaneS := s.lanes.get l
def State.updL (s : State) (l : Fin 3) (f : LaneS → LaneS) : State := { s with lanes := s.lanes.set l (f (s.lanes.get l)) }
/-- Lane memory entries that do not satisfy p read 0 again. -/
def State.memCut (s : State) (l : Fin 3) (p : Nat × Byte → Bool) : State := s.updL l fun n => { n with mem := n.mem.filter p }
def State.pr (s : State) (l : Fin 3) (p : Fin 4) : PairS := (s.ln l).pairs.get p
def State.updP (s : State) (l : Fin 3) (p : Fin 4) (f : PairS → PairS) : State :=
  s.updL l fun n => { n with pairs := n.pairs.set p (f (n.pairs.get p)) }

/-- The LM_STATE field of a lane. -/
def laneField (l : Fin 3) : Fld := match l with | 0 => LM_STATE_0 | 1 => LM_STATE_4 | 2 => LM_STATE_8

/-- A lane's state code (04 R111). -/
def State.laneState (s : State) (l : Fin 3) : Nat := s.get (laneField l)

def lOff : Nat := 0
def lBoot : Nat := 1
def lApprentice : Nat := 2
def lActive : Nat := 3
def lIsolated : Nat := 4
def lDebug : Nat := 5

/-- The lanes in a state. -/
def State.lanesIn (s : State) (st : Nat) : List (Fin 3) := ([0, 1, 2] : List (Fin 3)).filter fun l => s.laneState l == st

/-- The lanes that vote (03 R96, R101): ACTIVE lanes the Assay counts as voters. -/
def State.voters (s : State) : List (Fin 3) :=
  ([0, 1, 2] : List (Fin 3)).filter fun l => bitOf (s.get ASSAY_voters) l.val && s.laneState l == lActive

/-- All pairs. -/
def allPairs : List (Fin 4) := [0, 1, 2, 3]

/-- All lanes. -/
def allLanes : List (Fin 3) := [0, 1, 2]

/-- Any copy of the passive latch is set (01 R38). -/
def State.passive (s : State) : Bool := s.latch.a || s.latch.b || s.latch.c

/-! ## Time (10 R268) -/

/-- counter_ns. -/
def State.cns (s : State) : Nat := 2 * s.counter

/-- rate_eff: CM_RATE and the slew, clamped to ±500 ppm. -/
def State.rateEff (s : State) : Int := max (-549755813) (min 549755813 (sint 32 (s.get CM_RATE_0) + s.clk.slewRate))

/-- The formatted time as an integer. -/
def State.nowI (s : State) : Int :=
  let anchor : Int := (s.get64 CM_ANCHOR_LO_0 CM_ANCHOR_HI_0 : Nat)
  (s.cns : Int) + sint 64 (s.get64 CM_OFFSET_LO_0 CM_OFFSET_HI_0) + ((s.cns : Int) - anchor) * s.rateEff / 2 ^ 40

/-- The formatted time, 64 bits. -/
def State.now (s : State) : Nat := unsint 64 s.nowI

/-! ## Free values -/

/-- The value of the next free draw index, and the state that has used it. -/
def State.draw (s : State) : State := { s with freeCtr := s.freeCtr + 1 }

/-! ## Interrupts and events -/

/-- INT_RAW of a page. -/
def rawOf (page : Nat) : Fld := ⟨page, 0x020, 0, 32, 0, 0⟩
/-- INT_EN of a page. -/
def enOf (page : Nat) : Fld := ⟨page, 0x024, 0, 32, 0, 0⟩

/-- INT_STAT of a page: INT_RAW AND INT_EN (23 R556). -/
def State.intStat (s : State) (page : Nat) : Nat := s.get (rawOf page) &&& s.get (enOf page)

/-- COUR_ROUTE of a source: pair, enable, priority (05 R149). -/
def State.route (s : State) (src : Nat) : Nat × Bool × Nat :=
  let o := 0x400 + 4 * (src / 4)
  let k := 8 * (src % 4)
  (s.get ⟨0x0A, o, k, 2, 0, 0⟩, s.flag ⟨0x0A, o, k + 2, 1, 0, 0⟩, s.get ⟨0x0A, o, k + 3, 4, 0, 0⟩)

def State.cr (s : State) (p : Fin 4) : CourS := s.cour.get p
def State.updC (s : State) (p : Fin 4) (f : CourS → CourS) : State := { s with cour := s.cour.set p (f (s.cour.get p)) }

/-- A pair number as an index. -/
def pairIx (n : Nat) : Fin 4 := ⟨n % 4, Nat.mod_lt _ (by decide)⟩

/-- A lane number as an index. -/
def laneIx (n : Nat) : Fin 3 := ⟨n % 3, Nat.mod_lt _ (by decide)⟩

/-- Deliver an event of a source to the pair it is routed to (05 R132, R133); in a lane in DEBUG it becomes pending on arrival (04 R122). -/
def State.courDeliver (s : State) (src : Nat) : State :=
  let (p0, en, prio) := s.route src
  let p := pairIx p0
  if !en then s else
  let s := s.each (s.lanesIn lDebug) fun s l =>
    s.updP l p fun q => { q with pend := setBit q.pend src, prio := SMap.put q.prio src 0 prio }
  if bitOf (s.get LM_PAIRSTOP_0) p.val then
    (s.count COUR_DROP_0).set (rawOf 0x0A) (setBit (s.get (rawOf 0x0A)) 2)
  else s.updC p fun c => { c with waiting := setBit c.waiting src }

/-- An event of a source (05 R131, R132). A drop it causes may raise the Courier's own interrupt. -/
def State.courEvent (s : State) (src : Nat) : State :=
  let s1 := s.courDeliver src
  if s.intStat 0x0A = 0 && s1.intStat 0x0A != 0 then s1.courDeliver 1034 else s1

/-- Set an INT_RAW bit of a page; INT_STAT going from zero to non-zero raises the page's source (05 R131, 23 R557). -/
def State.raiseInt (s : State) (page bit : Nat) : State :=
  let s1 := s.set (rawOf page) (setBit (s.get (rawOf page)) bit)
  if s.intStat page = 0 && s1.intStat page != 0 then s1.courEvent (1024 + page) else s1

/-- A write of 1s to INT_CLR: the bits are cleared; an INT_STAT left non-zero raises the source again (05 R131). -/
def State.clearInt (s : State) (page v : Nat) : State :=
  let s1 := s.set (rawOf page) (s.get (rawOf page) &&& (0xFFFFFFFF - v % 2 ^ 32))
  if s1.intStat page != 0 then s1.courEvent (1024 + page) else s1

/-- QP_SYSFAIL driven low by the bridge (22 R546, R547): an assertion where the line was high. -/
def State.sysfailOut (s : State) : State :=
  if !s.isF || s.flag BRIDGE_sysfail_out then s else
  let s := s.set BRIDGE_sysfail_out 1
  if s.flag BR_LINES_10 then s else (s.set BR_LINES_10 1).courEvent 1152

/-! ## Ledger: the path of a record (18 R448 to R453) -/


/-- The registers that show the series: LG_HEAD, LG_OLDEST, LG_FLUSHED, LG_STAGED (18 R461). -/
def State.ledgerShow (s : State) : State :=
  let r := s.ledger.recs
  let s := s.set LG_STAGED_0 (min 0xFFFF (r.filter fun e => !e.flushed).length)
  let s := match r.getLast? with | some e => s.set LG_HEAD_0 e.seq | none => s
  let s := match r.head? with | some e => s.set LG_OLDEST_0 e.seq | none => s
  match (r.filter (·.flushed)).getLast? with | some e => s.set LG_FLUSHED_0 e.seq | none => s

/-- Entry of the rate table that governs a code: the lowest enabled one, 4096 the common bucket (18 R451, R461). Only entries written
can be enabled, so the search runs over the registers that differ from reset. -/
def State.bucketOf (s : State) (code : Nat) : Nat :=
  let c := (s.regs.filterMap fun e =>
    let sel := e.1 / 32 / 4096 / 128
    if e.1 = (LG_R_CODE_31 (sel - 1)).key ∧ 0 < sel ∧ s.get (LG_R_CODE_0 (sel - 1)) = code then some (sel - 1) else none)
  c.foldl min 4096

/-- Burst of a bucket. -/
def State.burstOf (s : State) (b : Nat) : Nat := if b < 4096 then s.get (LG_R_RATE_16 b) else s.get (LG_RATE_DEF_16)

/-- Rate of a bucket. -/
def State.rateOf (s : State) (b : Nat) : Nat := if b < 4096 then s.get (LG_R_RATE_0 b) else s.get (LG_RATE_DEF_0)

/-- A record refused by its bucket is counted and raises supp (18 R452). -/
def State.ledgerRefuse (s : State) (b : Nat) : State :=
  let s := s.count (if b < 4096 then LG_R_SUPP_0 b else LG_DEF_SUPP_0)
  let s := s.updLg fun g => { g with refused := SMap.put g.refused b 0 (SMap.get g.refused b 0 + 1) }
  s.raiseInt 7 1

/-- Drop the first element that satisfies p. -/
def dropFirst {α : Type} (p : α → Bool) : List α → List α
  | [] => []
  | a :: r => if p a then r else a :: dropFirst p r

/-- Change the first element that satisfies p. -/
def updFirst {α : Type} (p : α → Bool) (f : α → α) : List α → List α
  | [] => []
  | a :: r => if p a then f a :: r else a :: updFirst p f r

/-- A record dropped (18 R450). -/
def State.ledgerDrop (s : State) (sev : Nat) : State :=
  let s := (s.count (LG_DROP_0 sev)).count LEDGER_dropped
  let s := s.updLg fun g => { g with dropN := g.dropN + 1, dropSev := max g.dropSev sev }
  s.raiseInt 7 0

/-- A record's 32 bytes, native or Quicen (18 R442, R453). -/
def LKept.bytes (r : LKept) : List Byte :=
  let ps := r.params.flatMap fun w => leBytes 4 w.toNat
  if r.quicen then
    leBytes 2 r.code ++ leBytes 1 r.sev ++ leBytes 1 r.rep ++ leBytes 4 r.optime ++ leBytes 4 r.last ++ leBytes 3 r.pcycle ++ [0] ++ ps
  else
    leBytes 2 r.code ++ leBytes 1 (r.sev % 8 + 8 * (r.lanes % 8) + 64 * b2n r.sw) ++ leBytes 1 r.tenant ++ leBytes 4 r.optime ++
    leBytes 3 r.pcycle ++ leBytes 1 r.tick ++ leBytes 4 r.seq ++ ps

/-- Offset of a staging slot (18 R449). -/
def slotOff (k : Nat) : Nat := 0xE00000 + 32 * k

/-- A record into a staging slot with the next sequence number. -/
def State.ledgerPut (s : State) (r : LKept) (slot ring : Nat) : State :=
  let n : LKept := { r with seq := s.ledger.next % 2 ^ 32, slot := slot }
  let s := s.updLg fun g => { g with recs := g.recs ++ [n], next := (g.next + 1) % 2 ^ 32, written := (g.written + 1) % 2 ^ 32, ring := ring, hold := 0 }
  let s := (s.hubWrite (slotOff slot) n.bytes).ledgerShow
  if r.sev = 7 then s.raiseInt 7 5 else s

/-- Place a record in staging (18 R446, R449, R450). -/
def State.ledgerPlace (s : State) (r : LKept) : State :=
  let g := s.ledger
  if (g.recs.filter (·.staged)).length < 32768 then s.ledgerPut r (g.ring % 32768) (g.ring + 1)
  else match g.recs.find? fun e => e.staged && e.flushed with
    | some o =>
      (s.updLg fun g => { g with recs := updFirst (fun e => e.staged && e.flushed) (fun e => { e with staged := false }) g.recs }).ledgerPut r o.slot g.ring
    | none => match g.recs.find? fun e => e.staged && decide (e.sev ≤ r.sev) with
      | some o =>
        ((s.count (LG_OVERWR_0 r.sev)).updLg fun g => { g with recs := dropFirst (fun e => e.staged && decide (e.sev ≤ r.sev)) g.recs }).ledgerPut r o.slot g.ring
      | none => s.ledgerDrop r.sev

/-- A record kept: placed, or held in the start buffer until the partition head is read (18 R456). -/
def State.ledgerKeep (s : State) (r : LKept) : State :=
  if s.flag LEDGER_mounted then s.ledgerPlace r
  else if s.ledger.startBuf.length < 256 then s.updLg fun g => { g with startBuf := g.startBuf ++ [r] }
  else s.count (LG_DROP_0 r.sev)

/-- The record the Ledger forms from what a unit hands it: operating time, power-cycle count, tick, layout (18 R442, R445). -/
def State.ledgerForm (s : State) (r : LRec) (sw : Bool) (lanes : Nat) : LKept :=
  { seq := 0, code := r.code, sev := r.sev, lanes := lanes, sw := sw, tenant := r.tenant, optime := s.get LG_OPTIME_0,
    pcycle := s.get LG_PCYCLE_0, tick := s.ledger.ms * 256 / 1000,
    params := (List.range 4).map fun i => (r.params.getD i 0), quicen := s.flag LEDGER_fmt, rep := 0, last := s.get LG_OPTIME_0,
    ms := s.ledger.ms, staged := true, flushed := false, slot := 0 }

/-- An arriving record (18 R448). `tok` false: a summary record, which takes no token (R452). -/
def State.ledgerArrive (s : State) (r : LRec) (sw tok : Bool) (lanes : Nat) : State :=
  let k := s.ledgerForm r sw lanes
  if s.flag LEDGER_frozen then
    ((s.count LG_FROZEN_LOST_0).raiseTo LG_FROZEN_LOST_24 r.sev).updLg fun g => { g with fzN := g.fzN + 1, fzSev := max g.fzSev r.sev }
  else if s.flag LEDGER_fmt then
    match s.ledger.recs.getLast? with
    | some n =>
      if !n.flushed && n.code == k.code && n.sev == k.sev && n.params == k.params && !(s.ledger.flushing && s.ledger.flushTo == (n.seq + 1) % 2 ^ 32) then
        let m : LKept := { n with rep := min (n.rep + 1) 255, last := k.optime }
        (s.updLg fun g => { g with recs := g.recs.dropLast ++ [m], hold := max g.hold 1 }).hubWrite (slotOff n.slot) m.bytes
      else s.ledgerKeep k
    | none => s.ledgerKeep k
  else if r.sev < 7 && tok then
    let b := s.bucketOf r.code
    let sp := SMap.get s.ledger.spent b 0
    if sp < s.burstOf b then (s.updLg fun g => { g with spent := SMap.put g.spent b 0 (sp + 1) }).ledgerKeep k
    else s.ledgerRefuse b
  else s.ledgerKeep k

/-- A hub unit's record with an explicit lane mask and tenant. -/
def State.recordX (s : State) (code sev tenant lanes : Nat) (ws : List Nat) : State :=
  s.ledgerArrive { code := code, sev := sev, tenant := tenant, params := ws.map w32 } false true lanes

/-- A hub unit's record: tenant 0xFF, the voters as lane mask (18 R442). -/
def State.record (s : State) (code sev : Nat) (ws : List Nat) : State := s.recordX code sev 0xFF (s.get ASSAY_voters) ws

/-- A unit's record that names a tenant. -/
def State.recordT (s : State) (code sev tenant : Nat) (ws : List Nat) : State := s.recordX code sev tenant (s.get ASSAY_voters) ws

/-- Clockmaker ticks in a second. -/
def ticksPerSec : Nat := 500000000

/-- Act at most once per period for a key, measured on the Clockmaker counter (18 R452). -/
def State.once (s : State) (key ticks : Nat) (f : State → State) : State :=
  let l := SMap.get s.ledger.limits key 0
  if l = 0 ∨ l - 1 + ticks ≤ s.counter then
    f (s.updLg fun g => { g with limits := SMap.put g.limits key 0 (s.counter + 1) })
  else s

/-- A record limited to once per second for a code and instance. -/
def State.recordSec (s : State) (inst code sev : Nat) (ws : List Nat) : State :=
  s.once (code * 65536 + inst) ticksPerSec fun s => s.record code sev ws

end Sys2Proof.Machine
end

