-- ==== Sys2Proof/Machine/Lane.lean ====
section
/-! DEFINITION. What every lane instruction shares (02): registers and the state digest, the address map and its checks, taking an
exception and returning from one, unit boundaries and retirement. -/

namespace Sys2Proof.Machine

/-! ## Registers -/

/-- Reset value of a system register (02 R42, R43). -/
def srReset (n : Nat) : Word64 := if n = 0 then 2 else 0

def PairS.rg (q : PairS) (i : Fin 32) : Word64 := if i = 0 then 0 else SMap.get q.g i.val 0
def PairS.rv (q : PairS) (i : Fin 32) : Word64 := SMap.get q.v i.val 0
def PairS.rs (q : PairS) (n : Nat) : Word64 := SMap.get q.sr n (srReset n)
def PairS.ws (q : PairS) (n : Nat) (v : Word64) : PairS := { q with sr := SMap.put q.sr n (srReset n) v }
def PairS.cev (q : PairS) (n : Nat) : Nat := SMap.get q.cnt n 0
def PairS.bump (q : PairS) (n : Nat) : PairS := { q with cnt := SMap.put q.cnt n 0 (q.cev n + 1) }

/-- Current level: SR_STATUS [1:0] (02 R43). -/
def PairS.level (q : PairS) : Nat := (q.rs 0).toNat % 4
/-- One bit of SR_STATUS. -/
def PairS.st (q : PairS) (i : Nat) : Bool := bitOf (q.rs 0).toNat i

/-! ## State digest (03 R88, R89) -/

/-- A contribution record: kind, bytes 1 and 2, address bytes 3 to 7, value. -/
def PairS.fold (q : PairS) (kind mid addr v : Nat) : PairS :=
  { q with digest := crc64 q.digest (beBytes 1 kind ++ beBytes 2 mid ++ beBytes 5 addr ++ beBytes 8 v) }

/-- The records of a store of bytes at an address, one per aligned doubleword touched. -/
def storeRecs (addr : Nat) (l : List Byte) : List (Nat × Nat × Nat) :=
  let d0 := addr / 8
  let n := (addr + l.length - 1) / 8 + 1 - d0
  (List.range n).map fun k =>
    let base := (d0 + k) * 8
    let en := (List.range 8).map fun i => decide (addr ≤ base + i ∧ base + i < addr + l.length)
    let mask := leNat' en
    let val := leNat ((List.range 8).map fun i => if addr ≤ base + i then l.getD (base + i - addr) 0 else 0)
    (mask, base, val)
where
  /-- A bit list as a number. -/
  leNat' : List Bool → Nat
    | [] => 0
    | b :: r => b2n b + 2 * leNat' r

/-- Fold a store of bytes. -/
def PairS.foldStore (q : PairS) (kind addr : Nat) (l : List Byte) : PairS :=
  if l.isEmpty then q else (storeRecs addr l).foldl (fun q r => q.fold kind (r.1 * 256) (r.2.1 % 2 ^ 40) r.2.2) q

/-- Write a general register; g0 discards (02 R41). The write enters the digest. -/
def PairS.wg (q : PairS) (i : Fin 32) (v : Word64) : PairS :=
  if i = 0 then q else ({ q with g := SMap.put q.g i.val 0 v }).fold 0x01 i.val 0 v.toNat

/-- Write a floating-point register. -/
def PairS.wv (q : PairS) (i : Fin 32) (v : Word64) : PairS :=
  ({ q with v := SMap.put q.v i.val 0 v }).fold 0x02 i.val 0 v.toNat

/-- A system register write that enters the digest with the value the register reads. -/
def PairS.wsd (q : PairS) (n : Nat) (v : Word64) : PairS := (q.ws n v).fold 0x03 n 0 v.toNat

/-! ## Retirement (02 R75, 03 R90) -/

/-- One unit retires: the count advances; at a multiple of 256 a checkpoint report falls due; a stepped pair halts (04 R129). -/
def PairS.retire (q : PairS) : PairS :=
  let q := { q.bump 0 with inBlk := false }
  let q := if q.cev 0 % 256 = 0 then { q with due := q.due ++ [{ count := q.cev 0, digest := BitVec.ofNat 64 q.digest, pace := none }] } else q
  if q.stepping then { q with stepping := false, halted := true, haltWhy := 4 } else q

/-- Continue at the next instruction. -/
def PairS.next (q : PairS) : PairS := { q with pc := q.pc + 4 }

/-! ## Address map (01 R34) -/

/-- The ranges of the lane address map. -/
inductive Region where
  | sram | tcmOwn | tcm2 (q : Nat) | intc (q : Nat) | cmp (q : Nat) | cntp (q : Nat) | dbgp (q : Nat) | hubPage | hubSram | dram | unmapped
deriving DecidableEq, Repr

/-- The range an address lies in. -/
def State.region (s : State) (a : Nat) : Region :=
  if a < 0x800000 then .sram
  else if 0x1000000 ≤ a ∧ a < 0x1200000 then .tcmOwn
  else if 0x2000000 ≤ a ∧ a < 0x2800000 then (if (a - 0x2000000) / 0x200000 < s.nPairs then .tcm2 ((a - 0x2000000) / 0x200000) else .unmapped)
  else if 0x3F000000 ≤ a ∧ a < 0x3F004000 then .intc ((a - 0x3F000000) / 0x1000)
  else if 0x3F004000 ≤ a ∧ a < 0x3F008000 then .cmp ((a - 0x3F004000) / 0x1000)
  else if 0x3F008000 ≤ a ∧ a < 0x3F00C000 then .cntp ((a - 0x3F008000) / 0x1000)
  else if 0x3F00C000 ≤ a ∧ a < 0x3F010000 then .dbgp ((a - 0x3F00C000) / 0x1000)
  else if 0x40000000 ≤ a ∧ a < 0x40066000 then .hubPage
  else if 0x50000000 ≤ a ∧ a < 0x51000000 then .hubSram
  else if 0x800000000 ≤ a ∧ a < 0x800000000 + (if s.isS then 0x80000000 else 0x100000000) then .dram
  else .unmapped

/-- Lane-served memory. -/
def Region.isMem : Region → Bool
  | .sram | .tcmOwn | .tcm2 _ | .dram => true
  | _ => false

/-- A register page of the hub or of the lane. -/
def Region.isDev : Region → Bool
  | .intc _ | .cmp _ | .cntp _ | .dbgp _ | .hubPage => true
  | _ => false

/-- Served by the hub. -/
def Region.isHub : Region → Bool
  | .hubPage | .hubSram => true
  | _ => false

/-- Key of a lane memory byte: tightly coupled memory at its second-view address (01 R34). -/
def memKey (p : Fin 4) (a : Nat) : Nat :=
  if 0x1000000 ≤ a ∧ a < 0x1200000 then 0x2000000 + p.val * 0x200000 + (a - 0x1000000) else a

/-- Owner code of the granule of a lane SRAM or DRAM address (02 R55). -/
def State.granOf (s : State) (l : Fin 3) (a : Nat) : Nat :=
  let i := if a < 0x800000 then a / 4096 else 2048 + (a - 0x800000000) / 0x200000
  if s.isS ∧ 3072 ≤ i then 5 else SMap.get (s.ln l).gran i 0

/-- What an access does. -/
inductive AccK where
  | fetch | read | write
deriving DecidableEq, Repr

/-- Does a tenant region grant an access to an address (02 R54): the lowest-numbered enabled region that holds it governs. -/
def PairS.regionOk (q : PairS) (k : AccK) (a : Nat) : Bool :=
  let hit := (List.range 16).find? fun n =>
    let lo := (q.rs (0x20 + 2 * n)).toNat
    let hi := (q.rs (0x21 + 2 * n)).toNat
    bitOf lo 0 && decide (bitsOf lo 12 24 ≤ a / 4096) && decide (a / 4096 ≤ bitsOf hi 12 24)
  match hit with
  | none => false
  | some n => bitOf (q.rs (0x20 + 2 * n)).toNat (match k with | .read => 1 | .write => 2 | .fetch => 3)

/-- Why the lane refuses an access to one byte: the info kind of R51. -/
def State.byteFault (s : State) (l : Fin 3) (p : Fin 4) (k : AccK) (a : Nat) : Option Nat :=
  let q := s.pr l p
  let r := s.region a
  let tenant := q.level = 0
  let reg := if tenant && !q.regionOk k a then some 1 else none
  let gran : Option Nat :=
    let o := s.granOf l a
    if o = p.val ∨ (o = 4 ∧ k ≠ .write) then none else some 2
  match r with
  | .unmapped => some 0
  | .sram | .dram => reg.orElse fun _ => gran
  | .tcmOwn => reg
  | .tcm2 t =>
    if q.level < 2 then some 0
    else if t ≠ p.val ∧ bitOf (s.ln l).mpairrun t then some 4 else none
  | .intc _ | .cmp _ | .cntp _ | .dbgp _ => if k = .fetch then some 0 else reg
  | .hubPage | .hubSram => if k = .fetch then some 3 else none

/-- The first byte of a range the lane refuses, with its info kind. -/
def State.rangeFault (s : State) (l : Fin 3) (p : Fin 4) (k : AccK) (a n : Nat) : Option (Nat × Nat) :=
  (List.range n).findSome? fun i => (s.byteFault l p k (a + i)).map fun f => (a + i, f)

/-- n bytes of lane memory. -/
def State.laneRead (s : State) (l : Fin 3) (p : Fin 4) (a n : Nat) : List Byte :=
  (List.range n).map fun i => SMap.get (s.ln l).mem (memKey p (a + i)) 0

/-- Write one byte of lane memory and set its page's dirty bit (04 R116). -/
def LaneS.wb (n : LaneS) (k : Nat) (b : Byte) : LaneS :=
  { n with mem := SMap.put n.mem k 0 b, dirty := SMap.put n.dirty (k / 4096) 0 1 }

/-- Write bytes of lane memory. -/
def State.laneWrite (s : State) (l : Fin 3) (p : Fin 4) (a : Nat) (b : List Byte) : State :=
  s.updL l fun n => (b.foldl (fun (x : LaneS × Nat) y => (x.1.wb (memKey p x.2) y, x.2 + 1)) (n, a)).1

/-! ## Exceptions (02 R45 to R51) -/

/-- SR_STATUS after entry to the runtime (false) or the monitor (02 R46). -/
def entryStatus (st : Nat) (mon : Bool) : Nat :=
  let lv := st % 4
  let ie := bitsOf st 2 1
  let (pl, pi, xl) := if mon then (12, 14, 5) else (8, 10, 4)
  let st := putBits st pl 2 lv
  let st := putBits st pi 1 ie
  let st := putBits st xl 1 1
  let st := putBits st 2 1 0
  putBits st 0 2 (if mon then 2 else 1)

/-- SR_ECAUSE of R51. -/
def causeWord (code info : Nat) (blk : Bool) : Nat := code + info % 1024 * 2 ^ 16 + b2n blk * 2 ^ 31

/-- Exception entry (02 R46): saved registers, status, vector; its writes enter the digest (03 R89). -/
def PairS.enter (q : PairS) (mon : Bool) (code info addr : Nat) (ret : Word64) (blk : Bool) : PairS :=
  let b := if mon then 0x101 else 0x002
  let epc := if mon then 0x100 else 0x001
  let st := BitVec.ofNat 64 (entryStatus (q.rs 0).toNat mon)
  let q := (((q.wsd epc ret).wsd b (BitVec.ofNat 64 (causeWord code info blk))).wsd (b + 1) (BitVec.ofNat 64 addr)).wsd 0 st
  { q with pc := q.rs (if mon then 0x103 else 0x004) + BitVec.ofNat 64 (code * 0x40), inBlk := false }

/-- An exception goes to the monitor (02 R48). -/
def PairS.toMonitor (q : PairS) (code : Nat) : Bool :=
  q.level = 2 || !bitOf (q.rs 0x105).toNat code || code = 0 || code = 0x09 || code = 0x0F

/-- R49: the pair stops. The hub reports it once, for the first voting lane that stops, and the Courier drops what waits for the pair (05 R132, R147);
stamps on their way still reach the lanes that have yet to reach that count. -/
def State.pairStop (s : State) (l : Fin 3) (p : Fin 4) : State :=
  let s := s.updP l p fun q => { q with stopped := true, stamps := [], release := none }
  if bitOf (s.get LM_PAIRSTOP_0) p.val || s.laneState l != lActive then s else
  let s := s.set LM_PAIRSTOP_0 (setBit (s.get LM_PAIRSTOP_0) p.val)
  let s := s.set (COUR_PAIRSTAT_13 p.val) 0
  let w := (s.cr p).waiting
  let s := s.updC p fun c => { c with waiting := 0, out := [], pace := none }
  let s := (s.set (COUR_PAIRSTAT_0 p.val) 0).set (COUR_PAIRSTAT_12 p.val) 0
  let s := if w = 0 then s else (s.addSat COUR_DROP_0 (popc 1280 w)).raiseInt 0x0A 2
  let s := s.raiseInt 9 4
  s.record 0x090C 6 [s.get (LM_CAUSE_0 l.val) + 16 * s.get (LM_CAUSE_4 l.val) + 256 * s.get (LM_CAUSE_8 l.val),
    s.get LM_REJ_STAT_0 + 16 * s.get LM_REJ_STAT_4]

/-- A precise exception (02 R45, R48, R49). `done`: the instruction retires and the return address is the next instruction
(SYSCALL, MCALL, tenant YIELD); a double exception retires nothing and saves the instruction's own address. -/
def State.precise (s : State) (l : Fin 3) (p : Fin 4) (code info addr : Nat) (done : Bool) : State :=
  let q := s.pr l p
  let blk := q.inBlk
  if q.toMonitor code then
    if q.st 5 then s.pairStop l p
    else s.updP l p fun q =>
      let q1 := if done then q.retire else q
      (q1.enter true code info addr (if done then q.pc + 4 else q.pc) blk).bump 4
  else if q.st 4 then
    if q.st 5 then s.pairStop l p
    else s.updP l p fun q => (q.enter true 0x0F 0 addr q.pc blk).bump 4
  else s.updP l p fun q =>
    let q1 := if done then q.retire else q
    (q1.enter false code info addr (if done then q.pc + 4 else q.pc) blk).bump 4

/-- ERET (02 R47) from the runtime or the monitor. -/
def PairS.eret (q : PairS) : PairS :=
  let st := (q.rs 0).toNat
  let mon := q.level = 2
  let (pl, pi, xl) := if mon then (12, 14, 5) else (8, 10, 4)
  let st1 := putBits (putBits (putBits st 0 2 (bitsOf st pl 2)) 2 1 (bitsOf st pi 1)) xl 1 0
  { (q.ws 0 (BitVec.ofNat 64 st1)) with pc := q.rs (if mon then 0x100 else 0x001) }

/-! ## Unit boundaries (02 R50, R52, R76; 05 R138, R139) -/

/-- A stamp becomes pending: its sources' bits and priorities, and its faults fall due in sequence-number order. -/
def PairS.becomeDue (q : PairS) (st : Stamp) : PairS :=
  { q with pend := st.srcs.foldl (fun m x => setBit m x.1) q.pend
           prio := st.srcs.foldl (fun m x => SMap.put m x.1 0 x.2) q.prio
           faults := q.faults ++ st.faults }

/-- The stamps whose count is reached become pending (02 R76). -/
def PairS.stampsDue (q : PairS) : PairS :=
  let now := q.stamps.filter fun st => st.due ≤ q.cev 0
  now.foldl PairS.becomeDue { q with stamps := q.stamps.filter fun st => q.cev 0 < st.due }

/-- INTC_TOP (05 R151): the pending, enabled source of highest priority above thresh, ties to the lowest number. -/
def PairS.top (q : PairS) : Option (Nat × Nat) :=
  (bitList 1280 (q.pend &&& q.en)).foldl (fun (b : Option (Nat × Nat)) n =>
    let pr := SMap.get q.prio n 0
    if pr ≤ q.thresh then b else
    match b with
    | some x => if x.2 < pr then some (n, pr) else b
    | none => some (n, pr)) none

/-- A boundary: due stamps, then a hub store fault, then an interrupt (02 R52). True: an exception was entered. -/
def PairS.boundary (q0 : PairS) : PairS × Bool :=
  let q := q0.stampsDue
  let blk := q.inBlk
  let fx := if q.toMonitor 7 then q.st 5 else q.st 4
  match q.faults with
  | f :: r => if fx then intr q blk else
      (({ q with faults := r }.enter (q.toMonitor 7) 7 (f.1 % 1024) f.2 q.pc blk).bump 5, true)
  | [] => intr q blk
where
  /-- The interrupt of a boundary. -/
  intr (q : PairS) (blk : Bool) : PairS × Bool :=
    if q.st 2 && q.top.isSome then ((q.enter (q.toMonitor 0x10) 0x10 0 0 q.pc blk).bump 5, true) else (q, false)

/-! ## Running an instruction -/

/-- The lane runs and this pair of it may retire units (02 R49, R56; 04 R111, R117, R129; 03 R93). -/
def State.canRun (s : State) (l : Fin 3) (p : Fin 4) : Bool :=
  let q := s.pr l p
  let st := s.laneState l
  let full := decide (1024 ≤ (s.assay.ckpts.filter fun e => e.pair = p).length)
  (st = lActive || st = lBoot || st = lDebug || (st = lApprentice && s.get LM_REJ_STAT_0 = 4)) &&
  decide (p.val < s.nPairs) && bitOf (s.ln l).mpairrun p.val && !q.stopped && q.wait = .none && !q.held && !q.halted &&
  !(full && (!q.due.isEmpty || (s.ln l).reports.any (fun r => r.1 = p)))

/-- The exceptions of fetch and decode, then the instruction (02 R52). A boundary exception takes the place of the instruction. -/
def State.unit (s : State) (l : Fin 3) (p : Fin 4) (illegal priv fp : Bool) (body : State → State) : State :=
  if !s.canRun l p then s else
  let (q, taken) := (s.pr l p).boundary
  let s := s.updP l p fun _ => q
  if taken then s else
  let fetch := if s.laneState l = lBoot then none else s.rangeFault l p .fetch q.pc.toNat 4
  match fetch with
  | some (a, i) => s.precise l p 0x01 i a false
  | none =>
    if illegal then s.precise l p 0x02 0 0 false
    else if priv then s.precise l p 0x03 0 0 false
    else if fp && q.level = 0 && !q.st 3 then s.precise l p 0x0C 0 0 false
    else body s

/-- An instruction that changes only its pair and retires one unit. -/
def State.unitP (s : State) (l : Fin 3) (p : Fin 4) (illegal priv fp : Bool) (f : PairS → PairS) : State :=
  s.unit l p illegal priv fp fun s => s.updP l p fun q => (f q).retire

end Sys2Proof.Machine
end

