-- ==== Sys2Proof/Machine/Operands.lean ====
section
/-! DEFINITION. The operand forms of lane instructions (02 R62, R64): immediates, displacements, shift amounts, effective addresses. -/

namespace Sys2Proof.Machine

/-- sext(imm16). -/
def sextImm (i : BitVec 16) : Word64 := i.signExtend 64
/-- zext(imm16), of the logical immediates. -/
def zextImm (i : BitVec 16) : Word64 := i.zeroExtend 64
/-- A branch displacement: words from the instruction. -/
def dispB (d : BitVec 16) : Word64 := d.signExtend 64 * 4
/-- A jump displacement. -/
def dispJ (d : BitVec 26) : Word64 := d.signExtend 64 * 4
/-- A 32-bit result, sign-extended from bit 31. -/
def sext32 (v : BitVec 32) : Word64 := v.signExtend 64
/-- The low 32 bits of an operand. -/
def lo32 (v : Word64) : BitVec 32 := v.truncate 32
/-- Address of a load or store. -/
def PairS.ea (q : PairS) (gs1 : Fin 32) (imm : BitVec 16) : Nat := (q.rg gs1 + sextImm imm).toNat

/-- The 64-bit integer operations (02 R64); none: reserved fn. -/
def alu64 (fn : Nat) (a b : Word64) : Option Word64 :=
  match fn with
  | 0x001 => some (a + b)
  | 0x002 => some (a - b)
  | 0x003 => some (a &&& b)
  | 0x004 => some (a ||| b)
  | 0x005 => some (a ^^^ b)
  | 0x006 => some (a <<< (b.toNat % 64))
  | 0x007 => some (a >>> (b.toNat % 64))
  | 0x008 => some (a.sshiftRight (b.toNat % 64))
  | 0x009 => some (if a.slt b then 1 else 0)
  | 0x00A => some (if a.ult b then 1 else 0)
  | 0x010 => some (a * b)
  | 0x011 => some (BitVec.ofInt 64 (a.toInt * b.toInt / 2 ^ 64))
  | 0x012 => some (BitVec.ofNat 64 (a.toNat * b.toNat / 2 ^ 64))
  | 0x013 => some (BitVec.ofInt 64 (a.toInt * (b.toNat : Int) / 2 ^ 64))
  | 0x014 => some (if b = 0 then BitVec.allOnes 64 else a.sdiv b)
  | 0x015 => some (if b = 0 then BitVec.allOnes 64 else a / b)
  | 0x016 => some (if b = 0 then a else a.srem b)
  | 0x017 => some (if b = 0 then a else a % b)
  | _ => none

/-- The 32-bit forms (02 R64); none: reserved fn. -/
def alu32 (fn : Nat) (a b : BitVec 32) : Option (BitVec 32) :=
  match fn with
  | 0x001 => some (a + b)
  | 0x002 => some (a - b)
  | 0x006 => some (a <<< (b.toNat % 32))
  | 0x007 => some (a >>> (b.toNat % 32))
  | 0x008 => some (a.sshiftRight (b.toNat % 32))
  | 0x010 => some (a * b)
  | 0x014 => some (if b = 0 then BitVec.allOnes 32 else a.sdiv b)
  | 0x015 => some (if b = 0 then BitVec.allOnes 32 else a / b)
  | 0x016 => some (if b = 0 then a else a.srem b)
  | 0x017 => some (if b = 0 then a else a % b)
  | _ => none

/-- Result of a format A integer register instruction; none: illegal (02 R63). -/
def aluResult (form : AluForm) (fn : Nat) (a b : Word64) : Option Word64 :=
  match form with
  | .x64 => alu64 fn a b
  | .x32 => (alu32 fn (lo32 a) (lo32 b)).map sext32
  | .reservedMajor => none

/-- Shift immediate (op 0x08): the result, or none where a field is illegal. -/
def shiftImm (a : Word64) (imm : Nat) : Option Word64 :=
  let amt := imm % 64
  let k := imm / 64 % 4
  let w := bitOf imm 8
  if 512 ≤ imm ∨ k = 3 ∨ (w ∧ 32 ≤ amt) then none
  else if w then
    let x := lo32 a
    some (sext32 (if k = 0 then x <<< amt else if k = 1 then x >>> amt else x.sshiftRight amt))
  else some (if k = 0 then a <<< amt else if k = 1 then a >>> amt else a.sshiftRight amt)

/-- Result of ops 0x02 to 0x09 (k = op − 2). -/
def immResult (k : Nat) (a : Word64) (imm : BitVec 16) : Option Word64 :=
  match k with
  | 0 => some (a + sextImm imm)
  | 1 => some (a &&& zextImm imm)
  | 2 => some (a ||| zextImm imm)
  | 3 => some (a ^^^ zextImm imm)
  | 4 => some (if a.slt (sextImm imm) then 1 else 0)
  | 5 => some (if a.ult (sextImm imm) then 1 else 0)
  | 6 => shiftImm a imm.toNat
  | _ => some (sext32 (lo32 (a + sextImm imm)))

/-- Condition of ops 0x20 to 0x25 (k = op − 0x20). -/
def branchTaken (k : Nat) (a b : Word64) : Bool :=
  match k with
  | 0 => a == b
  | 1 => a != b
  | 2 => a.slt b
  | 3 => !a.slt b
  | 4 => a.ult b
  | _ => !a.ult b

/-- Bytes a load of ops 0x10 to 0x16 reads (k = op − 0x10), 7 FLD, 8 FLW. -/
def loadLen (k : Nat) : Nat := match k with | 0 | 1 => 1 | 2 | 3 => 2 | 4 | 5 | 8 => 4 | _ => 8

/-- The register value of a load (02 R64). -/
def loadValue (k v : Nat) : Word64 :=
  BitVec.ofNat 64 (match k with
    | 0 => sext64 8 v
    | 2 => sext64 16 v
    | 4 => sext64 32 v
    | 8 => (2 ^ 32 - 1) * 2 ^ 32 + v
    | _ => v)

/-- Value an atomic leaves in memory (02 R64): w bits, old value, operand, value gd held. None: reserved fn. -/
def atomicNew (fn w old x cmp : Nat) : Option Nat :=
  let m := 2 ^ w
  let o := old % m
  let y := x % m
  match fn % 16 with
  | 1 => some y
  | 2 => some ((o + y) % m)
  | 3 => some (o &&& y)
  | 4 => some (o ||| y)
  | 5 => some (o ^^^ y)
  | 6 => some (if sint w o ≤ sint w y then o else y)
  | 7 => some (if sint w o ≤ sint w y then y else o)
  | 8 => some (min o y)
  | 9 => some (max o y)
  | 10 => some (if o = cmp % m then y else o)
  | _ => none

end Sys2Proof.Machine
end

