-- ==== Sys2Proof/Machine/Flags.lean ====
section
/-! DEFINITION. SR_FCSR: rounding mode and sticky flags (02 R42), and the floating-point operations that set them (02 R64). -/

namespace Sys2Proof.Machine

/-- Rounding mode. -/
def PairS.rm (q : PairS) : Nat := (q.rs 7).toNat % 4

/-- Set sticky flags; not a register-file write of 03 R88. -/
def PairS.sticky (q : PairS) (f : FFlags) : PairS := q.ws 7 (q.rs 7 ||| BitVec.ofNat 64 (f * 16))

/-- Sign bit of a value taken apart. -/
def Fp.sign : Fp → Bool
  | .nan _ => false
  | .inf n => n
  | .fin n _ _ => n

/-- Op 0x32 by fn [4:0] on vs1, vs2 and the old vd; none: reserved fn. -/
def fpArith (f : Fmt) (op rm : Nat) (a b d : Nat) : Option (Nat × FFlags) :=
  let x := f.operand a
  let y := f.operand b
  let z := f.operand d
  match op with
  | 0x00 => some (f.add rm x y)
  | 0x01 => some (f.add rm x y.neg)
  | 0x02 => some (f.mul rm x y)
  | 0x03 => some (f.div rm x y)
  | 0x04 => some (f.sqrt rm x)
  | 0x05 => some (f.minmax false a b)
  | 0x06 => some (f.minmax true a b)
  | 0x08 => some (f.fma rm x y z)
  | 0x09 => some (f.fma rm x y z.neg)
  | 0x0A => some (f.fma rm x.neg y z)
  | 0x0B => some (f.fma rm x.neg y z.neg)
  | _ => none

/-- Comparisons of op 0x33: 0x08 FEQ, 0x09 FLT, 0x0A FLE. -/
def fpCompare (op : Nat) (x y : Fp) : Bool × FFlags :=
  if x.isNan || y.isNan then (false, if op = 0x08 then snan [x, y] else fInvalid)
  else
    let c := x.cmp y
    (if op = 0x08 then c == .eq else if op = 0x09 then c == .lt else c != .gt, 0)

/-- Sign copies of op 0x33: 0x0C, 0x0D, 0x0E. A NaN result is canonical (R64). -/
def fpSign (f : Fmt) (op a b : Nat) : Nat :=
  let x := f.operand a
  let y := f.operand b
  if x.isNan then f.nan else
  let sb := if y.isNan then (if f.bits = 32 && b / 2 ^ 32 != 2 ^ 32 - 1 then false else bitOf b (f.bits - 1)) else y.sign
  let n := if op = 0x0C then sb else if op = 0x0D then !sb else x.sign != sb
  b2n n * 2 ^ (f.bits - 1) + a % 2 ^ (f.bits - 1)

/-- What op 0x33 writes: a general or a floating-point register. -/
inductive FpDst where
  | g (v : Nat)
  | v (v : Nat)
deriving DecidableEq, Repr

/-- Op 0x33 by fn on the operand bits: destination value and flags; none: reserved fn or field (R63, R64). `s2` is the second register field. -/
def fpConvert (rm fn va vb ga s2 : Nat) : Option (FpDst × FFlags) :=
  let op := fn % 32
  let f := if bitOf fn 5 then fmt32 else fmt64
  let one := bitOf fn 5
  let lim63 : Int := 2 ^ 63
  if 64 ≤ fn then none else
  let un := s2 = 0
  match op with
  | 0x00 => if one ∨ !un then none else let r := fmt64.convert rm (fmt32.operand va); some (.v r.1, r.2)
  | 0x01 => if one ∨ !un then none else let r := fmt32.convert rm (fmt64.operand va); some (.v (fmt32.box r.1), r.2)
  | 0x02 => if !un then none else let r := (f.operand va).toInt rm (-lim63) (lim63 - 1); some (.g (unsint 64 r.1), r.2)
  | 0x03 => if !un then none else let r := (f.operand va).toInt rm 0 (2 ^ 64 - 1); some (.g (unsint 64 r.1), r.2)
  | 0x04 => if !un then none else let r := f.ofInt rm (sint 64 ga); some (.v (f.box r.1), r.2)
  | 0x05 => if !un then none else let r := f.ofInt rm ga; some (.v (f.box r.1), r.2)
  | 0x08 | 0x09 | 0x0A => let r := fpCompare op (f.operand va) (f.operand vb); some (.g (b2n r.1), r.2)
  | 0x0C | 0x0D | 0x0E => some (.v (f.box (fpSign f op va vb)), 0)
  | 0x10 => if one ∨ !un then none else some (.g va, 0)
  | 0x11 => if one ∨ !un then none else some (.v ga, 0)
  | _ => none

end Sys2Proof.Machine
end

