-- ==== Sys2Proof/Machine/LaneAlu.lean ====
section
/-! DEFINITION. Lane instructions that touch only their pair or lane: integer, branch, jump, floating point, system (02 R63 to R65, R72 to R76). -/

namespace Sys2Proof.Machine

/-- R64, format A integer register instructions. -/
def execAluRegisterOp (l : Fin 3) (p : Fin 4) (form : AluForm) (gd gs1 gs2 : Fin 32) (fn : BitVec 11) (s : State) : Out :=
  let q := s.pr l p
  let r := aluResult form fn.toNat (q.rg gs1) (q.rg gs2)
  .next (s.unitP l p r.isNone false false fun q => (q.wg gd (r.getD 0)).next)

/-- R64, ops 0x02 to 0x09. -/
def execImmediateOp (l : Fin 3) (p : Fin 4) (k : Fin 8) (gd gs1 : Fin 32) (imm : BitVec 16) (s : State) : Out :=
  let r := immResult k.val ((s.pr l p).rg gs1) imm
  .next (s.unitP l p r.isNone false false fun q => (q.wg gd (r.getD 0)).next)

/-- R64, LUI and AUIPC; gs1 must be 0. -/
def execUpperImmediate (l : Fin 3) (p : Fin 4) (auipc : Bool) (gd gs1 : Fin 32) (imm : BitVec 16) (s : State) : Out :=
  .next (s.unitP l p (gs1 ≠ 0) false false fun q =>
    let v := sextImm imm * 0x10000
    (q.wg gd (if auipc then q.pc + v else v)).next)

/-- R64, conditional branches; a taken branch counts in CNT_EV[3] (R77). -/
def execBranch (l : Fin 3) (p : Fin 4) (k : Fin 6) (gs1 gs2 : Fin 32) (disp : BitVec 16) (s : State) : Out :=
  .next (s.unitP l p false false false fun q =>
    if branchTaken k.val (q.rg gs1) (q.rg gs2) then { q.bump 3 with pc := q.pc + dispB disp } else q.next)

/-- R64, J. -/
def execJump (l : Fin 3) (p : Fin 4) (disp : BitVec 26) (s : State) : Out :=
  .next (s.unitP l p false false false fun q => { q.bump 3 with pc := q.pc + dispJ disp })

/-- R64, R41: JAL links in g31. -/
def execJal (l : Fin 3) (p : Fin 4) (disp : BitVec 26) (s : State) : Out :=
  .next (s.unitP l p false false false fun q => { (q.bump 3).wg 31 (q.pc + 4) with pc := q.pc + dispJ disp })

/-- R64, JALR: the target is taken before gd is written, its bits [1:0] cleared. -/
def execJalr (l : Fin 3) (p : Fin 4) (gd gs1 : Fin 32) (imm : BitVec 16) (s : State) : Out :=
  .next (s.unitP l p false false false fun q =>
    let t := (q.rg gs1 + sextImm imm) &&& ~~~3
    { (q.bump 3).wg gd (q.pc + 4) with pc := t })

/-- R64, op 0x32: all registers v; fn bit 5 selects binary32, bits [10:6] are 0, FSQRT's second source is 0. -/
def execFpArithmetic (l : Fin 3) (p : Fin 4) (vd vs1 vs2 : Fin 32) (fn : BitVec 11) (s : State) : Out :=
  let q := s.pr l p
  let n := fn.toNat
  let f := if bitOf n 5 then fmt32 else fmt64
  let r := if 64 ≤ n ∨ (n % 32 = 4 ∧ vs2 ≠ 0) then none
    else fpArith f (n % 32) q.rm (q.rv vs1).toNat (q.rv vs2).toNat (q.rv vd).toNat
  .next (s.unitP l p r.isNone false true fun q =>
    let x := r.getD (0, 0)
    ((q.sticky x.2).wv vd (BitVec.ofNat 64 (f.box x.1))).next)

/-- R64, op 0x33. -/
def execFpConvertCompareMove (l : Fin 3) (p : Fin 4) (rd rs1 rs2 : Fin 32) (fn : BitVec 11) (s : State) : Out :=
  let q := s.pr l p
  let r := fpConvert q.rm fn.toNat (q.rv rs1).toNat (q.rv rs2).toNat (q.rg rs1).toNat rs2.val
  .next (s.unitP l p r.isNone false true fun q =>
    let x := r.getD (.g 0, 0)
    let q := q.sticky x.2
    (match x.1 with
      | .g v => q.wg rd (BitVec.ofNat 64 v)
      | .v v => q.wv rd (BitVec.ofNat 64 v)).next)

/-- R63, R45: SYSCALL, cause 0x08, retires one unit; bits [25:21] must be 0. -/
def execSyscall (l : Fin 3) (p : Fin 4) (g : Fin 32) (code : BitVec 10) (s : State) : Out :=
  .next (s.unit l p (g ≠ 0) false false fun s => s.precise l p 0x08 code.toNat 0 true)

/-- R45, R48: MCALL, cause 0x09, to the monitor. -/
def execMcall (l : Fin 3) (p : Fin 4) (g : Fin 32) (code : BitVec 10) (s : State) : Out :=
  .next (s.unit l p (g ≠ 0) false false fun s => s.precise l p 0x09 code.toNat 0 true)

/-- R45: BRK, cause 0x0A, retires nothing; in DEBUG it halts the pair with reason 5 (04 R129). -/
def execBrk (l : Fin 3) (p : Fin 4) (g : Fin 32) (_code : BitVec 10) (s : State) : Out :=
  .next (s.unit l p (g ≠ 0) false false fun s =>
    if s.laneState l = lDebug then s.updP l p fun q => { q with halted := true, haltWhy := 5, stepping := false }
    else s.precise l p 0x0A 0 0 false)

/-- R47: ERET; privileged at tenant level. -/
def execEret (l : Fin 3) (p : Fin 4) (s : State) : Out :=
  .next (s.unitP l p false ((s.pr l p).level = 0) false PairS.eret)

/-- Hub writes of a pair that their targets have not all written yet (R58). -/
def State.writesOpen (s : State) (l : Fin 3) (p : Fin 4) : Bool :=
  (s.ln l).out.any (fun r => r.pair = p && r.kind != .read) ||
  s.assay.heldRecs.any (fun x => x.1 = l && x.2.pair = p && x.2.kind != .read) ||
  s.assay.writes.any (fun w => w.pair = p && !w.complete)

/-- R58: FENCE retires once every earlier access of the pair is complete; until then it stalls, changing nothing. -/
def execFence (l : Fin 3) (p : Fin 4) (s : State) : Out :=
  .next (if s.writesOpen l p then s else s.unitP l p false false false PairS.next)

/-- R58: FENCE.I. Fetch in this model reads nothing a store could leave stale. -/
def execFenceI (l : Fin 3) (p : Fin 4) (s : State) : Out :=
  .next (s.unitP l p false false false PairS.next)

/-! ## System registers (R42, R43, R51, R54 to R56) -/

/-- The table of R42 lists the number. -/
def srListed (n : Nat) : Bool := n ≤ 7 || (0x20 ≤ n && n ≤ 0x3F) || (0x100 ≤ n && n ≤ 0x109)

/-- An MFS or MTS of the number is a privileged instruction for the pair (R42, R44). -/
def PairS.srPriv (q : PairS) (n : Nat) : Bool :=
  if q.level = 0 then !(n = 7 && q.st 3) else q.level = 1 && 0x100 ≤ n

/-- The value a system register reads. -/
def State.srRead (s : State) (l : Fin 3) (p : Fin 4) (n : Nat) : Word64 :=
  let q := s.pr l p
  let ln := s.ln l
  if !srListed n then 0
  else if n = 0x106 then BitVec.ofNat 64 ln.mpairrun
  else if n = 0x107 then (if p = 0 then BitVec.ofNat 64 ln.mgotx else 0)
  else if n = 0x108 then
    (if p ≠ 0 then 0 else if s.isS ∧ 3072 ≤ ln.mgotx then 5 else BitVec.ofNat 64 (SMap.get ln.gran ln.mgotx 0))
  else if n = 0x109 then BitVec.ofNat 64 p.val
  else q.rs n

/-- A cause code R45 lists, else 0x02 (R51). -/
def causeClamp (c : Nat) : Nat := if c ≤ 0x0C ∨ c = 0x0F ∨ c = 0x10 then c else 0x02

/-- Clamped SR_STATUS: what a write of v at a level leaves (R43). -/
def statusWrite (old v level : Nat) : Nat :=
  let s1 := putBits (putBits old 2 3 (bitsOf v 2 3)) 8 2 (min 1 (bitsOf v 8 2))
  let s2 := putBits s1 10 1 (bitsOf v 10 1)
  if level < 2 then s2
  else putBits (putBits (putBits s2 5 1 (bitsOf v 5 1)) 12 2 (min 2 (bitsOf v 12 2))) 14 1 (bitsOf v 14 1)

/-- The value a pair's own system register takes from a write (R42, R51, R54). -/
def PairS.srClamp (q : PairS) (n v : Nat) : Nat :=
  if n = 0 then statusWrite (q.rs 0).toNat v q.level
  else if n = 2 ∨ n = 0x101 then causeWord (causeClamp (v % 32)) (bitsOf v 16 10) (bitOf v 31)
  else if n = 4 ∨ n = 0x103 then bitsOf v 12 24 * 4096
  else if n = 6 then v % 32
  else if n = 7 then v % 4 + bitsOf v 4 5 * 16
  else if 0x20 ≤ n ∧ n ≤ 0x3F then
    if n % 2 = 0 then v % 16 + bitsOf v 12 24 * 4096
    else max (bitsOf v 12 24) (bitsOf (q.rs (n - 1)).toNat 12 24) * 4096
  else if n = 0x105 then clrBit (clrBit (clrBit v 0) 9) 15
  else v

/-- R56, R40, R78, R90: core pair q starts at the first word of its tightly coupled memory and sends its start report. -/
def State.pairStart (s : State) (l : Fin 3) (q : Fin 4) : State :=
  if q.val < s.nPairs ∧ !bitOf (s.ln l).mpairrun q.val then
    let s := s.updL l fun n =>
      { n with mpairrun := setBit n.mpairrun q.val, reports := n.reports ++ [(q, { count := 0, digest := 0, pace := none })] }
    s.updP l q fun o => { PairS.init with pc := 0x1000000, seqR := o.seqR, seqW := o.seqW, dbg := o.dbg }
  else s

/-- An owner code gives access to a running pair other than pair 0 (R55). -/
def granRuns (mpairrun own : Nat) : Bool :=
  (1 ≤ own && own ≤ 3 && bitOf mpairrun own) || (own = 4 && (bitOf mpairrun 1 || bitOf mpairrun 2 || bitOf mpairrun 3))

/-- R55: a write of SR_MGOTD. -/
def State.granWrite (s : State) (l : Fin 3) (v : Nat) : State :=
  let n := s.ln l
  let new := if 5 ≤ v % 8 then 5 else v % 8
  let old := SMap.get n.gran n.mgotx 0
  if (s.isS ∧ 3072 ≤ n.mgotx) ∨ granRuns n.mpairrun old ∨ granRuns n.mpairrun new then s
  else s.updL l fun n => { n with gran := SMap.put n.gran n.mgotx 0 new }

/-- A system register write, clamped, before it is folded into the digest. -/
def State.srWrite (s : State) (l : Fin 3) (p : Fin 4) (n v : Nat) : State :=
  if !srListed n ∨ n = 0x109 then s
  else if n = 0x106 then
    if p ≠ 0 then s else s.each [1, 2, 3] fun s q => if bitOf v q.val then s.pairStart l q else s
  else if n = 0x107 then (if p ≠ 0 then s else s.updL l fun x => { x with mgotx := v % 4096 })
  else if n = 0x108 then (if p ≠ 0 then s else s.granWrite l v)
  else s.updP l p fun q => q.ws n (BitVec.ofNat 64 (q.srClamp n v))

/-- R42, R44: MFS. -/
def execMfs (l : Fin 3) (p : Fin 4) (g : Fin 32) (n : BitVec 10) (s : State) : Out :=
  .next (s.unit l p false ((s.pr l p).srPriv n.toNat) false fun s =>
    let v := s.srRead l p n.toNat
    s.updP l p fun q => ((q.wg g v).next).retire)

/-- R42 to R44: MTS; the value the register then reads enters the digest (R88). -/
def execMts (l : Fin 3) (p : Fin 4) (g : Fin 32) (n : BitVec 10) (s : State) : Out :=
  .next (s.unit l p false ((s.pr l p).srPriv n.toNat) false fun s =>
    let s := s.srWrite l p n.toNat ((s.pr l p).rg g).toNat
    let v := s.srRead l p n.toNat
    s.updP l p fun q => ((q.fold 0x03 n.toNat 0 v.toNat).next).retire)

/-- R56: the effect of a 1 written to SR_MPAIRRUN bit q. -/
def execPairStart (l : Fin 3) (q : Fin 4) (s : State) : Out := .next (s.pairStart l q)

/-- R55: the effect of a write to SR_MGOTD. -/
def execGranuleTableWrite (l : Fin 3) (v : BitVec 64) (s : State) : Out := .next (s.granWrite l v.toNat)

/-- R73: RDCNT; selectors 8 to 31, a register field or a variant that is not 0 are illegal (R65). -/
def execRdcnt (l : Fin 3) (p : Fin 4) (gd sel gs2 : Fin 32) (fnHi : BitVec 7) (s : State) : Out :=
  .next (s.unitP l p (8 ≤ sel.val || gs2 ≠ 0 || fnHi ≠ 0) false false fun q =>
    (q.wg gd (BitVec.ofNat 64 (q.cev sel.val))).next)

/-- R74: YIELD; at tenant level cause 0x0B with the code, else only its count. -/
def execYield (l : Fin 3) (p : Fin 4) (gd hi lo : Fin 32) (fnHi : BitVec 7) (s : State) : Out :=
  .next (s.unit l p (gd ≠ 0 || fnHi ≠ 0) false false fun s =>
    let q := s.pr l p
    if q.level = 0 then
      let double := if q.toMonitor 0x0B then q.st 5 else q.st 4
      let s := if double then s else s.updP l p fun q => q.bump 6
      s.precise l p 0x0B (hi.val * 32 + lo.val) 0 true
    else s.updP l p fun q => ((q.bump 6).next).retire)

/-! ## PACE, stamps and reports -/

/-- The lane's checkpoint reports and hub records reach the Assay (04 R111). -/
def State.onLink (s : State) (l : Fin 3) : Bool :=
  s.laneState l = lActive || (s.laneState l = lApprentice && s.get LM_REJ_STAT_0 = 4)

/-- R72, R141: a PACE completes: the stamps its release carries become pending, in the order of formation; then the boundary. -/
def PairS.paceDone (q : PairS) (carried : List Nat) : PairS :=
  let now := q.stamps.filter fun st => carried.contains st.num
  let q := now.foldl PairS.becomeDue { q with stamps := q.stamps.filter fun st => !carried.contains st.num }
  let q := ({ q with wait := .none, release := none }.next).retire
  q.boundary.1

/-- A waiting PACE may complete, and with which stamps: the release for its count is there, or in DEBUG an enabled source is pending
(R72, 04 R122). -/
def State.paceReady (s : State) (l : Fin 3) (p : Fin 4) : Option (List Nat) :=
  let q := s.pr l p
  match q.wait with
  | .pace c =>
    if q.halted || q.held then none
    else if s.laneState l = lDebug then (if q.pend &&& q.en ≠ 0 then some [] else none)
    else match q.release with
      | some r => if r.1 = c then some r.2.2 else none
      | none => none
  | _ => none

/-- Complete a waiting PACE where it may. -/
def State.paceTry (s : State) (l : Fin 3) (p : Fin 4) : State :=
  match s.paceReady l p with
  | some ns => s.updP l p fun q => q.paceDone ns
  | none => s

/-- R72, R140: PACE sends its report with the enable bits and waits; a release already received completes it at once. -/
def execPace (l : Fin 3) (p : Fin 4) (gd gs1 gs2 : Fin 32) (fnHi : BitVec 7) (s : State) : Out :=
  .next (s.unit l p (gd ≠ 0 || gs1 ≠ 0 || gs2 ≠ 0 || fnHi ≠ 0) ((s.pr l p).level = 0) false fun s =>
    let q := s.pr l p
    let c := q.cev 0
    let rep : Ckpt := { count := c, digest := BitVec.ofNat 64 q.digest, pace := some (q.en, decide (q.pend &&& q.en ≠ 0)) }
    let s := s.updP l p fun q => { q with wait := .pace c, due := q.due.filter fun r => r.count ≠ c }
    let s := if s.onLink l then
        s.updL l fun n => { n with reports := (n.reports.filter fun r => !(r.1 = p && r.2.count = c)) ++ [(p, rep)] }
      else s
    s.paceTry l p)

/-- R72, R142: on the release a waiting PACE retires one unit. -/
def execPaceComplete (l : Fin 3) (p : Fin 4) (s : State) : Out := .next (s.paceTry l p)

/-- R76, R138, R139, R50: at a boundary the stamps reached become pending and the exception that is then due is taken. -/
def execStampDue (l : Fin 3) (p : Fin 4) (s : State) : Out :=
  .next (if s.canRun l p then s.updP l p fun q => q.boundary.1 else s)

/-- R90: the report of a boundary passed leaves on the lane link. -/
def execCheckpointReport (l : Fin 3) (p : Fin 4) (s : State) : Out :=
  .next (match (s.pr l p).due with
    | [] => s
    | r :: rest =>
      let s := s.updP l p fun q => { q with due := rest }
      if s.onLink l then s.updL l fun n => { n with reports := n.reports ++ [(p, r)] } else s)

/-- Lane reset (02 R40, R55, R78, 05 R146): registers, counters, digests, granule table, interrupt controller; memory keeps its content. -/
def LaneS.resetL (n : LaneS) : LaneS := { LaneS.init with mem := n.mem }

/-- R40: a lane in BOOT is reset; pair 0 runs the boot ROM. -/
def State.laneReset (s : State) (l : Fin 3) : State := (s.updL l LaneS.resetL).set (laneField l) lBoot

/-- R40, R108: the reset of a lane that a start, a rejoin or a detach has put into BOOT; its checker tests change nothing. -/
def execLaneReset (l : Fin 3) (s : State) : Out := .next (if s.laneState l = lBoot then s.laneReset l else s)

/-! ## Lane-local page effects (R77, R151) -/

/-- The lane keeps its pairs alive: a store of a pair of it can retire. -/
def State.laneLive (s : State) (l : Fin 3) (p : Fin 4) : Bool :=
  let st := s.laneState l
  (st = lActive || st = lBoot || st = lDebug || st = lApprentice) && decide (p.val < s.nPairs)

/-- INTC_PEND: each 1 clears a pending bit. -/
def PairS.pendClear (q : PairS) (n v : Nat) : PairS :=
  { q with pend := (List.range 32).foldl (fun m i => if bitOf v i then clrBit m (32 * n + i) else m) q.pend }

/-- INTC_EN. -/
def PairS.enWrite (q : PairS) (n v : Nat) : PairS := { q with en := putBits q.en (32 * n) 32 v }

/-- CNT_CLR: counters 1 to 7. -/
def PairS.cntClear (q : PairS) (v : Nat) : PairS :=
  { q with cnt := q.cnt.filter fun e => !(1 ≤ e.1 && e.1 ≤ 7 && bitOf v e.1) }

/-- R151. -/
def execIntcPendClear (l : Fin 3) (p : Fin 4) (n : Fin 40) (v : BitVec 32) (s : State) : Out :=
  .next (if s.laneLive l p then s.updP l p fun q => q.pendClear n.val v.toNat else s)

/-- R151, R147. -/
def execIntcEnWrite (l : Fin 3) (p : Fin 4) (n : Fin 40) (v : BitVec 32) (s : State) : Out :=
  .next (if s.laneLive l p then s.updP l p fun q => q.enWrite n.val v.toNat else s)

/-- R77. -/
def execCntClrWrite (l : Fin 3) (p : Fin 4) (v : BitVec 32) (s : State) : Out :=
  .next (if s.laneLive l p then s.updP l p fun q => q.cntClear v.toNat else s)

end Sys2Proof.Machine
end

