-- ==== Sys2Proof/Machine/LaneDbg.lean ====
section
/-! DEFINITION. The lane-local pages (02 R77, 04 R128, R129, 05 R151, 23 R555) and the debug commands. -/

namespace Sys2Proof.Machine

/-! ## Debug page -/

/-- Halt at the next unit boundary, which is now. -/
def State.dbgHalt (s : State) (l : Fin 3) (p : Fin 4) : State :=
  if s.laneState l = lDebug && !(s.pr l p).halted then s.updP l p fun q => { q with halted := true, haltWhy := 1 } else s

def State.dbgResume (s : State) (l : Fin 3) (p : Fin 4) : State :=
  if s.laneState l = lDebug then s.updP l p fun q => { q with halted := false, haltWhy := 0, stepping := false } else s

def State.dbgStep (s : State) (l : Fin 3) (p : Fin 4) : State :=
  if s.laneState l = lDebug then s.updP l p fun q => { q with halted := false, haltWhy := 0, stepping := true } else s

/-- Legal DBG_REGSEL values; others are stored as 0. -/
def regselClamp (v : Nat) : Nat := if v % 1024 ≤ 64 ∨ 0x200 ≤ v % 1024 then v % 1024 else 0

/-- The register DBG_REGSEL selects. -/
def State.dbgSelRead (s : State) (l : Fin 3) (p : Fin 4) : Nat :=
  let q := s.pr l p
  let r := SMap.get q.dbg 0x048 0
  if r < 32 then (q.rg ⟨r % 32, Nat.mod_lt _ (by decide)⟩).toNat
  else if r < 64 then (q.rv ⟨r % 32, Nat.mod_lt _ (by decide)⟩).toNat
  else if r = 64 then q.pc.toNat
  else (s.srRead l p (r - 0x200)).toNat

/-- A write of DBG_REGDATA_HI: both halves go into the selected register of the halted pair. -/
def State.dbgRegdata (s : State) (l : Fin 3) (p : Fin 4) (hi : Nat) : State :=
  if s.laneState l = lDebug && (s.pr l p).halted then
    let q := s.pr l p
    let r := SMap.get q.dbg 0x048 0
    let v := SMap.get q.dbg 0x050 0 + hi % 2 ^ 32 * 2 ^ 32
    let w := BitVec.ofNat 64 v
    if r < 32 then s.updP l p fun q => if r = 0 then q else { q with g := SMap.put q.g r 0 w }
    else if r < 64 then s.updP l p fun q => { q with v := SMap.put q.v (r - 32) 0 w }
    else if r = 64 then s.updP l p fun q => { q with pc := w }
    else s.srWrite l p (r - 0x200) v
  else s

/-- Breakpoint n matches the program counter. -/
def PairS.bpHit (q : PairS) : Bool :=
  (List.range 4).any fun n =>
    let hi := SMap.get q.dbg (0x084 + 8 * n) 0
    bitOf hi 31 && decide (q.pc.toNat = SMap.get q.dbg (0x080 + 8 * n) 0 + hi % 16 * 2 ^ 32)

/-- A watchpoint matches an access of len bytes. -/
def PairS.wpHit (q : PairS) (addr len : Nat) (store : Bool) : Bool :=
  (List.range 2).any fun n =>
    let c := SMap.get q.dbg (0x0C4 + 8 * n) 0
    let a := SMap.get q.dbg (0x0C0 + 8 * n) 0 + c % 16 * 2 ^ 32
    let m := 2 ^ bitsOf c 4 6
    let k := bitsOf c 28 2
    (k = 3 || (k = 1 && !store) || (k = 2 && store)) && decide (a / m * m < addr + len) && decide (addr < a / m * m + m)

def execDbgHalt (l : Fin 3) (p : Fin 4) (s : State) : Out := .next (s.dbgHalt l p)
def execDbgResume (l : Fin 3) (p : Fin 4) (s : State) : Out := .next (s.dbgResume l p)
def execDbgStep (l : Fin 3) (p : Fin 4) (s : State) : Out := .next (s.dbgStep l p)
/-- R129. -/
def execDbgRegdataWrite (l : Fin 3) (p : Fin 4) (v : Nat) (s : State) : Out := .next (s.dbgRegdata l p v)

/-- R129: execution reaches an enabled breakpoint address. -/
def execBreakpointHit (l : Fin 3) (p : Fin 4) (s : State) : Out :=
  .next (if s.laneState l = lDebug && !(s.pr l p).halted && (s.pr l p).bpHit then
    s.updP l p fun q => { q with halted := true, haltWhy := 2, stepping := false } else s)

/-- R129: an access matches an enabled watchpoint. -/
def execWatchpointHit (l : Fin 3) (p : Fin 4) (addr len : Nat) (store : Bool) (s : State) : Out :=
  .next (if s.laneState l = lDebug && !(s.pr l p).halted && (s.pr l p).wpHit addr len store then
    s.updP l p fun q => { q with halted := true, haltWhy := 3, stepping := false } else s)

/-! ## Lane-local pages as a load or store sees them -/

/-- ASCII in address order: three letters and the pair's digit. -/
def laneId (a b c p : Nat) : Nat := a + b * 0x100 + c * 0x10000 + (0x30 + p) * 0x1000000

/-- A read of a lane-local register of pair t's page by offset. -/
def State.lanePageRead (s : State) (l : Fin 3) (r : Region) (off : Nat) : Nat :=
  match r with
  | .intc t =>
    if s.nPairs ≤ t then 0 else
    let q := s.pr l (pairIx t)
    if off = 0 then laneId 0x49 0x4E 0x54 t
    else if off = 4 then 1
    else if off = 8 then 1280
    else if off = 0x040 then q.thresh
    else if off = 0x044 then (match q.top with | some x => x.1 + x.2 * 2 ^ 16 + 2 ^ 31 | none => 0)
    else if 0x080 ≤ off ∧ off < 0x120 then bitsOf q.en (8 * (off - 0x080)) 32
    else if 0x120 ≤ off ∧ off < 0x1C0 then bitsOf q.pend (8 * (off - 0x120)) 32
    else 0
  | .cmp t =>
    if s.nPairs ≤ t then 0
    else if off = 0 then laneId 0x43 0x4D 0x50 t
    else if off = 4 then 1
    else if off = 8 then 2 + 0x1F * 16
    else if off = 0x040 then b2n (s.laneState l != lDebug)
    else 0
  | .cntp t =>
    if s.nPairs ≤ t then 0 else
    let q := s.pr l (pairIx t)
    if off = 0 then laneId 0x43 0x4E 0x54 t
    else if off = 4 then 1
    else if off = 8 then 8
    else if 0x040 ≤ off ∧ off < 0x080 then
      (if off % 8 = 0 then q.cev ((off - 0x040) / 8) % 2 ^ 32 else q.cev ((off - 0x040) / 8) / 2 ^ 32)
    else 0
  | .dbgp t =>
    if s.nPairs ≤ t then 0 else
    let q := s.pr l (pairIx t)
    if off = 0 then laneId 0x44 0x42 0x47 t
    else if off = 4 then 1
    else if s.laneState l ≠ lDebug then 0
    else if off = 0x044 then b2n q.halted + 2 * q.haltWhy
    else if off = 0x050 then s.dbgSelRead l (pairIx t) % 2 ^ 32
    else if off = 0x054 then s.dbgSelRead l (pairIx t) / 2 ^ 32
    else SMap.get q.dbg off 0
  | _ => 0

/-- A write of a lane-local register. -/
def State.lanePageWrite (s : State) (l : Fin 3) (r : Region) (off v : Nat) : State :=
  match r with
  | .intc t =>
    if s.nPairs ≤ t then s
    else if off = 0x040 then s.updP l (pairIx t) fun q => { q with thresh := v % 16 }
    else if 0x080 ≤ off ∧ off < 0x120 then s.updP l (pairIx t) fun q => q.enWrite ((off - 0x080) / 4) v
    else if 0x120 ≤ off ∧ off < 0x1C0 then s.updP l (pairIx t) fun q => q.pendClear ((off - 0x120) / 4) v
    else s
  | .cntp t => if t < s.nPairs ∧ off = 0x0C0 then s.updP l (pairIx t) fun q => q.cntClear v else s
  | .dbgp t =>
    let p := pairIx t
    let put (x : Nat) : State := s.updP l p fun q => { q with dbg := SMap.put q.dbg off 0 x }
    if s.nPairs ≤ t ∨ s.laneState l ≠ lDebug then s
    else if off = 0x040 then
      let s := if bitOf v 0 then s.dbgHalt l p else s
      let s := if bitOf v 1 then s.dbgResume l p else s
      if bitOf v 2 then s.dbgStep l p else s
    else if off = 0x048 then put (regselClamp v)
    else if off = 0x050 then put v
    else if off = 0x054 then s.dbgRegdata l p v
    else if 0x080 ≤ off ∧ off < 0x0A0 then (if off % 8 = 0 then put (v / 4 * 4) else put (v % 16 + bitsOf v 31 1 * 2 ^ 31))
    else if 0x0C0 ≤ off ∧ off < 0x0D0 then
      (if off % 8 = 0 then put v else put (v % 16 + min 36 (bitsOf v 4 6) * 16 + bitsOf v 28 2 * 2 ^ 28))
    else s
  | _ => s

/-- R555: an access at a level is refused. -/
def lanePageRefused (r : Region) (level : Nat) (write : Bool) (off : Nat) : Bool :=
  match r with
  | .intc _ => level = 0
  | .cmp _ => write && level < 2
  | .cntp _ => write && (level = 0 || (level = 1 && off ≠ 0x0C0))
  | .dbgp _ => level < 2
  | _ => false

end Sys2Proof.Machine
end

