-- ==== Sys2Proof/Machine/Courier.lean ====
section
/-! DEFINITION. The Courier (05): stamps, releases of PACE, their way to the lanes, hub store faults (02 R50). -/

namespace Sys2Proof.Machine

/-- The lanes that receive stamps and releases: the voters and an apprentice after its window (05 R144). -/
def State.listeners (s : State) : List (Fin 3) :=
  allLanes.filter fun l => s.voters.contains l || (s.laneState l == lApprentice && s.get LM_REJ_STAT_0 == 4)

/-- A hub write of a pair refused after release: a hub store fault to be stamped (02 R50, 05 R133). -/
def State.storeFault (s : State) (p : Fin 4) (seq addr : Nat) : State :=
  s.updC p fun c => { c with refused := c.refused ++ [(seq, addr)] }

/-- COUR_PAIRSTAT of a pair, from the stamps outstanding. -/
def State.courShow (s : State) (p : Fin 4) : State :=
  let c := s.cr p
  let s := s.set (COUR_PAIRSTAT_0 p.val) c.out.length
  (s.setB (COUR_PAIRSTAT_12 p.val) c.pace.isSome).raiseTo (COUR_OCC_0 p.val) c.out.length

/-- Pair p counts as started (R132). -/
def State.courRunning (s : State) (p : Fin 4) : Bool := s.flag (COUR_PAIRSTAT_13 p.val)

/-- H of a pair (R134). -/
def State.courH (s : State) (p : Fin 4) : Nat := s.get64 (COUR_HIGH_LO_0 p.val) (COUR_HIGH_HI_0 p.val)

/-- A stamp or a release to any pair ends the doze (20 R490). -/
def State.undoze (s : State) : State := s.updPw fun w => { w with dozing := false }

/-- Form the release for the matched PACE report (R141): it names the last stamp formed; it carries the outstanding stamps with D above the
count, by the order in which they were formed, and they note the PACE. -/
def State.release (s : State) (p : Fin 4) : State :=
  match (s.cr p).pace with
  | none => s
  | some r =>
    let s := s.updC p fun c =>
      { c with pace := none
               out := c.out.map fun o => if r.count < o.st.due then { o with carried := some r.count } else o
               rels := c.rels ++ s.listeners.map fun l =>
                 (l, r.count, (c.num + 255) % 256, (c.out.filter fun o => r.count < o.st.due).map (·.st.num)) }
    s.undoze.courShow p

/-- The stamp carries a source of the enable bits, or a hub store fault. -/
def Stamp.serves (st : Stamp) (en : Nat) : Bool := !st.faults.isEmpty || st.srcs.any fun x => bitOf en x.1

/-- R141: the release is due on what is outstanding now. -/
def State.releaseTry (s : State) (p : Fin 4) : State :=
  match (s.cr p).pace with
  | none => s
  | some r =>
    if s.flag COURIER_suspended then s
    else if r.ready || (s.cr p).out.any (fun o => decide (r.count < o.st.due) && o.st.serves r.en) then s.release p else s

/-- Form one stamp (R133, R134). -/
def State.formStamp (s : State) (p : Fin 4) : State :=
  let c := s.cr p
  let take := (bitList 1280 c.waiting).take 16
  let d := s.courH p + s.get COUR_LEAD_0
  let st : Stamp := { num := c.num, due := d, srcs := take.map fun n => (n, (s.route n).2.2), faults := c.refused }
  let ls := s.listeners
  let s := s.updC p fun c =>
    { c with waiting := take.foldl clrBit c.waiting, refused := [], num := (c.num + 1) % 256,
             out := c.out ++ [{ st := st, carried := none }], flits := c.flits ++ ls.map fun l => (l, st) }
  let s := (s.set64 (COUR_LASTD_LO_0 p.val) (COUR_LASTD_HI_0 p.val) d).count (COUR_STAMPS_0 p.val)
  (s.undoze.courShow p).releaseTry p

/-- R133, R137, R145: the Courier forms a delivery stamp for the pair where something waits; a full table delays it. -/
def State.stampTry (s : State) (p : Fin 4) : State :=
  let c := s.cr p
  if !s.courRunning p || s.flag COURIER_suspended || (c.waiting = 0 && c.refused.isEmpty) then s
  else if 256 ≤ c.out.length then
    (s.raiseInt 0x0A 1).recordSec p.val 0x0A02 2 [p.val, s.courH p % 2 ^ 32]
  else s.formStamp p

/-- R133. -/
def execStampFormation (p : Fin 4) (s : State) : Out := .next (s.stampTry p)

/-- R136, R141: a stamp or, where no stamp of that number is on its way, the release naming it reaches a lane. A lane at or past D
does not take the stamp; its stamp-late flit is STAMP_LATE_FLIT. -/
def State.stampArrive (s : State) (l : Fin 3) (p : Fin 4) (num : Nat) : State :=
  let c := s.cr p
  match c.flits.find? (fun x => x.1 = l && x.2.num = num) with
  | some x =>
    let s := s.updC p fun c => { c with flits := dropFirst (fun y => y.1 = l && y.2.num = num) c.flits }
    if x.2.due ≤ (s.pr l p).cev 0 then s else s.updP l p fun q => { q with stamps := q.stamps ++ [x.2] }
  | none =>
    match c.rels.find? (fun x => x.1 = l && x.2.2.1 = num) with
    | some x =>
      let s := s.updC p fun c => { c with rels := dropFirst (fun y => y.1 = l && y.2.2.1 = num) c.rels }
      s.updP l p fun q => { q with release := some x.2 }
    | none => s

/-- R136, R141. -/
def execStampArrivalAtLane (l : Fin 3) (p : Fin 4) (num : Nat) (s : State) : Out := .next (s.stampArrive l p num)

/-- R144: nothing more goes to a lane that has left the vote. -/
def State.courDropLane (s : State) (l : Fin 3) : State :=
  s.each allPairs fun s p => s.updC p fun c => { c with flits := c.flits.filter fun x => x.1 ≠ l, rels := c.rels.filter fun x => x.1 ≠ l }

/-- R137: stamps that every voting lane has passed free. -/
def State.stampsFree (s : State) (p : Fin 4) : State :=
  let hs := s.voters.map fun l => (s.assay.high.get l).get p
  let gone (o : OutStamp) : Bool :=
    !hs.isEmpty && hs.all fun h => decide (o.st.due ≤ h) || (match o.carried with | some c => decide (c < h) | none => false)
  (s.updC p fun c => { c with out := c.out.filter fun o => !gone o }).courShow p

/-- R146: waiting bits, stamps and releases of every pair are discarded. -/
def State.courDiscard (s : State) : State :=
  let s := s.setCour (Quad.all CourS.init)
  s.each allPairs fun s p => s.courShow p

end Sys2Proof.Machine
end

