-- ==== Sys2Proof/Machine/FioLink.lean ====
section
/-! DEFINITION. The island links (13 R339 to R342, R346, R347, R351, R356): downlink frames as the link master sends them, what an island does
on one, and its answer. `wire` keeps island i's last downlink frame at 32 + i and its last uplink frame at 48 + i. -/

namespace Sys2Proof.Machine

def State.il (s : State) (i : Nat) : IslS := SMap.get s.isl i IslS.init
def State.updIl (s : State) (i : Nat) (f : IslS → IslS) : State := { s with isl := SMap.put s.isl i IslS.init (f (s.il i)) }

/-- A frame with its CRC-16 (R340). -/
def islFrame (b : List Nat) : List Byte :=
  let l := b.map (BitVec.ofNat 8)
  l ++ beBytes 2 (crc16 0xFFFF l)

/-- Eight 2-bit fields (R341). -/
def pack2 (f : Nat → Nat) : Nat := ((List.range 8).map fun n => f n % 4 * 4 ^ n).sum

/-- Eight bits. -/
def pack1 (f : Nat → Bool) : Nat := ((List.range 8).map fun n => b2n (f n) * 2 ^ n).sum

def IslS.chan (q : IslS) (n : Nat) : IChan := SMap.get q.chans n IChan.init
def IslS.setChan (q : IslS) (n : Nat) (c : IChan) : IslS := { q with chans := SMap.put q.chans n IChan.init c }

/-- Filtered state of a channel (R347). -/
def IChan.state (c : IChan) : Nat := if c.broken then 2 else if c.closed then 1 else 0

/-- A cause of the fault bit holds (R356). -/
def IslS.cause (q : IslS) : Bool := q.latched ≠ 0 || q.supply || q.halt || q.wet

/-- The fault bit rises with a cause. -/
def IslS.judge (q : IslS) : IslS := { q with fault := q.fault || q.cause }

/-- What the island's switches drive: nothing while it is not loaded, halted, tripped or de-energised (R344, R19, R38). -/
def IslS.drive (q : IslS) : Nat := if q.alive && !q.halt && !q.tripped && !q.dead then q.applied - (q.applied &&& q.latched) else 0

/-- Class of a pulse current in µA (R346). -/
def currentClass (wb : Bool) (ua : Nat) : Nat := if 5000 ≤ ua then 1 else if ua < 400 ∧ wb then 2 else 0

/-- The counter filter at an input sample (R347). -/
def IChan.sample (c : IChan) (first : Bool) (raw : Nat) : IChan :=
  let cc := if first then (if raw = 1 then c.lim else 0) else if raw = 1 then min (c.cc + 1) c.lim else min (c.cc - 1) c.lim
  let cb := if first then (if raw = 2 then c.brk else 0) else if raw = 2 then min (c.cb + 1) c.brk else min (c.cb - 1) c.brk
  { c with cc := cc, cb := cb
           closed := if cc = c.lim then true else if cc = 0 then false else c.closed
           broken := if cb = c.brk then true else if cb = 0 then false else c.broken }

/-- An input sample of pulse currents in µA. -/
def IslS.sample (q : IslS) (ua : List Nat) : IslS :=
  let cls (n : Nat) : Nat := currentClass (q.chan n).wb (ua.getD n 0)
  let wet := (List.range 8).any fun n => cls n = 1 && decide (ua.getD n 0 < 9000)
  let p := (List.range 8).foldl (fun p n => p.setChan n ((p.chan n).sample q.first (cls n))) q
  { p with raw := pack2 cls, first := false, sampled := true, wet := wet }

/-- Read-back class of an output voltage, in percent of the field supply (R354). -/
def rbClass (pc : Nat) : Nat := if 70 ≤ pc then 1 else if pc ≤ 20 then 0 else 2

/-- The island's answer (R341); `volts`: the output voltages measured. -/
def IslS.answer (q : IslS) (output : Bool) (volts : List Nat) : List Byte :=
  let head := b2n q.fault * 8 + b2n q.halt * 4
  if output then
    let rb := pack2 fun n => rbClass (volts.getD n 0)
    islFrame [0x90 + head + b2n q.held.isSome * 2, q.good, rb / 256, rb % 256, q.applied, q.snum]
  else
    let st := pack2 fun n => (q.chan n).state
    islFrame [0x80 + head, q.good, st / 256, st % 256, q.raw / 256, q.raw % 256]

/-- A downlink frame leaves (R340): type and flags, bytes 2 and 3, the 16-bit word; `ask`: an uplink frame is expected. -/
def State.dlSend (s : State) (i : Nat) (b0 b2 b3 w : Nat) (ask : Bool) : State :=
  let q := s.il i
  let s := s.updIl i fun q => { q with seq := (q.seq + 1) % 256, unechoed := if ask then (q.unechoed ++ [q.seq]).drop (q.unechoed.length - 254) else q.unechoed }
  s.setWire (32 + i) (islFrame [b0, q.seq, b2, b3, w / 256 % 256, w % 256])

/-- The island answers on the line. -/
def State.ulSend (s : State) (i : Nat) (volts : List Nat) : State :=
  s.setWire (48 + i) ((s.il i).answer (decide (8 ≤ i)) volts)

/-- A downlink frame that asks for an answer, and what the island does with it where it arrives good. -/
def State.dlAsk (s : State) (i b0 b2 b3 : Nat) (volts : List Nat) (f : IslS → IslS) : State :=
  let n := (s.il i).seq
  let s := s.dlSend i b0 b2 b3 0 true
  if (s.il i).linked ∧ (s.il i).alive then (s.updIl i fun q => (f { q with good := n }).judge).ulSend i volts else s

/-- The link runs: running, stale or halted. -/
def State.islOn (s : State) (i : Nat) : Bool := s.islandPresent i && decide (2 ≤ s.get (FIO_state i)) && decide (s.get (FIO_state i) ≤ 4)

/-- The output islands. -/
def outIslands : List Nat := [8, 9, 10, 11]

/-- A de-energise frame (R357): the outputs are off until the next cold start. -/
def State.deEnergise (s : State) (i : Nat) (volts : List Nat) : State := s.dlAsk i 0x30 0 0 volts fun q => { q with dead := true, held := none }

/-- Entry into the passive state: a de-energise frame to every output island (01 R38). -/
def State.fioPassive (s : State) : State := s.each outIslands fun s i => if s.islOn i then s.deEnergise i [] else s

/-- R345: the pulse returns to the train-time grid. -/
def State.fioRealign (s : State) : State := s.setIsl (s.isl.map fun e => (e.1, { e.2 with resync := true }))

end Sys2Proof.Machine
end

