-- ==== Sys2Proof/Machine/Image.lean ====
section
/-! DEFINITION. The data image (06 R163 to R167, R171, R173 to R175): tables and their lock, staging and its merge rules, commits,
snapshots, staleness, fallback, the retain area, the patch list. -/

namespace Sys2Proof.Machine


/-- Descriptor v as hub SRAM holds it (R164). -/
def State.desc (s : State) (v : Nat) : Desc :=
  let w0 := s.hubNat (16 * v) 4
  let w1 := s.hubNat (16 * v + 4) 4
  let w2 := s.hubNat (16 * v + 8) 4
  let w3 := s.hubNat (16 * v + 12) 4
  { v := v, off := bitsOf w0 0 22, size := 4 * (bitsOf w0 22 8 + 1), kind := bitsOf w0 30 2,
    owner := bitsOf w1 0 16, wgroup := bitsOf w1 16 8, cls := bitsOf w1 24 3, merge := bitsOf w1 27 2,
    retain := bitOf w1 29, mirror := bitOf w1 30, patch := bitOf w1 31,
    fresh := bitsOf w2 0 24, type := bitsOf w2 24 2, fallback := bitOf w2 26, safety := bitOf w2 27,
    rsv := bitsOf w2 28 4 != 0 || w3 != 0 }

/-- Bytes of a value record (R166). -/
def Desc.len (d : Desc) : Nat := 16 + d.size * (if d.fallback then 3 else 2)
/-- Offset of the value view. -/
def Desc.val (d : Desc) : Nat := d.off + 16
/-- Offset of the staged view. -/
def Desc.stg (d : Desc) : Nat := d.off + 16 + d.size
/-- Offset of the fallback view. -/
def Desc.fb (d : Desc) : Nat := d.off + 16 + 2 * d.size

/-- A producer identity of kind 0 to 5 within its index range (R165). -/
def identOk (i : Nat) : Bool :=
  let k := i / 8192
  let x := i % 8192
  if k = 0 then decide (x < 32) else if k = 1 then decide (x < 64) else if k = 2 then decide (x < 4096)
  else if k = 3 then true else if k = 4 then decide (x < 2048) else if k = 5 then decide (x < 5) else false

/-- The members of writer group g; group 0 is empty (R163). -/
def State.groupIds (s : State) (g : Nat) : List Nat :=
  if g = 0 then [] else ((List.range 8).map fun k => s.hubNat (0x100000 + 16 * g + 2 * k) 2).filter (· ≠ 0xFFFF)

/-- Two records overlap. -/
def Desc.overlaps (a b : Desc) : Bool := decide (a.off < b.off + b.len) && decide (b.off < a.off + a.len)

/-- The reason a descriptor is refused, 0 none (R164), given the accepted ones of lower index and their retained bytes. -/
def State.descRefusal (s : State) (lower : List Desc) (ret : Nat) (d : Desc) : Nat :=
  if d.rsv then 8
  else if d.off < 0x102000 ∨ d.off % 8 ≠ 0 ∨ 0x400000 < d.off + d.len then 1
  else if !identOk d.owner || !(s.groupIds d.wgroup).all identOk then 3
  else if d.merge = 3 ∨ d.type = 3 ∨ (d.merge ≠ 0 ∧ d.size ≠ 4 ∧ d.size ≠ 8) ∨ (d.merge = 0 ∧ d.wgroup ≠ 0) then 4
  else if d.patch && d.safety then 6
  else if d.retain && d.fallback then 7
  else if lower.any d.overlaps then 2
  else if d.retain && decide (262080 < ret + 4 + d.size) then 5
  else 0

/-- The scan of a lock: the used descriptors accepted in reverse, retained bytes with their entry headers, the first refusal. -/
structure LockScan where
  acc : List Desc
  ret : Nat
  bad : Option (Nat × Nat)

def State.lockStep (s : State) (k : LockScan) (v : Nat) : LockScan :=
  if k.bad.isSome then k else
  let d := s.desc v
  if d.kind = 3 then k else
  let r := s.descRefusal k.acc k.ret d
  if r ≠ 0 then { k with bad := some (v, r) }
  else { k with acc := d :: k.acc, ret := if d.retain then k.ret + 4 + d.size else k.ret }

def State.lockScan (s : State) : LockScan := (List.range 65536).foldl s.lockStep { acc := [], ret := 0, bad := none }

/-- Every command switch of a safety output opens at once (01 R30); nothing staged closes one at the next hallmark edge. -/
def State.soOpen (s : State) : State := (s.set SO_STATE_0 0).updSo fun o => { o with staged := [], limited := 0 }

/-- The service-only state (21 R513), with its cause in LK_SVC; every command switch opens. -/
def State.serviceOnly (s : State) (cause : Nat) : State :=
  let s := s.soOpen.sysfailOut
  ((s.set SYS_svc_only 1).set LOCK_svc_only 1).set LK_SVC_0 (if s.get LK_SVC_0 = 0 then cause else s.get LK_SVC_0)

/-! ## The retain area (R171) -/

/-- The area as bytes. -/
def retBase : Nat := 0xF80000

/-- Position in the retain area of variable d's entry: the entries stand in ascending index (log entry 13). -/
def State.retPos (s : State) (d : Desc) : Nat :=
  64 + ((s.img.vars.filter fun e => e.retain && decide (e.v < d.v)).map fun e => 4 + e.size).sum

/-- Rewrite a retained variable's entry. -/
def State.retEntry (s : State) (d : Desc) : State :=
  if d.retain then
    s.hubWrite (retBase + s.retPos d) (leBytes 2 d.v ++ leBytes 1 (d.size / 4 - 1) ++ [0] ++ s.hubRead d.val d.size)
  else s

/-- CRC-32C of a retain area whose CRC field counts as 0. -/
def retCrc (b : List Byte) : Nat := crc32c 0xFFFFFFFF (b.take 60 ++ [0, 0, 0, 0] ++ b.drop 64) ^^^ 0xFFFFFFFF

/-- Seal the area: header and CRC. -/
def State.retSeal (s : State) : State :=
  let n := (s.img.vars.filter (·.retain)).length
  let s := s.hubWrite retBase (leBytes 4 0x41544552 ++ leBytes 4 s.img.cfgId ++ leBytes 4 (s.get LG_PCYCLE_0) ++ leBytes 4 n)
  let s := s.hubZero (retBase + 24) 40
  s.hubSet (retBase + 60) 4 (retCrc (s.hubRead retBase 262144))

/-- The sealed area goes to the older of the retain partition's two slots. -/
def State.retSave (s : State) : State :=
  let s := s.retSeal
  let img : SMap Byte := (s.hub.filter fun e => retBase ≤ e.1 && e.1 < retBase + 262144).map fun e => (e.1 - retBase, e.2)
  s.updI fun i => { i with slots := img :: i.slots.take 1 }

/-- Bytes of a slot. -/
def slotRead (m : SMap Byte) (off n : Nat) : List Byte := (List.range n).map fun i => SMap.get m (off + i) 0

/-- A slot with valid magic and CRC. -/
def slotValid (m : SMap Byte) : Bool :=
  leAt (slotRead m 0 4) 0 4 == 0x41544552 && leNat (slotRead m 60 4) == retCrc (slotRead m 0 262144)

/-- The newest valid slot of the configuration given. -/
def State.retSlot (s : State) (cfg : Nat) : Option (SMap Byte) :=
  s.img.slots.find? fun m => slotValid m && leNat (slotRead m 4 4) == cfg

/-- The entries of a slot: variable, value. -/
def slotEntries (m : SMap Byte) : Nat → Nat → List (Nat × List Byte)
  | 0, _ => []
  | n + 1, p =>
    let k := 4 * (leNat (slotRead m (p + 2) 1) + 1)
    (leNat (slotRead m p 2), slotRead m (p + 4) k) :: slotEntries m n (p + 4 + k)

/-! ## Value records (R166) -/

def State.hdr (s : State) (d : Desc) : Nat := s.hubNat d.off 2
def State.setHdr (s : State) (d : Desc) (v : Nat) : State := s.hubSet d.off 2 v

/-- State of the committed value: 0 initial, 1 fresh, 2 stale, 3 restored. -/
def State.varState (s : State) (d : Desc) : Nat := bitsOf (s.hdr d) 0 2

/-- Write the header of a new committed value. -/
def State.putHdr (s : State) (d : Desc) (status writer cycle time : Nat) : State :=
  s.hubWrite d.off (leBytes 2 status ++ leBytes 2 writer ++ leBytes 4 cycle ++ leBytes 8 time)

/-- The descriptor of a locked variable. -/
def State.var (s : State) (v : Nat) : Option Desc := s.img.vars.find? fun d => d.v = v

/-- Committed value of a variable. -/
def State.committed (s : State) (d : Desc) : List Byte := s.hubRead d.val d.size

/-- Merged staged value. -/
def State.staged (s : State) (d : Desc) : List Byte := s.hubRead d.stg d.size

/-- Staging emptied: the staged view reads as the committed value, status bits 3 to 5 clear. -/
def State.unstage (s : State) (d : Desc) : State :=
  let s := s.setHdr d (s.hdr d % 8)
  let s := if SMap.find? s.img.stage d.v = none then s else s.hubWrite d.stg (s.committed d)
  s.updI fun i => { i with stage := SMap.erase i.stage d.v }

/-- CYC_CYCNT of a class. -/
def State.cycnt (s : State) (j : Nat) : Nat := s.get (CYC_CYCNT_0 j)

/-- Commit one variable at an edge at time t: a staged value that a write was accepted into becomes committed. On a standby a mirrored or
retained variable takes no value of its own (17 R427). -/
def State.commitVar (s : State) (t : Nat) (d : Desc) : State :=
  match SMap.find? s.img.stage d.v with
  | some g =>
    if s.get MIRROR_state = 3 ∧ (d.mirror ∨ d.retain) then (s.unstage d).count MIR_LOCALDROP_0 else
    let s := s.hubWrite d.val (s.staged d)
    let s := s.putHdr d (if g.fb then 5 else 1) g.writer (s.cycnt d.cls) (g.vtime.getD t)
    (s.updI fun i => { i with stage := SMap.erase i.stage d.v }).retEntry d
  | none => s.setHdr d (s.hdr d % 8)

/-- Variables of a class and kind. -/
def State.varsOf (s : State) (kind j : Nat) : List Desc := s.img.vars.filter fun d => d.kind = kind && d.cls = j

/-- Hallmark commit of output and internal variables (kind 0), or sample snapshot of inputs (kind 1), of one class. -/
def State.commitClass (s : State) (kind j t : Nat) : State := s.each (s.varsOf kind j) fun s d => s.commitVar t d

/-- R160 step 2: an overrun discards the staging of the class's output and internal variables. -/
def State.discardClass (s : State) (j : Nat) : State := s.each (s.varsOf 0 j) State.unstage

/-- Fallback committed: at a start (status 4, cycle and time 0; R169) or by escalation action 1 (status 5; R161). -/
def State.fallbackVar (s : State) (status cycle t : Nat) (d : Desc) : State :=
  let s := s.hubWrite d.val (s.hubRead d.fb d.size)
  let s := s.hubWrite d.stg (s.hubRead d.fb d.size)
  (s.updI fun i => { i with stage := SMap.erase i.stage d.v }).putHdr d status 0xFFFF cycle t

/-- R161 action 1. -/
def State.fallbackClass (s : State) (j t : Nat) : State :=
  s.each ((s.varsOf 0 j).filter (·.fallback)) fun s d => s.fallbackVar 5 (s.cycnt j) t d

/-- R169: before the first boundary staging is empty and outputs with a fallback are set to it. -/
def State.imgStart (s : State) : State :=
  let s := s.each s.img.vars State.unstage
  let s := s.each (s.img.vars.filter fun d => d.kind = 0 && d.fallback) fun s d => s.fallbackVar 4 0 0 d
  (s.updI fun i => { i with patch := none }).set DIMG_PATCH_STAT_0 0

/-- R166: at boundary time t a fresh value older than its limit becomes stale. -/
def State.staleVar (s : State) (t : Nat) (d : Desc) : State :=
  let h := s.hdr d
  if d.fresh ≠ 0 ∧ h % 4 = 1 ∧ s.hubNat (d.off + 8) 8 + d.fresh * 10000 < t then s.setHdr d (h - 1 + 2) else s

/-- A unit marks a fresh input stale; its value is kept (13 R343, 14 R374). -/
def State.markStale (s : State) (v : Nat) : State :=
  match s.var v with
  | some d => if s.varState d = 1 then s.setHdr d (s.hdr d + 1) else s
  | none => s

/-! ## The lock (R164) -/

/-- Restore a retained variable (R168, R171). -/
def State.restoreVar (s : State) (e : Nat × List Byte) : State :=
  match s.var e.1 with
  | some d =>
    if d.retain && decide (e.2.length = d.size) then
      ((s.hubWrite d.val e.2).hubWrite d.stg e.2).putHdr d 3 0xFFFF 0 0
    else s
  | none => s

/-- A table that passes: locked; values initial, or restored after a warm start, or as they stood after a wake (R168). -/
def State.lockTake (s : State) (k : LockScan) : State :=
  let ds := k.acc.reverse
  let kind := s.get CYC_START_0
  let s := (((s.set DIMG_table 1).set DIMG_LOCK_STAT_0 0).set DIMG_LOCK_STAT_16 0).updI fun i => { i with vars := ds, stage := [] }
  let s := ((s.set DIMG_NVAR_0 ds.length).set DIMG_USED_0 (ds.map Desc.len).sum).set DIMG_RETAIN_0 k.ret
  if kind = 2 then s else
  let s := s.each ds fun s d => (s.putHdr d 0 0xFFFF 0 0).hubWrite d.stg (s.committed d)
  let s := s.set DIMG_RETAIN_24 0
  if kind = 1 then
    match s.retSlot s.img.cfgId with
    | some m => (s.each (slotEntries m (leNat (slotRead m 12 4)) 64) State.restoreVar).set DIMG_RETAIN_24 1
    | none => s
  else s

/-- DIMG_LOCK written 1. -/
def State.imgLock (s : State) : State :=
  if s.get DIMG_table = 1 then s else
  let k := s.lockScan
  match k.bad with
  | some (v, r) =>
    let s := ((s.set DIMG_table 2).set DIMG_LOCK_STAT_0 v).set DIMG_LOCK_STAT_16 r
    (s.record 0x0C04 4 [v, r, 0, s.cycnt (s.desc v).cls]).serviceOnly 3
  | none => s.lockTake k


/-! ## Writes to a value view (R167) -/

/-- The class state. -/
def State.cls (s : State) (j : Nat) : ClassS := SMap.get s.cyc.cls j ClassS.init

/-- A write to the variable falls in a late period (R154, R160), or its class is disabled (R176). -/
def State.isLate (s : State) (d : Desc) : Bool :=
  (s.flag CYCLE_run && !s.flag (CYC_CFG_21 d.cls)) || (d.kind == 0 && (s.cls d.cls).late)

/-- A late write (R167). -/
def State.lateWrite (s : State) (d : Desc) : State :=
  let s := ((s.count DIMG_LATE_0).set DIMG_LATE_LAST_0 d.v).setHdr d (setBit (s.hdr d) 5)
  s.raiseInt 0x0C 1

/-- A write of an identity the rule does not admit (R167). -/
def State.rejectWrite (s : State) (d : Desc) (ident : Nat) : State :=
  let s := (((s.count DIMG_reject_count).set DIMG_REJ_LAST_0 d.v).set DIMG_REJ_LAST_16 ident).setHdr d (setBit (s.hdr d) 5)
  (s.raiseInt 0x0C 0).record 0x0C03 2 [d.v, s.get DIMG_reject_count, 0, s.cycnt d.cls]

/-- The merge of a write of a whole value with the staged one, for rules 1 and 2: the value, and whether the write is the one that stands. Of two
writes of one writer at one time the later stands (log entry 13). -/
def Desc.mergeVal (d : Desc) (old new : List Byte) (g : Option VStage) (ident wtime : Nat) : List Byte × Bool :=
  match g with
  | none => (new, true)
  | some g =>
    if d.merge = 1 then
      let a := leNat old
      let b := leNat new
      let w := 8 * d.size
      let m := if d.type = 0 then min a b else if d.type = 1 then unsint w (min (sint w a) (sint w b)) else a &&& b
      (leBytes d.size m, true)
    else if g.wtime < wtime ∨ (g.wtime = wtime ∧ ident ≤ g.writer) then (new, true) else (old, false)

/-- An accepted write of bytes at offset k of the value. -/
def State.acceptWrite (s : State) (d : Desc) (ident wtime : Nat) (vt : Option Nat) (k : Nat) (bytes : List Byte) : State :=
  let g := SMap.find? s.img.stage d.v
  let h := s.hdr d
  let s := if bitOf h 3 then s.count DIMG_MERGED_0 else s
  let s := s.setHdr d (if bitOf h 3 then setBit h 4 else setBit h 3)
  let new : VStage := { writer := ident, wtime := wtime, vtime := vt, fb := false }
  let keep (s : State) (n : VStage) : State :=
    s.updI fun i => { i with stage := SMap.insert (SMap.erase i.stage d.v) d.v n }
  if d.merge = 0 then keep (s.hubWrite (d.stg + k) bytes) new
  else
    let (v, stands) := d.mergeVal (s.staged d) bytes g ident wtime
    let s := s.hubWrite d.stg v
    if stands then keep s new else s

/-- What becomes of a write: accepted into staging, discarded, or refused with a hub store fault. -/
inductive WriteRes where
  | accepted | discarded | fault
deriving DecidableEq, Repr

/-- A write judged (R167); a partial write under rules 1 and 2 is a hub store fault. -/
def State.judgeWrite (s : State) (d : Desc) (ident wtime : Nat) (vt : Option Nat) (k : Nat) (bytes : List Byte) : State × WriteRes :=
  if s.isLate d then (s.lateWrite d, .discarded)
  else if d.merge ≠ 0 ∧ (k ≠ 0 ∨ bytes.length ≠ d.size) then (s, .fault)
  else if ident = d.owner ∨ (d.merge ≠ 0 ∧ (s.groupIds d.wgroup).contains ident) then (s.acceptWrite d ident wtime vt k bytes, .accepted)
  else (s.rejectWrite d ident, .discarded)

/-- The variables whose record a range of hub SRAM touches. -/
def State.touched (s : State) (off n : Nat) : List Desc :=
  s.img.vars.filter fun d => decide (d.off < off + n) && decide (off < d.off + d.len)

/-- A lane's write in the data image that its windows allow (R164, R166, R173). -/
def State.imgLaneWrite (s : State) (tenant off : Nat) (bytes : List Byte) : State × WriteRes :=
  let n := bytes.length
  if s.get DIMG_table = 1 ∧ off < 0x101000 then (s, .fault)
  else if s.img.patch.isSome ∧ off < 0x102000 ∧ 0x101000 < off + n then (s, .fault)
  else match s.touched off n with
    | [] => (s.hubWrite off bytes, .accepted)
    | [d] =>
      if d.kind = 2 ∨ off < d.val ∨ d.stg < off + n then (s, .fault)
      else s.judgeWrite d tenant s.now none (off - d.val) bytes
    | _ => (s, .fault)

/-- A hub unit's write of a variable (R165, R167). Constants accept no unit's write. -/
def State.imgWriteRaw (s : State) (ident v wtime : Nat) (vt : Option Nat) (bytes : List Byte) : State × WriteRes :=
  match s.var v with
  | some d => if d.kind = 2 ∨ d.size < bytes.length then (s, .discarded) else s.judgeWrite d ident wtime vt 0 bytes
  | none => (s, .discarded)

/-- The safe message layer writes a destination's fallback value into its staging (16 R413). -/
def State.stageFallback (s : State) (v : Nat) : State :=
  match s.var v with
  | some d =>
    let r := s.imgWriteRaw 0xA002 v s.now none (s.hubRead d.fb d.size)
    if r.2 = .accepted then
      r.1.updI fun i => { i with stage := SMap.insert (SMap.erase i.stage v) v { writer := 0xFFFF, wtime := s.now, vtime := none, fb := true } }
    else r.1
  | none => s

/-! ## The patch list (R173 to R175) -/

/-- Patch list entry e: variable, offset in the value, byte mask, data. -/
def State.patchEntry (s : State) (e : Nat) : Nat × Nat × Nat × List Byte :=
  let o := 0x101000 + 16 * e
  (s.hubNat o 2, s.hubNat (o + 2) 2, s.hubNat (o + 4) 1, s.hubRead (o + 8) 8)

/-- Highest enabled byte. -/
def topBit (m : Nat) : Nat := (bitList 8 m).foldl max 0

/-- Why an entry is refused, 0 none (R174). -/
def State.patchRefusal (s : State) (e : Nat) : Nat :=
  let (v, o, m, _) := s.patchEntry e
  match s.var v with
  | none => 1
  | some d => if !d.patch then 2 else if m ≠ 0 ∧ d.size ≤ o + topBit m then 3 else if m = 0 then 4 else 0

def State.patchStat (s : State) (st entry reason : Nat) : State :=
  ((s.set DIMG_PATCH_STAT_0 st).set DIMG_PATCH_STAT_4 entry).set DIMG_PATCH_STAT_12 reason

/-- DIMG_PATCH_CMD arm. -/
def State.patchArm (s : State) : State :=
  if s.img.patch.isSome then s else
  let n := s.get DIMG_PATCH_CTL_0
  let j := s.get DIMG_PATCH_CTL_12
  match (List.range n).find? fun e => s.patchRefusal e ≠ 0 with
  | some e =>
    let r := s.patchRefusal e
    ((s.patchStat 3 e r).raiseInt 0x0C 3).record 0x0C02 3 [e, r, 0, s.cycnt j]
  | none => (s.patchStat 1 0 0).updI fun i => { i with patch := some (n, j) }

/-- DIMG_PATCH_CMD cancel. -/
def State.patchCancel (s : State) : State :=
  if s.img.patch.isSome then (s.patchStat 0 0 5).updI fun i => { i with patch := none } else s


/-- One entry into the committed value and into staging. -/
def State.patchOne (s : State) (t e : Nat) : State :=
  let (v, o, m, b) := s.patchEntry e
  match s.var v with
  | none => s
  | some d =>
    let s := s.each (bitList 8 m) fun s i =>
      let x := [b.getD i 0]
      (s.hubWrite (d.val + o + i) x).hubWrite (d.stg + o + i) x
    let h := s.hdr d
    (s.hubWrite d.off (leBytes 2 (h / 8 * 8 + 1) ++ leBytes 2 0xFFFE ++ s.hubRead (d.off + 4) 4 ++ leBytes 8 t)).retEntry d

/-- R175: the armed list applied at the hallmark edge of class j at time t. -/
def State.patchApply (s : State) (j t : Nat) : State :=
  match s.img.patch with
  | some (n, c) =>
    if c ≠ j then s else
    let s := s.each (List.range n) fun s e => s.patchOne t e
    let s := (s.patchStat 2 0 0).updI fun i => { i with patch := none }
    (s.raiseInt 0x0C 2).record 0x0C01 3 [j, n, 0, s.cycnt j]
  | none => s

end Sys2Proof.Machine
end

