-- ==== Sys2Proof/Machine/Safe.lean ====
section
/-! DEFINITION. The safe message layer (16): packets formed at guard starts, the checks of a receive carrier, connection states. -/

namespace Sys2Proof.Machine


/-- Identity of the layer as producer (R405). -/
def safeIdent : Nat := 0xA002

/-- The module is active or unpaired (17 R420). -/
def State.inCharge (s : State) : Bool := s.get MIRROR_state == 0 || s.get MIRROR_state == 2

/-- Own time in µs. -/
def State.nowUs (s : State) : Nat := s.now / 1000

/-- The time counts as synchronised (10 R271). -/
def State.synced (s : State) : Bool := s.get CLOCKMAKER_state == 2 || s.get CLOCKMAKER_state == 3

def State.rxRun (s : State) (n : Nat) : SafeRxRun := SMap.get s.safe.rxs n SafeRxRun.init
def State.updRx (s : State) (n : Nat) (f : SafeRxRun → SafeRxRun) : State :=
  s.updS fun k => { k with rxs := SMap.put k.rxs n SafeRxRun.init (f (SMap.get k.rxs n SafeRxRun.init)) }
def State.txRun (s : State) (n : Nat) : SafeTxRun := SMap.get s.safe.txs n SafeTxRun.init
def State.updTx (s : State) (n : Nat) (f : SafeTxRun → SafeTxRun) : State :=
  s.updS fun k => { k with txs := SMap.put k.txs n SafeTxRun.init (f (SMap.get k.txs n SafeTxRun.init)) }

/-- SM_R_STAT and SM_R_ERR as words of a record (R418). -/
def State.smWords (s : State) (n w2 : Nat) : List Nat :=
  [n, s.get (SM_R_STAT_0 n) + 4 * s.get (SM_R_STAT_2 n) + 64 * s.get (SM_R_STAT_6 n), w2,
   s.get (SM_R_ERR_0 n) + 2 ^ 8 * s.get (SM_R_ERR_8 n) + 2 ^ 16 * s.get (SM_R_ERR_16 n) + 2 ^ 24 * s.get (SM_R_ERR_24 n)]

/-- SAFEMSG failed: connections in FAILED. -/
def State.smShow (s : State) : State :=
  s.set SAFEMSG_failed ((List.range s.safe.rx.length).filter fun n => s.get (SM_R_STAT_0 n) = 3).length

/-- Into WAIT (R413): the destination takes its fallback. -/
def State.smWait (s : State) (n : Nat) (c : SafeRx) : State :=
  let s := ((s.set (SM_R_STAT_0 n) 1).set (SM_R_STAT_6 n) 0).updRx n fun r => { r with ref := false, outRun := 0 }
  (s.stageFallback c.dst).smShow

/-- Into FAILED (R413). -/
def State.smFail (s : State) (n : Nat) (c : SafeRx) (cause : Nat) : State :=
  let s := ((s.set (SM_R_STAT_0 n) 3).set (SM_R_STAT_2 n) cause).updRx n fun r => { r with failedAt := s.counter, outRun := 0 }
  let s := (s.stageFallback c.dst).smShow
  (s.raiseInt 0x61 0).record 0x6101 7 (s.smWords n (s.get (SM_R_SEQ_0 n)))

/-- Record 0x6105, once per second per connection. -/
def State.smDiscardRec (s : State) (n : Nat) : State :=
  s.once (0x6105 * 65536 + n) ticksPerSec fun s => s.record 0x6105 4 (s.smWords n (s.get (SM_R_SEQ_0 n)))

/-- A packet that fails step 1 or 2. -/
def State.smBad (s : State) (n : Nat) : State :=
  let s := ((s.count (SM_R_ERR_0 n)).count SAFEMSG_err_count).raiseInt 0x61 2
  let sec := s.counter / ticksPerSec
  s.updRx n fun r => if r.badSec = sec then { r with badN := r.badN + 1 } else { r with badSec := sec, badN := 1 }

/-- Step 9: accepted. -/
def State.smTake (s : State) (n : Nat) (c : SafeRx) (p : List Byte) (age : Int) : State :=
  let seq := beAt p 0 4
  let lost := if s.get (SM_R_STAT_0 n) = 2 then unsint 32 ((seq : Int) - s.get (SM_R_SEQ_0 n)) - 1 else 0
  let s := ((s.set (SM_R_SEQ_0 n) seq).set (SM_R_AGE_0 n) (unsint 32 age)).count (SM_R_CNT_0 n)
  let s := (s.addSat (SM_R_ERR_24 n) lost).updRx n fun r => { r with ref := true, outRun := 0 }
  let s :=
    if s.get (SM_R_STAT_0 n) = 1 then
      let s := s.count (SM_R_STAT_6 n)
      if c.kGood ≤ s.get (SM_R_STAT_6 n) then
        let s := s.set (SM_R_STAT_0 n) 2
        (s.raiseInt 0x61 1).record 0x6102 4 (s.smWords n seq)
      else s
    else s
  if s.get (SM_R_STAT_0 n) = 2 then
    let t := unsint 64 (((s.nowUs : Int) - age) * 1000)
    (s.imgWriteRaw safeIdent c.dst t (some t) (sub p 20 (p.length - 24))).1
  else s

/-- The checks of R411 on a carrier's packet. -/
def State.smCheck (s : State) (n : Nat) (c : SafeRx) (p : List Byte) : State :=
  let st := s.get (SM_R_STAT_0 n)
  let k := p.length - 24
  let age : Int := sint 32 (unsint 32 ((s.nowUs : Int) - beAt p 12 4))
  let d : Int := sint 32 (unsint 32 ((beAt p 0 4 : Int) - s.get (SM_R_SEQ_0 n)))
  if st ≠ 1 ∧ st ≠ 2 then s
  else if beAt p 19 1 ≠ k then s.smBad n
  else if beAt p (20 + k) 4 ≠ crc32c 0xFFFFFFFF (p.take (20 + k)) ^^^ 0xFFFFFFFF then
    let s := s.smBad n
    if c.crcMax < (s.rxRun n).badN then s.smFail n c 3 else s
  else if beAt p 4 4 ≠ c.src ∨ beAt p 8 4 ≠ s.safe.own * 65536 + c.endpoint then
    let s := s.smFail n c 2
    (s.raiseInt 0x61 3).record 0x6103 7 (s.smWords n (beAt p 4 4))
  else if beAt p 16 2 ≠ c.period then s.smFail n c 4
  else if c.maxAge ≠ 0 ∧ ¬(s.synced ∧ -1 ≤ age ∧ age ≤ c.maxAge * 100) then
    ((s.count (SM_R_ERR_16 n)).count SAFEMSG_err_count).smDiscardRec n
  else if beAt p 18 1 % 2 = 1 ∧ st = 2 then
    let s := (s.smWait n c).set (SM_R_SEQ_0 n) (beAt p 0 4)
    (s.updRx n fun r => { r with ref := true }).record 0x6104 3 (s.smWords n (s.get (SM_R_SEQ_0 n)))
  else if st = 2 ∧ d = 0 then s
  else if st = 2 ∧ ¬(1 ≤ d ∧ d ≤ c.maxGap) then
    let s := ((s.count (SM_R_ERR_8 n)).count SAFEMSG_err_count).smDiscardRec n
    let s := s.updRx n fun r => { r with outRun := r.outRun + 1 }
    if 3 ≤ (s.rxRun n).outRun then s.smFail n c 5 else s
  else s.smTake n c p age

/-- A hub unit's write of a variable; a write accepted into a receive carrier is checked (R411). -/
def State.imgWrite (s : State) (ident v wtime : Nat) (vt : Option Nat) (bytes : List Byte) : State :=
  let r := s.imgWriteRaw ident v wtime vt bytes
  if r.2 ≠ .accepted ∨ !r.1.flag SAFEMSG_loaded then r.1 else
  match (s.safe.rx.zipIdx).find? fun x => x.1.carrier = v, s.var v with
  | some (c, n), some d => r.1.smCheck n c (r.1.staged d)
  | _, _ => r.1

/-- Class cycle of class j in ns. -/
def State.classNs (s : State) (j : Nat) : Nat := s.get (CYC_CFG_0 j) * s.get CYC_BASE_0 * 10000

/-- The packet of transmit connection n for a hallmark edge at time t (R407, R409, R410). -/
def State.smPacket (s : State) (c : SafeTx) (d : Desc) (run : SafeTxRun) (t : Nat) : List Byte :=
  let body := beBytes 4 run.next ++ beBytes 4 (s.safe.own * 65536 + c.endpoint) ++ beBytes 4 c.dest ++ beBytes 4 (t / 1000) ++
    beBytes 2 (s.classNs d.cls / 100000) ++ beBytes 1 (b2n (decide (run.formed < 16))) ++ beBytes 1 d.size ++ s.staged d
  body ++ beBytes 4 (crc32c 0xFFFFFFFF body ^^^ 0xFFFFFFFF)

/-- R409: one packet into the carrier's staging. -/
def State.smForm (s : State) (t n : Nat) (c : SafeTx) (d : Desc) : State :=
  match s.var c.carrier with
  | none => s
  | some k =>
    let r := s.txRun n
    let s := s.acceptWrite k safeIdent t none 0 (s.smPacket c d r t)
    let s := ((s.set (SM_T_SEQ_0 n) r.next).count (SM_T_CNT_0 n))
    s.updTx n fun x => { next := (x.next + 1) % 2 ^ 32, formed := min (x.formed + 1) 16 }

/-- R409: at the guard start of a class that commits, one packet of every transmit connection whose source is of the class; none while the
source is stale, or the module is passive, standby, or its configuration not accepted. -/
def State.smFormAll (s : State) (j t : Nat) : State :=
  if s.passive || !s.inCharge || !s.flag SAFEMSG_loaded then s else
  s.each s.safe.tx.zipIdx fun s x => match s.var x.1.source with
    | some d => if d.cls = j ∧ s.varState d ≠ 2 then s.smForm t x.2 x.1 d else s
    | none => s

/-- All receive connections to OFF (R413: passive, entry into STABLE). -/
def State.smOff (s : State) : State :=
  (s.each s.safe.rx.zipIdx fun s x => (s.set (SM_R_STAT_0 x.2) 0).stageFallback x.1.dst).smShow

/-! ## The section (R408) -/

/-- A transmit connection's conditions. -/
def State.txLegal (s : State) (c : SafeTx) : Bool :=
  match s.var c.source, s.var c.carrier with
  | some a, some b =>
    decide (1 ≤ c.dest / 65536) && decide (c.dest / 65536 ≤ 0xFFFE) && decide (c.endpoint ≤ 0xFFFF) &&
    a.safety && a.kind == 0 && decide (a.size ≤ 232) &&
    b.owner == safeIdent && b.kind == 0 && b.size == a.size + 24 && b.cls == a.cls && b.safety
  | _, _ => false

/-- A receive connection's conditions. -/
def State.rxLegal (s : State) (c : SafeRx) : Bool :=
  match s.var c.carrier, s.var c.dst with
  | some a, some b =>
    decide (1 ≤ c.src / 65536) && decide (c.src / 65536 ≤ 0xFFFE) && decide (c.endpoint ≤ 0xFFFF) &&
    a.kind == 1 && a.size == b.size + 24 && a.safety && a.merge == 0 && decide (2 ≤ a.owner / 8192) && decide (a.owner / 8192 ≤ 4) &&
    b.kind == 1 && b.owner == safeIdent && b.safety && b.fallback && decide (b.size ≤ 232) &&
    decide (1 ≤ c.period) && decide (c.period ≤ 65535) && decide (1 ≤ c.texp) && decide (c.texp ≤ 10000) && decide (2 * c.period ≤ c.texp * 10) &&
    decide (c.maxAge ≤ 65535) && decide (1 ≤ c.maxGap) && decide (c.maxGap ≤ 255) && decide (1 ≤ c.kGood) && decide (c.kGood ≤ 15) &&
    decide (1 ≤ c.crcMax) && decide (c.crcMax ≤ 255) && decide (100 ≤ c.recMin) && decide (c.recMin ≤ 600000)
  | _, _ => false

/-- The section of the configuration is legal; EUL-T3S refuses any (R405). -/
def State.smLegal (s : State) : Bool :=
  let k := s.safe
  if s.isS then k.tx.isEmpty && k.rx.isEmpty
  else k.tx.all s.txLegal && k.rx.all s.rxLegal && decide (k.tx.length ≤ 64) && decide (k.rx.length ≤ 64) &&
    decide (k.tx.map (·.endpoint)).Nodup && decide (k.rx.map (·.endpoint)).Nodup &&
    (k.tx.isEmpty && k.rx.isEmpty || k.own == bitsOf (s.get SW_CFG_LO_0) 4 16)

/-- An accepted section: its parameters shown, receive connections to WAIT (R413, R417). -/
def State.smLoad (s : State) : State :=
  let k := s.safe
  if k.tx.isEmpty && k.rx.isEmpty then s else
  let s := (s.set SAFEMSG_loaded 1).set SM_OWN_0 k.own
  let s := s.each k.tx.zipIdx fun s x =>
    ((s.set (SM_T_BIND_0 x.2) x.1.source).set (SM_T_BIND_31 x.2) 1).set (SM_T_DEST_0 x.2) x.1.dest
  s.each k.rx.zipIdx fun s x =>
    let c := x.1
    let n := x.2
    let s := ((s.set (SM_R_BIND_0 n) c.dst).set (SM_R_BIND_31 n) 1).set (SM_R_SRC_0 n) c.src
    let s := (s.set (SM_R_TIME_0 n) c.texp).set (SM_R_TIME_16 n) c.maxAge
    s.smWait n c

end Sys2Proof.Machine
end

