-- ==== Sys2Proof/Machine/Passive.lean ====
section
/-! DEFINITION. The passive state (01 R38) and what taking a lane out of the vote does (03 R96). -/

namespace Sys2Proof.Machine

/-- ASSAY mode; a change raises SYS bit mode (23 R560). -/
def State.setMode (s : State) (m : Nat) : State :=
  if s.get ASSAY_mode = m then s else
  let s := s.set ASSAY_mode m
  let s := s.setB SYS_degraded (m = 2)
  s.raiseInt 0 1

/-- Pair state PASSIVE (17 R420); the page is absent on EUL-T3S. -/
def State.mirPassive (s : State) : State := if s.pagePresent 0x34 then (s.set MIRROR_state 4).set MIRROR_sync 0 else s
/-- R38: the Porters shut every consist transmitter. -/
def State.porterShut (s : State) : State :=
  let s := s.set PORTER_STATE_8 0
  s.updN fun c => { c with porter := { c.porter with opened := [] } }
/-- 12 R332: the CAN controllers in ON are forced to LISTEN; a frame in transmission breaks off. -/
def State.canPassive (s : State) : State :=
  let s := s.each (List.range 16) fun s c => if s.get (CAN_state c) = 2 then s.set (CAN_state c) 3 else s
  let s := s.each s.cans fun s e => match e.2.sending with
    | some m => s.set (CAN_M_STAT_0 e.1 m) 1
    | none => s
  s.setCans (s.cans.map fun e => (e.1, { e.2 with sending := none }))
/-- BR_OCC (22 R542, R550). -/
def State.brShow (s : State) : State :=
  let b := s.bridge
  let on (k : Nat) : Nat := match b.bus with | some r => b2n (r.kind = k) | none => 0
  let held : Nat := match b.bus with | some r => b2n (r.kind = 2 || (r.kind = 1 && r.live)) | none => 0
  let wr := (b.wait.filter fun r => r.kind = 0).length
  let rd := (b.wait.filter fun r => r.kind = 1).length
  ((s.set BR_OCC_0 (wr + on 0)).set BR_OCC_8 (rd + on 1 + on 2)).set BR_OCC_16 (b.cpl.length + rd + held)

/-- 22 R548: the bridge in a passive module: the data phase in progress is the last, what is open closes without completion. -/
def State.brPassive (s : State) : State :=
  if !s.isF then s else
  let b := s.bridge
  let n := (b.wait.filter fun r => r.kind ≠ 2).length + b.cpl.length + (match b.bus with | some r => b2n (r.kind = 1 && r.live) | none => 0)
  let s := s.updBr fun b => { b with wait := [], cpl := [], bus := b.bus.map fun (r : BrReq) => { r with k := r.n + 1, live := false } }
  let s := (s.set BRIDGE_state 3).addSat BR_DISCARD_0 n
  let s := if s.flag BR_CTL_0 then s.record 0x6203 5 [s.get BR_ERR_ADDR_0 + 2 ^ 24 * s.get BR_ERR_ADDR_24 + 2 ^ 31 * s.get BR_ERR_ADDR_31, 0, n, 0] else s
  s.sysfailOut.brShow
/-- 22 R548: drivers off, requests lost (STABLE, OFF, power fail). -/
def State.brOff (s : State) : State := if s.isF then ((s.updBr fun _ => BridgeS.init).set BRIDGE_state 0).brShow else s
/-- 22 R547, R549: power fail. -/
def State.brLose (s : State) : State := s.brOff.sysfailOut
/-- R38: the passive latch is set in all three copies, and the cause is held in the always-on domain. A second cause changes nothing. -/
def State.setPassive (s : State) (cause : Nat) : State :=
  if s.passive then s else
  let s := s.setLatch (Tri.all true) cause
  s.smOff.mirPassive.porterShut.canPassive.fioPassive.soOpen.brPassive.setMode 0

/-- R96 steps 1 and 2: nothing of the lane's is kept, and entries that waited only for it free. -/
def AssayS.dropLane (a : AssayS) (l : Fin 3) : AssayS :=
  { a with writes := a.writes.map fun e => { e with recs := e.recs.filter fun r => r.1 ≠ l, lags := e.lags.filter fun r => r.1 ≠ l }
           reads := a.reads.map fun e => { e with recs := e.recs.filter fun r => r.1 ≠ l, lags := e.lags.filter fun r => r.1 ≠ l }
           ckpts := a.ckpts.map fun e => { e with reps := e.reps.filter fun r => r.1 ≠ l, lags := e.lags.filter fun r => r.1 ≠ l }
           heldRecs := a.heldRecs.filter fun r => r.1 ≠ l
           heldReps := a.heldReps.filter fun r => r.1 ≠ l }

/-- The lanes an entry waits for. -/
def State.needs (s : State) (app : Bool) : List (Fin 3) := if app then s.listeners else s.voters

/-- A write entry is done with: released, written by its target, delivered by every lane. -/
def State.wDone (s : State) (e : WEnt) : Bool :=
  e.released.isSome && e.complete && (s.needs e.app).all fun l => e.recs.any fun r => r.1 = l

/-- A read-match entry is done with: captured, and every lane has taken its value. -/
def State.rDone (s : State) (e : REnt) : Bool :=
  e.capt.isSome && (s.needs e.app).all fun l => e.served.contains l

/-- A checkpoint entry is done with: every lane has reported. -/
def State.cDone (s : State) (e : CEnt) : Bool := (s.needs e.app).all fun l => e.reps.any fun r => r.1 = l

/-- Free the entries that wait for no lane any more (R96 step 2). -/
def State.freeDone (s : State) : State :=
  s.updA fun x => { x with
    writes := x.writes.filter fun e => !s.wDone e
    reads := x.reads.filter fun e => !s.rDone e
    ckpts := x.ckpts.filter fun e => !s.cDone e }

/-! ## Votes (01 R20 to R23; 03 R80, R83, R91, R92) -/

/-- The voters' entries of a list, in order of arrival. -/
def State.mine {α : Type} (s : State) (rs : List (Fin 3 × α)) : List (Fin 3 × α) := rs.filter fun r => s.voters.contains r.1

/-- What two of the voters agree on. -/
def State.agreed {α : Type} [DecidableEq α] (s : State) (rs : List (Fin 3 × α)) : Option α :=
  let m := s.mine rs
  (m.find? fun x => m.any fun y => decide (x.1 ≠ y.1 ∧ x.2 = y.2)).map (·.2)

/-- Every voter is there and no two agree. -/
def State.split {α : Type} [DecidableEq α] (s : State) (rs : List (Fin 3 × α)) : Bool :=
  decide (2 ≤ s.voters.length) && decide (s.voters.length ≤ (s.mine rs).length) && (s.agreed rs).isNone

/-- What a checkpoint report is compared by: digest and, of a PACE, the enable bits (R91, 05 R140). -/
def ckptKey (c : Ckpt) : BitVec 64 × Option Nat := (c.digest, c.pace.map (·.1))

/-- What each lane says of a checkpoint: its report, or that it has reported a higher count without it (R92). -/
def State.ckptVotes (s : State) (e : CEnt) : List (Fin 3 × Option (BitVec 64 × Option Nat)) :=
  (e.reps.map fun r => (r.1, some (ckptKey r.2))) ++
  (s.voters.filter fun l => !(e.reps.any fun r => r.1 = l) && decide (e.count < (s.assay.high.get l).get e.pair)).map fun l => (l, none)

/-- What a divergence is about: core pair, ASSAY_DIV_SEQ, address, checkpoint count, and whether it is a checkpoint's. -/
structure DivAt where
  pair : Fin 4
  seq : Nat
  addr : Nat
  cnt : Nat
  ckpt : Bool

/-- The address records agree on; a free value where they differ, for no record is the majority's (R102). -/
def State.voteAddr (s : State) (rs : List (Fin 3 × Rec)) : State × Nat :=
  match rs with
  | r :: t => if t.all fun x => x.2.addr = r.2.addr then (s, r.2.addr) else (s.draw, Config.freeValue s.freeCtr % 2 ^ 36)
  | [] => (s.draw, Config.freeValue s.freeCtr % 2 ^ 36)

/-- Where a write's vote is. -/
def State.atWrite (s : State) (e : WEnt) : State × DivAt :=
  let x := s.voteAddr e.recs
  (x.1, ⟨e.pair, e.seq + 2 ^ 16, x.2, 0, false⟩)
/-- Where a read's vote is; an atomic's old value is voted as its write. -/
def State.atRead (s : State) (e : REnt) : State × DivAt :=
  let x := s.voteAddr e.recs
  (x.1, ⟨e.pair, e.seq, x.2, 0, false⟩)
def CEnt.at (e : CEnt) : DivAt := ⟨e.pair, 0, 0, e.count, true⟩

/-- A vote whose remaining voters all reported and differ (R23, R83, R91, R100). -/
def State.voteSplit (s : State) : Option (State × DivAt) :=
  match s.assay.writes.find? fun e => e.released.isNone && s.split e.recs with
  | some e => some (s.atWrite e)
  | none => match s.assay.reads.find? fun e => s.split e.recs with
    | some e => some (s.atRead e)
    | none => match s.assay.ckpts.find? fun e => s.split (s.ckptVotes e) with
      | some e => some (s, e.at)
      | none => none

/-- The ASSAY_DIV registers as an event fills them, and the value of ASSAY_DIV_CAUSE it gives. log_hold keeps an earlier divergence
until div is cleared (R96 step 5, R101, R102). -/
def State.divFill (s : State) (lane kind : Nat) (pas stray : Bool) (d : DivAt) (synd : Nat) : State × Nat :=
  let c := lane + 4 * d.pair.val + 16 * kind + 256 * b2n pas + 512 * b2n stray + 1024
  if s.flag ASSAY_log_hold && bitOf (s.get (rawOf 0x08)) 0 then (s, c) else
  let s := ((s.set ASSAY_DIV_CAUSE_0 lane).set ASSAY_DIV_CAUSE_2 d.pair.val).set ASSAY_DIV_CAUSE_4 kind
  let s := ((s.setB ASSAY_DIV_CAUSE_8 pas).setB ASSAY_DIV_CAUSE_9 stray).set ASSAY_DIV_CAUSE_10 1
  let s := (s.set ASSAY_DIV_SEQ_0 d.seq).set ASSAY_DIV_SEQ_16 (d.seq / 2 ^ 16)
  let s := s.set64 ASSAY_DIV_ADDR_LO_0 ASSAY_DIV_ADDR_HI_0 d.addr
  let s := s.set64 ASSAY_DIV_CNT_LO_0 ASSAY_DIV_CNT_HI_0 d.cnt
  let s := s.set64 ASSAY_DIV_TIME_LO_0 ASSAY_DIV_TIME_HI_0 s.now
  (s.set64 ASSAY_DIV_SYND_LO_0 ASSAY_DIV_SYND_HI_0 synd, c)

/-- Parameter words of 0x0801 to 0x0803 (R99). -/
def DivAt.words (d : DivAt) (c synd : Nat) : List Nat := [c, if d.ckpt then d.cnt else d.addr, d.seq, synd]

/-- The Assay makes the module passive without isolating a lane (R99, R102). -/
def State.assayPassive (s : State) (kind cause : Nat) (d : DivAt) : State :=
  if s.passive then s else
  let mask := s.get ASSAY_voters
  let x := s.divFill 3 kind true false d 0
  (x.1.setPassive cause).recordX 0x0803 7 0xFF mask (d.words x.2 0)

/-- R96 steps 1 to 4 for a lane: out of the vote, ISOLATED. With fewer than two lanes left the module is passive. -/
def State.dropVoter (s : State) (l : Fin 3) : State :=
  let s := s.updA fun x => x.dropLane l
  let v := clrBit (s.get ASSAY_voters) l.val
  let s := ((s.set ASSAY_voters v).set (laneField l) lIsolated).set (ASSAY_LAG_0 l.val) 0
  let s := s.updL l fun n => { n with out := [], reports := [], replayed := [] }
  let s := s.freeDone
  let s := (s.courDropLane l).each allPairs fun s p => s.stampsFree p
  let s := if s.passive then s else if popc 3 v = 2 then s.setMode 2 else s.setPassive 7
  (s.count LANEMGR_iso_count).raiseInt 9 0

/-- The vote of the lanes that remain (R23, R83, R91). -/
def State.splitCheck (s : State) : State :=
  match s.voteSplit with
  | some x => x.1.assayPassive 9 6 x.2
  | none => s

/-- A lane leaves the vote (R96), for a cause the lane manager finds. -/
def State.unvote (s : State) (l : Fin 3) : State := (s.dropVoter l).splitCheck

/-- LM_CAUSE of a lane. -/
def State.setCause (s : State) (l : Fin 3) (cause pair item : Nat) : State :=
  ((s.set (LM_CAUSE_0 l.val) cause).set (LM_CAUSE_4 l.val) pair).set (LM_CAUSE_8 l.val) item

/-- LM_CAUSE and LM_REJ_STAT as record words (04 R127). -/
def State.lmWords (s : State) (l : Fin 3) : List Nat :=
  [s.get (LM_CAUSE_0 l.val) + 16 * s.get (LM_CAUSE_4 l.val) + 256 * s.get (LM_CAUSE_8 l.val),
   s.get LM_REJ_STAT_0 + 16 * s.get LM_REJ_STAT_4]

/-- A lane manager record with a lane mask. -/
def State.lmRecord (s : State) (code sev : Nat) (l : Fin 3) (mask : Nat) : State := s.recordX code sev 0xFF mask (s.lmWords l)

/-- ACTIVE lanes as a mask. -/
def State.activeMask (s : State) : Nat := (s.lanesIn lActive).foldl (fun m l => setBit m l.val) 0

end Sys2Proof.Machine
end

