-- ==== Sys2Proof/Machine/Tenant.lean ====
section
/-! DEFINITION. Tenants: windows, queue lists, refusals (07 R181 to R193), and the page rules of 23 R553, R554. -/

namespace Sys2Proof.Machine

/-- What a hub access does, in the codes of TEN_REFUSE_HI: 0 read, 1 write, 2 atomic. -/
abbrev HubK := Nat

/-- Active window w of tenant t is enabled and grants the kind of access. -/
def State.winGrants (s : State) (t w : Nat) (k : HubK) : Bool :=
  s.flag (TEN_AWIN_CTL_0 t w) && (k = 1 || s.flag (TEN_AWIN_CTL_1 t w)) && (k = 0 || s.flag (TEN_AWIN_CTL_2 t w))

/-- A byte of hub SRAM is granted by some window (R183, R184). -/
def State.sramGrant (s : State) (t off : Nat) (k : HubK) : Bool :=
  let one (w : Nat) (k : HubK) : Bool :=
    !s.flag (TEN_AWIN_CTL_4 t w) && decide (s.get (TEN_AWIN_BASE_0 t w) ≤ off / 64) &&
    decide (off / 64 ≤ s.get (TEN_AWIN_LIMIT_0 t w)) && s.winGrants t w k
  let some' (k : HubK) : Bool := (List.range 16).any fun w => one w k
  if k = 2 then some' 0 && some' 1 else some' k

/-- A register page is covered by a window of kind register (R185). -/
def State.pageGrant (s : State) (t page : Nat) (k : HubK) : Bool :=
  (List.range 16).any fun w =>
    s.flag (TEN_AWIN_CTL_4 t w) && decide (s.get (TEN_AWIN_BASE_0 t w) % 128 ≤ page) &&
    decide (page ≤ s.get (TEN_AWIN_LIMIT_0 t w)) && s.winGrants t w k

/-- The active queue list of tenant t grants produce (false) or consume (true) for a queue (R187). -/
def State.queueGrant (s : State) (t q : Nat) (consume : Bool) : Bool :=
  (List.range 32).any fun k =>
    s.get (TEN_AQUEUE_0 t k) == q && s.flag (if consume then TEN_AQUEUE_13 t k else TEN_AQUEUE_12 t k)

/-- A tenant access refused (R186): counted, shown, raised, recorded. -/
def State.tenantRefuse (s : State) (t addr kind : Nat) (bank : Bool) : State :=
  let s := s.count (TEN_refuse_count t)
  let s := (s.set (TEN_REFUSE_LO_0 t) addr).set (TEN_REFUSE_HI_0 t) (addr / 2 ^ 32)
  let s := (s.set (TEN_REFUSE_HI_4 t) kind).setB (TEN_REFUSE_HI_7 t) bank
  let s := s.raiseInt (0x10 + t) 0
  s.recordT 0x1001 3 t [addr, addr / 2 ^ 32 % 16 + kind * 16 + b2n bank * 128]

/-- Lowest level whose writes a page accepts at an offset (23 R553). -/
def writeLevel (page off : Nat) : Nat :=
  if page = 0x07 then (if off = 0x044 ∨ off = 0x080 ∨ (0x100 ≤ off ∧ off ≤ 0x114) then 1 else 2)
  else if page = 0x0A then 1
  else if page = 0x0B then (if 0x100 ≤ off ∧ off < 0x120 then 1 else 2)
  else if page = 0x0E then (if 0x040 ≤ off ∧ off ≤ 0x094 then 1 else 2)
  else 2

/-- The page rules and windows refuse a register access (23 R553, R554; 07 R183, R185). Queue lists are judged at the queue port. -/
def State.pageRefused (s : State) (level t page off : Nat) (write : Bool) : Bool :=
  if level = 2 then false
  else if level = 1 then write && 1 < writeLevel page off
  else if !s.flag (TEN_active_en t) then true
  else if page = 0x10 + t ∧ (if write then off = 0x060 else off < 0x100) then false
  else if page = 0x0E ∧ 0x040 ≤ off ∧ off ≤ 0x074 then !s.pageGrant t page (b2n write)
  else if page = 0x38 ∧ !write ∧ 0x040 ≤ off ∧ off ≤ 0x04C then !s.pageGrant t page 0
  else true

/-- Address of a hub register. -/
def regAddr (page off : Nat) : Nat := 0x40000000 + page * 0x1000 + off

/-- A refused write of an access: hub store fault, and at tenant level the count and record of R186. -/
def State.writeRefuse (s : State) (a : Acc) (addr kind : Nat) (bank : Bool) : State :=
  let s := s.storeFault a.pair a.seq addr
  if a.level = 0 then s.tenantRefuse a.tenant.val addr (if s.flag (TEN_active_en a.tenant.val) then kind else 5) bank else s

/-- The pair of a tenant's most recent hub access (06 R162). -/
def State.noteAccess (s : State) (a : Acc) : State :=
  if a.level = 0 then s.updCyc fun c => { c with lastPair := SMap.put c.lastPair a.tenant.val 0 (a.pair.val + 1) } else s

/-- A voted write to a register, at its release: nothing on an absent page (00 R9) or in a module
without power, refused by the page rules, or performed (23 R554, R558). -/
def State.writeAt (s : State) (a : Acc) (page off : Nat) (f : State → State) : State :=
  let s := s.noteAccess a
  if s.power ≠ .run ∨ !s.pagePresent page then s
  else if s.pageRefused a.level.val a.tenant.val page off true then s.writeRefuse a (regAddr page off) 1 false
  else f s

/-! ## Accesses in flight and the epoch -/

/-- Credit owner of an access: its tenant, or the firmware pool 32 (R190). -/
def ownerOf (a : Acc) : Nat := if a.level = 0 then a.tenant.val else 32

/-- Credits held by an owner. -/
def State.creditsHeld (s : State) (o : Nat) : Nat := (s.memctl.flight.filter fun f => f.owner = o).length

/-- The credit limit of an owner (R189, R190). -/
def State.creditLimit (s : State) (o : Nat) : Nat := if o < 32 then s.get (TEN_CREDIT_0 o) else 1024

/-- The registers that show credits and older epochs in flight (R193, R204, R206). -/
def State.flightShow (s : State) (o : Nat) : State :=
  let n := s.creditsHeld o
  let s := if o < 32 then (s.set (TEN_credits o) n).raiseTo (TEN_CRED_MAX_0 o) n else s.set MEMCTL_FWCRED_0 n
  let old := s.memctl.flight.filter fun f => f.epoch ≠ s.get MEMCTL_EPOCH_0
  (s.set MEMCTL_OLD_0 old.length).setB MEMCTL_OLD_14 (old.any fun f => !f.done)

/-- A release takes a credit (R189). -/
def State.takeCredit (s : State) (o : Nat) (p : Fin 4) (seq : Nat) (done : Bool) : State :=
  let f : Flight := { owner := o, epoch := s.get MEMCTL_EPOCH_0, pair := p, seq := seq, done := done }
  (s.updMc fun m => { m with flight := m.flight ++ [f] }).flightShow o

/-- An access waits at its limit (R189, R207). -/
def State.creditHold (s : State) (o : Nat) : State :=
  if o < 32 then
    let s := (s.count (TEN_CRED_HOLD_0 o)).raiseInt (0x10 + o) 1
    s.once (0x1002 * 65536 + o) ticksPerSec fun s => s.recordT 0x1002 2 o []
  else s

/-- The first conflict among pending queue lists: queue, two tenants, both consume (R187, R192). -/
def State.queueConflict (s : State) : Option (Nat × Nat × Nat × Bool) :=
  let ents := (List.range 32).flatMap fun t => (List.range 32).filterMap fun k =>
    let p := s.flag (TEN_QUEUE_12 t k)
    let c := s.flag (TEN_QUEUE_13 t k)
    if p || c then some (t, s.get (TEN_QUEUE_0 t k), p, c) else none
  let cs := ents.flatMap fun x => ents.filterMap fun y =>
    if x.1 < y.1 ∧ x.2.1 = y.2.1 ∧ ((x.2.2.1 ∧ y.2.2.1) ∨ (x.2.2.2 ∧ y.2.2.2)) then
      some (x.2.1, x.1, y.1, !(x.2.2.1 && y.2.2.1)) else none
  cs.foldl (fun b x => match b with
    | none => some x
    | some y => if x.1 < y.1 then some x else b) none

/-- Copy a tenant's pending set to its active set (R191). -/
def State.commitTenant (s : State) (t : Nat) : State :=
  let cp (s : State) (a b : Fld) : State := s.set b (s.get a)
  let old := s.regs
  let s := cp s (TEN_ctl_en t) (TEN_active_en t)
  let s := s.each (List.range 16) fun s w =>
    let s := cp s (TEN_WIN_BASE_0 t w) (TEN_AWIN_BASE_0 t w)
    let s := cp s (TEN_WIN_LIMIT_0 t w) (TEN_AWIN_LIMIT_0 t w)
    let s := cp s (TEN_WIN_CTL_0 t w) (TEN_AWIN_CTL_0 t w)
    let s := cp s (TEN_WIN_CTL_1 t w) (TEN_AWIN_CTL_1 t w)
    let s := cp s (TEN_WIN_CTL_2 t w) (TEN_AWIN_CTL_2 t w)
    cp s (TEN_WIN_CTL_4 t w) (TEN_AWIN_CTL_4 t w)
  let s := s.each (List.range 32) fun s k =>
    let s := cp s (TEN_QUEUE_0 t k) (TEN_AQUEUE_0 t k)
    let s := cp s (TEN_QUEUE_12 t k) (TEN_AQUEUE_12 t k)
    cp s (TEN_QUEUE_13 t k) (TEN_AQUEUE_13 t k)
  if s.regs = old then s else s.set (TEN_EPOCH_0 t) (s.get MEMCTL_EPOCH_0)

/-- The words of records 0x0F01 and 0x0F02. -/
def State.epochWords (s : State) : List Nat :=
  [s.get MEMCTL_EPOCH_0 + 2 ^ 16 * s.get MEMCTL_EPOCH_16,
   s.get MEMCTL_EPOCH_STAT_0 + 2 * s.get MEMCTL_EPOCH_STAT_1 + 2 ^ 11 * s.get MEMCTL_EPOCH_STAT_11 +
     2 ^ 16 * s.get MEMCTL_EPOCH_STAT_16 + 2 ^ 21 * s.get MEMCTL_EPOCH_STAT_21]

/-- R191, R192: commit. -/
def State.epochCommit (s : State) : State :=
  match s.queueConflict with
  | some (q, t, u, c) =>
    let s := ((s.set MEMCTL_EPOCH_STAT_0 1).set MEMCTL_EPOCH_STAT_1 q).set MEMCTL_EPOCH_STAT_11 t
    let s := (s.set MEMCTL_EPOCH_STAT_16 u).setB MEMCTL_EPOCH_STAT_21 c
    (s.raiseInt 0x0F 1).record 0x0F02 4 s.epochWords
  | none =>
    let s := s.set MEMCTL_EPOCH_0 (s.get MEMCTL_EPOCH_0 + 1)
    let s := s.set MEMCTL_EPOCH_STAT_0 0
    let s := s.each (List.range 32) State.commitTenant
    let s := s.flightShow 32
    let s := s.setB MEMCTL_EPOCH_16 (s.get MEMCTL_OLD_0 = 0)
    s.record 0x0F01 3 s.epochWords

/-- R191. -/
def execEpochCommit (a : Acc) (s : State) : Out := .next (s.writeAt a 0x0F 0x044 State.epochCommit)

/-- R193: drained goes from 0 to 1 when no access of an older epoch is in flight. -/
def execEpochDrained (s : State) : Out :=
  let s := s.flightShow 32
  .next (if s.get MEMCTL_EPOCH_16 = 0 ∧ s.get MEMCTL_OLD_0 = 0 then (s.set MEMCTL_EPOCH_16 1).raiseInt 0x0F 0 else s)

/-- R188, R205: software sources 1216 + 2t and 1217 + 2t. -/
def State.tenSoft (s : State) (t v : Nat) : State :=
  let s := if bitOf v 0 then s.courEvent (1216 + 2 * t) else s
  if bitOf v 1 then s.courEvent (1217 + 2 * t) else s

/-- R188. -/
def execTenSoftWrite (a : Acc) (t : Fin 32) (v : Nat) (s : State) : Out :=
  .next (s.writeAt a (0x10 + t.val) 0x060 fun s => s.tenSoft t.val v)

/-! ## Banks, fill engine, scrub (R198 to R200, 01 R37) -/

/-- State code of a bank. -/
def State.bank (s : State) (b : Nat) : Nat := bitsOf (s.get MEMCTL_BANKSTAT_0) (2 * b) 2

def State.setBank (s : State) (b v : Nat) : State := s.set MEMCTL_BANKSTAT_0 (putBits (s.get MEMCTL_BANKSTAT_0) (2 * b) 2 v)

/-- A lane's access to the bank is served: at once where it is ready, after a wait where it leaves retention (R199). -/
def State.bankServes (s : State) (b : Nat) : Bool := s.bank b = 2 || s.memctl.waking.contains b

/-- Every byte of a range lies in a bank that serves it (R198). -/
def State.banksReady (s : State) (off n : Nat) : Bool :=
  s.bankServes (off / 0x100000) && s.bankServes ((off + n - 1) / 0x100000)

/-- Banks a fill of lines touches without covering, and banks it covers. -/
def fillCovers (base len b : Nat) : Bool := decide (base ≤ b * 16384) && decide (b * 16384 + 16384 ≤ base + len)
def fillTouches (base len b : Nat) : Bool := decide (base < b * 16384 + 16384) && decide (b * 16384 < base + len)

/-- Fill a byte range of hub SRAM with a 64-bit pattern. -/
def State.hubFill (s : State) (off n pat : Nat) : State :=
  let mid : SMap Byte := if pat = 0 then [] else (List.range n).filterMap fun i =>
    let b := BitVec.ofNat 8 (pat / 2 ^ (8 * ((off + i) % 8)))
    if b = 0 then none else some (off + i, b)
  { s with hub := (s.hub.filter fun e => e.1 < off) ++ mid ++ (s.hub.filter fun e => off + n ≤ e.1) }

def State.fillRefuse (s : State) (r : Nat) : State :=
  let s := if r = 3 then s.set MEMCTL_FILL_STAT_4 3 else (s.set MEMCTL_FILL_STAT_0 3).set MEMCTL_FILL_STAT_4 r
  (s.raiseInt 0x0F 3).record 0x0F04 4 [s.get MEMCTL_FILL_STAT_0 + 16 * r]

/-- R200: start, or the reason of a refusal. -/
def State.fillStart (s : State) : State :=
  let base := s.get MEMCTL_FILL_BASE_0
  let len := s.get MEMCTL_FILL_LEN_0
  if s.flag MEMCTL_fill_busy then s.fillRefuse 3
  else if 0xFC0000 / 64 < base + len then s.fillRefuse 1
  else if (List.range 16).any fun b => fillTouches base len b && !fillCovers base len b && s.bank b != 2 then s.fillRefuse 2
  else
    let s := (((s.set MEMCTL_fill_busy 1).set MEMCTL_FILL_STAT_0 1).set MEMCTL_FILL_STAT_4 0).set MEMCTL_FILL_POS_0 0
    s.updMc fun m => { m with fill := (base, len, s.get64 MEMCTL_FILL_PAT_LO_0 MEMCTL_FILL_PAT_HI_0) }

/-- R200. -/
def execMemctlFillStart (a : Acc) (s : State) : Out := .next (s.writeAt a 0x0F 0x080 State.fillStart)

/-- R200: the lines are written, covered banks become ready. -/
def State.fillDone (s : State) : State :=
  let (base, len, pat) := s.memctl.fill
  let s := s.hubFill (base * 64) (len * 64) pat
  let s := s.each (List.range 16) fun s b => if fillCovers base len b then s.setBank b 2 else s
  let s := ((s.set MEMCTL_fill_busy 0).set MEMCTL_FILL_STAT_0 2).set MEMCTL_FILL_POS_0 len
  s.raiseInt 0x0F 2

/-- R200. -/
def execFillComplete (s : State) : Out := .next (if s.flag MEMCTL_fill_busy then s.fillDone else s)

/-- R200: a fill running when the module enters STABLE or restarts is abandoned. -/
def State.fillAbandon (s : State) : State :=
  if s.flag MEMCTL_fill_busy then ((s.set MEMCTL_fill_busy 0).set MEMCTL_FILL_STAT_0 3).set MEMCTL_FILL_STAT_4 0 else s

/-- R199: a bank returns to ready from retention. -/
def execBankReady (b : Fin 16) (s : State) : Out :=
  .next (if s.memctl.waking.contains b.val then
    (s.updMc fun m => { m with waking := m.waking.filter (· ≠ b.val) }).setBank b.val 2 else s)

/-- 01 R37, 07 R199: one scrub pass with the words it corrected; a word of the pass before is a stuck bit. -/
def State.scrubPass (s : State) (l : List Nat) : State :=
  let l := l.filter fun o => o < 0x1000000 && s.bank (o / 0x100000) = 2
  let prev := s.memctl.scrubbed
  let s := s.each l fun s o =>
    let s := ((s.count (MEMCTL_ECC_0 (o / 0x100000))).count MEMCTL_ecc_count).set MEMCTL_ECC_LAST_0 (o / 8 * 8)
    s.raiseInt 0x0F 4
  let s := s.count MEMCTL_SCRUB_0
  let s := s.updMc fun m => { m with scrubbed := l.map fun o => o / 8 * 8 }
  match l.find? fun o => prev.contains (o / 8 * 8) with
  | some o => (s.setPassive 3).record 0x0F05 7 [o / 8 * 8]
  | none => s

/-- 01 R37. -/
def execHubSramScrub (corrected : List Nat) (s : State) : Out := .next (s.scrubPass corrected)

end Sys2Proof.Machine
end

