-- ==== Sys2Proof/Machine/Mirror.lean ====
section
/-! DEFINITION. Module pairs: pair states, segments, boundary sets, lease, promotion, abdication (17). -/

namespace Sys2Proof.Machine


/-- Own factory address of consist port 0 (R422): what ETH_MAC takes at reset. -/
def factoryMac : Nat := (ETH_MAC_LO_0 0).rst + 2 ^ 32 * (ETH_MAC_HI_0 0).rst

/-- Index of the latest boundary. -/
def State.bnum (s : State) : Nat := s.get64 CYC_BNUM_LO_0 CYC_BNUM_HI_0

/-- Base cycle in Clockmaker ticks. -/
def State.baseTicks (s : State) : Nat := s.get CYC_BASE_0 * 5000

/-- The mirror links carry something (R419, R420). -/
def State.linksLive (s : State) : Bool := s.pagePresent 0x34 && s.get MIRROR_state != 0 && s.power == .run

/-- A pair logic record (R441). -/
def State.mirRecord (s : State) (code sev w1 : Nat) : State :=
  s.record code sev [s.get MIRROR_state, w1, s.get MIR_LEASE_0, s.bnum % 2 ^ 32]

/-! ## Sync (R428) -/

/-- An own-address frame seen within 3 base cycles. -/
def State.ownRecent (s : State) : Bool := s.mir.own.any fun t => decide (s.counter ≤ t + 3 * s.baseTicks)

/-- Variables a full pass covers. -/
def State.passVars (s : State) : List Desc := s.img.vars.filter fun d => d.mirror || d.retain

/-- The first failing condition of R428; with both links down a partner whose frames are still seen on the consist network (R438). -/
def State.syncCode (s : State) : Nat :=
  if !s.mir.passDone then 1
  else if s.mir.why ≠ 0 then s.mir.why
  else if s.mir.badPair then 4
  else if s.mir.almBad then 5
  else if s.flag MIR_BUDGET_20 then 6
  else if s.get MIR_PARTNER_8 = 0 ∧ s.ownRecent then 7
  else 0

/-- Sync gained or lost; a loss restarts the pass. -/
def State.syncEval (s : State) : State :=
  if s.get MIRROR_state ≠ 3 then s else
  let c := s.syncCode
  let s := s.set MIR_SYNC_STAT_0 c
  if c = 0 ∧ !s.flag MIRROR_sync then ((s.set MIRROR_sync 1).raiseInt 0x34 2).mirRecord 0x3404 3 c
  else if c ≠ 0 ∧ s.flag MIRROR_sync then
    let s := ((s.set MIRROR_sync 0).raiseInt 0x34 2).mirRecord 0x3405 5 c
    (s.set MIR_SYNC_STAT_16 0).updMir fun m => { m with passDone := false, rxPass := 0, why := 0 }
  else s

/-- A boundary set discarded as lost (2) or late (3). -/
def State.setLost (s : State) (why : Nat) : State :=
  let s := s.count (if why = 2 then MIR_SETS_LOST_0 else MIR_SETS_LOST_16)
  let s := (s.updMir fun m => { m with segs := [], setN := 0, why := why }).raiseInt 0x34 5
  s.syncEval

/-! ## States (R420, R421) -/

/-- Into STANDBY. -/
def State.enterStandby (s : State) : State :=
  let s := ((s.set MIRROR_state 3).set MIRROR_sync 0).set MIR_SYNC_STAT_0 1
  (s.set MIR_SYNC_STAT_16 0).updMir fun m =>
    { m with renewed := 0, expired := false, abd := 0, due := 0, pass := none, segs := [], setN := 0, applied := 0, rxPass := 0,
             passDone := false, why := 0, almBad := false, seekGo := 0, heard := false, gap := false }

/-- Into ACTIVE from SEEK. -/
def State.enterActive (s : State) : State :=
  ((s.set MIRROR_state 2).set MIRROR_sync 0).updMir fun m => { m with due := 0, abd := 0, pass := none, seekGo := 0, renewed := 0 }

/-- R433: a promotion of a standby; safe messages go on from the mirrored numbers without the restart flag (16 R410). -/
def State.promote (s : State) (code sev : Nat) : State :=
  let s := s.enterActive.set MIR_LEASE_0 (s.get MIR_LEASE_0 + 1)
  let s := (s.count MIR_PROMOTE_0).updMir fun m => { m with promoted := s.counter + 1 }
  let s := s.each s.safe.tx.zipIdx fun s x => s.updTx x.2 fun r => { r with formed := 16 }
  (s.raiseInt 0x34 0).mirRecord code sev (s.get MIR_PHEAD_0)

/-! ## Own-address frames (R421, R430, R434) -/

/-- The consist engine notes an own-address frame; an ACTIVE module that notes a second one within 3 base cycles found another active module. -/
def State.noteOwn (s : State) : State :=
  let again := s.ownRecent
  let s := s.updMir fun m => { m with own := s.counter :: m.own.take 3, ownSeen := true }
  if s.get MIRROR_state = 2 ∧ again then
    let s := (s.raiseInt 0x34 4).mirRecord 0x3406 7 (s.get MIR_PHEAD_0)
    if s.mir.promoted ≠ 0 ∧ s.counter < s.mir.promoted - 1 + ticksPerSec then s.setPassive 12 else s
  else s.syncEval

/-! ## Records (R424, R425) -/

/-- Lease record. -/
def State.leaseRec (s : State) (time : Nat) : List Byte :=
  beBytes 1 1 ++
  beBytes 1 (s.get MIRROR_state + 8 * s.get MIRROR_sync + 16 * s.get MIRROR_hold + 32 * b2n (s.mir.abd = 2) + 64 * b2n s.mir.wasActive) ++
  beBytes 2 (s.get SW_CFG_LO_0 % 2) ++ beBytes 4 (s.get MIR_LEASE_0) ++ beBytes 4 s.img.cfgId ++ beBytes 6 factoryMac ++
  beBytes 2 (s.get ALM_FA_0) ++ beBytes 8 time ++ beBytes 4 (s.get CYC_BASE_0)

/-- Almanac record. -/
def State.almRec (s : State) : List Byte :=
  beBytes 1 3 ++ beBytes 1 (s.get ALMANAC_active_bank + 2 * b2n (s.cons.swAt ≠ 0)) ++ beBytes 2 s.cons.act.id ++
  beBytes 4 (s.get ALM_MCOUNT_0) ++ beBytes 2 (s.get ALM_POS_0 * 256) ++ beBytes 4 (s.cons.swAt - 1) ++ beBytes 2 0

/-- Ledger head record. -/
def State.headRec (s : State) : List Byte :=
  beBytes 2 0x0400 ++ beBytes 2 ((s.ledger.recs.getLast?.map (·.code)).getD 0) ++ beBytes 4 s.ledger.written ++
  beBytes 4 (s.get LG_OPTIME_0) ++ beBytes 4 0

/-- Safe message sequence record of connection n. -/
def State.seqRec (s : State) (n : Nat) : List Byte := beBytes 2 0x0500 ++ beBytes 2 n ++ beBytes 4 (s.get (SM_T_SEQ_0 n))

/-- Variable record. -/
def State.varRec (s : State) (kind : Nat) (d : Desc) : List Byte :=
  let v := s.committed d
  beBytes 1 kind ++ beBytes 1 (s.hdr d % 8) ++ beBytes 2 d.v ++ beBytes 2 (s.hubNat (d.off + 2) 2) ++ beBytes 2 d.size ++
  beBytes 8 (s.hubNat (d.off + 8) 8) ++ v ++ List.replicate ((4 - d.size % 4) % 4) 0

/-- Bytes of the record at the head of a segment's records. -/
def recBytes (l : List Byte) : Nat :=
  let k := beAt l 0 1
  if k = 1 then 32 else if k = 2 ∨ k = 6 then 16 + (beAt l 6 2 + 3) / 4 * 4 else if k = 3 ∨ k = 4 then 16 else if k = 5 then 8
  else if k = 0xFF then 4 else l.length

/-- The records of a segment. -/
def recsOf : Nat → List Byte → List (List Byte)
  | 0, _ => []
  | _ + 1, [] => []
  | n + 1, b :: r => (b :: r).take (max 1 (recBytes (b :: r))) :: recsOf n ((b :: r).drop (max 1 (recBytes (b :: r))))

/-- A segment. -/
def segment (type last num n : Nat) (recs : List Byte) : List Byte :=
  let b := beBytes 1 type ++ beBytes 1 last ++ beBytes 2 num ++ beBytes 8 n ++ beBytes 2 recs.length ++ beBytes 2 0 ++ recs
  b ++ beBytes 4 (crc32c 0xFFFFFFFF b ^^^ 0xFFFFFFFF)

/-- Records packed in order into loads of at most 2,048 bytes; the load being filled comes first. -/
def packRecs (l : List (List Byte)) : List (List Byte) :=
  (l.foldl (fun (acc : List (List Byte)) r => match acc with
    | a :: t => if a.length + r.length ≤ 2048 then (a ++ r) :: t else r :: a :: t
    | [] => [r]) []).reverse

/-- The segments of a boundary set: the end record names how many they are. -/
def setSegments (n : Nat) (recs : List (List Byte)) : List (List Byte) :=
  let k := (packRecs (recs ++ [beBytes 4 0xFF000000])).length
  let loads := packRecs (recs ++ [beBytes 2 0xFF00 ++ beBytes 2 k])
  loads.zipIdx.map fun x => segment 0x4D (b2n (x.2 + 1 = k)) x.2 n x.1

/-- The segments held, in order, when the set is whole. -/
def State.wholeSet (s : State) : Option (List (List Byte)) :=
  match s.mir.segs.find? fun g => beAt g.2 1 1 % 2 = 1 with
  | some g =>
    let l := (List.range (g.1 + 1)).map fun k => s.mir.segs.find? fun x => x.1 = k
    if l.all Option.isSome then some (l.filterMap fun x => x.map (·.2)) else none
  | none => none

/-! ## Sending (R426, R428) -/

/-- The full-pass records of a boundary: from the next variable on, up to rs_bytes. -/
def State.passTake (s : State) (start : Nat) : List Desc :=
  ((s.passVars.filter fun d => decide (start ≤ d.v)).foldl (fun (a : List Desc × Nat × Bool) d =>
    if a.2.2 ∨ s.get MIR_RS_0 < a.2.1 + (16 + (d.size + 3) / 4 * 4) then (a.1, a.2.1, true)
    else (a.1 ++ [d], a.2.1 + (16 + (d.size + 3) / 4 * 4), false)) ([], 0, false)).1

/-- The full pass starts where it was asked for, or where a standby that is not sync is seen and none runs. -/
def State.passStart (s : State) : State :=
  if s.mir.restart then s.updMir fun m => { m with pass := some 0, restart := false }
  else if s.mir.pass = none ∧ s.get MIR_PARTNER_0 = 3 ∧ s.flag MIR_PARTNER_5 ∧ !s.flag MIR_PARTNER_3 then s.updMir fun m => { m with pass := some 0 }
  else s

/-- The boundary set of boundary n at time t: `hall` the classes with a hallmark edge, `vars` the variables it committed, patched ones included. -/
def State.sendSet (s : State) (n t : Nat) (hall : List Nat) (vars : List Desc) : State :=
  let s := s.passStart
  let seqs := s.safe.tx.zipIdx.filterMap fun x => match s.var x.1.carrier with
    | some d => if hall.contains d.cls then some (s.seqRec x.2) else none
    | none => none
  let pass := match s.mir.pass with
    | some k => s.passTake k
    | none => []
  let recs := [s.leaseRec t, s.almRec, s.headRec] ++ seqs ++ vars.map (s.varRec 2) ++ pass.map (s.varRec 6)
  let segs := setSegments n recs
  let next : Option Nat := match s.mir.pass with
    | some k => if (s.passVars.filter fun d => decide (k ≤ d.v)).length ≤ pass.length then none else (pass.getLast?.map fun d => d.v + 1).orElse fun _ => some k
    | none => none
  let s := (s.set MIR_LAST_0 ((segs.map List.length).sum)).set MIR_SYNC_STAT_16
    (min 0xFFFF (match s.mir.pass with
      | some k => (s.passVars.filter fun d => decide (d.v < k)).length + pass.length
      | none => s.get MIR_SYNC_STAT_16))
  s.updMir fun m => { m with sent := segs, pass := next }

/-- A standby's status segment. -/
def State.sendStatus (s : State) (n t : Nat) : State :=
  s.updMir fun m => { m with sent := [segment 0x53 1 0 n (s.leaseRec t ++ beBytes 4 0xFF000001)] }

/-- R424: a hello. -/
def execHelloSend (s : State) : Out :=
  .next (if s.linksLive && (s.get MIRROR_state == 1 || s.get MIRROR_state == 4) then
    s.updMir fun m => { m with sent := [segment 0x48 0 0 0 (s.leaseRec 0)] } else s)

/-! ## What a base boundary does to the pair (R428, R430 to R433) -/

/-- R430 to R432: before the set of boundary n is sent. -/
def State.mirDuties (s : State) : State :=
  let st := s.get MIRROR_state
  if st = 1 ∧ s.mir.seekGo ≠ 0 then s.enterActive
  else if st = 3 ∧ s.mir.due = 3 then s.promote 0x3402 4
  else if st = 3 ∧ s.mir.due = 2 then s.promote 0x3401 6
  else if st = 3 ∧ s.mir.due = 1 then
    if s.flag MIRROR_sync && !s.ownRecent then s.promote 0x3401 6
    else ((s.updMir fun m => { m with due := 0 }).raiseInt 0x34 1).mirRecord 0x3403 6 (s.get MIR_SYNC_STAT_0)
  else if st = 2 ∧ s.mir.abd = 1 then s.updMir fun m => { m with abd := 2 }
  else if st = 2 ∧ s.mir.abd = 2 then (s.enterStandby.set MIRROR_hold 1).mirRecord 0x3402 4 (s.get MIR_PHEAD_0)
  else s

/-- R428: a set must have been applied before the guard start of the standby's next base boundary. One that is incomplete is lost, a whole one late; where
none has come at all, the next one shows it lost: an active module that sends none leaves its standby sync (R430, R438). -/
def State.setCheck (s : State) : State :=
  let n := s.bnum + 1
  if s.get MIRROR_state ≠ 3 ∨ s.mir.setChk = n ∨ s.mir.almN ≠ n then s else
  let heard := s.mir.heard
  let s := s.updMir fun m => { m with setChk := n, heard := false }
  if s.mir.renewed = 0 then s
  else if s.mir.setN ≠ 0 ∧ s.mir.applied ≠ s.mir.setN then s.setLost (if s.wholeSet.isSome then 3 else 2)
  else if heard then s
  else s.updMir fun m => { m with gap := true }

/-- The pair's part of boundary n at time t: duties change first, then the set or status segment goes out. -/
def State.mirBoundary (s : State) (n t : Nat) (hall : List Nat) (vars : List Desc) : State :=
  if !s.linksLive then s else
  let s := s.mirDuties
  let s := s.updMir fun m => { m with alm := s.almRec, almN := n + 1 }
  if s.get MIRROR_state = 2 then s.sendSet n t hall vars
  else if s.get MIRROR_state = 3 then s.sendStatus n t
  else s

/-! ## Receiving (R423, R427) -/

/-- Link up or down (R423). -/
def State.linkSet (s : State) (l : Nat) (up : Bool) : State :=
  let m := s.get MIR_PARTNER_8
  if bitOf m l = up then s else
  let s := (s.set MIR_PARTNER_8 (if up then setBit m l else clrBit m l)).raiseInt 0x34 3
  let s := s.once (0x3407 * 65536 + l) ticksPerSec fun s => s.mirRecord 0x3407 4 (s.get MIR_PHEAD_0)
  if up then s else s.syncEval

/-- R421, R422: what a partner's lease record makes of SEEK. -/
def State.seekSees (s : State) (st : Nat) (was : Bool) (mac : Nat) : State :=
  let go := s.updMir fun m => { m with seekGo := 1 }
  if st = 3 ∨ st = 4 then go
  else if st = 2 then s.enterStandby
  else if st = 1 then
    if s.mir.wasActive && !was then go
    else if was && !s.mir.wasActive then s.enterStandby
    else if factoryMac < mac then go else s.enterStandby
  else s

/-- A partner's lease record (R425, R430). -/
def State.leaseSeen (s : State) (r : List Byte) (inSet : Bool) : State :=
  let b := beAt r 1 1
  let st := b % 8
  let bad := beAt r 2 2 % 2 ≠ s.get SW_CFG_LO_0 % 2 ∨ beAt r 8 4 ≠ s.img.cfgId ∨ beAt r 28 4 ≠ s.get CYC_BASE_0
  let s := ((s.set MIR_PARTNER_0 st).setB MIR_PARTNER_3 (bitOf b 3)).setB MIR_PARTNER_4 (bitOf b 4)
  let s := ((s.set MIR_PARTNER_5 1).set MIR_PMAC_LO_0 (beAt r 14 4)).set MIR_PMAC_HI_0 (beAt r 12 2)
  let s := s.updMir fun m => { m with pActive := if st = 2 then s.counter + 1 else m.pActive, pWas := bitOf b 6, badPair := bad }
  let s := if bad ∧ !s.mir.told then (s.updMir fun m => { m with told := true }).mirRecord 0x3408 5 (s.get MIR_PHEAD_0)
    else if !bad then s.updMir fun m => { m with told := false } else s
  if s.get MIRROR_state = 1 then
    if beAt r 2 2 % 2 ≠ s.get SW_CFG_LO_0 % 2 ∨ beAt r 8 4 ≠ s.img.cfgId then s
    else (s.updMir fun m => { m with pSeen := s.counter + 1 }).seekSees st (bitOf b 6) (beAt r 12 6)
  else if s.get MIRROR_state = 3 ∧ inSet ∧ st = 2 ∧ !bitOf b 5 then
    s.updMir fun m => { m with renewed := s.counter + 1, expired := false, due := if m.due = 1 then 0 else m.due }
  else s

/-- The lease record among a segment's records. -/
def leaseIn (g : List Byte) : Option (List Byte) :=
  (recsOf (beAt g 12 2) (sub g 16 (beAt g 12 2))).find? fun r => beAt r 0 1 = 1

/-- The length field and the CRC of a segment hold. -/
def segGood (g : List Byte) : Bool :=
  let n := beAt g 12 2
  decide (n ≤ 2048) && decide (g.length = 20 + n) && beAt g (16 + n) 4 == crc32c 0xFFFFFFFF (g.take (16 + n)) ^^^ 0xFFFFFFFF

/-- R423: a segment from a link. -/
def State.segRecv (s : State) (l : Nat) (g : List Byte) : State :=
  if !s.linksLive || !bitOf (s.get MIR_CTL_16) l then s
  else if !segGood g then s.count MIRROR_seg_errs
  else
    let s := (s.count (MIR_SEG_GOOD_0 l)).linkSet l true
    let s := s.updMir fun m => { m with good := SMap.put m.good l 0 (s.counter + 1) }
    let n := beAt g 4 8 + 1
    let k := beAt g 2 2
    let boundary := beAt g 0 1 = 0x4D
    if boundary ∧ s.get MIRROR_state = 3 then
      if s.mir.applied = n ∨ (s.mir.setN = n ∧ s.mir.segs.any fun x => x.1 = k) then s
      else
        let s := if s.mir.gap then (s.setLost 2).updMir fun m => { m with gap := false } else s
        let s := s.updMir fun m => if m.setN = n then { m with segs := m.segs ++ [(k, g)] } else { m with setN := n, segs := [(k, g)] }
        match leaseIn g with
        | some r => s.leaseSeen r true
        | none => s
    else match leaseIn g with
      | some r => s.leaseSeen r false
      | none => s

def execMirrorSegmentReceived (l : Fin 2) (g : List Byte) (s : State) : Out := .next (s.segRecv l.val g)

/-- A mirrored variable as one record gives it (R427). -/
def State.varApply (s : State) (r : List Byte) : State :=
  match s.var (beAt r 2 2) with
  | some d =>
    if beAt r 6 2 ≠ d.size then s else
    let v := sub r 16 d.size
    let s := s.hubWrite d.val v
    let s := if SMap.find? s.img.stage d.v = none then s.hubWrite d.stg v else s
    let s := s.setHdr d (s.hdr d / 8 * 8 + beAt r 1 1 % 8)
    ((s.hubSet (d.off + 2) 2 (beAt r 4 2)).hubSet (d.off + 8) 8 (beAt r 8 8)).retEntry d
  | none => s

/-- A full-pass record's place in the pass: the first variable begins it, the last one ends it. -/
def State.passSees (s : State) (v : Nat) : State :=
  let vs := s.passVars.map (·.v)
  let s := if vs.head? = some v then s.updMir fun m => { m with rxPass := 0, why := 0 } else s
  let s := if vs[s.mir.rxPass]? = some v then s.updMir fun m => { m with rxPass := m.rxPass + 1 } else s
  let s := s.set MIR_SYNC_STAT_16 (min 0xFFFF s.mir.rxPass)
  if vs.length = s.mir.rxPass then s.updMir fun m => { m with passDone := true } else s

/-- One record applied. -/
def State.recApply (s : State) (n : Nat) (r : List Byte) : State :=
  let k := beAt r 0 1
  if k = 2 then s.varApply r
  else if k = 6 then (s.varApply r).passSees (beAt r 2 2)
  else if k = 3 then (if s.mir.almN = n then s.updMir fun m => { m with almBad := decide (r ≠ s.mir.alm) } else s)
  else if k = 4 then (s.set MIR_PHEAD_0 (beAt r 4 4)).set MIR_PHEAD_CODE_0 (beAt r 2 2)
  else if k = 5 then
    let c := beAt r 2 2
    if c < s.safe.tx.length then
      (s.set (SM_T_SEQ_0 c) (beAt r 4 4)).updTx c fun x => { x with next := (beAt r 4 4 + 1) % 2 ^ 32 }
    else s
  else if k = 1 ∧ bitOf (beAt r 1 1) 5 then s.updMir fun m => { m with due := 3 }
  else s

/-- R427: a set held whole is applied as one step. -/
def State.setApply (s : State) : State :=
  if s.get MIRROR_state ≠ 3 ∨ s.mir.applied = s.mir.setN then s else
  match s.wholeSet with
  | none => s
  | some l =>
    let n := s.mir.setN
    let recs := l.flatMap fun g => recsOf (beAt g 12 2) (sub g 16 (beAt g 12 2))
    let s := s.each recs fun s r => s.recApply n r
    let s := if s.passVars.isEmpty then s.updMir fun m => { m with passDone := true } else s
    let s := (s.set MIR_LAST_0 ((l.map List.length).sum)).updMir fun m => { m with applied := n, heard := true }
    s.syncEval

def execBoundarySetApply (s : State) : Out := .next s.setApply

/-- R423: no good segment on a link for 1 ms. -/
def execMirrorLinkTimeout (l : Fin 2) (s : State) : Out :=
  .next (if !s.linksLive then s else
    let s := s.linkSet l.val false
    if s.get MIR_PARTNER_8 = 0 then s.set MIR_PARTNER_5 0 else s)

/-- R423: block lock lost. -/
def execMirrorBlockLockLoss (l : Fin 2) (s : State) : Out := .next (if s.linksLive then s.linkSet l.val false else s)

/-- R421: pair_wait elapsed in SEEK. -/
def execPairWaitExpiry (s : State) : Out :=
  .next (if s.linksLive && s.get MIRROR_state == 1 && s.mir.pSeen == 0 then
    (if s.mir.ownSeen then s.enterStandby else s.updMir fun m => { m with seekGo := 1 })
  else s)

/-- R430: 3 base cycles without renewal; the next base boundary decides. -/
def execLeaseExpiry (s : State) : Out :=
  .next (if s.linksLive && s.get MIRROR_state == 3 && s.mir.renewed != 0 && !s.mir.expired then
    s.updMir fun m => { m with expired := true, due := if m.due = 0 then 1 else m.due } else s)

/-! ## Commands (R431, R432, R440) -/

/-- Abdication: accepted (0), or why not (R431). -/
def State.abdicateCode (s : State) : Nat :=
  if s.get MIRROR_state ≠ 2 then 1
  else if s.get MIR_PARTNER_0 = 3 ∧ s.flag MIR_PARTNER_5 ∧ s.flag MIR_PARTNER_3 ∧ !s.flag MIR_PARTNER_4 then 0 else 2

/-- An abdication asked for by command or escalation (06 R161); none is begun twice. -/
def State.abdicate (s : State) : State := s.updMir fun m => { m with abd := max 1 m.abd }

/-- R432. -/
def State.takeCode (s : State) : Nat :=
  if s.get MIRROR_state ≠ 3 then 1
  else if s.mir.renewed ≠ 0 ∧ !s.mir.expired then 5
  else if s.ownRecent then 4
  else if s.mir.pActive ≠ 0 ∧ s.counter < s.mir.pActive - 1 + ticksPerSec / 1000 then 3
  else 0

/-- MIR_CMD abdicate (R431). -/
def State.mirAbdicate (s : State) : State :=
  let c := s.abdicateCode
  let s := s.set MIR_CMD_STAT_0 c
  if c = 0 then s.abdicate else s

/-- MIR_CMD rearm (R440). -/
def State.mirRearm (s : State) : State := (s.set MIRROR_hold 0).set MIR_CMD_STAT_0 0

/-- MIR_CMD take (R432). -/
def State.mirTake (s : State) : State :=
  let c := s.takeCode
  let s := s.set MIR_CMD_STAT_0 c
  if c = 0 then s.updMir fun m => { m with due := 2 } else s

/-- MIR_CMD restart of the full pass. -/
def State.mirRestartPass (s : State) : State :=
  if s.get MIRROR_state = 2 then (s.updMir fun m => { m with restart := true }).set MIR_CMD_STAT_0 0 else s.set MIR_CMD_STAT_0 1

def execMirAbdicate (a : Acc) (s : State) : Out := .next (s.writeAt a 0x34 0x048 State.mirAbdicate)
def execMirRearm (a : Acc) (s : State) : Out := .next (s.writeAt a 0x34 0x048 State.mirRearm)
def execMirTake (a : Acc) (s : State) : Out := .next (s.writeAt a 0x34 0x048 State.mirTake)
def execMirRestartPass (a : Acc) (s : State) : Out := .next (s.writeAt a 0x34 0x048 State.mirRestartPass)

end Sys2Proof.Machine
end

