-- ==== Sys2Proof/Machine/Clock.lean ====
section
/-! DEFINITION. The Clockmaker (10): formatted time, states, resynchronisation, jumps, sync and delay frames' measurements, the time pulse port. -/

namespace Sys2Proof.Machine


/-! ## Time arithmetic (R268, R269) -/

def State.offset (s : State) : Int := sint 64 (s.get64 CM_OFFSET_LO_0 CM_OFFSET_HI_0)
def State.setOffset (s : State) (o : Int) : State := s.set64 CM_OFFSET_LO_0 CM_OFFSET_HI_0 (unsint 64 o)
def State.addOffset (s : State) (c : Int) : State := s.setOffset (s.offset + c)

/-- CM_RATE as a number. -/
def State.cmRate (s : State) : Int := sint 32 (s.get CM_RATE_0)

/-- R269: the product term moves into offset, anchor becomes counter_ns. -/
def State.reanchor (s : State) : State :=
  let anchor : Int := (s.get64 CM_ANCHOR_LO_0 CM_ANCHOR_HI_0 : Nat)
  (s.addOffset (((s.cns : Int) - anchor) * s.rateEff / 2 ^ 40)).set64 CM_ANCHOR_LO_0 CM_ANCHOR_HI_0 s.cns

/-- The limit of a rate: 500 ppm in 2^-40. -/
def rateMax : Int := 549755813

def clampI (m v : Int) : Int := max (-m) (min m v)

/-- CM_RATE set, with a re-anchor. -/
def State.setRate (s : State) (r : Int) : State := s.reanchor.set CM_RATE_0 (unsint 32 (clampI rateMax r))

/-- A correction's sign. -/
def sgn (c : Int) : Int := if c < 0 then -1 else if c = 0 then 0 else 1

/-- R278: a slew of c replaces what remains of the one before; the rate in 2^-40 is rounded toward zero (log entry 21). -/
def State.startSlew (s : State) (c : Int) : State :=
  s.reanchor.updK fun k => { k with slewRate := sgn c * ((s.get CM_SLEW_0 * 2 ^ 40 / 1000000 : Nat) : Int), slewC := c, slewFrom := s.cns }

/-- No slew runs. -/
def State.stopSlew (s : State) : State := s.reanchor.updK fun k => { k with slewRate := 0, slewC := 0, slewFrom := 0 }

/-- R278: the slew has worked off c; what the truncated slew term lacks goes to offset. -/
def State.slewEnd (s : State) : State :=
  if s.clk.slewRate = 0 then s else
  let done := ((s.cns : Int) - s.clk.slewFrom) * s.clk.slewRate / 2 ^ 40
  s.stopSlew.addOffset (s.clk.slewC - done)

def execSlewEnd (s : State) : Out := .next s.slewEnd

/-! ## States (R271, R292) -/

/-- A Clockmaker record: state and reason, c, n. -/
def State.clkRecord (s : State) (code sev reason : Nat) (c : Int) (n : Nat) : State :=
  s.record code sev [s.get CLOCKMAKER_state + 256 * reason, unsint 64 c % 2 ^ 32, unsint 64 c / 2 ^ 32, n]

/-- A change of state. -/
def State.clkEnter (s : State) (st reason : Nat) (c : Int) (n : Nat) : State :=
  if s.get CLOCKMAKER_state = st then s else
  let s := (s.set CLOCKMAKER_state st).setB CLOCKMAKER_sync (decide (st = 2 ∨ st = 3))
  let s := if st = 2 then s.fioRealign else s
  let s := (s.raiseInt 0x38 0).clkRecord 0x3801 3 reason c n
  if st = 3 then s.clkRecord 0x3805 4 reason c n else if st = 4 then s.clkRecord 0x3806 5 reason c n else s

/-! ## Steps and jumps (R278 to R280, R155, R256) -/

/-- The jump marker: the Porter enters acquiring without reject or record, its switches shut (R256, R263). -/
def State.porterMarker (s : State) : State :=
  let s := (s.set PORTER_state 1).set PORTER_STATE_8 0
  s.updN fun c => { c with porter := { c.porter with rejects := 0, acqLast := none, acqLen := none, good := 0, run := false, opened := [] } }

/-- 06 R155: the cycle unit realigns to the first multiple of base at least half a base cycle ahead; basic cycles are counted anew (R263). -/
def State.cycRealign (s : State) : State :=
  let s := s.updN fun c => { c with k := s.now / (c.act.b * 1000) }
  if !s.flag CYCLE_running then s else
  let base := s.get CYC_BASE_0 * 10000
  let n := (s.now + base / 2 + base - 1) / base
  let s := s.updCyc fun c => { c with next := n, realign := true }
  (s.raiseInt 0x0B 2).record 0x0B03 3 [0, 0, 0, 0]

/-- The correction of CM_LASTCORR. -/
def State.lastCorr (s : State) (c : Int) : State := s.set64 CM_LASTCORR_LO_0 CM_LASTCORR_HI_0 (unsint 64 c)

/-- 11 R310: a polling master resumes at the first basic period start under the new time. -/
def State.pollRealign (s : State) : State :=
  s.each s.polls fun s e =>
    let s := s.setPolls (s.polls.map fun x => if x.1 = e.1 then (x.1, { x.2 with k := s.now / (500000 * 2 ^ x.2.per), go := false }) else x)
    if e.2.go then s.record 0x3A07 3 [e.1, 0, s.get (POLL_BPCOUNT_0 e.1), 0] else s

/-- An accepted jump: offset steps, the marker goes to the Porter, the cycle unit realigns. -/
def State.takeJump (s : State) (c : Int) : State := ((s.addOffset c).lastCorr c).porterMarker.cycRealign.pollRealign.fioRealign

/-- No jump is pending. -/
def State.clearJump (s : State) : State :=
  ((s.set CLOCKMAKER_jump_pending 0).set CLOCKMAKER_confirm 0).set64 CM_PEND_LO_0 CM_PEND_HI_0 0

/-- ts_jump_max and step_max in ns. -/
def State.jumpMax (s : State) : Int := ((s.get CM_JUMP_0 * 100 : Nat) : Int)
def State.stepMax (s : State) : Int := ((s.get CM_JUMP_16 * 100 : Nat) : Int)

/-- R279: a resync refused as a jump, with `conf` confirmations. -/
def State.jumpRefuse (s : State) (c : Int) (conf n : Nat) : State :=
  let s := ((s.set CLOCKMAKER_jump_pending 1).set CLOCKMAKER_confirm conf).set64 CM_PEND_LO_0 CM_PEND_HI_0 (unsint 64 c)
  let s := (s.count CLOCKMAKER_jump_count).raiseInt 0x38 1
  s.clkRecord 0x3802 5 10 c n

/-- R277. -/
def State.rateUpdate (s : State) (rho : Int) : State :=
  s.setRate (s.cmRate + Int.tdiv (rho - s.cmRate) (2 ^ s.get CM_SYNC_CTL_12))

/-- R278: c applied by its size. -/
def State.applyCorr (s : State) (c : Int) : State :=
  let s := s.lastCorr c
  if c.natAbs ≤ s.stepMax.natAbs then s.startSlew c
  else
    let s := s.stopSlew.addOffset c
    if s.get PORTER_TOL_0 * 4 < c.natAbs then s.porterMarker else s

/-- R277 to R279 for a resync with result c, rho; `ds` its valid deviations. -/
def State.correct (s : State) (c rho : Int) (ds : List Int) : State :=
  let n := ds.length
  if (c.natAbs : Int) ≤ s.jumpMax then (s.clearJump.rateUpdate rho).applyCorr c
  else
    let near := (ds.filter fun d => decide (((d - c).natAbs : Int) ≤ s.stepMax)).length
    let conf := s.get CLOCKMAKER_confirm
    if s.flag CLOCKMAKER_jump_pending ∧ n < 2 * near ∧ ((c - s.clk.firstC).natAbs : Int) ≤ s.stepMax then
      if conf < 2 then s.jumpRefuse c (conf + 1) n
      else
        let s := (s.clearJump.rateUpdate rho).stopSlew.takeJump c
        (s.raiseInt 0x38 2).clkRecord 0x3803 5 11 c n
    else (s.updK fun k => { k with firstC := c }).jumpRefuse c 1 n

/-! ## Resynchronisation (R275, R276) -/

/-- The module is a sync node (R272). -/
def State.syncNode (s : State) : Bool :=
  s.flag CM_SYNC_CTL_1 && s.inCharge && !s.passive &&
  (List.range 15).any fun i => s.flag (CM_N_CFG_31 i) && s.get (CM_N_CFG_0 i) == s.get ALM_FA_0

/-- A state without correction. -/
def unsynced (st : Nat) : Bool := st == 0 || st == 1 || st == 4

/-- A node's deviation, rate, sender's state, whether plane B gave it and whether the planes disagree. -/
structure NodeDev where
  i : Nat
  d : Int
  r : Option Int
  st : Nat
  planeB : Bool
  dis : Bool

/-- The deviation of node i in the matrix cycle ended. -/
def State.nodeDev (s : State) (i : Nat) : Option NodeDev :=
  if !s.flag (CM_N_CFG_31 i) then none
  else if s.syncNode ∧ s.get (CM_N_CFG_0 i) = s.get ALM_FA_0 then
    some { i := i, d := 0, r := some s.cmRate, st := s.get CLOCKMAKER_state, planeB := false, dis := false }
  else match SMap.find? s.clk.meas (2 * i), SMap.find? s.clk.meas (2 * i + 1) with
    | some a, some b => some { i := i, d := a.1, r := a.2.1, st := a.2.2, planeB := false, dis := decide (100 < (a.1 - b.1).natAbs) }
    | some a, none => some { i := i, d := a.1, r := a.2.1, st := a.2.2, planeB := false, dis := false }
    | none, some b => some { i := i, d := b.1, r := b.2.1, st := b.2.2, planeB := true, dis := false }
    | none, none => none

/-- Insert by value: `lt` before. -/
def insertBy {α : Type} (lt : α → α → Bool) (x : α) : List α → List α
  | [] => [x]
  | y :: r => if lt y x then y :: insertBy lt x r else x :: y :: r

/-- Sort, stable in the order of the list. -/
def sortBy {α : Type} (lt : α → α → Bool) (l : List α) : List α := l.foldr (insertBy lt) []

/-- The k largest and the k smallest of (value, node) pairs, nothing twice; equal values in ascending node index. -/
def outliers (k : Nat) (l : List (Int × Nat)) : List Nat × List Nat :=
  let big := (sortBy (fun a b => decide (b.1 < a.1 ∨ (a.1 = b.1 ∧ a.2 < b.2))) l).take k
  let rest := l.filter fun x => !big.any fun y => y.2 = x.2
  let small := (sortBy (fun a b => decide (a.1 < b.1 ∨ (a.1 = b.1 ∧ a.2 < b.2))) rest).take k
  (big.map (·.2), small.map (·.2))

/-- The quotient rounded to the nearest integer, halves away from zero. -/
def roundDiv (a b : Int) : Int :=
  if b = 0 then 0
  else if (0 ≤ a) = (0 < b) then ((2 * a.natAbs + b.natAbs) / (2 * b.natAbs) : Nat)
  else -((2 * a.natAbs + b.natAbs) / (2 * b.natAbs) : Nat)

/-- k of R276. -/
def dropK (n : Nat) : Nat := if n < 3 then 0 else if n < 8 then 1 else 2

/-- The mean without the outliers. -/
def trimMean (l : List (Int × Nat)) : Option Int :=
  let o := outliers (dropK l.length) l
  let r := (l.filter fun x => !o.1.contains x.2 && !o.2.contains x.2).map (·.1)
  if r.isEmpty then none else some (roundDiv r.sum r.length)

/-- CM_N_DEV and CM_N_STAT of node i. -/
def State.nodeShow (s : State) (valid : List NodeDev) (o : List Nat × List Nat) (i : Nat) : State :=
  let s := ((s.setB (CM_N_STAT_1 i) (o.1.contains i)).setB (CM_N_STAT_2 i) (o.2.contains i)).setB (CM_N_STAT_0 i) (valid.any fun v => v.i = i)
  match s.nodeDev i with
  | some v =>
    let s := (s.set (CM_N_DEV_0 i) (unsint 32 (clampI 0x7FFFFFFF v.d))).setB (CM_N_STAT_3 i) v.planeB
    let s := ((s.setB (CM_N_STAT_4 i) v.dis).set (CM_N_STAT_5 i) v.st).set (CM_N_STAT_8 i) 0
    if v.dis then s.raiseInt 0x38 4 else s
  | none => s.count (CM_N_STAT_8 i)

/-- R271: a resync with too few valid deviations. -/
def State.resyncMissed (s : State) (n : Nat) : State :=
  let st := s.get CLOCKMAKER_state
  let s := s.clearJump
  let s := (s.raiseInt 0x38 3).once (0x3808 * 65536) ticksPerSec fun s => s.clkRecord 0x3808 4 14 0 n
  if st = 1 then s.clkEnter s.clk.acqFrom 4 0 n
  else if st = 2 then
    let s := s.updK fun k => { k with miss := k.miss + 1 }
    if s.get CM_SYNC_CTL_14 ≤ s.clk.miss then s.clkEnter 3 5 0 n else s
  else s

/-- R271: a resync with results. -/
def State.resyncTaken (s : State) (c rho : Int) (ds : List Int) : State :=
  let n := ds.length
  let st := s.get CLOCKMAKER_state
  let s := s.updK fun k => { k with miss := 0 }
  if st = 0 ∨ st = 4 then (s.updK fun k => { k with acqFrom := st, c1 := c }).clkEnter 1 2 c n
  else if st = 1 then
    if ((c - s.clk.c1).natAbs : Int) ≤ s.stepMax then (s.takeJump c).clkEnter 2 3 c n
    else s.clkEnter s.clk.acqFrom 4 c n
  else
    let s := s.correct c rho ds
    if st = 3 then s.clkEnter 2 6 c n else s

/-- R276: the resync at a matrix cycle start. -/
def State.resync (s : State) : State :=
  if !s.flag CM_SYNC_CTL_0 then s else
  let all := (List.range 15).filterMap s.nodeDev
  let own := s.get CLOCKMAKER_state
  let valid := all.filter fun v => v.st = 2 || v.st = 3 || (unsynced v.st && unsynced own)
  let ds := valid.map fun v => (v.d, v.i)
  let rs := valid.filterMap fun v => v.r.map fun r => (r, v.i)
  let n := ds.length
  let s := s.each (List.range 15) fun s i => s.nodeShow valid (outliers (dropK n) ds) i
  let s := ((s.set CM_RESYNC_0 n).set CM_RESYNC_4 (dropK n)).set CM_RESYNC_8 (s.get CM_RESYNC_8 + 1)
  let s := s.updK fun k => { k with meas := [] }
  if n < s.get CM_SYNC_CTL_10 then s.resyncMissed n
  else s.resyncTaken ((trimMean ds).getD 0) ((trimMean rs).getD s.cmRate) (ds.map (·.1))

def execHoldoverExpiry (s : State) : Out := .next (if s.get CLOCKMAKER_state = 3 then s.clkEnter 4 7 0 0 else s)

/-! ## Sync and delay frames (R273 to R275), judged by the consist engine -/

/-- The node index of a functional address. -/
def State.nodeOf (s : State) (fa : Nat) : Option Nat :=
  (List.range 15).find? fun i => s.flag (CM_N_CFG_31 i) && s.get (CM_N_CFG_0 i) == fa

/-- Arrival stamp of a frame at port x (R283). -/
def State.rxStamp (s : State) (x : Nat) : Int := s.nowI - s.get (TS_PORTCTL_18 x)

/-- Departure stamp at port x. -/
def State.txStamp (s : State) (x : Nat) : Int := s.nowI + s.get (TS_PORTCTL_8 x)

/-- R275: an accepted sync frame of node i at port x: source time, sender's state. -/
def State.syncMeasure (s : State) (i x : Nat) (src : Int) (st : Nat) : State :=
  let pl := x % 2
  let rate : Option Int := match SMap.find? s.clk.prev (2 * i + pl) with
    | some (t, c) => if c < s.cns then some (roundDiv ((src - t - ((s.cns : Int) - c)) * 2 ^ 40) ((s.cns : Int) - c)) else none
    | none => none
  let s := match SMap.find? s.clk.delays (4 * i + x) with
    | some (d :: l) =>
      let delay := l.foldl min d
      s.updK fun k => { k with meas := SMap.insert (SMap.erase k.meas (2 * i + pl)) (2 * i + pl) (src + delay - s.rxStamp x, rate, st) }
    | _ => s
  s.updK fun k => { k with prev := SMap.insert (SMap.erase k.prev (2 * i + pl)) (2 * i + pl) (src, s.cns) }

/-- R274: a response of node i at port x: t2, t3. -/
def State.delaySample (s : State) (i x num : Nat) (t2 t3 : Int) : State :=
  match SMap.find? s.clk.reqs (4 * i + x) with
  | some (m, t1) =>
    if m ≠ num then s else
    let d := ((s.rxStamp x - t1) - (t3 - t2)) / 2
    let l := d :: ((SMap.get s.clk.delays (4 * i + x) []).take 7)
    let s := s.updK fun k => { k with reqs := SMap.erase k.reqs (4 * i + x), delays := SMap.put k.delays (4 * i + x) [] l }
    let v := (l.foldl min d).toNat
    s.set (if x % 2 = 0 then CM_N_DELAY_0 i else CM_N_DELAY_16 i) (min v 0xFFFF)
  | none => s

/-- R274: the nodes due for a delay request in matrix cycle m. -/
def State.delayDue (s : State) (m : Nat) : State :=
  if !s.flag CM_SYNC_CTL_0 then s else
  let l := (List.range 15).filter fun i => s.flag (CM_N_CFG_31 i) && s.get (CM_N_CFG_0 i) != s.get ALM_FA_0 && (m + i) % s.get CM_DLY_0 == 0
  s.updK fun k => { k with reqDue := l }

/-- R274: no response within two matrix cycles. -/
def execDelayResponseTimeout (node : Fin 15) (plane : Fin 2) (s : State) : Out :=
  .next (s.updK fun k => { k with reqs := k.reqs.filter fun e => !(e.1 / 4 = node.val && e.1 % 2 = plane.val) })

/-! ## Commands (R271, R280, R290) -/

/-- CM_CMD answered. -/
def State.cmStat (s : State) (c : Nat) : State := s.set CM_CMD_STAT_0 c

def State.cmAccept (s : State) : State :=
  if !s.flag CLOCKMAKER_jump_pending then s.cmStat 1 else
  let c := sint 64 (s.get64 CM_PEND_LO_0 CM_PEND_HI_0)
  let s := s.clearJump.takeJump c
  ((s.raiseInt 0x38 2).clkRecord 0x3804 5 12 c (s.get CM_RESYNC_0)).cmStat 0

def State.cmReject (s : State) : State := if s.flag CLOCKMAKER_jump_pending then s.clearJump.cmStat 0 else s.cmStat 1

/-- R269: a slew ends at a software set. -/
def State.cmSet (s : State) : State :=
  let st := s.get CLOCKMAKER_state
  if st = 0 ∨ st = 4 ∨ !s.flag CM_SYNC_CTL_0 then
    let s := s.stopSlew
    let c := sint 64 (unsint 64 ((s.get64 CM_SETVAL_LO_0 CM_SETVAL_HI_0 : Nat) - s.nowI))
    let s := s.takeJump c
    ((s.raiseInt 0x38 2).clkRecord 0x3807 4 13 c (s.get CM_RESYNC_0)).cmStat 0
  else s.cmStat 2

def execCmAccept (a : Acc) (s : State) : Out := .next (s.writeAt a 0x38 0x070 State.cmAccept)
def execCmReject (a : Acc) (s : State) : Out := .next (s.writeAt a 0x38 0x070 State.cmReject)
def execCmSet (a : Acc) (s : State) : Out := .next (s.writeAt a 0x38 0x070 State.cmSet)

/-- node_cap: manager, and not EUL-T3S (R289). -/
def State.nodeCap (s : State) : Bool := s.get SW_CFG_LO_0 % 2 == 1 && !s.isS

/-- CM_SYNC_CTL. -/
def State.syncCtl (s : State) (v : Nat) : State :=
  let was := s.flag CM_SYNC_CTL_0
  let s := (s.setB CM_SYNC_CTL_0 (bitOf v 0)).setB CM_SYNC_CTL_1 (bitOf v 1 && s.nodeCap)
  let s := ((s.set CM_SYNC_CTL_2 (v / 4)).set CM_SYNC_CTL_10 (max 1 (bitsOf v 10 2))).set CM_SYNC_CTL_12 (v / 2 ^ 12)
  let s := s.set CM_SYNC_CTL_14 (max 1 (bitsOf v 14 3))
  if !bitOf v 0 then s.clkEnter 2 8 0 0 else if !was then s.clkEnter 0 9 0 0 else s

def execCmSyncCtlWrite (a : Acc) (v : Nat) (s : State) : Out := .next (s.writeAt a 0x38 0x064 fun s => s.syncCtl v)

/-- CM_RATE. -/
def State.rateWrite (s : State) (v : Nat) : State :=
  if s.get CLOCKMAKER_state = 0 ∨ s.get CLOCKMAKER_state = 4 then s.setRate (sint 32 v) else s

def execCmRateWrite (a : Acc) (v : Nat) (s : State) : Out := .next (s.writeAt a 0x38 0x060 fun s => s.rateWrite v)

/-! ## Time pulse port (R287) -/

/-- The pulse period in ns. -/
def State.pulsePeriod (s : State) : Nat := 10 ^ (9 - s.get TS_PULSE_2)

/-- A multiple of the period is reached or stepped over. -/
def execTimePulseOutput (s : State) : Out :=
  .next (
    let i := s.now / s.pulsePeriod + 1
    if !s.isS && s.flag TS_PULSE_0 && !s.flag TS_PULSE_1 && s.synced && decide (s.clk.pulse < i) then s.updK fun k => { k with pulse := i } else s)

/-- The real high word of TS_PCAP and of TS_TXLAST, beside their banked latches. -/
def pcapHi : Fld := ⟨0x39, 0x0A8, 0, 32, 0, 0⟩
def txlastHi (x : Nat) : Fld := ⟨0x39, 0x064 + 8 * x, 0, 32, 0, 0⟩

/-- A rising edge in input mode. -/
def execTimePulseCapture (s : State) : Out :=
  .next (if !s.isS && s.flag TS_PULSE_0 && s.flag TS_PULSE_1 then
    ((s.set64 TS_PCAP_LO_0 pcapHi s.now).count ⟨0x39, 0x030, 0, 16, 0, 0⟩).raiseInt 0x39 0
  else s)

/-! ## Start, wake, sleep (R282) -/

/-- UNSET at a start from OFF or a cold restart: counter, offset, anchor and rate 0. -/
def State.clkStart (s : State) : State :=
  let s := ((((s.setCounter 0).updK fun _ => ClockS.init).setOffset 0).set64 CM_ANCHOR_LO_0 CM_ANCHOR_HI_0 0).set CM_RATE_0 0
  let s := ((s.clearJump.lastCorr 0).set CLOCKMAKER_sync 0).updLg fun g => { g with limits := [] }
  let s := s.set CLOCKMAKER_state 0
  (s.raiseInt 0x38 0).clkRecord 0x3801 3 1 0 0

/-- Wake: `ticks` of 32.768 kHz have passed. -/
def State.clkWake (s : State) (ticks : Nat) : State :=
  let s := s.stopSlew.addOffset (((ticks * 30517578125 + 500000) / 1000000 : Nat) : Int)
  let s := (s.clearJump.set CLOCKMAKER_sync 0).set CLOCKMAKER_state 0
  (s.raiseInt 0x38 0).clkRecord 0x3801 3 1 0 0

end Sys2Proof.Machine
end

