-- ==== Sys2Proof/Machine/LaneMgr.lean ====
section
/-! DEFINITION. The lane manager (04): faults of a lane, starts, tests, the rejoin of an apprentice, debug attach and detach. -/

namespace Sys2Proof.Machine


/-- The lane in rejoin, if one is. -/
def State.rejoinLane (s : State) : Option (Fin 3) :=
  let r := s.get LANEMGR_rejoin_lane
  if r < 3 then some (laneIx r) else none

/-! ## Rejoin: hold, passes, failure (R114 to R120) -/

/-- The copy source: the lowest-lettered ACTIVE lane. -/
def State.copySource (s : State) : Option (Fin 3) := (s.lanesIn lActive).head?

/-- Release the hold of R117: pairs run on, the Courier stamps again and forms the releases that are due (05 R141, R145). -/
def State.holdRelease (s : State) : State :=
  let s := s.each allLanes fun s l => s.each allPairs fun s p => s.updP l p fun q => { q with held := false }
  let s := s.updM fun m => { m with hold := none, holdDue := false }
  (s.set COURIER_suspended 0).each allPairs fun s p => s.releaseTry p

/-- A rejoin fails (R119, R120): the lane to ISOLATED, record 0x0909. -/
def State.rejoinFail (s : State) (l : Fin 3) (cause pair item : Nat) (before : State → State) : State :=
  let mask := s.activeMask
  let s := s.holdRelease
  let s := (s.set (laneField l) lIsolated).setCause l cause pair item
  let s := before s
  let s := s.lmRecord 0x0909 5 l mask
  let s := ((s.set LANEMGR_rejoin_lane 7).set LM_REJ_STAT_0 0).updL l fun n => { n with out := [], reports := [], replayed := [] }
  let s := s.updA fun x => x.dropLane l
  let s := (s.courDropLane l).freeDone
  ((s.count LANEMGR_iso_count).raiseInt 9 0).raiseInt 9 2

/-- A page's granule lets the copy engine read it (R115): tightly coupled memory, and granules owned by 0 to 4. -/
def State.pageCopied (s : State) (l : Fin 3) (a : Nat) : Bool :=
  (0x2000000 ≤ a && a < 0x2800000) || decide (s.granOf l a ≤ 4)

/-- Copy pages of the source to the apprentice: all of them, or the dirty ones; their dirty bits clear (R116). -/
def State.copyPages (s : State) (src l : Fin 3) (all : Bool) : State :=
  let n := s.ln src
  let sel (a : Nat) : Bool := s.pageCopied src a && (all || SMap.get n.dirty (a / 4096) 0 = 1)
  let s := s.updL l fun x =>
    { x with mem := (n.mem.filter fun e => sel e.1).foldl (fun m e => SMap.put m e.1 0 e.2) (x.mem.filter fun e => !sel e.1) }
  s.updL src fun x => { x with dirty := [] }

/-- Dirty pages of the source. -/
def State.dirtyCount (s : State) : Nat :=
  match s.copySource with
  | some src => (s.ln src).dirty.length
  | none => 0

/-- P_max of R118. -/
def State.pMax (s : State) : Nat := (s.get LM_REJOIN_4 * 1000 - 13192) / 512

/-- A further pass, or failure once max_passes have run (R118, R120). -/
def State.furtherPass (s : State) (l : Fin 3) : State :=
  let k := s.get LM_REJ_STAT_4
  if s.get LM_REJOIN_16 ≤ k then s.rejoinFail l 8 0 1 id
  else
    let s := (s.set LM_REJ_STAT_0 2).set LM_REJ_STAT_4 (k + 1)
    match s.copySource with
    | some src => s.copyPages src l false
    | none => s

/-- R117: the hold command, at a hallmark edge of adm_class: hold counts, no stamps, no releases. -/
def State.holdCommand (s : State) : State :=
  let h (p : Fin 4) : Nat := (s.lanesIn lActive).foldl (fun m l => max m ((s.assay.high.get l).get p)) 0 + 512
  let s := s.updM fun m => { m with hold := some ⟨h 0, h 1, h 2, h 3⟩, holdDue := false }
  (s.set COURIER_suspended 1).set LM_REJ_STAT_0 3

/-- The pairs of a lane that a hold waits for: started and not stopped. -/
def State.holdPairs (s : State) (l : Fin 3) : List (Fin 4) :=
  allPairs.filter fun p => decide (p.val < s.nPairs) && bitOf (s.ln l).mpairrun p.val && !(s.pr l p).stopped

/-- Every pair of both ACTIVE lanes is held. -/
def State.allHeld (s : State) : Bool :=
  (s.lanesIn lActive).all fun l => (s.holdPairs l).all fun p => (s.pr l p).held

/-- R117, R118: a pair of an ACTIVE lane at its hold count or in a PACE wait stops; once all are held the dirty pages decide. -/
def State.holdPoint (s : State) (l : Fin 3) (p : Fin 4) : State :=
  match s.mgr.hold, s.rejoinLane with
  | some h, some r =>
    let q := s.pr l p
    let pacing := match q.wait with | .pace _ => true | _ => false
    if s.laneState l = lActive && (s.holdPairs l).contains p && !q.held && (decide (h.get p ≤ q.cev 0) || pacing) then
      let s := s.updP l p fun q => { q with held := true }
      if s.allHeld then
        let s := s.set LM_REJ_DIRTY_0 s.dirtyCount
        if s.pMax < s.dirtyCount then (s.holdRelease).furtherPass r else s
      else s
    else s
  | _, _ => s

def execHoldPointReached (l : Fin 3) (p : Fin 4) (s : State) : Out := .next (s.holdPoint l p)

/-- R118: not every pair held within the skew limit plus 1 µs. -/
def execHoldTimeout (s : State) : Out :=
  .next (match s.mgr.hold, s.rejoinLane with
    | some _, some r => if s.allHeld then s else s.holdRelease.furtherPass r
    | _, _ => s)

/-- R118: the lane state block as the apprentice receives it. -/
def LaneS.stateBlock (src old : LaneS) : LaneS :=
  let f (q : PairS) : PairS := { q with held := false, stamps := [], release := none, due := [], halted := false, haltWhy := 0, stepping := false }
  { src with
      pairs := ⟨f src.pairs.a, f src.pairs.b, f src.pairs.c, f src.pairs.d⟩
      mem := old.mem, dirty := [], out := [], reports := [], replayed := [] }

/-- R118, R144: state block and dirty pages are copied, all lanes resume, the apprentice receives the stamps still to come. -/
def State.windowEnd (s : State) : State :=
  match s.mgr.hold, s.rejoinLane, s.copySource with
  | some _, some r, some src =>
    if !s.allHeld then s else
    let pages := s.dirtyCount
    let s := s.copyPages src r false
    let b := s.ln src
    let s := s.updL r fun old => b.stateBlock old
    let s := s.each allPairs fun s p =>
      let coming (n : Nat) : Bool := (s.pr src p).stamps.any (fun st => st.num = n) || (s.cr p).flits.any fun f => f.1 = src && f.2.num = n
      s.updC p fun c =>
        { c with flits := c.flits ++ (c.out.filter fun o => coming o.st.num).map fun o => (r, o.st)
                 rels := c.rels ++ ((c.rels.filter fun x => x.1 = src).map (·.2) ++ (s.pr src p).release.toList).map fun x => (r, x) }
    let s := s.set LM_REJ_DIRTY_0 pages
    let s := (s.set LM_REJ_WIN_0 ((13192 + 512 * pages) / 100)).set LM_REJ_STAT_0 4
    let s := s.updA fun x => { x with high := x.high.set r (x.high.get src) }
    let s := s.updM fun m => { m with conf := Quad.all false }
    let hs := s.mgr.hold
    let s := s.holdRelease
    s.updM fun m => { m with hold := none, confAt := hs.getD (Quad.all 0) }
  | _, _, _ => s

def execAdmissionWindowEnd (s : State) : Out := .next s.windowEnd

/-- R119: 100 ms without confirmation. -/
def execConfirmationTimeout (s : State) : Out :=
  .next (match s.rejoinLane with
    | some r => if s.get LM_REJ_STAT_0 = 4 then s.rejoinFail r 8 0 5 id else s
    | none => s)

/-- R119: at a hallmark edge the apprentice becomes ACTIVE once every started pair is confirmed. -/
def State.rejoinConfirm (s : State) : State :=
  match s.rejoinLane with
  | none => s
  | some r =>
    let pacedAlike (p : Fin 4) : Bool :=
      match (s.pr r p).wait with
      | .pace c => (s.lanesIn lActive).all fun l => (s.pr l p).wait = .pace c
      | _ => false
    let ok := (s.holdPairs r).all fun p => s.mgr.conf.get p || pacedAlike p
    if s.get LM_REJ_STAT_0 = 4 && ok then
      let mask := s.activeMask
      let s := (s.set (laneField r) lActive).set ASSAY_voters (setBit (s.get ASSAY_voters) r.val)
      let s := s.setMode 3
      let s := s.lmRecord 0x0908 4 r mask
      ((s.set LM_REJ_STAT_0 0).set LANEMGR_rejoin_lane 7).raiseInt 9 1
    else s

/-- R115, R116, R118: the end of a copy pass. -/
def State.passEnd (s : State) (crcFail : Bool) : State :=
  match s.rejoinLane with
  | none => s
  | some r =>
    if s.get LM_REJ_STAT_0 ≠ 2 ∨ s.mgr.holdDue then s
    else if crcFail then s.rejoinFail r 8 0 2 id
    else
      let d := s.dirtyCount
      let s := s.set LM_REJ_DIRTY_0 d
      if d ≤ s.pMax then s.updM fun m => { m with holdDue := true } else s.furtherPass r

def execCopyPassEnd (crcFail : Bool) (s : State) : Out := .next (s.passEnd crcFail)

/-! ## Leaving BOOT (R112) -/

/-- A lane in BOOT does not start: ISOLATED, with its cause, its record and its interrupt (R106, R109, R112). -/
def State.bootFault (s : State) (l : Fin 3) (cause pair item code : Nat) : State :=
  let mask := s.activeMask
  let s := s.updM fun m => { m with ready := m.ready.set l false, detach := if m.detach = some l then none else m.detach }
  let s := (s.set (laneField l) lIsolated).setCause l cause pair item
  ((s.lmRecord code 6 l mask).count LANEMGR_iso_count).raiseInt 9 0

/-- Lanes in BOOT that are ready. -/
def State.readyLanes (s : State) : List (Fin 3) := allLanes.filter fun l => s.mgr.ready.get l && s.laneState l = lBoot

/-- The lanes that are ready enter ACTIVE at one instant. -/
def State.lanesEnter (s : State) : State :=
  let rd := s.readyLanes
  let s := s.each rd fun s l => s.set (laneField l) lActive
  let s := s.set ASSAY_voters (rd.foldl (fun m l => setBit m l.val) 0)
  let s := s.setMode (if rd.length = 3 then 3 else 2)
  let s := s.set (COUR_PAIRSTAT_13 0) 1
  s.updM fun m => { m with ready := Tri.all false }

/-- Lanes are in their start boot: none is ACTIVE, no rejoin and no detach boot runs, the module is not passive. -/
def State.starting (s : State) : Bool :=
  (s.lanesIn lActive).isEmpty && s.rejoinLane.isNone && !s.passive && !(s.lanesIn lBoot).isEmpty

/-- At least two lanes are ready and none is still to come. -/
def State.enterTry (s : State) : State :=
  if s.starting && decide (2 ≤ s.readyLanes.length) && (s.lanesIn lBoot).all (fun l => s.mgr.ready.get l) then s.lanesEnter else s

/-- R109, R112: the start boot of a lane ends: it is ready, or a pair's start test failed. -/
def State.laneReady (s : State) (l : Fin 3) (failed : Option (Fin 4)) : State :=
  if s.starting && s.laneState l = lBoot && s.mgr.detach ≠ some l then
    (match failed with
      | none => s.updM fun m => { m with ready := m.ready.set l true }
      | some p => (s.bootFault l 5 p.val 0 0x0904).raiseInt 9 5).enterTry
  else s

def execLaneReady (l : Fin 3) (failed : Option (Fin 4)) (s : State) : Out := .next (s.laneReady l failed)

/-- R112: two ready lanes run on without the third; fewer make the module passive, cause 13. -/
def State.readyDeadline (s : State) : State :=
  if !s.starting then s else
  let late := allLanes.filter fun l => !s.mgr.ready.get l && s.laneState l = lBoot
  if 2 ≤ s.readyLanes.length then (s.each late fun s l => s.bootFault l 6 0 0 0x0904).lanesEnter
  else
    let s := s.setPassive 13
    s.each late fun s l => s.bootFault l 6 0 0 0x0904

def execReadyDeadlineExpiry (s : State) : Out := .next s.readyDeadline

/-! ## Faults of a lane (R106, R107, R110) -/

/-- A lane fault the lane manager acts on in the state the lane is in: cause, pair, item, record code. -/
def State.laneFault (s : State) (l : Fin 3) (cause pair item code : Nat) : State :=
  let st := s.laneState l
  let mask := s.activeMask
  let rec' (s : State) : State := s.lmRecord code 6 l mask
  if st = lActive then
    let s := s.unvote l
    rec' (s.setCause l cause pair item)
  else if st = lApprentice ∨ (st = lBoot ∧ s.rejoinLane = some l) then s.rejoinFail l cause pair item rec'
  else if st = lBoot then (s.bootFault l cause pair item code).enterTry
  else s

/-- R106: the comparator is off in DEBUG. -/
def execPairComparatorMismatch (l : Fin 3) (p : Fin 4) (item : Fin 5) (s : State) : Out :=
  .next (s.laneFault l 2 p.val item.val 0x0901)

/-- R106: in DEBUG only the record is written. -/
def execLaneMemoryUncorrectable (l : Fin 3) (p : Fin 4) (s : State) : Out :=
  .next (if s.laneState l = lDebug then s.lmRecord 0x0902 6 l s.activeMask else s.laneFault l 3 p.val 0 0x0902)

/-- R107. -/
def execFlitWatchdogExpiry (l : Fin 3) (s : State) : Out := .next (s.laneFault l 4 0 0 0x0903)

/-! ## Checker tests (R108 to R110) -/

/-- The outcome of a test run. -/
def State.testRun (s : State) (failure : Option TestFail) : State :=
  let defer := (2 ≤ s.get LM_REJ_STAT_0 && (s.get LM_REJ_STAT_0 ≠ 2 || 2 ≤ s.get LM_REJ_STAT_4)) || !(s.lanesIn lDebug).isEmpty
  if defer then s.updM fun m => { m with testDue := true } else
  let s := s.updM fun m => { m with testDue := false }
  let s := (s.count LM_TEST_STAT_0).setB LM_TEST_STAT_16 failure.isSome
  match failure with
  | none => s
  | some (.lane l p) => (s.laneFault l 7 p.val 0 0x0905).raiseInt 9 5
  | some .hub => (s.setPassive 8).record 0x0906 7 []

def execPeriodicTest (failure : Option TestFail) (s : State) : Out := .next (s.testRun failure)

def execLmTestRunNow (a : Acc) (failure : Option TestFail) (s : State) : Out :=
  .next (s.writeAt a 0x09 0x078 fun s => s.testRun failure)

/-! ## LM_CMD (R114, R126) -/

/-- Starts of rejoins of a lane in the last 24 h of operating time. -/
def State.recentStarts (s : State) (l : Fin 3) : List Nat :=
  (s.mgr.starts.get l).filter fun t => s.get LG_OPTIME_0 < t + 86400

/-- LM_CMD action 1. -/
def State.lmReset (s : State) (l : Fin 3) : State :=
  let st := s.laneState l
  let no (r : Nat) : State := s.set LM_CMD_STAT_0 r
  if st ≠ lIsolated ∧ st ≠ lOff then no 1
  else if (s.lanesIn lActive).length ≠ 2 then no 2
  else if s.rejoinLane.isSome then no 3
  else if s.get LM_REJOIN_24 ≤ (s.recentStarts l).length then no 4
  else
    let s := s.set LM_CMD_STAT_0 0
    let ts := s.recentStarts l ++ [s.get LG_OPTIME_0]
    let s := s.updM fun m => { m with starts := m.starts.set l ts }
    let s := s.set LM_REJ_CNT_0 (putBits (s.get LM_REJ_CNT_0) (4 * l.val) 4 (min 15 ts.length))
    let s := (s.laneReset l).set (CLK_LANE_0 l.val) 0  -- R499: it boots at 1.2 GHz
    let s := ((s.set LANEMGR_rejoin_lane l.val).set LM_REJ_STAT_0 1).set LM_REJ_STAT_4 0
    s.lmRecord 0x0907 3 l s.activeMask

/-- LM_CMD action 2. -/
def State.lmPowerDown (s : State) (l : Fin 3) : State :=
  if s.laneState l = lIsolated then (s.set (laneField l) lOff).set LM_CMD_STAT_0 0 else s.set LM_CMD_STAT_0 1

/-- LM_CMD action 3: the target is the lane in rejoin, or result 1. -/
def State.lmAbandon (s : State) (l : Fin 3) : State :=
  if s.rejoinLane = some l then (s.rejoinFail l 8 0 6 id).set LM_CMD_STAT_0 0 else s.set LM_CMD_STAT_0 1

/-- R124: entry into STABLE, power fail and warm restart abandon a rejoin in progress. -/
def State.rejoinDrop (s : State) : State :=
  match s.rejoinLane with
  | some l => s.rejoinFail l 8 0 6 id
  | none => s

/-- A write of LM_CMD. -/
def State.lmCmd (s : State) (v : Nat) : State :=
  let l := v % 4
  let act := bitsOf v 4 4
  if l = 3 then s.set LM_CMD_STAT_0 5
  else if act = 1 then s.lmReset (laneIx l)
  else if act = 2 then s.lmPowerDown (laneIx l)
  else if act = 3 then s.lmAbandon (laneIx l)
  else s.set LM_CMD_STAT_0 5

def execLmResetRejoin (a : Acc) (l : Fin 3) (s : State) : Out := .next (s.writeAt a 0x09 0x044 fun s => s.lmReset l)
def execLmPowerDown (a : Acc) (l : Fin 3) (s : State) : Out := .next (s.writeAt a 0x09 0x044 fun s => s.lmPowerDown l)
def execLmAbandonRejoin (a : Acc) (l : Fin 3) (s : State) : Out := .next (s.writeAt a 0x09 0x044 fun s => s.lmAbandon l)

/-- R115, R120: the boot of a rejoin ends; the first copy pass begins, or a pair's test failed. -/
def State.rejoinBoot (s : State) (failed : Option (Fin 4)) : State :=
  match s.rejoinLane with
  | none => s
  | some r =>
    if s.get LM_REJ_STAT_0 ≠ 1 then s
    else match failed with
      | some p =>
        let mask := s.activeMask
        (s.rejoinFail r 5 p.val 0 fun s => s.lmRecord 0x0904 6 r mask).raiseInt 9 5
      | none =>
        let s := ((s.set (laneField r) lApprentice).set LM_REJ_STAT_0 2).set LM_REJ_STAT_4 1
        match s.copySource with
        | some src => s.copyPages src r true
        | none => s

def execRejoinBootComplete (failed : Option (Fin 4)) (s : State) : Out := .next (s.rejoinBoot failed)

def execRejoinBootTimeout (s : State) : Out :=
  .next (match s.rejoinLane with
    | some r => if s.get LM_REJ_STAT_0 = 1 then s.rejoinFail r 8 0 0 id else s
    | none => s)

/-! ## Debug (R121 to R123; 23 R566) -/

/-- The service enable switch, SW6 position 1, read live (15 R396). -/
def State.serviceEnable (s : State) : Bool := bitOf (s.get SW_READ_HI_0) 28

/-- Why an attach request is refused, 0 accepted (R121, 21 R516; HDBG_STAT). -/
def State.attachRefusal (s : State) (l : Fin 3) : Nat :=
  let st := s.laneState l
  if !s.serviceEnable then 1
  else if !(s.lanesIn lDebug).isEmpty then 5
  else if s.rejoinLane.isSome then 3
  else if !(st = lIsolated || (st = lActive && (s.lanesIn lActive).length = 3)) then 2
  else if s.get LK_LIFE_0 = 2 ∧ !s.flag LOCK_window then 4
  else 0

/-- R121, R123: attach, or refuse. The command switches open. -/
def State.attach (s : State) (l : Fin 3) : State :=
  let r := s.attachRefusal l
  let mask := s.activeMask
  if r ≠ 0 then
    let s := (s.set LM_DBG_4 1).set HDBG_STAT_4 r
    let s := (s.count HDBG_CNT_8).raiseInt 0x65 2
    s.lmRecord 0x090D 4 l mask
  else
    let was := s.laneState l
    let s := if was = lActive then s.unvote l else s
    let s := if was = lActive then s.setCause l 9 0 0 else s
    let s := s.set (laneField l) lDebug
    let s := s.each allPairs fun s p => if was = lIsolated then s.updP l p fun q => { q with halted := true, haltWhy := 6 } else s
    let s := (((s.set LM_DBG_0 l.val).set LM_DBG_4 0).set LM_STATE_16 1).soOpen
    let s := ((s.set HDBG_STAT_0 l.val).count HDBG_CNT_0).set DEBUG_attached 1
    let s := s.set64 HDBG_T_LO_0 HDBG_TS_HI s.now
    let s := ((s.set SYS_debug 1).set SYS_DEBUG_0 1).set SYS_DEBUG_1 1
    let s := s.count SYS_DEBUG_8
    let s := ((s.raiseInt 9 3).raiseInt 0x65 0).raiseInt 0 0
    s.lmRecord 0x090A 6 l mask
where
  /-- The high word of the attach time, beyond the banked latches of HDBG_T_HI. -/
  HDBG_TS_HI : Fld := ⟨0x65, 0x04C, 0, 32, 0, 0⟩

def execDebugAttach (l : Fin 3) (s : State) : Out := .next (s.attach l)

/-- R123: the lane is reset into BOOT. -/
def State.detach (s : State) : State :=
  match s.lanesIn lDebug with
  | [] => s
  | l :: _ =>
    let mask := s.activeMask
    let s := s.laneReset l
    let s := s.updM fun m => { m with detach := some l }
    let s := ((s.set LM_DBG_0 3).set HDBG_STAT_0 3).set DEBUG_attached 0
    let s := (s.set SYS_debug 0).set SYS_DEBUG_0 0
    let s := ((s.raiseInt 9 3).raiseInt 0x65 1).raiseInt 0 0
    s.lmRecord 0x090B 4 l mask

def execDebugDetach (s : State) : Out := .next s.detach
def execDebugLinkLoss (s : State) : Out := .next s.detach

/-- R123: the boot after a detach ends in ISOLATED, cause 10; a failed test or the 60 ms bound writes record 0x0904 besides. -/
def State.detachEnd (s : State) (failed test : Bool) : State :=
  match s.mgr.detach with
  | none => s
  | some l =>
    let s := s.updM fun m => { m with detach := none }
    if s.laneState l ≠ lBoot then s else
    let s := (s.set (laneField l) lIsolated).setCause l 10 0 0
    let s := (s.count LANEMGR_iso_count).raiseInt 9 0
    let s := s.on test fun s => s.raiseInt 9 5
    if failed then s.lmRecord 0x0904 6 l s.activeMask else s

def execDetachBootEnd (passed : Bool) (s : State) : Out := .next (s.detachEnd (!passed) (!passed))
def execDetachBootTimeout (s : State) : Out := .next (s.detachEnd true false)

end Sys2Proof.Machine
end

