-- ==== Sys2Proof/Machine/Queues.lean ====
section
/-! DEFINITION. The queue manager (08 R208 to R224, R231 to R233). -/

namespace Sys2Proof.Machine

def State.q (s : State) (n : Nat) : QS := SMap.get s.queues n QS.init
def State.updQ (s : State) (n : Nat) (f : QS → QS) : State := { s with queues := SMap.put s.queues n QS.init (f (s.q n)) }

/-! ## Layout (R209, R210) -/

def State.qL (s : State) (n : Nat) : Nat := s.get (QMGR_CFG_LINES_0 n)
def State.qBase (s : State) (n : Nat) : Nat := s.get (QMGR_CFG_BASE_0 n)
def State.qPkt (s : State) (n : Nat) : Bool := s.flag (QMGR_CFG_MODE_0 n)
def State.qPacked (s : State) (n : Nat) : Bool := s.flag (QMGR_CFG_MODE_1 n)
/-- Words of the data part. -/
def State.qW (s : State) (n : Nat) : Nat := 16 * s.qL n
/-- Lines of a footprint of L data lines. -/
def footprint (l : Nat) : Nat := l + (l + 3) / 4
/-- Hub SRAM offset of data word i. -/
def State.qWord (s : State) (n i : Nat) : Nat := s.qBase n * 64 + 4 * i
/-- Hub SRAM offset of tag byte i. -/
def State.qTag (s : State) (n i : Nat) : Nat := (s.qBase n + s.qL n) * 64 + i
/-- Largest packet kept (R214). -/
def State.qMax (s : State) (n : Nat) : Nat := min (s.get (QMGR_CFG_MAX_0 n)) (64 * s.qL n - 4)

/-- Free words. -/
def State.qFree (s : State) (n : Nat) : Nat := s.qW n - (s.q n).occ

/-- The level in the units of R210. -/
def State.qLevel (s : State) (n : Nat) : Nat :=
  if s.qPkt n then (s.q n).pkts.length else if s.qPacked n then (s.q n).vis / 4 else (s.q n).vis

/-- A lane access falls in the buffer of an enabled queue (07 R184). Only queues that differ from disabled are listed. -/
def State.inQueueBuffer (s : State) (off n : Nat) : Bool :=
  s.queues.any fun e => e.2.enabled && decide (s.qBase e.1 * 64 < off + n) && decide (off < (s.qBase e.1 + footprint (s.qL e.1)) * 64)

/-- QMGR_STAT. -/
def State.qShow (s : State) : State :=
  (s.set QMGR_enabled (s.queues.filter fun e => e.2.enabled).length).set QMGR_held (s.queues.filter fun e => !e.2.hold.isEmpty).length

/-- R220: what a change of level raises. `done`: a packet completed. -/
def State.qEvent (s : State) (n old : Nat) (done : Bool) : State :=
  let kind := s.get (QMGR_CFG_EVT_0 n)
  let now := s.qLevel n
  let thr := s.get (QMGR_CFG_EVT_2 n)
  let up := decide (old = 0) && decide (0 < now)
  let hit := if kind = 1 then up else if kind = 2 then decide (old < thr) && decide (thr ≤ now)
    else if kind = 3 then (if s.qPkt n then done else up) else false
  if hit then s.courEvent n else s

/-! ## Writing (R212 to R216) -/

/-- Number of ones of a word, odd. -/
def oddOnes (w : Nat) : Bool := popc 32 w % 2 = 1

/-- Store a word and its tag byte. -/
def State.qStore (s : State) (n i w : Nat) (poison last : Bool) (valid : Nat) : State :=
  let w := w % 2 ^ 32
  (s.hubSet (s.qWord n i) 4 w).hubSet (s.qTag n i) 1 (b2n (oddOnes w) + 2 * b2n poison + 4 * b2n last + 8 * valid)

/-- Mark a stored word as the one that ends a packet or burst. -/
def State.qMarkLast (s : State) (n i valid : Nat) : State :=
  let t := s.hubNat (s.qTag n i) 1
  s.hubSet (s.qTag n i) 1 (t % 4 + 4 + 8 * valid)

/-- Ring position of the j-th occupied word. -/
def State.qAt (s : State) (n j : Nat) : Nat := ((s.q n).head + j) % s.qW n

/-- Append words of 0 up to the end of a group. -/
def State.qPad (s : State) (n : Nat) : State :=
  let k := (4 - (s.q n).occ % 4) % 4
  let s := s.each (List.range k) fun s j => s.qStore n (s.qAt n ((s.q n).occ + j)) 0 false false 0
  s.updQ n fun q => { q with occ := q.occ + k }

/-- The push can take its words now (R216). -/
def State.qFits (s : State) (n : Nat) : Bool :=
  if s.qPkt n then
    match (s.q n).prog with
    | none => decide ((if s.qPacked n then 4 else 2) ≤ s.qFree n)
    | some p => decide (s.qMax n ≤ p.bytes) || decide (1 ≤ s.qFree n)
  else decide (1 ≤ s.qFree n)

/-- End of a packet: last word marked, padding, length word; it counts in the level (R212 to R214). -/
def State.qFinish (s : State) (n : Nat) (p : QProg) : State :=
  let total := 4 + p.bytes
  let s := s.qMarkLast n p.lastIx (if s.qPacked n then total + 16 - (total + 15) / 16 * 16 else p.bytes + 4 - (p.bytes + 3) / 4 * 4)
  let s := if s.qPacked n then s.qPad n else s
  let s := s.qStore n p.res (p.bytes + b2n p.cut * 2 ^ 16 + b2n p.poison * 2 ^ 17 + p.tag * 2 ^ 24) false false 0
  let size := (s.q n).occ - (s.q n).vis
  let s := s.updQ n fun q => { q with vis := q.occ, pkts := q.pkts ++ [size], prog := none }
  if p.cut then
    let s := (s.count QMGR_OVERSIZE_0).raiseInt 0x0E 1
    s.once (0x0E02 * 65536 + n) ticksPerSec fun s => s.record 0x0E02 2 [n]
  else s

/-- One word appended in packet mode. -/
def State.qPushPkt (s : State) (n w k tag : Nat) (poison : Bool) : State :=
  let (s, p) : State × QProg := match (s.q n).prog with
    | some p => (s, p)
    | none =>
      let r := s.qAt n (s.q n).occ
      (s.updQ n fun q => { q with occ := q.occ + 1 },
       { res := r, bytes := 0, words := 0, cut := false, poison := false, tag := tag, lastIx := r })
  let want := if k = 0 then 4 else k
  let kept := min want (s.qMax n - p.bytes)
  let ix := s.qAt n (s.q n).occ
  let p := { p with cut := p.cut || decide (kept < want) }
  let (s, p) : State × QProg := if kept = 0 then (s, p) else
    ((s.qStore n ix (w % 2 ^ (8 * kept)) poison false 0).updQ n fun q => { q with occ := q.occ + 1 },
     { p with bytes := p.bytes + kept, words := p.words + 1, poison := p.poison || poison, lastIx := ix })
  if k = 0 then s.updQ n fun q => { q with prog := some p } else s.qFinish n p

/-- One word appended in stream mode. -/
def State.qPushStream (s : State) (n w k : Nat) (poison : Bool) : State :=
  let ix := s.qAt n (s.q n).occ
  if s.qPacked n then
    let pos := (s.q n).occ % 4
    let valid := if k ≠ 0 then 4 * pos + k else if pos = 3 then 16 else 0
    let s := (s.qStore n ix (if k = 0 then w else w % 2 ^ (8 * k)) poison (decide (k ≠ 0)) valid).updQ n fun q => { q with occ := q.occ + 1 }
    let s := if k = 0 then s else s.qPad n
    if k ≠ 0 ∨ pos = 3 then s.updQ n fun q => { q with vis := q.occ } else s
  else
    (s.qStore n ix (if k = 0 then w else w % 2 ^ (8 * k)) poison (decide (k ≠ 0)) k).updQ n fun q =>
      { q with occ := q.occ + 1, vis := q.vis + 1 }

/-- A push performed (R212): k = 0 for QMGR_PUSH. -/
def State.qDo (s : State) (n w k tag : Nat) (poison : Bool) : State :=
  let old := s.qLevel n
  let s := if s.qPkt n then s.qPushPkt n w k tag poison else s.qPushStream n w k poison
  s.qEvent n old (decide (old < s.qLevel n))

/-- Mark a write held or completed: its Assay entry and its credit wait for it (R216, 07 R189). -/
def State.markDone (s : State) (p : Fin 4) (seq : Nat) (b : Bool) : State :=
  let s := s.updA fun x => { x with writes := x.writes.map fun e => if e.pair = p ∧ e.seq = seq then { e with complete := b } else e }
  s.updMc fun m => { m with flight := m.flight.map fun f => if f.pair = p ∧ f.seq = seq then { f with done := b } else f }

/-- R216: push, or wait at the queue. -/
def State.qPush (s : State) (n : Nat) (h : QHeld) : State :=
  if (s.q n).hold.isEmpty && s.qFits n then s.qDo n h.word h.k h.tag h.poison
  else
    let s := (s.updQ n fun q => { q with hold := q.hold ++ [h] }).qShow
    match h.src with
    | some (p, seq, _) => s.markDone p seq false
    | none => s

/-- R216: the first write of a hold line completes once it fits. -/
def State.qHeldDone (s : State) (n : Nat) : State :=
  match (s.q n).hold with
  | h :: r =>
    if (s.q n).enabled && s.qFits n then
      let s := (s.updQ n fun q => { q with hold := r }).qDo n h.word h.k h.tag h.poison
      let s := s.qShow
      match h.src with
      | some (p, seq, _) => s.markDone p seq true
      | none => s
    else s
  | [] => s

def execHeldPushComplete (q : Nat) (s : State) : Out := .next (s.qHeldDone q)

/-- A hub engine's packet (R212, R215): its words are pushed in order, the last one ending the packet. -/
def State.qPacket (s : State) (n tag : Nat) (bytes : List Byte) : State :=
  if !(s.q n).enabled ∨ bytes.isEmpty then s else
  let nw := (bytes.length + 3) / 4
  s.each (List.range nw) fun s i =>
    let b := sub bytes (4 * i) 4
    s.qPush n { src := none, addr := 0, word := leNat b, k := if i + 1 = nw then b.length else 0, tag := tag, poison := false }

/-- A whole packet of `len` bytes fits now, and nothing waits (for engines that drop where a queue is full). -/
def State.qRoom (s : State) (n len : Nat) : Bool :=
  let words := 1 + (min len (s.qMax n) + 3) / 4
  let need := if s.qPacked n then (words + 3) / 4 * 4 else words
  (s.q n).enabled && (s.q n).hold.isEmpty && decide (need ≤ s.qFree n)

/-! ## The ports (R208, R211, R187) -/

/-- The queue selected by a copy. -/
def State.qSel (s : State) (c : Nat) : Nat := s.get (QMGR_QSEL_0 c)

/-- A word of the group latch of a copy; word 0 is kept at the offset of QMGR_POP. -/
def grpFld (i c : Nat) : Fld := ⟨0x0E, 0x058 + 4 * i, 0, 32, 0, 1 + c⟩

/-- A write to a copy of QMGR_QSEL sets its group latch and LASTTAG to 0. -/
def State.qselWrite (s : State) (c v : Nat) : State :=
  let s := (s.set (QMGR_QSEL_0 c) v).set (QMGR_QSEL_16 c) (v / 2 ^ 16)
  let s := s.each (List.range 4) fun s i => s.set (grpFld i c) 0
  (((s.set (QMGR_LASTTAG_0 c) 0).set (QMGR_LASTTAG_5 c) 0).set (QMGR_LASTTAG_6 c) 0).set (QMGR_LASTTAG_7 c) 0

/-- The copy at tenant level of an access's pair. -/
def tcopyOf (a : Acc) : Nat := a.pair.val * 3

def execQmgrQselWrite (a : Acc) (v : Nat) (s : State) : Out := .next (s.writeAt a 0x0E 0x040 fun s => s.qselWrite (copyOf a) v)
def execQmgrQselTWrite (a : Acc) (v : Nat) (s : State) : Out := .next (s.writeAt a 0x0E 0x080 fun s => s.qselWrite (tcopyOf a) v)

/-- A port write of the queue list of a tenant: granted, or refused under R186 (R187). -/
def State.qGranted (s : State) (a : Acc) (n : Nat) (consume : Bool) : Bool := a.level ≠ 0 || s.queueGrant a.tenant.val n consume

/-- A lane's push at its release: list, enabled, then R212. -/
def State.qPortPush (s : State) (a : Acc) (off k v : Nat) : State :=
  let n := s.qSel (copyOf a)
  if !s.qGranted a n false then s.writeRefuse a (regAddr 0x0E off) 3 false
  else if !(s.q n).enabled then s.storeFault a.pair a.seq (regAddr 0x0E off)
  else s.qPush n { src := some (a.pair, a.seq, (ownerOf a)), addr := regAddr 0x0E off, word := v, k := k, tag := s.get (QMGR_QSEL_16 (copyOf a)), poison := false }

def execQmgrPush (a : Acc) (v : Nat) (s : State) : Out := .next (s.writeAt a 0x0E 0x044 fun s => s.qPortPush a 0x044 0 v)
def execQmgrPushLast (a : Acc) (k : Fin 4) (v : Nat) (s : State) : Out :=
  .next (s.writeAt a 0x0E (0x048 + 4 * k.val) fun s => s.qPortPush a (0x048 + 4 * k.val) (k.val + 1) v)

/-- QMGR_QCLR. -/
def State.qClr (s : State) (a : Acc) (v : Nat) : State :=
  let n := s.qSel (copyOf a)
  if !s.qGranted a n true then s.writeRefuse a (regAddr 0x0E 0x074) 4 false
  else if bitOf v 0 then s.updQ n fun q => { q with sticky := false } else s

def execQmgrQclr (a : Acc) (v : Nat) (s : State) : Out := .next (s.writeAt a 0x0E 0x074 fun s => s.qClr a v)

/-- QMGR_QSTAT and QMGR_QSPACE (R208, R221). -/
def State.qStat (s : State) (n : Nat) : Nat :=
  let q := s.q n
  if !q.enabled then b2n q.sticky * 2 ^ 24
  else s.qLevel n + b2n (s.qLevel n = 0) * 2 ^ 22 + b2n (s.qFree n = 0) * 2 ^ 23 + b2n q.sticky * 2 ^ 24 + b2n q.prog.isSome * 2 ^ 25 +
    b2n (!q.hold.isEmpty) * 2 ^ 26 + 2 ^ 27

def State.qSpace (s : State) (n : Nat) : Nat := if (s.q n).enabled then s.qFree n else 0

/-! ## Reading (R217 to R219) -/

/-- The word at ring index i fails its parity. -/
def State.qParityBad (s : State) (n i : Nat) : Bool :=
  oddOnes (s.hubNat (s.qWord n i) 4) != bitOf (s.hubNat (s.qTag n i) 1) 0

/-- QMGR_LASTTAG of a copy. -/
def State.setLasttag (s : State) (c valid : Nat) (poison under last : Bool) : State :=
  (((s.set (QMGR_LASTTAG_0 c) valid).setB (QMGR_LASTTAG_5 c) poison).setB (QMGR_LASTTAG_6 c) under).setB (QMGR_LASTTAG_7 c) last

/-- R219. -/
def State.qUnderrun (s : State) (n c : Nat) : State × Nat :=
  let s := (s.updQ n fun q => { q with sticky := true }).setLasttag c 0 false true false
  ((s.count QMGR_UNDERRUN_0).raiseInt 0x0E 2, (s.q n).last)

/-- R218: poison by parity or SECDED of the word at ring index i; a second such pop of the word in succession is a stuck bit (01 R37). -/
def State.qPoison (s : State) (n i : Nat) : State :=
  let s := ((s.count QMGR_poison_count).set QMGR_POISON_LAST_0 n).set QMGR_POISON_LAST_10 i
  let s := (s.raiseInt 0x0E 0).record 0x0E01 4 [n, n + 2 ^ 10 * i]
  let again := (s.q n).bad.contains i
  let s := s.updQ n fun q => { q with bad := i :: q.bad.filter (· ≠ i) }
  if again then s.setPassive 3 else s

/-- A hub engine's view of the head packet of a queue: its bytes, and whether it is marked oversize or poison or fails parity (R213, R218). -/
def State.qPeek (s : State) (n : Nat) : Option (List Byte × Bool) :=
  let q := s.q n
  if !q.enabled || !s.qPkt n then none else
  match q.pkts with
  | [] => none
  | k :: _ =>
    let w := s.hubNat (s.qWord n q.head) 4
    let ixs := (List.range k).map fun j => s.qAt n j
    some ((ixs.tail.flatMap fun i => s.hubRead (s.qWord n i) 4).take (w % 2 ^ 16), bitOf w 16 || bitOf w 17 || ixs.any fun i => s.qParityBad n i)

/-- A hub engine pops the head packet (R217, R218). -/
def State.qTake (s : State) (n : Nat) : State :=
  let q := s.q n
  match q.pkts with
  | [] => s
  | k :: r =>
    let ixs := (List.range k).map fun j => s.qAt n j
    let s := match ixs.filter fun i => s.qParityBad n i with
      | i :: _ => s.qPoison n i
      | [] => s
    let v := s.hubNat (s.qWord n ((q.head + k - (if s.qPacked n then 4 else 1)) % s.qW n)) 4
    s.updQ n fun q => { q with head := (q.head + k) % s.qW n, occ := q.occ - k, vis := q.vis - k, pkts := r, last := v, claim := false }

/-- A hub engine pops the packet it holds, unless a pop by firmware has passed it (12 R334). -/
def State.qTakeHeld (s : State) (n : Nat) : State := if (s.q n).claim then s.qTake n else s

/-- A pop through copy c (R217). `bad`: the bank reports an uncorrectable SECDED error in the words read. -/
def State.qPop (s : State) (n c : Nat) (bad : Bool) : State × Nat :=
  let s := s.qTakeHeld n
  let q := s.q n
  if q.vis = 0 then s.qUnderrun n c else
  let k := if s.qPacked n then 4 else 1
  let ixs := (List.range k).map fun j => s.qAt n j
  let ws := ixs.map fun i => s.hubNat (s.qWord n i) 4
  let ts := ixs.map fun i => s.hubNat (s.qTag n i) 1
  let fails := ixs.filter fun i => bad || s.qParityBad n i
  let s := s.updQ n fun q => { q with bad := q.bad.filter fun i => !ixs.contains i || fails.contains i }
  let s := match fails with
    | i :: _ => s.qPoison n i
    | [] => s
  let s := if s.qPacked n then s.each (List.range 4) fun s j => s.set (grpFld j c) (ws.getD j 0) else s
  let s := s.setLasttag c ((ts.map (· / 8)).foldl max 0) (!fails.isEmpty || ts.any fun t => bitOf t 1) false (ts.any fun t => bitOf t 2)
  let v := ws.getD 0 0
  let s := s.updQ n fun q =>
    { q with head := (q.head + k) % s.qW n, occ := q.occ - k, vis := q.vis - k, last := v,
             pkts := match q.pkts with
               | x :: r => if x ≤ k then r else (x - k) :: r
               | [] => [] }
  (s, v)

/-- The pop of a lane's capture (R187, R208, R217). -/
def State.qPortPop (s : State) (a : Acc) (bad : Bool) : State × Ans :=
  let n := s.qSel (copyOf a)
  if !s.qGranted a n true then (s.tenantRefuse a.tenant.val (regAddr 0x0E 0x058) 4 false, .error 3)
  else if !(s.q n).enabled then (s, .error 5)
  else
    let r := s.qPop n (copyOf a) bad
    (r.1, .value r.2)

/-! ## Enable and disable (R222, R223) -/

/-- The enabled queue a footprint overlaps. -/
def State.qOverlap (s : State) (n : Nat) : Option Nat :=
  ((s.queues.filter fun e => e.1 ≠ n && e.2.enabled && decide (s.qBase e.1 < s.qBase n + footprint (s.qL n)) &&
    decide (s.qBase n < s.qBase e.1 + footprint (s.qL e.1))).head?).map (·.1)

/-- The footprint touches a bank that is not ready. -/
def State.qBankBad (s : State) (n : Nat) : Bool :=
  (List.range 16).any fun b => decide (s.qBase n < b * 16384 + 16384) && decide (b * 16384 < s.qBase n + footprint (s.qL n)) && s.bank b != 2

/-- A refused enable. -/
def State.qRefuse (s : State) (n r ov : Nat) : State :=
  let s := ((s.set QMGR_CMD_STAT_0 1).set QMGR_CMD_STAT_1 r).set QMGR_CMD_STAT_4 ov
  (s.raiseInt 0x0E 3).record 0x0E03 3 [n, 1 + 2 * r + 16 * ov]

/-- QMGR_CMD enable of the queue named in QMGR_CSEL. -/
def State.qEnable (s : State) : State :=
  let n := s.get QMGR_CSEL_0
  match s.qOverlap n with
  | some o => s.qRefuse n 1 o
  | none =>
    if s.qBankBad n then s.qRefuse n 2 0
    else if (s.q n).enabled then s.qRefuse n 3 0
    else if 0x38000 < s.qBase n + footprint (s.qL n) then s.qRefuse n 4 0
    else
      let s := ((s.set QMGR_CMD_STAT_0 0).set QMGR_CMD_STAT_1 0).set QMGR_CMD_STAT_4 0
      (s.updQ n fun q => { QS.init with enabled := true, last := q.last, sticky := q.sticky }).qShow

/-- 22 R549: completions that wait for a queue that is disabled are discarded. -/
def State.brCplDrop (s : State) (n : Nat) : State :=
  if s.bridge.cpl = [] ∨ s.get BR_CPLQ_0 ≠ n then s
  else ((s.updBr fun b => { b with cpl := [] }).addSat BR_DISCARD_0 s.bridge.cpl.length).brShow

/-- R223: a disable; the writes held complete without effect. -/
def State.qDisable (s : State) (n : Nat) : State :=
  let q := s.q n
  if !q.enabled then s else
  let s := s.updQ n fun q => { QS.init with last := q.last, sticky := q.sticky }
  let s := s.each q.hold fun s h => match h.src with
    | some (p, seq, _) => (s.storeFault p seq h.addr).markDone p seq true
    | none => s
  (s.brCplDrop n).qShow

def execQmgrEnable (a : Acc) (s : State) : Out := .next (s.writeAt a 0x0E 0x118 State.qEnable)
def execQmgrDisable (a : Acc) (s : State) : Out := .next (s.writeAt a 0x0E 0x118 fun s => s.qDisable (s.get QMGR_CSEL_0))

/-- Every queue is disabled (R224). -/
def State.qAllOff (s : State) : State := s.each (s.queues.map (·.1)) State.qDisable

/-! ## The Tallyman (R225 to R229) -/

/-- Bit of TALLY masked. -/
def State.tallyMask (s : State) (r : Nat) : State := s.set TALLY_masked (setBit (s.get TALLY_masked) r)

/-- A grant to requester r of port A (pair r) or B of a bank, or of a register-page target (bank 16), that waited waitNs. A masked requester is
not eligible. -/
def State.tallyGrant (s : State) (portB : Bool) (bank r waitNs : Nat) : State :=
  if portB && (decide (15 ≤ r) || bitOf (s.get TALLY_masked) r) then s else
  let s := if waitNs < 1023 then s else
    ((s.count TALLY_sat_count).raiseInt 0x0D 0).recordSec 0 0x0D01 2 [bank + 32 * b2n portB]
  if !portB then (if bank < 16 then s.raiseTo (TALLY_WAITA_0 bank) waitNs else s)
  else
    let s := if bank < 16 then s.raiseTo (TALLY_WAITB_0 bank) waitNs else s
    let s := s.count (TALLY_GRANTS_0 r)
    if s.flag (TALLY_HP_0 r) then
      let u := SMap.get s.tally.used r 0 + 1
      let s := s.updTl fun y => { y with used := SMap.put y.used r 0 u }
      if s.get (TALLY_HP_1 r) ≤ u then (s.tallyMask r).raiseInt 0x0D 2 else s
    else s

def execTallyGrant (portB : Bool) (bank : Fin 17) (r waitNs : Nat) (s : State) : Out :=
  .next (s.tallyGrant portB bank.val r waitNs)

/-- R229: a quota period ends. -/
def execQuotaPeriodEnd (s : State) : Out :=
  .next ((s.updTl fun y => { y with used := [] }).set TALLY_masked 0)

/-- TALLY_TAGS_MAX, each half the highest since its last read. -/
def State.tagsMax (s : State) : State :=
  let m := s.get TALLY_TAGS_MAX_0
  s.set TALLY_TAGS_MAX_0 (max (m % 2 ^ 13) (s.get TALLY_TAGS_0) + 2 ^ 13 * max (m / 2 ^ 13) (s.get TALLY_TAGS_13))

/-- R225: an access takes a tag with its credit; an access that finds none waits. -/
def State.tagTake (s : State) (a : Acc) : State :=
  if a.level = 0 then
    if s.get TALLY_TAGS_0 < 7168 then (s.set TALLY_TAGS_0 (s.get TALLY_TAGS_0 + 1)).tagsMax
    else
      let s := (s.count TALLY_TAGWAIT_0).raiseInt 0x0D 1
      s.once (0x0D02 * 65536 + a.tenant.val) ticksPerSec fun s => s.recordT 0x0D02 2 a.tenant.val [a.tenant.val]
  else (s.set TALLY_TAGS_13 (min 1024 (s.get TALLY_TAGS_13 + 1))).tagsMax

/-- R225: a tag is returned. -/
def execFabricTagFreed (system : Bool) (s : State) : Out :=
  .next (if system then s.set TALLY_TAGS_13 (s.get TALLY_TAGS_13 - 1) else s.set TALLY_TAGS_0 (s.get TALLY_TAGS_0 - 1))

end Sys2Proof.Machine
end

