-- ==== Sys2Proof/Machine/HubMem.lean ====
section
/-! DEFINITION. Hub SRAM as lanes reach it (01 R32, R33; 07 R183, R184, R198, R590): targets, windows, refusals. -/

namespace Sys2Proof.Machine

/-- Starts of the targets of R590: the regions of R32, the tables, the views of value records, the footprints of enabled queues. -/
def State.targetBounds (s : State) : List Nat :=
  [0x100000, 0x101000, 0x102000, 0x400000, 0xE00000, 0xF00000, 0xF80000, 0xFC0000, 0x1000000] ++
  (s.img.vars.flatMap fun d => [d.off, d.val, d.stg, d.fb, d.off + d.len]) ++
  ((s.queues.filter fun e => e.2.enabled).flatMap fun e => [s.qBase e.1 * 64, (s.qBase e.1 + footprint (s.qL e.1)) * 64])

/-- The access lies in one target (R590). -/
def State.oneTarget (s : State) (off n : Nat) : Bool := s.targetBounds.all fun b => decide (b ≤ off) || decide (off + n ≤ b)

/-- The first bytes of the lines an access touches, and its own first byte. -/
def linesOf (off n : Nat) : List Nat := off :: (List.range ((off + n - 1) / 64 - off / 64)).map fun i => (off / 64 + 1 + i) * 64

/-- Why hub SRAM refuses a lane access: the info of its error, the kind that TEN_REFUSE_HI shows, whether R186 counts it. -/
structure SramNo where
  info : Nat
  kind : Nat
  bank : Bool
  counted : Bool

/-- R33, R183, R184, R198, R590. -/
def State.sramRefusal (s : State) (a : Acc) (off n : Nat) (k : HubK) : Option SramNo :=
  let lanes := a.level = 0
  if !s.banksReady off n then some { info := 5, kind := k, bank := true, counted := lanes }
  else if 0xFC0000 < off + n then some { info := 3, kind := k, bank := false, counted := lanes }
  else if lanes ∧ !s.flag (TEN_active_en a.tenant.val) then some { info := 3, kind := 5, bank := false, counted := true }
  else if lanes ∧ !((linesOf off n).all fun b => s.sramGrant a.tenant.val b k) then some { info := 3, kind := k, bank := false, counted := true }
  else if lanes ∧ s.inQueueBuffer off n then some { info := 3, kind := k, bank := false, counted := true }
  else if !s.oneTarget off n then some { info := 3, kind := k, bank := false, counted := false }
  else none

/-- Lane address of a hub SRAM offset (01 R34). -/
def sramAddr (off : Nat) : Nat := 0x50000000 + off

/-- R186: a refused access is counted, shown and recorded. -/
def State.sramCount (s : State) (a : Acc) (off : Nat) (r : SramNo) : State :=
  if r.counted then s.tenantRefuse a.tenant.val (sramAddr off) r.kind r.bank else s

/-- A lane's write released to hub SRAM (02 R50, 06 R167, 07 R186). -/
def State.sramStore (s : State) (a : Acc) (off : Nat) (bytes : List Byte) : State :=
  match s.sramRefusal a off bytes.length 1 with
  | some r => (s.storeFault a.pair a.seq (sramAddr off)).sramCount a off r
  | none =>
    if off < 0x400000 then
      let r := s.imgLaneWrite a.tenant.val off bytes
      if r.2 = .fault then r.1.storeFault a.pair a.seq (sramAddr off) else r.1
    else s.hubWrite off bytes

/-- A value record's staged and value views as a lane reads them: hub SRAM holds them as they read (06 R166). -/
def State.sramLoad (s : State) (a : Acc) (off n : Nat) : State × Ans :=
  match s.sramRefusal a off n 0 with
  | some r => (s.sramCount a off r, .error r.info)
  | none => (s, .value (s.hubNat off n))

/-- R167: a write to the data image by a lane or a hub unit. -/
def execDataImageWrite (w : Writer) (off : Nat) (bytes : List Byte) (s : State) : Out :=
  .next (match w with
    | .lane a => if off < 0x400000 ∧ bytes ≠ [] then s.sramStore a off bytes else s
    | .unit id stamp =>
      match s.img.vars.find? fun d => d.val = off with
      | some d => s.imgWrite id d.v stamp (some stamp) bytes
      | none => s)

end Sys2Proof.Machine
end

