-- ==== Sys2Proof/Machine/ImageCmds.lean ====
section
/-! DEFINITION. Commands of the data image, the cycle unit's registers and the safe message layer (06 R157, R164, R172, R174; 16 R413, R414, R417). -/

namespace Sys2Proof.Machine

/-! ## The Scrivener's largest set (17 R429) -/

/-- Bytes of a variable record (17 R425). -/
def Desc.recLen (d : Desc) : Nat := 16 + (d.size + 3) / 4 * 4

/-- B_max and whether it leaves room before the largest guard (17 R429): every mirrored and retained variable, the sequence records, lease, Almanac,
Ledger head and end, rs_bytes of a full pass, and 20 bytes a segment. -/
def State.mirBudget (s : State) : State :=
  if !s.pagePresent 0x34 then s else
  let recs := ((s.img.vars.filter fun d => d.mirror || d.retain).map Desc.recLen).sum + 8 * s.safe.tx.length + 68 + s.get MIR_RS_0
  let b := recs + 20 * ((recs + 2047) / 2048)
  let g := ((List.range 8).map fun j => s.get (CYC_GUARD_0 j)).foldl max 0
  (s.set MIR_BUDGET_0 (min b 0xFFFFF)).setB MIR_BUDGET_20 (decide (s.get CYC_BASE_0 * 100000 < 200000 + b * 8 + g * 10000))

/-! ## Tables and patch list -/

def execDimgPatchArm (a : Acc) (s : State) : Out := .next (s.writeAt a 0x0C 0x074 State.patchArm)
def execDimgPatchCancel (a : Acc) (s : State) : Out := .next (s.writeAt a 0x0C 0x074 State.patchCancel)

/-! ## Cycle unit -/

/-- R157: done bits. -/
def execCycDoneWrite (a : Acc) (j : Fin 8) (v : Nat) (s : State) : Out :=
  .next (s.writeAt a 0x0B (0x100 + 4 * j.val) fun s => s.set (CYC_DSTAT_0 j.val) (s.get (CYC_DSTAT_0 j.val) ||| v % 2 ^ 32))

/-- A restart asked for, taken at the next boundary (06 R168, R172); a cold one stands over a warm one. -/
def State.askRestart (s : State) (k : Nat) : State := s.updCyc fun c => { c with restart := max c.restart k }

def execCycRestartWarm (a : Acc) (s : State) : Out := .next (s.writeAt a 0x0B 0x044 fun s => s.askRestart 1)
def execCycRestartCold (a : Acc) (s : State) : Out := .next (s.writeAt a 0x0B 0x044 fun s => s.askRestart 2)

/-! ## Safe message layer -/

/-- R414: the watchdog of a connection in WAIT or VALID. -/
def execSafeWatchdogExpiry (n : Fin 64) (s : State) : Out :=
  .next (match s.safe.rx[n.val]? with
    | some c => if s.get (SM_R_STAT_0 n.val) = 1 ∨ s.get (SM_R_STAT_0 n.val) = 2 then s.smFail n.val c 1 else s
    | none => s)

/-- R413: auto_rec. -/
def execSafeAutoRecovery (n : Fin 64) (s : State) : Out :=
  .next (match s.safe.rx[n.val]? with
    | some c => if s.get (SM_R_STAT_0 n.val) = 3 ∧ c.autoRec then s.smWait n.val c else s
    | none => s)

/-- R417: SM_CMD reset. -/
def State.smReset (s : State) (n : Nat) : State :=
  match s.safe.rx[n]? with
  | none => s.set SM_CMD_STAT_0 3
  | some c =>
    if !s.flag (SM_R_BIND_31 n) then s.set SM_CMD_STAT_0 3
    else if s.get (SM_R_STAT_0 n) ≠ 3 then s.set SM_CMD_STAT_0 1
    else if s.counter < (s.rxRun n).failedAt + c.recMin * (ticksPerSec / 1000) then s.set SM_CMD_STAT_0 2
    else (s.smWait n c).set SM_CMD_STAT_0 0

def execSmReset (a : Acc) (n : Fin 64) (s : State) : Out := .next (s.writeAt a 0x61 0x044 fun s => s.smReset n.val)

end Sys2Proof.Machine
end

