-- ==== Sys2Proof/Machine/Consist.lean ====
section
/-! DEFINITION. The consist network: ports, Almanac, scheduled and other frames, the Porter (09). -/

namespace Sys2Proof.Machine

def State.updW (s : State) (f : PorterS → PorterS) : State := s.updN fun c => { c with porter := f c.porter }

/-- A frame or byte string leaves a transmitter. -/
def State.emit (s : State) (w : Nat) (f : List Byte) : State := s.setWire w f

/-! ## Positions (R241, R242) -/

/-- Position and matrix cycle count of basic cycle k. -/
def State.posOf (s : State) (k : Nat) : Nat := k % s.cons.act.m
def State.mOf (s : State) (k : Nat) : Nat := k / s.cons.act.m % 2 ^ 32

/-- ALM_POS and ALM_MCOUNT. -/
def State.posShow (s : State) : State := (s.set ALM_POS_0 (s.posOf s.cons.k)).set ALM_MCOUNT_0 (s.mOf s.cons.k)

/-- Number of entry i of the active bank in the window registers. -/
def State.actE (s : State) (i : Nat) : Nat := s.get ALMANAC_active_bank * 4096 + i

/-- An entry of phase and rep occurs at a position. -/
def occursAt (phase rep p : Nat) : Bool := p % 2 ^ rep == phase

/-- Entry e (bank included) occurs in basic cycle k. -/
def State.eOccurs (s : State) (e k : Nat) : Bool :=
  s.get (ALM_E_SCHED_12 e) != 0 && occursAt (s.get (ALM_E_SCHED_0 e)) (s.get (ALM_E_SCHED_8 e)) (s.posOf k)

/-- The time the consist engine stands at: the formatted time, not before the basic cycle in progress. -/
def State.consTime (s : State) : Nat := max s.now (s.cons.k * s.cons.act.b * 1000)

/-- Window start of entry e in basic cycle k, ns. -/
def State.winStart (s : State) (e k : Nat) : Nat := k * s.cons.act.b * 1000 + s.get (ALM_E_START_0 e) * 4

/-- Basic cycle of the most recent occurrence of entry e. -/
def State.lastOcc (s : State) (e : Nat) : Option Nat :=
  ((List.range (min 128 (s.cons.k + 1))).map fun i => s.cons.k - i).find? fun k => s.eOccurs e k && decide (s.winStart e k ≤ s.consTime)

/-! ## Ports (R236, R237, R261) -/

def State.nPorts (s : State) : Nat := s.byVar 4 2 2

/-- Ports of a mask that send: up and joined. -/
def State.sendPorts (s : State) (mask : Nat) : List Nat :=
  (bitList 4 mask).filter fun x => decide (x < s.nPorts) && s.flag (ETH_up x) && s.flag (ETH_LINK_STAT_3 x)

/-- Own address of port x, 48 bits. -/
def State.ethMac (s : State) (x : Nat) : Nat := s.get (ETH_MAC_LO_0 x) + 2 ^ 32 * s.get (ETH_MAC_HI_0 x)

/-- Nothing is sent: passive, DOZE, not running. -/
def State.consMute (s : State) : Bool := s.passive || s.flag PWR_doze || s.power != .run

/-- A consist record (R267). -/
def State.consRecord (s : State) (key code sev w0 w1 : Nat) (limited : Bool) : State :=
  if limited then s.once (code * 65536 + key) ticksPerSec fun s => s.record code sev [w0, w1, s.get ALM_MCOUNT_0, 0]
  else s.record code sev [w0, w1, s.get ALM_MCOUNT_0, 0]

def State.portDown (s : State) (x : Nat) : State :=
  (((s.set (ETH_up x) 0).set (ETH_LINK_STAT_0 x) 0).set (ETH_LINK_STAT_1 x) 0).set (ETH_LINK_STAT_2 x) 0 |>.set (ETH_LINK_STAT_3 x) 0

/-- R261: link lost. -/
def State.linkLoss (s : State) (x : Nat) : State :=
  if s.nPorts ≤ x ∨ !s.flag (ETH_LINK_STAT_0 x) then s else
  let s := (s.portDown x).count (ETH_LINK_DOWNS_0 x)
  (s.raiseInt (0x30 + x) 0).consRecord x (0x3001 + x) 4 x (s.get (ETH_LINK_DOWNS_0 x)) true

def execPortLinkLoss (x : Fin 4) (s : State) : Out := .next (s.linkLoss x.val)

/-- R261: training complete; the port receives from now on and joins at the next matrix cycle start. -/
def execPortTrainingComplete (x : Fin 4) (fec : Bool) (s : State) : Out :=
  .next (if s.nPorts ≤ x.val ∨ !s.flag (ETH_LINK_CTL_0 x.val) ∨ s.flag (ETH_up x.val) then s else
    let s := ((s.set (ETH_up x.val) 1).set (ETH_LINK_STAT_0 x.val) 1).set (ETH_LINK_STAT_1 x.val) 1
    let s := (s.setB (ETH_LINK_STAT_2 x.val) (fec && s.flag (ETH_LINK_CTL_1 x.val))).set (ETH_LINK_STAT_3 x.val) 0
    (s.raiseInt (0x30 + x.val) 0).consRecord x.val (0x3001 + x.val) 4 x.val (s.get (ETH_LINK_DOWNS_0 x.val)) true)

/-! ## The Porter (R255 to R259) -/

/-- Active Porter entry i in the window registers. -/
def State.actW (s : State) (i : Nat) : Nat := s.get PORTER_STATE_0 * 512 + i

/-- An open entry lets port x send: mask, budget. -/
def State.winLets (s : State) (e x : Nat) : Bool :=
  let w := s.actW e
  let budget := s.get (PORTER_W_BUDGET_0 w)
  bitOf (s.get (PORTER_W_SCHED_16 w)) x &&
  !(s.get (PORTER_W_SCHED_12 w) == 2 && budget != 0 && decide (64 * budget ≤ SMap.get s.cons.porter.sent (4 * e + x) 0))

/-- The switch of port x is open. -/
def State.switchOpen (s : State) (x : Nat) : Bool :=
  !s.passive && !s.flag PWR_doze && s.get PORTER_state == 2 && !bitOf (s.get PORTER_STATE_4) x && s.cons.porter.opened.any fun e => s.winLets e x

/-- PORTER_STATE: switches open now. -/
def State.switchShow (s : State) : State :=
  s.set PORTER_STATE_8 ((List.range s.nPorts).foldl (fun m x => if s.switchOpen x then setBit m x else m) 0)

/-- R257, R259: a blocked attempt; the third in a matrix cycle silences the port. -/
def State.blocked (s : State) (x : Nat) : State :=
  let s := (s.count (PORTER_BLK_0 x)).count (ETH_TX_BLOCKED_0 x)
  let s := (s.raiseInt 0x37 1).raiseInt (0x30 + x) 3
  let n := SMap.get s.cons.porter.blocked x 0 + 1
  let s := s.updW fun p => { p with blocked := SMap.put p.blocked x 0 n }
  if n = 3 ∧ !bitOf (s.get PORTER_STATE_4) x then
    let s := (s.set PORTER_STATE_4 (setBit (s.get PORTER_STATE_4) x)).switchShow
    (s.raiseInt 0x37 2).consRecord x 0x3702 5 x n false
  else s

/-- One frame, given without its FCS, to port x: sent, or blocked by the Porter. -/
def State.portSend (s : State) (x : Nat) (f : List Byte) : State :=
  if !s.switchOpen x then s.blocked x else
  let s := (s.emit x f).count (ETH_TX_FRAMES_0 x)
  let budgets := s.cons.porter.opened.filter fun e => s.get (PORTER_W_SCHED_12 (s.actW e)) == 2 && bitOf (s.get (PORTER_W_SCHED_16 (s.actW e))) x
  let s := s.each budgets fun s e =>
    let lets := s.winLets e x
    let s := s.updW fun p => { p with sent := SMap.put p.sent (4 * e + x) 0 (SMap.get p.sent (4 * e + x) 0 + f.length + 4) }
    if lets && !s.winLets e x then s.count PORTER_BUDCUT_0 else s
  s.switchShow

/-- PORTER_TOL covers a difference. -/
def State.inTol (s : State) (a b : Nat) : Bool := decide (((a : Int) - b).natAbs ≤ s.get PORTER_TOL_0)

/-- R256: the Porter is synced; time windows open from the next matrix cycle start. -/
def State.porterSynced (s : State) (t len : Nat) : State :=
  let s := (s.set PORTER_state 2).updW fun p => { p with len := len, last := t, rejects := 0, run := false }
  s.consRecord 0 0x3703 2 0 len false

/-- R256: three rejects in a row. -/
def State.porterUnsync (s : State) : State :=
  let s := (s.set PORTER_state 0).updW fun p => { p with rejects := 0, run := false, opened := [] }
  (s.switchShow.raiseInt 0x37 0).consRecord 0 0x3701 5 0 (s.get PORTER_rej_count) false

/-- R256: a strobe at Porter tick t. -/
def State.strobe (s : State) (t : Nat) : State :=
  let p := s.cons.porter
  let st := s.get PORTER_state
  if st = 2 then
    if s.inTol t (p.last + p.len) then s.updW fun p => { p with len := t - p.last, last := t, rejects := 0 }
    else
      let s := (s.count PORTER_rej_count).updW fun p => { p with last := p.last + p.len, rejects := p.rejects + 1 }
      if 3 ≤ s.cons.porter.rejects then s.porterUnsync else s
  else if st = 0 then (s.set PORTER_state 1).updW fun p => { p with acqLast := some t, acqLen := none, good := 0 }
  else match p.acqLast, p.acqLen with
    | none, _ => s.updW fun p => { p with acqLast := some t }
    | some a, none => s.updW fun p => { p with acqLast := some t, acqLen := some (t - a) }
    | some a, some l =>
      let g := if s.inTol t (a + l) then p.good + 1 else 0
      let s := s.updW fun p => { p with acqLast := some t, acqLen := some (t - a), good := g }
      if g = 2 then s.porterSynced t (t - a) else s

def execPorterStrobe (t4ns : Nat) (s : State) : Out := .next (s.strobe t4ns)

/-- R257: PORTER_GUARD before a time window. -/
def execPorterWindowOpen (e : Nat) (s : State) : Out :=
  .next (
    let kind := s.get (PORTER_W_SCHED_12 (s.actW e))
    if 512 ≤ e ∨ s.get PORTER_state ≠ 2 ∨ !s.cons.porter.run ∨ kind = 0 ∨ (kind = 3 ∧ !s.inCharge) ∨ s.consMute then s
    else (s.updW fun p => { p with
      opened := e :: p.opened.filter (· ≠ e), sent := p.sent.filter fun x => x.1 / 4 ≠ e }).switchShow)

/-- R257: PORTER_GUARD after it ends. -/
def execPorterWindowClose (e : Nat) (s : State) : Out :=
  .next ((s.updW fun p => { p with opened := p.opened.filter (· ≠ e) }).switchShow)

def execPorterUnsilence (a : Acc) (ports : Nat) (s : State) : Out :=
  .next (s.writeAt a 0x37 0x04C fun s => s.updW fun p => { p with unsilence := p.unsilence ||| ports % 16 })

def execPorterSwitchArm (a : Acc) (s : State) : Out := .next (s.writeAt a 0x37 0x04C fun s => s.set PORTER_STATE_12 1)

/-! ## Almanac banks (R244, R245) -/

/-- Entries of a register window that are written, by one of their fields (unlisted ones hold their reset value). -/
def State.listed (s : State) (f : Nat → Fld) : List Nat :=
  s.regs.filterMap fun x =>
    let sel := x.1 / 32 / 4096 / 128
    if 0 < sel ∧ (f (sel - 1)).key = x.1 then some (sel - 1) else none

/-- List element i (R247). -/
def State.listElem (s : State) (i : Nat) : Nat := s.hubNat (0xF40000 + 4 * i) 4

/-- The elements of a list. -/
def State.listOf (s : State) (first n : Nat) : List Nat := (List.range n).map fun i => s.listElem (first + i)

/-- Payload bytes of an element. -/
def State.elemLen (s : State) (w : Nat) : Nat :=
  if bitOf w 31 then bitsOf w 16 15 else ((s.var (w % 65536)).map (·.size)).getD 0

/-- Two schedules meet in some basic cycle of a matrix of m. -/
def schedMeet (pa ra pb rb m : Nat) : Bool :=
  if ra ≤ rb then pb % 2 ^ ra == pa && decide (pb < m) else pa % 2 ^ rb == pb && decide (pa < m)

/-- An own exclusive or sync window. -/
def State.ownWin (s : State) (e : Nat) : Bool :=
  (s.get (ALM_E_SCHED_12 e) == 1 || s.get (ALM_E_SCHED_12 e) == 3) && s.get (ALM_E_OWNER_0 e) == s.get ALM_FA_0

/-- Entries e and f overlap on a common port. -/
def State.overlaps (s : State) (e f : Nat) : Bool :=
  s.get (ALM_E_SCHED_16 e) &&& s.get (ALM_E_SCHED_16 f) != 0 &&
  decide (s.get (ALM_E_START_0 e) < s.get (ALM_E_START_0 f) + s.get (ALM_E_LEN_0 f)) &&
  decide (s.get (ALM_E_START_0 f) < s.get (ALM_E_START_0 e) + s.get (ALM_E_LEN_0 e)) &&
  schedMeet (s.get (ALM_E_SCHED_0 e)) (s.get (ALM_E_SCHED_8 e)) (s.get (ALM_E_SCHED_0 f)) (s.get (ALM_E_SCHED_8 f)) (s.get ALM_MATRIX_0)

/-- Why entry e of the bank is refused, 0 not. -/
def State.entryRefusal (s : State) (all : List Nat) (e : Nat) : Nat :=
  let first := s.get (ALM_E_LIST_0 e)
  let n := s.get (ALM_E_LIST_16 e)
  let ex := s.get (ALM_E_SCHED_12 e) == 1
  if s.ownWin e && all.any (fun f => f != e && (s.ownWin f || s.get (ALM_E_SCHED_12 f) == 2) && s.overlaps e f) then 1
  else if s.get ALM_BASIC_0 * 250 < s.get (ALM_E_START_0 e) + s.get (ALM_E_LEN_0 e) then 2
  else if ex && decide (65536 < first + n) then 3
  else if ex && decide (1476 < ((s.listOf first n).map s.elemLen).sum) then 4
  else 0

/-- validate or switch refused. -/
def State.almRefuse (s : State) (e r : Nat) : State :=
  let s := (s.set ALM_VSTAT_0 e).set ALM_VSTAT_12 r
  (s.raiseInt 0x36 3).consRecord 0 0x3602 4 e r false

/-- The bank's valid bit. -/
def State.bankValid (s : State) (b : Nat) (v : Bool) : State :=
  s.set ALMANAC_valid (if v then setBit (s.get ALMANAC_valid) b else clrBit (s.get ALMANAC_valid) b)

/-- R244. -/
def State.almValidate (s : State) : State :=
  let b := 1 - s.get ALMANAC_active_bank
  let all := (s.listed ALM_E_SCHED_12).filter fun e => e / 4096 = b
  match all.find? fun e => s.entryRefusal all e != 0 with
  | some e => (s.bankValid b false).almRefuse (e % 4096) (s.entryRefusal all e)
  | none => ((s.bankValid b true).set ALM_VSTAT_0 0).set ALM_VSTAT_12 0

def execAlmValidate (a : Acc) (s : State) : Out := .next (s.writeAt a 0x36 0x054 State.almValidate)

/-- Count c lies ahead of m, modulo 2^32. -/
def ahead (c m : Nat) : Bool := decide (0 < sint 32 (unsint 32 ((c : Int) - m)))

/-- R245. -/
def State.almArm (s : State) : State :=
  if !bitOf (s.get ALMANAC_valid) (1 - s.get ALMANAC_active_bank) then s.almRefuse 0 0
  else if !ahead (s.get ALM_SWITCH_0) (s.get ALM_MCOUNT_0) then s.almRefuse 0 5
  else (s.set ALM_VSTAT_16 1).updN fun c => { c with swAt := s.get ALM_SWITCH_0 + 1 }

def execAlmSwitchArm (a : Acc) (s : State) : Out := .next (s.writeAt a 0x36 0x054 State.almArm)
def execAlmSwitchCancel (a : Acc) (s : State) : Out :=
  .next (s.writeAt a 0x36 0x054 fun s => (s.set ALM_VSTAT_16 0).updN fun c => { c with swAt := 0 })

/-- R245: the inactive bank becomes active; its base values change places with the active ones, and basic cycles realign where they differ. -/
def State.almSwitch (s : State) : State :=
  let new : AlmBase := { b := s.get ALM_BASIC_0, m := s.get ALM_MATRIX_0, id := s.get ALM_SCHED_ID_0 }
  let old := s.cons.act
  let s := ((s.set ALM_BASIC_0 old.b).set ALM_MATRIX_0 old.m).set ALM_SCHED_ID_0 old.id
  let s := (s.set ALMANAC_active_bank (1 - s.get ALMANAC_active_bank)).set ALM_VSTAT_16 0
  let at' := s.cons.swAt - 1
  let s := s.updN fun c => { c with act := new, swAt := 0, built := [] }
  let s := if new.b = old.b ∧ new.m = old.m then s else (s.updN fun c => { c with k := s.now / (new.b * 1000) }).posShow
  let s := s.updW fun p => { p with len := new.b * 250 }
  (s.raiseInt 0x36 0).consRecord 0 0x3601 3 (s.get ALMANAC_active_bank) at' false

/-! ## Basic and matrix cycles (R241) -/

/-- A new basic cycle: its index is that of the formatted time, and one more than the last at least (R263). -/
def execBasicCycleStart (s : State) : Out :=
  .next (s.updN fun c => { c with k := max (c.k + 1) (s.now / (c.act.b * 1000)) }).posShow

/-- The Porter's part of a matrix cycle start. -/
def State.porterMatrix (s : State) : State :=
  let m := s.get ALM_MCOUNT_0
  let sw := s.flag PORTER_STATE_12 && s.get PORTER_SWITCH_0 == m
  let s := if sw then ((s.set PORTER_STATE_0 (1 - s.get PORTER_STATE_0)).set PORTER_STATE_12 0).updW fun p => { p with opened := [] } else s
  let s := s.set PORTER_STATE_4 (s.get PORTER_STATE_4 &&& (15 - s.cons.porter.unsilence))
  (s.updW fun p => { p with run := decide (s.get PORTER_state = 2), blocked := [], unsilence := 0 }).switchShow

/-- A new matrix cycle: bank switch, joins, Porter, delay requests, resync. -/
def State.matrixStart (s : State) : State :=
  if s.posOf s.cons.k ≠ 0 then s else
  let s := s.posShow
  let s := if s.cons.swAt = s.get ALM_MCOUNT_0 + 1 then s.almSwitch else s
  let s := s.each ((List.range s.nPorts).filter fun x => s.flag (ETH_up x)) fun s x => s.set (ETH_LINK_STAT_3 x) 1
  let s := s.porterMatrix
  let s := s.delayDue (s.get ALM_MCOUNT_0)
  s.resync

def execMatrixCycleStart (s : State) : Out := .next s.matrixStart

/-! ## Frames on EtherType 0x88B5 (R246, R247) -/

/-- Header bytes from the destination to byte 37, tag included. -/
def State.head88b5 (s : State) (x e dst kind flags pos m len : Nat) (time : Nat) (tag : Option (Nat × Nat)) : List Byte :=
  beBytes 6 dst ++ beBytes 6 (s.ethMac x) ++
  (match tag with
   | some (pcp, vid) => beBytes 2 0x8100 ++ beBytes 2 (pcp * 2 ^ 13 + vid)
   | none => []) ++
  beBytes 2 0x88B5 ++ beBytes 1 (16 + kind) ++ beBytes 1 flags ++ beBytes 2 (s.get ALM_FA_0) ++ beBytes 2 e ++ beBytes 1 pos ++
  beBytes 1 (s.cons.act.m - 1) ++ beBytes 4 m ++ beBytes 8 time ++ beBytes 2 len ++ beBytes 2 s.cons.act.id

/-- Bytes of 0 up to a frame of 64 bytes with its FCS. -/
def padTo60 (f : List Byte) : List Byte := f ++ List.replicate (60 - f.length) 0

/-- The tag of entry e. -/
def State.tagOf (s : State) (e : Nat) : Option (Nat × Nat) :=
  if s.flag (ALM_E_SCHED_20 e) then some (s.get (ALM_E_SCHED_21 e), s.get (ALM_E_OWNER_16 e)) else none

/-- Group address of entry e. -/
def State.eMac (s : State) (e : Nat) : Nat := s.get (ALM_E_DMAC_LO_0 e) + 2 ^ 32 * s.get (ALM_E_DMAC_HI_0 e)

/-- A value of 4 or 8 bytes with type 0 or 1 is sent most significant byte first (R247). -/
def Desc.swaps (d : Desc) : Bool := (d.size == 4 || d.size == 8) && decide (d.type < 2)
def Desc.conv (d : Desc) (b : List Byte) : List Byte := if d.swaps then b.reverse else b

/-- Payload of a transmit list. -/
def State.payloadOf (s : State) (l : List Nat) : List Byte := l.flatMap fun w =>
  if bitOf w 31 then List.replicate (bitsOf w 16 15) 0
  else match s.var (w % 65536) with
    | some d => d.conv (s.committed d)
    | none => []

/-- R248: the conditions at the fetch instant. -/
def State.fetchOk (s : State) (e : Nat) (vs : List Desc) : Bool :=
  s.get (ALM_E_OWNER_0 e) == s.get ALM_FA_0 && s.inCharge && !s.consMute && bitOf (s.get ALMANAC_valid) (s.get ALMANAC_active_bank) &&
  s.get PORTER_state == 2 && s.synced && vs.all fun d => s.varState d == 1 || s.varState d == 2

/-- R249: the frame of entry i is fetched as flags, source time and payload. A list without a variable has no earliest value time: a free value. -/
def State.fetch (s : State) (i : Nat) : State :=
  let e := s.actE i
  if 4096 ≤ i ∨ s.get (ALM_E_SCHED_12 e) ≠ 1 then s else
  let l := s.listOf (s.get (ALM_E_LIST_0 e)) (s.get (ALM_E_LIST_16 e))
  let vs := (l.filter fun w => !bitOf w 31).filterMap fun w => s.var (w % 65536)
  if !s.fetchOk e vs then s.updN fun c => { c with built := SMap.erase c.built i } else
  let times := vs.map fun d => s.hubNat (d.off + 8) 8
  let flags := 0x80 + 64 * b2n (vs.any fun d => bitOf (s.hdr d) 2) + 32 * b2n (vs.any fun d => s.varState d == 2)
  let free := Config.freeValue s.freeCtr
  let (s, t) : State × Nat := match times with
    | a :: r => (s, r.foldl min a)
    | [] => (s.draw, free)
  s.updN fun c => { c with built := SMap.put c.built i [] (beBytes 1 flags ++ beBytes 8 t ++ s.payloadOf l) }

def execExclusiveFetch (e : Nat) (s : State) : Out := .next (s.fetch e)

/-- R248: the frame of entry i on port x. -/
def State.exclFrame (s : State) (i x : Nat) (b : List Byte) : List Byte :=
  let e := s.actE i
  padTo60 (s.head88b5 x i (s.eMac e) 0 (beAt b 0 1) (s.posOf s.cons.k) (s.mOf s.cons.k) (b.length - 9) (beAt b 1 8) (s.tagOf e) ++ b.drop 9)

/-- R248: an exclusive time window unused or missed. -/
def State.winMissed (s : State) (i : Nat) : State :=
  let s := s.each (bitList 4 (s.get (ALM_E_SCHED_16 (s.actE i)))) fun s x => if x < s.nPorts then s.count (ETH_TX_MISSED_0 x) else s
  (s.raiseInt 0x36 1).consRecord i 0x3603 3 i 1 true

/-- R248: the occurrence of exclusive entry i in this basic cycle. -/
def State.exclStart (s : State) (i : Nat) : State :=
  let e := s.actE i
  if 4096 ≤ i ∨ s.get (ALM_E_SCHED_12 e) ≠ 1 ∨ !s.eOccurs e s.cons.k then s else
  let b := SMap.find? s.cons.built i
  let s := s.updN fun c => { c with built := SMap.erase c.built i }
  match b with
  | none => s.winMissed i
  | some b =>
    if s.get (ALM_E_LEN_0 e) * 40 < s.get (ALM_E_TXOFF_0 e) * 40 + ((s.exclFrame i 0 b).length + 24) * 8 + 2560 ∨ s.consMute then s.winMissed i
    else s.each (s.sendPorts (s.get (ALM_E_SCHED_16 e))) fun s x => s.portSend x (s.exclFrame i x b)

def execExclusiveWindowStart (e : Nat) (s : State) : Out := .next (s.exclStart e)

/-! ## Kind 1 frames (R272 to R274) -/

/-- The departure stamp is the last inserted one (10 R291). -/
def State.stampTx (s : State) (x : Nat) : State := s.set64 (TS_TXLAST_LO_0 x) (txlastHi x) (unsint 64 (s.txStamp x))

/-- A kind 1 frame on port x in a window of entry i. -/
def State.kind1 (s : State) (i x dst : Nat) (payload : List Byte) : List Byte :=
  padTo60 (s.head88b5 x i dst 1 (if s.inCharge then 0x80 else 0) (s.posOf s.cons.k) (s.mOf s.cons.k) 18 (unsint 64 (s.txStamp x))
    (s.tagOf (s.actE i)) ++ payload)

/-- Payload of a sync frame. -/
def State.syncPayload (s : State) : List Byte :=
  beBytes 1 (s.get CM_SYNC_CTL_2) ++ beBytes 1 (s.get CLOCKMAKER_state) ++ beBytes 4 (s.get CM_LASTCORR_HI_0) ++ beBytes 4 (s.get CM_LASTCORR_LO_0) ++
  beBytes 1 (s.get CM_RESYNC_0) ++ beBytes 3 0 ++ beBytes 4 (s.get CM_RATE_0)

/-- R272. -/
def State.syncWindow (s : State) (i : Nat) : State :=
  let e := s.actE i
  if 4096 ≤ i ∨ s.get (ALM_E_SCHED_12 e) ≠ 3 ∨ !s.eOccurs e s.cons.k ∨ s.get (ALM_E_OWNER_0 e) ≠ s.get ALM_FA_0 ∨ !s.syncNode ∨ s.consMute then s
  else s.each (s.sendPorts (s.get (ALM_E_SCHED_16 e))) fun s x => (s.stampTx x).portSend x (s.kind1 i x (s.eMac e) s.syncPayload)

def execSyncWindow (e : Nat) (s : State) : Out := .next (s.syncWindow e)

/-- The broadcast address. -/
def bcast : Nat := 2 ^ 48 - 1

/-- R274: the delay requests due and the answers waiting, ahead of every transmit class. -/
def State.delaySend (s : State) (i : Nat) (ports : List Nat) : State :=
  let due := s.clk.reqDue
  let ans := s.clk.answers
  let s := s.updK fun k => { k with reqDue := [], answers := ans.filter fun a => !ports.contains a.1 }
  let s := s.each due fun s n =>
    let num := s.clk.reqNum
    let s := s.updK fun k => { k with reqNum := (k.reqNum + 1) % 65536 }
    s.each ports fun s x =>
      let p := beBytes 1 (s.get CM_SYNC_CTL_2) ++ beBytes 1 (16 + s.get CLOCKMAKER_state) ++ beBytes 8 0 ++ beBytes 2 (s.get (CM_N_CFG_0 n)) ++
        beBytes 2 num ++ beBytes 4 0
      let s := s.updK fun k => { k with reqs := SMap.insert (SMap.erase k.reqs (4 * n + x)) (4 * n + x) (num, s.txStamp x) }
      (s.stampTx x).portSend x (s.kind1 i x bcast p)
  s.each (ans.filter fun a => ports.contains a.1) fun s a =>
    let p := beBytes 1 (s.get CM_SYNC_CTL_2) ++ beBytes 1 (32 + s.get CLOCKMAKER_state) ++ beBytes 8 a.2.2.2 ++ beBytes 2 a.2.1 ++
      beBytes 2 a.2.2.1 ++ beBytes 4 0
    (s.stampTx a.1).portSend a.1 (s.kind1 i a.1 bcast p)

/-! ## Transmit queues (R250, R239, 10 R285) -/

/-- Length of an IEEE 802.1Q tag in a frame. -/
def tagLen (f : List Byte) : Nat := if beAt f 12 2 = 0x8100 then 4 else 0

/-- Length of R240, given the frame without FCS. -/
def frameLen (f : List Byte) : Nat := f.length + 4 - tagLen f

/-- EtherType of a frame. -/
def etherType (f : List Byte) : Nat := beAt f (12 + tagLen f) 2

/-- Replace bytes of a list from an offset. -/
def splice {α : Type} (l : List α) (off : Nat) (r : List α) : List α := l.take off ++ r ++ l.drop (off + r.length)

/-- Offset of the PTP header of a Sync message to insert into, and of its UDP checksum (R285). -/
def ptpAt (udp : Bool) (f : List Byte) : Option (Nat × Option Nat) :=
  let o := 14 + tagLen f
  let sync (p : Nat) : Bool := beAt f p 1 % 16 == 0 && !bitOf (beAt f (p + 6) 1) 1 && decide (p + 44 ≤ f.length)
  if etherType f = 0x88F7 ∧ sync o then some (o, none)
  else if udp ∧ etherType f = 0x0800 then
    let u := o + beAt f o 1 % 16 * 4
    if beAt f o 1 / 16 = 4 ∧ beAt f (o + 9) 1 = 17 ∧ beAt f (u + 2) 2 = 319 ∧ sync (u + 8) then some (u + 8, some (u + 6)) else none
  else none

/-- R285: originTimestamp written on the fly at port x. -/
def State.ptp (s : State) (x : Nat) (f : List Byte) : State × List Byte :=
  if !s.flag (TS_PORTCTL_1 x) then (s, f) else
  match ptpAt (s.flag (TS_PORTCTL_2 x)) f with
  | some (p, ck) =>
    let t := unsint 64 (s.txStamp x)
    let f := splice f (p + 34) (beBytes 6 (t / 1000000000 + 946684800) ++ beBytes 4 (t % 1000000000))
    (s.stampTx x, match ck with
      | some c => splice f c (beBytes 2 0)
      | none => f)
  | none => (s, f)

/-- R239: the trailer of a frame for a plane. -/
def State.rctOf (s : State) (x : Nat) (f : List Byte) : List Byte :=
  beBytes 2 s.cons.rct ++ beBytes 2 ((10 + x % 2) * 4096 + (f.length - 14 - tagLen f + 6)) ++ beBytes 2 0x88FB

/-- One packet of a transmit class on its ports. -/
def State.classSend (s : State) (ports : List Nat) (f : List Byte) : State :=
  let s := s.each ports fun s x =>
    let f := if etherType f = 0x88B5 then splice f 6 (beBytes 6 (s.ethMac x)) else f
    let r := s.ptp x f
    r.1.portSend x (r.2 ++ r.1.rctOf x r.2)
  s.updN fun c => { c with rct := (c.rct + 1) % 65536 }

/-- The highest-numbered class with a packet waiting: its queue and the packet. -/
def State.classHead (s : State) : Option (Nat × List Byte × Bool) :=
  ([7, 6, 5, 4, 3, 2, 1, 0].filterMap fun c =>
    if s.flag (ALM_TXQ_31 c) then (s.qPeek (s.get (ALM_TXQ_0 c))).map fun p => (s.get (ALM_TXQ_0 c), p.1, p.2) else none).head?

/-- R250: packets while they fit; `used` tenths of a nanosecond of the window are gone. -/
def State.arbLoop (s : State) (ports : List Nat) (len : Nat) : Nat → Nat → State
  | 0, _ => s
  | n + 1, used =>
    match s.classHead with
    | none => s
    | some (q, f, bad) =>
      if bad ∨ 1518 < frameLen f + 6 ∨ f.length < 14 then
        ((s.qTake q).each ports fun s x => s.count (ETH_TX_LONG_0 x)).arbLoop ports len n used
      else
        let t := used + (f.length + 6 + 4 + 20) * 8
        if len * 40 < t + 2560 then s
        else ((s.classSend ports f).qTake q).arbLoop ports len n t

/-- R250: an arbitrating time window. -/
def State.arbWindow (s : State) (i : Nat) : State :=
  let e := s.actE i
  if 4096 ≤ i ∨ s.get (ALM_E_SCHED_12 e) ≠ 2 ∨ !s.eOccurs e s.cons.k ∨ s.consMute then s else
  let ports := s.sendPorts (s.get (ALM_E_SCHED_16 e))
  if ports.isEmpty then s else
  let n := s.clk.reqDue.length + (s.clk.answers.filter fun a => ports.contains a.1).length
  let s := s.delaySend i ports
  let total := ((List.range 8).map fun c => (s.q (s.get (ALM_TXQ_0 c))).pkts.length).sum
  s.arbLoop ports (s.get (ALM_E_LEN_0 e)) total (n * 84 * 8)

def execArbitratingWindow (e : Nat) (s : State) : Out := .next (s.arbWindow e)

/-! ## Receiving (R251 to R254) -/

/-- A frame dropped under R240. -/
def State.rxDrop (s : State) (x : Nat) (f : Fld) : State := ((s.count f).count (ETH_err_count x)).raiseInt (0x30 + x) 1

/-- Step 2: the destination is taken. -/
def State.dstOk (s : State) (x : Nat) (f : List Byte) : Bool :=
  let d := beAt f 0 6
  let k := beAt f (14 + tagLen f) 1 % 16
  d == s.ethMac x || d == bcast || (bitOf (beAt f 0 1) 0 && etherType f == 0x88B5 && decide (k < 2)) ||
  (List.range 16).any fun n =>
    s.flag (ETH_MCAST_en_31 x n) && d == s.get (ETH_MCAST_addr_lo_0 x n) + 2 ^ 32 * s.get (ETH_MCAST_addr_hi_0 x n)

/-- Step 6: the frame names the most recent occurrence of entry e and arrives within its window and ALM_RXLAT. -/
def State.timeOk (s : State) (e pos m : Nat) : Bool :=
  match s.lastOcc e with
  | some k => pos == s.posOf k && m == s.mOf k &&
    decide (s.consTime ≤ s.winStart e k + s.get (ALM_E_LEN_0 e) * 4 + s.get ALM_RXLAT_0 * 1000)
  | none => false

/-- A frame as a packet in a queue, if it has room; `stamp`: R284's prefix. -/
def State.frameToQueue (s : State) (x q tag : Nat) (qfull good : Fld) (stamp : Bool) (f : List Byte) : State :=
  let p := if stamp then beBytes 8 (unsint 64 (s.rxStamp x)) ++ f else f
  if s.qRoom q p.length then (s.count good).qPacket q tag p else s.count qfull

/-- A payload through a receive list into the data image by producer `ident` with value time vt (R252, 11 R306, 12 R330): the values it covers completely
are written, the rest is discarded and counted in `short`. -/
def State.listWrite (s : State) (ident : Nat) (vt : Option Nat) (pay : List Byte) (l : List Nat) (short : Fld) : State :=
  let out := l.foldl (fun (a : State × Nat × Bool) w =>
    let n := s.elemLen w
    if a.2.2 ∨ pay.length < a.2.1 + n then (a.1, a.2.1, true)
    else if bitOf w 31 then (a.1, a.2.1 + n, false)
    else match s.var (w % 65536) with
      | some d => (a.1.imgWrite ident d.v (vt.getD s.now) vt (d.conv (sub pay a.2.1 n)), a.2.1 + n, false)
      | none => a) (s, 0, false)
  if out.2.2 then out.1.count short else out.1

/-- Steps 4 to 8 for a kind 0 frame of receive entry r; g is the frame without its tag. -/
def State.kind0 (s : State) (x r : Nat) (f g : List Byte) : State :=
  let i := beAt g 18 2 % 4096
  let e := s.actE i
  let m := beAt g 22 4
  let pos := beAt g 20 1
  let intr (s : State) (c : Fld) : State := (s.count c).consRecord x 0x3011 3 x (s.get c + 1) true
  if beAt g 36 2 ≠ s.cons.act.id then s.count (ETH_RX_SCHED_0 x)
  else if s.get (ALM_E_SCHED_12 e) ≠ 1 ∨ s.get (ALM_E_OWNER_0 e) ≠ beAt g 16 2 ∨ !bitOf (beAt g 15 1) 7 then
    (intr s (ETH_RX_INTRUDER_0 x)).raiseInt (0x30 + x) 2
  else if !s.timeOk e pos m then intr s (ETH_RX_LATE_0 x)
  else
    let last := SMap.get s.cons.rx r 0
    let lm := (last - 1) / 64
    if last ≠ 0 ∧ !(ahead m lm || (m == lm && decide ((last - 1) % 64 < pos))) then s.count (ETH_RX_DUP_0 x)
    else
      let s := (s.updN fun c => { c with rx := SMap.put c.rx r 0 (m * 64 + pos + 1) }).count (ALM_R_CNT_0 r)
      if s.flag (ALM_R_TGT_28 r) then
        s.frameToQueue x (s.get (ALM_R_TGT_0 r) % 1024) (0x30 + x) (ETH_RX_QFULL_0 x) (ETH_RX_GOOD_0 x) false f
      else
        let s := s.count (ETH_RX_GOOD_0 x)
        if s.passive then s
        else s.listWrite (0x4000 + r) (some (beAt g 26 8)) (sub g 38 (beAt g 34 2)) (s.listOf (s.get (ALM_R_TGT_0 r)) (s.get (ALM_R_TGT_16 r))) (ALM_R_SHORT_0 r)

/-- The lowest enabled receive entry of a source and sender entry (step 3). -/
def State.rxEntry (s : State) (fa i : Nat) : Option Nat :=
  (s.listed ALM_R_MATCH_31).find? fun r => s.flag (ALM_R_MATCH_31 r) && s.get (ALM_R_MATCH_0 r) == fa && s.get (ALM_R_MATCH_16 r) == i

/-- R273, R274: a kind 1 frame; g without its tag. -/
def State.kind1Recv (s : State) (x : Nat) (g : List Byte) : State :=
  let fa := beAt g 16 2
  let e := s.actE (beAt g 18 2 % 4096)
  let sub' := beAt g 39 1 / 16
  let dom := beAt g 38 1 = s.get CM_SYNC_CTL_2
  if sub' = 0 then
    if beAt g 36 2 ≠ s.cons.act.id then s.count (ETH_RX_SCHED_0 x)
    else if !unsynced (s.get CLOCKMAKER_state) ∧ !s.timeOk e (beAt g 20 1) (beAt g 22 4) then
      (s.count (ETH_RX_LATE_0 x)).consRecord x 0x3011 3 x (s.get (ETH_RX_LATE_0 x) + 1) true
    else match s.nodeOf fa with
      | some i =>
        if s.get (ALM_E_SCHED_12 e) = 3 ∧ s.get (ALM_E_OWNER_0 e) = fa ∧ dom then
          (s.count (ETH_RX_GOOD_0 x)).syncMeasure i x (sint 64 (beAt g 26 8)) (beAt g 39 1 % 8)
        else s.count (ETH_RX_NOMATCH_0 x)
      | none => s.count (ETH_RX_NOMATCH_0 x)
  else if sub' = 1 ∧ dom ∧ beAt g 48 2 = s.get ALM_FA_0 ∧ s.syncNode then
    (s.count (ETH_RX_GOOD_0 x)).updK fun k => { k with answers := k.answers ++ [(x, fa, beAt g 50 2, unsint 64 (s.rxStamp x))] }
  else if sub' = 2 ∧ dom ∧ beAt g 48 2 = s.get ALM_FA_0 then
    match s.nodeOf fa with
    | some i => (s.count (ETH_RX_GOOD_0 x)).delaySample i x (beAt g 50 2) (sint 64 (beAt g 40 8)) (sint 64 (beAt g 26 8))
    | none => s.count (ETH_RX_NOMATCH_0 x)
  else s.count (ETH_RX_NOMATCH_0 x)

/-- A valid redundancy control trailer for port x (R239). -/
def rctValid (x : Nat) (f : List Byte) : Bool :=
  let n := f.length
  decide (20 ≤ n) && beAt f (n - 2) 2 == 0x88FB && beAt f (n - 4) 2 / 4096 == 10 + x % 2 && beAt f (n - 4) 2 % 4096 == n - 14 - tagLen f

/-- R239: number `num` from source `mac`: the table after it, or none where it is a duplicate. -/
def State.prpJudge (s : State) (mac num : Nat) : Option (List PrpEnt) :=
  let rest := s.cons.prp.filter fun p => p.mac ≠ mac
  match s.cons.prp.find? fun p => p.mac = mac with
  | none => some (if 1024 ≤ rest.length then rest.drop 1 ++ [⟨mac, num, 0⟩] else rest ++ [⟨mac, num, 0⟩])
  | some p =>
    let d := sint 16 (unsint 16 ((num : Int) - p.high))
    if d = 0 then none
    else if 0 < d then some (rest ++ [⟨mac, num, (p.mark * 2 + 1) * 2 ^ (d.toNat - 1) % 2 ^ 64⟩])
    else
      let b := (-d).toNat - 1
      if 64 ≤ b then some (rest ++ [p])
      else if bitOf p.mark b then none else some (rest ++ [{ p with mark := setBit p.mark b }])

/-- R253: every other frame to its queue. -/
def State.otherFrame (s : State) (x : Nat) (f : List Byte) : State :=
  let go (q : Nat) : State := s.frameToQueue x q (0x30 + x) (ETH_RX_QFULL_0 x) (ETH_RX_GOOD_0 x) (s.flag (TS_PORTCTL_0 x)) f
  if etherType f = 0x88B5 then
    if s.flag ALM_MSGQ_31 then go (s.get ALM_MSGQ_0) else s.count (ETH_RX_NOMATCH_0 x)
  else match (List.range 16).find? fun n => s.flag (ETH_FILTER_31 x n) && s.get (ETH_FILTER_0 x n) == etherType f with
    | some n => go (s.get (ETH_FILTER_16 x n))
    | none => s.count (ETH_RX_NOMATCH_0 x)

/-- Frames other than kinds 0 and 1: duplicate discard, trailer removed, supervision frames discarded (R237, R239). -/
def State.arbRecv (s : State) (x : Nat) (f : List Byte) : State :=
  if !rctValid x f then s.otherFrame x f
  else if etherType f = 0x88FB then s.count (ETH_RX_NOMATCH_0 x)
  else match s.prpJudge (beAt f 6 6) (beAt f (f.length - 6) 2) with
    | none => s.count (ETH_RX_DUP_0 x)
    | some t => (s.updN fun c => { c with prp := t }).otherFrame x (f.take (f.length - 6))

/-- The source address is one of the module's own. -/
def State.ownMac (s : State) (m : Nat) : Bool := (List.range s.nPorts).any fun x => s.ethMac x == m

/-- R251: a frame of an up port, given without its FCS. -/
def State.consRecv (s : State) (x : Nat) (f : List Byte) (fcsOk : Bool) : State :=
  if s.nPorts ≤ x ∨ !s.flag (ETH_up x) ∨ s.power ≠ .run ∨ s.flag PWR_doze then s
  else if 1518 < frameLen f then s.rxDrop x (ETH_RX_LONG_0 x)
  else if f.length + 4 < 64 + tagLen f then s.rxDrop x (ETH_RX_SHORT_0 x)
  else if !fcsOk then s.rxDrop x (ETH_RX_FCS_0 x)
  else if etherType f = 0x8808 then s.count (ETH_RX_PAUSE_0 x)
  else if !s.dstOk x f then s.count (ETH_RX_NOMATCH_0 x)
  else if etherType f ≠ 0x88B5 then s.arbRecv x f
  else
    let g := f.take 12 ++ f.drop (12 + tagLen f)
    let kind := beAt g 14 1 % 16
    if beAt g 14 1 / 16 ≠ 1 ∨ 2 < kind then s.count (ETH_RX_NOMATCH_0 x)
    else if kind = 2 then s.arbRecv x f
    else if kind = 1 then s.kind1Recv x g
    else
      let fa := beAt g 16 2
      let s := if fa = s.get ALM_FA_0 ∧ bitOf (beAt g 15 1) 7 ∧ !s.ownMac (beAt g 6 6) then s.noteOwn else s
      match s.rxEntry fa (beAt g 18 2 % 4096) with
      | some r => s.kind0 x r f g
      | none => s.count (ETH_RX_NOMATCH_0 x)

def execConsistFrameReceived (x : Fin 4) (f : List Byte) (fcsOk : Bool) (s : State) : Out := .next (s.consRecv x.val f fcsOk)

/-- R239: an address not seen for 400 ms. -/
def execDiscardTableAgeOut (mac : Nat) (s : State) : Out := .next (s.updN fun c => { c with prp := c.prp.filter fun p => p.mac ≠ mac })

/-- R254: ALM_RXLAT after the window of receive entry r. -/
def State.missCheck (s : State) (r : Nat) : State :=
  if 4096 ≤ r ∨ !s.flag (ALM_R_MATCH_31 r) ∨ s.power ≠ .run then s else
  match s.lastOcc (s.actE (s.get (ALM_R_MATCH_16 r))) with
  | none => s
  | some k =>
    let last := SMap.get s.cons.rx r 0
    if last ≠ 0 ∧ !(ahead (s.mOf k) ((last - 1) / 64) || (s.mOf k == (last - 1) / 64 && decide ((last - 1) % 64 < s.posOf k))) then s
    else
      let s := ((s.count (ALM_R_CNT_16 r)).count ALMANAC_miss_count).raiseInt 0x36 2
      s.consRecord r 0x3604 3 r (s.get (ALM_R_CNT_16 r)) true

def execReceiveMissCheck (r : Nat) (s : State) : Out := .next (s.missCheck r)

end Sys2Proof.Machine
end

