-- ==== Sys2Proof/Machine/Poll.lean ====
section
/-! DEFINITION. The vehicle poll bus (11). -/

namespace Sys2Proof.Machine

def State.poll (s : State) (c : Nat) : PollS := SMap.get s.polls c PollS.init
def State.updPoll (s : State) (c : Nat) (f : PollS → PollS) : State := { s with polls := SMap.put s.polls c PollS.init (f (s.poll c)) }

/-- Channels present (R293). -/
def State.pollPresent (s : State) (c : Nat) : Bool := decide (c < s.byVar 8 4 2)

/-- A poll bus record (R315). -/
def State.pollRecord (s : State) (c code sev w1 : Nat) : State := s.record code sev [c, w1, s.get (POLL_BPCOUNT_0 c), 0]

def State.pollBank (s : State) (c : Nat) : Nat := s.get (POLL_VSTAT_19 c)

/-- Entry i of the active bank. -/
def State.actP (s : State) (c i : Nat) : Nat := s.pollBank c * 1024 + i

/-- The channel's state as BLK_STAT shows it (R298, R304, R311). -/
def State.pollState (s : State) (c : Nat) : Nat :=
  if !s.flag (POLL_CTL_0 c) then 0
  else if (s.poll c).fault ≠ 0 then (s.poll c).fault
  else if !s.flag (POLL_CTL_1 c) then 2
  else if s.passive ∨ s.flag PWR_doze ∨ s.power ≠ .run then 2
  else if !s.inCharge then 3
  else if bitOf (s.get (POLL_VSTAT_17 c)) (s.pollBank c) then 1 else 2

def State.pollShow (s : State) (c : Nat) : State := s.set (POLL_state c) (s.pollState c)

/-! ## Master (R298 to R304) -/

/-- CRC-8 of R295 over 24 bits. -/
def crc8Step (c b : Nat) : Nat :=
  (List.range 8).foldl (fun c i =>
    let top := (c / 128 + b / 2 ^ (7 - i)) % 2
    let c := c * 2 % 256
    if top = 1 then c ^^^ 0x2F else c) c
def crc8 (l : List Byte) : Nat := (l.foldl (fun c b => crc8Step c b.toNat) 0xFF) ^^^ 0xFF

/-- A master frame's word. -/
def mfWord (fcode addr set seq : Nat) : Nat :=
  let h := fcode * 2 ^ 20 + addr * 2 ^ 8 + set * 2 ^ 4 + seq
  h * 256 + crc8 (beBytes 3 h)

/-- The channel stops polling with a fault. -/
def State.pollStop (s : State) (c fault bit code : Nat) : State :=
  let s := (s.updPoll c fun p => { p with fault := fault, go := false, slot := none, echo := 0 }).pollShow c
  (s.raiseInt (0x3A + c) bit).pollRecord c code 5 0

/-- R304: a read-back that differs, or one that agrees. -/
def State.echoSeen (s : State) (c : Nat) (ok : Bool) : State :=
  if ok then s.updPoll c fun p => { p with echo := 0 } else
  let s := (s.count (POLL_ECHO_0 c)).updPoll c fun p => { p with echo := p.echo + 1 }
  if (s.poll c).echo = 3 then s.pollStop c 5 4 0x3A04 else s

/-- R309: a blocked attempt; three within one second silence the transmitter. -/
def State.pollBlocked (s : State) (c : Nat) : State :=
  let s := (s.count (POLL_BLOCKED_0 c)).raiseInt (0x3A + c) 5
  let l := s.counter :: ((s.poll c).blk.filter fun t => decide (s.counter < t + ticksPerSec)).take 2
  let s := s.updPoll c fun p => { p with blk := l }
  if 3 ≤ l.length ∧ !s.flag (POLL_tx_silenced c) then
    (s.set (POLL_tx_silenced c) 1).pollRecord c 0x3A06 5 0
  else s

/-- A poll missed or answered wrongly: the entry's consecutive misses (R303). -/
def State.pollMissed (s : State) (c e : Nat) : State :=
  let s := s.count (POLL_E_STAT_0 c e)
  if s.get (POLL_SILENT_0 c) ≤ s.get (POLL_E_STAT_0 c e) ∧ !s.flag (POLL_E_STAT_8 c e) then
    let s := (s.set (POLL_E_STAT_8 c e) 1).raiseInt (0x3A + c) 2
    s.once ((0x3A02 * 8 + c) * 65536 + e) ticksPerSec fun s => s.pollRecord c 0x3A02 4 e
  else s

/-- Window start of entry i in basic period k, in units of 100 ns. -/
def State.slotStart (s : State) (c i : Nat) : Nat :=
  (s.poll c).k * (5000 * 2 ^ (s.poll c).per) + s.get (POLL_E_START_0 c (s.actP c i))

/-- R309: the driver stays shut at time t (100 ns): silenced, or within 119 bit times of the last opening. A bit time is 20/3 units over 2^rate. -/
def State.pollShut (s : State) (c t : Nat) : Bool :=
  s.flag (POLL_tx_silenced c) || s.passive ||
  match (s.poll c).opened with
  | some o => decide (o ≤ t) && decide ((t - o) * 3 * 2 ^ s.get (POLL_CTL_2 c) < 119 * 20)
  | none => false

/-! ## Answers (R307) -/

/-- n bytes of l, filled with 0. -/
def fitTo (n : Nat) (l : List Byte) : List Byte := l.take n ++ List.replicate (n - l.length) 0

/-- The fcode 2 answer. -/
def State.statusAnswer (s : State) (c : Nat) : Nat :=
  b2n s.inCharge * 2 ^ 15 + b2n s.synced * 2 ^ 14 + b2n ((List.range 8).any fun j => s.flag (CYC_OVSTAT_9 j)) * 2 ^ 13 + s.get (POLL_STATUSBYTE_0 c)

/-- The enabled answer entry of a master frame. -/
def State.answerOf (s : State) (c : Nat) (m : MasterFrame) : Option Nat :=
  (List.range 64).find? fun a => s.flag (POLL_A_MATCH_31 c a) && s.get (POLL_A_MATCH_0 c a) == m.addr && s.get (POLL_A_MATCH_16 c a) == m.fcode &&
    (s.get (POLL_A_MATCH_12 c a) == m.set || m.fcode == 2) && (!s.flag (POLL_A_MATCH_20 c a) || s.inCharge)

/-- The data field an answer entry sends; a message too long is dropped, one sent is popped. -/
def State.answerData (s : State) (c a fcode n : Nat) : State × List Byte :=
  if fcode = 0 then (s, fitTo n (SMap.get (s.poll c).bufs a []))
  else if fcode = 1 then
    let q := s.get (POLL_A_SRC_0 c a) % 1024
    match s.qPeek q with
    | none => (s, fitTo n [])
    | some (p, _) =>
      if n < p.length + 2 then ((s.qTake q).count (POLL_A_CNT_16 c a), fitTo n [])
      else (s.qTake q, fitTo n (beBytes 2 p.length ++ p))
  else (s, fitTo n (beBytes 2 (s.statusAnswer c)))

/-- R307, R309: a master frame answered, if an entry matches. -/
def State.answer (s : State) (c : Nat) (m : MasterFrame) (echoOk : Bool) : State :=
  if s.passive ∨ s.flag PWR_doze ∨ s.power ≠ .run then s else
  match s.answerOf c m with
  | none => s
  | some a =>
    if s.flag (POLL_tx_silenced c) then s.pollBlocked c else
    let r := s.answerData c a m.fcode (s.get (POLL_A_LEN_0 c a) + 1)
    let s := ((r.1.count (POLL_TX_ANS_0 c)).count (POLL_A_CNT_0 c a)).emit (8 + c) (r.2 ++ beBytes 4 (crc32c 0xFFFFFFFF r.2 ^^^ 0xFFFFFFFF))
    if s.flag (POLL_CTL_1 c) then s.echoSeen c echoOk else s

/-- R307: after a hallmark commit of class j, the idle buffers of its fcode 0 answers are filled and become current. -/
def State.answerFill (s : State) (c j : Nat) : State :=
  s.each (List.range 64) fun s a =>
    if s.flag (POLL_A_MATCH_31 c a) && s.get (POLL_A_MATCH_16 c a) == 0 && s.get (POLL_A_SRC_25 c a) == j then
      let l := s.listOf (s.get (POLL_A_SRC_0 c a)) (s.get (POLL_A_SRC_16 c a))
      s.updPoll c fun p => { p with bufs := SMap.put p.bufs a [] (fitTo (s.get (POLL_A_LEN_0 c a) + 1) (s.payloadOf l)) }
    else s

def State.pollCommit (s : State) (j : Nat) : State :=
  s.each ((List.range 8).filter fun c => s.pollPresent c && s.flag (POLL_CTL_0 c)) fun s c => s.answerFill c j

/-- R300, R303: the slot of entry i begins. -/
def State.slotBegin (s : State) (c i : Nat) (echoOk : Bool) : State :=
  let e := s.actP c i
  let p := s.poll c
  let fcode := s.get (POLL_E_SCHED_12 c e)
  if !s.pollPresent c ∨ 1024 ≤ i ∨ s.pollState c ≠ 1 ∨ !p.go ∨ fcode = 3 ∨ p.k % 2 ^ s.get (POLL_E_SCHED_0 c e) ≠ s.get (POLL_E_SCHED_4 c e) then s else
  let addr := s.get (POLL_E_ADDR_0 c e)
  let set := if fcode = 2 then 0 else s.get (POLL_E_SCHED_16 c e)
  let w := mfWord fcode addr set (p.k % 16)
  let t := s.slotStart c i
  let s := s.updPoll c fun p => { p with slot := some { e := i, n := s.get (POLL_E_ADDR_16 c e) + 1 } }
  if s.pollShut c t then s.pollBlocked c
  else
    let s := ((s.count (POLL_TX_MF_0 c)).emit (8 + c) (beBytes 4 w)).updPoll c fun p =>
      { p with opened := some t, last := some { fcode := fcode, set := set, addr := addr, word := w } }
    let s := s.echoSeen c echoOk
    if (s.poll c).fault ≠ 0 then s else s.answer c { fcode := fcode, set := set, addr := addr, word := w } echoOk

def execPollSlotStart (c : Fin 8) (e : Nat) (echoOk : Bool) (s : State) : Out := .next (s.slotBegin c.val e echoOk)

/-- R303: no reply within rto. -/
def State.replyTimeout (s : State) (c : Nat) : State :=
  match (s.poll c).slot with
  | some k =>
    let s := s.updPoll c fun p => { p with slot := none, last := none }
    let s := ((s.count (POLL_MISS_0 c)).count (POLL_E_MISS_0 c k.e)).raiseInt (0x3A + c) 0
    s.pollMissed c k.e
  | none => s.updPoll c fun p => { p with last := none }

def execPollReplyTimeout (c : Fin 8) (s : State) : Out := .next (if s.pollPresent c.val then s.replyTimeout c.val else s)

/-- R299, R302: a basic period begins. -/
def State.periodStart (s : State) (c : Nat) : State :=
  if !s.pollPresent c ∨ s.power ≠ .run then s else
  let p := s.poll c
  let k := max (p.k + 1) (s.now / (500000 * 2 ^ p.per))
  let s := (s.updPoll c fun p => { p with k := k, slot := none }).set (POLL_BPCOUNT_0 c) k
  let s := if s.flag (POLL_VSTAT_16 c) ∧ p.swAt = k % 2 ^ 32 + 1 then
      let new := s.get (POLL_PERIOD_0 c)
      let s := (s.set (POLL_PERIOD_0 c) p.per).updPoll c fun q =>
        { q with per := new, swAt := 0, k := if new = p.per then q.k else s.now / (500000 * 2 ^ new) }
      let s := ((s.set (POLL_VSTAT_19 c) (1 - s.get (POLL_VSTAT_19 c))).set (POLL_VSTAT_16 c) 0).set (POLL_BPCOUNT_0 c) (s.poll c).k
      let s := s.each (s.listed fun e => POLL_E_STAT_0 c e) fun s e => (s.set (POLL_E_STAT_0 c e) 0).set (POLL_E_STAT_8 c e) 0
      s.pollRecord c 0x3A01 3 (s.get (POLL_VSTAT_0 c) + 2 ^ 12 * s.get (POLL_VSTAT_12 c) + 2 ^ 17 * s.get (POLL_VSTAT_17 c) + 2 ^ 19 * s.get (POLL_VSTAT_19 c))
    else s
  let s := if p.resume then s.updPoll c fun p => { p with fault := 0, resume := false } else s
  let s := if p.unsil then (s.set (POLL_tx_silenced c) 0).updPoll c fun p => { p with unsil := false, blk := [] } else s
  let s := s.updPoll c fun p => { p with go := decide (s.pollState c = 1) }
  s.pollShow c

def execPollBasicPeriodStart (c : Fin 8) (s : State) : Out := .next (s.periodStart c.val)

/-! ## Receiving (R305 to R308) -/

/-- R305, R306: a valid slave frame through the lowest receive entry that matches. -/
def State.slaveDeliver (s : State) (c : Nat) (m : MasterFrame) (data : List Byte) : State :=
  match (s.listed fun e => POLL_R_MATCH_31 c e).find? fun r =>
      s.flag (POLL_R_MATCH_31 c r) && s.get (POLL_R_MATCH_0 c r) == m.addr && s.get (POLL_R_MATCH_16 c r) == m.fcode &&
      (s.get (POLL_R_MATCH_12 c r) == m.set || m.fcode == 2) with
  | none => s
  | some r =>
    if s.flag (POLL_R_TGT_28 c r) then
      let q := s.get (POLL_R_TGT_0 c r) % 1024
      let p := beBytes 4 m.word ++ data
      if s.qRoom q p.length then (s.count (POLL_R_CNT_0 c r)).qPacket q (0x40 + c) p else s.count (POLL_RX_QFULL_0 c)
    else
      let s := s.count (POLL_R_CNT_0 c r)
      if s.passive then s
      else s.listWrite (0x6000 + c * 1024 + r) (some s.now) data (s.listOf (s.get (POLL_R_TGT_0 c r)) (s.get (POLL_R_TGT_16 c r))) (POLL_R_CNT_16 c r)

/-- A slave frame with a CRC, code or length-of-field error. -/
def State.slaveBad (s : State) (c : Nat) (sl : Option PollSlot) : State :=
  let s := ((s.count (POLL_RX_ERR_0 c)).count (POLL_err_count c)).raiseInt (0x3A + c) 1
  match sl with
  | some k => (s.count (POLL_E_MISS_16 c k.e)).pollMissed c k.e
  | none => s

/-- R297, R303, R305: a slave frame: its data field, and whether CRC and code hold. -/
def State.slaveFrame (s : State) (c : Nat) (data : List Byte) (ok : Bool) : State :=
  if !s.pollPresent c ∨ !s.flag (POLL_CTL_0 c) ∨ s.power ≠ .run then s else
  let p := s.poll c
  let s := s.updPoll c fun p => { p with slot := none, last := none }
  match p.last with
  | none => s.count (POLL_RX_ERR_0 c)
  | some m =>
    if !ok ∨ data.length < 2 ∨ 256 < data.length then s.slaveBad c p.slot
    else match p.slot with
      | some k =>
        if data.length ≠ k.n then ((s.count (POLL_RX_LEN_0 c)).count (POLL_E_MISS_16 c k.e)).pollMissed c k.e
        else
          let s := ((s.count (POLL_RX_GOOD_0 c)).set (POLL_E_STAT_0 c k.e) 0).set (POLL_E_STAT_8 c k.e) 0
          s.slaveDeliver c m data
      | none => (s.count (POLL_RX_GOOD_0 c)).slaveDeliver c m data

def execPollSlaveFrameReceived (c : Fin 8) (data : List Byte) (ok : Bool) (s : State) : Out := .next (s.slaveFrame c.val data ok)

/-- R304, R307, R308: a valid master frame of another station. -/
def State.masterFrame (s : State) (c fcode set addr : Nat) (echoOk : Bool) : State :=
  if !s.pollPresent c ∨ !s.flag (POLL_CTL_0 c) ∨ s.power ≠ .run then s else
  let s := if s.flag (POLL_CTL_1 c) then
      (if s.pollState c = 1 then ((s.count (POLL_FOREIGN_0 c)).pollStop c 4 3 0x3A03) else s)
    else s.updPoll c fun p => { p with silent := false }
  if 3 ≤ fcode then (s.count (POLL_RX_ERR_0 c)).updPoll c fun p => { p with last := none } else
  let m : MasterFrame := { fcode := fcode, set := set % 16, addr := addr % 4096, word := mfWord fcode (addr % 4096) (set % 16) ((s.poll c).k % 16) }
  (s.updPoll c fun p => { p with last := some m }).answer c m echoOk

def execPollMasterFrameReceived (c : Fin 8) (fcode set addr : Nat) (echoOk : Bool) (s : State) : Out :=
  .next (s.masterFrame c.val fcode set addr echoOk)

/-- R308. -/
def execSlaveSilenceTimeout (c : Fin 8) (s : State) : Out :=
  .next (
    if s.pollPresent c.val && s.flag (POLL_CTL_0 c.val) && !s.flag (POLL_CTL_1 c.val) && !(s.poll c.val).silent && s.power == .run then
      let s := (s.updPoll c.val fun p => { p with silent := true }).raiseInt (0x3A + c.val) 2
      s.pollRecord c.val 0x3A05 4 0
    else s)

/-! ## Commands (R301, R302, R304, R309, R314) -/

/-- Slot of an entry in units of 100/(3 × 2^rate) ns: start and end. -/
def State.slotSpan (s : State) (c e : Nat) : Nat × Nat :=
  let u := 3 * 2 ^ s.get (POLL_CTL_2 c)
  let a := s.get (POLL_E_START_0 c e) * u
  (a, a + (87 + s.get (POLL_CTL_4 c) + 8 * (s.get (POLL_E_ADDR_16 c e) + 1)) * 20)

/-- Two entries occur in a common basic period. -/
def State.pollMeet (s : State) (c e f : Nat) : Bool :=
  let m := 2 ^ min (s.get (POLL_E_SCHED_0 c e)) (s.get (POLL_E_SCHED_0 c f))
  s.get (POLL_E_SCHED_4 c e) % m == s.get (POLL_E_SCHED_4 c f) % m

/-- Why an entry is refused, 0 not. -/
def State.pollRefusal (s : State) (c : Nat) (all : List Nat) (e : Nat) : Nat :=
  let x := s.slotSpan c e
  let other (p : Nat × Nat → Bool) : Bool := all.any fun f => f != e && s.pollMeet c e f && p (s.slotSpan c f)
  if other fun y => decide (x.1 < y.2) && decide (y.1 < x.2) then 1
  else if 5000 * 2 ^ s.get (POLL_PERIOD_0 c) * (3 * 2 ^ s.get (POLL_CTL_2 c)) < x.2 then 2
  else if other fun y => decide (y.2 ≤ x.1) && decide (x.1 < y.2 + 160) then 3
  else 0

/-- A receive or answer entry whose list reaches beyond the list area. -/
def State.pollListBad (s : State) (c : Nat) : Option Nat :=
  ((s.listed fun e => POLL_R_MATCH_31 c e).find? fun r =>
    s.flag (POLL_R_MATCH_31 c r) && !s.flag (POLL_R_TGT_28 c r) && decide (65536 < s.get (POLL_R_TGT_0 c r) + s.get (POLL_R_TGT_16 c r))).orElse fun _ =>
  (List.range 64).find? fun a =>
    s.flag (POLL_A_MATCH_31 c a) && s.get (POLL_A_MATCH_16 c a) == 0 && decide (65536 < s.get (POLL_A_SRC_0 c a) + s.get (POLL_A_SRC_16 c a))

def State.pollValid (s : State) (c b : Nat) (v : Bool) : State :=
  s.set (POLL_VSTAT_17 c) (if v then setBit (s.get (POLL_VSTAT_17 c)) b else clrBit (s.get (POLL_VSTAT_17 c)) b)

/-- R301. -/
def State.pollValidate (s : State) (c : Nat) : State :=
  let b := 1 - s.pollBank c
  let all := ((List.range 1024).map fun i => b * 1024 + i).filter fun e => s.get (POLL_E_SCHED_12 c e) != 3
  let no (s : State) (e r : Nat) : State := ((s.pollValid c b false).set (POLL_VSTAT_0 c) e).set (POLL_VSTAT_12 c) r
  match all.find? fun e => s.pollRefusal c all e != 0 with
  | some e => no s (e % 1024) (s.pollRefusal c all e)
  | none => match s.pollListBad c with
    | some r => no s r 4
    | none => ((s.pollValid c b true).set (POLL_VSTAT_0 c) 0).set (POLL_VSTAT_12 c) 0

def execPollValidate (a : Acc) (c : Fin 8) (s : State) : Out := .next (s.writeAt a (0x3A + c.val) 0x04C fun s => s.pollValidate c.val)

/-- R302. -/
def State.pollArm (s : State) (c : Nat) : State :=
  if ahead (s.get (POLL_SWITCH_0 c)) (s.get (POLL_BPCOUNT_0 c)) then
    (s.set (POLL_VSTAT_16 c) 1).updPoll c fun p => { p with swAt := s.get (POLL_SWITCH_0 c) + 1 }
  else
    let s := (s.set (POLL_VSTAT_0 c) 0).set (POLL_VSTAT_12 c) 5
    s.pollRecord c 0x3A01 3 (2 ^ 12 * 5 + 2 ^ 16 * s.get (POLL_VSTAT_16 c) + 2 ^ 17 * s.get (POLL_VSTAT_17 c) + 2 ^ 19 * s.get (POLL_VSTAT_19 c))

def execPollSwitchArm (a : Acc) (c : Fin 8) (s : State) : Out := .next (s.writeAt a (0x3A + c.val) 0x04C fun s => s.pollArm c.val)
def execPollSwitchCancel (a : Acc) (c : Fin 8) (s : State) : Out :=
  .next (s.writeAt a (0x3A + c.val) 0x04C fun s => (s.set (POLL_VSTAT_16 c.val) 0).updPoll c.val fun p => { p with swAt := 0 })
def execPollResume (a : Acc) (c : Fin 8) (s : State) : Out :=
  .next (s.writeAt a (0x3A + c.val) 0x04C fun s => s.updPoll c.val fun p => { p with resume := p.resume || decide (p.fault ≠ 0) })
def execPollUnsilence (a : Acc) (c : Fin 8) (s : State) : Out :=
  .next (s.writeAt a (0x3A + c.val) 0x04C fun s => s.updPoll c.val fun p => { p with unsil := true })

/-- POLL_CTL: every write of rate and rto marks both banks invalid (R301, R314). -/
def State.pollCtl (s : State) (c v : Nat) : State :=
  let s := (s.setB (POLL_CTL_0 c) (bitOf v 0)).setB (POLL_CTL_1 c) (bitOf v 1 && s.nodeCap)
  let s := ((s.set (POLL_CTL_2 c) (v / 4)).set (POLL_CTL_4 c) (max 16 (bitsOf v 4 8))).set (POLL_VSTAT_17 c) 0
  let s := if s.flag (POLL_CTL_0 c) then s else s.updPoll c fun p => { p with go := false, slot := none, last := none }
  s.pollShow c

def execPollCtlWrite (a : Acc) (c : Fin 8) (v : Nat) (s : State) : Out := .next (s.writeAt a (0x3A + c.val) 0x040 fun s => s.pollCtl c.val v)

end Sys2Proof.Machine
end

