-- ==== Sys2Proof/Machine/Can.lean ====
section
/-! DEFINITION. The CAN FD controllers (12). -/

namespace Sys2Proof.Machine

def State.can (s : State) (c : Nat) : CanS := SMap.get s.cans c CanS.init
def State.updCan (s : State) (c : Nat) (f : CanS → CanS) : State := { s with cans := SMap.put s.cans c CanS.init (f (s.can c)) }
def State.mb (s : State) (c m : Nat) : MboxS := SMap.get (s.can c).mbox m MboxS.init
def State.updMb (s : State) (c m : Nat) (f : MboxS → MboxS) : State :=
  s.updCan c fun k => { k with mbox := SMap.put k.mbox m MboxS.init (f (SMap.get k.mbox m MboxS.init)) }

def State.canPresent (s : State) (c : Nat) : Bool := decide (c < s.byVar 16 8 4)

/-- A CAN record (R337). -/
def State.canRecord (s : State) (c code sev w1 w2 : Nat) : State := s.record code sev [c, w1, w2, 0]

def State.errCnt (s : State) (c : Nat) : Nat := s.get (CAN_ERRCNT_0 c) + 2 ^ 16 * s.get (CAN_ERRCNT_16 c)
def State.errLog (s : State) (c : Nat) : Nat :=
  s.get (CAN_ERRLOG_0 c) + 16 * s.get (CAN_ERRLOG_4 c) + 128 * s.get (CAN_ERRLOG_7 c) + 256 * s.get (CAN_ERRLOG_8 c)

/-! ## Controller states (R318, R319, R322) -/

/-- R332: the module's state forces listen-only. -/
def State.canListen (s : State) (c : Nat) : Bool := s.flag (CAN_CTL_0 c) || s.passive

/-- Into ON, or LISTEN. -/
def State.canJoin (s : State) (c : Nat) : State := s.set (CAN_state c) (if s.canListen c then 3 else 2)

/-- Detection begins again (R321). -/
def State.canDetect (s : State) (c : Nat) : State :=
  let s := ((s.set (CAN_state c) 1).set (CAN_AUTO_8 c) 15).set (CAN_AUTO_12 c) 15
  s.updCan c fun k => { k with cand := s.get (CAN_AUTO_16 c), cnt := 0, dcand := 0, dcnt := 0, redReq := false, recov := false }

/-- Error counters of a node that starts (R316). -/
def State.canZero (s : State) (c : Nat) : State := ((s.set (CAN_ERRCNT_0 c) 0).set (CAN_ERRCNT_16 c) 0).set (CAN_err_state c) 0

/-- R322: the combinations clamped at start. -/
def State.canClamp (s : State) (c : Nat) : State :=
  let tq := 1 + s.get (CAN_NBT_9 c) + s.get (CAN_NBT_18 c)
  let n := s.get (CAN_NBT_0 c)
  let n := if n * tq < 80 then (80 + tq - 1) / tq else if 8000 < n * tq then 8000 / tq else n
  let dq := 1 + s.get (CAN_DBT_6 c) + s.get (CAN_DBT_12 c)
  let d := s.get (CAN_DBT_0 c)
  let d := if d * dq < 10 then (10 + dq - 1) / dq else d
  let d := if n * tq < d * dq then n * tq / dq else d
  (s.set (CAN_NBT_0 c) n).set (CAN_DBT_0 c) d

/-- CAN_CMD start. -/
def State.canStart (s : State) (c : Nat) : State :=
  if s.get (CAN_state c) ≠ 0 then s else
  let s := (s.canZero c).updCan c fun k => { k with stopReq := false, redReq := false, recov := false, sending := none }
  if s.isF then (s.canClamp c).canJoin c else s.canDetect c

/-- Into INIT. -/
def State.canInit (s : State) (c : Nat) : State :=
  (s.set (CAN_state c) 0).updCan c fun k => { k with stopReq := false, redReq := false, recov := false, sending := none }

/-- What waited for the end of the frame in progress: stop, redetection. -/
def State.canIdle (s : State) (c : Nat) : State :=
  if (s.can c).stopReq then s.canInit c else if (s.can c).redReq then (s.canZero c).canDetect c else s

def State.canStop (s : State) (c : Nat) : State :=
  if s.get (CAN_state c) = 0 then s
  else if (s.can c).sending.isSome then s.updCan c fun k => { k with stopReq := true } else s.canInit c

def State.canRecover (s : State) (c : Nat) : State := if s.get (CAN_state c) = 4 then s.updCan c fun k => { k with recov := true } else s

def State.canRedetect (s : State) (c : Nat) : State :=
  if s.isF ∨ s.get (CAN_state c) < 2 then s
  else if (s.can c).sending.isSome then s.updCan c fun k => { k with redReq := true } else (s.canZero c).canDetect c

def canPage (c : Fin 16) : Nat := 0x42 + c.val

def execCanStart (a : Acc) (c : Fin 16) (s : State) : Out := .next (s.writeAt a (canPage c) 0x054 fun s => s.canStart c.val)
def execCanStop (a : Acc) (c : Fin 16) (s : State) : Out := .next (s.writeAt a (canPage c) 0x054 fun s => s.canStop c.val)
def execCanRecover (a : Acc) (c : Fin 16) (s : State) : Out := .next (s.writeAt a (canPage c) 0x054 fun s => s.canRecover c.val)
def execCanRedetect (a : Acc) (c : Fin 16) (s : State) : Out := .next (s.writeAt a (canPage c) 0x054 fun s => s.canRedetect c.val)

/-- Error state from the counters; entries into error passive and bus-off (R318). -/
def State.canErrState (s : State) (c : Nat) : State :=
  let t := s.get (CAN_ERRCNT_0 c)
  let r := s.get (CAN_ERRCNT_16 c)
  if 255 < t then
    if s.get (CAN_state c) = 4 then s else
    let s := (s.set (CAN_state c) 4).set (CAN_err_state c) 2
    let s := s.updCan c fun k => { k with sending := none, recov := s.flag (CAN_CTL_2 c) }
    ((s.count (CAN_BUSOFF_0 c)).raiseInt (0x42 + c) 0).canRecord c 0x4201 5 (s.errCnt c) (s.errLog c)
  else if 127 < t ∨ 127 < r then
    if s.get (CAN_err_state c) = 1 then s else
    let s := (s.set (CAN_err_state c) 1).raiseInt (0x42 + c) 1
    s.once (0x4202 * 65536 + c) ticksPerSec fun s => s.canRecord c 0x4202 4 (s.errCnt c) (s.errLog c)
  else s.set (CAN_err_state c) 0

/-- R318: 128 times 11 recessive bits. -/
def execCanBusoffRecovered (c : Fin 16) (s : State) : Out :=
  .next (if s.get (CAN_state c.val) = 4 ∧ (s.can c.val).recov then
    let s := ((s.canZero c.val).canJoin c.val).updCan c.val fun k => { k with recov := false }
    s.canRecord c.val 0x4203 3 (s.errCnt c.val) (s.errLog c.val)
  else s)

/-- R319: LISTEN is left at the next bus idle. -/
def execCanListenExit (c : Fin 16) (s : State) : Out :=
  .next (if s.get (CAN_state c.val) = 3 ∧ !s.canListen c.val then s.set (CAN_state c.val) 2 else s)

/-! ## Frames (R325) -/

/-- Payload bytes of a DLC. -/
def dlcLen (fdf : Bool) (dlc : Nat) : Nat :=
  if dlc ≤ 8 then dlc
  else if fdf then ([12, 16, 20, 24, 32, 48, 64].getD (dlc - 9) 64) else 8

def canLen (f : CanFrame) : Nat := if f.rtr && !f.fdf then 0 else dlcLen f.fdf f.dlc

/-- The arbitration field as a number; the lower wins (R326). -/
def canArb (f : CanFrame) : Nat :=
  let base := f.id / 2 ^ 18 % 2 ^ 11
  let r := b2n (f.rtr && !f.fdf)
  if f.ext then base * 2 ^ 21 + 2 ^ 20 + 2 ^ 19 + f.id % 2 ^ 18 * 2 + r else base * 2 ^ 21 + r * 2 ^ 20

/-- A frame of header words and payload. -/
def canOf (w0 w1 : Nat) (data : List Byte) : CanFrame :=
  { id := w0 % 2 ^ 29, ext := bitOf w0 29, rtr := bitOf w0 30 && !bitOf w0 31, fdf := bitOf w0 31, brs := bitOf w1 4, esi := false,
    dlc := w1 % 16, data := data }

/-- The header words of a received frame. -/
def canWords (f : CanFrame) (filter : Nat) : List Byte :=
  leBytes 4 (f.id % 2 ^ 29 + b2n f.ext * 2 ^ 29 + b2n f.rtr * 2 ^ 30 + b2n f.fdf * 2 ^ 31) ++
  leBytes 4 (f.dlc % 16 + b2n f.brs * 16 + b2n f.esi * 32 + filter * 256)

/-! ## Transmitting (R324 to R328) -/

/-- Mailbox m's queue. -/
def State.mbQueue (s : State) (c m : Nat) : Nat := s.get (CAN_M_SRC_0 c m) % 1024

def State.mbStat (s : State) (c m st : Nat) : State := s.set (CAN_M_STAT_0 c m) st
def State.mbResult (s : State) (c m r : Nat) : State := s.set (CAN_M_STAT_4 c m) r

/-- The head packet of a queue as a frame, none where R325 refuses it. -/
def packetFrame (p : List Byte × Bool) : Option CanFrame :=
  let f := canOf (leAt p.1 0 4) (leAt p.1 4 4) (p.1.drop 8)
  if p.2 ∨ p.1.length ≠ 8 + canLen f then none else some f

/-- R324, R325: a queue mailbox takes hold of the next released packet; packets refused are popped without being sent. -/
def State.mbHold (s : State) (c m : Nat) : Nat → State
  | 0 => s.mbStat c m 0
  | n + 1 =>
    let q := s.mbQueue c m
    match s.qPeek q with
    | none => (s.updMb c m fun b => { b with left := 0 }).mbStat c m 0
    | some p => match packetFrame p with
      | some f => ((s.updQ q fun x => { x with claim := true }).updMb c m fun b => { b with frame := some f, left := n + 1 }).mbStat c m 1
      | none => (((s.qTake q).count (CAN_TX_PKTDROP_0 c)).mbResult c m 6).mbHold c m n

/-- R324: what a hallmark edge of its class makes of mailbox m. -/
def State.mbRequest (s : State) (c m : Nat) : State :=
  let b := s.mb c m
  let sending := (s.can c).sending = some m
  if !s.flag (CAN_M_CTL_5 c m) ∨ (s.flag (CAN_M_CTL_6 c m) ∧ !s.inCharge) then
    (if sending ∨ b.frame.isNone then s else (s.updMb c m fun _ => MboxS.init).mbStat c m 0)
  else if s.get (CAN_M_CTL_8 c m) = 1 then
    let n := (s.q (s.mbQueue c m)).pkts.length
    if sending ∨ b.frame.isSome then s.updMb c m fun b => { b with left := n } else s.mbHold c m n
  else
    let fdf := bitOf (s.get (CAN_M_ID_0 c m)) 31
    let w1 := s.get (CAN_M_CTL_0 c m) + 16 * s.get (CAN_M_CTL_4 c m)
    let f := canOf (s.get (CAN_M_ID_0 c m)) w1 []
    let pay := s.payloadOf (s.listOf (s.get (CAN_M_SRC_0 c m)) (s.get (CAN_M_SRC_16 c m)))
    let f : CanFrame := { f with data := fitTo (if f.rtr then 0 else dlcLen fdf f.dlc) pay }
    if sending then
      let s := if b.next.isSome then (s.mbResult c m 5).count (CAN_M_CNT_16 c m) else s
      s.updMb c m fun b => { b with next := some f }
    else
      let s := if b.frame.isSome ∧ s.get (CAN_M_STAT_0 c m) = 1 then (s.mbResult c m 5).count (CAN_M_CNT_16 c m) else s
      (s.updMb c m fun b => { b with frame := some f, next := none }).mbStat c m 1

/-- R324: a hallmark edge of class j. -/
def State.canCommit (s : State) (j : Nat) : State :=
  s.each ((List.range 16).filter fun c => s.canPresent c && s.get (CAN_state c) != 0) fun s c =>
    s.each ((List.range 64).filter fun m => s.get (CAN_M_CTL_12 c m) == j &&
        (s.flag (CAN_M_CTL_5 c m) || (SMap.find? (s.can c).mbox m).isSome)) fun s m => s.mbRequest c m

/-- Mailboxes that may send now. -/
def State.mbReady (s : State) (c : Nat) : List (Nat × CanFrame) :=
  (s.can c).mbox.filterMap fun x => match x.2.frame with
    | some f => if s.get (CAN_M_STAT_0 c x.1) = 1 ∧ (!s.flag (CAN_M_CTL_6 c x.1) ∨ s.inCharge) then some (x.1, f) else none
    | none => none

/-- The data rate of EUL-T3C and EUL-T3S is not locked: nothing is sent with switching (R321). -/
def State.noBrs (s : State) (c : Nat) (f : CanFrame) : Bool := !s.isF && f.brs && f.fdf && s.get (CAN_AUTO_12 c) == 15

/-- R326: the frame that would win goes out. -/
def State.canSof (s : State) (c tdcv : Nat) : State :=
  if s.get (CAN_state c) ≠ 2 ∨ (s.can c).sending.isSome ∨ s.flag PWR_doze ∨ s.power ≠ .run then s else
  match s.mbReady c with
  | [] => s
  | x :: r =>
    let w := r.foldl (fun (b : Nat × CanFrame) y => if canArb y.2 < canArb b.2 then y else b) x
    let s := (s.updCan c fun k => { k with sending := some w.1 }).mbStat c w.1 2
    if w.2.fdf && w.2.brs && !s.noBrs c w.2 then s.set (CAN_TDCV_0 c) (min 127 tdcv) else s

def execCanStartOfFrame (c : Fin 16) (tdcv : Nat) (s : State) : Out := .next (s.canSof c.val tdcv)

/-- A queue mailbox is done with the packet it holds; the next released one comes up. -/
def State.mbPop (s : State) (c m : Nat) (idle : Nat) : State :=
  let left := (s.mb c m).left - 1
  let s := ((s.qTakeHeld (s.mbQueue c m)).updMb c m fun b => { b with frame := none, left := left }).mbStat c m idle
  if left = 0 then s else s.mbHold c m left

/-- The frame in transmission is over with status st for a list mailbox: the next request comes up. -/
def State.mbOver (s : State) (c m st : Nat) : State :=
  if s.get (CAN_M_CTL_8 c m) = 1 then s.mbPop c m st
  else match (s.mb c m).next with
    | some f => (s.updMb c m fun b => { b with frame := some f, next := none }).mbStat c m 1
    | none => (s.updMb c m fun b => { b with frame := if st = 0 then none else b.frame }).mbStat c m st

/-- The frame on the wire: identifier word, control word, payload. -/
def State.canWire (s : State) (c : Nat) (f : CanFrame) : State := s.emit (64 + c) (canWords f 0 ++ f.data)

/-- A frame sent (R316, R324). -/
def State.canSent (s : State) (c : Nat) : State :=
  match (s.can c).sending with
  | none => s
  | some m =>
    match (s.mb c m).frame with
    | none => s.updCan c fun k => { k with sending := none }
    | some f =>
      let nb := s.noBrs c f
      let s := (s.canWire c { f with brs := f.brs && !nb, esi := f.fdf && s.get (CAN_err_state c) == 1 }).updCan c fun k => { k with sending := none }
      let s := (s.set (CAN_ERRCNT_0 c) (s.get (CAN_ERRCNT_0 c) - 1)).canErrState c
      let s := ((s.count (CAN_TX_FRAMES_0 c)).count (CAN_M_CNT_0 c m)).mbResult c m 1
      let s := if nb then s.count (CAN_TX_NOBRS_0 c) else s
      (s.mbOver c m 0).canIdle c

def execCanTxComplete (c : Fin 16) (s : State) : Out := .next (s.canSent c.val)

/-- R327: one-shot: the frame is abandoned with a result. -/
def State.canAbandon (s : State) (c m r : Nat) : State :=
  let s := ((s.count (CAN_ABANDON_0 c)).raiseInt (0x42 + c) 2).mbResult c m r
  s.mbOver c m 3

/-- The frame in transmission ends without success: abandoned in one-shot mode, else ready again. -/
def State.canUnsent (s : State) (c m r : Nat) : State :=
  let s := s.updCan c fun k => { k with sending := none }
  if s.flag (CAN_CTL_1 c) then s.canAbandon c m r
  else match (s.mb c m).next with
    | some f => (((s.mbResult c m 5).count (CAN_M_CNT_16 c m)).updMb c m fun b => { b with frame := some f, next := none }).mbStat c m 1
    | none => s.mbStat c m 1

/-- The frame fails, and what waited for its end follows. -/
def State.canFailed (s : State) (c m r : Nat) : State := (s.canUnsent c m r).canIdle c

def execCanArbitrationLost (c : Fin 16) (s : State) : Out :=
  .next (match (s.can c.val).sending with
    | some m => (s.count (CAN_ARB_LOST_0 c.val)).canFailed c.val m 2
    | none => s)

/-! ## Detection (R321) -/

/-- A rate locked. -/
def State.rateLock (s : State) (c : Nat) : State :=
  (s.raiseInt (0x42 + c) 4).canRecord c 0x4204 3 (s.get (CAN_AUTO_8 c) * 2 ^ 8 + s.get (CAN_AUTO_12 c) * 2 ^ 12) (s.errLog c)

/-- A frame without error while a rate is being detected. -/
def State.detGood (s : State) (c : Nat) (f : CanFrame) : State :=
  if s.isF then s else
  let s := if s.get (CAN_state c) ≠ 1 then s else
    let s := s.updCan c fun k => { k with cnt := k.cnt + 1 }
    if (s.can c).cnt < s.get (CAN_AUTO_0 c) then s else
    let s := (s.set (CAN_AUTO_8 c) (s.can c).cand).set (CAN_AUTO_16 c) (s.can c).cand
    (s.canJoin c).rateLock c
  if !(f.fdf && f.brs) ∨ s.get (CAN_AUTO_12 c) ≠ 15 then s else
  let s := s.updCan c fun k => { k with dcnt := k.dcnt + 1 }
  if (s.can c).dcnt < s.get (CAN_AUTO_0 c) then s else (s.set (CAN_AUTO_12 c) (s.can c).dcand).rateLock c

/-- An error while a rate is being detected. -/
def State.detBad (s : State) (c : Nat) (e : CanErr) : State :=
  if s.isF then s
  else if e.data then
    (if s.get (CAN_AUTO_12 c) = 15 then s.updCan c fun k => { k with dcnt := 0, dcand := (k.dcand + 1) % 5 } else s)
  else if s.get (CAN_state c) = 1 ∧ (e.kind = 3 ∨ e.kind = 4 ∨ e.kind = 6) then
    s.updCan c fun k => { k with cnt := 0, cand := (k.cand + 1) % 9 }
  else s

/-! ## Errors (R316, R328) -/

/-- The error counters of ISO 11898-1: a sender's by 8, but for an acknowledgement error of an error passive node that sees no dominant bit and for
a stuff error in arbitration; a receiver's by 1, by 8 in an error or overload frame. -/
def State.errCount (s : State) (c : Nat) (e : CanErr) (sending : Bool) : State :=
  if sending then
    if (e.kind = 5 ∧ s.get (CAN_err_state c) = 1 ∧ e.quiet) ∨ (e.kind = 3 ∧ e.field = 0) then s
    else s.set (CAN_ERRCNT_0 c) (min 511 (s.get (CAN_ERRCNT_0 c) + 8))
  else s.set (CAN_ERRCNT_16 c) (min 255 (s.get (CAN_ERRCNT_16 c) + (if e.field = 6 then 8 else 1)))

/-- R316, R321, R327, R328. -/
def State.canError (s : State) (c : Nat) (e : CanErr) : State :=
  let st := s.get (CAN_state c)
  if st = 0 ∨ st = 4 ∨ s.power ≠ .run then s else
  let snd := (s.can c).sending
  let s := s.count (CAN_err_count c)
  let s := ((s.set (CAN_ERRLOG_0 c) e.kind.val).set (CAN_ERRLOG_4 c) e.field.val).setB (CAN_ERRLOG_7 c) snd.isSome
  let s := (s.setB (CAN_ERRLOG_8 c) e.data).detBad c e
  let s := if st = 2 then s.errCount c e snd.isSome else s
  let s := match snd with
    | some m =>
      if (e.kind = 1 ∨ e.kind = 2) ∧ (e.field = 1 ∨ e.field = 2) then
        let s := ((s.count (CAN_COLLIDE_0 c)).mbResult c m 4).raiseInt (0x42 + c) 3
        let s := s.once ((0x4205 * 16 + c) * 65536 + m) ticksPerSec fun s => s.canRecord c 0x4205 4 (s.errCnt c) m
        s.canUnsent c m 4
      else s.canUnsent c m 3
    | none => s
  (if st = 2 then s.canErrState c else s).canIdle c

def execCanErrorDetected (c : Fin 16) (e : CanErr) (s : State) : Out := .next (s.canError c.val e)

/-! ## Receiving (R329 to R331) -/

/-- Filter n accepts the frame. -/
def State.filterHit (s : State) (c n : Nat) (f : CanFrame) : Bool :=
  s.flag (CAN_F_CTL_0 c n) && (f.id ^^^ s.get (CAN_F_ID_0 c n)) &&& s.get (CAN_F_MASK_0 c n) == 0 && f.ext == s.flag (CAN_F_ID_29 c n) &&
  (if f.fdf then s.flag (CAN_F_CTL_3 c n) else if f.rtr then s.flag (CAN_F_CTL_2 c n) else s.flag (CAN_F_CTL_1 c n))

/-- A frame through the filter that decides. -/
def State.canDeliver (s : State) (c : Nat) (f : CanFrame) : State :=
  match (List.range 128).find? fun n => s.filterHit c n f with
  | none => s.count (CAN_RX_NOMATCH_0 c)
  | some n =>
    let t := s.get (CAN_F_CTL_4 c n)
    if t = 1 then
      let s := s.count (CAN_F_CNT_0 c n)
      if s.passive then s
      else s.listWrite (0x8000 + c * 128 + n) (some s.now) f.data (s.listOf (s.get (CAN_F_TGT_0 c n)) (s.get (CAN_F_TGT_16 c n))) (CAN_F_CNT_16 c n)
    else if t = 2 then
      let q := s.get (CAN_F_TGT_0 c n) % 1024
      let p := canWords f n ++ f.data
      if s.qRoom q p.length then (s.count (CAN_F_CNT_0 c n)).qPacket q (0x50 + c) p
      else (s.count (CAN_RX_QFULL_0 c)).raiseInt (0x42 + c) 5
    else s

/-- A receive error counter above 127 goes to a value between 119 and 127 that ISO 11898-1 leaves open. -/
def State.recGood (s : State) (c : Nat) : State :=
  let r := s.get (CAN_ERRCNT_16 c)
  if 127 < r then (s.set (CAN_ERRCNT_16 c) (119 + Config.freeValue s.freeCtr % 9)).draw else s.set (CAN_ERRCNT_16 c) (r - 1)

/-- A frame received without error, of another node. -/
def State.canRecv (s : State) (c : Nat) (f : CanFrame) : State :=
  let st := s.get (CAN_state c)
  if st = 0 ∨ st = 4 ∨ s.power ≠ .run then s else
  let f := { f with data := fitTo (canLen f) f.data }
  let s := s.count (CAN_RX_GOOD_0 c)
  let s := if st = 2 then (s.recGood c).canErrState c else s
  (s.detGood c f).canDeliver c f

def execCanFrameReceived (c : Fin 16) (f : CanFrame) (s : State) : Out := .next (s.canRecv c.val f)

end Sys2Proof.Machine
end

