-- ==== Sys2Proof/Machine/Fio.lean ====
section
/-! DEFINITION. The field I/O unit (13): island states, inputs, outputs, staging and commit, read-back, FIO_CMD. -/

namespace Sys2Proof.Machine

/-- Words 0 to 3 of a record (R361). -/
def State.fioWords (s : State) (i w1 : Nat) : List Nat :=
  [i, w1, if 8 ≤ i then s.get (FIO_OUT_STATE_0 i) + 256 * s.get (FIO_OUT_STATE_8 i) + 65536 * s.get (FIO_OUT_STATE_16 i) else s.get (FIO_IN_STATE_0 i), 0]

def State.fioRaise (s : State) (i b : Nat) : State := s.raiseInt (0x52 + i) b
def State.fioRecord (s : State) (i code sev w1 : Nat) : State := s.record code sev (s.fioWords i w1)

/-! ## Loading (R344) -/

/-- The 2,048 words of an island microcode slot, from sector 1 of its partition (19 R464, 21 R518). -/
def State.islandRam (s : State) (slotB : Bool) : SMap Byte :=
  let base := (4 + b2n slotB) * 2 ^ 36 + 4096
  (s.flash.filter fun e => base ≤ e.1 && e.1 < base + 4096).map fun e => (e.1 - base, e.2)

def ramCrc (m : SMap Byte) : Nat := crc16 0xFFFF ((List.range 4096).map fun k => SMap.get m k 0)

/-- Loading begins: 2,048 load frames and the load check; outputs are de-energised, the island's microcode does not run. -/
def State.fioLoad (s : State) (i : Nat) (slotB : Bool) : State :=
  let m := s.islandRam slotB
  let s := (s.set (FIO_state i) 1).count (FIO_LINK_16 i)
  let s := (s.setB (FIO_MC_0 i) slotB).set (FIO_MC_16 i) (ramCrc m)
  let s := s.updIl i fun q =>
    { q with seq := (q.seq + 2048) % 256, alive := false, halt := false, applied := 0, held := none, tripped := false, ram := m, frozen := [],
             stageSent := false, expect := none, slots := none, unechoed := [] }
  (s.dlSend i 0x40 0xF0 0 (ramCrc m) false)

/-- Running after a load: the island works from the page's settings (log entry 25). -/
def State.fioRun (s : State) (i : Nat) : State :=
  let s := (s.set (FIO_state i) 2).set (FIO_LINK_0 i) 0
  s.updIl i fun q =>
    { q with alive := true, first := true, sampled := false, filt := none, blank := [], dis := [], agr := [],
             chans := if 8 ≤ i then q.chans else
               (List.range 8).foldl (fun m n => SMap.put m n IChan.init
                 { SMap.get q.chans n IChan.init with lim := s.get (FIO_IN_CFG_0 i n), brk := s.get (FIO_IN_CFG_8 i n), wb := s.flag (FIO_IN_CFG_16 i n) }) q.chans
             slew := if 8 ≤ i then (List.range 8).foldl (fun m n => SMap.put m n 10 (s.get (FIO_OUT_CFG_24 i n))) q.slew else q.slew }

/-- Into failed (reasons 0, 1) or halted (2). -/
def State.fioDown (s : State) (i st reason : Nat) : State :=
  (((s.set (FIO_state i) st).fioRaise i 2).fioRecord i 0x5204 5 reason)

/-- Off. The island's outputs fall by its monostable (R358). -/
def State.fioOff (s : State) (i : Nat) : State :=
  (s.set (FIO_state i) 0).updIl i fun q => { q with alive := false, frozen := [], stageSent := false, expect := none, held := none, slots := none, unechoed := [] }

/-- FIO_CMD bits, in the order stop, start, reload, clear fault. -/
def State.fioCmd (s : State) (i v : Nat) : State :=
  let s := if bitOf v 1 then (s.fioOff i).set (FIO_CMD_STAT_0 i) 0 else s
  let s := if bitOf v 0 then
      if s.get (FIO_state i) = 0 then (s.fioLoad i (bitOf v 4)).set (FIO_CMD_STAT_0 i) 0 else s.set (FIO_CMD_STAT_0 i) 1
    else s
  let s := if bitOf v 2 then
      if s.get (FIO_state i) = 4 ∨ s.get (FIO_state i) = 5 then (s.fioLoad i (bitOf v 4)).set (FIO_CMD_STAT_0 i) 0 else s.set (FIO_CMD_STAT_0 i) 1
    else s
  if bitOf v 3 then
    let s := s.set (FIO_CMD_STAT_0 i) 0
    if s.islOn i then
      let n := (s.il i).seq
      let s := s.dlSend i 0x40 0x20 0 0 false
      if (s.il i).linked then s.updIl i fun q => { q with good := n, fault := q.fault && q.cause } else s
    else s
  else s

def execFioStart (a : Acc) (i : Fin 12) (slotB : Bool) (s : State) : Out :=
  .next (s.writeAt a (0x52 + i.val) 0x040 fun s => s.fioCmd i.val (1 + 16 * b2n slotB))
def execFioStop (a : Acc) (i : Fin 12) (s : State) : Out := .next (s.writeAt a (0x52 + i.val) 0x040 fun s => s.fioCmd i.val 2)
def execFioReload (a : Acc) (i : Fin 12) (slotB : Bool) (s : State) : Out :=
  .next (s.writeAt a (0x52 + i.val) 0x040 fun s => s.fioCmd i.val (4 + 16 * b2n slotB))
def execFioClearFault (a : Acc) (i : Fin 12) (s : State) : Out := .next (s.writeAt a (0x52 + i.val) 0x040 fun s => s.fioCmd i.val 8)

/-- R344. -/
def execFioLoadTimeout (i : Fin 12) (s : State) : Out :=
  .next (if s.islandPresent i.val ∧ s.get (FIO_state i.val) = 1 then s.fioDown i.val 5 1 else s)

/-! ## Configuration items (R360, R347, R353) -/

/-- FIO_IN_CFG[n] of an input island: sent as a config item. -/
def State.fioInCfg (s : State) (i n v : Nat) : State :=
  let lim := max 1 (v % 256)
  let brk := max 1 (bitsOf v 8 8)
  let wb := bitOf v 16
  let s := ((s.set (FIO_IN_CFG_0 i n) lim).set (FIO_IN_CFG_8 i n) brk).setB (FIO_IN_CFG_16 i n) wb
  if s.islOn i then
    let k := (s.il i).seq
    let s := s.dlSend i 0x40 n (b2n wb) (brk * 256 + lim) false
    if (s.il i).linked then
      s.updIl i fun q =>
        let c := q.chan n
        { q with good := k }.setChan n { c with lim := lim, brk := brk, wb := wb, cc := min c.cc lim, cb := min c.cb brk }
    else s
  else s

/-- FIO_OUT_CFG[n] of an output island: the slew is sent as a config item; the binding is read at the next guard start. -/
def State.fioOutCfg (s : State) (i n v : Nat) : State :=
  let slew := clampR 2 20 (bitsOf v 24 5)
  let s := ((s.set (FIO_OUT_CFG_0 i n) v).set (FIO_OUT_CFG_16 i n) (bitsOf v 16 5)).setB (FIO_OUT_CFG_21 i n) (bitOf v 21)
  let s := ((s.setB (FIO_OUT_CFG_22 i n) (bitOf v 22)).setB (FIO_OUT_CFG_23 i n) (bitOf v 23)).set (FIO_OUT_CFG_24 i n) slew
  if s.islOn i then
    let k := (s.il i).seq
    let s := s.dlSend i 0x40 (16 + n) 0 slew false
    if (s.il i).linked then s.updIl i fun q => { q with good := k, slew := SMap.put q.slew n 10 slew } else s
  else s

def execFioInCfgWrite (a : Acc) (i : Fin 12) (n : Fin 8) (v : Nat) (s : State) : Out :=
  .next (s.writeAt a (0x52 + i.val) (0x100 + 4 * n.val) fun s => if i.val < 8 then s.fioInCfg i.val n.val v else s)
def execFioOutCfgWrite (a : Acc) (i : Fin 12) (n : Fin 8) (v : Nat) (s : State) : Out :=
  .next (s.writeAt a (0x52 + i.val) (0x100 + 4 * n.val) fun s => if 8 ≤ i.val then s.fioOutCfg i.val n.val v else s)

/-! ## Refresh slots (R342, R345) -/

/-- The slot's pulse flag (R345): on the train-time grid at first and after a realignment, else every 40 slots. -/
def State.pulseDue (s : State) (i : Nat) : Bool :=
  let q := s.il i
  let grid := decide (((s.now : Int) - s.get (FIO_PULSE_0 i) * 125000) % 1000000 < 25000)
  match q.slots with
  | none => grid
  | some k => if q.resync then decide (60 ≤ k + 1) || (decide (20 ≤ k + 1) && grid) else k + 1 = 40

/-- R342: a refresh frame, or a de-energise frame to an output island while the module is passive. `seen`: pulse currents of an input island (µA),
output voltages of an output island (percent of the field supply); `got`: the link delivers frames; `mv`: the field supply. -/
def State.refreshSlot (s : State) (i : Nat) (got : Bool) (seen : List Nat) (mv : Nat) : State :=
  if !s.islOn i then s else
  let s := s.updIl i fun q => { q with linked := got, blank := q.blank.filterMap fun e => if e.2 ≤ 1 then none else some (e.1, e.2 - 1) }
  if 8 ≤ i then
    let s := if got then s.updIl i fun q => { q with supply := decide (mv < 12000 ∨ 170000 < mv) } else s
    if s.passive then s.deEnergise i seen else s.dlAsk i 0x10 0 0 seen id
  else
    let pulse := s.pulseDue i
    let s := s.updIl i fun q => { q with slots := if pulse then some 0 else q.slots.map (· + 1), resync := q.resync && !pulse }
    let sample := (s.il i).slots = some 7
    s.dlAsk i (0x10 + 8 * b2n pulse + 4 * b2n (decide sample)) 0 0 [] fun q => if sample ∧ q.halt = false then q.sample seen else q

def execFioRefreshSlot (i : Fin 12) (got : Bool) (seen : List Nat) (mv : Nat) (s : State) : Out := .next (s.refreshSlot i.val got seen mv)

/-! ## Uplink frames (R341, R343, R348, R354) -/

/-- R343. -/
def State.fioStale (s : State) (i : Nat) : State :=
  let s := ((s.set (FIO_state i) 3).count (FIO_STALE_CNT_0 i)).fioRaise i 1
  let s := s.fioRecord i 0x5201 5 0xFF
  if 8 ≤ i then s else
  s.each (List.range 8) fun s n => if s.flag (FIO_IN_BIND_31 i n) then s.markStale (s.get (FIO_IN_BIND_0 i n)) else s

/-- A missing or bad uplink frame. -/
def State.fioMiss (s : State) (i : Nat) (bad : Bool) : State :=
  if !s.islOn i then s else
  let s := (s.count (FIO_err_count i)).count (if bad then FIO_BAD_0 i else FIO_MISS_0 i)
  let s := s.count (FIO_LINK_0 i)
  if s.get (FIO_state i) = 2 ∧ 3 ≤ s.get (FIO_LINK_0 i) then s.fioStale i else s

def execFioUplinkTimeout (i : Fin 12) (bad : Bool) (s : State) : Out := .next (s.fioMiss i.val bad)

/-- R348: one channel's filtered state to its variable. -/
def State.fioInWrite (s : State) (i n st : Nat) : State :=
  if !s.flag (FIO_IN_BIND_31 i n) then s else
  match s.var (s.get (FIO_IN_BIND_0 i n)) with
  | some d =>
    let id := 0x2000 + 8 * i + n
    if d.kind = 1 ∧ d.size = 4 then s.imgWrite id d.v s.now none (leBytes 4 st) else s.rejectWrite d id
  | none => s

/-- Bytes 2 to 5 of an input island's frame. -/
def State.fioInputs (s : State) (i filt raw : Nat) : State :=
  let s := (s.set (FIO_IN_STATE_0 i) filt).set (FIO_IN_RAW_0 i) raw
  if !(s.il i).sampled then s else
  let chg := match (s.il i).filt with
    | some o => pack1 fun n => bitsOf o (2 * n) 2 != bitsOf filt (2 * n) 2
    | none => 0
  let s := s.updIl i fun q => { q with filt := some filt }
  let s := if chg ≠ 0 then (s.set (FIO_IN_CHG_0 i) (s.get (FIO_IN_CHG_0 i) ||| chg)).fioRaise i 5 else s
  if s.passive then s else s.each (List.range 8) fun s n => s.fioInWrite i n (bitsOf filt (2 * n) 2)

/-- The mismatch flag a channel's read-back calls for (R354): 0 no_output, 1 ext_drive, 2 indeterminate. -/
def rbFlag (applied : Bool) (rb : Nat) : Option Nat :=
  if applied ∧ rb = 0 then some 0 else if !applied ∧ rb = 1 then some 1 else if 2 ≤ rb then some 2 else none

def rbField (i f : Nat) : Fld := if f = 0 then FIO_RB_MIS_0 i else if f = 1 then FIO_RB_MIS_8 i else FIO_RB_MIS_16 i

/-- Setting a flag: latched, raised, recorded. -/
def State.rbSet (s : State) (i n f : Nat) : State :=
  if bitOf (s.get (rbField i f)) n then s else
  let s := s.set (rbField i f) (setBit (s.get (rbField i f)) n)
  let s := (s.set (FIO_RB_LATCH_0 i) (setBit (s.get (FIO_RB_LATCH_0 i)) (8 * f + n))).fioRaise i 3
  s.once (0x5205 * 65536 + 8 * i + n) ticksPerSec fun s => s.fioRecord i 0x5205 4 (2 ^ n)

/-- R354, R355: one channel's read-back. -/
def State.rbCheck (s : State) (i n : Nat) (applied : Bool) (rb : Nat) : State :=
  let s := s.set (FIO_PARTNER_0 i) (clrBit (s.get (FIO_PARTNER_0 i)) n)
  let partner := s.flag (FIO_OUT_CFG_22 i n) && !s.inCharge && rb == 1
  let s := if partner then s.set (FIO_PARTNER_0 i) (setBit (s.get (FIO_PARTNER_0 i)) n) else s
  if SMap.get (s.il i).blank n 0 ≠ 0 then s else
  let cnt := s.get (FIO_RB_CFG_8 i)
  match if partner && !applied then none else rbFlag applied rb with
  | some f =>
    let old := SMap.get (s.il i).dis n 0
    let k := if old / 256 = f then min (old % 256 + 1) 255 else 1
    let s := s.updIl i fun q => { q with dis := SMap.put q.dis n 0 (f * 256 + k), agr := SMap.erase q.agr n }
    if cnt ≤ k then s.rbSet i n f else s
  | none =>
    let k := min (SMap.get (s.il i).agr n 0 + 1) 255
    let s := s.updIl i fun q => { q with dis := SMap.erase q.dis n, agr := SMap.put q.agr n 0 k }
    if cnt ≤ k then s.each [0, 1, 2] fun s f => s.set (rbField i f) (clrBit (s.get (rbField i f)) n) else s

/-- Bytes 2 to 5 of an output island's frame; a stage missed shows in the stage number it reports (R351). -/
def State.fioOutputs (s : State) (i rb applied num echo : Nat) : State :=
  let s := ((s.set (FIO_OUT_STATE_0 i) applied).set (FIO_OUT_STATE_16 i) num).set (FIO_RB_0 i) rb
  let s := match (s.il i).expect with
    | some (e, k) =>
      if (echo + 256 - k) % 256 < 128 then
        let s := s.updIl i fun q => { q with expect := none }
        if num ≠ e then
          ((s.count (FIO_STAGE_MISS_0 i)).fioRaise i 4).once (0x5206 * 65536 + i) ticksPerSec fun s => s.fioRecord i 0x5206 3 0xFF
        else s
      else s
    | none => s
  s.each (List.range 8) fun s n => s.rbCheck i n (bitOf applied n) (bitsOf rb (2 * n) 2)

/-- A good uplink frame of a running, stale or halted island. -/
def State.fioGood (s : State) (i : Nat) (b : List Byte) : State :=
  let b0 := beAt b 0 1
  let echo := beAt b 1 1
  let before := (s.il i).unechoed.takeWhile (· ≠ echo)
  let found := (s.il i).unechoed.contains echo
  let s := (s.set (FIO_LINK_0 i) 0).set (FIO_LINK_8 i) echo
  let s := if found then (s.addSat (FIO_DLLOST_0 i) before.length).updIl i fun q => { q with unechoed := q.unechoed.drop (before.length + 1) } else s
  let rise := bitOf b0 3 && !s.flag (FIO_fault i)
  let s := s.setB (FIO_fault i) (bitOf b0 3)
  let s := if rise then (s.fioRaise i 0).once (0x5203 * 65536 + i) ticksPerSec fun s => s.fioRecord i 0x5203 4 0xFF else s
  let st := s.get (FIO_state i)
  if bitOf b0 2 ∧ st ≠ 4 then s.fioDown i 4 2
  else if st = 4 then s
  else
    let s := if st = 3 then (s.set (FIO_state i) 2).fioRecord i 0x5202 3 0xFF else s
    if 8 ≤ i then s.fioOutputs i (beAt b 2 2) (beAt b 4 1) (beAt b 5 1) echo else s.fioInputs i (beAt b 2 2) (beAt b 4 2)

/-- The frame is whole, its CRC good, and its type that of the island. -/
def uplinkGood (i : Nat) (b : List Byte) (type : Nat) : Bool :=
  decide (b.length = 8) && beAt b 6 2 == crc16 0xFFFF (b.take 6) && beAt b 0 1 / 16 == type && (type == 10 || (type == 9) == decide (8 ≤ i))

/-- R341: an uplink frame as received; one that is not good counts as bad. -/
def State.uplink (s : State) (i : Nat) (b : List Byte) : State :=
  if s.islandPresent i ∧ s.get (FIO_state i) = 1 then
    if uplinkGood i b 10 then
      if beAt b 2 1 = 1 then s.fioRun i else s.fioDown i 5 0
    else s
  else if !s.islOn i then s
  else if uplinkGood i b (if 8 ≤ i then 9 else 8) then s.fioGood i b
  else s.fioMiss i true

def execFioUplinkReceived (i : Fin 12) (b : List Byte) (s : State) : Out := .next (s.uplink i.val b)

/-! ## What happens in an island (01 R19; R344, R353) -/

/-- R19. -/
def execIslandMonostableExpiry (i : Fin 12) (s : State) : Out :=
  .next (if s.islandPresent i.val then s.updIl i.val fun q => { q with tripped := true } else s)

/-- R344: the microcode stops, the outputs fall, halt and fault are reported. -/
def execIslandParityError (i : Fin 12) (s : State) : Out :=
  .next (if s.islandPresent i.val ∧ (s.il i.val).alive then s.updIl i.val fun q => ({ q with halt := true }).judge else s)

/-- R353: switch n turns off and latches off. -/
def execOutputCurrentLimitExpiry (i : Fin 12) (n : Fin 8) (s : State) : Out :=
  .next (if 8 ≤ i.val ∧ bitOf (s.il i.val).drive n.val then s.updIl i.val fun q => ({ q with latched := setBit q.latched n.val }).judge else s)

/-- R353: every switch of the island. -/
def execIslandOvercurrentTrip (i : Fin 12) (s : State) : Out :=
  .next (if 8 ≤ i.val ∧ (s.il i.val).drive ≠ 0 then s.updIl i.val fun q => ({ q with latched := 0xFF }).judge else s)

/-! ## Staging and commit (R350 to R352) -/

/-- The variable a channel is bound to. -/
def State.outVar (s : State) (i n : Nat) : Option Desc :=
  if s.flag (FIO_OUT_CFG_21 i n) then (s.var (s.get (FIO_OUT_CFG_0 i n))).filter fun d => d.kind = 0 else none

/-- What the hallmark edge will commit of a variable: its value and whether that is stale. -/
def State.aboutToCommit (s : State) (d : Desc) : List Byte × Bool :=
  if SMap.find? s.img.stage d.v = none ∨ (s.get MIRROR_state = 3 ∧ (d.mirror ∨ d.retain)) then (s.committed d, s.varState d = 2)
  else (s.staged d, false)

/-- A channel's staged state from a value (R350). -/
def State.chanState (s : State) (i n : Nat) (v : List Byte × Bool) : Bool :=
  bitOf (leNat (v.1.take 4)) (s.get (FIO_OUT_CFG_16 i n)) && !(s.flag (FIO_OUT_CFG_23 i n) && v.2) && !(s.flag (FIO_OUT_CFG_22 i n) && !s.inCharge)

/-- The stage frame of an island: all eight staged states and a new stage number (R351). -/
def State.stageSend (s : State) (i states : Nat) : State :=
  let num := ((s.il i).num + 1) % 256
  let s := (s.set (FIO_OUT_STATE_8 i) states).updIl i fun q => { q with num := num, stageSent := true }
  s.dlAsk i 0x20 states num [] fun q => { q with held := some (states, num) }

/-- States frozen so far; a channel whose class has not ended keeps the applied state last reported. -/
def State.stageStates (s : State) (i : Nat) : Nat :=
  pack1 fun n => if (s.outVar i n).isNone then false else SMap.get (s.il i).frozen n (bitOf (s.get (FIO_OUT_STATE_0 i)) n)

/-- R350, R351: guard start of class j; `commits`: it did not overrun. -/
def State.fioStage (s : State) (j : Nat) (commits : Bool) : State :=
  s.each outIslands fun s i =>
    let mine := (List.range 8).filterMap fun n => (s.outVar i n).bind fun d => if d.cls = j then some (n, d) else none
    if mine.isEmpty ∨ ¬(s.islOn i ∧ s.get (FIO_state i) ≠ 4) then s
    else if s.passive then s.deEnergise i []
    else
      let s := if commits then
          s.updIl i fun q => { q with frozen := mine.foldl (fun m x => SMap.insert (SMap.erase m x.1) x.1 (s.chanState i x.1 (s.aboutToCommit x.2))) q.frozen }
        else s
      s.stageSend i (s.stageStates i)

/-- The commit symbol (R351): the island applies the stage it holds; a latched switch staged 0 is released (R353). -/
def State.commitSymbol (s : State) (i : Nat) : State :=
  let q := s.il i
  if !q.stageSent ∨ !s.islOn i ∨ s.passive then s else
  let staged := s.get (FIO_OUT_STATE_8 i)
  let old := s.get (FIO_OUT_STATE_0 i)
  let s := s.updIl i fun q =>
    { q with stageSent := false, frozen := [], expect := some (q.num, q.seq),
             blank := (List.range 8).foldl (fun m n => if bitOf staged n = bitOf old n then m else SMap.put m n 0 (s.get (FIO_RB_CFG_0 i))) q.blank }
  if q.linked ∧ q.alive ∧ !q.halt then
    match q.held with
    | some (st, n) => s.updIl i fun q => { q with applied := st, snum := n, held := none, latched := q.latched &&& st, tripped := false }
    | none => s
  else s

/-- At the hallmark edge, every output island that was sent a stage. -/
def State.fioCommit (s : State) : State := s.each outIslands fun s i => s.commitSymbol i

/-- R352: a stage of the committed values, followed by a commit symbol, to each running output island. -/
def State.fioStartCommit (s : State) : State :=
  s.each outIslands fun s i =>
    if s.islOn i ∧ s.get (FIO_state i) = 2 ∧ s.passive = false then
      let st := pack1 fun n => match s.outVar i n with
        | some d => s.chanState i n (s.committed d, s.varState d = 2)
        | none => false
      (s.stageSend i st).commitSymbol i
    else s

/-- Entry into STABLE and a cold start: every island off, its outputs off. -/
def State.fioAllOff (s : State) : State :=
  s.each (List.range 12) fun s i => if s.islandPresent i then (s.fioOff i).updIl i fun q => { q with applied := 0, dead := false, linked := true, halt := false } else s

end Sys2Proof.Machine
end

