-- ==== Sys2Proof/Machine/Crypto.lean ====
section
/-! DEFINITION. The Locksmith's cryptography (21 R506 to R512): SHA-384, HMAC-SHA-384 and ECDSA over curve P-384, with the constants of the standards
the spec names (FIPS 180-4, FIPS 198-1, SEC 1; PRESUMED, log entry 30). -/

namespace Sys2Proof.Machine

/-! ## SHA-384 -/

def shaK0 : List Nat :=
  [0x428A2F98D728AE22, 0x7137449123EF65CD, 0xB5C0FBCFEC4D3B2F, 0xE9B5DBA58189DBBC,
   0x3956C25BF348B538, 0x59F111F1B605D019, 0x923F82A4AF194F9B, 0xAB1C5ED5DA6D8118,
   0xD807AA98A3030242, 0x12835B0145706FBE, 0x243185BE4EE4B28C, 0x550C7DC3D5FFB4E2,
   0x72BE5D74F27B896F, 0x80DEB1FE3B1696B1, 0x9BDC06A725C71235, 0xC19BF174CF692694,
   0xE49B69C19EF14AD2, 0xEFBE4786384F25E3, 0x0FC19DC68B8CD5B5, 0x240CA1CC77AC9C65]

def shaK1 : List Nat :=
  [0x2DE92C6F592B0275, 0x4A7484AA6EA6E483, 0x5CB0A9DCBD41FBD4, 0x76F988DA831153B5,
   0x983E5152EE66DFAB, 0xA831C66D2DB43210, 0xB00327C898FB213F, 0xBF597FC7BEEF0EE4,
   0xC6E00BF33DA88FC2, 0xD5A79147930AA725, 0x06CA6351E003826F, 0x142929670A0E6E70,
   0x27B70A8546D22FFC, 0x2E1B21385C26C926, 0x4D2C6DFC5AC42AED, 0x53380D139D95B3DF,
   0x650A73548BAF63DE, 0x766A0ABB3C77B2A8, 0x81C2C92E47EDAEE6, 0x92722C851482353B]

def shaK2 : List Nat :=
  [0xA2BFE8A14CF10364, 0xA81A664BBC423001, 0xC24B8B70D0F89791, 0xC76C51A30654BE30,
   0xD192E819D6EF5218, 0xD69906245565A910, 0xF40E35855771202A, 0x106AA07032BBD1B8,
   0x19A4C116B8D2D0C8, 0x1E376C085141AB53, 0x2748774CDF8EEB99, 0x34B0BCB5E19B48A8,
   0x391C0CB3C5C95A63, 0x4ED8AA4AE3418ACB, 0x5B9CCA4F7763E373, 0x682E6FF3D6B2B8A3,
   0x748F82EE5DEFB2FC, 0x78A5636F43172F60, 0x84C87814A1F0AB72, 0x8CC702081A6439EC]

def shaK3 : List Nat :=
  [0x90BEFFFA23631E28, 0xA4506CEBDE82BDE9, 0xBEF9A3F7B2C67915, 0xC67178F2E372532B,
   0xCA273ECEEA26619C, 0xD186B8C721C0C207, 0xEADA7DD6CDE0EB1E, 0xF57D4F7FEE6ED178,
   0x06F067AA72176FBA, 0x0A637DC5A2C898A6, 0x113F9804BEF90DAE, 0x1B710B35131C471B,
   0x28DB77F523047D84, 0x32CAAB7B40C72493, 0x3C9EBE0A15C9BEBC, 0x431D67C49C100D4C,
   0x4CC5D4BECB3E42B6, 0x597F299CFC657E2A, 0x5FCB6FAB3AD6FAEC, 0x6C44198C4A475817]

/-- Round constants. -/
def shaK : List Nat := shaK0 ++ shaK1 ++ shaK2 ++ shaK3

/-- Initial hash value of SHA-384. -/
def shaIv : List Nat :=
  [0xCBBB9D5DC1059ED8, 0x629A292A367CD507, 0x9159015A3070DD17, 0x152FECD8F70E5939,
   0x67332667FFC00B31, 0x8EB44A8768581511, 0xDB0C2E0D64F98FA7, 0x47B5481DBEFA4FA4]

def m64 (n : Nat) : Nat := n % 2 ^ 64
/-- Rotation right of a 64-bit word. -/
def rotr (n k : Nat) : Nat := n / 2 ^ k + n % 2 ^ k * 2 ^ (64 - k)
def bigS0 (x : Nat) : Nat := rotr x 28 ^^^ rotr x 34 ^^^ rotr x 39
def bigS1 (x : Nat) : Nat := rotr x 14 ^^^ rotr x 18 ^^^ rotr x 41
def smallS0 (x : Nat) : Nat := rotr x 1 ^^^ rotr x 8 ^^^ x / 2 ^ 7
def smallS1 (x : Nat) : Nat := rotr x 19 ^^^ rotr x 61 ^^^ x / 2 ^ 6

/-- The last 16 words of the message schedule, oldest first, moved on by one. -/
def shaNext (w : List Nat) : List Nat :=
  w.drop 1 ++ [m64 (smallS1 (w.getD 14 0) + w.getD 9 0 + smallS0 (w.getD 1 0) + w.getD 0 0)]

/-- A round. -/
def shaRound (h : List Nat) (k w : Nat) : List Nat :=
  let e := h.getD 4 0
  let a := h.getD 0 0
  let ch := (e &&& h.getD 5 0) ^^^ ((2 ^ 64 - 1 - e) &&& h.getD 6 0)
  let t1 := h.getD 7 0 + bigS1 e + ch + k + w
  let maj := (a &&& h.getD 1 0) ^^^ (a &&& h.getD 2 0) ^^^ (h.getD 1 0 &&& h.getD 2 0)
  [m64 (t1 + bigS0 a + maj), a, h.getD 1 0, h.getD 2 0, m64 (h.getD 3 0 + t1), e, h.getD 5 0, h.getD 6 0]

/-- A block of 128 bytes. -/
def shaBlock (h : List Nat) (b : List Byte) : List Nat :=
  let w := (List.range 16).map fun i => beAt b (8 * i) 8
  let r := shaK.foldl (fun (p : List Nat × List Nat) k => (shaRound p.1 k (p.2.getD 0 0), shaNext p.2)) (h, w)
  (h.zip r.1).map fun p => m64 (p.1 + p.2)

/-- Whole blocks of a message; a rest shorter than a block is left out. -/
def shaBlocks : Nat → List Nat → List Byte → List Nat
  | 0, h, _ => h
  | n + 1, h, b => shaBlocks n (shaBlock h (b.take 128)) (b.drop 128)

/-- The end of a message of `total` bytes whose whole blocks before `b` are in h: padding and length. -/
def shaEnd (h : List Nat) (b : List Byte) (total : Nat) : List Byte :=
  let z := (239 - b.length % 128) % 128
  let m := b ++ [0x80] ++ List.replicate z 0 ++ beBytes 16 (8 * total)
  ((shaBlocks (m.length / 128) h m).take 6).flatMap fun w => beBytes 8 w

/-- SHA-384. -/
def sha384 (b : List Byte) : List Byte := shaEnd shaIv b b.length

def xorPad (k : List Byte) (x : Byte) : List Byte := (k ++ List.replicate (128 - k.length) 0).map fun b => b ^^^ x

/-- HMAC-SHA-384 under a key of 48 bytes. -/
def hmac384 (k m : List Byte) : List Byte := sha384 (xorPad k 0x5C ++ sha384 (xorPad k 0x36 ++ m))

/-! ## P-384 -/

/-- Field prime. -/
def ecP : Nat := 0xFFFFFFFFFFFFFFFFFFFFFFFFFFFFFFFFFFFFFFFFFFFFFFFFFFFFFFFFFFFFFFFEFFFFFFFF0000000000000000FFFFFFFF
/-- Order of the base point. -/
def ecN : Nat := 0xFFFFFFFFFFFFFFFFFFFFFFFFFFFFFFFFFFFFFFFFFFFFFFFFC7634D81F4372DDF581A0DB248B0A77AECEC196ACCC52973
/-- Coefficient b (a is -3). -/
def ecB : Nat := 0xB3312FA7E23EE7E4988E056BE3F82D19181D9C6EFE8141120314088F5013875AC656398D8A2ED19D2A85C8EDD3EC2AEF
/-- Base point. -/
def ecGx : Nat := 0xAA87CA22BE8B05378EB1C71EF320AD746E1D3B628BA79B9859F741E082542A385502F25DBF55296C3A545E3872760AB7
/-- Base point. -/
def ecGy : Nat := 0x3617DE4A96262C6F5D9E98BF9292DC29F8F41DBD289A147CE9DA3113B5F0B8C00A60B1CE1D7E819D7A431D7C90EA0E5F

/-- b ^ e modulo m, over the low n bits of e. -/
def powMod (m : Nat) : Nat → Nat → Nat → Nat
  | 0, _, _ => 1
  | n + 1, b, e =>
    let r := powMod m n (b * b % m) (e / 2)
    if e % 2 = 1 then r * b % m else r

/-- Inverse modulo a prime of 384 bits. -/
def invMod (m a : Nat) : Nat := powMod m 384 (a % m) (m - 2)

/-- A point in Jacobian coordinates; z = 0 is the point at infinity. -/
abbrev JPt := Nat × Nat × Nat

def subP (a b : Nat) : Nat := (a + ecP - b % ecP) % ecP

def ecDbl (q : JPt) : JPt :=
  let (x, y, z) := q
  let d := z * z % ecP
  let g := y * y % ecP
  let bt := x * g % ecP
  let a := 3 * (subP x d * ((x + d) % ecP)) % ecP
  let x3 := subP (a * a % ecP) (8 * bt)
  (x3, subP (a * subP (4 * bt) x3 % ecP) (8 * (g * g % ecP)), 2 * y * z % ecP)

def ecAdd (q r : JPt) : JPt :=
  let (x1, y1, z1) := q
  let (x2, y2, z2) := r
  if z1 = 0 then r else if z2 = 0 then q else
  let z11 := z1 * z1 % ecP
  let z22 := z2 * z2 % ecP
  let u1 := x1 * z22 % ecP
  let u2 := x2 * z11 % ecP
  let s1 := y1 * z2 * z22 % ecP
  let s2 := y2 * z1 * z11 % ecP
  if u1 = u2 then (if s1 = s2 then ecDbl q else (1, 1, 0)) else
  let h := subP u2 u1
  let hh := h * h % ecP
  let hhh := h * hh % ecP
  let t := subP s2 s1
  let v := u1 * hh % ecP
  let x3 := subP (subP (t * t % ecP) hhh) (2 * v)
  (x3, subP (t * subP v x3 % ecP) (s1 * hhh % ecP), z1 * z2 * h % ecP)

/-- k times a point, over the low n bits of k. -/
def ecMul : Nat → Nat → JPt → JPt
  | 0, _, _ => (1, 1, 0)
  | n + 1, k, q =>
    let r := ecMul n (k / 2) (ecDbl q)
    if k % 2 = 1 then ecAdd r q else r

/-- Affine coordinates. -/
def ecAff (q : JPt) : Nat × Nat :=
  let i := invMod ecP q.2.2
  let i2 := i * i % ecP
  (q.1 * i2 % ecP, q.2.1 * (i2 * i % ecP) % ecP)

def ecG : JPt := (ecGx, ecGy, 1)

/-- A public key in the uncompressed form of SEC 1, 97 bytes. -/
def pubOf (d : Nat) : List Byte :=
  let q := ecAff (ecMul 384 d ecG)
  4 :: (beBytes 48 q.1 ++ beBytes 48 q.2)

/-- ECDSA verification of a digest: public key of 97 bytes, signature r and s of 48 bytes each. -/
def ecVerify (pub digest sig : List Byte) : Bool :=
  let x := beAt pub 1 48
  let y := beAt pub 49 48
  let r := beAt sig 0 48
  let v := beAt sig 48 48
  if pub.head? ≠ some 4 ∨ pub.length ≠ 97 ∨ ecP ≤ x ∨ ecP ≤ y ∨ y * y % ecP ≠ (x * x * x + (ecP - 3) * x + ecB) % ecP ∨
     r = 0 ∨ ecN ≤ r ∨ v = 0 ∨ ecN ≤ v then false else
  let w := invMod ecN v
  let q := ecAdd (ecMul 384 (beNat digest * w % ecN) ecG) (ecMul 384 (r * w % ecN) (x, y, 1))
  q.2.2 ≠ 0 && (ecAff q).1 % ecN == r

/-- ECDSA signature of a digest under private key d with the secret number k: r and s. -/
def ecSign (d k : Nat) (digest : List Byte) : List Byte :=
  let r := (ecAff (ecMul 384 k ecG)).1 % ecN
  beBytes 48 r ++ beBytes 48 (invMod ecN k * (beNat digest + r * d) % ecN)

end Sys2Proof.Machine
end

