-- ==== Sys2Proof/Machine/Speed.lean ====
section
/-! DEFINITION. The speed unit (14): quadrature and periods as pure functions of a channel (the Millwright's channels are measured by the same ones, 15
R386), channel states, consolidation, odometers, the speed section. -/

namespace Sys2Proof.Machine

/-! ## One channel -/

/-- What a channel is measured by: direction inverted, ss_to, shortest period and one second in counts of the period clock, the numerator of f. -/
structure SpdPar where
  inv : Bool
  ssTo : Nat
  minT : Nat
  perSec : Nat
  num : Nat

/-- What an edge brought. -/
structure SpdEv where
  reversal : Bool
  qerr : Bool
  ovr : Bool
  valid : Bool
  fail : Nat

def SpdEv.none : SpdEv := { reversal := false, qerr := false, ovr := false, valid := false, fail := 0 }

/-- Position of the track states in the forward sequence (R366). -/
def quadPos (a b : Bool) : Nat := if a then (if b then 2 else 1) else (if b then 3 else 0)

/-- A rising edge at stamp t closes the period open on its track, if any (R367). -/
def SpdChan.period (p : SpdPar) (c : SpdChan) (open_ : Option Nat) (t : Nat) : SpdChan × SpdEv :=
  match open_ with
  | none => (c, .none)
  | some t0 =>
    let T := t - t0
    if p.ssTo < T ∨ c.fresh then ({ c with fresh := false, overs := 0 }, .none)
    else if T < p.minT then ({ c with overs := c.overs + 1 }, { SpdEv.none with ovr := true, fail := if 3 ≤ c.overs + 1 then 5 else 0 })
    else ({ c with tLast := min T 0xFFFFFFF, tEnd := some t, dir := c.step, still := false, overs := 0, st := if c.st = 1 then 2 else c.st },
          { SpdEv.none with valid := true })

/-- The rising edges of a change of tracks to (a, b). -/
def SpdChan.rises (p : SpdPar) (c : SpdChan) (up1 up2 : Bool) (t : Nat) : SpdChan × SpdEv :=
  let r1 := if up1 then c.period p c.rise1 t else (c, .none)
  let r2 := if up2 then r1.1.period p r1.1.rise2 t else (r1.1, .none)
  ({ r2.1 with rise1 := if up1 then some t else r2.1.rise1, rise2 := if up2 then some t else r2.1.rise2 },
   { SpdEv.none with ovr := r1.2.ovr || r2.2.ovr, valid := r1.2.valid || r2.2.valid, fail := max r1.2.fail r2.2.fail })

/-- An edge with stamp t: the tracks change to (a, b) (R366, R367, R373). -/
def SpdChan.edge (p : SpdPar) (c : SpdChan) (a b : Bool) (t : Nat) : SpdChan × SpdEv :=
  let k := (quadPos a b + 4 - quadPos c.t1 c.t2) % 4
  let up1 := a && !c.t1
  let up2 := b && !c.t2
  let c := { c with t1 := a, t2 := b, last := some t }
  if k = 0 then (c, .none)
  else if k = 2 then
    let q := (t :: c.qerrs.filter fun e => decide (t < e + p.perSec)).take 3
    let r := { c with qerrs := q }.rises p up1 up2 t
    (r.1, { r.2 with qerr := true, fail := if q.length = 3 then 6 else r.2.fail })
  else
    let d := if (k == 1) != p.inv then 1 else 2
    let rev := decide (c.step ≠ 0 ∧ c.step ≠ d)
    let c := { c with step := d, odo := if d = 1 then c.odo + 1 else c.odo - 1 }
    let c := if rev then { c with rise1 := none, rise2 := none, tEnd := none } else c
    let r := c.rises p up1 up2 t
    (r.1, { r.2 with reversal := rev })

/-- A channel in init or valid fails (R370). -/
def SpdChan.failWith (c : SpdChan) (cause : Nat) : SpdChan := if c.st = 1 ∨ c.st = 2 then { c with st := 3, cause := cause } else c

/-- f in mHz at stamp t (R368). -/
def SpdChan.freq (p : SpdPar) (c : SpdChan) (t : Nat) : Nat :=
  match c.tEnd with
  | none => 0
  | some e => if c.still ∨ p.ssTo ≤ t - e then 0 else p.num / max c.tLast (min (t - e) 0xFFFFFFF)

/-- v in mm/s (R368, R370). -/
def SpdChan.speed (p : SpdPar) (c : SpdChan) (d01 n t : Nat) : Int :=
  if c.st = 3 then 0x7FFFFFFF
  else if c.st ≠ 2 then 0
  else
    let m := c.freq p t * 0x3243F6A89 * d01 / 2 ^ 32
    let v : Int := (m / (10000 * n) : Nat)
    if c.dir = 2 then -v else v

/-- Status word (R374). -/
def SpdChan.status (c : SpdChan) : Nat := c.st + 4 * b2n c.still + 8 * c.dir + 32 * c.cause + 256 * b2n c.gap

/-- The channel as it enters init: odometer, gap, tracks and faults stay. -/
def SpdChan.enterInit (c : SpdChan) : SpdChan :=
  { c with st := 1, cause := 0, still := true, dir := 0, step := 0, rise1 := none, rise2 := none, fresh := true, overs := 0, tLast := 0, tEnd := none, qerrs := [] }

/-- A consolidation (R372). -/
structure SpdCons where
  valid : Bool
  speed : Int
  still : Bool
  dir : Nat
  k : Nat
  spread : Nat
  mask : Nat
  mix : Bool

/-- Consolidation of the channels of cmask in state valid, each given by its v. -/
def consolidate (ch : Nat → SpdChan) (v : Nat → Int) (cmask minValid : Nat) : SpdCons :=
  let l := (bitList 8 cmask).filter fun n => (ch n).st = 2
  let mask := l.foldl setBit 0
  if l.length < max 1 minValid then { valid := false, speed := 0x7FFFFFFF, still := false, dir := 3, k := l.length, spread := 0, mask := mask, mix := false }
  else
    let best := l.foldl (fun (b : Int) n => if b.natAbs < (v n).natAbs then v n else b) (v (l.headD 0))
    let least := l.foldl (fun b n => min b (v n).natAbs) best.natAbs
    let moving := (l.filter fun n => v n ≠ 0).map fun n => (ch n).dir
    let dir := match moving with
      | [] => 0
      | d :: r => if r.all (· = d) then d else 3
    { valid := true, speed := best, still := l.all fun n => (ch n).still, dir := dir, k := l.length, spread := best.natAbs - least, mask := mask, mix := decide (dir = 3) }

/-! ## The speed unit -/

/-- Identity of the unit as producer (R362). -/
def speedIdent : Nat := 0xA000

/-- The period counter: counts of 10 ns (R364). -/
def State.perNow (s : State) : Nat := s.counter / 5

def State.sp (s : State) (n : Nat) : SpdChan := SMap.get s.spd n SpdChan.init
def State.updSp (s : State) (n : Nat) (f : SpdChan → SpdChan) : State := { s with spd := SMap.put s.spd n SpdChan.init (f (s.sp n)) }

/-- Channel n is present (R362). -/
def State.spdPresent (s : State) (n : Nat) : Bool := decide (n < s.byVar 8 4 0)

def State.spdPar (s : State) (n : Nat) : SpdPar :=
  { inv := s.flag (SPD_C_CFG_2 n), ssTo := s.get (SPD_C_CFG_16 n) * 100000, minT := 3900, perSec := 100000000, num := 100000000000 }

/-- v of channel n now. -/
def State.spdV (s : State) (n : Nat) : Int := (s.sp n).speed (s.spdPar n) (s.get SPD_WHEEL_0) (s.get SPD_WHEEL_16) s.perNow
/-- f of channel n now. -/
def State.spdF (s : State) (n : Nat) : Nat := (s.sp n).freq (s.spdPar n) s.perNow

/-- Valid channels of cmask. -/
def State.spdMask (s : State) : Nat := ((bitList 8 (s.get SPD_CFG_0)).filter fun n => (s.sp n).st = 2).foldl setBit 0

/-- R379. -/
def State.spdRecord (s : State) (code sev n w1 : Nat) (v : Int) : State := s.record code sev [n, w1, unsint 32 v, s.spdMask]

/-- A channel fails (R370). -/
def State.spdFail (s : State) (n cause : Nat) : State :=
  if (s.sp n).st ≠ 1 ∧ (s.sp n).st ≠ 2 then s else
  let s := s.updSp n fun c => c.failWith cause
  let s := (s.count SPEED_fail_count).raiseInt 0x5E 0
  s.spdRecord (if cause = 4 then 0x5E01 else 0x5E02) 6 n cause (s.spdV n)

/-- Class of a level (R364): in 0.1 mA in current mode, in 0.1 V in voltage mode. -/
def trackClass (mode : Nat) (was : Bool) (lv : Nat) : Bool :=
  if mode = 1 then (if was then decide (100 ≤ lv) else decide (110 < lv)) else (if was then decide (60 ≤ lv) else decide (120 < lv))

/-- A level in a fault band. -/
def trackFault (mode lv : Nat) : Bool := if mode = 1 then decide (lv < 40 ∨ 200 < lv) else decide (300 < lv)

def State.spdLevels (s : State) (n l1 l2 : Nat) : State := (s.set (SPD_C_LEVEL_0 n) (min l1 1023)).set (SPD_C_LEVEL_16 n) (min l2 1023)

/-- R365: levels that have held for glitch, or (`held` false) a shorter change. -/
def State.trackEdge (s : State) (n l1 l2 : Nat) (held : Bool) : State :=
  let c := s.sp n
  if !s.spdPresent n ∨ c.st = 0 then s else
  let mode := s.get (SPD_C_CFG_0 n)
  let s := s.spdLevels n l1 l2
  if !held then s.count (SPD_C_EVT_0 n) else
  let r := c.edge (s.spdPar n) (trackClass mode c.t1 l1) (trackClass mode c.t2 l2) (s.perNow - s.get (SPD_C_CFG_4 n) * 10)
  let s := s.updSp n fun _ => { r.1 with f1 := r.1.f1 && trackFault mode l1, f2 := r.1.f2 && trackFault mode l2 }
  let s := if r.2.reversal then s.count (SPD_C_EVT_16 n) else s
  let s := if r.2.qerr || r.2.ovr then s.count (SPD_C_EVT_24 n) else s
  if r.2.fail ≠ 0 then s.spdFail n r.2.fail else s

def execTrackEdge (n : Fin 8) (l1 l2 : Nat) (held : Bool) (s : State) : Out := .next (s.trackEdge n.val l1 l2 held)

/-- R364: a track 100 µs at a level; in a fault band its channel fails, out of it the fault has ended. -/
def State.trackFaultAt (s : State) (n : Nat) (t2 : Bool) (lv : Nat) : State :=
  if !s.spdPresent n ∨ (s.sp n).st = 0 then s else
  let f := trackFault (s.get (SPD_C_CFG_0 n)) lv
  let s := if t2 then s.set (SPD_C_LEVEL_16 n) (min lv 1023) else s.set (SPD_C_LEVEL_0 n) (min lv 1023)
  let s := s.updSp n fun c => if t2 then { c with f2 := f } else { c with f1 := f }
  if f then s.spdFail n (if t2 then 2 else 1) else s

/-- R364: a sensor supply 1 ms at a voltage, or in current limit. -/
def execSensorSupplyFault (n : Fin 8) (mv : Nat) (limiting : Bool) (s : State) : Out :=
  .next (
    if !s.spdPresent n.val ∨ (s.sp n.val).st = 0 then s else
    let f := limiting || decide (mv < 20000) || decide (28000 < mv)
    let s := s.updSp n.val fun c => { c with fs := f }
    if f then s.spdFail n.val 3 else s)

/-- R368. -/
def execStandstillTimeout (n : Fin 8) (s : State) : Out :=
  .next (if s.spdPresent n.val ∧ (s.sp n.val).st ≠ 0 then s.updSp n.val fun c => { c with still := true } else s)

/-- R370: init ends without a period. -/
def SpdChan.initEnd (c : SpdChan) : SpdChan := if c.st = 1 ∧ !c.f1 ∧ !c.f2 ∧ !c.fs then { c with st := 2, still := true, tEnd := none } else c

/-- Another valid channel of cmask reports motion (R369). -/
def State.spdWitness (s : State) (n : Nat) : Bool :=
  (bitList 8 (s.get SPD_CFG_0)).any fun m => m ≠ n && decide ((s.sp m).st = 2) && decide (s.get SPD_PLAUS_0 ≤ (s.spdV m).natAbs)

/-! ## Consolidation (R372, R374) -/

def State.spdCons (s : State) : SpdCons := consolidate s.sp s.spdV (s.get SPD_CFG_0) (s.get SPD_CFG_8)

/-- Status word of the consolidated variable. -/
def State.consStatus (s : State) (r : SpdCons) : Nat :=
  b2n r.valid + 2 * b2n r.still + 4 * r.dir + 16 * r.k + 256 * b2n ((bitList 8 (s.get SPD_CFG_0)).any fun n => (s.sp n).gap)

/-- The module registers, with the events of R372. -/
def State.spdUpdate (s : State) (r : SpdCons) : State :=
  let was := bitOf (s.get SPD_CONS_STAT_0) 0
  let s := ((s.set SPD_CONS_V_0 (unsint 32 r.speed)).set SPD_CONS_STAT_0 (s.consStatus r)).set SPD_CONS_STAT_16 r.mask
  let s := s.set SPD_SPREAD_0 r.spread
  let s := if r.mix then (s.raiseInt 0x5E 3).recordSec 0 0x5E06 4 [0xFF, 0, unsint 32 r.speed, r.mask] else s
  if was ∧ !r.valid then (s.raiseInt 0x5E 1).record 0x5E03 7 [0xFF, r.k, unsint 32 r.speed, r.mask]
  else if !was ∧ r.valid then (s.raiseInt 0x5E 2).record 0x5E04 5 [0xFF, r.k, unsint 32 r.speed, r.mask]
  else s

/-- A channel variable (R374). -/
def State.spdChanBytes (s : State) (n : Nat) : List Byte :=
  leBytes 4 (unsint 32 (s.spdV n)) ++ leBytes 4 (s.sp n).status ++ leBytes 8 (unsint 64 (s.sp n).odo)

/-- R374: the evaluation instant. -/
def State.spdEval (s : State) : State :=
  let s := s.each (List.range 8) fun s n => s.updSp n fun c => if c.zero then { c with zero := false, odo := 0, gap := false } else c
  let r := s.spdCons
  let s := s.spdUpdate r
  if s.passive then s else
  let s := s.each (List.range 8) fun s n =>
    if s.flag (SPD_C_BIND_31 n) then s.imgWrite speedIdent (s.get (SPD_C_BIND_0 n)) s.now (some s.now) (s.spdChanBytes n) else s
  s.imgWrite speedIdent (s.get SPD_CFG_16) s.now (some s.now)
    (leBytes 4 (unsint 32 r.speed) ++ leBytes 4 (s.consStatus r) ++ leBytes 4 r.spread ++ leBytes 4 r.mask)

def execSpeedEvaluation (s : State) : Out := .next (if s.flag SPEED_loaded ∧ s.flag CYCLE_running then s.spdEval else s)

/-- R374: without the cycle unit the registers are updated, no variable is written. -/
def execSpeedRegisterUpdate (s : State) : Out :=
  .next (if s.flag SPEED_loaded ∧ s.flag CYCLE_running = false then s.spdUpdate s.spdCons else s)

/-! ## SPD_CMD (R371, R373) -/

/-- Why a readmit of channel n is refused, 0 not. -/
def State.readmitNo (s : State) (n : Nat) : Nat :=
  let c := s.sp n
  if !(bitOf (s.get SPD_CONS_STAT_0) 0 && bitOf (s.get SPD_CONS_STAT_0) 1) then 1
  else if c.f1 || c.f2 || c.fs then 2
  else match c.last with
    | some t => if s.perNow - t < (s.spdPar n).ssTo then 3 else 0
    | none => 0

/-- A channel returns to valid, reading 0 at standstill. -/
def State.readmit (s : State) (n : Nat) : State :=
  if (s.sp n).st ≠ 3 then s else
  let s := s.updSp n fun c => { c with st := 2, cause := 0, still := true, tEnd := none, rise1 := none, rise2 := none, overs := 0, qerrs := [] }
  (s.raiseInt 0x5E 4).spdRecord 0x5E05 4 n 0 (s.spdV n)

def State.spdCmd (s : State) (v : Nat) : State :=
  let l := (bitList 8 v).filter s.spdPresent
  let no := l.filter fun n => s.readmitNo n ≠ 0
  let why := match no with | n :: _ => s.readmitNo n | [] => 0
  let s := s.each (l.filter fun n => s.readmitNo n = 0) State.readmit
  let s := (s.set SPD_CMD_STAT_0 (no.foldl setBit 0)).set SPD_CMD_STAT_8 why
  s.each ((bitList 8 (v / 256)).filter s.spdPresent) fun s n => s.updSp n fun c => { c with zero := true }

def execSpeedReadmit (a : Acc) (mask : Nat) (s : State) : Out := .next (s.writeAt a 0x5E 0x05C fun s => s.spdCmd (mask % 256))
def execOdometerZero (a : Acc) (mask : Nat) (s : State) : Out := .next (s.writeAt a 0x5E 0x05C fun s => s.spdCmd (mask % 256 * 256))

/-! ## The speed section and the module's states (R363, R370, R373) -/

/-- A channel's parameters within their ranges. -/
def State.spdChanLegal (s : State) (n : Nat) (c : SpeedChanCfg) : Bool :=
  if c.mode = 0 then true else
  decide (c.mode ≤ 2) && s.spdPresent n && decide (2 ≤ c.glitch) && decide (c.glitch ≤ 50) && decide (10 ≤ c.ssTo) && decide (c.ssTo ≤ 2000) &&
  match s.var c.var with | some d => d.kind = 1 && d.size = 16 && d.owner = speedIdent | none => false

/-- R363: the section is legal. -/
def State.speedLegal (s : State) (c : SpeedCfg) : Bool :=
  let on := (c.chans.zipIdx.filter fun x => x.1.mode ≠ 0).map Prod.snd
  let l := bitList 8 c.cmask
  s.pagePresent 0x5E && decide (c.chans.length ≤ 8) && c.chans.zipIdx.all (fun x => s.spdChanLegal x.2 x.1) &&
  l.all (on.contains ·) && !l.isEmpty && decide (1 ≤ c.minValid) && decide (c.minValid ≤ l.length) &&
  decide (100 ≤ c.plausV) && decide (c.plausV ≤ 10000) && decide (100 ≤ c.plausT) && decide (c.plausT ≤ 10000) &&
  match s.var c.var with | some d => d.kind = 1 && d.size = 16 && d.owner = speedIdent | none => false

/-- The section accepted: parameters shown, channels with a mode enter init. -/
def State.speedLoad (s : State) (c : SpeedCfg) (d01 n : Nat) : State :=
  let s := (((s.set SPEED_loaded 1).set SPD_CFG_0 c.cmask).set SPD_CFG_8 c.minValid).set SPD_CFG_16 c.var
  let s := (((s.set SPD_PLAUS_0 c.plausV).set SPD_PLAUS_16 c.plausT).set SPD_WHEEL_0 d01).set SPD_WHEEL_16 n
  s.each c.chans.zipIdx fun s x =>
    if x.1.mode = 0 then s else
    let s := (((s.set (SPD_C_CFG_0 x.2) x.1.mode).setB (SPD_C_CFG_2 x.2) x.1.dirInv).set (SPD_C_CFG_4 x.2) x.1.glitch).set (SPD_C_CFG_16 x.2) x.1.ssTo
    let s := (s.set (SPD_C_BIND_0 x.2) x.1.var).set (SPD_C_BIND_31 x.2) 1
    s.updSp x.2 SpdChan.enterInit

/-- Every channel off; odometers stay (R370, R375). -/
def State.spdOff (s : State) : State :=
  s.each (List.range 8) fun s n => s.updSp n fun c => { SpdChan.init with odo := c.odo, gap := c.gap }

/-- R373: odometers and gap bits at a start: 0 cold, 1 warm from OFF, 2 wake; a warm restart leaves them. -/
def State.spdStart (s : State) (kind : Nat) : State :=
  if kind = 0 then s.setSpd []
  else s.each (List.range 8) fun s n => if s.spdPresent n then s.updSp n fun c => { c with gap := true } else s

/-- A read of SPD_C_ODO_LO latches the high word in the reader's copy (R378). -/
def State.odoLatch (s : State) (n c : Nat) : State := s.set (SPD_C_ODO_HI_0 n c) (unsint 64 (s.sp n).odo / 2 ^ 32)

end Sys2Proof.Machine
end

