-- ==== Sys2Proof/Machine/Millwright.lean ====
section
/-! DEFINITION. The Millwright (15 R380 to R392): ROM and profile, its own speed, position and limit sets, the permit of each output, the cross-check, its
frames. `wire` keeps the last hub frame at 80 and the last Millwright frame at 81. -/

namespace Sys2Proof.Machine


/-- Outputs and speed channels the Millwright has: 8, 4, none (15). -/
def State.mwOut (s : State) : Nat := s.byVar 8 4 0

/-! ## Parameter ROM (R383, R384) -/

/-- A big-endian field of the ROM. -/
def MwS.romAt (m : MwS) (off n : Nat) : Nat := beNat ((List.range n).map fun i => SMap.get m.rom (off + i) 0)

def MwS.romGood (m : MwS) : Bool :=
  m.romAt 0xFFC 4 == crc32c 0xFFFFFFFF ((List.range 0xFFC).map fun i => SMap.get m.rom i 0) ^^^ 0xFFFFFFFF

/-- A field of the profile that SW5 selects. -/
def MwS.prof (m : MwS) (off n : Nat) : Nat := m.romAt (0x100 + 0xE0 * bitsOf m.img 52 4 + off) n

/-- Wheel diameter in 0.1 mm, pulses per revolution. -/
def swWheel (img : Nat) : Nat := 6000 + bitsOf img 20 16
def swPulses (img : Nat) : Nat := bitsOf img 36 16

/-- Every switch field but the profile's use is legal (R396). -/
def swLegal (img : Nat) : Bool :=
  bitsOf img 1 3 == 0 && decide (1 ≤ bitsOf img 4 16) && decide (bitsOf img 4 16 ≤ 0xFFFE) && decide (bitsOf img 20 16 ≤ 7000) &&
  decide (1 ≤ swPulses img) && decide (swPulses img ≤ 1024) && bitsOf img 56 4 == 0

/-! ## Speed, standstill, position (R386, R387) -/

/-- Counts of 50 ns (R386). -/
def State.mwNow (s : State) : Nat := s.counter / 25

def MwS.chan (m : MwS) (n : Nat) : SpdChan := SMap.get m.ch n SpdChan.init

def MwS.par (m : MwS) (n : Nat) : SpdPar :=
  { inv := bitOf (m.prof 13 1) n, ssTo := m.prof 4 2 * 20000, minT := 780, perSec := 20000000, num := 20000000000 }

def MwS.v (m : MwS) (t n : Nat) : Int := (m.chan n).speed (m.par n) (swWheel m.img) (swPulses m.img) t

/-- The Millwright's consolidation at period count t. -/
def MwS.cons (m : MwS) (t : Nat) : SpdCons := consolidate m.chan (m.v t) (m.prof 2 1) (m.prof 3 1)

/-- Position in mm: the count of largest magnitude among the valid channels of cmask. -/
def MwS.position (m : MwS) : Int :=
  let l := (bitList 8 (m.prof 2 1)).filter fun n => (m.chan n).st = 2
  let c := l.foldl (fun (b : Int) n => if b.natAbs < (SMap.get m.pos n 0).natAbs then SMap.get m.pos n 0 else b) 0
  let mm : Int := ((c.natAbs * 0x3243F6A89 * swWheel m.img / (2 ^ 32 * 40 * swPulses m.img) : Nat) : Int)
  if c < 0 then -mm else mm

def MwS.posOk (m : MwS) : Bool := m.ref && decide (m.position.natAbs ≤ m.prof 16 4)

/-! ## Limit sets (R388) -/

/-- Limit set i is active. -/
def MwS.setActive (m : MwS) (i : Nat) : Bool :=
  let a := m.prof (20 + 8 * i + 6) 1
  match a % 4 with
  | 0 => true
  | 1 => bitOf m.di (bitsOf a 2 3)
  | 2 => !bitOf m.di (bitsOf a 2 3)
  | _ => false

/-- Limit set i exceeded, given the consolidation and whether it was. -/
def MwS.setExceeded (m : MwS) (r : SpdCons) (i : Nat) : Bool :=
  let lim := m.prof (20 + 8 * i) 4
  if !m.setActive i then false
  else if !r.valid || decide (lim < r.speed.natAbs) then true
  else bitOf m.exceeded i && (bitOf (m.prof (20 + 8 * i + 7) 1) 0 || decide ((lim : Int) - m.prof (20 + 8 * i + 4) 2 < r.speed.natAbs))

def MwS.limits (m : MwS) (r : SpdCons) : MwS :=
  { m with exceeded := ((List.range 4).filter fun i => m.setExceeded r i).foldl setBit 0 }

/-! ## Permits (R389, R390) -/

/-- Byte i of the last good hub frame. -/
def MwS.hubByte (m : MwS) (i : Nat) : Nat := beAt m.hub i 1

/-- The conditions of R389 for output n, but the test pulse. -/
def MwS.conditions (m : MwS) (r : SpdCons) (n : Nat) : Bool :=
  let b0 := m.prof (52 + 4 * n) 1
  let sls := m.prof (53 + 4 * n) 1 % 16
  let di := m.prof (54 + 4 * n) 1
  let dir := bitsOf b0 3 2
  let needs := sls ≠ 0 || bitOf b0 6 || bitOf b0 5 || dir ≠ 0
  m.st = 2 && bitOf b0 7 && !bitOf (m.hubByte 2) n && (!needs || r.valid) && sls &&& m.exceeded == 0 && (!bitOf b0 6 || r.still) &&
  (!bitOf b0 5 || m.posOk) && (dir == 0 || !bitOf m.dirBad n) && di &&& m.di == di

/-- Evaluation: limit sets, permits; a permit withdrawn while commanded on, or whose conditions fail during its test, is interlocked. -/
def MwS.evaluate (m : MwS) (outs t : Nat) : MwS :=
  let r := m.cons t
  let m := m.limits r
  let ok (n : Nat) : Bool := m.conditions r n
  let lock := ((List.range outs).filter fun n => bitOf m.lock n || ((bitOf m.permits n || m.test == some n) && !ok n && bitOf (m.hubByte 1) n)).foldl setBit 0
  { m with lock := lock, permits := ((List.range outs).filter fun n => ok n && !bitOf lock n && m.test ≠ some n).foldl setBit 0 }

def State.mwEval (s : State) : State := s.updMw fun m => m.evaluate s.mwOut s.mwNow

/-- Into SAFE (3) or FAULT (4), with its cause; SAFE and FAULT are latched until a cold start (R382). -/
def State.mwStop (s : State) (st cause : Nat) : State :=
  if 3 ≤ s.mw.st then s else (s.updMw fun m => { m with st := st, cause := cause }).mwEval

/-- The state is WAIT or RUN. -/
def State.mwUp (s : State) : Bool := s.mw.st == 1 || s.mw.st == 2

/-! ## Its commands -/

/-- R382, R383. -/
def execMwResetRelease (s : State) : Out :=
  .next (
    if s.mwOut = 0 ∨ s.mw.st ≠ 0 then s
    else if !s.mw.romGood then s.mwStop 3 1
    else if !swLegal s.mw.img then s.mwStop 3 3
    else if s.mw.prof 0 2 = 0 then s.mwStop 3 4
    else s.updMw fun m => { m with st := 1, ch := (List.range s.mwOut).foldl (fun c n => SMap.put c n SpdChan.init (m.chan n).enterInit) m.ch })

/-- R386: the Millwright decodes an edge: the tracks of channel n change to (a, b). -/
def State.mwEdge (s : State) (n : Nat) (a b : Bool) : State :=
  let m := s.mw
  if s.mwOut ≤ n ∨ (m.chan n).st = 0 then s else
  let r := (m.chan n).edge (m.par n) a b (s.mwNow - 20)
  let c : SpdChan := { r.1 with still := false }
  let c : SpdChan := if r.2.fail ≠ 0 then c.failWith r.2.fail else c
  let d := c.odo - (m.chan n).odo
  let mine := bitOf (m.prof 2 1) n && decide (c.st = 2)
  let bad := (List.range s.mwOut).filter fun o =>
    let dir := bitsOf (m.prof (52 + 4 * o) 1) 3 2
    mine && ((dir == 1 && decide (d < 0)) || (dir == 2 && decide (0 < d)))
  let s := s.updMw fun m =>
    { m with ch := SMap.put m.ch n SpdChan.init c
             pos := if mine then SMap.put m.pos n 0 (SMap.get m.pos n 0 + d) else m.pos
             dirBad := bad.foldl setBit m.dirBad }
  let s := s.updMw fun m => { m with ref := m.posOk }
  s.mwEval

def execMwTrackEdge (n : Fin 8) (a b : Bool) (s : State) : Out := .next (s.mwEdge n.val a b)

/-- R387, R388: consolidated standstill is entered, and latched limit sets clear: no edge within ss_to on the valid channels of cmask. -/
def State.mwStandstill (s : State) : State :=
  if s.mwOut = 0 ∨ !s.mwUp then s else
  let l := (bitList 8 (s.mw.prof 2 1)).filter fun n => (s.mw.chan n).st = 2
  let s := s.updMw fun m => { m with ch := l.foldl (fun c n => SMap.put c n SpdChan.init { m.chan n with still := true }) m.ch }
  let r := s.mw.cons s.mwNow
  if r.valid ∧ r.still then
    (s.updMw fun m => { m with pos := [], ref := true, dirBad := 0, exceeded := ((List.range 4).filter fun i => bitOf m.exceeded i && !bitOf (m.prof (27 + 8 * i) 1) 0).foldl setBit 0 }).mwEval
  else s

def execMwStandstillEntry (s : State) : Out := .next s.mwStandstill

/-- A channel of the Millwright fails; it stays failed until a cold start (R386). -/
def State.mwFail (s : State) (n cause : Nat) : State :=
  (s.updMw fun m => { m with ch := SMap.put m.ch n SpdChan.init ((m.chan n).failWith cause) }).mwEval

/-- Another valid channel of the profile's cmask reports motion (R369). -/
def State.mwWitness (s : State) (n : Nat) : Bool :=
  (bitList 8 (s.mw.prof 2 1)).any fun k => k ≠ n && decide ((s.mw.chan k).st = 2) && decide (s.mw.prof 6 2 ≤ (s.mw.v s.mwNow k).natAbs)

/-- R364: a track 100 µs at a level, as the hub (`mw` false) or the Millwright finds it. -/
def execTrackFaultTimeout (n : Fin 8) (mw t2 : Bool) (lv : Nat) (s : State) : Out :=
  .next (
    if mw then (if n.val < s.mwOut ∧ trackFault 1 lv then s.mwFail n.val (if t2 then 2 else 1) else s)
    else s.trackFaultAt n.val t2 lv)

/-- R370: ss_to after entry into init. -/
def execSpeedInitTimeout (n : Fin 8) (mw : Bool) (s : State) : Out :=
  .next (
    if mw then
      (if n.val < s.mwOut then
        (s.updMw fun m => { m with ch := SMap.put m.ch n.val SpdChan.init (m.chan n.val).initEnd }).mwEval
      else s)
    else if s.spdPresent n.val then s.updSp n.val SpdChan.initEnd else s)

/-- R369. -/
def execFrozenChannel (n : Fin 8) (mw : Bool) (s : State) : Out :=
  .next (
    if mw then (if n.val < s.mwOut ∧ (s.mw.chan n.val).st = 2 ∧ s.mwWitness n.val then s.mwFail n.val 4 else s)
    else if s.spdPresent n.val ∧ (s.sp n.val).st = 2 ∧ s.spdWitness n.val then s.spdFail n.val 4 else s)

/-- R383: every 100 ms; `ok` false: the ROM reads with an error. -/
def execMwRomCheck (ok : Bool) (s : State) : Out := .next (if s.mwOut ≠ 0 ∧ s.mwUp ∧ !(ok && s.mw.romGood) then s.mwStop 4 2 else s)

/-- One contact's sample: three in a row unlike the reading change it (R381). -/
def MwS.diSample (m : MwS) (k : Nat) (closed : Bool) : MwS :=
  if bitOf m.di k = closed then { m with diRun := SMap.erase m.diRun k }
  else if 3 ≤ SMap.get m.diRun k 0 + 1 then
    { m with diRun := SMap.erase m.diRun k, di := if closed then setBit m.di k else clrBit m.di k }
  else { m with diRun := SMap.put m.diRun k 0 (SMap.get m.diRun k 0 + 1) }

/-- R381: samples of DI0 to DI7, the bits that carry 5.0 mA or more. -/
def execMwDiSample (closed : Nat) (s : State) : Out :=
  .next (if s.mwOut = 0 then s else s.updMw fun m => (List.range 8).foldl (fun m k => m.diSample k (bitOf closed k)) m)

/-- R381. -/
def execMwDiPulseTimeout (s : State) : Out := .next (if s.mwOut = 0 then s else s.updMw fun m => { m with di := 0, diRun := [] })

/-! ## Cross-check (R391) -/

def MwS.tolerance (m : MwS) (v : Int) : Nat := m.prof 10 2 + v.natAbs * m.prof 12 1 / 100

/-- The Millwright's result agrees with the speed unit's in the last good hub frame. -/
def MwS.agreeUnit (m : MwS) (r : SpdCons) : Bool :=
  let ok := bitOf (m.hubByte 8) 0
  if !r.valid then !ok
  else ok && bitOf (m.hubByte 8) 1 == r.still && decide ((sint 32 (beAt m.hub 4 4) - r.speed).natAbs ≤ m.tolerance r.speed)

/-- It agrees with the lane speed. -/
def MwS.agreeLane (m : MwS) (r : SpdCons) : Bool :=
  let v := beAt m.hub 9 4
  if !r.valid then v == 0x7FFFFFFF
  else v ≠ 0x7FFFFFFF && decide ((sint 32 v - r.speed).natAbs ≤ m.tolerance r.speed)

/-- R391: the disagreement has lasted t_xc. -/
def execMwCrossCheckTimeout (lane : Bool) (s : State) : Out :=
  .next (
    let r := s.mw.cons s.mwNow
    if s.mw.st = 2 ∧ !(if lane then s.mw.agreeLane r else s.mw.agreeUnit r) then s.mwStop 4 (if lane then 10 else 9) else s)

/-! ## Frames (R392, R18) -/

/-- A frame of 16 bytes with its CRC-32C. -/
def mwFrame (l : List Byte) : List Byte := l ++ beBytes 4 (crc32c 0xFFFFFFFF l ^^^ 0xFFFFFFFF)

/-- Length, CRC and type of a frame are good. -/
def mwFrameOk (type : Nat) (b : List Byte) : Bool :=
  decide (b.length = 20) && beAt b 16 4 == crc32c 0xFFFFFFFF (b.take 16) ^^^ 0xFFFFFFFF && beAt b 0 1 / 16 == type

/-- Slice q mod 4 of a 60-bit switch image. -/
def swSlice (img q : Nat) : Nat := bitsOf (img % 2 ^ 60) (16 * (q % 4)) 16

/-- A good hub frame: interlocks, the test request, WAIT's four frames, the switch slices (R382, R390, R395). -/
def State.mwHubGood (s : State) (b : List Byte) : State :=
  let q := beAt b 0 1 % 16
  let loaded := bitOf (beAt b 3 1) 0
  let same := beAt b 13 2 == swSlice s.mw.img q
  let req := if bitOf (beAt b 3 1) 1 then some (bitsOf (beAt b 3 1) 2 3) else none
  let s := s.updMw fun m =>
    { m with hub := b.take 16, bad := 0, lock := m.lock &&& beAt b 1 1, test := req.orElse fun _ => m.test
             good := if loaded && same then m.good + 1 else 0 }
  if s.mwUp ∧ loaded ∧ !same then s.mwStop 3 5
  else if s.mw.st = 1 ∧ 4 ≤ s.mw.good then (s.updMw fun m => { m with st := 2 }).mwEval
  else s.mwEval

/-- A bad frame; the third in a row in RUN is a fault (R18). -/
def State.mwHubBad (s : State) : State :=
  let s := s.updMw fun m => { m with bad := m.bad + 1, good := 0 }
  if s.mw.st = 2 ∧ 3 ≤ s.mw.bad then s.mwStop 4 7 else s

/-- R382, R392: a hub frame as received. -/
def State.mwHubFrame (s : State) (b : List Byte) : State :=
  if s.mwOut = 0 ∨ s.mw.st = 0 then s
  else if !mwFrameOk 1 b then s.mwHubBad
  else
    let q := beAt b 0 1 % 16
    let next := s.mw.seqIn = 0 || (s.mw.seqIn - 1 + 1) % 16 == q
    let s := s.updMw fun m => { m with seqIn := q + 1 }
    if next then s.mwHubGood b else s.mwHubBad

def execMwHubFrameReceived (b : List Byte) (s : State) : Out := .next (s.mwHubFrame b)

/-- R18: three frames missing or bad, or (`interval`) three intervals out of tolerance. -/
def execMwFrameTimeout (interval : Bool) (s : State) : Out := .next (if s.mw.st = 2 then s.mwStop 4 (if interval then 8 else 7) else s)

/-- R18. -/
def execHubHealthyLow (s : State) : Out := .next (if s.mwUp then s.mwStop 4 11 else s)

/-- The Millwright's frame (R392). -/
def State.mwSend (s : State) : State :=
  let m := s.mw
  let r := m.cons s.mwNow
  let act := pack1 fun i => decide (i < 4) && m.setActive i
  let pos := unsint 16 (max (-32767) (min 32767 m.position))
  let l := beBytes 1 (0x20 + m.seq % 16) ++ beBytes 1 m.permits ++ beBytes 1 (m.st + 8 * m.cause) ++ beBytes 1 (m.exceeded % 16 + 16 * act) ++
    beBytes 4 (unsint 32 r.speed) ++ beBytes 1 (b2n r.valid + 2 * b2n r.still + 4 * r.dir + 16 * b2n m.ref + 32 * b2n m.posOk) ++ beBytes 1 r.mask ++
    beBytes 1 (s.get SO_STATE_16) ++ beBytes 1 m.di ++ beBytes 2 pos ++ beBytes 2 (swSlice m.img m.seq)
  (s.updMw fun m => { m with seq := (m.seq + 1) % 16 }).setWire 81 (mwFrame l)

/-- R389: every 10 µs; the frame of the interval leaves. -/
def execMwEvaluationTick (s : State) : Out := .next (if s.mwOut = 0 ∨ s.mw.st = 0 then s else s.mwEval.mwSend)

/-- A cold start: held in reset; ROM and switch reading stay (R382). -/
def State.mwReset (s : State) : State := s.updMw fun m => { MwS.init with rom := m.rom, img := m.img }

end Sys2Proof.Machine
end

