-- ==== Sys2Proof/Machine/SafeOut.lean ====
section
/-! DEFINITION. The safety outputs and the sealed switches as the hub sees them (15 R392 to R397): frames, senses, failures, test pulses, commands staged at
guard starts and taken at hallmark edges, switch readings. -/

namespace Sys2Proof.Machine


/-- R404: words 0 and 1; MW_SPEED and MW_PERMIT follow. -/
def State.soRecord (s : State) (code sev w0 w1 : Nat) : State :=
  s.record code sev [w0, w1, s.get MW_SPEED_0, s.get MW_PERMIT_0 + 256 * s.get MW_PERMIT_8]

/-! ## Frames (R392) -/

/-- The lane speed (R391): committed value of the variable the configuration names. -/
def State.laneSpeed (s : State) : Nat :=
  match if s.so.laneVar = 0 then none else s.var (s.so.laneVar - 1) with
  | some d => leNat ((s.committed d).take 4)
  | none => 0x7FFFFFFF

/-- The switch image of the configuration. -/
def State.swCfg (s : State) : Nat := s.get64 SW_CFG_LO_0 SW_CFG_HI_0
/-- The hub's switch reading. -/
def State.swRead (s : State) : Nat := s.get64 SW_READ_LO_0 SW_READ_HI_0

/-- The hub's frame. -/
def State.hubFrame (s : State) : List Byte :=
  let r := s.spdCons
  let t := match s.so.test with | some n => 2 + 4 * n | none => 0
  mwFrame (beBytes 1 (0x10 + s.so.seq % 16) ++ beBytes 1 (s.get SO_STATE_0) ++ beBytes 1 (s.get SO_FAILED_0) ++
    beBytes 1 (b2n (s.so.accepted && s.flag SWITCHES_passed) + t) ++ beBytes 4 (unsint 32 r.speed) ++
    beBytes 1 (b2n r.valid + 2 * b2n r.still + 4 * r.dir) ++ beBytes 4 s.laneSpeed ++ beBytes 2 (swSlice s.swCfg s.so.seq) ++ [0])

/-- R392: every 10 µs. -/
def execHubFrameSend (s : State) : Out :=
  .next (
    if s.mwOut = 0 then s else
    (s.setWire 80 s.hubFrame).updSo fun o => { o with seq := (o.seq + 1) % 16 })

/-- A state the Millwright has entered. -/
def State.mwEntered (s : State) (st cause : Nat) : State :=
  if st = 4 then (s.raiseInt 0x5F 1).soRecord 0x5F01 7 cause cause
  else if st = 3 then (s.raiseInt 0x5F 2).soRecord 0x5F02 7 cause cause
  else if st = 2 then s.soRecord 0x5F04 3 cause cause
  else s

/-- The hub's reading and the Millwright's differ in bits 59 to 0; cfg_diff likewise (R397, R403). -/
def State.swDiff (s : State) : State :=
  let rd := s.swRead % 2 ^ 60
  let cd := decide (rd ≠ s.swCfg % 2 ^ 60)
  let md := s.pagePresent 0x5F && decide (rd ≠ s.get64 MW_SWIMG_LO_0 MW_SWIMG_HI_0)
  let rise := (cd && !s.flag SWITCHES_cfg_diff) || (md && !s.flag SWITCHES_mw_diff)
  let s := (s.setB SWITCHES_cfg_diff cd).setB SWITCHES_mw_diff md
  if rise then s.raiseInt 0x64 0 else s

/-- Largest difference of the cross-check in the second (R401). -/
def State.mwXc (s : State) (v : Nat) (valid : Bool) : State :=
  let d (x : Nat) : Nat := if x = 0x7FFFFFFF ∨ !valid then 0 else (sint 32 x - sint 32 v).natAbs
  let m := min 0xFFFF (max (d (s.get SPD_CONS_V_0)) (d s.laneSpeed))
  let sec := s.counter / ticksPerSec + 1
  if s.so.xcSec = sec then s.raiseTo MW_XC_0 m else (s.set MW_XC_0 m).updSo fun o => { o with xcSec := sec }

/-- A good Millwright frame. -/
def State.mwGood (s : State) (b : List Byte) : State :=
  let q := beAt b 0 1 % 16
  let st := beAt b 2 1 % 8
  let cause := beAt b 2 1 / 8
  let oldSt := s.get MILLWRIGHT_state
  let old := s.get MW_PERMIT_0
  let new := beAt b 1 1
  let c := beAt b 8 1
  let s := ((s.set MILLWRIGHT_state st).set MW_FAULT_0 cause).set MW_PERMIT_0 new
  let s := ((s.set MW_COND_0 (beAt b 3 1 % 16)).set MW_COND_4 (beAt b 3 1 / 16)).set MW_COND_8 (c % 64)
  let s := (((s.set MW_SPEED_0 (beAt b 4 4)).set MW_POS_0 (beAt b 12 2)).set MW_POS_16 (beAt b 9 1)).set MW_POS_24 (beAt b 11 1)
  let img := putBits (s.get64 MW_SWIMG_LO_0 MW_SWIMG_HI_0) (16 * (q % 4)) 16 (beAt b 14 2)
  let s := s.set64 MW_SWIMG_LO_0 MW_SWIMG_HI_0 img
  let s := s.set MW_PROFILE_0 (bitsOf img 52 4)
  let s := s.set MW_PROFILE_16 (s.mw.romAt (0x100 + 0xE0 * bitsOf img 52 4) 2)
  let s := s.mwXc (beAt b 4 4) (bitOf c 0)
  let s := if old ≠ new then s.raiseInt 0x5F 0 else s
  let s := s.each (List.range s.mwOut) fun s n =>
    if bitOf old n && !bitOf new n && bitOf (s.get SO_STATE_0) n && s.so.test ≠ some n then
      s.once (0x5F03 * 65536 + n) ticksPerSec fun s => s.soRecord 0x5F03 5 n cause
    else s
  let s := s.updSo fun o =>
    { o with fell := ((List.range s.mwOut).filter fun n =>
        !bitOf new n && (bitOf o.fell n || (bitOf old n && bitOf (s.get SO_STATE_0) n && o.test ≠ some n))).foldl setBit 0 }
  let s := if oldSt = st then s else s.mwEntered st cause
  s.swDiff

/-- R392: a Millwright frame as received. -/
def State.mwFrameIn (s : State) (b : List Byte) : State :=
  if s.mwOut = 0 then s else
  let bad (s : State) : State := (s.count MILLWRIGHT_frame_errs).raiseInt 0x5F 3
  if !mwFrameOk 2 b then bad s else
  let q := beAt b 0 1 % 16
  let next := s.so.mwSeq = 0 || s.so.mwSeq % 16 == q
  let s := s.updSo fun o => { o with mwSeq := q + 1 }
  if next then s.mwGood b else bad s

def execMillwrightFrameReceived (b : List Byte) (s : State) : Out := .next (s.mwFrameIn b)

/-! ## Senses (R394) -/

/-- Output n failed. -/
def State.soFail (s : State) (n cause : Nat) : State :=
  if bitOf (s.get SO_FAILED_0) n then s else
  let s := (s.set SO_FAILED_0 (setBit (s.get SO_FAILED_0) n)).set (SO_CAUSE_0 n) cause
  let s := ((s.count SAFEOUT_fault_count).raiseInt 0x60 0).updSo fun o => { o with want := clrBit o.want n }
  s.soRecord 0x6001 7 n cause

/-- The conditions of R394 on one sample of an output: command, midpoint, output, permit toggling, permit reported driven. -/
def soConditions (cmd mid out permit told supOk pairOff : Bool) : List (Nat × Bool) :=
  [(1, !cmd && mid), (2, cmd && !mid && supOk), (3, !permit && mid && out), (4, !mid && out && !pairOff), (5, permit != told)]

/-- One output's sample. -/
def State.soSample (s : State) (n : Nat) (mid out permit supOk : Bool) : State :=
  let cmd := bitOf (s.get SO_STATE_0) n
  let changed := cmd != bitOf s.so.cmd n || permit != bitOf s.so.permit n
  let left := if changed then 10 else SMap.get s.so.blank n 0
  let s := s.updSo fun o => { o with blank := SMap.put o.blank n 0 (left - 1) }
  if left ≠ 0 then s.updSo fun o => { o with bad := o.bad.filter fun e => e.1 / 8 ≠ n }
  else
    let pairOff := s.flag (SO_BIND_21 n) && !s.inCharge
    s.each (soConditions cmd mid out permit (bitOf (s.get MW_PERMIT_0) n) supOk pairOff) fun s c =>
      let k := if c.2 then SMap.get s.so.bad (8 * n + c.1) 0 + 1 else 0
      let s := s.updSo fun o => { o with bad := SMap.put o.bad (8 * n + c.1) 0 (min k 3) }
      if 3 ≤ k then s.soFail n c.1 else s

/-- Energised: command closed and permit driven. -/
def State.energised (s : State) : Nat := s.get SO_STATE_0 &&& s.get MW_PERMIT_0

/-- The next output of the round is tested, once it is energised (R395, R400). -/
def State.testNext (s : State) : State :=
  if s.so.test.isSome then s else
  match bitList 8 (s.so.want &&& s.energised) with
  | n :: _ => s.updSo fun o => { o with test := some n, want := clrBit o.want n }
  | [] => s

/-- A round ends when every output of it has been tested. -/
def State.testRoundEnd (s : State) : State :=
  if s.so.want = 0 ∧ s.so.test.isNone then
    let s := (s.count SO_TEST_STAT_0).set SO_TEST_STAT_16 s.so.tested
    (s.raiseInt 0x60 1).soRecord 0x6002 2 s.so.tested 0
  else s

/-- R395: a permit withdrawn while its output was energised, and the output now low: a passed test of the round. -/
def State.testCredit (s : State) (out : Nat) : State :=
  let low := bitList 8 s.so.fell |>.filter fun n => !bitOf out n
  let due := low.filter fun n => bitOf s.so.want n
  let s := s.updSo fun o => { o with fell := low.foldl clrBit o.fell, want := due.foldl clrBit o.want, tested := due.foldl setBit o.tested }
  if due.isEmpty then s else s.testRoundEnd

/-- R394: every 10 µs, what the hub senses. -/
def State.soSense (s : State) (mid out permit : Nat) (supOk : Bool) : State :=
  if s.mwOut = 0 then s else
  let s := ((s.set SO_STATE_8 mid).set SO_STATE_16 out).set MW_PERMIT_8 permit
  let s := if !supOk ∧ !s.so.noSup then s.raiseInt 0x60 2 else s
  let s := s.updSo fun o => { o with noSup := !supOk }
  let s := s.each (List.range s.mwOut) fun s n => s.soSample n (bitOf mid n) (bitOf out n) (bitOf permit n) supOk
  ((s.updSo fun o => { o with cmd := s.get SO_STATE_0, permit := permit }).testCredit out).testNext

def execSafetyOutputSense (mid out permit : Nat) (supplyOk : Bool) (s : State) : Out := .next (s.soSense mid out permit supplyOk)

/-- 24 R583: a command switch in limit for 5 ms opens while its command stays closed. -/
def execSafetyOutputOverload (n : Fin 8) (s : State) : Out :=
  .next (if n.val < s.mwOut ∧ bitOf (s.get SO_STATE_0) n.val then s.updSo fun o => { o with limited := setBit o.limited n.val } else s)

/-! ## Test pulses (R395) -/

/-- A round starts: every output energised or commanded on and not failed, in turn. -/
def State.testRound (s : State) : State :=
  if s.mwOut = 0 then s else
  let l := (List.range s.mwOut).filter fun n => bitOf (s.get SO_STATE_0) n && !bitOf (s.get SO_FAILED_0) n
  let idle := s.so.want = 0 && s.so.test.isNone
  let s := s.updSo fun o => { o with want := l.foldl setBit o.want, tested := if idle then 0 else o.tested }
  if l.isEmpty ∧ idle then s.testRoundEnd else s.testNext

def execTestPulseDue (s : State) : Out := .next s.testRound
def execSoTestRunNow (a : Acc) (s : State) : Out := .next (s.writeAt a 0x60 0x048 State.testRound)

/-- R395: 200 µs; `ok`: the output read low within 150 µs of the start. -/
def State.testEnd (s : State) (ok : Bool) : State :=
  match s.so.test with
  | none => s
  | some n =>
    let s := s.updSo fun o => { o with test := none, tested := setBit o.tested n }
    let s := if ok then s else s.soFail n 6
    let s := (s.updMw fun m => { m with test := none }).mwEval
    (s.testNext).testRoundEnd

def execTestPulseEnd (ok : Bool) (s : State) : Out := .next (s.testEnd ok)

/-! ## Commands (R393, R30) -/

/-- The command of output n from a value (R393). -/
def State.soCommand (s : State) (n : Nat) (v : List Byte × Bool) : Bool :=
  bitOf (leNat (v.1.take 4)) (s.get (SO_BIND_16 n)) && !v.2 && !(s.flag (SO_BIND_21 n) && !s.inCharge) && !bitOf (s.get SO_FAILED_0) n &&
  s.flag SWITCHES_passed && !s.so.block && (s.lanesIn lDebug).isEmpty

/-- R393: guard start of class j; a class that overran stages nothing. -/
def State.soStage (s : State) (j : Nat) (commits : Bool) : State :=
  if !commits then s else
  s.each (List.range s.mwOut) fun s n =>
    if !s.flag (SO_BIND_31 n) then s else
    match s.var (s.get (SO_BIND_0 n)) with
    | some d => if d.cls = j then s.updSo fun o => { o with staged := SMap.insert (SMap.erase o.staged n) n (s.soCommand n (s.aboutToCommit d)) } else s
    | none => s

/-- The hallmark edge: command switches follow what was staged; with the module passive, service-only or in DEBUG none closes. -/
def State.soCommit (s : State) : State :=
  let hold := s.passive || s.flag SYS_svc_only || !(s.lanesIn lDebug).isEmpty
  let s := s.each s.so.staged fun s e =>
    let on := e.2 && !hold && !s.so.block
    let s := s.set SO_STATE_0 (if on then setBit (s.get SO_STATE_0) e.1 else clrBit (s.get SO_STATE_0) e.1)
    if on then s else s.updSo fun o => { o with limited := clrBit o.limited e.1 }
  s.updSo fun o => { o with staged := [] }

/-- SAFEOUT safe_block as read: commands held 0 by DEBUG, switch change or no configuration. -/
def State.safeBlock (s : State) : Bool := s.flag LM_STATE_16 || s.so.block || !s.so.accepted

/-- A binding of the configuration is legal (R393): a 4-byte safety output variable whose fallback has bit b equal to 0. -/
def State.soLegal (s : State) (n v b : Nat) : Bool :=
  decide (n < s.mwOut) && decide (b < 32) &&
  match s.var v with
  | some d => d.kind = 0 && d.size = 4 && d.safety && d.fallback && !bitOf (s.hubNat d.fb 4) b
  | none => false

/-! ## Switches (R396, R397, R403) -/

/-- SW_ROLE, SW_ADDR, SW_WHEEL, SW_PROF from the reading. -/
def State.swShow (s : State) : State :=
  let r := s.swRead
  let s := ((s.setB SW_ROLE_0 (bitOf r 0)).setB SW_ROLE_1 (bitOf r 60)).set SW_ADDR_0 (bitsOf r 4 16)
  let s := s.set SW_WHEEL_0 (if bitsOf r 20 16 ≤ 7000 then swWheel r else 0)
  (s.set SW_WHEEL_16 (if 1 ≤ swPulses r ∧ swPulses r ≤ 1024 then swPulses r else 0)).set SW_PROF_0 (bitsOf r 52 4)

/-- R397: a difference of 50 ms, or a change after the check: commands 0 until a cold start, the Millwright into SAFE. -/
def State.swTrip (s : State) (diff cause : Nat) : State :=
  let s := s.updSo fun o => { o with block := true }
  let s := s.record 0x6401 7 [0, diff % 2 ^ 32, diff / 2 ^ 32 % 2 ^ 28, s.get MW_PERMIT_0 + 256 * s.get MW_PERMIT_8]
  if s.mwUp then s.mwStop 3 cause else s

/-- Ten equal samples change a position in a reading: the positions that change, and the counts after it. -/
def swDebounce (run : SMap Nat) (base reading pins bits : Nat) : Nat × SMap Nat :=
  (List.range bits).foldl (fun (p : Nat × SMap Nat) i =>
    let k := SMap.get p.2 (base + i) 0 + 1
    if bitOf pins i = bitOf reading i then (p.1, SMap.erase p.2 (base + i))
    else if 10 ≤ k then (setBit p.1 i, SMap.erase p.2 (base + i))
    else (p.1, SMap.put p.2 (base + i) 0 k)) (0, run)

/-- R396: every 1 ms, the positions as the hub's and the Millwright's pins show them. -/
def State.swSample (s : State) (pins mwPins : Nat) : State :=
  let old := s.swRead
  let d := swDebounce s.swRun 0 old pins 64
  let flip := d.1
  let s := ((s.setSwRun d.2).set64 SW_READ_LO_0 SW_READ_HI_0 (old ^^^ flip)).swShow
  let s := s.addSat SWITCHES_changes (popc 64 flip)
  let s := if bitOf flip 60 then (s.raiseInt 0x64 1).record 0x6402 4 [s.get SW_ROLE_1, 0, 0, s.get MW_PERMIT_0 + 256 * s.get MW_PERMIT_8] else s
  let s := if flip % 2 ^ 60 ≠ 0 ∧ s.flag SWITCHES_passed ∧ !s.flag SWITCHES_changed then (s.set SWITCHES_changed 1).swTrip (flip % 2 ^ 60) 6 else s
  let s :=
    if s.mwOut = 0 then s else
    let d := swDebounce s.swRun 64 s.mw.img mwPins 60
    let mf := d.1
    let s := (s.setSwRun d.2).updMw fun m => { m with img := m.img ^^^ mf }
    if mf ≠ 0 ∧ s.mwUp then s.mwStop 3 6 else s
  s.swDiff

def execSwitchSample (pins mwPins : Nat) (s : State) : Out := .next (s.swSample pins mwPins)

/-- R397. -/
def execSwitchMismatchTimeout (s : State) : Out :=
  .next (
    if s.flag SWITCHES_mw_diff then
      s.swTrip ((s.swRead % 2 ^ 60) ^^^ s.get64 MW_SWIMG_LO_0 MW_SWIMG_HI_0) 5
    else s)

/-- R397: the check at configuration load and at every start. -/
def State.switchCheck (s : State) : State :=
  let c := s.swCfg
  let ok := s.so.accepted && swLegal c && s.swRead % 2 ^ 60 == c % 2 ^ 60
  let s := ((s.setB SWITCHES_passed ok).setB SAFEOUT_checked ok).set SWITCHES_changed 0
  s.swDiff

end Sys2Proof.Machine
end

