-- ==== Sys2Proof/Machine/Ledger.lean ====
section
/-! DEFINITION. The Ledger's commands (18): software port, flushes, buckets and summaries, freezes, the reading window, mount. Records arrive through
Machine/Ops.lean. -/

namespace Sys2Proof.Machine

/-- R448: a hub unit's record. -/
def execLedgerRecordArrival (r : LRec) (s : State) : Out :=
  .next (s.ledgerArrive { r with code := r.code % 2 ^ 16, sev := r.sev % 8, tenant := r.tenant % 256 } false true (s.get ASSAY_voters))

/-- R447: the record of a port copy. -/
def State.subGo (s : State) (c : Nat) : State :=
  s.ledgerArrive
    { code := s.get (LG_SUB_HDR_0 c), sev := s.get (LG_SUB_HDR_16 c),
      tenant := if s.flag (LG_SUB_HDR_31 c) then 0xFF else s.get (LG_SUB_HDR_24 c),
      params := (List.range 4).map fun k => w32 (s.get (LG_SUB_P_0 k c)) }
    true true (s.get ASSAY_voters)

def execLgSubGo (a : Acc) (s : State) : Out := .next (s.writeAt a 7 0x114 fun s => s.subGo (copyOf a))

/-! ## Flushing (R454, 19 R472) -/

/-- Unflushed records. -/
def State.unflushed (s : State) : List LKept := s.ledger.recs.filter fun e => !e.flushed

/-- A flush starts: it takes every unflushed record but a newest Quicen record held for its repeats (R453). -/
def State.flushStart (s : State) : State :=
  if !s.flag LEDGER_mounted then s else
  s.updLg fun g =>
    { g with flushing := true
             flushTo := if g.hold = 1 ∧ g.recs.any (fun e => !e.flushed) then (g.next + 2 ^ 32 - 1) % 2 ^ 32 else g.next }

/-- A sequence number lies before the end of the flush. -/
def beforeSeq (n e : Nat) : Bool := n ≠ e && decide ((e + 2 ^ 32 - n) % 2 ^ 32 < 2 ^ 31)

/-- Journal records collected to whole pages go to the Ledger partition: page p at sector p of partition 13. -/
def State.pageOut : Nat → State → State
  | 0, s => s
  | n + 1, s =>
    if s.ledger.journal.length < 128 then s else
    let b := (s.ledger.journal.take 128).flatMap LKept.bytes
    let s := s.flashPut (13 * 2 ^ 36 + s.ledger.pages % 65536 * 4096) b
    State.pageOut n (s.updLg fun g => { g with journal := g.journal.drop 128, pages := g.pages + 1 })

/-- One record into the partition; where that is full, the oldest stored record of equal or lower severity gives way, else the record is dropped (R450). -/
def State.flushOne (s : State) (e : LKept) : State :=
  let mine (x : LKept) : Bool := !x.flushed && x.seq == e.seq
  let put (s : State) : State :=
    s.updLg fun g => { g with recs := updFirst mine (fun x => { x with flushed := true }) g.recs, journal := g.journal ++ [e] }
  let low (x : LKept) : Bool := x.flushed && decide (x.sev ≤ e.sev)
  if (s.ledger.recs.filter (·.flushed)).length < 8388608 then put s
  else if s.ledger.recs.any low then put ((s.count (LG_OVERWR_0 e.sev)).updLg fun g => { g with recs := dropFirst low g.recs })
  else (s.updLg fun g => { g with recs := dropFirst mine g.recs }).ledgerDrop e.sev

/-- The head as a flush or power fail stores it. -/
def State.headSave (s : State) : State :=
  s.updLg fun g => { g with headSeq := g.next, headOp := s.get LG_OPTIME_0, headPc := s.get LG_PCYCLE_0 }

/-- A flush is complete. -/
def State.flushDone (s : State) : State :=
  if !s.ledger.flushing then s else
  let mine := s.ledger.recs.filter fun e => !e.flushed && beforeSeq e.seq s.ledger.flushTo
  let s := s.each mine State.flushOne
  let s := State.pageOut 256 (s.updLg fun g => { g with flushing := false, retry := false })
  s.headSave.ledgerShow

def execLedgerFlushStart (s : State) : Out := .next (if s.unflushed = [] then s else s.flushStart)
def execLedgerFlushDone (s : State) : Out := .next s.flushDone

/-- R454: the partition could not be written; the flush is tried again. -/
def execLedgerFlushRetry (s : State) : Out :=
  .next (
    if !s.ledger.flushing then s else
    let s := (s.raiseInt 7 4).once (0x0704 * 65536) (60 * ticksPerSec) fun s => s.record 0x0704 5 [s.unflushed.length, 0, 0, 0]
    (s.updLg fun g => { g with retry := true }).flushStart)

/-! ## Operating time (R445, R451, R452) -/

/-- Buckets of rate r gain a token at the beginning of operating millisecond j. -/
def gainAt (r j : Nat) : Bool := j = 0 || decide ((j - 1) * r / 1000 < j * r / 1000)

/-- Tokens gained at the beginning of operating millisecond j. -/
def State.bucketGain (s : State) (j : Nat) : State :=
  s.updLg fun g => { g with spent := g.spent.filterMap fun e =>
    let left := if gainAt (s.rateOf e.1) j then e.2 - 1 else e.2
    if left = 0 then none else some (e.1, left) }

/-- R451. -/
def execOperatingMillisecond (s : State) : Out :=
  .next (if s.power = .off ∨ 999 ≤ s.ledger.ms then s else (s.updLg fun g => { g with ms := g.ms + 1 }).bucketGain (s.ledger.ms + 1))

/-- Record 0x0702 of a bucket. -/
def State.suppSummary (s : State) (b n : Nat) : State :=
  s.ledgerArrive { code := 0x0702, sev := 2, tenant := 0xFF, params := [w32 (if b < 4096 then s.get (LG_R_CODE_0 b) else 0xFFFFFFFF), w32 n, 0, 0] }
    false false (s.get ASSAY_voters)

/-- R445, R450, R452: a new operating second. -/
def State.opSecond (s : State) : State :=
  if s.power = .off then s else
  let s := s.set LG_OPTIME_0 (s.get LG_OPTIME_0 + 1)
  let s := (s.updLg fun g => { g with ms := 0 }).bucketGain 0
  let n := s.ledger.dropN
  let sev := s.ledger.dropSev
  let l := s.ledger.refused
  let s := s.updLg fun g => { g with dropN := 0, dropSev := 0, refused := [] }
  let s := if n ≠ 0 then s.record 0x0701 6 [n, sev, 0, 0] else s
  s.each (l.take 16) fun s e => s.suppSummary e.1 e.2

def execOperatingSecond (s : State) : Out := .next s.opSecond

/-- R453. -/
def execQuicenRepeatHoldExpiry (s : State) : Out := .next (if s.ledger.hold = 1 then s.updLg fun g => { g with hold := 2 } else s)

/-! ## Freeze (R458) -/

/-- Operating milliseconds. -/
def State.opMs (s : State) : Nat := s.get LG_OPTIME_0 * 1000 + s.ledger.ms

/-- Recording resumes: why 0 unfreeze, 1 freeze_max, 2 warm restart. -/
def State.thaw (s : State) (why : Nat) : State :=
  if !s.flag LEDGER_frozen then s else
  let n := s.ledger.fzN
  let sev := s.ledger.fzSev
  let s := (s.set LEDGER_frozen 0).updLg fun g => { g with fzN := 0, fzSev := 0 }
  (s.record 0x0703 4 [n, sev, why, 0]).raiseInt 7 3

def State.lgStat (s : State) (c : Nat) : State := s.set LG_CMD_STAT_0 c

/-! ## The window (R457) -/

/-- Distance of a number from the oldest record stored. -/
def LedgerS.dist (g : LedgerS) (n : Nat) : Nat :=
  match g.recs.head? with | some o => (n + 2 ^ 32 - o.seq) % 2 ^ 32 | none => 0

/-- The record at or after v; numbers before the oldest record start at it. -/
def LedgerS.seek (g : LedgerS) (v : Nat) : Option LKept :=
  let d := if 2 ^ 31 ≤ g.dist v then 0 else g.dist v
  g.recs.find? fun e => decide (d ≤ g.dist e.seq)

/-- The record following the number. -/
def LedgerS.after (g : LedgerS) (v : Nat) : Option LKept :=
  if 2 ^ 31 ≤ g.dist v then g.recs.head? else g.recs.find? fun e => decide (g.dist v < g.dist e.seq)

/-- The record preceding the number. -/
def LedgerS.before (g : LedgerS) (v : Nat) : Option LKept :=
  if 2 ^ 31 ≤ g.dist v then none else (g.recs.filter fun e => decide (g.dist e.seq < g.dist v)).getLast?

/-- A move starts; one in progress makes it ignored. -/
def State.lgMove (s : State) (f : LedgerS → Option LKept) : State :=
  if s.ledger.move.isSome then s.lgStat 3
  else ((s.lgStat 0).set LG_RDSTAT_0 0).updLg fun g => { g with move := some (f g) }

/-- The window is filled, or shows that no record lies there. -/
def State.windowReady (s : State) : State :=
  match s.ledger.move with
  | none => s
  | some m =>
    let s := (s.updLg fun g => { g with move := none }).set LG_RDSTAT_0 1
    let s := match m with
      | some r =>
        let s := ((s.set LG_RDSTAT_1 1).set LG_RDSTAT_2 0).setB LG_RDSTAT_3 r.quicen
        let s := (s.setB LG_RDSTAT_4 (!r.staged)).set LG_RSEQ_0 r.seq
        s.each (List.range 8) fun s i => s.set (LG_WIN_0 i) (leAt r.bytes (4 * i) 4)
      | none => (s.set LG_RDSTAT_1 0).set LG_RDSTAT_2 1
    s.raiseInt 7 2

def execLedgerWindowReady (s : State) : Out := .next s.windowReady

/-- A write of LG_CMD; of the moves the lowest bit counts. -/
def State.lgCmd (s : State) (v : Nat) : State :=
  let s := if bitOf v 0 then
      if s.flag LEDGER_frozen then s.lgStat 1
      else ((s.lgStat 0).set LEDGER_frozen 1).updLg fun g => { g with frozenAt := s.opMs, fzN := 0, fzSev := 0 }
    else s
  let s := if bitOf v 1 then (if s.flag LEDGER_frozen then (s.lgStat 0).thaw 0 else s.lgStat 2) else s
  let q := s.get LG_RSEQ_0
  let s := if bitOf v 2 then s.lgMove (·.after q)
    else if bitOf v 3 then s.lgMove (·.before q)
    else if bitOf v 4 then s.lgMove (·.recs.getLast?)
    else if bitOf v 5 then s.lgMove (·.recs.head?)
    else s
  if bitOf v 6 then (s.lgStat 0).flushStart else s

def execLgFlush (a : Acc) (s : State) : Out := .next (s.writeAt a 7 0x044 fun s => s.lgCmd 64)
def execLgFreeze (a : Acc) (s : State) : Out := .next (s.writeAt a 7 0x044 fun s => s.lgCmd 1)
def execLgUnfreeze (a : Acc) (s : State) : Out := .next (s.writeAt a 7 0x044 fun s => s.lgCmd 2)
def execLgNext (a : Acc) (s : State) : Out := .next (s.writeAt a 7 0x044 fun s => s.lgCmd 4)
def execLgPrev (a : Acc) (s : State) : Out := .next (s.writeAt a 7 0x044 fun s => s.lgCmd 8)
def execLgNewest (a : Acc) (s : State) : Out := .next (s.writeAt a 7 0x044 fun s => s.lgCmd 16)
def execLgOldest (a : Acc) (s : State) : Out := .next (s.writeAt a 7 0x044 fun s => s.lgCmd 32)

/-- R457. -/
def State.lgCursor (s : State) (v : Nat) : State := (s.set LG_CURSOR_0 v).lgMove (·.seek (v % 2 ^ 32))
def execLgCursorWrite (a : Acc) (v : Nat) (s : State) : Out := .next (s.writeAt a 7 0x080 fun s => s.lgCursor v)

/-- The end of a freeze as freeze_max now stands. -/
def State.freezeCheck (s : State) : State :=
  if s.flag LEDGER_frozen ∧ s.ledger.frozenAt + s.get LG_CTL_16 * 1000 ≤ s.opMs then s.thaw 1 else s

def execFreezeMaxExpiry (s : State) : Out := .next (s.thaw 1)

/-- LG_CTL (R461). -/
def State.lgCtl (s : State) (v : Nat) : State :=
  let s := if s.flag CYCLE_running then s else (s.setB LG_CTL_0 (bitOf v 0)).setB LEDGER_fmt (bitOf v 0)
  ((s.set LG_CTL_8 (bitsOf v 8 3)).set LG_CTL_16 (clampR 1 120 (bitsOf v 16 8))).freezeCheck

def execLgFreezeMaxWrite (a : Acc) (v : Nat) (s : State) : Out := .next (s.writeAt a 7 0x040 fun s => s.lgCtl v)

/-! ## Rate table (R451, R461) -/

def State.bucketFill (s : State) (b : Nat) : State := s.updLg fun g => { g with spent := SMap.erase g.spent b }

/-- A write of the selected entry at an offset fills its bucket. -/
def State.rateEntry (s : State) (off v : Nat) : State :=
  let e := s.get LG_RSEL_0
  if off = 0x140 then ((s.set (LG_R_CODE_0 e) v).setB (LG_R_CODE_31 e) (bitOf v 31)).bucketFill e
  else if off = 0x144 then
    ((s.set (LG_R_RATE_0 e) (clampR 1 1000 (bitsOf v 0 10))).set (LG_R_RATE_16 e) (clampR 1 1000 (bitsOf v 16 10))).bucketFill e
  else s

def execLgRateEntryWrite (a : Acc) (off v : Nat) (s : State) : Out :=
  .next (if off = 0x140 ∨ off = 0x144 then s.writeAt a 7 off fun s => s.rateEntry off v else s)

def State.rateDef (s : State) (v : Nat) : State :=
  ((s.set LG_RATE_DEF_0 (clampR 1 1000 (bitsOf v 0 10))).set LG_RATE_DEF_16 (clampR 1 1000 (bitsOf v 16 10))).bucketFill 4096

def execLgRateDefWrite (a : Acc) (v : Nat) (s : State) : Out := .next (s.writeAt a 7 0x150 fun s => s.rateDef v)

/-! ## Mount (R456) -/

/-- The head is read: numbering continues, buffered records are numbered, what the last power fail lost is told. -/
def State.headMount (s : State) : State :=
  if s.flag LEDGER_mounted then s else
  let g := s.ledger
  let s := (s.updLg fun g => { g with next := g.headSeq, startBuf := [], saved := false, lost := 0 }).set LEDGER_mounted 1
  let s := s.each g.startBuf fun s r => s.ledgerPlace r
  let first := g.headSeq = 0 && g.headPc = 0
  let s := if (!g.saved && !first) || g.lost ≠ 0 then s.record 0x0705 5 [g.lost, b2n (!g.saved), 0, 0] else s
  s.record 0x0706 3 [b2n (s.flag LEDGER_fmt), (g.headSeq + 2 ^ 32 - 1) % 2 ^ 32, g.lost, 0]

def execLedgerHeadMount (s : State) : Out := .next s.headMount

end Sys2Proof.Machine
end

