-- ==== Sys2Proof/Machine/RegRows.lean ====
section
/-! DEFINITION. The register tables of the hub pages as rows: offset, array count, stride, lowest bit, width, access, reset value
(by page instance and array index) and the clamp of R12 on the field's own value. The clamps that look at another field, and the writes that
a state makes ignored, are in Machine/PageWrite.lean. -/

namespace Sys2Proof.Machine

def sysRows0 : List Row := [
  ⟨0x010, 1, 0, 0, 1, .ro, (fun _ _ => 0), id⟩,
  ⟨0x010, 1, 0, 1, 1, .ro, (fun _ _ => 0), id⟩,
  ⟨0x010, 1, 0, 2, 1, .ro, (fun _ _ => 0), id⟩,
  ⟨0x020, 1, 0, 0, 2, .ro, (fun _ _ => 0), id⟩,
  ⟨0x024, 1, 0, 0, 2, .rw, (fun _ _ => 0), id⟩,
  ⟨0x030, 1, 0, 0, 16, .rc, (fun _ _ => 0), id⟩,
  ⟨0x040, 1, 0, 0, 8, .ro, (fun _ _ => 0), id⟩,
  ⟨0x040, 1, 0, 8, 4, .ro, (fun _ _ => 0), id⟩,
  ⟨0x040, 1, 0, 12, 1, .ro, (fun _ _ => 0), id⟩,
  ⟨0x040, 1, 0, 16, 16, .ro, (fun _ _ => 3), id⟩,
  ⟨0x044, 1, 0, 0, 32, .ro, (fun _ _ => 0), id⟩,
  ⟨0x048, 1, 0, 0, 32, .ro, (fun _ _ => 0), id⟩,
  ⟨0x04C, 1, 0, 0, 16, .ro, (fun _ _ => 0), id⟩,
  ⟨0x04C, 1, 0, 16, 16, .ro, (fun _ _ => 0), id⟩,
  ⟨0x060, 4, 4, 0, 32, .ro, (fun _ _ => 0), id⟩,
  ⟨0x070, 1, 0, 0, 3, .ro, (fun _ _ => 4), id⟩,
  ⟨0x070, 1, 0, 4, 3, .ro, (fun _ _ => 4), id⟩,
  ⟨0x070, 1, 0, 8, 2, .ro, (fun _ _ => 2), id⟩,
  ⟨0x070, 1, 0, 10, 2, .ro, (fun _ _ => 2), id⟩,
  ⟨0x070, 1, 0, 12, 4, .ro, (fun _ _ => 8), id⟩]

def sysRows1 : List Row := [
  ⟨0x070, 1, 0, 16, 5, .ro, (fun _ _ => 16), id⟩,
  ⟨0x074, 1, 0, 0, 7, .ro, (fun _ _ => 64), id⟩,
  ⟨0x074, 1, 0, 8, 6, .ro, (fun _ _ => 32), id⟩,
  ⟨0x074, 1, 0, 16, 4, .ro, (fun _ _ => 8), id⟩,
  ⟨0x074, 1, 0, 20, 4, .ro, (fun _ _ => 8), id⟩,
  ⟨0x074, 1, 0, 24, 1, .ro, (fun _ _ => 1), id⟩,
  ⟨0x074, 1, 0, 25, 1, .ro, (fun _ _ => 1), id⟩,
  ⟨0x074, 1, 0, 26, 1, .ro, (fun _ _ => 1), id⟩,
  ⟨0x074, 1, 0, 27, 1, .ro, (fun _ _ => 1), id⟩,
  ⟨0x078, 1, 0, 0, 8, .ro, (fun _ _ => 16), id⟩,
  ⟨0x078, 1, 0, 8, 8, .ro, (fun _ _ => 16), id⟩,
  ⟨0x078, 1, 0, 16, 8, .ro, (fun _ _ => 16), id⟩,
  ⟨0x080, 1, 0, 0, 2, .ro, (fun _ _ => 0), id⟩,
  ⟨0x080, 1, 0, 2, 3, .ro, (fun _ _ => 0), id⟩,
  ⟨0x080, 1, 0, 5, 3, .ro, (fun _ _ => 0), id⟩,
  ⟨0x080, 1, 0, 8, 3, .ro, (fun _ _ => 0), id⟩,
  ⟨0x080, 1, 0, 11, 2, .ro, (fun _ _ => 0), id⟩,
  ⟨0x084, 1, 0, 0, 1, .ro, (fun _ _ => 0), id⟩,
  ⟨0x084, 1, 0, 1, 1, .ros, (fun _ _ => 0), id⟩,
  ⟨0x084, 1, 0, 8, 8, .ros, (fun _ _ => 0), id⟩]

def sysRows2 : List Row := [
  ⟨0x088, 1, 0, 0, 5, .ro, (fun _ _ => 0), id⟩,
  ⟨0x088, 1, 0, 5, 1, .ro, (fun _ _ => 0), id⟩]

def sysRows : List Row := sysRows0 ++ sysRows1 ++ sysRows2

def clkRows : List Row := [
  ⟨0x010, 1, 0, 0, 1, .ro, (fun _ _ => 1), id⟩,
  ⟨0x020, 1, 0, 0, 2, .ro, (fun _ _ => 0), id⟩,
  ⟨0x024, 1, 0, 0, 2, .rw, (fun _ _ => 0), id⟩,
  ⟨0x030, 1, 0, 0, 16, .rc, (fun _ _ => 0), id⟩,
  ⟨0x040, 1, 0, 0, 1, .rw, (fun _ _ => 1), id⟩,
  ⟨0x044, 1, 0, 0, 32, .ro, (fun _ _ => 0), id⟩,
  ⟨0x048, 1, 0, 0, 9, .ro, (fun _ _ => 0), id⟩,
  ⟨0x050, 3, 4, 0, 2, .ro, (fun _ _ => 0), id⟩,
  ⟨0x050, 3, 4, 4, 1, .ro, (fun _ _ => 0), id⟩,
  ⟨0x060, 1, 0, 0, 16, .rc, (fun _ _ => 0), id⟩,
  ⟨0x060, 1, 0, 16, 16, .rc, (fun _ _ => 0), id⟩,
  ⟨0x064, 1, 0, 0, 16, .rc, (fun _ _ => 0), id⟩]

def pwrRows : List Row := [
  ⟨0x010, 1, 0, 0, 1, .ro, (fun _ _ => 0), id⟩,
  ⟨0x010, 1, 0, 1, 1, .ro, (fun _ _ => 0), id⟩,
  ⟨0x020, 1, 0, 0, 3, .ro, (fun _ _ => 0), id⟩,
  ⟨0x024, 1, 0, 0, 3, .rw, (fun _ _ => 0), id⟩,
  ⟨0x030, 1, 0, 0, 16, .rc, (fun _ _ => 0), id⟩,
  ⟨0x040, 1, 0, 0, 2, .wo, (fun _ _ => 0), id⟩,
  ⟨0x044, 1, 0, 0, 2, .ro, (fun _ _ => 0), id⟩,
  ⟨0x048, 1, 0, 0, 4, .rws, (fun _ _ => 0), id⟩,
  ⟨0x048, 1, 0, 8, 4, .rws, (fun _ _ => 0), id⟩,
  ⟨0x04C, 1, 0, 0, 24, .rws, (fun _ _ => 3600), (fun v => clampR 1 16777215 v)⟩,
  ⟨0x050, 1, 0, 0, 4, .ro, (fun _ _ => 0), id⟩,
  ⟨0x050, 1, 0, 8, 8, .ro, (fun _ _ => 0), id⟩,
  ⟨0x054, 1, 0, 0, 12, .ro, (fun _ _ => 0), id⟩,
  ⟨0x054, 1, 0, 16, 12, .ro, (fun _ _ => 0), id⟩,
  ⟨0x058, 1, 0, 0, 10, .ro, (fun _ _ => 0), id⟩,
  ⟨0x05C, 1, 0, 0, 16, .rc, (fun _ _ => 0), id⟩,
  ⟨0x060, 1, 0, 0, 12, .ro, (fun _ _ => 0), id⟩,
  ⟨0x060, 1, 0, 16, 1, .ro, (fun _ _ => 0), id⟩]

def thermRows : List Row := [
  ⟨0x010, 1, 0, 0, 2, .ro, (fun _ _ => 0), id⟩,
  ⟨0x010, 1, 0, 2, 2, .ro, (fun _ _ => 0), id⟩,
  ⟨0x020, 1, 0, 0, 2, .ro, (fun _ _ => 0), id⟩,
  ⟨0x024, 1, 0, 0, 2, .rw, (fun _ _ => 0), id⟩,
  ⟨0x030, 1, 0, 0, 16, .rc, (fun _ _ => 0), id⟩,
  ⟨0x040, 1, 0, 0, 3, .rw, (fun _ _ => 0), id⟩,
  ⟨0x040, 1, 0, 4, 1, .rw, (fun _ _ => 1), id⟩,
  ⟨0x044, 1, 0, 0, 8, .ro, (fun _ _ => 100), id⟩,
  ⟨0x044, 1, 0, 8, 8, .ro, (fun _ _ => 108), id⟩,
  ⟨0x044, 1, 0, 16, 8, .ro, (fun _ _ => 118), id⟩,
  ⟨0x044, 1, 0, 24, 8, .ro, (fun _ _ => 125), id⟩,
  ⟨0x048, 1, 0, 0, 16, .ro, (fun _ _ => 0), id⟩,
  ⟨0x050, 4, 4, 0, 16, .ro, (fun _ _ => 0), id⟩,
  ⟨0x060, 4, 4, 0, 16, .rc, (fun _ _ => 0), id⟩]

def lockRows0 : List Row := [
  ⟨0x010, 1, 0, 0, 3, .ro, (fun _ _ => 0), id⟩,
  ⟨0x010, 1, 0, 3, 1, .ro, (fun _ _ => 0), id⟩,
  ⟨0x010, 1, 0, 4, 1, .ro, (fun _ _ => 0), id⟩,
  ⟨0x010, 1, 0, 5, 1, .ro, (fun _ _ => 0), id⟩,
  ⟨0x010, 1, 0, 6, 1, .ro, (fun _ _ => 0), id⟩,
  ⟨0x020, 1, 0, 0, 4, .ro, (fun _ _ => 0), id⟩,
  ⟨0x024, 1, 0, 0, 4, .rw, (fun _ _ => 0), id⟩,
  ⟨0x030, 1, 0, 0, 16, .rc, (fun _ _ => 0), id⟩,
  ⟨0x040, 1, 0, 0, 3, .ro, (fun _ _ => 0), id⟩,
  ⟨0x040, 1, 0, 16, 5, .ro, (fun _ _ => 0), id⟩,
  ⟨0x040, 1, 0, 24, 3, .ro, (fun _ _ => 0), id⟩,
  ⟨0x044, 1, 0, 0, 6, .ros, (fun _ _ => 0), id⟩,
  ⟨0x044, 1, 0, 8, 6, .ros, (fun _ _ => 0), id⟩,
  ⟨0x044, 1, 0, 16, 2, .ros, (fun _ _ => 0), id⟩,
  ⟨0x048, 1, 0, 0, 32, .ros, (fun _ _ => 0), id⟩,
  ⟨0x04C, 1, 0, 0, 24, .ros, (fun _ _ => 0), id⟩,
  ⟨0x050, 1, 0, 0, 6, .ro, (fun _ _ => 56), id⟩,
  ⟨0x054, 1, 0, 0, 12, .ro, (fun _ _ => 0), id⟩,
  ⟨0x058, 1, 0, 0, 32, .ro, (fun _ _ => 0), id⟩,
  ⟨0x05C, 1, 0, 0, 32, .ro, (fun _ _ => 0), id⟩]

def lockRows1 : List Row := [
  ⟨0x060, 1, 0, 0, 4, .wo, (fun _ _ => 0), id⟩,
  ⟨0x064, 1, 0, 12, 12, .rw, (fun _ _ => 3840), (fun v => clampR 3840 3903 v)⟩,
  ⟨0x068, 1, 0, 0, 13, .rw, (fun _ _ => 328), (fun v => clampR 1 4096 v)⟩,
  ⟨0x06C, 1, 0, 0, 2, .ro, (fun _ _ => 0), id⟩,
  ⟨0x06C, 1, 0, 4, 4, .ro, (fun _ _ => 0), id⟩,
  ⟨0x06C, 1, 0, 8, 1, .ro, (fun _ _ => 0), id⟩,
  ⟨0x070, 1, 0, 0, 3, .ro, (fun _ _ => 0), id⟩,
  ⟨0x074, 1, 0, 0, 7, .ro, (fun _ _ => 0), id⟩,
  ⟨0x078, 1, 0, 0, 4, .ro, (fun _ _ => 0), id⟩,
  ⟨0x078, 1, 0, 8, 8, .ro, (fun _ _ => 0), id⟩,
  ⟨0x078, 1, 0, 16, 8, .ro, (fun _ _ => 0), id⟩,
  ⟨0x078, 1, 0, 24, 8, .ro, (fun _ _ => 0), id⟩,
  ⟨0x080, 1, 0, 0, 32, .ro, (fun _ _ => 0), id⟩,
  ⟨0x084, 1, 0, 0, 32, .ro, (fun _ _ => 0), id⟩,
  ⟨0x100, 25, 4, 0, 32, .ro, (fun _ _ => 0), id⟩]

def lockRows : List Row := lockRows0 ++ lockRows1

def updateRows0 : List Row := [
  ⟨0x010, 1, 0, 0, 1, .ro, (fun _ _ => 0), id⟩,
  ⟨0x010, 1, 0, 1, 1, .ro, (fun _ _ => 0), id⟩,
  ⟨0x020, 1, 0, 0, 4, .ro, (fun _ _ => 0), id⟩,
  ⟨0x024, 1, 0, 0, 4, .rw, (fun _ _ => 0), id⟩,
  ⟨0x030, 1, 0, 0, 16, .rc, (fun _ _ => 0), id⟩,
  ⟨0x040, 1, 0, 0, 4, .wo, (fun _ _ => 0), id⟩,
  ⟨0x040, 1, 0, 8, 1, .wo, (fun _ _ => 0), id⟩,
  ⟨0x044, 1, 0, 12, 12, .rw, (fun _ _ => 3840), (fun v => clampR 3840 3903 v)⟩,
  ⟨0x048, 1, 0, 0, 2, .ro, (fun _ _ => 0), id⟩,
  ⟨0x048, 1, 0, 4, 4, .ro, (fun _ _ => 0), id⟩,
  ⟨0x04C, 1, 0, 0, 6, .ro, (fun _ _ => 0), id⟩,
  ⟨0x04C, 1, 0, 8, 6, .ro, (fun _ _ => 0), id⟩,
  ⟨0x04C, 1, 0, 16, 3, .ro, (fun _ _ => 0), id⟩,
  ⟨0x050, 1, 0, 0, 6, .ro, (fun _ _ => 0), id⟩,
  ⟨0x050, 1, 0, 8, 6, .ro, (fun _ _ => 0), id⟩,
  ⟨0x050, 1, 0, 16, 2, .ro, (fun _ _ => 0), id⟩,
  ⟨0x054, 1, 0, 0, 12, .rw, (fun _ _ => 600), (fun v => clampR 60 3600 v)⟩,
  ⟨0x058, 1, 0, 0, 8, .ro, (fun _ _ => 0), id⟩,
  ⟨0x058, 1, 0, 8, 8, .ro, (fun _ _ => 0), id⟩,
  ⟨0x058, 1, 0, 16, 1, .ro, (fun _ _ => 0), id⟩]

def updateRows1 : List Row := [
  ⟨0x05C, 1, 0, 0, 2, .ro, (fun _ _ => 0), id⟩,
  ⟨0x05C, 1, 0, 4, 4, .ro, (fun _ _ => 0), id⟩,
  ⟨0x080, 6, 8, 0, 32, .ro, (fun _ _ => 0), id⟩,
  ⟨0x084, 6, 8, 0, 16, .ro, (fun _ _ => 0), id⟩,
  ⟨0x084, 6, 8, 16, 16, .ro, (fun _ _ => 0), id⟩]

def updateRows : List Row := updateRows0 ++ updateRows1

def storeRows0 : List Row := [
  ⟨0x010, 1, 0, 0, 1, .ro, (fun _ _ => 0), id⟩,
  ⟨0x010, 1, 0, 1, 1, .ro, (fun _ _ => 0), id⟩,
  ⟨0x010, 1, 0, 2, 1, .ro, (fun _ _ => 0), id⟩,
  ⟨0x020, 1, 0, 0, 6, .ro, (fun _ _ => 0), id⟩,
  ⟨0x024, 1, 0, 0, 6, .rw, (fun _ _ => 0), id⟩,
  ⟨0x030, 1, 0, 0, 16, .rc, (fun _ _ => 0), id⟩,
  ⟨0x040, 1, 0, 0, 4, .rw, (fun _ _ => 14), (fun v => (if v = 15 then 14 else v))⟩,
  ⟨0x044, 1, 0, 0, 23, .rw, (fun _ _ => 0), id⟩,
  ⟨0x048, 1, 0, 0, 7, .rw, (fun _ _ => 1), (fun v => clampR 1 64 v)⟩,
  ⟨0x04C, 1, 0, 12, 12, .rw, (fun _ _ => 3840), (fun v => clampR 3840 3903 v)⟩,
  ⟨0x050, 1, 0, 0, 2, .wo, (fun _ _ => 0), id⟩,
  ⟨0x054, 1, 0, 0, 2, .ro, (fun _ _ => 0), id⟩,
  ⟨0x054, 1, 0, 2, 4, .ro, (fun _ _ => 0), id⟩,
  ⟨0x054, 1, 0, 8, 7, .ro, (fun _ _ => 0), id⟩,
  ⟨0x058, 1, 0, 0, 23, .ro, (fun _ _ => 0), id⟩,
  ⟨0x05C, 1, 0, 0, 12, .ro, (fun _ _ => 0), id⟩,
  ⟨0x080, 2, 32, 0, 1, .ro, (fun _ _ => 0), id⟩,
  ⟨0x080, 2, 32, 1, 1, .ro, (fun _ _ => 0), id⟩,
  ⟨0x080, 2, 32, 2, 1, .ro, (fun _ _ => 0), id⟩,
  ⟨0x084, 2, 32, 0, 13, .ro, (fun _ _ => 0), id⟩]

def storeRows1 : List Row := [
  ⟨0x084, 2, 32, 16, 13, .ro, (fun _ _ => 0), id⟩,
  ⟨0x088, 2, 32, 0, 16, .ro, (fun _ _ => 0), id⟩,
  ⟨0x088, 2, 32, 16, 16, .ro, (fun _ _ => 0), id⟩,
  ⟨0x08C, 2, 32, 0, 15, .ro, (fun _ _ => 0), id⟩,
  ⟨0x08C, 2, 32, 16, 16, .ro, (fun _ _ => 0), id⟩,
  ⟨0x090, 2, 32, 0, 32, .rc, (fun _ _ => 0), id⟩,
  ⟨0x094, 2, 32, 0, 6, .rc, (fun _ _ => 0), id⟩,
  ⟨0x098, 2, 32, 0, 32, .rc, (fun _ _ => 0), id⟩,
  ⟨0x100, 15, 4, 0, 23, .ro, (fun _ _ => 0), id⟩,
  ⟨0x100, 15, 4, 24, 2, .ro, (fun _ _ => 0), id⟩,
  ⟨0x100, 15, 4, 26, 1, .ro, (fun _ _ => 1), id⟩,
  ⟨0x140, 1, 0, 0, 16, .ro, (fun _ _ => 0), id⟩,
  ⟨0x140, 1, 0, 16, 1, .ro, (fun _ _ => 0), id⟩,
  ⟨0x140, 1, 0, 17, 1, .ro, (fun _ _ => 0), id⟩,
  ⟨0x144, 1, 0, 0, 5, .ro, (fun _ _ => 14), id⟩,
  ⟨0x144, 1, 0, 8, 6, .ro, (fun _ _ => 24), id⟩]

def storeRows : List Row := storeRows0 ++ storeRows1

def ledgerRows0 : List Row := [
  ⟨0x010, 1, 0, 0, 1, .ro, (fun _ _ => 0), id⟩,
  ⟨0x010, 1, 0, 1, 1, .ro, (fun _ _ => 0), id⟩,
  ⟨0x010, 1, 0, 2, 1, .ro, (fun _ _ => 0), id⟩,
  ⟨0x020, 1, 0, 0, 6, .ro, (fun _ _ => 0), id⟩,
  ⟨0x024, 1, 0, 0, 6, .rw, (fun _ _ => 0), id⟩,
  ⟨0x030, 1, 0, 0, 16, .rc, (fun _ _ => 0), id⟩,
  ⟨0x040, 1, 0, 0, 1, .rw, (fun _ _ => 0), id⟩,
  ⟨0x040, 1, 0, 8, 3, .rw, (fun _ _ => 6), id⟩,
  ⟨0x040, 1, 0, 16, 8, .rw, (fun _ _ => 10), (fun v => clampR 1 120 v)⟩,
  ⟨0x044, 1, 0, 0, 1, .wo, (fun _ _ => 0), id⟩,
  ⟨0x044, 1, 0, 1, 1, .wo, (fun _ _ => 0), id⟩,
  ⟨0x044, 1, 0, 2, 1, .wo, (fun _ _ => 0), id⟩,
  ⟨0x044, 1, 0, 3, 1, .wo, (fun _ _ => 0), id⟩,
  ⟨0x044, 1, 0, 4, 1, .wo, (fun _ _ => 0), id⟩,
  ⟨0x044, 1, 0, 5, 1, .wo, (fun _ _ => 0), id⟩,
  ⟨0x044, 1, 0, 6, 1, .wo, (fun _ _ => 0), id⟩,
  ⟨0x048, 1, 0, 0, 2, .ro, (fun _ _ => 0), id⟩,
  ⟨0x04C, 1, 0, 0, 32, .ro, (fun _ _ => 0), id⟩,
  ⟨0x050, 1, 0, 0, 32, .ro, (fun _ _ => 0), id⟩,
  ⟨0x054, 1, 0, 0, 32, .ro, (fun _ _ => 0), id⟩]

def ledgerRows1 : List Row := [
  ⟨0x058, 1, 0, 0, 16, .ro, (fun _ _ => 0), id⟩,
  ⟨0x05C, 1, 0, 0, 32, .ro, (fun _ _ => 0), id⟩,
  ⟨0x060, 1, 0, 0, 24, .ro, (fun _ _ => 0), id⟩,
  ⟨0x064, 1, 0, 0, 24, .rc, (fun _ _ => 0), id⟩,
  ⟨0x064, 1, 0, 24, 3, .rc, (fun _ _ => 0), id⟩,
  ⟨0x080, 1, 0, 0, 32, .rw, (fun _ _ => 0), id⟩,
  ⟨0x084, 1, 0, 0, 1, .ro, (fun _ _ => 0), id⟩,
  ⟨0x084, 1, 0, 1, 1, .ro, (fun _ _ => 0), id⟩,
  ⟨0x084, 1, 0, 2, 1, .ro, (fun _ _ => 0), id⟩,
  ⟨0x084, 1, 0, 3, 1, .ro, (fun _ _ => 0), id⟩,
  ⟨0x084, 1, 0, 4, 1, .ro, (fun _ _ => 0), id⟩,
  ⟨0x088, 1, 0, 0, 32, .ro, (fun _ _ => 0), id⟩,
  ⟨0x0A0, 8, 4, 0, 32, .ro, (fun _ _ => 0), id⟩,
  ⟨0x0C0, 8, 4, 0, 32, .rc, (fun _ _ => 0), id⟩,
  ⟨0x0E0, 8, 4, 0, 32, .rc, (fun _ _ => 0), id⟩,
  ⟨0x100, 1, 0, 0, 16, .rw, (fun _ _ => 26112), (fun v => clampR 26112 65535 v)⟩,
  ⟨0x100, 1, 0, 16, 3, .rw, (fun _ _ => 0), id⟩,
  ⟨0x100, 1, 0, 24, 5, .rw, (fun _ _ => 0), id⟩,
  ⟨0x100, 1, 0, 31, 1, .rw, (fun _ _ => 1), id⟩,
  ⟨0x104, 4, 4, 0, 32, .rw, (fun _ _ => 0), id⟩]

def ledgerRows2 : List Row := [
  ⟨0x114, 1, 0, 0, 1, .wo, (fun _ _ => 0), id⟩,
  ⟨0x13C, 1, 0, 0, 12, .rw, (fun _ _ => 0), id⟩,
  ⟨0x140, 1, 0, 0, 16, .rw, (fun _ _ => 0), id⟩,
  ⟨0x140, 1, 0, 31, 1, .rw, (fun _ _ => 0), id⟩,
  ⟨0x144, 1, 0, 0, 10, .rw, (fun _ _ => 10), (fun v => clampR 1 1000 v)⟩,
  ⟨0x144, 1, 0, 16, 10, .rw, (fun _ _ => 20), (fun v => clampR 1 1000 v)⟩,
  ⟨0x148, 1, 0, 0, 32, .rc, (fun _ _ => 0), id⟩,
  ⟨0x150, 1, 0, 0, 10, .rw, (fun _ _ => 100), (fun v => clampR 1 1000 v)⟩,
  ⟨0x150, 1, 0, 16, 10, .rw, (fun _ _ => 200), (fun v => clampR 1 1000 v)⟩,
  ⟨0x154, 1, 0, 0, 32, .rc, (fun _ _ => 0), id⟩]

def ledgerRows : List Row := ledgerRows0 ++ ledgerRows1 ++ ledgerRows2

def assayRows0 : List Row := [
  ⟨0x00C, 1, 0, 0, 1, .rw, (fun _ _ => 1), id⟩,
  ⟨0x010, 1, 0, 0, 3, .ro, (fun _ _ => 7), id⟩,
  ⟨0x010, 1, 0, 4, 2, .ro, (fun _ _ => 3), id⟩,
  ⟨0x020, 1, 0, 0, 4, .ro, (fun _ _ => 0), id⟩,
  ⟨0x024, 1, 0, 0, 4, .rw, (fun _ _ => 0), id⟩,
  ⟨0x030, 1, 0, 0, 16, .rc, (fun _ _ => 0), id⟩,
  ⟨0x040, 1, 0, 0, 11, .rw, (fun _ _ => 200), (fun v => clampR 20 2000 v)⟩,
  ⟨0x040, 1, 0, 16, 11, .rw, (fun _ _ => 100), id⟩,
  ⟨0x050, 3, 4, 0, 16, .ro, (fun _ _ => 0), id⟩,
  ⟨0x060, 3, 4, 0, 16, .rc, (fun _ _ => 0), id⟩,
  ⟨0x070, 4, 4, 0, 8, .rc, (fun _ _ => 0), id⟩,
  ⟨0x070, 4, 4, 8, 8, .rc, (fun _ _ => 0), id⟩,
  ⟨0x070, 4, 4, 16, 11, .rc, (fun _ _ => 0), id⟩,
  ⟨0x080, 4, 4, 0, 32, .rc, (fun _ _ => 0), id⟩,
  ⟨0x100, 1, 0, 0, 2, .ro, (fun _ _ => 3), id⟩,
  ⟨0x100, 1, 0, 2, 2, .ro, (fun _ _ => 0), id⟩,
  ⟨0x100, 1, 0, 4, 4, .ro, (fun _ _ => 0), id⟩,
  ⟨0x100, 1, 0, 8, 1, .ro, (fun _ _ => 0), id⟩,
  ⟨0x100, 1, 0, 9, 1, .ro, (fun _ _ => 0), id⟩,
  ⟨0x100, 1, 0, 10, 1, .ro, (fun _ _ => 0), id⟩]

def assayRows1 : List Row := [
  ⟨0x104, 1, 0, 0, 16, .ro, (fun _ _ => 0), id⟩,
  ⟨0x104, 1, 0, 16, 1, .ro, (fun _ _ => 0), id⟩,
  ⟨0x108, 1, 0, 0, 32, .ro, (fun _ _ => 0), id⟩,
  ⟨0x10C, 1, 0, 0, 4, .ro, (fun _ _ => 0), id⟩,
  ⟨0x110, 1, 0, 0, 32, .ro, (fun _ _ => 0), id⟩,
  ⟨0x114, 1, 0, 0, 32, .ro, (fun _ _ => 0), id⟩,
  ⟨0x118, 1, 0, 0, 32, .ro, (fun _ _ => 0), id⟩,
  ⟨0x11C, 1, 0, 0, 32, .ro, (fun _ _ => 0), id⟩,
  ⟨0x120, 1, 0, 0, 32, .ro, (fun _ _ => 0), id⟩,
  ⟨0x124, 1, 0, 0, 32, .ro, (fun _ _ => 0), id⟩,
  ⟨0x140, 4, 16, 0, 32, .ro, (fun _ _ => 0), id⟩,
  ⟨0x144, 4, 16, 0, 32, .ro, (fun _ _ => 0), id⟩,
  ⟨0x148, 4, 16, 0, 32, .ro, (fun _ _ => 0), id⟩,
  ⟨0x14C, 4, 16, 0, 32, .ro, (fun _ _ => 0), id⟩]

def assayRows : List Row := assayRows0 ++ assayRows1

def lanemgrRows0 : List Row := [
  ⟨0x010, 1, 0, 0, 3, .ro, (fun _ _ => 7), id⟩,
  ⟨0x020, 1, 0, 0, 6, .ro, (fun _ _ => 0), id⟩,
  ⟨0x024, 1, 0, 0, 6, .rw, (fun _ _ => 0), id⟩,
  ⟨0x030, 1, 0, 0, 16, .rc, (fun _ _ => 0), id⟩,
  ⟨0x040, 1, 0, 0, 3, .ro, (fun _ _ => 1), id⟩,
  ⟨0x040, 1, 0, 4, 3, .ro, (fun _ _ => 1), id⟩,
  ⟨0x040, 1, 0, 8, 3, .ro, (fun _ _ => 1), id⟩,
  ⟨0x040, 1, 0, 16, 1, .ro, (fun _ _ => 0), id⟩,
  ⟨0x044, 1, 0, 0, 2, .wo, (fun _ _ => 0), id⟩,
  ⟨0x044, 1, 0, 4, 4, .wo, (fun _ _ => 0), id⟩,
  ⟨0x048, 1, 0, 0, 4, .ro, (fun _ _ => 0), id⟩,
  ⟨0x050, 3, 4, 0, 4, .ro, (fun _ _ => 0), id⟩,
  ⟨0x050, 3, 4, 4, 2, .ro, (fun _ _ => 0), id⟩,
  ⟨0x050, 3, 4, 8, 4, .ro, (fun _ _ => 0), id⟩,
  ⟨0x060, 1, 0, 0, 4, .rw, (fun _ _ => 3), (fun v => clampR 1 12 v)⟩,
  ⟨0x060, 1, 0, 4, 8, .rw, (fun _ _ => 200), (fun v => clampR 20 200 v)⟩,
  ⟨0x060, 1, 0, 12, 3, .rw, (fun _ _ => 0), id⟩,
  ⟨0x060, 1, 0, 16, 5, .rw, (fun _ _ => 16), (fun v => clampR 2 31 v)⟩,
  ⟨0x060, 1, 0, 24, 4, .rw, (fun _ _ => 3), (fun v => clampR 1 15 v)⟩,
  ⟨0x064, 1, 0, 0, 3, .ro, (fun _ _ => 0), id⟩]

def lanemgrRows1 : List Row := [
  ⟨0x064, 1, 0, 4, 5, .ro, (fun _ _ => 0), id⟩,
  ⟨0x068, 1, 0, 0, 21, .ro, (fun _ _ => 0), id⟩,
  ⟨0x06C, 1, 0, 0, 12, .ro, (fun _ _ => 0), id⟩,
  ⟨0x070, 1, 0, 0, 12, .ro, (fun _ _ => 0), id⟩,
  ⟨0x078, 1, 0, 0, 9, .rw, (fun _ _ => 60), (fun v => clampR 1 480 v)⟩,
  ⟨0x078, 1, 0, 16, 1, .wo, (fun _ _ => 0), id⟩,
  ⟨0x07C, 1, 0, 0, 16, .ro, (fun _ _ => 0), id⟩,
  ⟨0x07C, 1, 0, 16, 1, .ro, (fun _ _ => 0), id⟩,
  ⟨0x080, 3, 4, 0, 32, .rc, (fun _ _ => 0), id⟩,
  ⟨0x090, 1, 0, 0, 4, .ro, (fun _ _ => 0), id⟩,
  ⟨0x094, 1, 0, 0, 2, .ro, (fun _ _ => 3), id⟩,
  ⟨0x094, 1, 0, 4, 1, .ro, (fun _ _ => 0), id⟩]

def lanemgrRows : List Row := lanemgrRows0 ++ lanemgrRows1

def courierRows0 : List Row := [
  ⟨0x010, 1, 0, 0, 1, .ro, (fun _ _ => 0), id⟩,
  ⟨0x020, 1, 0, 0, 3, .ro, (fun _ _ => 0), id⟩,
  ⟨0x024, 1, 0, 0, 3, .rw, (fun _ _ => 0), id⟩,
  ⟨0x030, 1, 0, 0, 16, .rc, (fun _ _ => 0), id⟩,
  ⟨0x040, 1, 0, 0, 16, .rw, (fun _ _ => 4096), (fun v => clampR 512 65535 v)⟩,
  ⟨0x044, 1, 0, 0, 6, .wo, (fun _ _ => 0), id⟩,
  ⟨0x050, 4, 4, 0, 9, .ro, (fun _ _ => 0), id⟩,
  ⟨0x050, 4, 4, 12, 1, .ro, (fun _ _ => 0), id⟩,
  ⟨0x050, 4, 4, 13, 1, .ro, (fun _ _ => 0), id⟩,
  ⟨0x060, 4, 8, 0, 32, .ro, (fun _ _ => 0), id⟩,
  ⟨0x064, 4, 8, 0, 32, .ro, (fun _ _ => 0), id⟩,
  ⟨0x080, 4, 8, 0, 32, .ro, (fun _ _ => 0), id⟩,
  ⟨0x084, 4, 8, 0, 32, .ro, (fun _ _ => 0), id⟩,
  ⟨0x0A0, 4, 4, 0, 9, .rc, (fun _ _ => 0), id⟩,
  ⟨0x0B0, 4, 4, 0, 32, .rc, (fun _ _ => 0), id⟩,
  ⟨0x0C0, 1, 0, 0, 32, .rc, (fun _ _ => 0), id⟩,
  ⟨0x400, 320, 4, 0, 2, .rw, (fun _ _ => 0), id⟩,
  ⟨0x400, 320, 4, 2, 1, .rw, (fun _ _ => 0), id⟩,
  ⟨0x400, 320, 4, 3, 4, .rw, (fun _ _ => 0), id⟩,
  ⟨0x400, 320, 4, 8, 2, .rw, (fun _ _ => 0), id⟩]

def courierRows1 : List Row := [
  ⟨0x400, 320, 4, 10, 1, .rw, (fun _ _ => 0), id⟩,
  ⟨0x400, 320, 4, 11, 4, .rw, (fun _ _ => 0), id⟩,
  ⟨0x400, 320, 4, 16, 2, .rw, (fun _ _ => 0), id⟩,
  ⟨0x400, 320, 4, 18, 1, .rw, (fun _ _ => 0), id⟩,
  ⟨0x400, 320, 4, 19, 4, .rw, (fun _ _ => 0), id⟩,
  ⟨0x400, 320, 4, 24, 2, .rw, (fun _ _ => 0), id⟩,
  ⟨0x400, 320, 4, 26, 1, .rw, (fun _ _ => 0), id⟩,
  ⟨0x400, 320, 4, 27, 4, .rw, (fun _ _ => 0), id⟩]

def courierRows : List Row := courierRows0 ++ courierRows1

def cycleRows0 : List Row := [
  ⟨0x00C, 1, 0, 0, 1, .rw, (fun _ _ => 0), id⟩,
  ⟨0x010, 1, 0, 0, 1, .ro, (fun _ _ => 0), id⟩,
  ⟨0x020, 1, 0, 0, 3, .ro, (fun _ _ => 0), id⟩,
  ⟨0x024, 1, 0, 0, 3, .rw, (fun _ _ => 0), id⟩,
  ⟨0x030, 1, 0, 0, 16, .rc, (fun _ _ => 0), id⟩,
  ⟨0x040, 1, 0, 0, 14, .rw, (fun _ _ => 100), (fun v => clampR 10 10000 v)⟩,
  ⟨0x044, 1, 0, 0, 2, .wo, (fun _ _ => 0), id⟩,
  ⟨0x048, 1, 0, 0, 2, .ro, (fun _ _ => 0), id⟩,
  ⟨0x048, 1, 0, 4, 4, .ro, (fun _ _ => 0), id⟩,
  ⟨0x050, 1, 0, 0, 32, .ro, (fun _ _ => 0), id⟩,
  ⟨0x054, 1, 0, 0, 32, .ro, (fun _ _ => 0), id⟩,
  ⟨0x080, 8, 16, 0, 11, .rw, (fun _ _ => 1), (fun v => clampR 1 1024 v)⟩,
  ⟨0x080, 8, 16, 11, 10, .rw, (fun _ _ => 0), id⟩,
  ⟨0x080, 8, 16, 21, 1, .rw, (fun _ _ => 0), id⟩,
  ⟨0x084, 8, 16, 0, 10, .rw, (fun _ _ => 50), (fun v => clampR 5 1000 v)⟩,
  ⟨0x088, 8, 16, 0, 4, .rw, (fun _ _ => 3), (fun v => clampR 1 15 v)⟩,
  ⟨0x088, 8, 16, 4, 2, .rw, (fun _ _ => 0), id⟩,
  ⟨0x08C, 8, 16, 0, 32, .rw, (fun _ _ => 0), id⟩,
  ⟨0x100, 8, 4, 0, 32, .wo, (fun _ _ => 0), id⟩,
  ⟨0x120, 8, 4, 0, 32, .ro, (fun _ _ => 0), id⟩]

def cycleRows1 : List Row := [
  ⟨0x140, 8, 4, 0, 8, .ro, (fun _ _ => 0), id⟩,
  ⟨0x140, 8, 4, 8, 1, .ro, (fun _ _ => 0), id⟩,
  ⟨0x140, 8, 4, 9, 1, .ro, (fun _ _ => 0), id⟩,
  ⟨0x160, 8, 4, 0, 32, .rc, (fun _ _ => 0), id⟩,
  ⟨0x180, 8, 4, 0, 32, .ro, (fun _ _ => 0), id⟩,
  ⟨0x1A0, 1, 0, 0, 3, .ro, (fun _ _ => 0), id⟩,
  ⟨0x1A0, 1, 0, 31, 1, .ro, (fun _ _ => 0), id⟩,
  ⟨0x1A4, 1, 0, 0, 32, .ro, (fun _ _ => 0), id⟩,
  ⟨0x200, 32, 4, 0, 2, .ro, (fun _ _ => 0), id⟩,
  ⟨0x200, 32, 4, 2, 1, .ro, (fun _ _ => 0), id⟩,
  ⟨0x200, 32, 4, 3, 1, .ro, (fun _ _ => 0), id⟩,
  ⟨0x200, 32, 4, 4, 10, .ro, (fun _ _ => 0), id⟩,
  ⟨0x200, 32, 4, 14, 1, .ro, (fun _ _ => 0), id⟩,
  ⟨0x200, 32, 4, 15, 1, .ro, (fun _ _ => 0), id⟩]

def cycleRows : List Row := cycleRows0 ++ cycleRows1

def dimgRows0 : List Row := [
  ⟨0x010, 1, 0, 0, 2, .ro, (fun _ _ => 0), id⟩,
  ⟨0x020, 1, 0, 0, 4, .ro, (fun _ _ => 0), id⟩,
  ⟨0x024, 1, 0, 0, 4, .rw, (fun _ _ => 0), id⟩,
  ⟨0x030, 1, 0, 0, 16, .rc, (fun _ _ => 0), id⟩,
  ⟨0x040, 1, 0, 0, 1, .wo, (fun _ _ => 0), id⟩,
  ⟨0x044, 1, 0, 0, 16, .ro, (fun _ _ => 0), id⟩,
  ⟨0x044, 1, 0, 16, 4, .ro, (fun _ _ => 0), id⟩,
  ⟨0x048, 1, 0, 0, 17, .ro, (fun _ _ => 0), id⟩,
  ⟨0x04C, 1, 0, 0, 22, .ro, (fun _ _ => 0), id⟩,
  ⟨0x050, 1, 0, 0, 18, .ro, (fun _ _ => 0), id⟩,
  ⟨0x050, 1, 0, 24, 1, .ro, (fun _ _ => 0), id⟩,
  ⟨0x060, 1, 0, 0, 16, .ro, (fun _ _ => 0), id⟩,
  ⟨0x060, 1, 0, 16, 16, .ro, (fun _ _ => 0), id⟩,
  ⟨0x064, 1, 0, 0, 32, .rc, (fun _ _ => 0), id⟩,
  ⟨0x068, 1, 0, 0, 16, .ro, (fun _ _ => 0), id⟩,
  ⟨0x06C, 1, 0, 0, 32, .rc, (fun _ _ => 0), id⟩,
  ⟨0x070, 1, 0, 0, 9, .rw, (fun _ _ => 1), (fun v => clampR 1 256 v)⟩,
  ⟨0x070, 1, 0, 12, 3, .rw, (fun _ _ => 0), id⟩,
  ⟨0x074, 1, 0, 0, 1, .wo, (fun _ _ => 0), id⟩,
  ⟨0x074, 1, 0, 1, 1, .wo, (fun _ _ => 0), id⟩]

def dimgRows1 : List Row := [
  ⟨0x078, 1, 0, 0, 2, .ro, (fun _ _ => 0), id⟩,
  ⟨0x078, 1, 0, 4, 8, .ro, (fun _ _ => 0), id⟩,
  ⟨0x078, 1, 0, 12, 4, .ro, (fun _ _ => 0), id⟩]

def dimgRows : List Row := dimgRows0 ++ dimgRows1

def tallyRows : List Row := [
  ⟨0x010, 1, 0, 0, 16, .ro, (fun _ _ => 0), id⟩,
  ⟨0x020, 1, 0, 0, 3, .ro, (fun _ _ => 0), id⟩,
  ⟨0x024, 1, 0, 0, 3, .rw, (fun _ _ => 0), id⟩,
  ⟨0x030, 1, 0, 0, 16, .rc, (fun _ _ => 0), id⟩,
  ⟨0x040, 1, 0, 0, 16, .rw, (fun _ _ => 1000), (fun v => clampR 64 65535 v)⟩,
  ⟨0x044, 1, 0, 0, 32, .rc, (fun _ _ => 0), id⟩,
  ⟨0x048, 1, 0, 0, 13, .ro, (fun _ _ => 0), id⟩,
  ⟨0x048, 1, 0, 13, 11, .ro, (fun _ _ => 0), id⟩,
  ⟨0x04C, 1, 0, 0, 24, .rc, (fun _ _ => 0), id⟩,
  ⟨0x050, 1, 0, 0, 32, .rc, (fun _ _ => 0), id⟩,
  ⟨0x080, 15, 4, 0, 1, .rw, (fun _ i => if i = 0 ∨ i = 3 then 1 else 0), id⟩,
  ⟨0x080, 15, 4, 1, 8, .rw, (fun _ _ => 4), (fun v => clampR 1 255 v)⟩,
  ⟨0x0C0, 16, 4, 0, 16, .rc, (fun _ _ => 0), id⟩,
  ⟨0x100, 16, 4, 0, 16, .rc, (fun _ _ => 0), id⟩,
  ⟨0x140, 15, 4, 0, 32, .rc, (fun _ _ => 0), id⟩]

def qmgrRows0 : List Row := [
  ⟨0x010, 1, 0, 0, 11, .ro, (fun _ _ => 0), id⟩,
  ⟨0x010, 1, 0, 11, 11, .ro, (fun _ _ => 0), id⟩,
  ⟨0x020, 1, 0, 0, 4, .ro, (fun _ _ => 0), id⟩,
  ⟨0x024, 1, 0, 0, 4, .rw, (fun _ _ => 0), id⟩,
  ⟨0x030, 1, 0, 0, 16, .rc, (fun _ _ => 0), id⟩,
  ⟨0x040, 1, 0, 0, 10, .rw, (fun _ _ => 0), id⟩,
  ⟨0x040, 1, 0, 16, 8, .rw, (fun _ _ => 0), id⟩,
  ⟨0x044, 1, 0, 0, 32, .wo, (fun _ _ => 0), id⟩,
  ⟨0x048, 4, 4, 0, 32, .wo, (fun _ _ => 0), id⟩,
  ⟨0x058, 1, 0, 0, 32, .ro, (fun _ _ => 0), id⟩,
  ⟨0x05C, 3, 4, 0, 32, .ro, (fun _ _ => 0), id⟩,
  ⟨0x068, 1, 0, 0, 5, .ro, (fun _ _ => 0), id⟩,
  ⟨0x068, 1, 0, 5, 1, .ro, (fun _ _ => 0), id⟩,
  ⟨0x068, 1, 0, 6, 1, .ro, (fun _ _ => 0), id⟩,
  ⟨0x068, 1, 0, 7, 1, .ro, (fun _ _ => 0), id⟩,
  ⟨0x06C, 1, 0, 0, 22, .ro, (fun _ _ => 0), id⟩,
  ⟨0x06C, 1, 0, 22, 1, .ro, (fun _ _ => 0), id⟩,
  ⟨0x06C, 1, 0, 23, 1, .ro, (fun _ _ => 0), id⟩,
  ⟨0x06C, 1, 0, 24, 1, .ro, (fun _ _ => 0), id⟩,
  ⟨0x06C, 1, 0, 25, 1, .ro, (fun _ _ => 0), id⟩]

def qmgrRows1 : List Row := [
  ⟨0x06C, 1, 0, 26, 1, .ro, (fun _ _ => 0), id⟩,
  ⟨0x06C, 1, 0, 27, 1, .ro, (fun _ _ => 0), id⟩,
  ⟨0x070, 1, 0, 0, 22, .ro, (fun _ _ => 0), id⟩,
  ⟨0x074, 1, 0, 0, 1, .wo, (fun _ _ => 0), id⟩,
  ⟨0x080, 1, 0, 0, 24, .rw, (fun _ _ => 0), id⟩,
  ⟨0x084, 1, 0, 0, 8, .rw, (fun _ _ => 0), id⟩,
  ⟨0x088, 4, 4, 0, 32, .rw, (fun _ _ => 0), id⟩,
  ⟨0x100, 1, 0, 0, 10, .rw, (fun _ _ => 0), id⟩,
  ⟨0x104, 1, 0, 0, 18, .rw, (fun _ _ => 65536), (fun v => clampR 65536 229375 v)⟩,
  ⟨0x108, 1, 0, 0, 18, .rw, (fun _ _ => 1), (fun v => clampR 1 262143 v)⟩,
  ⟨0x10C, 1, 0, 0, 1, .rw, (fun _ _ => 0), id⟩,
  ⟨0x10C, 1, 0, 1, 1, .rw, (fun _ _ => 0), id⟩,
  ⟨0x110, 1, 0, 0, 16, .rw, (fun _ _ => 65535), (fun v => clampR 1 65535 v)⟩,
  ⟨0x114, 1, 0, 0, 2, .rw, (fun _ _ => 0), id⟩,
  ⟨0x114, 1, 0, 2, 22, .rw, (fun _ _ => 1), (fun v => clampR 1 4194303 v)⟩,
  ⟨0x118, 1, 0, 0, 1, .wo, (fun _ _ => 0), id⟩,
  ⟨0x118, 1, 0, 1, 1, .wo, (fun _ _ => 0), id⟩,
  ⟨0x11C, 1, 0, 0, 1, .ro, (fun _ _ => 0), id⟩,
  ⟨0x11C, 1, 0, 1, 3, .ro, (fun _ _ => 0), id⟩,
  ⟨0x11C, 1, 0, 4, 10, .ro, (fun _ _ => 0), id⟩]

def qmgrRows2 : List Row := [
  ⟨0x140, 1, 0, 0, 32, .rc, (fun _ _ => 0), id⟩,
  ⟨0x144, 1, 0, 0, 32, .rc, (fun _ _ => 0), id⟩,
  ⟨0x148, 1, 0, 0, 10, .ro, (fun _ _ => 0), id⟩,
  ⟨0x148, 1, 0, 10, 22, .ro, (fun _ _ => 0), id⟩]

def qmgrRows : List Row := qmgrRows0 ++ qmgrRows1 ++ qmgrRows2

def memctlRows0 : List Row := [
  ⟨0x010, 1, 0, 0, 1, .ro, (fun _ _ => 0), id⟩,
  ⟨0x020, 1, 0, 0, 5, .ro, (fun _ _ => 0), id⟩,
  ⟨0x024, 1, 0, 0, 5, .rw, (fun _ _ => 0), id⟩,
  ⟨0x030, 1, 0, 0, 16, .rc, (fun _ _ => 0), id⟩,
  ⟨0x040, 1, 0, 0, 16, .ro, (fun _ _ => 0), id⟩,
  ⟨0x040, 1, 0, 16, 1, .ro, (fun _ _ => 1), id⟩,
  ⟨0x044, 1, 0, 0, 1, .wo, (fun _ _ => 0), id⟩,
  ⟨0x048, 1, 0, 0, 1, .ro, (fun _ _ => 0), id⟩,
  ⟨0x048, 1, 0, 1, 10, .ro, (fun _ _ => 0), id⟩,
  ⟨0x048, 1, 0, 11, 5, .ro, (fun _ _ => 0), id⟩,
  ⟨0x048, 1, 0, 16, 5, .ro, (fun _ _ => 0), id⟩,
  ⟨0x048, 1, 0, 21, 1, .ro, (fun _ _ => 0), id⟩,
  ⟨0x04C, 1, 0, 0, 14, .ro, (fun _ _ => 0), id⟩,
  ⟨0x04C, 1, 0, 14, 1, .ro, (fun _ _ => 0), id⟩,
  ⟨0x04C, 1, 0, 15, 1, .ro, (fun _ _ => 0), id⟩,
  ⟨0x050, 1, 0, 0, 11, .ro, (fun _ _ => 0), id⟩,
  ⟨0x060, 1, 0, 0, 16, .rw, (fun _ _ => 65535), id⟩,
  ⟨0x064, 1, 0, 0, 32, .ro, (fun _ _ => 0), id⟩,
  ⟨0x068, 1, 0, 0, 16, .ro, (fun _ _ => 0), id⟩,
  ⟨0x06C, 1, 0, 0, 24, .ro, (fun _ _ => 0), id⟩]

def memctlRows1 : List Row := [
  ⟨0x0A0, 16, 4, 0, 32, .rc, (fun _ _ => 0), id⟩,
  ⟨0x070, 1, 0, 0, 18, .rw, (fun _ _ => 0), id⟩,
  ⟨0x074, 1, 0, 0, 19, .rw, (fun _ _ => 1), (fun v => clampR 1 524287 v)⟩,
  ⟨0x078, 1, 0, 0, 32, .rw, (fun _ _ => 0), id⟩,
  ⟨0x07C, 1, 0, 0, 32, .rw, (fun _ _ => 0), id⟩,
  ⟨0x080, 1, 0, 0, 1, .wo, (fun _ _ => 0), id⟩,
  ⟨0x084, 1, 0, 0, 2, .ro, (fun _ _ => 0), id⟩,
  ⟨0x084, 1, 0, 4, 2, .ro, (fun _ _ => 0), id⟩,
  ⟨0x088, 1, 0, 0, 19, .ro, (fun _ _ => 0), id⟩]

def memctlRows : List Row := memctlRows0 ++ memctlRows1

def tenRows0 : List Row := [
  ⟨0x00C, 1, 0, 0, 1, .rw, (fun _ _ => 0), id⟩,
  ⟨0x010, 1, 0, 0, 1, .ro, (fun _ _ => 0), id⟩,
  ⟨0x010, 1, 0, 1, 11, .ro, (fun _ _ => 0), id⟩,
  ⟨0x020, 1, 0, 0, 2, .ro, (fun _ _ => 0), id⟩,
  ⟨0x024, 1, 0, 0, 2, .rw, (fun _ _ => 0), id⟩,
  ⟨0x030, 1, 0, 0, 16, .rc, (fun _ _ => 0), id⟩,
  ⟨0x040, 1, 0, 0, 11, .rw, (fun _ _ => 256), (fun v => clampR 16 1024 v)⟩,
  ⟨0x044, 1, 0, 0, 11, .rc, (fun _ _ => 0), id⟩,
  ⟨0x048, 1, 0, 0, 32, .rc, (fun _ _ => 0), id⟩,
  ⟨0x050, 1, 0, 0, 11, .ro, (fun _ _ => 0), id⟩,
  ⟨0x060, 1, 0, 0, 2, .wo, (fun _ _ => 0), id⟩,
  ⟨0x064, 1, 0, 0, 32, .ro, (fun _ _ => 0), id⟩,
  ⟨0x068, 1, 0, 0, 4, .ro, (fun _ _ => 0), id⟩,
  ⟨0x068, 1, 0, 4, 3, .ro, (fun _ _ => 0), id⟩,
  ⟨0x068, 1, 0, 7, 1, .ro, (fun _ _ => 0), id⟩,
  ⟨0x06C, 1, 0, 0, 16, .ro, (fun _ _ => 0), id⟩,
  ⟨0x100, 16, 16, 0, 18, .rw, (fun _ _ => 0), (fun v => clampR 0 229375 v)⟩,
  ⟨0x104, 16, 16, 0, 18, .rw, (fun _ _ => 0), (fun v => clampR 0 229375 v)⟩,
  ⟨0x108, 16, 16, 0, 1, .rw, (fun _ _ => 0), id⟩,
  ⟨0x108, 16, 16, 1, 1, .rw, (fun _ _ => 0), id⟩]

def tenRows1 : List Row := [
  ⟨0x108, 16, 16, 2, 1, .rw, (fun _ _ => 0), id⟩,
  ⟨0x108, 16, 16, 4, 1, .rw, (fun _ _ => 0), id⟩,
  ⟨0x300, 32, 4, 0, 10, .rw, (fun _ _ => 0), id⟩,
  ⟨0x300, 32, 4, 12, 1, .rw, (fun _ _ => 0), id⟩,
  ⟨0x300, 32, 4, 13, 1, .rw, (fun _ _ => 0), id⟩,
  ⟨0x200, 16, 16, 0, 18, .ro, (fun _ _ => 0), id⟩,
  ⟨0x204, 16, 16, 0, 18, .ro, (fun _ _ => 0), id⟩,
  ⟨0x208, 16, 16, 0, 1, .ro, (fun _ _ => 0), id⟩,
  ⟨0x208, 16, 16, 1, 1, .ro, (fun _ _ => 0), id⟩,
  ⟨0x208, 16, 16, 2, 1, .ro, (fun _ _ => 0), id⟩,
  ⟨0x208, 16, 16, 4, 1, .ro, (fun _ _ => 0), id⟩,
  ⟨0x380, 32, 4, 0, 10, .ro, (fun _ _ => 0), id⟩,
  ⟨0x380, 32, 4, 12, 1, .ro, (fun _ _ => 0), id⟩,
  ⟨0x380, 32, 4, 13, 1, .ro, (fun _ _ => 0), id⟩]

def tenRows : List Row := tenRows0 ++ tenRows1

def ethRows0 : List Row := [
  ⟨0x010, 1, 0, 0, 1, .ro, (fun _ _ => 0), id⟩,
  ⟨0x020, 1, 0, 0, 4, .ro, (fun _ _ => 0), id⟩,
  ⟨0x024, 1, 0, 0, 4, .rw, (fun _ _ => 0), id⟩,
  ⟨0x030, 1, 0, 0, 16, .rc, (fun _ _ => 0), id⟩,
  ⟨0x040, 1, 0, 0, 32, .rw, (fun _ _ => 0), id⟩,
  ⟨0x044, 1, 0, 0, 16, .rw, (fun _ _ => 0), id⟩,
  ⟨0x048, 1, 0, 0, 1, .rw, (fun _ _ => 0), id⟩,
  ⟨0x048, 1, 0, 1, 1, .rw, (fun _ _ => 0), id⟩,
  ⟨0x048, 1, 0, 2, 1, .rw, (fun _ _ => 1), id⟩,
  ⟨0x04C, 1, 0, 0, 1, .ro, (fun _ _ => 0), id⟩,
  ⟨0x04C, 1, 0, 1, 1, .ro, (fun _ _ => 0), id⟩,
  ⟨0x04C, 1, 0, 2, 1, .ro, (fun _ _ => 0), id⟩,
  ⟨0x04C, 1, 0, 3, 1, .ro, (fun _ _ => 0), id⟩,
  ⟨0x050, 1, 0, 0, 16, .rc, (fun _ _ => 0), id⟩,
  ⟨0x080, 16, 8, 0, 32, .rw, (fun _ _ => 0), id⟩,
  ⟨0x084, 16, 8, 0, 16, .rw, (fun _ _ => 0), id⟩,
  ⟨0x084, 16, 8, 31, 1, .rw, (fun _ _ => 0), id⟩,
  ⟨0x100, 16, 4, 0, 16, .rw, (fun _ _ => 0), (fun v => (if v = 34997 then 0 else v))⟩,
  ⟨0x100, 16, 4, 16, 10, .rw, (fun _ _ => 0), id⟩,
  ⟨0x100, 16, 4, 31, 1, .rw, (fun _ _ => 0), id⟩]

def ethRows1 : List Row := [
  ⟨0x140, 1, 0, 0, 32, .rc, (fun _ _ => 0), id⟩,
  ⟨0x144, 1, 0, 0, 32, .rc, (fun _ _ => 0), id⟩,
  ⟨0x148, 1, 0, 0, 32, .rc, (fun _ _ => 0), id⟩,
  ⟨0x14C, 1, 0, 0, 32, .rc, (fun _ _ => 0), id⟩,
  ⟨0x150, 1, 0, 0, 32, .rc, (fun _ _ => 0), id⟩,
  ⟨0x154, 1, 0, 0, 32, .rc, (fun _ _ => 0), id⟩,
  ⟨0x158, 1, 0, 0, 32, .rc, (fun _ _ => 0), id⟩,
  ⟨0x15C, 1, 0, 0, 32, .rc, (fun _ _ => 0), id⟩,
  ⟨0x160, 1, 0, 0, 32, .rc, (fun _ _ => 0), id⟩,
  ⟨0x164, 1, 0, 0, 32, .rc, (fun _ _ => 0), id⟩,
  ⟨0x168, 1, 0, 0, 32, .rc, (fun _ _ => 0), id⟩,
  ⟨0x16C, 1, 0, 0, 32, .rc, (fun _ _ => 0), id⟩,
  ⟨0x170, 1, 0, 0, 32, .rc, (fun _ _ => 0), id⟩,
  ⟨0x174, 1, 0, 0, 32, .rc, (fun _ _ => 0), id⟩,
  ⟨0x178, 1, 0, 0, 32, .rc, (fun _ _ => 0), id⟩]

def ethRows : List Row := ethRows0 ++ ethRows1

def mirrorRows0 : List Row := [
  ⟨0x010, 1, 0, 0, 3, .ro, (fun _ _ => 0), id⟩,
  ⟨0x010, 1, 0, 3, 1, .ro, (fun _ _ => 0), id⟩,
  ⟨0x010, 1, 0, 4, 1, .ro, (fun _ _ => 0), id⟩,
  ⟨0x020, 1, 0, 0, 6, .ro, (fun _ _ => 0), id⟩,
  ⟨0x024, 1, 0, 0, 6, .rw, (fun _ _ => 0), id⟩,
  ⟨0x030, 1, 0, 0, 16, .rc, (fun _ _ => 0), id⟩,
  ⟨0x040, 1, 0, 0, 1, .rw, (fun _ _ => 0), id⟩,
  ⟨0x040, 1, 0, 4, 10, .rw, (fun _ _ => 20), (fun v => clampR 1 600 v)⟩,
  ⟨0x040, 1, 0, 16, 2, .rw, (fun _ _ => 3), id⟩,
  ⟨0x044, 1, 0, 0, 18, .rw, (fun _ _ => 16384), (fun v => clampR 2048 131072 v)⟩,
  ⟨0x048, 1, 0, 0, 1, .wo, (fun _ _ => 0), id⟩,
  ⟨0x048, 1, 0, 1, 1, .wo, (fun _ _ => 0), id⟩,
  ⟨0x048, 1, 0, 2, 1, .wo, (fun _ _ => 0), id⟩,
  ⟨0x048, 1, 0, 3, 1, .wo, (fun _ _ => 0), id⟩,
  ⟨0x04C, 1, 0, 0, 3, .ro, (fun _ _ => 0), id⟩,
  ⟨0x050, 1, 0, 0, 32, .ros, (fun _ _ => 0), id⟩,
  ⟨0x054, 1, 0, 0, 16, .ros, (fun _ _ => 0), id⟩,
  ⟨0x058, 1, 0, 0, 3, .ro, (fun _ _ => 0), id⟩,
  ⟨0x058, 1, 0, 3, 1, .ro, (fun _ _ => 0), id⟩,
  ⟨0x058, 1, 0, 4, 1, .ro, (fun _ _ => 0), id⟩]

def mirrorRows1 : List Row := [
  ⟨0x058, 1, 0, 5, 1, .ro, (fun _ _ => 0), id⟩,
  ⟨0x058, 1, 0, 8, 2, .ro, (fun _ _ => 0), id⟩,
  ⟨0x05C, 1, 0, 0, 32, .ro, (fun _ _ => 0), id⟩,
  ⟨0x060, 1, 0, 0, 16, .ro, (fun _ _ => 0), id⟩,
  ⟨0x064, 1, 0, 0, 20, .ro, (fun _ _ => 0), id⟩,
  ⟨0x064, 1, 0, 20, 1, .ro, (fun _ _ => 0), id⟩,
  ⟨0x068, 1, 0, 0, 20, .ro, (fun _ _ => 0), id⟩,
  ⟨0x06C, 1, 0, 0, 3, .ro, (fun _ _ => 0), id⟩,
  ⟨0x06C, 1, 0, 16, 16, .ro, (fun _ _ => 0), id⟩,
  ⟨0x070, 1, 0, 0, 32, .ro, (fun _ _ => 0), id⟩,
  ⟨0x074, 1, 0, 0, 16, .ro, (fun _ _ => 0), id⟩,
  ⟨0x078, 1, 0, 0, 32, .rc, (fun _ _ => 0), id⟩,
  ⟨0x080, 2, 4, 0, 32, .rc, (fun _ _ => 0), id⟩,
  ⟨0x088, 1, 0, 0, 16, .rc, (fun _ _ => 0), id⟩,
  ⟨0x088, 1, 0, 16, 16, .rc, (fun _ _ => 0), id⟩]

def mirrorRows : List Row := mirrorRows0 ++ mirrorRows1

def svcRows0 : List Row := [
  ⟨0x010, 1, 0, 0, 2, .ro, (fun _ _ => 0), id⟩,
  ⟨0x020, 1, 0, 0, 3, .ro, (fun _ _ => 0), id⟩,
  ⟨0x024, 1, 0, 0, 3, .rw, (fun _ _ => 0), id⟩,
  ⟨0x030, 1, 0, 0, 16, .rc, (fun _ _ => 0), id⟩,
  ⟨0x040, 2, 128, 0, 32, .rw, (fun _ _ => 0), id⟩,
  ⟨0x044, 2, 128, 0, 16, .rw, (fun _ _ => 0), id⟩,
  ⟨0x048, 2, 128, 0, 1, .rw, (fun _ _ => 0), id⟩,
  ⟨0x048, 2, 128, 1, 1, .rw, (fun _ _ => 1), id⟩,
  ⟨0x048, 2, 128, 2, 2, .rw, (fun _ _ => 2), (fun v => (if v = 3 then 2 else v))⟩,
  ⟨0x048, 2, 128, 4, 1, .rw, (fun _ _ => 0), id⟩,
  ⟨0x04C, 2, 128, 0, 1, .ro, (fun _ _ => 0), id⟩,
  ⟨0x04C, 2, 128, 1, 2, .ro, (fun _ _ => 0), id⟩,
  ⟨0x050, 2, 128, 0, 10, .rw, (fun _ _ => 0), id⟩,
  ⟨0x050, 2, 128, 31, 1, .rw, (fun _ _ => 0), id⟩,
  ⟨0x054, 2, 128, 0, 10, .rw, (fun _ _ => 0), id⟩,
  ⟨0x054, 2, 128, 31, 1, .rw, (fun _ _ => 0), id⟩,
  ⟨0x060, 2, 128, 0, 32, .rc, (fun _ _ => 0), id⟩,
  ⟨0x064, 2, 128, 0, 32, .rc, (fun _ _ => 0), id⟩,
  ⟨0x068, 2, 128, 0, 32, .rc, (fun _ _ => 0), id⟩,
  ⟨0x06C, 2, 128, 0, 32, .rc, (fun _ _ => 0), id⟩]

def svcRows1 : List Row := [
  ⟨0x070, 2, 128, 0, 32, .rc, (fun _ _ => 0), id⟩]

def svcRows : List Row := svcRows0 ++ svcRows1

def almanacRows0 : List Row := [
  ⟨0x010, 1, 0, 0, 1, .ro, (fun _ _ => 0), id⟩,
  ⟨0x010, 1, 0, 1, 2, .ro, (fun _ _ => 0), id⟩,
  ⟨0x020, 1, 0, 0, 4, .ro, (fun _ _ => 0), id⟩,
  ⟨0x024, 1, 0, 0, 4, .rw, (fun _ _ => 0), id⟩,
  ⟨0x030, 1, 0, 0, 16, .rc, (fun _ _ => 0), id⟩,
  ⟨0x040, 1, 0, 0, 16, .rw, (fun _ _ => 1), (fun v => (if v = 65535 then 65534 else clampR 1 65535 v))⟩,
  ⟨0x044, 1, 0, 0, 15, .rw, (fun _ _ => 1000), (fun v => clampR 125 16000 v)⟩,
  ⟨0x048, 1, 0, 0, 7, .rw, (fun _ _ => 1), (fun v => clampR 1 64 v)⟩,
  ⟨0x04C, 1, 0, 0, 16, .rw, (fun _ _ => 0), id⟩,
  ⟨0x050, 1, 0, 0, 32, .rw, (fun _ _ => 0), id⟩,
  ⟨0x054, 1, 0, 0, 1, .wo, (fun _ _ => 0), id⟩,
  ⟨0x054, 1, 0, 1, 1, .wo, (fun _ _ => 0), id⟩,
  ⟨0x054, 1, 0, 2, 1, .wo, (fun _ _ => 0), id⟩,
  ⟨0x058, 1, 0, 0, 12, .ro, (fun _ _ => 0), id⟩,
  ⟨0x058, 1, 0, 12, 4, .ro, (fun _ _ => 0), id⟩,
  ⟨0x058, 1, 0, 16, 1, .ro, (fun _ _ => 0), id⟩,
  ⟨0x05C, 1, 0, 0, 10, .rw, (fun _ _ => 30), (fun v => clampR 2 1023 v)⟩,
  ⟨0x060, 1, 0, 0, 10, .rw, (fun _ _ => 20), (fun v => clampR 1 1023 v)⟩,
  ⟨0x064, 1, 0, 0, 10, .rw, (fun _ _ => 0), id⟩,
  ⟨0x064, 1, 0, 31, 1, .rw, (fun _ _ => 0), id⟩]

def almanacRows1 : List Row := [
  ⟨0x068, 1, 0, 0, 6, .ro, (fun _ _ => 0), id⟩,
  ⟨0x06C, 1, 0, 0, 32, .ro, (fun _ _ => 0), id⟩,
  ⟨0x070, 8, 4, 0, 10, .rw, (fun _ _ => 0), id⟩,
  ⟨0x070, 8, 4, 31, 1, .rw, (fun _ _ => 0), id⟩,
  ⟨0x0FC, 1, 0, 0, 12, .rw, (fun _ _ => 0), id⟩,
  ⟨0x0FC, 1, 0, 12, 1, .rw, (fun _ _ => 0), id⟩,
  ⟨0x100, 1, 0, 0, 22, .rw, (fun _ _ => 0), (fun v => clampR 0 3999999 v)⟩,
  ⟨0x104, 1, 0, 0, 20, .rw, (fun _ _ => 1), (fun v => clampR 1 1048575 v)⟩,
  ⟨0x108, 1, 0, 0, 6, .rw, (fun _ _ => 0), id⟩,
  ⟨0x108, 1, 0, 8, 3, .rw, (fun _ _ => 0), (fun v => (if v = 7 then 6 else v))⟩,
  ⟨0x108, 1, 0, 12, 2, .rw, (fun _ _ => 0), id⟩,
  ⟨0x108, 1, 0, 16, 4, .rw, (fun _ _ => 0), id⟩,
  ⟨0x108, 1, 0, 20, 1, .rw, (fun _ _ => 0), id⟩,
  ⟨0x108, 1, 0, 21, 3, .rw, (fun _ _ => 0), id⟩,
  ⟨0x10C, 1, 0, 0, 16, .rw, (fun _ _ => 0), (fun v => (if v = 65535 then 65534 else clampR 1 65535 v))⟩,
  ⟨0x10C, 1, 0, 16, 12, .rw, (fun _ _ => 0), id⟩,
  ⟨0x110, 1, 0, 0, 32, .rw, (fun _ _ => 0), id⟩,
  ⟨0x114, 1, 0, 0, 16, .rw, (fun _ _ => 0), id⟩,
  ⟨0x118, 1, 0, 0, 16, .rw, (fun _ _ => 0), id⟩,
  ⟨0x118, 1, 0, 16, 9, .rw, (fun _ _ => 0), (fun v => clampR 0 369 v)⟩]

def almanacRows2 : List Row := [
  ⟨0x11C, 1, 0, 0, 16, .rw, (fun _ _ => 0), id⟩,
  ⟨0x13C, 1, 0, 0, 12, .rw, (fun _ _ => 0), id⟩,
  ⟨0x140, 1, 0, 0, 16, .rw, (fun _ _ => 0), id⟩,
  ⟨0x140, 1, 0, 16, 12, .rw, (fun _ _ => 0), id⟩,
  ⟨0x140, 1, 0, 31, 1, .rw, (fun _ _ => 0), id⟩,
  ⟨0x144, 1, 0, 0, 16, .rw, (fun _ _ => 0), id⟩,
  ⟨0x144, 1, 0, 16, 9, .rw, (fun _ _ => 0), (fun v => clampR 0 369 v)⟩,
  ⟨0x144, 1, 0, 28, 1, .rw, (fun _ _ => 0), id⟩,
  ⟨0x148, 1, 0, 0, 16, .rc, (fun _ _ => 0), id⟩,
  ⟨0x148, 1, 0, 16, 16, .rc, (fun _ _ => 0), id⟩,
  ⟨0x14C, 1, 0, 0, 16, .rc, (fun _ _ => 0), id⟩]

def almanacRows : List Row := almanacRows0 ++ almanacRows1 ++ almanacRows2

def porterRows0 : List Row := [
  ⟨0x010, 1, 0, 0, 2, .ro, (fun _ _ => 0), id⟩,
  ⟨0x020, 1, 0, 0, 3, .ro, (fun _ _ => 0), id⟩,
  ⟨0x024, 1, 0, 0, 3, .rw, (fun _ _ => 0), id⟩,
  ⟨0x030, 1, 0, 0, 16, .rc, (fun _ _ => 0), id⟩,
  ⟨0x040, 1, 0, 0, 8, .rw, (fun _ _ => 64), (fun v => clampR 1 255 v)⟩,
  ⟨0x044, 1, 0, 0, 12, .rw, (fun _ _ => 250), (fun v => clampR 25 2500 v)⟩,
  ⟨0x048, 1, 0, 0, 32, .rw, (fun _ _ => 0), id⟩,
  ⟨0x04C, 1, 0, 0, 4, .wo, (fun _ _ => 0), id⟩,
  ⟨0x04C, 1, 0, 4, 1, .wo, (fun _ _ => 0), id⟩,
  ⟨0x050, 1, 0, 0, 1, .ro, (fun _ _ => 0), id⟩,
  ⟨0x050, 1, 0, 4, 4, .ro, (fun _ _ => 0), id⟩,
  ⟨0x050, 1, 0, 8, 4, .ro, (fun _ _ => 0), id⟩,
  ⟨0x050, 1, 0, 12, 1, .ro, (fun _ _ => 0), id⟩,
  ⟨0x060, 4, 4, 0, 32, .rc, (fun _ _ => 0), id⟩,
  ⟨0x070, 1, 0, 0, 32, .rc, (fun _ _ => 0), id⟩,
  ⟨0x0FC, 1, 0, 0, 9, .rw, (fun _ _ => 0), id⟩,
  ⟨0x0FC, 1, 0, 9, 1, .rw, (fun _ _ => 0), id⟩,
  ⟨0x100, 1, 0, 0, 22, .rw, (fun _ _ => 0), (fun v => clampR 0 3999999 v)⟩,
  ⟨0x104, 1, 0, 0, 20, .rw, (fun _ _ => 1), (fun v => clampR 1 1048575 v)⟩,
  ⟨0x108, 1, 0, 0, 6, .rw, (fun _ _ => 0), id⟩]

def porterRows1 : List Row := [
  ⟨0x108, 1, 0, 8, 3, .rw, (fun _ _ => 0), (fun v => (if v = 7 then 6 else v))⟩,
  ⟨0x108, 1, 0, 12, 2, .rw, (fun _ _ => 0), id⟩,
  ⟨0x108, 1, 0, 16, 4, .rw, (fun _ _ => 0), id⟩,
  ⟨0x10C, 1, 0, 0, 16, .rw, (fun _ _ => 0), id⟩]

def porterRows : List Row := porterRows0 ++ porterRows1

def clockmakerRows0 : List Row := [
  ⟨0x010, 1, 0, 0, 3, .ros, (fun _ _ => 0), id⟩,
  ⟨0x010, 1, 0, 3, 1, .ros, (fun _ _ => 0), id⟩,
  ⟨0x010, 1, 0, 4, 1, .ros, (fun _ _ => 0), id⟩,
  ⟨0x010, 1, 0, 5, 2, .ros, (fun _ _ => 0), id⟩,
  ⟨0x020, 1, 0, 0, 5, .ro, (fun _ _ => 0), id⟩,
  ⟨0x024, 1, 0, 0, 5, .rw, (fun _ _ => 0), id⟩,
  ⟨0x030, 1, 0, 0, 16, .rc, (fun _ _ => 0), id⟩,
  ⟨0x040, 1, 0, 0, 32, .ro, (fun _ _ => 0), id⟩,
  ⟨0x044, 1, 0, 0, 32, .ro, (fun _ _ => 0), id⟩,
  ⟨0x048, 1, 0, 0, 32, .ro, (fun _ _ => 0), id⟩,
  ⟨0x04C, 1, 0, 0, 32, .ro, (fun _ _ => 0), id⟩,
  ⟨0x050, 1, 0, 0, 32, .ros, (fun _ _ => 0), id⟩,
  ⟨0x054, 1, 0, 0, 32, .ros, (fun _ _ => 0), id⟩,
  ⟨0x058, 1, 0, 0, 32, .ros, (fun _ _ => 0), id⟩,
  ⟨0x05C, 1, 0, 0, 32, .ros, (fun _ _ => 0), id⟩,
  ⟨0x060, 1, 0, 0, 32, .rws, (fun _ _ => 0), id⟩,
  ⟨0x064, 1, 0, 0, 1, .rws, (fun _ _ => 0), id⟩,
  ⟨0x064, 1, 0, 1, 1, .rws, (fun _ _ => 0), id⟩,
  ⟨0x064, 1, 0, 2, 8, .rws, (fun _ _ => 0), id⟩,
  ⟨0x064, 1, 0, 10, 2, .rws, (fun _ _ => 3), (fun v => clampR 1 3 v)⟩]

def clockmakerRows1 : List Row := [
  ⟨0x064, 1, 0, 12, 2, .rws, (fun _ _ => 1), id⟩,
  ⟨0x064, 1, 0, 14, 3, .rws, (fun _ _ => 3), (fun v => clampR 1 7 v)⟩,
  ⟨0x068, 1, 0, 0, 10, .rws, (fun _ _ => 100), (fun v => clampR 1 1000 v)⟩,
  ⟨0x068, 1, 0, 16, 10, .rws, (fun _ _ => 20), (fun v => clampR 1 1023 v)⟩,
  ⟨0x06C, 1, 0, 0, 9, .rws, (fun _ _ => 100), (fun v => clampR 10 400 v)⟩,
  ⟨0x06C, 1, 0, 16, 13, .rws, (fun _ _ => 100), (fun v => clampR 1 6000 v)⟩,
  ⟨0x070, 1, 0, 0, 2, .wo, (fun _ _ => 0), id⟩,
  ⟨0x074, 1, 0, 0, 2, .ro, (fun _ _ => 0), id⟩,
  ⟨0x078, 1, 0, 0, 32, .rw, (fun _ _ => 0), id⟩,
  ⟨0x07C, 1, 0, 0, 32, .rw, (fun _ _ => 0), id⟩,
  ⟨0x080, 1, 0, 0, 32, .ros, (fun _ _ => 0), id⟩,
  ⟨0x084, 1, 0, 0, 32, .ros, (fun _ _ => 0), id⟩,
  ⟨0x088, 1, 0, 0, 32, .ro, (fun _ _ => 0), id⟩,
  ⟨0x08C, 1, 0, 0, 32, .ro, (fun _ _ => 0), id⟩,
  ⟨0x090, 1, 0, 0, 4, .ro, (fun _ _ => 0), id⟩,
  ⟨0x090, 1, 0, 4, 2, .ro, (fun _ _ => 0), id⟩,
  ⟨0x090, 1, 0, 8, 24, .ro, (fun _ _ => 0), id⟩,
  ⟨0x098, 1, 0, 0, 6, .rws, (fun _ _ => 8), (fun v => clampR 1 63 v)⟩,
  ⟨0x100, 15, 16, 0, 16, .rws, (fun _ _ => 0), (fun v => (if v = 65535 then 65534 else clampR 1 65535 v))⟩,
  ⟨0x100, 15, 16, 31, 1, .rws, (fun _ _ => 0), id⟩]

def clockmakerRows2 : List Row := [
  ⟨0x104, 15, 16, 0, 16, .ro, (fun _ _ => 0), id⟩,
  ⟨0x104, 15, 16, 16, 16, .ro, (fun _ _ => 0), id⟩,
  ⟨0x108, 15, 16, 0, 32, .ro, (fun _ _ => 0), id⟩,
  ⟨0x10C, 15, 16, 0, 1, .ro, (fun _ _ => 0), id⟩,
  ⟨0x10C, 15, 16, 1, 1, .ro, (fun _ _ => 0), id⟩,
  ⟨0x10C, 15, 16, 2, 1, .ro, (fun _ _ => 0), id⟩,
  ⟨0x10C, 15, 16, 3, 1, .ro, (fun _ _ => 0), id⟩,
  ⟨0x10C, 15, 16, 4, 1, .ro, (fun _ _ => 0), id⟩,
  ⟨0x10C, 15, 16, 5, 3, .ro, (fun _ _ => 0), id⟩,
  ⟨0x10C, 15, 16, 8, 8, .ro, (fun _ _ => 0), id⟩]

def clockmakerRows : List Row := clockmakerRows0 ++ clockmakerRows1 ++ clockmakerRows2

def tstampRows : List Row := [
  ⟨0x020, 1, 0, 0, 1, .ro, (fun _ _ => 0), id⟩,
  ⟨0x024, 1, 0, 0, 1, .rw, (fun _ _ => 0), id⟩,
  ⟨0x030, 1, 0, 0, 16, .rc, (fun _ _ => 0), id⟩,
  ⟨0x040, 6, 4, 0, 1, .rw, (fun _ _ => 0), id⟩,
  ⟨0x040, 6, 4, 1, 1, .rw, (fun _ _ => 0), id⟩,
  ⟨0x040, 6, 4, 2, 1, .rw, (fun _ _ => 0), id⟩,
  ⟨0x040, 6, 4, 8, 10, .rw, (fun _ _ => 0), id⟩,
  ⟨0x040, 6, 4, 18, 10, .rw, (fun _ _ => 0), id⟩,
  ⟨0x060, 6, 8, 0, 32, .ro, (fun _ _ => 0), id⟩,
  ⟨0x064, 6, 8, 0, 32, .ro, (fun _ _ => 0), id⟩,
  ⟨0x0A0, 1, 0, 0, 1, .rw, (fun _ _ => 0), id⟩,
  ⟨0x0A0, 1, 0, 1, 1, .rw, (fun _ _ => 0), id⟩,
  ⟨0x0A0, 1, 0, 2, 2, .rw, (fun _ _ => 0), id⟩,
  ⟨0x0A0, 1, 0, 4, 20, .rw, (fun _ _ => 100), (fun v => clampR 1 1048575 v)⟩,
  ⟨0x0A4, 1, 0, 0, 32, .ro, (fun _ _ => 0), id⟩,
  ⟨0x0A8, 1, 0, 0, 32, .ro, (fun _ _ => 0), id⟩]

def pollRows0 : List Row := [
  ⟨0x010, 1, 0, 0, 3, .ro, (fun _ _ => 0), id⟩,
  ⟨0x010, 1, 0, 3, 1, .ro, (fun _ _ => 0), id⟩,
  ⟨0x020, 1, 0, 0, 6, .ro, (fun _ _ => 0), id⟩,
  ⟨0x024, 1, 0, 0, 6, .rw, (fun _ _ => 0), id⟩,
  ⟨0x030, 1, 0, 0, 16, .rc, (fun _ _ => 0), id⟩,
  ⟨0x040, 1, 0, 0, 1, .rw, (fun _ _ => 0), id⟩,
  ⟨0x040, 1, 0, 1, 1, .rw, (fun _ _ => 0), id⟩,
  ⟨0x040, 1, 0, 2, 2, .rw, (fun _ _ => 0), id⟩,
  ⟨0x040, 1, 0, 4, 8, .rw, (fun _ _ => 24), (fun v => clampR 16 255 v)⟩,
  ⟨0x044, 1, 0, 0, 3, .rw, (fun _ _ => 2), id⟩,
  ⟨0x048, 1, 0, 0, 32, .rw, (fun _ _ => 0), id⟩,
  ⟨0x04C, 1, 0, 0, 1, .wo, (fun _ _ => 0), id⟩,
  ⟨0x04C, 1, 0, 1, 1, .wo, (fun _ _ => 0), id⟩,
  ⟨0x04C, 1, 0, 2, 1, .wo, (fun _ _ => 0), id⟩,
  ⟨0x04C, 1, 0, 3, 1, .wo, (fun _ _ => 0), id⟩,
  ⟨0x04C, 1, 0, 4, 1, .wo, (fun _ _ => 0), id⟩,
  ⟨0x050, 1, 0, 0, 10, .ro, (fun _ _ => 0), id⟩,
  ⟨0x050, 1, 0, 12, 4, .ro, (fun _ _ => 0), id⟩,
  ⟨0x050, 1, 0, 16, 1, .ro, (fun _ _ => 0), id⟩,
  ⟨0x050, 1, 0, 17, 2, .ro, (fun _ _ => 0), id⟩]

def pollRows1 : List Row := [
  ⟨0x050, 1, 0, 19, 1, .ro, (fun _ _ => 0), id⟩,
  ⟨0x054, 1, 0, 0, 8, .rw, (fun _ _ => 3), (fun v => clampR 1 255 v)⟩,
  ⟨0x054, 1, 0, 8, 16, .rw, (fun _ _ => 16), (fun v => clampR 1 65535 v)⟩,
  ⟨0x058, 1, 0, 0, 32, .ro, (fun _ _ => 0), id⟩,
  ⟨0x05C, 1, 0, 0, 8, .rw, (fun _ _ => 0), id⟩,
  ⟨0x0FC, 1, 0, 0, 10, .rw, (fun _ _ => 0), id⟩,
  ⟨0x0FC, 1, 0, 10, 1, .rw, (fun _ _ => 0), id⟩,
  ⟨0x100, 1, 0, 0, 20, .rw, (fun _ _ => 0), (fun v => clampR 0 639999 v)⟩,
  ⟨0x104, 1, 0, 0, 3, .rw, (fun _ _ => 0), id⟩,
  ⟨0x104, 1, 0, 4, 7, .rw, (fun _ _ => 0), id⟩,
  ⟨0x104, 1, 0, 12, 2, .rw, (fun _ _ => 3), id⟩,
  ⟨0x104, 1, 0, 16, 4, .rw, (fun _ _ => 0), id⟩,
  ⟨0x108, 1, 0, 0, 12, .rw, (fun _ _ => 1), (fun v => clampR 1 4095 v)⟩,
  ⟨0x108, 1, 0, 16, 8, .rw, (fun _ _ => 1), (fun v => clampR 1 255 v)⟩,
  ⟨0x10C, 1, 0, 0, 8, .ro, (fun _ _ => 0), id⟩,
  ⟨0x10C, 1, 0, 8, 1, .ro, (fun _ _ => 0), id⟩,
  ⟨0x110, 1, 0, 0, 16, .rc, (fun _ _ => 0), id⟩,
  ⟨0x110, 1, 0, 16, 16, .rc, (fun _ _ => 0), id⟩,
  ⟨0x13C, 1, 0, 0, 10, .rw, (fun _ _ => 0), id⟩,
  ⟨0x140, 1, 0, 0, 12, .rw, (fun _ _ => 1), (fun v => clampR 1 4095 v)⟩]

def pollRows2 : List Row := [
  ⟨0x140, 1, 0, 12, 4, .rw, (fun _ _ => 0), id⟩,
  ⟨0x140, 1, 0, 16, 2, .rw, (fun _ _ => 0), (fun v => (if v = 3 then 2 else v))⟩,
  ⟨0x140, 1, 0, 31, 1, .rw, (fun _ _ => 0), id⟩,
  ⟨0x144, 1, 0, 0, 16, .rw, (fun _ _ => 0), id⟩,
  ⟨0x144, 1, 0, 16, 9, .rw, (fun _ _ => 0), (fun v => clampR 0 256 v)⟩,
  ⟨0x144, 1, 0, 28, 1, .rw, (fun _ _ => 0), id⟩,
  ⟨0x148, 1, 0, 0, 16, .rc, (fun _ _ => 0), id⟩,
  ⟨0x148, 1, 0, 16, 16, .rc, (fun _ _ => 0), id⟩,
  ⟨0x17C, 1, 0, 0, 6, .rw, (fun _ _ => 0), id⟩,
  ⟨0x180, 1, 0, 0, 12, .rw, (fun _ _ => 1), (fun v => clampR 1 4095 v)⟩,
  ⟨0x180, 1, 0, 12, 4, .rw, (fun _ _ => 0), id⟩,
  ⟨0x180, 1, 0, 16, 2, .rw, (fun _ _ => 0), (fun v => (if v = 3 then 2 else v))⟩,
  ⟨0x180, 1, 0, 20, 1, .rw, (fun _ _ => 0), id⟩,
  ⟨0x180, 1, 0, 31, 1, .rw, (fun _ _ => 0), id⟩,
  ⟨0x184, 1, 0, 0, 16, .rw, (fun _ _ => 0), id⟩,
  ⟨0x184, 1, 0, 16, 9, .rw, (fun _ _ => 0), (fun v => clampR 0 256 v)⟩,
  ⟨0x184, 1, 0, 25, 3, .rw, (fun _ _ => 0), id⟩,
  ⟨0x188, 1, 0, 0, 8, .rw, (fun _ _ => 1), (fun v => clampR 1 255 v)⟩,
  ⟨0x18C, 1, 0, 0, 16, .rc, (fun _ _ => 0), id⟩,
  ⟨0x18C, 1, 0, 16, 16, .rc, (fun _ _ => 0), id⟩]

def pollRows3 : List Row := [
  ⟨0x1C0, 1, 0, 0, 32, .rc, (fun _ _ => 0), id⟩,
  ⟨0x1C4, 1, 0, 0, 32, .rc, (fun _ _ => 0), id⟩,
  ⟨0x1C8, 1, 0, 0, 32, .rc, (fun _ _ => 0), id⟩,
  ⟨0x1CC, 1, 0, 0, 32, .rc, (fun _ _ => 0), id⟩,
  ⟨0x1D0, 1, 0, 0, 32, .rc, (fun _ _ => 0), id⟩,
  ⟨0x1D4, 1, 0, 0, 32, .rc, (fun _ _ => 0), id⟩,
  ⟨0x1D8, 1, 0, 0, 32, .rc, (fun _ _ => 0), id⟩,
  ⟨0x1DC, 1, 0, 0, 32, .rc, (fun _ _ => 0), id⟩,
  ⟨0x1E0, 1, 0, 0, 32, .rc, (fun _ _ => 0), id⟩,
  ⟨0x1E4, 1, 0, 0, 32, .rc, (fun _ _ => 0), id⟩]

def pollRows : List Row := pollRows0 ++ pollRows1 ++ pollRows2 ++ pollRows3

def canRows0 : List Row := [
  ⟨0x010, 1, 0, 0, 3, .ro, (fun _ _ => 0), id⟩,
  ⟨0x010, 1, 0, 3, 2, .ro, (fun _ _ => 0), id⟩,
  ⟨0x020, 1, 0, 0, 6, .ro, (fun _ _ => 0), id⟩,
  ⟨0x024, 1, 0, 0, 6, .rw, (fun _ _ => 0), id⟩,
  ⟨0x030, 1, 0, 0, 16, .rc, (fun _ _ => 0), id⟩,
  ⟨0x040, 1, 0, 0, 1, .rw, (fun _ _ => 0), id⟩,
  ⟨0x040, 1, 0, 1, 1, .rw, (fun _ _ => 0), id⟩,
  ⟨0x040, 1, 0, 2, 1, .rw, (fun _ _ => 1), id⟩,
  ⟨0x040, 1, 0, 3, 1, .rw, (fun _ _ => 0), id⟩,
  ⟨0x044, 1, 0, 0, 9, .rw, (fun _ _ => 10), (fun v => clampR 1 256 v)⟩,
  ⟨0x044, 1, 0, 9, 9, .rw, (fun _ _ => 63), (fun v => clampR 2 256 v)⟩,
  ⟨0x044, 1, 0, 18, 7, .rw, (fun _ _ => 16), (fun v => clampR 1 127 v)⟩,
  ⟨0x044, 1, 0, 25, 7, .rw, (fun _ _ => 16), (fun v => clampR 1 127 v)⟩,
  ⟨0x048, 1, 0, 0, 6, .rw, (fun _ _ => 2), (fun v => clampR 1 32 v)⟩,
  ⟨0x048, 1, 0, 6, 6, .rw, (fun _ _ => 29), (fun v => clampR 1 32 v)⟩,
  ⟨0x048, 1, 0, 12, 5, .rw, (fun _ _ => 10), (fun v => clampR 1 16 v)⟩,
  ⟨0x048, 1, 0, 17, 5, .rw, (fun _ _ => 10), (fun v => clampR 1 31 v)⟩,
  ⟨0x04C, 1, 0, 0, 1, .rw, (fun _ _ => 0), id⟩,
  ⟨0x04C, 1, 0, 8, 7, .rw, (fun _ _ => 0), id⟩,
  ⟨0x050, 1, 0, 0, 4, .rw, (fun _ _ => 3), (fun v => clampR 1 15 v)⟩]

def canRows1 : List Row := [
  ⟨0x050, 1, 0, 8, 4, .ro, (fun _ _ => 15), id⟩,
  ⟨0x050, 1, 0, 12, 4, .ro, (fun _ _ => 15), id⟩,
  ⟨0x050, 1, 0, 16, 4, .rws, (fun _ _ => 6), (fun v => clampR 0 8 v)⟩,
  ⟨0x054, 1, 0, 0, 1, .wo, (fun _ _ => 0), id⟩,
  ⟨0x054, 1, 0, 1, 1, .wo, (fun _ _ => 0), id⟩,
  ⟨0x054, 1, 0, 2, 1, .wo, (fun _ _ => 0), id⟩,
  ⟨0x054, 1, 0, 3, 1, .wo, (fun _ _ => 0), id⟩,
  ⟨0x058, 1, 0, 0, 9, .ro, (fun _ _ => 0), id⟩,
  ⟨0x058, 1, 0, 16, 8, .ro, (fun _ _ => 0), id⟩,
  ⟨0x05C, 1, 0, 0, 3, .ro, (fun _ _ => 0), id⟩,
  ⟨0x05C, 1, 0, 4, 3, .ro, (fun _ _ => 0), id⟩,
  ⟨0x05C, 1, 0, 7, 1, .ro, (fun _ _ => 0), id⟩,
  ⟨0x05C, 1, 0, 8, 1, .ro, (fun _ _ => 0), id⟩,
  ⟨0x060, 1, 0, 0, 7, .ro, (fun _ _ => 0), id⟩,
  ⟨0x0FC, 1, 0, 0, 6, .rw, (fun _ _ => 0), id⟩,
  ⟨0x100, 1, 0, 0, 32, .rw, (fun _ _ => 0), id⟩,
  ⟨0x104, 1, 0, 0, 4, .rw, (fun _ _ => 0), id⟩,
  ⟨0x104, 1, 0, 4, 1, .rw, (fun _ _ => 0), id⟩,
  ⟨0x104, 1, 0, 5, 1, .rw, (fun _ _ => 0), id⟩,
  ⟨0x104, 1, 0, 6, 1, .rw, (fun _ _ => 0), id⟩]

def canRows2 : List Row := [
  ⟨0x104, 1, 0, 8, 2, .rw, (fun _ _ => 0), (fun v => (if v = 3 then 0 else (if v = 2 then 0 else v)))⟩,
  ⟨0x104, 1, 0, 12, 3, .rw, (fun _ _ => 0), id⟩,
  ⟨0x108, 1, 0, 0, 16, .rw, (fun _ _ => 0), id⟩,
  ⟨0x108, 1, 0, 16, 7, .rw, (fun _ _ => 0), (fun v => clampR 0 64 v)⟩,
  ⟨0x10C, 1, 0, 0, 3, .ro, (fun _ _ => 0), id⟩,
  ⟨0x10C, 1, 0, 4, 3, .ro, (fun _ _ => 0), id⟩,
  ⟨0x110, 1, 0, 0, 16, .rc, (fun _ _ => 0), id⟩,
  ⟨0x110, 1, 0, 16, 16, .rc, (fun _ _ => 0), id⟩,
  ⟨0x13C, 1, 0, 0, 7, .rw, (fun _ _ => 0), id⟩,
  ⟨0x140, 1, 0, 0, 29, .rw, (fun _ _ => 0), id⟩,
  ⟨0x140, 1, 0, 29, 1, .rw, (fun _ _ => 0), id⟩,
  ⟨0x144, 1, 0, 0, 29, .rw, (fun _ _ => 0), id⟩,
  ⟨0x148, 1, 0, 0, 1, .rw, (fun _ _ => 0), id⟩,
  ⟨0x148, 1, 0, 1, 1, .rw, (fun _ _ => 0), id⟩,
  ⟨0x148, 1, 0, 2, 1, .rw, (fun _ _ => 0), id⟩,
  ⟨0x148, 1, 0, 3, 1, .rw, (fun _ _ => 0), id⟩,
  ⟨0x148, 1, 0, 4, 2, .rw, (fun _ _ => 0), (fun v => (if v = 3 then 0 else v))⟩,
  ⟨0x14C, 1, 0, 0, 16, .rw, (fun _ _ => 0), id⟩,
  ⟨0x14C, 1, 0, 16, 7, .rw, (fun _ _ => 0), (fun v => clampR 0 64 v)⟩,
  ⟨0x150, 1, 0, 0, 16, .rc, (fun _ _ => 0), id⟩]

def canRows3 : List Row := [
  ⟨0x150, 1, 0, 16, 16, .rc, (fun _ _ => 0), id⟩,
  ⟨0x1C0, 1, 0, 0, 32, .rc, (fun _ _ => 0), id⟩,
  ⟨0x1C4, 1, 0, 0, 32, .rc, (fun _ _ => 0), id⟩,
  ⟨0x1C8, 1, 0, 0, 32, .rc, (fun _ _ => 0), id⟩,
  ⟨0x1CC, 1, 0, 0, 32, .rc, (fun _ _ => 0), id⟩,
  ⟨0x1D0, 1, 0, 0, 32, .rc, (fun _ _ => 0), id⟩,
  ⟨0x1D4, 1, 0, 0, 32, .rc, (fun _ _ => 0), id⟩,
  ⟨0x1D8, 1, 0, 0, 32, .rc, (fun _ _ => 0), id⟩,
  ⟨0x1DC, 1, 0, 0, 32, .rc, (fun _ _ => 0), id⟩,
  ⟨0x1E0, 1, 0, 0, 32, .rc, (fun _ _ => 0), id⟩,
  ⟨0x1E4, 1, 0, 0, 32, .rc, (fun _ _ => 0), id⟩]

def canRows : List Row := canRows0 ++ canRows1 ++ canRows2 ++ canRows3

def fioRows : List Row := [
  ⟨0x010, 1, 0, 0, 3, .ro, (fun _ _ => 0), id⟩,
  ⟨0x010, 1, 0, 3, 1, .ro, (fun _ _ => 0), id⟩,
  ⟨0x020, 1, 0, 0, 6, .ro, (fun _ _ => 0), id⟩,
  ⟨0x024, 1, 0, 0, 6, .rw, (fun _ _ => 0), id⟩,
  ⟨0x030, 1, 0, 0, 16, .rc, (fun _ _ => 0), id⟩,
  ⟨0x040, 1, 0, 0, 1, .wo, (fun _ _ => 0), id⟩,
  ⟨0x040, 1, 0, 1, 1, .wo, (fun _ _ => 0), id⟩,
  ⟨0x040, 1, 0, 2, 1, .wo, (fun _ _ => 0), id⟩,
  ⟨0x040, 1, 0, 3, 1, .wo, (fun _ _ => 0), id⟩,
  ⟨0x040, 1, 0, 4, 1, .wo, (fun _ _ => 0), id⟩,
  ⟨0x044, 1, 0, 0, 2, .ro, (fun _ _ => 0), id⟩,
  ⟨0x048, 1, 0, 0, 8, .ro, (fun _ _ => 0), id⟩,
  ⟨0x048, 1, 0, 8, 8, .ro, (fun _ _ => 0), id⟩,
  ⟨0x048, 1, 0, 16, 8, .ro, (fun _ _ => 0), id⟩,
  ⟨0x04C, 1, 0, 0, 32, .rc, (fun _ _ => 0), id⟩,
  ⟨0x050, 1, 0, 0, 32, .rc, (fun _ _ => 0), id⟩,
  ⟨0x054, 1, 0, 0, 32, .rc, (fun _ _ => 0), id⟩,
  ⟨0x058, 1, 0, 0, 16, .rc, (fun _ _ => 0), id⟩,
  ⟨0x05C, 1, 0, 0, 1, .ro, (fun _ _ => 0), id⟩,
  ⟨0x05C, 1, 0, 16, 16, .ro, (fun _ _ => 0), id⟩]

def fioInRows : List Row := [
  ⟨0x080, 1, 0, 0, 3, .rw, (fun n _ => n), id⟩,
  ⟨0x084, 1, 0, 0, 16, .ro, (fun _ _ => 0), id⟩,
  ⟨0x088, 1, 0, 0, 16, .ro, (fun _ _ => 0), id⟩,
  ⟨0x08C, 1, 0, 0, 8, .rc, (fun _ _ => 0), id⟩,
  ⟨0x090, 1, 0, 0, 8, .rw, (fun _ _ => 0), id⟩,
  ⟨0x100, 8, 4, 0, 8, .rw, (fun _ _ => 3), (fun v => clampR 1 255 v)⟩,
  ⟨0x100, 8, 4, 8, 8, .rw, (fun _ _ => 10), (fun v => clampR 1 255 v)⟩,
  ⟨0x100, 8, 4, 16, 1, .rw, (fun _ _ => 0), id⟩,
  ⟨0x120, 8, 4, 0, 16, .rw, (fun _ _ => 0), id⟩,
  ⟨0x120, 8, 4, 31, 1, .rw, (fun _ _ => 0), id⟩]

def fioOutRows : List Row := [
  ⟨0x080, 1, 0, 0, 8, .rw, (fun _ _ => 8), (fun v => clampR 1 255 v)⟩,
  ⟨0x080, 1, 0, 8, 8, .rw, (fun _ _ => 3), (fun v => clampR 1 255 v)⟩,
  ⟨0x084, 1, 0, 0, 8, .ro, (fun _ _ => 0), id⟩,
  ⟨0x084, 1, 0, 8, 8, .ro, (fun _ _ => 0), id⟩,
  ⟨0x084, 1, 0, 16, 8, .ro, (fun _ _ => 0), id⟩,
  ⟨0x088, 1, 0, 0, 16, .ro, (fun _ _ => 0), id⟩,
  ⟨0x08C, 1, 0, 0, 8, .ro, (fun _ _ => 0), id⟩,
  ⟨0x08C, 1, 0, 8, 8, .ro, (fun _ _ => 0), id⟩,
  ⟨0x08C, 1, 0, 16, 8, .ro, (fun _ _ => 0), id⟩,
  ⟨0x090, 1, 0, 0, 24, .w1c, (fun _ _ => 0), id⟩,
  ⟨0x094, 1, 0, 0, 8, .ro, (fun _ _ => 0), id⟩,
  ⟨0x098, 1, 0, 0, 32, .rc, (fun _ _ => 0), id⟩,
  ⟨0x100, 8, 4, 0, 16, .rw, (fun _ _ => 0), id⟩,
  ⟨0x100, 8, 4, 16, 5, .rw, (fun _ _ => 0), id⟩,
  ⟨0x100, 8, 4, 21, 1, .rw, (fun _ _ => 0), id⟩,
  ⟨0x100, 8, 4, 22, 1, .rw, (fun _ _ => 0), id⟩,
  ⟨0x100, 8, 4, 23, 1, .rw, (fun _ _ => 0), id⟩,
  ⟨0x100, 8, 4, 24, 5, .rw, (fun _ _ => 10), (fun v => clampR 2 20 v)⟩]

def speedRows0 : List Row := [
  ⟨0x010, 1, 0, 0, 1, .ro, (fun _ _ => 0), id⟩,
  ⟨0x020, 1, 0, 0, 5, .ro, (fun _ _ => 0), id⟩,
  ⟨0x024, 1, 0, 0, 5, .rw, (fun _ _ => 0), id⟩,
  ⟨0x030, 1, 0, 0, 16, .rc, (fun _ _ => 0), id⟩,
  ⟨0x040, 1, 0, 0, 8, .ro, (fun _ _ => 0), id⟩,
  ⟨0x040, 1, 0, 8, 4, .ro, (fun _ _ => 0), id⟩,
  ⟨0x040, 1, 0, 16, 16, .ro, (fun _ _ => 0), id⟩,
  ⟨0x044, 1, 0, 0, 14, .ro, (fun _ _ => 0), id⟩,
  ⟨0x044, 1, 0, 16, 14, .ro, (fun _ _ => 0), id⟩,
  ⟨0x048, 1, 0, 0, 14, .ro, (fun _ _ => 0), id⟩,
  ⟨0x048, 1, 0, 16, 11, .ro, (fun _ _ => 0), id⟩,
  ⟨0x050, 1, 0, 0, 32, .ro, (fun _ _ => 2147483647), id⟩,
  ⟨0x054, 1, 0, 0, 9, .ro, (fun _ _ => 0), id⟩,
  ⟨0x054, 1, 0, 16, 8, .ro, (fun _ _ => 0), id⟩,
  ⟨0x058, 1, 0, 0, 32, .ro, (fun _ _ => 0), id⟩,
  ⟨0x05C, 1, 0, 0, 8, .wo, (fun _ _ => 0), id⟩,
  ⟨0x05C, 1, 0, 8, 8, .wo, (fun _ _ => 0), id⟩,
  ⟨0x060, 1, 0, 0, 8, .ro, (fun _ _ => 0), id⟩,
  ⟨0x060, 1, 0, 8, 2, .ro, (fun _ _ => 0), id⟩,
  ⟨0x100, 8, 64, 0, 2, .ro, (fun _ _ => 0), id⟩]

def speedRows1 : List Row := [
  ⟨0x100, 8, 64, 2, 1, .ro, (fun _ _ => 0), id⟩,
  ⟨0x100, 8, 64, 4, 7, .ro, (fun _ _ => 0), id⟩,
  ⟨0x100, 8, 64, 16, 11, .ro, (fun _ _ => 0), id⟩,
  ⟨0x104, 8, 64, 0, 16, .ro, (fun _ _ => 0), id⟩,
  ⟨0x104, 8, 64, 31, 1, .ro, (fun _ _ => 0), id⟩,
  ⟨0x108, 8, 64, 0, 9, .ro, (fun _ _ => 0), id⟩,
  ⟨0x108, 8, 64, 16, 2, .ro, (fun _ _ => 0), id⟩,
  ⟨0x108, 8, 64, 18, 1, .ro, (fun _ _ => 0), id⟩,
  ⟨0x10C, 8, 64, 0, 28, .ro, (fun _ _ => 0), id⟩,
  ⟨0x110, 8, 64, 0, 25, .ro, (fun _ _ => 0), id⟩,
  ⟨0x114, 8, 64, 0, 32, .ro, (fun _ _ => 0), id⟩,
  ⟨0x118, 8, 64, 0, 32, .ros, (fun _ _ => 0), id⟩,
  ⟨0x11C, 8, 64, 0, 32, .ros, (fun _ _ => 0), id⟩,
  ⟨0x120, 8, 64, 0, 16, .rc, (fun _ _ => 0), id⟩,
  ⟨0x120, 8, 64, 16, 8, .rc, (fun _ _ => 0), id⟩,
  ⟨0x120, 8, 64, 24, 8, .rc, (fun _ _ => 0), id⟩,
  ⟨0x124, 8, 64, 0, 10, .ro, (fun _ _ => 0), id⟩,
  ⟨0x124, 8, 64, 16, 10, .ro, (fun _ _ => 0), id⟩]

def speedRows : List Row := speedRows0 ++ speedRows1

def millwrightRows0 : List Row := [
  ⟨0x010, 1, 0, 0, 3, .ro, (fun _ _ => 0), id⟩,
  ⟨0x020, 1, 0, 0, 4, .ro, (fun _ _ => 0), id⟩,
  ⟨0x024, 1, 0, 0, 4, .rw, (fun _ _ => 0), id⟩,
  ⟨0x030, 1, 0, 0, 16, .rc, (fun _ _ => 0), id⟩,
  ⟨0x040, 1, 0, 0, 32, .ro, (fun _ _ => 0), id⟩,
  ⟨0x044, 1, 0, 0, 4, .ro, (fun _ _ => 0), id⟩,
  ⟨0x044, 1, 0, 16, 16, .ro, (fun _ _ => 0), id⟩,
  ⟨0x048, 1, 0, 0, 8, .ro, (fun _ _ => 0), id⟩,
  ⟨0x048, 1, 0, 8, 8, .ro, (fun _ _ => 0), id⟩,
  ⟨0x04C, 1, 0, 0, 4, .ro, (fun _ _ => 0), id⟩,
  ⟨0x04C, 1, 0, 4, 4, .ro, (fun _ _ => 0), id⟩,
  ⟨0x04C, 1, 0, 8, 6, .ro, (fun _ _ => 0), id⟩,
  ⟨0x050, 1, 0, 0, 32, .ro, (fun _ _ => 2147483647), id⟩,
  ⟨0x054, 1, 0, 0, 16, .ro, (fun _ _ => 0), id⟩,
  ⟨0x054, 1, 0, 16, 8, .ro, (fun _ _ => 0), id⟩,
  ⟨0x054, 1, 0, 24, 8, .ro, (fun _ _ => 0), id⟩,
  ⟨0x058, 1, 0, 0, 5, .ro, (fun _ _ => 0), id⟩,
  ⟨0x05C, 1, 0, 0, 32, .ro, (fun _ _ => 0), id⟩,
  ⟨0x060, 1, 0, 0, 28, .ro, (fun _ _ => 0), id⟩,
  ⟨0x064, 1, 0, 0, 16, .ro, (fun _ _ => 0), id⟩]

def millwrightRows1 : List Row := [
  ⟨0x080, 1, 0, 0, 10, .rw, (fun _ _ => 0), id⟩,
  ⟨0x084, 1, 0, 0, 32, .ro, (fun _ _ => 0), id⟩]

def millwrightRows : List Row := millwrightRows0 ++ millwrightRows1

def safeoutRows : List Row := [
  ⟨0x010, 1, 0, 0, 1, .ro, (fun _ _ => 0), id⟩,
  ⟨0x010, 1, 0, 1, 1, .ro, (fun _ _ => 0), id⟩,
  ⟨0x020, 1, 0, 0, 3, .ro, (fun _ _ => 0), id⟩,
  ⟨0x024, 1, 0, 0, 3, .rw, (fun _ _ => 0), id⟩,
  ⟨0x030, 1, 0, 0, 16, .rc, (fun _ _ => 0), id⟩,
  ⟨0x040, 1, 0, 0, 8, .ro, (fun _ _ => 0), id⟩,
  ⟨0x040, 1, 0, 8, 8, .ro, (fun _ _ => 0), id⟩,
  ⟨0x040, 1, 0, 16, 8, .ro, (fun _ _ => 0), id⟩,
  ⟨0x044, 1, 0, 0, 8, .ros, (fun _ _ => 0), id⟩,
  ⟨0x048, 1, 0, 0, 9, .rw, (fun _ _ => 60), (fun v => clampR 1 480 v)⟩,
  ⟨0x048, 1, 0, 16, 1, .wo, (fun _ _ => 0), id⟩,
  ⟨0x04C, 1, 0, 0, 16, .ro, (fun _ _ => 0), id⟩,
  ⟨0x04C, 1, 0, 16, 8, .ro, (fun _ _ => 0), id⟩,
  ⟨0x100, 8, 4, 0, 16, .ro, (fun _ _ => 0), id⟩,
  ⟨0x100, 8, 4, 16, 5, .ro, (fun _ _ => 0), id⟩,
  ⟨0x100, 8, 4, 21, 1, .ro, (fun _ _ => 0), id⟩,
  ⟨0x100, 8, 4, 31, 1, .ro, (fun _ _ => 0), id⟩,
  ⟨0x140, 8, 4, 0, 3, .ros, (fun _ _ => 0), id⟩]

def safemsgRows0 : List Row := [
  ⟨0x010, 1, 0, 0, 1, .ro, (fun _ _ => 0), id⟩,
  ⟨0x010, 1, 0, 1, 7, .ro, (fun _ _ => 0), id⟩,
  ⟨0x020, 1, 0, 0, 4, .ro, (fun _ _ => 0), id⟩,
  ⟨0x024, 1, 0, 0, 4, .rw, (fun _ _ => 0), id⟩,
  ⟨0x030, 1, 0, 0, 16, .rc, (fun _ _ => 0), id⟩,
  ⟨0x040, 1, 0, 0, 16, .ro, (fun _ _ => 0), id⟩,
  ⟨0x044, 1, 0, 0, 6, .wo, (fun _ _ => 0), id⟩,
  ⟨0x044, 1, 0, 8, 1, .wo, (fun _ _ => 0), id⟩,
  ⟨0x048, 1, 0, 0, 2, .ro, (fun _ _ => 0), id⟩,
  ⟨0x100, 64, 16, 0, 16, .ro, (fun _ _ => 0), id⟩,
  ⟨0x100, 64, 16, 31, 1, .ro, (fun _ _ => 0), id⟩,
  ⟨0x104, 64, 16, 0, 32, .ro, (fun _ _ => 0), id⟩,
  ⟨0x108, 64, 16, 0, 32, .ro, (fun _ _ => 0), id⟩,
  ⟨0x10C, 64, 16, 0, 32, .rc, (fun _ _ => 0), id⟩,
  ⟨0x800, 64, 32, 0, 16, .ro, (fun _ _ => 0), id⟩,
  ⟨0x800, 64, 32, 31, 1, .ro, (fun _ _ => 0), id⟩,
  ⟨0x804, 64, 32, 0, 32, .ro, (fun _ _ => 0), id⟩,
  ⟨0x808, 64, 32, 0, 14, .ro, (fun _ _ => 0), id⟩,
  ⟨0x808, 64, 32, 16, 16, .ro, (fun _ _ => 0), id⟩,
  ⟨0x80C, 64, 32, 0, 2, .ro, (fun _ _ => 0), id⟩]

def safemsgRows1 : List Row := [
  ⟨0x80C, 64, 32, 2, 4, .ro, (fun _ _ => 0), id⟩,
  ⟨0x80C, 64, 32, 6, 4, .ro, (fun _ _ => 0), id⟩,
  ⟨0x810, 64, 32, 0, 32, .ro, (fun _ _ => 0), id⟩,
  ⟨0x814, 64, 32, 0, 32, .ro, (fun _ _ => 0), id⟩,
  ⟨0x818, 64, 32, 0, 8, .rc, (fun _ _ => 0), id⟩,
  ⟨0x818, 64, 32, 8, 8, .rc, (fun _ _ => 0), id⟩,
  ⟨0x818, 64, 32, 16, 8, .rc, (fun _ _ => 0), id⟩,
  ⟨0x818, 64, 32, 24, 8, .rc, (fun _ _ => 0), id⟩,
  ⟨0x81C, 64, 32, 0, 32, .rc, (fun _ _ => 0), id⟩]

def safemsgRows : List Row := safemsgRows0 ++ safemsgRows1

def bridgeRows0 : List Row := [
  ⟨0x010, 1, 0, 0, 2, .ro, (fun _ _ => 0), id⟩,
  ⟨0x010, 1, 0, 2, 1, .ro, (fun _ _ => 0), id⟩,
  ⟨0x010, 1, 0, 3, 1, .ro, (fun _ _ => 0), id⟩,
  ⟨0x020, 1, 0, 0, 4, .ro, (fun _ _ => 0), id⟩,
  ⟨0x024, 1, 0, 0, 4, .rw, (fun _ _ => 0), id⟩,
  ⟨0x030, 1, 0, 0, 16, .rc, (fun _ _ => 0), id⟩,
  ⟨0x040, 1, 0, 0, 1, .rw, (fun _ _ => 0), id⟩,
  ⟨0x040, 1, 0, 8, 10, .rw, (fun _ _ => 64), (fun v => clampR 8 1023 v)⟩,
  ⟨0x044, 1, 0, 0, 10, .rw, (fun _ _ => 0), id⟩,
  ⟨0x048, 1, 0, 0, 10, .rw, (fun _ _ => 0), id⟩,
  ⟨0x04C, 1, 0, 0, 1, .wo, (fun _ _ => 0), id⟩,
  ⟨0x04C, 1, 0, 1, 1, .wo, (fun _ _ => 0), id⟩,
  ⟨0x050, 1, 0, 0, 6, .ro, (fun _ _ => 0), id⟩,
  ⟨0x050, 1, 0, 8, 5, .ro, (fun _ _ => 0), id⟩,
  ⟨0x050, 1, 0, 16, 5, .ro, (fun _ _ => 0), id⟩,
  ⟨0x054, 1, 0, 0, 8, .ro, (fun _ _ => 0), id⟩,
  ⟨0x054, 1, 0, 8, 1, .ro, (fun _ _ => 0), id⟩,
  ⟨0x054, 1, 0, 9, 1, .ro, (fun _ _ => 0), id⟩,
  ⟨0x054, 1, 0, 10, 1, .ro, (fun _ _ => 0), id⟩,
  ⟨0x058, 1, 0, 0, 24, .ro, (fun _ _ => 0), id⟩]

def bridgeRows1 : List Row := [
  ⟨0x058, 1, 0, 24, 4, .ro, (fun _ _ => 0), id⟩,
  ⟨0x058, 1, 0, 31, 1, .ro, (fun _ _ => 0), id⟩,
  ⟨0x05C, 1, 0, 0, 32, .ro, (fun _ _ => 0), id⟩,
  ⟨0x060, 1, 0, 0, 10, .rw, (fun _ _ => 50), (fun v => clampR 10 1023 v)⟩,
  ⟨0x060, 1, 0, 31, 1, .rw, (fun _ _ => 0), id⟩,
  ⟨0x080, 1, 0, 0, 32, .rc, (fun _ _ => 0), id⟩,
  ⟨0x084, 1, 0, 0, 32, .rc, (fun _ _ => 0), id⟩,
  ⟨0x088, 1, 0, 0, 32, .rc, (fun _ _ => 0), id⟩,
  ⟨0x08C, 1, 0, 0, 32, .rc, (fun _ _ => 0), id⟩,
  ⟨0x090, 1, 0, 0, 32, .rc, (fun _ _ => 0), id⟩,
  ⟨0x094, 1, 0, 0, 32, .rc, (fun _ _ => 0), id⟩,
  ⟨0x0FC, 1, 0, 0, 5, .rw, (fun _ _ => 0), id⟩,
  ⟨0x100, 1, 0, 0, 24, .rw, (fun _ _ => 0), id⟩,
  ⟨0x100, 1, 0, 24, 2, .rw, (fun _ _ => 2), (fun v => (if v = 3 then 2 else v))⟩,
  ⟨0x100, 1, 0, 26, 3, .rw, (fun _ _ => 0), id⟩,
  ⟨0x100, 1, 0, 31, 1, .rw, (fun _ _ => 0), id⟩,
  ⟨0x104, 1, 0, 0, 16, .rw, (fun _ _ => 0), id⟩,
  ⟨0x104, 1, 0, 16, 3, .rw, (fun _ _ => 0), id⟩,
  ⟨0x108, 1, 0, 0, 16, .rc, (fun _ _ => 0), id⟩,
  ⟨0x108, 1, 0, 16, 16, .rc, (fun _ _ => 0), id⟩]

def bridgeRows : List Row := bridgeRows0 ++ bridgeRows1

def sdslotRows0 : List Row := [
  ⟨0x010, 1, 0, 0, 1, .ro, (fun _ _ => 0), id⟩,
  ⟨0x010, 1, 0, 1, 1, .ro, (fun _ _ => 0), id⟩,
  ⟨0x020, 1, 0, 0, 4, .ro, (fun _ _ => 0), id⟩,
  ⟨0x024, 1, 0, 0, 4, .rw, (fun _ _ => 0), id⟩,
  ⟨0x030, 1, 0, 0, 16, .rc, (fun _ _ => 0), id⟩,
  ⟨0x040, 1, 0, 0, 1, .ro, (fun _ _ => 0), id⟩,
  ⟨0x040, 1, 0, 1, 3, .ro, (fun _ _ => 0), id⟩,
  ⟨0x040, 1, 0, 4, 1, .ro, (fun _ _ => 0), id⟩,
  ⟨0x040, 1, 0, 5, 1, .ro, (fun _ _ => 0), id⟩,
  ⟨0x040, 1, 0, 6, 1, .ro, (fun _ _ => 0), id⟩,
  ⟨0x044, 1, 0, 0, 32, .ro, (fun _ _ => 0), id⟩,
  ⟨0x048, 1, 0, 0, 3, .rw, (fun _ _ => 5), (fun v => clampR 1 5 v)⟩,
  ⟨0x048, 1, 0, 8, 1, .rw, (fun _ _ => 1), id⟩,
  ⟨0x04C, 1, 0, 0, 1, .wo, (fun _ _ => 0), id⟩,
  ⟨0x04C, 1, 0, 1, 1, .wo, (fun _ _ => 0), id⟩,
  ⟨0x04C, 1, 0, 2, 1, .wo, (fun _ _ => 0), id⟩,
  ⟨0x050, 1, 0, 0, 32, .rw, (fun _ _ => 0), id⟩,
  ⟨0x054, 1, 0, 0, 6, .rw, (fun _ _ => 1), (fun v => clampR 1 32 v)⟩,
  ⟨0x058, 1, 0, 0, 10, .rw, (fun _ _ => 0), id⟩,
  ⟨0x05C, 1, 0, 0, 2, .ro, (fun _ _ => 0), id⟩]

def sdslotRows1 : List Row := [
  ⟨0x05C, 1, 0, 2, 4, .ro, (fun _ _ => 0), id⟩,
  ⟨0x05C, 1, 0, 8, 6, .ro, (fun _ _ => 0), id⟩,
  ⟨0x060, 4, 4, 0, 32, .ro, (fun _ _ => 0), id⟩]

def sdslotRows : List Row := sdslotRows0 ++ sdslotRows1

def switchesRows : List Row := [
  ⟨0x010, 1, 0, 0, 1, .ro, (fun _ _ => 0), id⟩,
  ⟨0x010, 1, 0, 1, 1, .ro, (fun _ _ => 0), id⟩,
  ⟨0x010, 1, 0, 2, 1, .ro, (fun _ _ => 0), id⟩,
  ⟨0x010, 1, 0, 3, 1, .ro, (fun _ _ => 0), id⟩,
  ⟨0x020, 1, 0, 0, 2, .ro, (fun _ _ => 0), id⟩,
  ⟨0x024, 1, 0, 0, 2, .rw, (fun _ _ => 0), id⟩,
  ⟨0x030, 1, 0, 0, 16, .rc, (fun _ _ => 0), id⟩,
  ⟨0x040, 1, 0, 0, 32, .ro, (fun _ _ => 0), id⟩,
  ⟨0x044, 1, 0, 0, 32, .ro, (fun _ _ => 0), id⟩,
  ⟨0x048, 1, 0, 0, 32, .ro, (fun _ _ => 0), id⟩,
  ⟨0x04C, 1, 0, 0, 32, .ro, (fun _ _ => 0), id⟩,
  ⟨0x050, 1, 0, 0, 1, .ro, (fun _ _ => 0), id⟩,
  ⟨0x050, 1, 0, 1, 1, .ro, (fun _ _ => 0), id⟩,
  ⟨0x050, 1, 0, 2, 1, .ro, (fun _ _ => 0), id⟩,
  ⟨0x054, 1, 0, 0, 16, .ro, (fun _ _ => 0), id⟩,
  ⟨0x058, 1, 0, 0, 14, .ro, (fun _ _ => 0), id⟩,
  ⟨0x058, 1, 0, 16, 11, .ro, (fun _ _ => 0), id⟩,
  ⟨0x05C, 1, 0, 0, 4, .ro, (fun _ _ => 0), id⟩]

def debugRows : List Row := [
  ⟨0x010, 1, 0, 0, 1, .ro, (fun _ _ => 0), id⟩,
  ⟨0x010, 1, 0, 1, 1, .ro, (fun _ _ => 0), id⟩,
  ⟨0x020, 1, 0, 0, 3, .ro, (fun _ _ => 0), id⟩,
  ⟨0x024, 1, 0, 0, 3, .rw, (fun _ _ => 0), id⟩,
  ⟨0x030, 1, 0, 0, 16, .rc, (fun _ _ => 0), id⟩,
  ⟨0x040, 1, 0, 0, 2, .ro, (fun _ _ => 3), id⟩,
  ⟨0x040, 1, 0, 2, 1, .ro, (fun _ _ => 0), id⟩,
  ⟨0x040, 1, 0, 4, 4, .ro, (fun _ _ => 0), id⟩,
  ⟨0x044, 1, 0, 0, 8, .ros, (fun _ _ => 0), id⟩,
  ⟨0x044, 1, 0, 8, 8, .ros, (fun _ _ => 0), id⟩,
  ⟨0x048, 1, 0, 0, 32, .ros, (fun _ _ => 0), id⟩,
  ⟨0x04C, 1, 0, 0, 32, .ros, (fun _ _ => 0), id⟩,
  ⟨0x050, 1, 0, 0, 6, .ro, (fun _ _ => 0), id⟩]

end Sys2Proof.Machine
end

