-- ==== Sys2Proof/Machine/PageRows.lean ====
section
/-! DEFINITION. The register table of every hub page (23 R552, R553), and the fields a restart keeps (00 R11). -/

namespace Sys2Proof.Machine

/-- The rows of hub page n. -/
def pageRows (n : Nat) : List Row :=
  if 0x10 ≤ n ∧ n < 0x30 then tenRows
  else if 0x30 ≤ n ∧ n < 0x34 then ethRows
  else if 0x3A ≤ n ∧ n < 0x42 then pollRows
  else if 0x42 ≤ n ∧ n < 0x52 then canRows
  else if 0x52 ≤ n ∧ n < 0x5A then fioRows ++ fioInRows
  else if 0x5A ≤ n ∧ n < 0x5E then fioRows ++ fioOutRows
  else match n with
    | 0x00 => sysRows | 0x01 => clkRows | 0x02 => pwrRows | 0x03 => thermRows | 0x04 => lockRows | 0x05 => updateRows | 0x06 => storeRows
    | 0x07 => ledgerRows | 0x08 => assayRows | 0x09 => lanemgrRows | 0x0A => courierRows | 0x0B => cycleRows | 0x0C => dimgRows
    | 0x0D => tallyRows | 0x0E => qmgrRows | 0x0F => memctlRows | 0x34 => mirrorRows | 0x35 => svcRows | 0x36 => almanacRows
    | 0x37 => porterRows | 0x38 => clockmakerRows | 0x39 => tstampRows | 0x5E => speedRows | 0x5F => millwrightRows | 0x60 => safeoutRows
    | 0x61 => safemsgRows | 0x62 => bridgeRows | 0x63 => sdslotRows | 0x64 => switchesRows | 0x65 => debugRows
    | _ => []

/-- Instance of a page that exists several times. -/
def pageInst (n : Nat) : Nat :=
  if 0x10 ≤ n ∧ n < 0x30 then n - 0x10
  else if 0x30 ≤ n ∧ n < 0x34 then n - 0x30
  else if 0x3A ≤ n ∧ n < 0x42 then n - 0x3A
  else if 0x42 ≤ n ∧ n < 0x52 then n - 0x42
  else if 0x52 ≤ n ∧ n < 0x5A then n - 0x52
  else if 0x5A ≤ n ∧ n < 0x5E then n - 0x5A
  else 0

/-- Index in the row's array of an offset, if the row holds it. -/
def Row.index (r : Row) (off : Nat) : Option Nat :=
  if off = r.off then some 0
  else if r.off < off ∧ 0 < r.stride ∧ (off - r.off) % r.stride = 0 ∧ (off - r.off) / r.stride < r.cnt then some ((off - r.off) / r.stride)
  else none

/-- A key of State.regs belongs to an RWS field. -/
def rwsKey (k : Nat) : Bool :=
  (pageRows (k / 32 / 4096 % 128)).any fun r =>
    (r.acc == .rws || r.acc == .ros) && (r.index (k / 32 % 4096)).isSome && r.lo == k % 32

/-- The RWS fields among register values (00 R11, 19 R474). -/
def rwsOf (m : SMap Nat) : SMap Nat := m.filter fun e => rwsKey e.1

end Sys2Proof.Machine
end

