-- ==== Sys2Proof/Machine/Store.lean ====
section
/-! DEFINITION. Flash storage management (19): partitions and commands of the STORE page, what the controller does by itself, mount, the power-fail save,
and the SD slot. -/

namespace Sys2Proof.Machine

def StoreS.dev (t : StoreS) (d : Fin 2) : DevS := if d = 0 then t.dev0 else t.dev1
def State.dev (s : State) (d : Fin 2) : DevS := s.store.dev d
def State.updDev (s : State) (d : Fin 2) (f : DevS → DevS) : State :=
  s.updSt fun t => if d = 0 then { t with dev0 := f t.dev0 } else { t with dev1 := f t.dev1 }

/-! ## Partitions (R464) -/

/-- Size in sectors. -/
def stSize (p : Nat) : Nat :=
  [2048, 2048, 8192, 8192, 256, 256, 65536, 65536, 524288, 524288, 8192, 8192, 2048, 65536, 4939264].getD p 0

/-- Placement: 0 device 0, 1 device 1, 2 mirrored, 3 striped. -/
def stPlace (p : Nat) : Nat := if p < 12 then p % 2 else if p < 14 then 2 else 3

/-- The devices that hold a sector (R466). -/
def stDevs (p sector : Nat) : List (Fin 2) :=
  match stPlace p with
  | 0 => [0]
  | 1 => [1]
  | 2 => [0, 1]
  | _ => [if sector % 2 = 0 then 0 else 1]

/-- Key of a sector's first byte in State.flash. -/
def flashKey (p sector : Nat) : Nat := p * 2 ^ 36 + sector * 4096

/-- n bytes of a partition. -/
def State.flashRead (s : State) (p off n : Nat) : List Byte := (List.range n).map fun i => SMap.get s.flash (p * 2 ^ 36 + off + i) 0

def State.flashWrite (s : State) (p sector : Nat) (b : List Byte) : State := s.flashPut (flashKey p sector) b

/-- A sector reads as zeros (R465). -/
def State.flashZero (s : State) (p sector : Nat) : State :=
  s.flashCut fun e => e.1 < flashKey p sector || flashKey p sector + 4096 ≤ e.1

/-! ## Devices (R468 to R471) -/

/-- ST_D_SPARE of a device as word 3 of its records (R481). -/
def State.spareWord (s : State) (d : Fin 2) : Nat := s.get (ST_D_SPARE_0 d.val) + 2 ^ 16 * s.get (ST_D_SPARE_16 d.val)

def State.devRecord (s : State) (d : Fin 2) (code sev w1 w2 : Nat) : State := s.record code sev [d.val, w1, w2, s.spareWord d]

/-- ST_DEV[d] after a change. -/
def State.devShow (s : State) (d : Fin 2) : State :=
  let v := s.dev d
  let ro := decide (v.spare - v.grown < 16)
  let s := ((s.setB (ST_D_STAT_0 d.val) (!v.failed)).setB (ST_D_STAT_1 d.val) v.failed).setB (ST_D_STAT_2 d.val) ro
  let s := (s.set (ST_D_SPARE_0 d.val) (v.spare - v.grown)).set (ST_D_SPARE_16 d.val) v.grown
  s.setB STORE_degraded (s.flag STORE_degraded || v.failed || ro)

/-- R469: a device is failed; the other carries on. -/
def State.devFail (s : State) (d : Fin 2) : State :=
  if (s.dev d).failed then s else
  (((s.updDev d fun v => { v with failed := true }).devShow d).raiseInt 6 5).devRecord d 0x0606 6 0 0

def execNandDeviceFail (d : Fin 2) (s : State) : Out := .next (if s.flag STORE_mounted then s.devFail d else s)

/-- R469: a grown bad block is retired; few spare blocks are reported. -/
def State.grownBad (s : State) (d : Fin 2) (block : Nat) : State :=
  let s := (s.updDev d fun v => { v with grown := v.grown + 1, erase := SMap.erase v.erase block }).devShow d
  let s := s.devRecord d 0x0601 4 block 0
  let left := s.get (ST_D_SPARE_0 d.val)
  let s := if left = 63 then (s.raiseInt 6 4).devRecord d 0x0605 5 0 0 else s
  if left = 15 then s.devRecord d 0x0605 5 0 0 else s

/-- A block is erased. -/
def State.blockErased (s : State) (d : Fin 2) (block : Nat) : State :=
  s.updDev d fun v => { v with erase := SMap.put v.erase block 0 (SMap.get v.erase block 0 + 1) }

/-- R471: a block is copied and its old copy erased. -/
def State.blockRefresh (s : State) (d : Fin 2) (block : Nat) : State :=
  let s := (s.blockErased d block).count (ST_D_REFRESH_0 d.val)
  s.once (0x0602 * 65536 + d.val) (60 * ticksPerSec) fun s => s.devRecord d 0x0602 2 block 0

/-- R468 step 1: bits corrected on a device. -/
def State.corrected (s : State) (d : Fin 2) (bits : Nat) : State := s.raiseTo (ST_D_CORR_0 d.val) bits

/-- R468: a codeword does not decode on a device. -/
def State.uncorr (s : State) (d : Fin 2) : State := (s.count STORE_uncorr_count).count (ST_D_UNCORR_0 d.val)

/-- R468 step 3: a sector served from the other device and rewritten. -/
def State.recovered (s : State) (d : Fin 2) (p sector : Nat) : State := ((s.uncorr d).raiseInt 6 2).devRecord d 0x0603 4 p sector

/-- R468 step 4: a sector is lost. -/
def State.lostSector (s : State) (d : Fin 2) (p sector : Nat) : State := ((s.uncorr d).raiseInt 6 3).devRecord d 0x0604 5 p sector

/-- R471: the scrubber has read the next block; bits corrected in its worst codeword, reads since its last erase, data that did not decode. -/
def State.scrubBlock (s : State) (d : Fin 2) (bits reads : Nat) (loss : List ScrubLoss) : State :=
  let b := s.get (ST_D_SCRUB_0 d.val)
  let s := s.corrected d (min bits 40)
  let s := s.each loss fun s x => if stPlace x.part = 2 ∧ x.other then s.recovered d x.part x.sector else s.lostSector d x.part x.sector
  let s := if 24 ≤ bits ∨ 100000 ≤ reads then s.blockRefresh d b else s
  let s := s.set (ST_D_SCRUB_0 d.val) ((b + 1) % 28672)
  if b + 1 = 28672 then (s.count (ST_D_SCRUB_16 d.val)).devRecord d 0x0608 1 0 0 else s

def execScrubBlock (d : Fin 2) (bits reads : Nat) (loss : List ScrubLoss) (s : State) : Out :=
  .next (if s.flag STORE_mounted ∧ (s.dev d).failed = false then s.scrubBlock d bits reads loss else s)

/-- Erase counts of the blocks that are not listed are 0; the spread over the device. -/
def DevS.worst (v : DevS) : Nat := (v.erase.map fun e => e.2).foldl max 0

/-- The least worn good block. -/
def DevS.leastWorn (v : DevS) : Nat × Nat :=
  if v.erase.length + v.grown < 28672 then
    (((List.range 28672).find? fun b => (SMap.find? v.erase b).isNone).getD 0, 0)
  else v.erase.foldl (fun m e => if e.2 < m.2 then e else m) (v.erase.headD (0, 0))

/-- R470: static wear levelling moves the least worn block's content; its old copy is erased. -/
def execStaticWearMove (d : Fin 2) (s : State) : Out :=
  .next (
    let v := s.dev d
    if s.flag STORE_mounted ∧ v.failed = false ∧ v.leastWorn.2 + 600 < v.worst then s.blockErased d v.leastWorn.1 else s)

/-- ST_D_WEAR and ST_PF as read at mount. -/
def State.wearShow (s : State) (d : Fin 2) : State :=
  let v := s.dev d
  let sum := (v.erase.map fun e => e.2).sum
  (s.set (ST_D_WEAR_0 d.val) (sum / (28672 - v.grown))).set (ST_D_WEAR_16 d.val) v.worst

def State.mountDev (s : State) (d : Fin 2) (x : NandId) : State :=
  let s := s.updDev d fun v => { v with spare := x.spare }
  let s := (s.devShow d).wearShow d
  if x.ok then s else s.devFail d

/-- R475: both devices are mounted. -/
def execNandMount (d0 d1 : NandId) (s : State) : Out :=
  .next (
    if s.power ≠ .run ∨ s.flag STORE_mounted then s else
    let s := (s.mountDev 0 d0).mountDev 1 d1
    let s := ((s.set ST_PF_0 s.store.pfTime).setB ST_PF_16 s.store.pfRet).setB ST_PF_17 s.store.pfLed
    s.set STORE_mounted 1)

/-! ## Commands (R467) -/

/-- A storage command ends: ST_STAT, INT_RAW done or cmd_err. -/
def State.stEnd (s : State) (err : Bool) (reason n : Nat) : State :=
  let s := ((s.set ST_STAT_0 (if err then 3 else 2)).set ST_STAT_2 reason).set ST_STAT_8 n
  ((s.set STORE_busy 0).updSt fun t => { t with cmd := none }).raiseInt 6 (if err then 1 else 0)

/-- A write of ST_GO. -/
def State.stGo (s : State) (op : Nat) : State :=
  if op % 4 = 0 then s else
  if s.flag STORE_busy then (s.set ST_STAT_2 6).raiseInt 6 1 else
  if !s.flag STORE_mounted then s.stEnd true 6 0 else
  let p := s.get ST_PART_0
  if op % 4 ≠ 1 ∧ (p = 12 ∨ p = 13) then s.stEnd true 1 0 else
  if op % 4 ≠ 1 ∧ p < 12 ∧ !bitOf (s.get ST_SLOTOPEN_0) p then s.stEnd true 2 0 else
  let lba := min (s.get ST_LBA_0) (stSize p - 1)
  let n := min (clampR 1 64 (s.get ST_COUNT_0)) (min (stSize p - lba) (0xF40 - clampR 0xF00 0xF3F (s.get ST_BUF_12)))
  let s := (((s.set ST_LBA_0 lba).set ST_COUNT_0 n).set ST_STAT_0 1).set ST_STAT_2 0
  ((s.set ST_STAT_8 0).set STORE_busy 1).updSt fun t =>
    { t with cmd := some { op := op % 4, part := p, lba := lba, count := n, buf := clampR 0xF00 0xF3F (s.get ST_BUF_12) * 4096 } }

def execStRead (a : Acc) (s : State) : Out := .next (s.writeAt a 6 0x050 fun s => s.stGo 1)
def execStWrite (a : Acc) (s : State) : Out := .next (s.writeAt a 6 0x050 fun s => s.stGo 2)
def execStDiscard (a : Acc) (s : State) : Out := .next (s.writeAt a 6 0x050 fun s => s.stGo 3)

/-- Payload length that an image header gives (21 R518). -/
def hdrLen (h : List Byte) : Nat := beAt h 40 8

/-- 21 R523 step 3: the Locksmith hashes the payload as it passes; out of order or beyond the length the slot is failed. -/
def OpenSlot.pass (o : OpenSlot) (sector : Nat) (b : List Byte) : OpenSlot :=
  let len := hdrLen o.hdr
  if sector ≠ o.next ∨ 1 + (len + 4095) / 4096 ≤ sector then { o with failed := true } else
  if sector = 0 then { o with next := 1 } else
  let off := (sector - 1) * 4096
  if off + 4096 ≤ len then { o with next := sector + 1, hash := shaBlocks 32 o.hash b }
  else { o with next := sector + 1, digest := some (shaEnd o.hash (b.take (len - off)) len) }

/-- The open slot sees a sector written to its partition. -/
def State.slotPass (s : State) (p sector : Nat) (b : List Byte) : State :=
  match s.upd.sess with
  | some u => match u.slot with
    | some o => if p / 2 + 1 = o.type then s.updU fun x => { x with sess := some { u with slot := some (o.pass sector b) } } else s
    | none => s
  | none => s

/-- How far a command has come: sectors done, and the reason it stops for. -/
structure StRun where
  s : State
  n : Nat
  stop : Nat
  reco : Bool

/-- Sector i of a command. -/
def stSector (c : StCmd) (r : StResult) (g : StRun) (i : Nat) : StRun :=
  if g.stop ≠ 0 then g else
  let s := g.s
  let lba := c.lba + i
  let devs := (stDevs c.part lba).filter fun d => !(s.dev d).failed
  match devs with
  | [] => { g with stop := 4 }
  | d :: others =>
    let buf := c.buf + i * 4096
    if c.op = 1 then
      match r.lost.find? fun e => e.1 = i with
      | some e =>
        if others ≠ [] ∧ e.2 then
          { g with s := (s.recovered d c.part lba).hubWrite buf (s.flashRead c.part (lba * 4096) 4096), n := i + 1, reco := true }
        else { g with s := (s.lostSector d c.part lba).set ST_ERRSEC_0 lba, stop := 3 }
      | none => { g with s := s.hubWrite buf (s.flashRead c.part (lba * 4096) 4096), n := i + 1 }
    else if c.op = 2 then
      if (d :: others).any fun d => s.flag (ST_D_STAT_2 d.val) then { g with stop := 5 } else
      let b := s.hubRead buf 4096
      { g with s := (s.flashWrite c.part lba b).slotPass c.part lba b, n := i + 1 }
    else { g with s := s.flashZero c.part lba, n := i + 1 }

/-- R467 to R471: a storage command completes. -/
def State.stComplete (s : State) (c : StCmd) (r : StResult) : State :=
  let s := s.each r.grown fun s e => s.grownBad e.1 e.2
  let s := s.each r.erased fun s e => s.blockErased e.1 e.2
  let s := s.each [((0 : Fin 2), r.corr0), (1, r.corr1)] fun s e =>
    let s := s.corrected e.1 (min e.2 40)
    if c.op = 1 ∧ 24 ≤ e.2 then s.blockRefresh e.1 (c.lba / 128) else s
  let g := (List.range c.count).foldl (stSector c r) { s := s, n := 0, stop := 0, reco := false }
  g.s.stEnd (g.stop ≠ 0) (if g.stop ≠ 0 then g.stop else if g.reco then 7 else 0) g.n

def execStoreCommandComplete (r : StResult) (s : State) : Out :=
  .next (match s.store.cmd with | some c => s.stComplete c r | none => s)

/-! ## The save at power fail, warm restart and stabling (R474, 06 R171, 18 R455) -/

/-- The sequence numbers of safe messages go with the retained variables (16 R410). -/
def State.safeSave (s : State) : State :=
  s.updS fun k => { k with saved := (List.range k.tx.length).foldl (fun m n => SMap.put m n 0 (s.txRun n).next) [] }

/-- The save is programmed: retain area, Ledger head, RWS fields, up to 256 unflushed records. `fail`: at
power fail, where the other unflushed records are lost. `lost0`, `lost1`: the device has no erased block left. -/
def State.pfSave (s : State) (fail lost0 lost1 : Bool) : State :=
  let s := s.retSave.headSave.safeSave
  let base := 128 * (s.store.saves % 16)
  let open' := s.unflushed
  let kept := (open'.take 256).map (·.seq)
  let s := s.each (List.range 64) fun s i => s.flashWrite 12 (base + i) (s.hubRead (retBase + 4096 * i) 4096)
  let s := (s.flashWrite 12 (base + 64) (leBytes 4096 (Config.freeValue s.freeCtr))).draw
  let s := (s.flashWrite 12 (base + 65) (leBytes 4096 (Config.freeValue s.freeCtr))).draw
  let s := s.flashWrite 12 (base + 66) ((open'.take 256).flatMap LKept.bytes)
  let s := if !fail then s else s.updLg fun g => { g with
    saved := true, lost := open'.length - 256
    recs := g.recs.filterMap fun e => if e.flushed then some e else if kept.contains e.seq then some { e with flushed := true } else none }
  let s := s.updSt fun t => { t with
    pfTime := Config.freeValue s.freeCtr % 651, pfRet := !lost0 && !lost1, pfLed := true, rws := rwsOf s.regs, saves := t.saves + 1 }
  let s := if lost0 then s.devRecord 0 0x0607 5 0 0 else s
  let s := if lost1 then s.devRecord 1 0x0607 5 0 0 else s
  s.draw

/-! ## SD slot (R476, R477, R480) -/

/-- SD_RSTAT as word 3 of the records. -/
def State.sdWord (s : State) : Nat := s.get SD_RSTAT_0 + 4 * s.get SD_RSTAT_2 + 256 * s.get SD_RSTAT_8

def State.sdRecord (s : State) (code sev w1 w2 : Nat) : State := s.record code sev [0, w1, w2, s.sdWord]

/-- SD_STAT of no card set up. -/
def State.sdClear (s : State) : State :=
  let s := ((s.set SD_STAT_0 0).set SD_STAT_1 0).set SD_STAT_4 0
  (s.set SD_STAT_5 0).set SD_STAT_6 0

def execSdCardDetect (present : Bool) (s : State) : Out :=
  .next (
    if s.power ≠ .run ∨ s.flag SDSLOT_present = present then s else
    let s := (s.setB SDSLOT_present present).raiseInt 0x63 (if present then 0 else 1)
    (if present then s else s.sdClear).sdRecord 0x6301 3 (b2n present) 0)

/-- An SD read ends without all its blocks, or is refused. -/
def State.sdError (s : State) (reason n lba : Nat) : State :=
  let s := ((s.set SD_RSTAT_0 3).set SD_RSTAT_2 reason).set SD_RSTAT_8 n
  (s.raiseInt 0x63 3).sdRecord 0x6303 4 reason lba

def State.sdInit (s : State) : State :=
  if !s.flag SDSLOT_present then (((s.set SD_RSTAT_0 3).set SD_RSTAT_2 1).set SD_RSTAT_8 0).raiseInt 0x63 3
  else (s.sdClear.set SDSLOT_busy 1).updSt fun t => { t with sdInit := true }

def State.sdRead (s : State) : State :=
  let lba := s.get SD_LBA_0
  let n := clampR 1 32 (s.get SD_COUNT_0)
  let q := s.get SD_QUEUE_0
  if !s.flag SDSLOT_present ∨ !s.flag SD_STAT_0 then s.sdError 1 0 lba
  else if s.get SD_CAP_0 < lba + n then s.sdError 4 0 lba
  else if !(s.q q).enabled ∨ !s.qPkt q then s.sdError 5 0 lba
  else
    let s := ((s.set SD_RSTAT_0 1).set SD_RSTAT_2 0).set SD_RSTAT_8 0
    (s.set SDSLOT_busy 1).updSt fun t => { t with sd := some (lba, n, q) }

def State.sdOff (s : State) : State := (s.sdClear.set SDSLOT_busy 0).updSt fun t => { t with sd := none, sdInit := false }

/-- A write of SD_CMD: a command that runs makes init and read ignored. -/
def State.sdCmd (s : State) (v : Nat) : State :=
  let s := if bitOf v 0 ∧ !s.flag SDSLOT_busy then s.sdInit else s
  let s := if bitOf v 1 ∧ !s.flag SDSLOT_busy then s.sdRead else s
  if bitOf v 2 then s.sdOff else s

def execSdInit (a : Acc) (s : State) : Out := .next (s.writeAt a 0x63 0x04C fun s => s.sdCmd 1)
def execSdRead (a : Acc) (s : State) : Out := .next (s.writeAt a 0x63 0x04C fun s => s.sdCmd 2)
def execSdPowerOff (a : Acc) (s : State) : Out := .next (s.writeAt a 0x63 0x04C fun s => s.sdCmd 4)

/-- R476, R477: identification and bus setup end. -/
def State.sdInitDone (s : State) (r : SdInit) : State :=
  let s := (s.set SDSLOT_busy 0).updSt fun t => { t with sdInit := false }
  if !s.flag SDSLOT_present then (((s.set SD_RSTAT_0 3).set SD_RSTAT_2 1).set SD_RSTAT_8 0).raiseInt 0x63 3
  else if r.ok ∧ !r.sdsc then
    let m := clampR 1 (clampR 1 5 (s.get SD_CTL_0)) r.mode
    let s := ((s.set SD_STAT_0 1).set SD_STAT_1 m).setB SD_STAT_4 (3 ≤ m)
    let s := (s.setB SD_STAT_5 r.xc).set SD_CAP_0 r.cap
    (s.each (List.range 4) fun s k => s.set (SD_CID_0 k) (r.cid / 2 ^ (32 * k))).raiseInt 0x63 2
  else ((s.set SD_STAT_6 1).raiseInt 0x63 3).sdRecord 0x6302 4 0 0

def execSdInitComplete (r : SdInit) (s : State) : Out := .next (if s.store.sdInit then s.sdInitDone r else s)

/-- R477: the packet of a read that ends early, its last word poisoned. -/
def State.sdPartial (s : State) (q : Nat) (b : List Byte) : State :=
  let s := s.each (List.range (b.length / 4)) fun s i => s.qPush q { src := none, addr := 0, word := leAt b (4 * i) 4, k := 0, tag := 0x63, poison := false }
  s.qPush q { src := none, addr := 0, word := 0, k := 4, tag := 0x63, poison := true }

/-- R477. -/
def State.sdReadEnd (s : State) (lba n q : Nat) (r : SdResult) : State :=
  let b := r.blocks.flatten
  let s := (s.addSat SDSLOT_crc_errs r.crcErrs).set SDSLOT_busy 0
  let s := s.updSt fun t => { t with sd := none }
  if r.blocks.length = n then
    let s := s.qPacket q 0x63 b
    (((s.set SD_RSTAT_0 2).set SD_RSTAT_2 0).set SD_RSTAT_8 n).raiseInt 0x63 2
  else
    let s := if r.blocks = [] then s else s.sdPartial q b
    s.sdError r.reason.val r.blocks.length lba

/-- Whole blocks only: all of them with reason 0, fewer with a reason (anything else ends no read). -/
def execSdReadEnd (r : SdResult) (s : State) : Out :=
  .next (match s.store.sd with
    | some (lba, n, q) =>
      if (r.blocks.all fun b => b.length = 512) ∧ (if r.reason = 0 then r.blocks.length = n else r.blocks.length < n) then s.sdReadEnd lba n q r else s
    | none => s)

end Sys2Proof.Machine
end

