-- ==== Sys2Proof/Machine/Lock.lean ====
section
/-! DEFINITION. The Locksmith (21 R506 to R517): fuses, keys, operations and tokens, service window, tamper. -/

namespace Sys2Proof.Machine


/-! ## Fuses (R506, R507) -/

/-- Lifecycle state code of n counter bits burnt: 0 FACTORY, 1 PROVISIONED, 2 IN_SERVICE, 3 RETURNED, 4 RETIRED. -/
def lifeCode (n : Nat) : Nat := if n = 0 then 0 else if 16 ≤ n then 4 else if n % 3 = 0 then 3 else n % 3

/-- Refurbishments left. -/
def refurbLeft (n : Nat) : Nat := min 4 ((15 - n) / 3)

def State.life (s : State) : Nat := lifeCode s.lock.n

/-- The registers that show fuses (R530). -/
def State.fuseShow (s : State) : State :=
  let k := s.lock
  let s := ((s.set LK_LIFE_0 (lifeCode k.n)).set LK_LIFE_16 k.n).set LK_LIFE_24 (refurbLeft k.n)
  let s := (s.set LOCK_life (lifeCode k.n)).set LK_FLOOR_0 k.floor
  let s := ((s.set LK_KEYS_0 k.rev0).set LK_KEYS_8 k.rev1).set LK_KEYS_16 k.rev2
  (s.set LK_KEYS_24 (k.burnt1 + 16 * k.burnt2)).set64 LK_CHIPID_LO_0 LK_CHIPID_HI_0 k.chip

/-- Generations burnt in a slot. -/
def LockS.burnt (k : LockS) (slot : Nat) : Nat := if slot = 0 then 4 else if slot = 1 then k.burnt1 else if slot = 2 then k.burnt2 else 0

/-- Generations revoked, as bits. -/
def LockS.revoked (k : LockS) (slot : Nat) : Nat := if slot = 0 then k.rev0 else if slot = 1 then k.rev1 else k.rev2

def LockS.setRevoked (k : LockS) (slot v : Nat) : LockS :=
  if slot = 0 then { k with rev0 := v } else if slot = 1 then { k with rev1 := v } else { k with rev2 := v }

/-- R506: the public key stands in its slot and generation. -/
def LockS.keyOk (k : LockS) (slot gen : Nat) (pub : List Byte) : Bool :=
  decide (gen < k.burnt slot) && !bitOf (k.revoked slot) gen && SMap.get k.hashes (slot * 16 + gen) 0 == beNat (sha384 pub)

/-- The reason a signed object's key and signature give: 0, 2 key, 1 signature. -/
def LockS.sigReason (k : LockS) (slot gen : Nat) (pub msg sig : List Byte) : Nat :=
  if !k.keyOk slot gen pub then 2 else if ecVerify pub (sha384 msg) sig then 0 else 1

/-! ## Records (R533) -/

/-- LK_TAMPER as a word. -/
def State.tamperWord (s : State) : Nat := s.get LK_TAMPER_0 + 256 * s.get LK_TAMPER_8 + 2 ^ 16 * s.get LK_TAMPER_16
/-- LK_STAT as a word. -/
def State.lkWord (s : State) : Nat := s.get LK_STAT_0 + 16 * s.get LK_STAT_4 + 256 * s.get LK_STAT_8
/-- LK_LIFE as a word. -/
def State.lifeWord (s : State) : Nat := s.get LK_LIFE_0 + 2 ^ 16 * s.get LK_LIFE_16 + 2 ^ 24 * s.get LK_LIFE_24

def State.lkRecord (s : State) (code sev w0 : Nat) : State := s.record code sev [w0, s.lkWord, 0, s.lifeWord]

/-! ## Strongroom and keys (R201, R509) -/

/-- R201: the Strongroom is wiped. -/
def State.roomWipe (s : State) : State :=
  ((s.hubZero 0xFC0000 0x40000).updLk fun k => { k with keys := none }).set LOCK_keys 0

/-- R509: the device keys, in PROVISIONED and IN_SERVICE with no tamper latched. -/
def State.keyDerive (s : State) : State :=
  if (s.life = 1 ∨ s.life = 2) ∧ s.get LK_TAMPER_0 = 0 then
    let k := Config.kdf s.lock.huk s.lock.chip s.lock.n
    (s.updLk fun l => { l with keys := some (k.1 % (ecN - 1) + 1, k.2 % 2 ^ 384) }).set LOCK_keys 1
  else s

/-- A new random nonce (R512). -/
def State.newNonce (s : State) : State := (s.set64 LK_NONCE_LO_0 LK_NONCE_HI_0 (Config.freeValue s.freeCtr % 2 ^ 64)).draw

/-! ## Supply off (20 R485, R489) -/

/-- The hub and the lanes lose their supply, or restart as from OFF: what volatile state they held is set up by the next start. -/
def State.shutOff (s : State) (restart : Nat) : State :=
  let s := s.each allLanes fun s l => s.set (laneField l) lOff
  let s := (s.roomWipe.set ASSAY_voters 0).set ASSAY_mode 0
  (s.setPower .off).updCyc fun c => { c with restart := restart }

/-! ## Update sessions end (R523) -/

def State.sessEnd (s : State) : State :=
  let s := s.updU fun u => { u with sess := none }
  let s := ((s.set UPDATE_session 0).set ST_SLOTOPEN_0 0).set UPD_SESSION_0 0
  (s.set UPD_SESSION_8 0).set UPD_SESSION_16 0

/-! ## Operations end -/

def State.lkDone (s : State) : State :=
  ((s.set LK_STAT_0 2).set LK_STAT_4 0).raiseInt 4 1

def State.lkError (s : State) (reason : Nat) : State :=
  ((s.set LK_STAT_0 3).set LK_STAT_4 reason).raiseInt 4 2

/-- LK_RESULT: the first byte in bits 31 to 24 of the first word. -/
def State.lkResult (s : State) (b : List Byte) : State :=
  s.each (List.range 25) fun s i => s.set (LK_RESULT_0 i) (beNat ((sub b (4 * i) 4 ++ [0, 0, 0, 0]).take 4))

/-- R512: an object is refused. -/
def State.tokenRefuse (s : State) (reason : Nat) : State := ((s.lkError reason).lkRecord 0x0407 4 0).newNonce

/-! ## Tamper (R511, R514, R515) -/

/-- Occasion of a tamper event: 0 start-up, 1 RUN or DOZE, 2 STABLE, 3 key operation. -/
def State.occasion (s : State) : Nat :=
  if s.power = .stable then 2 else if s.lock.startup then 0
  else if (s.lock.op.map fun o => decide (4 ≤ o.op ∧ o.op ≤ 7)) = some true then 3 else 1

/-- An armed source fires. `bad`: the wipe's read-back compare failed (R201). -/
def State.tamper (s : State) (src : Nat) (bad : Bool) : State :=
  let o := s.occasion
  let s := if s.get LK_TAMPER_0 = 0 then
      ((s.set LK_TAMPER_16 o).set LK_T_OPTIME_0 (s.get LG_OPTIME_0)).set LK_T_PCYCLE_0 (s.get LG_PCYCLE_0)
    else s
  let s := (s.set LK_TAMPER_0 (setBit (s.get LK_TAMPER_0) src)).set LOCK_latched 1
  if o = 2 then s.roomWipe.updLk fun k => { k with owed := k.owed + 1 } else
  let s := if o = 3 then ((s.updLk fun k => { k with op := none }).lkResult []).lkError 7 else s
  let s := s.roomWipe
  let s := ((s.raiseInt 4 0).count LOCK_tamper_count).lkRecord 0x0401 7 s.tamperWord
  let s := if o = 3 then s.lkRecord 0x0406 6 s.tamperWord else s
  let s := if o = 0 then s.serviceOnly 1 else s
  if bad then s.setPassive 3 else s

/-- R514, R533: the records of tamper events of STABLE, raised before the Ledger has mounted again. -/
def State.tamperOwed (s : State) : State :=
  (s.each (List.replicate s.lock.owed 0) fun s _ => s.lkRecord 0x0401 7 s.tamperWord).updLk fun k => { k with owed := 0 }

/-- LK_ARM (R514, R516). -/
def State.armShow (s : State) : State :=
  s.set LK_ARM_0 (56 + (if s.lock.window.isSome then 0 else s.lock.arm % 8))

/-- A source fires, or rests again. -/
def State.tamperEdge (s : State) (src : Nat) (firing bad : Bool) : State :=
  let s := s.set LK_TAMPER_8 (if firing then setBit (s.get LK_TAMPER_8) src else clrBit (s.get LK_TAMPER_8) src)
  if !firing ∨ s.power = .off then s
  else if bitOf (s.get LK_ARM_0) src then s.tamper src bad
  else if s.lock.window.isSome then s.lkRecord 0x0403 3 0
  else s

def execTamperEvent (src : Fin 6) (firing bad : Bool) (s : State) : Out := .next (s.tamperEdge src.val firing bad)

/-! ## Service window (R516) -/

def State.windowOpen (s : State) (sec : Nat) : State :=
  let s := s.updLk fun k => { k with window := some (s.counter + sec * ticksPerSec) }
  (((s.set LOCK_window 1).set LK_WINDOW_0 sec).armShow.raiseInt 4 3).lkRecord 0x0402 4 0

/-- The window closes; what stands open then is a tamper. -/
def State.windowClose (s : State) : State :=
  if s.lock.window.isNone then s else
  let s := s.updLk fun k => { k with window := none }
  let s := (((s.set LOCK_window 0).set LK_WINDOW_0 0).armShow.raiseInt 4 3).lkRecord 0x0402 4 0
  s.each [0, 1, 2] fun s i => if bitOf (s.get LK_ARM_0) i ∧ bitOf (s.get LK_TAMPER_8) i then s.tamper i false else s

def execServiceWindowEnd (s : State) : Out := .next s.windowClose

/-- Seconds left in the window now. -/
def State.windowLeft (s : State) : Nat :=
  match s.lock.window with
  | some e => (e - s.counter + ticksPerSec - 1) / ticksPerSec
  | none => 0

/-! ## Tokens and lifecycle objects (R512) -/

/-- An object's parameter. -/
def tokParam (t : List Byte) : Nat := beAt t 24 4

/-- The checks of R512 in their order; `param`: the parameter is in range; `slot`: the key slot (and generation) is the one required. -/
def State.tokenReason (s : State) (t : List Byte) (kind : Nat) (param slot : Bool) : Nat :=
  if t.length ≠ 328 ∨ t.take 4 ≠ [0x45, 0x55, 0x4C, 0x4B] ∨ beAt t 4 1 ≠ kind then 9
  else if beAt t 8 8 ≠ s.lock.chip ∨ beAt t 16 8 ≠ s.get64 LK_NONCE_LO_0 LK_NONCE_HI_0 then 3
  else if !param then 9
  else if !slot then 2
  else s.lock.sigReason (beAt t 128 1) (beAt t 129 1) (sub t 132 97) (t.take 232) (sub t 232 96)

/-- An object accepted: its effect, then a new nonce. -/
def State.tokenTake (s : State) (r : Nat) (f : State → State) : State :=
  if r ≠ 0 then s.tokenRefuse r else (f s.lkDone).newNonce

def State.opOpen (s : State) (t : List Byte) : State :=
  if s.life ≠ 1 ∧ s.life ≠ 2 then s.tokenRefuse 5
  else if s.get LK_TAMPER_0 ≠ 0 then s.tokenRefuse 6
  else if !s.serviceEnable then s.tokenRefuse 4
  else
    s.tokenTake (s.tokenReason t 2 (60 ≤ tokParam t ∧ tokParam t ≤ 3600) (beAt t 128 1 = 2)) fun s => s.windowOpen (tokParam t)

/-- R517. -/
def State.opRelease (s : State) (t : List Byte) : State :=
  if !s.serviceEnable then s.tokenRefuse 4
  else if s.get LK_TAMPER_8 ≠ 0 then s.tokenRefuse 6
  else
    s.tokenTake (s.tokenReason t 3 (tokParam t = 0) (beAt t 128 1 = 2)) fun s =>
      ((s.set LK_TAMPER_0 0).set LOCK_latched 0).lkRecord 0x0404 6 0

/-- R512: a revoke token is signed with a higher generation of the slot it revokes. -/
def State.opRevoke (s : State) (t : List Byte) : State :=
  let slot := bitsOf (tokParam t) 4 4
  let gen := tokParam t % 16
  s.tokenTake (s.tokenReason t 4 (tokParam t < 256 ∧ slot ≤ 2 ∧ gen < s.lock.burnt slot) (beAt t 128 1 = slot ∧ gen < beAt t 129 1)) fun s =>
    (s.updLk fun k => k.setRevoked slot (setBit (k.revoked slot) gen)).fuseShow.lkRecord 0x0408 3 0

/-- R508: slot the transition's object is signed by (two where either may sign), and which hashes it carries: 0 none, 1 optional, 2 required. -/
def transRule (src dst : Nat) : Option (List Nat × Nat) :=
  match src, dst with
  | 0, 1 => some ([0], 2)
  | 1, 2 => some ([1], 0)
  | 1, 3 => some ([1], 0)
  | 2, 3 => some ([1], 0)
  | 3, 1 => some ([0], 1)
  | 1, 4 => some ([0, 1], 0)
  | 2, 4 => some ([0, 1], 0)
  | 0, 4 => some ([0], 0)
  | 3, 4 => some ([0], 0)
  | _, _ => none

/-- R507: the counter value of the target state that is reached by burning the fewest bits. -/
def transN (n dst : Nat) : Nat := ((List.range 17).find? fun m => decide (n < m) && lifeCode m == dst).getD n

/-- A hash burnt into the next free generation of slot 1 or 2; earlier generations are revoked. -/
def LockS.burnHash (k : LockS) (slot h : Nat) : LockS :=
  if h = 0 then k else
  let g := k.burnt slot
  let k := { k with hashes := SMap.put k.hashes (slot * 16 + g) 0 h }
  let k := if slot = 1 then { k with burnt1 := g + 1 } else { k with burnt2 := g + 1 }
  k.setRevoked slot (k.revoked slot ||| (2 ^ g - 1))

/-- R508: an accepted transition. -/
def State.transition (s : State) (t : List Byte) : State :=
  let dst := tokParam t
  let s := s.sessEnd
  let s := (s.updLk fun k =>
    let k := { k with n := transN k.n dst, huk := if dst = 4 then 0 else k.huk }
    (k.burnHash 1 (beAt t 32 48)).burnHash 2 (beAt t 80 48)).fuseShow
  (s.roomWipe.lkRecord 0x0405 5 dst).shutOff 2

def State.opTransition (s : State) (t : List Byte) : State :=
  let dst := tokParam t
  let h1 := beAt t 32 48
  let h2 := beAt t 80 48
  if !s.serviceEnable then s.tokenRefuse 4 else
  match transRule s.life dst with
  | none => s.tokenRefuse (if 4 < dst ∨ dst = 0 then 9 else 5)
  | some (slots, hashes) =>
    if s.life = 3 ∧ s.lock.n = 15 ∧ dst = 1 then s.tokenRefuse 5 else
    let param := (hashes = 0 ∧ h1 = 0 ∧ h2 = 0) ∨ hashes = 1 ∨ (hashes = 2 ∧ h1 ≠ 0 ∧ h2 ≠ 0)
    s.tokenTake (s.tokenReason t 1 (decide param) (slots.contains (beAt t 128 1))) fun s => s.transition t

/-! ## Key operations and verification (R510) -/

def State.opSign (s : State) (k : Nat × Nat) (b : List Byte) : State :=
  if b.length ≠ 48 then s.lkError 9
  else ((s.lkResult (ecSign k.1 (Config.freeValue s.freeCtr % (ecN - 1) + 1) b)).draw).lkDone

/-- A signed object of 21 R512, R518 or R522: its key and signature. -/
def LockS.signedOk (k : LockS) (b : List Byte) : Option Bool :=
  let m := b.take 4
  if m = [0x45, 0x55, 0x4C, 0x4B] ∧ b.length = 328 then
    some (k.sigReason (beAt b 128 1) (beAt b 129 1) (sub b 132 97) (b.take 232) (sub b 232 96) == 0)
  else if m = [0x45, 0x55, 0x49, 0x4D] ∧ 512 ≤ b.length then
    some (k.sigReason (beAt b 96 1) (beAt b 97 1) (sub b 100 97) (b.take 200) (sub b 200 96) == 0)
  else if m = [0x45, 0x55, 0x43, 0x54] ∧ 512 ≤ b.length then
    some (k.sigReason (beAt b 112 1) (beAt b 113 1) (sub b 116 97) (b.take 216) (sub b 216 96) == 0)
  else none

def State.opVerify (s : State) (b : List Byte) : State :=
  match s.lock.signedOk b with
  | some v => (s.setB LK_STAT_8 v).lkDone
  | none => s.lkError 9

/-- The operation in progress completes. -/
def State.lkComplete (s : State) (o : LkOp) : State :=
  let s := s.updLk fun k => { k with op := none }
  match o.op with
  | 1 => s.opOpen o.input
  | 2 => s.windowClose.lkDone
  | 3 => s.opRelease o.input
  | 4 => s.opTransition o.input
  | 8 => s.opVerify o.input
  | 9 => s.opRevoke o.input
  | n => match s.lock.keys with
    | none => s.lkError 6
    | some k =>
      if n = 5 then s.opSign k o.input
      else if n = 6 then (s.lkResult (pubOf k.1)).lkDone
      else (s.lkResult (hmac384 (beBytes 48 k.2) o.input)).lkDone

def execLocksmithOpComplete (s : State) : Out := .next (match s.lock.op with | some o => s.lkComplete o | none => s)

/-- A write of LK_CMD: the input is taken from hub SRAM. -/
def State.lkCmd (s : State) (v : Nat) : State :=
  let op := v % 16
  if op = 0 ∨ 9 < op then s
  else if s.lock.op.isSome then (s.set LK_STAT_4 8).raiseInt 4 2
  else
    let b := s.hubRead (clampR 0xF00 0xF3F (s.get LK_BUF_12) * 4096) (clampR 1 4096 (s.get LK_LEN_0))
    let s := ((s.set LK_STAT_0 1).set LK_STAT_4 0).set LK_STAT_8 0
    (s.lkResult []).updLk fun k => { k with op := some { op := op, input := b } }

def execLkOpenWindow (a : Acc) (s : State) : Out := .next (s.writeAt a 4 0x060 fun s => s.lkCmd 1)
def execLkCloseWindow (a : Acc) (s : State) : Out := .next (s.writeAt a 4 0x060 fun s => s.lkCmd 2)
def execLkReleaseTamper (a : Acc) (s : State) : Out := .next (s.writeAt a 4 0x060 fun s => s.lkCmd 3)
def execLkLifecycleTransition (a : Acc) (s : State) : Out := .next (s.writeAt a 4 0x060 fun s => s.lkCmd 4)
def execLkSign (a : Acc) (s : State) : Out := .next (s.writeAt a 4 0x060 fun s => s.lkCmd 5)
def execLkPubkey (a : Acc) (s : State) : Out := .next (s.writeAt a 4 0x060 fun s => s.lkCmd 6)
def execLkMac (a : Acc) (s : State) : Out := .next (s.writeAt a 4 0x060 fun s => s.lkCmd 7)
def execLkVerify (a : Acc) (s : State) : Out := .next (s.writeAt a 4 0x060 fun s => s.lkCmd 8)
def execLkRevoke (a : Acc) (s : State) : Out := .next (s.writeAt a 4 0x060 fun s => s.lkCmd 9)

end Sys2Proof.Machine
end

