-- ==== Sys2Proof/Machine/Update.lean ====
section
/-! DEFINITION. Secure boot and field update (21 R518 to R525): image headers and sets, the update session, trial and confirmation. -/

namespace Sys2Proof.Machine

/-! ## Image headers (R518 to R520) -/

/-- Partition of type k's slot: side 0 A, 1 B. -/
def slotPart (k side : Nat) : Nat := 2 * k - 2 + side

/-- Side of type k in a set mask. -/
def sideOf (mask k : Nat) : Nat := b2n (bitOf mask (k - 1))

/-- Key slots that may sign a type in a lifecycle state (R507). -/
def slotAllowed (life k slot : Nat) : Bool :=
  match life with
  | 0 => slot == 0
  | 3 => slot == 0
  | 4 => slot == 0 && k == 1
  | _ => slot == (if k ≤ 4 then 0 else 1)

def hdrType (h : List Byte) : Nat := beAt h 5 1
def hdrVersion (h : List Byte) : Nat := beAt h 8 4
def hdrEpoch (h : List Byte) : Nat := beAt h 12 2
def hdrSec (h : List Byte) : Nat := beAt h 14 2

/-- Why a header is refused in the codes of UPD_STAT: 1 form, signature or key; 5 length; 3 below the security floor; 0 accepted. -/
def State.hdrReason (s : State) (h : List Byte) : Nat :=
  let k := hdrType h
  if h.length ≠ 512 ∨ h.take 4 ≠ [0x45, 0x55, 0x49, 0x4D] ∨ beAt h 4 1 ≠ 1 ∨ k = 0 ∨ 6 < k then 1
  else if !slotAllowed s.life k (beAt h 96 1) then 1
  else if s.lock.sigReason (beAt h 96 1) (beAt h 97 1) (sub h 100 97) (h.take 200) (sub h 200 96) ≠ 0 then 1
  else if stSize (slotPart k 0) * 4096 < hdrLen h + 4096 then 5
  else if hdrSec h < s.lock.floor then 3
  else 0

/-- The header that stands in a slot. -/
def State.slotHdr (s : State) (k side : Nat) : List Byte := s.flashRead (slotPart k side) 0 512

/-- The payload in a slot hashes to its header's digest. -/
def State.slotHash (s : State) (k side : Nat) : Bool :=
  let h := s.slotHdr k side
  sha384 (s.flashRead (slotPart k side) 4096 (hdrLen h)) == sub h 48 48

/-- Header a accepts header b's compatibility epoch (R520). -/
def accepts (a b : List Byte) : Bool :=
  let o := 16 + 4 * (hdrType b - 1)
  hdrType a == hdrType b || (decide (beAt a o 2 ≤ hdrEpoch b) && decide (hdrEpoch b ≤ beAt a (o + 2) 2))

/-- A set of headers is compatible (R520). -/
def setOk (l : List (List Byte)) : Bool := l.all fun a => l.all fun b => accepts a b

/-- Slots the running set uses. -/
def State.running (s : State) : Nat := s.get UPD_ACTIVE_0

/-- Headers of the set that results from the types in `mask` taken from the slots not in use, as far as `known`, and one presented. -/
def State.resultSet (s : State) (mask known : Nat) (new : List (List Byte)) : List (List Byte) :=
  new ++ ([1, 2, 3, 4, 5, 6].filterMap fun k =>
    if new.any fun h => hdrType h == k then none
    else if bitOf mask (k - 1) then (if bitOf known (k - 1) then some (s.slotHdr k (1 - sideOf s.running k)) else none)
    else some (s.slotHdr k (sideOf s.running k)))

/-! ## Records and command ends (R531 to R533) -/

def State.updWord (s : State) : Nat := s.get UPD_STAT_0 + 16 * s.get UPD_STAT_4
def State.updRecord (s : State) (code sev w0 w2 : Nat) : State := s.record code sev [w0, s.updWord, w2, s.lifeWord]

def State.updDone (s : State) : State :=
  (((s.set UPD_STAT_0 2).set UPD_STAT_4 0).updU fun u => { u with cmd := 0 }).raiseInt 5 0

def State.updError (s : State) (reason : Nat) : State :=
  ((s.set UPD_STAT_0 3).set UPD_STAT_4 reason).updU fun u => { u with cmd := 0 }

/-- A container or component is refused. -/
def State.updRefuse (s : State) (reason w0 w2 : Nat) : State :=
  (((s.updError reason).count UPDATE_refusals).raiseInt 5 1).updRecord 0x0502 4 w0 w2

/-- UPD_ACTIVE and the registers of the set in use, from the boot control record and the slots. -/
def State.bootShow (s : State) : State :=
  let s := ((s.set UPD_ACTIVE_8 s.upd.sel).set UPD_ACTIVE_16 s.upd.fails).set UPD_START_4 s.upd.last
  s.each [1, 2, 3, 4, 5, 6] fun s k =>
    let h := s.slotHdr k (sideOf s.running k)
    ((s.set (UPD_VER_0 (k - 1)) (hdrVersion h)).set (UPD_EPOCH_0 (k - 1)) (hdrEpoch h)).set (UPD_EPOCH_16 (k - 1)) (hdrSec h)

/-! ## The session (R522, R523) -/

/-- Table of a container header: (type, offset, length). -/
def contTable (h : List Byte) : List (Nat × Nat × Nat) :=
  (List.range (min 6 (beAt h 5 1))).map fun e => (beAt h (16 + 16 * e) 1, beAt h (20 + 16 * e) 8, beAt h (28 + 16 * e) 4)

/-- A container header is in form and signed as R522 asks. -/
def State.contOk (s : State) (h : List Byte) : Bool :=
  let t := contTable h
  h.length == 512 && h.take 4 == [0x45, 0x55, 0x43, 0x54] && beAt h 4 1 == 1 && decide (1 ≤ beAt h 5 1 ∧ beAt h 5 1 ≤ 6) &&
  decide (beAt h 6 1 ≤ 1) && (t.all fun e => decide (1 ≤ e.1 ∧ e.1 ≤ 6 ∧ e.2.1 % 512 = 0)) && decide (t.map (·.1)).Nodup &&
  s.life != 4 && beAt h 112 1 == (if s.life = 1 ∨ s.life = 2 then 1 else 0) &&
  s.lock.sigReason (beAt h 112 1) (beAt h 113 1) (sub h 116 97) (h.take 216) (sub h 216 96) == 0

/-- Types of a table as a mask. -/
def tableMask (t : List (Nat × Nat)) : Nat := t.foldl (fun m e => setBit m (e.1 - 1)) 0

def State.updVerify (s : State) (h : List Byte) : State :=
  let v := beAt h 8 4
  if !s.contOk h then s.updRefuse 1 v v else
  let t := (contTable h).map fun e => (e.1, e.2.2)
  if !setOk (s.resultSet (tableMask t) 0 []) then s.updRefuse 2 v v else
  let s := s.sessEnd.updU fun u => { u with sess := some { table := t, raiseFloor := bitOf (beAt h 6 1) 0, version := v, last := 0, slot := none } }
  ((s.set UPDATE_session 1).set UPD_SESSION_8 (tableMask t)).updDone.updRecord 0x0501 3 v v

/-- The slot opens. -/
def State.slotOpen (s : State) (u : UpdSess) (h : List Byte) : State :=
  let k := hdrType h
  let o : OpenSlot := { type := k, hdr := h, next := 0, hash := shaIv, digest := none, failed := false }
  let s := s.updU fun x => { x with sess := some { u with last := k, slot := some o } }
  let s := (s.set ST_SLOTOPEN_0 (2 ^ slotPart k (1 - sideOf s.running k))).set UPD_SESSION_16 k
  s.set UPD_SESSION_0 (clrBit (s.get UPD_SESSION_0) (k - 1))

/-- A type may be begun: it stands in the table, after every type begun. -/
def UpdSess.mayBegin (u : UpdSess) (k : Nat) : Bool := (u.table.any fun e => e.1 = k) && decide (u.last < k) && u.slot.isNone

def State.updBegin (s : State) (h : List Byte) : State :=
  match s.upd.sess with
  | none => (s.updError 8).raiseInt 5 1
  | some u =>
    let k := hdrType h
    let r := s.hdrReason h
    if r = 1 then s.updRefuse 1 k (hdrVersion h)
    else if !u.mayBegin k then s.updRefuse 4 k (hdrVersion h)
    else if r ≠ 0 then s.updRefuse r k (hdrVersion h)
    else if !setOk (s.resultSet (tableMask u.table) (s.get UPD_SESSION_0) [h]) then s.updRefuse 2 k (hdrVersion h)
    else (s.slotOpen u h).updDone

/-- R523 step 4: the payload hash as it passed, over the whole length. -/
def OpenSlot.passed (o : OpenSlot) : Bool :=
  let len := hdrLen o.hdr
  !o.failed && o.next == 1 + (len + 4095) / 4096 &&
  (if len % 4096 = 0 then shaEnd o.hash [] len else o.digest.getD []) == sub o.hdr 48 48

/-- R523 step 4. `bad`: the read-back met a sector that is lost. -/
def State.updEnd (s : State) (bad : Bool) : State :=
  match s.upd.sess with
  | none => (s.updError 8).raiseInt 5 1
  | some u => match u.slot with
    | none => (s.updError 8).raiseInt 5 1
    | some o =>
      let side := 1 - sideOf s.running o.type
      let s := s.updU fun x => { x with sess := some { u with slot := none } }
      let s := (s.set ST_SLOTOPEN_0 0).set UPD_SESSION_16 0
      if o.failed then s.updRefuse 7 o.type (hdrVersion o.hdr)
      else if o.passed && !bad && s.slotHdr o.type side == o.hdr && s.slotHash o.type side then
        (s.set UPD_SESSION_0 (setBit (s.get UPD_SESSION_0) (o.type - 1))).updDone.updRecord 0x0503 3 o.type (hdrVersion o.hdr)
      else s.updRefuse 6 o.type (hdrVersion o.hdr)

def State.updAbort (s : State) : State :=
  if s.upd.sess.isNone then (s.updError 8).raiseInt 5 1 else s.sessEnd.updDone

/-- R523 step 5: a trial set is written to the boot control record. -/
def State.setTrial (s : State) (mask : Nat) (raiseFloor : Bool) (next : Nat) : State :=
  (s.updU fun u => { u with sel := s.running ^^^ mask, trial := true, raiseFloor := raiseFloor, next := next }).bootShow

def State.updActivate (s : State) (now : Bool) : State :=
  match s.upd.sess with
  | none => (s.updError 8).raiseInt 5 1
  | some u =>
    let m := tableMask u.table
    if u.slot.isSome then (s.updError 8).raiseInt 5 1
    else if s.get UPD_SESSION_0 ≠ m then (s.updError 9).raiseInt 5 1
    else if !setOk (s.resultSet m m []) then s.updRefuse 2 u.version u.version
    else
      let s := ((s.setTrial m u.raiseFloor 1).sessEnd.updDone).updRecord 0x0504 3 u.version u.version
      if !now then s else if s.flag CYCLE_running then s.updCyc fun c => { c with restart := 3 } else s.shutOff 0

/-- R521: the floor rises to the lowest security epoch of the set. -/
def State.raiseSec (s : State) : State :=
  let e := ([1, 2, 3, 4, 5, 6].map fun k => hdrSec (s.slotHdr k (sideOf s.running k))).foldl min 64
  if s.life = 2 ∧ s.upd.raiseFloor ∧ s.lock.floor < e then ((s.updLk fun k => { k with floor := e }).fuseShow).lkRecord 0x0408 3 0 else s

/-- R524. -/
def State.updConfirm (s : State) : State :=
  if s.flag SYS_svc_only then (s.updError 10).raiseInt 5 1
  else if !s.upd.onTrial then (s.updError 8).raiseInt 5 1
  else
    let s := s.updU fun u => { u with conf := s.running, sel := s.running, trial := false, onTrial := false, next := 0 }
    ((s.set UPDATE_trial 0).bootShow.updDone.updRecord 0x0505 3 0 (s.get (UPD_VER_0 1))).raiseSec

def State.updBooted (s : State) : State :=
  (s.updU fun u => { u with booted := true, fails := 0 }).bootShow.updDone

/-- The version of the hub firmware in use, named by the records of R524. -/
def State.setVersion (s : State) : Nat := s.get (UPD_VER_0 1)

/-- R524: the trial set is abandoned; the previous set is selected. -/
def State.abandon (s : State) : State :=
  let s := s.updU fun u => { u with sel := u.conf, trial := false, onTrial := false, next := 2 }
  ((s.set UPDATE_trial 0).bootShow.raiseInt 5 2).updRecord 0x0506 6 0 s.setVersion

/-- R524: a failed boot, with its cause in the codes of UPD_START. -/
def State.failedBoot (s : State) (cause : Nat) : State :=
  let s := s.updU fun u => { u with last := cause, failed := true }
  if s.upd.onTrial then s.abandon
  else ((s.updU fun u => { u with fails := min 3 (u.fails + 1) }).bootShow).updRecord 0x0507 6 0 s.setVersion

def execBootedTimeout (s : State) : Out :=
  .next (if s.power = .run ∧ s.upd.booted = false ∧ s.upd.cobbler = false then ((s.failedBoot 5).sessEnd).shutOff 0 else s)

def execTrialTimeout (s : State) : Out :=
  .next (if s.power = .run ∧ s.upd.onTrial then (if s.flag CYCLE_running then s.sessEnd.abandon else s.sessEnd.abandon.shutOff 0) else s)

/-! ## UPD_CMD (R532) -/

/-- A write of UPD_CMD; verify, begin and end complete later. -/
def State.updCmd (s : State) (v : Nat) : State :=
  let c := v % 16
  if c = 0 ∨ 7 < c then s
  else if s.upd.cmd ≠ 0 then (s.set UPD_STAT_4 11).raiseInt 5 1
  else
    let s := (s.set UPD_STAT_0 1).set UPD_STAT_4 0
    match c with
    | 4 => s.updAbort
    | 5 => s.updActivate (bitOf v 8)
    | 6 => s.updConfirm
    | 7 => s.updBooted
    | _ => s.updU fun u => { u with cmd := c, input := s.hubRead (clampR 0xF00 0xF3F (s.get UPD_BUF_12) * 4096) 512 }

def execUpdVerify (a : Acc) (s : State) : Out := .next (s.writeAt a 5 0x040 fun s => s.updCmd 1)
def execUpdBegin (a : Acc) (s : State) : Out := .next (s.writeAt a 5 0x040 fun s => s.updCmd 2)
def execUpdEnd (a : Acc) (s : State) : Out := .next (s.writeAt a 5 0x040 fun s => s.updCmd 3)
def execUpdAbort (a : Acc) (s : State) : Out := .next (s.writeAt a 5 0x040 fun s => s.updCmd 4)
def execUpdActivate (a : Acc) (now : Bool) (s : State) : Out := .next (s.writeAt a 5 0x040 fun s => s.updCmd (5 + 256 * b2n now))
def execUpdConfirm (a : Acc) (s : State) : Out := .next (s.writeAt a 5 0x040 fun s => s.updCmd 6)
def execUpdBooted (a : Acc) (s : State) : Out := .next (s.writeAt a 5 0x040 fun s => s.updCmd 7)

def execUpdateCommandComplete (bad : Bool) (s : State) : Out :=
  .next (match s.upd.cmd with
    | 1 => s.updVerify s.upd.input
    | 2 => s.updBegin s.upd.input
    | 3 => s.updEnd bad
    | _ => s)

/-! ## What a start finds of a set (R519, R520, R524) -/

/-- Cause of a failed boot of a set, in the codes of UPD_START: 1 signature, 3 below the floor, 2 hash, 4 incompatible; 0 none. -/
def State.setFault (s : State) (mask : Nat) : Nat :=
  let bad (k : Nat) : Nat :=
    let h := s.slotHdr k (sideOf mask k)
    let r := if hdrType h = k then s.hdrReason h else 1
    if r = 3 then 3 else if r ≠ 0 then 1 else if s.slotHash k (sideOf mask k) then 0 else 2
  match ([1, 2, 3, 4, 5].map bad).find? fun r => r != 0 with
  | some r => r
  | none => if setOk ([1, 2, 3, 4, 5, 6].map fun k => s.slotHdr k (sideOf mask k)) then 0 else 4

/-- The stored configuration passes R519. -/
def State.cfgSigned (s : State) (mask : Nat) : Bool :=
  let h := s.slotHdr 6 (sideOf mask 6)
  hdrType h == 6 && s.hdrReason h == 0 && s.slotHash 6 (sideOf mask 6)

/-- Some boot slot holds a boot firmware that passes R519 (R526). -/
def State.bootAny (s : State) : Bool :=
  [0, 1].any fun side =>
    let h := s.slotHdr 1 side
    hdrType h == 1 && s.hdrReason h == 0 && s.slotHash 1 side

end Sys2Proof.Machine
end

