-- ==== Sys2Proof/Machine/Power.lean ====
section
/-! DEFINITION. Battery input, DOZE, clocks and thermal control (20 R482 to R505). Starts, STABLE and wakes are in Machine/Start.lean. -/

namespace Sys2Proof.Machine


/-- PWR_VIN as a word. -/
def State.vinWord (s : State) : Nat := s.get PWR_VIN_0 + 2 ^ 16 * s.get PWR_VIN_16

/-- A record of the power unit (R505). -/
def State.pwrRecord (s : State) (code sev w0 : Nat) : State :=
  s.record code sev [w0, s.vinWord, s.get PWR_doze + 2 * s.get PWR_ride, 0]

/-! ## Battery input (R482, R483) -/

/-- R483: the input is lost; the store carries the module. -/
def execSupplyInterruption (vin : Nat) (s : State) : Out :=
  .next (if s.power = .run ∧ s.flag PWR_ride = false then ((s.set PWR_VIN_0 vin).set PWR_ride 1).raiseInt 2 0 else s)

/-- R483: an interruption is bridged; its length in 0.1 ms. -/
def execInterruptionEnd (ms01 : Nat) (s : State) : Out :=
  .next (if s.power = .run ∧ s.flag PWR_ride then
    (((s.set PWR_ride 0).raiseInt 2 1).count PWR_ride_count).raiseTo PWR_RIDE_MAX_0 ms01 |>.pwrRecord 0x0201 3 ms01
  else s)

/-- R482: lowest input in 0.1 V. -/
def execInputFluctuation (vin : Nat) (s : State) : Out :=
  .next (if s.power = .run then s.once (0x0207 * 65536) ticksPerSec fun s => s.pwrRecord 0x0207 4 vin else s)

/-- R485: power fail. `full0`, `full1`: the device has an erased block for the save. -/
def State.powerFail (s : State) (full0 full1 : Bool) : State :=
  let s := ((s.set PWR_VIN_16 320).pwrRecord 0x0202 5 320).rejoinDrop
  let s := s.porterShut.canPassive.soOpen.fioPassive.brLose
  (s.pfSave true (!full0) (!full1)).shutOff 0

def execPowerFailDeclare (full0 full1 : Bool) (s : State) : Out := .next (if s.power = .run then s.powerFail full0 full1 else s)

/-- R501: the store is exhausted in STABLE; the head stands as saved at the entry. -/
def execHoldupStoreExhausted (s : State) : Out :=
  .next (if s.power = .stable then ((s.set LG_OPTIME_0 s.ledger.headOp).set LG_PCYCLE_0 s.ledger.headPc).shutOff 0 else s)

/-! ## DOZE (R487, R490) -/

/-- DOZE is disarmed. -/
def State.dozeOff (s : State) : State :=
  if s.flag PWR_doze then ((s.set PWR_doze 0).updPw fun w => { w with dozing := false, runDue := false }).pwrRecord 0x0203 2 0
  else s.updPw fun w => { w with runDue := false }

def State.pwrStat (s : State) (c : Nat) : State := s.set PWR_CMD_STAT_0 c

/-- PWR_CMD doze. -/
def State.pwrDoze (s : State) : State :=
  if s.rejoinLane.isSome ∨ !(s.lanesIn lDebug).isEmpty then s.pwrStat 1
  else if s.flag PWR_doze then s.pwrStat 0
  else ((s.pwrStat 0).set PWR_doze 1).pwrRecord 0x0203 2 1

/-- PWR_CMD run: at the next base boundary, at once where the cycle unit does not run. -/
def State.pwrRun (s : State) : State :=
  if !s.flag PWR_doze then s.pwrStat 3
  else if s.flag CYCLE_running then (s.pwrStat 0).updPw fun w => { w with runDue := true }
  else (s.pwrStat 0).dozeOff

/-- Every pair of every ACTIVE lane waits in PACE, and no stamp is outstanding. -/
def State.allPace (s : State) : Bool :=
  (s.lanesIn lActive).all (fun l => allPairs.all fun p => decide (s.nPairs ≤ p.val) || (s.pr l p).stopped ||
    match (s.pr l p).wait with | .pace _ => true | _ => false) &&
  allPairs.all fun p => (s.cr p).out.isEmpty

/-- R490: 100 µs of that have passed. -/
def execDozeEntry (s : State) : Out :=
  .next (if s.power = .run ∧ s.flag PWR_doze ∧ s.allPace ∧ !(s.lanesIn lActive).isEmpty then s.updPw fun w => { w with dozing := true } else s)

/-! ## Clocks (R495, R503) -/

/-- R495: hub domain d runs after `ns`; `late`: beyond its bound. -/
def execClockStartOnDemand (d : Fin 41) (ns : Nat) (late : Bool) (s : State) : Out :=
  .next (
    if s.power ≠ .run then s else
    let s := s.count CLK_start_count
    let s := if d.val < 32 then s.set CLK_RUN_LO_0 (setBit (s.get CLK_RUN_LO_0) d.val) else s.set CLK_RUN_HI_0 (setBit (s.get CLK_RUN_HI_0) (d.val - 32))
    if late then ((s.count CLK_START_LATE_0).raiseInt 1 0).record 0x0101 4 [ns, d.val, s.get CLK_spread, 0] else s)

/-! ## Thermal control (R497 to R500, R504) -/

/-- T in 0.1 °C. -/
def State.ctrlT (s : State) : Int := sint 16 (s.get THERM_CTRL_T_0)

def State.thermRecord (s : State) (code sev w0 : Nat) : State :=
  s.record code sev [w0, s.get THERM_CTRL_T_0, s.get THERM_state + 4 * s.get THERM_step, 0]

/-- Highest reading of a sensor since THERM_TMAX was read. -/
def State.tmaxTake (s : State) (i : Nat) (t : Int) : State :=
  if bitOf s.pw.tmax i ∧ t ≤ sint 16 (s.get (THERM_TMAX_0 i)) then s
  else (s.set (THERM_TMAX_0 i) (unsint 16 t)).updPw fun w => { w with tmax := setBit w.tmax i }

/-- R497: readings of lanes A, B, C and the hub, in 0.1 °C. -/
def State.thermSample (s : State) (t : List Int) : State :=
  let s := s.each t.zipIdx fun s x => (s.set (THERM_T_0 x.2) (unsint 16 x.1)).tmaxTake x.2 x.1
  let m := (s.lanesIn lActive).foldl (fun m l => max m (t.getD l.val 0)) (t.getD 3 0)
  s.set THERM_CTRL_T_0 (unsint 16 m)

def execThermalSample (t0 t1 t2 t3 : Int) (s : State) : Out := .next (if s.power = .run then s.thermSample [t0, t1, t2, t3] else s)

/-- The lane step changes; lanes take it at the next hallmark edge of edge_class (R499). -/
def State.thermStep (s : State) (v : Nat) : State :=
  if s.get THERM_step = v then s else
  (((s.set THERM_step v).raiseInt 3 1).count THERM_step_count).thermRecord 0x0302 3 v

/-- The thermal state changes. -/
def State.thermEnter (s : State) (v : Nat) : State :=
  if s.get THERM_state = v then s else ((s.set THERM_state v).raiseInt 3 0).thermRecord 0x0301 4 v

/-- R500: CRITICAL; an abdication where it may be. -/
def State.thermCritical (s : State) : State :=
  let go := s.flag THERM_CTL_4 && s.pagePresent 0x34 && s.get MIRROR_state == 2 && s.abdicateCode == 0
  let s := (s.thermEnter 3).thermStep 3
  let s := if go then s.abdicate else s
  s.thermRecord 0x0303 6 (b2n go)

/-- R498: a condition has held for 2 s. -/
def State.thermDwell (s : State) : State :=
  let t := s.ctrlT
  let st := s.get THERM_state
  let k := s.get THERM_step
  if st ≠ 3 ∧ 1180 ≤ t then s.thermCritical
  else if st = 3 then (if t < 1130 then s.thermEnter 2 else s)
  else if 1080 ≤ t then (s.thermEnter 2).thermStep (min 3 (k + 1))
  else if st = 2 then
    (if t < 1030 then (let s := s.thermStep (k - 1); if k ≤ 1 then s.thermEnter 1 else s) else s)
  else if st = 0 ∧ 1000 ≤ t then s.thermEnter 1
  else if st = 1 ∧ t < 950 then s.thermEnter 0
  else s

def execThermalDwellExpiry (s : State) : Out := .next (if s.power = .run then s.thermDwell else s)

/-- R499: at a hallmark edge of class j the ACTIVE lanes and an apprentice take the step. -/
def State.thermApply (s : State) (j : Nat) : State :=
  if s.get THERM_CTL_0 ≠ j then s else
  s.each (s.lanesIn lActive ++ s.lanesIn lApprentice) fun s l => s.set (CLK_LANE_0 l.val) (s.get THERM_step)

/-- R500: 125 °C for 10 ms on a die: passive, lane dies powered down. -/
def execThermalTrip (die : Fin 4) (s : State) : Out :=
  .next (
    if s.power ≠ .run then s else
    let s := (s.setPassive 11).thermRecord 0x0304 7 die.val
    s.each allLanes fun s l => s.set (laneField l) lOff)

end Sys2Proof.Machine
end

