-- ==== Sys2Proof/Machine/Start.lean ====
section
/-! DEFINITION. Starts: from OFF, at a restart, and at a wake from STABLE; the configuration's load; STABLE (20 R486 to R494, 06 R168 to R172, 01 R39,
00 R6, R11, R13; 21 R513, R525, R526). -/

namespace Sys2Proof.Machine

/-! ## The configuration (00 R13, 06 R164, 15 R385, R393, R397) -/

/-- A field of the Millwright's profile that a switch image selects. -/
def MwS.profOf (m : MwS) (img off n : Nat) : Nat := m.romAt (0x100 + 0xE0 * bitsOf img 52 4 + off) n

/-- R385: the speed section carries what the profile carries; EUL-T3S has no ROM. -/
def State.profileSame (s : State) (c : SpeedCfg) : Bool :=
  s.isS ||
  (let p := s.mw.profOf s.swCfg
   p 2 1 == c.cmask && p 3 1 == c.minValid && p 6 2 == c.plausV && p 8 2 == c.plausT &&
   c.chans.zipIdx.all fun x => x.1.mode == 0 || (x.1.ssTo == p 4 2 && x.1.dirInv == bitOf (p 13 1) x.2))

/-- The speed section may be taken. -/
def State.speedTakes (s : State) (c : SignedCfg) : Bool :=
  match c.speed with
  | some v => s.speedLegal v && s.profileSame v
  | none => true

/-- The sections that bind variables, taken at the lock; what breaks a rule refuses the configuration. -/
def State.sectionsTake (s : State) : State :=
  match s.cfg with
  | none => if s.smLegal then s.smLoad.mirBudget else s.serviceOnly 3
  | some c =>
    if !s.smLegal ∨ !s.speedTakes c ∨ !(c.so.all fun b => s.soLegal b.n b.var b.bit) ∨
       !((c.laneVar.map fun v => (s.var v).isSome).getD true) then s.serviceOnly 3 else
    let s := s.smLoad.mirBudget
    let s := match c.speed with | some v => s.speedLoad v (swWheel s.swCfg) (swPulses s.swCfg) | none => s
    let s := s.each c.so fun s b =>
      (((s.set (SO_BIND_0 b.n) b.var).set (SO_BIND_16 b.n) b.bit).setB (SO_BIND_21 b.n) b.pair).set (SO_BIND_31 b.n) 1
    let s := (s.updSo fun o => { o with accepted := true, laneVar := (c.laneVar.map (· + 1)).getD 0 }).switchCheck
    if s.flag SWITCHES_passed then s else s.serviceOnly 3

/-- DIMG_LOCK: the tables, then the sections that name variables (06 R164, 16 R408). -/
def State.dimgLock (s : State) : State :=
  if s.get DIMG_table = 1 then s else
  let s := s.imgLock
  if s.get DIMG_table ≠ 1 then s else s.sectionsTake

def execDimgLock (a : Acc) (s : State) : Out := .next (s.writeAt a 0x0C 0x040 State.dimgLock)

/-- The configuration's format is in the range the hub firmware takes (21 R525). -/
def State.cfgRange (s : State) (c : SignedCfg) : Bool :=
  let mf := s.get (UPD_VER_0 1) % 256
  decide (mf ≤ c.major + 3) && decide (c.major ≤ mf)

/-- 21 R525: UPD_CFGVER, and record 0x0509 at the first start of a pair of configuration and firmware. -/
def State.cfgNote (s : State) (c : SignedCfg) : State :=
  let mf := s.get (UPD_VER_0 1) % 256
  let s := ((s.set UPD_CFGVER_0 c.major).set UPD_CFGVER_8 mf).setB UPD_CFGVER_16 (c.major < mf)
  let key := (c.digest, s.get (UPD_VER_0 1))
  if s.upd.noted.contains key then s
  else (s.updU fun u => { u with noted := key :: u.noted }).updRecord 0x0509 3 6 (c.major + 256 * mf)

/-- The safe message section is held; sequence numbers go on from the retain area but after a cold start (16 R410). -/
def SafeS.take (k : SafeS) (c : SignedCfg) (kind : Nat) : SafeS :=
  let run (n : Nat) : SafeTxRun := { next := if kind = 0 then 0 else SMap.get k.saved n 0, formed := 0 }
  let txs : SMap SafeTxRun := (List.range c.tx.length).foldl (fun m n => SMap.put m n SafeTxRun.init (run n)) []
  { k with own := c.own, tx := c.tx, rx := c.rx, txs := txs }

/-- The configuration is loaded in a start of a kind (0 cold, 1 warm, 2 wake). -/
def State.cfgTake (s : State) (c : SignedCfg) (kind : Nat) : State :=
  let s := (s.setCfg (some c)).updS fun k => k.take c kind
  let s := (s.updI fun i => { i with cfgId := c.ident }).set64 SW_CFG_LO_0 SW_CFG_HI_0 (c.sw.getD 0)
  let s := (s.setB LG_CTL_0 c.quicen).setB LEDGER_fmt c.quicen
  let s := ((s.set MIR_CTL_0 c.mirCtl).set MIR_CTL_4 (bitsOf c.mirCtl 4 10)).set MIR_CTL_16 (bitsOf c.mirCtl 16 2)
  let s := s.set MIR_RS_0 (clampR 2048 131072 c.mirRs)
  let s := (s.updLk fun k => { k with arm := c.arm }).armShow
  if kind = 2 then s.dimgLock
  else if c.image = [] then s
  else (s.each c.image fun s x => s.hubWrite x.1 x.2).dimgLock

/-- The stored configuration is verified and taken, or refused (R13). -/
def State.cfgLoad (s : State) (c : SignedCfg) (signed : Bool) (kind : Nat) : State :=
  if signed ∧ c.good ∧ s.cfgRange c then (s.cfgNote c).cfgTake c kind else s.serviceOnly 3

/-! ## Registers at a start (00 R11 and the chapters' own rules) -/

/-- Fields outside every start: factory values, operating time and power-cycle count, the tamper latch. -/
def alwaysKey (k : Nat) : Bool :=
  let page := k / 32 / 4096 % 128
  let off := k / 32 % 4096
  (page = 0 && decide (0x040 ≤ off ∧ off ≤ 0x04C)) || (page = 4 && decide (0x044 ≤ off ∧ off ≤ 0x04C)) ||
  k = LG_OPTIME_0.key || k = LG_PCYCLE_0.key

/-- Fields a restart without loss of power keeps: the mount, switch readings, bank states, input voltage, card detect. -/
def restartKey (k : Nat) : Bool :=
  let page := k / 32 / 4096 % 128
  let off := k / 32 % 4096
  alwaysKey k || k = STORE_mounted.key || (page = 6 && (off = 0x088 || off = 0x0A8 || off = 0x140)) ||
  (page = 0x64 && decide (0x040 ≤ off ∧ off ≤ 0x044)) || k = MEMCTL_BANKSTAT_0.key || (page = 2 && off = 0x054) || k = SDSLOT_present.key

/-- Fields a warm restart keeps besides: RWS fields, the divergence and lane manager causes (03 R103, 04 R126), the Ledger's mount, the Clockmaker's
state, the islands' state and image (13 R359), the MILLWRIGHT page (15). -/
def warmKey (k : Nat) : Bool :=
  let page := k / 32 / 4096 % 128
  let off := k / 32 % 4096
  restartKey k || rwsKey k || (page = 8 && (off = 0x030 || decide (0x100 ≤ off ∧ off ≤ 0x124))) ||
  (page = 9 && (off = 0x030 || off = 0x070 || decide (0x050 ≤ off ∧ off ≤ 0x058))) || k = LEDGER_mounted.key ||
  (page = 7 && (off = LG_HEAD_0.off || off = LG_OLDEST_0.off || off = LG_FLUSHED_0.off || off = LG_STAGED_0.off)) ||
  (page = 0x38 && off = 0x010) || (decide (0x52 ≤ page ∧ page ≤ 0x5D) && (off = 0x010 || off = 0x05C)) || page = 0x5F

/-- Register values with the fields of another map taken over, but for those outside every start. -/
def regsMerge (m rws : SMap Nat) : SMap Nat :=
  (rws.filter fun e => !alwaysKey e.1).foldl (fun m e => SMap.insert (SMap.erase m e.1) e.1 e.2) m

/-! ## The state every start begins with -/

/-- Units at their reset state; what the kinds of start keep is put back by them. -/
def State.blank (s : State) (regs : SMap Nat) : State :=
  { State.reset with
    pending := s.pending, variant := s.variant, counter := s.counter, regs := regs, hub := s.hub, lanes := ⟨s.lanes.a.resetL, s.lanes.b.resetL, s.lanes.c.resetL⟩,
    ledger := s.ledger, latch := s.latch, aoCause := s.aoCause, clk := s.clk, img := { ImgS.init with slots := s.img.slots, cfgId := s.img.cfgId },
    safe := { SafeS.init with saved := s.safe.saved }, flash := s.flash, spd := s.spd, mw := s.mw, swRun := s.swRun,
    store := { s.store with cmd := none, sd := none, sdInit := false }, lock := { s.lock with op := none, window := none, startup := true },
    upd := { s.upd with cmd := 0, input := [], sess := none, booted := false, cobbler := false, installed := false },
    pw := { PwrS.init with started := true }, cfg := s.cfg, mir := { MirS.init with wasActive := s.mir.wasActive }, freeCtr := s.freeCtr }

/-- What the registers read from fuses, boot control record, always-on domain and devices show (R513, R530, R532). -/
def State.startShow (s : State) (running start : Nat) : State :=
  let s := (((s.fuseShow.armShow.set UPD_ACTIVE_0 running).set UPD_START_0 start).setB UPDATE_trial s.upd.onTrial).bootShow
  let s := (s.setB LOCK_latched (s.get LK_TAMPER_0 ≠ 0)).setB LOCK_keys s.lock.keys.isSome
  let s := (s.set SYS_PASSIVE_0 s.aoCause).setB SYS_PASSIVE_5 (s.aoCause ≠ 0)
  let s := if s.flag STORE_mounted then (s.devShow 0).devShow 1 else s
  let s := s.swShow
  (s.setB SW_ROLE_2 (bitOf (s.get SW_READ_HI_0) 29)).newNonce

/-- Lane PLLs locked, lanes in BOOT. -/
def State.lanesBoot (s : State) : State :=
  s.each allLanes fun s l => (s.set (laneField l) lBoot).set (CLK_LANE_4 l.val) 1

/-- R421: the pair state a start enters. -/
def State.pairBegin (s : State) (afterPassive : Bool) : State :=
  if !s.pagePresent 0x34 then s
  else if s.passive then s.mirPassive
  else if !s.flag MIR_CTL_0 then s.set MIRROR_state 0
  else if afterPassive then s.enterStandby
  else s.set MIRROR_state 1

/-- Causes of the service-only state but for the configuration's (21 R513). -/
def State.svcCauses (s : State) : State :=
  let s := s.tamperOwed
  let s := if s.get LK_TAMPER_0 ≠ 0 then s.serviceOnly 1 else s
  let s := if s.life ≠ 1 ∧ s.life ≠ 2 then s.serviceOnly 2 else s
  if s.isS ∧ bitOf s.swRead 0 then (s.serviceOnly 4).soRecord 0x6403 6 0 (s.get SW_READ_LO_0) else s

/-- Start kind and reason (06 R168, CYC_START); record 0x0B05 where a retain image could not be used. -/
def State.startKind (s : State) (kind reason : Nat) : State :=
  let s := (s.set CYC_START_0 kind).set CYC_START_4 reason
  if reason = 4 ∨ reason = 5 then s.record 0x0B05 5 [0, reason, 0, 0] else s

/-! ## Start from OFF (R488) -/

/-- 21 R524: the set that starts; failed boots fall back, three of them start Cobbler. -/
def State.bootSelect : Nat → State → State × Option Nat
  | 0, s => (s, none)
  | n + 1, s =>
    if 3 ≤ s.upd.fails ∨ !s.bootAny then (s, none) else
    let s := s.updU fun u => { u with onTrial := u.trial }
    let m := if s.upd.trial then s.upd.sel else s.upd.conf
    let f := s.setFault m
    if f = 0 then (s, some m) else State.bootSelect n ((s.set UPD_ACTIVE_0 m).failedBoot f)

/-- 21 R526: Cobbler starts: lanes OFF, no keys. -/
def State.cobblerEnter (s : State) : State :=
  let s := s.each allLanes fun s l => s.set (laneField l) lOff
  (s.soOpen.porterShut.updU fun u => { u with cobbler := true }).updRecord 0x0508 7 0 0

/-- 20 R484: the hold-up store, measured at a cold start. -/
def State.holdupMeasure (s : State) (uF : Nat) : State :=
  let s := (s.set PWR_HOLDUP_0 (min uF 4095)).setB PWR_HOLDUP_16 (uF < 680)
  if uF < 680 then (s.raiseInt 2 2).pwrRecord 0x0206 5 (min uF 4095 + 2 ^ 16) else s

/-- Kind and reason of a start from OFF (06 R168). -/
def State.offKind (s : State) (ident : Nat) : Nat × Nat :=
  if s.passive then (0, 6)
  else if s.cyc.restart = 2 then (0, 2)
  else if (s.retSlot ident).isSome then (1, 1)
  else if !s.pw.started ∨ s.img.slots = [] then (0, 0)
  else if s.img.slots.any slotValid then (0, 5)
  else (0, 4)

/-- The Ledger at a start from OFF (18 R456): staging empty, the head still to be read. -/
def LedgerS.off (g : LedgerS) (cold : Bool) : LedgerS :=
  { LedgerS.init with
    recs := (g.recs.filter (·.flushed)).map fun e => { e with staged := false }
    headSeq := g.headSeq, headOp := g.headOp, headPc := g.headPc, lost := g.lost, saved := g.saved, journal := g.journal, pages := g.pages, ms := g.ms
    written := if cold then 0 else g.written }

/-- Tamper sources 0 to 2 as they stand at the hub reset release (21 R514): tamper during start-up, but with recovery entry on record 0x0403 only. -/
def State.startTamper (s : State) (arm : Nat) (recovery : Bool) : State :=
  let hot := (bitList 3 (s.get LK_TAMPER_8)).filter fun i => bitOf arm i
  if hot = [] then s
  else if recovery then s.lkRecord 0x0403 3 0
  else s.each hot fun s i => s.tamper i false

/-- The steps from the hub reset release to the images in use. -/
def State.startBoot (s : State) (inp : StartInputs) : State :=
  let recovery := bitOf inp.pins 61
  let s := s.startTamper inp.cfg.arm recovery
  if recovery then s.cobblerEnter
  else if s.life = 4 then
    if s.bootAny then (s.lkRecord 0x0405 5 4).serviceOnly 2 else s.cobblerEnter
  else
    let r := s.bootSelect 6
    let s := r.1
    match r.2 with
    | none => s.cobblerEnter
    | some m =>
      let start := if s.upd.onTrial then s.upd.next else if s.upd.next = 2 then 2 else 0
      let s := ((s.set UPD_ACTIVE_0 m).set UPD_START_0 start).setB UPDATE_trial s.upd.onTrial
      let s := (if s.upd.failed then s.raiseInt 5 3 else s).updU fun u => { u with next := 0, failed := false }
      (s.bootShow.keyDerive.svcCauses).cfgLoad inp.cfg (s.cfgSigned m) (s.get CYC_START_0)

/-- Memory without supply is empty: hub SRAM, lanes, the Clockmaker. -/
def State.coldParts (s : State) (latch : Tri Bool) (g : LedgerS) : State :=
  let s := (s.hubCut fun _ => false).each allLanes fun s l => (s.memCut l fun _ => false).updL l fun n => { LaneS.init with mem := n.mem }
  ((s.updLg fun _ => g).updK fun _ => ClockS.init).setLatch latch s.aoCause

/-- R488. -/
def State.startOff (s : State) (inp : StartInputs) : State :=
  let k := s.offKind inp.cfg.ident
  let was := s.passive
  let cold := decide (k.1 = 0)
  let keep := s.regs.filter fun e => alwaysKey e.1
  let s := (s.blank (if cold then keep else regsMerge keep s.store.rws)).coldParts (if cold then Tri.all false else s.latch) (s.ledger.off cold)
  let s := (s.clkStart.spdOff.spdStart k.1).mwReset
  let s := s.updMw fun m => { m with img := inp.mwPins % 2 ^ 60 }
  let s := ((s.set LG_PCYCLE_0 (s.get LG_PCYCLE_0 + 1)).set MEMCTL_BANKSTAT_0 0xAAAAAAAA).set PWR_VIN_0 inp.vin
  let s := (s.set64 SW_READ_LO_0 SW_READ_HI_0 (inp.pins % 2 ^ 64)).lanesBoot
  let s := (s.startShow s.upd.conf 0).startKind k.1 k.2
  let s := if cold then s.holdupMeasure inp.uF else s
  let s := s.startBoot inp
  let s := if cold ∧ !inp.tests then (s.setPassive 8).record 0x0906 7 [] else s
  let s := s.pairBegin was
  if was then s.record 0x0001 6 [s.aoCause + 32, s.get MIRROR_state, 0, 0] else s

def execStartFromOff (c : StartInputs) (s : State) : Out :=
  .next (if s.power = .off ∨ s.pw.started = false then s.startOff c else s)

/-! ## Restart without loss of power (R489, 06 R172) -/

/-- A storage command in progress completes (19 R478). -/
def State.storeFinish (s : State) : State :=
  match s.store.cmd with
  | some c => s.stComplete c { corr0 := 0, corr1 := 0, lost := [], grown := [], erased := [] }
  | none => s

/-- The configuration of the last start is loaded again. -/
def State.cfgAgain (s : State) (kind : Nat) : State :=
  match s.cfg with
  | some c => s.cfgTake c kind
  | none => s

/-- Fallbacks of every bound output are staged and committed, safety command switches open (R489, 06 R169). -/
def State.restartOutputs (s : State) : State := s.imgStart.fioStartCommit.soOpen


/-- The islands keep running; the numbers of the Millwright's frames run on (R489). -/
def State.warmParts (s : State) (isl : SMap IslS) (so : SoS) : State :=
  (s.setIsl isl).updSo fun o => { o with seq := so.seq, mwSeq := so.mwSeq }

/-- A restart: kind 1 warm, 0 cold; reason as CYC_START shows it. The save is made at a warm one; one without a valid image becomes cold. -/
def State.restartRun (s : State) (kind reason : Nat) : State :=
  let s := (if kind = 1 then s.rejoinDrop else s).windowClose.restartOutputs.fillAbandon
  let s := s.storeFinish
  let s := if kind = 1 then s.pfSave false false false else s
  let id := s.img.cfgId
  let k : Nat × Nat := if kind = 1 ∧ (s.retSlot id).isNone then (0, 4) else (kind, reason)
  let s := if k.1 = 1 then s.thaw 2 else s
  let run := s.running
  let start := s.get UPD_START_0
  let cold := decide (k.1 = 0)
  let was := s.passive
  let n := (s.blank (s.regs.filter fun e => if cold then restartKey e.1 else warmKey e.1)).setLatch (if cold then Tri.all false else s.latch) s.aoCause
  let n := n.updLg fun g => if cold then g.off true else { g with spent := [], refused := [] }
  let n := if cold then (n.clkStart.spdOff.spdStart 0).mwReset else n.clearJump.warmParts s.isl s.so
  let n := ((n.lanesBoot.startShow run start).startKind k.1 k.2).svcCauses
  let n := n.cfgAgain k.1
  let n := n.pairBegin was
  if was ∧ cold then n.record 0x0001 6 [n.aoCause + 32, n.get MIRROR_state, 0, 0] else n

/-! ## Wake (R493, R494) -/

/-- A bank is in retention in STABLE. -/
def State.bankKept (s : State) (b : Nat) : Bool := s.bank b = 3

def State.setWaking (s : State) (l : List Nat) : State := s.updMc fun m => { m with waking := l }

/-- Staging is lost where bank 14 was not retained (18 R456). -/
def LedgerS.unstage (g : LedgerS) (kept : Bool) : LedgerS :=
  if kept then g else { g with recs := g.recs.map fun e => { e with staged := false } }

/-- The wake of STABLE: source bits, index, ticks of the always-on clock since the entry. -/
def State.wake (s : State) (bits ix ticks : Nat) : State :=
  let run := s.running
  let start := s.get UPD_START_0
  let keep := s.regs.filter fun e => alwaysKey e.1
  let banks := (List.range 16).filter s.bankKept
  let stat := (List.range 16).foldl (fun v b => v + (if s.bankKept b then 3 else 1) * 4 ^ b) 0
  let n := (s.blank (regsMerge keep s.store.rws)).setWaking banks
  let n := n.updLg fun g => { g.unstage (s.bankKept 14) with spent := [], refused := [], flushing := false, move := none }
  let n := (n.clkWake ticks).mwReset.spdStart 2
  let n := ((n.set MEMCTL_BANKSTAT_0 stat).set LEDGER_mounted 1).ledgerShow
  let n := (n.set64 SW_READ_LO_0 SW_READ_HI_0 s.swRead).set PWR_VIN_0 (s.get PWR_VIN_0)
  let n := ((n.lanesBoot.startShow run start).startKind 2 7).keyDerive.svcCauses
  let n := (n.set PWR_WAKE_CAUSE_0 bits).set PWR_WAKE_CAUSE_8 ix
  let n := n.pwrRecord 0x0205 3 (bits + 256 * ix)
  let n := n.cfgAgain 2
  n.pairBegin false

/-- The source is enabled (R493). -/
def State.wakeEnabled (s : State) (src : WakeSrc) : Bool :=
  match src with
  | .di i n => bitOf (s.get PWR_WAKE_EN_0) 0 && s.islandPresent i.val && bitOf (s.get (FIO_WAKE_0 i.val)) n.val
  | .can c => bitOf (s.get PWR_WAKE_EN_0) 1 && s.pagePresent (0x42 + c.val) && s.flag (CAN_CTL_3 c.val)
  | .eth x => bitOf (s.get PWR_WAKE_EN_0) 2 && s.pagePresent (0x30 + x.val) && bitOf (s.get PWR_WAKE_EN_8) x.val
  | .timer => bitOf (s.get PWR_WAKE_EN_0) 3

/-- Source bits and index as PWR_WAKE_CAUSE names them. -/
def wakeCause : WakeSrc → Nat × Nat
  | .di i n => (1, i.val * 8 + n.val)
  | .can c => (2, c.val)
  | .eth x => (4, x.val)
  | .timer => (8, 0)

/-- An event of a wake source: it wakes the module from STABLE, and is held during the entry (R491). -/
def State.wakeBy (s : State) (src : WakeSrc) (ticks : Nat) : State :=
  if !s.wakeEnabled src then s
  else if s.power = .stable then s.wake (wakeCause src).1 (wakeCause src).2 ticks
  else if s.power = .run ∧ s.pw.stabDue ∧ s.pw.held.isNone then s.updPw fun w => { w with held := some (wakeCause src) }
  else s

def execWakeEvent (src : WakeSrc) (ticks : Nat) (s : State) : Out := .next (s.wakeBy src ticks)
def execWakeTimerExpiry (ticks : Nat) (s : State) : Out := .next (s.wakeBy .timer ticks)
def execDiWakeChange (i : Fin 12) (n : Fin 8) (ticks : Nat) (s : State) : Out := .next (s.wakeBy (.di i n) ticks)
def execCanWakePattern (c : Fin 16) (ticks : Nat) (s : State) : Out := .next (s.wakeBy (.can c) ticks)

/-! ## STABLE (R491) -/

/-- Bank states on entry into STABLE (07 R199). -/
def State.banksSleep (s : State) : State :=
  s.set MEMCTL_BANKSTAT_0 ((List.range 16).foldl (fun v b =>
    v + (if (b < 4 || b = 15 || bitOf (s.get MEMCTL_RET_0) b) && s.bank b == 2 then 3 else 0) * 4 ^ b) 0)


/-- STABLE; a wake event held wakes the module. -/
def State.stableDone (s : State) (held : Option (Nat × Nat)) : State :=
  let s := (s.updPw fun w => { w with stabDue := false, held := none }).setPower .stable
  match held with
  | some x => s.wake x.1 x.2 0
  | none => s

/-- The steps of the entry; a wake event held wakes the module when they are done. -/
def State.stableEnter (s : State) : State :=
  let s := s.pwrRecord 0x0204 3 (s.get PWR_WAKE_EN_0 + 256 * s.get PWR_WAKE_EN_8)
  let act := s.get MIRROR_state == 2
  let s := s.rejoinDrop.sessEnd.stopSlew.updMir fun m => { m with wasActive := act }
  let s := (s.set CYCLE_running 0).porterShut.canPassive.smOff.soOpen.fioPassive.brOff
  let s := s.qAllOff.fillAbandon
  let s := s.storeFinish
  let s := if s.unflushed = [] then s else s.flushStart.flushDone
  let s := s.pfSave false false false
  let s := s.fioAllOff.spdOff.setCour (Quad.all CourS.init)
  let s := s.each allLanes fun s l => s.set (laneField l) lOff
  let s := (((s.set ASSAY_voters 0).set ASSAY_mode 0).set STORE_mounted 0).banksSleep
  s.stableDone s.pw.held

/-- PWR_CMD stable: from the next base boundary, at once where the cycle unit does not run. -/
def State.pwrStable (s : State) : State :=
  if s.get PWR_WAKE_EN_0 = 0 then s.pwrStat 2
  else if s.flag CYCLE_running then (s.pwrStat 0).updPw fun w => { w with stabDue := true }
  else (s.pwrStat 0).stableEnter

/-- A write of PWR_CMD. -/
def State.pwrCmd (s : State) (v : Nat) : State :=
  if v % 4 = 1 then s.pwrDoze
  else if v % 4 = 2 then s.pwrRun
  else if v % 4 = 3 then s.pwrStable
  else s.pwrStat 3

def execPwrDoze (a : Acc) (s : State) : Out := .next (s.writeAt a 2 0x040 fun s => s.pwrCmd 1)
def execPwrRun (a : Acc) (s : State) : Out := .next (s.writeAt a 2 0x040 fun s => s.pwrCmd 2)
def execPwrStable (a : Acc) (s : State) : Out := .next (s.writeAt a 2 0x040 fun s => s.pwrCmd 3)

end Sys2Proof.Machine
end

