-- ==== Sys2Proof/Machine/Bridge.lean ====
section
/-! DEFINITION. The Quicen backplane bridge (22): requests, bus cycles, completions, scan, lines. -/

namespace Sys2Proof.Machine


/-- BR_ERR_ADDR as a word. -/
def State.brErrAddr (s : State) : Nat := s.get BR_ERR_ADDR_0 + 2 ^ 24 * s.get BR_ERR_ADDR_24 + 2 ^ 31 * s.get BR_ERR_ADDR_31

/-- A bridge record (R551). -/
def State.brRecord (s : State) (code sev addr tag st : Nat) : State := s.record code sev [addr, tag, s.get BR_ERR_DATA_0, st]

/-- Completion entries occupied or reserved. -/
def State.brEntries (s : State) : Nat := s.brShow.get BR_OCC_16

/-- R541: a completion packet. -/
def brPacket (tag st addr : Nat) (data : List Nat) : List Byte :=
  leBytes 4 (tag + 2 ^ 16 * st + 2 ^ 20 * data.length) ++ leBytes 4 addr ++ data.flatMap fun w => leBytes 4 w

/-- A read completes: its packet waits in its entry. -/
def State.brComplete (s : State) (tag st addr : Nat) (data : List Nat) : State :=
  (s.updBr fun b => { b with cpl := b.cpl ++ [brPacket tag st addr data] }).brShow

/-- A request is closed with a status (R543): a read completes, a posted write is discarded and counted, a scan read is dropped. -/
def State.brClose (s : State) (st : Nat) (r : BrReq) : State :=
  if r.kind = 1 then s.brComplete r.tag st r.addr []
  else if r.kind = 0 then s.count BR_DISCARD_0 else s

/-! ## Module state (R548) -/

/-- The bridge may master the bus. -/
def State.brMaster (s : State) : Bool :=
  s.isF && s.power == .run && !s.passive && s.flag BR_CTL_0 && (s.get MIRROR_state == 0 || s.get MIRROR_state == 2) && !s.bridge.held

/-- Close everything that is open: disabled (4) or standby (5). -/
def State.brCloseAll (s : State) (st : Nat) : State :=
  let b := s.bridge
  let s := s.updBr fun b => { b with wait := [], bus := none }
  let s := match b.bus with | some r => (if r.live then s.brClose st r else s) | none => s
  s.each b.wait fun s r => s.brClose st r

/-- The bridge follows the module's state. -/
def State.brFollow (s : State) : State :=
  if !s.isF || s.passive then s else
  let sb := s.get MIRROR_state == 3
  let s := if !s.flag BR_CTL_0 then s.brCloseAll 4 else if sb then s.brCloseAll 5 else s
  (s.set BRIDGE_state (if !s.flag BR_CTL_0 then 0 else if sb then 2 else b2n s.brMaster)).brShow

/-- A write of BR_CTL. -/
def State.brCtl (s : State) (v : Nat) : State :=
  ((s.set BR_CTL_0 (v % 2)).set BR_CTL_8 (max 8 (bitsOf v 8 10))).brFollow

/-- A base boundary: a module promoted before it masters the bus from it. -/
def State.brBoundary (s : State) : State :=
  let h := s.get MIRROR_state == 3
  (s.updBr fun b => { b with held := h }).brFollow

/-! ## Taking requests (R539, R540, R542) -/

/-- The alignment rules of R540 for a transfer. -/
def brAligned (addr size k : Nat) : Bool :=
  !(decide (1 < k) && size != 2) && addr % 2 ^ size == 0 && !(decide (1 < k) && decide (32 < addr % 32 + 4 * k))

/-- R540. -/
def brRefused (p : List Byte) (bad : Bool) : Bool :=
  let w := leAt p 0 4
  let k := bitsOf w 26 3 + 1
  bad || p.length != (if bitOf w 30 then 8 else 8 + 4 * k) || bitsOf w 24 2 == 3 || !brAligned (bitsOf w 0 24) (bitsOf w 24 2) k ||
  bitOf w 29 || bitOf w 31 || leAt p 6 2 != 0

/-- The request a packet spells. -/
def brReq (p : List Byte) : BrReq :=
  let w := leAt p 0 4
  { kind := b2n (bitOf w 30), addr := bitsOf w 0 24, size := bitsOf w 24 2, k := bitsOf w 26 3 + 1, tag := leAt p 4 2,
    data := if bitOf w 30 then [] else (List.range (bitsOf w 26 3 + 1)).map fun i => leAt p (8 + 4 * i) 4, n := 0, live := true, cls := 0, edge := 0 }

/-- A request refused without a bus cycle. -/
def State.brRefuse (s : State) (r : BrReq) : State :=
  let s := s.count BR_REFUSED_0
  if r.kind = 1 then s.brComplete r.tag 3 r.addr []
  else (s.raiseInt 0x62 1).brRecord 0x6202 3 r.addr r.tag 3

/-- A buffer entry of the request's class is free (R542). -/
def State.brFree (s : State) (r : BrReq) : Bool :=
  let s := s.brShow
  if r.kind = 0 then decide (s.get BR_OCC_0 < 32) else decide (s.get BR_OCC_8 < 16) && decide (s.get BR_OCC_16 < 16)

/-- The request at the head of the request queue is taken. -/
def State.brTakeReq (s : State) (r : BrReq) (bad : Bool) : State :=
  let s := s.qTake (s.get BR_REQQ_0)
  if bad then s.brRefuse r
  else if s.get MIRROR_state = 3 then s.brClose 5 r
  else (s.updBr fun b => { b with wait := b.wait ++ [r] }).brShow

/-- R542. -/
def State.brTake (s : State) : State :=
  let s := s.brFollow
  if !s.isF || s.passive || s.power != .run || !s.flag BR_CTL_0 || s.get MIRROR_state == 1 || !(s.q (s.get BR_CPLQ_0)).enabled || !s.qPkt (s.get BR_CPLQ_0) then s else
  match s.qPeek (s.get BR_REQQ_0) with
  | none => s
  | some (p, bad) => if s.brFree (brReq p) then s.brTakeReq (brReq p) (brRefused p bad) else s

def execBridgeRequestTake (s : State) : Out := .next s.brTake

/-! ## Bus cycles (R536, R537, R543) -/

/-- The bus address word of a request. -/
def BrReq.word (r : BrReq) : Nat := r.addr + 2 ^ 24 * r.size + 2 ^ 26 * (r.k - 1) + (if r.kind = 0 then 0 else 2 ^ 30)

/-- The data word on QP_AD, right-justified in its size. -/
def BrReq.onBus (r : BrReq) (w : Nat) : Nat := w % 2 ^ (8 * 2 ^ r.size)

/-- The words the bridge has driven on QP_AD in the latest cycle. -/
def State.qpDrive (s : State) (l : List Byte) : State := s.setWire 96 l

/-- The oldest waiting request begins its bus cycle; a posted write is open no more. A scan read needs a free read and completion entry. -/
def State.brStart (s : State) : State :=
  let s := s.brFollow
  if !s.brMaster || s.bridge.bus.isSome || s.flag BRIDGE_in_reset then s else
  match s.bridge.wait with
  | [] => s
  | r :: l =>
    if r.kind = 2 ∧ (16 ≤ s.get BR_OCC_8 ∨ 16 ≤ s.get BR_OCC_16) then s else
    ((s.updBr fun b => { b with wait := l, bus := some { r with live := r.kind ≠ 0 } }).qpDrive (leBytes 4 r.word)).brShow

def execBridgeBusCycleStart (s : State) : Out := .next s.brStart

/-- QP_RESET goes low from the module's own drive. -/
def State.qpResetDrive (s : State) : State :=
  let s := (s.set BRIDGE_in_reset 1).updBr fun b => { b with rst := false }
  if s.flag BR_LINES_8 then s else (s.set BR_LINES_8 1).courEvent 1150

/-- The bus is free; a drive of QP_RESET asked for begins. -/
def State.brIdle (s : State) : State :=
  let s := (s.updBr fun b => { b with bus := none }).brShow
  if s.bridge.rst then s.qpResetDrive else s

/-- An error on a request that is no longer open (R543). -/
def State.brClosedError (s : State) (r : BrReq) (st : Nat) : State :=
  let s := ((s.set BR_ERR_ADDR_0 r.addr).set BR_ERR_ADDR_24 st).setB BR_ERR_ADDR_31 (r.kind = 1)
  let s := s.set BR_ERR_DATA_0 (if r.kind = 0 then r.data.headD 0 else 0)
  (s.raiseInt 0x62 0).brRecord 0x6201 4 s.brErrAddr r.tag st

/-- A scan read late or in error (R545). -/
def State.brScanMiss (s : State) (e addr st : Nat) : State :=
  let s := (s.count (BR_S_CNT_16 e)).raiseInt 0x62 2
  s.once (0x6204 * 65536 + e) ticksPerSec fun s => s.brRecord 0x6204 4 addr e st

/-- A scan read's value into the data image, with its edge's time (R544). -/
def State.brScanWrite (s : State) (r : BrReq) : State :=
  let v := s.get (BR_S_TGT_0 r.tag)
  let t := r.edge * s.get CYC_BASE_0 * 10000
  match s.var v with
  | none => s
  | some d =>
    if d.kind = 1 ∧ d.cls = r.cls ∧ d.size = 4 * r.k then
      (s.imgWrite 0xA003 v s.now (some t) (r.data.flatMap fun w => leBytes 4 w)).count (BR_S_CNT_0 r.tag)
    else s.rejectWrite d 0xA003

/-- A bus cycle ends: status 0 done, 1 far-side error, 2 timeout, 6 bus reset. -/
def State.brEnd (s : State) (r : BrReq) (st : Nat) : State :=
  let s := if st = 0 then s.count (if r.kind = 0 then BR_WRITES_0 else BR_READS_0)
    else if st = 1 then (s.count BR_FARERR_0).count BRIDGE_err_count
    else if st = 2 then (s.count BR_TMO_0).count BRIDGE_err_count else s
  let s := s.updBr fun b => { b with bus := none }
  let s :=
    if r.kind = 2 then (if st ≠ 0 ∨ r.edge < s.cyc.next then s.brScanMiss r.tag r.addr st else s.brScanWrite r)
    else if r.kind = 1 ∧ r.live then s.brComplete r.tag st r.addr (if st = 0 then r.data else [])
    else if st = 1 ∨ st = 2 then s.brClosedError r st else s
  s.brIdle

/-- A data phase ends with QP_ACK or QP_ERR. -/
def State.brPhase (s : State) (err : Bool) (w : Nat) : State :=
  match s.bridge.bus with
  | none => s
  | some r =>
    if err then s.brEnd r 1 else
    let s := if r.kind = 0 then s.qpDrive (SMap.get s.wire 96 [] ++ leBytes 4 (r.onBus (r.data.getD r.n 0))) else s
    let r := { r with n := r.n + 1, data := if r.kind = 0 then r.data else r.data ++ [r.onBus w] }
    if r.k ≤ r.n then s.brEnd r 0 else s.updBr fun b => { b with bus := some r }

def execBridgeDataPhaseEnd (err : Bool) (data : BitVec 32) (s : State) : Out := .next (s.brPhase err data.toNat)

def execBridgeDataPhaseTimeout (s : State) : Out :=
  .next (match s.bridge.bus with | some r => s.brEnd r 2 | none => s)

/-- R542: the oldest completion goes to the completion queue when the whole packet fits. -/
def State.brCplWrite (s : State) : State :=
  let q := s.get BR_CPLQ_0
  match s.bridge.cpl with
  | [] => s
  | p :: l =>
    if !(s.q q).enabled then s.brCplDrop q
    else if s.qPkt q ∧ s.qRoom q p.length then ((s.updBr fun b => { b with cpl := l }).qPacket q 0x62 p).brShow
    else s.raiseInt 0x62 3

def execBridgeCompletionWrite (s : State) : Out := .next (if s.isF then s.brCplWrite else s)

/-! ## Scan (R544, R545) -/

/-- Index of the next class boundary of class j. -/
def State.nextEdge (s : State) (j : Nat) : Nat :=
  let m := s.get (CYC_CFG_0 j)
  s.cyc.next + (s.get (CYC_CFG_11 j) + m - s.cyc.next % m) % m

/-- The scan reads of a class enter the issue order ahead of what waits; an entry that breaks an alignment rule counts as an error. -/
def State.brScan (s : State) (j : Nat) : State :=
  let s := s.brFollow
  if !s.brMaster || !s.flag BR_SCANCTL_31 || !s.flag CYCLE_running || !s.flag (CYC_CFG_21 j) then s else
  let es := (List.range 32).filter fun e => s.flag (BR_S_ADDR_31 e) && s.get (BR_S_TGT_16 e) == j
  let ok (e : Nat) : Bool := brAligned (s.get (BR_S_ADDR_0 e)) (s.get (BR_S_ADDR_24 e)) (s.get (BR_S_ADDR_26 e) + 1)
  let rs := (es.filter ok).map fun e =>
    ({ kind := 2, addr := s.get (BR_S_ADDR_0 e), size := s.get (BR_S_ADDR_24 e), k := s.get (BR_S_ADDR_26 e) + 1, tag := e, data := [], n := 0,
       live := true, cls := j, edge := s.nextEdge j } : BrReq)
  let s := s.updBr fun b => { b with wait := b.wait.filter (·.kind = 2) ++ rs ++ b.wait.filter (·.kind ≠ 2) }
  s.each (es.filter fun e => !ok e) fun s e => s.brScanMiss e (s.get (BR_S_ADDR_0 e)) 1

def execBridgeScanInstant (cls : Fin 8) (s : State) : Out := .next (s.brScan cls.val)

/-! ## Commands and lines (R546, R547, R549) -/

/-- BR_CMD flush: what is taken and not on the bus is closed, and every open read; a cycle on the bus completes. -/
def State.brFlush (s : State) : State :=
  let b := s.bridge
  let s := s.updBr fun b => { b with wait := b.wait.filter (·.kind = 2), bus := b.bus.map fun (r : BrReq) => if r.kind = 1 then { r with live := false } else r }
  let s := match b.bus with | some r => (if r.kind = 1 ∧ r.live then s.brClose 4 r else s) | none => s
  (s.each (b.wait.filter (·.kind ≠ 2)) fun s r => s.brClose 4 r).brShow

/-- BR_CMD reset: QP_RESET is driven after any cycle on the bus has ended. -/
def State.brResetCmd (s : State) : State :=
  if s.bridge.bus.isSome then s.updBr fun b => { b with rst := true } else s.qpResetDrive

/-- A write of BR_CMD. -/
def State.brCmd (s : State) (v : Nat) : State :=
  let s := if bitOf v 0 then s.brFlush else s
  if bitOf v 1 then s.brResetCmd else s

def execBrFlush (a : Acc) (s : State) : Out := .next (s.writeAt a 0x62 0x04C fun s => s.brCmd 1)
def execBrReset (a : Acc) (s : State) : Out := .next (s.writeAt a 0x62 0x04C fun s => s.brCmd 2)

/-- QP_RESET is low: the cycle in progress ends with status 6, and nothing is issued. -/
def State.qpLow (s : State) : State :=
  let s := (s.set BRIDGE_in_reset 1).set BR_LINES_8 1
  match s.bridge.bus with | some r => s.brEnd r 6 | none => s

def execQpResetAssert (s : State) : Out := .next (if s.isF ∧ s.power = .run then s.qpLow else s)

def execQpResetRecoveryEnd (s : State) : Out := .next (if s.isF then (s.set BRIDGE_in_reset 0).set BR_LINES_8 0 else s)

/-- R546: line n asserts: one event; BR_LINES takes the levels. -/
def State.quicenLine (s : State) (n levels : Nat) : State :=
  let v := setBit levels n
  let s := (s.set BR_LINES_0 (v % 256)).setB BR_LINES_8 (bitOf v 8 || s.flag BR_LINES_8)
  let s := (s.setB BR_LINES_9 (bitOf v 9)).setB BR_LINES_10 (bitOf v 10 || s.flag BRIDGE_sysfail_out)
  s.courEvent (1142 + n)

def execQuicenLineAssert (n : Fin 11) (levels : BitVec 11) (s : State) : Out :=
  .next (if s.isF ∧ s.power = .run then s.quicenLine n.val levels.toNat else s)

end Sys2Proof.Machine
end

