-- ==== Sys2Proof/Machine/Svc.lean ====
section
/-! DEFINITION. The service ports (23 R564, R565) and Cobbler's service (21 R526, R527). -/

namespace Sys2Proof.Machine

/-- Service ports of the variant (00 R5). -/
def State.nSvc (s : State) : Nat := s.byVar 2 2 1

/-- Address of service port x. -/
def State.svcMac (s : State) (x : Nat) : Nat := s.get (SVC_MAC_LO_0 x) + 2 ^ 32 * s.get (SVC_MAC_HI_0 x)

/-- The port is powered and its link is up. -/
def State.svcUp (s : State) (x : Nat) : Bool := decide (x < s.nSvc) && s.power == .run && s.flag (SVC_LINK_0 x)

/-! ## Links (R564, R565) -/

/-- SVC_LINK as a word. -/
def State.svcLinkWord (s : State) (x : Nat) : Nat := s.get (SVC_LINK_0 x) + 2 * s.get (SVC_LINK_1 x)

/-- The link of port x goes up at a speed, or down. -/
def State.svcLink (s : State) (x : Nat) (up : Bool) (speed : Nat) : State :=
  if s.flag (SVC_LINK_0 x) = up then s else
  let s := (s.setB (SVC_LINK_0 x) up).set (SVC_LINK_1 x) (if up then speed else 0)
  let s := s.set SVC_up (if up then setBit (s.get SVC_up) x else clrBit (s.get SVC_up) x)
  (s.raiseInt 0x35 0).recordSec x 0x3501 3 [x, s.svcLinkWord x, 0, 0]

/-- A link that comes up fits the port's setting: enabled, or Cobbler's port 0; a fixed speed is the partner's. -/
def State.svcFits (s : State) (x speed : Nat) : Bool :=
  (s.upd.cobbler && x == 0) || (s.flag (SVC_CTL_0 x) && (s.flag (SVC_CTL_1 x) || s.get (SVC_CTL_2 x) == speed))

def execSvcLinkChange (x : Fin 2) (up : Bool) (speed : Fin 3) (s : State) : Out :=
  .next (if x.val < s.nSvc ∧ s.power = .run ∧ (!up || s.svcFits x.val speed.val) then s.svcLink x.val up speed.val else s)

/-- A write of SVC_CTL: a port disabled is down. -/
def State.svcCtl (s : State) (x : Nat) : State := if s.flag (SVC_CTL_0 x) then s else s.svcLink x false 0

/-! ## Internet protocol as Cobbler speaks it (R526; RFC 791, 768, 792, 826, 1350) -/

/-- 192.168.100.2 -/
def cobIp : Nat := 0xC0A86402

/-- Sum of 16-bit words, an odd byte padded with 0. -/
def sum16 : List Byte → Nat
  | [] => 0
  | [a] => a.toNat * 256
  | a :: b :: r => a.toNat * 256 + b.toNat + sum16 r

/-- Internet checksum. -/
def ipSum (l : List Byte) : Nat :=
  let a := sum16 l
  let a := a % 65536 + a / 65536
  65535 - (a % 65536 + a / 65536)

/-- An IPv4 packet from Cobbler; identification and time to live are free values. -/
def ipPacket (proto dst id ttl : Nat) (pay : List Byte) : List Byte :=
  let h (c : Nat) : List Byte := [0x45, 0] ++ beBytes 2 (20 + pay.length) ++ beBytes 2 id ++ [0, 0] ++ beBytes 1 ttl ++ beBytes 1 proto ++
    beBytes 2 c ++ beBytes 4 cobIp ++ beBytes 4 dst
  h (ipSum (h 0)) ++ pay

/-- A UDP datagram from Cobbler. -/
def udpPacket (dst sport dport : Nat) (pay : List Byte) : List Byte :=
  let n := 8 + pay.length
  let h (c : Nat) : List Byte := beBytes 2 sport ++ beBytes 2 dport ++ beBytes 2 n ++ beBytes 2 c
  let c := ipSum (beBytes 4 cobIp ++ beBytes 4 dst ++ [0, 17] ++ beBytes 2 n ++ h 0 ++ pay)
  h (if c = 0 then 65535 else c) ++ pay

/-- A frame from Cobbler to the sender of frame f. -/
def State.cobSend (s : State) (f : List Byte) (type : Nat) (pay : List Byte) : State :=
  (s.emit 4 (padTo60 (sub f 6 6 ++ beBytes 6 (s.svcMac 0) ++ beBytes 2 type ++ pay))).count (SVC_TX_FRAMES_0 0)

/-- An IPv4 answer to frame f. -/
def State.cobIpSend (s : State) (f : List Byte) (proto : Nat) (pay : List Byte) : State :=
  let v := Config.freeValue s.freeCtr
  s.draw.cobSend f 0x0800 (ipPacket proto (beAt f 26 4) (v % 65536) (v / 65536 % 256) pay)

/-- A TFTP packet in answer to frame f; Cobbler's port number is a free value. -/
def State.tftpSend (s : State) (f : List Byte) (pay : List Byte) : State :=
  let v := Config.freeValue s.freeCtr
  s.draw.cobIpSend f 17 (udpPacket (beAt f 26 4) (v % 65536) (beAt f 34 2) pay)

/-- A TFTP ERROR packet with a code; its text is a free value. -/
def State.tftpError (s : State) (f : List Byte) (code : Nat) : State :=
  let v := Config.freeValue s.freeCtr
  s.draw.tftpSend f (beBytes 2 5 ++ beBytes 2 code ++ (leBytes 8 v).filter (· ≠ 0) ++ [0])

/-- An ERROR packet where no code is given: a free value. -/
def State.tftpDeny (s : State) (f : List Byte) : State :=
  let v := Config.freeValue s.freeCtr
  s.draw.tftpError f (v % 65536)

/-- The IPv4 packet of frame f is for Cobbler, without options or fragments. -/
def cobIpOk (f : List Byte) : Bool :=
  beAt f 12 2 == 0x0800 && beAt f 14 1 == 0x45 && beAt f 30 4 == cobIp && beAt f 20 2 % 0x4000 == 0 && ipSum (sub f 14 20) == 0 &&
  decide (beAt f 16 2 + 14 ≤ f.length)

/-- Frame f carries a TFTP request to port 69. -/
def isTftp (f : List Byte) : Bool := cobIpOk f && beAt f 23 1 == 17 && beAt f 36 2 == 69

/-- TFTP data of frame f. -/
def tftpData (f : List Byte) : List Byte := sub f 42 (beAt f 38 2 - 8)

/-- A byte as lower case. -/
def lower (b : Byte) : Byte := if 0x41 ≤ b.toNat ∧ b.toNat ≤ 0x5A then b + 0x20 else b

/-- "recover.euc" -/
def cobFile : List Byte := [0x72, 0x65, 0x63, 0x6F, 0x76, 0x65, 0x72, 0x2E, 0x65, 0x75, 0x63]
/-- "octet" -/
def cobMode : List Byte := [0x6F, 0x63, 0x74, 0x65, 0x74]

/-- A write request for "recover.euc" in mode octet, without options. -/
def tftpOk (f : List Byte) : Bool :=
  let d := tftpData f
  d.length == 20 && d.take 14 == [0, 2] ++ cobFile ++ [0] && (sub d 14 5).map lower == cobMode && d.drop 19 == [0]

/-- ARP for Cobbler's address: the answer's data. -/
def State.cobArp (s : State) (f : List Byte) : State :=
  if sub f 14 8 == [0, 1, 8, 0, 6, 4, 0, 1] && beAt f 38 4 == cobIp then
    s.cobSend f 0x0806 ([0, 1, 8, 0, 6, 4, 0, 2] ++ beBytes 6 (s.svcMac 0) ++ beBytes 4 cobIp ++ sub f 22 10)
  else s

/-- A frame Cobbler receives on port 0: ARP and ICMP echo are answered; a TFTP request it does not accept is answered with ERROR. -/
def State.cobRecv (s : State) (f : List Byte) : State :=
  if beAt f 12 2 = 0x0806 then s.cobArp f
  else if !cobIpOk f then s
  else if beAt f 23 1 = 1 ∧ beAt f 34 2 = 0x0800 then
    let d := sub f 34 (beAt f 16 2 - 20)
    let e := [(0 : Byte), 0, 0, 0] ++ d.drop 4
    s.cobIpSend f 1 ([0, 0] ++ beBytes 2 (ipSum e) ++ d.drop 4)
  else if isTftp f ∧ (!tftpOk f || s.upd.installed) then s.tftpDeny f
  else s

/-! ## Frames (R564) -/

/-- A frame dropped under R240. -/
def State.svcDrop (s : State) (x : Nat) : State := ((s.count (SVC_RX_DROP_0 x)).count SVC_err_count).raiseInt 0x35 1

/-- The destination is the port's. -/
def State.svcDst (s : State) (x : Nat) (f : List Byte) : Bool :=
  beAt f 0 6 == s.svcMac x || beAt f 0 6 == bcast || (s.flag (SVC_CTL_4 x) && bitOf (beAt f 0 1) 0)

/-- A frame of an up port, given without its FCS. -/
def State.svcRecv (s : State) (x : Nat) (f : List Byte) (fcsOk : Bool) : State :=
  if !s.svcUp x then s
  else if 1518 < frameLen f ∨ f.length + 4 < 64 + tagLen f ∨ !fcsOk then s.svcDrop x
  else if !s.svcDst x f then s.count (SVC_RX_DROP_0 x)
  else if s.upd.cobbler then (if x = 0 then s.cobRecv f else s)
  else
    let p := if s.flag (TS_PORTCTL_0 (4 + x)) then beBytes 8 (unsint 64 (s.rxStamp (4 + x))) ++ f else f
    let q := s.get (SVC_RXQ_0 x)
    if s.flag (SVC_RXQ_31 x) ∧ s.qRoom q p.length then (s.count (SVC_RX_GOOD_0 x)).qPacket q (0x38 + x) p
    else (s.count (SVC_RX_QFULL_0 x)).raiseInt 0x35 2

def execSvcFrameReceived (x : Fin 2) (f : List Byte) (fcsOk : Bool) (s : State) : Out := .next (s.svcRecv x.val f fcsOk)

/-- The packet at the head of the transmit queue of port x is sent, or dropped and counted. -/
def State.svcSend (s : State) (x : Nat) : State :=
  if !s.svcUp x || s.upd.cobbler || !s.flag (SVC_TXQ_31 x) then s else
  let q := s.get (SVC_TXQ_0 x)
  match s.qPeek q with
  | none => s
  | some (f, bad) =>
    let s := s.qTake q
    if bad ∨ 1518 < frameLen f then s.count (SVC_TX_LONG_0 x)
    else
      let r := s.ptp (4 + x) (padTo60 f)
      (r.1.emit (4 + x) r.2).count (SVC_TX_FRAMES_0 x)

def execSvcFrameSend (x : Fin 2) (s : State) : Out := .next (s.svcSend x.val)

/-! ## Cobbler's install (R526, R527) -/

/-- Bytes padded with 0 to whole sectors. -/
def padSector (l : List Byte) : List Byte := l ++ List.replicate ((4096 - l.length % 4096) % 4096) 0

/-- Write a component to the slot that is not in use. -/
def State.cobWrite (s : State) (k : Nat) (hdr pay : List Byte) : State :=
  let p := slotPart k (1 - sideOf s.running k)
  (s.flashWrite p 0 (padSector hdr)).flashWrite p 1 (padSector pay)

/-- One component in the order of its bytes; `ok` false: refused before. -/
def State.cobPart (file : List Byte) (table : List (Nat × Nat)) (a : State × Bool × Nat) (e : Nat × Nat × Nat) : State × Bool × Nat :=
  if !a.2.1 then a else
  let s := a.1
  let h := sub file e.2.1 512
  let pay := sub file (e.2.1 + 512) (hdrLen h)
  let r := if hdrType h ≠ e.1 then 1 else s.hdrReason h
  let known := a.2.2
  if r ≠ 0 then (s.updRefuse r e.1 (hdrVersion h), false, known)
  else if e.2.2 ≠ 512 + hdrLen h ∨ pay.length ≠ hdrLen h then (s.updRefuse 5 e.1 (hdrVersion h), false, known)
  else if (bitList 6 known).any fun k => e.1 - 1 ≤ k then (s.updRefuse 4 e.1 (hdrVersion h), false, known)
  else if !setOk (s.resultSet (tableMask table) known [h]) then (s.updRefuse 2 e.1 (hdrVersion h), false, known)
  else
    let s := s.cobWrite e.1 h pay
    if s.slotHash e.1 (1 - sideOf s.running e.1) then (s.updRecord 0x0503 3 e.1 (hdrVersion h), true, setBit known (e.1 - 1))
    else (s.updRefuse 6 e.1 (hdrVersion h), false, known)

/-- The container is installed, or refused: the state, and whether it is installed. -/
def State.cobInstall (s : State) (file : List Byte) : State × Bool :=
  let h := file.take 512
  let v := beAt h 8 4
  if !s.contOk h then (s.updRefuse 1 v v, false) else
  let t := (contTable h).mergeSort fun a b => decide (a.2.1 ≤ b.2.1)
  let tab := t.map fun e => (e.1, e.2.2)
  if !setOk (s.resultSet (tableMask tab) 0 []) then (s.updRefuse 2 v v, false) else
  let r := t.foldl (State.cobPart file tab) (s, true, 0)
  if !r.2.1 then (r.1, false) else
  let s := r.1.setTrial (tableMask tab) (bitOf (beAt h 6 1) 0) 3
  let s := (s.updU fun u => { u with fails := 0, installed := true }).bootShow
  (s.updRecord 0x050A 4 v v, true)

/-- A TFTP transfer of the whole file: ACK of its last block, ERROR 2 where it is refused. -/
def State.cobTftp (s : State) (req file : List Byte) : State :=
  if !isTftp req then s
  else if !tftpOk req || decide (33553919 < file.length) then s.tftpDeny req
  else
    let r := s.cobInstall file
    if r.2 then r.1.tftpSend req (beBytes 2 4 ++ beBytes 2 (file.length / 512 + 1)) else r.1.tftpError req 2

/-- R526, R527: the container comes by TFTP (`req` the request's frame) or from the SD card. -/
def execTftpWriteRequest (sd : Bool) (req file : List Byte) (s : State) : Out :=
  .next (if s.power ≠ .run ∨ !s.upd.cobbler ∨ s.upd.installed then s
    else if sd then (if s.flag SDSLOT_present then (s.cobInstall file).1 else s)
    else if s.svcUp 0 then s.cobTftp req file else s)

/-- R527: recovery entry off, cover and seal closed: Cobbler starts the module from OFF. -/
def execCobblerRestart (s : State) : Out :=
  .next (if s.power = .run ∧ s.upd.cobbler ∧ s.upd.installed ∧ !bitOf (s.get SW_READ_HI_0) 29 ∧ s.get LK_TAMPER_8 % 8 = 0 then s.shutOff 0 else s)

end Sys2Proof.Machine
end

