-- ==== Sys2Proof/Machine/PageRead.lean ====
section
/-! DEFINITION. A read of a hub page (23 R552 to R566; 00 R9 to R11): header, windows and banked copies, live registers, reads that latch or clear. -/

namespace Sys2Proof.Machine

/-! ## The common header (R553, R556, R561) -/

/-- Four characters as BLK_ID shows them. -/
def tag4 (a b c d : Nat) : Nat := a + 2 ^ 8 * b + 2 ^ 16 * c + 2 ^ 24 * d

/-- The character of a hexadecimal digit. -/
def hexCh (n : Nat) : Nat := if n < 10 then 48 + n else 55 + n

/-- BLK_ID of a page. -/
def blkId (p : Nat) : Nat :=
  if 0x10 ≤ p ∧ p < 0x30 then tag4 84 78 (48 + (p - 0x10) / 10) (48 + (p - 0x10) % 10)
  else if 0x30 ≤ p ∧ p < 0x34 then tag4 69 84 72 (48 + (p - 0x30))
  else if 0x3A ≤ p ∧ p < 0x42 then tag4 80 79 76 (48 + (p - 0x3A))
  else if 0x42 ≤ p ∧ p < 0x52 then tag4 67 65 78 (hexCh (p - 0x42))
  else if 0x52 ≤ p ∧ p < 0x5E then tag4 70 73 79 (hexCh (p - 0x52))
  else match p with
    | 0x00 => 0x54535953 | 0x01 => 0x4B434C43 | 0x02 => 0x52574F50 | 0x03 => 0x4D524854 | 0x04 => 0x4B434F4C | 0x05 => 0x54445055
    | 0x06 => 0x524F5453 | 0x07 => 0x4744454C | 0x08 => 0x59535341 | 0x09 => 0x52474D4C | 0x0A => 0x52554F43 | 0x0B => 0x4C435943
    | 0x0C => 0x474D4944 | 0x0D => 0x594C4154 | 0x0E => 0x52474D51 | 0x0F => 0x4C54434D | 0x34 => 0x5252494D | 0x35 => 0x56524553
    | 0x36 => 0x4E4D4C41 | 0x37 => 0x54524F50 | 0x38 => 0x4D4B4C43 | 0x39 => 0x50545354 | 0x5E => 0x44455053 | 0x5F => 0x4C4C494D
    | 0x60 => 0x54554F53 | 0x61 => 0x47534D53 | 0x62 => 0x47445242 | 0x63 => 0x4C534453 | 0x64 => 0x48435753 | 0x65 => 0x47424448
    | _ => 0

/-- BLK_CAP of a page (each page's common header). -/
def State.blkCap (s : State) (p : Nat) : Nat :=
  if 0x10 ≤ p ∧ p < 0x30 then 16 + 2 ^ 5 * 32
  else if 0x30 ≤ p ∧ p < 0x34 then (p - 0x30) % 2 + 2
  else if 0x3A ≤ p ∧ p < 0x42 then 1024 + 2 ^ 11 * 1024 + 2 ^ 22 * 64 + 2 ^ 31 * b2n s.nodeCap
  else if 0x42 ≤ p ∧ p < 0x52 then b2n s.isF + 2 * 64 + 2 ^ 8 * 128
  else if 0x52 ≤ p ∧ p < 0x5E then 8 + 2 ^ 4 * b2n (decide (0x5A ≤ p)) + 2 ^ 5 * b2n (p == 0x52 && !s.isS)
  else match p with
    | 0x00 => 102 + 2 ^ 7 * s.byVar 16 16 8
    | 0x01 => 72
    | 0x02 => 0xF
    | 0x03 => 4
    | 0x04 => 3 + 2 ^ 2 * 6
    | 0x05 => 6
    | 0x06 => 2 + 2 ^ 2 * 15
    | 0x07 => 32768 + 2 ^ 16 * 4096
    | 0x08 => s.nPairs + 2 ^ 4 * 64 + 2 ^ 12 * 64 + 2 ^ 20 * 1024
    | 0x09 => 3 + 2 ^ 2 * s.nPairs
    | 0x0A => 1280 + 2 ^ 12 * 256 + 2 ^ 24 * s.nPairs
    | 0x0B => 8
    | 0x0C => 65536 + 2 ^ 17 * 256
    | 0x0D => 16 + 2 ^ 5 * 4 + 2 ^ 10 * 15 + 2 ^ 15 * 8192
    | 0x0E => 1024 + 2 ^ 11 * 0x28000
    | 0x0F => 16 + 2 ^ 5 * 32
    | 0x34 => 2
    | 0x35 => s.byVar 2 2 1
    | 0x36 => 4096 + 2 ^ 13 * 4096
    | 0x37 => 512 + 2 ^ 10 * s.byVar 4 2 2
    | 0x38 => 15 + 2 ^ 4 * b2n s.nodeCap
    | 0x39 => s.byVar 0x3F 0x33 0x13 + 2 ^ 6 * s.byVar 1 1 0
    | 0x5E => s.byVar 8 4 0
    | 0x5F => s.byVar 8 4 0 + 2 ^ 4 * s.byVar 8 4 0
    | 0x60 => s.byVar 8 4 0
    | 0x61 => 64 + 2 ^ 7 * 64
    | 0x62 => 32 + 2 ^ 6 * 16 + 2 ^ 11 * 16 + 2 ^ 16 * 32
    | 0x63 => 1
    | 0x64 => 64
    | 0x65 => 50
    | _ => 0

/-- SYS_PAGES[n] (R561, R562). -/
def State.sysPages (s : State) (n : Nat) : Nat :=
  ((List.range 32).filter fun i => s.pagePresent (32 * n + i)).foldl setBit 0

/-! ## Windows, copies, registers a variant lacks -/

/-- The copy or window entry an access at an offset of a page reaches, as Fld.sel names it. -/
def State.selOf (s : State) (a : Acc) (page off : Nat) : Nat :=
  if 0x3A ≤ page ∧ page < 0x42 then
    let c := page - 0x3A
    if 0x100 ≤ off ∧ off < 0x10C then 1 + s.get (POLL_ESEL_0 c) + 1024 * s.get (POLL_ESEL_10 c)
    else if 0x10C ≤ off ∧ off < 0x13C then 1 + s.get (POLL_ESEL_0 c)
    else if 0x140 ≤ off ∧ off < 0x17C then 1 + s.get (POLL_RSEL_0 c)
    else if 0x180 ≤ off ∧ off < 0x190 then 1 + s.get (POLL_ASEL_0 c)
    else 0
  else if 0x42 ≤ page ∧ page < 0x52 then
    let c := page - 0x42
    if 0x100 ≤ off ∧ off < 0x13C then 1 + s.get (CAN_MSEL_0 c)
    else if 0x140 ≤ off ∧ off < 0x160 then 1 + s.get (CAN_FSEL_0 c)
    else 0
  else match page with
    | 0x07 => if 0x100 ≤ off ∧ off < 0x118 then 1 + copyOf a else if 0x140 ≤ off ∧ off < 0x14C then 1 + s.get LG_RSEL_0 else 0
    | 0x0E =>
      if 0x040 ≤ off ∧ off < 0x06C ∧ (off = 0x040 ∨ 0x05C ≤ off) then 1 + copyOf a
      else if 0x104 ≤ off ∧ off < 0x118 then 1 + s.get QMGR_CSEL_0 else 0
    | 0x36 =>
      if 0x100 ≤ off ∧ off < 0x13C then 1 + s.get ALM_ESEL_0 + 4096 * s.get ALM_ESEL_12
      else if 0x140 ≤ off ∧ off < 0x150 then 1 + s.get ALM_RSEL_0 else 0
    | 0x37 => if 0x100 ≤ off then 1 + s.get PORTER_WSEL_0 + 512 * s.get PORTER_WSEL_9 else 0
    | 0x38 => if off = 0x044 ∨ off = 0x04C then 1 + copyOf a else 0
    | 0x39 => if off = 0x0A8 ∨ (0x064 ≤ off ∧ off < 0x090 ∧ off % 8 = 4) then 1 + copyOf a else 0
    | 0x5E => if 0x11C ≤ off ∧ (off - 0x11C) % 64 = 0 then 1 + copyOf a else 0
    | 0x62 => if 0x100 ≤ off ∧ off < 0x10C then 1 + s.get BR_SSEL_0 else 0
    | 0x65 => if off = 0x04C then 1 + copyOf a else 0
    | _ => 0

/-- A register that the variant lacks reads 0 and ignores writes (00 R9). -/
def State.regAbsent (s : State) (page off : Nat) : Bool :=
  if 0x42 ≤ page ∧ page < 0x52 then
    if s.isF then off == 0x050 else decide (0x044 ≤ off) && decide (off < 0x050)
  else match page with
    | 0x08 => s.isS && ([0x078, 0x07C, 0x088, 0x08C].contains off || (decide (0x160 ≤ off) && decide (off < 0x180)))
    | 0x0A => s.isS && ([0x058, 0x05C, 0x0A8, 0x0AC, 0x0B8, 0x0BC].contains off || (decide (0x070 ≤ off) && decide (off < 0x080)) ||
        (decide (0x090 ≤ off) && decide (off < 0x0A0)))
    | 0x35 => s.isS && decide (0x0C0 ≤ off) && decide (off < 0x140)
    | 0x37 => !s.isF && (off == 0x068 || off == 0x06C)
    | 0x39 =>
      let present (x : Nat) : Bool := bitOf (s.byVar 0x3F 0x33 0x13) x
      if 0x040 ≤ off ∧ off < 0x058 then !present ((off - 0x040) / 4)
      else if 0x060 ≤ off ∧ off < 0x090 then !present ((off - 0x060) / 8)
      else s.isS && decide (0x0A0 ≤ off)
    | 0x5E => decide (s.byVar 8 4 0 ≤ (off - 0x100) / 64) && decide (0x100 ≤ off)
    | 0x60 => decide (0x100 ≤ off) && decide (off < 0x200) && decide (s.byVar 8 4 0 ≤ (off - 0x100) / 16)
    | _ => false

/-! ## Registers -/

/-- The field of a row of the table at an offset. -/
def Row.fld (r : Row) (page off sel i : Nat) : Fld :=
  { page := page, off := off, lo := r.lo, w := r.w, rst := r.rst (pageInst page) i, sel := sel }

/-- The rows of a page at an offset, with their array index. -/
def rowsAt (page off : Nat) : List (Row × Nat) :=
  (pageRows page).filterMap fun r => (r.index off).map fun i => (r, i)

/-- The fields read at an offset, put together; write-only fields read 0. -/
def State.plainRead (s : State) (a : Acc) (page off : Nat) : Nat :=
  ((rowsAt page off).map fun x => if x.1.acc = .wo then 0 else 2 ^ x.1.lo * s.get (x.1.fld page off (s.selOf a page off) x.2)).sum

/-- A read of read-clear fields sets them to their reset value (00 R11). -/
def State.readClear (s : State) (a : Acc) (page off : Nat) : State :=
  let sel := s.selOf a page off
  s.each ((rowsAt page off).filter fun x => x.1.acc == .rc) fun s x =>
    s.set (x.1.fld page off sel x.2) (x.1.rst (pageInst page) x.2)

/-- Registers of a page that show something else of the state at the moment of the read. -/
def State.liveSys (s : State) (off : Nat) : Option Nat :=
  if off = 0x040 then some (s.get SYS_IDENT_0 + 2 ^ 8 * s.byVar 1 2 3 + 2 ^ 12 * s.get SYS_IDENT_12 + 2 ^ 16 * 3)
  else if 0x060 ≤ off ∧ off < 0x070 then some (s.sysPages ((off - 0x060) / 4))
  else if off = 0x070 then
    some (s.nPairs + 2 ^ 4 * s.byVar 4 2 2 + 2 ^ 8 * s.byVar 2 2 0 + 2 ^ 10 * s.byVar 2 2 1 + 2 ^ 12 * s.byVar 8 4 2 + 2 ^ 16 * s.byVar 16 8 4)
  else if off = 0x074 then
    some (s.byVar 64 32 16 + 2 ^ 8 * s.byVar 32 16 8 + 2 ^ 16 * s.byVar 8 4 0 + 2 ^ 20 * s.byVar 8 4 0 + 2 ^ 24 * s.byVar 1 1 0 +
      2 ^ 25 * s.byVar 1 0 0 + 2 ^ 26 * s.byVar 1 1 0 + 2 ^ 27)
  else if off = 0x078 then some (s.byVar 16 16 8 + 2 ^ 8 * s.byVar 16 16 12 + 2 ^ 16 * 16)
  else if off = 0x080 then
    some (s.get ASSAY_mode + 2 ^ 2 * s.get ASSAY_voters + 2 ^ 5 * s.get MIRROR_state + 2 ^ 8 * s.get LK_LIFE_0 + 2 ^ 11 * s.get THERM_state)
  else none

/-- QMGR_QSTAT, QMGR_QSPACE and the copies that the runtime reaches at tenant level. -/
def State.liveQmgr (s : State) (a : Acc) (off : Nat) : Option Nat :=
  let c := copyOf a
  let t := tcopyOf a
  if off = 0x06C then some (s.qStat (s.qSel c))
  else if off = 0x070 then some (s.qSpace (s.qSel c))
  else if off = 0x080 then some (s.get (QMGR_QSEL_0 t) + 2 ^ 16 * s.get (QMGR_QSEL_16 t))
  else if off = 0x084 then
    some (s.get (QMGR_LASTTAG_0 t) + 2 ^ 5 * s.get (QMGR_LASTTAG_5 t) + 2 ^ 6 * s.get (QMGR_LASTTAG_6 t) + 2 ^ 7 * s.get (QMGR_LASTTAG_7 t))
  else if 0x088 ≤ off ∧ off < 0x098 then some (s.get (grpFld ((off - 0x088) / 4) t))
  else none

/-- The registers of speed channel n that its measurement gives now (14). -/
def State.liveSpeed (s : State) (off : Nat) : Option Nat :=
  if off < 0x100 ∨ 0x300 ≤ off then none else
  let n := (off - 0x100) / 64
  let c := s.sp n
  match (off - 0x100) % 64 with
  | 0x08 => some (c.status % 512 + 2 ^ 16 * b2n c.t1 + 2 ^ 17 * b2n c.t2 + 2 ^ 18 * b2n c.fs)
  | 0x0C => some (min c.tLast 0xFFFFFFF)
  | 0x10 => some (s.spdF n % 2 ^ 25)
  | 0x14 => some (unsint 32 (s.spdV n))
  | 0x18 => some (unsint 64 c.odo % 2 ^ 32)
  | _ => none

/-- All registers that show something else of the state. -/
def State.liveRead (s : State) (a : Acc) (page off : Nat) : Option Nat :=
  if 0x3A ≤ page ∧ page < 0x42 ∧ off = 0x010 then
    some (s.pollState (page - 0x3A) + 2 ^ 3 * s.get (POLL_tx_silenced (page - 0x3A)))
  else if 0x10 ≤ page ∧ page < 0x30 ∧ off = 0x060 then none
  else match page with
    | 0x00 => s.liveSys off
    | 0x04 => if off = 0x054 then some s.windowLeft else none
    | 0x06 =>
      if 0x100 ≤ off ∧ off < 0x13C then
        some (stSize ((off - 0x100) / 4) + 2 ^ 24 * stPlace ((off - 0x100) / 4) + 2 ^ 26 * s.get (ST_PINFO_26 ((off - 0x100) / 4)))
      else none
    | 0x0E => s.liveQmgr a off
    | 0x38 => if off = 0x040 then some (s.now % 2 ^ 32) else if off = 0x048 then some (s.cns % 2 ^ 32) else none
    | 0x5E => s.liveSpeed off
    | 0x5F => if off = 0x040 then some (s.mw.romAt 0 4) else if off = 0x084 then some (s.mw.romAt (4 * s.get MW_ROMSEL_0) 4) else none
    | 0x60 =>
      if off = 0x010 then
        some (s.get SAFEOUT_checked + 2 * b2n (!(s.lanesIn lDebug).isEmpty || s.so.block || !s.so.accepted))
      else none
    | 0x65 => if off = 0x040 then some (s.get HDBG_STAT_0 + 4 * b2n s.serviceEnable + 16 * s.get HDBG_STAT_4) else none
    | _ => none

/-- Low-word reads that latch the high word for the reader's copy (10 R270, 14, 23 R566). -/
def State.readLatch (s : State) (a : Acc) (page off : Nat) : State :=
  let c := copyOf a
  match page with
  | 0x38 =>
    if off = 0x040 then s.set (CM_TIME_HI_0 c) (s.now / 2 ^ 32)
    else if off = 0x048 then s.set (CM_CNT_HI_0 c) (s.cns / 2 ^ 32) else s
  | 0x39 =>
    if off = 0x0A4 then s.set (TS_PCAP_HI_0 c) (s.get pcapHi)
    else if 0x060 ≤ off ∧ off < 0x090 ∧ off % 8 = 0 then
      s.set (TS_TXLAST_HI_0 ((off - 0x060) / 8) c) (s.get (txlastHi ((off - 0x060) / 8)))
    else s
  | 0x5E =>
    if 0x118 ≤ off ∧ (off - 0x118) % 64 = 0 then
      s.set (SPD_C_ODO_HI_0 ((off - 0x118) / 64) c) (unsint 64 (s.sp ((off - 0x118) / 64)).odo / 2 ^ 32)
    else s
  | 0x65 => if off = 0x048 then s.set (HDBG_T_HI_0 c) (s.get (State.attach.HDBG_TS_HI)) else s
  | _ => s

/-- What a read-clear read does beside its own field. -/
def State.readAlso (s : State) (page off : Nat) : State :=
  match page with
  | 0x03 =>
    if 0x060 ≤ off ∧ off < 0x070 then s.updPw fun w => { w with tmax := clrBit w.tmax ((off - 0x060) / 4) } else s
  | 0x0D => if off = 0x04C then s.tagsMax else s
  | _ => s

/-- A read at a page and offset: what it does, and its value. -/
def State.pageRead (s : State) (a : Acc) (page off : Nat) : State × Nat :=
  if !s.pagePresent page ∨ s.regAbsent page off then (s, 0)
  else if off = 0x000 then (s, blkId page)
  else if off = 0x004 then (s, 1)
  else if off = 0x008 then (s, s.blkCap page)
  else if off = 0x020 ∨ off = 0x02C then (s, s.get (rawOf page))
  else if off = 0x028 then (s, s.intStat page)
  else
    let v := match s.liveRead a page off with
      | some v => v
      | none => s.plainRead a page off
    (((s.readLatch a page off).readClear a page off).readAlso page off, v)

/-- The queue list of a tenant that reads the queue port does not grant the read (08, QMGR page; 07 R187). -/
def State.portReadRefused (s : State) (a : Acc) (off : Nat) : Bool :=
  let n := s.qSel (copyOf a)
  if off = 0x070 then !(s.qGranted a n true || s.qGranted a n false)
  else decide (0x05C ≤ off) && decide (off ≤ 0x06C) && !s.qGranted a n true

/-- A lane's read of a hub register at its capture: refused by the page rules or the queue list (23 R554), or its value. -/
def State.readAt (s : State) (a : Acc) (page off : Nat) (bad : Bool) : State × Ans :=
  if s.power ≠ .run ∨ !s.pagePresent page then (s, .value 0)
  else if s.pageRefused a.level.val a.tenant.val page off false then
    (if a.level = 0 then s.tenantRefuse a.tenant.val (regAddr page off) (if s.flag (TEN_active_en a.tenant.val) then 0 else 5) false else s, .error 3)
  else if page = 0x0E ∧ off = 0x058 then s.qPortPop a bad
  else if page = 0x0E ∧ s.portReadRefused a off then (s.tenantRefuse a.tenant.val (regAddr page off) 4 false, .error 3)
  else
    let r := s.pageRead a page off
    (r.1, .value r.2)

end Sys2Proof.Machine
end

