-- ==== Sys2Proof/Machine/LaneMem.lean ====
section
/-! DEFINITION. Lane instructions that reach memory, lane-local pages and the hub: loads, stores, atomics, block instructions
(02 R53 to R59, R64, R66 to R71, R77; 01 R16; 03 R79, R88, R89; 04 R122). -/

namespace Sys2Proof.Machine

/-! ## Checks before an access (R51 to R56, 23 R555) -/

/-- The lane-local page of a present pair refuses the level (23 R555). -/
def State.localRefused (s : State) (level : Nat) (write : Bool) (a : Nat) : Bool :=
  match s.region a with
  | .intc t => decide (t < s.nPairs) && lanePageRefused (.intc t) level write (a % 4096)
  | .cmp t => decide (t < s.nPairs) && lanePageRefused (.cmp t) level write (a % 4096)
  | .cntp t => decide (t < s.nPairs) && lanePageRefused (.cntp t) level write (a % 4096)
  | .dbgp t => decide (t < s.nPairs) && lanePageRefused (.dbgp t) level write (a % 4096)
  | _ => false

/-- The bus error of one direction of an access: cause, info, first failing byte. -/
def State.busFault (s : State) (l : Fin 3) (p : Fin 4) (write : Bool) (a n : Nat) : Option (Nat × Nat × Nat) :=
  let code := if write then 6 else 5
  match s.rangeFault l p (if write then .write else .read) a n with
  | some (b, i) => some (code, i, b)
  | none => if (s.pr l p).level = 0 && s.localRefused 0 write a then some (code, 1, a) else none

/-- What stops an access of n bytes, in the order of R52: cause, info, first failing byte. -/
def State.accFault (s : State) (l : Fin 3) (p : Fin 4) (rd wr atom : Bool) (a n : Nat) : Option (Nat × Nat × Nat) :=
  let lv := (s.pr l p).level
  let dev := (List.range n).find? fun i => (s.region (a + i)).isDev
  if lv = 1 && ((rd && s.localRefused 1 false a) || (wr && s.localRefused 1 true a)) then some (3, 0, a)
  else if atom && a % n ≠ 0 then some (4, 8, a)
  else match dev with
    | some i =>
      if atom then some (5, 6, a)
      else if n ≠ 4 ∨ a % 4 ≠ 0 then some (4, 7, a + i)
      else (if rd then s.busFault l p false a n else none).orElse fun _ => if wr then s.busFault l p true a n else none
    | none => (if rd then s.busFault l p false a n else none).orElse fun _ => if wr then s.busFault l p true a n else none

/-- Run an access of an ordinary instruction unless it faults; SR_EADDR is its address. -/
def State.access (s : State) (l : Fin 3) (p : Fin 4) (rd wr atom : Bool) (a n : Nat) (f : State → State) : State :=
  match s.accFault l p rd wr atom a n with
  | some (c, i, _) => s.precise l p c i a false
  | none => f s

/-! ## Records to the hub (01 R16, 03 R79) -/

/-- The record of a pair's hub access. -/
def PairS.hubRec (q : PairS) (p : Fin 4) (kind : RecKind) (seq addr len data cmp : Nat) : Rec :=
  { pair := p, kind := kind, seq := seq, addr := addr, len := len, data := data, cmp := cmp,
    level := laneIx q.level, tenant := ⟨(q.rs 6).toNat % 32, Nat.mod_lt _ (by decide)⟩ }

/-- Send a write or atomic record. A lane in DEBUG sends none: the hub discards its writes (04 R122). -/
def State.sendWrite (s : State) (l : Fin 3) (p : Fin 4) (kind : RecKind) (addr len data cmp : Nat) : State :=
  let q := s.pr l p
  let r := q.hubRec p kind q.seqW addr len data cmp
  let s := s.updP l p fun q => { q with seqW := (q.seqW + 1) % 2 ^ 16 }
  if s.laneState l = lDebug then s else s.updL l fun n => { n with out := n.out ++ [r] }

/-- Parts of a chunk in the hub: one record, or two where it crosses an aligned 64-byte boundary (R67). -/
def hubParts (a n : Nat) : List (Nat × Nat) :=
  let k := min n (64 - a % 64)
  if k < n then [(a, k), (a + k, n - k)] else [(a, n)]

/-- Send the read records of an access, and wait for the first. -/
def State.sendRead (s : State) (l : Fin 3) (p : Fin 4) (parts : List (Nat × Nat)) (k : HubCont) : State :=
  match parts with
  | [] => s
  | x :: _ =>
    let first := (s.pr l p).seqR
    let s := s.each parts fun s y =>
      let q := s.pr l p
      let r := q.hubRec p .read q.seqR y.1 y.2 0 0
      let s := s.updP l p fun q => { q with seqR := (q.seqR + 1) % 2 ^ 16 }
      s.updL l fun n => { n with out := n.out ++ [r] }
    s.updP l p fun q => { q with wait := .hub first x.1 x.2 k }

/-! ## Completion -/

/-- A load completes with the value read (R64, R77). -/
def PairS.loadDone (q : PairS) (kind : Nat) (rd : Fin 32) (v : Nat) : PairS :=
  let w := loadValue kind v
  ((if 7 ≤ kind then q.wv rd w else q.wg rd w).bump 1).next.retire

/-- An atomic completes with the old value; its store record is in the digest already (03 R89). -/
def PairS.atomicDone (q : PairS) (rd : Fin 32) (wide : Bool) (old : Nat) : PairS :=
  let v := if wide then BitVec.ofNat 64 old else BitVec.ofNat 64 (sext64 32 (old % 2 ^ 32))
  (((q.wg rd v).bump 1).bump 2).next.retire

/-- A chunk's operand register: written, and always in the digest (03 R89). -/
def PairS.wgChunk (q : PairS) (i : Fin 32) (v : Word64) : PairS := if i = 0 then q.fold 0x01 0 0 0 else q.wg i v

/-- A chunk retires: its operand registers after it, its count, and the next instruction once the count register is 0 (R66, R77). -/
def PairS.chunkDone (q : PairS) (gd gs1 gs2 : Fin 32) (vd v1 : Word64) (n : Nat) : PairS :=
  let v2 := q.rg gs2 - BitVec.ofNat 64 n
  let q := ((((q.wgChunk gd vd).wgChunk gs1 v1).wgChunk gs2 v2).bump 7)
  if v2 = 0 then q.next.retire else { q.retire with inBlk := true }

/-- Store bytes, already checked: hub records, a lane-local register, or lane memory; the store enters the digest (03 R88). -/
def State.storeBytes (s : State) (l : Fin 3) (p : Fin 4) (a : Nat) (b : List Byte) : State :=
  let r := s.region a
  if r.isHub then
    let s := s.each (hubParts a b.length) fun s x => s.sendWrite l p .write x.1 x.2 (leNat ((b.drop (x.1 - a)).take x.2)) 0
    s.updP l p fun q => q.foldStore 0x11 a b
  else
    let s := s.updP l p fun q => q.foldStore 0x10 a b
    if r.isDev then s.lanePageWrite l r (a % 4096) (leNat b) else s.laneWrite l p a b

/-- A chunk of BCOPY has its bytes (R69). -/
def State.bcopyDone (s : State) (l : Fin 3) (p : Fin 4) (gd gs1 gs2 : Fin 32) (b : List Byte) : State :=
  let s := s.storeBytes l p ((s.pr l p).rg gd).toNat b
  let n := BitVec.ofNat 64 b.length
  s.updP l p fun q => q.chunkDone gd gs1 gs2 (q.rg gd + n) (q.rg gs1 + n) b.length

/-- A chunk of BCRC has its bytes (R71). -/
def State.bcrcDone (s : State) (l : Fin 3) (p : Fin 4) (gd gs1 gs2 : Fin 32) (sel : Nat) (b : List Byte) : State :=
  s.updP l p fun q =>
    q.chunkDone gd gs1 gs2 (BitVec.ofNat 64 (bcrcStep sel (q.rg gd).toNat b)) (q.rg gs1 + BitVec.ofNat 64 b.length) b.length

/-- The pair waits for an atomic's old value. -/
def HubCont.isAtomic : HubCont → Bool
  | .atomic _ _ => true
  | _ => false

/-- The value of the hub read a pair waits for is there (R64, R67, R69, R71). -/
def State.hubValue (s : State) (l : Fin 3) (p : Fin 4) (seq addr len : Nat) (k : HubCont) (v : Nat) : State :=
  let more (got : List Byte) (n : Nat) (k : HubCont) (done : State → State) : State :=
    if got.length < n then
      s.updP l p fun q => { q with wait := .hub ((seq + 1) % 2 ^ 16) (addr + len) (n - got.length) k }
    else done (s.updP l p fun q => { q with wait := .none })
  match k with
  | .load kind rd => s.updP l p fun q => { q with wait := .none }.loadDone kind rd v
  | .atomic rd wide => s.updP l p fun q => { q with wait := .none }.atomicDone rd wide v
  | .bcopy gd gs1 gs2 n got =>
    let b := got ++ leBytes len v
    more b n (.bcopy gd gs1 gs2 n b) fun s => s.bcopyDone l p gd gs1 gs2 b
  | .bcrc gd gs1 gs2 sel n got =>
    let b := got ++ leBytes len v
    more b n (.bcrc gd gs1 gs2 sel n b) fun s => s.bcrcDone l p gd gs1 gs2 sel.val b

/-- The hub answers a lane's read or atomic (03 R80, R84): an error raises cause 0x05 with its info. -/
def State.hubAnswer (s : State) (l : Fin 3) (p : Fin 4) (atomic : Bool) (seq : Nat) (a : Ans) : State :=
  match (s.pr l p).wait with
  | .hub n addr len k =>
    if n = seq ∧ k.isAtomic = atomic then
      match a with
      | .value v => s.hubValue l p seq addr len k v
      | .error i => (s.updP l p fun q => { q with wait := .none }).precise l p 0x05 i addr false
    else s
  | _ => s

/-! ## A lane in DEBUG (04 R122) -/

/-- A read here clears a field or pops a queue. -/
def readEffect (page off : Nat) : Bool :=
  (page = 0x0E && off = 0x058) || (rowsAt page off).any fun x => x.1.acc == .rc

/-- The access a record makes. -/
def recAcc (r : Rec) : Acc := { pair := r.pair, level := r.level, tenant := r.tenant, seq := r.seq }

/-- A hub read performed at its target. -/
def State.hubLoad (s : State) (r : Rec) (bad : Bool) : State × Ans :=
  if r.addr < 0x50000000 then s.readAt (recAcc r) ((r.addr - 0x40000000) / 4096) (r.addr % 4096) bad
  else if s.power ≠ .run then (s, .value 0)
  else s.sramLoad (recAcc r) (r.addr - 0x50000000) r.len

/-- Answered directly by its target; a read-clear or pop returns 0 and has no side effect. -/
def State.debugLoad (s : State) (r : Rec) : State × Ans :=
  let x := s.hubLoad r false
  if r.addr < 0x50000000 && readEffect ((r.addr - 0x40000000) / 4096) (r.addr % 4096) then
    match x.2 with
    | .error 3 => x
    | _ => (s, .value 0)
  else x

/-- Answer every read record a lane in DEBUG has sent. -/
def State.debugAnswer (s : State) (l : Fin 3) : State :=
  if s.laneState l ≠ lDebug then s else
  let rs := (s.ln l).out
  let s := s.updL l fun n => { n with out := [] }
  s.each rs fun s r =>
    let x := s.debugLoad r
    x.1.hubAnswer l r.pair false r.seq x.2

/-! ## Loads and stores (R64) -/

/-- A load of kind k (0 to 6 as op 0x10 to 0x16, 7 FLD, 8 FLW). -/
def State.loadOp (s : State) (l : Fin 3) (p : Fin 4) (k : Nat) (rd gs1 : Fin 32) (imm : BitVec 16) : State :=
  let a := (s.pr l p).ea gs1 imm
  let n := loadLen k
  s.access l p true false false a n fun s =>
    let r := s.region a
    if r.isHub then (s.sendRead l p [(a, n)] (.load k rd)).debugAnswer l
    else
      let v := if r.isDev then s.lanePageRead l r (a % 4096) else leNat (s.laneRead l p a n)
      s.updP l p fun q => q.loadDone k rd v

/-- A store of n bytes of a value. -/
def State.storeOp (s : State) (l : Fin 3) (p : Fin 4) (n : Nat) (v : Word64) (gs1 : Fin 32) (imm : BitVec 16) : State :=
  let a := (s.pr l p).ea gs1 imm
  s.access l p false true false a n fun s =>
    let s := (s.updP l p fun q => q.bump 2).storeBytes l p a (leBytes n v.toNat)
    s.updP l p fun q => q.next.retire

/-- R64, op 0x10 to 0x16. -/
def execLoad (l : Fin 3) (p : Fin 4) (k : Fin 7) (gd gs1 : Fin 32) (imm : BitVec 16) (s : State) : Out :=
  .next (s.unit l p false false false fun s => s.loadOp l p k.val gd gs1 imm)

/-- R64, op 0x18 to 0x1B. -/
def execStore (l : Fin 3) (p : Fin 4) (k : Fin 4) (gs2 gs1 : Fin 32) (imm : BitVec 16) (s : State) : Out :=
  .next (s.unit l p false false false fun s => s.storeOp l p (2 ^ k.val) ((s.pr l p).rg gs2) gs1 imm)

/-- R64: FLD, FSD, FLW, FSW. -/
def execFpLoadStore (l : Fin 3) (p : Fin 4) (k : Fin 4) (vr gs1 : Fin 32) (imm : BitVec 16) (s : State) : Out :=
  .next (s.unit l p false false true fun s =>
    if k.val % 2 = 0 then s.loadOp l p (if k.val = 0 then 7 else 8) vr gs1 imm
    else s.storeOp l p (if k.val = 1 then 8 else 4) ((s.pr l p).rv vr) gs1 imm)

/-! ## Atomics (R59, R64) -/

/-- The record of an atomic in the digest: a lane-served target as its store, a hub target by kind 0x12; the operand, for compare-and-swap
the new value (03 R88). -/
def State.atomicOp (s : State) (l : Fin 3) (p : Fin 4) (gd gs1 gs2 : Fin 32) (fn : Nat) : State :=
  let q := s.pr l p
  let wide := bitOf fn 4
  let n := if wide then 8 else 4
  let a := (q.rg gs1).toNat
  let x := (q.rg gs2).toNat % 2 ^ (8 * n)
  let cmp := (q.rg gd).toNat % 2 ^ (8 * n)
  s.access l p true true true a n fun s =>
    if (s.region a).isHub then
      let seq := (s.pr l p).seqW
      let s := s.sendWrite l p (.atomic fn) a n x cmp
      let s := s.updP l p fun q => { q.fold 0x12 (fn % 256 * 256) (a % 2 ^ 40) x with wait := .hub seq a n (.atomic gd wide) }
      if s.laneState l = lDebug then
        let y := s.debugLoad { (s.pr l p).hubRec p .read seq a n 0 0 with kind := .read }
        y.1.hubAnswer l p true seq y.2
      else s
    else
      let old := leNat (s.laneRead l p a n)
      let new := leBytes n ((atomicNew fn (8 * n) old x cmp).getD old)
      let s := s.laneWrite l p a new
      s.updP l p fun q => (q.foldStore 0x10 a new).atomicDone gd wide old

/-- R59, R64, op 0x1C: fn [3:0] 1 to 10, fn [10:5] 0. -/
def execAtomic (l : Fin 3) (p : Fin 4) (gd gs1 gs2 : Fin 32) (fn : BitVec 11) (s : State) : Out :=
  .next (s.unit l p (32 ≤ fn.toNat || fn.toNat % 16 = 0 || 10 < fn.toNat % 16) false false fun s =>
    s.atomicOp l p gd gs1 gs2 fn.toNat)

/-! ## Block instructions (R66 to R71) -/

/-- Illegal register fields (R66). -/
def blockIllegal (gd gs1 gs2 : Fin 32) (src : Bool) : Bool :=
  gd = gs1 || gd = gs2 || gs1 = gs2 || gd = 0 || gs2 = 0 || (src && gs1 = 0)

/-- The fault of a chunk: its destination's and its source's, the lower cause first (R52, R67). -/
def State.chunkFault (s : State) (l : Fin 3) (p : Fin 4) (src dst : Option Nat) (n : Nat) : Option (Nat × Nat × Nat) :=
  let f (a : Option Nat) (w : Bool) : Option (Nat × Nat × Nat) := a.bind fun a => s.accFault l p (!w) w false a n
  match f src false, f dst true with
  | some x, some y => some (if y.1 < x.1 then y else x)
  | some x, none => some x
  | none, y => y

/-- One chunk of a block instruction: nothing at a count of 0, its fault, or its work on n bytes (R66, R67). -/
def State.chunk (s : State) (l : Fin 3) (p : Fin 4) (gs2 : Fin 32) (src dst : Option Nat) (f : State → Nat → State) : State :=
  let n := min 64 ((s.pr l p).rg gs2).toNat
  if n = 0 then s.updP l p fun q => q.next.retire
  else match s.chunkFault l p src dst n with
    | some (c, i, b) => s.precise l p c i b false
    | none => f s n

/-- The source bytes of a chunk, read in the lane; in the hub the chunk waits for them. -/
def State.chunkRead (s : State) (l : Fin 3) (p : Fin 4) (a n : Nat) (k : HubCont) (done : State → List Byte → State) : State :=
  let r := s.region a
  if r.isHub then (s.sendRead l p (hubParts a n) k).debugAnswer l
  else if r.isDev then done s (leBytes n (s.lanePageRead l r (a % 4096)))
  else done s (s.laneRead l p a n)

/-- R69. -/
def execBcopy (l : Fin 3) (p : Fin 4) (gd gs1 gs2 : Fin 32) (fnHi : BitVec 7) (s : State) : Out :=
  .next (s.unit l p (fnHi ≠ 0 || blockIllegal gd gs1 gs2 true) false false fun s =>
    let q := s.pr l p
    s.chunk l p gs2 (some (q.rg gs1).toNat) (some (q.rg gd).toNat) fun s n =>
      s.chunkRead l p (q.rg gs1).toNat n (.bcopy gd gs1 gs2 n []) fun s b => s.bcopyDone l p gd gs1 gs2 b)

/-- Byte a mod 8 of the pattern, for n bytes from a (R70). -/
def patternBytes (pat : Word64) (a n : Nat) : List Byte :=
  (List.range n).map fun i => BitVec.ofNat 8 (pat.toNat / 2 ^ (8 * ((a + i) % 8)))

/-- R70. -/
def execBfill (l : Fin 3) (p : Fin 4) (gd gs1 gs2 : Fin 32) (fnHi : BitVec 7) (s : State) : Out :=
  .next (s.unit l p (fnHi ≠ 0 || blockIllegal gd gs1 gs2 false) false false fun s =>
    let q := s.pr l p
    s.chunk l p gs2 none (some (q.rg gd).toNat) fun s n =>
      let s := s.storeBytes l p (q.rg gd).toNat (patternBytes (q.rg gs1) (q.rg gd).toNat n)
      s.updP l p fun q => q.chunkDone gd gs1 gs2 (q.rg gd + BitVec.ofNat 64 n) (q.rg gs1) n)

/-- R71: fn bits [6:4] select the CRC. -/
def execBcrc (l : Fin 3) (p : Fin 4) (gd gs1 gs2 : Fin 32) (fnHi : BitVec 7) (s : State) : Out :=
  .next (s.unit l p (4 ≤ fnHi.toNat || blockIllegal gd gs1 gs2 true) false false fun s =>
    let q := s.pr l p
    let sel : Fin 4 := pairIx fnHi.toNat
    s.chunk l p gs2 (some (q.rg gs1).toNat) none fun s n =>
      s.chunkRead l p (q.rg gs1).toNat n (.bcrc gd gs1 gs2 sel n []) fun s b => s.bcrcDone l p gd gs1 gs2 sel.val b)

end Sys2Proof.Machine
end

