-- ==== Sys2Proof/Machine/PageWrite.lean ====
section
/-! DEFINITION. A write of a hub register (23 R558; 00 R11, R12): command registers, fields clamped against others, writes a state makes ignored, and the
start of the cycle unit (06 R170). -/

namespace Sys2Proof.Machine

/-! ## The cycle unit's start (06 R169, R170; 13 R352) -/

/-- The base cycle in ns. -/
def State.baseNs (s : State) : Nat := s.get CYC_BASE_0 * 10000

/-- CYC_START. -/
def State.startWord (s : State) : Nat := s.get CYC_START_0 + 16 * s.get CYC_START_4

/-- BLK_CTL run written 1: the first boundary is the next one; not in the service-only state (21 R513). -/
def State.cycRun (s : State) : State :=
  if s.flag CYCLE_running ∨ s.flag SYS_svc_only then s else
  let s := ((s.set CYCLE_run 1).set CYCLE_running 1).imgStart
  let s := s.fioStartCommit
  let n := s.now / s.baseNs + 1
  let s := s.updCyc fun c => { c with cls := [], next := n, realign := false, restart := 0 }
  s.record 0x0B04 3 [0, s.startWord, 0, 0]

def execCycleRunWrite (a : Acc) (v : Nat) (s : State) : Out :=
  .next (s.writeAt a 0x0B 0x00C fun s => if bitOf v 0 then s.cycRun else s)

/-! ## Interrupt enables (R556, R567) -/

/-- Implemented bits of INT_EN of a page. -/
def enMask (page : Nat) : Nat :=
  match (pageRows page).find? fun r => r.off = 0x024 with
  | some r => 2 ^ r.w
  | none => 1

/-- A write of INT_EN: enabling a bit that is set raises the page's source (R567). -/
def State.intEnWrite (s : State) (page v : Nat) : State :=
  let s1 := s.set (enOf page) (v % enMask page)
  if s.intStat page = 0 && s1.intStat page != 0 then s1.courEvent (1024 + page) else s1

/-! ## Command registers of several bits -/

def State.almCmd (s : State) (v : Nat) : State :=
  let s := if bitOf v 0 then s.almValidate else s
  let s := if bitOf v 1 then s.almArm else s
  if bitOf v 2 then (s.set ALM_VSTAT_16 0).updN fun c => { c with swAt := 0 } else s

def State.porterCmd (s : State) (v : Nat) : State :=
  let s := s.updW fun p => { p with unsilence := p.unsilence ||| v % 16 }
  if bitOf v 4 then s.set PORTER_STATE_12 1 else s

def State.pollCmd (s : State) (c v : Nat) : State :=
  let s := if bitOf v 0 then s.pollValidate c else s
  let s := if bitOf v 1 then s.pollArm c else s
  let s := if bitOf v 2 then (s.set (POLL_VSTAT_16 c) 0).updPoll c fun p => { p with swAt := 0 } else s
  let s := if bitOf v 3 then s.updPoll c fun p => { p with resume := p.resume || decide (p.fault ≠ 0) } else s
  if bitOf v 4 then s.updPoll c fun p => { p with unsil := true } else s

def State.canCmd (s : State) (c v : Nat) : State :=
  let s := if bitOf v 0 then s.canStart c else s
  let s := if bitOf v 1 then s.canStop c else s
  let s := if bitOf v 2 then s.canRecover c else s
  if bitOf v 3 then s.canRedetect c else s

def State.mirCmd (s : State) (v : Nat) : State :=
  let s := if bitOf v 0 then s.mirAbdicate else s
  let s := if bitOf v 1 then s.mirRearm else s
  let s := if bitOf v 2 then s.mirTake else s
  if bitOf v 3 then s.mirRestartPass else s

def State.qmgrCmd (s : State) (v : Nat) : State :=
  let s := if bitOf v 0 then s.qEnable else s
  if bitOf v 1 then s.qDisable (s.get QMGR_CSEL_0) else s

def State.patchCmd (s : State) (v : Nat) : State :=
  let s := if bitOf v 0 then s.patchArm else s
  if bitOf v 1 then s.patchCancel else s

def State.cmCmd (s : State) (v : Nat) : State :=
  match v % 4 with
  | 1 => s.cmAccept
  | 2 => s.cmReject
  | 3 => s.cmSet
  | _ => s

/-- COUR_SOFT (05 R132). -/
def State.courSoft (s : State) (v : Nat) : State := s.courEvent (1216 + v % 64)

/-- The registers of the queue port, and the tenant-level copies (08 R211). -/
def State.qmgrPort (s : State) (a : Acc) (off v : Nat) : Option State :=
  let t := tcopyOf a
  if off = 0x040 then some (s.qselWrite (copyOf a) v)
  else if off = 0x044 then some (s.qPortPush a 0x044 0 v)
  else if off = 0x048 ∨ off = 0x04C ∨ off = 0x050 ∨ off = 0x054 then some (s.qPortPush a off ((off - 0x048) / 4 + 1) v)
  else if off = 0x074 then some (s.qClr a v)
  else if off = 0x080 then some (s.qselWrite t v)
  else if off = 0x084 then some (s.setLasttag t v (bitOf v 5) (bitOf v 6) (bitOf v 7))
  else if off = 0x088 ∨ off = 0x08C ∨ off = 0x090 ∨ off = 0x094 then some (s.set (grpFld ((off - 0x088) / 4) t) v)
  else if off = 0x118 then some (s.qmgrCmd v)
  else none

/-- A write of a command register, or of a register whose write does more than store. -/
def State.cmdWrite (s : State) (a : Acc) (page off v : Nat) : Option State :=
  if 0x10 ≤ page ∧ page < 0x30 then (if off = 0x060 then some (s.tenSoft (page - 0x10) v) else none)
  else if 0x3A ≤ page ∧ page < 0x42 then
    if off = 0x040 then some (s.pollCtl (page - 0x3A) v) else if off = 0x04C then some (s.pollCmd (page - 0x3A) v) else none
  else if 0x42 ≤ page ∧ page < 0x52 then (if off = 0x054 then some (s.canCmd (page - 0x42) v) else none)
  else if 0x52 ≤ page ∧ page < 0x5E then
    let i := page - 0x52
    if off = 0x040 then some (s.fioCmd i v)
    else if 0x100 ≤ off ∧ off < 0x120 ∧ off % 4 = 0 then
      some (if i < 8 then s.fioInCfg i ((off - 0x100) / 4) v else s.fioOutCfg i ((off - 0x100) / 4) v)
    else none
  else match page, off with
    | 0x02, 0x040 => some (s.pwrCmd v)
    | 0x04, 0x060 => some (s.lkCmd v)
    | 0x05, 0x040 => some (s.updCmd v)
    | 0x06, 0x050 => some (s.stGo v)
    | 0x07, 0x040 => some (s.lgCtl v)
    | 0x07, 0x044 => some (s.lgCmd v)
    | 0x07, 0x080 => some (s.lgCursor v)
    | 0x07, 0x114 => some (if bitOf v 0 then s.subGo (copyOf a) else s)
    | 0x07, 0x140 => some (s.rateEntry 0x140 v)
    | 0x07, 0x144 => some (s.rateEntry 0x144 v)
    | 0x07, 0x150 => some (s.rateDef v)
    | 0x09, 0x044 => some (s.lmCmd v)
    | 0x0A, 0x044 => some (s.courSoft v)
    | 0x0B, 0x00C => some (if bitOf v 0 then s.cycRun else s)
    | 0x0B, 0x044 => some (if v % 4 = 1 ∨ v % 4 = 2 then s.askRestart (v % 4) else s)
    | 0x0C, 0x040 => some (if bitOf v 0 then s.dimgLock else s)
    | 0x0C, 0x074 => some (s.patchCmd v)
    | 0x0E, _ => s.qmgrPort a off v
    | 0x0F, 0x044 => some (if bitOf v 0 then s.epochCommit else s)
    | 0x0F, 0x080 => some (if bitOf v 0 then s.fillStart else s)
    | 0x34, 0x048 => some (s.mirCmd v)
    | 0x36, 0x054 => some (s.almCmd v)
    | 0x37, 0x04C => some (s.porterCmd v)
    | 0x38, 0x060 => some (s.rateWrite v)
    | 0x38, 0x064 => some (s.syncCtl v)
    | 0x38, 0x070 => some (s.cmCmd v)
    | 0x5E, 0x05C => some (s.spdCmd v)
    | 0x61, 0x044 => some (if bitOf v 8 then s.smReset (v % 64) else s)
    | 0x62, 0x040 => some (s.brCtl v)
    | 0x62, 0x04C => some (s.brCmd v)
    | 0x63, 0x04C => some (s.sdCmd v)
    | _, _ => if page = 0x0B ∧ 0x100 ≤ off ∧ off < 0x120 then
          some (s.set (CYC_DSTAT_0 ((off - 0x100) / 4)) (s.get (CYC_DSTAT_0 ((off - 0x100) / 4)) ||| v % 2 ^ 32))
        else none

/-! ## Writes that a state makes ignored -/

def State.writeIgnored (s : State) (page off : Nat) : Bool :=
  if 0x3A ≤ page ∧ page < 0x42 then
    let c := page - 0x3A
    decide (0x100 ≤ off) && decide (off < 0x13C) && (s.get (POLL_ESEL_10 c) == s.pollBank c)
  else if 0x42 ≤ page ∧ page < 0x52 then
    decide (0x044 ≤ off) && decide (off < 0x050) && s.get (CAN_state (page - 0x42)) != 0
  else match page with
    | 0x0B => s.flag CYCLE_run && (off == 0x040 || (decide (0x080 ≤ off) && decide (off < 0x100) && off % 16 == 0))
    | 0x0E => decide (0x104 ≤ off) && decide (off < 0x118) && (s.q (s.get QMGR_CSEL_0)).enabled
    | 0x36 => decide (0x100 ≤ off) && decide (off < 0x13C) && s.get ALM_ESEL_12 == s.get ALMANAC_active_bank
    | 0x37 => decide (0x100 ≤ off) && s.get PORTER_WSEL_9 == s.get PORTER_STATE_0
    | 0x62 => (off == 0x044 || off == 0x048) && s.flag BR_CTL_0
    | _ => false

/-! ## Clamps that look at another field -/

/-- Lower a field to a limit. -/
def State.capTo (s : State) (f : Fld) (m : Nat) : State := if m < s.get f then s.set f m else s

/-- The largest L whose footprint ends at or below line 0x3_7FFF, and 1 where none does (08). -/
def maxLines (base : Nat) : Nat :=
  let k := 0x38000 - base
  max 1 (k / 5 * 4 + (k % 5 - 1))

/-- Capacity of the selected queue in level units. -/
def State.qCapacity (s : State) (n : Nat) : Nat :=
  if s.qPkt n then (if s.qPacked n then 4 * s.qL n else 8 * s.qL n) else (if s.qPacked n then 4 * s.qL n else 16 * s.qL n)

/-- Clamp a tenant window's base and limit by its kind. -/
def State.fixWin (s : State) (t w off : Nat) : State :=
  let m := if s.flag (TEN_WIN_CTL_4 t w) then 0x65 else 0x37FFF
  if off % 16 = 0 then s.capTo (TEN_WIN_BASE_0 t w) m
  else if off % 16 = 4 then
    let s := s.capTo (TEN_WIN_LIMIT_0 t w) m
    if s.get (TEN_WIN_LIMIT_0 t w) < s.get (TEN_WIN_BASE_0 t w) then s.set (TEN_WIN_LIMIT_0 t w) (s.get (TEN_WIN_BASE_0 t w)) else s
  else s

/-- A poll bus page. -/
def State.fixPoll (s : State) (c off : Nat) : State :=
  let e := s.get (POLL_ESEL_0 c) + 1024 * s.get (POLL_ESEL_10 c)
  if 0x100 ≤ off ∧ off < 0x13C then
    let s := s.pollValid c (s.get (POLL_ESEL_10 c)) false
    if off = 0x104 then
      let s := s.capTo (POLL_E_SCHED_4 c e) (2 ^ s.get (POLL_E_SCHED_0 c e) - 1)
      if s.get (POLL_E_SCHED_12 c e) = 2 then s.set (POLL_E_ADDR_16 c e) 1 else s
    else if off = 0x108 ∧ s.get (POLL_E_SCHED_12 c e) = 2 then s.set (POLL_E_ADDR_16 c e) 1 else s
  else if off = 0x044 then s.pollValid c (1 - s.pollBank c) false
  else if off = 0x188 ∧ s.get (POLL_A_MATCH_16 c (s.get (POLL_ASEL_0 c))) = 2 then s.set (POLL_A_LEN_0 c (s.get (POLL_ASEL_0 c))) 1
  else s

/-- A CAN page: nominal and data jump widths, mailbox and filter entries, listen-only taken up at once. -/
def State.fixCan (s : State) (c off : Nat) : State :=
  let m := s.get (CAN_MSEL_0 c)
  let f := s.get (CAN_FSEL_0 c)
  if off = 0x044 then s.capTo (CAN_NBT_25 c) (s.get (CAN_NBT_18 c))
  else if off = 0x048 then s.capTo (CAN_DBT_17 c) (s.get (CAN_DBT_12 c))
  else if off = 0x040 then (if s.flag (CAN_CTL_0 c) ∧ s.get (CAN_state c) = 2 then s.set (CAN_state c) 3 else s)
  else if off = 0x100 then
    let v := s.get (CAN_M_ID_0 c m)
    if bitOf v 31 then s.set (CAN_M_ID_0 c m) (clrBit v 30) else s
  else if off = 0x104 then (if s.flag (CAN_M_CTL_5 c m) then s else s.set (CAN_M_CTL_4 c m) 0)
  else if off = 0x148 then (if s.get (CAN_F_CTL_4 c f) = 1 then s.set (CAN_F_CTL_2 c f) 0 else s)
  else s

/-- The Almanac and Porter pages: a write of the inactive bank makes it invalid (09 R244). -/
def State.fixAlm (s : State) (off : Nat) : State :=
  let e := s.get ALM_ESEL_0 + 4096 * s.get ALM_ESEL_12
  if 0x100 ≤ off ∧ off < 0x13C then
    let s := s.bankValid (s.get ALM_ESEL_12) false
    if off = 0x108 then s.capTo (ALM_E_SCHED_0 e) (2 ^ s.get (ALM_E_SCHED_8 e) - 1)
    else if off = 0x114 then s.set (ALM_E_DMAC_HI_0 e) (setBit (s.get (ALM_E_DMAC_HI_0 e)) 8)
    else if off = 0x11C then s.capTo (ALM_E_TXOFF_0 e) (s.get (ALM_E_LEN_0 e) - 1)
    else s
  else if off = 0x044 ∨ off = 0x048 ∨ off = 0x04C then s.bankValid (1 - s.get ALMANAC_active_bank) false
  else s

def State.fixEth (s : State) (x off : Nat) : State :=
  if off = 0x044 then s.set (ETH_MAC_HI_0 x) (clrBit (s.get (ETH_MAC_HI_0 x)) 8)
  else if off = 0x048 then (if s.flag (ETH_LINK_CTL_0 x) then s else s.portDown x)
  else if 0x100 ≤ off ∧ off < 0x140 then
    let f := ETH_FILTER_0 x ((off - 0x100) / 4)
    if s.get f = 0x88B5 then s.set f 0 else s
  else s

def State.fixQmgr (s : State) (off : Nat) : State :=
  let n := s.get QMGR_CSEL_0
  if off = 0x108 then s.capTo (QMGR_CFG_LINES_0 n) (maxLines (s.qBase n))
  else if off = 0x114 then s.capTo (QMGR_CFG_EVT_2 n) (s.qCapacity n)
  else s

def State.fixCycle (s : State) (off : Nat) : State :=
  let s := if 0x080 ≤ off ∧ off < 0x100 then
      let j := (off - 0x080) / 16
      if off % 16 = 0 then s.capTo (CYC_CFG_11 j) (s.get (CYC_CFG_0 j) - 1)
      else if off % 16 = 4 then s.capTo (CYC_GUARD_0 j) (min 1000 (s.get (CYC_CFG_0 j) * s.get CYC_BASE_0 * 5))
      else s
    else s
  s.mirBudget

def State.fixSvc (s : State) (off : Nat) : State :=
  let x := (off - 0x040) / 0x80
  match (off - 0x040) % 0x80 with
  | 0x04 => s.set (SVC_MAC_HI_0 x) (clrBit (s.get (SVC_MAC_HI_0 x)) 8)
  | 0x08 => s.svcCtl x
  | _ => s

/-- What follows the store of a register's fields. -/
def State.writeFix (s : State) (page off v : Nat) : State :=
  if 0x10 ≤ page ∧ page < 0x30 then
    (if 0x100 ≤ off ∧ off < 0x200 then s.fixWin (page - 0x10) ((off - 0x100) / 16) off else s)
  else if 0x30 ≤ page ∧ page < 0x34 then s.fixEth (page - 0x30) off
  else if 0x3A ≤ page ∧ page < 0x42 then s.fixPoll (page - 0x3A) off
  else if 0x42 ≤ page ∧ page < 0x52 then s.fixCan (page - 0x42) off
  else match page with
    | 0x02 => if off = 0x048 then s.set PWR_WAKE_EN_8 (s.get PWR_WAKE_EN_8 % 2 ^ s.byVar 4 2 2) else s
    | 0x08 => if off = 0x040 then s.capTo ASSAY_SKEW_16 (s.get ASSAY_SKEW_0) else s
    | 0x09 => if off = 0x078 ∧ bitOf v 16 then s.updM fun m => { m with testDue := true } else s
    | 0x0A =>
      if s.isS ∧ 0x400 ≤ off ∧ off < 0x900 then
        s.each [0, 8, 16, 24] fun s k => s.capTo ⟨0x0A, off, k, 2, 0, 0⟩ 1
      else s
    | 0x0B => s.fixCycle off
    | 0x0E => s.fixQmgr off
    | 0x0F =>
      if off = 0x060 then s.set MEMCTL_RET_0 (s.get MEMCTL_RET_0 ||| 0x800F)
      else if off = 0x074 then s.capTo MEMCTL_FILL_LEN_0 (0x40000 - s.get MEMCTL_FILL_BASE_0) else s
    | 0x34 => if off = 0x044 then s.mirBudget else s
    | 0x35 => if 0x040 ≤ off then s.fixSvc off else s
    | 0x36 => s.fixAlm off
    | 0x37 =>
      if off = 0x108 then
        let e := s.get PORTER_WSEL_0 + 512 * s.get PORTER_WSEL_9
        s.capTo (PORTER_W_SCHED_0 e) (2 ^ s.get (PORTER_W_SCHED_8 e) - 1)
      else s
    | 0x38 => if off = 0x068 then s.capTo CM_JUMP_16 (s.get CM_JUMP_0) else s
    | 0x39 => if off = 0x0A0 then s.capTo TS_PULSE_4 (10 ^ (6 - s.get TS_PULSE_2) / 2) else s
    | 0x60 => if off = 0x048 ∧ bitOf v 16 then s.testRound else s
    | 0x62 =>
      if off = 0x100 then
        let e := s.get BR_SSEL_0
        let s := if s.get (BR_S_ADDR_24 e) = 3 then s.set (BR_S_ADDR_24 e) 2 else s
        if s.get (BR_S_ADDR_24 e) = 2 then s else s.set (BR_S_ADDR_26 e) 0
      else s
    | _ => s

/-! ## The write -/

/-- Store the fields of the word at an offset, each clamped; a 1 clears a write-1-to-clear bit. MIR_CTL pair_en keeps its value while the cycle unit runs. -/
def State.plainWrite (s : State) (a : Acc) (page off v : Nat) : State :=
  let sel := s.selOf a page off
  s.each (rowsAt page off) fun s x =>
    let f := x.1.fld page off sel x.2
    let b := bitsOf v f.lo f.w
    match x.1.acc with
    | .rw | .rws => if page = 0x34 ∧ off = 0x040 ∧ f.lo = 0 ∧ s.flag CYCLE_running then s else s.set f (x.1.clamp b)
    | .w1c => s.set f (s.get f &&& (2 ^ f.w - 1 - b))
    | _ => s

/-- R558: a register write at its target. -/
def State.pageWrite (s : State) (a : Acc) (page off v : Nat) : State :=
  if s.regAbsent page off then s
  else if off = 0x024 then s.intEnWrite page v
  else if off = 0x02C then s.clearInt page v
  else match s.cmdWrite a page off v with
    | some s => s
    | none => if s.writeIgnored page off then s else (s.plainWrite a page off v).writeFix page off v

/-- R558: a write to a register of a hub page. -/
def execRegisterWrite (a : Acc) (page off v : Nat) (s : State) : Out := .next (s.writeAt a page off fun s => s.pageWrite a page off v)

/-- R131, R556: INT_CLR. -/
def execIntClrWrite (a : Acc) (page v : Nat) (s : State) : Out := .next (s.writeAt a page 0x02C fun s => s.clearInt page v)

/-- R556, R567: INT_EN. -/
def execIntEnWrite (a : Acc) (page v : Nat) (s : State) : Out := .next (s.writeAt a page 0x024 fun s => s.intEnWrite page v)

/-- 05 R132: COUR_SOFT. -/
def execCourSoftWrite (a : Acc) (v : Nat) (s : State) : Out := .next (s.writeAt a 0x0A 0x044 fun s => s.courSoft v)

end Sys2Proof.Machine
end

