-- ==== Sys2Proof/Machine/Assay.lean ====
section
/-! DEFINITION. The Assay (01 R16, R20 to R27, R36 to R38; 02 R59; 03): votes of writes, reads and checkpoints, release, capture, isolation,
credits of accesses (07 R189), stamp-late flits (05 R136), and the captures the register map names as commands. -/

namespace Sys2Proof.Machine

def State.updWr (s : State) (p : Fin 4) (seq : Nat) (f : WEnt → WEnt) : State :=
  s.updA fun a => { a with writes := a.writes.map fun e => if e.pair = p ∧ e.seq = seq then f e else e }
/-- The read-match entry answers an atomic (R79). -/
def REnt.isAtomic (e : REnt) : Bool := match e.first with | some r => r.kind ≠ .read | none => false
def State.updR (s : State) (p : Fin 4) (seq : Nat) (atomic : Bool) (f : REnt → REnt) : State :=
  s.updA fun a => { a with reads := a.reads.map fun e => if e.pair = p ∧ e.seq = seq ∧ e.isAtomic = atomic then f e else e }
def State.updCk (s : State) (p : Fin 4) (k : Nat) (f : CEnt → CEnt) : State :=
  s.updA fun a => { a with ckpts := a.ckpts.map fun e => if e.pair = p ∧ e.count = k then f e else e }
def State.wEnt (s : State) (p : Fin 4) (seq : Nat) : Option WEnt := s.assay.writes.find? fun e => e.pair = p && e.seq = seq
def State.rEnt (s : State) (p : Fin 4) (seq : Nat) (atomic : Bool) : Option REnt :=
  s.assay.reads.find? fun e => e.pair = p && e.seq = seq && e.isAtomic == atomic
def State.cEnt (s : State) (p : Fin 4) (k : Nat) : Option CEnt := s.assay.ckpts.find? fun e => e.pair = p && e.count = k

/-! ## Lag, occupancy, holds (R102) -/

/-- Lag behind the first lane, in 10 ns. -/
def State.lagOf (s : State) (t0 : Nat) : Nat := min ((s.counter - t0) / 5) 0xFFFF

/-- A voter's record or report matched with a lag; beyond warn, skew_warn and record 0x0804, at most once per second. -/
def State.lagNote (s : State) (l : Fin 3) (p : Fin 4) (lag : Nat) : State :=
  if !s.voters.contains l then s else
  let s := (s.set (ASSAY_LAG_0 l.val) lag).raiseTo (ASSAY_LAG_MAX_0 l.val) lag
  let w := s.get ASSAY_SKEW_16
  if w ≠ 0 ∧ w * 10 < lag then
    s.once (0x0804 * 65536) ticksPerSec fun s => (s.raiseInt 0x08 2).record 0x0804 2 [l.val, p.val, lag, w]
  else s

/-- Note the lags of lanes in a list. -/
def State.lagsNote (s : State) (p : Fin 4) (ls : List (Fin 3 × Nat)) : State := s.each ls fun s x => s.lagNote x.1 p x.2

/-- An apprentice after its window is waited for too (04 R119). -/
def State.appNow (s : State) : Bool := s.listeners.length ≠ s.voters.length

def State.occW (s : State) (p : Fin 4) : Nat := (s.assay.writes.filter fun e => e.pair = p).length
def State.occR (s : State) (p : Fin 4) : Nat := (s.assay.reads.filter fun e => e.pair = p).length
def State.occK (s : State) (p : Fin 4) : Nat := (s.assay.ckpts.filter fun e => e.pair = p).length

/-- ASSAY_OCC after an entry is taken. -/
def State.occShow (s : State) (p : Fin 4) : State :=
  ((s.raiseTo (ASSAY_OCC_0 p.val) (s.occW p)).raiseTo (ASSAY_OCC_8 p.val) (s.occR p)).raiseTo (ASSAY_OCC_16 p.val) (s.occK p)

/-- A lane held for a full buffer. -/
def State.holdNote (s : State) (p : Fin 4) : State := (s.count (ASSAY_HOLDS_0 p.val)).raiseInt 0x08 3

/-! ## Isolation (R96 to R100) -/

/-- A lane diverges: isolated, or with two voters the module is passive (R83, R91, R96, R99). -/
def State.isolate (s : State) (l : Fin 3) (kind : Nat) (stray : Bool) (d : DivAt) (synd : Nat) : State :=
  if !s.voters.contains l then s
  else if s.voters.length ≤ 2 then s.assayPassive (if kind < 3 then 9 else kind) (if kind < 3 then 6 else 7) d
  else
    let mask := s.get ASSAY_voters
    let s := (s.dropVoter l).setCause l 1 0 0
    let x := s.divFill l.val kind false stray d synd
    let s := (x.1.count ASSAY_div_count).raiseInt 0x08 0
    let s := s.on stray fun s => s.raiseInt 0x08 1
    let s := s.recordX 0x0801 6 0xFF mask (d.words x.2 synd)
    let s := s.on stray fun s => s.recordX 0x0802 6 0xFF mask (d.words x.2 synd)
    s.splitCheck

/-- A lane that votes, or an apprentice, diverges; an apprentice's rejoin fails with its item (04 R119). -/
def State.diverge (s : State) (l : Fin 3) (kind item : Nat) (stray : Bool) (d : DivAt) (synd : Nat) : State :=
  if s.voters.contains l then s.isolate l kind stray d synd
  else if s.listeners.contains l then s.rejoinFail l 8 0 item id
  else s

/-- As diverge, where no XOR with a majority exists: its value is free (R102). -/
def State.divergeFree (s : State) (l : Fin 3) (kind item : Nat) (d : DivAt) : State :=
  s.draw.diverge l kind item false d (Config.freeValue s.freeCtr % 2 ^ 64)

/-- A vote without agreement, all records there: passive (R21, R23, R80, R83, R91). -/
def State.noMajority (s : State) (d : DivAt) : State :=
  if s.voters.length = 2 then s.assayPassive 9 6 d else s.assayPassive 8 5 d

/-! ## Performing a voted access -/

/-- A record's address is a hub register or hub SRAM. -/
def hubAddr (a n : Nat) : Bool :=
  (decide (0x40000000 ≤ a) && decide (a < 0x40066000)) || (decide (0x50000000 ≤ a) && decide (a + n ≤ 0x51000000))

/-- A released write takes effect at its target (02 R50). -/
def State.writePerform (s : State) (r : Rec) : State :=
  if !hubAddr r.addr r.len then s.storeFault r.pair r.seq r.addr
  else if r.addr < 0x50000000 then
    let page := (r.addr - 0x40000000) / 4096
    s.writeAt (recAcc r) page (r.addr % 4096) fun s => s.pageWrite (recAcc r) page (r.addr % 4096) (r.data % 2 ^ 32)
  else if s.power ≠ .run then s
  else s.sramStore (recAcc r) (r.addr - 0x50000000) (leBytes r.len r.data)

/-- A released atomic: done at the bank, with the old value, or refused with 0 (02 R59). -/
def State.atomicPerform (s : State) (r : Rec) (fn : Nat) : State × Nat :=
  let off := r.addr - 0x50000000
  if !hubAddr r.addr r.len ∨ r.addr < 0x50000000 then (s.storeFault r.pair r.seq r.addr, 0)
  else if s.power ≠ .run then (s, 0)
  else match s.sramRefusal (recAcc r) off r.len 2 with
    | some x => ((s.storeFault r.pair r.seq r.addr).sramCount (recAcc r) off x, 0)
    | none =>
      if off < 0x400000 then (s.storeFault r.pair r.seq r.addr, 0)
      else
        let old := s.hubNat off r.len
        (s.hubSet off r.len ((atomicNew fn (8 * r.len) old r.data r.cmp).getD old), old)

/-- The owner has a credit left (07 R189, R190). -/
def State.creditFree (s : State) (a : Acc) : Bool := decide (s.creditsHeld (ownerOf a) < s.creditLimit (ownerOf a))

/-- Take credit and tag for an access performed now. -/
def State.creditTake (s : State) (a : Acc) (seq : Nat) : State := (s.takeCredit (ownerOf a) a.pair seq true).tagTake a

/-! ## Writes and atomics (01 R20 to R24, R79) -/

/-- Answer an atomic's old value to the lanes whose record matched (R59, R79). -/
def State.atomicServe (s : State) (p : Fin 4) (seq : Nat) : State :=
  match s.wEnt p seq, s.rEnt p seq true with
  | some w, some e =>
    match w.released, e.capt with
    | some r, some a =>
      let ls := (w.recs.filter fun x => decide (x.2 = r) && !e.served.contains x.1).map (·.1)
      let s := s.updR p seq true fun e => { e with served := e.served ++ ls }
      s.each ls fun s l => s.hubAnswer l p true seq a
    | _, _ => s
  | _, _ => s

/-- Release a write or atomic (R20, R24, R59). -/
def State.releaseRec (s : State) (p : Fin 4) (e : WEnt) (r : Rec) : State :=
  let a := recAcc r
  let s := s.updWr p e.seq fun e => { e with released := some r, complete := true, held := false }
  let s := (s.creditTake a e.seq).noteAccess a
  match r.kind with
  | .atomic fn =>
    let x := s.atomicPerform r fn
    let n : REnt := { pair := p, seq := e.seq, recs := [], first := some r, capt := some (.value x.2), side := false, served := [], app := e.app,
                      t0 := s.counter, held := false, lags := [] }
    let s := x.1.updA fun a => { a with reads := a.reads ++ [n] }
    (s.occShow p).atomicServe p e.seq
  | _ => s.writePerform r

/-- Release the pair's next write in sequence order, if its vote is settled, a credit is free and the module is not passive. -/
def State.releaseNext (s : State) (p : Fin 4) : State :=
  if s.passive then s else
  match s.assay.writes.find? fun e => e.pair = p && e.released.isNone with
  | none => s
  | some e =>
    match s.agreed e.recs with
    | none => s
    | some r =>
      if s.creditFree (recAcc r) then s.releaseRec p e r
      else if e.held then s
      else (s.updWr p e.seq fun e => { e with held := true }).creditHold (ownerOf (recAcc r))

/-- Release every write of the pair that may be. -/
def State.releaseAll (s : State) (p : Fin 4) : State :=
  s.each (s.assay.writes.filter fun e => e.pair = p && e.released.isNone) fun s _ => s.releaseNext p

/-- Vote on a write: compare the records with the one released or agreed; no majority makes the module passive (R20 to R23). -/
def State.wJudge (s : State) (p : Fin 4) (seq : Nat) : State :=
  match s.wEnt p seq with
  | none => s
  | some e =>
    match e.released.orElse fun _ => s.agreed e.recs with
    | some r =>
      let s := s.lagsNote p (e.lags.filter fun x => e.recs.any fun y => decide (y.1 = x.1 ∧ y.2 = r))
      let s := s.updWr p seq fun e => { e with lags := [] }
      s.each (e.recs.filter fun x => decide (x.2 ≠ r)) fun s x =>
        s.diverge x.1 0 3 false ⟨p, seq + 2 ^ 16, r.addr, 0, false⟩ (x.2.data ^^^ r.data)
    | none =>
      if s.split e.recs then
        let x := s.atWrite e
        x.1.noMajority x.2
      else s

/-- A write or atomic record is at the Assay. -/
def State.wArrive (s : State) (l : Fin 3) (r : Rec) : State :=
  let p := r.pair
  match s.wEnt p r.seq with
  | none =>
    if 64 ≤ s.occW p then (s.updA fun a => { a with heldRecs := a.heldRecs ++ [(l, r)] }).holdNote p
    else
      let n : WEnt := { pair := p, seq := r.seq, recs := [(l, r)], released := none, complete := false, app := s.appNow, t0 := s.counter,
                        held := false, lags := [(l, 0)] }
      (((s.updA fun a => { a with writes := a.writes ++ [n] }).occShow p).wJudge p r.seq).releaseAll p
  | some e =>
    if e.recs.any fun x => x.1 = l then s
    else
      let s := s.updWr p r.seq fun e => { e with recs := e.recs ++ [(l, r)], lags := e.lags ++ [(l, s.lagOf e.t0)] }
      ((s.wJudge p r.seq).releaseAll p).atomicServe p r.seq

/-! ## Reads (01 R25 to R27; 03 R80 to R84) -/

/-- Answer the lanes whose record made the capture. -/
def State.rServe (s : State) (p : Fin 4) (seq : Nat) : State :=
  match s.rEnt p seq false with
  | none => s
  | some e =>
    match e.first, e.capt with
    | some r, some a =>
      let ls := (e.recs.filter fun x => decide (x.2 = r) && !e.served.contains x.1).map (·.1)
      let s := s.updR p seq false fun e =>
        { e with served := e.served ++ ls, lags := e.lags.filter fun x => !ls.contains x.1 }
      let s := s.lagsNote p (e.lags.filter fun x => ls.contains x.1)
      s.each ls fun s l => s.hubAnswer l p false seq a
    | _, _ => s

/-- The capture may be made: every earlier write of the pair is released, and no earlier read of it is uncaptured (R26). -/
def State.captureOpen (s : State) (p : Fin 4) (seq : Nat) : Bool :=
  !(s.assay.writes.any fun e => e.pair = p && e.released.isNone) &&
  (match s.assay.reads.find? fun e => e.pair = p && !e.isAtomic && e.capt.isNone with
    | some e => e.seq = seq
    | none => false)

/-- Give a captured answer to a read-match entry and its lanes. -/
def State.captured (s : State) (p : Fin 4) (seq : Nat) (a : Ans) (side : Bool) : State :=
  (s.updR p seq false fun e => { e with capt := some a, side := side, held := false }).rServe p seq

/-- The read at a record's address has a side effect at its capture (R82, R85). -/
def recEffect (r : Rec) (a : Ans) : Bool :=
  decide (r.addr < 0x50000000) && readEffect ((r.addr - 0x40000000) / 4096) (r.addr % 4096) && a ≠ .error 3

/-- The hub read of a record: refused outside the hub's addresses. -/
def State.hubLoadRec (s : State) (r : Rec) : State × Ans := if hubAddr r.addr r.len then s.hubLoad r false else (s, .error 0)

/-- Capture the read of an entry, once; it waits where its owner has no credit left (R26, R85; 07 R189). -/
def State.captureTry (s : State) (p : Fin 4) (seq : Nat) : State :=
  match s.rEnt p seq false with
  | none => s
  | some e =>
    match e.first with
    | some r =>
      if e.capt.isSome || !s.captureOpen p seq then s
      else if !s.creditFree (recAcc r) then
        (if e.held then s else (s.updR p seq false fun e => { e with held := true }).creditHold (ownerOf (recAcc r)))
      else
        let s := (s.creditTake (recAcc r) (seq + 2 ^ 16)).noteAccess (recAcc r)
        let x := s.hubLoadRec r
        x.1.captured p seq x.2 (recEffect r x.2)
    | none => s

/-- Vote on a read: lanes that differ from the majority are isolated; an outvoted first record is captured afresh (R80 to R83). -/
def State.rJudge (s : State) (p : Fin 4) (seq : Nat) : State :=
  match s.rEnt p seq false with
  | none => s
  | some e =>
    match s.agreed e.recs with
    | some m =>
      let fresh := e.first ≠ some m
      let stray := fresh && e.capt.isSome && e.side
      let s := s.on fresh fun s => s.updR p seq false fun e => { e with first := some m, capt := none, side := false, served := [] }
      let s := s.each (e.recs.filter fun x => decide (x.2 ≠ m)) fun s x =>
        let st := stray && decide (some x.2 = e.first)
        s.diverge x.1 1 3 st ⟨p, seq, if st then x.2.addr else m.addr, 0, false⟩ (x.2.addr ^^^ m.addr)
      (s.on fresh fun s => s.captureTry p seq).rServe p seq
    | none =>
      if s.split e.recs then
        let x := s.atRead e
        x.1.noMajority x.2
      else s.rServe p seq

/-- A read record is at the Assay. An apprentice's makes no capture (04 R119). -/
def State.rArrive (s : State) (l : Fin 3) (r : Rec) : State :=
  let p := r.pair
  let first := if s.voters.contains l then some r else none
  match s.rEnt p r.seq false with
  | none =>
    if 64 ≤ s.occR p then (s.updA fun a => { a with heldRecs := a.heldRecs ++ [(l, r)] }).holdNote p
    else
      let n : REnt := { pair := p, seq := r.seq, recs := [(l, r)], first := first, capt := none, side := false, served := [], app := s.appNow,
                        t0 := s.counter, held := false, lags := [(l, 0)] }
      ((s.updA fun a => { a with reads := a.reads ++ [n] }).occShow p).rJudge p r.seq
  | some e =>
    if e.recs.any fun x => x.1 = l then s
    else
      let s := s.updR p r.seq false fun e =>
        { e with recs := e.recs ++ [(l, r)], lags := e.lags ++ [(l, s.lagOf e.t0)], first := e.first.orElse fun _ => first }
      s.rJudge p r.seq

/-! ## Arrival over the lane link (01 R16) -/

/-- The link hands records of a pair over in the order sent: where the lane has this one on its way, it is the pair's next. -/
def State.linkNext (s : State) (l : Fin 3) (r : Rec) : Bool :=
  let isIt (x : Rec) : Bool := x.pair = r.pair && x.seq = r.seq && ((x.kind == .read) == (r.kind == .read))
  let out := (s.ln l).out
  !out.any isIt || (match out.find? fun x => x.pair = r.pair with | some x => isIt x | none => false)

/-- The record leaves the link. -/
def State.linkTake (s : State) (l : Fin 3) (r : Rec) : State :=
  s.updL l fun n =>
    { n with out := dropFirst (fun x => x.pair = r.pair && x.seq = r.seq && ((x.kind == .read) == (r.kind == .read))) n.out
             replayed := n.replayed.filter fun x => x ≠ r }

/-- A record of a lane whose records are heard, in the link's order. -/
def State.linkHeard (s : State) (l : Fin 3) (r : Rec) : Bool :=
  s.listeners.contains l && decide (r.pair.val < s.nPairs) && s.linkNext l r

/-- R20. -/
def execWriteRecordArrival (l : Fin 3) (r : Rec) (s : State) : Out :=
  .next (if r.kind ≠ .read && s.linkHeard l r then (s.linkTake l r).wArrive l r else s)

/-- R80. -/
def execReadRecordArrival (l : Fin 3) (r : Rec) (s : State) : Out :=
  .next (if r.kind = .read && s.linkHeard l r then (s.linkTake l r).rArrive l { r with data := 0, cmp := 0 } else s)

/-- R26. -/
def execReadCapture (p : Fin 4) (seq : Nat) (s : State) : Out := .next (s.captureTry p seq)

/-- R16: the first error replays the flit; the second on the same flit is a divergence. -/
def execLinkFlitCrcError (l : Fin 3) (r : Rec) (again : Bool) (s : State) : Out :=
  .next (if !s.listeners.contains l then s
    else if again && (s.ln l).replayed.contains r then
      s.divergeFree l 7 3 ⟨r.pair, r.seq + (if r.kind = .read then 0 else 2 ^ 16), r.addr, 0, false⟩
    else if again then s
    else s.updL l fun n => { n with replayed := n.replayed.filter (· ≠ r) ++ [r] })

/-! ## Checkpoints (R90 to R95; 05 R132, R134, R140) -/

/-- ASSAY_DIGEST's source: the highest checkpoint all active lanes have reported alike (R95). -/
def State.ckptLast (s : State) (p : Fin 4) : State :=
  let full (e : CEnt) : Option (Nat × Nat) :=
    match s.mine e.reps with
    | r :: t => if t.length + 1 = s.voters.length ∧ t.all (fun x => decide (ckptKey x.2 = ckptKey r.2)) then some (e.count, r.2.digest.toNat) else none
    | [] => none
  let best := (s.assay.ckpts.filter fun e => e.pair = p).foldl (fun b e =>
    match full e with
    | some x => if b.1 ≤ x.1 then x else b
    | none => b) (s.assay.last.get p)
  s.updA fun a => { a with last := a.last.set p best }

/-- An apprentice's report above its hold count has matched (04 R119). -/
def State.ckptConf (s : State) (p : Fin 4) (k : Nat) : State :=
  match s.cEnt p k, s.rejoinLane with
  | some e, some r =>
    let ok := e.reps.any fun x => decide (x.1 = r) && decide (s.agreed (s.ckptVotes e) = some (some (ckptKey x.2)))
    if ok && s.get LM_REJ_STAT_0 = 4 && decide (s.mgr.confAt.get p < k) then s.updM fun m => { m with conf := m.conf.set p true } else s
  | _, _ => s

/-- Vote on a checkpoint (R91, R92). -/
def State.cJudge (s : State) (p : Fin 4) (k : Nat) : State :=
  match s.cEnt p k with
  | none => s
  | some e =>
    match s.agreed (s.ckptVotes e) with
    | some v =>
      let ok (l : Fin 3) : Bool := e.reps.any fun x => decide (x.1 = l ∧ some (ckptKey x.2) = v)
      let s := s.lagsNote p (e.lags.filter fun x => ok x.1)
      let s := s.updCk p k fun e => { e with lags := e.lags.filter fun x => !ok x.1 }
      let s := s.each ((s.ckptVotes e).filter fun x => decide (x.2 ≠ v)) fun s x =>
        match x.2, v with
        | some a, some b => s.diverge x.1 2 3 false e.at (a.1 ^^^ b.1).toNat
        | some _, none => s.divergeFree x.1 2 3 e.at
        | none, _ => s.divergeFree x.1 3 3 e.at
      let s := s.updA fun a => { a with ckpts := a.ckpts.filter fun e => !e.reps.isEmpty }
      s.ckptConf p k
    | none => if s.split (s.ckptVotes e) then s.noMajority e.at else s

/-- Two voters' reports of a PACE wait match: the Courier holds the report and forms the release where it is due (05 R140, R141). -/
def State.paceMatched (s : State) (p : Fin 4) (e : CEnt) : State :=
  match s.agreed (s.ckptVotes e) with
  | some (some (_, some en)) =>
    let ready := e.reps.any fun x => match x.2.pace with | some y => y.1 = en && y.2 | none => false
    ((s.updC p fun c => { c with pace := some { count := e.count, en := en, ready := ready } }).courShow p).releaseTry p
  | _ => s

/-- The start reports of the voting lanes have matched (05 R132). -/
def State.startMatched (s : State) (p : Fin 4) (e : CEnt) : State :=
  let m := s.mine e.reps
  if e.count = 0 ∧ m.length = s.voters.length ∧ (s.agreed (s.ckptVotes e)).isSome ∧
      m.all (fun x => m.all fun y => decide (ckptKey x.2 = ckptKey y.2)) then s.set (COUR_PAIRSTAT_13 p.val) 1
  else s

/-- A lane's report of a count is known: its highest count, and H of an ACTIVE lane (05 R134). -/
def State.ckptHigh (s : State) (l : Fin 3) (p : Fin 4) (k : Nat) : State :=
  let s := s.updA fun a => { a with high := a.high.set l ((a.high.get l).set p (max ((a.high.get l).get p) k)) }
  if s.voters.contains l then s.set64 (COUR_HIGH_LO_0 p.val) (COUR_HIGH_HI_0 p.val) (max (s.courH p) k) else s

/-- What the entry of a count does once a report has joined it. -/
def State.ckptJoined (s : State) (l : Fin 3) (p : Fin 4) (k : Nat) (before : Bool) : State :=
  let s := s.cJudge p k
  let s := match s.cEnt p k with
    | some e =>
      let now := (s.agreed (s.ckptVotes e)).isSome
      let s := s.on (now && !before) fun s => s.paceMatched p e
      s.startMatched p e
    | none => s
  let s := s.each (s.assay.ckpts.filter fun e => e.pair = p && decide (e.count < k) && !(e.reps.any fun r => r.1 = l)) fun s e => s.cJudge p e.count
  (s.ckptLast p).stampsFree p

/-- A checkpoint report is at the Assay. -/
def State.cArrive (s : State) (l : Fin 3) (p : Fin 4) (c : Ckpt) : State :=
  match s.cEnt p c.count with
  | none =>
    if 1024 ≤ s.occK p then (s.updA fun a => { a with heldReps := a.heldReps ++ [(l, p, c)] }).holdNote p
    else
      let n : CEnt := { pair := p, count := c.count, reps := [(l, c)], app := s.appNow, t0 := s.counter, lags := [(l, 0)] }
      (((s.ckptHigh l p c.count).updA fun a => { a with ckpts := a.ckpts ++ [n] }).occShow p).ckptJoined l p c.count false
  | some e =>
    if e.reps.any fun x => x.1 = l then s
    else
      let before := (s.agreed (s.ckptVotes e)).isSome
      let s := (s.ckptHigh l p c.count).updCk p c.count fun e => { e with reps := e.reps ++ [(l, c)], lags := e.lags ++ [(l, s.lagOf e.t0)] }
      s.ckptJoined l p c.count before

/-- R91. -/
def execCheckpointArrival (l : Fin 3) (p : Fin 4) (c : Ckpt) (s : State) : Out :=
  .next (if s.listeners.contains l && decide (p.val < s.nPairs) then
      (s.updL l fun n => { n with reports := dropFirst (fun x => x.1 = p && x.2.count = c.count) n.reports }).cArrive l p c
    else s)

/-- R136, R150: a stamp-late flit: counted and handed to the Assay as a missing checkpoint; an apprentice's fails its rejoin (R144). -/
def execStampLateFlit (l : Fin 3) (p : Fin 4) (d : Nat) (s : State) : Out :=
  .next (if s.voters.contains l then
      let mask := s.get ASSAY_voters
      let s := ((s.count COURIER_late_count).raiseInt 0x0A 0).recordX 0x0A01 6 0xFF mask [p.val, d]
      s.draw.divergeFree l 3 4 ⟨p, 0, 0, Config.freeValue s.freeCtr % 2 ^ 64, true⟩
    else if s.listeners.contains l then s.rejoinFail l 8 0 4 id
    else s)

/-! ## Lateness and freed entries (R22, R24, R27, R83, R92, R93) -/

/-- Lanes late in a vote: an apprentice fails its rejoin; voters are isolated where the others agree, else the module is passive. -/
def State.lateVote (s : State) (kind : Nat) (app : Bool) (have_ : List (Fin 3)) (agree : Bool) (d : DivAt) : State :=
  let s := s.each (s.listeners.filter fun l => app && !s.voters.contains l && !have_.contains l) fun s l => s.rejoinFail l 8 0 4 id
  let late := s.voters.filter fun l => !have_.contains l
  if late.isEmpty then s
  else if agree then s.each late fun s l => s.divergeFree l kind 4 d
  else if s.voters.length = 2 then s.assayPassive kind 7 d
  else if late.length = 1 then s.assayPassive 8 5 d
  else s.assayPassive kind 5 d

/-- R22, R27, R92; no deadline runs during a rejoin hold (04 R117). -/
def State.skewExpire (s : State) (k : VoteKind) (p : Fin 4) (n : Nat) : State :=
  if s.mgr.hold.isSome then s else
  match k with
  | .write =>
    match s.wEnt p n with
    | some e =>
      let x := s.atWrite e
      let ref := e.released.orElse fun _ => s.agreed e.recs
      let d : DivAt := match ref with | some r => { x.2 with addr := r.addr } | none => x.2
      (x.1.lateVote 4 e.app (e.recs.map (·.1)) ref.isSome d).releaseAll p
    | none => s
  | .read =>
    match s.rEnt p n false with
    | some e =>
      if e.capt.isNone then s else
      let x := s.atRead e
      x.1.lateVote 5 e.app (e.recs.map (·.1)) (s.agreed e.recs).isSome x.2
    | none => s
  | .ckpt =>
    match s.cEnt p n with
    | some e => (s.lateVote 6 e.app ((s.ckptVotes e).map (·.1)) (s.agreed (s.ckptVotes e)).isSome e.at).ckptLast p
    | none => s

/-- R92. -/
def execSkewLimitExpiry (k : VoteKind) (p : Fin 4) (n : Nat) (s : State) : Out := .next (s.skewExpire k p n)

/-- Records and reports held for a full buffer go on where there is room. -/
def State.unhold (s : State) (k : VoteKind) (p : Fin 4) : State :=
  match k with
  | .ckpt =>
    s.each (s.assay.heldReps.filter fun x => x.2.1 = p) fun s x =>
      if s.occK p < 1024 ∨ (s.cEnt p x.2.2.count).isSome then
        (s.updA fun a => { a with heldReps := dropFirst (· = x) a.heldReps }).cArrive x.1 p x.2.2
      else s
  | .read =>
    s.each (s.assay.heldRecs.filter fun x => x.2.pair = p && x.2.kind == .read) fun s x =>
      if s.occR p < 64 ∨ (s.rEnt p x.2.seq false).isSome then
        (s.updA fun a => { a with heldRecs := dropFirst (· = x) a.heldRecs }).rArrive x.1 x.2
      else s
  | .write =>
    s.each (s.assay.heldRecs.filter fun x => x.2.pair = p && x.2.kind != .read) fun s x =>
      if s.occW p < 64 ∨ (s.wEnt p x.2.seq).isSome then
        (s.updA fun a => { a with heldRecs := dropFirst (· = x) a.heldRecs }).wArrive x.1 x.2
      else s

/-- An entry that nothing waits for any more frees (R24, R27, R91). -/
def State.entryFree (s : State) (k : VoteKind) (p : Fin 4) (n : Nat) : State :=
  match k with
  | .write => s.updA fun a => { a with writes := a.writes.filter fun e => !(e.pair = p && e.seq = n && s.wDone e) }
  | .read => s.updA fun a => { a with reads := a.reads.filter fun e => !(e.pair = p && e.seq = n && s.rDone e) }
  | .ckpt => s.updA fun a => { a with ckpts := a.ckpts.filter fun e => !(e.pair = p && e.count = n && s.cDone e) }

/-- R24. -/
def execBufferEntryFreed (k : VoteKind) (p : Fin 4) (n : Nat) (s : State) : Out := .next ((s.entryFree k p n).unhold k p)

/-- R189: the oldest complete access of an owner (a tenant; 32 firmware) returns its credit, and what waited for one goes on. -/
def execTenantCreditReturned (t : Nat) (s : State) : Out :=
  .next (if s.memctl.flight.any fun f => f.owner = t && f.done then
      let s := s.updMc fun m => { m with flight := dropFirst (fun f => f.owner = t && f.done) m.flight }
      let s := s.flightShow t
      let s := s.each allPairs fun s p => s.releaseAll p
      s.each (s.assay.reads.filter fun e => e.held) fun s e => s.captureTry e.pair e.seq
    else s)

/-! ## Hub faults (01 R36, R37) -/

/-- R37, R561: the fault's cause. -/
def execHubFaultDetected (k : HubFault) (s : State) : Out :=
  .next (s.setPassive (match k with | .copies => 1 | .e2eCrc => 2 | .bankNotReady => 9 | .safeMsgUnits => 10))

/-- R36: beyond 2 % a hub fault; CLK_MON and record 0x0102 beyond 1 % (20 R497, R499). -/
def execHubClockDeviation (fabric : Bool) (dev10ppm : Nat) (s : State) : Out :=
  .next (
    let s := s.on fabric fun s => s.raiseTo CLK_MON_0 dev10ppm
    let s := s.on (1000 < dev10ppm) fun s => s.once (0x0102 * 65536) ticksPerSec fun s => s.record 0x0102 4 [s.get CLK_MON_0 + 2 ^ 16 * s.get CLK_MON_16]
    if 2000 < dev10ppm then s.setPassive 4 else s)

/-! ## Captures of single registers (R85) -/

/-- A read of a register at its capture: performed once, its answer to the waiting entry of the pair's sequence number. -/
def State.readCmd (s : State) (a : Acc) (page off : Nat) (bad : Bool) : State :=
  let x := (s.noteAccess a).readAt a page off bad
  match x.1.rEnt a.pair a.seq false with
  | some e =>
    match e.first with
    | some r => if e.capt.isNone ∧ r.addr = regAddr page off then x.1.captured a.pair a.seq x.2 (recEffect r x.2) else x.1
    | none => x.1
  | none => x.1

/-- 08 R217; `bad`: the head word's parity is wrong (R219). -/
def execQmgrPop (a : Acc) (bad : Bool) (s : State) : Out := .next (s.readCmd a 0x0E 0x058 bad)
/-- 10 R270. -/
def execCmTimeRead (a : Acc) (s : State) : Out := .next (s.readCmd a 0x38 0x040 false)
/-- 10 R270. -/
def execCmCntRead (a : Acc) (s : State) : Out := .next (s.readCmd a 0x38 0x048 false)
/-- 10 R291. -/
def execTsTxlastRead (a : Acc) (x : Fin 6) (s : State) : Out := .next (s.readCmd a 0x39 (0x060 + 8 * x.val) false)
/-- 10 R291. -/
def execTsPcapRead (a : Acc) (s : State) : Out := .next (s.readCmd a 0x39 0x0A4 false)
/-- 14 R378. -/
def execOdometerRead (a : Acc) (n : Fin 8) (s : State) : Out := .next (s.readCmd a 0x5E (0x118 + 64 * n.val) false)
/-- 23 R566. -/
def execHdbgTRead (a : Acc) (s : State) : Out := .next (s.readCmd a 0x65 0x048 false)
/-- R85. -/
def execReadClearAccess (a : Acc) (page off : Nat) (s : State) : Out := .next (s.readCmd a page off false)

end Sys2Proof.Machine
end

