-- ==== Sys2Proof/Machine/Boundary.lean ====
section
/-! DEFINITION. Base boundaries and guard starts (06 R152 to R162, R175, R176): completion checks, hallmark edges, snapshots, overruns and their escalation,
the stall monitor, realignment, and what other units do at a boundary. -/

namespace Sys2Proof.Machine

def State.updCls (s : State) (j : Nat) (f : ClassS → ClassS) : State :=
  s.updCyc fun c => { c with cls := SMap.put c.cls j ClassS.init (f (s.cls j)) }

/-- Boundary index n is a class boundary of Cj (R153). -/
def State.onClass (s : State) (j n : Nat) : Bool := n % (max 1 (s.get (CYC_CFG_0 j))) == s.get (CYC_CFG_11 j)

/-- The classes that run. -/
def State.enabledClasses (s : State) : List Nat := (List.range 8).filter fun j => s.flag (CYC_CFG_21 j)

/-- A class in progress ends at boundary n: its own boundary, or every one at a realigned boundary (R155). -/
def State.endsAt (s : State) (n j : Nat) : Bool := (s.cls j).begun && (s.onClass j n || s.cyc.realign)

/-- Index of the class boundary that ends the cycle in progress, not before n. -/
def State.endOf (s : State) (j n : Nat) : Nat :=
  if s.cyc.realign then n else
    let m := max 1 (s.get (CYC_CFG_0 j))
    n + (m + s.get (CYC_CFG_11 j) - n % m) % m

/-! ## Guard start (R154, R157 to R160, R162) -/

/-- R156, R159: every supervised tenant is done. -/
def State.classComplete (s : State) (j : Nat) : Bool :=
  (s.cls j).tmask == 0 || s.get (CYC_DSTAT_0 j) == (s.cls j).tmask

/-- The write of tenant t held at a full queue: its pair and the queue. -/
def State.heldWrite (s : State) (t : Nat) : Option (Fin 4 × Nat) :=
  s.queues.findSome? fun e => e.2.hold.findSome? fun h => match h.src with
    | some (p, _, o) => if o = t then some (p, e.1) else none
    | none => none

/-- Pair of a tenant's last hub access. -/
def State.tenantPair (s : State) (t : Nat) : Nat :=
  match SMap.get s.cyc.lastPair t 0, s.heldWrite t with
  | 0, some h => h.1.val
  | k, _ => k - 1

/-- R162: one entry of the stall monitor. -/
def State.stallEntry (s : State) (miss t : Nat) : State :=
  if !bitOf miss t then
    (((((s.set (CYC_STALL_0 t) 0).set (CYC_STALL_2 t) 0).set (CYC_STALL_3 t) 0).set (CYC_STALL_4 t) 0).set (CYC_STALL_14 t) 0).set (CYC_STALL_15 t) 0
  else
    let p := s.tenantPair t
    let h := s.heldWrite t
    let s := ((s.set (CYC_STALL_0 t) p).setB (CYC_STALL_2 t) (s.cr (pairIx p)).pace.isSome).setB (CYC_STALL_3 t) h.isSome
    let s := s.set (CYC_STALL_4 t) ((h.map (·.2)).getD 0)
    (s.setB (CYC_STALL_14 t) (bitOf (s.get LM_PAIRSTOP_0) p)).set (CYC_STALL_15 t) 1

/-- R162. -/
def State.stallFill (s : State) (j miss : Nat) : State :=
  let s := ((s.set CYC_STALL_CLS_0 j).set CYC_STALL_CLS_31 1).set CYC_STALL_T_0 miss
  s.each (List.range 32) fun s t => s.stallEntry miss t

/-- The frozen values of class j handed to the output units, or nothing of an incomplete class (R154, R160). -/
def State.handOn (s : State) (j t : Nat) (commits : Bool) : State :=
  let s := if commits then s.smFormAll j t else s
  (s.soStage j commits).fioStage j commits

/-- The guard start of class j whose boundary lies at train time t. -/
def State.guardAt (s : State) (j t : Nat) : State :=
  let done := s.classComplete j
  let skipped := s.flag (CYC_OVSTAT_8 j)
  let miss := (s.cls j).tmask &&& (0xFFFFFFFF - s.get (CYC_DSTAT_0 j) % 2 ^ 32)
  let s := s.setCheck
  if done then
    let s := s.updCls j fun c => { c with checked := true, overran := false, late := c.late || !skipped }
    s.handOn j t (!skipped)
  else
    let s := s.updCls j fun c => { c with checked := true, overran := true, miss := miss }
    (s.stallFill j miss).handOn j t false

/-- GUARD_START of a class. -/
def State.guardStart (s : State) (j : Nat) : State :=
  if s.power = .run ∧ s.flag CYCLE_running ∧ s.flag (CYC_CFG_21 j) ∧ (s.cls j).begun ∧ (s.cls j).checked = false then
    s.guardAt j (s.endOf j s.cyc.next * s.baseNs)
  else s

def execGuardStart (cls : Fin 8) (s : State) : Out := .next (s.guardStart cls.val)

/-! ## The end of a class cycle (R154, R160, R161) -/

/-- Class j ends complete after a normal cycle: the hallmark commit. -/
def State.endNormal (s : State) (t j : Nat) : State :=
  let s := s.commitClass 0 j t
  ((s.set (CYC_OVSTAT_0 j) 0).set (CYC_OVSTAT_9 j) 0).updCls j fun c => { c with late := false }

/-- Class j ends complete after a skipped cycle: nothing was staged, a normal cycle follows. -/
def State.endSkipped (s : State) (j : Nat) : State :=
  (s.set (CYC_OVSTAT_8 j) 0).updCls j fun c => { c with late := false }

/-- R161: the action taken: 1 in place of 2 where no standby is ready. -/
def State.escAct (s : State) (j : Nat) : Nat :=
  let a := s.get (CYC_ESC_4 j)
  if a = 2 ∧ !(s.pagePresent 0x34 && s.abdicateCode == 0) then 1 else a

/-- R161: the escalation; a warm restart is left to the end of the boundary (`restart` 4). -/
def State.escalate (s : State) (t j : Nat) : State :=
  let a := s.escAct j
  let s :=
    if a = 1 then (s.fallbackClass j t).set (CYC_OVSTAT_9 j) 1
    else if a = 2 then s.abdicate
    else if a = 3 then s.updCyc fun c => { c with restart := if c.restart = 0 ∨ c.restart = 1 then 4 else c.restart }
    else s
  (s.raiseInt 0x0B 1).record 0x0B02 5 [j, a, 0, s.cycnt j]

/-- R160, R161: class j ends with an overrun; the next cycle is skipped. -/
def State.endOverrun (s : State) (t j : Nat) : State :=
  let s := ((s.discardClass j).set (CYC_OVSTAT_8 j) 1).updCls j fun c => { c with late := true }
  let s := ((s.count (CYC_OVSTAT_0 j)).count CYCLE_overrun_count).count (CYC_OVCNT_0 j)
  let k := s.get (CYC_OVSTAT_0 j)
  let s := (s.raiseInt 0x0B 0).record 0x0B01 4 [j, k, (s.cls j).miss, s.cycnt j]
  if k = s.get (CYC_ESC_0 j) then s.escalate t j else s

/-- The end of class j at an edge at time t. -/
def State.classEnd (s : State) (t j : Nat) : State :=
  if (s.cls j).overran then s.endOverrun t j
  else if s.flag (CYC_OVSTAT_8 j) then s.endSkipped j
  else s.endNormal t j

/-! ## The beginning of a class cycle (R153, R154, R160) -/

/-- The next cycle of class j is a skipped one: it ends with an overrun, or it is idle after one. -/
def State.skipNext (s : State) (j : Nat) : Bool := if (s.cls j).begun then (s.cls j).overran else s.flag (CYC_OVSTAT_8 j)

/-- A normal cycle of class j begins at boundary n. -/
def State.beginsAt (s : State) (n j : Nat) : Bool := s.onClass j n && !s.skipNext j

/-- A class idle after a realignment whose next cycle is skipped begins it at its first class boundary. -/
def State.skipsAt (s : State) (n j : Nat) : Bool := s.onClass j n && !(s.cls j).begun && s.skipNext j

/-- The sample edge of class j: done bits cleared, the cycle counted, inputs snapshotted, mask and guard taken. -/
def State.sampleEdge (s : State) (t j : Nat) : State :=
  let s := (s.set (CYC_DSTAT_0 j) 0).set (CYC_CYCNT_0 j) (s.cycnt j + 1)
  let g := s.get (CYC_GUARD_0 j)
  let m := s.get (CYC_TMASK_0 j)
  let s := s.updCls j fun c => { c with begun := true, checked := false, overran := false, guard := g, tmask := m }
  s.commitClass 1 j t

/-- After an overrun the next, skipped cycle runs; at a realigned boundary a class that does not begin there is idle. -/
def State.cycleOn (s : State) (n j : Nat) : State :=
  s.updCls j fun c => { c with begun := c.begun && s.onClass j n, checked := false, overran := false }

/-! ## What other units do at hallmark edges and boundaries -/

/-- R88, 03 R95: the ASSAY_DIGEST registers show each pair's last matched checkpoint; the skew limit written comes into force (03 R102). -/
def State.assayEdge (s : State) : State :=
  let lim := s.get ASSAY_SKEW_0
  let s := s.updA fun x => { x with limit := lim }
  s.each allPairs fun s p =>
    let c := s.assay.last.get p
    (s.set64 (ASSAY_DIG_CNT_LO_0 p.val) (ASSAY_DIG_CNT_HI_0 p.val) c.1).set64 (ASSAY_DIG_LO_0 p.val) (ASSAY_DIG_HI_0 p.val) c.2

/-- 04 R115, R117, R119: rejoin steps at hallmark edges. -/
def State.rejoinEdge (s : State) (hall : List Nat) : State :=
  let s := s.rejoinConfirm
  if s.mgr.holdDue ∧ hall.contains (s.get LM_REJOIN_12) then s.holdCommand else s

/-- Hallmark edges of classes at a boundary; `com` the classes that committed. -/
def State.hallEdges (s : State) (hall com : List Nat) : State :=
  if hall.isEmpty then s else
  let s := (s.each hall State.thermApply).assayEdge.rejoinEdge hall
  let s := if (s.lanesIn lDebug).isEmpty then s.set LM_STATE_16 0 else s
  (s.each hall State.canCommit).each com State.pollCommit

/-- Variables a boundary committed, for the boundary set (17 R426): those flagged mirror or retain, and all that a patch list changed. -/
def State.setVars (s : State) (com samp : List Nat) (patched : List Nat) : List Desc :=
  s.img.vars.filter fun d =>
    ((d.mirror || d.retain) && ((d.kind == 0 && com.contains d.cls) || (d.kind == 1 && samp.contains d.cls))) || patched.contains d.v

/-- Variables the armed patch list changes at hallmark edges of these classes. -/
def State.patchVars (s : State) (hall : List Nat) : List Nat :=
  match s.img.patch with
  | some (n, c) => if hall.contains c then (List.range n).map fun e => (s.patchEntry e).1 else []
  | none => []

/-- R155: record and interrupt of a realigned boundary. -/
def State.realignSeen (s : State) : State := s.updCyc fun c => { c with realign := false }

/-- Restarts, the entry into STABLE and the end of DOZE fall due at the boundary last of all (06 R172; 20 R487, R491; 21 R524). -/
def State.boundaryTail (s : State) : State :=
  let s := if s.pw.runDue then s.dozeOff else s
  match s.cyc.restart with
  | 3 => ((s.restartOutputs).pfSave false false false).shutOff 0
  | 2 => s.restartRun 0 2
  | 4 => s.restartRun 1 3
  | 1 => s.restartRun 1 2
  | _ => if s.pw.stabDue then s.stableEnter else s

/-- The index of the boundary just generated. -/
def State.bnumTake (s : State) (n : Nat) : State :=
  let s := s.set64 CYC_BNUM_LO_0 CYC_BNUM_HI_0 n
  s.updCyc fun c => { c with next := n + 1 }

/-- The steps of R154 at boundary n, train time t; `ending` the classes whose cycle ends. -/
def State.boundarySteps (s : State) (n t : Nat) (ending : List Nat) : State :=
  let com := ending.filter fun j => !(s.cls j).overran && !s.flag (CYC_OVSTAT_8 j)
  let begin' := s.enabledClasses.filter fun j => s.beginsAt n j
  let skip := s.enabledClasses.filter fun j => s.skipsAt n j
  let s := s.fioCommit.soCommit
  let s := s.each ending fun s j => s.classEnd t j
  let patched := s.patchVars ending
  let s := s.each ending fun s j => s.patchApply j t
  let s := s.each ending fun s j => s.cycleOn n j
  let s := s.each skip fun s j => s.updCls j fun c => { c with begun := true, checked := false, overran := false }
  let s := s.each begin' fun s j => s.sampleEdge t j
  let s := s.hubSet (retBase + 16) 8 t
  let s := s.each s.img.vars fun s d => s.staleVar t d
  let s := s.hallEdges ending com
  let s := s.each ending fun s j => s.courEvent (1134 + j)
  let s := s.each begin' fun s j => s.courEvent (1126 + j)
  (s.brBoundary).mirBoundary n t ending (s.setVars com begin' patched)

/-- R152: boundary n. -/
def State.baseBoundary (s : State) : State :=
  if s.power = .run ∧ s.flag CYCLE_running then
    let n := s.cyc.next
    let t := n * s.baseNs
    let ending := s.enabledClasses.filter fun j => s.endsAt n j
    let s := s.each (ending.filter fun j => !(s.cls j).checked) fun s j => s.guardAt j t
    let s := s.bnumTake n
    let s := s.boundarySteps n t ending
    let s := s.updLk fun k => { k with startup := false }
    s.realignSeen.boundaryTail
  else s

def execBaseBoundary (s : State) : Out := .next s.baseBoundary

end Sys2Proof.Machine
end

