-- ==== Sys2Proof/Machine/Dispatch.lean ====
section
/-! DEFINITION. One arm per command: the call of its meaning. -/

namespace Sys2Proof.Machine

/-- The effect of a command on everything but the queue. -/
def exec (i : Instr) (s : State) : Host.Outcome State Fault Refusal :=
  match i with
  | .aluRegisterOp l p form gd gs1 gs2 fn => Sys2Proof.Machine.execAluRegisterOp l p form gd gs1 gs2 fn s
  | .immediateOp l p k gd gs1 imm => Sys2Proof.Machine.execImmediateOp l p k gd gs1 imm s
  | .upperImmediate l p auipc gd gs1 imm => Sys2Proof.Machine.execUpperImmediate l p auipc gd gs1 imm s
  | .load l p k gd gs1 imm => Sys2Proof.Machine.execLoad l p k gd gs1 imm s
  | .store l p k gs2 gs1 imm => Sys2Proof.Machine.execStore l p k gs2 gs1 imm s
  | .atomic l p gd gs1 gs2 fn => Sys2Proof.Machine.execAtomic l p gd gs1 gs2 fn s
  | .branch l p k gs1 gs2 disp => Sys2Proof.Machine.execBranch l p k gs1 gs2 disp s
  | .jump l p disp => Sys2Proof.Machine.execJump l p disp s
  | .jal l p disp => Sys2Proof.Machine.execJal l p disp s
  | .jalr l p gd gs1 imm => Sys2Proof.Machine.execJalr l p gd gs1 imm s
  | .fpLoadStore l p k vr gs1 imm => Sys2Proof.Machine.execFpLoadStore l p k vr gs1 imm s
  | .fpArithmetic l p vd vs1 vs2 fn => Sys2Proof.Machine.execFpArithmetic l p vd vs1 vs2 fn s
  | .fpConvertCompareMove l p rd rs1 rs2 fn => Sys2Proof.Machine.execFpConvertCompareMove l p rd rs1 rs2 fn s
  | .syscall l p g code => Sys2Proof.Machine.execSyscall l p g code s
  | .mcall l p g code => Sys2Proof.Machine.execMcall l p g code s
  | .brk l p g code => Sys2Proof.Machine.execBrk l p g code s
  | .eret l p => Sys2Proof.Machine.execEret l p s
  | .fence l p => Sys2Proof.Machine.execFence l p s
  | .fenceI l p => Sys2Proof.Machine.execFenceI l p s
  | .mfs l p g n => Sys2Proof.Machine.execMfs l p g n s
  | .mts l p g n => Sys2Proof.Machine.execMts l p g n s
  | .pairStart l q => Sys2Proof.Machine.execPairStart l q s
  | .granuleTableWrite l v => Sys2Proof.Machine.execGranuleTableWrite l v s
  | .bcopy l p gd gs1 gs2 fnHi => Sys2Proof.Machine.execBcopy l p gd gs1 gs2 fnHi s
  | .bfill l p gd gs1 gs2 fnHi => Sys2Proof.Machine.execBfill l p gd gs1 gs2 fnHi s
  | .bcrc l p gd gs1 gs2 fnHi => Sys2Proof.Machine.execBcrc l p gd gs1 gs2 fnHi s
  | .pace l p gd gs1 gs2 fnHi => Sys2Proof.Machine.execPace l p gd gs1 gs2 fnHi s
  | .paceComplete l p => Sys2Proof.Machine.execPaceComplete l p s
  | .rdcnt l p gd sel gs2 fnHi => Sys2Proof.Machine.execRdcnt l p gd sel gs2 fnHi s
  | .yield l p gd hi lo fnHi => Sys2Proof.Machine.execYield l p gd hi lo fnHi s
  | .stampDue l p => Sys2Proof.Machine.execStampDue l p s
  | .checkpointReport l p => Sys2Proof.Machine.execCheckpointReport l p s
  | .laneReset l => Sys2Proof.Machine.execLaneReset l s
  | .pairComparatorMismatch l p item => Sys2Proof.Machine.execPairComparatorMismatch l p item s
  | .laneMemoryUncorrectable l p => Sys2Proof.Machine.execLaneMemoryUncorrectable l p s
  | .flitWatchdogExpiry l => Sys2Proof.Machine.execFlitWatchdogExpiry l s
  | .linkFlitCrcError l r again => Sys2Proof.Machine.execLinkFlitCrcError l r again s
  | .writeRecordArrival l r => Sys2Proof.Machine.execWriteRecordArrival l r s
  | .readRecordArrival l r => Sys2Proof.Machine.execReadRecordArrival l r s
  | .readCapture p seq => Sys2Proof.Machine.execReadCapture p seq s
  | .checkpointArrival l p c => Sys2Proof.Machine.execCheckpointArrival l p c s
  | .skewLimitExpiry k p n => Sys2Proof.Machine.execSkewLimitExpiry k p n s
  | .bufferEntryFreed k p n => Sys2Proof.Machine.execBufferEntryFreed k p n s
  | .hubFaultDetected k => Sys2Proof.Machine.execHubFaultDetected k s
  | .hubClockDeviation fabric dev10ppm => Sys2Proof.Machine.execHubClockDeviation fabric dev10ppm s
  | .laneReady l failed => Sys2Proof.Machine.execLaneReady l failed s
  | .readyDeadlineExpiry => Sys2Proof.Machine.execReadyDeadlineExpiry s
  | .periodicTest failure => Sys2Proof.Machine.execPeriodicTest failure s
  | .lmTestRunNow a failure => Sys2Proof.Machine.execLmTestRunNow a failure s
  | .lmResetRejoin a l => Sys2Proof.Machine.execLmResetRejoin a l s
  | .lmPowerDown a l => Sys2Proof.Machine.execLmPowerDown a l s
  | .lmAbandonRejoin a l => Sys2Proof.Machine.execLmAbandonRejoin a l s
  | .rejoinBootComplete failed => Sys2Proof.Machine.execRejoinBootComplete failed s
  | .rejoinBootTimeout => Sys2Proof.Machine.execRejoinBootTimeout s
  | .copyPassEnd crcFail => Sys2Proof.Machine.execCopyPassEnd crcFail s
  | .holdPointReached l p => Sys2Proof.Machine.execHoldPointReached l p s
  | .holdTimeout => Sys2Proof.Machine.execHoldTimeout s
  | .admissionWindowEnd => Sys2Proof.Machine.execAdmissionWindowEnd s
  | .confirmationTimeout => Sys2Proof.Machine.execConfirmationTimeout s
  | .debugAttach l => Sys2Proof.Machine.execDebugAttach l s
  | .debugDetach => Sys2Proof.Machine.execDebugDetach s
  | .debugLinkLoss => Sys2Proof.Machine.execDebugLinkLoss s
  | .detachBootEnd passed => Sys2Proof.Machine.execDetachBootEnd passed s
  | .detachBootTimeout => Sys2Proof.Machine.execDetachBootTimeout s
  | .dbgHalt l p => Sys2Proof.Machine.execDbgHalt l p s
  | .dbgResume l p => Sys2Proof.Machine.execDbgResume l p s
  | .dbgStep l p => Sys2Proof.Machine.execDbgStep l p s
  | .dbgRegdataWrite l p v => Sys2Proof.Machine.execDbgRegdataWrite l p v s
  | .breakpointHit l p => Sys2Proof.Machine.execBreakpointHit l p s
  | .watchpointHit l p addr len store => Sys2Proof.Machine.execWatchpointHit l p addr len store s
  | .courSoftWrite a v => Sys2Proof.Machine.execCourSoftWrite a v s
  | .stampFormation p => Sys2Proof.Machine.execStampFormation p s
  | .stampArrivalAtLane l p num => Sys2Proof.Machine.execStampArrivalAtLane l p num s
  | .stampLateFlit l p d => Sys2Proof.Machine.execStampLateFlit l p d s
  | .intClrWrite a page v => Sys2Proof.Machine.execIntClrWrite a page v s
  | .intEnWrite a page v => Sys2Proof.Machine.execIntEnWrite a page v s
  | .intcPendClear l p n v => Sys2Proof.Machine.execIntcPendClear l p n v s
  | .intcEnWrite l p n v => Sys2Proof.Machine.execIntcEnWrite l p n v s
  | .cntClrWrite l p v => Sys2Proof.Machine.execCntClrWrite l p v s
  | .baseBoundary => Sys2Proof.Machine.execBaseBoundary s
  | .guardStart cls => Sys2Proof.Machine.execGuardStart cls s
  | .cycDoneWrite a cls v => Sys2Proof.Machine.execCycDoneWrite a cls v s
  | .cycleRunWrite a v => Sys2Proof.Machine.execCycleRunWrite a v s
  | .cycRestartWarm a => Sys2Proof.Machine.execCycRestartWarm a s
  | .cycRestartCold a => Sys2Proof.Machine.execCycRestartCold a s
  | .dataImageWrite w off bytes => Sys2Proof.Machine.execDataImageWrite w off bytes s
  | .dimgLock a => Sys2Proof.Machine.execDimgLock a s
  | .dimgPatchArm a => Sys2Proof.Machine.execDimgPatchArm a s
  | .dimgPatchCancel a => Sys2Proof.Machine.execDimgPatchCancel a s
  | .epochCommit a => Sys2Proof.Machine.execEpochCommit a s
  | .epochDrained => Sys2Proof.Machine.execEpochDrained s
  | .tenSoftWrite a t v => Sys2Proof.Machine.execTenSoftWrite a t v s
  | .memctlFillStart a => Sys2Proof.Machine.execMemctlFillStart a s
  | .fillComplete => Sys2Proof.Machine.execFillComplete s
  | .bankReady b => Sys2Proof.Machine.execBankReady b s
  | .hubSramScrub corrected => Sys2Proof.Machine.execHubSramScrub corrected s
  | .qmgrQselWrite a v => Sys2Proof.Machine.execQmgrQselWrite a v s
  | .qmgrQselTWrite a v => Sys2Proof.Machine.execQmgrQselTWrite a v s
  | .qmgrPush a v => Sys2Proof.Machine.execQmgrPush a v s
  | .qmgrPushLast a k v => Sys2Proof.Machine.execQmgrPushLast a k v s
  | .heldPushComplete q => Sys2Proof.Machine.execHeldPushComplete q s
  | .qmgrPop a bad => Sys2Proof.Machine.execQmgrPop a bad s
  | .qmgrQclr a v => Sys2Proof.Machine.execQmgrQclr a v s
  | .qmgrEnable a => Sys2Proof.Machine.execQmgrEnable a s
  | .qmgrDisable a => Sys2Proof.Machine.execQmgrDisable a s
  | .tallyGrant portB bank r waitNs => Sys2Proof.Machine.execTallyGrant portB bank r waitNs s
  | .quotaPeriodEnd => Sys2Proof.Machine.execQuotaPeriodEnd s
  | .fabricTagFreed system => Sys2Proof.Machine.execFabricTagFreed system s
  | .tenantCreditReturned t => Sys2Proof.Machine.execTenantCreditReturned t s
  | .portLinkLoss x => Sys2Proof.Machine.execPortLinkLoss x s
  | .portTrainingComplete x fec => Sys2Proof.Machine.execPortTrainingComplete x fec s
  | .consistFrameReceived x f fcsOk => Sys2Proof.Machine.execConsistFrameReceived x f fcsOk s
  | .discardTableAgeOut mac => Sys2Proof.Machine.execDiscardTableAgeOut mac s
  | .basicCycleStart => Sys2Proof.Machine.execBasicCycleStart s
  | .matrixCycleStart => Sys2Proof.Machine.execMatrixCycleStart s
  | .exclusiveFetch e => Sys2Proof.Machine.execExclusiveFetch e s
  | .exclusiveWindowStart e => Sys2Proof.Machine.execExclusiveWindowStart e s
  | .arbitratingWindow e => Sys2Proof.Machine.execArbitratingWindow e s
  | .syncWindow e => Sys2Proof.Machine.execSyncWindow e s
  | .receiveMissCheck r => Sys2Proof.Machine.execReceiveMissCheck r s
  | .almValidate a => Sys2Proof.Machine.execAlmValidate a s
  | .almSwitchArm a => Sys2Proof.Machine.execAlmSwitchArm a s
  | .almSwitchCancel a => Sys2Proof.Machine.execAlmSwitchCancel a s
  | .porterStrobe t4ns => Sys2Proof.Machine.execPorterStrobe t4ns s
  | .porterWindowOpen e => Sys2Proof.Machine.execPorterWindowOpen e s
  | .porterWindowClose e => Sys2Proof.Machine.execPorterWindowClose e s
  | .porterUnsilence a ports => Sys2Proof.Machine.execPorterUnsilence a ports s
  | .porterSwitchArm a => Sys2Proof.Machine.execPorterSwitchArm a s
  | .cmTimeRead a => Sys2Proof.Machine.execCmTimeRead a s
  | .cmCntRead a => Sys2Proof.Machine.execCmCntRead a s
  | .slewEnd => Sys2Proof.Machine.execSlewEnd s
  | .holdoverExpiry => Sys2Proof.Machine.execHoldoverExpiry s
  | .delayResponseTimeout node plane => Sys2Proof.Machine.execDelayResponseTimeout node plane s
  | .cmAccept a => Sys2Proof.Machine.execCmAccept a s
  | .cmReject a => Sys2Proof.Machine.execCmReject a s
  | .cmSet a => Sys2Proof.Machine.execCmSet a s
  | .cmSyncCtlWrite a v => Sys2Proof.Machine.execCmSyncCtlWrite a v s
  | .cmRateWrite a v => Sys2Proof.Machine.execCmRateWrite a v s
  | .timePulseOutput => Sys2Proof.Machine.execTimePulseOutput s
  | .timePulseCapture => Sys2Proof.Machine.execTimePulseCapture s
  | .tsTxlastRead a x => Sys2Proof.Machine.execTsTxlastRead a x s
  | .tsPcapRead a => Sys2Proof.Machine.execTsPcapRead a s
  | .pollBasicPeriodStart c => Sys2Proof.Machine.execPollBasicPeriodStart c s
  | .pollSlotStart c e echoOk => Sys2Proof.Machine.execPollSlotStart c e echoOk s
  | .pollReplyTimeout c => Sys2Proof.Machine.execPollReplyTimeout c s
  | .pollSlaveFrameReceived c data ok => Sys2Proof.Machine.execPollSlaveFrameReceived c data ok s
  | .pollMasterFrameReceived c fcode set addr echoOk => Sys2Proof.Machine.execPollMasterFrameReceived c fcode set addr echoOk s
  | .slaveSilenceTimeout c => Sys2Proof.Machine.execSlaveSilenceTimeout c s
  | .pollValidate a c => Sys2Proof.Machine.execPollValidate a c s
  | .pollSwitchArm a c => Sys2Proof.Machine.execPollSwitchArm a c s
  | .pollSwitchCancel a c => Sys2Proof.Machine.execPollSwitchCancel a c s
  | .pollResume a c => Sys2Proof.Machine.execPollResume a c s
  | .pollUnsilence a c => Sys2Proof.Machine.execPollUnsilence a c s
  | .pollCtlWrite a c v => Sys2Proof.Machine.execPollCtlWrite a c v s
  | .canStart a c => Sys2Proof.Machine.execCanStart a c s
  | .canStop a c => Sys2Proof.Machine.execCanStop a c s
  | .canRecover a c => Sys2Proof.Machine.execCanRecover a c s
  | .canRedetect a c => Sys2Proof.Machine.execCanRedetect a c s
  | .canFrameReceived c f => Sys2Proof.Machine.execCanFrameReceived c f s
  | .canStartOfFrame c tdcv => Sys2Proof.Machine.execCanStartOfFrame c tdcv s
  | .canTxComplete c => Sys2Proof.Machine.execCanTxComplete c s
  | .canArbitrationLost c => Sys2Proof.Machine.execCanArbitrationLost c s
  | .canErrorDetected c e => Sys2Proof.Machine.execCanErrorDetected c e s
  | .canBusoffRecovered c => Sys2Proof.Machine.execCanBusoffRecovered c s
  | .canListenExit c => Sys2Proof.Machine.execCanListenExit c s
  | .canWakePattern c ticks => Sys2Proof.Machine.execCanWakePattern c ticks s
  | .fioRefreshSlot n0 got seen mv => Sys2Proof.Machine.execFioRefreshSlot n0 got seen mv s
  | .fioUplinkReceived n0 b => Sys2Proof.Machine.execFioUplinkReceived n0 b s
  | .fioUplinkTimeout n0 bad => Sys2Proof.Machine.execFioUplinkTimeout n0 bad s
  | .islandMonostableExpiry n0 => Sys2Proof.Machine.execIslandMonostableExpiry n0 s
  | .islandParityError n0 => Sys2Proof.Machine.execIslandParityError n0 s
  | .outputCurrentLimitExpiry n0 n => Sys2Proof.Machine.execOutputCurrentLimitExpiry n0 n s
  | .islandOvercurrentTrip n0 => Sys2Proof.Machine.execIslandOvercurrentTrip n0 s
  | .fioLoadTimeout n0 => Sys2Proof.Machine.execFioLoadTimeout n0 s
  | .fioStart a n0 slotB => Sys2Proof.Machine.execFioStart a n0 slotB s
  | .fioStop a n0 => Sys2Proof.Machine.execFioStop a n0 s
  | .fioReload a n0 slotB => Sys2Proof.Machine.execFioReload a n0 slotB s
  | .fioClearFault a n0 => Sys2Proof.Machine.execFioClearFault a n0 s
  | .fioInCfgWrite a n0 n v => Sys2Proof.Machine.execFioInCfgWrite a n0 n v s
  | .fioOutCfgWrite a n0 n v => Sys2Proof.Machine.execFioOutCfgWrite a n0 n v s
  | .diWakeChange n0 n ticks => Sys2Proof.Machine.execDiWakeChange n0 n ticks s
  | .trackEdge n l1 l2 held => Sys2Proof.Machine.execTrackEdge n l1 l2 held s
  | .trackFaultTimeout n mw t2 lv => Sys2Proof.Machine.execTrackFaultTimeout n mw t2 lv s
  | .sensorSupplyFault n mv limiting => Sys2Proof.Machine.execSensorSupplyFault n mv limiting s
  | .standstillTimeout n => Sys2Proof.Machine.execStandstillTimeout n s
  | .speedInitTimeout n mw => Sys2Proof.Machine.execSpeedInitTimeout n mw s
  | .frozenChannel n mw => Sys2Proof.Machine.execFrozenChannel n mw s
  | .speedEvaluation => Sys2Proof.Machine.execSpeedEvaluation s
  | .speedReadmit a mask => Sys2Proof.Machine.execSpeedReadmit a mask s
  | .odometerZero a mask => Sys2Proof.Machine.execOdometerZero a mask s
  | .odometerRead a n => Sys2Proof.Machine.execOdometerRead a n s
  | .mwResetRelease => Sys2Proof.Machine.execMwResetRelease s
  | .hubFrameSend => Sys2Proof.Machine.execHubFrameSend s
  | .mwHubFrameReceived b => Sys2Proof.Machine.execMwHubFrameReceived b s
  | .mwFrameTimeout interval => Sys2Proof.Machine.execMwFrameTimeout interval s
  | .millwrightFrameReceived b => Sys2Proof.Machine.execMillwrightFrameReceived b s
  | .hubHealthyLow => Sys2Proof.Machine.execHubHealthyLow s
  | .mwEvaluationTick => Sys2Proof.Machine.execMwEvaluationTick s
  | .mwTrackEdge n a b => Sys2Proof.Machine.execMwTrackEdge n a b s
  | .mwStandstillEntry => Sys2Proof.Machine.execMwStandstillEntry s
  | .mwRomCheck ok => Sys2Proof.Machine.execMwRomCheck ok s
  | .mwDiSample closed => Sys2Proof.Machine.execMwDiSample closed s
  | .mwDiPulseTimeout => Sys2Proof.Machine.execMwDiPulseTimeout s
  | .mwCrossCheckTimeout lane => Sys2Proof.Machine.execMwCrossCheckTimeout lane s
  | .safetyOutputSense mid out permit supplyOk => Sys2Proof.Machine.execSafetyOutputSense mid out permit supplyOk s
  | .testPulseDue => Sys2Proof.Machine.execTestPulseDue s
  | .testPulseEnd ok => Sys2Proof.Machine.execTestPulseEnd ok s
  | .soTestRunNow a => Sys2Proof.Machine.execSoTestRunNow a s
  | .switchSample pins mwPins => Sys2Proof.Machine.execSwitchSample pins mwPins s
  | .switchMismatchTimeout => Sys2Proof.Machine.execSwitchMismatchTimeout s
  | .safeWatchdogExpiry n => Sys2Proof.Machine.execSafeWatchdogExpiry n s
  | .safeAutoRecovery n => Sys2Proof.Machine.execSafeAutoRecovery n s
  | .smReset a n => Sys2Proof.Machine.execSmReset a n s
  | .mirrorSegmentReceived link g => Sys2Proof.Machine.execMirrorSegmentReceived link g s
  | .boundarySetApply => Sys2Proof.Machine.execBoundarySetApply s
  | .helloSend => Sys2Proof.Machine.execHelloSend s
  | .mirrorLinkTimeout link => Sys2Proof.Machine.execMirrorLinkTimeout link s
  | .pairWaitExpiry => Sys2Proof.Machine.execPairWaitExpiry s
  | .leaseExpiry => Sys2Proof.Machine.execLeaseExpiry s
  | .mirAbdicate a => Sys2Proof.Machine.execMirAbdicate a s
  | .mirRearm a => Sys2Proof.Machine.execMirRearm a s
  | .mirTake a => Sys2Proof.Machine.execMirTake a s
  | .mirRestartPass a => Sys2Proof.Machine.execMirRestartPass a s
  | .ledgerRecordArrival r => Sys2Proof.Machine.execLedgerRecordArrival r s
  | .lgSubGo a => Sys2Proof.Machine.execLgSubGo a s
  | .ledgerFlushStart => Sys2Proof.Machine.execLedgerFlushStart s
  | .ledgerFlushDone => Sys2Proof.Machine.execLedgerFlushDone s
  | .ledgerFlushRetry => Sys2Proof.Machine.execLedgerFlushRetry s
  | .lgFlush a => Sys2Proof.Machine.execLgFlush a s
  | .operatingMillisecond => Sys2Proof.Machine.execOperatingMillisecond s
  | .operatingSecond => Sys2Proof.Machine.execOperatingSecond s
  | .quicenRepeatHoldExpiry => Sys2Proof.Machine.execQuicenRepeatHoldExpiry s
  | .lgFreeze a => Sys2Proof.Machine.execLgFreeze a s
  | .lgUnfreeze a => Sys2Proof.Machine.execLgUnfreeze a s
  | .freezeMaxExpiry => Sys2Proof.Machine.execFreezeMaxExpiry s
  | .lgFreezeMaxWrite a v => Sys2Proof.Machine.execLgFreezeMaxWrite a v s
  | .lgCursorWrite a v => Sys2Proof.Machine.execLgCursorWrite a v s
  | .lgNext a => Sys2Proof.Machine.execLgNext a s
  | .lgPrev a => Sys2Proof.Machine.execLgPrev a s
  | .lgNewest a => Sys2Proof.Machine.execLgNewest a s
  | .lgOldest a => Sys2Proof.Machine.execLgOldest a s
  | .ledgerWindowReady => Sys2Proof.Machine.execLedgerWindowReady s
  | .lgRateEntryWrite a off v => Sys2Proof.Machine.execLgRateEntryWrite a off v s
  | .lgRateDefWrite a v => Sys2Proof.Machine.execLgRateDefWrite a v s
  | .ledgerHeadMount => Sys2Proof.Machine.execLedgerHeadMount s
  | .stRead a => Sys2Proof.Machine.execStRead a s
  | .stWrite a => Sys2Proof.Machine.execStWrite a s
  | .stDiscard a => Sys2Proof.Machine.execStDiscard a s
  | .storeCommandComplete r => Sys2Proof.Machine.execStoreCommandComplete r s
  | .scrubBlock d bits reads loss => Sys2Proof.Machine.execScrubBlock d bits reads loss s
  | .staticWearMove d => Sys2Proof.Machine.execStaticWearMove d s
  | .nandDeviceFail d => Sys2Proof.Machine.execNandDeviceFail d s
  | .nandMount d0 d1 => Sys2Proof.Machine.execNandMount d0 d1 s
  | .sdCardDetect present => Sys2Proof.Machine.execSdCardDetect present s
  | .sdInit a => Sys2Proof.Machine.execSdInit a s
  | .sdRead a => Sys2Proof.Machine.execSdRead a s
  | .sdReadEnd r => Sys2Proof.Machine.execSdReadEnd r s
  | .sdPowerOff a => Sys2Proof.Machine.execSdPowerOff a s
  | .supplyInterruption vin => Sys2Proof.Machine.execSupplyInterruption vin s
  | .interruptionEnd ms01 => Sys2Proof.Machine.execInterruptionEnd ms01 s
  | .powerFailDeclare full0 full1 => Sys2Proof.Machine.execPowerFailDeclare full0 full1 s
  | .startFromOff c => Sys2Proof.Machine.execStartFromOff c s
  | .pwrDoze a => Sys2Proof.Machine.execPwrDoze a s
  | .pwrRun a => Sys2Proof.Machine.execPwrRun a s
  | .pwrStable a => Sys2Proof.Machine.execPwrStable a s
  | .dozeEntry => Sys2Proof.Machine.execDozeEntry s
  | .wakeEvent src ticks => Sys2Proof.Machine.execWakeEvent src ticks s
  | .wakeTimerExpiry ticks => Sys2Proof.Machine.execWakeTimerExpiry ticks s
  | .clockStartOnDemand d ns late => Sys2Proof.Machine.execClockStartOnDemand d ns late s
  | .thermalSample t0 t1 t2 t3 => Sys2Proof.Machine.execThermalSample t0 t1 t2 t3 s
  | .thermalDwellExpiry => Sys2Proof.Machine.execThermalDwellExpiry s
  | .thermalTrip die => Sys2Proof.Machine.execThermalTrip die s
  | .lkOpenWindow a => Sys2Proof.Machine.execLkOpenWindow a s
  | .lkCloseWindow a => Sys2Proof.Machine.execLkCloseWindow a s
  | .serviceWindowEnd => Sys2Proof.Machine.execServiceWindowEnd s
  | .lkReleaseTamper a => Sys2Proof.Machine.execLkReleaseTamper a s
  | .lkLifecycleTransition a => Sys2Proof.Machine.execLkLifecycleTransition a s
  | .lkSign a => Sys2Proof.Machine.execLkSign a s
  | .lkPubkey a => Sys2Proof.Machine.execLkPubkey a s
  | .lkMac a => Sys2Proof.Machine.execLkMac a s
  | .lkVerify a => Sys2Proof.Machine.execLkVerify a s
  | .lkRevoke a => Sys2Proof.Machine.execLkRevoke a s
  | .locksmithOpComplete => Sys2Proof.Machine.execLocksmithOpComplete s
  | .tamperEvent src firing bad => Sys2Proof.Machine.execTamperEvent src firing bad s
  | .updVerify a => Sys2Proof.Machine.execUpdVerify a s
  | .updBegin a => Sys2Proof.Machine.execUpdBegin a s
  | .updEnd a => Sys2Proof.Machine.execUpdEnd a s
  | .updAbort a => Sys2Proof.Machine.execUpdAbort a s
  | .updActivate a now => Sys2Proof.Machine.execUpdActivate a now s
  | .updConfirm a => Sys2Proof.Machine.execUpdConfirm a s
  | .updBooted a => Sys2Proof.Machine.execUpdBooted a s
  | .bootedTimeout => Sys2Proof.Machine.execBootedTimeout s
  | .trialTimeout => Sys2Proof.Machine.execTrialTimeout s
  | .tftpWriteRequest sd req file => Sys2Proof.Machine.execTftpWriteRequest sd req file s
  | .cobblerRestart => Sys2Proof.Machine.execCobblerRestart s
  | .bridgeRequestTake => Sys2Proof.Machine.execBridgeRequestTake s
  | .bridgeBusCycleStart => Sys2Proof.Machine.execBridgeBusCycleStart s
  | .bridgeDataPhaseEnd err data => Sys2Proof.Machine.execBridgeDataPhaseEnd err data s
  | .bridgeDataPhaseTimeout => Sys2Proof.Machine.execBridgeDataPhaseTimeout s
  | .bridgeCompletionWrite => Sys2Proof.Machine.execBridgeCompletionWrite s
  | .bridgeScanInstant cls => Sys2Proof.Machine.execBridgeScanInstant cls s
  | .brFlush a => Sys2Proof.Machine.execBrFlush a s
  | .brReset a => Sys2Proof.Machine.execBrReset a s
  | .qpResetAssert => Sys2Proof.Machine.execQpResetAssert s
  | .qpResetRecoveryEnd => Sys2Proof.Machine.execQpResetRecoveryEnd s
  | .quicenLineAssert n levels => Sys2Proof.Machine.execQuicenLineAssert n levels s
  | .svcFrameReceived x f fcsOk => Sys2Proof.Machine.execSvcFrameReceived x f fcsOk s
  | .svcFrameSend x => Sys2Proof.Machine.execSvcFrameSend x s
  | .svcLinkChange x up speed => Sys2Proof.Machine.execSvcLinkChange x up speed s
  | .hdbgTRead a => Sys2Proof.Machine.execHdbgTRead a s
  | .readClearAccess a page off => Sys2Proof.Machine.execReadClearAccess a page off s
  | .registerWrite a page off v => Sys2Proof.Machine.execRegisterWrite a page off v s
  | .safetyOutputOverload n => Sys2Proof.Machine.execSafetyOutputOverload n s
  | .holdupStoreExhausted => Sys2Proof.Machine.execHoldupStoreExhausted s
  | .inputFluctuation vin => Sys2Proof.Machine.execInputFluctuation vin s
  | .speedRegisterUpdate => Sys2Proof.Machine.execSpeedRegisterUpdate s
  | .sdInitComplete r => Sys2Proof.Machine.execSdInitComplete r s
  | .updateCommandComplete bad => Sys2Proof.Machine.execUpdateCommandComplete bad s
  | .mirrorBlockLockLoss link => Sys2Proof.Machine.execMirrorBlockLockLoss link s

end Sys2Proof.Machine
end

