-- ==== Sys2Proof/Machine/Step.lean ====
section
/-! DEFINITION. One step: the command at the front of the queue, or a tick of the Clockmaker counter where none waits. -/

namespace Sys2Proof.Machine

/-- The queue's commands replaced. -/
def State.withPending (s : State) (l : List Instr) : State := { s with pending := l }

/-- With no command waiting the block idles: the 64-bit Clockmaker counter advances by 1 while the module has its supply (10 R268). DESIGN CHOICE,
log entry 2. -/
def State.idle (s : State) : State := if s.power = .run then s.setCounter ((s.counter + 1) % 2 ^ 64) else s

/-- One step. -/
def step (s : State) : Host.Outcome State Fault Refusal :=
  match s.pending with
  | c :: rest => exec c (s.withPending rest)
  | [] => .next s.idle

/-- The command a word spells, at the front of the queue; no row of the table gives bits, so no word spells one. -/
def State.withFetchWord (s : State) (nbits w : Nat) : State :=
  match decodeTableWord nbits w with
  | some c => s.withPending (c :: s.pending)
  | none => s

end Sys2Proof.Machine
end

