-- ==== Sys2Proof/Safety.lean ====
section
/-! DEFINITION. What counts as a well-kept state, and the conditions the statements about commands share. -/

namespace Sys2Proof.Machine

/-- A byte memory in its one form: addresses strictly rising, no byte 0 listed. -/
def Memory.wf (m : SMap Byte) : Bool := decide (m.Pairwise fun a b => a.1 < b.1) && m.all fun e => e.2 != 0

/-- Hub SRAM, the NAND partitions and the three lane memories are in their one form. -/
def State.memWf (s : State) : Bool :=
  Memory.wf s.hub && Memory.wf s.flash && Memory.wf s.lanes.a.mem && Memory.wf s.lanes.b.mem && Memory.wf s.lanes.c.mem

/-- No register field is listed twice. -/
def State.regsWf (s : State) : Bool := decide (s.regs.Pairwise fun a b => a.1 < b.1)

/-- The page of a field's place. -/
def Fld.pageOf (f : Fld) : Nat := f.key / 131072 % 128

/-- The state but for registers, hub SRAM, lanes, Courier and Ledger. -/
def State.rest (s : State) :=
  ((s.pending, s.variant, s.counter, s.assay, s.mgr, s.latch, s.aoCause, s.memctl, s.clk, s.img, s.cyc, s.queues, s.tally, s.safe, s.cons, s.mir),
    s.power, s.wire, s.polls, s.cans, s.isl, s.flash, s.spd, s.so, s.mw, s.swRun, s.store, s.lock, s.upd, s.pw, s.cfg, s.bridge, s.freeCtr)

/-- From s to t, no register outside the pages listed changes, and nothing beyond registers, hub SRAM, lanes, Courier and Ledger. -/
def State.keepsBut (s t : State) (pages : List Nat) : Prop :=
  t.rest = s.rest ∧ ∀ g : Fld, g.pageOf ∉ pages → t.get g = s.get g

/-- Pair p of lane l retires its next instruction: it may run, nothing falls due at the boundary before it (02 R50, R52, R76), and its fetch is allowed. -/
def State.runs (s : State) (l : Fin 3) (p : Fin 4) : Prop :=
  s.canRun l p = true ∧ (s.pr l p).boundary = (s.pr l p, false) ∧
  (s.laneState l = lBoot ∨ s.rangeFault l p .fetch (s.pr l p).pc.toNat 4 = none)

/-- Floating-point instructions run at the pair's level (02 R43, R45 cause 0x0C). -/
def PairS.fpOn (q : PairS) : Prop := q.level ≠ 0 ∨ q.st 3 = true

/-- An access of the runtime or the monitor reaches a register of a page: the module has its supply, the page exists in the variant, and the page's rules
let the level write it (23 R553 to R555). -/
def State.reaches (s : State) (a : Acc) (page off : Nat) : Prop :=
  s.power = .run ∧ s.pagePresent page = true ∧ a.level ≠ 0 ∧ s.pageRefused a.level.val a.tenant.val page off true = false

/-- An access of any level reaches a register of a page. -/
def State.opens (s : State) (a : Acc) (page off : Nat) : Prop :=
  s.power = .run ∧ s.pagePresent page = true ∧ s.pageRefused a.level.val a.tenant.val page off true = false

/-- What a counter field shows after one more count; it saturates (23 R556). -/
def State.oneMore (s : State) (f : Fld) : Nat := min (s.get f + 1) (2 ^ f.w - 1)

/-- What a command that reads a register ends in: z, where no entry of the pair waits for its answer; else z with the answer x given to that entry (03 R85). -/
def State.readGives (s : State) (c : Instr) (a : Acc) (addr : Nat) (z : State) (x : Ans) : Prop :=
  (z.rEnt a.pair a.seq false = none → exec c s = .next z) ∧
  (∀ e, z.rEnt a.pair a.seq false = some e → (∀ r, e.first = some r → e.capt ≠ none ∨ r.addr ≠ addr) → exec c s = .next z) ∧
  (∀ e r, z.rEnt a.pair a.seq false = some e → e.first = some r → e.capt = none → r.addr = addr → exec c s = .next (z.captured a.pair a.seq x (recEffect r x)))

end Sys2Proof.Machine
end

