-- ==== Sys2Proof/Certificates/Slice0/Obligations.lean ====
section
/-! DEFINITION. The statements about the module: what its commands do, in terms of the model. -/

open Sys2Proof Sys2Proof.Machine

/-- The queue's front command is what a step runs (the form of a block's step, log entry 2). -/
def Obligations.StepRunsFrontCommand : Prop :=
  (∀ (c : Instr) (r : List Instr) (s : State), s.pending = c :: r →
    step s = exec c (s.withPending r) ∧ ∃ t, exec c (s.withPending r) = .next t ∧ t.pending = r ∧ t.variant = s.variant) ∧
  ∀ s : State, s.pending = [] →
    (s.power = .run → step s = .next (s.setCounter ((s.counter + 1) % 2 ^ 64))) ∧ (s.power ≠ .run → step s = .next s)

/-- R64: the pair alone changes; its destination takes the result, the pc follows the instruction, one unit retires. -/
def Obligations.IntegerAndControlInstructions : Prop :=
  ∀ (l : Fin 3) (p : Fin 4) (s : State), s.runs l p → let q := s.pr l p
  (∀ form gd gs1 gs2 fn r, aluResult form (BitVec.toNat fn) (q.rg gs1) (q.rg gs2) = some r →
    exec (.aluRegisterOp l p form gd gs1 gs2 fn) s = .next (s.updP l p fun _ => ((q.wg gd r).next).retire)) ∧
  (∀ k gd gs1 imm r, immResult (Fin.val k) (q.rg gs1) imm = some r →
    exec (.immediateOp l p k gd gs1 imm) s = .next (s.updP l p fun _ => ((q.wg gd r).next).retire)) ∧
  (∀ gd imm, exec (.upperImmediate l p false gd 0 imm) s = .next (s.updP l p fun _ => ((q.wg gd (sextImm imm * 0x10000)).next).retire) ∧
    exec (.upperImmediate l p true gd 0 imm) s = .next (s.updP l p fun _ => ((q.wg gd (q.pc + sextImm imm * 0x10000)).next).retire)) ∧
  (∀ k gs1 gs2 disp, exec (.branch l p k gs1 gs2 disp) s =
    .next (s.updP l p fun _ => (if branchTaken (Fin.val k) (q.rg gs1) (q.rg gs2) then { q.bump 3 with pc := q.pc + dispB disp } else q.next).retire)) ∧
  (∀ disp, exec (.jump l p disp) s = .next (s.updP l p fun _ => ({ q.bump 3 with pc := q.pc + dispJ disp } : PairS).retire)) ∧
  (∀ disp, exec (.jal l p disp) s = .next (s.updP l p fun _ => ({ (q.bump 3).wg 31 (q.pc + 4) with pc := q.pc + dispJ disp } : PairS).retire)) ∧
  (∀ gd gs1 imm, exec (.jalr l p gd gs1 imm) s =
    .next (s.updP l p fun _ => ({ (q.bump 3).wg gd (q.pc + 4) with pc := (q.rg gs1 + sextImm imm) &&& ~~~3 } : PairS).retire)) ∧
  (∀ gd v, gd ≠ 0 → ((q.wg gd v).next.retire).rg gd = v) ∧ (∀ v, q.wg 0 v = q) ∧
  (∀ gd v i, i ≠ gd → ((q.wg gd v).next.retire).rg i = q.rg i) ∧
  (∀ gd v, ((q.wg gd v).next.retire).pc = q.pc + 4 ∧ ((q.wg gd v).next.retire).cev 0 = q.cev 0 + 1 ∧ ((q.wg gd v).next.retire).v = q.v ∧
    ((q.wg gd v).next.retire).sr = q.sr) ∧
  ∀ q' : PairS, (s.keepsBut (s.updP l p fun _ => q') []) ∧ (s.updP l p fun _ => q').hub = s.hub ∧
    ∀ m r, m ≠ l ∨ r ≠ p → (s.updP l p fun _ => q').pr m r = s.pr m r

/-- R64 with the corners of division, on every operand. -/
def Obligations.IntegerOperationResults : Prop :=
  ∀ a b : Word64,
  (alu64 0x001 a b).map BitVec.toNat = some ((a.toNat + b.toNat) % 2 ^ 64) ∧
  (alu64 0x002 a b).map BitVec.toNat = some ((2 ^ 64 + a.toNat - b.toNat) % 2 ^ 64) ∧
  (alu64 0x006 a b).map BitVec.toNat = some (a.toNat * 2 ^ (b.toNat % 64) % 2 ^ 64) ∧
  (alu64 0x007 a b).map BitVec.toNat = some (a.toNat / 2 ^ (b.toNat % 64)) ∧
  (alu64 0x008 a b).map BitVec.toInt = some (a.toInt / 2 ^ (b.toNat % 64)) ∧
  alu64 0x009 a b = some (if a.toInt < b.toInt then 1 else 0) ∧
  alu64 0x00A a b = some (if a.toNat < b.toNat then 1 else 0) ∧
  (alu64 0x010 a b).map BitVec.toNat = some (a.toNat * b.toNat % 2 ^ 64) ∧
  (alu64 0x012 a b).map BitVec.toNat = some (a.toNat * b.toNat / 2 ^ 64) ∧
  (b ≠ 0 → a.toInt ≠ -2 ^ 63 ∨ b.toInt ≠ -1 → (alu64 0x014 a b).map BitVec.toInt = some (a.toInt.tdiv b.toInt)) ∧
  (b ≠ 0 → (alu64 0x016 a b).map BitVec.toInt = some (a.toInt.tmod b.toInt)) ∧
  (b ≠ 0 → (alu64 0x015 a b).map BitVec.toNat = some (a.toNat / b.toNat)) ∧
  (b ≠ 0 → (alu64 0x017 a b).map BitVec.toNat = some (a.toNat % b.toNat)) ∧
  (alu64 0x014 a 0 = some (BitVec.allOnes 64) ∧ alu64 0x015 a 0 = some (BitVec.allOnes 64) ∧ alu64 0x016 a 0 = some a ∧ alu64 0x017 a 0 = some a) ∧
  (a.toInt = -2 ^ 63 → b.toInt = -1 → alu64 0x014 a b = some a ∧ alu64 0x016 a b = some 0) ∧
  ∀ fn, (aluResult .x32 fn a b).map BitVec.toInt = (alu32 fn (lo32 a) (lo32 b)).map BitVec.toInt

/-- R46, R47, for every state of the pair; ERET also as the command does it. -/
def Obligations.ExceptionEntryAndReturn : Prop :=
  (∀ (q : PairS) (code info addr : Nat) (ret : Word64) (blk : Bool),
    let st := (q.rs 0).toNat
    let r := q.enter false code info addr ret blk
    let m := q.enter true code info addr ret blk
    (r.rs 0x001 = ret ∧ r.rs 0x002 = BitVec.ofNat 64 (causeWord code info blk) ∧ r.rs 0x003 = BitVec.ofNat 64 addr ∧
      bitsOf (r.rs 0).toNat 8 2 = st % 4 ∧ bitsOf (r.rs 0).toNat 10 1 = bitsOf st 2 1 ∧ bitsOf (r.rs 0).toNat 4 1 = 1 ∧ bitsOf (r.rs 0).toNat 2 1 = 0 ∧
      bitsOf (r.rs 0).toNat 0 2 = 1 ∧ r.pc = q.rs 0x004 + BitVec.ofNat 64 (code * 0x40) ∧
      bitsOf (r.rs 0).toNat 3 1 = bitsOf st 3 1 ∧ bitsOf (r.rs 0).toNat 5 3 = bitsOf st 5 3 ∧ bitsOf (r.rs 0).toNat 11 53 = bitsOf st 11 53) ∧
    (m.rs 0x100 = ret ∧ m.rs 0x101 = BitVec.ofNat 64 (causeWord code info blk) ∧ m.rs 0x102 = BitVec.ofNat 64 addr ∧
      bitsOf (m.rs 0).toNat 12 2 = st % 4 ∧ bitsOf (m.rs 0).toNat 14 1 = bitsOf st 2 1 ∧ bitsOf (m.rs 0).toNat 5 1 = 1 ∧ bitsOf (m.rs 0).toNat 2 1 = 0 ∧
      bitsOf (m.rs 0).toNat 0 2 = 2 ∧ m.pc = q.rs 0x103 + BitVec.ofNat 64 (code * 0x40) ∧
      bitsOf (m.rs 0).toNat 3 2 = bitsOf st 3 2 ∧ bitsOf (m.rs 0).toNat 6 6 = bitsOf st 6 6 ∧ bitsOf (m.rs 0).toNat 15 49 = bitsOf st 15 49) ∧
    (∀ n, n ≠ 0 → n ≠ 1 → n ≠ 2 → n ≠ 3 → r.rs n = q.rs n) ∧ (∀ n, n ≠ 0 → n ≠ 0x100 → n ≠ 0x101 → n ≠ 0x102 → m.rs n = q.rs n) ∧
    (∀ i, r.rg i = q.rg i ∧ r.rv i = q.rv i ∧ m.rg i = q.rg i ∧ m.rv i = q.rv i)) ∧
  (∀ q : PairS, q.level = 1 → (q.eret).pc = q.rs 0x001 ∧ (q.eret).level = bitsOf (q.rs 0).toNat 8 2 ∧
    bitsOf ((q.eret).rs 0).toNat 2 1 = bitsOf (q.rs 0).toNat 10 1 ∧ bitsOf ((q.eret).rs 0).toNat 4 1 = 0) ∧
  (∀ q : PairS, q.level = 2 → (q.eret).pc = q.rs 0x100 ∧ (q.eret).level = bitsOf (q.rs 0).toNat 12 2 ∧
    bitsOf ((q.eret).rs 0).toNat 2 1 = bitsOf (q.rs 0).toNat 14 1 ∧ bitsOf ((q.eret).rs 0).toNat 5 1 = 0) ∧
  ∀ (l : Fin 3) (p : Fin 4) (s : State), s.runs l p →
    ((s.pr l p).level ≠ 0 → exec (.eret l p) s = .next (s.updP l p fun _ => (s.pr l p).eret.retire)) ∧
    ((s.pr l p).level = 0 → exec (.eret l p) s = .next (s.precise l p 0x03 0 0 false))

/-- R64, R59: results, stored bytes and frame of the memory instructions whose target is lane memory. -/
def Obligations.LaneMemoryInstructions : Prop :=
  ∀ (l : Fin 3) (p : Fin 4) (s : State), s.runs l p → let q := s.pr l p
  (∀ k gd gs1 imm, let a := q.ea gs1 imm; let n := loadLen (Fin.val k)
    s.accFault l p true false false a n = none → (s.region a).isMem = true →
    exec (.load l p k gd gs1 imm) s = .next (s.updP l p fun _ => q.loadDone k.val gd (leNat (s.laneRead l p a n)))) ∧
  (∀ k gs2 gs1 imm, let a := q.ea gs1 imm; let n := 2 ^ Fin.val k
    s.accFault l p false true false a n = none → (s.region a).isMem = true →
    ∃ t, exec (.store l p k gs2 gs1 imm) s = .next t ∧ t.pr l p = (((q.bump 2).foldStore 0x10 a (leBytes n (q.rg gs2).toNat)).next).retire ∧
      t.laneRead l p a n = leBytes n (q.rg gs2).toNat ∧ s.keepsBut t [] ∧ t.hub = s.hub ∧ (∀ m, m ≠ l → t.ln m = s.ln m) ∧
      ∀ x, (∀ i < n, x ≠ memKey p (a + i)) → SMap.get (t.ln l).mem x 0 = SMap.get (s.ln l).mem x 0) ∧
  (∀ vr gs1 imm, q.fpOn → let a := q.ea gs1 imm
    (s.accFault l p true false false a 8 = none → (s.region a).isMem = true →
      exec (.fpLoadStore l p 0 vr gs1 imm) s = .next (s.updP l p fun _ => q.loadDone 7 vr (leNat (s.laneRead l p a 8)))) ∧
    (s.accFault l p true false false a 4 = none → (s.region a).isMem = true →
      exec (.fpLoadStore l p 2 vr gs1 imm) s = .next (s.updP l p fun _ => q.loadDone 8 vr (leNat (s.laneRead l p a 4)))) ∧
    (s.accFault l p false true false a 8 = none → (s.region a).isMem = true →
      ∃ t, exec (.fpLoadStore l p 1 vr gs1 imm) s = .next t ∧ t.laneRead l p a 8 = leBytes 8 (q.rv vr).toNat ∧
        ∀ x, (∀ i < 8, x ≠ memKey p (a + i)) → SMap.get (t.ln l).mem x 0 = SMap.get (s.ln l).mem x 0) ∧
    (s.accFault l p false true false a 4 = none → (s.region a).isMem = true →
      ∃ t, exec (.fpLoadStore l p 3 vr gs1 imm) s = .next t ∧ t.laneRead l p a 4 = leBytes 4 (q.rv vr).toNat ∧
        ∀ x, (∀ i < 4, x ≠ memKey p (a + i)) → SMap.get (t.ln l).mem x 0 = SMap.get (s.ln l).mem x 0)) ∧
  ∀ gd gs1 gs2 fn, let n := if bitOf (BitVec.toNat fn) 4 then 8 else 4; let a := (q.rg gs1).toNat
    let old := leNat (s.laneRead l p a n)
    BitVec.toNat fn < 32 → 0 < BitVec.toNat fn % 16 → BitVec.toNat fn % 16 ≤ 10 → s.accFault l p true true true a n = none → (s.region a).isMem = true →
    ∃ new t, atomicNew (BitVec.toNat fn) (8 * n) old ((q.rg gs2).toNat % 2 ^ (8 * n)) ((q.rg gd).toNat % 2 ^ (8 * n)) = some new ∧
      exec (.atomic l p gd gs1 gs2 fn) s = .next t ∧ t.laneRead l p a n = leBytes n new ∧
      t.pr l p = (q.foldStore 0x10 a (leBytes n new)).atomicDone gd (bitOf fn.toNat 4) old ∧
      ∀ x, (∀ i < n, x ≠ memKey p (a + i)) → SMap.get (t.ln l).mem x 0 = SMap.get (s.ln l).mem x 0

/-- R64, ops 0x32 and 0x33. -/
def Obligations.FloatingPointInstructions : Prop :=
  ∀ (l : Fin 3) (p : Fin 4) (s : State), s.runs l p → let q := s.pr l p
  (∀ vd vs1 vs2 fn r, q.fpOn → BitVec.toNat fn < 64 → (BitVec.toNat fn % 32 = 4 → vs2 = 0) → let f := if bitOf (BitVec.toNat fn) 5 then fmt32 else fmt64
    fpArith f (BitVec.toNat fn % 32) q.rm (q.rv vs1).toNat (q.rv vs2).toNat (q.rv vd).toNat = some r →
    exec (.fpArithmetic l p vd vs1 vs2 fn) s = .next (s.updP l p fun _ => (((q.sticky r.2).wv vd (BitVec.ofNat 64 (f.box r.1))).next).retire)) ∧
  (∀ rd rs1 rs2 fn v w, q.fpOn →
    fpConvert q.rm (BitVec.toNat fn) (q.rv rs1).toNat (q.rv rs2).toNat (q.rg rs1).toNat (Fin.val rs2) = some (.g v, w) →
    exec (.fpConvertCompareMove l p rd rs1 rs2 fn) s = .next (s.updP l p fun _ => (((q.sticky w).wg rd (BitVec.ofNat 64 v)).next).retire)) ∧
  (∀ rd rs1 rs2 fn v w, q.fpOn →
    fpConvert q.rm (BitVec.toNat fn) (q.rv rs1).toNat (q.rv rs2).toNat (q.rg rs1).toNat (Fin.val rs2) = some (.v v, w) →
    exec (.fpConvertCompareMove l p rd rs1 rs2 fn) s = .next (s.updP l p fun _ => (((q.sticky w).wv rd (BitVec.ofNat 64 v)).next).retire)) ∧
  ∀ vd vs1 vs2 fn r, ¬ q.fpOn → BitVec.toNat fn < 64 → (BitVec.toNat fn % 32 = 4 → vs2 = 0) →
    fpArith (if bitOf (BitVec.toNat fn) 5 then fmt32 else fmt64) (BitVec.toNat fn % 32) q.rm (q.rv vs1).toNat (q.rv vs2).toNat (q.rv vd).toNat = some r →
    exec (.fpArithmetic l p vd vs1 vs2 fn) s = .next (s.precise l p 0x0C 0 0 false)

/-- R45, R48, R49, R74: which exception is entered where. -/
def Obligations.TrapInstructions : Prop :=
  ∀ (l : Fin 3) (p : Fin 4) (s : State), s.runs l p → let q := s.pr l p
  let free (c : Nat) := if q.toMonitor c then q.st 5 = false else q.st 4 = false
  (∀ code, free 0x08 → exec (.syscall l p 0 code) s =
    .next (s.updP l p fun _ => (q.retire.enter (q.toMonitor 0x08) 0x08 (BitVec.toNat code) 0 (q.pc + 4) q.inBlk).bump 4)) ∧
  (∀ code, q.st 5 = false → exec (.mcall l p 0 code) s =
    .next (s.updP l p fun _ => (q.retire.enter true 0x09 (BitVec.toNat code) 0 (q.pc + 4) q.inBlk).bump 4)) ∧
  (∀ code, s.laneState l ≠ lDebug → free 0x0A → exec (.brk l p 0 code) s =
    .next (s.updP l p fun _ => (q.enter (q.toMonitor 0x0A) 0x0A 0 0 q.pc q.inBlk).bump 4)) ∧
  (∀ code, s.laneState l = lDebug → exec (.brk l p 0 code) s =
    .next (s.updP l p fun _ => { q with halted := true, haltWhy := 5, stepping := false })) ∧
  (∀ hi lo, q.level = 0 → free 0x0B → exec (.yield l p 0 hi lo 0) s =
    .next (s.updP l p fun _ => ((q.bump 6).retire.enter (q.toMonitor 0x0B) 0x0B (Fin.val hi * 32 + Fin.val lo) 0 (q.pc + 4) q.inBlk).bump 4)) ∧
  (∀ hi lo, q.level ≠ 0 → exec (.yield l p 0 hi lo 0) s = .next (s.updP l p fun _ => ((q.bump 6).next).retire)) ∧
  (∀ code, q.toMonitor 0x08 = true → q.st 5 = true → exec (.syscall l p 0 code) s = .next (s.pairStop l p)) ∧
  (∀ code, q.toMonitor 0x08 = false → q.st 4 = true → q.st 5 = false → exec (.syscall l p 0 code) s =
    .next (s.updP l p fun _ => (q.enter true 0x0F 0 0 q.pc q.inBlk).bump 4)) ∧
  (q.level = 2 → ∀ c, q.toMonitor c = true) ∧ q.toMonitor 0x09 = true ∧ q.toMonitor 0x0F = true ∧
  ∀ c, q.level ≠ 2 → c ≠ 0 → c ≠ 0x09 → c ≠ 0x0F → q.toMonitor c = !bitOf (q.rs 0x105).toNat c

/-- R73 whole, with the fences of R58 beside it. -/
def Obligations.CounterAndFenceInstructions : Prop :=
  ∀ (l : Fin 3) (p : Fin 4) (s : State), s.runs l p → let q := s.pr l p
  (∀ gd sel, Fin.val sel < 8 → ∃ t, exec (.rdcnt l p gd sel 0 0) s = .next t ∧ t.pr l p = ((q.wg gd (BitVec.ofNat 64 (q.cev (Fin.val sel)))).next).retire ∧
    (gd ≠ 0 → (t.pr l p).rg gd = BitVec.ofNat 64 (q.cev (Fin.val sel))) ∧ (∀ i, i ≠ gd → (t.pr l p).rg i = q.rg i) ∧ (t.pr l p).pc = q.pc + 4 ∧
    (t.pr l p).cev 0 = q.cev 0 + 1 ∧ (∀ n, n ≠ 0 → (t.pr l p).cev n = q.cev n) ∧ s.keepsBut t []) ∧
  (∀ gd sel gs2 v, 8 ≤ Fin.val sel ∨ gs2 ≠ 0 ∨ v ≠ 0 → exec (.rdcnt l p gd sel gs2 v) s = .next (s.precise l p 0x02 0 0 false)) ∧
  exec (.fenceI l p) s = .next (s.updP l p fun _ => q.next.retire) ∧
  (s.writesOpen l p = false → exec (.fence l p) s = .next (s.updP l p fun _ => q.next.retire)) ∧
  (s.writesOpen l p = true → exec (.fence l p) s = .next s)

/-- R42, R44, R55, R56, R40, R78. -/
def Obligations.SystemRegistersAndLaneControl : Prop :=
  (∀ (l : Fin 3) (p : Fin 4) (s : State) (g : Fin 32) (n : BitVec 10), s.runs l p → let q := s.pr l p
    (q.srPriv n.toNat = false → exec (.mfs l p g n) s = .next (s.updP l p fun _ => ((q.wg g (s.srRead l p n.toNat)).next).retire)) ∧
    (q.srPriv n.toNat = false → let t := s.srWrite l p n.toNat (q.rg g).toNat
      exec (.mts l p g n) s = .next (t.updP l p fun q => ((q.fold 0x03 n.toNat 0 (t.srRead l p n.toNat).toNat).next).retire)) ∧
    (q.srPriv n.toNat = true → exec (.mfs l p g n) s = .next (s.precise l p 0x03 0 0 false) ∧ exec (.mts l p g n) s = .next (s.precise l p 0x03 0 0 false)) ∧
    (∀ k v, srListed k = true → k < 0x106 → (s.srWrite l p k v).srRead l p k = BitVec.ofNat 64 (q.srClamp k v))) ∧
  (∀ (l : Fin 3) (p : Fin 4) (s : State), p.val < s.nPairs → bitOf (s.ln l).mpairrun p.val = false →
    ∃ t, exec (.pairStart l p) s = .next t ∧ bitOf (t.ln l).mpairrun p.val = true ∧ (t.pr l p).pc = 0x1000000 ∧ (∀ i, (t.pr l p).rg i = 0 ∧ (t.pr l p).rv i = 0) ∧
      (∀ n, (t.pr l p).rs n = srReset n ∧ (t.pr l p).cev n = 0) ∧ (t.pr l p).digest = 0 ∧
      (t.ln l).reports = (s.ln l).reports ++ [(p, { count := 0, digest := 0, pace := none })] ∧ (t.ln l).mem = (s.ln l).mem ∧ s.keepsBut t [] ∧
      ∀ m r, m ≠ l ∨ r ≠ p → t.pr m r = s.pr m r) ∧
  (∀ (l : Fin 3) (v : BitVec 64) (s : State), ¬ (s.isS = true ∧ 3072 ≤ (s.ln l).mgotx) → let new := if 5 ≤ v.toNat % 8 then 5 else v.toNat % 8
    granRuns (s.ln l).mpairrun (SMap.get (s.ln l).gran (s.ln l).mgotx 0) = false → granRuns (s.ln l).mpairrun new = false →
    ∃ t, exec (.granuleTableWrite l v) s = .next t ∧ SMap.get (t.ln l).gran (s.ln l).mgotx 0 = new ∧
      (∀ i, i ≠ (s.ln l).mgotx → SMap.get (t.ln l).gran i 0 = SMap.get (s.ln l).gran i 0) ∧ s.keepsBut t [] ∧ (t.ln l).pairs = (s.ln l).pairs) ∧
  ∀ (l : Fin 3) (s : State), s.laneState l = lBoot → ∃ t, exec (.laneReset l) s = .next t ∧ t.laneState l = lBoot ∧ (t.ln l).mem = (s.ln l).mem ∧
    (t.ln l).mpairrun = 1 ∧ (t.ln l).gran = [] ∧ (t.ln l).pairs = Quad.all PairS.init ∧ (∀ m, m ≠ l → t.ln m = s.ln m) ∧
    t.rest = s.rest ∧ ∀ f : Fld, f.key ≠ (laneField l).key → t.get f = s.get f

/-- R66 to R71 on lane memory. -/
def Obligations.BlockInstructions : Prop :=
  ∀ (l : Fin 3) (p : Fin 4) (s : State) (gd gs1 gs2 : Fin 32), s.runs l p → let q := s.pr l p
  let n := min 64 (q.rg gs2).toNat; let a := (q.rg gd).toNat; let b := (q.rg gs1).toNat
  (blockIllegal gd gs1 gs2 true = false → 0 < n → s.chunkFault l p (some b) (some a) n = none → (s.region a).isMem = true → (s.region b).isMem = true →
    ∃ t, exec (.bcopy l p gd gs1 gs2 0) s = .next t ∧ t.laneRead l p a n = s.laneRead l p b n ∧
      t.pr l p = (q.foldStore 0x10 a (s.laneRead l p b n)).chunkDone gd gs1 gs2 (q.rg gd + BitVec.ofNat 64 n) (q.rg gs1 + BitVec.ofNat 64 n) n ∧
      (∀ x, (∀ i < n, x ≠ memKey p (a + i)) → SMap.get (t.ln l).mem x 0 = SMap.get (s.ln l).mem x 0) ∧ s.keepsBut t []) ∧
  (blockIllegal gd gs1 gs2 false = false → 0 < n → s.chunkFault l p none (some a) n = none → (s.region a).isMem = true →
    ∃ t, exec (.bfill l p gd gs1 gs2 0) s = .next t ∧
      t.laneRead l p a n = (List.range n).map (fun i => BitVec.ofNat 8 ((q.rg gs1).toNat / 2 ^ (8 * ((a + i) % 8)))) ∧
      t.pr l p = (q.foldStore 0x10 a (patternBytes (q.rg gs1) a n)).chunkDone gd gs1 gs2 (q.rg gd + BitVec.ofNat 64 n) (q.rg gs1) n ∧
      (∀ x, (∀ i < n, x ≠ memKey p (a + i)) → SMap.get (t.ln l).mem x 0 = SMap.get (s.ln l).mem x 0) ∧ s.keepsBut t []) ∧
  (∀ sel : Fin 4, blockIllegal gd gs1 gs2 true = false → 0 < n → s.chunkFault l p (some b) none n = none → (s.region b).isMem = true →
    exec (.bcrc l p gd gs1 gs2 (BitVec.ofNat 7 sel.val)) s = .next (s.updP l p fun _ =>
      q.chunkDone gd gs1 gs2 (BitVec.ofNat 64 (bcrcStep sel.val a (s.laneRead l p b n))) (q.rg gs1 + BitVec.ofNat 64 n) n)) ∧
  (n = 0 → blockIllegal gd gs1 gs2 true = false → exec (.bcopy l p gd gs1 gs2 0) s = .next (s.updP l p fun _ => q.next.retire) ∧
    exec (.bfill l p gd gs1 gs2 0) s = .next (s.updP l p fun _ => q.next.retire) ∧ exec (.bcrc l p gd gs1 gs2 0) s = .next (s.updP l p fun _ => q.next.retire)) ∧
  (blockIllegal gd gs1 gs2 true = true → exec (.bcopy l p gd gs1 gs2 0) s = .next (s.precise l p 0x02 0 0 false) ∧
    exec (.bcrc l p gd gs1 gs2 0) s = .next (s.precise l p 0x02 0 0 false)) ∧
  (blockIllegal gd gs1 gs2 false = true → exec (.bfill l p gd gs1 gs2 0) s = .next (s.precise l p 0x02 0 0 false))

/-- R72, R76, R90, R141. -/
def Obligations.PaceStampsAndReports : Prop :=
  (∀ (l : Fin 3) (p : Fin 4) (s : State), s.runs l p → (s.pr l p).level ≠ 0 → (s.pr l p).release = none → s.laneState l ≠ lDebug →
    ∃ t, exec (.pace l p 0 0 0 0) s = .next t ∧ (t.pr l p).wait = .pace ((s.pr l p).cev 0) ∧ (t.pr l p).cev 0 = (s.pr l p).cev 0 ∧ (t.pr l p).pc = (s.pr l p).pc ∧
      (s.onLink l = true → (t.ln l).reports = ((s.ln l).reports.filter fun r => !(r.1 = p && r.2.count = (s.pr l p).cev 0)) ++
        [(p, { count := (s.pr l p).cev 0, digest := BitVec.ofNat 64 (s.pr l p).digest,
               pace := some ((s.pr l p).en, decide ((s.pr l p).pend &&& (s.pr l p).en ≠ 0)) })]) ∧
      (s.onLink l = false → (t.ln l).reports = (s.ln l).reports) ∧ s.keepsBut t [] ∧ t.hub = s.hub) ∧
  (∀ (l : Fin 3) (p : Fin 4) (s : State), s.runs l p → (s.pr l p).level = 0 → exec (.pace l p 0 0 0 0) s = .next (s.precise l p 0x03 0 0 false)) ∧
  (∀ (l : Fin 3) (p : Fin 4) (s : State) (c n : Nat) (ns : List Nat), (s.pr l p).wait = .pace c → (s.pr l p).release = some (c, n, ns) → s.laneState l ≠ lDebug →
    (s.pr l p).halted = false → (s.pr l p).held = false →
    exec (.paceComplete l p) s = .next (s.updP l p fun _ => (s.pr l p).paceDone ns)) ∧
  (∀ (l : Fin 3) (p : Fin 4) (s : State), s.canRun l p = true → exec (.stampDue l p) s = .next (s.updP l p fun _ => (s.pr l p).boundary.1)) ∧
  (∀ (l : Fin 3) (p : Fin 4) (s : State) (r : Ckpt) (rest : List Ckpt), (s.pr l p).due = r :: rest → s.onLink l = true →
    ∃ t, exec (.checkpointReport l p) s = .next t ∧ (t.pr l p).due = rest ∧ (t.ln l).reports = (s.ln l).reports ++ [(p, r)] ∧ s.keepsBut t [] ∧ t.hub = s.hub)

/-- R131, R132, R151, R556, R557, R567. -/
def Obligations.InterruptRegisters : Prop :=
  (∀ (a : Acc) (page v : Nat) (s : State), page < 128 → page ≠ 0x0A → s.reaches a page 0x02C → let r := s.get (rawOf page) &&& (0xFFFFFFFF - v % 2 ^ 32)
    ∃ t, exec (.intClrWrite a page v) s = .next t ∧ t.get (rawOf page) = r ∧ s.keepsBut t [page, 0x0A] ∧ t.hub = s.hub ∧ t.ledger = s.ledger ∧
      (r &&& s.get (enOf page) = 0 → t = s.set (rawOf page) r) ∧
      (r &&& s.get (enOf page) ≠ 0 → (s.route (1024 + page)).2.1 = true → bitOf (s.get LM_PAIRSTOP_0) (pairIx (s.route (1024 + page)).1).val = false →
        bitOf (t.cr (pairIx (s.route (1024 + page)).1)).waiting (1024 + page) = true)) ∧
  (∀ (a : Acc) (page v : Nat) (s : State), page < 128 → page ≠ 0x0A → s.reaches a page 0x024 →
    ∃ t, exec (.intEnWrite a page v) s = .next t ∧ t.get (enOf page) = v % enMask page % 2 ^ 32 ∧ t.get (rawOf page) = s.get (rawOf page) ∧ s.keepsBut t [page, 0x0A] ∧
      (s.intStat page ≠ 0 → t = s.set (enOf page) (v % enMask page)) ∧
      (s.intStat page = 0 → s.get (rawOf page) &&& (v % enMask page % 2 ^ 32) ≠ 0 → (s.route (1024 + page)).2.1 = true →
        bitOf (s.get LM_PAIRSTOP_0) (pairIx (s.route (1024 + page)).1).val = false → bitOf (t.cr (pairIx (s.route (1024 + page)).1)).waiting (1024 + page) = true)) ∧
  (∀ (a : Acc) (v : Nat) (s : State), s.reaches a 0x0A 0x044 → let n := 1216 + v % 64
    ∃ t, exec (.courSoftWrite a v) s = .next t ∧ s.keepsBut t [0x0A] ∧ t.hub = s.hub ∧ ((s.route n).2.1 = false → t = s) ∧
      ((s.route n).2.1 = true → bitOf (s.get LM_PAIRSTOP_0) (pairIx (s.route n).1).val = false → bitOf (t.cr (pairIx (s.route n).1)).waiting n = true)) ∧
  (∀ (l : Fin 3) (p : Fin 4) (n : Fin 40) (v : BitVec 32) (s : State), s.laneLive l p = true →
    (∃ t, exec (.intcPendClear l p n v) s = .next t ∧ t = s.updP l p (fun q => q.pendClear n.val v.toNat) ∧
      ∀ i, bitOf (t.pr l p).pend i = (bitOf (s.pr l p).pend i && !(decide (32 * n.val ≤ i ∧ i < 32 * n.val + 32) && bitOf v.toNat (i - 32 * n.val)))) ∧
    (∃ t, exec (.intcEnWrite l p n v) s = .next t ∧ t = s.updP l p (fun q => q.enWrite n.val v.toNat) ∧ bitsOf (t.pr l p).en (32 * n.val) 32 = v.toNat ∧
      ∀ m, m ≠ n.val → bitsOf (t.pr l p).en (32 * m) 32 = bitsOf (s.pr l p).en (32 * m) 32) ∧
    (∃ t, exec (.cntClrWrite l p v) s = .next t ∧ t = s.updP l p (fun q => q.cntClear v.toNat) ∧
      ∀ i, (t.pr l p).cev i = if 1 ≤ i ∧ i ≤ 7 ∧ bitOf v.toNat i = true then 0 else (s.pr l p).cev i))

/-- R106, R107, R120, R16, R96. -/
def Obligations.LaneFaults : Prop :=
  ∀ (l : Fin 3) (s : State),
    let gone := fun (c : Instr) (cause pair item : Nat) => ∃ t, exec c s = .next t ∧ t.laneState l = lIsolated ∧ t.get (LM_CAUSE_0 l.val) = cause ∧
      t.get (LM_CAUSE_4 l.val) = pair ∧ t.get (LM_CAUSE_8 l.val) = item ∧ (∀ m, m ≠ l → t.laneState m = s.laneState m ∨ (s.laneState l = lBoot ∧ s.starting = true ∧ s.laneState m = lBoot ∧ s.mgr.ready.get m = true ∧ t.laneState m = lActive)) ∧
      (s.laneState l = lActive → t.get ASSAY_voters = clrBit (s.get ASSAY_voters) l.val % 8) ∧
      (s.laneState l = lApprentice ∨ (s.laneState l = lBoot ∧ s.starting = false) → t.get ASSAY_voters = s.get ASSAY_voters) ∧ (s.laneState l = lApprentice → t.get LANEMGR_rejoin_lane = 7)
    (s.laneState l = lActive ∨ s.laneState l = lApprentice ∨ s.laneState l = lBoot →
      (∀ (p : Fin 4) (i : Fin 5), gone (.pairComparatorMismatch l p i) 2 p.val i.val) ∧ (∀ p : Fin 4, gone (.laneMemoryUncorrectable l p) 3 p.val 0) ∧
      gone (.flitWatchdogExpiry l) 4 0 0) ∧
    (s.laneState l = lDebug → ∀ (p : Fin 4) (i : Fin 5), exec (.pairComparatorMismatch l p i) s = .next s ∧ exec (.flitWatchdogExpiry l) s = .next s ∧
      exec (.laneMemoryUncorrectable l p) s = .next (s.lmRecord 0x0902 6 l s.activeMask)) ∧
    (∀ r : Rec, s.listeners.contains l = true →
      exec (.linkFlitCrcError l r false) s = .next (s.updL l fun n => { n with replayed := n.replayed.filter (· ≠ r) ++ [r] })) ∧
    ∀ r : Rec, s.voters.length = 3 → (s.ln l).replayed.contains r = true → ∃ t, exec (.linkFlitCrcError l r true) s = .next t ∧
      t.laneState l = lIsolated ∧ t.get (LM_CAUSE_0 l.val) = 1 ∧ t.get ASSAY_voters = clrBit (s.get ASSAY_voters) l.val % 8

/-- R108 to R110, R112. -/
def Obligations.LaneStartsAndTests : Prop :=
  (∀ (l : Fin 3) (s : State), s.starting = true → s.laneState l = lBoot → s.mgr.detach ≠ some l →
    ((∃ m, m ≠ l ∧ s.laneState m = lBoot ∧ s.mgr.ready.get m = false) → exec (.laneReady l none) s = .next (s.updM fun g => { g with ready := g.ready.set l true })) ∧
    ((∀ m, m ≠ l → s.laneState m = lBoot ∧ s.mgr.ready.get m = true) → ∃ t, exec (.laneReady l none) s = .next t ∧ (∀ m, t.laneState m = lActive) ∧
      t.get ASSAY_voters = 7 ∧ t.get ASSAY_mode = 3) ∧
    ∀ p : Fin 4, ∃ t, exec (.laneReady l (some p)) s = .next t ∧ t.laneState l = lIsolated ∧ t.get (LM_CAUSE_0 l.val) = 5 ∧ t.get (LM_CAUSE_4 l.val) = p.val) ∧
  (∀ (l : Fin 3) (s : State), s.starting = true → (∀ m, s.laneState m = lBoot ∧ s.mgr.ready.get m = decide (m ≠ l)) →
    ∃ t, exec .readyDeadlineExpiry s = .next t ∧ t.laneState l = lIsolated ∧ t.get (LM_CAUSE_0 l.val) = 6 ∧ (∀ m, m ≠ l → t.laneState m = lActive) ∧
      t.get ASSAY_voters = 7 - 2 ^ l.val ∧ t.get ASSAY_mode = 2) ∧
  (∀ (l : Fin 3) (s : State), s.starting = true → (∀ m, m ≠ l → s.laneState m = lBoot ∧ s.mgr.ready.get m = false) →
    ∃ t, exec .readyDeadlineExpiry s = .next t ∧ t.passive = true ∧ t.aoCause = 13 ∧ ∀ m, m ≠ l → t.laneState m = lIsolated) ∧
  (∀ (s : State) (f : Option TestFail), let defer := (2 ≤ s.get LM_REJ_STAT_0 ∧ (s.get LM_REJ_STAT_0 ≠ 2 ∨ 2 ≤ s.get LM_REJ_STAT_4)) ∨ s.lanesIn lDebug ≠ []
    (∀ a, s.reaches a 0x09 0x078 → exec (.lmTestRunNow a f) s = exec (.periodicTest f) s) ∧
    (defer → exec (.periodicTest f) s = .next (s.updM fun m => { m with testDue := true })) ∧
    (¬ defer → ∃ t, exec (.periodicTest f) s = .next t ∧ t.mgr.testDue = false ∧
      (f = none → t.get LM_TEST_STAT_0 = min (s.get LM_TEST_STAT_0 + 1) 0xFFFF ∧ t.get LM_TEST_STAT_16 = 0 ∧ s.laneState = t.laneState) ∧
      (f = some .hub → t.passive = true ∧ (s.passive = false → t.aoCause = 8)) ∧
      ∀ l p, f = some (.lane l p) → s.laneState l = lActive ∨ s.laneState l = lApprentice ∨ s.laneState l = lBoot →
        t.laneState l = lIsolated ∧ t.get (LM_CAUSE_0 l.val) = 7 ∧ t.get (LM_CAUSE_4 l.val) = p.val))

/-- R114, R120, R126. -/
def Obligations.LaneManagerCommands : Prop :=
  ∀ (a : Acc) (l : Fin 3) (s : State), s.reaches a 0x09 0x044 →
    let idle := s.laneState l = lIsolated ∨ s.laneState l = lOff
    (idle → (s.lanesIn lActive).length = 2 → s.rejoinLane = none → (s.recentStarts l).length < s.get LM_REJOIN_24 →
      ∃ t, exec (.lmResetRejoin a l) s = .next t ∧ t.laneState l = lBoot ∧ t.rejoinLane = some l ∧ t.get LM_REJ_STAT_0 = 1 ∧ t.get LM_REJ_STAT_4 = 0 ∧
        t.get LM_CMD_STAT_0 = 0 ∧ t.ln l = (s.ln l).resetL ∧ (t.ln l).mem = (s.ln l).mem ∧ ∀ m, m ≠ l → t.laneState m = s.laneState m ∧ t.ln m = s.ln m) ∧
    (¬ idle → exec (.lmResetRejoin a l) s = .next (s.set LM_CMD_STAT_0 1)) ∧
    (idle → (s.lanesIn lActive).length ≠ 2 → exec (.lmResetRejoin a l) s = .next (s.set LM_CMD_STAT_0 2)) ∧
    (idle → (s.lanesIn lActive).length = 2 → s.rejoinLane ≠ none → exec (.lmResetRejoin a l) s = .next (s.set LM_CMD_STAT_0 3)) ∧
    (idle → (s.lanesIn lActive).length = 2 → s.rejoinLane = none → s.get LM_REJOIN_24 ≤ (s.recentStarts l).length →
      exec (.lmResetRejoin a l) s = .next (s.set LM_CMD_STAT_0 4)) ∧
    (s.laneState l = lIsolated → exec (.lmPowerDown a l) s = .next ((s.set (laneField l) lOff).set LM_CMD_STAT_0 0)) ∧
    (s.laneState l ≠ lIsolated → exec (.lmPowerDown a l) s = .next (s.set LM_CMD_STAT_0 1)) ∧
    (s.rejoinLane ≠ some l → exec (.lmAbandonRejoin a l) s = .next (s.set LM_CMD_STAT_0 1)) ∧
    (s.rejoinLane = some l → ∃ t, exec (.lmAbandonRejoin a l) s = .next t ∧ t.laneState l = lIsolated ∧ t.rejoinLane = none ∧ t.mgr.hold = none ∧
      t.get (LM_CAUSE_0 l.val) = 8 ∧ t.get (LM_CAUSE_8 l.val) = 6 ∧ t.get LM_CMD_STAT_0 = 0 ∧ t.get LM_REJ_STAT_0 = 0)

/-- R115 to R120. -/
def Obligations.RejoinOfAnApprentice : Prop :=
  ∀ (r src : Fin 3) (s : State), s.rejoinLane = some r → s.copySource = some src →
    let fails := fun (c : Instr) (cause item : Nat) => ∃ t, exec c s = .next t ∧ t.laneState r = lIsolated ∧ t.rejoinLane = none ∧ t.mgr.hold = none ∧
      t.get (LM_CAUSE_0 r.val) = cause ∧ t.get (LM_CAUSE_8 r.val) = item
    (s.get LM_REJ_STAT_0 = 1 → (∀ p : Fin 4, fails (.rejoinBootComplete (some p)) 5 0) ∧ fails .rejoinBootTimeout 8 0 ∧
      (s.laneState r = lBoot → Memory.wf (s.ln src).mem = true → ∃ t, exec (.rejoinBootComplete none) s = .next t ∧ t.laneState r = lApprentice ∧
        t.get LM_REJ_STAT_0 = 2 ∧ t.get LM_REJ_STAT_4 = 1 ∧ (t.ln src).dirty = [] ∧
        ∀ x, SMap.get (t.ln r).mem x 0 = if s.pageCopied src x = true then SMap.get (s.ln src).mem x 0 else SMap.get (s.ln r).mem x 0)) ∧
    (s.get LM_REJ_STAT_0 = 2 → s.mgr.holdDue = false → fails (.copyPassEnd true) 8 2 ∧
      (s.dirtyCount ≤ s.pMax → exec (.copyPassEnd false) s = .next ((s.set LM_REJ_DIRTY_0 s.dirtyCount).updM fun m => { m with holdDue := true })) ∧
      (s.pMax < s.dirtyCount → s.get LM_REJOIN_16 ≤ s.get LM_REJ_STAT_4 → fails (.copyPassEnd false) 8 1) ∧
      (s.pMax < s.dirtyCount → s.get LM_REJ_STAT_4 < s.get LM_REJOIN_16 → s.get LM_REJ_STAT_4 < 31 →
        ∃ t, exec (.copyPassEnd false) s = .next t ∧ t.get LM_REJ_STAT_4 = s.get LM_REJ_STAT_4 + 1 ∧ t.get LM_REJ_STAT_0 = 2 ∧ t.laneState = s.laneState)) ∧
    (∀ (h : Quad Nat) (l : Fin 3) (p : Fin 4), s.mgr.hold = some h →
      (s.laneState l = lActive → (s.holdPairs l).contains p = true → (s.pr l p).held = false → h.get p ≤ (s.pr l p).cev 0 →
        (s.updP l p fun q => { q with held := true }).allHeld = false →
        exec (.holdPointReached l p) s = .next (s.updP l p fun q => { q with held := true })) ∧
      (s.allHeld = false → s.get LM_REJ_STAT_4 < s.get LM_REJOIN_16 → s.get LM_REJ_STAT_4 < 31 → ∃ t, exec .holdTimeout s = .next t ∧ t.mgr.hold = none ∧
        t.get COURIER_suspended = 0 ∧ t.get LM_REJ_STAT_4 = s.get LM_REJ_STAT_4 + 1 ∧ ∀ m q, (t.pr m q).held = false ∧ (t.pr m q).pc = (s.pr m q).pc) ∧
      (s.allHeld = true → src ≠ r → ∃ t, exec .admissionWindowEnd s = .next t ∧ t.get LM_REJ_STAT_0 = 4 ∧ t.mgr.hold = none ∧ t.mgr.confAt = h ∧
        ∀ q, (t.pr r q).g = (s.pr src q).g ∧ (t.pr r q).v = (s.pr src q).v ∧ (t.pr r q).sr = (s.pr src q).sr ∧ (t.pr r q).pc = (s.pr src q).pc ∧
          (t.pr r q).cnt = (s.pr src q).cnt ∧ (t.pr r q).digest = (s.pr src q).digest)) ∧
    (s.get LM_REJ_STAT_0 = 4 → fails .confirmationTimeout 8 5)

/-- R121, R123, R566. -/
def Obligations.DebugAttachAndDetach : Prop :=
  (∀ (l : Fin 3) (s : State), (s.attachRefusal l = 0 ↔ s.serviceEnable = true ∧ s.lanesIn lDebug = [] ∧ s.rejoinLane = none ∧
      (s.laneState l = lIsolated ∨ (s.laneState l = lActive ∧ (s.lanesIn lActive).length = 3)) ∧ (s.get LK_LIFE_0 = 2 → s.flag LOCK_window = true)) ∧
    (s.attachRefusal l = 0 → ∃ t, exec (.debugAttach l) s = .next t ∧ t.laneState l = lDebug ∧ t.get HDBG_STAT_0 = l.val ∧
      t.get DEBUG_attached = 1 ∧ t.get SYS_debug = 1 ∧ t.get LM_STATE_16 = 1 ∧ t.get SO_STATE_0 = 0 ∧
      (s.laneState l = lActive → t.get ASSAY_voters = clrBit (s.get ASSAY_voters) l.val % 8 ∧ t.get (LM_CAUSE_0 l.val) = 9) ∧
      (s.laneState l = lIsolated → t.get (LM_CAUSE_0 l.val) = s.get (LM_CAUSE_0 l.val)) ∧ (s.laneState l = lIsolated → ∀ p, (t.pr l p).halted = true ∧ (t.pr l p).haltWhy = 6 ∧ (t.pr l p).pc = (s.pr l p).pc)) ∧
    (s.attachRefusal l ≠ 0 → ∃ t, exec (.debugAttach l) s = .next t ∧ t.get LM_DBG_4 = 1 ∧ t.get HDBG_STAT_4 = s.attachRefusal l ∧
      (∀ m, t.laneState m = s.laneState m) ∧ s.keepsBut t [7, 9, 0x0A, 0x65])) ∧
  (∀ (l : Fin 3) (rest : List (Fin 3)) (s : State), s.lanesIn lDebug = l :: rest → ∀ c, c = .debugDetach ∨ c = .debugLinkLoss →
    ∃ t, exec c s = .next t ∧ t.laneState l = lBoot ∧ t.mgr.detach = some l ∧ t.get DEBUG_attached = 0 ∧ t.get SYS_debug = 0 ∧ t.get HDBG_STAT_0 = 3 ∧
      (t.ln l).mem = (s.ln l).mem ∧ (t.ln l).mpairrun = 1 ∧ ∀ m, m ≠ l → t.laneState m = s.laneState m) ∧
  (∀ s : State, s.lanesIn lDebug = [] → exec .debugDetach s = .next s ∧ exec .debugLinkLoss s = .next s) ∧
  (∀ (l : Fin 3) (s : State), s.mgr.detach = some l → s.laneState l = lBoot → ∀ c, (∃ b, c = .detachBootEnd b) ∨ c = .detachBootTimeout →
    ∃ t, exec c s = .next t ∧ t.laneState l = lIsolated ∧ t.get (LM_CAUSE_0 l.val) = 10 ∧ t.mgr.detach = none ∧ ∀ m, m ≠ l → t.laneState m = s.laneState m)

/-- R128, R129. -/
def Obligations.DebugOfAHaltedPair : Prop :=
  ∀ (l : Fin 3) (p : Fin 4) (s : State), let q := s.pr l p
  (s.laneState l = lDebug →
    (q.halted = false → exec (.dbgHalt l p) s = .next (s.updP l p fun q => { q with halted := true, haltWhy := 1 })) ∧
    exec (.dbgResume l p) s = .next (s.updP l p fun q => { q with halted := false, haltWhy := 0, stepping := false }) ∧
    exec (.dbgStep l p) s = .next (s.updP l p fun q => { q with halted := false, haltWhy := 0, stepping := true }) ∧
    (q.halted = false → q.bpHit = true → exec (.breakpointHit l p) s = .next (s.updP l p fun q => { q with halted := true, haltWhy := 2, stepping := false })) ∧
    (∀ a n w, q.halted = false → q.wpHit a n w = true →
      exec (.watchpointHit l p a n w) s = .next (s.updP l p fun q => { q with halted := true, haltWhy := 3, stepping := false })) ∧
    (∀ hi : Nat, q.halted = true → ∃ t, exec (.dbgRegdataWrite l p hi) s = .next t ∧
      let x := BitVec.ofNat 64 (SMap.get q.dbg 0x050 0 + hi % 2 ^ 32 * 2 ^ 32); let r := SMap.get q.dbg 0x048 0
      (∀ i : Fin 32, r = i.val → (t.pr l p).rg i = (if i = 0 then 0 else x) ∧ (t.pr l p).v = q.v ∧ (t.pr l p).pc = q.pc ∧ (t.pr l p).digest = q.digest) ∧
      (∀ i : Fin 32, r = 32 + i.val → (t.pr l p).rv i = x ∧ (t.pr l p).g = q.g ∧ (t.pr l p).pc = q.pc) ∧
      (r = 64 → (t.pr l p).pc = x ∧ (t.pr l p).g = q.g ∧ (t.pr l p).v = q.v) ∧
      (65 ≤ r → t = s.srWrite l p (r - 0x200) (SMap.get q.dbg 0x050 0 + hi % 2 ^ 32 * 2 ^ 32)) ∧ s.keepsBut t [] ∧ t.hub = s.hub)) ∧
  (s.laneState l ≠ lDebug → ∀ (v a n : Nat) (w : Bool), exec (.dbgHalt l p) s = .next s ∧ exec (.dbgResume l p) s = .next s ∧ exec (.dbgStep l p) s = .next s ∧
    exec (.dbgRegdataWrite l p v) s = .next s ∧ exec (.breakpointHit l p) s = .next s ∧ exec (.watchpointHit l p a n w) s = .next s)

/-- R133 to R137, R141, R144, R150. -/
def Obligations.StampsAndReleases : Prop :=
  (∀ (p : Fin 4) (s : State), s.flag (COUR_PAIRSTAT_13 p.val) = true → s.flag COURIER_suspended = false → let c := s.cr p
    ((c.waiting ≠ 0 ∨ c.refused ≠ []) → c.out.length < 256 →
      let take := (bitList 1280 c.waiting).take 16
      let st : Stamp := { num := c.num, due := s.courH p + s.get COUR_LEAD_0, srcs := take.map fun n => (n, (s.route n).2.2), faults := c.refused }
      ∃ t, exec (.stampFormation p) s = .next t ∧ (t.cr p).waiting = take.foldl clrBit c.waiting ∧ (t.cr p).refused = [] ∧ (t.cr p).num = (c.num + 1) % 256 ∧
        (t.cr p).out.map (·.st) = c.out.map (·.st) ++ [st] ∧ (t.cr p).flits = c.flits ++ s.listeners.map (fun l => (l, st)) ∧
        t.get64 (COUR_LASTD_LO_0 p.val) (COUR_LASTD_HI_0 p.val) = st.due % 2 ^ 64 ∧ t.lanes = s.lanes ∧ t.hub = s.hub ∧
        (∀ r, r ≠ p → t.cr r = s.cr r) ∧ ∀ g : Fld, g.pageOf ≠ 0x0A → t.get g = s.get g) ∧
    (256 ≤ c.out.length → ∃ t, exec (.stampFormation p) s = .next t ∧ (t.cr p).out = c.out ∧ (t.cr p).flits = c.flits) ∧
    (c.waiting = 0 → c.refused = [] → exec (.stampFormation p) s = .next s)) ∧
  (∀ (l : Fin 3) (p : Fin 4) (n : Nat) (s : State),
    (∀ x, (s.cr p).flits.find? (fun x => x.1 = l && x.2.num = n) = some x → ∃ t, exec (.stampArrivalAtLane l p n) s = .next t ∧
      (t.pr l p).stamps = (s.pr l p).stamps ++ (if (s.pr l p).cev 0 < x.2.due then [x.2] else []) ∧
      (t.cr p).flits = dropFirst (fun y => y.1 = l && y.2.num = n) (s.cr p).flits ∧ (t.pr l p).pend = (s.pr l p).pend ∧ s.keepsBut t []) ∧
    (∀ x, (s.cr p).flits.find? (fun x => x.1 = l && x.2.num = n) = none → (s.cr p).rels.find? (fun x => x.1 = l && x.2.2.1 = n) = some x →
      ∃ t, exec (.stampArrivalAtLane l p n) s = .next t ∧ (t.pr l p).release = some x.2 ∧
        (t.cr p).rels = dropFirst (fun y => y.1 = l && y.2.2.1 = n) (s.cr p).rels ∧ s.keepsBut t [])) ∧
  ∀ (l : Fin 3) (p : Fin 4) (d : Nat) (s : State),
    (s.voters.length = 3 → ∃ t, exec (.stampLateFlit l p d) s = .next t ∧ t.laneState l = lIsolated ∧ t.get (LM_CAUSE_0 l.val) = 1 ∧
      t.get ASSAY_voters = clrBit (s.get ASSAY_voters) l.val % 8 ∧ t.get COURIER_late_count = min (s.get COURIER_late_count + 1) (2 ^ COURIER_late_count.w - 1)) ∧
    (s.laneState l = lApprentice → s.get LM_REJ_STAT_0 = 4 → ∃ t, exec (.stampLateFlit l p d) s = .next t ∧ t.laneState l = lIsolated ∧
      t.get (LM_CAUSE_0 l.val) = 8 ∧ t.get (LM_CAUSE_8 l.val) = 4 ∧ t.rejoinLane = none)

/-- R20 to R24, R93, R96. -/
def Obligations.AssayVotesOnWrites : Prop :=
  (∀ (l : Fin 3) (r : Rec) (s : State), r.kind ≠ .read → s.linkHeard l r = true → 2 ≤ s.voters.length → let p := r.pair
    (s.wEnt p r.seq = none → s.occW p < 64 → (∀ e ∈ s.assay.writes, e.pair = p → e.released.isSome = true) →
      ∃ t e, exec (.writeRecordArrival l r) s = .next t ∧ t.assay.writes = s.assay.writes ++ [e] ∧ e.pair = p ∧ e.seq = r.seq ∧ e.recs = [(l, r)] ∧
        e.released = none ∧ t.hub = s.hub ∧ ∀ g : Fld, g.pageOf ≠ 8 → t.get g = s.get g) ∧
    (s.wEnt p r.seq = none → 64 ≤ s.occW p → ∃ t, exec (.writeRecordArrival l r) s = .next t ∧ t.assay.writes = s.assay.writes ∧
      t.assay.heldRecs = s.assay.heldRecs ++ [(l, r)] ∧ t.get (ASSAY_HOLDS_0 p.val) = min (s.get (ASSAY_HOLDS_0 p.val) + 1) (2 ^ (ASSAY_HOLDS_0 p.val).w - 1)) ∧
    ∀ e m, s.wEnt p r.seq = some e → (s.assay.writes.filter fun e => e.pair = p && e.released.isNone) = [e] → m ∈ s.voters → l ∈ s.voters → l ≠ m →
      s.rEnt p r.seq true = none → s.passive = false → s.get ASSAY_SKEW_16 = 0 →
      (e.recs = [(m, r)] → r.kind = .write → s.creditFree (recAcc r) = true → 0x50400000 ≤ r.addr → r.addr + r.len ≤ 0x51000000 → s.power = .run →
        s.sramRefusal (recAcc r) (r.addr - 0x50000000) r.len 1 = none → let off := r.addr - 0x50000000
        ∃ t e', exec (.writeRecordArrival l r) s = .next t ∧ t.hubRead off r.len = leBytes r.len r.data ∧ t.wEnt p r.seq = some e' ∧ e'.released = some r ∧
          e'.complete = true ∧ e'.recs = [(m, r), (l, r)] ∧ t.memctl.flight.length = s.memctl.flight.length + 1 ∧
          (r.level ≠ 0 → ∀ x, x < off ∨ off + r.len ≤ x → SMap.get t.hub x 0 = SMap.get s.hub x 0)) ∧
      (∀ r', e.recs = [(m, r')] → r' ≠ r → s.voters.length = 2 → ∃ t e', exec (.writeRecordArrival l r) s = .next t ∧ t.passive = true ∧ t.aoCause = 6 ∧
        t.wEnt p r.seq = some e' ∧ e'.released = none)) ∧
  (∀ (l m k : Fin 3) (r r0 : Rec) (e : WEnt) (s : State), r.kind ≠ .read → s.linkHeard l r = true → s.voters.length = 3 → l ≠ m → l ≠ k → m ≠ k →
    s.wEnt r.pair r.seq = some e → e.recs = [(m, r0), (k, r0)] → e.released = some r0 → r ≠ r0 → (∀ e ∈ s.assay.writes, e.pair = r.pair → e.released.isSome = true) →
    ∃ t, exec (.writeRecordArrival l r) s = .next t ∧ t.laneState l = lIsolated ∧ t.get ASSAY_voters = clrBit (s.get ASSAY_voters) l.val % 8 ∧
      t.get (LM_CAUSE_0 l.val) = 1) ∧
  ∀ (p : Fin 4) (n : Nat) (s : State), s.assay.heldRecs = [] →
    (∀ e ∈ s.assay.writes, e.pair = p → e.seq = n → s.wDone e = true) → ∃ t, exec (.bufferEntryFreed .write p n) s = .next t ∧
      t = s.updA fun a => { a with writes := a.writes.filter fun e => !(e.pair = p && e.seq = n) }

/-- R25 to R27, R80, R90 to R92, R95, R134. -/
def Obligations.AssayReadsAndCheckpoints : Prop :=
  (∀ (l : Fin 3) (r : Rec) (s : State), r.kind = .read → s.linkHeard l r = true → l ∈ s.voters → 2 ≤ s.voters.length → s.rEnt r.pair r.seq false = none → s.occR r.pair < 64 →
    ∃ t e, exec (.readRecordArrival l r) s = .next t ∧ t.assay.reads = s.assay.reads ++ [e] ∧ e.first = some { r with data := 0, cmp := 0 } ∧ e.capt = none ∧
      t.hub = s.hub ∧ t.pr l r.pair = s.pr l r.pair ∧ ∀ g : Fld, g.pageOf ≠ 8 → t.get g = s.get g) ∧
  (∀ (p : Fin 4) (n : Nat) (e : REnt) (r : Rec) (s : State), s.rEnt p n false = some e → e.first = some r → r.pair = p → e.capt = none → s.captureOpen p n = true →
    s.creditFree (recAcc r) = true → s.power = .run → 0x50000000 ≤ r.addr → r.addr + r.len ≤ 0x51000000 → s.sramRefusal (recAcc r) (r.addr - 0x50000000) r.len 0 = none →
    r.level ≠ 0 → ∃ t e', exec (.readCapture p n) s = .next t ∧ t.rEnt p n false = some e' ∧ e'.capt = some (.value (s.hubNat (r.addr - 0x50000000) r.len)) ∧
      e'.recs = e.recs ∧ exec (.readCapture p n) t = .next t) ∧
  (∀ (l : Fin 3) (p : Fin 4) (c : Ckpt) (s : State), l ∈ s.voters → p.val < s.nPairs → (∀ m, (s.assay.high.get m).get p ≤ c.count) →
    (2 ≤ s.voters.length → s.assay.ckpts.filter (fun e => e.pair = p) = [] → ∃ t e, exec (.checkpointArrival l p c) s = .next t ∧
      t.assay.ckpts = s.assay.ckpts ++ [e] ∧ e.count = c.count ∧ e.reps = [(l, c)] ∧ t.courH p = max (s.courH p) c.count % 2 ^ 64 ∧ t.hub = s.hub) ∧
    ∀ m c' e, s.voters.length = 2 → m ∈ s.voters → m ≠ l → s.assay.ckpts.filter (fun e => e.pair = p) = [e] → e.pair = p → e.count = c.count → e.reps = [(m, c')] →
      c.pace = none → c'.pace = none → (s.assay.last.get p).1 ≤ c.count →
      (c'.digest = c.digest → ∃ t, exec (.checkpointArrival l p c) s = .next t ∧ t.assay.last.get p = (c.count, c.digest.toNat) ∧ t.get ASSAY_voters = s.get ASSAY_voters) ∧
      (c'.digest ≠ c.digest → s.passive = false → ∃ t, exec (.checkpointArrival l p c) s = .next t ∧ t.passive = true ∧ t.aoCause = 6)) ∧
  ∀ (p : Fin 4) (n : Nat) (s : State), s.mgr.hold = none →
    (∀ (e : WEnt) (l m k : Fin 3) (r : Rec), s.wEnt p n = some e → e.app = false → e.recs = [(m, r), (k, r)] → e.released = some r → s.voters.length = 3 →
      l ≠ m → l ≠ k → m ≠ k → (∀ e ∈ s.assay.writes, e.pair = p → e.released.isSome = true) →
      ∃ t, exec (.skewLimitExpiry .write p n) s = .next t ∧ t.laneState l = lIsolated ∧ t.get ASSAY_voters = clrBit (s.get ASSAY_voters) l.val % 8) ∧
    (∀ (e : WEnt) (m : Fin 3) (r : Rec), s.wEnt p n = some e → e.app = false → e.recs = [(m, r)] → e.released = none → s.voters.length = 2 → m ∈ s.voters →
      s.passive = false → ∃ t, exec (.skewLimitExpiry .write p n) s = .next t ∧ t.passive = true ∧ t.aoCause = 7) ∧
    (s.wEnt p n = none → exec (.skewLimitExpiry .write p n) s = .next s) ∧ (s.rEnt p n false = none → exec (.skewLimitExpiry .read p n) s = .next s) ∧
    (s.cEnt p n = none → exec (.skewLimitExpiry .ckpt p n) s = .next s)

/-- R36, R37, R38. -/
def Obligations.HubFaultsMakeTheModulePassive : Prop :=
  ∀ (s : State),
    let falls := fun (c : Instr) (cause : Nat) => ∃ t, exec c s = .next t ∧ t.latch = Tri.all true ∧ t.aoCause = cause ∧ t.get SO_STATE_0 = 0 ∧
      t.get ASSAY_mode = 0 ∧ t.get PORTER_STATE_8 = 0 ∧ (∀ n < 16, t.get (CAN_state n) ≠ 2) ∧ (∀ l, t.laneState l = s.laneState l) ∧ t.get ASSAY_voters = s.get ASSAY_voters
    (s.passive = false → falls (.hubFaultDetected .copies) 1 ∧ falls (.hubFaultDetected .e2eCrc) 2 ∧ falls (.hubFaultDetected .bankNotReady) 9 ∧
      falls (.hubFaultDetected .safeMsgUnits) 10 ∧ ∀ f d, 2000 < d → falls (.hubClockDeviation f d) 4) ∧
    (s.passive = true → (∀ k, exec (.hubFaultDetected k) s = .next s) ∧ ∀ f d, ∃ t, exec (.hubClockDeviation f d) s = .next t ∧ t.latch = s.latch ∧ t.aoCause = s.aoCause) ∧
    ∀ d, d ≤ 1000 → exec (.hubClockDeviation true d) s = .next (s.raiseTo CLK_MON_0 d) ∧ exec (.hubClockDeviation false d) s = .next s

/-- R188, R189, R191 to R193. -/
def Obligations.EpochsCreditsAndSoftwareSources : Prop :=
  (∀ (a : Acc) (s : State), s.reaches a 0x0F 0x044 →
    (∀ q t u c, s.queueConflict = some (q, t, u, c) → ∃ z, exec (.epochCommit a) s = .next z ∧ z.get MEMCTL_EPOCH_STAT_0 = 1 ∧
      z.get MEMCTL_EPOCH_STAT_1 = q % 2 ^ MEMCTL_EPOCH_STAT_1.w ∧ z.get MEMCTL_EPOCH_STAT_11 = t % 32 ∧ z.get MEMCTL_EPOCH_STAT_16 = u % 32 ∧
      z.get MEMCTL_EPOCH_STAT_21 = b2n c ∧ z.get MEMCTL_EPOCH_0 = s.get MEMCTL_EPOCH_0 ∧ s.keepsBut z [7, 0x0A, 0x0F]) ∧
    (s.queueConflict = none → ∃ z, exec (.epochCommit a) s = .next z ∧ z.get MEMCTL_EPOCH_0 = (s.get MEMCTL_EPOCH_0 + 1) % 2 ^ MEMCTL_EPOCH_0.w ∧
      z.get MEMCTL_EPOCH_STAT_0 = 0 ∧
      ∀ t < 32, z.get (TEN_active_en t) = s.get (TEN_ctl_en t) % 2 ∧
        (∀ w < 16, z.get (TEN_AWIN_BASE_0 t w) = s.get (TEN_WIN_BASE_0 t w) % 2 ^ (TEN_AWIN_BASE_0 t w).w ∧
          z.get (TEN_AWIN_LIMIT_0 t w) = s.get (TEN_WIN_LIMIT_0 t w) % 2 ^ (TEN_AWIN_LIMIT_0 t w).w) ∧
        ∀ k < 32, z.get (TEN_AQUEUE_0 t k) = s.get (TEN_QUEUE_0 t k) % 2 ^ (TEN_AQUEUE_0 t k).w ∧ z.get (TEN_AQUEUE_12 t k) = s.get (TEN_QUEUE_12 t k) % 2 ∧
          z.get (TEN_AQUEUE_13 t k) = s.get (TEN_QUEUE_13 t k) % 2)) ∧
  (∀ s : State, (s.get MEMCTL_EPOCH_16 = 0 → (∀ f ∈ s.memctl.flight, f.epoch = s.get MEMCTL_EPOCH_0) → ∃ z, exec .epochDrained s = .next z ∧
      z.get MEMCTL_EPOCH_16 = 1 ∧ bitOf (z.get (rawOf 0x0F)) 0 = true ∧ z.get MEMCTL_OLD_0 = 0 ∧ s.keepsBut z [0x0A, 0x0F]) ∧
    (s.get MEMCTL_EPOCH_16 ≠ 0 → exec .epochDrained s = .next (s.flightShow 32))) ∧
  (∀ (a : Acc) (t : Fin 32) (v : Nat) (s : State), s.opens a (0x10 + t.val) 0x060 → ∃ z, exec (.tenSoftWrite a t v) s = .next z ∧ z.hub = s.hub ∧
    (bitOf v 0 = false → bitOf v 1 = false → z = s.noteAccess a) ∧
    ∀ k < 2, bitOf v k = true → let n := 1216 + 2 * t.val + k; (s.route n).2.1 = true → bitOf (s.get LM_PAIRSTOP_0) (pairIx (s.route n).1).val = false →
      bitOf (z.cr (pairIx (s.route n).1)).waiting n = true) ∧
  ∀ (t : Nat) (s : State), ((s.memctl.flight.any fun f => f.owner = t && f.done) = false → exec (.tenantCreditReturned t) s = .next s) ∧
    ((s.memctl.flight.any fun f => f.owner = t && f.done) = true → (∀ e ∈ s.assay.writes, e.released.isSome = true) → (∀ e ∈ s.assay.reads, e.held = false) →
      exec (.tenantCreditReturned t) s =
        .next ((s.updMc fun m => { m with flight := dropFirst (fun f => f.owner = t && f.done) m.flight }).flightShow t))

/-- R199, R200, R37. -/
def Obligations.HubSramBanksAndFill : Prop :=
  (∀ (a : Acc) (s : State), s.reaches a 0x0F 0x080 → let base := s.get MEMCTL_FILL_BASE_0; let len := s.get MEMCTL_FILL_LEN_0
    let part := (List.range 16).any fun b => fillTouches base len b && !fillCovers base len b && s.bank b != 2
    (s.flag MEMCTL_fill_busy = true → exec (.memctlFillStart a) s = .next (s.fillRefuse 3)) ∧
    (s.flag MEMCTL_fill_busy = false → 0x3F000 < base + len → exec (.memctlFillStart a) s = .next (s.fillRefuse 1)) ∧
    (s.flag MEMCTL_fill_busy = false → base + len ≤ 0x3F000 → part = true → exec (.memctlFillStart a) s = .next (s.fillRefuse 2)) ∧
    (s.flag MEMCTL_fill_busy = false → base + len ≤ 0x3F000 → part = false → ∃ z, exec (.memctlFillStart a) s = .next z ∧ z.flag MEMCTL_fill_busy = true ∧
      z.get MEMCTL_FILL_STAT_0 = 1 ∧ z.memctl.fill = (base, len, s.get64 MEMCTL_FILL_PAT_LO_0 MEMCTL_FILL_PAT_HI_0) ∧ z.hub = s.hub ∧
      ∀ g : Fld, g.pageOf ≠ 0x0F → z.get g = s.get g)) ∧
  (∀ s : State, s.flag MEMCTL_fill_busy = true → ∃ z, exec .fillComplete s = .next z ∧ z.flag MEMCTL_fill_busy = false ∧ z.get MEMCTL_FILL_STAT_0 = 2 ∧
    (∀ x, SMap.get z.hub x 0 = if s.memctl.fill.1 * 64 ≤ x ∧ x < s.memctl.fill.1 * 64 + s.memctl.fill.2.1 * 64 then
      BitVec.ofNat 8 (s.memctl.fill.2.2 / 2 ^ (8 * (x % 8))) else SMap.get s.hub x 0) ∧
    ∀ b < 16, z.bank b = if fillCovers s.memctl.fill.1 s.memctl.fill.2.1 b = true then 2 else s.bank b) ∧
  (∀ s : State, s.flag MEMCTL_fill_busy = false → exec .fillComplete s = .next s) ∧
  (∀ (b : Fin 16) (s : State), (s.memctl.waking.contains b.val = true → ∃ z, exec (.bankReady b) s = .next z ∧ z.bank b.val = 2 ∧
      (∀ c < 16, c ≠ b.val → z.bank c = s.bank c) ∧ z.memctl.waking.contains b.val = false ∧ z.hub = s.hub) ∧
    (s.memctl.waking.contains b.val = false → exec (.bankReady b) s = .next s)) ∧
  ∀ (l : List Nat) (s : State), s.passive = false → (∀ o ∈ l, o < 0x1000000 ∧ s.bank (o / 0x100000) = 2) →
    ∃ z, exec (.hubSramScrub l) s = .next z ∧ z.memctl.scrubbed = l.map (fun o => o / 8 * 8) ∧
      ((∃ o ∈ l, o / 8 * 8 ∈ s.memctl.scrubbed) → z.passive = true ∧ z.aoCause = 3) ∧
      ((∀ o ∈ l, o / 8 * 8 ∉ s.memctl.scrubbed) → z.passive = false ∧ z.hub = s.hub)

/-- R154, R157, R159, R160, R162, R170, R172. -/
def Obligations.CycleUnitCommands : Prop :=
  (∀ (a : Acc) (v : Nat) (s : State), s.reaches a 0x0B 0x00C →
    (bitOf v 0 = false ∨ s.flag CYCLE_running = true ∨ s.flag SYS_svc_only = true → exec (.cycleRunWrite a v) s = .next s) ∧
    (bitOf v 0 = true → s.flag CYCLE_running = false → s.flag SYS_svc_only = false → ∃ t, exec (.cycleRunWrite a v) s = .next t ∧ t.flag CYCLE_running = true ∧
      t.flag CYCLE_run = true ∧ t.cyc.next = s.now / s.baseNs + 1 ∧ t.cyc.restart = 0 ∧ (∀ j, (t.cls j).begun = false))) ∧
  (∀ (a : Acc) (s : State), s.reaches a 0x0B 0x044 → exec (.cycRestartWarm a) s = .next (s.updCyc fun c => { c with restart := max c.restart 1 }) ∧
    exec (.cycRestartCold a) s = .next (s.updCyc fun c => { c with restart := max c.restart 2 })) ∧
  (∀ (a : Acc) (j : Fin 8) (v : Nat) (s : State), s.opens a 0x0B (0x100 + 4 * j.val) → ∃ t, exec (.cycDoneWrite a j v) s = .next t ∧
    t.get (CYC_DSTAT_0 j.val) = (s.get (CYC_DSTAT_0 j.val) ||| v % 2 ^ 32) % 2 ^ 32 ∧ (∀ g : Fld, g.key ≠ (CYC_DSTAT_0 j.val).key → t.get g = s.get g) ∧
    t.hub = s.hub ∧ t.lanes = s.lanes) ∧
  (∀ (j : Fin 8) (s : State), let open_ := s.power = .run ∧ s.flag CYCLE_running = true ∧ s.flag (CYC_CFG_21 j.val) = true ∧ (s.cls j.val).begun = true ∧ (s.cls j.val).checked = false
    (¬ open_ → exec (.guardStart j) s = .next s) ∧
    (open_ → s.classComplete j.val = true → ∃ t, exec (.guardStart j) s = .next t ∧ (t.cls j.val).checked = true ∧ (t.cls j.val).overran = false ∧
      (s.flag (CYC_OVSTAT_8 j.val) = false → (t.cls j.val).late = true) ∧ exec (.guardStart j) t = .next t) ∧
    (open_ → s.classComplete j.val = false → ∃ t, exec (.guardStart j) s = .next t ∧ (t.cls j.val).checked = true ∧ (t.cls j.val).overran = true ∧
      (t.cls j.val).late = (s.cls j.val).late ∧ t.get CYC_STALL_CLS_0 = j.val ∧ t.get CYC_STALL_CLS_31 = 1 ∧
      t.get CYC_STALL_T_0 = ((s.cls j.val).tmask &&& (0xFFFFFFFF - s.get (CYC_DSTAT_0 j.val) % 2 ^ 32)) % 2 ^ 32 ∧ exec (.guardStart j) t = .next t)) ∧
  ∀ s : State, (s.power ≠ .run ∨ s.flag CYCLE_running = false) → exec .baseBoundary s = .next s

/-- R152, R153, R154, R160, R161. -/
def Obligations.BaseBoundary : Prop :=
  (∀ s : State, s.power = .run → s.flag CYCLE_running = true → s.enabledClasses = [] → s.pw.runDue = false → s.pw.stabDue = false → s.cyc.restart = 0 →
    s.isF = false → s.linksLive = false → s.img.vars = [] → s.so.staged = [] → (∀ i, s.islandPresent i = true → s.get (FIO_state i) < 2) →
    ∃ t, exec .baseBoundary s = .next t ∧ t.get64 CYC_BNUM_LO_0 CYC_BNUM_HI_0 = s.cyc.next % 2 ^ 64 ∧ t.cyc.next = s.cyc.next + 1 ∧ t.cyc.realign = false ∧ t.hub = s.hub ∧
      t.lanes = s.lanes) ∧
  (∀ s : State, s.power = .run → s.flag CYCLE_running = true → let n := s.cyc.next; let t := n * s.baseNs
    let ending := s.enabledClasses.filter fun j => s.endsAt n j
    exec .baseBoundary s = .next ((((((s.each (ending.filter fun j => !(s.cls j).checked) fun s j => s.guardAt j t).bnumTake n).boundarySteps n t ending).updLk
      fun k => { k with startup := false }).realignSeen).boundaryTail)) ∧
  ∀ (j : Fin 8) (n t : Nat) (s : State), let m := s.get (CYC_CFG_0 j.val)
    (0 < m → (s.onClass j.val n = true ↔ n % m = s.get (CYC_CFG_11 j.val))) ∧
    (s.endsAt n j.val = true ↔ (s.cls j.val).begun = true ∧ (s.onClass j.val n = true ∨ s.cyc.realign = true)) ∧
    ((s.cls j.val).begun = true → (s.beginsAt n j.val = true ↔ s.onClass j.val n = true ∧ (s.cls j.val).overran = false)) ∧
    (let z := s.sampleEdge t j.val
     z.get (CYC_DSTAT_0 j.val) = 0 ∧ z.get (CYC_CYCNT_0 j.val) = (s.get (CYC_CYCNT_0 j.val) + 1) % 2 ^ 32 ∧ (z.cls j.val).begun = true ∧ (z.cls j.val).checked = false ∧
     (z.cls j.val).tmask = s.get (CYC_TMASK_0 j.val) ∧ (z.cls j.val).guard = s.get (CYC_GUARD_0 j.val)) ∧
    ((s.cls j.val).overran = false → s.flag (CYC_OVSTAT_8 j.val) = false → let z := s.classEnd t j.val
     z.get (CYC_OVSTAT_0 j.val) = 0 ∧ z.get (CYC_OVSTAT_8 j.val) = s.get (CYC_OVSTAT_8 j.val) ∧ (z.cls j.val).late = false) ∧
    ((s.cls j.val).overran = true → s.get (CYC_OVSTAT_0 j.val) + 1 < s.get (CYC_ESC_0 j.val) → let z := s.classEnd t j.val
     z.get (CYC_OVSTAT_8 j.val) = 1 ∧ (z.cls j.val).late = true ∧ z.get (CYC_OVSTAT_0 j.val) = min (s.get (CYC_OVSTAT_0 j.val) + 1) 255 ∧
     z.get (CYC_OVCNT_0 j.val) = min (s.get (CYC_OVCNT_0 j.val) + 1) (2 ^ 32 - 1) ∧ bitOf (z.get (rawOf 0x0B)) 0 = true)

/-- R163, R166, R167. -/
def Obligations.DataImageWrites : Prop :=
  ∀ (d : Desc) (bytes : List Byte) (s : State), s.var d.v = some d → d.kind < 2 → d.merge = 0 → bytes.length = d.size → 0 < d.size →
    let late := s.isLate d
    (∀ id stamp, s.img.vars.find? (fun e => e.val = d.val) = some d → s.flag SAFEMSG_loaded = false →
      (late = false → id = d.owner → ∃ t, exec (.dataImageWrite (.unit id stamp) d.val bytes) s = .next t ∧ t.hubRead d.stg d.size = bytes ∧
        t.hubRead d.val d.size = s.hubRead d.val d.size ∧ SMap.find? t.img.stage d.v = some { writer := id, wtime := stamp, vtime := some stamp, fb := false } ∧
        (∀ x, x < d.off ∨ d.stg + d.size ≤ x → SMap.get t.hub x 0 = SMap.get s.hub x 0) ∧ ∀ g : Fld, g.pageOf ≠ 0x0C → t.get g = s.get g) ∧
      (late = true → ∃ t, exec (.dataImageWrite (.unit id stamp) d.val bytes) s = .next t ∧ t.hubRead d.val (2 * d.size) = s.hubRead d.val (2 * d.size) ∧
        t.img = s.img ∧ bitOf (t.hdr d) 5 = true ∧ t.get DIMG_LATE_0 = min (s.get DIMG_LATE_0 + 1) (2 ^ 32 - 1) ∧ t.get DIMG_LATE_LAST_0 = d.v % 2 ^ 16) ∧
      (late = false → id ≠ d.owner → ∃ t, exec (.dataImageWrite (.unit id stamp) d.val bytes) s = .next t ∧ t.img = s.img ∧
        t.get DIMG_reject_count = min (s.get DIMG_reject_count + 1) 0xFFFF ∧ t.get DIMG_REJ_LAST_0 = d.v % 2 ^ 16 ∧ t.get DIMG_REJ_LAST_16 = id % 2 ^ 16)) ∧
    ∀ a : Acc, late = false → a.tenant.val = d.owner → s.sramRefusal a d.val d.size 1 = none → 0x102000 ≤ d.off → d.val + d.size ≤ 0x400000 →
      s.touched d.val d.size = [d] → ∃ t, exec (.dataImageWrite (.lane a) d.val bytes) s = .next t ∧ t.hubRead d.stg d.size = bytes ∧
        t.hubRead d.val d.size = s.hubRead d.val d.size ∧ SMap.find? t.img.stage d.v = some { writer := d.owner, wtime := s.now, vtime := none, fb := false } ∧ t.cour = s.cour

/-- R164, R173, R174, R513. -/
def Obligations.TableLockAndPatchList : Prop :=
  (∀ (a : Acc) (s : State), s.reaches a 0x0C 0x040 → (s.get DIMG_table = 1 → exec (.dimgLock a) s = .next s) ∧
    (s.get DIMG_table ≠ 1 → match s.lockScan.bad with
      | some (v, r) => ∃ t, exec (.dimgLock a) s = .next t ∧ t.get DIMG_table = 2 ∧ t.get DIMG_LOCK_STAT_0 = v % 2 ^ 16 ∧ t.get DIMG_LOCK_STAT_16 = r % 16 ∧
          t.flag SYS_svc_only = true ∧ t.get SO_STATE_0 = 0 ∧ t.img = s.img
      | none => exec (.dimgLock a) s = .next (s.lockTake s.lockScan).sectionsTake ∧ (s.lockTake s.lockScan).get DIMG_table = 1 ∧
          (s.get CYC_START_0 = 2 → (s.lockTake s.lockScan).img.vars = s.lockScan.acc.reverse ∧
            (s.lockTake s.lockScan).get DIMG_NVAR_0 = s.lockScan.acc.length % 2 ^ 17 ∧ (s.lockTake s.lockScan).hub = s.hub))) ∧
  ∀ (a : Acc) (s : State), s.reaches a 0x0C 0x074 → let n := s.get DIMG_PATCH_CTL_0; let j := s.get DIMG_PATCH_CTL_12
    (s.img.patch.isSome = true → exec (.dimgPatchArm a) s = .next s ∧
      ∃ t, exec (.dimgPatchCancel a) s = .next t ∧ t.img.patch = none ∧ t.get DIMG_PATCH_STAT_0 = 0 ∧ t.get DIMG_PATCH_STAT_12 = 5 ∧ t.hub = s.hub) ∧
    (s.img.patch = none → exec (.dimgPatchCancel a) s = .next s ∧
      (∀ e, (List.range n).find? (fun e => s.patchRefusal e ≠ 0) = some e → ∃ t, exec (.dimgPatchArm a) s = .next t ∧ t.img.patch = none ∧
        t.get DIMG_PATCH_STAT_0 = 3 ∧ t.get DIMG_PATCH_STAT_4 = e % 256 ∧ t.get DIMG_PATCH_STAT_12 = s.patchRefusal e % 16) ∧
      ((∀ e < n, s.patchRefusal e = 0) → ∃ t, exec (.dimgPatchArm a) s = .next t ∧ t.img.patch = some (n, j) ∧ t.get DIMG_PATCH_STAT_0 = 1 ∧ t.hub = s.hub ∧
        ∀ g : Fld, g.pageOf ≠ 0x0C → t.get g = s.get g))

/-- R211 to R214, R216. -/
def Obligations.QueuePushes : Prop :=
  (∀ (a : Acc) (k : Option (Fin 4)) (v : Nat) (s : State), let off := match k with | none => 0x044 | some j => 0x048 + 4 * j.val
    let cmd : Instr := match k with | none => .qmgrPush a v | some j => .qmgrPushLast a j v
    let kk := match k with | none => 0 | some j => j.val + 1
    let w := match k with | none => v % 2 ^ 32 | some j => v % 2 ^ (8 * (j.val + 1))
    s.reaches a 0x0E off → let n := s.qSel (copyOf a); let at0 := s.qAt n (s.q n).occ
    ((s.q n).enabled = false → exec cmd s = .next (s.storeFault a.pair a.seq (0x4000E000 + off))) ∧
    ((s.q n).enabled = true → (s.q n).hold = [] → s.qPkt n = false → s.qPacked n = false → (s.q n).occ < s.qW n → ∃ z, exec cmd s = .next z ∧
      z.q n = { s.q n with occ := (s.q n).occ + 1, vis := (s.q n).vis + 1 } ∧ (∀ m, m ≠ n → z.q m = s.q m) ∧ z.hubNat (s.qWord n at0) 4 = w ∧
      z.hubNat (s.qTag n at0) 1 = b2n (oddOnes w) + (if kk = 0 then 0 else 4 + 8 * kk) ∧
      (∀ x, (x < s.qWord n at0 ∨ s.qWord n at0 + 4 ≤ x) → x ≠ s.qTag n at0 → SMap.get z.hub x 0 = SMap.get s.hub x 0) ∧
      ∀ g : Fld, g.pageOf ≠ 0x0A → z.get g = s.get g) ∧
    ((s.q n).enabled = true → ((s.q n).hold ≠ [] ∨ s.qFits n = false) → ∃ z h, exec cmd s = .next z ∧ z.q n = { s.q n with hold := (s.q n).hold ++ [h] } ∧
      h.word = v ∧ h.k = kk ∧ (∀ m, m ≠ n → z.q m = s.q m) ∧ z.hub = s.hub ∧ (∀ e ∈ z.assay.writes, e.pair = a.pair → e.seq = a.seq → e.complete = false) ∧
      ∀ g : Fld, g.pageOf ≠ 0x0E → z.get g = s.get g)) ∧
  (∀ (a : Acc) (j : Fin 4) (v : Nat) (s : State), s.reaches a 0x0E (0x048 + 4 * j.val) → let n := s.qSel (copyOf a); let i := s.qAt n (s.q n).occ
    (s.q n).enabled = true → (s.q n).hold = [] → s.qPkt n = true → s.qPacked n = false → (s.q n).prog = none → 4 ≤ s.qMax n → 2 ≤ s.qFree n →
    ∃ z, exec (.qmgrPushLast a j v) s = .next z ∧
      z.hubNat (s.qWord n i) 4 = (j.val + 1 + 2 ^ 24 * s.get (QMGR_QSEL_16 (copyOf a))) % 2 ^ 32 ∧
      z.hubNat (s.qWord n (s.qAt n ((s.q n).occ + 1))) 4 = v % 2 ^ (8 * (j.val + 1)) ∧
      z.q n = { s.q n with occ := (s.q n).occ + 2, vis := (s.q n).occ + 2, pkts := (s.q n).pkts ++ [(s.q n).occ + 2 - (s.q n).vis] }) ∧
  (∀ (n : Nat) (h : QHeld) (r : List QHeld) (s : State), (s.q n).hold = h :: r →
    ((s.q n).enabled = false ∨ s.qFits n = false → exec (.heldPushComplete n) s = .next s) ∧
    ((s.q n).enabled = true → s.qPkt n = false → s.qPacked n = false → (s.q n).occ < s.qW n → ∃ z, exec (.heldPushComplete n) s = .next z ∧
      z.q n = { s.q n with hold := r, occ := (s.q n).occ + 1, vis := (s.q n).vis + 1 } ∧
      (∀ p seq o, h.src = some (p, seq, o) → ∀ e ∈ z.assay.writes, e.pair = p → e.seq = seq → e.complete = true))) ∧
  (∀ (n : Nat) (s : State), (s.q n).hold = [] → exec (.heldPushComplete n) s = .next s) ∧
  ∀ (a : Acc) (v : Nat) (s : State),
    let sel := fun (c : Nat) (z : State) => z.get (QMGR_QSEL_0 c) = v % 2 ^ (QMGR_QSEL_0 c).w ∧
      z.get (QMGR_QSEL_16 c) = v / 2 ^ 16 % 2 ^ (QMGR_QSEL_16 c).w ∧ (∀ i < 4, z.get (grpFld i c) = 0) ∧ z.get (QMGR_LASTTAG_0 c) = 0 ∧ z.get (QMGR_LASTTAG_5 c) = 0 ∧
      z.get (QMGR_LASTTAG_6 c) = 0 ∧ z.get (QMGR_LASTTAG_7 c) = 0 ∧ s.keepsBut z [0x0E] ∧ z.hub = s.hub
    (s.reaches a 0x0E 0x040 → ∃ z, exec (.qmgrQselWrite a v) s = .next z ∧ sel (copyOf a) z) ∧
    (s.reaches a 0x0E 0x080 → ∃ z, exec (.qmgrQselTWrite a v) s = .next z ∧ sel (a.pair.val * 3) z)

/-- R208, R217, R219, R222, R223. -/
def Obligations.QueuePopsAndCommands : Prop :=
  (∀ (a : Acc) (bad : Bool) (s : State), s.power = .run → a.level ≠ 0 → let n := s.qSel (copyOf a)
    let does := fun (z : State) (x : Ans) => s.readGives (.qmgrPop a bad) a 0x4000E058 z x
    ((s.q n).enabled = false → does s (.error 5)) ∧
    ((s.q n).enabled = true → (s.q n).claim = false → (s.q n).vis = 0 → ∃ z, does z (.value (s.q n).last) ∧ z.q n = { s.q n with sticky := true } ∧
      (∀ m, m ≠ n → z.q m = s.q m) ∧ z.hub = s.hub ∧ z.get QMGR_UNDERRUN_0 = min (s.get QMGR_UNDERRUN_0 + 1) (2 ^ QMGR_UNDERRUN_0.w - 1) ∧
      bitOf (z.get (rawOf 0x0E)) 2 = true ∧ z.get (QMGR_LASTTAG_6 (copyOf a)) = 1) ∧
    ((s.q n).enabled = true → (s.q n).claim = false → (s.q n).vis ≠ 0 → s.qPkt n = false → s.qPacked n = false → bad = false → (s.q n).pkts = [] →
      s.qParityBad n (s.qAt n 0) = false → ∃ z, does z (.value (s.hubNat (s.qWord n (s.qAt n 0)) 4)) ∧
      z.q n = { s.q n with head := ((s.q n).head + 1) % s.qW n, occ := (s.q n).occ - 1, vis := (s.q n).vis - 1, last := s.hubNat (s.qWord n (s.qAt n 0)) 4, bad := (s.q n).bad.filter fun i => i != s.qAt n 0 } ∧ (∀ m, m ≠ n → z.q m = s.q m) ∧ z.hub = s.hub ∧ z.get (QMGR_LASTTAG_6 (copyOf a)) = 0 ∧
      z.get (QMGR_LASTTAG_0 (copyOf a)) = s.hubNat (s.qTag n (s.qAt n 0)) 1 / 8 % 32 ∧ (∀ g : Fld, g.pageOf ≠ 0x0E → z.get g = s.get g))) ∧
  (∀ (a : Acc) (v : Nat) (s : State), s.reaches a 0x0E 0x074 → let n := s.qSel (copyOf a)
    exec (.qmgrQclr a v) s = .next (if bitOf v 0 = true then s.updQ n fun q => { q with sticky := false } else s)) ∧
  ∀ (a : Acc) (s : State), s.reaches a 0x0E 0x118 → let n := s.get QMGR_CSEL_0
    (∀ o, s.qOverlap n = some o → exec (.qmgrEnable a) s = .next (s.qRefuse n 1 o)) ∧
    (s.qOverlap n = none → (s.qBankBad n = true → exec (.qmgrEnable a) s = .next (s.qRefuse n 2 0)) ∧
      (s.qBankBad n = false → (s.q n).enabled = true → exec (.qmgrEnable a) s = .next (s.qRefuse n 3 0)) ∧
      (s.qBankBad n = false → (s.q n).enabled = false → 0x38000 < s.qBase n + footprint (s.qL n) → exec (.qmgrEnable a) s = .next (s.qRefuse n 4 0)) ∧
      (s.qBankBad n = false → (s.q n).enabled = false → s.qBase n + footprint (s.qL n) ≤ 0x38000 → ∃ z, exec (.qmgrEnable a) s = .next z ∧
        z.q n = { QS.init with enabled := true, last := (s.q n).last, sticky := (s.q n).sticky } ∧ (∀ m, m ≠ n → z.q m = s.q m) ∧ z.get QMGR_CMD_STAT_0 = 0 ∧ z.hub = s.hub)) ∧
    (∀ r o, (s.qRefuse n r o).get QMGR_CMD_STAT_0 = 1 ∧ (s.qRefuse n r o).get QMGR_CMD_STAT_1 = r % 2 ^ QMGR_CMD_STAT_1.w ∧
      (s.qRefuse n r o).get QMGR_CMD_STAT_4 = o % 2 ^ QMGR_CMD_STAT_4.w ∧ bitOf ((s.qRefuse n r o).get (rawOf 0x0E)) 3 = true ∧ ∀ m, (s.qRefuse n r o).q m = s.q m) ∧
    ((s.q n).enabled = false → exec (.qmgrDisable a) s = .next s) ∧
    ((s.q n).enabled = true → ∃ z, exec (.qmgrDisable a) s = .next z ∧ z.q n = { QS.init with last := (s.q n).last, sticky := (s.q n).sticky } ∧
      (∀ m, m ≠ n → z.q m = s.q m) ∧ z.hub = s.hub)

/-- R239, R244, R245, R255 to R257, R259, R261. -/
def Obligations.ConsistPortsPorterAndBanks : Prop :=
  (∀ (x : Fin 4) (s : State), let pg := 0x30 + x.val
    ((s.nPorts ≤ x.val ∨ s.flag (ETH_LINK_STAT_0 x.val) = false) → exec (.portLinkLoss x) s = .next s) ∧
    (x.val < s.nPorts → s.flag (ETH_LINK_STAT_0 x.val) = true → ∃ z, exec (.portLinkLoss x) s = .next z ∧ z.get (ETH_up x.val) = 0 ∧
      z.get (ETH_LINK_STAT_0 x.val) = 0 ∧ z.get (ETH_LINK_STAT_1 x.val) = 0 ∧ z.get (ETH_LINK_STAT_2 x.val) = 0 ∧ z.get (ETH_LINK_STAT_3 x.val) = 0 ∧
      z.get (ETH_LINK_DOWNS_0 x.val) = min (s.get (ETH_LINK_DOWNS_0 x.val) + 1) (2 ^ (ETH_LINK_DOWNS_0 x.val).w - 1) ∧ bitOf (z.get (rawOf pg)) 0 = true ∧
      s.keepsBut z [pg, 7, 0x0A]) ∧
    ∀ fec, ((s.nPorts ≤ x.val ∨ s.flag (ETH_LINK_CTL_0 x.val) = false ∨ s.flag (ETH_up x.val) = true) → exec (.portTrainingComplete x fec) s = .next s) ∧
      (x.val < s.nPorts → s.flag (ETH_LINK_CTL_0 x.val) = true → s.flag (ETH_up x.val) = false → ∃ z, exec (.portTrainingComplete x fec) s = .next z ∧
        z.get (ETH_up x.val) = 1 ∧ z.get (ETH_LINK_STAT_0 x.val) = 1 ∧ z.get (ETH_LINK_STAT_1 x.val) = 1 ∧
        z.get (ETH_LINK_STAT_2 x.val) = b2n (fec && s.flag (ETH_LINK_CTL_1 x.val)) ∧ z.get (ETH_LINK_STAT_3 x.val) = 0 ∧ bitOf (z.get (rawOf pg)) 0 = true ∧
        s.keepsBut z [pg, 7, 0x0A])) ∧
  (∀ (t : Nat) (s : State), let p := s.cons.porter
    (s.get PORTER_state = 2 → s.inTol t (p.last + p.len) = true →
      exec (.porterStrobe t) s = .next (s.updW fun p => { p with len := t - p.last, last := t, rejects := 0 })) ∧
    (s.get PORTER_state = 2 → s.inTol t (p.last + p.len) = false → p.rejects + 1 < 3 → ∃ z, exec (.porterStrobe t) s = .next z ∧ z.get PORTER_state = 2 ∧
      z.get PORTER_rej_count = min (s.get PORTER_rej_count + 1) (2 ^ PORTER_rej_count.w - 1) ∧ z.cons.porter = { p with last := p.last + p.len, rejects := p.rejects + 1 }) ∧
    (s.get PORTER_state = 2 → s.inTol t (p.last + p.len) = false → 3 ≤ p.rejects + 1 → ∃ z, exec (.porterStrobe t) s = .next z ∧ z.get PORTER_state = 0 ∧
      z.cons.porter.opened = [] ∧ z.cons.porter.run = false ∧ z.get PORTER_STATE_8 = 0 ∧ bitOf (z.get (rawOf 0x37)) 0 = true) ∧
    (s.get PORTER_state = 0 → ∃ z, exec (.porterStrobe t) s = .next z ∧ z.get PORTER_state = 1 ∧ z.cons.porter.acqLast = some t ∧ z.cons.porter.good = 0) ∧
    ∀ a l, s.get PORTER_state = 1 → p.acqLast = some a → p.acqLen = some l → p.good = 1 → s.inTol t (a + l) = true → ∃ z, exec (.porterStrobe t) s = .next z ∧
      z.get PORTER_state = 2 ∧ z.cons.porter.len = t - a ∧ z.cons.porter.last = t ∧ z.cons.porter.run = false) ∧
  (∀ (e : Nat) (s : State), let kind := s.get (PORTER_W_SCHED_12 (s.actW e))
    let no := 512 ≤ e ∨ s.get PORTER_state ≠ 2 ∨ s.cons.porter.run = false ∨ kind = 0 ∨ (kind = 3 ∧ s.inCharge = false) ∨ s.consMute = true
    (no → exec (.porterWindowOpen e) s = .next s) ∧
    (¬ no → ∃ z, exec (.porterWindowOpen e) s = .next z ∧ e ∈ z.cons.porter.opened ∧ (∀ f, f ≠ e → (f ∈ z.cons.porter.opened ↔ f ∈ s.cons.porter.opened)) ∧
      ∀ x < s.nPorts, bitOf (z.get PORTER_STATE_8) x = z.switchOpen x) ∧
    ∃ z, exec (.porterWindowClose e) s = .next z ∧ (∀ f, f ∈ z.cons.porter.opened ↔ f ≠ e ∧ f ∈ s.cons.porter.opened) ∧
      ∀ x < s.nPorts, bitOf (z.get PORTER_STATE_8) x = z.switchOpen x) ∧
  (∀ (a : Acc) (v : Nat) (s : State), s.reaches a 0x37 0x04C →
    exec (.porterUnsilence a v) s = .next (s.updW fun p => { p with unsilence := p.unsilence ||| v % 16 }) ∧ exec (.porterSwitchArm a) s = .next (s.set PORTER_STATE_12 1)) ∧
  (∀ (a : Acc) (s : State), s.reaches a 0x36 0x054 → let b := 1 - s.get ALMANAC_active_bank
    let all := (s.listed ALM_E_SCHED_12).filter fun e => e / 4096 = b
    ((∀ e ∈ all, s.entryRefusal all e = 0) → ∃ z, exec (.almValidate a) s = .next z ∧ bitOf (z.get ALMANAC_valid) b = true ∧ z.get ALM_VSTAT_0 = 0 ∧ z.get ALM_VSTAT_12 = 0 ∧
      s.keepsBut z [0x36]) ∧
    (∀ e, all.find? (fun e => s.entryRefusal all e != 0) = some e → ∃ z, exec (.almValidate a) s = .next z ∧ bitOf (z.get ALMANAC_valid) b = false ∧
      z.get ALM_VSTAT_0 = e % 4096 ∧ z.get ALM_VSTAT_12 = s.entryRefusal all e ∧ bitOf (z.get (rawOf 0x36)) 3 = true ∧ s.keepsBut z [0x36, 7, 0x0A]) ∧
    (bitOf (s.get ALMANAC_valid) b = false → exec (.almSwitchArm a) s = .next (s.almRefuse 0 0)) ∧
    (bitOf (s.get ALMANAC_valid) b = true → ahead (s.get ALM_SWITCH_0) (s.get ALM_MCOUNT_0) = false → exec (.almSwitchArm a) s = .next (s.almRefuse 0 5)) ∧
    (bitOf (s.get ALMANAC_valid) b = true → ahead (s.get ALM_SWITCH_0) (s.get ALM_MCOUNT_0) = true → ∃ z, exec (.almSwitchArm a) s = .next z ∧ z.get ALM_VSTAT_16 = 1 ∧
      z.cons = { s.cons with swAt := s.get ALM_SWITCH_0 + 1 } ∧ z.hub = s.hub) ∧
    ∃ z, exec (.almSwitchCancel a) s = .next z ∧ z.get ALM_VSTAT_16 = 0 ∧ z.cons = { s.cons with swAt := 0 } ∧ z.hub = s.hub) ∧
  ∀ (mac : Nat) (s : State), ∃ z, exec (.discardTableAgeOut mac) s = .next z ∧ z.cons.prp = s.cons.prp.filter (fun p => p.mac ≠ mac) ∧ z.hub = s.hub ∧ z.regs = s.regs

/-- R239 to R241, R248 to R252, R254, R258, R272. -/
def Obligations.ConsistCyclesAndFrames : Prop :=
  (∀ s : State, ∃ z, exec .basicCycleStart s = .next z ∧ z.cons = { s.cons with k := max (s.cons.k + 1) (s.now / (s.cons.act.b * 1000)) } ∧
    z.get ALM_POS_0 = z.cons.k % s.cons.act.m % 2 ^ ALM_POS_0.w ∧ z.get ALM_MCOUNT_0 = z.cons.k / s.cons.act.m % 2 ^ 32 ∧ z.hub = s.hub ∧
    ∀ g : Fld, g.pageOf ≠ 0x36 → z.get g = s.get g) ∧
  (∀ s : State, (s.posOf s.cons.k ≠ 0 → exec .matrixCycleStart s = .next s) ∧
    (s.posOf s.cons.k = 0 → s.flag CM_SYNC_CTL_0 = false → s.cons.swAt = 0 → ∃ z, exec .matrixCycleStart s = .next z ∧
      (∀ x < s.nPorts, s.flag (ETH_up x) = true → z.get (ETH_LINK_STAT_3 x) = 1) ∧ z.cons.porter.run = decide (s.get PORTER_state = 2) ∧
      z.cons.porter.blocked = [] ∧ z.cons.porter.unsilence = 0 ∧ z.get PORTER_STATE_4 = s.get PORTER_STATE_4 % 16 &&& (15 - s.cons.porter.unsilence) ∧
      z.get PORTER_STATE_0 = (if s.flag PORTER_STATE_12 = true ∧ s.get PORTER_SWITCH_0 = s.mOf s.cons.k then 1 - s.get PORTER_STATE_0 else s.get PORTER_STATE_0) ∧
      z.get ALM_MCOUNT_0 = s.mOf s.cons.k ∧ z.cons.k = s.cons.k ∧ z.hub = s.hub) ∧
    (s.posOf s.cons.k = 0 → s.flag CM_SYNC_CTL_0 = false → s.cons.swAt = s.mOf s.cons.k + 1 → ∃ z, exec .matrixCycleStart s = .next z ∧
      z.get ALMANAC_active_bank = 1 - s.get ALMANAC_active_bank ∧ z.cons.swAt = 0 ∧ z.cons.built = [] ∧ z.get ALM_VSTAT_16 = 0 ∧
      z.cons.act = { b := s.get ALM_BASIC_0, m := s.get ALM_MATRIX_0, id := s.get ALM_SCHED_ID_0 } ∧ bitOf (z.get (rawOf 0x36)) 0 = true)) ∧
  (∀ (i : Nat) (s : State), let e := s.actE i; let l := s.listOf (s.get (ALM_E_LIST_0 e)) (s.get (ALM_E_LIST_16 e))
    let vs := (l.filter fun w => !bitOf w 31).filterMap fun w => s.var (w % 65536)
    let flags := 0x80 + 64 * b2n (vs.any fun d => bitOf (s.hdr d) 2) + 32 * b2n (vs.any fun d => s.varState d == 2)
    (4096 ≤ i ∨ s.get (ALM_E_SCHED_12 e) ≠ 1 → exec (.exclusiveFetch i) s = .next s) ∧
    (i < 4096 → s.get (ALM_E_SCHED_12 e) = 1 → s.fetchOk e vs = false → ∃ z, exec (.exclusiveFetch i) s = .next z ∧ SMap.get z.cons.built i [] = [] ∧
      z.hub = s.hub ∧ z.regs = s.regs) ∧
    (i < 4096 → s.get (ALM_E_SCHED_12 e) = 1 → s.fetchOk e vs = true → ∃ z t, exec (.exclusiveFetch i) s = .next z ∧
      SMap.get z.cons.built i [] = beBytes 1 flags ++ beBytes 8 t ++ s.payloadOf l ∧ z.hub = s.hub ∧ z.regs = s.regs ∧
      ∀ d ∈ vs, t ≤ s.hubNat (d.off + 8) 8)) ∧
  (∀ (i : Nat) (s : State), let e := s.actE i; let on := s.sendPorts (s.get (ALM_E_SCHED_16 e))
    ((4096 ≤ i ∨ s.get (ALM_E_SCHED_12 e) ≠ 1 ∨ s.eOccurs e s.cons.k = false) → exec (.exclusiveWindowStart i) s = .next s) ∧
    (i < 4096 → s.get (ALM_E_SCHED_12 e) = 1 → s.eOccurs e s.cons.k = true →
      (SMap.find? s.cons.built i = none → ∃ z, exec (.exclusiveWindowStart i) s = .next z ∧ bitOf (z.get (rawOf 0x36)) 1 = true ∧ z.wire = s.wire ∧
        ∀ x < s.nPorts, bitOf (s.get (ALM_E_SCHED_16 e)) x = true → z.get (ETH_TX_MISSED_0 x) = min (s.get (ETH_TX_MISSED_0 x) + 1) (2 ^ (ETH_TX_MISSED_0 x).w - 1)) ∧
      ∀ b, SMap.find? s.cons.built i = some b → s.consMute = false →
        s.get (ALM_E_TXOFF_0 e) * 40 + ((s.exclFrame i 0 b).length + 24) * 8 + 2560 ≤ s.get (ALM_E_LEN_0 e) * 40 → ∃ z, exec (.exclusiveWindowStart i) s = .next z ∧
          ∀ x ∈ on, (s.switchOpen x = true → SMap.get z.wire x [] = s.exclFrame i x b) ∧ (s.switchOpen x = false → SMap.get z.wire x [] = SMap.get s.wire x [])) ∧
    ((4096 ≤ i ∨ s.get (ALM_E_SCHED_12 e) ≠ 3 ∨ s.eOccurs e s.cons.k = false ∨ s.get (ALM_E_OWNER_0 e) ≠ s.get ALM_FA_0 ∨ s.syncNode = false ∨ s.consMute = true) →
      exec (.syncWindow i) s = .next s) ∧
    (i < 4096 → s.get (ALM_E_SCHED_12 e) = 3 → s.eOccurs e s.cons.k = true → s.get (ALM_E_OWNER_0 e) = s.get ALM_FA_0 → s.syncNode = true → s.consMute = false →
      ∃ z, exec (.syncWindow i) s = .next z ∧ ∀ x ∈ on, s.switchOpen x = true → SMap.get z.wire x [] = s.kind1 i x (s.eMac e) s.syncPayload) ∧
    ((4096 ≤ i ∨ s.get (ALM_E_SCHED_12 e) ≠ 2 ∨ s.eOccurs e s.cons.k = false ∨ s.consMute = true ∨ on = []) → exec (.arbitratingWindow i) s = .next s) ∧
    ∀ q f, i < 4096 → s.get (ALM_E_SCHED_12 e) = 2 → s.eOccurs e s.cons.k = true → s.consMute = false → on ≠ [] → s.clk.reqDue = [] → s.clk.answers = [] →
      s.classHead = some (q, f, false) → 14 ≤ f.length → frameLen f + 6 ≤ 1518 →
      (s.get (ALM_E_LEN_0 e) * 40 < (f.length + 30) * 8 + 2560 → exec (.arbitratingWindow i) s = .next s) ∧
      ((f.length + 30) * 8 + 2560 ≤ s.get (ALM_E_LEN_0 e) * 40 → ((List.range 8).map fun c => (s.q (s.get (ALM_TXQ_0 c))).pkts.length).sum = 1 →
        etherType f ≠ 0x88B5 → (∀ x ∈ on, s.flag (TS_PORTCTL_1 x) = false ∧ s.switchOpen x = true) → ∃ z, exec (.arbitratingWindow i) s = .next z ∧ (z.q q).pkts = [] ∧
        z.cons.rct = (s.cons.rct + 1) % 65536 ∧ ∀ x ∈ on, SMap.get z.wire x [] = f ++ s.rctOf x f)) ∧
  (∀ (x : Fin 4) (f : List Byte) (ok : Bool) (s : State),
    ((s.nPorts ≤ x.val ∨ s.flag (ETH_up x.val) = false ∨ s.power ≠ .run ∨ s.flag PWR_doze = true) → exec (.consistFrameReceived x f ok) s = .next s) ∧
    (x.val < s.nPorts → s.flag (ETH_up x.val) = true → s.power = .run → s.flag PWR_doze = false →
      let err := fun (c : Fld) => ∃ z, exec (.consistFrameReceived x f ok) s = .next z ∧ z.get c = min (s.get c + 1) (2 ^ c.w - 1) ∧
        z.get (ETH_err_count x.val) = min (s.get (ETH_err_count x.val) + 1) (2 ^ (ETH_err_count x.val).w - 1) ∧ bitOf (z.get (rawOf (0x30 + x.val))) 1 = true ∧
        s.keepsBut z [0x30 + x.val, 0x0A] ∧ z.hub = s.hub
      (1518 < frameLen f → err (ETH_RX_LONG_0 x.val)) ∧ (frameLen f ≤ 1518 → f.length + 4 < 64 + tagLen f → err (ETH_RX_SHORT_0 x.val)) ∧
      (frameLen f ≤ 1518 → 64 + tagLen f ≤ f.length + 4 → ok = false → err (ETH_RX_FCS_0 x.val)) ∧
      (frameLen f ≤ 1518 → 64 + tagLen f ≤ f.length + 4 → ok = true → etherType f ≠ 0x8808 → s.dstOk x.val f = false →
        exec (.consistFrameReceived x f ok) s = .next (s.count (ETH_RX_NOMATCH_0 x.val))) ∧
      ∀ r, frameLen f ≤ 1518 → 64 + tagLen f ≤ f.length + 4 → ok = true → etherType f = 0x88B5 → s.dstOk x.val f = true →
        let g := f.take 12 ++ f.drop (12 + tagLen f); let i := beAt g 18 2 % 4096; let e := s.actE i; let pos := beAt g 20 1; let m := beAt g 22 4
        let last := SMap.get s.cons.rx r 0
        let old := last ≠ 0 ∧ (ahead m ((last - 1) / 64) || (m == (last - 1) / 64 && decide ((last - 1) % 64 < pos))) = false
        beAt g 14 1 = 0x10 → beAt g 16 2 ≠ s.get ALM_FA_0 → s.rxEntry (beAt g 16 2) i = some r → beAt g 36 2 = s.cons.act.id → s.get (ALM_E_SCHED_12 e) = 1 →
        s.get (ALM_E_OWNER_0 e) = beAt g 16 2 → bitOf (beAt g 15 1) 7 = true → s.timeOk e pos m = true →
        (old → exec (.consistFrameReceived x f ok) s = .next (s.count (ETH_RX_DUP_0 x.val))) ∧
        (¬ old → s.flag (ALM_R_TGT_28 r) = false → s.passive = false → exec (.consistFrameReceived x f ok) s =
          .next ((((s.updN fun c => { c with rx := SMap.put c.rx r 0 (m * 64 + pos + 1) }).count (ALM_R_CNT_0 r)).count (ETH_RX_GOOD_0 x.val)).listWrite (0x4000 + r)
            (some (beAt g 26 8)) (sub g 38 (beAt g 34 2)) (s.listOf (s.get (ALM_R_TGT_0 r)) (s.get (ALM_R_TGT_16 r))) (ALM_R_SHORT_0 r))))) ∧
  ∀ (r : Nat) (s : State), ((4096 ≤ r ∨ s.flag (ALM_R_MATCH_31 r) = false ∨ s.power ≠ .run ∨ s.lastOcc (s.actE (s.get (ALM_R_MATCH_16 r))) = none) →
      exec (.receiveMissCheck r) s = .next s) ∧
    ∀ k, r < 4096 → s.flag (ALM_R_MATCH_31 r) = true → s.power = .run → s.lastOcc (s.actE (s.get (ALM_R_MATCH_16 r))) = some k →
      let last := SMap.get s.cons.rx r 0
      (last = s.mOf k * 64 + s.posOf k + 1 → s.posOf k < 64 → exec (.receiveMissCheck r) s = .next s) ∧
      (last = 0 → ∃ z, exec (.receiveMissCheck r) s = .next z ∧ z.get (ALM_R_CNT_16 r) = min (s.get (ALM_R_CNT_16 r) + 1) (2 ^ (ALM_R_CNT_16 r).w - 1) ∧
        z.get ALMANAC_miss_count = min (s.get ALMANAC_miss_count + 1) (2 ^ ALMANAC_miss_count.w - 1) ∧ bitOf (z.get (rawOf 0x36)) 2 = true ∧ s.keepsBut z [0x36, 7, 0x0A])

/-- R268 to R271, R274, R278, R280, R287, R289, R291. -/
def Obligations.ClockmakerCommandsAndPulses : Prop :=
  (∀ (a : Acc) (s : State), s.power = .run → a.level ≠ 0 →
    s.readGives (.cmTimeRead a) a 0x40038040 (s.set (CM_TIME_HI_0 (copyOf a)) (s.now / 2 ^ 32)) (.value (s.now % 2 ^ 32)) ∧
    s.readGives (.cmCntRead a) a 0x40038048 (s.set (CM_CNT_HI_0 (copyOf a)) (2 * s.counter / 2 ^ 32)) (.value (2 * s.counter % 2 ^ 32))) ∧
  (∀ s : State, let off := fun (z : State) => z.get64 CM_OFFSET_LO_0 CM_OFFSET_HI_0
    let anchor : Int := (s.get64 CM_ANCHOR_LO_0 CM_ANCHOR_HI_0 : Nat)
    (s.clk.slewRate = 0 → exec .slewEnd s = .next s) ∧
    (s.clk.slewRate ≠ 0 → ∃ z, exec .slewEnd s = .next z ∧ z.clk = { s.clk with slewRate := 0, slewC := 0, slewFrom := 0 } ∧
      z.get64 CM_ANCHOR_LO_0 CM_ANCHOR_HI_0 = s.cns % 2 ^ 64 ∧
      off z = unsint 64 (s.offset + ((s.cns : Int) - anchor) * s.rateEff / 2 ^ 40 + (s.clk.slewC - ((s.cns : Int) - s.clk.slewFrom) * s.clk.slewRate / 2 ^ 40)) ∧
      ∀ g : Fld, g.pageOf ≠ 0x38 → z.get g = s.get g) ∧
    (s.get CLOCKMAKER_state ≠ 3 → exec .holdoverExpiry s = .next s) ∧
    (s.get CLOCKMAKER_state = 3 → ∃ z, exec .holdoverExpiry s = .next z ∧ z.get CLOCKMAKER_state = 4 ∧ z.get CLOCKMAKER_sync = 0 ∧ bitOf (z.get (rawOf 0x38)) 0 = true ∧
      s.keepsBut z [0x38, 7, 0x0A]) ∧
    (∀ (i : Fin 15) (p : Fin 2), ∃ z, exec (.delayResponseTimeout i p) s = .next z ∧ z.regs = s.regs ∧ z.hub = s.hub ∧
      ∀ e, e ∈ z.clk.reqs ↔ e ∈ s.clk.reqs ∧ ¬ (e.1 / 4 = i.val ∧ e.1 % 2 = p.val)) ∧
    (∀ a, s.reaches a 0x38 0x070 →
      (s.flag CLOCKMAKER_jump_pending = false → exec (.cmAccept a) s = .next (s.set CM_CMD_STAT_0 1) ∧ exec (.cmReject a) s = .next (s.set CM_CMD_STAT_0 1)) ∧
      (s.flag CLOCKMAKER_jump_pending = true → let c := sint 64 (s.get64 CM_PEND_LO_0 CM_PEND_HI_0)
        (∃ z, exec (.cmAccept a) s = .next z ∧ z.get CM_CMD_STAT_0 = 0 ∧ z.get CLOCKMAKER_jump_pending = 0 ∧ z.get CLOCKMAKER_confirm = 0 ∧
          off z = unsint 64 (s.offset + c) ∧ z.get64 CM_LASTCORR_LO_0 CM_LASTCORR_HI_0 = unsint 64 c ∧ z.get PORTER_state = 1 ∧ bitOf (z.get (rawOf 0x38)) 2 = true) ∧
        ∃ z, exec (.cmReject a) s = .next z ∧ z.get CM_CMD_STAT_0 = 0 ∧ z.get CLOCKMAKER_jump_pending = 0 ∧ z.get CLOCKMAKER_confirm = 0 ∧ off z = off s ∧ s.keepsBut z [0x38]) ∧
      (¬ (s.get CLOCKMAKER_state = 0 ∨ s.get CLOCKMAKER_state = 4 ∨ s.flag CM_SYNC_CTL_0 = false) → exec (.cmSet a) s = .next (s.set CM_CMD_STAT_0 2)) ∧
      ((s.get CLOCKMAKER_state = 0 ∨ s.get CLOCKMAKER_state = 4 ∨ s.flag CM_SYNC_CTL_0 = false) → ∃ z, exec (.cmSet a) s = .next z ∧ z.get CM_CMD_STAT_0 = 0 ∧
        z.now = s.get64 CM_SETVAL_LO_0 CM_SETVAL_HI_0 % 2 ^ 64 ∧ z.counter = s.counter ∧ z.get CLOCKMAKER_state = s.get CLOCKMAKER_state ∧ bitOf (z.get (rawOf 0x38)) 2 = true)) ∧
    (∀ a v, s.reaches a 0x38 0x064 → ∃ z, exec (.cmSyncCtlWrite a v) s = .next z ∧ z.get CM_SYNC_CTL_0 = b2n (bitOf v 0) ∧
      z.get CM_SYNC_CTL_1 = b2n (bitOf v 1 && s.nodeCap) ∧ z.get CM_SYNC_CTL_2 = v / 4 % 2 ^ 8 ∧ z.get CM_SYNC_CTL_10 = max 1 (v / 2 ^ 10 % 4) ∧
      z.get CM_SYNC_CTL_12 = v / 2 ^ 12 % 4 ∧ z.get CM_SYNC_CTL_14 = max 1 (v / 2 ^ 14 % 8) ∧
      z.get CLOCKMAKER_state = if bitOf v 0 = false then 2 else if s.flag CM_SYNC_CTL_0 = false then 0 else s.get CLOCKMAKER_state) ∧
    (∀ a v, s.reaches a 0x38 0x060 →
      (¬ (s.get CLOCKMAKER_state = 0 ∨ s.get CLOCKMAKER_state = 4) → exec (.cmRateWrite a v) s = .next s) ∧
      ((s.get CLOCKMAKER_state = 0 ∨ s.get CLOCKMAKER_state = 4) → ∃ z, exec (.cmRateWrite a v) s = .next z ∧
        z.get CM_RATE_0 = unsint 32 (max (-549755813) (min 549755813 (sint 32 v))) ∧ z.get64 CM_ANCHOR_LO_0 CM_ANCHOR_HI_0 = s.cns % 2 ^ 64 ∧ s.keepsBut z [0x38])) ∧
    (let i := s.now / 10 ^ (9 - s.get TS_PULSE_2) + 1
      let ok := s.isS = false ∧ s.flag TS_PULSE_0 = true ∧ s.flag TS_PULSE_1 = false ∧ s.synced = true ∧ s.clk.pulse < i
      (ok → exec .timePulseOutput s = .next (s.updK fun k => { k with pulse := i })) ∧ (¬ ok → exec .timePulseOutput s = .next s)) ∧
    (¬ (s.isS = false ∧ s.flag TS_PULSE_0 = true ∧ s.flag TS_PULSE_1 = true) → exec .timePulseCapture s = .next s) ∧
    (s.isS = false → s.flag TS_PULSE_0 = true → s.flag TS_PULSE_1 = true → ∃ z, exec .timePulseCapture s = .next z ∧ z.get64 TS_PCAP_LO_0 pcapHi = s.now ∧
      bitOf (z.get (rawOf 0x39)) 0 = true ∧ s.keepsBut z [0x39, 0x0A]))

/-- R271, R276 to R279. -/
def Obligations.TimeResynchronisation : Prop :=
  ∀ s : State, s.posOf s.cons.k = 0 → s.cons.swAt = 0 → s.flag CM_SYNC_CTL_0 = true →
    let st := s.get CLOCKMAKER_state
    let valid := ((List.range 15).filterMap s.nodeDev).filter fun v => v.st = 2 || v.st = 3 || (unsynced v.st && unsynced st)
    let n := valid.length
    let c := (trimMean (valid.map fun v => (v.d, v.i))).getD 0
    let near := (c.natAbs : Int) ≤ s.jumpMax
    ∃ z, exec .matrixCycleStart s = .next z ∧ z.get CM_RESYNC_0 = n % 16 ∧ z.get CM_RESYNC_4 = dropK n ∧ z.get CM_RESYNC_8 = (s.get CM_RESYNC_8 + 1) % 2 ^ 24 ∧
      z.clk.meas = [] ∧
      (n < s.get CM_SYNC_CTL_10 → bitOf (z.get (rawOf 0x38)) 3 = true ∧ z.get CLOCKMAKER_jump_pending = 0 ∧
        (st = 1 → z.get CLOCKMAKER_state = s.clk.acqFrom % 8) ∧
        (st = 2 → s.clk.miss + 1 < s.get CM_SYNC_CTL_14 → z.get CLOCKMAKER_state = 2 ∧ z.clk.miss = s.clk.miss + 1) ∧
        (st = 2 → s.get CM_SYNC_CTL_14 ≤ s.clk.miss + 1 → z.get CLOCKMAKER_state = 3) ∧ (st ≠ 1 → st ≠ 2 → z.get CLOCKMAKER_state = st)) ∧
      (s.get CM_SYNC_CTL_10 ≤ n → z.clk.miss = 0 ∧
        ((st = 0 ∨ st = 4) → z.get CLOCKMAKER_state = 1 ∧ z.clk.acqFrom = st ∧ z.clk.c1 = c) ∧
        (st = 1 → ((c - s.clk.c1).natAbs : Int) ≤ s.stepMax → z.get CLOCKMAKER_state = 2 ∧ z.get64 CM_LASTCORR_LO_0 CM_LASTCORR_HI_0 = unsint 64 c) ∧
        (st = 1 → ¬ ((c - s.clk.c1).natAbs : Int) ≤ s.stepMax → z.get CLOCKMAKER_state = s.clk.acqFrom % 8) ∧
        (st = 2 ∨ st = 3 → z.get CLOCKMAKER_state = 2 ∧ (near → (c.natAbs : Int) ≤ s.stepMax →
            z.clk.slewC = c ∧ z.clk.slewRate = sgn c * ((s.get CM_SLEW_0 * 2 ^ 40 / 1000000 : Nat) : Int) ∧ z.get CLOCKMAKER_jump_pending = 0) ∧
          (¬ near → s.flag CLOCKMAKER_jump_pending = false → z.get CLOCKMAKER_jump_pending = 1 ∧ z.get CLOCKMAKER_confirm = 1 ∧ z.clk.firstC = c ∧
            z.get64 CM_PEND_LO_0 CM_PEND_HI_0 = unsint 64 c ∧ z.get64 CM_OFFSET_LO_0 CM_OFFSET_HI_0 = s.get64 CM_OFFSET_LO_0 CM_OFFSET_HI_0)))

/-- R295, R299 to R309, R314. -/
def Obligations.PollBusMasterAndSlave : Prop :=
  (∀ (c : Fin 8) (s : State), let n := c.val; let p := s.poll n; let pg := 0x3A + n
    let here := s.pollPresent n = true; let on := here ∧ s.flag (POLL_CTL_0 n) = true ∧ s.power = .run
    (¬ (here ∧ s.power = .run) → exec (.pollBasicPeriodStart c) s = .next s) ∧
    (here → s.power = .run → let k := max (p.k + 1) (s.now / (500000 * 2 ^ p.per))
      (s.flag (POLL_VSTAT_16 n) = false → ∃ z, exec (.pollBasicPeriodStart c) s = .next z ∧ (z.poll n).k = k ∧ (z.poll n).slot = none ∧
        z.get (POLL_BPCOUNT_0 n) = k % 2 ^ 32 ∧ (z.poll n).fault = (if p.resume then 0 else p.fault) ∧
        z.get (POLL_tx_silenced n) = (if p.unsil then 0 else s.get (POLL_tx_silenced n)) ∧ (z.poll n).go = decide (z.pollState n = 1) ∧
        (∀ d, d ≠ n → z.poll d = s.poll d) ∧ z.hub = s.hub ∧ ∀ g : Fld, g.pageOf ≠ pg → z.get g = s.get g) ∧
      (s.flag (POLL_VSTAT_16 n) = true → p.swAt = k % 2 ^ 32 + 1 → ∃ z, exec (.pollBasicPeriodStart c) s = .next z ∧
        z.get (POLL_VSTAT_19 n) = 1 - s.get (POLL_VSTAT_19 n) ∧ z.get (POLL_VSTAT_16 n) = 0 ∧ (z.poll n).per = s.get (POLL_PERIOD_0 n) ∧
        z.get (POLL_PERIOD_0 n) = p.per % 8 ∧ (z.poll n).swAt = 0)) ∧
    (∀ i ok, let e := s.actP n i; let fc := s.get (POLL_E_SCHED_12 n e); let set := if fc = 2 then 0 else s.get (POLL_E_SCHED_16 n e)
      let m : MasterFrame := { fcode := fc, set := set, addr := s.get (POLL_E_ADDR_0 n e), word := mfWord fc (s.get (POLL_E_ADDR_0 n e)) set (p.k % 16) }
      let go := here ∧ i < 1024 ∧ s.pollState n = 1 ∧ p.go = true ∧ fc ≠ 3 ∧ p.k % 2 ^ s.get (POLL_E_SCHED_0 n e) = s.get (POLL_E_SCHED_4 n e)
      (¬ go → exec (.pollSlotStart c i ok) s = .next s) ∧
      (go → s.pollShut n (s.slotStart n i) = true → ∃ z, exec (.pollSlotStart c i ok) s = .next z ∧ z.wire = s.wire ∧
        z.get (POLL_BLOCKED_0 n) = s.oneMore (POLL_BLOCKED_0 n) ∧ bitOf (z.get (rawOf pg)) 5 = true) ∧
      (go → s.pollShut n (s.slotStart n i) = false → s.answerOf n m = none → ∃ z, exec (.pollSlotStart c i ok) s = .next z ∧
        SMap.get z.wire (8 + n) [] = beBytes 4 m.word ∧ z.get (POLL_TX_MF_0 n) = s.oneMore (POLL_TX_MF_0 n) ∧
        (ok = true → (z.poll n).echo = 0 ∧ (z.poll n).slot = some { e := i, n := s.get (POLL_E_ADDR_16 n e) + 1 } ∧ (z.poll n).last = some m) ∧
        (ok = false → z.get (POLL_ECHO_0 n) = s.oneMore (POLL_ECHO_0 n) ∧ (p.echo + 1 ≠ 3 → (z.poll n).echo = p.echo + 1) ∧
          (p.echo + 1 = 3 → (z.poll n).fault = 5 ∧ (z.poll n).go = false ∧ bitOf (z.get (rawOf pg)) 4 = true)))) ∧
    (¬ here → exec (.pollReplyTimeout c) s = .next s) ∧
    (here → (p.slot = none → exec (.pollReplyTimeout c) s = .next (s.updPoll n fun q => { q with last := none })) ∧
      ∀ k, p.slot = some k → ∃ z, exec (.pollReplyTimeout c) s = .next z ∧ (z.poll n).slot = none ∧ (z.poll n).last = none ∧
        z.get (POLL_MISS_0 n) = s.oneMore (POLL_MISS_0 n) ∧ z.get (POLL_E_MISS_0 n k.e) = s.oneMore (POLL_E_MISS_0 n k.e) ∧
        z.get (POLL_E_STAT_0 n k.e) = s.oneMore (POLL_E_STAT_0 n k.e) ∧ bitOf (z.get (rawOf pg)) 0 = true ∧
        (s.get (POLL_SILENT_0 n) ≤ s.oneMore (POLL_E_STAT_0 n k.e) → s.flag (POLL_E_STAT_8 n k.e) = false → z.get (POLL_E_STAT_8 n k.e) = 1 ∧ bitOf (z.get (rawOf pg)) 2 = true)) ∧
    (∀ d ok, (¬ on → exec (.pollSlaveFrameReceived c d ok) s = .next s) ∧
      (on → ∃ z, exec (.pollSlaveFrameReceived c d ok) s = .next z ∧ (z.poll n).slot = none ∧ (z.poll n).last = none ∧
        (p.last = none → z.get (POLL_RX_ERR_0 n) = s.oneMore (POLL_RX_ERR_0 n)) ∧
        ∀ m, p.last = some m →
          ((ok = false ∨ d.length < 2 ∨ 256 < d.length) → z.get (POLL_RX_ERR_0 n) = s.oneMore (POLL_RX_ERR_0 n) ∧ z.get (POLL_err_count n) = s.oneMore (POLL_err_count n) ∧
            bitOf (z.get (rawOf pg)) 1 = true) ∧
          (ok = true → 2 ≤ d.length → d.length ≤ 256 → ∀ k, p.slot = some k →
            (d.length ≠ k.n → z.get (POLL_RX_LEN_0 n) = s.oneMore (POLL_RX_LEN_0 n) ∧ z.get (POLL_E_MISS_16 n k.e) = s.oneMore (POLL_E_MISS_16 n k.e)) ∧
            (d.length = k.n → let u := (((s.updPoll n fun q => { q with slot := none, last := none }).count (POLL_RX_GOOD_0 n)).set (POLL_E_STAT_0 n k.e) 0).set (POLL_E_STAT_8 n k.e) 0
              z = u.slaveDeliver n m d ∧ u.get (POLL_RX_GOOD_0 n) = s.oneMore (POLL_RX_GOOD_0 n) ∧
              let find := fun r => u.flag (POLL_R_MATCH_31 n r) && u.get (POLL_R_MATCH_0 n r) == m.addr && u.get (POLL_R_MATCH_16 n r) == m.fcode &&
                (u.get (POLL_R_MATCH_12 n r) == m.set || m.fcode == 2)
              ((u.listed fun e => POLL_R_MATCH_31 n e).find? find = none → z = u) ∧
              ∀ r, (u.listed fun e => POLL_R_MATCH_31 n e).find? find = some r → u.flag (POLL_R_TGT_28 n r) = false → s.passive = false →
                z = (u.count (POLL_R_CNT_0 n r)).listWrite (0x6000 + n * 1024 + r) (some s.now) d (s.listOf (s.get (POLL_R_TGT_0 n r)) (s.get (POLL_R_TGT_16 n r)))
                  (POLL_R_CNT_16 n r))))) ∧
    (∀ fc set addr ok, (¬ on → exec (.pollMasterFrameReceived c fc set addr ok) s = .next s) ∧
      (on → s.flag (POLL_CTL_1 n) = true → s.pollState n = 1 → ∃ z, exec (.pollMasterFrameReceived c fc set addr ok) s = .next z ∧ (z.poll n).fault = 4 ∧
        (z.poll n).go = false ∧ z.get (POLL_FOREIGN_0 n) = s.oneMore (POLL_FOREIGN_0 n) ∧ bitOf (z.get (rawOf pg)) 3 = true) ∧
      (on → s.flag (POLL_CTL_1 n) = false → fc < 3 → s.passive = false → s.flag PWR_doze = false →
        let m : MasterFrame := { fcode := fc, set := set % 16, addr := addr % 4096, word := mfWord fc (addr % 4096) (set % 16) (p.k % 16) }
        ∃ z, exec (.pollMasterFrameReceived c fc set addr ok) s = .next z ∧ (z.poll n).silent = false ∧ (z.poll n).last = some m ∧
          (s.answerOf n m = none → z.wire = s.wire) ∧
          ∀ a, s.answerOf n m = some a → s.flag (POLL_tx_silenced n) = false → fc = 2 → let d := fitTo (s.get (POLL_A_LEN_0 n a) + 1) (beBytes 2 (s.statusAnswer n))
            SMap.get z.wire (8 + n) [] = d ++ beBytes 4 (crc32c 0xFFFFFFFF d ^^^ 0xFFFFFFFF) ∧ z.get (POLL_TX_ANS_0 n) = s.oneMore (POLL_TX_ANS_0 n))) ∧
    (let due := on ∧ s.flag (POLL_CTL_1 n) = false ∧ p.silent = false;
      (¬ due → exec (.slaveSilenceTimeout c) s = .next s) ∧
      (due → ∃ z, exec (.slaveSilenceTimeout c) s = .next z ∧ (z.poll n).silent = true ∧ bitOf (z.get (rawOf pg)) 2 = true ∧ z.wire = s.wire))) ∧
  ∀ (a : Acc) (c : Fin 8) (s : State), let n := c.val;
    (s.reaches a (0x3A + n) 0x04C → let b := 1 - s.pollBank n
      let all := ((List.range 1024).map fun i => b * 1024 + i).filter fun e => s.get (POLL_E_SCHED_12 n e) != 3
      ((∀ e ∈ all, s.pollRefusal n all e = 0) → s.pollListBad n = none → ∃ z, exec (.pollValidate a c) s = .next z ∧ bitOf (z.get (POLL_VSTAT_17 n)) b = true ∧
        z.get (POLL_VSTAT_0 n) = 0 ∧ z.get (POLL_VSTAT_12 n) = 0 ∧ s.keepsBut z [0x3A + n]) ∧
      (∀ e, all.find? (fun e => s.pollRefusal n all e != 0) = some e → ∃ z, exec (.pollValidate a c) s = .next z ∧ bitOf (z.get (POLL_VSTAT_17 n)) b = false ∧
        z.get (POLL_VSTAT_0 n) = e % 1024 ∧ z.get (POLL_VSTAT_12 n) = s.pollRefusal n all e ∧ s.keepsBut z [0x3A + n]) ∧
      (ahead (s.get (POLL_SWITCH_0 n)) (s.get (POLL_BPCOUNT_0 n)) = true → ∃ z, exec (.pollSwitchArm a c) s = .next z ∧ z.get (POLL_VSTAT_16 n) = 1 ∧
        (z.poll n).swAt = s.get (POLL_SWITCH_0 n) + 1 ∧ z.hub = s.hub) ∧
      (ahead (s.get (POLL_SWITCH_0 n)) (s.get (POLL_BPCOUNT_0 n)) = false → ∃ z, exec (.pollSwitchArm a c) s = .next z ∧ z.get (POLL_VSTAT_0 n) = 0 ∧
        z.get (POLL_VSTAT_12 n) = 5 ∧ z.polls = s.polls) ∧
      (∃ z, exec (.pollSwitchCancel a c) s = .next z ∧ z.get (POLL_VSTAT_16 n) = 0 ∧ z.poll n = { s.poll n with swAt := 0 } ∧ z.hub = s.hub) ∧
      (∃ z, exec (.pollResume a c) s = .next z ∧ z.poll n = { s.poll n with resume := (s.poll n).resume || decide ((s.poll n).fault ≠ 0) } ∧ z.regs = s.regs) ∧
      ∃ z, exec (.pollUnsilence a c) s = .next z ∧ z.poll n = { s.poll n with unsil := true } ∧ z.regs = s.regs) ∧
    ∀ v, s.reaches a (0x3A + n) 0x040 → ∃ z, exec (.pollCtlWrite a c v) s = .next z ∧ z.get (POLL_CTL_0 n) = b2n (bitOf v 0) ∧
      z.get (POLL_CTL_1 n) = b2n (bitOf v 1 && s.nodeCap) ∧ z.get (POLL_CTL_2 n) = v / 4 % 4 ∧ z.get (POLL_CTL_4 n) = max 16 (v / 16 % 256) ∧
      z.get (POLL_VSTAT_17 n) = 0 ∧ z.get (POLL_state n) = z.pollState n % 8 ∧ (bitOf v 0 = false → z.poll n = { s.poll n with go := false, slot := none, last := none }) ∧
      ∀ g : Fld, g.pageOf ≠ 0x3A + n → z.get g = s.get g

/-- R316, R318, R319, R321, R324 to R331. -/
def Obligations.CanControllers : Prop :=
  ∀ (c : Fin 16) (s : State), let n := c.val; let pg := 0x42 + n; let st := s.get (CAN_state n); let k := s.can n
    let listen := s.flag (CAN_CTL_0 n) = true ∨ s.passive = true
    let joined := fun (z : State) => (listen → z.get (CAN_state n) = 3) ∧ (¬ listen → z.get (CAN_state n) = 2)
    let detecting := fun (z : State) => z.get (CAN_state n) = 1 ∧ z.get (CAN_AUTO_8 n) = 15 ∧ z.get (CAN_AUTO_12 n) = 15
    let fresh := fun (z : State) => z.get (CAN_ERRCNT_0 n) = 0 ∧ z.get (CAN_ERRCNT_16 n) = 0 ∧ z.get (CAN_err_state n) = 0
    (∀ a, s.reaches a pg 0x054 →
      (st ≠ 0 → exec (.canStart a c) s = .next s) ∧
      (st = 0 → ∃ z, exec (.canStart a c) s = .next z ∧ fresh z ∧ (s.isF = true → joined z) ∧ (s.isF = false → detecting z) ∧ (z.can n).sending = none ∧
        z.hub = s.hub ∧ ∀ g : Fld, g.pageOf ≠ pg → z.get g = s.get g) ∧
      (st = 0 → exec (.canStop a c) s = .next s) ∧
      (st ≠ 0 → k.sending = none → ∃ z, exec (.canStop a c) s = .next z ∧ z.get (CAN_state n) = 0 ∧ ∀ g : Fld, g.key ≠ (CAN_state n).key → z.get g = s.get g) ∧
      (st ≠ 0 → k.sending ≠ none → exec (.canStop a c) s = .next (s.updCan n fun k => { k with stopReq := true })) ∧
      (st = 4 → exec (.canRecover a c) s = .next (s.updCan n fun k => { k with recov := true })) ∧ (st ≠ 4 → exec (.canRecover a c) s = .next s) ∧
      ((s.isF = true ∨ st < 2) → exec (.canRedetect a c) s = .next s) ∧
      (s.isF = false → 2 ≤ st → (k.sending = none → ∃ z, exec (.canRedetect a c) s = .next z ∧ fresh z ∧ detecting z) ∧
        (k.sending ≠ none → exec (.canRedetect a c) s = .next (s.updCan n fun k => { k with redReq := true })))) ∧
    (¬ (st = 4 ∧ k.recov = true) → exec (.canBusoffRecovered c) s = .next s) ∧
    (st = 4 → k.recov = true → ∃ z, exec (.canBusoffRecovered c) s = .next z ∧ fresh z ∧ joined z ∧ (z.can n).recov = false ∧ ∀ g : Fld, g.pageOf ∉ [pg, 7, 0x0A] → z.get g = s.get g) ∧
    (¬ (st = 3 ∧ ¬ listen) → exec (.canListenExit c) s = .next s) ∧ (st = 3 → ¬ listen → exec (.canListenExit c) s = .next (s.set (CAN_state n) 2)) ∧
    (∀ v, let no := st ≠ 2 ∨ k.sending ≠ none ∨ s.flag PWR_doze = true ∨ s.power ≠ .run ∨ s.mbReady n = [];
      (no → exec (.canStartOfFrame c v) s = .next s) ∧
      (¬ no → ∃ z m f, exec (.canStartOfFrame c v) s = .next z ∧ (m, f) ∈ s.mbReady n ∧ (∀ y ∈ s.mbReady n, canArb f ≤ canArb y.2) ∧ (z.can n).sending = some m ∧
        z.get (CAN_M_STAT_0 n m) = 2 ∧ z.wire = s.wire ∧ z.hub = s.hub ∧ ∀ g : Fld, g.pageOf ≠ pg → z.get g = s.get g)) ∧
    (k.sending = none → exec (.canTxComplete c) s = .next s ∧ exec (.canArbitrationLost c) s = .next s) ∧
    (∀ m, k.sending = some m →
      (∀ f, (s.mb n m).frame = some f → let g : CanFrame := { f with brs := f.brs && !s.noBrs n f, esi := f.fdf && s.get (CAN_err_state n) == 1 }
        ∃ z, exec (.canTxComplete c) s = .next z ∧ SMap.get z.wire (64 + n) [] = canWords g 0 ++ f.data ∧ (z.can n).sending = none ∧
          z.get (CAN_TX_FRAMES_0 n) = s.oneMore (CAN_TX_FRAMES_0 n) ∧ z.get (CAN_M_CNT_0 n m) = s.oneMore (CAN_M_CNT_0 n m) ∧
          (k.redReq = false → z.get (CAN_ERRCNT_0 n) = (s.get (CAN_ERRCNT_0 n) - 1) % 512) ∧
          (s.get (CAN_M_CTL_8 n m) ≠ 1 → (s.mb n m).next = none → z.get (CAN_M_STAT_4 n m) = 1 ∧ z.get (CAN_M_STAT_0 n m) = 0 ∧ (z.mb n m).frame = none)) ∧
      ((s.mb n m).frame = none → exec (.canTxComplete c) s = .next (s.updCan n fun k => { k with sending := none })) ∧
      ∃ z, exec (.canArbitrationLost c) s = .next z ∧ z.get (CAN_ARB_LOST_0 n) = s.oneMore (CAN_ARB_LOST_0 n) ∧ (z.can n).sending = none ∧ z.wire = s.wire ∧
        (s.flag (CAN_CTL_1 n) = false → z.get (CAN_M_STAT_0 n m) = 1) ∧
        (s.flag (CAN_CTL_1 n) = true → z.get (CAN_ABANDON_0 n) = s.oneMore (CAN_ABANDON_0 n) ∧ bitOf (z.get (rawOf pg)) 2 = true ∧
          (s.get (CAN_M_CTL_8 n m) ≠ 1 → (s.mb n m).next = none → z.get (CAN_M_STAT_4 n m) = 2 ∧ z.get (CAN_M_STAT_0 n m) = 3))) ∧
    (∀ e : CanErr, ((st = 0 ∨ st = 4 ∨ s.power ≠ .run) → exec (.canErrorDetected c e) s = .next s) ∧
      (st ≠ 0 → st ≠ 4 → s.power = .run → k.redReq = false → ∃ z, exec (.canErrorDetected c e) s = .next z ∧ z.get (CAN_err_count n) = s.oneMore (CAN_err_count n) ∧
        z.get (CAN_ERRLOG_0 n) = e.kind.val ∧ z.get (CAN_ERRLOG_4 n) = e.field.val ∧ z.get (CAN_ERRLOG_7 n) = b2n k.sending.isSome ∧ z.get (CAN_ERRLOG_8 n) = b2n e.data ∧
        (st = 2 → k.sending = none → z.get (CAN_ERRCNT_16 n) = min 255 (s.get (CAN_ERRCNT_16 n) + (if e.field = 6 then 8 else 1)) ∧ z.get (CAN_ERRCNT_0 n) = s.get (CAN_ERRCNT_0 n)) ∧
        (∀ m, st = 2 → k.sending = some m → ¬ ((e.kind = 5 ∧ s.get (CAN_err_state n) = 1 ∧ e.quiet = true) ∨ (e.kind = 3 ∧ e.field = 0)) →
          z.get (CAN_ERRCNT_0 n) = min 511 (s.get (CAN_ERRCNT_0 n) + 8) ∧
          (255 < s.get (CAN_ERRCNT_0 n) + 8 → k.stopReq = false → z.get (CAN_state n) = 4 ∧ bitOf (z.get (rawOf pg)) 0 = true ∧
            z.get (CAN_BUSOFF_0 n) = s.oneMore (CAN_BUSOFF_0 n))))) ∧
    ∀ f : CanFrame, ((st = 0 ∨ st = 4 ∨ s.power ≠ .run) → exec (.canFrameReceived c f) s = .next s) ∧
      (st ≠ 0 → st ≠ 4 → s.power = .run →
        (∃ z, exec (.canFrameReceived c f) s = .next z ∧ z.get (CAN_RX_GOOD_0 n) = s.oneMore (CAN_RX_GOOD_0 n) ∧
          (st = 2 → let r := s.get (CAN_ERRCNT_16 n)
            (r ≤ 127 → z.get (CAN_ERRCNT_16 n) = r - 1) ∧ (127 < r → 119 ≤ z.get (CAN_ERRCNT_16 n) ∧ z.get (CAN_ERRCNT_16 n) ≤ 127)) ∧
          ((∀ i < 128, s.filterHit n i f = false) → z.get (CAN_RX_NOMATCH_0 n) = s.oneMore (CAN_RX_NOMATCH_0 n)) ∧
          (s.isF = false → st = 1 → s.get (CAN_AUTO_0 n) ≤ k.cnt + 1 → joined z ∧ z.get (CAN_AUTO_8 n) = k.cand % 16 ∧ bitOf (z.get (rawOf pg)) 4 = true) ∧
          (s.isF = false → st = 1 → k.cnt + 1 < s.get (CAN_AUTO_0 n) → z.get (CAN_state n) = 1 ∧ (z.can n).cnt = k.cnt + 1)) ∧
        ∀ i, s.isF = true → st = 3 → s.passive = false → (List.range 128).find? (fun i => s.filterHit n i f) = some i → s.get (CAN_F_CTL_4 n i) = 1 →
          exec (.canFrameReceived c f) s = .next (((s.count (CAN_RX_GOOD_0 n)).count (CAN_F_CNT_0 n i)).listWrite (0x8000 + n * 128 + i) (some s.now)
            (fitTo (canLen f) f.data) (s.listOf (s.get (CAN_F_TGT_0 n i)) (s.get (CAN_F_TGT_16 n i))) (CAN_F_CNT_16 n i)))

/-- 01 R19; 13 R340 to R344, R347, R351, R353, R356, R357, R360. -/
def Obligations.FieldIoLinksAndIslands : Prop :=
  ∀ (k : Fin 12) (s : State), let i := k.val; let pg := 0x52 + i; let st := s.get (FIO_state i); let q := s.il i
    let down := fun (z : State) => SMap.get z.wire (32 + i) []; let up := fun (z : State) => SMap.get z.wire (48 + i) []
    let page := fun (z : State) => z.hub = s.hub ∧ (∀ j, j ≠ i → z.il j = s.il j) ∧ ∀ g : Fld, g.pageOf ≠ pg → z.get g = s.get g
    let loads := fun (z : State) (slotB : Bool) => z.get (FIO_state i) = 1 ∧ z.get (FIO_CMD_STAT_0 i) = 0 ∧ z.get (FIO_MC_0 i) = b2n slotB ∧
      z.get (FIO_MC_16 i) = ramCrc (s.islandRam slotB) % 2 ^ 16 ∧ z.get (FIO_LINK_16 i) = s.oneMore (FIO_LINK_16 i) ∧ (z.il i).ram = s.islandRam slotB ∧
      (z.il i).alive = false ∧ (z.il i).applied = 0 ∧ (z.il i).held = none ∧ page z
    (∀ a, s.reaches a pg 0x040 →
      (∃ z, exec (.fioStop a k) s = .next z ∧ z.get (FIO_state i) = 0 ∧ z.get (FIO_CMD_STAT_0 i) = 0 ∧ (z.il i).alive = false ∧ (z.il i).held = none ∧ page z) ∧
      (∀ b, (st = 0 → ∃ z, exec (.fioStart a k b) s = .next z ∧ loads z b) ∧ (st ≠ 0 → exec (.fioStart a k b) s = .next (s.set (FIO_CMD_STAT_0 i) 1)) ∧
        ((st = 4 ∨ st = 5) → ∃ z, exec (.fioReload a k b) s = .next z ∧ loads z b) ∧ (st ≠ 4 → st ≠ 5 → exec (.fioReload a k b) s = .next (s.set (FIO_CMD_STAT_0 i) 1))) ∧
      (s.islOn i = false → exec (.fioClearFault a k) s = .next (s.set (FIO_CMD_STAT_0 i) 0)) ∧
      (s.islOn i = true → ∃ z, exec (.fioClearFault a k) s = .next z ∧ z.get (FIO_CMD_STAT_0 i) = 0 ∧ down z = islFrame [0x40, q.seq, 0x20, 0, 0, 0] ∧
        (z.il i).fault = (if q.linked then q.fault && q.cause else q.fault) ∧ page z)) ∧
    (∀ a n v, s.reaches a pg (0x100 + 4 * (n : Fin 8).val) →
      (8 ≤ i → exec (.fioInCfgWrite a k n v) s = .next s) ∧ (i < 8 → exec (.fioOutCfgWrite a k n v) s = .next s) ∧
      (i < 8 → ∃ z, exec (.fioInCfgWrite a k n v) s = .next z ∧ z.get (FIO_IN_CFG_0 i n) = max 1 (v % 256) ∧ z.get (FIO_IN_CFG_8 i n) = max 1 (v / 256 % 256) ∧
        z.get (FIO_IN_CFG_16 i n) = b2n (bitOf v 16) ∧ page z ∧
        (s.islOn i = true → q.linked = true → ((z.il i).chan n).lim = max 1 (v % 256) ∧ ((z.il i).chan n).brk = max 1 (v / 256 % 256) ∧ ((z.il i).chan n).wb = bitOf v 16)) ∧
      (8 ≤ i → ∃ z, exec (.fioOutCfgWrite a k n v) s = .next z ∧ z.get (FIO_OUT_CFG_0 i n) = v % 2 ^ (FIO_OUT_CFG_0 i n).w ∧ z.get (FIO_OUT_CFG_16 i n) = v / 2 ^ 16 % 32 ∧
        z.get (FIO_OUT_CFG_21 i n) = b2n (bitOf v 21) ∧ z.get (FIO_OUT_CFG_22 i n) = b2n (bitOf v 22) ∧ z.get (FIO_OUT_CFG_23 i n) = b2n (bitOf v 23) ∧
        z.get (FIO_OUT_CFG_24 i n) = max 2 (min 20 (v / 2 ^ 24 % 32)) ∧ page z)) ∧
    (¬ (s.islandPresent i = true ∧ st = 1) → exec (.fioLoadTimeout k) s = .next s) ∧
    (s.islandPresent i = true → st = 1 → ∃ z, exec (.fioLoadTimeout k) s = .next z ∧ z.get (FIO_state i) = 5 ∧ bitOf (z.get (rawOf pg)) 2 = true ∧ s.keepsBut z [pg, 7, 0x0A]) ∧
    (∀ got seen mv, (s.islOn i = false → exec (.fioRefreshSlot k got seen mv) s = .next s) ∧
      (s.islOn i = true → ∃ z, exec (.fioRefreshSlot k got seen mv) s = .next z ∧ (z.il i).linked = got ∧ (z.il i).seq = (q.seq + 1) % 256 ∧ z.hub = s.hub ∧ z.regs = s.regs ∧
        (got = true → q.alive = true → (z.il i).good = q.seq ∧ up z = (z.il i).answer (decide (8 ≤ i)) (if 8 ≤ i then seen else [])) ∧
        (got && q.alive = false → up z = up s) ∧
        (8 ≤ i → s.passive = false → down z = islFrame [0x10, q.seq, 0, 0, 0, 0]) ∧
        (8 ≤ i → s.passive = true → down z = islFrame [0x30, q.seq, 0, 0, 0, 0] ∧ (got = true → q.alive = true → (z.il i).dead = true ∧ (z.il i).drive = 0)) ∧
        (i < 8 → let pulse := s.pulseDue i; let sample := !pulse && q.slots == some 6;
          down z = islFrame [0x10 + 8 * b2n pulse + 4 * b2n sample, q.seq, 0, 0, 0, 0] ∧ (z.il i).slots = (if pulse then some 0 else q.slots.map (· + 1)) ∧
          (sample = true → got = true → q.alive = true → q.halt = false → (z.il i).sampled = true)))) ∧
    (∀ b, let good := fun t => uplinkGood i b t = true
      (s.islandPresent i = true → st = 1 →
        (good 10 → beAt b 2 1 = 1 → ∃ z, exec (.fioUplinkReceived k b) s = .next z ∧ z.get (FIO_state i) = 2 ∧ z.get (FIO_LINK_0 i) = 0 ∧ (z.il i).alive = true ∧ page z) ∧
        (good 10 → beAt b 2 1 ≠ 1 → ∃ z, exec (.fioUplinkReceived k b) s = .next z ∧ z.get (FIO_state i) = 5 ∧ bitOf (z.get (rawOf pg)) 2 = true) ∧
        (¬ good 10 → exec (.fioUplinkReceived k b) s = .next s)) ∧
      (¬ (s.islandPresent i = true ∧ st = 1) → s.islOn i = false → exec (.fioUplinkReceived k b) s = .next s) ∧
      (s.islOn i = true → let t := if 8 ≤ i then 9 else 8
        (¬ good t → exec (.fioUplinkReceived k b) s = exec (.fioUplinkTimeout k true) s) ∧
        (good t → ∃ z, exec (.fioUplinkReceived k b) s = .next z ∧ z.get (FIO_LINK_0 i) = 0 ∧ z.get (FIO_LINK_8 i) = beAt b 1 1 ∧ z.get (FIO_fault i) = b2n (bitOf (beAt b 0 1) 3) ∧
          (bitOf (beAt b 0 1) 2 = true → z.get (FIO_state i) = 4) ∧ (bitOf (beAt b 0 1) 2 = false → z.get (FIO_state i) = (if st = 4 then 4 else 2)) ∧
          (bitOf (beAt b 0 1) 2 = true → st ≠ 4 → bitOf (z.get (rawOf pg)) 2 = true) ∧
          (bitOf (beAt b 0 1) 2 = false → st ≠ 4 → (i < 8 → z.get (FIO_IN_STATE_0 i) = beAt b 2 2 ∧ z.get (FIO_IN_RAW_0 i) = beAt b 4 2) ∧
            (8 ≤ i → z.get (FIO_RB_0 i) = beAt b 2 2 ∧ z.get (FIO_OUT_STATE_0 i) = beAt b 4 1 ∧ z.get (FIO_OUT_STATE_16 i) = beAt b 5 1))))) ∧
    (∀ bad, (s.islOn i = false → exec (.fioUplinkTimeout k bad) s = .next s) ∧
      (s.islOn i = true → ∃ z, exec (.fioUplinkTimeout k bad) s = .next z ∧ z.get (FIO_err_count i) = s.oneMore (FIO_err_count i) ∧
        z.get (if bad then FIO_BAD_0 i else FIO_MISS_0 i) = s.oneMore (if bad then FIO_BAD_0 i else FIO_MISS_0 i) ∧ z.get (FIO_LINK_0 i) = s.oneMore (FIO_LINK_0 i) ∧
        (st = 2 → 3 ≤ s.get (FIO_LINK_0 i) + 1 → z.get (FIO_state i) = 3 ∧ z.get (FIO_STALE_CNT_0 i) = s.oneMore (FIO_STALE_CNT_0 i) ∧ bitOf (z.get (rawOf pg)) 1 = true) ∧
        (¬ (st = 2 ∧ 3 ≤ s.get (FIO_LINK_0 i) + 1) → z.get (FIO_state i) = st))) ∧
    (s.islandPresent i = true → ∃ z, exec (.islandMonostableExpiry k) s = .next z ∧ z.il i = { q with tripped := true } ∧ (z.il i).drive = 0 ∧ z.regs = s.regs) ∧
    (s.islandPresent i = false → exec (.islandMonostableExpiry k) s = .next s ∧ exec (.islandParityError k) s = .next s) ∧
    (q.alive = false → exec (.islandParityError k) s = .next s) ∧
    (s.islandPresent i = true → q.alive = true → ∃ z, exec (.islandParityError k) s = .next z ∧ (z.il i).halt = true ∧ (z.il i).fault = true ∧ (z.il i).drive = 0 ∧ z.regs = s.regs) ∧
    (∀ n : Fin 8, (¬ (8 ≤ i ∧ bitOf q.drive n.val = true) → exec (.outputCurrentLimitExpiry k n) s = .next s) ∧
      (8 ≤ i → bitOf q.drive n.val = true → ∃ z, exec (.outputCurrentLimitExpiry k n) s = .next z ∧ (z.il i).latched = setBit q.latched n.val ∧ (z.il i).fault = true ∧ z.regs = s.regs)) ∧
    (¬ (8 ≤ i ∧ q.drive ≠ 0) → exec (.islandOvercurrentTrip k) s = .next s) ∧
    (8 ≤ i → q.drive ≠ 0 → ∃ z, exec (.islandOvercurrentTrip k) s = .next z ∧ (z.il i).latched = 0xFF ∧ (z.il i).fault = true ∧ z.regs = s.regs)

/-- R364 to R366, R368 to R374, R378. -/
def Obligations.SpeedUnit : Prop :=
  (∀ (p : SpdPar) (c : SpdChan) (a b : Bool) (t : Nat), let k := (quadPos a b + 4 - quadPos c.t1 c.t2) % 4; let r := (c.edge p a b t).1
    r.t1 = a ∧ r.t2 = b ∧ r.last = some t ∧ ((k = 0 ∨ k = 2) → r.odo = c.odo) ∧ ((k = 1 ∨ k = 3) → r.odo = if (k == 1) != p.inv then c.odo + 1 else c.odo - 1)) ∧
  (∀ (ch : Nat → SpdChan) (v : Nat → Int) (m k : Nat), let l := (bitList 8 m).filter fun n => (ch n).st = 2; let r := consolidate ch v m k
    (l.length < max 1 k → r.valid = false ∧ r.speed = 0x7FFFFFFF ∧ r.dir = 3) ∧
    (max 1 k ≤ l.length → r.valid = true ∧ (∃ n ∈ l, r.speed = v n) ∧ (∀ n ∈ l, (v n).natAbs ≤ r.speed.natAbs) ∧ (∃ n ∈ l, r.spread = r.speed.natAbs - (v n).natAbs) ∧
      (r.still = true ↔ ∀ n ∈ l, (ch n).still = true))) ∧
  (∀ (j : Fin 8) (s : State), let n := j.val; let c := s.sp n; let on := s.spdPresent n = true ∧ c.st ≠ 0; let live := c.st = 1 ∨ c.st = 2
    let failed := fun (z : State) (cause : Nat) => (z.sp n).st = 3 ∧ (z.sp n).cause = cause ∧ z.get SPEED_fail_count = s.oneMore SPEED_fail_count ∧ bitOf (z.get (rawOf 0x5E)) 0 = true
    (∀ l1 l2 held, let r := c.edge (s.spdPar n) (trackClass (s.get (SPD_C_CFG_0 n)) c.t1 l1) (trackClass (s.get (SPD_C_CFG_0 n)) c.t2 l2) (s.perNow - s.get (SPD_C_CFG_4 n) * 10)
      (¬ on → exec (.trackEdge j l1 l2 held) s = .next s) ∧
      (on → ∃ z, exec (.trackEdge j l1 l2 held) s = .next z ∧ z.get (SPD_C_LEVEL_0 n) = min l1 1023 ∧ z.get (SPD_C_LEVEL_16 n) = min l2 1023 ∧
        (held = false → z.spd = s.spd ∧ z.get (SPD_C_EVT_0 n) = s.oneMore (SPD_C_EVT_0 n) ∧ s.keepsBut z [0x5E]) ∧
        (held = true → r.2.fail = 0 → z.sp n = { r.1 with f1 := r.1.f1 && trackFault (s.get (SPD_C_CFG_0 n)) l1, f2 := r.1.f2 && trackFault (s.get (SPD_C_CFG_0 n)) l2 } ∧
          ∀ g : Fld, g.pageOf ≠ 0x5E → z.get g = s.get g) ∧
        (held = true → r.2.fail ≠ 0 → (r.1.st = 1 ∨ r.1.st = 2) → failed z r.2.fail))) ∧
    (∀ t2 lv, let bad := trackFault (s.get (SPD_C_CFG_0 n)) lv
      (¬ on → exec (.trackFaultTimeout j false t2 lv) s = .next s) ∧
      (on → ∃ z, exec (.trackFaultTimeout j false t2 lv) s = .next z ∧ (if t2 then (z.sp n).f2 else (z.sp n).f1) = bad ∧ (bad = true → live → failed z (if t2 then 2 else 1)) ∧
        (bad = false → (z.sp n).st = c.st ∧ s.hub = z.hub))) ∧
    (∀ mv lim, let bad := lim || decide (mv < 20000) || decide (28000 < mv)
      (¬ on → exec (.sensorSupplyFault j mv lim) s = .next s) ∧
      (on → ∃ z, exec (.sensorSupplyFault j mv lim) s = .next z ∧ (z.sp n).fs = bad ∧ (bad = true → live → failed z 3) ∧ (bad = false → z.sp n = { c with fs := false }))) ∧
    (¬ on → exec (.standstillTimeout j) s = .next s) ∧
    (on → ∃ z, exec (.standstillTimeout j) s = .next z ∧ z.sp n = { c with still := true } ∧ z.spdF n = 0 ∧ z.regs = s.regs) ∧
    (s.spdPresent n = false → exec (.speedInitTimeout j false) s = .next s) ∧
    (s.spdPresent n = true → ∃ z, exec (.speedInitTimeout j false) s = .next z ∧ z.regs = s.regs ∧
      (c.st = 1 → c.f1 = false → c.f2 = false → c.fs = false → z.sp n = { c with st := 2, still := true, tEnd := none }) ∧
      (¬ (c.st = 1 ∧ c.f1 = false ∧ c.f2 = false ∧ c.fs = false) → z.sp n = c)) ∧
    (¬ (s.spdPresent n = true ∧ c.st = 2 ∧ s.spdWitness n = true) → exec (.frozenChannel j false) s = .next s) ∧
    (s.spdPresent n = true → c.st = 2 → s.spdWitness n = true → ∃ z, exec (.frozenChannel j false) s = .next z ∧ failed z 4) ∧
    ∀ a, s.power = .run → a.level ≠ 0 →
      (s.spdPresent n = true → s.readGives (.odometerRead a j) a (0x4005E118 + 64 * n) (s.set (SPD_C_ODO_HI_0 n (copyOf a)) (unsint 64 c.odo / 2 ^ 32)) (.value (unsint 64 c.odo % 2 ^ 32))) ∧
      (s.spdPresent n = false → s.readGives (.odometerRead a j) a (0x4005E118 + 64 * n) s (.value 0))) ∧
  (∀ s : State, let r := s.spdCons; let was := bitOf (s.get SPD_CONS_STAT_0) 0
    let shows := fun (z : State) => z.get SPD_CONS_V_0 = unsint 32 r.speed ∧ z.get SPD_CONS_STAT_0 % 2 = b2n r.valid ∧ z.get SPD_CONS_STAT_16 = r.mask % 2 ^ SPD_CONS_STAT_16.w ∧
      z.get SPD_SPREAD_0 = r.spread % 2 ^ SPD_SPREAD_0.w ∧ (was = true → r.valid = false → bitOf (z.get (rawOf 0x5E)) 1 = true) ∧
      (was = false → r.valid = true → bitOf (z.get (rawOf 0x5E)) 2 = true)
    (¬ (s.flag SPEED_loaded = true ∧ s.flag CYCLE_running = true) → exec .speedEvaluation s = .next s) ∧
    (s.flag SPEED_loaded = true → s.flag CYCLE_running = true → ∃ z, exec .speedEvaluation s = .next z ∧ shows z ∧
      ∀ n < 8, z.sp n = if (s.sp n).zero then { s.sp n with zero := false, odo := 0, gap := false } else s.sp n) ∧
    (¬ (s.flag SPEED_loaded = true ∧ s.flag CYCLE_running = false) → exec .speedRegisterUpdate s = .next s) ∧
    (s.flag SPEED_loaded = true → s.flag CYCLE_running = false → ∃ z, exec .speedRegisterUpdate s = .next z ∧ shows z ∧ z.spd = s.spd ∧ z.img = s.img)) ∧
  ∀ (a : Acc) (m : Nat) (s : State), s.reaches a 0x5E 0x05C →
    (∃ z, exec (.speedReadmit a m) s = .next z ∧ ∀ n < 8, s.spdPresent n = true →
      (bitOf m n = true → s.readmitNo n = 0 → (bitOf (z.get SPD_CMD_STAT_0) n = false ∧ ((s.sp n).st = 3 → (z.sp n).st = 2 ∧ (z.sp n).cause = 0 ∧ bitOf (z.get (rawOf 0x5E)) 4 = true))) ∧
      (bitOf m n = true → s.readmitNo n ≠ 0 → z.sp n = s.sp n ∧ bitOf (z.get SPD_CMD_STAT_0) n = true) ∧ (bitOf m n = false → z.sp n = s.sp n)) ∧
    ∃ z, exec (.odometerZero a m) s = .next z ∧ z.get SPD_CMD_STAT_0 = 0 ∧ z.hub = s.hub ∧ ∀ n < 8, s.spdPresent n = true →
      z.sp n = if bitOf m n = true then { s.sp n with zero := true } else s.sp n

/-- 01 R18; 15 R381 to R383, R386 to R392. -/
def Obligations.MillwrightStatesAndPermits : Prop :=
  (∀ (m : MwS) (outs t : Nat), let e := m.evaluate outs t
    (∀ n, bitOf e.permits n = true → n < outs ∧ e.st = 2 ∧ e.conditions (m.cons t) n = true ∧ bitOf e.lock n = false ∧ m.test ≠ some n) ∧
    (∀ n < outs, bitOf m.permits n = true → e.conditions (m.cons t) n = false → bitOf (m.hubByte 1) n = true → bitOf e.lock n = true) ∧
    (∀ n < outs, bitOf m.lock n = true → bitOf e.lock n = true) ∧ e.st = m.st ∧ e.cause = m.cause ∧ (m.st ≠ 2 → e.permits = 0)) ∧
  ∀ s : State, let m := s.mw; let up := m.st = 1 ∨ m.st = 2
    let goes := fun (c : Instr) (P : MwS → Prop) => ∃ x : MwS, exec c s = .next (s.updMw fun _ => x) ∧ P x
    let stopped := fun (st cause : Nat) (x : MwS) => x.st = st ∧ x.cause = cause ∧ x.permits = 0
    ((s.mwOut = 0 ∨ m.st ≠ 0) → exec .mwResetRelease s = .next s) ∧
    (s.mwOut ≠ 0 → m.st = 0 → (m.romGood = false → goes .mwResetRelease (stopped 3 1)) ∧
      (m.romGood = true → swLegal m.img = false → goes .mwResetRelease (stopped 3 3)) ∧
      (m.romGood = true → swLegal m.img = true → m.prof 0 2 = 0 → goes .mwResetRelease (stopped 3 4)) ∧
      (m.romGood = true → swLegal m.img = true → m.prof 0 2 ≠ 0 → goes .mwResetRelease fun x => x.st = 1 ∧ ∀ n < s.mwOut, x.chan n = (m.chan n).enterInit)) ∧
    (∀ (j : Fin 8) a b, let n := j.val; let r := (m.chan n).edge (m.par n) a b (s.mwNow - 20)
      let c : SpdChan := if r.2.fail ≠ 0 then ({ r.1 with still := false } : SpdChan).failWith r.2.fail else { r.1 with still := false }
      ((s.mwOut ≤ n ∨ (m.chan n).st = 0) → exec (.mwTrackEdge j a b) s = .next s) ∧
      (n < s.mwOut → (m.chan n).st ≠ 0 → goes (.mwTrackEdge j a b) fun x => x.chan n = c ∧ (∀ k, k ≠ n → x.chan k = m.chan k) ∧
        SMap.get x.pos n 0 = (if bitOf (m.prof 2 1) n = true ∧ c.st = 2 then SMap.get m.pos n 0 + (c.odo - (m.chan n).odo) else SMap.get m.pos n 0))) ∧
    (let l := (bitList 8 (m.prof 2 1)).filter fun n => (m.chan n).st = 2;
      ((s.mwOut = 0 ∨ ¬ up) → exec .mwStandstillEntry s = .next s) ∧
      (s.mwOut ≠ 0 → up → max 1 (m.prof 3 1) ≤ l.length → goes .mwStandstillEntry fun x => x.pos = [] ∧ x.ref = true ∧ x.dirBad = 0 ∧ ∀ n ∈ l, (x.chan n).still = true) ∧
      (s.mwOut ≠ 0 → up → l.length < max 1 (m.prof 3 1) → goes .mwStandstillEntry fun x => x.pos = m.pos ∧ x.ref = m.ref ∧ ∀ n ∈ l, (x.chan n).still = true)) ∧
    (∀ (j : Fin 8), let n := j.val; let set := fun (c : SpdChan) (x : MwS) => x.chan n = c ∧ ∀ k, k ≠ n → x.chan k = m.chan k;
      (∀ t2 lv, (¬ (n < s.mwOut ∧ trackFault 1 lv = true) → exec (.trackFaultTimeout j true t2 lv) s = .next s) ∧
        (n < s.mwOut → trackFault 1 lv = true → goes (.trackFaultTimeout j true t2 lv) (set ((m.chan n).failWith (if t2 then 2 else 1))))) ∧
      (s.mwOut ≤ n → exec (.speedInitTimeout j true) s = .next s) ∧ (n < s.mwOut → goes (.speedInitTimeout j true) (set (m.chan n).initEnd)) ∧
      (¬ (n < s.mwOut ∧ (m.chan n).st = 2 ∧ s.mwWitness n = true) → exec (.frozenChannel j true) s = .next s) ∧
      (n < s.mwOut → (m.chan n).st = 2 → s.mwWitness n = true → goes (.frozenChannel j true) (set { m.chan n with st := 3, cause := 4 }))) ∧
    (∀ ok, let bad := s.mwOut ≠ 0 ∧ up ∧ (ok && m.romGood) = false;
      (¬ bad → exec (.mwRomCheck ok) s = .next s) ∧ (bad → goes (.mwRomCheck ok) (stopped 4 2))) ∧
    (s.mwOut = 0 → (∀ v, exec (.mwDiSample v) s = .next s) ∧ exec .mwDiPulseTimeout s = .next s ∧ exec .mwEvaluationTick s = .next s) ∧
    (s.mwOut ≠ 0 → (∀ v, goes (.mwDiSample v) fun x => ∀ k < 8, bitOf x.di k =
        if bitOf v k ≠ bitOf m.di k ∧ 3 ≤ SMap.get m.diRun k 0 + 1 then bitOf v k else bitOf m.di k) ∧
      exec .mwDiPulseTimeout s = .next (s.updMw fun m => { m with di := 0, diRun := [] })) ∧
    (∀ lane, let differs := m.st = 2 ∧ (if lane then m.agreeLane (m.cons s.mwNow) else m.agreeUnit (m.cons s.mwNow)) = false;
      (¬ differs → exec (.mwCrossCheckTimeout lane) s = .next s) ∧ (differs → goes (.mwCrossCheckTimeout lane) (stopped 4 (if lane then 10 else 9)))) ∧
    (∀ iv, (m.st ≠ 2 → exec (.mwFrameTimeout iv) s = .next s) ∧ (m.st = 2 → goes (.mwFrameTimeout iv) (stopped 4 (if iv then 8 else 7)))) ∧
    (¬ up → exec .hubHealthyLow s = .next s) ∧ (up → goes .hubHealthyLow (stopped 4 11)) ∧
    (∀ b, let q := beAt b 0 1 % 16; let good := mwFrameOk 1 b = true ∧ (m.seqIn = 0 ∨ m.seqIn % 16 = q)
      let loaded := bitOf (beAt b 3 1) 0 = true; let same := beAt b 13 2 = swSlice m.img q
      ((s.mwOut = 0 ∨ m.st = 0) → exec (.mwHubFrameReceived b) s = .next s) ∧
      (s.mwOut ≠ 0 → m.st ≠ 0 → ¬ good → goes (.mwHubFrameReceived b) fun x => x.bad = m.bad + 1 ∧ x.good = 0 ∧ x.hub = m.hub ∧
        (m.st = 2 → 3 ≤ m.bad + 1 → stopped 4 7 x) ∧ (¬ (m.st = 2 ∧ 3 ≤ m.bad + 1) → x.st = m.st ∧ x.permits = m.permits)) ∧
      (s.mwOut ≠ 0 → m.st ≠ 0 → good → goes (.mwHubFrameReceived b) fun x => x.bad = 0 ∧ x.hub = b.take 16 ∧ x.seqIn = q + 1 ∧
        (up → loaded → ¬ same → stopped 3 5 x) ∧ (m.st = 1 → loaded → same → 4 ≤ m.good + 1 → x.st = 2) ∧ (m.st = 1 → loaded → same → m.good + 1 < 4 → x.st = 1) ∧
        (m.st = 2 → (loaded → same) → x.st = 2))) ∧
    (m.st = 0 → exec .mwEvaluationTick s = .next s) ∧
    (s.mwOut ≠ 0 → m.st ≠ 0 → ∃ z, exec .mwEvaluationTick s = .next z ∧ z.mw = { m.evaluate s.mwOut s.mwNow with seq := (m.seq + 1) % 16 } ∧ z.regs = s.regs ∧ z.hub = s.hub ∧
      let f := SMap.get z.wire 81 []; mwFrameOk 2 f = true ∧ beAt f 0 1 = 0x20 + m.seq % 16 ∧ beAt f 1 1 = z.mw.permits ∧ beAt f 2 1 = (m.st + 8 * m.cause) % 256 ∧ beAt f 11 1 = m.di % 256)

/-- 15 R392 to R395, R402; 24 R583. -/
def Obligations.SafetyOutputs : Prop :=
  ∀ s : State, let st := s.get SO_STATE_0
    (s.mwOut = 0 → exec .hubFrameSend s = .next s ∧ (∀ b, exec (.millwrightFrameReceived b) s = .next s) ∧ (∀ m o p k, exec (.safetyOutputSense m o p k) s = .next s) ∧
      exec .testPulseDue s = .next s) ∧
    (s.mwOut ≠ 0 → exec .hubFrameSend s = .next ((s.setWire 80 s.hubFrame).updSo fun o => { o with seq := (o.seq + 1) % 16 })) ∧
    (let f := s.hubFrame; mwFrameOk 1 f = true ∧ beAt f 0 1 = 0x10 + s.so.seq % 16 ∧ beAt f 1 1 = st % 256 ∧ beAt f 2 1 = s.get SO_FAILED_0 % 256 ∧
      bitOf (beAt f 3 1) 0 = (s.so.accepted && s.flag SWITCHES_passed) ∧ bitOf (beAt f 3 1) 1 = s.so.test.isSome ∧ beAt f 9 4 = s.laneSpeed ∧ beAt f 13 2 = swSlice s.swCfg s.so.seq) ∧
    (∀ b, s.mwOut ≠ 0 → let q := beAt b 0 1 % 16; let good := mwFrameOk 2 b = true ∧ (s.so.mwSeq = 0 ∨ s.so.mwSeq % 16 = q)
      (¬ good → ∃ z, exec (.millwrightFrameReceived b) s = .next z ∧ z.get MILLWRIGHT_frame_errs = s.oneMore MILLWRIGHT_frame_errs ∧ bitOf (z.get (rawOf 0x5F)) 3 = true ∧
        z.get MW_PERMIT_0 = s.get MW_PERMIT_0 ∧ z.mw = s.mw ∧ z.hub = s.hub) ∧
      (good → ∃ z, exec (.millwrightFrameReceived b) s = .next z ∧ z.get MILLWRIGHT_state = beAt b 2 1 % 8 ∧ z.get MW_FAULT_0 = beAt b 2 1 / 8 ∧ z.get MW_PERMIT_0 = beAt b 1 1 ∧
        z.get MW_SPEED_0 = beAt b 4 4 ∧ z.get SO_STATE_0 = st ∧ z.mw = s.mw ∧ (beAt b 1 1 ≠ s.get MW_PERMIT_0 → bitOf (z.get (rawOf 0x5F)) 0 = true) ∧
        (beAt b 2 1 % 8 = 4 → s.get MILLWRIGHT_state ≠ 4 → bitOf (z.get (rawOf 0x5F)) 1 = true) ∧ (beAt b 2 1 % 8 = 3 → s.get MILLWRIGHT_state ≠ 3 → bitOf (z.get (rawOf 0x5F)) 2 = true))) ∧
    (∀ mid out permit ok, s.mwOut ≠ 0 → ∃ z, exec (.safetyOutputSense mid out permit ok) s = .next z ∧ z.get SO_STATE_0 = st ∧ z.get SO_STATE_8 = mid % 256 ∧ z.get SO_STATE_16 = out % 256 ∧
      z.get MW_PERMIT_8 = permit % 256 ∧ z.so.cmd = st ∧ z.so.permit = permit ∧ (ok = false → s.so.noSup = false → bitOf (z.get (rawOf 0x60)) 2 = true) ∧
      ∀ n < s.mwOut, let changed := (bitOf st n != bitOf s.so.cmd n || bitOf permit n != bitOf s.so.permit n) = true; let left := if changed then 10 else SMap.get s.so.blank n 0
        (left ≠ 0 → SMap.get z.so.blank n 0 = left - 1 ∧ bitOf (z.get SO_FAILED_0) n = bitOf (s.get SO_FAILED_0) n ∧ ∀ c < 8, SMap.get z.so.bad (8 * n + c) 0 = 0) ∧
        (left = 0 → (bitOf (s.get SO_FAILED_0) n = true → bitOf (z.get SO_FAILED_0) n = true) ∧
          ∀ c ∈ soConditions (bitOf st n) (bitOf mid n) (bitOf out n) (bitOf permit n) (bitOf (s.get MW_PERMIT_0) n) ok (s.flag (SO_BIND_21 n) && !s.inCharge),
            SMap.get z.so.bad (8 * n + c.1) 0 = (if c.2 = true then min (SMap.get s.so.bad (8 * n + c.1) 0 + 1) 3 else 0) ∧
            (c.2 = true → 2 ≤ SMap.get s.so.bad (8 * n + c.1) 0 → bitOf (z.get SO_FAILED_0) n = true))) ∧
    (∀ n : Fin 8, (¬ (n.val < s.mwOut ∧ bitOf st n.val = true) → exec (.safetyOutputOverload n) s = .next s) ∧
      (n.val < s.mwOut → bitOf st n.val = true → exec (.safetyOutputOverload n) s = .next (s.updSo fun o => { o with limited := setBit o.limited n.val }))) ∧
    (s.mwOut ≠ 0 → let l := (List.range s.mwOut).filter fun n => bitOf st n && !bitOf (s.get SO_FAILED_0) n; let w := l.foldl setBit s.so.want; let idle := s.so.want = 0 ∧ s.so.test = none
      (l = [] → idle → ∃ z, exec .testPulseDue s = .next z ∧ z.get SO_TEST_STAT_0 = s.oneMore SO_TEST_STAT_0 ∧ z.get SO_TEST_STAT_16 = 0 ∧ bitOf (z.get (rawOf 0x60)) 1 = true ∧ z.so.test = none) ∧
      (¬ (l = [] ∧ idle) → ∃ z, exec .testPulseDue s = .next z ∧ z.regs = s.regs ∧ z.so.test = s.so.test.or (bitList 8 (w &&& s.energised)).head? ∧
        (s.so.test ≠ none → z.so.want = w) ∧ (s.so.test = none → z.so.want = match (bitList 8 (w &&& s.energised)).head? with | some n => clrBit w n | none => w))) ∧
    (∀ ok, (s.so.test = none → exec (.testPulseEnd ok) s = .next s) ∧
      ∀ n < 8, s.so.test = some n → ∃ z, exec (.testPulseEnd ok) s = .next z ∧ bitOf z.so.tested n = true ∧ z.mw.test = none ∧ (ok = false → bitOf (z.get SO_FAILED_0) n = true) ∧
        (ok = true → z.get SO_FAILED_0 = s.get SO_FAILED_0 ∧ z.so.test = (bitList 8 (s.so.want &&& s.energised)).head?) ∧
        (s.so.want = 0 → z.get SO_TEST_STAT_0 = s.oneMore SO_TEST_STAT_0 ∧ bitOf (z.get (rawOf 0x60)) 1 = true)) ∧
    ∀ a, s.reaches a 0x60 0x048 → exec (.soTestRunNow a) s = exec .testPulseDue (s.noteAccess a)

/-- 15 R396, R397, R403; 16 R413, R414, R417. -/
def Obligations.SwitchesAndSafeConnections : Prop :=
  (∀ (run : SMap Nat) (base reading pins bits : Nat), let d := swDebounce run base reading pins bits
    ∀ i < bits, let k := SMap.get run (base + i) 0 + 1
      (bitOf d.1 i = true ↔ bitOf pins i ≠ bitOf reading i ∧ 10 ≤ k) ∧
      SMap.get d.2 (base + i) 0 = if bitOf pins i ≠ bitOf reading i ∧ k < 10 then k else 0) ∧
  (∀ (s : State) (pins mp : Nat), let d := swDebounce s.swRun 0 s.swRead pins 64; let e := swDebounce d.2 64 s.mw.img mp 60; let up := s.mw.st = 1 ∨ s.mw.st = 2
    let trip := d.1 % 2 ^ 60 ≠ 0 ∧ s.flag SWITCHES_passed = true ∧ s.flag SWITCHES_changed = false
    ∃ z, exec (.switchSample pins mp) s = .next z ∧ z.swRead = (s.swRead ^^^ d.1) % 2 ^ 64 ∧
      z.get SWITCHES_changes = min (s.get SWITCHES_changes + popc 64 d.1) (2 ^ SWITCHES_changes.w - 1) ∧ (bitOf d.1 60 = true → bitOf (z.get (rawOf 0x64)) 1 = true) ∧
      (trip → z.flag SWITCHES_changed = true ∧ z.so.block = true ∧ (up → z.mw.st = 3 ∧ z.mw.cause = 6 ∧ z.mw.permits = 0)) ∧
      (¬ trip → z.so = s.so ∧ (s.mwOut = 0 ∨ e.1 = 0 ∨ ¬ up → z.mw = { s.mw with img := if s.mwOut = 0 then s.mw.img else s.mw.img ^^^ e.1 })) ∧
      (s.mwOut = 0 → z.mw.img = s.mw.img) ∧ (s.mwOut ≠ 0 → z.mw.img = s.mw.img ^^^ e.1 ∧ (e.1 ≠ 0 → up → z.mw.st = 3 ∧ z.mw.cause = 6 ∧ z.mw.permits = 0))) ∧
  (∀ s : State, (s.flag SWITCHES_mw_diff = false → exec .switchMismatchTimeout s = .next s) ∧
    (s.flag SWITCHES_mw_diff = true → ∃ z, exec .switchMismatchTimeout s = .next z ∧ z.so = { s.so with block := true } ∧
      ((s.mw.st = 1 ∨ s.mw.st = 2) → z.mw.st = 3 ∧ z.mw.cause = 5 ∧ z.mw.permits = 0) ∧ (¬ (s.mw.st = 1 ∨ s.mw.st = 2) → z.mw = s.mw))) ∧
  ∀ (s : State) (j : Fin 64), let n := j.val; let st := s.get (SM_R_STAT_0 n)
    (s.safe.rx[n]? = none → exec (.safeWatchdogExpiry j) s = .next s ∧ exec (.safeAutoRecovery j) s = .next s) ∧
    (∀ c, s.safe.rx[n]? = some c → (st ≠ 1 → st ≠ 2 → exec (.safeWatchdogExpiry j) s = .next s) ∧
      (¬ (st = 3 ∧ c.autoRec = true) → exec (.safeAutoRecovery j) s = .next s) ∧
      ((st = 1 ∨ st = 2) → ∃ z, exec (.safeWatchdogExpiry j) s = .next z ∧ z.get (SM_R_STAT_0 n) = 3 ∧ z.get (SM_R_STAT_2 n) = 1 ∧ bitOf (z.get (rawOf 0x61)) 0 = true ∧
        (z.rxRun n).failedAt = s.counter ∧ ∀ k < 64, k ≠ n → z.get (SM_R_STAT_0 k) = s.get (SM_R_STAT_0 k)) ∧
      (st = 3 → c.autoRec = true → ∃ z, exec (.safeAutoRecovery j) s = .next z ∧ z.get (SM_R_STAT_0 n) = 1 ∧ z.get (SM_R_STAT_6 n) = 0 ∧ (z.rxRun n).ref = false)) ∧
    ∀ a, s.reaches a 0x61 0x044 → ∃ z, exec (.smReset a j) s = .next z ∧
      ((s.safe.rx[n]? = none ∨ s.flag (SM_R_BIND_31 n) = false) → z.get SM_CMD_STAT_0 = 3 ∧ z.safe = s.safe) ∧
      (∀ c, s.safe.rx[n]? = some c → s.flag (SM_R_BIND_31 n) = true → let due := (s.rxRun n).failedAt + c.recMin * 500000
        (st ≠ 3 → z.get SM_CMD_STAT_0 = 1 ∧ z.safe = s.safe) ∧ (st = 3 → s.counter < due → z.get SM_CMD_STAT_0 = 2 ∧ z.safe = s.safe) ∧
        (st = 3 → due ≤ s.counter → z.get SM_CMD_STAT_0 = 0 ∧ z.get (SM_R_STAT_0 n) = 1 ∧ (z.rxRun n).ref = false))

/-- 08 R225 to R229; 10 R291; 23 R566; 00 R11. -/
def Obligations.TallymanAndLatchedReads : Prop :=
  (∀ (s : State) (j : Fin 17) (r ns : Nat), let b := j.val; let u := SMap.get s.tally.used r 0 + 1
    let waits := fun (z : State) (f : Fld) => (b < 16 → z.get f = max (s.get f) (min ns (2 ^ f.w - 1)) % 2 ^ f.w) ∧
      (1023 ≤ ns → z.get TALLY_sat_count = s.oneMore TALLY_sat_count ∧ bitOf (z.get (rawOf 0x0D)) 0 = true) ∧ (ns < 1023 → z.get TALLY_sat_count = s.get TALLY_sat_count)
    (∃ z, exec (.tallyGrant false j r ns) s = .next z ∧ waits z (TALLY_WAITA_0 b) ∧ z.tally = s.tally ∧ z.get TALLY_masked = s.get TALLY_masked) ∧
    ((15 ≤ r ∨ bitOf (s.get TALLY_masked) r = true) → exec (.tallyGrant true j r ns) s = .next s) ∧
    (r < 15 → bitOf (s.get TALLY_masked) r = false → ∃ z, exec (.tallyGrant true j r ns) s = .next z ∧ waits z (TALLY_WAITB_0 b) ∧
      z.get (TALLY_GRANTS_0 r) = s.oneMore (TALLY_GRANTS_0 r) ∧
      (s.flag (TALLY_HP_0 r) = false → z.tally = s.tally ∧ z.get TALLY_masked = s.get TALLY_masked) ∧
      (s.flag (TALLY_HP_0 r) = true → SMap.get z.tally.used r 0 = u ∧ (u < s.get (TALLY_HP_1 r) → z.get TALLY_masked = s.get TALLY_masked) ∧
        (s.get (TALLY_HP_1 r) ≤ u → bitOf (z.get TALLY_masked) r = true ∧ bitOf (z.get (rawOf 0x0D)) 2 = true)))) ∧
  (∀ s : State, (∃ z, exec .quotaPeriodEnd s = .next z ∧ z.get TALLY_masked = 0 ∧ z.tally.used = [] ∧ ∀ g : Fld, g.key ≠ TALLY_masked.key → z.get g = s.get g) ∧
    ∀ sys : Bool, let f := if sys then TALLY_TAGS_13 else TALLY_TAGS_0; ∃ z, exec (.fabricTagFreed sys) s = .next z ∧ z.get f = (s.get f - 1) % 2 ^ f.w ∧
      s.keepsBut z [0x0D] ∧ ∀ g : Fld, g.key ≠ f.key → z.get g = s.get g) ∧
  ∀ (s : State) (a : Acc), s.power = .run → a.level ≠ 0 →
    (∀ x : Fin 6, let n := x.val; let here := bitOf (s.byVar 0x3F 0x33 0x13) n
      (here = true → s.readGives (.tsTxlastRead a x) a (0x40039060 + 8 * n) (s.set (TS_TXLAST_HI_0 n (copyOf a)) (s.get (txlastHi n))) (.value (s.get (TS_TXLAST_LO_0 n)))) ∧
      (here = false → s.readGives (.tsTxlastRead a x) a (0x40039060 + 8 * n) s (.value 0))) ∧
    (s.isS = false → s.readGives (.tsPcapRead a) a 0x400390A4 (s.set (TS_PCAP_HI_0 (copyOf a)) (s.get pcapHi)) (.value (s.get TS_PCAP_LO_0))) ∧
    (s.isS = true → s.readGives (.tsPcapRead a) a 0x400390A4 s (.value 0)) ∧
    s.readGives (.hdbgTRead a) a 0x40065048 (s.set (HDBG_T_HI_0 (copyOf a)) (s.get State.attach.HDBG_TS_HI)) (.value (s.get HDBG_T_LO_0)) ∧
    ∀ page, s.pagePresent page = true → let f : Fld := ⟨page, 0x030, 0, 16, 0, 0⟩
      s.readGives (.readClearAccess a page 0x030) a (0x40000030 + 0x1000 * page) (s.set f 0) (.value (s.get f))

/-- 23 R553 to R555, R558; 00 R9, R11, R12; 05 R131; 06 R170; 08 R223; 09 R244. -/
def Obligations.RegisterWrites : Prop :=
  (∀ (a : Acc) (page off v : Nat) (s : State), a.level ≠ 0 → let c := exec (.registerWrite a page off v) s
    ((s.power ≠ .run ∨ s.pagePresent page = false) → c = .next s) ∧
    (s.power = .run → s.pagePresent page = true → a.level = 1 → writeLevel page off = 2 → c = .next (s.storeFault a.pair a.seq (0x40000000 + page * 0x1000 + off))) ∧
    (s.reaches a page off → s.regAbsent page off = true → c = .next s) ∧
    (s.reaches a page off → s.cmdWrite a page off v = none → s.writeIgnored page off = true → off ≠ 0x024 → off ≠ 0x02C → c = .next s)) ∧
  (∀ (a : Acc) (page off v : Nat) (s : State), off < 0x1000 → s.keepsBut (s.plainWrite a page off v) [page % 128]) ∧
  (∀ (a : Acc) (page v : Nat) (s : State), exec (.registerWrite a page 0x024 v) s = exec (.intEnWrite a page v) s ∧ exec (.registerWrite a page 0x02C v) s = exec (.intClrWrite a page v) s ∧
    exec (.registerWrite a 0x0A 0x044 v) s = exec (.courSoftWrite a v) s ∧ exec (.registerWrite a 0x0B 0x00C v) s = exec (.cycleRunWrite a v) s) ∧
  (∀ (a : Acc) (v : Nat) (s : State), s.reaches a 0x0D 0x040 → exec (.registerWrite a 0x0D 0x040 v) s = .next (s.set TALLY_PERIOD_0 (max 64 (v % 2 ^ 16)))) ∧
  (∀ (a : Acc) (i v : Nat) (s : State), i < 15 → s.reaches a 0x0D (0x080 + 4 * i) →
    exec (.registerWrite a 0x0D (0x080 + 4 * i) v) s = .next ((s.set (TALLY_HP_0 i) (v % 2)).set (TALLY_HP_1 i) (max 1 (v / 2 % 2 ^ 8)))) ∧
  (∀ (a : Acc) (i v : Nat) (s : State), i < 4 → s.reaches a (0x5A + i) 0x090 → let f : Fld := ⟨0x5A + i, 0x090, 0, 24, 0, 0⟩
    ∃ z, exec (.registerWrite a (0x5A + i) 0x090 v) s = .next z ∧ (∀ g : Fld, g.key ≠ f.key → z.get g = s.get g) ∧ ∀ k < 24, bitOf (z.get f) k = (bitOf (s.get f) k && !bitOf v k)) ∧
  (∀ (a : Acc) (v : Nat) (s : State), s.reaches a 0x0B 0x040 → ∃ z, exec (.registerWrite a 0x0B 0x040 v) s = .next z ∧
    z.get CYC_BASE_0 = if s.flag CYCLE_run = true then s.get CYC_BASE_0 else max 10 (min 10000 (v % 2 ^ 14))) ∧
  ∀ (s : State) (c : Nat), (s.get (CAN_state c) ≠ 0 → c < 16 → s.writeIgnored (0x42 + c) 0x044 = true ∧ s.writeIgnored (0x42 + c) 0x048 = true) ∧
    ((s.q (s.get QMGR_CSEL_0)).enabled = true → ∀ k < 5, s.writeIgnored 0x0E (0x104 + 4 * k) = true) ∧
    (s.get ALM_ESEL_12 = s.get ALMANAC_active_bank → ∀ k < 15, s.writeIgnored 0x36 (0x100 + 4 * k) = true) ∧
    (s.get (POLL_ESEL_10 c) = s.pollBank c → c < 8 → ∀ k < 15, s.writeIgnored (0x3A + c) (0x100 + 4 * k) = true) ∧
    (s.flag BR_CTL_0 = true → s.writeIgnored 0x62 0x044 = true ∧ s.writeIgnored 0x62 0x048 = true)

/-- 17 R421 to R427. -/
def Obligations.PairSegmentsAndSets : Prop :=
  (∀ (t la k n : Nat) (recs : List Byte), recs.length ≤ 2048 → segGood (segment t la k n recs) = true) ∧
  (∀ (s : State) (t la k n x : Nat), (s.leaseRec x).length = 32 ∧ leaseIn (segment t la k n (s.leaseRec x)) = some (s.leaseRec x) ∧
    beAt (s.leaseRec x) 1 1 % 8 = s.get MIRROR_state % 8 ∧ beAt (s.leaseRec x) 4 4 = s.get MIR_LEASE_0 % 2 ^ 32) ∧
  (∀ s : State, let hails := s.linksLive = true ∧ (s.get MIRROR_state = 1 ∨ s.get MIRROR_state = 4)
    (hails → exec .helloSend s = .next (s.updMir fun m => { m with sent := [segment 0x48 0 0 0 (s.leaseRec 0)] })) ∧ (¬ hails → exec .helloSend s = .next s)) ∧
  (∀ (s : State) (j : Fin 2) (g : List Byte), let l := j.val; let c := exec (.mirrorSegmentReceived j g) s; let st := s.get MIRROR_state
    let live := s.linksLive = true ∧ bitOf (s.get MIR_CTL_16) l = true; let n := beAt g 4 8 + 1; let k := beAt g 2 2; let set := beAt g 0 1 = 0x4D ∧ st = 3
    let known := s.mir.applied = n ∨ (s.mir.setN = n ∧ ∃ x ∈ s.mir.segs, x.1 = k)
    (¬ live → c = .next s) ∧ (live → segGood g = false → c = .next (s.count MIRROR_seg_errs)) ∧
    (live → segGood g = true → ∃ z, c = .next z ∧ z.get (MIR_SEG_GOOD_0 l) = s.oneMore (MIR_SEG_GOOD_0 l) ∧ bitOf (z.get MIR_PARTNER_8) l = true ∧
      SMap.get z.mir.good l 0 = s.counter + 1 ∧ (bitOf (s.get MIR_PARTNER_8) l = false → bitOf (z.get (rawOf 0x34)) 3 = true) ∧
      (set → known → z.mir.segs = s.mir.segs ∧ z.mir.setN = s.mir.setN) ∧
      (set → ¬ known → z.mir.setN = n ∧ z.mir.segs = if s.mir.setN = n then s.mir.segs ++ [(k, g)] else [(k, g)]) ∧
      (leaseIn g = none → z.get MIRROR_state = st) ∧
      ∀ r, leaseIn g = some r → ¬ (set ∧ known) → let p := beAt r 1 1 % 8; let own := beAt r 2 2 % 2 = s.get SW_CFG_LO_0 % 2 ∧ beAt r 8 4 = s.img.cfgId
        z.get MIR_PARTNER_0 = p ∧ z.get MIR_PARTNER_5 = 1 ∧ (z.mir.badPair = false ↔ own ∧ beAt r 28 4 = s.get CYC_BASE_0) ∧
        (st = 1 → own → p = 2 → z.get MIRROR_state = 3) ∧ (st = 1 → own → (p = 3 ∨ p = 4) → z.get MIRROR_state = 1 ∧ z.mir.seekGo = 1) ∧
        (st = 1 → ¬ own → z.get MIRROR_state = 1 ∧ z.mir.seekGo = s.mir.seekGo) ∧
        (set → p = 2 → bitOf (beAt r 1 1) 5 = false → z.mir.renewed = s.counter + 1 ∧ z.mir.expired = false) ∧
        (st = 3 → ¬ set → z.mir.renewed = s.mir.renewed ∧ z.mir.expired = s.mir.expired))) ∧
  (∀ s : State, let c := exec .boundarySetApply s
    ((s.get MIRROR_state ≠ 3 ∨ s.mir.applied = s.mir.setN ∨ s.wholeSet = none) → c = .next s) ∧
    (∀ l, s.get MIRROR_state = 3 → s.mir.applied ≠ s.mir.setN → s.wholeSet = some l → ∃ z, c = .next z ∧ z.mir.applied = s.mir.setN ∧
      z.get MIR_LAST_0 = (l.map List.length).sum % 2 ^ MIR_LAST_0.w ∧ exec .boundarySetApply z = .next z)) ∧
  ∀ (s : State) (n : Nat) (r : List Byte), let k := beAt r 0 1; let z := s.recApply n r
    (k = 4 → z.get MIR_PHEAD_0 = beAt r 4 4 ∧ z.hub = s.hub) ∧
    (k = 5 → beAt r 2 2 < s.safe.tx.length → z.get (SM_T_SEQ_0 (beAt r 2 2)) = beAt r 4 4 ∧ (z.txRun (beAt r 2 2)).next = (beAt r 4 4 + 1) % 2 ^ 32) ∧
    (k = 1 → bitOf (beAt r 1 1) 5 = true → z = s.updMir fun m => { m with due := 3 }) ∧
    (k = 3 → s.mir.almN = n → (z.mir.almBad = true ↔ r ≠ s.mir.alm)) ∧ ((k = 2 ∨ k = 6) → s.var (beAt r 2 2) = none → z.hub = s.hub)

/-- 17 R420, R421, R423, R428, R430 to R433, R440. -/
def Obligations.PairStates : Prop :=
  (∀ (s : State) (j : Fin 2), let l := j.val; let was := bitOf (s.get MIR_PARTNER_8) l
    let down := fun (z : State) => bitOf (z.get MIR_PARTNER_8) l = false ∧ (was = true → bitOf (z.get (rawOf 0x34)) 3 = true) ∧
      (s.get MIRROR_state = 3 → was = true → z.get MIR_PARTNER_8 = 0 → s.ownRecent = true → z.flag MIRROR_sync = false) ∧ z.get MIRROR_state = s.get MIRROR_state
    (s.linksLive = false → exec (.mirrorLinkTimeout j) s = .next s ∧ exec (.mirrorBlockLockLoss j) s = .next s) ∧
    (s.linksLive = true → (∃ z, exec (.mirrorLinkTimeout j) s = .next z ∧ down z ∧ (z.get MIR_PARTNER_8 = 0 → z.get MIR_PARTNER_5 = 0)) ∧
      ∃ z, exec (.mirrorBlockLockLoss j) s = .next z ∧ down z ∧ z.get MIR_PARTNER_5 = s.get MIR_PARTNER_5)) ∧
  (∀ s : State, let st := s.get MIRROR_state; let waits := s.linksLive = true ∧ st = 1 ∧ s.mir.pSeen = 0
    let runs := s.linksLive = true ∧ st = 3 ∧ s.mir.renewed ≠ 0 ∧ s.mir.expired = false
    (¬ waits → exec .pairWaitExpiry s = .next s) ∧
    (waits → s.mir.ownSeen = true → ∃ z, exec .pairWaitExpiry s = .next z ∧ z.get MIRROR_state = 3 ∧ z.get MIRROR_sync = 0 ∧ z.get MIR_SYNC_STAT_0 = 1 ∧ z.mir.renewed = 0) ∧
    (waits → s.mir.ownSeen = false → exec .pairWaitExpiry s = .next (s.updMir fun m => { m with seekGo := 1 })) ∧
    (¬ runs → exec .leaseExpiry s = .next s) ∧
    (runs → exec .leaseExpiry s = .next (s.updMir fun m => { m with expired := true, due := if m.due = 0 then 1 else m.due })) ∧
    (let z := s.mirDuties; let promoted := z.get MIRROR_state = 2 ∧ z.get MIR_LEASE_0 = (s.get MIR_LEASE_0 + 1) % 2 ^ 32 ∧ z.get MIR_PROMOTE_0 = s.oneMore MIR_PROMOTE_0 ∧
        z.mir.promoted = s.counter + 1 ∧ bitOf (z.get (rawOf 0x34)) 0 = true
      (st = 1 → s.mir.seekGo ≠ 0 → z.get MIRROR_state = 2 ∧ z.get MIR_LEASE_0 = s.get MIR_LEASE_0) ∧ (st = 3 → (s.mir.due = 2 ∨ s.mir.due = 3) → promoted) ∧
      (st = 3 → s.mir.due = 1 → s.flag MIRROR_sync = true → s.ownRecent = false → promoted) ∧
      (st = 3 → s.mir.due = 1 → (s.flag MIRROR_sync = false ∨ s.ownRecent = true) → z.get MIRROR_state = 3 ∧ z.mir.due = 0 ∧ bitOf (z.get (rawOf 0x34)) 1 = true) ∧
      (st = 2 → s.mir.abd = 1 → z = s.updMir fun m => { m with abd := 2 }) ∧ (st = 2 → s.mir.abd = 2 → z.get MIRROR_state = 3 ∧ z.get MIRROR_hold = 1))) ∧
  ∀ (s : State) (a : Acc), s.reaches a 0x34 0x048 → let st := s.get MIRROR_state
    let ready := s.get MIR_PARTNER_0 = 3 ∧ s.flag MIR_PARTNER_5 = true ∧ s.flag MIR_PARTNER_3 = true ∧ s.flag MIR_PARTNER_4 = false
    let heard := s.mir.pActive ≠ 0 ∧ s.counter < s.mir.pActive - 1 + 500000
    let does := fun (c : Instr) (code : Nat) (m : MirS) => ∃ z, exec c s = .next z ∧ z.get MIR_CMD_STAT_0 = code ∧ z.mir = m ∧ ∀ g : Fld, g.key ≠ MIR_CMD_STAT_0.key → z.get g = s.get g
    (st ≠ 2 → does (.mirAbdicate a) 1 s.mir ∧ does (.mirRestartPass a) 1 s.mir) ∧ (st = 2 → does (.mirRestartPass a) 0 { s.mir with restart := true }) ∧
    (st = 2 → ¬ ready → does (.mirAbdicate a) 2 s.mir) ∧ (st = 2 → ready → does (.mirAbdicate a) 0 { s.mir with abd := max 1 s.mir.abd }) ∧
    (st ≠ 3 → does (.mirTake a) 1 s.mir) ∧ (st = 3 → s.mir.renewed ≠ 0 → s.mir.expired = false → does (.mirTake a) 5 s.mir) ∧
    (st = 3 → (s.mir.renewed = 0 ∨ s.mir.expired = true) → (s.ownRecent = true → does (.mirTake a) 4 s.mir) ∧ (s.ownRecent = false → heard → does (.mirTake a) 3 s.mir) ∧
      (s.ownRecent = false → ¬ heard → does (.mirTake a) 0 { s.mir with due := 2 })) ∧
    ∃ z, exec (.mirRearm a) s = .next z ∧ z.get MIRROR_hold = 0 ∧ z.get MIR_CMD_STAT_0 = 0 ∧ z.mir = s.mir ∧
      ∀ g : Fld, g.key ≠ MIR_CMD_STAT_0.key → g.key ≠ MIRROR_hold.key → z.get g = s.get g

/-- 18 R442, R445, R447 to R454, R456. -/
def Obligations.LedgerRecordsAndFlushes : Prop :=
  (∀ (s : State) (c : Instr) (r : LRec) (sw : Bool), (∃ x : LRec, c = .ledgerRecordArrival x ∧ sw = false ∧ r = { x with code := x.code % 2 ^ 16, sev := x.sev % 8, tenant := x.tenant % 256 }) ∨
      (∃ a, c = .lgSubGo a ∧ s.reaches a 7 0x114 ∧ sw = true ∧ r = { code := s.get (LG_SUB_HDR_0 (copyOf a)), sev := s.get (LG_SUB_HDR_16 (copyOf a)), tenant := if s.flag (LG_SUB_HDR_31 (copyOf a)) = true then 0xFF else s.get (LG_SUB_HDR_24 (copyOf a)), params := (List.range 4).map fun k => w32 (s.get (LG_SUB_P_0 k (copyOf a))) }) →
    let k := s.ledgerForm r sw (s.get ASSAY_voters); let b := s.bucketOf r.code; let sp := SMap.get s.ledger.spent b 0; let g := s.ledger
    let placed := fun (z : State) => let e : LKept := { k with seq := g.next % 2 ^ 32, slot := g.ring % 32768 }
      z.ledger.recs = g.recs ++ [e] ∧ z.ledger.next = (g.next + 1) % 2 ^ 32 ∧ z.hubRead (slotOff e.slot) 32 = e.bytes ∧ z.get LG_HEAD_0 = e.seq
    (s.flag LEDGER_frozen = true → ∃ z, exec c s = .next z ∧ z.get LG_FROZEN_LOST_0 = s.oneMore LG_FROZEN_LOST_0 ∧ z.ledger.recs = g.recs ∧ z.ledger.next = g.next ∧ z.hub = s.hub) ∧
    (s.flag LEDGER_frozen = false → s.flag LEDGER_fmt = false →
      (r.sev < 7 → s.burstOf b ≤ sp → ∃ z, exec c s = .next z ∧ z.ledger.recs = g.recs ∧ z.hub = s.hub ∧ bitOf (z.get (rawOf 7)) 1 = true ∧ SMap.get z.ledger.refused b 0 = SMap.get g.refused b 0 + 1) ∧
      ((r.sev < 7 → sp < s.burstOf b) → ∃ z, exec c s = .next z ∧ (r.sev < 7 → SMap.get z.ledger.spent b 0 = sp + 1) ∧
        (s.flag LEDGER_mounted = false → g.startBuf.length < 256 → z.ledger.startBuf = g.startBuf ++ [k] ∧ z.ledger.recs = g.recs ∧ z.hub = s.hub) ∧
        (s.flag LEDGER_mounted = true → (g.recs.filter (·.staged)).length < 32768 → placed z ∧ (r.sev = 7 → bitOf (z.get (rawOf 7)) 5 = true)))) ∧
    (s.flag LEDGER_frozen = false → s.flag LEDGER_fmt = true → ∀ n, g.recs.getLast? = some n → n.flushed = false → n.code = k.code → n.sev = k.sev → n.params = k.params → g.flushing = false →
      ∃ z, exec c s = .next z ∧ z.ledger.recs = g.recs.dropLast ++ [{ n with rep := min (n.rep + 1) 255, last := s.get LG_OPTIME_0 }] ∧ z.ledger.next = g.next)) ∧
  (∀ (s : State) (k : LKept), let z := s.ledgerPlace k; let g := s.ledger; let st := g.recs.filter (·.staged); let low := fun (e : LKept) => e.staged = true ∧ e.sev ≤ k.sev
    32768 ≤ st.length → ((∃ e ∈ st, e.flushed = true) → z.ledger.recs.length = g.recs.length + 1 ∧ (z.ledger.recs.filter (·.staged)).length ≤ st.length) ∧
      ((∀ e ∈ st, e.flushed = false) → (∃ e ∈ g.recs, low e) → z.ledger.recs.length = g.recs.length ∧ z.get (LG_OVERWR_0 k.sev) = s.oneMore (LG_OVERWR_0 k.sev)) ∧
      ((∀ e ∈ st, e.flushed = false) → (∀ e ∈ g.recs, ¬ low e) → z.ledger.recs = g.recs ∧ z.hub = s.hub ∧ z.get LEDGER_dropped = s.oneMore LEDGER_dropped ∧ bitOf (z.get (rawOf 7)) 0 = true)) ∧
  ∀ s : State, let g := s.ledger; let ends := if g.hold = 1 ∧ s.unflushed ≠ [] then (g.next + 2 ^ 32 - 1) % 2 ^ 32 else g.next
    ((s.unflushed = [] ∨ s.flag LEDGER_mounted = false) → exec .ledgerFlushStart s = .next s) ∧
    (s.unflushed ≠ [] → s.flag LEDGER_mounted = true → exec .ledgerFlushStart s = .next (s.updLg fun g => { g with flushing := true, flushTo := ends })) ∧
    (∀ a, s.reaches a 7 0x044 → ∃ z, exec (.lgFlush a) s = .next z ∧ z.get LG_CMD_STAT_0 = 0 ∧ z.ledger = if s.flag LEDGER_mounted = true then { g with flushing := true, flushTo := ends } else g) ∧
    (g.flushing = false → exec .ledgerFlushDone s = .next s ∧ exec .ledgerFlushRetry s = .next s) ∧
    (g.flushing = true → (∃ z, exec .ledgerFlushDone s = .next z ∧ z.ledger.flushing = false ∧ z.ledger.headSeq = g.next ∧ z.ledger.headOp = s.get LG_OPTIME_0 ∧ z.hub = s.hub ∧
        (g.recs.length ≤ 8388608 → z.ledger.recs = g.recs.map fun e => if e.flushed = false ∧ beforeSeq e.seq g.flushTo = true then { e with flushed := true } else e)) ∧
      ∃ z, exec .ledgerFlushRetry s = .next z ∧ z.ledger.flushing = true ∧ z.ledger.retry = true ∧ bitOf (z.get (rawOf 7)) 4 = true) ∧
    ((s.power = .off ∨ 999 ≤ g.ms) → exec .operatingMillisecond s = .next s) ∧ (s.power = .off → exec .operatingSecond s = .next s) ∧
    (s.power ≠ .off → g.ms < 999 → ∃ z, exec .operatingMillisecond s = .next z ∧ z.ledger.ms = g.ms + 1 ∧ z.regs = s.regs ∧
      (g.spent.Pairwise (fun a b => a.1 < b.1) → ∀ b, SMap.get z.ledger.spent b 0 = SMap.get g.spent b 0 - if gainAt (s.rateOf b) (g.ms + 1) = true then 1 else 0)) ∧
    (s.power ≠ .off → ∃ z, exec .operatingSecond s = .next z ∧ z.get LG_OPTIME_0 = (s.get LG_OPTIME_0 + 1) % 2 ^ 32 ∧ z.ledger.ms = 0 ∧ (g.dropN = 0 → g.refused = [] → z.ledger.recs = g.recs)) ∧
    exec .quicenRepeatHoldExpiry s = .next (if g.hold = 1 then s.updLg fun g => { g with hold := 2 } else s) ∧
    (s.flag LEDGER_mounted = true → exec .ledgerHeadMount s = .next s) ∧
    (s.flag LEDGER_mounted = false → ∃ z, exec .ledgerHeadMount s = .next z ∧ z.flag LEDGER_mounted = true ∧ z.ledger.startBuf = [] ∧ z.ledger.saved = false ∧ z.ledger.lost = 0 ∧
      exec .ledgerHeadMount z = .next z)

/-- 18 R451, R457, R458, R461. -/
def Obligations.LedgerFreezeAndWindow : Prop :=
  (∀ s : State, let g := s.ledger; let frozen := s.flag LEDGER_frozen = true
    let thawed := fun (z : State) => z.flag LEDGER_frozen = false ∧ bitOf (z.get (rawOf 7)) 3 = true ∧ z.ledger.fzN = 0
    let moves := fun (c : Instr) (f : Option LKept) => ∃ z, exec c s = .next z ∧ z.hub = s.hub ∧ (g.move ≠ none → z.get LG_CMD_STAT_0 = 3 ∧ z.ledger = g) ∧
      (g.move = none → z.get LG_CMD_STAT_0 = 0 ∧ z.get LG_RDSTAT_0 = 0 ∧ z.ledger = { g with move := some f })
    (∀ a, s.reaches a 7 0x044 →
      (frozen → (∃ z, exec (.lgFreeze a) s = .next z ∧ z.get LG_CMD_STAT_0 = 1 ∧ z.ledger = g) ∧ ∃ z, exec (.lgUnfreeze a) s = .next z ∧ z.get LG_CMD_STAT_0 = 0 ∧ thawed z) ∧
      (¬ frozen → (∃ z, exec (.lgFreeze a) s = .next z ∧ z.get LG_CMD_STAT_0 = 0 ∧ z.flag LEDGER_frozen = true ∧ z.ledger = { g with frozenAt := s.opMs, fzN := 0, fzSev := 0 }) ∧
        ∃ z, exec (.lgUnfreeze a) s = .next z ∧ z.get LG_CMD_STAT_0 = 2 ∧ z.ledger = g) ∧
      moves (.lgNext a) (g.after (s.get LG_RSEQ_0)) ∧ moves (.lgPrev a) (g.before (s.get LG_RSEQ_0)) ∧ moves (.lgNewest a) g.recs.getLast? ∧ moves (.lgOldest a) g.recs.head?) ∧
    (∀ a v, s.reaches a 7 0x080 → moves (.lgCursorWrite a v) (g.seek (v % 2 ^ 32))) ∧
    (¬ frozen → exec .freezeMaxExpiry s = .next s) ∧ (frozen → ∃ z, exec .freezeMaxExpiry s = .next z ∧ thawed z) ∧
    (∀ a v, s.reaches a 7 0x040 → let m := max 1 (min 120 (v / 2 ^ 16 % 2 ^ 8)); let late := frozen ∧ g.frozenAt + m * 1000 ≤ s.opMs
      ∃ z, exec (.lgFreezeMaxWrite a v) s = .next z ∧ z.get LG_CTL_16 = m ∧ z.get LG_CTL_8 = v / 2 ^ 8 % 2 ^ 3 ∧ (late → thawed z) ∧ (¬ late → z.ledger = g ∧ (z.flag LEDGER_frozen = true ↔ frozen)) ∧
        (s.flag CYCLE_running = true → z.get LG_CTL_0 = s.get LG_CTL_0) ∧ (s.flag CYCLE_running = false → (z.flag LG_CTL_0 = true ↔ bitOf v 0 = true))) ∧
    (g.move = none → exec .ledgerWindowReady s = .next s) ∧
    (∀ m, g.move = some m → ∃ z, exec .ledgerWindowReady s = .next z ∧ z.ledger = { g with move := none } ∧ z.get LG_RDSTAT_0 = 1 ∧ bitOf (z.get (rawOf 7)) 2 = true ∧
      (m = none → z.get LG_RDSTAT_1 = 0 ∧ z.get LG_RDSTAT_2 = 1) ∧
      (∀ r, m = some r → z.get LG_RDSTAT_1 = 1 ∧ z.get LG_RDSTAT_2 = 0 ∧ z.get LG_RSEQ_0 = r.seq % 2 ^ 32 ∧ ∀ i < 8, z.get (LG_WIN_0 i) = leAt r.bytes (4 * i) 4)) ∧
    (∀ a v off, (off ≠ 0x140 → off ≠ 0x144 → exec (.lgRateEntryWrite a off v) s = .next s) ∧
      (s.reaches a 7 off → let e := s.get LG_RSEL_0
        (off = 0x140 → ∃ z, exec (.lgRateEntryWrite a off v) s = .next z ∧ z.get (LG_R_CODE_0 e) = v % 2 ^ 16 ∧ z.get (LG_R_CODE_31 e) = b2n (bitOf v 31) ∧
          SMap.get z.ledger.spent e 0 = 0 ∧ ∀ b, b ≠ e → SMap.get z.ledger.spent b 0 = SMap.get g.spent b 0) ∧
        (off = 0x144 → ∃ z, exec (.lgRateEntryWrite a off v) s = .next z ∧ z.get (LG_R_RATE_0 e) = max 1 (min 1000 (v % 2 ^ 10)) ∧
          z.get (LG_R_RATE_16 e) = max 1 (min 1000 (v / 2 ^ 16 % 2 ^ 10)) ∧ SMap.get z.ledger.spent e 0 = 0 ∧ ∀ b, b ≠ e → SMap.get z.ledger.spent b 0 = SMap.get g.spent b 0))) ∧
    (∀ a v, s.reaches a 7 0x150 → ∃ z, exec (.lgRateDefWrite a v) s = .next z ∧ z.get LG_RATE_DEF_0 = max 1 (min 1000 (v % 2 ^ 10)) ∧
      z.get LG_RATE_DEF_16 = max 1 (min 1000 (v / 2 ^ 16 % 2 ^ 10)) ∧ SMap.get z.ledger.spent 4096 0 = 0 ∧ ∀ b, b ≠ 4096 → SMap.get z.ledger.spent b 0 = SMap.get g.spent b 0)) ∧
  ∀ (g : LedgerS) (v : Nat), (2 ^ 31 ≤ g.dist v → g.after v = g.recs.head? ∧ g.before v = none) ∧
    (g.dist v < 2 ^ 31 → (∀ r, g.after v = some r → r ∈ g.recs ∧ g.dist v < g.dist r.seq) ∧ (∀ r, g.before v = some r → r ∈ g.recs ∧ g.dist r.seq < g.dist v) ∧
      ((∃ e ∈ g.recs, g.dist v < g.dist e.seq) → g.after v ≠ none) ∧ ((∃ e ∈ g.recs, g.dist e.seq < g.dist v) → g.before v ≠ none) ∧
      ∀ r, g.seek v = some r → r ∈ g.recs ∧ g.dist v ≤ g.dist r.seq)

/-- 19 R464 to R469. -/
def Obligations.StorageCommands : Prop :=
  (∀ (s : State) (a : Acc) (c : Instr) (op : Nat), s.reaches a 6 0x050 → ((c = .stRead a ∧ op = 1) ∨ (c = .stWrite a ∧ op = 2) ∨ (c = .stDiscard a ∧ op = 3)) → let p := s.get ST_PART_0
    let busy := s.flag STORE_busy = true; let up := s.flag STORE_mounted = true; let closed := op ≠ 1 ∧ p < 12 ∧ bitOf (s.get ST_SLOTOPEN_0) p = false
    let refused := fun (reason : Nat) => ∃ z, exec c s = .next z ∧ z.get ST_STAT_0 = 3 ∧ z.get ST_STAT_2 = reason ∧ z.get ST_STAT_8 = 0 ∧ bitOf (z.get (rawOf 6)) 1 = true ∧
      z.store.cmd = none ∧ z.hub = s.hub ∧ z.flash = s.flash
    let lba := min (s.get ST_LBA_0) (stSize p - 1); let line := clampR 0xF00 0xF3F (s.get ST_BUF_12)
    let n := min (clampR 1 64 (s.get ST_COUNT_0)) (min (stSize p - lba) (0xF40 - line))
    (busy → ∃ z, exec c s = .next z ∧ z.get ST_STAT_2 = 6 ∧ bitOf (z.get (rawOf 6)) 1 = true ∧ z.store = s.store ∧ z.get ST_STAT_0 = s.get ST_STAT_0) ∧
    (¬ busy → ¬ up → refused 6) ∧ (¬ busy → up → op ≠ 1 → (p = 12 ∨ p = 13) → refused 1) ∧ (¬ busy → up → closed → refused 2) ∧
    (¬ busy → up → ¬ closed → (op = 1 ∨ (p ≠ 12 ∧ p ≠ 13)) → ∃ z, exec c s = .next z ∧ z.flag STORE_busy = true ∧ z.get ST_STAT_0 = 1 ∧ z.get ST_COUNT_0 = n % 2 ^ 7 ∧
      z.store = { s.store with cmd := some { op := op, part := p, lba := lba, count := n, buf := line * 4096 } } ∧ z.hub = s.hub ∧ z.flash = s.flash)) ∧
  (∀ (s : State) (r : StResult), s.store.cmd = none → exec (.storeCommandComplete r) s = .next s) ∧
  ∀ (s : State) (c : StCmd), s.store.cmd = some c → let clean : StResult := { corr0 := 0, corr1 := 0, lost := [], grown := [], erased := [] }
    let sound := ∀ i < c.count, ∃ d ∈ stDevs c.part (c.lba + i), (s.dev d).failed = false; let at' := c.part * 2 ^ 36 + c.lba * 4096; let n := 4096 * c.count
    let done := fun (z : State) => z.get ST_STAT_0 = 2 ∧ z.get ST_STAT_2 = 0 ∧ z.get ST_STAT_8 = c.count % 2 ^ 7 ∧ bitOf (z.get (rawOf 6)) 0 = true ∧ z.flag STORE_busy = false ∧ z.store.cmd = none
    (sound → c.op = 1 → ∃ z, exec (.storeCommandComplete clean) s = .next z ∧ done z ∧ z.flash = s.flash ∧ (∀ k < n, SMap.get z.hub (c.buf + k) 0 = SMap.get s.flash (at' + k) 0) ∧
      ∀ a, a < c.buf ∨ c.buf + n ≤ a → SMap.get z.hub a 0 = SMap.get s.hub a 0) ∧
    (sound → c.op = 2 → (∀ d : Fin 2, s.flag (ST_D_STAT_2 d.val) = false) → ∃ z, exec (.storeCommandComplete clean) s = .next z ∧ done z ∧ z.hub = s.hub ∧
      (∀ k < n, SMap.get z.flash (at' + k) 0 = SMap.get s.hub (c.buf + k) 0) ∧ ∀ a, a < at' ∨ at' + n ≤ a → SMap.get z.flash a 0 = SMap.get s.flash a 0) ∧
    (sound → c.op = 3 → ∃ z, exec (.storeCommandComplete clean) s = .next z ∧ done z ∧ z.hub = s.hub ∧
      (∀ k < n, SMap.get z.flash (at' + k) 0 = 0) ∧ ∀ a, a < at' ∨ at' + n ≤ a → SMap.get z.flash a 0 = SMap.get s.flash a 0) ∧
    (0 < c.count → (∀ d ∈ stDevs c.part c.lba, (s.dev d).failed = true) → ∃ z, exec (.storeCommandComplete clean) s = .next z ∧ z.get ST_STAT_0 = 3 ∧ z.get ST_STAT_2 = 4 ∧ z.get ST_STAT_8 = 0 ∧
      bitOf (z.get (rawOf 6)) 1 = true ∧ z.hub = s.hub ∧ z.flash = s.flash) ∧
    (0 < c.count → sound → c.op = 1 → ∃ z, exec (.storeCommandComplete { clean with lost := [(0, false)] }) s = .next z ∧ z.get ST_STAT_0 = 3 ∧ z.get ST_STAT_2 = 3 ∧ z.get ST_STAT_8 = 0 ∧
      z.get ST_ERRSEC_0 = c.lba % 2 ^ 23 ∧ bitOf (z.get (rawOf 6)) 3 = true ∧ bitOf (z.get (rawOf 6)) 1 = true ∧ z.flash = s.flash)

/-- 19 R468 to R471, R475 to R477, R480. -/
def Obligations.StoreUpkeepAndCard : Prop :=
  (∀ (s : State) (d : Fin 2), let v := s.dev d; let up := s.flag STORE_mounted = true; let b := s.get (ST_D_SCRUB_0 d.val)
    (∀ bits reads loss, let c := exec (.scrubBlock d bits reads loss) s; let worn := 24 ≤ bits ∨ 100000 ≤ reads
      (¬ (up ∧ v.failed = false) → c = .next s) ∧
      (up → v.failed = false → ∃ z, c = .next z ∧ z.get (ST_D_SCRUB_0 d.val) = (b + 1) % 28672 ∧ z.flash = s.flash ∧ (∀ e : Fin 2, e ≠ d → z.dev e = s.dev e) ∧
        (b + 1 = 28672 → z.get (ST_D_SCRUB_16 d.val) = s.oneMore (ST_D_SCRUB_16 d.val)) ∧ (¬ worn → z.store = s.store) ∧
        (worn → SMap.get (z.dev d).erase b 0 = SMap.get v.erase b 0 + 1 ∧ z.get (ST_D_REFRESH_0 d.val) = s.oneMore (ST_D_REFRESH_0 d.val)))) ∧
    (¬ (up ∧ v.failed = false ∧ v.leastWorn.2 + 600 < v.worst) → exec (.staticWearMove d) s = .next s) ∧
    (up → v.failed = false → v.leastWorn.2 + 600 < v.worst → let k := v.leastWorn.1; ∃ z, exec (.staticWearMove d) s = .next z ∧ z.regs = s.regs ∧ z.flash = s.flash ∧
      SMap.get (z.dev d).erase k 0 = SMap.get v.erase k 0 + 1 ∧ ∀ j, j ≠ k → SMap.get (z.dev d).erase j 0 = SMap.get v.erase j 0) ∧
    (¬ (up ∧ v.failed = false) → exec (.nandDeviceFail d) s = .next s) ∧
    (up → v.failed = false → ∃ z, exec (.nandDeviceFail d) s = .next z ∧ z.dev d = { v with failed := true } ∧ (∀ e : Fin 2, e ≠ d → z.dev e = s.dev e) ∧
      z.get (ST_D_STAT_0 d.val) = 0 ∧ z.get (ST_D_STAT_1 d.val) = 1 ∧ z.get STORE_degraded = 1 ∧ bitOf (z.get (rawOf 6)) 5 = true)) ∧
  (∀ (s : State) (x y : NandId), ((s.power ≠ .run ∨ s.flag STORE_mounted = true) → exec (.nandMount x y) s = .next s) ∧
    (s.power = .run → s.flag STORE_mounted = false → ∃ z, exec (.nandMount x y) s = .next z ∧ z.flag STORE_mounted = true ∧ z.get ST_PF_0 = s.store.pfTime % 2 ^ 16 ∧
      z.dev 0 = { s.dev 0 with spare := x.spare, failed := (s.dev 0).failed || !x.ok } ∧ z.dev 1 = { s.dev 1 with spare := y.spare, failed := (s.dev 1).failed || !y.ok })) ∧
  (∀ (s : State) (b : Bool), ((s.power ≠ .run ∨ s.flag SDSLOT_present = b) → exec (.sdCardDetect b) s = .next s) ∧
    (s.power = .run → s.flag SDSLOT_present ≠ b → ∃ z, exec (.sdCardDetect b) s = .next z ∧ z.flag SDSLOT_present = b ∧ bitOf (z.get (rawOf 0x63)) (if b then 0 else 1) = true ∧
      (b = false → z.get SD_STAT_0 = 0) ∧ z.store = s.store)) ∧
  (∀ (s : State) (a : Acc), s.reaches a 0x63 0x04C → let busy := s.flag SDSLOT_busy = true; let card := s.flag SDSLOT_present = true; let lba := s.get SD_LBA_0
    let n := clampR 1 32 (s.get SD_COUNT_0); let q := s.get SD_QUEUE_0; let ready := card ∧ s.flag SD_STAT_0 = true; let fits := lba + n ≤ s.get SD_CAP_0
    let open' := (s.q q).enabled = true ∧ s.qPkt q = true
    let fails := fun (c : Instr) (reason : Nat) => ∃ z, exec c s = .next z ∧ z.get SD_RSTAT_0 = 3 ∧ z.get SD_RSTAT_2 = reason ∧ z.get SD_RSTAT_8 = 0 ∧ bitOf (z.get (rawOf 0x63)) 3 = true ∧ z.store = s.store
    (busy → exec (.sdInit a) s = .next s ∧ exec (.sdRead a) s = .next s) ∧ (¬ busy → ¬ card → fails (.sdInit a) 1) ∧
    (¬ busy → card → ∃ z, exec (.sdInit a) s = .next z ∧ z.flag SDSLOT_busy = true ∧ z.get SD_STAT_0 = 0 ∧ z.store = { s.store with sdInit := true }) ∧
    (¬ busy → (¬ ready → fails (.sdRead a) 1) ∧ (ready → ¬ fits → fails (.sdRead a) 4) ∧ (ready → fits → ¬ open' → fails (.sdRead a) 5) ∧
      (ready → fits → open' → ∃ z, exec (.sdRead a) s = .next z ∧ z.flag SDSLOT_busy = true ∧ z.get SD_RSTAT_0 = 1 ∧ z.store = { s.store with sd := some (lba, n, q) })) ∧
    ∃ z, exec (.sdPowerOff a) s = .next z ∧ z.flag SDSLOT_busy = false ∧ z.get SD_STAT_0 = 0 ∧ z.store = { s.store with sd := none, sdInit := false }) ∧
  ∀ s : State, (∀ r : SdInit, (s.store.sdInit = false → exec (.sdInitComplete r) s = .next s) ∧
      (s.store.sdInit = true → ∃ z, exec (.sdInitComplete r) s = .next z ∧ z.flag SDSLOT_busy = false ∧ z.store = { s.store with sdInit := false } ∧
        (s.flag SDSLOT_present = false → z.get SD_RSTAT_0 = 3 ∧ z.get SD_RSTAT_2 = 1 ∧ bitOf (z.get (rawOf 0x63)) 3 = true) ∧
        (s.flag SDSLOT_present = true → (r.ok && !r.sdsc) = true → z.get SD_STAT_0 = 1 ∧ z.get SD_CAP_0 = r.cap % 2 ^ SD_CAP_0.w ∧ bitOf (z.get (rawOf 0x63)) 2 = true) ∧
        (s.flag SDSLOT_present = true → (r.ok && !r.sdsc) = false → z.get SD_STAT_6 = 1 ∧ bitOf (z.get (rawOf 0x63)) 3 = true))) ∧
    ∀ r : SdResult, (s.store.sd = none → exec (.sdReadEnd r) s = .next s) ∧
      ∀ lba n q, s.store.sd = some (lba, n, q) → let whole := r.reason = 0 ∧ r.blocks.length = n; let short := r.reason ≠ 0 ∧ r.blocks.length < n; let sized := ∀ b ∈ r.blocks, b.length = 512
        (¬ (sized ∧ (whole ∨ short)) → exec (.sdReadEnd r) s = .next s) ∧
        (sized → whole ∨ short → ∃ z, exec (.sdReadEnd r) s = .next z ∧ z.flag SDSLOT_busy = false ∧ z.store = { s.store with sd := none } ∧ z.get SD_RSTAT_2 = r.reason.val ∧
          z.get SD_RSTAT_0 = (if whole then 2 else 3) ∧ z.get SD_RSTAT_8 = r.blocks.length % 2 ^ SD_RSTAT_8.w ∧ bitOf (z.get (rawOf 0x63)) (if whole then 2 else 3) = true)

/-- 20 R483, R485, R495, R497, R498, R500, R501, R503, R504. -/
def Obligations.PowerClocksAndHeat : Prop :=
  ∀ s : State, let on := s.power = .run; let ride := s.flag PWR_ride = true; let t := s.ctrlT; let st := s.get THERM_state; let k := s.get THERM_step
    (∀ v, (¬ (on ∧ ¬ ride) → exec (.supplyInterruption v) s = .next s) ∧
      (on → ¬ ride → ∃ z, exec (.supplyInterruption v) s = .next z ∧ z.get PWR_VIN_0 = v % 2 ^ 12 ∧ z.flag PWR_ride = true ∧ bitOf (z.get (rawOf 2)) 0 = true ∧ s.keepsBut z [2, 0x0A])) ∧
    (∀ ms, (¬ (on ∧ ride) → exec (.interruptionEnd ms) s = .next s) ∧
      (on → ride → ∃ z, exec (.interruptionEnd ms) s = .next z ∧ z.flag PWR_ride = false ∧ z.get PWR_ride_count = s.oneMore PWR_ride_count ∧
        z.get PWR_RIDE_MAX_0 = max (s.get PWR_RIDE_MAX_0) (min ms 0xFFFF) % 2 ^ 16 ∧ bitOf (z.get (rawOf 2)) 1 = true ∧ s.keepsBut z [2, 7, 0x0A])) ∧
    (∀ v, (¬ on → exec (.inputFluctuation v) s = .next s) ∧ (on → ∃ z, exec (.inputFluctuation v) s = .next z ∧ s.keepsBut z [7, 0x0A])) ∧
    (∀ x y, (¬ on → exec (.powerFailDeclare x y) s = .next s) ∧ (on → ∃ z, exec (.powerFailDeclare x y) s = .next z ∧ z.power = .off ∧ (∀ l, z.laneState l = lOff) ∧
      z.get ASSAY_voters = 0 ∧ z.store.pfLed = true ∧ z.store.pfRet = (x && y) ∧ z.ledger.saved = true ∧ z.lock.keys = none ∧ z.cyc.restart = 0 ∧
      (x = true → y = true → ∀ e ∈ z.ledger.recs, e.flushed = true))) ∧
    (s.power ≠ .stable → exec .holdupStoreExhausted s = .next s) ∧
    (s.power = .stable → ∃ z, exec .holdupStoreExhausted s = .next z ∧ z.power = .off ∧ z.get LG_OPTIME_0 = s.ledger.headOp % 2 ^ 32 ∧ (∀ l, z.laneState l = lOff)) ∧
    (∀ (d : Fin 41) ns late, (¬ on → exec (.clockStartOnDemand d ns late) s = .next s) ∧
      (on → ∃ z, exec (.clockStartOnDemand d ns late) s = .next z ∧ z.get CLK_start_count = s.oneMore CLK_start_count ∧ (d.val < 32 → bitOf (z.get CLK_RUN_LO_0) d.val = true) ∧
        (32 ≤ d.val → bitOf (z.get CLK_RUN_HI_0) (d.val - 32) = true) ∧ (late = false → s.keepsBut z [1]) ∧
        (late = true → z.get CLK_START_LATE_0 = s.oneMore CLK_START_LATE_0 ∧ bitOf (z.get (rawOf 1)) 0 = true))) ∧
    (∀ t0 t1 t2 t3, (¬ on → exec (.thermalSample t0 t1 t2 t3) s = .next s) ∧ (on → ∃ z, exec (.thermalSample t0 t1 t2 t3) s = .next z ∧
      z.get (THERM_T_0 0) = unsint 16 t0 ∧ z.get (THERM_T_0 1) = unsint 16 t1 ∧ z.get (THERM_T_0 2) = unsint 16 t2 ∧ z.get (THERM_T_0 3) = unsint 16 t3 ∧ z.get THERM_state = st ∧
      ∃ m, z.get THERM_CTRL_T_0 = unsint 16 m ∧ t3 ≤ m ∧ (m = t3 ∨ ∃ l ∈ s.lanesIn lActive, m = [t0, t1, t2].getD l.val 0) ∧ ∀ l ∈ s.lanesIn lActive, [t0, t1, t2].getD l.val 0 ≤ m)) ∧
    (¬ on → exec .thermalDwellExpiry s = .next s) ∧
    (on → let ends := fun (v w : Nat) => ∃ z, exec .thermalDwellExpiry s = .next z ∧ z.get THERM_state = v ∧ z.get THERM_step = w ∧ (v ≠ st → bitOf (z.get (rawOf 3)) 0 = true) ∧
        (w ≠ k → bitOf (z.get (rawOf 3)) 1 = true ∧ z.get THERM_step_count = s.oneMore THERM_step_count)
      (st ≠ 3 → 1180 ≤ t → ends 3 3) ∧ (st = 3 → t < 1130 → ends 2 k) ∧ (st = 3 → 1130 ≤ t → exec .thermalDwellExpiry s = .next s) ∧
      (st < 3 → 1080 ≤ t → t < 1180 → k < 4 → ends 2 (min 3 (k + 1))) ∧ (st = 2 → t < 1030 → k < 4 → ends (if k ≤ 1 then 1 else 2) (k - 1)) ∧
      (st = 2 → 1030 ≤ t → t < 1080 → exec .thermalDwellExpiry s = .next s) ∧ (st = 0 → 1000 ≤ t → t < 1080 → ends 1 k) ∧ (st = 0 → t < 1000 → exec .thermalDwellExpiry s = .next s) ∧
      (st = 1 → t < 950 → ends 0 k) ∧ (st = 1 → 950 ≤ t → t < 1080 → exec .thermalDwellExpiry s = .next s)) ∧
    ∀ d : Fin 4, (¬ on → exec (.thermalTrip d) s = .next s) ∧
      (on → ∃ z, exec (.thermalTrip d) s = .next z ∧ z.passive = true ∧ (s.passive = false → z.aoCause = 11) ∧ ∀ l, z.laneState l = lOff)

/-- 20 R487, R488, R490, R491, R493, R494; 06 R168; 18 R445; 10 R268. -/
def Obligations.StartsAndSleep : Prop :=
  (∀ (s : State) (c : StartInputs), let k := s.offKind c.cfg.ident
    (s.power ≠ .off → s.pw.started = true → exec (.startFromOff c) s = .next s) ∧
    ((s.power = .off ∨ s.pw.started = false) → ∃ z, exec (.startFromOff c) s = .next z ∧ z.power = .run ∧ z.pw.started = true ∧ z.pending = s.pending ∧ z.variant = s.variant ∧ z.counter = 0 ∧
      z.get LG_PCYCLE_0 = (s.get LG_PCYCLE_0 + 1) % 2 ^ 24 ∧ z.get CYC_START_0 = k.1 ∧ z.get CYC_START_4 = k.2 ∧ z.get PWR_VIN_0 = c.vin % 2 ^ 12 ∧ z.get MEMCTL_BANKSTAT_0 = 0xAAAAAAAA ∧
      (bitOf c.pins 61 = true → z.upd.cobbler = true ∧ ∀ l, z.laneState l = lOff) ∧ (k.1 = 0 → c.tests = false → z.passive = true))) ∧
  (∀ (s : State) (id : Nat), let k := s.offKind id; (s.passive = true → k = (0, 6)) ∧ (s.passive = false → s.cyc.restart = 2 → k = (0, 2)) ∧
    (s.passive = false → s.cyc.restart ≠ 2 → (s.retSlot id ≠ none → k = (1, 1)) ∧ (s.retSlot id = none → k.1 = 0 ∧ (k.2 = 0 ∨ k.2 = 4 ∨ k.2 = 5)))) ∧
  (∀ (s : State) (a : Acc), s.reaches a 2 0x040 → let no := s.rejoinLane ≠ none ∨ s.lanesIn lDebug ≠ []; let dz := s.flag PWR_doze = true; let cyc := s.flag CYCLE_running = true
    (no → exec (.pwrDoze a) s = .next (s.set PWR_CMD_STAT_0 1)) ∧ (¬ no → dz → exec (.pwrDoze a) s = .next (s.set PWR_CMD_STAT_0 0)) ∧
    (¬ no → ¬ dz → ∃ z, exec (.pwrDoze a) s = .next z ∧ z.flag PWR_doze = true ∧ z.get PWR_CMD_STAT_0 = 0 ∧ s.keepsBut z [2, 7, 0x0A]) ∧
    (¬ dz → exec (.pwrRun a) s = .next (s.set PWR_CMD_STAT_0 3)) ∧
    (dz → cyc → ∃ z, exec (.pwrRun a) s = .next z ∧ z.get PWR_CMD_STAT_0 = 0 ∧ z.pw = { s.pw with runDue := true } ∧ z.flag PWR_doze = true) ∧
    (dz → ¬ cyc → ∃ z, exec (.pwrRun a) s = .next z ∧ z.get PWR_CMD_STAT_0 = 0 ∧ z.flag PWR_doze = false ∧ z.pw.dozing = false) ∧
    (s.get PWR_WAKE_EN_0 = 0 → exec (.pwrStable a) s = .next (s.set PWR_CMD_STAT_0 2)) ∧
    (s.get PWR_WAKE_EN_0 ≠ 0 → cyc → ∃ z, exec (.pwrStable a) s = .next z ∧ z.get PWR_CMD_STAT_0 = 0 ∧ z.pw = { s.pw with stabDue := true } ∧ z.power = .run) ∧
    (s.get PWR_WAKE_EN_0 ≠ 0 → ¬ cyc → s.pw.held = none → ∃ z, exec (.pwrStable a) s = .next z ∧ z.power = .stable ∧ (∀ l, z.laneState l = lOff) ∧ z.get ASSAY_voters = 0 ∧
      z.flag STORE_mounted = false ∧ z.flag CYCLE_running = false ∧ z.flag UPDATE_session = false ∧ z.pw.stabDue = false ∧ z.counter = s.counter)) ∧
  (∀ s : State, let go := s.power = .run ∧ s.flag PWR_doze = true ∧ s.allPace = true ∧ s.lanesIn lActive ≠ []
    (go → exec .dozeEntry s = .next (s.updPw fun w => { w with dozing := true })) ∧ (¬ go → exec .dozeEntry s = .next s)) ∧
  ∀ (s : State) (c : Instr) (src : WakeSrc) (t : Nat), (c = .wakeEvent src t ∨ (c = .wakeTimerExpiry t ∧ src = .timer) ∨ (∃ i n, c = .diWakeChange i n t ∧ src = .di i n) ∨
      (∃ n, c = .canWakePattern n t ∧ src = .can n)) → let held := s.power = .run ∧ s.pw.stabDue = true ∧ s.pw.held = none
    (s.wakeEnabled src = false → exec c s = .next s) ∧ (s.power ≠ .stable → ¬ held → exec c s = .next s) ∧
    (s.wakeEnabled src = true → held → exec c s = .next (s.updPw fun w => { w with held := some (wakeCause src) })) ∧
    (s.wakeEnabled src = true → s.power = .stable → ∃ z, exec c s = .next z ∧ z.power = .run ∧ z.get PWR_WAKE_CAUSE_0 = (wakeCause src).1 ∧ z.get PWR_WAKE_CAUSE_8 = (wakeCause src).2 ∧
      z.get CYC_START_0 = 2 ∧ z.get CYC_START_4 = 7 ∧ (∀ l, z.laneState l = lBoot) ∧ z.pending = s.pending ∧ z.get LG_OPTIME_0 = s.get LG_OPTIME_0)

/-- 21 R508 to R510, R512, R514 to R517. -/
def Obligations.LocksmithOperations : Prop :=
  (∀ (s : State) (a : Acc), s.reaches a 4 0x060 → ∀ c ∈ [(Instr.lkOpenWindow a, 1), (.lkCloseWindow a, 2), (.lkReleaseTamper a, 3), (.lkLifecycleTransition a, 4), (.lkSign a, 5), (.lkPubkey a, 6),
      (.lkMac a, 7), (.lkVerify a, 8), (.lkRevoke a, 9)], let b := s.hubRead (clampR 0xF00 0xF3F (s.get LK_BUF_12) * 4096) (clampR 1 4096 (s.get LK_LEN_0))
    (s.lock.op ≠ none → ∃ z, exec c.1 s = .next z ∧ z.get LK_STAT_4 = 8 ∧ bitOf (z.get (rawOf 4)) 2 = true ∧ z.lock = s.lock ∧ z.hub = s.hub) ∧
    (s.lock.op = none → ∃ z, exec c.1 s = .next z ∧ z.get LK_STAT_0 = 1 ∧ z.get LK_STAT_4 = 0 ∧ z.lock = { s.lock with op := some { op := c.2, input := b } } ∧ z.hub = s.hub)) ∧
  (∀ s : State, s.lock.op = none → exec .locksmithOpComplete s = .next s) ∧
  (∀ (s : State) (o : LkOp), s.lock.op = some o → let t := o.input; let free := { s.lock with op := none }; let r := fun k p l => s.tokenReason t k p l; let svc := s.serviceEnable = true
    let ends := fun (P : State → Prop) => ∃ z, exec .locksmithOpComplete s = .next z ∧ z.lock.op = none ∧ P z
    let fails := fun (x : Nat) => ends fun z => z.lock = free ∧ z.get LK_STAT_0 = 3 ∧ z.get LK_STAT_4 = x ∧ bitOf (z.get (rawOf 4)) 2 = true
    let good := fun (z : State) => z.get LK_STAT_0 = 2 ∧ bitOf (z.get (rawOf 4)) 1 = true
    (o.op = 1 → let x := r 2 (60 ≤ tokParam t ∧ tokParam t ≤ 3600) (beAt t 128 1 = 2); let may := s.life = 1 ∨ s.life = 2; let calm := s.get LK_TAMPER_0 = 0;
      (¬ may → fails 5) ∧ (may → ¬ calm → fails 6) ∧ (may → calm → ¬ svc → fails 4) ∧ (may → calm → svc → x ≠ 0 → fails x) ∧
      (may → calm → svc → x = 0 → ends fun z => good z ∧ z.lock = { free with window := some (s.counter + tokParam t * 500000000) } ∧ z.flag LOCK_window = true)) ∧
    (o.op = 2 → ends fun z => good z ∧ z.lock.window = none) ∧
    (o.op = 3 → let x := r 3 (tokParam t = 0) (beAt t 128 1 = 2); (¬ svc → fails 4) ∧ (svc → s.get LK_TAMPER_8 ≠ 0 → fails 6) ∧ (svc → s.get LK_TAMPER_8 = 0 → x ≠ 0 → fails x) ∧
      (svc → s.get LK_TAMPER_8 = 0 → x = 0 → ends fun z => good z ∧ z.lock = free ∧ z.get LK_TAMPER_0 = 0 ∧ z.flag LOCK_latched = false)) ∧
    (o.op = 4 → let dst := tokParam t; (¬ svc → fails 4) ∧ (svc → transRule s.life dst = none → fails (if 4 < dst ∨ dst = 0 then 9 else 5)) ∧
      (∀ slots h, svc → transRule s.life dst = some (slots, h) → ¬ (s.life = 3 ∧ s.lock.n = 15 ∧ dst = 1) →
        let x := r 1 (decide ((h = 0 ∧ beAt t 32 48 = 0 ∧ beAt t 80 48 = 0) ∨ h = 1 ∨ (h = 2 ∧ beAt t 32 48 ≠ 0 ∧ beAt t 80 48 ≠ 0))) (slots.contains (beAt t 128 1))
        (x ≠ 0 → fails x) ∧ (x = 0 → ends fun z => z.power = .off ∧ z.lock.n = transN s.lock.n dst ∧ z.lock.keys = none ∧ z.lock.floor = s.lock.floor ∧ z.upd.sess = none))) ∧
    (o.op = 8 → (s.lock.signedOk t = none → fails 9) ∧ ∀ v, s.lock.signedOk t = some v → ends fun z => good z ∧ z.lock = free ∧ z.get LK_STAT_8 = b2n v) ∧
    (o.op = 9 → let slot := bitsOf (tokParam t) 4 4; let gen := tokParam t % 16
      let x := r 4 (tokParam t < 256 ∧ slot ≤ 2 ∧ gen < s.lock.burnt slot) (beAt t 128 1 = slot ∧ gen < beAt t 129 1)
      (x ≠ 0 → fails x) ∧ (x = 0 → ends fun z => good z ∧ bitOf (z.lock.revoked slot) gen = true ∧ z.lock.n = s.lock.n)) ∧
    ((o.op = 5 ∨ o.op = 6 ∨ o.op = 7) → s.lock.keys = none → fails 6) ∧
    (∀ k, s.lock.keys = some k → let shows := fun (res : List Byte) => ends fun z => good z ∧ z.lock = free ∧ ∀ i < 25, z.get (LK_RESULT_0 i) = beNat ((sub res (4 * i) 4 ++ [0, 0, 0, 0]).take 4)
      (o.op = 5 → t.length ≠ 48 → fails 9) ∧ (o.op = 5 → t.length = 48 → ends fun z => good z ∧ z.lock = free ∧ z.freeCtr = s.freeCtr + 1) ∧
      (o.op = 6 → shows (pubOf k.1)) ∧ (o.op = 7 → shows (hmac384 (beBytes 48 k.2) t)))) ∧
  ∀ s : State, let latched := fun (z : State) (i : Nat) => bitOf (z.get LK_TAMPER_0) i = true ∧ z.flag LOCK_latched = true ∧ z.lock.keys = none
    (s.lock.window = none → exec .serviceWindowEnd s = .next s) ∧
    (s.lock.window ≠ none → ∃ z, exec .serviceWindowEnd s = .next z ∧ z.lock.window = none ∧ bitOf (z.get (rawOf 4)) 3 = true ∧
      ∀ i < 3, bitOf s.lock.arm i = true → bitOf (s.get LK_TAMPER_8) i = true → latched z i) ∧
    ∀ (j : Fin 6) fire bad, let i := j.val; let u := s.set LK_TAMPER_8 (if fire then setBit (s.get LK_TAMPER_8) i else clrBit (s.get LK_TAMPER_8) i)
      ((fire = false ∨ s.power = .off) → exec (.tamperEvent j fire bad) s = .next u) ∧
      (fire = true → s.power ≠ .off → bitOf (s.get LK_ARM_0) i = true → ∃ z, exec (.tamperEvent j fire bad) s = .next z ∧ latched z i ∧ (bad = true → s.power ≠ .stable → z.passive = true)) ∧
      (fire = true → s.power ≠ .off → bitOf (s.get LK_ARM_0) i = false → ∃ z, exec (.tamperEvent j fire bad) s = .next z ∧ u.keepsBut z [7, 0x0A] ∧ (s.lock.window = none → z = u))

/-- 21 R518, R520, R522 to R524, R532. -/
def Obligations.FieldUpdate : Prop :=
  (∀ (s : State) (a : Acc), s.reaches a 5 0x040 → let u := s.upd
    let fails := fun (c : Instr) (x : Nat) => ∃ z, exec c s = .next z ∧ z.get UPD_STAT_0 = 3 ∧ z.get UPD_STAT_4 = x ∧ bitOf (z.get (rawOf 5)) 1 = true ∧ z.upd = { u with cmd := 0 } ∧ z.flash = s.flash
    let good := fun (z : State) => z.get UPD_STAT_0 = 2 ∧ z.get UPD_STAT_4 = 0 ∧ bitOf (z.get (rawOf 5)) 0 = true ∧ z.upd.cmd = 0
    (u.cmd ≠ 0 → ∀ c ∈ [Instr.updVerify a, .updBegin a, .updEnd a, .updAbort a, .updActivate a true, .updActivate a false, .updConfirm a, .updBooted a], ∃ z, exec c s = .next z ∧
      z.get UPD_STAT_4 = 11 ∧ bitOf (z.get (rawOf 5)) 1 = true ∧ z.upd = u) ∧
    (u.cmd = 0 → (∀ c ∈ [(Instr.updVerify a, 1), (.updBegin a, 2), (.updEnd a, 3)], ∃ z, exec c.1 s = .next z ∧ z.get UPD_STAT_0 = 1 ∧ z.get UPD_STAT_4 = 0 ∧
        z.upd = { u with cmd := c.2, input := s.hubRead (clampR 0xF00 0xF3F (s.get UPD_BUF_12) * 4096) 512 }) ∧
      (u.sess = none → fails (.updAbort a) 8 ∧ ∀ now, fails (.updActivate a now) 8) ∧
      (u.sess ≠ none → ∃ z, exec (.updAbort a) s = .next z ∧ good z ∧ z.upd.sess = none ∧ z.flag UPDATE_session = false ∧ z.get ST_SLOTOPEN_0 = 0) ∧
      (∀ x now, u.sess = some x → let m := tableMask x.table
        (x.slot ≠ none → fails (.updActivate a now) 8) ∧ (x.slot = none → s.get UPD_SESSION_0 ≠ m → fails (.updActivate a now) 9) ∧
        (x.slot = none → s.get UPD_SESSION_0 = m → setOk (s.resultSet m m []) = false → fails (.updActivate a now) 2) ∧
        (x.slot = none → s.get UPD_SESSION_0 = m → setOk (s.resultSet m m []) = true → ∃ z, exec (.updActivate a now) s = .next z ∧ good z ∧ z.upd.sel = s.running ^^^ m ∧ z.upd.trial = true ∧
          z.upd.conf = u.conf ∧ z.upd.sess = none ∧ (now = false → z.power = .run) ∧ (now = true → s.flag CYCLE_running = true → z.cyc.restart = 3 ∧ z.power = .run) ∧
          (now = true → s.flag CYCLE_running = false → z.power = .off))) ∧
      (s.flag SYS_svc_only = true → fails (.updConfirm a) 10) ∧ (s.flag SYS_svc_only = false → u.onTrial = false → fails (.updConfirm a) 8) ∧
      (s.flag SYS_svc_only = false → u.onTrial = true → ∃ z, exec (.updConfirm a) s = .next z ∧ good z ∧ z.flag UPDATE_trial = false ∧
        z.upd = { u with conf := s.running, sel := s.running, trial := false, onTrial := false, next := 0 }) ∧
      ∃ z, exec (.updBooted a) s = .next z ∧ good z ∧ z.upd = { u with booted := true, fails := 0 })) ∧
  (∀ (s : State) (bad : Bool), let u := s.upd; let h := u.input; let c := exec (.updateCommandComplete bad) s; let k := hdrType h
    let fails := fun (x : Nat) => ∃ z, c = .next z ∧ z.get UPD_STAT_0 = 3 ∧ z.get UPD_STAT_4 = x ∧ bitOf (z.get (rawOf 5)) 1 = true ∧ z.upd.cmd = 0 ∧ z.flash = s.flash ∧ z.upd.sel = u.sel
    let t := (contTable h).map fun e => (e.1, e.2.2)
    (u.cmd ≠ 1 → u.cmd ≠ 2 → u.cmd ≠ 3 → c = .next s) ∧
    (u.cmd = 1 → (s.contOk h = false → fails 1) ∧ (s.contOk h = true → setOk (s.resultSet (tableMask t) 0 []) = false → fails 2) ∧
      (s.contOk h = true → setOk (s.resultSet (tableMask t) 0 []) = true → ∃ z x, c = .next z ∧ z.get UPD_STAT_0 = 2 ∧ z.flag UPDATE_session = true ∧ z.upd.sess = some x ∧ x.table = t ∧ x.last = 0 ∧ x.slot = none)) ∧
    (u.cmd = 2 → (u.sess = none → fails 8) ∧ ∀ x, u.sess = some x → let r := s.hdrReason h; let fit := setOk (s.resultSet (tableMask x.table) (s.get UPD_SESSION_0) [h]) = true
      (r = 1 → fails 1) ∧ (r ≠ 1 → x.mayBegin k = false → fails 4) ∧ (r ≠ 1 → x.mayBegin k = true → r ≠ 0 → fails r) ∧ (r = 0 → x.mayBegin k = true → ¬ fit → fails 2) ∧
      (r = 0 → x.mayBegin k = true → fit → ∃ z o y, c = .next z ∧ z.get UPD_STAT_0 = 2 ∧ z.get ST_SLOTOPEN_0 = 2 ^ slotPart k (1 - sideOf s.running k) % 2 ^ 12 ∧ z.upd.sess = some y ∧
        y = { x with last := k, slot := some o } ∧ o.type = k ∧ o.hdr = h ∧ o.next = 0 ∧ o.failed = false)) ∧
    (u.cmd = 3 → ((u.sess = none ∨ ∃ x, u.sess = some x ∧ x.slot = none) → fails 8) ∧ ∀ x o, u.sess = some x → x.slot = some o → let side := 1 - sideOf s.running o.type
      let right := o.passed = true ∧ bad = false ∧ s.slotHdr o.type side = o.hdr ∧ s.slotHash o.type side = true
      (o.failed = true → fails 7) ∧ (o.failed = false → ¬ right → fails 6) ∧ (o.failed = false → right → o.type ≤ 6 → 0 < o.type → ∃ z, c = .next z ∧ z.get UPD_STAT_0 = 2 ∧
        bitOf (z.get UPD_SESSION_0) (o.type - 1) = true ∧ z.get ST_SLOTOPEN_0 = 0 ∧ z.upd.sess = some { x with slot := none }))) ∧
  ∀ s : State, let u := s.upd; let back := fun (z : State) => z.upd.sel = u.conf ∧ z.upd.trial = false ∧ z.upd.onTrial = false ∧ z.upd.next = 2 ∧ z.upd.sess = none ∧ bitOf (z.get (rawOf 5)) 2 = true
    (¬ (s.power = .run ∧ u.booted = false ∧ u.cobbler = false) → exec .bootedTimeout s = .next s) ∧
    (s.power = .run → u.booted = false → u.cobbler = false → ∃ z, exec .bootedTimeout s = .next z ∧ z.power = .off ∧ z.upd.failed = true ∧ z.upd.last = 5 ∧ z.upd.conf = u.conf ∧
      (u.onTrial = true → back z) ∧ (u.onTrial = false → z.upd.fails = min 3 (u.fails + 1) ∧ z.upd.sel = u.sel)) ∧
    (¬ (s.power = .run ∧ u.onTrial = true) → exec .trialTimeout s = .next s) ∧
    (s.power = .run → u.onTrial = true → ∃ z, exec .trialTimeout s = .next z ∧ back z ∧ z.upd.conf = u.conf ∧ z.power = if s.flag CYCLE_running = true then .run else .off)

/-- 22 R536, R537, R540 to R549. -/
def Obligations.QuicenBridge : Prop :=
  ∀ s : State, let b := s.bridge; let raw := fun (z : State) (i : Nat) => bitOf (z.get (rawOf 0x62)) i = true
    let ready := s.isF = true ∧ s.passive = false ∧ s.power = .run ∧ s.flag BR_CTL_0 = true ∧ s.get MIRROR_state ≠ 1 ∧ s.get MIRROR_state ≠ 3 ∧
      (s.q (s.get BR_CPLQ_0)).enabled = true ∧ s.qPkt (s.get BR_CPLQ_0) = true
    (s.isF = false → (∀ c ∈ [Instr.bridgeRequestTake, .bridgeBusCycleStart, .bridgeCompletionWrite, .qpResetAssert, .qpResetRecoveryEnd], exec c s = .next s) ∧
      (∀ j, exec (.bridgeScanInstant j) s = .next s) ∧ ∀ n v, exec (.quicenLineAssert n v) s = .next s) ∧
    (ready → (s.qPeek (s.get BR_REQQ_0) = none → ∃ z, exec .bridgeRequestTake s = .next z ∧ z.bridge = b ∧ z.hub = s.hub) ∧
      ∀ p bad, s.qPeek (s.get BR_REQQ_0) = some (p, bad) → let r := brReq p
        (s.brFree r = false → ∃ z, exec .bridgeRequestTake s = .next z ∧ z.bridge = b ∧ z.queues = s.queues) ∧
        (s.brFree r = true → brRefused p bad = false → ∃ z, exec .bridgeRequestTake s = .next z ∧ z.bridge = { b with wait := b.wait ++ [r] }) ∧
        (s.brFree r = true → brRefused p bad = true → ∃ z, exec .bridgeRequestTake s = .next z ∧ z.get BR_REFUSED_0 = s.oneMore BR_REFUSED_0 ∧
          (r.kind = 1 → z.bridge = { b with cpl := b.cpl ++ [brPacket r.tag 3 r.addr []] }) ∧ (r.kind ≠ 1 → z.bridge = b ∧ raw z 1))) ∧
    (s.brMaster = true → b.bus = none → (b.wait = [] → ∃ z, exec .bridgeBusCycleStart s = .next z ∧ z.bridge = b) ∧
      ∀ r l, b.wait = r :: l → r.kind ≠ 2 → s.flag BRIDGE_in_reset = false → ∃ z, exec .bridgeBusCycleStart s = .next z ∧
        z.bridge = { b with wait := l, bus := some { r with live := r.kind ≠ 0 } } ∧ SMap.get z.wire 96 [] = leBytes 4 r.word) ∧
    (b.bus = none → exec .bridgeDataPhaseTimeout s = .next s ∧ ∀ e w, exec (.bridgeDataPhaseEnd e w) s = .next s) ∧
    (∀ r, b.bus = some r → let word := fun (w : BitVec 32) => r.onBus w.toNat
      let ends := fun (c : Instr) (st : Nat) (data : List Nat) (f : Fld) => ∃ z, exec c s = .next z ∧ z.bridge.bus = none ∧ z.bridge.wait = b.wait ∧ z.get f = s.oneMore f ∧
        (r.kind = 1 → r.live = true → z.bridge.cpl = b.cpl ++ [brPacket r.tag st r.addr data]) ∧
        (r.kind = 0 → z.bridge.cpl = b.cpl ∧ (st ≠ 0 → z.get BR_ERR_ADDR_0 = r.addr % 2 ^ 24 ∧ z.get BR_ERR_ADDR_24 = st ∧ raw z 0))
      (r.kind < 2 → ends .bridgeDataPhaseTimeout 2 [] BR_TMO_0 ∧ (∀ w, ends (.bridgeDataPhaseEnd true w) 1 [] BR_FARERR_0) ∧
        (r.k ≤ r.n + 1 → ∀ w, ends (.bridgeDataPhaseEnd false w) 0 (r.data ++ [word w]) (if r.kind = 0 then BR_WRITES_0 else BR_READS_0))) ∧
      (r.n + 1 < r.k → ∀ w, ∃ z, exec (.bridgeDataPhaseEnd false w) s = .next z ∧ z.regs = s.regs ∧
        z.bridge = { b with bus := some { r with n := r.n + 1, data := if r.kind = 0 then r.data else r.data ++ [word w] } })) ∧
    (s.isF = true → let q := s.get BR_CPLQ_0
      (b.cpl = [] → exec .bridgeCompletionWrite s = .next s) ∧
      ∀ p l, b.cpl = p :: l → ((s.q q).enabled = false → ∃ z, exec .bridgeCompletionWrite s = .next z ∧ z.bridge = { b with cpl := [] } ∧
          z.get BR_DISCARD_0 = min (s.get BR_DISCARD_0 + b.cpl.length) (2 ^ BR_DISCARD_0.w - 1)) ∧
        ((s.q q).enabled = true → s.qPkt q = true → s.qRoom q p.length = true → ∃ z, exec .bridgeCompletionWrite s = .next z ∧ z.bridge = { b with cpl := l }) ∧
        ((s.q q).enabled = true → (s.qPkt q && s.qRoom q p.length) = false → ∃ z, exec .bridgeCompletionWrite s = .next z ∧ z.bridge = b ∧ raw z 3)) ∧
    (∀ j : Fin 8, let on := s.brMaster = true ∧ s.flag BR_SCANCTL_31 = true ∧ s.flag CYCLE_running = true ∧ s.flag (CYC_CFG_21 j.val) = true
      (¬ on → exec (.bridgeScanInstant j) s = .next s.brFollow) ∧
      (on → ∃ z, exec (.bridgeScanInstant j) s = .next z ∧ z.bridge.wait.filter (·.kind ≠ 2) = b.wait.filter (·.kind ≠ 2) ∧ z.bridge.bus = b.bus ∧ z.bridge.cpl = b.cpl ∧
        ∀ e < 32, s.flag (BR_S_ADDR_31 e) = true → s.get (BR_S_TGT_16 e) = j.val → brAligned (s.get (BR_S_ADDR_0 e)) (s.get (BR_S_ADDR_24 e)) (s.get (BR_S_ADDR_26 e) + 1) = true →
          ∃ r ∈ z.bridge.wait, r.kind = 2 ∧ r.tag = e ∧ r.addr = s.get (BR_S_ADDR_0 e) ∧ r.cls = j.val)) ∧
    (∀ a, s.reaches a 0x62 0x04C → (∃ z, exec (.brFlush a) s = .next z ∧ z.bridge.wait = b.wait.filter (·.kind = 2) ∧ ∀ r ∈ b.wait, r.kind = 1 → brPacket r.tag 4 r.addr [] ∈ z.bridge.cpl) ∧
      (b.bus ≠ none → exec (.brReset a) s = .next (s.updBr fun b => { b with rst := true })) ∧
      (b.bus = none → ∃ z, exec (.brReset a) s = .next z ∧ z.flag BRIDGE_in_reset = true ∧ z.flag BR_LINES_8 = true ∧ z.bridge = { b with rst := false })) ∧
    (s.isF = true → (∃ z, exec .qpResetRecoveryEnd s = .next z ∧ z.flag BRIDGE_in_reset = false ∧ z.flag BR_LINES_8 = false ∧ s.keepsBut z [0x62]) ∧
      (s.power = .run → (∃ z, exec .qpResetAssert s = .next z ∧ z.flag BRIDGE_in_reset = true ∧ z.flag BR_LINES_8 = true ∧ z.bridge.bus = none) ∧
        ∀ (n : Fin 11) v, ∃ z, exec (.quicenLineAssert n v) s = .next z ∧ s.keepsBut z [0x62, 0x0A] ∧ (∀ k < 8, bitOf (z.get BR_LINES_0) k = (k == n.val || bitOf v.toNat k)) ∧
          (n.val = 8 → z.flag BR_LINES_8 = true)))

/-- 23 R564, R565; 21 R526, R527. -/
def Obligations.ServicePortsAndCobbler : Prop :=
  (∀ (s : State) (j : Fin 2), let x := j.val
    (∀ up (v : Fin 3), let may := x < s.nSvc ∧ s.power = .run ∧ (up = false ∨ s.svcFits x v.val = true)
      (¬ (may ∧ s.flag (SVC_LINK_0 x) ≠ up) → exec (.svcLinkChange j up v) s = .next s) ∧
      (may → s.flag (SVC_LINK_0 x) ≠ up → ∃ z, exec (.svcLinkChange j up v) s = .next z ∧ z.flag (SVC_LINK_0 x) = up ∧ z.get (SVC_LINK_1 x) = (if up then v.val else 0) ∧
        bitOf (z.get SVC_up) x = up ∧ bitOf (z.get (rawOf 0x35)) 0 = true ∧ s.keepsBut z [0x35, 7, 0x0A])) ∧
    (∀ f ok, let c := exec (.svcFrameReceived j f ok) s; let bad := 1518 < frameLen f ∨ f.length + 4 < 64 + tagLen f ∨ ok = false
      let p := if s.flag (TS_PORTCTL_0 (4 + x)) then beBytes 8 (unsint 64 (s.rxStamp (4 + x))) ++ f else f; let q := s.get (SVC_RXQ_0 x); let fits := s.flag (SVC_RXQ_31 x) = true ∧ s.qRoom q p.length = true
      (s.svcUp x = false → c = .next s) ∧
      (s.svcUp x = true → bad → ∃ z, c = .next z ∧ z.get (SVC_RX_DROP_0 x) = s.oneMore (SVC_RX_DROP_0 x) ∧ z.get SVC_err_count = s.oneMore SVC_err_count ∧ bitOf (z.get (rawOf 0x35)) 1 = true ∧ z.hub = s.hub) ∧
      (s.svcUp x = true → ¬ bad → s.svcDst x f = false → c = .next (s.count (SVC_RX_DROP_0 x))) ∧
      (s.svcUp x = true → ¬ bad → s.svcDst x f = true → s.upd.cobbler = false →
        (fits → ∃ z, c = .next z ∧ z = (s.count (SVC_RX_GOOD_0 x)).qPacket q (0x38 + x) p ∧ z.get (SVC_RX_GOOD_0 x) = s.oneMore (SVC_RX_GOOD_0 x)) ∧
        (¬ fits → ∃ z, c = .next z ∧ z.get (SVC_RX_QFULL_0 x) = s.oneMore (SVC_RX_QFULL_0 x) ∧ bitOf (z.get (rawOf 0x35)) 2 = true ∧ z.hub = s.hub ∧ z.queues = s.queues)) ∧
      (s.svcUp x = true → ¬ bad → s.svcDst x f = true → s.upd.cobbler = true → (x ≠ 0 → c = .next s) ∧ (x = 0 → ∃ z, c = .next z ∧ z.upd = s.upd ∧ z.flash = s.flash))) ∧
    (let q := s.get (SVC_TXQ_0 x); let on := s.svcUp x = true ∧ s.upd.cobbler = false ∧ s.flag (SVC_TXQ_31 x) = true; let c := exec (.svcFrameSend j) s
      (¬ on → c = .next s) ∧ (on → s.qPeek q = none → c = .next s) ∧
      ∀ f bad, on → s.qPeek q = some (f, bad) → ((bad = true ∨ 1518 < frameLen f) → ∃ z, c = .next z ∧ z.get (SVC_TX_LONG_0 x) = s.oneMore (SVC_TX_LONG_0 x) ∧ z.wire = s.wire) ∧
        (bad = false → frameLen f ≤ 1518 → ∃ z, c = .next z ∧ z.get (SVC_TX_FRAMES_0 x) = s.oneMore (SVC_TX_FRAMES_0 x)))) ∧
  (∀ (s : State) (req file : List Byte), let serves := s.power = .run ∧ s.upd.cobbler = true ∧ s.upd.installed = false; let r := s.cobInstall file
    let takes := fun (z : State) => z.upd = r.1.upd ∧ z.flash = r.1.flash
    (¬ serves → ∀ sd, exec (.tftpWriteRequest sd req file) s = .next s) ∧
    (serves → (s.flag SDSLOT_present = false → exec (.tftpWriteRequest true req file) s = .next s) ∧ (s.flag SDSLOT_present = true → exec (.tftpWriteRequest true req file) s = .next r.1) ∧
      ((s.svcUp 0 = false ∨ isTftp req = false) → exec (.tftpWriteRequest false req file) s = .next s) ∧
      (s.svcUp 0 = true → isTftp req = true → (tftpOk req = false ∨ 33553919 < file.length) → ∃ z, exec (.tftpWriteRequest false req file) s = .next z ∧ z.upd = s.upd ∧ z.flash = s.flash) ∧
      (s.svcUp 0 = true → isTftp req = true → tftpOk req = true → file.length ≤ 33553919 → ∃ z, exec (.tftpWriteRequest false req file) s = .next z ∧ takes z)) ∧
    (r.2 = true → r.1.upd.installed = true ∧ r.1.upd.trial = true ∧ r.1.upd.next = 3 ∧ r.1.upd.fails = 0 ∧ r.1.upd.conf = s.upd.conf) ∧
    (r.2 = false → r.1.upd.installed = s.upd.installed ∧ r.1.upd.sel = s.upd.sel ∧ r.1.upd.trial = s.upd.trial) ∧
    (s.contOk (file.take 512) = false → r.2 = false ∧ r.1.get UPD_STAT_4 = 1 ∧ r.1.get UPDATE_refusals = s.oneMore UPDATE_refusals ∧ r.1.flash = s.flash)) ∧
  ∀ s : State, let go := s.power = .run ∧ s.upd.cobbler = true ∧ s.upd.installed = true ∧ bitOf (s.get SW_READ_HI_0) 29 = false ∧ s.get LK_TAMPER_8 % 8 = 0
    (¬ go → exec .cobblerRestart s = .next s) ∧ (go → ∃ z, exec .cobblerRestart s = .next z ∧ z.power = .off ∧ z.upd = s.upd ∧ ∀ l, z.laneState l = lOff)

/-- The invariant of the memories and of the register file, kept by every step from every state that has it (the form is the model's, log entry 4). -/
def Obligations.MemoryFormsAreKept : Prop :=
  ∀ s : State, s.memWf = true → s.regsWf = true →
    ∃ t, step s = .next t ∧ t.memWf = true ∧ t.regsWf = true ∧ t.pending = s.pending.tail ∧ t.variant = s.variant

/-- Reset has the invariant of MemoryFormsAreKept. -/
def Obligations.ResetHasTheForms : Prop :=
  State.reset.memWf = true ∧ State.reset.regsWf = true ∧ State.reset.pending = [] ∧ ∀ f : Fld, State.reset.get f = f.rst % 2 ^ f.w

/-- R507, R508, R521: fuses are written once. -/
def Obligations.FusesOnlyBurn : Prop :=
  ∀ s t : State, step s = .next t →
    s.lock.n ≤ t.lock.n ∧ s.lock.floor ≤ t.lock.floor ∧ s.lock.burnt1 ≤ t.lock.burnt1 ∧ s.lock.burnt2 ≤ t.lock.burnt2 ∧ t.lock.chip = s.lock.chip ∧
    ∀ i, (s.lock.rev0.testBit i = true → t.lock.rev0.testBit i = true) ∧ (s.lock.rev1.testBit i = true → t.lock.rev1.testBit i = true) ∧
      (s.lock.rev2.testBit i = true → t.lock.rev2.testBit i = true)

/-- R50, R52, R76: what comes before an instruction, for each of the instructions; R49, R56, R113: a pair that may not run. -/
def Obligations.BoundariesAndStoppedPairs : Prop :=
  ∀ (l : Fin 3) (p : Fin 4) (s : State),
    let all (z : State) : Prop :=
      (∀ x a b c n, exec (.aluRegisterOp l p x a b c n) s = .next z) ∧ (∀ k a b n, exec (.immediateOp l p k a b n) s = .next z) ∧
      (∀ x a b n, exec (.upperImmediate l p x a b n) s = .next z) ∧ (∀ k a b n, exec (.load l p k a b n) s = .next z) ∧
      (∀ k a b n, exec (.store l p k a b n) s = .next z) ∧ (∀ a b c n, exec (.atomic l p a b c n) s = .next z) ∧
      (∀ k a b n, exec (.branch l p k a b n) s = .next z) ∧ (∀ n, exec (.jump l p n) s = .next z) ∧ (∀ n, exec (.jal l p n) s = .next z) ∧
      (∀ a b n, exec (.jalr l p a b n) s = .next z) ∧ (∀ k a b n, exec (.fpLoadStore l p k a b n) s = .next z) ∧
      (∀ a b c n, exec (.fpArithmetic l p a b c n) s = .next z) ∧ (∀ a b c n, exec (.fpConvertCompareMove l p a b c n) s = .next z) ∧
      (∀ g n, exec (.syscall l p g n) s = .next z) ∧ (∀ g n, exec (.mcall l p g n) s = .next z) ∧ (∀ g n, exec (.brk l p g n) s = .next z) ∧
      exec (.eret l p) s = .next z ∧ (s.writesOpen l p = false → exec (.fence l p) s = .next z) ∧ exec (.fenceI l p) s = .next z ∧
      (∀ g n, exec (.mfs l p g n) s = .next z) ∧ (∀ g n, exec (.mts l p g n) s = .next z) ∧
      (∀ a b c n, exec (.bcopy l p a b c n) s = .next z) ∧ (∀ a b c n, exec (.bfill l p a b c n) s = .next z) ∧
      (∀ a b c n, exec (.bcrc l p a b c n) s = .next z) ∧ (∀ a b c n, exec (.pace l p a b c n) s = .next z) ∧
      (∀ a b c n, exec (.rdcnt l p a b c n) s = .next z) ∧ ∀ a b c n, exec (.yield l p a b c n) s = .next z
    (s.canRun l p = false → all s) ∧
    (s.canRun l p = true → ∀ q, (s.pr l p).boundary = (q, true) → all (s.updP l p fun _ => q)) ∧
    (s.canRun l p = true → s.laneState l ≠ lBoot → ∀ q a i, (s.pr l p).boundary = (q, false) →
      (s.updP l p fun _ => q).rangeFault l p .fetch q.pc.toNat 4 = some (a, i) → all ((s.updP l p fun _ => q).precise l p 0x01 i a false))
end

