-- ==== Sys2Proof/Laws/Bits.lean ====
section
/-! SUPPORT. Bit fields: what a field reads after a field is replaced. -/

namespace Sys2Proof.Machine

/-- A number with a field replaced, part by part. -/
theorem putBits_eq (v lo w x : Nat) : putBits v lo w x = v / 2 ^ (lo + w) * 2 ^ (lo + w) + x % 2 ^ w * 2 ^ lo + v % 2 ^ lo := by
  unfold putBits bitsOf
  have h1 := Nat.div_add_mod v (2 ^ lo)
  have h2 := Nat.div_add_mod (v / 2 ^ lo) (2 ^ w)
  have e : v / 2 ^ (lo + w) = v / 2 ^ lo / 2 ^ w := by rw [Nat.div_div_eq_div_mul, Nat.pow_add]
  rw [e, Nat.pow_add]
  generalize v / 2 ^ lo / 2 ^ w = hi at *
  generalize hm : v / 2 ^ lo % 2 ^ w = mid at *
  generalize hl : v % 2 ^ lo = low at *
  generalize v / 2 ^ lo = r at *
  have h3 : v = hi * (2 ^ lo * 2 ^ w) + mid * 2 ^ lo + low := by rw [← h1, ← h2]; ring
  have : mid * 2 ^ lo ≤ v := by omega
  rw [h3]
  have : hi * (2 ^ lo * 2 ^ w) + mid * 2 ^ lo + low - mid * 2 ^ lo = hi * (2 ^ lo * 2 ^ w) + low := by omega
  rw [this]
  omega

/-- The replaced field. -/
theorem bitsOf_putBits_same (v lo w x : Nat) : bitsOf (putBits v lo w x) lo w = x % 2 ^ w := by
  rw [putBits_eq]
  unfold bitsOf
  have h : (v / 2 ^ (lo + w) * 2 ^ (lo + w) + x % 2 ^ w * 2 ^ lo + v % 2 ^ lo) / 2 ^ lo = v / 2 ^ (lo + w) * 2 ^ w + x % 2 ^ w := by
    have e : v / 2 ^ (lo + w) * 2 ^ (lo + w) + x % 2 ^ w * 2 ^ lo + v % 2 ^ lo = v % 2 ^ lo + 2 ^ lo * (v / 2 ^ (lo + w) * 2 ^ w + x % 2 ^ w) := by
      rw [Nat.pow_add]; ring
    rw [e, Nat.add_mul_div_left _ _ (Nat.two_pow_pos lo), Nat.div_eq_of_lt (Nat.mod_lt _ (Nat.two_pow_pos lo)), Nat.zero_add]
  rw [h, Nat.add_comm, Nat.add_mul_mod_self_right, Nat.mod_mod]

/-- A field below the replaced one. -/
theorem bitsOf_putBits_low {v lo w x a n : Nat} (h : a + n ≤ lo) : bitsOf (putBits v lo w x) a n = bitsOf v a n := by
  rw [putBits_eq]
  unfold bitsOf
  have key : ∀ u, u / 2 ^ a % 2 ^ n = u % 2 ^ (a + n) / 2 ^ a := fun u => by rw [Nat.pow_add, Nat.mod_mul_right_div_self]
  rw [key, key]
  congr 1
  obtain ⟨k, hk⟩ := Nat.exists_eq_add_of_le h
  have e1 : v / 2 ^ (lo + w) * 2 ^ (lo + w) + x % 2 ^ w * 2 ^ lo + v % 2 ^ lo =
      v % 2 ^ lo + 2 ^ (a + n) * (2 ^ k * (v / 2 ^ (lo + w) * 2 ^ w + x % 2 ^ w)) := by
    rw [Nat.pow_add 2 lo w]
    rw [show 2 ^ lo = 2 ^ (a + n) * 2 ^ k by rw [← Nat.pow_add, ← hk]]
    ring
  rw [e1, Nat.add_mul_mod_self_left, hk, Nat.pow_add, Nat.mod_mul_right_mod]

/-- A field above the replaced one. -/
theorem bitsOf_putBits_high {v lo w x a n : Nat} (h : lo + w ≤ a) : bitsOf (putBits v lo w x) a n = bitsOf v a n := by
  rw [putBits_eq]
  unfold bitsOf
  congr 1
  obtain ⟨k, hk⟩ := Nat.exists_eq_add_of_le h
  have hlt : x % 2 ^ w * 2 ^ lo + v % 2 ^ lo < 2 ^ (lo + w) := by
    have h1 := Nat.mod_lt x (Nat.two_pow_pos w)
    have h2 := Nat.mod_lt v (Nat.two_pow_pos lo)
    have h3 : x % 2 ^ w * 2 ^ lo + 2 ^ lo ≤ 2 ^ w * 2 ^ lo := by
      have : (x % 2 ^ w + 1) * 2 ^ lo ≤ 2 ^ w * 2 ^ lo := Nat.mul_le_mul_right _ h1
      linarith [this]
    rw [Nat.pow_add]
    linarith [Nat.mul_comm (2 ^ w) (2 ^ lo)]
  have hp : 2 ^ (lo + w + k) = 2 ^ (lo + w) * 2 ^ k := Nat.pow_add 2 (lo + w) k
  rw [hk, hp, ← Nat.div_div_eq_div_mul, ← Nat.div_div_eq_div_mul]
  congr 1
  have e : v / 2 ^ (lo + w) * 2 ^ (lo + w) + x % 2 ^ w * 2 ^ lo + v % 2 ^ lo =
      (x % 2 ^ w * 2 ^ lo + v % 2 ^ lo) + 2 ^ (lo + w) * (v / 2 ^ (lo + w)) := by ring
  rw [e, Nat.add_mul_div_left _ _ (Nat.two_pow_pos _), Nat.div_eq_of_lt hlt, Nat.zero_add]

theorem putBits_lt {v lo w x n : Nat} (hv : v < 2 ^ n) (h : lo + w ≤ n) : putBits v lo w x < 2 ^ n := by
  by_contra hc
  have h1 : putBits v lo w x / 2 ^ n = 0 := by
    have h0 : bitsOf (putBits v lo w x) n (putBits v lo w x) = bitsOf v n (putBits v lo w x) := bitsOf_putBits_high h
    unfold bitsOf at h0
    rw [Nat.div_eq_of_lt hv, Nat.zero_mod] at h0
    have h2 : putBits v lo w x / 2 ^ n < 2 ^ putBits v lo w x := Nat.lt_of_le_of_lt (Nat.div_le_self _ _) Nat.lt_two_pow_self
    rwa [Nat.mod_eq_of_lt h2] at h0
  have := (Nat.div_eq_zero_iff).1 h1
  rcases this with h2 | h2
  · exact absurd h2 (Nat.two_pow_pos n).ne'
  · exact hc h2

theorem bitOf_iff {v i : Nat} : bitOf v i = true ↔ v.testBit i = true := by
  unfold bitOf Nat.testBit
  rw [Nat.shiftRight_eq_div_pow, Nat.one_and_eq_mod_two]
  simp

/-- One bit of a number with a bit set. -/
theorem bitOf_setBit (v i j : Nat) : bitOf (setBit v i) j = (bitOf v j || decide (i = j)) := by
  have e : setBit v i = v ||| 2 ^ i := by
    unfold setBit
    split
    · rename_i h
      refine (Nat.eq_of_testBit_eq fun k => ?_)
      rw [Nat.testBit_or, Nat.testBit_two_pow]
      by_cases hk : i = k
      · subst hk; simp [bitOf_iff.1 h]
      · simp [hk]
    · rename_i h
      have h' : v.testBit i = false := by rw [← Bool.not_eq_true]; exact fun x => h (bitOf_iff.2 x)
      rw [Nat.add_comm]
      refine Nat.eq_of_testBit_eq fun k => ?_
      rw [Nat.testBit_or, Nat.testBit_two_pow]
      rcases Nat.lt_trichotomy k i with hk | hk | hk
      · rw [Nat.testBit_two_pow_add_gt hk]; simp [Nat.ne_of_gt hk]
      · subst hk; rw [Nat.testBit_two_pow_add_eq]; simp [h']
      · have : (2 ^ i + v).testBit k = v.testBit k := by
          have hb := h'
          obtain ⟨m, hm⟩ := Nat.exists_eq_add_of_lt hk
          simp only [Nat.testBit_eq_decide_div_mod_eq] at hb ⊢
          have hd : (2 ^ i + v) / 2 ^ (i + 1) = v / 2 ^ (i + 1) := by
            have h0 : v / 2 ^ i % 2 = 0 := by
              have := Nat.mod_two_eq_zero_or_one (v / 2 ^ i)
              rcases this with h | h
              · exact h
              · simp [h] at hb
            rw [Nat.pow_succ, ← Nat.div_div_eq_div_mul, ← Nat.div_div_eq_div_mul, Nat.add_div_left _ (Nat.two_pow_pos i)]
            omega
          have : 2 ^ k = 2 ^ (i + 1) * 2 ^ m := by rw [← Nat.pow_add, hm]; congr 1; omega
          rw [this, ← Nat.div_div_eq_div_mul, ← Nat.div_div_eq_div_mul, hd]
        rw [this]; simp [Nat.ne_of_lt hk]
  rw [e]
  have : ∀ b c : Bool, (b = true ↔ c = true) → b = c := fun b c h => by cases b <;> cases c <;> simp_all
  apply this
  rw [bitOf_iff, Nat.testBit_or, Nat.testBit_two_pow, Bool.or_eq_true, Bool.or_eq_true, bitOf_iff]

end Sys2Proof.Machine
end

