-- ==== Sys2Proof/Laws/SMap.lean ====
section
/-! SUPPORT. Sparse maps: what a read gives after a write, and that every operation keeps the one form. -/

namespace Sys2Proof.Machine

section
variable {α : Type}

theorem SMap.find?_erase_same (m : SMap α) (k : Nat) : SMap.find? (SMap.erase m k) k = none := by
  induction m with
  | nil => rfl
  | cons e r ih => obtain ⟨a, x⟩ := e; simp only [SMap.erase]; split <;> simp_all [SMap.find?]

theorem SMap.find?_erase_ne {m : SMap α} {k j : Nat} (h : j ≠ k) : SMap.find? (SMap.erase m k) j = SMap.find? m j := by
  induction m with
  | nil => rfl
  | cons e r ih =>
    obtain ⟨a, x⟩ := e
    simp only [SMap.erase, SMap.find?]
    split
    · rename_i ha; subst ha; rw [ih, if_neg (Ne.symm h)]
    · simp only [SMap.find?, ih]

theorem SMap.find?_insert_same {m : SMap α} {k : Nat} {v : α} (h : SMap.find? m k = none) : SMap.find? (SMap.insert m k v) k = some v := by
  induction m with
  | nil => simp [SMap.insert, SMap.find?]
  | cons e r ih =>
    obtain ⟨a, x⟩ := e
    simp only [SMap.find?] at h
    split at h
    · cases h
    · rename_i ha
      simp only [SMap.insert]
      split <;> simp [SMap.find?, ha, ih h]

theorem SMap.find?_insert_ne {m : SMap α} {k j : Nat} {v : α} (h : j ≠ k) : SMap.find? (SMap.insert m k v) j = SMap.find? m j := by
  induction m with
  | nil => simp [SMap.insert, SMap.find?, Ne.symm h]
  | cons e r ih =>
    obtain ⟨a, x⟩ := e
    simp only [SMap.insert]
    split <;> simp [SMap.find?, ih, Ne.symm h]

variable [DecidableEq α]

/-- A read after a write to the same key. -/
@[simp] theorem SMap.get_put_same (m : SMap α) (k : Nat) (d v : α) : SMap.get (SMap.put m k d v) k d = v := by
  unfold SMap.get SMap.put
  split
  · rename_i h; simp [SMap.find?_erase_same, h]
  · rw [SMap.find?_insert_same (SMap.find?_erase_same m k)]; rfl

/-- A write leaves every other key alone. -/
theorem SMap.get_put_ne {m : SMap α} {k j : Nat} {d v e : α} (h : j ≠ k) : SMap.get (SMap.put m k d v) j e = SMap.get m j e := by
  unfold SMap.get SMap.put
  split
  · rw [SMap.find?_erase_ne h]
  · rw [SMap.find?_insert_ne h, SMap.find?_erase_ne h]

theorem SMap.get_put (m : SMap α) (k j : Nat) (d v : α) : SMap.get (SMap.put m k d v) j d = if j = k then v else SMap.get m j d := by
  split
  · rename_i h; subst h; exact SMap.get_put_same m j d v
  · rename_i h; exact SMap.get_put_ne h

end

/-! ## The one form -/

section
variable {α : Type}

theorem SMap.mem_erase {m : SMap α} {k : Nat} {e : Nat × α} (h : e ∈ SMap.erase m k) : e ∈ m ∧ e.1 ≠ k := by
  induction m with
  | nil => cases h
  | cons f r ih =>
    obtain ⟨a, x⟩ := f
    simp only [SMap.erase] at h
    split at h
    · exact ⟨List.mem_cons_of_mem _ (ih h).1, (ih h).2⟩
    · rename_i ha
      rcases List.mem_cons.1 h with rfl | h
      · exact ⟨List.mem_cons_self, ha⟩
      · exact ⟨List.mem_cons_of_mem _ (ih h).1, (ih h).2⟩

theorem SMap.mem_insert {m : SMap α} {k : Nat} {v : α} {e : Nat × α} (h : e ∈ SMap.insert m k v) : e = (k, v) ∨ e ∈ m := by
  induction m with
  | nil => simpa [SMap.insert] using h
  | cons f r ih =>
    obtain ⟨a, x⟩ := f
    simp only [SMap.insert] at h
    split at h
    · simpa using h
    · rcases List.mem_cons.1 h with rfl | h
      · exact .inr List.mem_cons_self
      · exact (ih h).imp id (List.mem_cons_of_mem _)

/-- Keys strictly rising. -/
abbrev SMap.Rising (m : SMap α) : Prop := m.Pairwise fun a b => a.1 < b.1

theorem SMap.rising_erase {m : SMap α} {k : Nat} (h : SMap.Rising m) : SMap.Rising (SMap.erase m k) := by
  induction m with
  | nil => exact h
  | cons f r ih =>
    obtain ⟨a, x⟩ := f
    have h2 := List.pairwise_cons.1 h
    simp only [SMap.erase]
    split
    · exact ih h2.2
    · exact List.pairwise_cons.2 ⟨fun e he => h2.1 e (SMap.mem_erase he).1, ih h2.2⟩

theorem SMap.rising_insert {m : SMap α} {k : Nat} {v : α} (h : SMap.Rising m) (hk : ∀ e ∈ m, e.1 ≠ k) : SMap.Rising (SMap.insert m k v) := by
  induction m with
  | nil => simp [SMap.insert, SMap.Rising]
  | cons f r ih =>
    obtain ⟨a, x⟩ := f
    have h2 := List.pairwise_cons.1 h
    simp only [SMap.insert]
    split
    · rename_i ha
      refine List.pairwise_cons.2 ⟨fun e he => ?_, h⟩
      rcases List.mem_cons.1 he with rfl | he
      · exact ha
      · exact Nat.lt_trans ha (h2.1 e he)
    · rename_i ha
      have hne : a ≠ k := hk (a, x) List.mem_cons_self
      refine List.pairwise_cons.2 ⟨fun e he => ?_, ih h2.2 fun e he => hk e (List.mem_cons_of_mem _ he)⟩
      rcases SMap.mem_insert he with rfl | he
      · show a < k; omega
      · exact h2.1 e he

theorem SMap.rising_reinsert {m : SMap α} {k : Nat} {v : α} (h : SMap.Rising m) : SMap.Rising (SMap.insert (SMap.erase m k) k v) :=
  SMap.rising_insert (SMap.rising_erase h) fun _ he => (SMap.mem_erase he).2

theorem SMap.rising_put [DecidableEq α] {m : SMap α} {k : Nat} {d v : α} (h : SMap.Rising m) : SMap.Rising (SMap.put m k d v) := by
  unfold SMap.put
  split
  · exact SMap.rising_erase h
  · exact SMap.rising_reinsert h

end

/-! ## Memory -/

theorem Memory.wf_iff {m : SMap Byte} : Memory.wf m = true ↔ SMap.Rising m ∧ ∀ e ∈ m, e.2 ≠ 0 := by
  simp [Memory.wf, SMap.Rising]

theorem Memory.wf_put {m : SMap Byte} {k : Nat} {b : Byte} (h : Memory.wf m) : Memory.wf (SMap.put m k 0 b) := by
  rw [Memory.wf_iff] at h ⊢
  refine ⟨SMap.rising_put h.1, fun e he => ?_⟩
  unfold SMap.put at he
  split at he
  · exact h.2 e (SMap.mem_erase he).1
  · rename_i hb
    rcases SMap.mem_insert he with rfl | he
    · exact hb
    · exact h.2 e (SMap.mem_erase he).1

theorem Memory.wf_filter {m : SMap Byte} {p : Nat × Byte → Bool} (h : Memory.wf m) : Memory.wf (m.filter p) := by
  rw [Memory.wf_iff] at h ⊢
  exact ⟨h.1.filter p, fun e he => h.2 e (List.mem_filter.1 he).1⟩

theorem writeBytes_cons (m : SMap Byte) (o : Nat) (b : Byte) (l : List Byte) :
    writeBytes m o (b :: l) = writeBytes (SMap.put m o 0 b) (o + 1) l := rfl

theorem Memory.wf_writeBytes {m : SMap Byte} {o : Nat} {l : List Byte} (h : Memory.wf m) : Memory.wf (writeBytes m o l) := by
  induction l generalizing m o with
  | nil => exact h
  | cons b r ih => rw [writeBytes_cons]; exact ih (Memory.wf_put h)

/-- A byte outside the bytes written reads as before. -/
theorem get_writeBytes_out {m : SMap Byte} {o a : Nat} {l : List Byte} (h : a < o ∨ o + l.length ≤ a) :
    SMap.get (writeBytes m o l) a 0 = SMap.get m a 0 := by
  induction l generalizing m o with
  | nil => rfl
  | cons b r ih =>
    rw [writeBytes_cons]
    simp only [List.length_cons] at h
    rw [ih (by omega), SMap.get_put_ne (by omega)]

/-- A byte written reads as written. -/
theorem get_writeBytes_in {m : SMap Byte} {o i : Nat} {l : List Byte} (h : i < l.length) :
    SMap.get (writeBytes m o l) (o + i) 0 = l[i] := by
  induction l generalizing m o i with
  | nil => cases h
  | cons b r ih =>
    rw [writeBytes_cons]
    cases i with
    | zero => rw [get_writeBytes_out (.inl (by omega))]; exact SMap.get_put_same m o 0 b
    | succ i =>
      have e : o + (i + 1) = o + 1 + i := by omega
      rw [e]
      exact ih (Nat.lt_of_succ_lt_succ h)

/-- A range of a memory replaced by bytes that stand in it. -/
theorem Memory.wf_splice {m mid : SMap Byte} {a b : Nat} (h : Memory.wf m) (hm : Memory.wf mid) (hr : ∀ e ∈ mid, a ≤ e.1 ∧ e.1 < b) (hab : a ≤ b) :
    Memory.wf ((m.filter fun e => e.1 < a) ++ mid ++ (m.filter fun e => b ≤ e.1)) := by
  rw [Memory.wf_iff] at *
  refine ⟨?_, fun e he => ?_⟩
  · refine List.pairwise_append.2 ⟨List.pairwise_append.2 ⟨h.1.filter _, hm.1, fun x hx y hy => ?_⟩, h.1.filter _, fun x hx y hy => ?_⟩
    · have h1 := List.mem_filter.1 hx
      simp only [decide_eq_true_eq] at h1
      exact Nat.lt_of_lt_of_le h1.2 (hr y hy).1
    · have h1 := List.mem_filter.1 hy
      simp only [decide_eq_true_eq] at h1
      rcases List.mem_append.1 hx with hx | hx
      · have h2 := List.mem_filter.1 hx
        simp only [decide_eq_true_eq] at h2
        omega
      · exact Nat.lt_of_lt_of_le (hr x hx).2 h1.2
  · rcases List.mem_append.1 he with he | he
    · rcases List.mem_append.1 he with he | he
      · exact h.2 e (List.mem_filter.1 he).1
      · exact hm.2 e he
    · exact h.2 e (List.mem_filter.1 he).1

/-- A repeated pattern without its zero bytes is in the one form. -/
theorem Memory.wf_pattern (f : Nat → Byte) (off n : Nat) :
    Memory.wf ((List.range n).filterMap fun i => if f i = 0 then none else some (off + i, f i)) ∧
    ∀ e ∈ (List.range n).filterMap (fun i => if f i = 0 then none else some (off + i, f i)), off ≤ e.1 ∧ e.1 < off + n := by
  refine ⟨Memory.wf_iff.2 ⟨?_, fun e he => ?_⟩, fun e he => ?_⟩
  · refine List.Pairwise.filterMap _ (fun a b hab x hx y hy => ?_) (List.pairwise_lt_range (n := n))
    split at hx
    · cases hx
    · split at hy
      · cases hy
      · simp only [Option.some.injEq] at hx hy
        subst hx hy
        show off + a < off + b
        omega
  · obtain ⟨i, _, hi⟩ := List.mem_filterMap.1 he
    split at hi
    · cases hi
    · rename_i hz; simp only [Option.some.injEq] at hi; subst hi; exact hz
  · obtain ⟨i, hr, hi⟩ := List.mem_filterMap.1 he
    have := List.mem_range.1 hr
    split at hi
    · cases hi
    · simp only [Option.some.injEq] at hi; subst hi; exact ⟨by simp, by show off + i < off + n; omega⟩

end Sys2Proof.Machine
end

