-- ==== Sys2Proof/Laws/State.lean ====
section
/-! SUPPORT. What each update of the state leaves and changes: one statement per update, one part per field. -/

namespace Sys2Proof.Machine

@[simp] theorem State.updLg_fields (s : State) (f : LedgerS → LedgerS) :
    (s.updLg f).pending = s.pending ∧
    (s.updLg f).variant = s.variant ∧
    (s.updLg f).counter = s.counter ∧
    (s.updLg f).regs = s.regs ∧
    (s.updLg f).hub = s.hub ∧
    (s.updLg f).lanes = s.lanes ∧
    (s.updLg f).assay = s.assay ∧
    (s.updLg f).cour = s.cour ∧
    (s.updLg f).mgr = s.mgr ∧
    (s.updLg f).ledger = f s.ledger ∧
    (s.updLg f).latch = s.latch ∧
    (s.updLg f).aoCause = s.aoCause ∧
    (s.updLg f).memctl = s.memctl ∧
    (s.updLg f).clk = s.clk ∧
    (s.updLg f).img = s.img ∧
    (s.updLg f).cyc = s.cyc ∧
    (s.updLg f).queues = s.queues ∧
    (s.updLg f).tally = s.tally ∧
    (s.updLg f).safe = s.safe ∧
    (s.updLg f).cons = s.cons ∧
    (s.updLg f).mir = s.mir ∧
    (s.updLg f).power = s.power ∧
    (s.updLg f).wire = s.wire ∧
    (s.updLg f).polls = s.polls ∧
    (s.updLg f).cans = s.cans ∧
    (s.updLg f).isl = s.isl ∧
    (s.updLg f).flash = s.flash ∧
    (s.updLg f).spd = s.spd ∧
    (s.updLg f).so = s.so ∧
    (s.updLg f).mw = s.mw ∧
    (s.updLg f).swRun = s.swRun ∧
    (s.updLg f).store = s.store ∧
    (s.updLg f).lock = s.lock ∧
    (s.updLg f).upd = s.upd ∧
    (s.updLg f).pw = s.pw ∧
    (s.updLg f).cfg = s.cfg ∧
    (s.updLg f).bridge = s.bridge ∧
    (s.updLg f).freeCtr = s.freeCtr := by
  and_intros <;> rfl

@[simp] theorem State.updA_fields (s : State) (f : AssayS → AssayS) :
    (s.updA f).pending = s.pending ∧
    (s.updA f).variant = s.variant ∧
    (s.updA f).counter = s.counter ∧
    (s.updA f).regs = s.regs ∧
    (s.updA f).hub = s.hub ∧
    (s.updA f).lanes = s.lanes ∧
    (s.updA f).assay = f s.assay ∧
    (s.updA f).cour = s.cour ∧
    (s.updA f).mgr = s.mgr ∧
    (s.updA f).ledger = s.ledger ∧
    (s.updA f).latch = s.latch ∧
    (s.updA f).aoCause = s.aoCause ∧
    (s.updA f).memctl = s.memctl ∧
    (s.updA f).clk = s.clk ∧
    (s.updA f).img = s.img ∧
    (s.updA f).cyc = s.cyc ∧
    (s.updA f).queues = s.queues ∧
    (s.updA f).tally = s.tally ∧
    (s.updA f).safe = s.safe ∧
    (s.updA f).cons = s.cons ∧
    (s.updA f).mir = s.mir ∧
    (s.updA f).power = s.power ∧
    (s.updA f).wire = s.wire ∧
    (s.updA f).polls = s.polls ∧
    (s.updA f).cans = s.cans ∧
    (s.updA f).isl = s.isl ∧
    (s.updA f).flash = s.flash ∧
    (s.updA f).spd = s.spd ∧
    (s.updA f).so = s.so ∧
    (s.updA f).mw = s.mw ∧
    (s.updA f).swRun = s.swRun ∧
    (s.updA f).store = s.store ∧
    (s.updA f).lock = s.lock ∧
    (s.updA f).upd = s.upd ∧
    (s.updA f).pw = s.pw ∧
    (s.updA f).cfg = s.cfg ∧
    (s.updA f).bridge = s.bridge ∧
    (s.updA f).freeCtr = s.freeCtr := by
  and_intros <;> rfl

@[simp] theorem State.updM_fields (s : State) (f : MgrS → MgrS) :
    (s.updM f).pending = s.pending ∧
    (s.updM f).variant = s.variant ∧
    (s.updM f).counter = s.counter ∧
    (s.updM f).regs = s.regs ∧
    (s.updM f).hub = s.hub ∧
    (s.updM f).lanes = s.lanes ∧
    (s.updM f).assay = s.assay ∧
    (s.updM f).cour = s.cour ∧
    (s.updM f).mgr = f s.mgr ∧
    (s.updM f).ledger = s.ledger ∧
    (s.updM f).latch = s.latch ∧
    (s.updM f).aoCause = s.aoCause ∧
    (s.updM f).memctl = s.memctl ∧
    (s.updM f).clk = s.clk ∧
    (s.updM f).img = s.img ∧
    (s.updM f).cyc = s.cyc ∧
    (s.updM f).queues = s.queues ∧
    (s.updM f).tally = s.tally ∧
    (s.updM f).safe = s.safe ∧
    (s.updM f).cons = s.cons ∧
    (s.updM f).mir = s.mir ∧
    (s.updM f).power = s.power ∧
    (s.updM f).wire = s.wire ∧
    (s.updM f).polls = s.polls ∧
    (s.updM f).cans = s.cans ∧
    (s.updM f).isl = s.isl ∧
    (s.updM f).flash = s.flash ∧
    (s.updM f).spd = s.spd ∧
    (s.updM f).so = s.so ∧
    (s.updM f).mw = s.mw ∧
    (s.updM f).swRun = s.swRun ∧
    (s.updM f).store = s.store ∧
    (s.updM f).lock = s.lock ∧
    (s.updM f).upd = s.upd ∧
    (s.updM f).pw = s.pw ∧
    (s.updM f).cfg = s.cfg ∧
    (s.updM f).bridge = s.bridge ∧
    (s.updM f).freeCtr = s.freeCtr := by
  and_intros <;> rfl

@[simp] theorem State.updMc_fields (s : State) (f : MemS → MemS) :
    (s.updMc f).pending = s.pending ∧
    (s.updMc f).variant = s.variant ∧
    (s.updMc f).counter = s.counter ∧
    (s.updMc f).regs = s.regs ∧
    (s.updMc f).hub = s.hub ∧
    (s.updMc f).lanes = s.lanes ∧
    (s.updMc f).assay = s.assay ∧
    (s.updMc f).cour = s.cour ∧
    (s.updMc f).mgr = s.mgr ∧
    (s.updMc f).ledger = s.ledger ∧
    (s.updMc f).latch = s.latch ∧
    (s.updMc f).aoCause = s.aoCause ∧
    (s.updMc f).memctl = f s.memctl ∧
    (s.updMc f).clk = s.clk ∧
    (s.updMc f).img = s.img ∧
    (s.updMc f).cyc = s.cyc ∧
    (s.updMc f).queues = s.queues ∧
    (s.updMc f).tally = s.tally ∧
    (s.updMc f).safe = s.safe ∧
    (s.updMc f).cons = s.cons ∧
    (s.updMc f).mir = s.mir ∧
    (s.updMc f).power = s.power ∧
    (s.updMc f).wire = s.wire ∧
    (s.updMc f).polls = s.polls ∧
    (s.updMc f).cans = s.cans ∧
    (s.updMc f).isl = s.isl ∧
    (s.updMc f).flash = s.flash ∧
    (s.updMc f).spd = s.spd ∧
    (s.updMc f).so = s.so ∧
    (s.updMc f).mw = s.mw ∧
    (s.updMc f).swRun = s.swRun ∧
    (s.updMc f).store = s.store ∧
    (s.updMc f).lock = s.lock ∧
    (s.updMc f).upd = s.upd ∧
    (s.updMc f).pw = s.pw ∧
    (s.updMc f).cfg = s.cfg ∧
    (s.updMc f).bridge = s.bridge ∧
    (s.updMc f).freeCtr = s.freeCtr := by
  and_intros <;> rfl

@[simp] theorem State.updK_fields (s : State) (f : ClockS → ClockS) :
    (s.updK f).pending = s.pending ∧
    (s.updK f).variant = s.variant ∧
    (s.updK f).counter = s.counter ∧
    (s.updK f).regs = s.regs ∧
    (s.updK f).hub = s.hub ∧
    (s.updK f).lanes = s.lanes ∧
    (s.updK f).assay = s.assay ∧
    (s.updK f).cour = s.cour ∧
    (s.updK f).mgr = s.mgr ∧
    (s.updK f).ledger = s.ledger ∧
    (s.updK f).latch = s.latch ∧
    (s.updK f).aoCause = s.aoCause ∧
    (s.updK f).memctl = s.memctl ∧
    (s.updK f).clk = f s.clk ∧
    (s.updK f).img = s.img ∧
    (s.updK f).cyc = s.cyc ∧
    (s.updK f).queues = s.queues ∧
    (s.updK f).tally = s.tally ∧
    (s.updK f).safe = s.safe ∧
    (s.updK f).cons = s.cons ∧
    (s.updK f).mir = s.mir ∧
    (s.updK f).power = s.power ∧
    (s.updK f).wire = s.wire ∧
    (s.updK f).polls = s.polls ∧
    (s.updK f).cans = s.cans ∧
    (s.updK f).isl = s.isl ∧
    (s.updK f).flash = s.flash ∧
    (s.updK f).spd = s.spd ∧
    (s.updK f).so = s.so ∧
    (s.updK f).mw = s.mw ∧
    (s.updK f).swRun = s.swRun ∧
    (s.updK f).store = s.store ∧
    (s.updK f).lock = s.lock ∧
    (s.updK f).upd = s.upd ∧
    (s.updK f).pw = s.pw ∧
    (s.updK f).cfg = s.cfg ∧
    (s.updK f).bridge = s.bridge ∧
    (s.updK f).freeCtr = s.freeCtr := by
  and_intros <;> rfl

@[simp] theorem State.updI_fields (s : State) (f : ImgS → ImgS) :
    (s.updI f).pending = s.pending ∧
    (s.updI f).variant = s.variant ∧
    (s.updI f).counter = s.counter ∧
    (s.updI f).regs = s.regs ∧
    (s.updI f).hub = s.hub ∧
    (s.updI f).lanes = s.lanes ∧
    (s.updI f).assay = s.assay ∧
    (s.updI f).cour = s.cour ∧
    (s.updI f).mgr = s.mgr ∧
    (s.updI f).ledger = s.ledger ∧
    (s.updI f).latch = s.latch ∧
    (s.updI f).aoCause = s.aoCause ∧
    (s.updI f).memctl = s.memctl ∧
    (s.updI f).clk = s.clk ∧
    (s.updI f).img = f s.img ∧
    (s.updI f).cyc = s.cyc ∧
    (s.updI f).queues = s.queues ∧
    (s.updI f).tally = s.tally ∧
    (s.updI f).safe = s.safe ∧
    (s.updI f).cons = s.cons ∧
    (s.updI f).mir = s.mir ∧
    (s.updI f).power = s.power ∧
    (s.updI f).wire = s.wire ∧
    (s.updI f).polls = s.polls ∧
    (s.updI f).cans = s.cans ∧
    (s.updI f).isl = s.isl ∧
    (s.updI f).flash = s.flash ∧
    (s.updI f).spd = s.spd ∧
    (s.updI f).so = s.so ∧
    (s.updI f).mw = s.mw ∧
    (s.updI f).swRun = s.swRun ∧
    (s.updI f).store = s.store ∧
    (s.updI f).lock = s.lock ∧
    (s.updI f).upd = s.upd ∧
    (s.updI f).pw = s.pw ∧
    (s.updI f).cfg = s.cfg ∧
    (s.updI f).bridge = s.bridge ∧
    (s.updI f).freeCtr = s.freeCtr := by
  and_intros <;> rfl

@[simp] theorem State.updCyc_fields (s : State) (f : CycS → CycS) :
    (s.updCyc f).pending = s.pending ∧
    (s.updCyc f).variant = s.variant ∧
    (s.updCyc f).counter = s.counter ∧
    (s.updCyc f).regs = s.regs ∧
    (s.updCyc f).hub = s.hub ∧
    (s.updCyc f).lanes = s.lanes ∧
    (s.updCyc f).assay = s.assay ∧
    (s.updCyc f).cour = s.cour ∧
    (s.updCyc f).mgr = s.mgr ∧
    (s.updCyc f).ledger = s.ledger ∧
    (s.updCyc f).latch = s.latch ∧
    (s.updCyc f).aoCause = s.aoCause ∧
    (s.updCyc f).memctl = s.memctl ∧
    (s.updCyc f).clk = s.clk ∧
    (s.updCyc f).img = s.img ∧
    (s.updCyc f).cyc = f s.cyc ∧
    (s.updCyc f).queues = s.queues ∧
    (s.updCyc f).tally = s.tally ∧
    (s.updCyc f).safe = s.safe ∧
    (s.updCyc f).cons = s.cons ∧
    (s.updCyc f).mir = s.mir ∧
    (s.updCyc f).power = s.power ∧
    (s.updCyc f).wire = s.wire ∧
    (s.updCyc f).polls = s.polls ∧
    (s.updCyc f).cans = s.cans ∧
    (s.updCyc f).isl = s.isl ∧
    (s.updCyc f).flash = s.flash ∧
    (s.updCyc f).spd = s.spd ∧
    (s.updCyc f).so = s.so ∧
    (s.updCyc f).mw = s.mw ∧
    (s.updCyc f).swRun = s.swRun ∧
    (s.updCyc f).store = s.store ∧
    (s.updCyc f).lock = s.lock ∧
    (s.updCyc f).upd = s.upd ∧
    (s.updCyc f).pw = s.pw ∧
    (s.updCyc f).cfg = s.cfg ∧
    (s.updCyc f).bridge = s.bridge ∧
    (s.updCyc f).freeCtr = s.freeCtr := by
  and_intros <;> rfl

@[simp] theorem State.updTl_fields (s : State) (f : TallyS → TallyS) :
    (s.updTl f).pending = s.pending ∧
    (s.updTl f).variant = s.variant ∧
    (s.updTl f).counter = s.counter ∧
    (s.updTl f).regs = s.regs ∧
    (s.updTl f).hub = s.hub ∧
    (s.updTl f).lanes = s.lanes ∧
    (s.updTl f).assay = s.assay ∧
    (s.updTl f).cour = s.cour ∧
    (s.updTl f).mgr = s.mgr ∧
    (s.updTl f).ledger = s.ledger ∧
    (s.updTl f).latch = s.latch ∧
    (s.updTl f).aoCause = s.aoCause ∧
    (s.updTl f).memctl = s.memctl ∧
    (s.updTl f).clk = s.clk ∧
    (s.updTl f).img = s.img ∧
    (s.updTl f).cyc = s.cyc ∧
    (s.updTl f).queues = s.queues ∧
    (s.updTl f).tally = f s.tally ∧
    (s.updTl f).safe = s.safe ∧
    (s.updTl f).cons = s.cons ∧
    (s.updTl f).mir = s.mir ∧
    (s.updTl f).power = s.power ∧
    (s.updTl f).wire = s.wire ∧
    (s.updTl f).polls = s.polls ∧
    (s.updTl f).cans = s.cans ∧
    (s.updTl f).isl = s.isl ∧
    (s.updTl f).flash = s.flash ∧
    (s.updTl f).spd = s.spd ∧
    (s.updTl f).so = s.so ∧
    (s.updTl f).mw = s.mw ∧
    (s.updTl f).swRun = s.swRun ∧
    (s.updTl f).store = s.store ∧
    (s.updTl f).lock = s.lock ∧
    (s.updTl f).upd = s.upd ∧
    (s.updTl f).pw = s.pw ∧
    (s.updTl f).cfg = s.cfg ∧
    (s.updTl f).bridge = s.bridge ∧
    (s.updTl f).freeCtr = s.freeCtr := by
  and_intros <;> rfl

@[simp] theorem State.updS_fields (s : State) (f : SafeS → SafeS) :
    (s.updS f).pending = s.pending ∧
    (s.updS f).variant = s.variant ∧
    (s.updS f).counter = s.counter ∧
    (s.updS f).regs = s.regs ∧
    (s.updS f).hub = s.hub ∧
    (s.updS f).lanes = s.lanes ∧
    (s.updS f).assay = s.assay ∧
    (s.updS f).cour = s.cour ∧
    (s.updS f).mgr = s.mgr ∧
    (s.updS f).ledger = s.ledger ∧
    (s.updS f).latch = s.latch ∧
    (s.updS f).aoCause = s.aoCause ∧
    (s.updS f).memctl = s.memctl ∧
    (s.updS f).clk = s.clk ∧
    (s.updS f).img = s.img ∧
    (s.updS f).cyc = s.cyc ∧
    (s.updS f).queues = s.queues ∧
    (s.updS f).tally = s.tally ∧
    (s.updS f).safe = f s.safe ∧
    (s.updS f).cons = s.cons ∧
    (s.updS f).mir = s.mir ∧
    (s.updS f).power = s.power ∧
    (s.updS f).wire = s.wire ∧
    (s.updS f).polls = s.polls ∧
    (s.updS f).cans = s.cans ∧
    (s.updS f).isl = s.isl ∧
    (s.updS f).flash = s.flash ∧
    (s.updS f).spd = s.spd ∧
    (s.updS f).so = s.so ∧
    (s.updS f).mw = s.mw ∧
    (s.updS f).swRun = s.swRun ∧
    (s.updS f).store = s.store ∧
    (s.updS f).lock = s.lock ∧
    (s.updS f).upd = s.upd ∧
    (s.updS f).pw = s.pw ∧
    (s.updS f).cfg = s.cfg ∧
    (s.updS f).bridge = s.bridge ∧
    (s.updS f).freeCtr = s.freeCtr := by
  and_intros <;> rfl

@[simp] theorem State.updN_fields (s : State) (f : ConsS → ConsS) :
    (s.updN f).pending = s.pending ∧
    (s.updN f).variant = s.variant ∧
    (s.updN f).counter = s.counter ∧
    (s.updN f).regs = s.regs ∧
    (s.updN f).hub = s.hub ∧
    (s.updN f).lanes = s.lanes ∧
    (s.updN f).assay = s.assay ∧
    (s.updN f).cour = s.cour ∧
    (s.updN f).mgr = s.mgr ∧
    (s.updN f).ledger = s.ledger ∧
    (s.updN f).latch = s.latch ∧
    (s.updN f).aoCause = s.aoCause ∧
    (s.updN f).memctl = s.memctl ∧
    (s.updN f).clk = s.clk ∧
    (s.updN f).img = s.img ∧
    (s.updN f).cyc = s.cyc ∧
    (s.updN f).queues = s.queues ∧
    (s.updN f).tally = s.tally ∧
    (s.updN f).safe = s.safe ∧
    (s.updN f).cons = f s.cons ∧
    (s.updN f).mir = s.mir ∧
    (s.updN f).power = s.power ∧
    (s.updN f).wire = s.wire ∧
    (s.updN f).polls = s.polls ∧
    (s.updN f).cans = s.cans ∧
    (s.updN f).isl = s.isl ∧
    (s.updN f).flash = s.flash ∧
    (s.updN f).spd = s.spd ∧
    (s.updN f).so = s.so ∧
    (s.updN f).mw = s.mw ∧
    (s.updN f).swRun = s.swRun ∧
    (s.updN f).store = s.store ∧
    (s.updN f).lock = s.lock ∧
    (s.updN f).upd = s.upd ∧
    (s.updN f).pw = s.pw ∧
    (s.updN f).cfg = s.cfg ∧
    (s.updN f).bridge = s.bridge ∧
    (s.updN f).freeCtr = s.freeCtr := by
  and_intros <;> rfl

@[simp] theorem State.updMir_fields (s : State) (f : MirS → MirS) :
    (s.updMir f).pending = s.pending ∧
    (s.updMir f).variant = s.variant ∧
    (s.updMir f).counter = s.counter ∧
    (s.updMir f).regs = s.regs ∧
    (s.updMir f).hub = s.hub ∧
    (s.updMir f).lanes = s.lanes ∧
    (s.updMir f).assay = s.assay ∧
    (s.updMir f).cour = s.cour ∧
    (s.updMir f).mgr = s.mgr ∧
    (s.updMir f).ledger = s.ledger ∧
    (s.updMir f).latch = s.latch ∧
    (s.updMir f).aoCause = s.aoCause ∧
    (s.updMir f).memctl = s.memctl ∧
    (s.updMir f).clk = s.clk ∧
    (s.updMir f).img = s.img ∧
    (s.updMir f).cyc = s.cyc ∧
    (s.updMir f).queues = s.queues ∧
    (s.updMir f).tally = s.tally ∧
    (s.updMir f).safe = s.safe ∧
    (s.updMir f).cons = s.cons ∧
    (s.updMir f).mir = f s.mir ∧
    (s.updMir f).power = s.power ∧
    (s.updMir f).wire = s.wire ∧
    (s.updMir f).polls = s.polls ∧
    (s.updMir f).cans = s.cans ∧
    (s.updMir f).isl = s.isl ∧
    (s.updMir f).flash = s.flash ∧
    (s.updMir f).spd = s.spd ∧
    (s.updMir f).so = s.so ∧
    (s.updMir f).mw = s.mw ∧
    (s.updMir f).swRun = s.swRun ∧
    (s.updMir f).store = s.store ∧
    (s.updMir f).lock = s.lock ∧
    (s.updMir f).upd = s.upd ∧
    (s.updMir f).pw = s.pw ∧
    (s.updMir f).cfg = s.cfg ∧
    (s.updMir f).bridge = s.bridge ∧
    (s.updMir f).freeCtr = s.freeCtr := by
  and_intros <;> rfl

@[simp] theorem State.updSo_fields (s : State) (f : SoS → SoS) :
    (s.updSo f).pending = s.pending ∧
    (s.updSo f).variant = s.variant ∧
    (s.updSo f).counter = s.counter ∧
    (s.updSo f).regs = s.regs ∧
    (s.updSo f).hub = s.hub ∧
    (s.updSo f).lanes = s.lanes ∧
    (s.updSo f).assay = s.assay ∧
    (s.updSo f).cour = s.cour ∧
    (s.updSo f).mgr = s.mgr ∧
    (s.updSo f).ledger = s.ledger ∧
    (s.updSo f).latch = s.latch ∧
    (s.updSo f).aoCause = s.aoCause ∧
    (s.updSo f).memctl = s.memctl ∧
    (s.updSo f).clk = s.clk ∧
    (s.updSo f).img = s.img ∧
    (s.updSo f).cyc = s.cyc ∧
    (s.updSo f).queues = s.queues ∧
    (s.updSo f).tally = s.tally ∧
    (s.updSo f).safe = s.safe ∧
    (s.updSo f).cons = s.cons ∧
    (s.updSo f).mir = s.mir ∧
    (s.updSo f).power = s.power ∧
    (s.updSo f).wire = s.wire ∧
    (s.updSo f).polls = s.polls ∧
    (s.updSo f).cans = s.cans ∧
    (s.updSo f).isl = s.isl ∧
    (s.updSo f).flash = s.flash ∧
    (s.updSo f).spd = s.spd ∧
    (s.updSo f).so = f s.so ∧
    (s.updSo f).mw = s.mw ∧
    (s.updSo f).swRun = s.swRun ∧
    (s.updSo f).store = s.store ∧
    (s.updSo f).lock = s.lock ∧
    (s.updSo f).upd = s.upd ∧
    (s.updSo f).pw = s.pw ∧
    (s.updSo f).cfg = s.cfg ∧
    (s.updSo f).bridge = s.bridge ∧
    (s.updSo f).freeCtr = s.freeCtr := by
  and_intros <;> rfl

@[simp] theorem State.updMw_fields (s : State) (f : MwS → MwS) :
    (s.updMw f).pending = s.pending ∧
    (s.updMw f).variant = s.variant ∧
    (s.updMw f).counter = s.counter ∧
    (s.updMw f).regs = s.regs ∧
    (s.updMw f).hub = s.hub ∧
    (s.updMw f).lanes = s.lanes ∧
    (s.updMw f).assay = s.assay ∧
    (s.updMw f).cour = s.cour ∧
    (s.updMw f).mgr = s.mgr ∧
    (s.updMw f).ledger = s.ledger ∧
    (s.updMw f).latch = s.latch ∧
    (s.updMw f).aoCause = s.aoCause ∧
    (s.updMw f).memctl = s.memctl ∧
    (s.updMw f).clk = s.clk ∧
    (s.updMw f).img = s.img ∧
    (s.updMw f).cyc = s.cyc ∧
    (s.updMw f).queues = s.queues ∧
    (s.updMw f).tally = s.tally ∧
    (s.updMw f).safe = s.safe ∧
    (s.updMw f).cons = s.cons ∧
    (s.updMw f).mir = s.mir ∧
    (s.updMw f).power = s.power ∧
    (s.updMw f).wire = s.wire ∧
    (s.updMw f).polls = s.polls ∧
    (s.updMw f).cans = s.cans ∧
    (s.updMw f).isl = s.isl ∧
    (s.updMw f).flash = s.flash ∧
    (s.updMw f).spd = s.spd ∧
    (s.updMw f).so = s.so ∧
    (s.updMw f).mw = f s.mw ∧
    (s.updMw f).swRun = s.swRun ∧
    (s.updMw f).store = s.store ∧
    (s.updMw f).lock = s.lock ∧
    (s.updMw f).upd = s.upd ∧
    (s.updMw f).pw = s.pw ∧
    (s.updMw f).cfg = s.cfg ∧
    (s.updMw f).bridge = s.bridge ∧
    (s.updMw f).freeCtr = s.freeCtr := by
  and_intros <;> rfl

@[simp] theorem State.updSt_fields (s : State) (f : StoreS → StoreS) :
    (s.updSt f).pending = s.pending ∧
    (s.updSt f).variant = s.variant ∧
    (s.updSt f).counter = s.counter ∧
    (s.updSt f).regs = s.regs ∧
    (s.updSt f).hub = s.hub ∧
    (s.updSt f).lanes = s.lanes ∧
    (s.updSt f).assay = s.assay ∧
    (s.updSt f).cour = s.cour ∧
    (s.updSt f).mgr = s.mgr ∧
    (s.updSt f).ledger = s.ledger ∧
    (s.updSt f).latch = s.latch ∧
    (s.updSt f).aoCause = s.aoCause ∧
    (s.updSt f).memctl = s.memctl ∧
    (s.updSt f).clk = s.clk ∧
    (s.updSt f).img = s.img ∧
    (s.updSt f).cyc = s.cyc ∧
    (s.updSt f).queues = s.queues ∧
    (s.updSt f).tally = s.tally ∧
    (s.updSt f).safe = s.safe ∧
    (s.updSt f).cons = s.cons ∧
    (s.updSt f).mir = s.mir ∧
    (s.updSt f).power = s.power ∧
    (s.updSt f).wire = s.wire ∧
    (s.updSt f).polls = s.polls ∧
    (s.updSt f).cans = s.cans ∧
    (s.updSt f).isl = s.isl ∧
    (s.updSt f).flash = s.flash ∧
    (s.updSt f).spd = s.spd ∧
    (s.updSt f).so = s.so ∧
    (s.updSt f).mw = s.mw ∧
    (s.updSt f).swRun = s.swRun ∧
    (s.updSt f).store = f s.store ∧
    (s.updSt f).lock = s.lock ∧
    (s.updSt f).upd = s.upd ∧
    (s.updSt f).pw = s.pw ∧
    (s.updSt f).cfg = s.cfg ∧
    (s.updSt f).bridge = s.bridge ∧
    (s.updSt f).freeCtr = s.freeCtr := by
  and_intros <;> rfl

@[simp] theorem State.updLk_fields (s : State) (f : LockS → LockS) :
    (s.updLk f).pending = s.pending ∧
    (s.updLk f).variant = s.variant ∧
    (s.updLk f).counter = s.counter ∧
    (s.updLk f).regs = s.regs ∧
    (s.updLk f).hub = s.hub ∧
    (s.updLk f).lanes = s.lanes ∧
    (s.updLk f).assay = s.assay ∧
    (s.updLk f).cour = s.cour ∧
    (s.updLk f).mgr = s.mgr ∧
    (s.updLk f).ledger = s.ledger ∧
    (s.updLk f).latch = s.latch ∧
    (s.updLk f).aoCause = s.aoCause ∧
    (s.updLk f).memctl = s.memctl ∧
    (s.updLk f).clk = s.clk ∧
    (s.updLk f).img = s.img ∧
    (s.updLk f).cyc = s.cyc ∧
    (s.updLk f).queues = s.queues ∧
    (s.updLk f).tally = s.tally ∧
    (s.updLk f).safe = s.safe ∧
    (s.updLk f).cons = s.cons ∧
    (s.updLk f).mir = s.mir ∧
    (s.updLk f).power = s.power ∧
    (s.updLk f).wire = s.wire ∧
    (s.updLk f).polls = s.polls ∧
    (s.updLk f).cans = s.cans ∧
    (s.updLk f).isl = s.isl ∧
    (s.updLk f).flash = s.flash ∧
    (s.updLk f).spd = s.spd ∧
    (s.updLk f).so = s.so ∧
    (s.updLk f).mw = s.mw ∧
    (s.updLk f).swRun = s.swRun ∧
    (s.updLk f).store = s.store ∧
    (s.updLk f).lock = f s.lock ∧
    (s.updLk f).upd = s.upd ∧
    (s.updLk f).pw = s.pw ∧
    (s.updLk f).cfg = s.cfg ∧
    (s.updLk f).bridge = s.bridge ∧
    (s.updLk f).freeCtr = s.freeCtr := by
  and_intros <;> rfl

@[simp] theorem State.updU_fields (s : State) (f : UpdS → UpdS) :
    (s.updU f).pending = s.pending ∧
    (s.updU f).variant = s.variant ∧
    (s.updU f).counter = s.counter ∧
    (s.updU f).regs = s.regs ∧
    (s.updU f).hub = s.hub ∧
    (s.updU f).lanes = s.lanes ∧
    (s.updU f).assay = s.assay ∧
    (s.updU f).cour = s.cour ∧
    (s.updU f).mgr = s.mgr ∧
    (s.updU f).ledger = s.ledger ∧
    (s.updU f).latch = s.latch ∧
    (s.updU f).aoCause = s.aoCause ∧
    (s.updU f).memctl = s.memctl ∧
    (s.updU f).clk = s.clk ∧
    (s.updU f).img = s.img ∧
    (s.updU f).cyc = s.cyc ∧
    (s.updU f).queues = s.queues ∧
    (s.updU f).tally = s.tally ∧
    (s.updU f).safe = s.safe ∧
    (s.updU f).cons = s.cons ∧
    (s.updU f).mir = s.mir ∧
    (s.updU f).power = s.power ∧
    (s.updU f).wire = s.wire ∧
    (s.updU f).polls = s.polls ∧
    (s.updU f).cans = s.cans ∧
    (s.updU f).isl = s.isl ∧
    (s.updU f).flash = s.flash ∧
    (s.updU f).spd = s.spd ∧
    (s.updU f).so = s.so ∧
    (s.updU f).mw = s.mw ∧
    (s.updU f).swRun = s.swRun ∧
    (s.updU f).store = s.store ∧
    (s.updU f).lock = s.lock ∧
    (s.updU f).upd = f s.upd ∧
    (s.updU f).pw = s.pw ∧
    (s.updU f).cfg = s.cfg ∧
    (s.updU f).bridge = s.bridge ∧
    (s.updU f).freeCtr = s.freeCtr := by
  and_intros <;> rfl

@[simp] theorem State.updPw_fields (s : State) (f : PwrS → PwrS) :
    (s.updPw f).pending = s.pending ∧
    (s.updPw f).variant = s.variant ∧
    (s.updPw f).counter = s.counter ∧
    (s.updPw f).regs = s.regs ∧
    (s.updPw f).hub = s.hub ∧
    (s.updPw f).lanes = s.lanes ∧
    (s.updPw f).assay = s.assay ∧
    (s.updPw f).cour = s.cour ∧
    (s.updPw f).mgr = s.mgr ∧
    (s.updPw f).ledger = s.ledger ∧
    (s.updPw f).latch = s.latch ∧
    (s.updPw f).aoCause = s.aoCause ∧
    (s.updPw f).memctl = s.memctl ∧
    (s.updPw f).clk = s.clk ∧
    (s.updPw f).img = s.img ∧
    (s.updPw f).cyc = s.cyc ∧
    (s.updPw f).queues = s.queues ∧
    (s.updPw f).tally = s.tally ∧
    (s.updPw f).safe = s.safe ∧
    (s.updPw f).cons = s.cons ∧
    (s.updPw f).mir = s.mir ∧
    (s.updPw f).power = s.power ∧
    (s.updPw f).wire = s.wire ∧
    (s.updPw f).polls = s.polls ∧
    (s.updPw f).cans = s.cans ∧
    (s.updPw f).isl = s.isl ∧
    (s.updPw f).flash = s.flash ∧
    (s.updPw f).spd = s.spd ∧
    (s.updPw f).so = s.so ∧
    (s.updPw f).mw = s.mw ∧
    (s.updPw f).swRun = s.swRun ∧
    (s.updPw f).store = s.store ∧
    (s.updPw f).lock = s.lock ∧
    (s.updPw f).upd = s.upd ∧
    (s.updPw f).pw = f s.pw ∧
    (s.updPw f).cfg = s.cfg ∧
    (s.updPw f).bridge = s.bridge ∧
    (s.updPw f).freeCtr = s.freeCtr := by
  and_intros <;> rfl

@[simp] theorem State.updBr_fields (s : State) (f : BridgeS → BridgeS) :
    (s.updBr f).pending = s.pending ∧
    (s.updBr f).variant = s.variant ∧
    (s.updBr f).counter = s.counter ∧
    (s.updBr f).regs = s.regs ∧
    (s.updBr f).hub = s.hub ∧
    (s.updBr f).lanes = s.lanes ∧
    (s.updBr f).assay = s.assay ∧
    (s.updBr f).cour = s.cour ∧
    (s.updBr f).mgr = s.mgr ∧
    (s.updBr f).ledger = s.ledger ∧
    (s.updBr f).latch = s.latch ∧
    (s.updBr f).aoCause = s.aoCause ∧
    (s.updBr f).memctl = s.memctl ∧
    (s.updBr f).clk = s.clk ∧
    (s.updBr f).img = s.img ∧
    (s.updBr f).cyc = s.cyc ∧
    (s.updBr f).queues = s.queues ∧
    (s.updBr f).tally = s.tally ∧
    (s.updBr f).safe = s.safe ∧
    (s.updBr f).cons = s.cons ∧
    (s.updBr f).mir = s.mir ∧
    (s.updBr f).power = s.power ∧
    (s.updBr f).wire = s.wire ∧
    (s.updBr f).polls = s.polls ∧
    (s.updBr f).cans = s.cans ∧
    (s.updBr f).isl = s.isl ∧
    (s.updBr f).flash = s.flash ∧
    (s.updBr f).spd = s.spd ∧
    (s.updBr f).so = s.so ∧
    (s.updBr f).mw = s.mw ∧
    (s.updBr f).swRun = s.swRun ∧
    (s.updBr f).store = s.store ∧
    (s.updBr f).lock = s.lock ∧
    (s.updBr f).upd = s.upd ∧
    (s.updBr f).pw = s.pw ∧
    (s.updBr f).cfg = s.cfg ∧
    (s.updBr f).bridge = f s.bridge ∧
    (s.updBr f).freeCtr = s.freeCtr := by
  and_intros <;> rfl

@[simp] theorem State.setPower_fields (s : State) (p : PowerSt) :
    (s.setPower p).pending = s.pending ∧
    (s.setPower p).variant = s.variant ∧
    (s.setPower p).counter = s.counter ∧
    (s.setPower p).regs = s.regs ∧
    (s.setPower p).hub = s.hub ∧
    (s.setPower p).lanes = s.lanes ∧
    (s.setPower p).assay = s.assay ∧
    (s.setPower p).cour = s.cour ∧
    (s.setPower p).mgr = s.mgr ∧
    (s.setPower p).ledger = s.ledger ∧
    (s.setPower p).latch = s.latch ∧
    (s.setPower p).aoCause = s.aoCause ∧
    (s.setPower p).memctl = s.memctl ∧
    (s.setPower p).clk = s.clk ∧
    (s.setPower p).img = s.img ∧
    (s.setPower p).cyc = s.cyc ∧
    (s.setPower p).queues = s.queues ∧
    (s.setPower p).tally = s.tally ∧
    (s.setPower p).safe = s.safe ∧
    (s.setPower p).cons = s.cons ∧
    (s.setPower p).mir = s.mir ∧
    (s.setPower p).power = p ∧
    (s.setPower p).wire = s.wire ∧
    (s.setPower p).polls = s.polls ∧
    (s.setPower p).cans = s.cans ∧
    (s.setPower p).isl = s.isl ∧
    (s.setPower p).flash = s.flash ∧
    (s.setPower p).spd = s.spd ∧
    (s.setPower p).so = s.so ∧
    (s.setPower p).mw = s.mw ∧
    (s.setPower p).swRun = s.swRun ∧
    (s.setPower p).store = s.store ∧
    (s.setPower p).lock = s.lock ∧
    (s.setPower p).upd = s.upd ∧
    (s.setPower p).pw = s.pw ∧
    (s.setPower p).cfg = s.cfg ∧
    (s.setPower p).bridge = s.bridge ∧
    (s.setPower p).freeCtr = s.freeCtr := by
  and_intros <;> rfl

@[simp] theorem State.setCour_fields (s : State) (c : Quad CourS) :
    (s.setCour c).pending = s.pending ∧
    (s.setCour c).variant = s.variant ∧
    (s.setCour c).counter = s.counter ∧
    (s.setCour c).regs = s.regs ∧
    (s.setCour c).hub = s.hub ∧
    (s.setCour c).lanes = s.lanes ∧
    (s.setCour c).assay = s.assay ∧
    (s.setCour c).cour = c ∧
    (s.setCour c).mgr = s.mgr ∧
    (s.setCour c).ledger = s.ledger ∧
    (s.setCour c).latch = s.latch ∧
    (s.setCour c).aoCause = s.aoCause ∧
    (s.setCour c).memctl = s.memctl ∧
    (s.setCour c).clk = s.clk ∧
    (s.setCour c).img = s.img ∧
    (s.setCour c).cyc = s.cyc ∧
    (s.setCour c).queues = s.queues ∧
    (s.setCour c).tally = s.tally ∧
    (s.setCour c).safe = s.safe ∧
    (s.setCour c).cons = s.cons ∧
    (s.setCour c).mir = s.mir ∧
    (s.setCour c).power = s.power ∧
    (s.setCour c).wire = s.wire ∧
    (s.setCour c).polls = s.polls ∧
    (s.setCour c).cans = s.cans ∧
    (s.setCour c).isl = s.isl ∧
    (s.setCour c).flash = s.flash ∧
    (s.setCour c).spd = s.spd ∧
    (s.setCour c).so = s.so ∧
    (s.setCour c).mw = s.mw ∧
    (s.setCour c).swRun = s.swRun ∧
    (s.setCour c).store = s.store ∧
    (s.setCour c).lock = s.lock ∧
    (s.setCour c).upd = s.upd ∧
    (s.setCour c).pw = s.pw ∧
    (s.setCour c).cfg = s.cfg ∧
    (s.setCour c).bridge = s.bridge ∧
    (s.setCour c).freeCtr = s.freeCtr := by
  and_intros <;> rfl

@[simp] theorem State.setCfg_fields (s : State) (c : Option SignedCfg) :
    (s.setCfg c).pending = s.pending ∧
    (s.setCfg c).variant = s.variant ∧
    (s.setCfg c).counter = s.counter ∧
    (s.setCfg c).regs = s.regs ∧
    (s.setCfg c).hub = s.hub ∧
    (s.setCfg c).lanes = s.lanes ∧
    (s.setCfg c).assay = s.assay ∧
    (s.setCfg c).cour = s.cour ∧
    (s.setCfg c).mgr = s.mgr ∧
    (s.setCfg c).ledger = s.ledger ∧
    (s.setCfg c).latch = s.latch ∧
    (s.setCfg c).aoCause = s.aoCause ∧
    (s.setCfg c).memctl = s.memctl ∧
    (s.setCfg c).clk = s.clk ∧
    (s.setCfg c).img = s.img ∧
    (s.setCfg c).cyc = s.cyc ∧
    (s.setCfg c).queues = s.queues ∧
    (s.setCfg c).tally = s.tally ∧
    (s.setCfg c).safe = s.safe ∧
    (s.setCfg c).cons = s.cons ∧
    (s.setCfg c).mir = s.mir ∧
    (s.setCfg c).power = s.power ∧
    (s.setCfg c).wire = s.wire ∧
    (s.setCfg c).polls = s.polls ∧
    (s.setCfg c).cans = s.cans ∧
    (s.setCfg c).isl = s.isl ∧
    (s.setCfg c).flash = s.flash ∧
    (s.setCfg c).spd = s.spd ∧
    (s.setCfg c).so = s.so ∧
    (s.setCfg c).mw = s.mw ∧
    (s.setCfg c).swRun = s.swRun ∧
    (s.setCfg c).store = s.store ∧
    (s.setCfg c).lock = s.lock ∧
    (s.setCfg c).upd = s.upd ∧
    (s.setCfg c).pw = s.pw ∧
    (s.setCfg c).cfg = c ∧
    (s.setCfg c).bridge = s.bridge ∧
    (s.setCfg c).freeCtr = s.freeCtr := by
  and_intros <;> rfl

@[simp] theorem State.setPolls_fields (s : State) (m : SMap PollS) :
    (s.setPolls m).pending = s.pending ∧
    (s.setPolls m).variant = s.variant ∧
    (s.setPolls m).counter = s.counter ∧
    (s.setPolls m).regs = s.regs ∧
    (s.setPolls m).hub = s.hub ∧
    (s.setPolls m).lanes = s.lanes ∧
    (s.setPolls m).assay = s.assay ∧
    (s.setPolls m).cour = s.cour ∧
    (s.setPolls m).mgr = s.mgr ∧
    (s.setPolls m).ledger = s.ledger ∧
    (s.setPolls m).latch = s.latch ∧
    (s.setPolls m).aoCause = s.aoCause ∧
    (s.setPolls m).memctl = s.memctl ∧
    (s.setPolls m).clk = s.clk ∧
    (s.setPolls m).img = s.img ∧
    (s.setPolls m).cyc = s.cyc ∧
    (s.setPolls m).queues = s.queues ∧
    (s.setPolls m).tally = s.tally ∧
    (s.setPolls m).safe = s.safe ∧
    (s.setPolls m).cons = s.cons ∧
    (s.setPolls m).mir = s.mir ∧
    (s.setPolls m).power = s.power ∧
    (s.setPolls m).wire = s.wire ∧
    (s.setPolls m).polls = m ∧
    (s.setPolls m).cans = s.cans ∧
    (s.setPolls m).isl = s.isl ∧
    (s.setPolls m).flash = s.flash ∧
    (s.setPolls m).spd = s.spd ∧
    (s.setPolls m).so = s.so ∧
    (s.setPolls m).mw = s.mw ∧
    (s.setPolls m).swRun = s.swRun ∧
    (s.setPolls m).store = s.store ∧
    (s.setPolls m).lock = s.lock ∧
    (s.setPolls m).upd = s.upd ∧
    (s.setPolls m).pw = s.pw ∧
    (s.setPolls m).cfg = s.cfg ∧
    (s.setPolls m).bridge = s.bridge ∧
    (s.setPolls m).freeCtr = s.freeCtr := by
  and_intros <;> rfl

@[simp] theorem State.setCans_fields (s : State) (m : SMap CanS) :
    (s.setCans m).pending = s.pending ∧
    (s.setCans m).variant = s.variant ∧
    (s.setCans m).counter = s.counter ∧
    (s.setCans m).regs = s.regs ∧
    (s.setCans m).hub = s.hub ∧
    (s.setCans m).lanes = s.lanes ∧
    (s.setCans m).assay = s.assay ∧
    (s.setCans m).cour = s.cour ∧
    (s.setCans m).mgr = s.mgr ∧
    (s.setCans m).ledger = s.ledger ∧
    (s.setCans m).latch = s.latch ∧
    (s.setCans m).aoCause = s.aoCause ∧
    (s.setCans m).memctl = s.memctl ∧
    (s.setCans m).clk = s.clk ∧
    (s.setCans m).img = s.img ∧
    (s.setCans m).cyc = s.cyc ∧
    (s.setCans m).queues = s.queues ∧
    (s.setCans m).tally = s.tally ∧
    (s.setCans m).safe = s.safe ∧
    (s.setCans m).cons = s.cons ∧
    (s.setCans m).mir = s.mir ∧
    (s.setCans m).power = s.power ∧
    (s.setCans m).wire = s.wire ∧
    (s.setCans m).polls = s.polls ∧
    (s.setCans m).cans = m ∧
    (s.setCans m).isl = s.isl ∧
    (s.setCans m).flash = s.flash ∧
    (s.setCans m).spd = s.spd ∧
    (s.setCans m).so = s.so ∧
    (s.setCans m).mw = s.mw ∧
    (s.setCans m).swRun = s.swRun ∧
    (s.setCans m).store = s.store ∧
    (s.setCans m).lock = s.lock ∧
    (s.setCans m).upd = s.upd ∧
    (s.setCans m).pw = s.pw ∧
    (s.setCans m).cfg = s.cfg ∧
    (s.setCans m).bridge = s.bridge ∧
    (s.setCans m).freeCtr = s.freeCtr := by
  and_intros <;> rfl

@[simp] theorem State.setIsl_fields (s : State) (m : SMap IslS) :
    (s.setIsl m).pending = s.pending ∧
    (s.setIsl m).variant = s.variant ∧
    (s.setIsl m).counter = s.counter ∧
    (s.setIsl m).regs = s.regs ∧
    (s.setIsl m).hub = s.hub ∧
    (s.setIsl m).lanes = s.lanes ∧
    (s.setIsl m).assay = s.assay ∧
    (s.setIsl m).cour = s.cour ∧
    (s.setIsl m).mgr = s.mgr ∧
    (s.setIsl m).ledger = s.ledger ∧
    (s.setIsl m).latch = s.latch ∧
    (s.setIsl m).aoCause = s.aoCause ∧
    (s.setIsl m).memctl = s.memctl ∧
    (s.setIsl m).clk = s.clk ∧
    (s.setIsl m).img = s.img ∧
    (s.setIsl m).cyc = s.cyc ∧
    (s.setIsl m).queues = s.queues ∧
    (s.setIsl m).tally = s.tally ∧
    (s.setIsl m).safe = s.safe ∧
    (s.setIsl m).cons = s.cons ∧
    (s.setIsl m).mir = s.mir ∧
    (s.setIsl m).power = s.power ∧
    (s.setIsl m).wire = s.wire ∧
    (s.setIsl m).polls = s.polls ∧
    (s.setIsl m).cans = s.cans ∧
    (s.setIsl m).isl = m ∧
    (s.setIsl m).flash = s.flash ∧
    (s.setIsl m).spd = s.spd ∧
    (s.setIsl m).so = s.so ∧
    (s.setIsl m).mw = s.mw ∧
    (s.setIsl m).swRun = s.swRun ∧
    (s.setIsl m).store = s.store ∧
    (s.setIsl m).lock = s.lock ∧
    (s.setIsl m).upd = s.upd ∧
    (s.setIsl m).pw = s.pw ∧
    (s.setIsl m).cfg = s.cfg ∧
    (s.setIsl m).bridge = s.bridge ∧
    (s.setIsl m).freeCtr = s.freeCtr := by
  and_intros <;> rfl

@[simp] theorem State.setSpd_fields (s : State) (m : SMap SpdChan) :
    (s.setSpd m).pending = s.pending ∧
    (s.setSpd m).variant = s.variant ∧
    (s.setSpd m).counter = s.counter ∧
    (s.setSpd m).regs = s.regs ∧
    (s.setSpd m).hub = s.hub ∧
    (s.setSpd m).lanes = s.lanes ∧
    (s.setSpd m).assay = s.assay ∧
    (s.setSpd m).cour = s.cour ∧
    (s.setSpd m).mgr = s.mgr ∧
    (s.setSpd m).ledger = s.ledger ∧
    (s.setSpd m).latch = s.latch ∧
    (s.setSpd m).aoCause = s.aoCause ∧
    (s.setSpd m).memctl = s.memctl ∧
    (s.setSpd m).clk = s.clk ∧
    (s.setSpd m).img = s.img ∧
    (s.setSpd m).cyc = s.cyc ∧
    (s.setSpd m).queues = s.queues ∧
    (s.setSpd m).tally = s.tally ∧
    (s.setSpd m).safe = s.safe ∧
    (s.setSpd m).cons = s.cons ∧
    (s.setSpd m).mir = s.mir ∧
    (s.setSpd m).power = s.power ∧
    (s.setSpd m).wire = s.wire ∧
    (s.setSpd m).polls = s.polls ∧
    (s.setSpd m).cans = s.cans ∧
    (s.setSpd m).isl = s.isl ∧
    (s.setSpd m).flash = s.flash ∧
    (s.setSpd m).spd = m ∧
    (s.setSpd m).so = s.so ∧
    (s.setSpd m).mw = s.mw ∧
    (s.setSpd m).swRun = s.swRun ∧
    (s.setSpd m).store = s.store ∧
    (s.setSpd m).lock = s.lock ∧
    (s.setSpd m).upd = s.upd ∧
    (s.setSpd m).pw = s.pw ∧
    (s.setSpd m).cfg = s.cfg ∧
    (s.setSpd m).bridge = s.bridge ∧
    (s.setSpd m).freeCtr = s.freeCtr := by
  and_intros <;> rfl

@[simp] theorem State.setSwRun_fields (s : State) (m : SMap Nat) :
    (s.setSwRun m).pending = s.pending ∧
    (s.setSwRun m).variant = s.variant ∧
    (s.setSwRun m).counter = s.counter ∧
    (s.setSwRun m).regs = s.regs ∧
    (s.setSwRun m).hub = s.hub ∧
    (s.setSwRun m).lanes = s.lanes ∧
    (s.setSwRun m).assay = s.assay ∧
    (s.setSwRun m).cour = s.cour ∧
    (s.setSwRun m).mgr = s.mgr ∧
    (s.setSwRun m).ledger = s.ledger ∧
    (s.setSwRun m).latch = s.latch ∧
    (s.setSwRun m).aoCause = s.aoCause ∧
    (s.setSwRun m).memctl = s.memctl ∧
    (s.setSwRun m).clk = s.clk ∧
    (s.setSwRun m).img = s.img ∧
    (s.setSwRun m).cyc = s.cyc ∧
    (s.setSwRun m).queues = s.queues ∧
    (s.setSwRun m).tally = s.tally ∧
    (s.setSwRun m).safe = s.safe ∧
    (s.setSwRun m).cons = s.cons ∧
    (s.setSwRun m).mir = s.mir ∧
    (s.setSwRun m).power = s.power ∧
    (s.setSwRun m).wire = s.wire ∧
    (s.setSwRun m).polls = s.polls ∧
    (s.setSwRun m).cans = s.cans ∧
    (s.setSwRun m).isl = s.isl ∧
    (s.setSwRun m).flash = s.flash ∧
    (s.setSwRun m).spd = s.spd ∧
    (s.setSwRun m).so = s.so ∧
    (s.setSwRun m).mw = s.mw ∧
    (s.setSwRun m).swRun = m ∧
    (s.setSwRun m).store = s.store ∧
    (s.setSwRun m).lock = s.lock ∧
    (s.setSwRun m).upd = s.upd ∧
    (s.setSwRun m).pw = s.pw ∧
    (s.setSwRun m).cfg = s.cfg ∧
    (s.setSwRun m).bridge = s.bridge ∧
    (s.setSwRun m).freeCtr = s.freeCtr := by
  and_intros <;> rfl

@[simp] theorem State.setCounter_fields (s : State) (n : Nat) :
    (s.setCounter n).pending = s.pending ∧
    (s.setCounter n).variant = s.variant ∧
    (s.setCounter n).counter = n ∧
    (s.setCounter n).regs = s.regs ∧
    (s.setCounter n).hub = s.hub ∧
    (s.setCounter n).lanes = s.lanes ∧
    (s.setCounter n).assay = s.assay ∧
    (s.setCounter n).cour = s.cour ∧
    (s.setCounter n).mgr = s.mgr ∧
    (s.setCounter n).ledger = s.ledger ∧
    (s.setCounter n).latch = s.latch ∧
    (s.setCounter n).aoCause = s.aoCause ∧
    (s.setCounter n).memctl = s.memctl ∧
    (s.setCounter n).clk = s.clk ∧
    (s.setCounter n).img = s.img ∧
    (s.setCounter n).cyc = s.cyc ∧
    (s.setCounter n).queues = s.queues ∧
    (s.setCounter n).tally = s.tally ∧
    (s.setCounter n).safe = s.safe ∧
    (s.setCounter n).cons = s.cons ∧
    (s.setCounter n).mir = s.mir ∧
    (s.setCounter n).power = s.power ∧
    (s.setCounter n).wire = s.wire ∧
    (s.setCounter n).polls = s.polls ∧
    (s.setCounter n).cans = s.cans ∧
    (s.setCounter n).isl = s.isl ∧
    (s.setCounter n).flash = s.flash ∧
    (s.setCounter n).spd = s.spd ∧
    (s.setCounter n).so = s.so ∧
    (s.setCounter n).mw = s.mw ∧
    (s.setCounter n).swRun = s.swRun ∧
    (s.setCounter n).store = s.store ∧
    (s.setCounter n).lock = s.lock ∧
    (s.setCounter n).upd = s.upd ∧
    (s.setCounter n).pw = s.pw ∧
    (s.setCounter n).cfg = s.cfg ∧
    (s.setCounter n).bridge = s.bridge ∧
    (s.setCounter n).freeCtr = s.freeCtr := by
  and_intros <;> rfl

@[simp] theorem State.withPending_fields (s : State) (l : List Instr) :
    (s.withPending l).pending = l ∧
    (s.withPending l).variant = s.variant ∧
    (s.withPending l).counter = s.counter ∧
    (s.withPending l).regs = s.regs ∧
    (s.withPending l).hub = s.hub ∧
    (s.withPending l).lanes = s.lanes ∧
    (s.withPending l).assay = s.assay ∧
    (s.withPending l).cour = s.cour ∧
    (s.withPending l).mgr = s.mgr ∧
    (s.withPending l).ledger = s.ledger ∧
    (s.withPending l).latch = s.latch ∧
    (s.withPending l).aoCause = s.aoCause ∧
    (s.withPending l).memctl = s.memctl ∧
    (s.withPending l).clk = s.clk ∧
    (s.withPending l).img = s.img ∧
    (s.withPending l).cyc = s.cyc ∧
    (s.withPending l).queues = s.queues ∧
    (s.withPending l).tally = s.tally ∧
    (s.withPending l).safe = s.safe ∧
    (s.withPending l).cons = s.cons ∧
    (s.withPending l).mir = s.mir ∧
    (s.withPending l).power = s.power ∧
    (s.withPending l).wire = s.wire ∧
    (s.withPending l).polls = s.polls ∧
    (s.withPending l).cans = s.cans ∧
    (s.withPending l).isl = s.isl ∧
    (s.withPending l).flash = s.flash ∧
    (s.withPending l).spd = s.spd ∧
    (s.withPending l).so = s.so ∧
    (s.withPending l).mw = s.mw ∧
    (s.withPending l).swRun = s.swRun ∧
    (s.withPending l).store = s.store ∧
    (s.withPending l).lock = s.lock ∧
    (s.withPending l).upd = s.upd ∧
    (s.withPending l).pw = s.pw ∧
    (s.withPending l).cfg = s.cfg ∧
    (s.withPending l).bridge = s.bridge ∧
    (s.withPending l).freeCtr = s.freeCtr := by
  and_intros <;> rfl

@[simp] theorem State.setLatch_fields (s : State) (l : Tri Bool) (n : Nat) :
    (s.setLatch l n).pending = s.pending ∧
    (s.setLatch l n).variant = s.variant ∧
    (s.setLatch l n).counter = s.counter ∧
    (s.setLatch l n).regs = s.regs ∧
    (s.setLatch l n).hub = s.hub ∧
    (s.setLatch l n).lanes = s.lanes ∧
    (s.setLatch l n).assay = s.assay ∧
    (s.setLatch l n).cour = s.cour ∧
    (s.setLatch l n).mgr = s.mgr ∧
    (s.setLatch l n).ledger = s.ledger ∧
    (s.setLatch l n).latch = l ∧
    (s.setLatch l n).aoCause = n ∧
    (s.setLatch l n).memctl = s.memctl ∧
    (s.setLatch l n).clk = s.clk ∧
    (s.setLatch l n).img = s.img ∧
    (s.setLatch l n).cyc = s.cyc ∧
    (s.setLatch l n).queues = s.queues ∧
    (s.setLatch l n).tally = s.tally ∧
    (s.setLatch l n).safe = s.safe ∧
    (s.setLatch l n).cons = s.cons ∧
    (s.setLatch l n).mir = s.mir ∧
    (s.setLatch l n).power = s.power ∧
    (s.setLatch l n).wire = s.wire ∧
    (s.setLatch l n).polls = s.polls ∧
    (s.setLatch l n).cans = s.cans ∧
    (s.setLatch l n).isl = s.isl ∧
    (s.setLatch l n).flash = s.flash ∧
    (s.setLatch l n).spd = s.spd ∧
    (s.setLatch l n).so = s.so ∧
    (s.setLatch l n).mw = s.mw ∧
    (s.setLatch l n).swRun = s.swRun ∧
    (s.setLatch l n).store = s.store ∧
    (s.setLatch l n).lock = s.lock ∧
    (s.setLatch l n).upd = s.upd ∧
    (s.setLatch l n).pw = s.pw ∧
    (s.setLatch l n).cfg = s.cfg ∧
    (s.setLatch l n).bridge = s.bridge ∧
    (s.setLatch l n).freeCtr = s.freeCtr := by
  and_intros <;> rfl

@[simp] theorem State.setWire_fields (s : State) (k : Nat) (b : List Byte) :
    (s.setWire k b).pending = s.pending ∧
    (s.setWire k b).variant = s.variant ∧
    (s.setWire k b).counter = s.counter ∧
    (s.setWire k b).regs = s.regs ∧
    (s.setWire k b).hub = s.hub ∧
    (s.setWire k b).lanes = s.lanes ∧
    (s.setWire k b).assay = s.assay ∧
    (s.setWire k b).cour = s.cour ∧
    (s.setWire k b).mgr = s.mgr ∧
    (s.setWire k b).ledger = s.ledger ∧
    (s.setWire k b).latch = s.latch ∧
    (s.setWire k b).aoCause = s.aoCause ∧
    (s.setWire k b).memctl = s.memctl ∧
    (s.setWire k b).clk = s.clk ∧
    (s.setWire k b).img = s.img ∧
    (s.setWire k b).cyc = s.cyc ∧
    (s.setWire k b).queues = s.queues ∧
    (s.setWire k b).tally = s.tally ∧
    (s.setWire k b).safe = s.safe ∧
    (s.setWire k b).cons = s.cons ∧
    (s.setWire k b).mir = s.mir ∧
    (s.setWire k b).power = s.power ∧
    (s.setWire k b).wire = SMap.put s.wire k [] b ∧
    (s.setWire k b).polls = s.polls ∧
    (s.setWire k b).cans = s.cans ∧
    (s.setWire k b).isl = s.isl ∧
    (s.setWire k b).flash = s.flash ∧
    (s.setWire k b).spd = s.spd ∧
    (s.setWire k b).so = s.so ∧
    (s.setWire k b).mw = s.mw ∧
    (s.setWire k b).swRun = s.swRun ∧
    (s.setWire k b).store = s.store ∧
    (s.setWire k b).lock = s.lock ∧
    (s.setWire k b).upd = s.upd ∧
    (s.setWire k b).pw = s.pw ∧
    (s.setWire k b).cfg = s.cfg ∧
    (s.setWire k b).bridge = s.bridge ∧
    (s.setWire k b).freeCtr = s.freeCtr := by
  and_intros <;> rfl

@[simp] theorem State.draw_fields (s : State) :
    (s.draw).pending = s.pending ∧
    (s.draw).variant = s.variant ∧
    (s.draw).counter = s.counter ∧
    (s.draw).regs = s.regs ∧
    (s.draw).hub = s.hub ∧
    (s.draw).lanes = s.lanes ∧
    (s.draw).assay = s.assay ∧
    (s.draw).cour = s.cour ∧
    (s.draw).mgr = s.mgr ∧
    (s.draw).ledger = s.ledger ∧
    (s.draw).latch = s.latch ∧
    (s.draw).aoCause = s.aoCause ∧
    (s.draw).memctl = s.memctl ∧
    (s.draw).clk = s.clk ∧
    (s.draw).img = s.img ∧
    (s.draw).cyc = s.cyc ∧
    (s.draw).queues = s.queues ∧
    (s.draw).tally = s.tally ∧
    (s.draw).safe = s.safe ∧
    (s.draw).cons = s.cons ∧
    (s.draw).mir = s.mir ∧
    (s.draw).power = s.power ∧
    (s.draw).wire = s.wire ∧
    (s.draw).polls = s.polls ∧
    (s.draw).cans = s.cans ∧
    (s.draw).isl = s.isl ∧
    (s.draw).flash = s.flash ∧
    (s.draw).spd = s.spd ∧
    (s.draw).so = s.so ∧
    (s.draw).mw = s.mw ∧
    (s.draw).swRun = s.swRun ∧
    (s.draw).store = s.store ∧
    (s.draw).lock = s.lock ∧
    (s.draw).upd = s.upd ∧
    (s.draw).pw = s.pw ∧
    (s.draw).cfg = s.cfg ∧
    (s.draw).bridge = s.bridge ∧
    (s.draw).freeCtr = s.freeCtr + 1 := by
  and_intros <;> rfl

@[simp] theorem State.updC_fields (s : State) (p : Fin 4) (f : CourS → CourS) :
    (s.updC p f).pending = s.pending ∧
    (s.updC p f).variant = s.variant ∧
    (s.updC p f).counter = s.counter ∧
    (s.updC p f).regs = s.regs ∧
    (s.updC p f).hub = s.hub ∧
    (s.updC p f).lanes = s.lanes ∧
    (s.updC p f).assay = s.assay ∧
    (s.updC p f).cour = s.cour.set p (f (s.cour.get p)) ∧
    (s.updC p f).mgr = s.mgr ∧
    (s.updC p f).ledger = s.ledger ∧
    (s.updC p f).latch = s.latch ∧
    (s.updC p f).aoCause = s.aoCause ∧
    (s.updC p f).memctl = s.memctl ∧
    (s.updC p f).clk = s.clk ∧
    (s.updC p f).img = s.img ∧
    (s.updC p f).cyc = s.cyc ∧
    (s.updC p f).queues = s.queues ∧
    (s.updC p f).tally = s.tally ∧
    (s.updC p f).safe = s.safe ∧
    (s.updC p f).cons = s.cons ∧
    (s.updC p f).mir = s.mir ∧
    (s.updC p f).power = s.power ∧
    (s.updC p f).wire = s.wire ∧
    (s.updC p f).polls = s.polls ∧
    (s.updC p f).cans = s.cans ∧
    (s.updC p f).isl = s.isl ∧
    (s.updC p f).flash = s.flash ∧
    (s.updC p f).spd = s.spd ∧
    (s.updC p f).so = s.so ∧
    (s.updC p f).mw = s.mw ∧
    (s.updC p f).swRun = s.swRun ∧
    (s.updC p f).store = s.store ∧
    (s.updC p f).lock = s.lock ∧
    (s.updC p f).upd = s.upd ∧
    (s.updC p f).pw = s.pw ∧
    (s.updC p f).cfg = s.cfg ∧
    (s.updC p f).bridge = s.bridge ∧
    (s.updC p f).freeCtr = s.freeCtr := by
  and_intros <;> rfl

@[simp] theorem State.updL_fields (s : State) (l : Fin 3) (f : LaneS → LaneS) :
    (s.updL l f).pending = s.pending ∧
    (s.updL l f).variant = s.variant ∧
    (s.updL l f).counter = s.counter ∧
    (s.updL l f).regs = s.regs ∧
    (s.updL l f).hub = s.hub ∧
    (s.updL l f).lanes = s.lanes.set l (f (s.lanes.get l)) ∧
    (s.updL l f).assay = s.assay ∧
    (s.updL l f).cour = s.cour ∧
    (s.updL l f).mgr = s.mgr ∧
    (s.updL l f).ledger = s.ledger ∧
    (s.updL l f).latch = s.latch ∧
    (s.updL l f).aoCause = s.aoCause ∧
    (s.updL l f).memctl = s.memctl ∧
    (s.updL l f).clk = s.clk ∧
    (s.updL l f).img = s.img ∧
    (s.updL l f).cyc = s.cyc ∧
    (s.updL l f).queues = s.queues ∧
    (s.updL l f).tally = s.tally ∧
    (s.updL l f).safe = s.safe ∧
    (s.updL l f).cons = s.cons ∧
    (s.updL l f).mir = s.mir ∧
    (s.updL l f).power = s.power ∧
    (s.updL l f).wire = s.wire ∧
    (s.updL l f).polls = s.polls ∧
    (s.updL l f).cans = s.cans ∧
    (s.updL l f).isl = s.isl ∧
    (s.updL l f).flash = s.flash ∧
    (s.updL l f).spd = s.spd ∧
    (s.updL l f).so = s.so ∧
    (s.updL l f).mw = s.mw ∧
    (s.updL l f).swRun = s.swRun ∧
    (s.updL l f).store = s.store ∧
    (s.updL l f).lock = s.lock ∧
    (s.updL l f).upd = s.upd ∧
    (s.updL l f).pw = s.pw ∧
    (s.updL l f).cfg = s.cfg ∧
    (s.updL l f).bridge = s.bridge ∧
    (s.updL l f).freeCtr = s.freeCtr := by
  and_intros <;> rfl

@[simp] theorem State.updP_fields (s : State) (l : Fin 3) (p : Fin 4) (f : PairS → PairS) :
    (s.updP l p f).pending = s.pending ∧
    (s.updP l p f).variant = s.variant ∧
    (s.updP l p f).counter = s.counter ∧
    (s.updP l p f).regs = s.regs ∧
    (s.updP l p f).hub = s.hub ∧
    (s.updP l p f).assay = s.assay ∧
    (s.updP l p f).cour = s.cour ∧
    (s.updP l p f).mgr = s.mgr ∧
    (s.updP l p f).ledger = s.ledger ∧
    (s.updP l p f).latch = s.latch ∧
    (s.updP l p f).aoCause = s.aoCause ∧
    (s.updP l p f).memctl = s.memctl ∧
    (s.updP l p f).clk = s.clk ∧
    (s.updP l p f).img = s.img ∧
    (s.updP l p f).cyc = s.cyc ∧
    (s.updP l p f).queues = s.queues ∧
    (s.updP l p f).tally = s.tally ∧
    (s.updP l p f).safe = s.safe ∧
    (s.updP l p f).cons = s.cons ∧
    (s.updP l p f).mir = s.mir ∧
    (s.updP l p f).power = s.power ∧
    (s.updP l p f).wire = s.wire ∧
    (s.updP l p f).polls = s.polls ∧
    (s.updP l p f).cans = s.cans ∧
    (s.updP l p f).isl = s.isl ∧
    (s.updP l p f).flash = s.flash ∧
    (s.updP l p f).spd = s.spd ∧
    (s.updP l p f).so = s.so ∧
    (s.updP l p f).mw = s.mw ∧
    (s.updP l p f).swRun = s.swRun ∧
    (s.updP l p f).store = s.store ∧
    (s.updP l p f).lock = s.lock ∧
    (s.updP l p f).upd = s.upd ∧
    (s.updP l p f).pw = s.pw ∧
    (s.updP l p f).cfg = s.cfg ∧
    (s.updP l p f).bridge = s.bridge ∧
    (s.updP l p f).freeCtr = s.freeCtr := by
  and_intros <;> rfl

@[simp] theorem State.set_fields (s : State) (f : Fld) (v : Nat) :
    (s.set f v).pending = s.pending ∧
    (s.set f v).variant = s.variant ∧
    (s.set f v).counter = s.counter ∧
    (s.set f v).regs = SMap.put s.regs f.key f.rst (v % 2 ^ f.w) ∧
    (s.set f v).hub = s.hub ∧
    (s.set f v).lanes = s.lanes ∧
    (s.set f v).assay = s.assay ∧
    (s.set f v).cour = s.cour ∧
    (s.set f v).mgr = s.mgr ∧
    (s.set f v).ledger = s.ledger ∧
    (s.set f v).latch = s.latch ∧
    (s.set f v).aoCause = s.aoCause ∧
    (s.set f v).memctl = s.memctl ∧
    (s.set f v).clk = s.clk ∧
    (s.set f v).img = s.img ∧
    (s.set f v).cyc = s.cyc ∧
    (s.set f v).queues = s.queues ∧
    (s.set f v).tally = s.tally ∧
    (s.set f v).safe = s.safe ∧
    (s.set f v).cons = s.cons ∧
    (s.set f v).mir = s.mir ∧
    (s.set f v).power = s.power ∧
    (s.set f v).wire = s.wire ∧
    (s.set f v).polls = s.polls ∧
    (s.set f v).cans = s.cans ∧
    (s.set f v).isl = s.isl ∧
    (s.set f v).flash = s.flash ∧
    (s.set f v).spd = s.spd ∧
    (s.set f v).so = s.so ∧
    (s.set f v).mw = s.mw ∧
    (s.set f v).swRun = s.swRun ∧
    (s.set f v).store = s.store ∧
    (s.set f v).lock = s.lock ∧
    (s.set f v).upd = s.upd ∧
    (s.set f v).pw = s.pw ∧
    (s.set f v).cfg = s.cfg ∧
    (s.set f v).bridge = s.bridge ∧
    (s.set f v).freeCtr = s.freeCtr := by
  and_intros <;> rfl

@[simp] theorem State.hubWrite_fields (s : State) (o : Nat) (b : List Byte) :
    (s.hubWrite o b).pending = s.pending ∧
    (s.hubWrite o b).variant = s.variant ∧
    (s.hubWrite o b).counter = s.counter ∧
    (s.hubWrite o b).regs = s.regs ∧
    (s.hubWrite o b).hub = writeBytes s.hub o b ∧
    (s.hubWrite o b).lanes = s.lanes ∧
    (s.hubWrite o b).assay = s.assay ∧
    (s.hubWrite o b).cour = s.cour ∧
    (s.hubWrite o b).mgr = s.mgr ∧
    (s.hubWrite o b).ledger = s.ledger ∧
    (s.hubWrite o b).latch = s.latch ∧
    (s.hubWrite o b).aoCause = s.aoCause ∧
    (s.hubWrite o b).memctl = s.memctl ∧
    (s.hubWrite o b).clk = s.clk ∧
    (s.hubWrite o b).img = s.img ∧
    (s.hubWrite o b).cyc = s.cyc ∧
    (s.hubWrite o b).queues = s.queues ∧
    (s.hubWrite o b).tally = s.tally ∧
    (s.hubWrite o b).safe = s.safe ∧
    (s.hubWrite o b).cons = s.cons ∧
    (s.hubWrite o b).mir = s.mir ∧
    (s.hubWrite o b).power = s.power ∧
    (s.hubWrite o b).wire = s.wire ∧
    (s.hubWrite o b).polls = s.polls ∧
    (s.hubWrite o b).cans = s.cans ∧
    (s.hubWrite o b).isl = s.isl ∧
    (s.hubWrite o b).flash = s.flash ∧
    (s.hubWrite o b).spd = s.spd ∧
    (s.hubWrite o b).so = s.so ∧
    (s.hubWrite o b).mw = s.mw ∧
    (s.hubWrite o b).swRun = s.swRun ∧
    (s.hubWrite o b).store = s.store ∧
    (s.hubWrite o b).lock = s.lock ∧
    (s.hubWrite o b).upd = s.upd ∧
    (s.hubWrite o b).pw = s.pw ∧
    (s.hubWrite o b).cfg = s.cfg ∧
    (s.hubWrite o b).bridge = s.bridge ∧
    (s.hubWrite o b).freeCtr = s.freeCtr := by
  and_intros <;> rfl

@[simp] theorem State.hubCut_fields (s : State) (p : Nat × Byte → Bool) :
    (s.hubCut p).pending = s.pending ∧
    (s.hubCut p).variant = s.variant ∧
    (s.hubCut p).counter = s.counter ∧
    (s.hubCut p).regs = s.regs ∧
    (s.hubCut p).hub = s.hub.filter p ∧
    (s.hubCut p).lanes = s.lanes ∧
    (s.hubCut p).assay = s.assay ∧
    (s.hubCut p).cour = s.cour ∧
    (s.hubCut p).mgr = s.mgr ∧
    (s.hubCut p).ledger = s.ledger ∧
    (s.hubCut p).latch = s.latch ∧
    (s.hubCut p).aoCause = s.aoCause ∧
    (s.hubCut p).memctl = s.memctl ∧
    (s.hubCut p).clk = s.clk ∧
    (s.hubCut p).img = s.img ∧
    (s.hubCut p).cyc = s.cyc ∧
    (s.hubCut p).queues = s.queues ∧
    (s.hubCut p).tally = s.tally ∧
    (s.hubCut p).safe = s.safe ∧
    (s.hubCut p).cons = s.cons ∧
    (s.hubCut p).mir = s.mir ∧
    (s.hubCut p).power = s.power ∧
    (s.hubCut p).wire = s.wire ∧
    (s.hubCut p).polls = s.polls ∧
    (s.hubCut p).cans = s.cans ∧
    (s.hubCut p).isl = s.isl ∧
    (s.hubCut p).flash = s.flash ∧
    (s.hubCut p).spd = s.spd ∧
    (s.hubCut p).so = s.so ∧
    (s.hubCut p).mw = s.mw ∧
    (s.hubCut p).swRun = s.swRun ∧
    (s.hubCut p).store = s.store ∧
    (s.hubCut p).lock = s.lock ∧
    (s.hubCut p).upd = s.upd ∧
    (s.hubCut p).pw = s.pw ∧
    (s.hubCut p).cfg = s.cfg ∧
    (s.hubCut p).bridge = s.bridge ∧
    (s.hubCut p).freeCtr = s.freeCtr := by
  and_intros <;> rfl

@[simp] theorem State.flashPut_fields (s : State) (k : Nat) (b : List Byte) :
    (s.flashPut k b).pending = s.pending ∧
    (s.flashPut k b).variant = s.variant ∧
    (s.flashPut k b).counter = s.counter ∧
    (s.flashPut k b).regs = s.regs ∧
    (s.flashPut k b).hub = s.hub ∧
    (s.flashPut k b).lanes = s.lanes ∧
    (s.flashPut k b).assay = s.assay ∧
    (s.flashPut k b).cour = s.cour ∧
    (s.flashPut k b).mgr = s.mgr ∧
    (s.flashPut k b).ledger = s.ledger ∧
    (s.flashPut k b).latch = s.latch ∧
    (s.flashPut k b).aoCause = s.aoCause ∧
    (s.flashPut k b).memctl = s.memctl ∧
    (s.flashPut k b).clk = s.clk ∧
    (s.flashPut k b).img = s.img ∧
    (s.flashPut k b).cyc = s.cyc ∧
    (s.flashPut k b).queues = s.queues ∧
    (s.flashPut k b).tally = s.tally ∧
    (s.flashPut k b).safe = s.safe ∧
    (s.flashPut k b).cons = s.cons ∧
    (s.flashPut k b).mir = s.mir ∧
    (s.flashPut k b).power = s.power ∧
    (s.flashPut k b).wire = s.wire ∧
    (s.flashPut k b).polls = s.polls ∧
    (s.flashPut k b).cans = s.cans ∧
    (s.flashPut k b).isl = s.isl ∧
    (s.flashPut k b).flash = writeBytes s.flash k b ∧
    (s.flashPut k b).spd = s.spd ∧
    (s.flashPut k b).so = s.so ∧
    (s.flashPut k b).mw = s.mw ∧
    (s.flashPut k b).swRun = s.swRun ∧
    (s.flashPut k b).store = s.store ∧
    (s.flashPut k b).lock = s.lock ∧
    (s.flashPut k b).upd = s.upd ∧
    (s.flashPut k b).pw = s.pw ∧
    (s.flashPut k b).cfg = s.cfg ∧
    (s.flashPut k b).bridge = s.bridge ∧
    (s.flashPut k b).freeCtr = s.freeCtr := by
  and_intros <;> rfl

@[simp] theorem State.flashCut_fields (s : State) (p : Nat × Byte → Bool) :
    (s.flashCut p).pending = s.pending ∧
    (s.flashCut p).variant = s.variant ∧
    (s.flashCut p).counter = s.counter ∧
    (s.flashCut p).regs = s.regs ∧
    (s.flashCut p).hub = s.hub ∧
    (s.flashCut p).lanes = s.lanes ∧
    (s.flashCut p).assay = s.assay ∧
    (s.flashCut p).cour = s.cour ∧
    (s.flashCut p).mgr = s.mgr ∧
    (s.flashCut p).ledger = s.ledger ∧
    (s.flashCut p).latch = s.latch ∧
    (s.flashCut p).aoCause = s.aoCause ∧
    (s.flashCut p).memctl = s.memctl ∧
    (s.flashCut p).clk = s.clk ∧
    (s.flashCut p).img = s.img ∧
    (s.flashCut p).cyc = s.cyc ∧
    (s.flashCut p).queues = s.queues ∧
    (s.flashCut p).tally = s.tally ∧
    (s.flashCut p).safe = s.safe ∧
    (s.flashCut p).cons = s.cons ∧
    (s.flashCut p).mir = s.mir ∧
    (s.flashCut p).power = s.power ∧
    (s.flashCut p).wire = s.wire ∧
    (s.flashCut p).polls = s.polls ∧
    (s.flashCut p).cans = s.cans ∧
    (s.flashCut p).isl = s.isl ∧
    (s.flashCut p).flash = s.flash.filter p ∧
    (s.flashCut p).spd = s.spd ∧
    (s.flashCut p).so = s.so ∧
    (s.flashCut p).mw = s.mw ∧
    (s.flashCut p).swRun = s.swRun ∧
    (s.flashCut p).store = s.store ∧
    (s.flashCut p).lock = s.lock ∧
    (s.flashCut p).upd = s.upd ∧
    (s.flashCut p).pw = s.pw ∧
    (s.flashCut p).cfg = s.cfg ∧
    (s.flashCut p).bridge = s.bridge ∧
    (s.flashCut p).freeCtr = s.freeCtr := by
  and_intros <;> rfl

end Sys2Proof.Machine
end

