-- ==== Sys2Proof/Laws/Regs.lean ====
section
/-! SUPPORT. Register fields: what a read gives after a write, and which updates leave every register and every byte of hub SRAM alone. -/

namespace Sys2Proof.Machine

/-- What a field reads after a write of a field: the value cut to its width, where it is the same place. -/
theorem State.get_set (s : State) (f g : Fld) (v : Nat) (h : f.key = g.key → f.rst = g.rst) :
    (s.set f v).get g = if g.key = f.key then v % 2 ^ f.w else s.get g := by
  unfold State.get State.set
  split
  · rename_i e; simp only [e, ← h e.symm]; exact SMap.get_put_same _ _ _ _
  · rename_i e; exact SMap.get_put_ne e

@[simp] theorem State.get_set_same (s : State) (f : Fld) (v : Nat) : (s.set f v).get f = v % 2 ^ f.w := by
  rw [State.get_set s f f v fun _ => rfl, if_pos rfl]

theorem State.get_set_ne (s : State) {f g : Fld} {v : Nat} (h : g.key ≠ f.key) : (s.set f v).get g = s.get g := SMap.get_put_ne h

@[simp] theorem State.updLg_reads (s : State) (x : LedgerS → LedgerS) :
    (∀ (g : Fld), (s.updLg x).get g = s.get g) ∧ (∀ (g : Fld), (s.updLg x).flag g = s.flag g) ∧ (∀ (g k : Fld), (s.updLg x).get64 g k = s.get64 g k) ∧
    (∀ (n : Nat), (s.updLg x).intStat n = s.intStat n) ∧ (∀ (n : Nat), (s.updLg x).route n = s.route n) ∧ (∀ (n : Fin 3), (s.updLg x).laneState n = s.laneState n) ∧
    (∀ (n : Nat), (s.updLg x).lanesIn n = s.lanesIn n) ∧ ((s.updLg x).voters = s.voters) ∧ (∀ (a n : Nat), (s.updLg x).hubRead a n = s.hubRead a n) ∧
    (∀ (a n : Nat), (s.updLg x).hubNat a n = s.hubNat a n) ∧ (∀ (n : Fin 3), (s.updLg x).ln n = s.ln n) ∧ (∀ (n : Fin 3) (m : Fin 4), (s.updLg x).pr n m = s.pr n m) ∧
    ((s.updLg x).isF = s.isF) ∧ ((s.updLg x).isS = s.isS) ∧ ((s.updLg x).nPairs = s.nPairs) ∧ (∀ (n m k : Nat), (s.updLg x).byVar n m k = s.byVar n m k) ∧
    (∀ (n : Nat), (s.updLg x).pagePresent n = s.pagePresent n) ∧ (∀ (n : Nat), (s.updLg x).islandPresent n = s.islandPresent n) ∧ ((s.updLg x).passive = s.passive) ∧
    (∀ (n : Fin 4), (s.updLg x).cr n = s.cr n) := by
  and_intros <;> intros <;> rfl

@[simp] theorem State.updA_reads (s : State) (x : AssayS → AssayS) :
    (∀ (g : Fld), (s.updA x).get g = s.get g) ∧ (∀ (g : Fld), (s.updA x).flag g = s.flag g) ∧ (∀ (g k : Fld), (s.updA x).get64 g k = s.get64 g k) ∧
    (∀ (n : Nat), (s.updA x).intStat n = s.intStat n) ∧ (∀ (n : Nat), (s.updA x).route n = s.route n) ∧ (∀ (n : Fin 3), (s.updA x).laneState n = s.laneState n) ∧
    (∀ (n : Nat), (s.updA x).lanesIn n = s.lanesIn n) ∧ ((s.updA x).voters = s.voters) ∧ (∀ (a n : Nat), (s.updA x).hubRead a n = s.hubRead a n) ∧
    (∀ (a n : Nat), (s.updA x).hubNat a n = s.hubNat a n) ∧ (∀ (n : Fin 3), (s.updA x).ln n = s.ln n) ∧ (∀ (n : Fin 3) (m : Fin 4), (s.updA x).pr n m = s.pr n m) ∧
    ((s.updA x).isF = s.isF) ∧ ((s.updA x).isS = s.isS) ∧ ((s.updA x).nPairs = s.nPairs) ∧ (∀ (n m k : Nat), (s.updA x).byVar n m k = s.byVar n m k) ∧
    (∀ (n : Nat), (s.updA x).pagePresent n = s.pagePresent n) ∧ (∀ (n : Nat), (s.updA x).islandPresent n = s.islandPresent n) ∧ ((s.updA x).passive = s.passive) ∧
    (∀ (n : Fin 4), (s.updA x).cr n = s.cr n) := by
  and_intros <;> intros <;> rfl

@[simp] theorem State.updM_reads (s : State) (x : MgrS → MgrS) :
    (∀ (g : Fld), (s.updM x).get g = s.get g) ∧ (∀ (g : Fld), (s.updM x).flag g = s.flag g) ∧ (∀ (g k : Fld), (s.updM x).get64 g k = s.get64 g k) ∧
    (∀ (n : Nat), (s.updM x).intStat n = s.intStat n) ∧ (∀ (n : Nat), (s.updM x).route n = s.route n) ∧ (∀ (n : Fin 3), (s.updM x).laneState n = s.laneState n) ∧
    (∀ (n : Nat), (s.updM x).lanesIn n = s.lanesIn n) ∧ ((s.updM x).voters = s.voters) ∧ (∀ (a n : Nat), (s.updM x).hubRead a n = s.hubRead a n) ∧
    (∀ (a n : Nat), (s.updM x).hubNat a n = s.hubNat a n) ∧ (∀ (n : Fin 3), (s.updM x).ln n = s.ln n) ∧ (∀ (n : Fin 3) (m : Fin 4), (s.updM x).pr n m = s.pr n m) ∧
    ((s.updM x).isF = s.isF) ∧ ((s.updM x).isS = s.isS) ∧ ((s.updM x).nPairs = s.nPairs) ∧ (∀ (n m k : Nat), (s.updM x).byVar n m k = s.byVar n m k) ∧
    (∀ (n : Nat), (s.updM x).pagePresent n = s.pagePresent n) ∧ (∀ (n : Nat), (s.updM x).islandPresent n = s.islandPresent n) ∧ ((s.updM x).passive = s.passive) ∧
    (∀ (n : Fin 4), (s.updM x).cr n = s.cr n) := by
  and_intros <;> intros <;> rfl

@[simp] theorem State.updMc_reads (s : State) (x : MemS → MemS) :
    (∀ (g : Fld), (s.updMc x).get g = s.get g) ∧ (∀ (g : Fld), (s.updMc x).flag g = s.flag g) ∧ (∀ (g k : Fld), (s.updMc x).get64 g k = s.get64 g k) ∧
    (∀ (n : Nat), (s.updMc x).intStat n = s.intStat n) ∧ (∀ (n : Nat), (s.updMc x).route n = s.route n) ∧ (∀ (n : Fin 3), (s.updMc x).laneState n = s.laneState n) ∧
    (∀ (n : Nat), (s.updMc x).lanesIn n = s.lanesIn n) ∧ ((s.updMc x).voters = s.voters) ∧ (∀ (a n : Nat), (s.updMc x).hubRead a n = s.hubRead a n) ∧
    (∀ (a n : Nat), (s.updMc x).hubNat a n = s.hubNat a n) ∧ (∀ (n : Fin 3), (s.updMc x).ln n = s.ln n) ∧ (∀ (n : Fin 3) (m : Fin 4), (s.updMc x).pr n m = s.pr n m) ∧
    ((s.updMc x).isF = s.isF) ∧ ((s.updMc x).isS = s.isS) ∧ ((s.updMc x).nPairs = s.nPairs) ∧ (∀ (n m k : Nat), (s.updMc x).byVar n m k = s.byVar n m k) ∧
    (∀ (n : Nat), (s.updMc x).pagePresent n = s.pagePresent n) ∧ (∀ (n : Nat), (s.updMc x).islandPresent n = s.islandPresent n) ∧ ((s.updMc x).passive = s.passive) ∧
    (∀ (n : Fin 4), (s.updMc x).cr n = s.cr n) := by
  and_intros <;> intros <;> rfl

@[simp] theorem State.updK_reads (s : State) (x : ClockS → ClockS) :
    (∀ (g : Fld), (s.updK x).get g = s.get g) ∧ (∀ (g : Fld), (s.updK x).flag g = s.flag g) ∧ (∀ (g k : Fld), (s.updK x).get64 g k = s.get64 g k) ∧
    (∀ (n : Nat), (s.updK x).intStat n = s.intStat n) ∧ (∀ (n : Nat), (s.updK x).route n = s.route n) ∧ (∀ (n : Fin 3), (s.updK x).laneState n = s.laneState n) ∧
    (∀ (n : Nat), (s.updK x).lanesIn n = s.lanesIn n) ∧ ((s.updK x).voters = s.voters) ∧ (∀ (a n : Nat), (s.updK x).hubRead a n = s.hubRead a n) ∧
    (∀ (a n : Nat), (s.updK x).hubNat a n = s.hubNat a n) ∧ (∀ (n : Fin 3), (s.updK x).ln n = s.ln n) ∧ (∀ (n : Fin 3) (m : Fin 4), (s.updK x).pr n m = s.pr n m) ∧
    ((s.updK x).isF = s.isF) ∧ ((s.updK x).isS = s.isS) ∧ ((s.updK x).nPairs = s.nPairs) ∧ (∀ (n m k : Nat), (s.updK x).byVar n m k = s.byVar n m k) ∧
    (∀ (n : Nat), (s.updK x).pagePresent n = s.pagePresent n) ∧ (∀ (n : Nat), (s.updK x).islandPresent n = s.islandPresent n) ∧ ((s.updK x).passive = s.passive) ∧
    (∀ (n : Fin 4), (s.updK x).cr n = s.cr n) := by
  and_intros <;> intros <;> rfl

@[simp] theorem State.updI_reads (s : State) (x : ImgS → ImgS) :
    (∀ (g : Fld), (s.updI x).get g = s.get g) ∧ (∀ (g : Fld), (s.updI x).flag g = s.flag g) ∧ (∀ (g k : Fld), (s.updI x).get64 g k = s.get64 g k) ∧
    (∀ (n : Nat), (s.updI x).intStat n = s.intStat n) ∧ (∀ (n : Nat), (s.updI x).route n = s.route n) ∧ (∀ (n : Fin 3), (s.updI x).laneState n = s.laneState n) ∧
    (∀ (n : Nat), (s.updI x).lanesIn n = s.lanesIn n) ∧ ((s.updI x).voters = s.voters) ∧ (∀ (a n : Nat), (s.updI x).hubRead a n = s.hubRead a n) ∧
    (∀ (a n : Nat), (s.updI x).hubNat a n = s.hubNat a n) ∧ (∀ (n : Fin 3), (s.updI x).ln n = s.ln n) ∧ (∀ (n : Fin 3) (m : Fin 4), (s.updI x).pr n m = s.pr n m) ∧
    ((s.updI x).isF = s.isF) ∧ ((s.updI x).isS = s.isS) ∧ ((s.updI x).nPairs = s.nPairs) ∧ (∀ (n m k : Nat), (s.updI x).byVar n m k = s.byVar n m k) ∧
    (∀ (n : Nat), (s.updI x).pagePresent n = s.pagePresent n) ∧ (∀ (n : Nat), (s.updI x).islandPresent n = s.islandPresent n) ∧ ((s.updI x).passive = s.passive) ∧
    (∀ (n : Fin 4), (s.updI x).cr n = s.cr n) := by
  and_intros <;> intros <;> rfl

@[simp] theorem State.updCyc_reads (s : State) (x : CycS → CycS) :
    (∀ (g : Fld), (s.updCyc x).get g = s.get g) ∧ (∀ (g : Fld), (s.updCyc x).flag g = s.flag g) ∧ (∀ (g k : Fld), (s.updCyc x).get64 g k = s.get64 g k) ∧
    (∀ (n : Nat), (s.updCyc x).intStat n = s.intStat n) ∧ (∀ (n : Nat), (s.updCyc x).route n = s.route n) ∧ (∀ (n : Fin 3), (s.updCyc x).laneState n = s.laneState n) ∧
    (∀ (n : Nat), (s.updCyc x).lanesIn n = s.lanesIn n) ∧ ((s.updCyc x).voters = s.voters) ∧ (∀ (a n : Nat), (s.updCyc x).hubRead a n = s.hubRead a n) ∧
    (∀ (a n : Nat), (s.updCyc x).hubNat a n = s.hubNat a n) ∧ (∀ (n : Fin 3), (s.updCyc x).ln n = s.ln n) ∧ (∀ (n : Fin 3) (m : Fin 4), (s.updCyc x).pr n m = s.pr n m) ∧
    ((s.updCyc x).isF = s.isF) ∧ ((s.updCyc x).isS = s.isS) ∧ ((s.updCyc x).nPairs = s.nPairs) ∧ (∀ (n m k : Nat), (s.updCyc x).byVar n m k = s.byVar n m k) ∧
    (∀ (n : Nat), (s.updCyc x).pagePresent n = s.pagePresent n) ∧ (∀ (n : Nat), (s.updCyc x).islandPresent n = s.islandPresent n) ∧ ((s.updCyc x).passive = s.passive) ∧
    (∀ (n : Fin 4), (s.updCyc x).cr n = s.cr n) := by
  and_intros <;> intros <;> rfl

@[simp] theorem State.updTl_reads (s : State) (x : TallyS → TallyS) :
    (∀ (g : Fld), (s.updTl x).get g = s.get g) ∧ (∀ (g : Fld), (s.updTl x).flag g = s.flag g) ∧ (∀ (g k : Fld), (s.updTl x).get64 g k = s.get64 g k) ∧
    (∀ (n : Nat), (s.updTl x).intStat n = s.intStat n) ∧ (∀ (n : Nat), (s.updTl x).route n = s.route n) ∧ (∀ (n : Fin 3), (s.updTl x).laneState n = s.laneState n) ∧
    (∀ (n : Nat), (s.updTl x).lanesIn n = s.lanesIn n) ∧ ((s.updTl x).voters = s.voters) ∧ (∀ (a n : Nat), (s.updTl x).hubRead a n = s.hubRead a n) ∧
    (∀ (a n : Nat), (s.updTl x).hubNat a n = s.hubNat a n) ∧ (∀ (n : Fin 3), (s.updTl x).ln n = s.ln n) ∧ (∀ (n : Fin 3) (m : Fin 4), (s.updTl x).pr n m = s.pr n m) ∧
    ((s.updTl x).isF = s.isF) ∧ ((s.updTl x).isS = s.isS) ∧ ((s.updTl x).nPairs = s.nPairs) ∧ (∀ (n m k : Nat), (s.updTl x).byVar n m k = s.byVar n m k) ∧
    (∀ (n : Nat), (s.updTl x).pagePresent n = s.pagePresent n) ∧ (∀ (n : Nat), (s.updTl x).islandPresent n = s.islandPresent n) ∧ ((s.updTl x).passive = s.passive) ∧
    (∀ (n : Fin 4), (s.updTl x).cr n = s.cr n) := by
  and_intros <;> intros <;> rfl

@[simp] theorem State.updS_reads (s : State) (x : SafeS → SafeS) :
    (∀ (g : Fld), (s.updS x).get g = s.get g) ∧ (∀ (g : Fld), (s.updS x).flag g = s.flag g) ∧ (∀ (g k : Fld), (s.updS x).get64 g k = s.get64 g k) ∧
    (∀ (n : Nat), (s.updS x).intStat n = s.intStat n) ∧ (∀ (n : Nat), (s.updS x).route n = s.route n) ∧ (∀ (n : Fin 3), (s.updS x).laneState n = s.laneState n) ∧
    (∀ (n : Nat), (s.updS x).lanesIn n = s.lanesIn n) ∧ ((s.updS x).voters = s.voters) ∧ (∀ (a n : Nat), (s.updS x).hubRead a n = s.hubRead a n) ∧
    (∀ (a n : Nat), (s.updS x).hubNat a n = s.hubNat a n) ∧ (∀ (n : Fin 3), (s.updS x).ln n = s.ln n) ∧ (∀ (n : Fin 3) (m : Fin 4), (s.updS x).pr n m = s.pr n m) ∧
    ((s.updS x).isF = s.isF) ∧ ((s.updS x).isS = s.isS) ∧ ((s.updS x).nPairs = s.nPairs) ∧ (∀ (n m k : Nat), (s.updS x).byVar n m k = s.byVar n m k) ∧
    (∀ (n : Nat), (s.updS x).pagePresent n = s.pagePresent n) ∧ (∀ (n : Nat), (s.updS x).islandPresent n = s.islandPresent n) ∧ ((s.updS x).passive = s.passive) ∧
    (∀ (n : Fin 4), (s.updS x).cr n = s.cr n) := by
  and_intros <;> intros <;> rfl

@[simp] theorem State.updN_reads (s : State) (x : ConsS → ConsS) :
    (∀ (g : Fld), (s.updN x).get g = s.get g) ∧ (∀ (g : Fld), (s.updN x).flag g = s.flag g) ∧ (∀ (g k : Fld), (s.updN x).get64 g k = s.get64 g k) ∧
    (∀ (n : Nat), (s.updN x).intStat n = s.intStat n) ∧ (∀ (n : Nat), (s.updN x).route n = s.route n) ∧ (∀ (n : Fin 3), (s.updN x).laneState n = s.laneState n) ∧
    (∀ (n : Nat), (s.updN x).lanesIn n = s.lanesIn n) ∧ ((s.updN x).voters = s.voters) ∧ (∀ (a n : Nat), (s.updN x).hubRead a n = s.hubRead a n) ∧
    (∀ (a n : Nat), (s.updN x).hubNat a n = s.hubNat a n) ∧ (∀ (n : Fin 3), (s.updN x).ln n = s.ln n) ∧ (∀ (n : Fin 3) (m : Fin 4), (s.updN x).pr n m = s.pr n m) ∧
    ((s.updN x).isF = s.isF) ∧ ((s.updN x).isS = s.isS) ∧ ((s.updN x).nPairs = s.nPairs) ∧ (∀ (n m k : Nat), (s.updN x).byVar n m k = s.byVar n m k) ∧
    (∀ (n : Nat), (s.updN x).pagePresent n = s.pagePresent n) ∧ (∀ (n : Nat), (s.updN x).islandPresent n = s.islandPresent n) ∧ ((s.updN x).passive = s.passive) ∧
    (∀ (n : Fin 4), (s.updN x).cr n = s.cr n) := by
  and_intros <;> intros <;> rfl

@[simp] theorem State.updMir_reads (s : State) (x : MirS → MirS) :
    (∀ (g : Fld), (s.updMir x).get g = s.get g) ∧ (∀ (g : Fld), (s.updMir x).flag g = s.flag g) ∧ (∀ (g k : Fld), (s.updMir x).get64 g k = s.get64 g k) ∧
    (∀ (n : Nat), (s.updMir x).intStat n = s.intStat n) ∧ (∀ (n : Nat), (s.updMir x).route n = s.route n) ∧ (∀ (n : Fin 3), (s.updMir x).laneState n = s.laneState n) ∧
    (∀ (n : Nat), (s.updMir x).lanesIn n = s.lanesIn n) ∧ ((s.updMir x).voters = s.voters) ∧ (∀ (a n : Nat), (s.updMir x).hubRead a n = s.hubRead a n) ∧
    (∀ (a n : Nat), (s.updMir x).hubNat a n = s.hubNat a n) ∧ (∀ (n : Fin 3), (s.updMir x).ln n = s.ln n) ∧ (∀ (n : Fin 3) (m : Fin 4), (s.updMir x).pr n m = s.pr n m) ∧
    ((s.updMir x).isF = s.isF) ∧ ((s.updMir x).isS = s.isS) ∧ ((s.updMir x).nPairs = s.nPairs) ∧ (∀ (n m k : Nat), (s.updMir x).byVar n m k = s.byVar n m k) ∧
    (∀ (n : Nat), (s.updMir x).pagePresent n = s.pagePresent n) ∧ (∀ (n : Nat), (s.updMir x).islandPresent n = s.islandPresent n) ∧ ((s.updMir x).passive = s.passive) ∧
    (∀ (n : Fin 4), (s.updMir x).cr n = s.cr n) := by
  and_intros <;> intros <;> rfl

@[simp] theorem State.updSo_reads (s : State) (x : SoS → SoS) :
    (∀ (g : Fld), (s.updSo x).get g = s.get g) ∧ (∀ (g : Fld), (s.updSo x).flag g = s.flag g) ∧ (∀ (g k : Fld), (s.updSo x).get64 g k = s.get64 g k) ∧
    (∀ (n : Nat), (s.updSo x).intStat n = s.intStat n) ∧ (∀ (n : Nat), (s.updSo x).route n = s.route n) ∧ (∀ (n : Fin 3), (s.updSo x).laneState n = s.laneState n) ∧
    (∀ (n : Nat), (s.updSo x).lanesIn n = s.lanesIn n) ∧ ((s.updSo x).voters = s.voters) ∧ (∀ (a n : Nat), (s.updSo x).hubRead a n = s.hubRead a n) ∧
    (∀ (a n : Nat), (s.updSo x).hubNat a n = s.hubNat a n) ∧ (∀ (n : Fin 3), (s.updSo x).ln n = s.ln n) ∧ (∀ (n : Fin 3) (m : Fin 4), (s.updSo x).pr n m = s.pr n m) ∧
    ((s.updSo x).isF = s.isF) ∧ ((s.updSo x).isS = s.isS) ∧ ((s.updSo x).nPairs = s.nPairs) ∧ (∀ (n m k : Nat), (s.updSo x).byVar n m k = s.byVar n m k) ∧
    (∀ (n : Nat), (s.updSo x).pagePresent n = s.pagePresent n) ∧ (∀ (n : Nat), (s.updSo x).islandPresent n = s.islandPresent n) ∧ ((s.updSo x).passive = s.passive) ∧
    (∀ (n : Fin 4), (s.updSo x).cr n = s.cr n) := by
  and_intros <;> intros <;> rfl

@[simp] theorem State.updMw_reads (s : State) (x : MwS → MwS) :
    (∀ (g : Fld), (s.updMw x).get g = s.get g) ∧ (∀ (g : Fld), (s.updMw x).flag g = s.flag g) ∧ (∀ (g k : Fld), (s.updMw x).get64 g k = s.get64 g k) ∧
    (∀ (n : Nat), (s.updMw x).intStat n = s.intStat n) ∧ (∀ (n : Nat), (s.updMw x).route n = s.route n) ∧ (∀ (n : Fin 3), (s.updMw x).laneState n = s.laneState n) ∧
    (∀ (n : Nat), (s.updMw x).lanesIn n = s.lanesIn n) ∧ ((s.updMw x).voters = s.voters) ∧ (∀ (a n : Nat), (s.updMw x).hubRead a n = s.hubRead a n) ∧
    (∀ (a n : Nat), (s.updMw x).hubNat a n = s.hubNat a n) ∧ (∀ (n : Fin 3), (s.updMw x).ln n = s.ln n) ∧ (∀ (n : Fin 3) (m : Fin 4), (s.updMw x).pr n m = s.pr n m) ∧
    ((s.updMw x).isF = s.isF) ∧ ((s.updMw x).isS = s.isS) ∧ ((s.updMw x).nPairs = s.nPairs) ∧ (∀ (n m k : Nat), (s.updMw x).byVar n m k = s.byVar n m k) ∧
    (∀ (n : Nat), (s.updMw x).pagePresent n = s.pagePresent n) ∧ (∀ (n : Nat), (s.updMw x).islandPresent n = s.islandPresent n) ∧ ((s.updMw x).passive = s.passive) ∧
    (∀ (n : Fin 4), (s.updMw x).cr n = s.cr n) := by
  and_intros <;> intros <;> rfl

@[simp] theorem State.updSt_reads (s : State) (x : StoreS → StoreS) :
    (∀ (g : Fld), (s.updSt x).get g = s.get g) ∧ (∀ (g : Fld), (s.updSt x).flag g = s.flag g) ∧ (∀ (g k : Fld), (s.updSt x).get64 g k = s.get64 g k) ∧
    (∀ (n : Nat), (s.updSt x).intStat n = s.intStat n) ∧ (∀ (n : Nat), (s.updSt x).route n = s.route n) ∧ (∀ (n : Fin 3), (s.updSt x).laneState n = s.laneState n) ∧
    (∀ (n : Nat), (s.updSt x).lanesIn n = s.lanesIn n) ∧ ((s.updSt x).voters = s.voters) ∧ (∀ (a n : Nat), (s.updSt x).hubRead a n = s.hubRead a n) ∧
    (∀ (a n : Nat), (s.updSt x).hubNat a n = s.hubNat a n) ∧ (∀ (n : Fin 3), (s.updSt x).ln n = s.ln n) ∧ (∀ (n : Fin 3) (m : Fin 4), (s.updSt x).pr n m = s.pr n m) ∧
    ((s.updSt x).isF = s.isF) ∧ ((s.updSt x).isS = s.isS) ∧ ((s.updSt x).nPairs = s.nPairs) ∧ (∀ (n m k : Nat), (s.updSt x).byVar n m k = s.byVar n m k) ∧
    (∀ (n : Nat), (s.updSt x).pagePresent n = s.pagePresent n) ∧ (∀ (n : Nat), (s.updSt x).islandPresent n = s.islandPresent n) ∧ ((s.updSt x).passive = s.passive) ∧
    (∀ (n : Fin 4), (s.updSt x).cr n = s.cr n) := by
  and_intros <;> intros <;> rfl

@[simp] theorem State.updLk_reads (s : State) (x : LockS → LockS) :
    (∀ (g : Fld), (s.updLk x).get g = s.get g) ∧ (∀ (g : Fld), (s.updLk x).flag g = s.flag g) ∧ (∀ (g k : Fld), (s.updLk x).get64 g k = s.get64 g k) ∧
    (∀ (n : Nat), (s.updLk x).intStat n = s.intStat n) ∧ (∀ (n : Nat), (s.updLk x).route n = s.route n) ∧ (∀ (n : Fin 3), (s.updLk x).laneState n = s.laneState n) ∧
    (∀ (n : Nat), (s.updLk x).lanesIn n = s.lanesIn n) ∧ ((s.updLk x).voters = s.voters) ∧ (∀ (a n : Nat), (s.updLk x).hubRead a n = s.hubRead a n) ∧
    (∀ (a n : Nat), (s.updLk x).hubNat a n = s.hubNat a n) ∧ (∀ (n : Fin 3), (s.updLk x).ln n = s.ln n) ∧ (∀ (n : Fin 3) (m : Fin 4), (s.updLk x).pr n m = s.pr n m) ∧
    ((s.updLk x).isF = s.isF) ∧ ((s.updLk x).isS = s.isS) ∧ ((s.updLk x).nPairs = s.nPairs) ∧ (∀ (n m k : Nat), (s.updLk x).byVar n m k = s.byVar n m k) ∧
    (∀ (n : Nat), (s.updLk x).pagePresent n = s.pagePresent n) ∧ (∀ (n : Nat), (s.updLk x).islandPresent n = s.islandPresent n) ∧ ((s.updLk x).passive = s.passive) ∧
    (∀ (n : Fin 4), (s.updLk x).cr n = s.cr n) := by
  and_intros <;> intros <;> rfl

@[simp] theorem State.updU_reads (s : State) (x : UpdS → UpdS) :
    (∀ (g : Fld), (s.updU x).get g = s.get g) ∧ (∀ (g : Fld), (s.updU x).flag g = s.flag g) ∧ (∀ (g k : Fld), (s.updU x).get64 g k = s.get64 g k) ∧
    (∀ (n : Nat), (s.updU x).intStat n = s.intStat n) ∧ (∀ (n : Nat), (s.updU x).route n = s.route n) ∧ (∀ (n : Fin 3), (s.updU x).laneState n = s.laneState n) ∧
    (∀ (n : Nat), (s.updU x).lanesIn n = s.lanesIn n) ∧ ((s.updU x).voters = s.voters) ∧ (∀ (a n : Nat), (s.updU x).hubRead a n = s.hubRead a n) ∧
    (∀ (a n : Nat), (s.updU x).hubNat a n = s.hubNat a n) ∧ (∀ (n : Fin 3), (s.updU x).ln n = s.ln n) ∧ (∀ (n : Fin 3) (m : Fin 4), (s.updU x).pr n m = s.pr n m) ∧
    ((s.updU x).isF = s.isF) ∧ ((s.updU x).isS = s.isS) ∧ ((s.updU x).nPairs = s.nPairs) ∧ (∀ (n m k : Nat), (s.updU x).byVar n m k = s.byVar n m k) ∧
    (∀ (n : Nat), (s.updU x).pagePresent n = s.pagePresent n) ∧ (∀ (n : Nat), (s.updU x).islandPresent n = s.islandPresent n) ∧ ((s.updU x).passive = s.passive) ∧
    (∀ (n : Fin 4), (s.updU x).cr n = s.cr n) := by
  and_intros <;> intros <;> rfl

@[simp] theorem State.updPw_reads (s : State) (x : PwrS → PwrS) :
    (∀ (g : Fld), (s.updPw x).get g = s.get g) ∧ (∀ (g : Fld), (s.updPw x).flag g = s.flag g) ∧ (∀ (g k : Fld), (s.updPw x).get64 g k = s.get64 g k) ∧
    (∀ (n : Nat), (s.updPw x).intStat n = s.intStat n) ∧ (∀ (n : Nat), (s.updPw x).route n = s.route n) ∧ (∀ (n : Fin 3), (s.updPw x).laneState n = s.laneState n) ∧
    (∀ (n : Nat), (s.updPw x).lanesIn n = s.lanesIn n) ∧ ((s.updPw x).voters = s.voters) ∧ (∀ (a n : Nat), (s.updPw x).hubRead a n = s.hubRead a n) ∧
    (∀ (a n : Nat), (s.updPw x).hubNat a n = s.hubNat a n) ∧ (∀ (n : Fin 3), (s.updPw x).ln n = s.ln n) ∧ (∀ (n : Fin 3) (m : Fin 4), (s.updPw x).pr n m = s.pr n m) ∧
    ((s.updPw x).isF = s.isF) ∧ ((s.updPw x).isS = s.isS) ∧ ((s.updPw x).nPairs = s.nPairs) ∧ (∀ (n m k : Nat), (s.updPw x).byVar n m k = s.byVar n m k) ∧
    (∀ (n : Nat), (s.updPw x).pagePresent n = s.pagePresent n) ∧ (∀ (n : Nat), (s.updPw x).islandPresent n = s.islandPresent n) ∧ ((s.updPw x).passive = s.passive) ∧
    (∀ (n : Fin 4), (s.updPw x).cr n = s.cr n) := by
  and_intros <;> intros <;> rfl

@[simp] theorem State.updBr_reads (s : State) (x : BridgeS → BridgeS) :
    (∀ (g : Fld), (s.updBr x).get g = s.get g) ∧ (∀ (g : Fld), (s.updBr x).flag g = s.flag g) ∧ (∀ (g k : Fld), (s.updBr x).get64 g k = s.get64 g k) ∧
    (∀ (n : Nat), (s.updBr x).intStat n = s.intStat n) ∧ (∀ (n : Nat), (s.updBr x).route n = s.route n) ∧ (∀ (n : Fin 3), (s.updBr x).laneState n = s.laneState n) ∧
    (∀ (n : Nat), (s.updBr x).lanesIn n = s.lanesIn n) ∧ ((s.updBr x).voters = s.voters) ∧ (∀ (a n : Nat), (s.updBr x).hubRead a n = s.hubRead a n) ∧
    (∀ (a n : Nat), (s.updBr x).hubNat a n = s.hubNat a n) ∧ (∀ (n : Fin 3), (s.updBr x).ln n = s.ln n) ∧ (∀ (n : Fin 3) (m : Fin 4), (s.updBr x).pr n m = s.pr n m) ∧
    ((s.updBr x).isF = s.isF) ∧ ((s.updBr x).isS = s.isS) ∧ ((s.updBr x).nPairs = s.nPairs) ∧ (∀ (n m k : Nat), (s.updBr x).byVar n m k = s.byVar n m k) ∧
    (∀ (n : Nat), (s.updBr x).pagePresent n = s.pagePresent n) ∧ (∀ (n : Nat), (s.updBr x).islandPresent n = s.islandPresent n) ∧ ((s.updBr x).passive = s.passive) ∧
    (∀ (n : Fin 4), (s.updBr x).cr n = s.cr n) := by
  and_intros <;> intros <;> rfl

@[simp] theorem State.setPower_reads (s : State) (y : PowerSt) :
    (∀ (g : Fld), (s.setPower y).get g = s.get g) ∧ (∀ (g : Fld), (s.setPower y).flag g = s.flag g) ∧ (∀ (g k : Fld), (s.setPower y).get64 g k = s.get64 g k) ∧
    (∀ (n : Nat), (s.setPower y).intStat n = s.intStat n) ∧ (∀ (n : Nat), (s.setPower y).route n = s.route n) ∧
    (∀ (n : Fin 3), (s.setPower y).laneState n = s.laneState n) ∧ (∀ (n : Nat), (s.setPower y).lanesIn n = s.lanesIn n) ∧ ((s.setPower y).voters = s.voters) ∧
    (∀ (a n : Nat), (s.setPower y).hubRead a n = s.hubRead a n) ∧ (∀ (a n : Nat), (s.setPower y).hubNat a n = s.hubNat a n) ∧
    (∀ (n : Fin 3), (s.setPower y).ln n = s.ln n) ∧ (∀ (n : Fin 3) (m : Fin 4), (s.setPower y).pr n m = s.pr n m) ∧ ((s.setPower y).isF = s.isF) ∧
    ((s.setPower y).isS = s.isS) ∧ ((s.setPower y).nPairs = s.nPairs) ∧ (∀ (n m k : Nat), (s.setPower y).byVar n m k = s.byVar n m k) ∧
    (∀ (n : Nat), (s.setPower y).pagePresent n = s.pagePresent n) ∧ (∀ (n : Nat), (s.setPower y).islandPresent n = s.islandPresent n) ∧
    ((s.setPower y).passive = s.passive) ∧ (∀ (n : Fin 4), (s.setPower y).cr n = s.cr n) := by
  and_intros <;> intros <;> rfl

@[simp] theorem State.setCour_reads (s : State) (q : Quad CourS) :
    (∀ (g : Fld), (s.setCour q).get g = s.get g) ∧ (∀ (g : Fld), (s.setCour q).flag g = s.flag g) ∧ (∀ (g k : Fld), (s.setCour q).get64 g k = s.get64 g k) ∧
    (∀ (n : Nat), (s.setCour q).intStat n = s.intStat n) ∧ (∀ (n : Nat), (s.setCour q).route n = s.route n) ∧
    (∀ (n : Fin 3), (s.setCour q).laneState n = s.laneState n) ∧ (∀ (n : Nat), (s.setCour q).lanesIn n = s.lanesIn n) ∧ ((s.setCour q).voters = s.voters) ∧
    (∀ (a n : Nat), (s.setCour q).hubRead a n = s.hubRead a n) ∧ (∀ (a n : Nat), (s.setCour q).hubNat a n = s.hubNat a n) ∧
    (∀ (n : Fin 3), (s.setCour q).ln n = s.ln n) ∧ (∀ (n : Fin 3) (m : Fin 4), (s.setCour q).pr n m = s.pr n m) ∧ ((s.setCour q).isF = s.isF) ∧
    ((s.setCour q).isS = s.isS) ∧ ((s.setCour q).nPairs = s.nPairs) ∧ (∀ (n m k : Nat), (s.setCour q).byVar n m k = s.byVar n m k) ∧
    (∀ (n : Nat), (s.setCour q).pagePresent n = s.pagePresent n) ∧ (∀ (n : Nat), (s.setCour q).islandPresent n = s.islandPresent n) ∧
    ((s.setCour q).passive = s.passive) := by
  and_intros <;> intros <;> rfl

@[simp] theorem State.setCfg_reads (s : State) (q : Option SignedCfg) :
    (∀ (g : Fld), (s.setCfg q).get g = s.get g) ∧ (∀ (g : Fld), (s.setCfg q).flag g = s.flag g) ∧ (∀ (g k : Fld), (s.setCfg q).get64 g k = s.get64 g k) ∧
    (∀ (n : Nat), (s.setCfg q).intStat n = s.intStat n) ∧ (∀ (n : Nat), (s.setCfg q).route n = s.route n) ∧ (∀ (n : Fin 3), (s.setCfg q).laneState n = s.laneState n) ∧
    (∀ (n : Nat), (s.setCfg q).lanesIn n = s.lanesIn n) ∧ ((s.setCfg q).voters = s.voters) ∧ (∀ (a n : Nat), (s.setCfg q).hubRead a n = s.hubRead a n) ∧
    (∀ (a n : Nat), (s.setCfg q).hubNat a n = s.hubNat a n) ∧ (∀ (n : Fin 3), (s.setCfg q).ln n = s.ln n) ∧ (∀ (n : Fin 3) (m : Fin 4), (s.setCfg q).pr n m = s.pr n m) ∧
    ((s.setCfg q).isF = s.isF) ∧ ((s.setCfg q).isS = s.isS) ∧ ((s.setCfg q).nPairs = s.nPairs) ∧ (∀ (n m k : Nat), (s.setCfg q).byVar n m k = s.byVar n m k) ∧
    (∀ (n : Nat), (s.setCfg q).pagePresent n = s.pagePresent n) ∧ (∀ (n : Nat), (s.setCfg q).islandPresent n = s.islandPresent n) ∧ ((s.setCfg q).passive = s.passive) ∧
    (∀ (n : Fin 4), (s.setCfg q).cr n = s.cr n) := by
  and_intros <;> intros <;> rfl

@[simp] theorem State.setPolls_reads (s : State) (w : SMap PollS) :
    (∀ (g : Fld), (s.setPolls w).get g = s.get g) ∧ (∀ (g : Fld), (s.setPolls w).flag g = s.flag g) ∧ (∀ (g k : Fld), (s.setPolls w).get64 g k = s.get64 g k) ∧
    (∀ (n : Nat), (s.setPolls w).intStat n = s.intStat n) ∧ (∀ (n : Nat), (s.setPolls w).route n = s.route n) ∧
    (∀ (n : Fin 3), (s.setPolls w).laneState n = s.laneState n) ∧ (∀ (n : Nat), (s.setPolls w).lanesIn n = s.lanesIn n) ∧ ((s.setPolls w).voters = s.voters) ∧
    (∀ (a n : Nat), (s.setPolls w).hubRead a n = s.hubRead a n) ∧ (∀ (a n : Nat), (s.setPolls w).hubNat a n = s.hubNat a n) ∧
    (∀ (n : Fin 3), (s.setPolls w).ln n = s.ln n) ∧ (∀ (n : Fin 3) (m : Fin 4), (s.setPolls w).pr n m = s.pr n m) ∧ ((s.setPolls w).isF = s.isF) ∧
    ((s.setPolls w).isS = s.isS) ∧ ((s.setPolls w).nPairs = s.nPairs) ∧ (∀ (n m k : Nat), (s.setPolls w).byVar n m k = s.byVar n m k) ∧
    (∀ (n : Nat), (s.setPolls w).pagePresent n = s.pagePresent n) ∧ (∀ (n : Nat), (s.setPolls w).islandPresent n = s.islandPresent n) ∧
    ((s.setPolls w).passive = s.passive) ∧ (∀ (n : Fin 4), (s.setPolls w).cr n = s.cr n) := by
  and_intros <;> intros <;> rfl

@[simp] theorem State.setCans_reads (s : State) (w : SMap CanS) :
    (∀ (g : Fld), (s.setCans w).get g = s.get g) ∧ (∀ (g : Fld), (s.setCans w).flag g = s.flag g) ∧ (∀ (g k : Fld), (s.setCans w).get64 g k = s.get64 g k) ∧
    (∀ (n : Nat), (s.setCans w).intStat n = s.intStat n) ∧ (∀ (n : Nat), (s.setCans w).route n = s.route n) ∧
    (∀ (n : Fin 3), (s.setCans w).laneState n = s.laneState n) ∧ (∀ (n : Nat), (s.setCans w).lanesIn n = s.lanesIn n) ∧ ((s.setCans w).voters = s.voters) ∧
    (∀ (a n : Nat), (s.setCans w).hubRead a n = s.hubRead a n) ∧ (∀ (a n : Nat), (s.setCans w).hubNat a n = s.hubNat a n) ∧
    (∀ (n : Fin 3), (s.setCans w).ln n = s.ln n) ∧ (∀ (n : Fin 3) (m : Fin 4), (s.setCans w).pr n m = s.pr n m) ∧ ((s.setCans w).isF = s.isF) ∧
    ((s.setCans w).isS = s.isS) ∧ ((s.setCans w).nPairs = s.nPairs) ∧ (∀ (n m k : Nat), (s.setCans w).byVar n m k = s.byVar n m k) ∧
    (∀ (n : Nat), (s.setCans w).pagePresent n = s.pagePresent n) ∧ (∀ (n : Nat), (s.setCans w).islandPresent n = s.islandPresent n) ∧
    ((s.setCans w).passive = s.passive) ∧ (∀ (n : Fin 4), (s.setCans w).cr n = s.cr n) := by
  and_intros <;> intros <;> rfl

@[simp] theorem State.setIsl_reads (s : State) (w : SMap IslS) :
    (∀ (g : Fld), (s.setIsl w).get g = s.get g) ∧ (∀ (g : Fld), (s.setIsl w).flag g = s.flag g) ∧ (∀ (g k : Fld), (s.setIsl w).get64 g k = s.get64 g k) ∧
    (∀ (n : Nat), (s.setIsl w).intStat n = s.intStat n) ∧ (∀ (n : Nat), (s.setIsl w).route n = s.route n) ∧ (∀ (n : Fin 3), (s.setIsl w).laneState n = s.laneState n) ∧
    (∀ (n : Nat), (s.setIsl w).lanesIn n = s.lanesIn n) ∧ ((s.setIsl w).voters = s.voters) ∧ (∀ (a n : Nat), (s.setIsl w).hubRead a n = s.hubRead a n) ∧
    (∀ (a n : Nat), (s.setIsl w).hubNat a n = s.hubNat a n) ∧ (∀ (n : Fin 3), (s.setIsl w).ln n = s.ln n) ∧ (∀ (n : Fin 3) (m : Fin 4), (s.setIsl w).pr n m = s.pr n m) ∧
    ((s.setIsl w).isF = s.isF) ∧ ((s.setIsl w).isS = s.isS) ∧ ((s.setIsl w).nPairs = s.nPairs) ∧ (∀ (n m k : Nat), (s.setIsl w).byVar n m k = s.byVar n m k) ∧
    (∀ (n : Nat), (s.setIsl w).pagePresent n = s.pagePresent n) ∧ (∀ (n : Nat), (s.setIsl w).islandPresent n = s.islandPresent n) ∧ ((s.setIsl w).passive = s.passive) ∧
    (∀ (n : Fin 4), (s.setIsl w).cr n = s.cr n) := by
  and_intros <;> intros <;> rfl

@[simp] theorem State.setSpd_reads (s : State) (w : SMap SpdChan) :
    (∀ (g : Fld), (s.setSpd w).get g = s.get g) ∧ (∀ (g : Fld), (s.setSpd w).flag g = s.flag g) ∧ (∀ (g k : Fld), (s.setSpd w).get64 g k = s.get64 g k) ∧
    (∀ (n : Nat), (s.setSpd w).intStat n = s.intStat n) ∧ (∀ (n : Nat), (s.setSpd w).route n = s.route n) ∧ (∀ (n : Fin 3), (s.setSpd w).laneState n = s.laneState n) ∧
    (∀ (n : Nat), (s.setSpd w).lanesIn n = s.lanesIn n) ∧ ((s.setSpd w).voters = s.voters) ∧ (∀ (a n : Nat), (s.setSpd w).hubRead a n = s.hubRead a n) ∧
    (∀ (a n : Nat), (s.setSpd w).hubNat a n = s.hubNat a n) ∧ (∀ (n : Fin 3), (s.setSpd w).ln n = s.ln n) ∧ (∀ (n : Fin 3) (m : Fin 4), (s.setSpd w).pr n m = s.pr n m) ∧
    ((s.setSpd w).isF = s.isF) ∧ ((s.setSpd w).isS = s.isS) ∧ ((s.setSpd w).nPairs = s.nPairs) ∧ (∀ (n m k : Nat), (s.setSpd w).byVar n m k = s.byVar n m k) ∧
    (∀ (n : Nat), (s.setSpd w).pagePresent n = s.pagePresent n) ∧ (∀ (n : Nat), (s.setSpd w).islandPresent n = s.islandPresent n) ∧ ((s.setSpd w).passive = s.passive) ∧
    (∀ (n : Fin 4), (s.setSpd w).cr n = s.cr n) := by
  and_intros <;> intros <;> rfl

@[simp] theorem State.setSwRun_reads (s : State) (w : SMap Nat) :
    (∀ (g : Fld), (s.setSwRun w).get g = s.get g) ∧ (∀ (g : Fld), (s.setSwRun w).flag g = s.flag g) ∧ (∀ (g k : Fld), (s.setSwRun w).get64 g k = s.get64 g k) ∧
    (∀ (n : Nat), (s.setSwRun w).intStat n = s.intStat n) ∧ (∀ (n : Nat), (s.setSwRun w).route n = s.route n) ∧
    (∀ (n : Fin 3), (s.setSwRun w).laneState n = s.laneState n) ∧ (∀ (n : Nat), (s.setSwRun w).lanesIn n = s.lanesIn n) ∧ ((s.setSwRun w).voters = s.voters) ∧
    (∀ (a n : Nat), (s.setSwRun w).hubRead a n = s.hubRead a n) ∧ (∀ (a n : Nat), (s.setSwRun w).hubNat a n = s.hubNat a n) ∧
    (∀ (n : Fin 3), (s.setSwRun w).ln n = s.ln n) ∧ (∀ (n : Fin 3) (m : Fin 4), (s.setSwRun w).pr n m = s.pr n m) ∧ ((s.setSwRun w).isF = s.isF) ∧
    ((s.setSwRun w).isS = s.isS) ∧ ((s.setSwRun w).nPairs = s.nPairs) ∧ (∀ (n m k : Nat), (s.setSwRun w).byVar n m k = s.byVar n m k) ∧
    (∀ (n : Nat), (s.setSwRun w).pagePresent n = s.pagePresent n) ∧ (∀ (n : Nat), (s.setSwRun w).islandPresent n = s.islandPresent n) ∧
    ((s.setSwRun w).passive = s.passive) ∧ (∀ (n : Fin 4), (s.setSwRun w).cr n = s.cr n) := by
  and_intros <;> intros <;> rfl

@[simp] theorem State.setCounter_reads (s : State) (i : Nat) :
    (∀ (g : Fld), (s.setCounter i).get g = s.get g) ∧ (∀ (g : Fld), (s.setCounter i).flag g = s.flag g) ∧ (∀ (g k : Fld), (s.setCounter i).get64 g k = s.get64 g k) ∧
    (∀ (n : Nat), (s.setCounter i).intStat n = s.intStat n) ∧ (∀ (n : Nat), (s.setCounter i).route n = s.route n) ∧
    (∀ (n : Fin 3), (s.setCounter i).laneState n = s.laneState n) ∧ (∀ (n : Nat), (s.setCounter i).lanesIn n = s.lanesIn n) ∧ ((s.setCounter i).voters = s.voters) ∧
    (∀ (a n : Nat), (s.setCounter i).hubRead a n = s.hubRead a n) ∧ (∀ (a n : Nat), (s.setCounter i).hubNat a n = s.hubNat a n) ∧
    (∀ (n : Fin 3), (s.setCounter i).ln n = s.ln n) ∧ (∀ (n : Fin 3) (m : Fin 4), (s.setCounter i).pr n m = s.pr n m) ∧ ((s.setCounter i).isF = s.isF) ∧
    ((s.setCounter i).isS = s.isS) ∧ ((s.setCounter i).nPairs = s.nPairs) ∧ (∀ (n m k : Nat), (s.setCounter i).byVar n m k = s.byVar n m k) ∧
    (∀ (n : Nat), (s.setCounter i).pagePresent n = s.pagePresent n) ∧ (∀ (n : Nat), (s.setCounter i).islandPresent n = s.islandPresent n) ∧
    ((s.setCounter i).passive = s.passive) ∧ (∀ (n : Fin 4), (s.setCounter i).cr n = s.cr n) := by
  and_intros <;> intros <;> rfl

@[simp] theorem State.withPending_reads (s : State) (z : List Instr) :
    (∀ (g : Fld), (s.withPending z).get g = s.get g) ∧ (∀ (g : Fld), (s.withPending z).flag g = s.flag g) ∧ (∀ (g k : Fld), (s.withPending z).get64 g k = s.get64 g k) ∧
    (∀ (n : Nat), (s.withPending z).intStat n = s.intStat n) ∧ (∀ (n : Nat), (s.withPending z).route n = s.route n) ∧
    (∀ (n : Fin 3), (s.withPending z).laneState n = s.laneState n) ∧ (∀ (n : Nat), (s.withPending z).lanesIn n = s.lanesIn n) ∧ ((s.withPending z).voters = s.voters) ∧
    (∀ (a n : Nat), (s.withPending z).hubRead a n = s.hubRead a n) ∧ (∀ (a n : Nat), (s.withPending z).hubNat a n = s.hubNat a n) ∧
    (∀ (n : Fin 3), (s.withPending z).ln n = s.ln n) ∧ (∀ (n : Fin 3) (m : Fin 4), (s.withPending z).pr n m = s.pr n m) ∧ ((s.withPending z).isF = s.isF) ∧
    ((s.withPending z).isS = s.isS) ∧ ((s.withPending z).nPairs = s.nPairs) ∧ (∀ (n m k : Nat), (s.withPending z).byVar n m k = s.byVar n m k) ∧
    (∀ (n : Nat), (s.withPending z).pagePresent n = s.pagePresent n) ∧ (∀ (n : Nat), (s.withPending z).islandPresent n = s.islandPresent n) ∧
    ((s.withPending z).passive = s.passive) ∧ (∀ (n : Fin 4), (s.withPending z).cr n = s.cr n) := by
  and_intros <;> intros <;> rfl

@[simp] theorem State.setLatch_reads (s : State) (z : Tri Bool) (i : Nat) :
    (∀ (g : Fld), (s.setLatch z i).get g = s.get g) ∧ (∀ (g : Fld), (s.setLatch z i).flag g = s.flag g) ∧ (∀ (g k : Fld), (s.setLatch z i).get64 g k = s.get64 g k) ∧
    (∀ (n : Nat), (s.setLatch z i).intStat n = s.intStat n) ∧ (∀ (n : Nat), (s.setLatch z i).route n = s.route n) ∧
    (∀ (n : Fin 3), (s.setLatch z i).laneState n = s.laneState n) ∧ (∀ (n : Nat), (s.setLatch z i).lanesIn n = s.lanesIn n) ∧ ((s.setLatch z i).voters = s.voters) ∧
    (∀ (a n : Nat), (s.setLatch z i).hubRead a n = s.hubRead a n) ∧ (∀ (a n : Nat), (s.setLatch z i).hubNat a n = s.hubNat a n) ∧
    (∀ (n : Fin 3), (s.setLatch z i).ln n = s.ln n) ∧ (∀ (n : Fin 3) (m : Fin 4), (s.setLatch z i).pr n m = s.pr n m) ∧ ((s.setLatch z i).isF = s.isF) ∧
    ((s.setLatch z i).isS = s.isS) ∧ ((s.setLatch z i).nPairs = s.nPairs) ∧ (∀ (n m k : Nat), (s.setLatch z i).byVar n m k = s.byVar n m k) ∧
    (∀ (n : Nat), (s.setLatch z i).pagePresent n = s.pagePresent n) ∧ (∀ (n : Nat), (s.setLatch z i).islandPresent n = s.islandPresent n) ∧
    (∀ (n : Fin 4), (s.setLatch z i).cr n = s.cr n) := by
  and_intros <;> intros <;> rfl

@[simp] theorem State.setWire_reads (s : State) (j : Nat) (r : List Byte) :
    (∀ (g : Fld), (s.setWire j r).get g = s.get g) ∧ (∀ (g : Fld), (s.setWire j r).flag g = s.flag g) ∧ (∀ (g k : Fld), (s.setWire j r).get64 g k = s.get64 g k) ∧
    (∀ (n : Nat), (s.setWire j r).intStat n = s.intStat n) ∧ (∀ (n : Nat), (s.setWire j r).route n = s.route n) ∧
    (∀ (n : Fin 3), (s.setWire j r).laneState n = s.laneState n) ∧ (∀ (n : Nat), (s.setWire j r).lanesIn n = s.lanesIn n) ∧ ((s.setWire j r).voters = s.voters) ∧
    (∀ (a n : Nat), (s.setWire j r).hubRead a n = s.hubRead a n) ∧ (∀ (a n : Nat), (s.setWire j r).hubNat a n = s.hubNat a n) ∧
    (∀ (n : Fin 3), (s.setWire j r).ln n = s.ln n) ∧ (∀ (n : Fin 3) (m : Fin 4), (s.setWire j r).pr n m = s.pr n m) ∧ ((s.setWire j r).isF = s.isF) ∧
    ((s.setWire j r).isS = s.isS) ∧ ((s.setWire j r).nPairs = s.nPairs) ∧ (∀ (n m k : Nat), (s.setWire j r).byVar n m k = s.byVar n m k) ∧
    (∀ (n : Nat), (s.setWire j r).pagePresent n = s.pagePresent n) ∧ (∀ (n : Nat), (s.setWire j r).islandPresent n = s.islandPresent n) ∧
    ((s.setWire j r).passive = s.passive) ∧ (∀ (n : Fin 4), (s.setWire j r).cr n = s.cr n) := by
  and_intros <;> intros <;> rfl

@[simp] theorem State.draw_reads (s : State) :
    (∀ (g : Fld), (s.draw).get g = s.get g) ∧ (∀ (g : Fld), (s.draw).flag g = s.flag g) ∧ (∀ (g k : Fld), (s.draw).get64 g k = s.get64 g k) ∧
    (∀ (n : Nat), (s.draw).intStat n = s.intStat n) ∧ (∀ (n : Nat), (s.draw).route n = s.route n) ∧ (∀ (n : Fin 3), (s.draw).laneState n = s.laneState n) ∧
    (∀ (n : Nat), (s.draw).lanesIn n = s.lanesIn n) ∧ ((s.draw).voters = s.voters) ∧ (∀ (a n : Nat), (s.draw).hubRead a n = s.hubRead a n) ∧
    (∀ (a n : Nat), (s.draw).hubNat a n = s.hubNat a n) ∧ (∀ (n : Fin 3), (s.draw).ln n = s.ln n) ∧ (∀ (n : Fin 3) (m : Fin 4), (s.draw).pr n m = s.pr n m) ∧
    ((s.draw).isF = s.isF) ∧ ((s.draw).isS = s.isS) ∧ ((s.draw).nPairs = s.nPairs) ∧ (∀ (n m k : Nat), (s.draw).byVar n m k = s.byVar n m k) ∧
    (∀ (n : Nat), (s.draw).pagePresent n = s.pagePresent n) ∧ (∀ (n : Nat), (s.draw).islandPresent n = s.islandPresent n) ∧ ((s.draw).passive = s.passive) ∧
    (∀ (n : Fin 4), (s.draw).cr n = s.cr n) := by
  and_intros <;> intros <;> rfl

@[simp] theorem State.updC_reads (s : State) (y : Fin 4) (x : CourS → CourS) :
    (∀ (g : Fld), (s.updC y x).get g = s.get g) ∧ (∀ (g : Fld), (s.updC y x).flag g = s.flag g) ∧ (∀ (g k : Fld), (s.updC y x).get64 g k = s.get64 g k) ∧
    (∀ (n : Nat), (s.updC y x).intStat n = s.intStat n) ∧ (∀ (n : Nat), (s.updC y x).route n = s.route n) ∧ (∀ (n : Fin 3), (s.updC y x).laneState n = s.laneState n) ∧
    (∀ (n : Nat), (s.updC y x).lanesIn n = s.lanesIn n) ∧ ((s.updC y x).voters = s.voters) ∧ (∀ (a n : Nat), (s.updC y x).hubRead a n = s.hubRead a n) ∧
    (∀ (a n : Nat), (s.updC y x).hubNat a n = s.hubNat a n) ∧ (∀ (n : Fin 3), (s.updC y x).ln n = s.ln n) ∧ (∀ (n : Fin 3) (m : Fin 4), (s.updC y x).pr n m = s.pr n m) ∧
    ((s.updC y x).isF = s.isF) ∧ ((s.updC y x).isS = s.isS) ∧ ((s.updC y x).nPairs = s.nPairs) ∧ (∀ (n m k : Nat), (s.updC y x).byVar n m k = s.byVar n m k) ∧
    (∀ (n : Nat), (s.updC y x).pagePresent n = s.pagePresent n) ∧ (∀ (n : Nat), (s.updC y x).islandPresent n = s.islandPresent n) ∧
    ((s.updC y x).passive = s.passive) := by
  and_intros <;> intros <;> rfl

@[simp] theorem State.updL_reads (s : State) (z : Fin 3) (x : LaneS → LaneS) :
    (∀ (g : Fld), (s.updL z x).get g = s.get g) ∧ (∀ (g : Fld), (s.updL z x).flag g = s.flag g) ∧ (∀ (g k : Fld), (s.updL z x).get64 g k = s.get64 g k) ∧
    (∀ (n : Nat), (s.updL z x).intStat n = s.intStat n) ∧ (∀ (n : Nat), (s.updL z x).route n = s.route n) ∧ (∀ (n : Fin 3), (s.updL z x).laneState n = s.laneState n) ∧
    (∀ (n : Nat), (s.updL z x).lanesIn n = s.lanesIn n) ∧ ((s.updL z x).voters = s.voters) ∧ (∀ (a n : Nat), (s.updL z x).hubRead a n = s.hubRead a n) ∧
    (∀ (a n : Nat), (s.updL z x).hubNat a n = s.hubNat a n) ∧ ((s.updL z x).isF = s.isF) ∧ ((s.updL z x).isS = s.isS) ∧ ((s.updL z x).nPairs = s.nPairs) ∧
    (∀ (n m k : Nat), (s.updL z x).byVar n m k = s.byVar n m k) ∧ (∀ (n : Nat), (s.updL z x).pagePresent n = s.pagePresent n) ∧
    (∀ (n : Nat), (s.updL z x).islandPresent n = s.islandPresent n) ∧ ((s.updL z x).passive = s.passive) ∧ (∀ (n : Fin 4), (s.updL z x).cr n = s.cr n) := by
  and_intros <;> intros <;> rfl

@[simp] theorem State.updP_reads (s : State) (z : Fin 3) (y : Fin 4) (x : PairS → PairS) :
    (∀ (g : Fld), (s.updP z y x).get g = s.get g) ∧ (∀ (g : Fld), (s.updP z y x).flag g = s.flag g) ∧ (∀ (g k : Fld), (s.updP z y x).get64 g k = s.get64 g k) ∧
    (∀ (n : Nat), (s.updP z y x).intStat n = s.intStat n) ∧ (∀ (n : Nat), (s.updP z y x).route n = s.route n) ∧
    (∀ (n : Fin 3), (s.updP z y x).laneState n = s.laneState n) ∧ (∀ (n : Nat), (s.updP z y x).lanesIn n = s.lanesIn n) ∧ ((s.updP z y x).voters = s.voters) ∧
    (∀ (a n : Nat), (s.updP z y x).hubRead a n = s.hubRead a n) ∧ (∀ (a n : Nat), (s.updP z y x).hubNat a n = s.hubNat a n) ∧ ((s.updP z y x).isF = s.isF) ∧
    ((s.updP z y x).isS = s.isS) ∧ ((s.updP z y x).nPairs = s.nPairs) ∧ (∀ (n m k : Nat), (s.updP z y x).byVar n m k = s.byVar n m k) ∧
    (∀ (n : Nat), (s.updP z y x).pagePresent n = s.pagePresent n) ∧ (∀ (n : Nat), (s.updP z y x).islandPresent n = s.islandPresent n) ∧
    ((s.updP z y x).passive = s.passive) ∧ (∀ (n : Fin 4), (s.updP z y x).cr n = s.cr n) := by
  and_intros <;> intros <;> rfl

@[simp] theorem State.set_reads (s : State) (x : Fld) (i : Nat) :
    (∀ (a n : Nat), (s.set x i).hubRead a n = s.hubRead a n) ∧ (∀ (a n : Nat), (s.set x i).hubNat a n = s.hubNat a n) ∧ (∀ (n : Fin 3), (s.set x i).ln n = s.ln n) ∧
    (∀ (n : Fin 3) (m : Fin 4), (s.set x i).pr n m = s.pr n m) ∧ ((s.set x i).isF = s.isF) ∧ ((s.set x i).isS = s.isS) ∧ ((s.set x i).nPairs = s.nPairs) ∧
    (∀ (n m k : Nat), (s.set x i).byVar n m k = s.byVar n m k) ∧ (∀ (n : Nat), (s.set x i).pagePresent n = s.pagePresent n) ∧
    (∀ (n : Nat), (s.set x i).islandPresent n = s.islandPresent n) ∧ ((s.set x i).passive = s.passive) ∧ (∀ (n : Fin 4), (s.set x i).cr n = s.cr n) := by
  and_intros <;> intros <;> rfl

@[simp] theorem State.hubWrite_reads (s : State) (o : Nat) (r : List Byte) :
    (∀ (g : Fld), (s.hubWrite o r).get g = s.get g) ∧ (∀ (g : Fld), (s.hubWrite o r).flag g = s.flag g) ∧ (∀ (g k : Fld), (s.hubWrite o r).get64 g k = s.get64 g k) ∧
    (∀ (n : Nat), (s.hubWrite o r).intStat n = s.intStat n) ∧ (∀ (n : Nat), (s.hubWrite o r).route n = s.route n) ∧
    (∀ (n : Fin 3), (s.hubWrite o r).laneState n = s.laneState n) ∧ (∀ (n : Nat), (s.hubWrite o r).lanesIn n = s.lanesIn n) ∧ ((s.hubWrite o r).voters = s.voters) ∧
    (∀ (n : Fin 3), (s.hubWrite o r).ln n = s.ln n) ∧ (∀ (n : Fin 3) (m : Fin 4), (s.hubWrite o r).pr n m = s.pr n m) ∧ ((s.hubWrite o r).isF = s.isF) ∧
    ((s.hubWrite o r).isS = s.isS) ∧ ((s.hubWrite o r).nPairs = s.nPairs) ∧ (∀ (n m k : Nat), (s.hubWrite o r).byVar n m k = s.byVar n m k) ∧
    (∀ (n : Nat), (s.hubWrite o r).pagePresent n = s.pagePresent n) ∧ (∀ (n : Nat), (s.hubWrite o r).islandPresent n = s.islandPresent n) ∧
    ((s.hubWrite o r).passive = s.passive) ∧ (∀ (n : Fin 4), (s.hubWrite o r).cr n = s.cr n) := by
  and_intros <;> intros <;> rfl

@[simp] theorem State.hubCut_reads (s : State) (y : Nat × Byte → Bool) :
    (∀ (g : Fld), (s.hubCut y).get g = s.get g) ∧ (∀ (g : Fld), (s.hubCut y).flag g = s.flag g) ∧ (∀ (g k : Fld), (s.hubCut y).get64 g k = s.get64 g k) ∧
    (∀ (n : Nat), (s.hubCut y).intStat n = s.intStat n) ∧ (∀ (n : Nat), (s.hubCut y).route n = s.route n) ∧ (∀ (n : Fin 3), (s.hubCut y).laneState n = s.laneState n) ∧
    (∀ (n : Nat), (s.hubCut y).lanesIn n = s.lanesIn n) ∧ ((s.hubCut y).voters = s.voters) ∧ (∀ (n : Fin 3), (s.hubCut y).ln n = s.ln n) ∧
    (∀ (n : Fin 3) (m : Fin 4), (s.hubCut y).pr n m = s.pr n m) ∧ ((s.hubCut y).isF = s.isF) ∧ ((s.hubCut y).isS = s.isS) ∧ ((s.hubCut y).nPairs = s.nPairs) ∧
    (∀ (n m k : Nat), (s.hubCut y).byVar n m k = s.byVar n m k) ∧ (∀ (n : Nat), (s.hubCut y).pagePresent n = s.pagePresent n) ∧
    (∀ (n : Nat), (s.hubCut y).islandPresent n = s.islandPresent n) ∧ ((s.hubCut y).passive = s.passive) ∧ (∀ (n : Fin 4), (s.hubCut y).cr n = s.cr n) := by
  and_intros <;> intros <;> rfl

@[simp] theorem State.flashPut_reads (s : State) (j : Nat) (r : List Byte) :
    (∀ (g : Fld), (s.flashPut j r).get g = s.get g) ∧ (∀ (g : Fld), (s.flashPut j r).flag g = s.flag g) ∧ (∀ (g k : Fld), (s.flashPut j r).get64 g k = s.get64 g k) ∧
    (∀ (n : Nat), (s.flashPut j r).intStat n = s.intStat n) ∧ (∀ (n : Nat), (s.flashPut j r).route n = s.route n) ∧
    (∀ (n : Fin 3), (s.flashPut j r).laneState n = s.laneState n) ∧ (∀ (n : Nat), (s.flashPut j r).lanesIn n = s.lanesIn n) ∧ ((s.flashPut j r).voters = s.voters) ∧
    (∀ (a n : Nat), (s.flashPut j r).hubRead a n = s.hubRead a n) ∧ (∀ (a n : Nat), (s.flashPut j r).hubNat a n = s.hubNat a n) ∧
    (∀ (n : Fin 3), (s.flashPut j r).ln n = s.ln n) ∧ (∀ (n : Fin 3) (m : Fin 4), (s.flashPut j r).pr n m = s.pr n m) ∧ ((s.flashPut j r).isF = s.isF) ∧
    ((s.flashPut j r).isS = s.isS) ∧ ((s.flashPut j r).nPairs = s.nPairs) ∧ (∀ (n m k : Nat), (s.flashPut j r).byVar n m k = s.byVar n m k) ∧
    (∀ (n : Nat), (s.flashPut j r).pagePresent n = s.pagePresent n) ∧ (∀ (n : Nat), (s.flashPut j r).islandPresent n = s.islandPresent n) ∧
    ((s.flashPut j r).passive = s.passive) ∧ (∀ (n : Fin 4), (s.flashPut j r).cr n = s.cr n) := by
  and_intros <;> intros <;> rfl

@[simp] theorem State.flashCut_reads (s : State) (y : Nat × Byte → Bool) :
    (∀ (g : Fld), (s.flashCut y).get g = s.get g) ∧ (∀ (g : Fld), (s.flashCut y).flag g = s.flag g) ∧ (∀ (g k : Fld), (s.flashCut y).get64 g k = s.get64 g k) ∧
    (∀ (n : Nat), (s.flashCut y).intStat n = s.intStat n) ∧ (∀ (n : Nat), (s.flashCut y).route n = s.route n) ∧
    (∀ (n : Fin 3), (s.flashCut y).laneState n = s.laneState n) ∧ (∀ (n : Nat), (s.flashCut y).lanesIn n = s.lanesIn n) ∧ ((s.flashCut y).voters = s.voters) ∧
    (∀ (a n : Nat), (s.flashCut y).hubRead a n = s.hubRead a n) ∧ (∀ (a n : Nat), (s.flashCut y).hubNat a n = s.hubNat a n) ∧
    (∀ (n : Fin 3), (s.flashCut y).ln n = s.ln n) ∧ (∀ (n : Fin 3) (m : Fin 4), (s.flashCut y).pr n m = s.pr n m) ∧ ((s.flashCut y).isF = s.isF) ∧
    ((s.flashCut y).isS = s.isS) ∧ ((s.flashCut y).nPairs = s.nPairs) ∧ (∀ (n m k : Nat), (s.flashCut y).byVar n m k = s.byVar n m k) ∧
    (∀ (n : Nat), (s.flashCut y).pagePresent n = s.pagePresent n) ∧ (∀ (n : Nat), (s.flashCut y).islandPresent n = s.islandPresent n) ∧
    ((s.flashCut y).passive = s.passive) ∧ (∀ (n : Fin 4), (s.flashCut y).cr n = s.cr n) := by
  and_intros <;> intros <;> rfl

end Sys2Proof.Machine
end

