-- ==== Sys2Proof/Laws/Runs.lean ====
section
/-! SUPPORT. What a unit of a lane and a write of a register come to where nothing stands in their way. -/

namespace Sys2Proof.Machine

@[simp] theorem Tri.get_set_same {α : Type} (t : Tri α) (i : Fin 3) (x : α) : (t.set i x).get i = x := by
  match i with
  | 0 => rfl
  | 1 => rfl
  | 2 => rfl

theorem Tri.get_set_ne {α : Type} {t : Tri α} {i j : Fin 3} {x : α} (h : j ≠ i) : (t.set i x).get j = t.get j := by
  match i, j with
  | 0, 0 => exact absurd rfl h
  | 1, 1 => exact absurd rfl h
  | 2, 2 => exact absurd rfl h
  | 0, 1 => rfl
  | 0, 2 => rfl
  | 1, 0 => rfl
  | 1, 2 => rfl
  | 2, 0 => rfl
  | 2, 1 => rfl

@[simp] theorem Quad.get_set_same {α : Type} (t : Quad α) (i : Fin 4) (x : α) : (t.set i x).get i = x := by
  match i with
  | 0 => rfl
  | 1 => rfl
  | 2 => rfl
  | 3 => rfl

theorem Quad.get_set_ne {α : Type} {t : Quad α} {i j : Fin 4} {x : α} (h : j ≠ i) : (t.set i x).get j = t.get j := by
  match i, j with
  | 0, 0 => exact absurd rfl h
  | 1, 1 => exact absurd rfl h
  | 2, 2 => exact absurd rfl h
  | 3, 3 => exact absurd rfl h
  | 0, 1 => rfl
  | 0, 2 => rfl
  | 0, 3 => rfl
  | 1, 0 => rfl
  | 1, 2 => rfl
  | 1, 3 => rfl
  | 2, 0 => rfl
  | 2, 1 => rfl
  | 2, 3 => rfl
  | 3, 0 => rfl
  | 3, 1 => rfl
  | 3, 2 => rfl

@[simp] theorem State.ln_updL (s : State) (l : Fin 3) (f : LaneS → LaneS) : (s.updL l f).ln l = f (s.ln l) := Tri.get_set_same _ _ _

theorem State.ln_updL_ne {s : State} {l m : Fin 3} {f : LaneS → LaneS} (h : m ≠ l) : (s.updL l f).ln m = s.ln m := Tri.get_set_ne h

@[simp] theorem State.pr_updP (s : State) (l : Fin 3) (p : Fin 4) (f : PairS → PairS) : (s.updP l p f).pr l p = f (s.pr l p) := by
  simp only [State.pr, State.updP, State.ln_updL, Quad.get_set_same]

theorem State.pr_updP_ne {s : State} {l m : Fin 3} {p r : Fin 4} {f : PairS → PairS} (h : m ≠ l ∨ r ≠ p) :
    (s.updP l p f).pr m r = s.pr m r := by
  unfold State.pr State.updP
  by_cases e : m = l
  · subst e
    rw [State.ln_updL]
    exact Quad.get_set_ne (h.resolve_left fun x => x rfl)
  · rw [State.ln_updL_ne e]

/-- A pair replaced by itself. -/
theorem State.updP_self (s : State) (l : Fin 3) (p : Fin 4) : (s.updP l p fun _ => s.pr l p) = s := by
  match l, p with
  | 0, 0 => rfl
  | 0, 1 => rfl
  | 0, 2 => rfl
  | 0, 3 => rfl
  | 1, 0 => rfl
  | 1, 1 => rfl
  | 1, 2 => rfl
  | 1, 3 => rfl
  | 2, 0 => rfl
  | 2, 1 => rfl
  | 2, 2 => rfl
  | 2, 3 => rfl

/-- Two changes of a pair in a row. -/
theorem State.updP_updP (s : State) (l : Fin 3) (p : Fin 4) (f g : PairS → PairS) :
    (s.updP l p f).updP l p g = s.updP l p fun q => g (f q) := by
  match l, p with
  | 0, 0 => rfl
  | 0, 1 => rfl
  | 0, 2 => rfl
  | 0, 3 => rfl
  | 1, 0 => rfl
  | 1, 1 => rfl
  | 1, 2 => rfl
  | 1, 3 => rfl
  | 2, 0 => rfl
  | 2, 1 => rfl
  | 2, 2 => rfl
  | 2, 3 => rfl

/-- A legal, permitted instruction of a pair that runs is its body. -/
theorem State.unit_of_runs {s : State} {l : Fin 3} {p : Fin 4} {fp : Bool} {body : State → State} (h : s.runs l p)
    (hf : fp = false ∨ (s.pr l p).fpOn) : s.unit l p false false fp body = body s := by
  obtain ⟨h1, h2, h3⟩ := h
  unfold State.unit
  simp only [h1, Bool.not_true, Bool.false_eq_true, if_false, h2, State.updP_self]
  have hx : (if s.laneState l = lBoot then none else s.rangeFault l p .fetch (s.pr l p).pc.toNat 4) = none := by
    split
    · rfl
    · rename_i hb; exact h3.resolve_left hb
  rw [hx]
  have hy : ¬ ((fp && decide ((s.pr l p).level = 0) && !(s.pr l p).st 3) = true) := by
    rcases hf with h | h | h <;> simp [h]
  simp [hy]

theorem State.unitP_of_runs {s : State} {l : Fin 3} {p : Fin 4} {fp : Bool} {f : PairS → PairS} (h : s.runs l p)
    (hf : fp = false ∨ (s.pr l p).fpOn) : s.unitP l p false false fp f = s.updP l p fun q => (f q).retire :=
  State.unit_of_runs h hf

/-- A write of the runtime or the monitor that reaches its register has the register's effect. -/
theorem State.writeAt_of_reaches {s : State} {a : Acc} {page off : Nat} {f : State → State} (h : s.reaches a page off) :
    s.writeAt a page off f = f s := by
  obtain ⟨h1, h2, h3, h4⟩ := h
  have hn : s.noteAccess a = s := by unfold State.noteAccess; rw [if_neg h3]
  unfold State.writeAt
  simp [hn, h1, h2, h4]

/-- An access leaves its tenant's pair behind and nothing else (06 R162). -/
theorem State.noteAccess_eq (s : State) (a : Acc) : ∃ f, s.noteAccess a = s.updCyc f := by
  unfold State.noteAccess
  split
  · exact ⟨_, rfl⟩
  · exact ⟨fun c => c, rfl⟩

@[simp] theorem State.noteAccess_reads (s : State) (a : Acc) :
    (∀ g : Fld, (s.noteAccess a).get g = s.get g) ∧ (∀ g : Fld, (s.noteAccess a).flag g = s.flag g) ∧ (s.noteAccess a).power = s.power ∧
    (s.noteAccess a).variant = s.variant ∧ (∀ n, (s.noteAccess a).pagePresent n = s.pagePresent n) ∧ (s.noteAccess a).memctl = s.memctl ∧
    (s.noteAccess a).queues = s.queues ∧ (∀ n m k w, (s.noteAccess a).pageRefused n m k w true = s.pageRefused n m k w true) := by
  obtain ⟨f, hf⟩ := State.noteAccess_eq s a
  rw [hf]
  and_intros <;> intros <;> rfl

/-- A write that reaches its register has the register's effect after the note of R162. -/
theorem State.writeAt_of_opens {s : State} {a : Acc} {page off : Nat} {f : State → State} (h : s.opens a page off) :
    s.writeAt a page off f = f (s.noteAccess a) := by
  obtain ⟨h1, h2, h3⟩ := h
  unfold State.writeAt
  simp [h1, h2, h3]

end Sys2Proof.Machine
end

