-- ==== Sys2Proof/Laws/Frames.lean ====
section
/-! SUPPORT. What the operations shared by every unit leave alone: raising an interrupt, a Courier event, a Ledger record. -/

namespace Sys2Proof.Machine

variable {s t u : State} {ps : List Nat}

theorem State.keepsBut_refl : s.keepsBut s ps := ⟨rfl, fun _ _ => rfl⟩

theorem State.keepsBut_trans (h : s.keepsBut t ps) (g : t.keepsBut u ps) : s.keepsBut u ps :=
  ⟨g.1.trans h.1, fun f hf => (g.2 f hf).trans (h.2 f hf)⟩

theorem State.keepsBut_set {f : Fld} {v : Nat} (h : s.keepsBut t ps) (hp : f.pageOf ∈ ps) : s.keepsBut (t.set f v) ps := by
  refine ⟨h.1, fun g hg => ?_⟩
  rw [State.get_set_ne, h.2 g hg]
  intro e
  apply hg
  unfold Fld.pageOf at *
  rw [e]
  exact hp

theorem State.keepsBut_upd {f : State → State} (h : s.keepsBut t ps) (hr : (f t).rest = t.rest) (hg : (f t).regs = t.regs) : s.keepsBut (f t) ps :=
  ⟨hr.trans h.1, fun g hp => by rw [← h.2 g hp]; unfold State.get; rw [hg]⟩

theorem State.keepsBut_ite {c : Prop} [Decidable c] {a b : State} (ha : s.keepsBut a ps) (hb : s.keepsBut b ps) :
    s.keepsBut (if c then a else b) ps := by
  split
  · exact ha
  · exact hb

theorem State.keepsBut_updP {l : Fin 3} {p : Fin 4} {f : PairS → PairS} (h : s.keepsBut t ps) : s.keepsBut (t.updP l p f) ps :=
  State.keepsBut_upd h (f := fun t => t.updP l p f) rfl rfl

theorem State.keepsBut_updC {p : Fin 4} {f : CourS → CourS} (h : s.keepsBut t ps) : s.keepsBut (t.updC p f) ps :=
  State.keepsBut_upd h (f := fun t => t.updC p f) rfl rfl

theorem State.keepsBut_updLg {f : LedgerS → LedgerS} (h : s.keepsBut t ps) : s.keepsBut (t.updLg f) ps :=
  State.keepsBut_upd h (f := fun t => t.updLg f) rfl rfl

theorem State.keepsBut_hubWrite {o : Nat} {b : List Byte} (h : s.keepsBut t ps) : s.keepsBut (t.hubWrite o b) ps :=
  State.keepsBut_upd h (f := fun t => t.hubWrite o b) rfl rfl

theorem State.keepsBut_each {α : Type} {l : List α} {f : State → α → State} (h : s.keepsBut t ps)
    (hf : ∀ u a, s.keepsBut u ps → s.keepsBut (f u a) ps) : s.keepsBut (t.each l f) ps := by
  unfold State.each
  induction l generalizing t with
  | nil => exact h
  | cons a r ih => exact ih (hf t a h)

theorem State.keepsBut_courDeliver {src : Nat} (h : s.keepsBut t ps) (hp : 0x0A ∈ ps) : s.keepsBut (t.courDeliver src) ps := by
  unfold State.courDeliver
  have h1 : s.keepsBut (t.each (t.lanesIn lDebug) fun s l =>
      s.updP l (pairIx (t.route src).1) fun q => { q with pend := setBit q.pend src, prio := SMap.put q.prio src 0 (t.route src).2.2 }) ps :=
    State.keepsBut_each h fun _ _ hu => State.keepsBut_updP hu
  refine State.keepsBut_ite h (State.keepsBut_ite ?_ ?_)
  · exact State.keepsBut_set (State.keepsBut_set h1 hp) hp
  · exact State.keepsBut_updC h1

theorem State.keepsBut_courEvent {src : Nat} (h : s.keepsBut t ps) (hp : 0x0A ∈ ps) : s.keepsBut (t.courEvent src) ps := by
  unfold State.courEvent
  exact State.keepsBut_ite (State.keepsBut_courDeliver (State.keepsBut_courDeliver h hp) hp) (State.keepsBut_courDeliver h hp)

theorem rawOf_pageOf (n : Nat) : (rawOf n).pageOf = n % 128 := by
  show ((((0 * 128 + n) * 4096 + 0x020) * 32 + 0) / 131072) % 128 = n % 128
  omega

theorem State.keepsBut_raiseInt {page bit : Nat} (h : s.keepsBut t ps) (hp : 0x0A ∈ ps) (hq : page % 128 ∈ ps) : s.keepsBut (t.raiseInt page bit) ps := by
  unfold State.raiseInt
  have h1 := State.keepsBut_set (v := setBit (t.get (rawOf page)) bit) h (f := rawOf page) (by rw [rawOf_pageOf]; exact hq)
  exact State.keepsBut_ite (State.keepsBut_courEvent h1 hp) h1

theorem State.keepsBut_count {f : Fld} (h : s.keepsBut t ps) (hp : f.pageOf ∈ ps) : s.keepsBut (t.count f) ps := State.keepsBut_set h hp

theorem State.keepsBut_ledgerShow (h : s.keepsBut t ps) (h7 : 7 ∈ ps) : s.keepsBut t.ledgerShow ps := by
  unfold State.ledgerShow
  have h1 := State.keepsBut_set (f := LG_STAGED_0) (v := min 0xFFFF (t.ledger.recs.filter fun e => !e.flushed).length) h h7
  dsimp only
  split <;> split <;> split <;>
    first
      | exact h1
      | exact State.keepsBut_set h1 h7
      | exact State.keepsBut_set (State.keepsBut_set h1 h7) h7
      | exact State.keepsBut_set (State.keepsBut_set (State.keepsBut_set h1 h7) h7) h7

theorem State.keepsBut_ledgerPut {r : LKept} {k n : Nat} (h : s.keepsBut t ps) (h7 : 7 ∈ ps) (hA : 0x0A ∈ ps) : s.keepsBut (t.ledgerPut r k n) ps := by
  unfold State.ledgerPut
  dsimp only
  refine State.keepsBut_ite (State.keepsBut_raiseInt ?_ hA h7) ?_ <;>
    exact State.keepsBut_ledgerShow (State.keepsBut_hubWrite (State.keepsBut_updLg h)) h7

theorem lgDrop_page {k : Nat} (h : k < 8) : (LG_DROP_0 k).pageOf = 7 := by
  interval_cases k <;> decide

theorem lgOver_page {k : Nat} (h : k < 8) : (LG_OVERWR_0 k).pageOf = 7 := by
  interval_cases k <;> decide

theorem lgSupp_page (k : Nat) : (LG_R_SUPP_0 k).pageOf = 7 := by
  unfold Fld.pageOf Fld.key LG_R_SUPP_0
  dsimp only
  omega

theorem State.keepsBut_ledgerDrop {k : Nat} (h : s.keepsBut t ps) (hk : k < 8) (h7 : 7 ∈ ps) (hA : 0x0A ∈ ps) : s.keepsBut (t.ledgerDrop k) ps := by
  unfold State.ledgerDrop
  refine State.keepsBut_raiseInt (State.keepsBut_updLg (State.keepsBut_count (State.keepsBut_count h ?_) ?_)) hA h7
  · rw [lgDrop_page hk]; exact h7
  · exact h7

theorem State.keepsBut_ledgerPlace {r : LKept} (h : s.keepsBut t ps) (hk : r.sev < 8) (h7 : 7 ∈ ps) (hA : 0x0A ∈ ps) :
    s.keepsBut (t.ledgerPlace r) ps := by
  unfold State.ledgerPlace
  dsimp only
  split
  · exact State.keepsBut_ledgerPut h h7 hA
  · split
    · exact State.keepsBut_ledgerPut (State.keepsBut_updLg h) h7 hA
    · split
      · exact State.keepsBut_ledgerPut (State.keepsBut_updLg (State.keepsBut_count h (by rw [lgOver_page hk]; exact h7))) h7 hA
      · exact State.keepsBut_ledgerDrop h hk h7 hA

theorem State.keepsBut_ledgerKeep {r : LKept} (h : s.keepsBut t ps) (hk : r.sev < 8) (h7 : 7 ∈ ps) (hA : 0x0A ∈ ps) :
    s.keepsBut (t.ledgerKeep r) ps := by
  unfold State.ledgerKeep
  split
  · exact State.keepsBut_ledgerPlace h hk h7 hA
  · split
    · exact State.keepsBut_updLg h
    · exact State.keepsBut_count h (by rw [lgDrop_page hk]; exact h7)

theorem State.keepsBut_ledgerRefuse {b : Nat} (h : s.keepsBut t ps) (h7 : 7 ∈ ps) (hA : 0x0A ∈ ps) : s.keepsBut (t.ledgerRefuse b) ps := by
  unfold State.ledgerRefuse
  refine State.keepsBut_raiseInt (State.keepsBut_updLg (State.keepsBut_count h ?_)) hA h7
  split
  · rw [lgSupp_page]; exact h7
  · exact h7

theorem State.keepsBut_ledgerArrive {r : LRec} {sw tok : Bool} {n : Nat} (h : s.keepsBut t ps) (hk : r.sev < 8) (h7 : 7 ∈ ps) (hA : 0x0A ∈ ps) :
    s.keepsBut (t.ledgerArrive r sw tok n) ps := by
  unfold State.ledgerArrive
  dsimp only
  split
  · exact State.keepsBut_updLg (State.keepsBut_set (State.keepsBut_count h h7) h7)
  · split
    · split
      · split
        · exact State.keepsBut_hubWrite (State.keepsBut_updLg h)
        · exact State.keepsBut_ledgerKeep h hk h7 hA
      · exact State.keepsBut_ledgerKeep h hk h7 hA
    · split
      · split
        · exact State.keepsBut_ledgerKeep (State.keepsBut_updLg h) hk h7 hA
        · exact State.keepsBut_ledgerRefuse h h7 hA
      · exact State.keepsBut_ledgerKeep h hk h7 hA

theorem State.keepsBut_recordX {code sev tenant lanes : Nat} {ws : List Nat} (h : s.keepsBut t ps) (hk : sev < 8) (h7 : 7 ∈ ps) (hA : 0x0A ∈ ps) :
    s.keepsBut (t.recordX code sev tenant lanes ws) ps := State.keepsBut_ledgerArrive h hk h7 hA

theorem State.keepsBut_record {code sev : Nat} {ws : List Nat} (h : s.keepsBut t ps) (hk : sev < 8) (h7 : 7 ∈ ps) (hA : 0x0A ∈ ps) :
    s.keepsBut (t.record code sev ws) ps := State.keepsBut_recordX h hk h7 hA

theorem State.keepsBut_recordT {code sev tenant : Nat} {ws : List Nat} (h : s.keepsBut t ps) (hk : sev < 8) (h7 : 7 ∈ ps) (hA : 0x0A ∈ ps) :
    s.keepsBut (t.recordT code sev tenant ws) ps := State.keepsBut_recordX h hk h7 hA

/-! ## Reads over a raised interrupt or a record -/

@[simp] theorem State.rest_raiseInt (s : State) (page bit : Nat) : (s.raiseInt page bit).rest = s.rest :=
  (State.keepsBut_raiseInt (s := s) (t := s) (ps := [0x0A, page % 128]) State.keepsBut_refl (by simp) (by simp)).1

theorem State.get_raiseInt {page bit : Nat} {g : Fld} (h : g.pageOf ≠ 0x0A) (h' : g.pageOf ≠ page % 128) : (s.raiseInt page bit).get g = s.get g :=
  (State.keepsBut_raiseInt (s := s) (t := s) (ps := [0x0A, page % 128]) State.keepsBut_refl (by simp) (by simp)).2 g (by simp [h, h'])

theorem State.rest_record {code sev : Nat} {ws : List Nat} (h : sev < 8) : (s.record code sev ws).rest = s.rest :=
  (State.keepsBut_record (s := s) (t := s) (ps := [7, 0x0A]) State.keepsBut_refl h (by simp) (by simp)).1

theorem State.get_record {code sev : Nat} {ws : List Nat} {g : Fld} (h : sev < 8) (h1 : g.pageOf ≠ 7) (h2 : g.pageOf ≠ 0x0A) :
    (s.record code sev ws).get g = s.get g :=
  (State.keepsBut_record (s := s) (t := s) (ps := [7, 0x0A]) State.keepsBut_refl h (by simp) (by simp)).2 g (by simp [h1, h2])

end Sys2Proof.Machine
end

