-- ==== Sys2Proof/Laws/Courier.lean ====
section
/-! SUPPORT. What an event of a source does at the Courier, and what an interrupt latch does to its page. -/

namespace Sys2Proof.Machine

/-- A fold leaves a register alone when every step does. -/
theorem State.get_each {α : Type} {l : List α} {s : State} {f : State → α → State} {g : Fld} (h : ∀ u a, (f u a).get g = u.get g) :
    (s.each l f).get g = s.get g := by
  unfold State.each
  induction l generalizing s with
  | nil => rfl
  | cons a r ih => exact (ih (s := f s a)).trans (h s a)

/-- A fold leaves a pair's Courier state alone when every step does. -/
theorem State.cr_each {α : Type} {l : List α} {s : State} {f : State → α → State} {p : Fin 4} (h : ∀ u a, (f u a).cr p = u.cr p) :
    (s.each l f).cr p = s.cr p := by
  unfold State.each
  induction l generalizing s with
  | nil => rfl
  | cons a r ih => exact (ih (s := f s a)).trans (h s a)

theorem State.cr_updC (s : State) (p r : Fin 4) (f : CourS → CourS) : (s.updC p f).cr r = if r = p then f (s.cr p) else s.cr r := by
  unfold State.updC State.cr
  split
  · rename_i e; rw [e, Quad.get_set_same]
  · rename_i e; exact Quad.get_set_ne e

/-- The bits waiting at the Courier after an event: the source's own, at a pair that runs, where its route is enabled. -/
theorem State.courDeliver_waiting (s : State) (n : Nat) (p : Fin 4) (i : Nat) :
    bitOf ((s.courDeliver n).cr p).waiting i = (bitOf (s.cr p).waiting i ||
      ((s.route n).2.1 && !bitOf (s.get LM_PAIRSTOP_0) (pairIx (s.route n).1).val && decide (p = pairIx (s.route n).1) && decide (n = i))) := by
  unfold State.courDeliver
  rcases hr : s.route n with ⟨p0, en, prio⟩
  dsimp only
  have hc : ∀ r, (s.each (s.lanesIn lDebug) fun s' l => s'.updP l (pairIx p0) fun q =>
      { q with pend := setBit q.pend n, prio := SMap.put q.prio n 0 prio }).cr r = s.cr r := fun r => State.cr_each fun _ _ => rfl
  have hg : ∀ g, (s.each (s.lanesIn lDebug) fun s' l => s'.updP l (pairIx p0) fun q =>
      { q with pend := setBit q.pend n, prio := SMap.put q.prio n 0 prio }).get g = s.get g := fun g => State.get_each fun _ _ => rfl
  revert hc hg
  generalize (s.each (s.lanesIn lDebug) fun s' l => s'.updP l (pairIx p0) fun q =>
      { q with pend := setBit q.pend n, prio := SMap.put q.prio n 0 prio }) = u
  intro hc hg
  cases en
  · simp
  · simp only [Bool.not_true, Bool.false_eq_true, if_false, hg]
    cases h2 : bitOf (s.get LM_PAIRSTOP_0) (pairIx p0).val
    · simp only [Bool.false_eq_true, if_false, State.cr_updC, hc]
      by_cases e : p = pairIx p0
      · subst e; simp [bitOf_setBit]
      · simp [e]
    · simp only [if_true]
      show bitOf (u.cr p).waiting i = _
      rw [hc]; simp

/-- An event of an enabled source waits at the pair it is routed to, unless the pair has stopped. -/
theorem State.courEvent_waiting {s : State} {n : Nat} (h : (s.route n).2.1 = true) (h2 : bitOf (s.get LM_PAIRSTOP_0) (pairIx (s.route n).1).val = false) :
    bitOf ((s.courEvent n).cr (pairIx (s.route n).1)).waiting n = true := by
  have h1 : bitOf ((s.courDeliver n).cr (pairIx (s.route n).1)).waiting n = true := by simp [State.courDeliver_waiting, h, h2]
  unfold State.courEvent
  dsimp only
  split
  · rw [State.courDeliver_waiting, h1]; rfl
  · exact h1

/-- A source whose route is off has no effect. -/
theorem State.courDeliver_off {s : State} {n : Nat} (h : (s.route n).2.1 = false) : s.courDeliver n = s := by
  unfold State.courDeliver; simp [h]

theorem State.courEvent_off {s : State} {n : Nat} (h : (s.route n).2.1 = false) : s.courEvent n = s := by
  unfold State.courEvent; rw [State.courDeliver_off h]; dsimp only; split
  · rename_i e; simp at e
  · rfl

/-- An event changes registers of the Courier's page only. -/
theorem State.get_courEvent {s : State} {n : Nat} {g : Fld} (h : g.pageOf ≠ 0x0A) : (s.courEvent n).get g = s.get g :=
  (State.keepsBut_courEvent (ps := [0x0A]) State.keepsBut_refl (by simp)).2 g (by simpa using h)

theorem State.hub_each {α : Type} {l : List α} {s : State} {f : State → α → State} (h : ∀ u a, (f u a).hub = u.hub ∧ (f u a).ledger = u.ledger) :
    (s.each l f).hub = s.hub ∧ (s.each l f).ledger = s.ledger := by
  unfold State.each
  induction l generalizing s with
  | nil => exact ⟨rfl, rfl⟩
  | cons a r ih => exact ⟨(ih (s := f s a)).1.trans (h s a).1, (ih (s := f s a)).2.trans (h s a).2⟩

theorem State.courDeliver_hub (s : State) (n : Nat) : (s.courDeliver n).hub = s.hub ∧ (s.courDeliver n).ledger = s.ledger := by
  unfold State.courDeliver
  have h : ∀ f : Fin 4 → PairS → PairS, (s.each (s.lanesIn lDebug) fun s' l => s'.updP l (pairIx (s.route n).1) (f (pairIx (s.route n).1))).hub = s.hub ∧
      (s.each (s.lanesIn lDebug) fun s' l => s'.updP l (pairIx (s.route n).1) (f (pairIx (s.route n).1))).ledger = s.ledger := fun f => State.hub_each fun _ _ => ⟨rfl, rfl⟩
  dsimp only
  split
  · exact ⟨rfl, rfl⟩
  · split
    · exact h fun _ q => { q with pend := setBit q.pend n, prio := SMap.put q.prio n 0 (s.route n).2.2 }
    · exact h fun _ q => { q with pend := setBit q.pend n, prio := SMap.put q.prio n 0 (s.route n).2.2 }

/-- An event touches neither hub SRAM nor the Ledger. -/
theorem State.courEvent_hub (s : State) (n : Nat) : (s.courEvent n).hub = s.hub ∧ (s.courEvent n).ledger = s.ledger := by
  unfold State.courEvent
  dsimp only
  split
  · exact ⟨(State.courDeliver_hub _ _).1.trans (State.courDeliver_hub _ _).1, (State.courDeliver_hub _ _).2.trans (State.courDeliver_hub _ _).2⟩
  · exact State.courDeliver_hub _ _

/-- Raising an interrupt touches neither hub SRAM nor the Ledger. -/
theorem State.raiseInt_hub (s : State) (page bit : Nat) : (s.raiseInt page bit).hub = s.hub ∧ (s.raiseInt page bit).ledger = s.ledger := by
  unfold State.raiseInt
  dsimp only
  split
  · exact State.courEvent_hub _ _
  · exact ⟨rfl, rfl⟩

theorem State.clearInt_hub (s : State) (page v : Nat) : (s.clearInt page v).hub = s.hub ∧ (s.clearInt page v).ledger = s.ledger := by
  unfold State.clearInt
  dsimp only
  split
  · exact State.courEvent_hub _ _
  · exact ⟨rfl, rfl⟩

/-- INT_RAW of a page other than the Courier's after one of its conditions. -/
theorem State.raiseInt_raw {s : State} {page bit : Nat} (h : page < 128) (h' : page ≠ 0x0A) :
    (s.raiseInt page bit).get (rawOf page) = setBit (s.get (rawOf page)) bit % 2 ^ 32 := by
  have e : (rawOf page).pageOf ≠ 0x0A := by rw [rawOf_pageOf]; omega
  unfold State.raiseInt
  dsimp only
  split
  · rw [State.get_courEvent e]; exact State.get_set_same _ _ _
  · exact State.get_set_same _ _ _

end Sys2Proof.Machine
end

