-- ==== Sys2Proof/Laws/Crc.lean ====
section
/-! SUPPORT. Bounds of the reflected CRC, and big-endian numbers read back. -/

namespace Sys2Proof.Machine

theorem iter_inv {α : Type} {f : α → α} {P : α → Prop} (h : ∀ x, P x → P (f x)) : ∀ (n : Nat) (x : α), P x → P (iter f n x)
  | 0, _, hx => hx
  | n + 1, x, hx => iter_inv h n (f x) (h x hx)

theorem crcByteR_lt {poly crc byte : Nat} (hp : poly < 2 ^ 32) (hc : crc < 2 ^ 32) (hb : byte < 2 ^ 32) : crcByteR poly crc byte < 2 ^ 32 := by
  refine iter_inv (P := fun c => c < 2 ^ 32) (fun c h => ?_) 8 _ (Nat.xor_lt_two_pow hc hb)
  show (if c % 2 = 1 then (c / 2) ^^^ poly else c / 2) < 2 ^ 32
  split
  · exact Nat.xor_lt_two_pow (by omega) hp
  · omega

/-- CRC-32C stays within 32 bits. -/
theorem crc32c_lt (l : List Byte) {acc : Nat} (h : acc < 2 ^ 32) : crc32c acc l < 2 ^ 32 := by
  unfold crc32c crcR
  induction l generalizing acc with
  | nil => exact h
  | cons b r ih => exact ih (crcByteR_lt (by decide) h (Nat.lt_trans b.isLt (by decide)))

theorem beBytes_length (n v : Nat) : (beBytes n v).length = n := by
  have : ∀ n v, (leBytes n v).length = n := by
    intro n
    induction n with
    | zero => exact fun _ => rfl
    | succ n ih => exact fun v => congrArg (· + 1) (ih _)
  rw [beBytes, List.length_reverse, this]

/-- A number of n bytes reads back. -/
theorem beNat_beBytes (n v : Nat) : beNat (beBytes n v) = v % 256 ^ n := by
  have : ∀ n v, leNat (leBytes n v) = v % 256 ^ n := by
    intro n
    induction n with
    | zero => exact fun v => (Nat.mod_one v).symm
    | succ n ih =>
      intro v
      show (BitVec.ofNat 8 v).toNat + 256 * leNat (leBytes n (v / 256)) = _
      rw [ih, Nat.pow_succ', Nat.mod_mul]
      rfl
  rw [beNat, beBytes, List.reverse_reverse, this]

end Sys2Proof.Machine
end

