-- ==== Sys2Proof/Laws/Evolves.lean ====
section
/-! SUPPORT. What a command can do to the module, said once: Evolves s t holds where t comes from s by writes of register fields, of memory bytes, of fuses that
only burn, and by changes of state that no register file, memory or fuse holds. Invariants of a step follow by induction over it. -/

namespace Sys2Proof.Machine

/-- The fuses (21 R507, R508, R521): nothing is unburnt. -/
def LockS.burnsTo (a b : LockS) : Prop :=
  a.n ≤ b.n ∧ a.floor ≤ b.floor ∧ a.burnt1 ≤ b.burnt1 ∧ a.burnt2 ≤ b.burnt2 ∧ a.chip = b.chip ∧
  (∀ i, a.rev0.testBit i → b.rev0.testBit i) ∧ (∀ i, a.rev1.testBit i → b.rev1.testBit i) ∧ ∀ i, a.rev2.testBit i → b.rev2.testBit i

/-- The fuses of a Locksmith. -/
def LockS.fuses (k : LockS) : Nat × Nat × Nat × Nat × Nat × Nat × Nat × Nat :=
  (k.n, k.floor, k.burnt1, k.burnt2, k.chip, k.rev0, k.rev1, k.rev2)

/-- The lane memories. -/
def State.mems (s : State) : Tri (SMap Byte) := ⟨s.lanes.a.mem, s.lanes.b.mem, s.lanes.c.mem⟩

/-- Queue, variant, registers, memories and fuses. -/
def State.kept (s : State) : List Instr × Variant × SMap Nat × SMap Byte × SMap Byte × Tri (SMap Byte) × (Nat × Nat × Nat × Nat × Nat × Nat × Nat × Nat) :=
  (s.pending, s.variant, s.regs, s.hub, s.flash, s.mems, s.lock.fuses)

/-- t comes from s by a command's means. -/
inductive Evolves (s : State) : State → Prop
  | refl : Evolves s s
  | rest {t u : State} : Evolves s t → u.kept = t.kept → Evolves s u
  | set {t : State} (f : Fld) (v : Nat) : Evolves s t → Evolves s (t.set f v)
  | regsCut {t : State} (p : Nat × Nat → Bool) : Evolves s t → Evolves s { t with regs := t.regs.filter p }
  | regsPut {t : State} (k v : Nat) : Evolves s t → Evolves s { t with regs := SMap.insert (SMap.erase t.regs k) k v }
  | hubWrite {t : State} (o : Nat) (b : List Byte) : Evolves s t → Evolves s (t.hubWrite o b)
  | hubCut {t : State} (p : Nat × Byte → Bool) : Evolves s t → Evolves s (t.hubCut p)
  | hubFill {t : State} (o n x : Nat) : Evolves s t → Evolves s (t.hubFill o n x)
  | flashPut {t : State} (o : Nat) (b : List Byte) : Evolves s t → Evolves s (t.flashPut o b)
  | flashCut {t : State} (p : Nat × Byte → Bool) : Evolves s t → Evolves s (t.flashCut p)
  | memPut {t : State} (l : Fin 3) (k : Nat) (b : Byte) : Evolves s t → Evolves s (t.updL l fun n => { n with mem := SMap.put n.mem k 0 b })
  | memCut {t : State} (l : Fin 3) (p : Nat × Byte → Bool) : Evolves s t → Evolves s (t.memCut l p)
  | burn {t : State} (k : LockS) : Evolves s t → t.lock.burnsTo k → Evolves s { t with lock := k }

variable {s t : State}

theorem Evolves.trans {u : State} (h : Evolves s t) (g : Evolves t u) : Evolves s u := by
  induction g with
  | refl => exact h
  | rest _ e ih => exact .rest ih e
  | set f v _ ih => exact .set f v ih
  | regsCut p _ ih => exact .regsCut p ih
  | regsPut k v _ ih => exact .regsPut k v ih
  | hubWrite o b _ ih => exact .hubWrite o b ih
  | hubCut p _ ih => exact .hubCut p ih
  | hubFill o n x _ ih => exact .hubFill o n x ih
  | flashPut o b _ ih => exact .flashPut o b ih
  | flashCut p _ ih => exact .flashCut p ih
  | memPut l k b _ ih => exact .memPut l k b ih
  | memCut l p _ ih => exact .memCut l p ih
  | burn k _ hk ih => exact .burn k ih hk

theorem Evolves.ite {c : Prop} [Decidable c] {a b : State} (hb : Evolves s b) (ha : Evolves s b → Evolves s a) : Evolves s (if c then a else b) := by
  split
  · exact ha hb
  · exact hb

theorem State.each_ev {α : Type} {l : List α} {f : State → α → State} (h : Evolves s t) (hf : ∀ u a, Evolves s u → Evolves s (f u a)) :
    Evolves s (t.each l f) := by
  unfold State.each
  induction l generalizing t with
  | nil => exact h
  | cons a r ih => exact ih (hf t a h)

theorem foldl_ev {α β : Type} {g : β → State} {f : β → α → β} (hf : ∀ b a, Evolves s (g b) → Evolves s (g (f b a))) (l : List α) (b : β)
    (h : Evolves s (g b)) : Evolves s (g (l.foldl f b)) := by
  induction l generalizing b with
  | nil => exact h
  | cons a r ih => exact ih _ (hf b a h)

theorem State.on_ev {c : Bool} {f : State → State} (h : Evolves s t) (hf : ∀ u, Evolves s u → Evolves s (f u)) : Evolves s (t.on c f) := by
  unfold State.on
  split
  · exact hf t h
  · exact h

theorem State.set_ev {f : Fld} {v : Nat} (h : Evolves s t) : Evolves s (t.set f v) := .set f v h

theorem State.hubWrite_ev {o : Nat} {b : List Byte} (h : Evolves s t) : Evolves s (t.hubWrite o b) := .hubWrite o b h

theorem State.hubCut_ev {p : Nat × Byte → Bool} (h : Evolves s t) : Evolves s (t.hubCut p) := .hubCut p h

theorem State.hubFill_ev {o n x : Nat} (h : Evolves s t) : Evolves s (t.hubFill o n x) := .hubFill o n x h

theorem State.flashPut_ev {k : Nat} {b : List Byte} (h : Evolves s t) : Evolves s (t.flashPut k b) := .flashPut k b h

theorem State.flashCut_ev {p : Nat × Byte → Bool} (h : Evolves s t) : Evolves s (t.flashCut p) := .flashCut p h

theorem State.memCut_ev {l : Fin 3} {p : Nat × Byte → Bool} (h : Evolves s t) : Evolves s (t.memCut l p) := .memCut l p h

/-- A change of the Locksmith that burns nothing. -/
theorem State.updLk_ev {f : LockS → LockS} (h : Evolves s t) (hf : ∀ k, (f k).fuses = k.fuses) : Evolves s (t.updLk f) :=
  .rest h (by simp [State.kept, State.mems, State.updLk, hf])

theorem State.updLg_ev {f : LedgerS → LedgerS} (h : Evolves s t) : Evolves s (t.updLg f) := .rest h rfl

theorem State.updA_ev {f : AssayS → AssayS} (h : Evolves s t) : Evolves s (t.updA f) := .rest h rfl

theorem State.updM_ev {f : MgrS → MgrS} (h : Evolves s t) : Evolves s (t.updM f) := .rest h rfl

theorem State.updMc_ev {f : MemS → MemS} (h : Evolves s t) : Evolves s (t.updMc f) := .rest h rfl

theorem State.updK_ev {f : ClockS → ClockS} (h : Evolves s t) : Evolves s (t.updK f) := .rest h rfl

theorem State.updI_ev {f : ImgS → ImgS} (h : Evolves s t) : Evolves s (t.updI f) := .rest h rfl

theorem State.updCyc_ev {f : CycS → CycS} (h : Evolves s t) : Evolves s (t.updCyc f) := .rest h rfl

theorem State.updTl_ev {f : TallyS → TallyS} (h : Evolves s t) : Evolves s (t.updTl f) := .rest h rfl

theorem State.updS_ev {f : SafeS → SafeS} (h : Evolves s t) : Evolves s (t.updS f) := .rest h rfl

theorem State.updN_ev {f : ConsS → ConsS} (h : Evolves s t) : Evolves s (t.updN f) := .rest h rfl

theorem State.updMir_ev {f : MirS → MirS} (h : Evolves s t) : Evolves s (t.updMir f) := .rest h rfl

theorem State.updSo_ev {f : SoS → SoS} (h : Evolves s t) : Evolves s (t.updSo f) := .rest h rfl

theorem State.updMw_ev {f : MwS → MwS} (h : Evolves s t) : Evolves s (t.updMw f) := .rest h rfl

theorem State.updSt_ev {f : StoreS → StoreS} (h : Evolves s t) : Evolves s (t.updSt f) := .rest h rfl

theorem State.updU_ev {f : UpdS → UpdS} (h : Evolves s t) : Evolves s (t.updU f) := .rest h rfl

theorem State.updPw_ev {f : PwrS → PwrS} (h : Evolves s t) : Evolves s (t.updPw f) := .rest h rfl

theorem State.updBr_ev {f : BridgeS → BridgeS} (h : Evolves s t) : Evolves s (t.updBr f) := .rest h rfl

theorem State.setPower_ev {p : PowerSt} (h : Evolves s t) : Evolves s (t.setPower p) := .rest h rfl

theorem State.setLatch_ev {l : Tri Bool} {cause : Nat} (h : Evolves s t) : Evolves s (t.setLatch l cause) := .rest h rfl

theorem State.setCour_ev {c : Quad CourS} (h : Evolves s t) : Evolves s (t.setCour c) := .rest h rfl

theorem State.setCfg_ev {c : Option SignedCfg} (h : Evolves s t) : Evolves s (t.setCfg c) := .rest h rfl

theorem State.setPolls_ev {m : SMap PollS} (h : Evolves s t) : Evolves s (t.setPolls m) := .rest h rfl

theorem State.setCans_ev {m : SMap CanS} (h : Evolves s t) : Evolves s (t.setCans m) := .rest h rfl

theorem State.setIsl_ev {m : SMap IslS} (h : Evolves s t) : Evolves s (t.setIsl m) := .rest h rfl

theorem State.setSpd_ev {m : SMap SpdChan} (h : Evolves s t) : Evolves s (t.setSpd m) := .rest h rfl

theorem State.setSwRun_ev {m : SMap Nat} (h : Evolves s t) : Evolves s (t.setSwRun m) := .rest h rfl

theorem State.setCounter_ev {n : Nat} (h : Evolves s t) : Evolves s (t.setCounter n) := .rest h rfl

theorem State.setWire_ev {k : Nat} {b : List Byte} (h : Evolves s t) : Evolves s (t.setWire k b) := .rest h rfl

theorem State.updC_ev {p : Fin 4} {f : CourS → CourS} (h : Evolves s t) : Evolves s (t.updC p f) := .rest h rfl

theorem State.draw_ev (h : Evolves s t) : Evolves s t.draw := .rest h rfl

/-- A change of lanes that leaves their memories alone. -/
theorem State.updL_ev {l : Fin 3} {f : LaneS → LaneS} (h : Evolves s t) (hf : ∀ n, (f n).mem = n.mem) : Evolves s (t.updL l f) := by
  refine .rest h ?_
  simp only [State.kept, State.mems, State.updL]
  match l with
  | 0 => simp [Tri.set, Tri.get, hf]
  | 1 => simp [Tri.set, Tri.get, hf]
  | 2 => simp [Tri.set, Tri.get, hf]

theorem State.updP_ev {l : Fin 3} {p : Fin 4} {f : PairS → PairS} (h : Evolves s t) : Evolves s (t.updP l p f) :=
  State.updL_ev h fun _ => rfl

theorem mem_updL (t : State) (l : Fin 3) (f : LaneS → LaneS) : (t.updL l f).ln l = f (t.ln l) := by
  match l with
  | 0 => rfl
  | 1 => rfl
  | 2 => rfl

/-- Two lanes records that agree in memory are one to Evolves. -/
theorem Evolves.updLCongr {l : Fin 3} {f g : LaneS → LaneS} (h : Evolves s (t.updL l f)) (e : (g (t.ln l)).mem = (f (t.ln l)).mem) :
    Evolves s (t.updL l g) := by
  refine .rest h ?_
  have e' : (g (t.lanes.get l)).mem = (f (t.lanes.get l)).mem := e
  simp only [State.kept, State.mems, State.updL]
  match l with
  | 0 => simp_all [Tri.set, Tri.get]
  | 1 => simp_all [Tri.set, Tri.get]
  | 2 => simp_all [Tri.set, Tri.get]

theorem updL_updL (t : State) (l : Fin 3) (f g : LaneS → LaneS) : (t.updL l f).updL l g = t.updL l fun n => g (f n) := by
  match l with
  | 0 => rfl
  | 1 => rfl
  | 2 => rfl

theorem updL_id (t : State) (l : Fin 3) : t.updL l (fun n => n) = t := by
  match l with
  | 0 => rfl
  | 1 => rfl
  | 2 => rfl

/-- A change of a lane's memory by writes of bytes. -/
theorem Evolves.updLWrites {l : Fin 3} {g : LaneS → LaneS} (h : Evolves s t) (w : List (Nat × Byte))
    (e : (g (t.ln l)).mem = w.foldl (fun m e => SMap.put m e.1 0 e.2) (t.ln l).mem) : Evolves s (t.updL l g) := by
  suffices H : ∀ (w : List (Nat × Byte)) (f : LaneS → LaneS), Evolves s (t.updL l f) →
      Evolves s (t.updL l fun n => { f n with mem := w.foldl (fun m e => SMap.put m e.1 0 e.2) (f n).mem }) by
    have h0 : Evolves s (t.updL l fun n => n) := by rw [updL_id]; exact h
    exact (H w _ h0).updLCongr e
  intro w
  induction w with
  | nil => intro f hf; exact hf
  | cons a r ih =>
    intro f hf
    have h1 := Evolves.memPut l a.1 a.2 hf
    rw [updL_updL] at h1
    exact ih _ h1

theorem State.laneWrite_ev {l : Fin 3} {p : Fin 4} {a : Nat} {b : List Byte} (h : Evolves s t) : Evolves s (t.laneWrite l p a b) := by
  unfold State.laneWrite
  refine Evolves.updLWrites h (b.zipIdx.map fun x => (memKey p (a + x.2), x.1)) ?_
  suffices H : ∀ (b : List Byte) (n : LaneS) (a k : Nat),
      (b.foldl (fun (x : LaneS × Nat) y => (x.1.wb (memKey p x.2) y, x.2 + 1)) (n, a + k)).1.mem =
        ((b.zipIdx k).map fun x => (memKey p (a + x.2), x.1)).foldl (fun m e => SMap.put m e.1 0 e.2) n.mem from H b _ a 0
  intro b
  induction b with
  | nil => intros; rfl
  | cons y r ih => intro n a k; exact ih _ a (k + 1)

theorem State.copyPages_ev {c l : Fin 3} {all : Bool} (h : Evolves s t) : Evolves s (t.copyPages c l all) := by
  unfold State.copyPages
  refine State.updL_ev ?_ fun _ => rfl
  have h1 : Evolves s (t.memCut l fun e => !(t.pageCopied c e.1 && (all || SMap.get (t.ln c).dirty (e.1 / 4096) 0 = 1))) := .memCut l _ h
  have h2 := Evolves.updLWrites (l := l) (g := fun x => { x with
    mem := ((t.ln c).mem.filter fun e => t.pageCopied c e.1 && (all || SMap.get (t.ln c).dirty (e.1 / 4096) 0 = 1)).foldl
      (fun m e => SMap.put m e.1 0 e.2) x.mem }) h1
      ((t.ln c).mem.filter fun e => t.pageCopied c e.1 && (all || SMap.get (t.ln c).dirty (e.1 / 4096) 0 = 1)) rfl
  unfold State.memCut at h2
  rw [updL_updL] at h2
  exact h2

/-- Register values of a saved map taken over. -/
theorem Evolves.regsPuts {m : SMap Nat} (h : Evolves s { t with regs := m }) (w : List (Nat × Nat)) :
    Evolves s { t with regs := w.foldl (fun m e => SMap.insert (SMap.erase m e.1) e.1 e.2) m } := by
  induction w generalizing m with
  | nil => exact h
  | cons a r ih => exact ih (.regsPut a.1 a.2 h)

end Sys2Proof.Machine
end

