-- ==== Sys2Proof/Laws/Evolves1.lean ====
section
/-! SUPPORT. Evolves for the operations of Machine/ on State: registers, interrupts, records, the data image, lanes, the Courier. -/

set_option linter.unusedTactic false
set_option linter.unreachableTactic false

namespace Sys2Proof.Machine

theorem State.setB_ev {s t : State} {f : Fld} {b : Bool} (h : Evolves s t) : Evolves s (State.setB t f b) := by
  unfold State.setB
  repeat' first | (with_reducible first | exact h | assumption | apply State.set_ev | refine Evolves.ite ?_ fun _ => ?_ | intro _ | rfl) | exact rfl | assumption | split | dsimp only

theorem State.addSat_ev {s t : State} {f : Fld} {n : ℕ} (h : Evolves s t) : Evolves s (State.addSat t f n) := by
  unfold State.addSat
  repeat' first | (with_reducible first | exact h | assumption | apply State.set_ev | refine Evolves.ite ?_ fun _ => ?_ | intro _ | rfl) | exact rfl | assumption | split | dsimp only

theorem State.count_ev {s t : State} {f : Fld} (h : Evolves s t) : Evolves s (State.count t f) := by
  unfold State.count
  repeat' first | (with_reducible first | exact h | assumption | apply State.addSat_ev | refine Evolves.ite ?_ fun _ => ?_ | intro _ | rfl) | exact rfl | assumption | split | dsimp only

theorem State.raiseTo_ev {s t : State} {f : Fld} {n : ℕ} (h : Evolves s t) : Evolves s (State.raiseTo t f n) := by
  unfold State.raiseTo
  repeat' first | (with_reducible first | exact h | assumption | apply State.set_ev | refine Evolves.ite ?_ fun _ => ?_ | intro _ | rfl) | exact rfl | assumption | split | dsimp only

theorem State.set64_ev {s t : State} {lo : Fld} {hi : Fld} {v : ℕ} (h : Evolves s t) : Evolves s (State.set64 t lo hi v) := by
  unfold State.set64
  repeat' first | (with_reducible first | exact h | assumption | apply State.set_ev | refine Evolves.ite ?_ fun _ => ?_ | intro _ | rfl) | exact rfl | assumption | split | dsimp only

theorem State.hubSet_ev {s t : State} {off : ℕ} {n : ℕ} {v : ℕ} (h : Evolves s t) : Evolves s (State.hubSet t off n v) := by
  unfold State.hubSet
  repeat' first | (with_reducible first | exact h | assumption | apply State.hubWrite_ev | refine Evolves.ite ?_ fun _ => ?_ | intro _ | rfl) | exact rfl | assumption | split | dsimp only

theorem State.hubZero_ev {s t : State} {off : ℕ} {n : ℕ} (h : Evolves s t) : Evolves s (State.hubZero t off n) := by
  unfold State.hubZero
  repeat' first | (with_reducible first | exact h | assumption | apply State.hubCut_ev | refine Evolves.ite ?_ fun _ => ?_ | intro _ | rfl) | exact rfl | assumption | split | dsimp only

theorem State.courDeliver_ev {s t : State} {src : ℕ} (h : Evolves s t) : Evolves s (State.courDeliver t src) := by
  unfold State.courDeliver
  repeat' first | (with_reducible first | exact h | assumption | apply State.updP_ev | apply State.set_ev | apply State.count_ev | apply State.updC_ev | apply State.each_ev | refine Evolves.ite ?_ fun _ => ?_ | intro _ | rfl) | exact rfl | assumption | split | dsimp only

theorem State.courEvent_ev {s t : State} {src : ℕ} (h : Evolves s t) : Evolves s (State.courEvent t src) := by
  unfold State.courEvent
  repeat' first | (with_reducible first | exact h | assumption | apply State.courDeliver_ev | refine Evolves.ite ?_ fun _ => ?_ | intro _ | rfl) | exact rfl | assumption | split | dsimp only

theorem State.raiseInt_ev {s t : State} {page : ℕ} {bit : ℕ} (h : Evolves s t) : Evolves s (State.raiseInt t page bit) := by
  unfold State.raiseInt
  repeat' first | (with_reducible first | exact h | assumption | apply State.set_ev | apply State.courEvent_ev | refine Evolves.ite ?_ fun _ => ?_ | intro _ | rfl) | exact rfl | assumption | split | dsimp only

theorem State.clearInt_ev {s t : State} {page : ℕ} {v : ℕ} (h : Evolves s t) : Evolves s (State.clearInt t page v) := by
  unfold State.clearInt
  repeat' first | (with_reducible first | exact h | assumption | apply State.set_ev | apply State.courEvent_ev | refine Evolves.ite ?_ fun _ => ?_ | intro _ | rfl) | exact rfl | assumption | split | dsimp only

theorem State.sysfailOut_ev {s t : State} (h : Evolves s t) : Evolves s (State.sysfailOut t) := by
  unfold State.sysfailOut
  repeat' first | (with_reducible first | exact h | assumption | apply State.set_ev | apply State.courEvent_ev | refine Evolves.ite ?_ fun _ => ?_ | intro _ | rfl) | exact rfl | assumption | split | dsimp only

theorem State.ledgerShow_ev {s t : State} (h : Evolves s t) : Evolves s (State.ledgerShow t) := by
  unfold State.ledgerShow
  repeat' first | (with_reducible first | exact h | assumption | apply State.set_ev | refine Evolves.ite ?_ fun _ => ?_ | intro _ | rfl) | exact rfl | assumption | split | dsimp only

theorem State.ledgerRefuse_ev {s t : State} {b : ℕ} (h : Evolves s t) : Evolves s (State.ledgerRefuse t b) := by
  unfold State.ledgerRefuse
  repeat' first | (with_reducible first | exact h | assumption | apply State.count_ev | apply State.updLg_ev | apply State.raiseInt_ev | refine Evolves.ite ?_ fun _ => ?_ | intro _ | rfl) | exact rfl | assumption | split | dsimp only

theorem State.ledgerDrop_ev {s t : State} {sev : ℕ} (h : Evolves s t) : Evolves s (State.ledgerDrop t sev) := by
  unfold State.ledgerDrop
  repeat' first | (with_reducible first | exact h | assumption | apply State.count_ev | apply State.updLg_ev | apply State.raiseInt_ev | refine Evolves.ite ?_ fun _ => ?_ | intro _ | rfl) | exact rfl | assumption | split | dsimp only

theorem State.ledgerPut_ev {s t : State} {r : LKept} {slot : ℕ} {ring : ℕ} (h : Evolves s t) : Evolves s (State.ledgerPut t r slot ring) := by
  unfold State.ledgerPut
  repeat' first | (with_reducible first | exact h | assumption | apply State.updLg_ev | apply State.ledgerShow_ev | apply State.hubWrite_ev | apply State.raiseInt_ev | refine Evolves.ite ?_ fun _ => ?_ | intro _ | rfl) | exact rfl | assumption | split | dsimp only

theorem State.ledgerPlace_ev {s t : State} {r : LKept} (h : Evolves s t) : Evolves s (State.ledgerPlace t r) := by
  unfold State.ledgerPlace
  repeat' first | (with_reducible first | exact h | assumption | apply State.ledgerPut_ev | apply State.updLg_ev | apply State.count_ev | apply State.ledgerDrop_ev | refine Evolves.ite ?_ fun _ => ?_ | intro _ | rfl) | exact rfl | assumption | split | dsimp only

theorem State.ledgerKeep_ev {s t : State} {r : LKept} (h : Evolves s t) : Evolves s (State.ledgerKeep t r) := by
  unfold State.ledgerKeep
  repeat' first | (with_reducible first | exact h | assumption | apply State.ledgerPlace_ev | apply State.updLg_ev | apply State.count_ev | refine Evolves.ite ?_ fun _ => ?_ | intro _ | rfl) | exact rfl | assumption | split | dsimp only

theorem State.ledgerArrive_ev {s t : State} {r : LRec} {sw : Bool} {tok : Bool} {lanes : ℕ} (h : Evolves s t) : Evolves s (State.ledgerArrive t r sw tok lanes) := by
  unfold State.ledgerArrive
  repeat' first | (with_reducible first | exact h | assumption | apply State.updLg_ev | apply State.raiseTo_ev | apply State.count_ev | apply State.hubWrite_ev | apply State.ledgerKeep_ev | apply State.ledgerRefuse_ev | refine Evolves.ite ?_ fun _ => ?_ | intro _ | rfl) | exact rfl | assumption | split | dsimp only

theorem State.recordX_ev {s t : State} {code : ℕ} {sev : ℕ} {tenant : ℕ} {lanes : ℕ} {ws : List ℕ} (h : Evolves s t) : Evolves s (State.recordX t code sev tenant lanes ws) := by
  unfold State.recordX
  repeat' first | (with_reducible first | exact h | assumption | apply State.ledgerArrive_ev | refine Evolves.ite ?_ fun _ => ?_ | intro _ | rfl) | exact rfl | assumption | split | dsimp only

theorem State.record_ev {s t : State} {code : ℕ} {sev : ℕ} {ws : List ℕ} (h : Evolves s t) : Evolves s (State.record t code sev ws) := by
  unfold State.record
  repeat' first | (with_reducible first | exact h | assumption | apply State.recordX_ev | refine Evolves.ite ?_ fun _ => ?_ | intro _ | rfl) | exact rfl | assumption | split | dsimp only

theorem State.recordT_ev {s t : State} {code : ℕ} {sev : ℕ} {tenant : ℕ} {ws : List ℕ} (h : Evolves s t) : Evolves s (State.recordT t code sev tenant ws) := by
  unfold State.recordT
  repeat' first | (with_reducible first | exact h | assumption | apply State.recordX_ev | refine Evolves.ite ?_ fun _ => ?_ | intro _ | rfl) | exact rfl | assumption | split | dsimp only

theorem State.once_ev {s t : State} {key : ℕ} {ticks : ℕ} {f : State → State} (h : Evolves s t) (hf : ∀ u, Evolves s u → Evolves s (f u)) : Evolves s (State.once t key ticks f) := by
  unfold State.once
  repeat' first | (with_reducible first | exact h | assumption | apply State.updLg_ev | refine Evolves.ite ?_ fun _ => ?_ | intro _ | rfl | apply hf) | exact rfl | assumption | split | dsimp only

theorem State.recordSec_ev {s t : State} {inst : ℕ} {code : ℕ} {sev : ℕ} {ws : List ℕ} (h : Evolves s t) : Evolves s (State.recordSec t inst code sev ws) := by
  unfold State.recordSec
  repeat' first | (with_reducible first | exact h | assumption | apply State.once_ev | apply State.record_ev | refine Evolves.ite ?_ fun _ => ?_ | intro _ | rfl) | exact rfl | assumption | split | dsimp only

theorem State.pairStop_ev {s t : State} {l : Fin 3} {p : Fin 4} (h : Evolves s t) : Evolves s (State.pairStop t l p) := by
  unfold State.pairStop
  repeat' first | (with_reducible first | exact h | assumption | apply State.updP_ev | apply State.set_ev | apply State.updC_ev | apply State.raiseInt_ev | apply State.addSat_ev | apply State.record_ev | refine Evolves.ite ?_ fun _ => ?_ | intro _ | rfl) | exact rfl | assumption | split | dsimp only

theorem State.precise_ev {s t : State} {l : Fin 3} {p : Fin 4} {code : ℕ} {info : ℕ} {addr : ℕ} {done : Bool} (h : Evolves s t) : Evolves s (State.precise t l p code info addr done) := by
  unfold State.precise
  repeat' first | (with_reducible first | exact h | assumption | apply State.pairStop_ev | apply State.updP_ev | refine Evolves.ite ?_ fun _ => ?_ | intro _ | rfl) | exact rfl | assumption | split | dsimp only

theorem State.unit_ev {s t : State} {l : Fin 3} {p : Fin 4} {illegal : Bool} {priv : Bool} {fp : Bool} {body : State → State} (h : Evolves s t) (hf : ∀ u, Evolves s u → Evolves s (body u)) : Evolves s (State.unit t l p illegal priv fp body) := by
  unfold State.unit
  repeat' first | (with_reducible first | exact h | assumption | apply State.updP_ev | apply State.precise_ev | refine Evolves.ite ?_ fun _ => ?_ | intro _ | rfl | apply hf) | exact rfl | assumption | split | dsimp only

theorem State.unitP_ev {s t : State} {l : Fin 3} {p : Fin 4} {illegal : Bool} {priv : Bool} {fp : Bool} {f : PairS → PairS} (h : Evolves s t) : Evolves s (State.unitP t l p illegal priv fp f) := by
  unfold State.unitP
  repeat' first | (with_reducible first | exact h | assumption | apply State.unit_ev | apply State.updP_ev | refine Evolves.ite ?_ fun _ => ?_ | intro _ | rfl) | exact rfl | assumption | split | dsimp only

theorem State.pairStart_ev {s t : State} {l : Fin 3} {q : Fin 4} (h : Evolves s t) : Evolves s (State.pairStart t l q) := by
  unfold State.pairStart
  repeat' first | (with_reducible first | exact h | assumption | apply State.updL_ev | apply State.updP_ev | refine Evolves.ite ?_ fun _ => ?_ | intro _ | rfl) | exact rfl | assumption | split | dsimp only

theorem State.granWrite_ev {s t : State} {l : Fin 3} {v : ℕ} (h : Evolves s t) : Evolves s (State.granWrite t l v) := by
  unfold State.granWrite
  repeat' first | (with_reducible first | exact h | assumption | apply State.updL_ev | refine Evolves.ite ?_ fun _ => ?_ | intro _ | rfl) | exact rfl | assumption | split | dsimp only

theorem State.srWrite_ev {s t : State} {l : Fin 3} {p : Fin 4} {n : ℕ} {v : ℕ} (h : Evolves s t) : Evolves s (State.srWrite t l p n v) := by
  unfold State.srWrite
  repeat' first | (with_reducible first | exact h | assumption | apply State.pairStart_ev | apply State.updL_ev | apply State.granWrite_ev | apply State.updP_ev | apply State.each_ev | refine Evolves.ite ?_ fun _ => ?_ | intro _ | rfl) | exact rfl | assumption | split | dsimp only

theorem State.paceTry_ev {s t : State} {l : Fin 3} {p : Fin 4} (h : Evolves s t) : Evolves s (State.paceTry t l p) := by
  unfold State.paceTry
  repeat' first | (with_reducible first | exact h | assumption | apply State.updP_ev | refine Evolves.ite ?_ fun _ => ?_ | intro _ | rfl) | exact rfl | assumption | split | dsimp only

theorem State.laneReset_ev {s t : State} {l : Fin 3} (h : Evolves s t) : Evolves s (State.laneReset t l) := by
  unfold State.laneReset
  repeat' first | (with_reducible first | exact h | assumption | apply State.set_ev | apply State.updL_ev | refine Evolves.ite ?_ fun _ => ?_ | intro _ | rfl) | exact rfl | assumption | split | dsimp only

theorem State.dbgHalt_ev {s t : State} {l : Fin 3} {p : Fin 4} (h : Evolves s t) : Evolves s (State.dbgHalt t l p) := by
  unfold State.dbgHalt
  repeat' first | (with_reducible first | exact h | assumption | apply State.updP_ev | refine Evolves.ite ?_ fun _ => ?_ | intro _ | rfl) | exact rfl | assumption | split | dsimp only

theorem State.dbgResume_ev {s t : State} {l : Fin 3} {p : Fin 4} (h : Evolves s t) : Evolves s (State.dbgResume t l p) := by
  unfold State.dbgResume
  repeat' first | (with_reducible first | exact h | assumption | apply State.updP_ev | refine Evolves.ite ?_ fun _ => ?_ | intro _ | rfl) | exact rfl | assumption | split | dsimp only

theorem State.dbgStep_ev {s t : State} {l : Fin 3} {p : Fin 4} (h : Evolves s t) : Evolves s (State.dbgStep t l p) := by
  unfold State.dbgStep
  repeat' first | (with_reducible first | exact h | assumption | apply State.updP_ev | refine Evolves.ite ?_ fun _ => ?_ | intro _ | rfl) | exact rfl | assumption | split | dsimp only

theorem State.dbgRegdata_ev {s t : State} {l : Fin 3} {p : Fin 4} {hi : ℕ} (h : Evolves s t) : Evolves s (State.dbgRegdata t l p hi) := by
  unfold State.dbgRegdata
  repeat' first | (with_reducible first | exact h | assumption | apply State.updP_ev | apply State.srWrite_ev | refine Evolves.ite ?_ fun _ => ?_ | intro _ | rfl) | exact rfl | assumption | split | dsimp only

theorem State.lanePageWrite_ev {s t : State} {l : Fin 3} {r : Region} {off : ℕ} {v : ℕ} (h : Evolves s t) : Evolves s (State.lanePageWrite t l r off v) := by
  unfold State.lanePageWrite
  repeat' first | (with_reducible first | exact h | assumption | apply State.updP_ev | apply State.dbgHalt_ev | apply State.dbgResume_ev | apply State.dbgStep_ev | apply State.dbgRegdata_ev | refine Evolves.ite ?_ fun _ => ?_ | intro _ | rfl) | exact rfl | assumption | split | dsimp only

theorem State.storeFault_ev {s t : State} {p : Fin 4} {seq : ℕ} {addr : ℕ} (h : Evolves s t) : Evolves s (State.storeFault t p seq addr) := by
  unfold State.storeFault
  repeat' first | (with_reducible first | exact h | assumption | apply State.updC_ev | refine Evolves.ite ?_ fun _ => ?_ | intro _ | rfl) | exact rfl | assumption | split | dsimp only

theorem State.courShow_ev {s t : State} {p : Fin 4} (h : Evolves s t) : Evolves s (State.courShow t p) := by
  unfold State.courShow
  repeat' first | (with_reducible first | exact h | assumption | apply State.set_ev | apply State.raiseTo_ev | apply State.setB_ev | refine Evolves.ite ?_ fun _ => ?_ | intro _ | rfl) | exact rfl | assumption | split | dsimp only

theorem State.undoze_ev {s t : State} (h : Evolves s t) : Evolves s (State.undoze t) := by
  unfold State.undoze
  repeat' first | (with_reducible first | exact h | assumption | apply State.updPw_ev | refine Evolves.ite ?_ fun _ => ?_ | intro _ | rfl) | exact rfl | assumption | split | dsimp only

theorem State.release_ev {s t : State} {p : Fin 4} (h : Evolves s t) : Evolves s (State.release t p) := by
  unfold State.release
  repeat' first | (with_reducible first | exact h | assumption | apply State.updC_ev | apply State.courShow_ev | apply State.undoze_ev | refine Evolves.ite ?_ fun _ => ?_ | intro _ | rfl) | exact rfl | assumption | split | dsimp only

theorem State.releaseTry_ev {s t : State} {p : Fin 4} (h : Evolves s t) : Evolves s (State.releaseTry t p) := by
  unfold State.releaseTry
  repeat' first | (with_reducible first | exact h | assumption | apply State.release_ev | refine Evolves.ite ?_ fun _ => ?_ | intro _ | rfl) | exact rfl | assumption | split | dsimp only

theorem State.formStamp_ev {s t : State} {p : Fin 4} (h : Evolves s t) : Evolves s (State.formStamp t p) := by
  unfold State.formStamp
  repeat' first | (with_reducible first | exact h | assumption | apply State.updC_ev | apply State.count_ev | apply State.set64_ev | apply State.releaseTry_ev | apply State.courShow_ev | apply State.undoze_ev | refine Evolves.ite ?_ fun _ => ?_ | intro _ | rfl) | exact rfl | assumption | split | dsimp only

theorem State.stampTry_ev {s t : State} {p : Fin 4} (h : Evolves s t) : Evolves s (State.stampTry t p) := by
  unfold State.stampTry
  repeat' first | (with_reducible first | exact h | assumption | apply State.recordSec_ev | apply State.raiseInt_ev | apply State.formStamp_ev | refine Evolves.ite ?_ fun _ => ?_ | intro _ | rfl) | exact rfl | assumption | split | dsimp only

theorem State.stampArrive_ev {s t : State} {l : Fin 3} {p : Fin 4} {num : ℕ} (h : Evolves s t) : Evolves s (State.stampArrive t l p num) := by
  unfold State.stampArrive
  repeat' first | (with_reducible first | exact h | assumption | apply State.updC_ev | apply State.updP_ev | refine Evolves.ite ?_ fun _ => ?_ | intro _ | rfl) | exact rfl | assumption | split | dsimp only

theorem State.courDropLane_ev {s t : State} {l : Fin 3} (h : Evolves s t) : Evolves s (State.courDropLane t l) := by
  unfold State.courDropLane
  repeat' first | (with_reducible first | exact h | assumption | apply State.updC_ev | apply State.each_ev | refine Evolves.ite ?_ fun _ => ?_ | intro _ | rfl) | exact rfl | assumption | split | dsimp only

theorem State.stampsFree_ev {s t : State} {p : Fin 4} (h : Evolves s t) : Evolves s (State.stampsFree t p) := by
  unfold State.stampsFree
  repeat' first | (with_reducible first | exact h | assumption | apply State.courShow_ev | apply State.updC_ev | refine Evolves.ite ?_ fun _ => ?_ | intro _ | rfl) | exact rfl | assumption | split | dsimp only

theorem State.courDiscard_ev {s t : State} (h : Evolves s t) : Evolves s (State.courDiscard t) := by
  unfold State.courDiscard
  repeat' first | (with_reducible first | exact h | assumption | apply State.setCour_ev | apply State.courShow_ev | apply State.each_ev | refine Evolves.ite ?_ fun _ => ?_ | intro _ | rfl) | exact rfl | assumption | split | dsimp only

theorem State.soOpen_ev {s t : State} (h : Evolves s t) : Evolves s (State.soOpen t) := by
  unfold State.soOpen
  repeat' first | (with_reducible first | exact h | assumption | apply State.updSo_ev | apply State.set_ev | refine Evolves.ite ?_ fun _ => ?_ | intro _ | rfl) | exact rfl | assumption | split | dsimp only

theorem State.serviceOnly_ev {s t : State} {cause : ℕ} (h : Evolves s t) : Evolves s (State.serviceOnly t cause) := by
  unfold State.serviceOnly
  repeat' first | (with_reducible first | exact h | assumption | apply State.sysfailOut_ev | apply State.soOpen_ev | apply State.set_ev | refine Evolves.ite ?_ fun _ => ?_ | intro _ | rfl) | exact rfl | assumption | split | dsimp only

theorem State.retEntry_ev {s t : State} {d : Desc} (h : Evolves s t) : Evolves s (State.retEntry t d) := by
  unfold State.retEntry
  repeat' first | (with_reducible first | exact h | assumption | apply State.hubWrite_ev | refine Evolves.ite ?_ fun _ => ?_ | intro _ | rfl) | exact rfl | assumption | split | dsimp only

theorem State.retSeal_ev {s t : State} (h : Evolves s t) : Evolves s (State.retSeal t) := by
  unfold State.retSeal
  repeat' first | (with_reducible first | exact h | assumption | apply State.hubWrite_ev | apply State.hubZero_ev | apply State.hubSet_ev | refine Evolves.ite ?_ fun _ => ?_ | intro _ | rfl) | exact rfl | assumption | split | dsimp only

theorem State.retSave_ev {s t : State} (h : Evolves s t) : Evolves s (State.retSave t) := by
  unfold State.retSave
  repeat' first | (with_reducible first | exact h | assumption | apply State.retSeal_ev | apply State.updI_ev | refine Evolves.ite ?_ fun _ => ?_ | intro _ | rfl) | exact rfl | assumption | split | dsimp only

theorem State.setHdr_ev {s t : State} {d : Desc} {v : ℕ} (h : Evolves s t) : Evolves s (State.setHdr t d v) := by
  unfold State.setHdr
  repeat' first | (with_reducible first | exact h | assumption | apply State.hubSet_ev | refine Evolves.ite ?_ fun _ => ?_ | intro _ | rfl) | exact rfl | assumption | split | dsimp only

theorem State.putHdr_ev {s t : State} {d : Desc} {status : ℕ} {writer : ℕ} {cycle : ℕ} {time : ℕ} (h : Evolves s t) : Evolves s (State.putHdr t d status writer cycle time) := by
  unfold State.putHdr
  repeat' first | (with_reducible first | exact h | assumption | apply State.hubWrite_ev | refine Evolves.ite ?_ fun _ => ?_ | intro _ | rfl) | exact rfl | assumption | split | dsimp only

theorem State.unstage_ev {s t : State} {d : Desc} (h : Evolves s t) : Evolves s (State.unstage t d) := by
  unfold State.unstage
  repeat' first | (with_reducible first | exact h | assumption | apply State.setHdr_ev | apply State.hubWrite_ev | apply State.updI_ev | refine Evolves.ite ?_ fun _ => ?_ | intro _ | rfl) | exact rfl | assumption | split | dsimp only

theorem State.commitVar_ev {s t : State} {t' : ℕ} {d : Desc} (h : Evolves s t) : Evolves s (State.commitVar t t' d) := by
  unfold State.commitVar
  repeat' first | (with_reducible first | exact h | assumption | apply State.count_ev | apply State.unstage_ev | apply State.hubWrite_ev | apply State.putHdr_ev | apply State.retEntry_ev | apply State.updI_ev | apply State.setHdr_ev | refine Evolves.ite ?_ fun _ => ?_ | intro _ | rfl) | exact rfl | assumption | split | dsimp only

theorem State.commitClass_ev {s t : State} {kind : ℕ} {j : ℕ} {t' : ℕ} (h : Evolves s t) : Evolves s (State.commitClass t kind j t') := by
  unfold State.commitClass
  repeat' first | (with_reducible first | exact h | assumption | apply State.commitVar_ev | apply State.each_ev | refine Evolves.ite ?_ fun _ => ?_ | intro _ | rfl) | exact rfl | assumption | split | dsimp only

theorem State.discardClass_ev {s t : State} {j : ℕ} (h : Evolves s t) : Evolves s (State.discardClass t j) := by
  unfold State.discardClass
  repeat' first | (with_reducible first | exact h | assumption | apply State.unstage_ev | apply State.each_ev | refine Evolves.ite ?_ fun _ => ?_ | intro _ | rfl) | exact rfl | assumption | split | dsimp only

theorem State.fallbackVar_ev {s t : State} {status : ℕ} {cycle : ℕ} {t' : ℕ} {d : Desc} (h : Evolves s t) : Evolves s (State.fallbackVar t status cycle t' d) := by
  unfold State.fallbackVar
  repeat' first | (with_reducible first | exact h | assumption | apply State.hubWrite_ev | apply State.putHdr_ev | apply State.updI_ev | refine Evolves.ite ?_ fun _ => ?_ | intro _ | rfl) | exact rfl | assumption | split | dsimp only

theorem State.fallbackClass_ev {s t : State} {j : ℕ} {t' : ℕ} (h : Evolves s t) : Evolves s (State.fallbackClass t j t') := by
  unfold State.fallbackClass
  repeat' first | (with_reducible first | exact h | assumption | apply State.fallbackVar_ev | apply State.each_ev | refine Evolves.ite ?_ fun _ => ?_ | intro _ | rfl) | exact rfl | assumption | split | dsimp only

theorem State.imgStart_ev {s t : State} (h : Evolves s t) : Evolves s (State.imgStart t) := by
  unfold State.imgStart
  repeat' first | (with_reducible first | exact h | assumption | apply State.unstage_ev | apply State.fallbackVar_ev | apply State.set_ev | apply State.updI_ev | apply State.each_ev | refine Evolves.ite ?_ fun _ => ?_ | intro _ | rfl) | exact rfl | assumption | split | dsimp only

theorem State.staleVar_ev {s t : State} {t' : ℕ} {d : Desc} (h : Evolves s t) : Evolves s (State.staleVar t t' d) := by
  unfold State.staleVar
  repeat' first | (with_reducible first | exact h | assumption | apply State.setHdr_ev | refine Evolves.ite ?_ fun _ => ?_ | intro _ | rfl) | exact rfl | assumption | split | dsimp only

theorem State.markStale_ev {s t : State} {v : ℕ} (h : Evolves s t) : Evolves s (State.markStale t v) := by
  unfold State.markStale
  repeat' first | (with_reducible first | exact h | assumption | apply State.setHdr_ev | refine Evolves.ite ?_ fun _ => ?_ | intro _ | rfl) | exact rfl | assumption | split | dsimp only

theorem State.restoreVar_ev {s t : State} {e : ℕ × List Byte} (h : Evolves s t) : Evolves s (State.restoreVar t e) := by
  unfold State.restoreVar
  repeat' first | (with_reducible first | exact h | assumption | apply State.putHdr_ev | apply State.hubWrite_ev | refine Evolves.ite ?_ fun _ => ?_ | intro _ | rfl) | exact rfl | assumption | split | dsimp only

theorem State.lockTake_ev {s t : State} {k : LockScan} (h : Evolves s t) : Evolves s (State.lockTake t k) := by
  unfold State.lockTake
  repeat' first | (with_reducible first | exact h | assumption | apply State.updI_ev | apply State.set_ev | apply State.hubWrite_ev | apply State.putHdr_ev | apply State.restoreVar_ev | apply State.each_ev | refine Evolves.ite ?_ fun _ => ?_ | intro _ | rfl) | exact rfl | assumption | split | dsimp only

theorem State.imgLock_ev {s t : State} (h : Evolves s t) : Evolves s (State.imgLock t) := by
  unfold State.imgLock
  refine Evolves.ite ?_ fun _ => h
  extract_lets k
  clear_value k
  split
  · exact State.serviceOnly_ev (State.record_ev (State.set_ev (State.set_ev (State.set_ev h))))
  · exact State.lockTake_ev h

theorem State.lateWrite_ev {s t : State} {d : Desc} (h : Evolves s t) : Evolves s (State.lateWrite t d) := by
  unfold State.lateWrite
  repeat' first | (with_reducible first | exact h | assumption | apply State.setHdr_ev | apply State.set_ev | apply State.count_ev | apply State.raiseInt_ev | refine Evolves.ite ?_ fun _ => ?_ | intro _ | rfl) | exact rfl | assumption | split | dsimp only

theorem State.rejectWrite_ev {s t : State} {d : Desc} {ident : ℕ} (h : Evolves s t) : Evolves s (State.rejectWrite t d ident) := by
  unfold State.rejectWrite
  repeat' first | (with_reducible first | exact h | assumption | apply State.setHdr_ev | apply State.set_ev | apply State.count_ev | apply State.record_ev | apply State.raiseInt_ev | refine Evolves.ite ?_ fun _ => ?_ | intro _ | rfl) | exact rfl | assumption | split | dsimp only

theorem State.acceptWrite_ev {s t : State} {d : Desc} {ident : ℕ} {wtime : ℕ} {vt : Option ℕ} {k : ℕ} {bytes : List Byte} (h : Evolves s t) : Evolves s (State.acceptWrite t d ident wtime vt k bytes) := by
  unfold State.acceptWrite
  repeat' first | (with_reducible first | exact h | assumption | apply State.count_ev | apply State.setHdr_ev | apply State.updI_ev | apply State.hubWrite_ev | refine Evolves.ite ?_ fun _ => ?_ | intro _ | rfl) | exact rfl | assumption | split | dsimp only

theorem State.judgeWrite_ev {s t : State} {d : Desc} {ident : ℕ} {wtime : ℕ} {vt : Option ℕ} {k : ℕ} {bytes : List Byte} (h : Evolves s t) : Evolves s (State.judgeWrite t d ident wtime vt k bytes).1 := by
  unfold State.judgeWrite
  repeat' first | (with_reducible first | exact h | assumption | apply State.lateWrite_ev | apply State.acceptWrite_ev | apply State.rejectWrite_ev | refine Evolves.ite ?_ fun _ => ?_ | intro _ | rfl) | exact rfl | assumption | split | dsimp only

theorem State.imgLaneWrite_ev {s t : State} {tenant : ℕ} {off : ℕ} {bytes : List Byte} (h : Evolves s t) : Evolves s (State.imgLaneWrite t tenant off bytes).1 := by
  unfold State.imgLaneWrite
  repeat' first | (with_reducible first | exact h | assumption | apply State.hubWrite_ev | apply State.judgeWrite_ev | refine Evolves.ite ?_ fun _ => ?_ | intro _ | rfl) | exact rfl | assumption | split | dsimp only

theorem State.imgWriteRaw_ev {s t : State} {ident : ℕ} {v : ℕ} {wtime : ℕ} {vt : Option ℕ} {bytes : List Byte} (h : Evolves s t) : Evolves s (State.imgWriteRaw t ident v wtime vt bytes).1 := by
  unfold State.imgWriteRaw
  repeat' first | (with_reducible first | exact h | assumption | apply State.judgeWrite_ev | refine Evolves.ite ?_ fun _ => ?_ | intro _ | rfl) | exact rfl | assumption | split | dsimp only

theorem State.stageFallback_ev {s t : State} {v : ℕ} (h : Evolves s t) : Evolves s (State.stageFallback t v) := by
  unfold State.stageFallback
  repeat' first | (with_reducible first | exact h | assumption | apply State.imgWriteRaw_ev | apply State.updI_ev | refine Evolves.ite ?_ fun _ => ?_ | intro _ | rfl) | exact rfl | assumption | split | dsimp only

theorem State.patchStat_ev {s t : State} {st : ℕ} {entry : ℕ} {reason : ℕ} (h : Evolves s t) : Evolves s (State.patchStat t st entry reason) := by
  unfold State.patchStat
  repeat' first | (with_reducible first | exact h | assumption | apply State.set_ev | refine Evolves.ite ?_ fun _ => ?_ | intro _ | rfl) | exact rfl | assumption | split | dsimp only

theorem State.patchArm_ev {s t : State} (h : Evolves s t) : Evolves s (State.patchArm t) := by
  unfold State.patchArm
  repeat' first | (with_reducible first | exact h | assumption | apply State.record_ev | apply State.raiseInt_ev | apply State.patchStat_ev | apply State.updI_ev | refine Evolves.ite ?_ fun _ => ?_ | intro _ | rfl) | exact rfl | assumption | split | dsimp only

theorem State.patchCancel_ev {s t : State} (h : Evolves s t) : Evolves s (State.patchCancel t) := by
  unfold State.patchCancel
  repeat' first | (with_reducible first | exact h | assumption | apply State.updI_ev | apply State.patchStat_ev | refine Evolves.ite ?_ fun _ => ?_ | intro _ | rfl) | exact rfl | assumption | split | dsimp only

theorem State.patchOne_ev {s t : State} {t' : ℕ} {e : ℕ} (h : Evolves s t) : Evolves s (State.patchOne t t' e) := by
  unfold State.patchOne
  repeat' first | (with_reducible first | exact h | assumption | apply State.hubWrite_ev | apply State.retEntry_ev | apply State.each_ev | refine Evolves.ite ?_ fun _ => ?_ | intro _ | rfl) | exact rfl | assumption | split | dsimp only

theorem State.patchApply_ev {s t : State} {j : ℕ} {t' : ℕ} (h : Evolves s t) : Evolves s (State.patchApply t j t') := by
  unfold State.patchApply
  repeat' first | (with_reducible first | exact h | assumption | apply State.patchOne_ev | apply State.updI_ev | apply State.patchStat_ev | apply State.record_ev | apply State.raiseInt_ev | apply State.each_ev | refine Evolves.ite ?_ fun _ => ?_ | intro _ | rfl) | exact rfl | assumption | split | dsimp only

theorem State.updRx_ev {s t : State} {n : ℕ} {f : SafeRxRun → SafeRxRun} (h : Evolves s t) : Evolves s (State.updRx t n f) := by
  unfold State.updRx
  repeat' first | (with_reducible first | exact h | assumption | apply State.updS_ev | refine Evolves.ite ?_ fun _ => ?_ | intro _ | rfl) | exact rfl | assumption | split | dsimp only

theorem State.updTx_ev {s t : State} {n : ℕ} {f : SafeTxRun → SafeTxRun} (h : Evolves s t) : Evolves s (State.updTx t n f) := by
  unfold State.updTx
  repeat' first | (with_reducible first | exact h | assumption | apply State.updS_ev | refine Evolves.ite ?_ fun _ => ?_ | intro _ | rfl) | exact rfl | assumption | split | dsimp only

theorem State.smShow_ev {s t : State} (h : Evolves s t) : Evolves s (State.smShow t) := by
  unfold State.smShow
  repeat' first | (with_reducible first | exact h | assumption | apply State.set_ev | refine Evolves.ite ?_ fun _ => ?_ | intro _ | rfl) | exact rfl | assumption | split | dsimp only

theorem State.smWait_ev {s t : State} {n : ℕ} {c : SafeRx} (h : Evolves s t) : Evolves s (State.smWait t n c) := by
  unfold State.smWait
  repeat' first | (with_reducible first | exact h | assumption | apply State.updRx_ev | apply State.set_ev | apply State.smShow_ev | apply State.stageFallback_ev | refine Evolves.ite ?_ fun _ => ?_ | intro _ | rfl) | exact rfl | assumption | split | dsimp only

theorem State.smFail_ev {s t : State} {n : ℕ} {c : SafeRx} {cause : ℕ} (h : Evolves s t) : Evolves s (State.smFail t n c cause) := by
  unfold State.smFail
  repeat' first | (with_reducible first | exact h | assumption | apply State.updRx_ev | apply State.set_ev | apply State.smShow_ev | apply State.stageFallback_ev | apply State.record_ev | apply State.raiseInt_ev | refine Evolves.ite ?_ fun _ => ?_ | intro _ | rfl) | exact rfl | assumption | split | dsimp only

theorem State.smDiscardRec_ev {s t : State} {n : ℕ} (h : Evolves s t) : Evolves s (State.smDiscardRec t n) := by
  unfold State.smDiscardRec
  repeat' first | (with_reducible first | exact h | assumption | apply State.once_ev | apply State.record_ev | refine Evolves.ite ?_ fun _ => ?_ | intro _ | rfl) | exact rfl | assumption | split | dsimp only

theorem State.smBad_ev {s t : State} {n : ℕ} (h : Evolves s t) : Evolves s (State.smBad t n) := by
  unfold State.smBad
  repeat' first | (with_reducible first | exact h | assumption | apply State.raiseInt_ev | apply State.count_ev | apply State.updRx_ev | refine Evolves.ite ?_ fun _ => ?_ | intro _ | rfl) | exact rfl | assumption | split | dsimp only

theorem State.smTake_ev {s t : State} {n : ℕ} {c : SafeRx} {p : List Byte} {age : ℤ} (h : Evolves s t) : Evolves s (State.smTake t n c p age) := by
  unfold State.smTake
  repeat' first | (with_reducible first | exact h | assumption | apply State.count_ev | apply State.set_ev | apply State.updRx_ev | apply State.addSat_ev | apply State.record_ev | apply State.raiseInt_ev | apply State.imgWriteRaw_ev | refine Evolves.ite ?_ fun _ => ?_ | intro _ | rfl) | exact rfl | assumption | split | dsimp only

theorem State.smCheck_ev {s t : State} {n : ℕ} {c : SafeRx} {p : List Byte} (h : Evolves s t) : Evolves s (State.smCheck t n c p) := by
  unfold State.smCheck
  repeat' first | (with_reducible first | exact h | assumption | apply State.smBad_ev | apply State.smFail_ev | apply State.record_ev | apply State.raiseInt_ev | apply State.smDiscardRec_ev | apply State.count_ev | apply State.set_ev | apply State.smWait_ev | apply State.updRx_ev | apply State.smTake_ev | refine Evolves.ite ?_ fun _ => ?_ | intro _ | rfl) | exact rfl | assumption | split | dsimp only

theorem State.imgWrite_ev {s t : State} {ident : ℕ} {v : ℕ} {wtime : ℕ} {vt : Option ℕ} {bytes : List Byte} (h : Evolves s t) : Evolves s (State.imgWrite t ident v wtime vt bytes) := by
  unfold State.imgWrite
  repeat' first | (with_reducible first | exact h | assumption | apply State.imgWriteRaw_ev | apply State.smCheck_ev | refine Evolves.ite ?_ fun _ => ?_ | intro _ | rfl) | exact rfl | assumption | split | dsimp only

theorem State.smForm_ev {s t : State} {t' : ℕ} {n : ℕ} {c : SafeTx} {d : Desc} (h : Evolves s t) : Evolves s (State.smForm t t' n c d) := by
  unfold State.smForm
  repeat' first | (with_reducible first | exact h | assumption | apply State.acceptWrite_ev | apply State.count_ev | apply State.set_ev | apply State.updTx_ev | refine Evolves.ite ?_ fun _ => ?_ | intro _ | rfl) | exact rfl | assumption | split | dsimp only

theorem State.smFormAll_ev {s t : State} {j : ℕ} {t' : ℕ} (h : Evolves s t) : Evolves s (State.smFormAll t j t') := by
  unfold State.smFormAll
  repeat' first | (with_reducible first | exact h | assumption | apply State.smForm_ev | apply State.each_ev | refine Evolves.ite ?_ fun _ => ?_ | intro _ | rfl) | exact rfl | assumption | split | dsimp only

theorem State.smOff_ev {s t : State} (h : Evolves s t) : Evolves s (State.smOff t) := by
  unfold State.smOff
  repeat' first | (with_reducible first | exact h | assumption | apply State.smShow_ev | apply State.stageFallback_ev | apply State.set_ev | apply State.each_ev | refine Evolves.ite ?_ fun _ => ?_ | intro _ | rfl) | exact rfl | assumption | split | dsimp only

theorem State.smLoad_ev {s t : State} (h : Evolves s t) : Evolves s (State.smLoad t) := by
  unfold State.smLoad
  repeat' first | (with_reducible first | exact h | assumption | apply State.set_ev | apply State.smWait_ev | apply State.each_ev | refine Evolves.ite ?_ fun _ => ?_ | intro _ | rfl) | exact rfl | assumption | split | dsimp only

theorem State.updIl_ev {s t : State} {i : ℕ} {f : IslS → IslS} (h : Evolves s t) : Evolves s (State.updIl t i f) := by
  exact .rest h rfl

theorem State.dlSend_ev {s t : State} {i : ℕ} {b0 : ℕ} {b2 : ℕ} {b3 : ℕ} {w : ℕ} {ask : Bool} (h : Evolves s t) : Evolves s (State.dlSend t i b0 b2 b3 w ask) := by
  unfold State.dlSend
  repeat' first | (with_reducible first | exact h | assumption | apply State.updIl_ev | apply State.setWire_ev | refine Evolves.ite ?_ fun _ => ?_ | intro _ | rfl) | exact rfl | assumption | split | dsimp only

theorem State.ulSend_ev {s t : State} {i : ℕ} {volts : List ℕ} (h : Evolves s t) : Evolves s (State.ulSend t i volts) := by
  unfold State.ulSend
  repeat' first | (with_reducible first | exact h | assumption | apply State.setWire_ev | refine Evolves.ite ?_ fun _ => ?_ | intro _ | rfl) | exact rfl | assumption | split | dsimp only

theorem State.dlAsk_ev {s t : State} {i : ℕ} {b0 : ℕ} {b2 : ℕ} {b3 : ℕ} {volts : List ℕ} {f : IslS → IslS} (h : Evolves s t) : Evolves s (State.dlAsk t i b0 b2 b3 volts f) := by
  unfold State.dlAsk
  repeat' first | (with_reducible first | exact h | assumption | apply State.dlSend_ev | apply State.ulSend_ev | apply State.updIl_ev | refine Evolves.ite ?_ fun _ => ?_ | intro _ | rfl) | exact rfl | assumption | split | dsimp only

theorem State.deEnergise_ev {s t : State} {i : ℕ} {volts : List ℕ} (h : Evolves s t) : Evolves s (State.deEnergise t i volts) := by
  unfold State.deEnergise
  repeat' first | (with_reducible first | exact h | assumption | apply State.dlAsk_ev | refine Evolves.ite ?_ fun _ => ?_ | intro _ | rfl) | exact rfl | assumption | split | dsimp only

theorem State.fioPassive_ev {s t : State} (h : Evolves s t) : Evolves s (State.fioPassive t) := by
  unfold State.fioPassive
  repeat' first | (with_reducible first | exact h | assumption | apply State.deEnergise_ev | apply State.each_ev | refine Evolves.ite ?_ fun _ => ?_ | intro _ | rfl) | exact rfl | assumption | split | dsimp only

theorem State.fioRealign_ev {s t : State} (h : Evolves s t) : Evolves s (State.fioRealign t) := by
  unfold State.fioRealign
  repeat' first | (with_reducible first | exact h | assumption | apply State.setIsl_ev | refine Evolves.ite ?_ fun _ => ?_ | intro _ | rfl) | exact rfl | assumption | split | dsimp only

theorem State.setMode_ev {s t : State} {m : ℕ} (h : Evolves s t) : Evolves s (State.setMode t m) := by
  unfold State.setMode
  repeat' first | (with_reducible first | exact h | assumption | apply State.set_ev | apply State.setB_ev | apply State.raiseInt_ev | refine Evolves.ite ?_ fun _ => ?_ | intro _ | rfl) | exact rfl | assumption | split | dsimp only

theorem State.mirPassive_ev {s t : State} (h : Evolves s t) : Evolves s (State.mirPassive t) := by
  unfold State.mirPassive
  repeat' first | (with_reducible first | exact h | assumption | apply State.set_ev | refine Evolves.ite ?_ fun _ => ?_ | intro _ | rfl) | exact rfl | assumption | split | dsimp only

theorem State.porterShut_ev {s t : State} (h : Evolves s t) : Evolves s (State.porterShut t) := by
  unfold State.porterShut
  repeat' first | (with_reducible first | exact h | assumption | apply State.set_ev | apply State.updN_ev | refine Evolves.ite ?_ fun _ => ?_ | intro _ | rfl) | exact rfl | assumption | split | dsimp only

theorem State.canPassive_ev {s t : State} (h : Evolves s t) : Evolves s (State.canPassive t) := by
  unfold State.canPassive
  repeat' first | (with_reducible first | exact h | assumption | apply State.set_ev | apply State.setCans_ev | apply State.each_ev | refine Evolves.ite ?_ fun _ => ?_ | intro _ | rfl) | exact rfl | assumption | split | dsimp only

theorem State.brShow_ev {s t : State} (h : Evolves s t) : Evolves s (State.brShow t) := by
  unfold State.brShow
  repeat' first | (with_reducible first | exact h | assumption | apply State.set_ev | refine Evolves.ite ?_ fun _ => ?_ | intro _ | rfl) | exact rfl | assumption | split | dsimp only

theorem State.brPassive_ev {s t : State} (h : Evolves s t) : Evolves s (State.brPassive t) := by
  unfold State.brPassive
  repeat' first | (with_reducible first | exact h | assumption | apply State.updBr_ev | apply State.addSat_ev | apply State.set_ev | apply State.record_ev | apply State.brShow_ev | apply State.sysfailOut_ev | refine Evolves.ite ?_ fun _ => ?_ | intro _ | rfl) | exact rfl | assumption | split | dsimp only

theorem State.brOff_ev {s t : State} (h : Evolves s t) : Evolves s (State.brOff t) := by
  unfold State.brOff
  repeat' first | (with_reducible first | exact h | assumption | apply State.brShow_ev | apply State.set_ev | apply State.updBr_ev | refine Evolves.ite ?_ fun _ => ?_ | intro _ | rfl) | exact rfl | assumption | split | dsimp only

theorem State.brLose_ev {s t : State} (h : Evolves s t) : Evolves s (State.brLose t) := by
  unfold State.brLose
  repeat' first | (with_reducible first | exact h | assumption | apply State.sysfailOut_ev | apply State.brOff_ev | refine Evolves.ite ?_ fun _ => ?_ | intro _ | rfl) | exact rfl | assumption | split | dsimp only

theorem State.setPassive_ev {s t : State} {cause : ℕ} (h : Evolves s t) : Evolves s (State.setPassive t cause) := by
  unfold State.setPassive
  repeat' first | (with_reducible first | exact h | assumption | apply State.setLatch_ev | apply State.setMode_ev | apply State.brPassive_ev | apply State.soOpen_ev | apply State.fioPassive_ev | apply State.canPassive_ev | apply State.porterShut_ev | apply State.mirPassive_ev | apply State.smOff_ev | refine Evolves.ite ?_ fun _ => ?_ | intro _ | rfl) | exact rfl | assumption | split | dsimp only

theorem State.freeDone_ev {s t : State} (h : Evolves s t) : Evolves s (State.freeDone t) := by
  unfold State.freeDone
  repeat' first | (with_reducible first | exact h | assumption | apply State.updA_ev | refine Evolves.ite ?_ fun _ => ?_ | intro _ | rfl) | exact rfl | assumption | split | dsimp only

theorem State.voteAddr_ev {s t : State} {rs : List (Fin 3 × Rec)} (h : Evolves s t) : Evolves s (State.voteAddr t rs).1 := by
  unfold State.voteAddr
  repeat' first | (with_reducible first | exact h | assumption | apply State.draw_ev | refine Evolves.ite ?_ fun _ => ?_ | intro _ | rfl) | exact rfl | assumption | split | dsimp only

theorem State.atWrite_ev {s t : State} {e : WEnt} (h : Evolves s t) : Evolves s (State.atWrite t e).1 := by
  unfold State.atWrite
  repeat' first | (with_reducible first | exact h | assumption | apply State.voteAddr_ev | refine Evolves.ite ?_ fun _ => ?_ | intro _ | rfl) | exact rfl | assumption | split | dsimp only

theorem State.atRead_ev {s t : State} {e : REnt} (h : Evolves s t) : Evolves s (State.atRead t e).1 := by
  unfold State.atRead
  repeat' first | (with_reducible first | exact h | assumption | apply State.voteAddr_ev | refine Evolves.ite ?_ fun _ => ?_ | intro _ | rfl) | exact rfl | assumption | split | dsimp only

theorem State.voteSplit_ev {s t : State} (h : Evolves s t) : ∀ u, State.voteSplit t = some u → Evolves s u.1 := by
  unfold State.voteSplit
  intro u e
  split at e
  · cases e; exact State.atWrite_ev h
  · split at e
    · cases e; exact State.atRead_ev h
    · split at e
      · cases e; exact h
      · cases e

theorem State.divFill_ev {s t : State} {lane : ℕ} {kind : ℕ} {pas : Bool} {stray : Bool} {d : DivAt} {synd : ℕ} (h : Evolves s t) : Evolves s (State.divFill t lane kind pas stray d synd).1 := by
  unfold State.divFill
  repeat' first | (with_reducible first | exact h | assumption | apply State.set_ev | apply State.setB_ev | apply State.set64_ev | refine Evolves.ite ?_ fun _ => ?_ | intro _ | rfl) | exact rfl | assumption | split | dsimp only

theorem State.assayPassive_ev {s t : State} {kind : ℕ} {cause : ℕ} {d : DivAt} (h : Evolves s t) : Evolves s (State.assayPassive t kind cause d) := by
  unfold State.assayPassive
  repeat' first | (with_reducible first | exact h | assumption | apply State.divFill_ev | apply State.recordX_ev | apply State.setPassive_ev | refine Evolves.ite ?_ fun _ => ?_ | intro _ | rfl) | exact rfl | assumption | split | dsimp only

theorem State.dropVoter_ev {s t : State} {l : Fin 3} (h : Evolves s t) : Evolves s (State.dropVoter t l) := by
  unfold State.dropVoter
  repeat' first | (with_reducible first | exact h | assumption | apply State.courDropLane_ev | apply State.updA_ev | apply State.set_ev | apply State.updL_ev | apply State.freeDone_ev | apply State.stampsFree_ev | apply State.setMode_ev | apply State.setPassive_ev | apply State.raiseInt_ev | apply State.count_ev | apply State.each_ev | refine Evolves.ite ?_ fun _ => ?_ | intro _ | rfl) | exact rfl | assumption | split | dsimp only

theorem State.splitCheck_ev {s t : State} (h : Evolves s t) : Evolves s (State.splitCheck t) := by
  unfold State.splitCheck
  repeat' first | (with_reducible first | exact h | assumption | apply State.voteSplit_ev | apply State.assayPassive_ev | refine Evolves.ite ?_ fun _ => ?_ | intro _ | rfl) | exact rfl | assumption | split | dsimp only

theorem State.unvote_ev {s t : State} {l : Fin 3} (h : Evolves s t) : Evolves s (State.unvote t l) := by
  unfold State.unvote
  repeat' first | (with_reducible first | exact h | assumption | apply State.splitCheck_ev | apply State.dropVoter_ev | refine Evolves.ite ?_ fun _ => ?_ | intro _ | rfl) | exact rfl | assumption | split | dsimp only

theorem State.setCause_ev {s t : State} {l : Fin 3} {cause : ℕ} {pair : ℕ} {item : ℕ} (h : Evolves s t) : Evolves s (State.setCause t l cause pair item) := by
  unfold State.setCause
  repeat' first | (with_reducible first | exact h | assumption | apply State.set_ev | refine Evolves.ite ?_ fun _ => ?_ | intro _ | rfl) | exact rfl | assumption | split | dsimp only

theorem State.lmRecord_ev {s t : State} {code : ℕ} {sev : ℕ} {l : Fin 3} {mask : ℕ} (h : Evolves s t) : Evolves s (State.lmRecord t code sev l mask) := by
  unfold State.lmRecord
  repeat' first | (with_reducible first | exact h | assumption | apply State.recordX_ev | refine Evolves.ite ?_ fun _ => ?_ | intro _ | rfl) | exact rfl | assumption | split | dsimp only

theorem State.tenantRefuse_ev {s t : State} {t' : ℕ} {addr : ℕ} {kind : ℕ} {bank : Bool} (h : Evolves s t) : Evolves s (State.tenantRefuse t t' addr kind bank) := by
  unfold State.tenantRefuse
  repeat' first | (with_reducible first | exact h | assumption | apply State.count_ev | apply State.set_ev | apply State.setB_ev | apply State.raiseInt_ev | apply State.recordT_ev | refine Evolves.ite ?_ fun _ => ?_ | intro _ | rfl) | exact rfl | assumption | split | dsimp only

theorem State.writeRefuse_ev {s t : State} {a : Acc} {addr : ℕ} {kind : ℕ} {bank : Bool} (h : Evolves s t) : Evolves s (State.writeRefuse t a addr kind bank) := by
  unfold State.writeRefuse
  repeat' first | (with_reducible first | exact h | assumption | apply State.storeFault_ev | apply State.tenantRefuse_ev | refine Evolves.ite ?_ fun _ => ?_ | intro _ | rfl) | exact rfl | assumption | split | dsimp only

theorem State.noteAccess_ev {s t : State} {a : Acc} (h : Evolves s t) : Evolves s (State.noteAccess t a) := by
  unfold State.noteAccess
  repeat' first | (with_reducible first | exact h | assumption | apply State.updCyc_ev | refine Evolves.ite ?_ fun _ => ?_ | intro _ | rfl) | exact rfl | assumption | split | dsimp only

theorem State.writeAt_ev {s t : State} {a : Acc} {page : ℕ} {off : ℕ} {f : State → State} (h : Evolves s t) (hf : ∀ u, Evolves s u → Evolves s (f u)) : Evolves s (State.writeAt t a page off f) := by
  unfold State.writeAt
  repeat' first | (with_reducible first | exact h | assumption | apply State.noteAccess_ev | apply State.writeRefuse_ev | refine Evolves.ite ?_ fun _ => ?_ | intro _ | rfl | apply hf) | exact rfl | assumption | split | dsimp only

theorem State.flightShow_ev {s t : State} {o : ℕ} (h : Evolves s t) : Evolves s (State.flightShow t o) := by
  unfold State.flightShow
  repeat' first | (with_reducible first | exact h | assumption | apply State.raiseTo_ev | apply State.set_ev | apply State.setB_ev | refine Evolves.ite ?_ fun _ => ?_ | intro _ | rfl) | exact rfl | assumption | split | dsimp only

theorem State.takeCredit_ev {s t : State} {o : ℕ} {p : Fin 4} {seq : ℕ} {done : Bool} (h : Evolves s t) : Evolves s (State.takeCredit t o p seq done) := by
  unfold State.takeCredit
  repeat' first | (with_reducible first | exact h | assumption | apply State.flightShow_ev | apply State.updMc_ev | refine Evolves.ite ?_ fun _ => ?_ | intro _ | rfl) | exact rfl | assumption | split | dsimp only

theorem State.creditHold_ev {s t : State} {o : ℕ} (h : Evolves s t) : Evolves s (State.creditHold t o) := by
  unfold State.creditHold
  repeat' first | (with_reducible first | exact h | assumption | apply State.raiseInt_ev | apply State.count_ev | apply State.once_ev | apply State.recordT_ev | refine Evolves.ite ?_ fun _ => ?_ | intro _ | rfl) | exact rfl | assumption | split | dsimp only

theorem State.commitTenant_ev {s t : State} {t' : ℕ} (h : Evolves s t) : Evolves s (State.commitTenant t t') := by
  unfold State.commitTenant
  repeat' first | (with_reducible first | exact h | assumption | apply State.set_ev | apply State.each_ev | refine Evolves.ite ?_ fun _ => ?_ | intro _ | rfl) | exact rfl | assumption | split | dsimp only

theorem State.epochCommit_ev {s t : State} (h : Evolves s t) : Evolves s (State.epochCommit t) := by
  unfold State.epochCommit
  repeat' first | (with_reducible first | exact h | assumption | apply State.set_ev | apply State.setB_ev | apply State.record_ev | apply State.raiseInt_ev | apply State.commitTenant_ev | apply State.flightShow_ev | apply State.each_ev | refine Evolves.ite ?_ fun _ => ?_ | intro _ | rfl) | exact rfl | assumption | split | dsimp only

theorem State.tenSoft_ev {s t : State} {t' : ℕ} {v : ℕ} (h : Evolves s t) : Evolves s (State.tenSoft t t' v) := by
  unfold State.tenSoft
  repeat' first | (with_reducible first | exact h | assumption | apply State.courEvent_ev | refine Evolves.ite ?_ fun _ => ?_ | intro _ | rfl) | exact rfl | assumption | split | dsimp only

theorem State.setBank_ev {s t : State} {b : ℕ} {v : ℕ} (h : Evolves s t) : Evolves s (State.setBank t b v) := by
  unfold State.setBank
  repeat' first | (with_reducible first | exact h | assumption | apply State.set_ev | refine Evolves.ite ?_ fun _ => ?_ | intro _ | rfl) | exact rfl | assumption | split | dsimp only

theorem State.fillRefuse_ev {s t : State} {r : ℕ} (h : Evolves s t) : Evolves s (State.fillRefuse t r) := by
  unfold State.fillRefuse
  repeat' first | (with_reducible first | exact h | assumption | apply State.set_ev | apply State.record_ev | apply State.raiseInt_ev | refine Evolves.ite ?_ fun _ => ?_ | intro _ | rfl) | exact rfl | assumption | split | dsimp only

theorem State.fillStart_ev {s t : State} (h : Evolves s t) : Evolves s (State.fillStart t) := by
  unfold State.fillStart
  repeat' first | (with_reducible first | exact h | assumption | apply State.fillRefuse_ev | apply State.set_ev | apply State.updMc_ev | refine Evolves.ite ?_ fun _ => ?_ | intro _ | rfl) | exact rfl | assumption | split | dsimp only

theorem State.fillDone_ev {s t : State} (h : Evolves s t) : Evolves s (State.fillDone t) := by
  unfold State.fillDone
  repeat' first | (with_reducible first | exact h | assumption | apply State.hubFill_ev | apply State.setBank_ev | apply State.set_ev | apply State.raiseInt_ev | apply State.each_ev | refine Evolves.ite ?_ fun _ => ?_ | intro _ | rfl) | exact rfl | assumption | split | dsimp only

theorem State.fillAbandon_ev {s t : State} (h : Evolves s t) : Evolves s (State.fillAbandon t) := by
  unfold State.fillAbandon
  repeat' first | (with_reducible first | exact h | assumption | apply State.set_ev | refine Evolves.ite ?_ fun _ => ?_ | intro _ | rfl) | exact rfl | assumption | split | dsimp only

theorem State.scrubPass_ev {s t : State} {l : List ℕ} (h : Evolves s t) : Evolves s (State.scrubPass t l) := by
  unfold State.scrubPass
  repeat' first | (with_reducible first | exact h | assumption | apply State.set_ev | apply State.count_ev | apply State.raiseInt_ev | apply State.updMc_ev | apply State.record_ev | apply State.setPassive_ev | apply State.each_ev | refine Evolves.ite ?_ fun _ => ?_ | intro _ | rfl) | exact rfl | assumption | split | dsimp only

theorem State.holdRelease_ev {s t : State} (h : Evolves s t) : Evolves s (State.holdRelease t) := by
  unfold State.holdRelease
  repeat' first | (with_reducible first | exact h | assumption | apply State.releaseTry_ev | apply State.updP_ev | apply State.updM_ev | apply State.set_ev | apply State.each_ev | refine Evolves.ite ?_ fun _ => ?_ | intro _ | rfl) | exact rfl | assumption | split | dsimp only

theorem State.rejoinFail_ev {s t : State} {l : Fin 3} {cause : ℕ} {pair : ℕ} {item : ℕ} {before : State → State} (h : Evolves s t) (hf : ∀ u, Evolves s u → Evolves s (before u)) : Evolves s (State.rejoinFail t l cause pair item before) := by
  unfold State.rejoinFail
  repeat' first | (with_reducible first | exact h | assumption | apply State.courDropLane_ev | apply State.holdRelease_ev | apply State.setCause_ev | apply State.set_ev | apply State.lmRecord_ev | apply State.updL_ev | apply State.updA_ev | apply State.freeDone_ev | apply State.raiseInt_ev | apply State.count_ev | refine Evolves.ite ?_ fun _ => ?_ | intro _ | rfl | apply hf) | exact rfl | assumption | split | dsimp only

theorem State.furtherPass_ev {s t : State} {l : Fin 3} (h : Evolves s t) : Evolves s (State.furtherPass t l) := by
  unfold State.furtherPass
  repeat' first | (with_reducible first | exact h | assumption | apply State.rejoinFail_ev | apply State.set_ev | apply State.copyPages_ev | refine Evolves.ite ?_ fun _ => ?_ | intro _ | rfl) | exact rfl | assumption | split | dsimp only

theorem State.holdCommand_ev {s t : State} (h : Evolves s t) : Evolves s (State.holdCommand t) := by
  unfold State.holdCommand
  repeat' first | (with_reducible first | exact h | assumption | apply State.updM_ev | apply State.set_ev | refine Evolves.ite ?_ fun _ => ?_ | intro _ | rfl) | exact rfl | assumption | split | dsimp only

theorem State.holdPoint_ev {s t : State} {l : Fin 3} {p : Fin 4} (h : Evolves s t) : Evolves s (State.holdPoint t l p) := by
  unfold State.holdPoint
  repeat' first | (with_reducible first | exact h | assumption | apply State.updP_ev | apply State.set_ev | apply State.furtherPass_ev | apply State.holdRelease_ev | refine Evolves.ite ?_ fun _ => ?_ | intro _ | rfl) | exact rfl | assumption | split | dsimp only

end Sys2Proof.Machine
end

