-- ==== Sys2Proof/Laws/Evolves2.lean ====
section
/-! SUPPORT. Evolves for the operations of Machine/ on State: the passive latch, tenants, the lane manager, queues, mirroring. -/

set_option linter.unusedTactic false
set_option linter.unreachableTactic false

namespace Sys2Proof.Machine

theorem State.windowEnd_ev {s t : State} (h : Evolves s t) : Evolves s (State.windowEnd t) := by
  unfold State.windowEnd
  repeat' first | (with_reducible first | exact h | assumption | apply State.copyPages_ev | apply State.updL_ev | apply State.updC_ev | apply State.set_ev | apply State.updA_ev | apply State.updM_ev | apply State.holdRelease_ev | apply State.each_ev | refine Evolves.ite ?_ fun _ => ?_ | intro _ | rfl) | exact rfl | assumption | split | dsimp only

theorem State.rejoinConfirm_ev {s t : State} (h : Evolves s t) : Evolves s (State.rejoinConfirm t) := by
  unfold State.rejoinConfirm
  repeat' first | (with_reducible first | exact h | assumption | apply State.set_ev | apply State.setMode_ev | apply State.lmRecord_ev | apply State.raiseInt_ev | refine Evolves.ite ?_ fun _ => ?_ | intro _ | rfl) | exact rfl | assumption | split | dsimp only

theorem State.passEnd_ev {s t : State} {crcFail : Bool} (h : Evolves s t) : Evolves s (State.passEnd t crcFail) := by
  unfold State.passEnd
  repeat' first | (with_reducible first | exact h | assumption | apply State.rejoinFail_ev | apply State.set_ev | apply State.updM_ev | apply State.furtherPass_ev | refine Evolves.ite ?_ fun _ => ?_ | intro _ | rfl) | exact rfl | assumption | split | dsimp only

theorem State.bootFault_ev {s t : State} {l : Fin 3} {cause pair item code : ℕ} (h : Evolves s t) : Evolves s (State.bootFault t l cause pair item code) := by
  unfold State.bootFault
  repeat' first | (with_reducible first | exact h | assumption | apply State.lmRecord_ev | apply State.setCause_ev | apply State.set_ev | apply State.raiseInt_ev | apply State.count_ev | apply State.updM_ev | refine Evolves.ite ?_ fun _ => ?_ | intro _ | rfl) | exact rfl | assumption | split | dsimp only

theorem State.lanesEnter_ev {s t : State} (h : Evolves s t) : Evolves s (State.lanesEnter t) := by
  unfold State.lanesEnter
  repeat' first | (with_reducible first | exact h | assumption | apply State.set_ev | apply State.setMode_ev | apply State.updM_ev | apply State.each_ev | refine Evolves.ite ?_ fun _ => ?_ | intro _ | rfl) | exact rfl | assumption | split | dsimp only

theorem State.enterTry_ev {s t : State} (h : Evolves s t) : Evolves s (State.enterTry t) := by
  unfold State.enterTry
  repeat' first | (with_reducible first | exact h | assumption | apply State.lanesEnter_ev | refine Evolves.ite ?_ fun _ => ?_ | intro _ | rfl) | exact rfl | assumption | split | dsimp only

theorem State.laneReady_ev {s t : State} {l : Fin 3} {failed : Option (Fin 4)} (h : Evolves s t) : Evolves s (State.laneReady t l failed) := by
  unfold State.laneReady
  repeat' first | (with_reducible first | exact h | assumption | apply State.enterTry_ev | apply State.raiseInt_ev | apply State.bootFault_ev | apply State.updM_ev | refine Evolves.ite ?_ fun _ => ?_ | intro _ | rfl) | exact rfl | assumption | split | dsimp only

theorem State.readyDeadline_ev {s t : State} (h : Evolves s t) : Evolves s (State.readyDeadline t) := by
  unfold State.readyDeadline
  repeat' first | (with_reducible first | exact h | assumption | apply State.lanesEnter_ev | apply State.setPassive_ev | apply State.bootFault_ev | apply State.each_ev | refine Evolves.ite ?_ fun _ => ?_ | intro _ | rfl) | exact rfl | assumption | split | dsimp only

theorem State.laneFault_ev {s t : State} {l : Fin 3} {cause pair item code : ℕ} (h : Evolves s t) : Evolves s (State.laneFault t l cause pair item code) := by
  unfold State.laneFault
  repeat' first | (with_reducible first | exact h | assumption | apply State.lmRecord_ev | apply State.unvote_ev | apply State.setCause_ev | apply State.rejoinFail_ev | apply State.enterTry_ev | apply State.bootFault_ev | refine Evolves.ite ?_ fun _ => ?_ | intro _ | rfl) | exact rfl | assumption | split | dsimp only

theorem State.testRun_ev {s t : State} {failure : Option TestFail} (h : Evolves s t) : Evolves s (State.testRun t failure) := by
  unfold State.testRun
  repeat' first | (with_reducible first | exact h | assumption | apply State.updM_ev | apply State.setB_ev | apply State.count_ev | apply State.raiseInt_ev | apply State.laneFault_ev | apply State.record_ev | apply State.setPassive_ev | refine Evolves.ite ?_ fun _ => ?_ | intro _ | rfl) | exact rfl | assumption | split | dsimp only

theorem State.rejoinDrop_ev {s t : State} (h : Evolves s t) : Evolves s (State.rejoinDrop t) := by
  unfold State.rejoinDrop
  split
  · exact State.rejoinFail_ev h fun _ g => g
  · exact h

theorem State.lmReset_ev {s t : State} {l : Fin 3} (h : Evolves s t) : Evolves s (State.lmReset t l) := by
  unfold State.lmReset
  repeat' first | (with_reducible first | exact h | assumption | apply State.set_ev | apply State.updM_ev | apply State.laneReset_ev | apply State.lmRecord_ev | refine Evolves.ite ?_ fun _ => ?_ | intro _ | rfl) | exact rfl | assumption | split | dsimp only

theorem State.lmPowerDown_ev {s t : State} {l : Fin 3} (h : Evolves s t) : Evolves s (State.lmPowerDown t l) := by
  unfold State.lmPowerDown
  repeat' first | (with_reducible first | exact h | assumption | apply State.set_ev | refine Evolves.ite ?_ fun _ => ?_ | intro _ | rfl) | exact rfl | assumption | split | dsimp only

theorem State.lmAbandon_ev {s t : State} {l : Fin 3} (h : Evolves s t) : Evolves s (State.lmAbandon t l) := by
  unfold State.lmAbandon
  repeat' first | (with_reducible first | exact h | assumption | apply State.set_ev | apply State.rejoinFail_ev | refine Evolves.ite ?_ fun _ => ?_ | intro _ | rfl) | exact rfl | assumption | split | dsimp only

theorem State.lmCmd_ev {s t : State} {v : ℕ} (h : Evolves s t) : Evolves s (State.lmCmd t v) := by
  unfold State.lmCmd
  repeat' first | (with_reducible first | exact h | assumption | apply State.set_ev | apply State.lmReset_ev | apply State.lmPowerDown_ev | apply State.lmAbandon_ev | refine Evolves.ite ?_ fun _ => ?_ | intro _ | rfl) | exact rfl | assumption | split | dsimp only

theorem State.rejoinBoot_ev {s t : State} {failed : Option (Fin 4)} (h : Evolves s t) : Evolves s (State.rejoinBoot t failed) := by
  unfold State.rejoinBoot
  repeat' first | (with_reducible first | exact h | assumption | apply State.rejoinFail_ev | apply State.lmRecord_ev | apply State.raiseInt_ev | apply State.set_ev | apply State.copyPages_ev | refine Evolves.ite ?_ fun _ => ?_ | intro _ | rfl) | exact rfl | assumption | split | dsimp only

theorem State.attach_ev {s t : State} {l : Fin 3} (h : Evolves s t) : Evolves s (State.attach t l) := by
  unfold State.attach
  repeat' first | (with_reducible first | exact h | assumption | apply State.set_ev | apply State.raiseInt_ev | apply State.count_ev | apply State.lmRecord_ev | apply State.unvote_ev | apply State.setCause_ev | apply State.updP_ev | apply State.soOpen_ev | apply State.set64_ev | apply State.each_ev | refine Evolves.ite ?_ fun _ => ?_ | intro _ | rfl) | exact rfl | assumption | split | dsimp only

theorem State.detach_ev {s t : State} (h : Evolves s t) : Evolves s (State.detach t) := by
  unfold State.detach
  repeat' first | (with_reducible first | exact h | assumption | apply State.laneReset_ev | apply State.updM_ev | apply State.set_ev | apply State.raiseInt_ev | apply State.lmRecord_ev | refine Evolves.ite ?_ fun _ => ?_ | intro _ | rfl) | exact rfl | assumption | split | dsimp only

theorem State.detachEnd_ev {s t : State} {failed test : Bool} (h : Evolves s t) : Evolves s (State.detachEnd t failed test) := by
  unfold State.detachEnd
  repeat' first | (with_reducible first | exact h | assumption | apply State.updM_ev | apply State.setCause_ev | apply State.set_ev | apply State.raiseInt_ev | apply State.count_ev | apply State.lmRecord_ev | apply State.on_ev | apply State.each_ev | refine Evolves.ite ?_ fun _ => ?_ | intro _ | rfl) | exact rfl | assumption | split | dsimp only

theorem State.updQ_ev {s t : State} {n : ℕ} {f : QS → QS} (h : Evolves s t) : Evolves s (State.updQ t n f) := by
  exact .rest h rfl

theorem State.qShow_ev {s t : State} (h : Evolves s t) : Evolves s (State.qShow t) := by
  unfold State.qShow
  repeat' first | (with_reducible first | exact h | assumption | apply State.set_ev | refine Evolves.ite ?_ fun _ => ?_ | intro _ | rfl) | exact rfl | assumption | split | dsimp only

theorem State.qEvent_ev {s t : State} {n : ℕ} {old : ℕ} {done : Bool} (h : Evolves s t) : Evolves s (State.qEvent t n old done) := by
  unfold State.qEvent
  repeat' first | (with_reducible first | exact h | assumption | apply State.courEvent_ev | refine Evolves.ite ?_ fun _ => ?_ | intro _ | rfl) | exact rfl | assumption | split | dsimp only

theorem State.qStore_ev {s t : State} {n : ℕ} {i : ℕ} {w : ℕ} {poison : Bool} {last : Bool} {valid : ℕ} (h : Evolves s t) : Evolves s (State.qStore t n i w poison last valid) := by
  unfold State.qStore
  repeat' first | (with_reducible first | exact h | assumption | apply State.hubSet_ev | refine Evolves.ite ?_ fun _ => ?_ | intro _ | rfl) | exact rfl | assumption | split | dsimp only

theorem State.qMarkLast_ev {s t : State} {n : ℕ} {i : ℕ} {valid : ℕ} (h : Evolves s t) : Evolves s (State.qMarkLast t n i valid) := by
  unfold State.qMarkLast
  repeat' first | (with_reducible first | exact h | assumption | apply State.hubSet_ev | refine Evolves.ite ?_ fun _ => ?_ | intro _ | rfl) | exact rfl | assumption | split | dsimp only

theorem State.qPad_ev {s t : State} {n : ℕ} (h : Evolves s t) : Evolves s (State.qPad t n) := by
  unfold State.qPad
  repeat' first | (with_reducible first | exact h | assumption | apply State.qStore_ev | apply State.updQ_ev | apply State.each_ev | refine Evolves.ite ?_ fun _ => ?_ | intro _ | rfl) | exact rfl | assumption | split | dsimp only

theorem State.qFinish_ev {s t : State} {n : ℕ} {p : QProg} (h : Evolves s t) : Evolves s (State.qFinish t n p) := by
  unfold State.qFinish
  repeat' first | (with_reducible first | exact h | assumption | apply State.qMarkLast_ev | apply State.qPad_ev | apply State.qStore_ev | apply State.updQ_ev | apply State.raiseInt_ev | apply State.count_ev | apply State.once_ev | apply State.record_ev | refine Evolves.ite ?_ fun _ => ?_ | intro _ | rfl) | exact rfl | assumption | split | dsimp only

theorem State.qPushPkt_ev {s t : State} {n : ℕ} {w : ℕ} {k : ℕ} {tag : ℕ} {poison : Bool} (h : Evolves s t) : Evolves s (State.qPushPkt t n w k tag poison) := by
  unfold State.qPushPkt
  repeat' first | (with_reducible first | exact h | assumption | apply State.updQ_ev | apply State.qStore_ev | apply State.qFinish_ev | refine Evolves.ite ?_ fun _ => ?_ | intro _ | rfl) | exact rfl | assumption | split | dsimp only

theorem State.qPushStream_ev {s t : State} {n : ℕ} {w : ℕ} {k : ℕ} {poison : Bool} (h : Evolves s t) : Evolves s (State.qPushStream t n w k poison) := by
  unfold State.qPushStream
  repeat' first | (with_reducible first | exact h | assumption | apply State.updQ_ev | apply State.qStore_ev | apply State.qPad_ev | refine Evolves.ite ?_ fun _ => ?_ | intro _ | rfl) | exact rfl | assumption | split | dsimp only

theorem State.qDo_ev {s t : State} {n : ℕ} {w : ℕ} {k : ℕ} {tag : ℕ} {poison : Bool} (h : Evolves s t) : Evolves s (State.qDo t n w k tag poison) := by
  unfold State.qDo
  repeat' first | (with_reducible first | exact h | assumption | apply State.qPushPkt_ev | apply State.qPushStream_ev | apply State.qEvent_ev | refine Evolves.ite ?_ fun _ => ?_ | intro _ | rfl) | exact rfl | assumption | split | dsimp only

theorem State.markDone_ev {s t : State} {p : Fin 4} {seq : ℕ} {b : Bool} (h : Evolves s t) : Evolves s (State.markDone t p seq b) := by
  unfold State.markDone
  repeat' first | (with_reducible first | exact h | assumption | apply State.updA_ev | apply State.updMc_ev | refine Evolves.ite ?_ fun _ => ?_ | intro _ | rfl) | exact rfl | assumption | split | dsimp only

theorem State.qPush_ev {s t : State} {n : ℕ} {h' : QHeld} (h : Evolves s t) : Evolves s (State.qPush t n h') := by
  unfold State.qPush
  repeat' first | (with_reducible first | exact h | assumption | apply State.qDo_ev | apply State.qShow_ev | apply State.updQ_ev | apply State.markDone_ev | refine Evolves.ite ?_ fun _ => ?_ | intro _ | rfl) | exact rfl | assumption | split | dsimp only

theorem State.qHeldDone_ev {s t : State} {n : ℕ} (h : Evolves s t) : Evolves s (State.qHeldDone t n) := by
  unfold State.qHeldDone
  repeat' first | (with_reducible first | exact h | assumption | apply State.qDo_ev | apply State.updQ_ev | apply State.qShow_ev | apply State.markDone_ev | refine Evolves.ite ?_ fun _ => ?_ | intro _ | rfl) | exact rfl | assumption | split | dsimp only

theorem State.qPacket_ev {s t : State} {n : ℕ} {tag : ℕ} {bytes : List Byte} (h : Evolves s t) : Evolves s (State.qPacket t n tag bytes) := by
  unfold State.qPacket
  repeat' first | (with_reducible first | exact h | assumption | apply State.qPush_ev | apply State.each_ev | refine Evolves.ite ?_ fun _ => ?_ | intro _ | rfl) | exact rfl | assumption | split | dsimp only

theorem State.qselWrite_ev {s t : State} {c : ℕ} {v : ℕ} (h : Evolves s t) : Evolves s (State.qselWrite t c v) := by
  unfold State.qselWrite
  repeat' first | (with_reducible first | exact h | assumption | apply State.set_ev | apply State.each_ev | refine Evolves.ite ?_ fun _ => ?_ | intro _ | rfl) | exact rfl | assumption | split | dsimp only

theorem State.qPortPush_ev {s t : State} {a : Acc} {off : ℕ} {k : ℕ} {v : ℕ} (h : Evolves s t) : Evolves s (State.qPortPush t a off k v) := by
  unfold State.qPortPush
  repeat' first | (with_reducible first | exact h | assumption | apply State.writeRefuse_ev | apply State.storeFault_ev | apply State.qPush_ev | refine Evolves.ite ?_ fun _ => ?_ | intro _ | rfl) | exact rfl | assumption | split | dsimp only

theorem State.qClr_ev {s t : State} {a : Acc} {v : ℕ} (h : Evolves s t) : Evolves s (State.qClr t a v) := by
  unfold State.qClr
  repeat' first | (with_reducible first | exact h | assumption | apply State.writeRefuse_ev | apply State.updQ_ev | refine Evolves.ite ?_ fun _ => ?_ | intro _ | rfl) | exact rfl | assumption | split | dsimp only

theorem State.setLasttag_ev {s t : State} {c : ℕ} {valid : ℕ} {poison : Bool} {under : Bool} {last : Bool} (h : Evolves s t) : Evolves s (State.setLasttag t c valid poison under last) := by
  unfold State.setLasttag
  repeat' first | (with_reducible first | exact h | assumption | apply State.setB_ev | apply State.set_ev | refine Evolves.ite ?_ fun _ => ?_ | intro _ | rfl) | exact rfl | assumption | split | dsimp only

theorem State.qUnderrun_ev {s t : State} {n : ℕ} {c : ℕ} (h : Evolves s t) : Evolves s (State.qUnderrun t n c).1 := by
  unfold State.qUnderrun
  repeat' first | (with_reducible first | exact h | assumption | apply State.setLasttag_ev | apply State.updQ_ev | apply State.raiseInt_ev | apply State.count_ev | refine Evolves.ite ?_ fun _ => ?_ | intro _ | rfl) | exact rfl | assumption | split | dsimp only

theorem State.qPoison_ev {s t : State} {n : ℕ} {i : ℕ} (h : Evolves s t) : Evolves s (State.qPoison t n i) := by
  unfold State.qPoison
  repeat' first | (with_reducible first | exact h | assumption | apply State.set_ev | apply State.count_ev | apply State.record_ev | apply State.raiseInt_ev | apply State.updQ_ev | apply State.setPassive_ev | refine Evolves.ite ?_ fun _ => ?_ | intro _ | rfl) | exact rfl | assumption | split | dsimp only

theorem State.qTake_ev {s t : State} {n : ℕ} (h : Evolves s t) : Evolves s (State.qTake t n) := by
  unfold State.qTake
  repeat' first | (with_reducible first | exact h | assumption | apply State.qPoison_ev | apply State.updQ_ev | refine Evolves.ite ?_ fun _ => ?_ | intro _ | rfl) | exact rfl | assumption | split | dsimp only

theorem State.qTakeHeld_ev {s t : State} {n : ℕ} (h : Evolves s t) : Evolves s (State.qTakeHeld t n) := by
  unfold State.qTakeHeld
  repeat' first | (with_reducible first | exact h | assumption | apply State.qTake_ev | refine Evolves.ite ?_ fun _ => ?_ | intro _ | rfl) | exact rfl | assumption | split | dsimp only

theorem State.qPop_ev {s t : State} {n : ℕ} {c : ℕ} {bad : Bool} (h : Evolves s t) : Evolves s (State.qPop t n c bad).1 := by
  unfold State.qPop
  repeat' first | (with_reducible first | exact h | assumption | apply State.qTakeHeld_ev | apply State.qUnderrun_ev | apply State.updQ_ev | apply State.qPoison_ev | apply State.set_ev | apply State.setLasttag_ev | apply State.each_ev | refine Evolves.ite ?_ fun _ => ?_ | intro _ | rfl) | exact rfl | assumption | split | dsimp only

theorem State.qPortPop_ev {s t : State} {a : Acc} {bad : Bool} (h : Evolves s t) : Evolves s (State.qPortPop t a bad).1 := by
  unfold State.qPortPop
  repeat' first | (with_reducible first | exact h | assumption | apply State.tenantRefuse_ev | apply State.qPop_ev | refine Evolves.ite ?_ fun _ => ?_ | intro _ | rfl) | exact rfl | assumption | split | dsimp only

theorem State.qRefuse_ev {s t : State} {n : ℕ} {r : ℕ} {ov : ℕ} (h : Evolves s t) : Evolves s (State.qRefuse t n r ov) := by
  unfold State.qRefuse
  repeat' first | (with_reducible first | exact h | assumption | apply State.set_ev | apply State.record_ev | apply State.raiseInt_ev | refine Evolves.ite ?_ fun _ => ?_ | intro _ | rfl) | exact rfl | assumption | split | dsimp only

theorem State.qEnable_ev {s t : State} (h : Evolves s t) : Evolves s (State.qEnable t) := by
  unfold State.qEnable
  repeat' first | (with_reducible first | exact h | assumption | apply State.qRefuse_ev | apply State.set_ev | apply State.qShow_ev | apply State.updQ_ev | refine Evolves.ite ?_ fun _ => ?_ | intro _ | rfl) | exact rfl | assumption | split | dsimp only

theorem State.brCplDrop_ev {s t : State} {n : ℕ} (h : Evolves s t) : Evolves s (State.brCplDrop t n) := by
  unfold State.brCplDrop
  repeat' first | (with_reducible first | exact h | assumption | apply State.brShow_ev | apply State.addSat_ev | apply State.updBr_ev | refine Evolves.ite ?_ fun _ => ?_ | intro _ | rfl) | exact rfl | assumption | split | dsimp only

theorem State.qDisable_ev {s t : State} {n : ℕ} (h : Evolves s t) : Evolves s (State.qDisable t n) := by
  unfold State.qDisable
  repeat' first | (with_reducible first | exact h | assumption | apply State.updQ_ev | apply State.markDone_ev | apply State.storeFault_ev | apply State.qShow_ev | apply State.brCplDrop_ev | apply State.each_ev | refine Evolves.ite ?_ fun _ => ?_ | intro _ | rfl) | exact rfl | assumption | split | dsimp only

theorem State.qAllOff_ev {s t : State} (h : Evolves s t) : Evolves s (State.qAllOff t) := by
  unfold State.qAllOff
  repeat' first | (with_reducible first | exact h | assumption | apply State.qDisable_ev | apply State.each_ev | refine Evolves.ite ?_ fun _ => ?_ | intro _ | rfl) | exact rfl | assumption | split | dsimp only

theorem State.tallyMask_ev {s t : State} {r : ℕ} (h : Evolves s t) : Evolves s (State.tallyMask t r) := by
  unfold State.tallyMask
  repeat' first | (with_reducible first | exact h | assumption | apply State.set_ev | refine Evolves.ite ?_ fun _ => ?_ | intro _ | rfl) | exact rfl | assumption | split | dsimp only

theorem State.tallyGrant_ev {s t : State} {portB : Bool} {bank : ℕ} {r : ℕ} {waitNs : ℕ} (h : Evolves s t) : Evolves s (State.tallyGrant t portB bank r waitNs) := by
  unfold State.tallyGrant
  repeat' first | (with_reducible first | exact h | assumption | apply State.recordSec_ev | apply State.raiseInt_ev | apply State.count_ev | apply State.raiseTo_ev | apply State.updTl_ev | apply State.tallyMask_ev | refine Evolves.ite ?_ fun _ => ?_ | intro _ | rfl) | exact rfl | assumption | split | dsimp only

theorem State.tagsMax_ev {s t : State} (h : Evolves s t) : Evolves s (State.tagsMax t) := by
  unfold State.tagsMax
  repeat' first | (with_reducible first | exact h | assumption | apply State.set_ev | refine Evolves.ite ?_ fun _ => ?_ | intro _ | rfl) | exact rfl | assumption | split | dsimp only

theorem State.tagTake_ev {s t : State} {a : Acc} (h : Evolves s t) : Evolves s (State.tagTake t a) := by
  unfold State.tagTake
  repeat' first | (with_reducible first | exact h | assumption | apply State.tagsMax_ev | apply State.set_ev | apply State.raiseInt_ev | apply State.count_ev | apply State.once_ev | apply State.recordT_ev | refine Evolves.ite ?_ fun _ => ?_ | intro _ | rfl) | exact rfl | assumption | split | dsimp only

theorem State.sramCount_ev {s t : State} {a : Acc} {off : ℕ} {r : SramNo} (h : Evolves s t) : Evolves s (State.sramCount t a off r) := by
  unfold State.sramCount
  repeat' first | (with_reducible first | exact h | assumption | apply State.tenantRefuse_ev | refine Evolves.ite ?_ fun _ => ?_ | intro _ | rfl) | exact rfl | assumption | split | dsimp only

theorem State.sramStore_ev {s t : State} {a : Acc} {off : ℕ} {bytes : List Byte} (h : Evolves s t) : Evolves s (State.sramStore t a off bytes) := by
  unfold State.sramStore
  repeat' first | (with_reducible first | exact h | assumption | apply State.sramCount_ev | apply State.storeFault_ev | apply State.imgLaneWrite_ev | apply State.hubWrite_ev | refine Evolves.ite ?_ fun _ => ?_ | intro _ | rfl) | exact rfl | assumption | split | dsimp only

theorem State.sramLoad_ev {s t : State} {a : Acc} {off : ℕ} {n : ℕ} (h : Evolves s t) : Evolves s (State.sramLoad t a off n).1 := by
  unfold State.sramLoad
  repeat' first | (with_reducible first | exact h | assumption | apply State.sramCount_ev | refine Evolves.ite ?_ fun _ => ?_ | intro _ | rfl) | exact rfl | assumption | split | dsimp only

theorem State.mirBudget_ev {s t : State} (h : Evolves s t) : Evolves s (State.mirBudget t) := by
  unfold State.mirBudget
  repeat' first | (with_reducible first | exact h | assumption | apply State.setB_ev | apply State.set_ev | refine Evolves.ite ?_ fun _ => ?_ | intro _ | rfl) | exact rfl | assumption | split | dsimp only

theorem State.askRestart_ev {s t : State} {k : ℕ} (h : Evolves s t) : Evolves s (State.askRestart t k) := by
  unfold State.askRestart
  repeat' first | (with_reducible first | exact h | assumption | apply State.updCyc_ev | refine Evolves.ite ?_ fun _ => ?_ | intro _ | rfl) | exact rfl | assumption | split | dsimp only

theorem State.smReset_ev {s t : State} {n : ℕ} (h : Evolves s t) : Evolves s (State.smReset t n) := by
  unfold State.smReset
  repeat' first | (with_reducible first | exact h | assumption | apply State.set_ev | apply State.smWait_ev | refine Evolves.ite ?_ fun _ => ?_ | intro _ | rfl) | exact rfl | assumption | split | dsimp only

theorem State.mirRecord_ev {s t : State} {code : ℕ} {sev : ℕ} {w1 : ℕ} (h : Evolves s t) : Evolves s (State.mirRecord t code sev w1) := by
  unfold State.mirRecord
  repeat' first | (with_reducible first | exact h | assumption | apply State.record_ev | refine Evolves.ite ?_ fun _ => ?_ | intro _ | rfl) | exact rfl | assumption | split | dsimp only

theorem State.syncEval_ev {s t : State} (h : Evolves s t) : Evolves s (State.syncEval t) := by
  unfold State.syncEval
  repeat' first | (with_reducible first | exact h | assumption | apply State.set_ev | apply State.mirRecord_ev | apply State.raiseInt_ev | apply State.updMir_ev | refine Evolves.ite ?_ fun _ => ?_ | intro _ | rfl) | exact rfl | assumption | split | dsimp only

theorem State.setLost_ev {s t : State} {why : ℕ} (h : Evolves s t) : Evolves s (State.setLost t why) := by
  unfold State.setLost
  repeat' first | (with_reducible first | exact h | assumption | apply State.count_ev | apply State.raiseInt_ev | apply State.updMir_ev | apply State.syncEval_ev | refine Evolves.ite ?_ fun _ => ?_ | intro _ | rfl) | exact rfl | assumption | split | dsimp only

theorem State.enterStandby_ev {s t : State} (h : Evolves s t) : Evolves s (State.enterStandby t) := by
  unfold State.enterStandby
  repeat' first | (with_reducible first | exact h | assumption | apply State.set_ev | apply State.updMir_ev | refine Evolves.ite ?_ fun _ => ?_ | intro _ | rfl) | exact rfl | assumption | split | dsimp only

theorem State.enterActive_ev {s t : State} (h : Evolves s t) : Evolves s (State.enterActive t) := by
  unfold State.enterActive
  repeat' first | (with_reducible first | exact h | assumption | apply State.updMir_ev | apply State.set_ev | refine Evolves.ite ?_ fun _ => ?_ | intro _ | rfl) | exact rfl | assumption | split | dsimp only

theorem State.promote_ev {s t : State} {code : ℕ} {sev : ℕ} (h : Evolves s t) : Evolves s (State.promote t code sev) := by
  unfold State.promote
  repeat' first | (with_reducible first | exact h | assumption | apply State.set_ev | apply State.enterActive_ev | apply State.updMir_ev | apply State.count_ev | apply State.updTx_ev | apply State.mirRecord_ev | apply State.raiseInt_ev | apply State.each_ev | refine Evolves.ite ?_ fun _ => ?_ | intro _ | rfl) | exact rfl | assumption | split | dsimp only

theorem State.noteOwn_ev {s t : State} (h : Evolves s t) : Evolves s (State.noteOwn t) := by
  unfold State.noteOwn
  repeat' first | (with_reducible first | exact h | assumption | apply State.syncEval_ev | apply State.updMir_ev | apply State.mirRecord_ev | apply State.raiseInt_ev | apply State.setPassive_ev | refine Evolves.ite ?_ fun _ => ?_ | intro _ | rfl) | exact rfl | assumption | split | dsimp only

theorem State.passStart_ev {s t : State} (h : Evolves s t) : Evolves s (State.passStart t) := by
  unfold State.passStart
  repeat' first | (with_reducible first | exact h | assumption | apply State.updMir_ev | refine Evolves.ite ?_ fun _ => ?_ | intro _ | rfl) | exact rfl | assumption | split | dsimp only

theorem State.sendSet_ev {s t : State} {n : ℕ} {t' : ℕ} {hall : List ℕ} {vars : List Desc} (h : Evolves s t) : Evolves s (State.sendSet t n t' hall vars) := by
  unfold State.sendSet
  repeat' first | (with_reducible first | exact h | assumption | apply State.passStart_ev | apply State.set_ev | apply State.updMir_ev | refine Evolves.ite ?_ fun _ => ?_ | intro _ | rfl) | exact rfl | assumption | split | dsimp only

theorem State.sendStatus_ev {s t : State} {n : ℕ} {t' : ℕ} (h : Evolves s t) : Evolves s (State.sendStatus t n t') := by
  unfold State.sendStatus
  repeat' first | (with_reducible first | exact h | assumption | apply State.updMir_ev | refine Evolves.ite ?_ fun _ => ?_ | intro _ | rfl) | exact rfl | assumption | split | dsimp only

theorem State.mirDuties_ev {s t : State} (h : Evolves s t) : Evolves s (State.mirDuties t) := by
  unfold State.mirDuties
  repeat' first | (with_reducible first | exact h | assumption | apply State.enterActive_ev | apply State.promote_ev | apply State.mirRecord_ev | apply State.raiseInt_ev | apply State.updMir_ev | apply State.set_ev | apply State.enterStandby_ev | refine Evolves.ite ?_ fun _ => ?_ | intro _ | rfl) | exact rfl | assumption | split | dsimp only

theorem State.setCheck_ev {s t : State} (h : Evolves s t) : Evolves s (State.setCheck t) := by
  unfold State.setCheck
  repeat' first | (with_reducible first | exact h | assumption | apply State.updMir_ev | apply State.setLost_ev | refine Evolves.ite ?_ fun _ => ?_ | intro _ | rfl) | exact rfl | assumption | split | dsimp only

theorem State.mirBoundary_ev {s t : State} {n : ℕ} {t' : ℕ} {hall : List ℕ} {vars : List Desc} (h : Evolves s t) : Evolves s (State.mirBoundary t n t' hall vars) := by
  unfold State.mirBoundary
  repeat' first | (with_reducible first | exact h | assumption | apply State.mirDuties_ev | apply State.updMir_ev | apply State.sendSet_ev | apply State.sendStatus_ev | refine Evolves.ite ?_ fun _ => ?_ | intro _ | rfl) | exact rfl | assumption | split | dsimp only

theorem State.linkSet_ev {s t : State} {l : ℕ} {up : Bool} (h : Evolves s t) : Evolves s (State.linkSet t l up) := by
  unfold State.linkSet
  repeat' first | (with_reducible first | exact h | assumption | apply State.raiseInt_ev | apply State.set_ev | apply State.once_ev | apply State.mirRecord_ev | apply State.syncEval_ev | refine Evolves.ite ?_ fun _ => ?_ | intro _ | rfl) | exact rfl | assumption | split | dsimp only

theorem State.seekSees_ev {s t : State} {st : ℕ} {was : Bool} {mac : ℕ} (h : Evolves s t) : Evolves s (State.seekSees t st was mac) := by
  unfold State.seekSees
  repeat' first | (with_reducible first | exact h | assumption | apply State.updMir_ev | apply State.enterStandby_ev | refine Evolves.ite ?_ fun _ => ?_ | intro _ | rfl) | exact rfl | assumption | split | dsimp only

theorem State.leaseSeen_ev {s t : State} {r : List Byte} {inSet : Bool} (h : Evolves s t) : Evolves s (State.leaseSeen t r inSet) := by
  unfold State.leaseSeen
  repeat' first | (with_reducible first | exact h | assumption | apply State.setB_ev | apply State.set_ev | apply State.updMir_ev | apply State.mirRecord_ev | apply State.seekSees_ev | refine Evolves.ite ?_ fun _ => ?_ | intro _ | rfl) | exact rfl | assumption | split | dsimp only

theorem State.segRecv_ev {s t : State} {l : ℕ} {g : List Byte} (h : Evolves s t) : Evolves s (State.segRecv t l g) := by
  unfold State.segRecv
  repeat' first | (with_reducible first | exact h | assumption | apply State.setLost_ev | apply State.count_ev | apply State.linkSet_ev | apply State.updMir_ev | apply State.leaseSeen_ev | refine Evolves.ite ?_ fun _ => ?_ | intro _ | rfl) | exact rfl | assumption | split | dsimp only

theorem State.varApply_ev {s t : State} {r : List Byte} (h : Evolves s t) : Evolves s (State.varApply t r) := by
  unfold State.varApply
  repeat' first | (with_reducible first | exact h | assumption | apply State.hubWrite_ev | apply State.setHdr_ev | apply State.retEntry_ev | apply State.hubSet_ev | refine Evolves.ite ?_ fun _ => ?_ | intro _ | rfl) | exact rfl | assumption | split | dsimp only

theorem State.passSees_ev {s t : State} {v : ℕ} (h : Evolves s t) : Evolves s (State.passSees t v) := by
  unfold State.passSees
  repeat' first | (with_reducible first | exact h | assumption | apply State.updMir_ev | apply State.set_ev | refine Evolves.ite ?_ fun _ => ?_ | intro _ | rfl) | exact rfl | assumption | split | dsimp only

theorem State.recApply_ev {s t : State} {n : ℕ} {r : List Byte} (h : Evolves s t) : Evolves s (State.recApply t n r) := by
  unfold State.recApply
  repeat' first | (with_reducible first | exact h | assumption | apply State.varApply_ev | apply State.passSees_ev | apply State.updMir_ev | apply State.set_ev | apply State.updTx_ev | refine Evolves.ite ?_ fun _ => ?_ | intro _ | rfl) | exact rfl | assumption | split | dsimp only

theorem State.setApply_ev {s t : State} (h : Evolves s t) : Evolves s (State.setApply t) := by
  unfold State.setApply
  repeat' first | (with_reducible first | exact h | assumption | apply State.recApply_ev | apply State.updMir_ev | apply State.set_ev | apply State.syncEval_ev | apply State.each_ev | refine Evolves.ite ?_ fun _ => ?_ | intro _ | rfl) | exact rfl | assumption | split | dsimp only

theorem State.abdicate_ev {s t : State} (h : Evolves s t) : Evolves s (State.abdicate t) := by
  unfold State.abdicate
  repeat' first | (with_reducible first | exact h | assumption | apply State.updMir_ev | refine Evolves.ite ?_ fun _ => ?_ | intro _ | rfl) | exact rfl | assumption | split | dsimp only

theorem State.mirAbdicate_ev {s t : State} (h : Evolves s t) : Evolves s (State.mirAbdicate t) := by
  unfold State.mirAbdicate
  repeat' first | (with_reducible first | exact h | assumption | apply State.set_ev | apply State.abdicate_ev | refine Evolves.ite ?_ fun _ => ?_ | intro _ | rfl) | exact rfl | assumption | split | dsimp only

theorem State.mirRearm_ev {s t : State} (h : Evolves s t) : Evolves s (State.mirRearm t) := by
  unfold State.mirRearm
  repeat' first | (with_reducible first | exact h | assumption | apply State.set_ev | refine Evolves.ite ?_ fun _ => ?_ | intro _ | rfl) | exact rfl | assumption | split | dsimp only

theorem State.mirTake_ev {s t : State} (h : Evolves s t) : Evolves s (State.mirTake t) := by
  unfold State.mirTake
  repeat' first | (with_reducible first | exact h | assumption | apply State.set_ev | apply State.updMir_ev | refine Evolves.ite ?_ fun _ => ?_ | intro _ | rfl) | exact rfl | assumption | split | dsimp only

theorem State.mirRestartPass_ev {s t : State} (h : Evolves s t) : Evolves s (State.mirRestartPass t) := by
  unfold State.mirRestartPass
  repeat' first | (with_reducible first | exact h | assumption | apply State.set_ev | apply State.updMir_ev | refine Evolves.ite ?_ fun _ => ?_ | intro _ | rfl) | exact rfl | assumption | split | dsimp only

theorem State.setOffset_ev {s t : State} {o : ℤ} (h : Evolves s t) : Evolves s (State.setOffset t o) := by
  unfold State.setOffset
  repeat' first | (with_reducible first | exact h | assumption | apply State.set64_ev | refine Evolves.ite ?_ fun _ => ?_ | intro _ | rfl) | exact rfl | assumption | split | dsimp only

theorem State.addOffset_ev {s t : State} {c : ℤ} (h : Evolves s t) : Evolves s (State.addOffset t c) := by
  unfold State.addOffset
  repeat' first | (with_reducible first | exact h | assumption | apply State.setOffset_ev | refine Evolves.ite ?_ fun _ => ?_ | intro _ | rfl) | exact rfl | assumption | split | dsimp only

theorem State.reanchor_ev {s t : State} (h : Evolves s t) : Evolves s (State.reanchor t) := by
  unfold State.reanchor
  repeat' first | (with_reducible first | exact h | assumption | apply State.set64_ev | apply State.addOffset_ev | refine Evolves.ite ?_ fun _ => ?_ | intro _ | rfl) | exact rfl | assumption | split | dsimp only

theorem State.setRate_ev {s t : State} {r : ℤ} (h : Evolves s t) : Evolves s (State.setRate t r) := by
  unfold State.setRate
  repeat' first | (with_reducible first | exact h | assumption | apply State.set_ev | apply State.reanchor_ev | refine Evolves.ite ?_ fun _ => ?_ | intro _ | rfl) | exact rfl | assumption | split | dsimp only

theorem State.startSlew_ev {s t : State} {c : ℤ} (h : Evolves s t) : Evolves s (State.startSlew t c) := by
  unfold State.startSlew
  repeat' first | (with_reducible first | exact h | assumption | apply State.updK_ev | apply State.reanchor_ev | refine Evolves.ite ?_ fun _ => ?_ | intro _ | rfl) | exact rfl | assumption | split | dsimp only

theorem State.stopSlew_ev {s t : State} (h : Evolves s t) : Evolves s (State.stopSlew t) := by
  unfold State.stopSlew
  repeat' first | (with_reducible first | exact h | assumption | apply State.updK_ev | apply State.reanchor_ev | refine Evolves.ite ?_ fun _ => ?_ | intro _ | rfl) | exact rfl | assumption | split | dsimp only

theorem State.slewEnd_ev {s t : State} (h : Evolves s t) : Evolves s (State.slewEnd t) := by
  unfold State.slewEnd
  repeat' first | (with_reducible first | exact h | assumption | apply State.addOffset_ev | apply State.stopSlew_ev | refine Evolves.ite ?_ fun _ => ?_ | intro _ | rfl) | exact rfl | assumption | split | dsimp only

theorem State.clkRecord_ev {s t : State} {code : ℕ} {sev : ℕ} {reason : ℕ} {c : ℤ} {n : ℕ} (h : Evolves s t) : Evolves s (State.clkRecord t code sev reason c n) := by
  unfold State.clkRecord
  repeat' first | (with_reducible first | exact h | assumption | apply State.record_ev | refine Evolves.ite ?_ fun _ => ?_ | intro _ | rfl) | exact rfl | assumption | split | dsimp only

theorem State.clkEnter_ev {s t : State} {st : ℕ} {reason : ℕ} {c : ℤ} {n : ℕ} (h : Evolves s t) : Evolves s (State.clkEnter t st reason c n) := by
  unfold State.clkEnter
  repeat' first | (with_reducible first | exact h | assumption | apply State.setB_ev | apply State.set_ev | apply State.fioRealign_ev | apply State.clkRecord_ev | apply State.raiseInt_ev | refine Evolves.ite ?_ fun _ => ?_ | intro _ | rfl) | exact rfl | assumption | split | dsimp only

theorem State.porterMarker_ev {s t : State} (h : Evolves s t) : Evolves s (State.porterMarker t) := by
  unfold State.porterMarker
  repeat' first | (with_reducible first | exact h | assumption | apply State.set_ev | apply State.updN_ev | refine Evolves.ite ?_ fun _ => ?_ | intro _ | rfl) | exact rfl | assumption | split | dsimp only

theorem State.cycRealign_ev {s t : State} (h : Evolves s t) : Evolves s (State.cycRealign t) := by
  unfold State.cycRealign
  repeat' first | (with_reducible first | exact h | assumption | apply State.updN_ev | apply State.updCyc_ev | apply State.record_ev | apply State.raiseInt_ev | refine Evolves.ite ?_ fun _ => ?_ | intro _ | rfl) | exact rfl | assumption | split | dsimp only

theorem State.lastCorr_ev {s t : State} {c : ℤ} (h : Evolves s t) : Evolves s (State.lastCorr t c) := by
  unfold State.lastCorr
  repeat' first | (with_reducible first | exact h | assumption | apply State.set64_ev | refine Evolves.ite ?_ fun _ => ?_ | intro _ | rfl) | exact rfl | assumption | split | dsimp only

theorem State.pollRealign_ev {s t : State} (h : Evolves s t) : Evolves s (State.pollRealign t) := by
  unfold State.pollRealign
  repeat' first | (with_reducible first | exact h | assumption | apply State.setPolls_ev | apply State.record_ev | apply State.each_ev | refine Evolves.ite ?_ fun _ => ?_ | intro _ | rfl) | exact rfl | assumption | split | dsimp only

theorem State.takeJump_ev {s t : State} {c : ℤ} (h : Evolves s t) : Evolves s (State.takeJump t c) := by
  unfold State.takeJump
  repeat' first | (with_reducible first | exact h | assumption | apply State.fioRealign_ev | apply State.pollRealign_ev | apply State.cycRealign_ev | apply State.porterMarker_ev | apply State.lastCorr_ev | apply State.addOffset_ev | refine Evolves.ite ?_ fun _ => ?_ | intro _ | rfl) | exact rfl | assumption | split | dsimp only

theorem State.clearJump_ev {s t : State} (h : Evolves s t) : Evolves s (State.clearJump t) := by
  unfold State.clearJump
  repeat' first | (with_reducible first | exact h | assumption | apply State.set64_ev | apply State.set_ev | refine Evolves.ite ?_ fun _ => ?_ | intro _ | rfl) | exact rfl | assumption | split | dsimp only

theorem State.jumpRefuse_ev {s t : State} {c : ℤ} {conf : ℕ} {n : ℕ} (h : Evolves s t) : Evolves s (State.jumpRefuse t c conf n) := by
  unfold State.jumpRefuse
  repeat' first | (with_reducible first | exact h | assumption | apply State.set64_ev | apply State.set_ev | apply State.raiseInt_ev | apply State.count_ev | apply State.clkRecord_ev | refine Evolves.ite ?_ fun _ => ?_ | intro _ | rfl) | exact rfl | assumption | split | dsimp only

theorem State.rateUpdate_ev {s t : State} {rho : ℤ} (h : Evolves s t) : Evolves s (State.rateUpdate t rho) := by
  unfold State.rateUpdate
  repeat' first | (with_reducible first | exact h | assumption | apply State.setRate_ev | refine Evolves.ite ?_ fun _ => ?_ | intro _ | rfl) | exact rfl | assumption | split | dsimp only

theorem State.applyCorr_ev {s t : State} {c : ℤ} (h : Evolves s t) : Evolves s (State.applyCorr t c) := by
  unfold State.applyCorr
  repeat' first | (with_reducible first | exact h | assumption | apply State.lastCorr_ev | apply State.startSlew_ev | apply State.addOffset_ev | apply State.stopSlew_ev | apply State.porterMarker_ev | refine Evolves.ite ?_ fun _ => ?_ | intro _ | rfl) | exact rfl | assumption | split | dsimp only

theorem State.correct_ev {s t : State} {c : ℤ} {rho : ℤ} {ds : List ℤ} (h : Evolves s t) : Evolves s (State.correct t c rho ds) := by
  unfold State.correct
  repeat' first | (with_reducible first | exact h | assumption | apply State.applyCorr_ev | apply State.rateUpdate_ev | apply State.clearJump_ev | apply State.jumpRefuse_ev | apply State.takeJump_ev | apply State.stopSlew_ev | apply State.clkRecord_ev | apply State.raiseInt_ev | apply State.updK_ev | refine Evolves.ite ?_ fun _ => ?_ | intro _ | rfl) | exact rfl | assumption | split | dsimp only

theorem State.nodeShow_ev {s t : State} {valid : List NodeDev} {o : List ℕ × List ℕ} {i : ℕ} (h : Evolves s t) : Evolves s (State.nodeShow t valid o i) := by
  unfold State.nodeShow
  repeat' first | (with_reducible first | exact h | assumption | apply State.setB_ev | apply State.set_ev | apply State.raiseInt_ev | apply State.count_ev | refine Evolves.ite ?_ fun _ => ?_ | intro _ | rfl) | exact rfl | assumption | split | dsimp only

theorem State.resyncMissed_ev {s t : State} {n : ℕ} (h : Evolves s t) : Evolves s (State.resyncMissed t n) := by
  unfold State.resyncMissed
  repeat' first | (with_reducible first | exact h | assumption | apply State.clearJump_ev | apply State.once_ev | apply State.raiseInt_ev | apply State.clkRecord_ev | apply State.clkEnter_ev | apply State.updK_ev | refine Evolves.ite ?_ fun _ => ?_ | intro _ | rfl) | exact rfl | assumption | split | dsimp only

theorem State.resyncTaken_ev {s t : State} {c : ℤ} {rho : ℤ} {ds : List ℤ} (h : Evolves s t) : Evolves s (State.resyncTaken t c rho ds) := by
  unfold State.resyncTaken
  repeat' first | (with_reducible first | exact h | assumption | apply State.updK_ev | apply State.clkEnter_ev | apply State.takeJump_ev | apply State.correct_ev | refine Evolves.ite ?_ fun _ => ?_ | intro _ | rfl) | exact rfl | assumption | split | dsimp only

theorem State.resync_ev {s t : State} (h : Evolves s t) : Evolves s (State.resync t) := by
  unfold State.resync
  repeat' first | (with_reducible first | exact h | assumption | apply State.nodeShow_ev | apply State.set_ev | apply State.updK_ev | apply State.resyncMissed_ev | apply State.resyncTaken_ev | apply State.each_ev | refine Evolves.ite ?_ fun _ => ?_ | intro _ | rfl) | exact rfl | assumption | split | dsimp only

theorem State.syncMeasure_ev {s t : State} {i : ℕ} {x : ℕ} {src : ℤ} {st : ℕ} (h : Evolves s t) : Evolves s (State.syncMeasure t i x src st) := by
  unfold State.syncMeasure
  repeat' first | (with_reducible first | exact h | assumption | apply State.updK_ev | refine Evolves.ite ?_ fun _ => ?_ | intro _ | rfl) | exact rfl | assumption | split | dsimp only

theorem State.delaySample_ev {s t : State} {i : ℕ} {x : ℕ} {num : ℕ} {t2 : ℤ} {t3 : ℤ} (h : Evolves s t) : Evolves s (State.delaySample t i x num t2 t3) := by
  unfold State.delaySample
  repeat' first | (with_reducible first | exact h | assumption | apply State.updK_ev | apply State.set_ev | refine Evolves.ite ?_ fun _ => ?_ | intro _ | rfl) | exact rfl | assumption | split | dsimp only

theorem State.delayDue_ev {s t : State} {m : ℕ} (h : Evolves s t) : Evolves s (State.delayDue t m) := by
  unfold State.delayDue
  repeat' first | (with_reducible first | exact h | assumption | apply State.updK_ev | refine Evolves.ite ?_ fun _ => ?_ | intro _ | rfl) | exact rfl | assumption | split | dsimp only

theorem State.cmStat_ev {s t : State} {c : ℕ} (h : Evolves s t) : Evolves s (State.cmStat t c) := by
  unfold State.cmStat
  repeat' first | (with_reducible first | exact h | assumption | apply State.set_ev | refine Evolves.ite ?_ fun _ => ?_ | intro _ | rfl) | exact rfl | assumption | split | dsimp only

theorem State.cmAccept_ev {s t : State} (h : Evolves s t) : Evolves s (State.cmAccept t) := by
  unfold State.cmAccept
  repeat' first | (with_reducible first | exact h | assumption | apply State.cmStat_ev | apply State.takeJump_ev | apply State.clearJump_ev | apply State.clkRecord_ev | apply State.raiseInt_ev | refine Evolves.ite ?_ fun _ => ?_ | intro _ | rfl) | exact rfl | assumption | split | dsimp only

theorem State.cmReject_ev {s t : State} (h : Evolves s t) : Evolves s (State.cmReject t) := by
  unfold State.cmReject
  repeat' first | (with_reducible first | exact h | assumption | apply State.cmStat_ev | apply State.clearJump_ev | refine Evolves.ite ?_ fun _ => ?_ | intro _ | rfl) | exact rfl | assumption | split | dsimp only

theorem State.cmSet_ev {s t : State} (h : Evolves s t) : Evolves s (State.cmSet t) := by
  unfold State.cmSet
  repeat' first | (with_reducible first | exact h | assumption | apply State.takeJump_ev | apply State.stopSlew_ev | apply State.cmStat_ev | apply State.clkRecord_ev | apply State.raiseInt_ev | refine Evolves.ite ?_ fun _ => ?_ | intro _ | rfl) | exact rfl | assumption | split | dsimp only

theorem State.syncCtl_ev {s t : State} {v : ℕ} (h : Evolves s t) : Evolves s (State.syncCtl t v) := by
  unfold State.syncCtl
  repeat' first | (with_reducible first | exact h | assumption | apply State.setB_ev | apply State.set_ev | apply State.clkEnter_ev | refine Evolves.ite ?_ fun _ => ?_ | intro _ | rfl) | exact rfl | assumption | split | dsimp only

theorem State.rateWrite_ev {s t : State} {v : ℕ} (h : Evolves s t) : Evolves s (State.rateWrite t v) := by
  unfold State.rateWrite
  repeat' first | (with_reducible first | exact h | assumption | apply State.setRate_ev | refine Evolves.ite ?_ fun _ => ?_ | intro _ | rfl) | exact rfl | assumption | split | dsimp only

theorem State.clkStart_ev {s t : State} (h : Evolves s t) : Evolves s (State.clkStart t) := by
  unfold State.clkStart
  repeat' first | (with_reducible first | exact h | assumption | apply State.set_ev | apply State.set64_ev | apply State.setOffset_ev | apply State.updK_ev | apply State.setCounter_ev | apply State.updLg_ev | apply State.lastCorr_ev | apply State.clearJump_ev | apply State.clkRecord_ev | apply State.raiseInt_ev | refine Evolves.ite ?_ fun _ => ?_ | intro _ | rfl) | exact rfl | assumption | split | dsimp only

theorem State.clkWake_ev {s t : State} {ticks : ℕ} (h : Evolves s t) : Evolves s (State.clkWake t ticks) := by
  unfold State.clkWake
  repeat' first | (with_reducible first | exact h | assumption | apply State.addOffset_ev | apply State.stopSlew_ev | apply State.set_ev | apply State.clearJump_ev | apply State.clkRecord_ev | apply State.raiseInt_ev | refine Evolves.ite ?_ fun _ => ?_ | intro _ | rfl) | exact rfl | assumption | split | dsimp only

theorem State.updW_ev {s t : State} {f : PorterS → PorterS} (h : Evolves s t) : Evolves s (State.updW t f) := by
  unfold State.updW
  repeat' first | (with_reducible first | exact h | assumption | apply State.updN_ev | refine Evolves.ite ?_ fun _ => ?_ | intro _ | rfl) | exact rfl | assumption | split | dsimp only

theorem State.emit_ev {s t : State} {w : ℕ} {f : List Byte} (h : Evolves s t) : Evolves s (State.emit t w f) := by
  unfold State.emit
  repeat' first | (with_reducible first | exact h | assumption | apply State.setWire_ev | refine Evolves.ite ?_ fun _ => ?_ | intro _ | rfl) | exact rfl | assumption | split | dsimp only

theorem State.posShow_ev {s t : State} (h : Evolves s t) : Evolves s (State.posShow t) := by
  unfold State.posShow
  repeat' first | (with_reducible first | exact h | assumption | apply State.set_ev | refine Evolves.ite ?_ fun _ => ?_ | intro _ | rfl) | exact rfl | assumption | split | dsimp only

theorem State.consRecord_ev {s t : State} {key : ℕ} {code : ℕ} {sev : ℕ} {w0 : ℕ} {w1 : ℕ} {limited : Bool} (h : Evolves s t) : Evolves s (State.consRecord t key code sev w0 w1 limited) := by
  unfold State.consRecord
  repeat' first | (with_reducible first | exact h | assumption | apply State.once_ev | apply State.record_ev | refine Evolves.ite ?_ fun _ => ?_ | intro _ | rfl) | exact rfl | assumption | split | dsimp only

theorem State.portDown_ev {s t : State} {x : ℕ} (h : Evolves s t) : Evolves s (State.portDown t x) := by
  unfold State.portDown
  repeat' first | (with_reducible first | exact h | assumption | apply State.set_ev | refine Evolves.ite ?_ fun _ => ?_ | intro _ | rfl) | exact rfl | assumption | split | dsimp only

theorem State.linkLoss_ev {s t : State} {x : ℕ} (h : Evolves s t) : Evolves s (State.linkLoss t x) := by
  unfold State.linkLoss
  repeat' first | (with_reducible first | exact h | assumption | apply State.count_ev | apply State.portDown_ev | apply State.consRecord_ev | apply State.raiseInt_ev | refine Evolves.ite ?_ fun _ => ?_ | intro _ | rfl) | exact rfl | assumption | split | dsimp only

theorem State.switchShow_ev {s t : State} (h : Evolves s t) : Evolves s (State.switchShow t) := by
  unfold State.switchShow
  repeat' first | (with_reducible first | exact h | assumption | apply State.set_ev | refine Evolves.ite ?_ fun _ => ?_ | intro _ | rfl) | exact rfl | assumption | split | dsimp only

theorem State.blocked_ev {s t : State} {x : ℕ} (h : Evolves s t) : Evolves s (State.blocked t x) := by
  unfold State.blocked
  repeat' first | (with_reducible first | exact h | assumption | apply State.count_ev | apply State.raiseInt_ev | apply State.updW_ev | apply State.switchShow_ev | apply State.set_ev | apply State.consRecord_ev | refine Evolves.ite ?_ fun _ => ?_ | intro _ | rfl) | exact rfl | assumption | split | dsimp only

theorem State.portSend_ev {s t : State} {x : ℕ} {f : List Byte} (h : Evolves s t) : Evolves s (State.portSend t x f) := by
  unfold State.portSend
  repeat' first | (with_reducible first | exact h | assumption | apply State.blocked_ev | apply State.count_ev | apply State.emit_ev | apply State.updW_ev | apply State.switchShow_ev | apply State.each_ev | refine Evolves.ite ?_ fun _ => ?_ | intro _ | rfl) | exact rfl | assumption | split | dsimp only

theorem State.porterSynced_ev {s t : State} {t' : ℕ} {len : ℕ} (h : Evolves s t) : Evolves s (State.porterSynced t t' len) := by
  unfold State.porterSynced
  repeat' first | (with_reducible first | exact h | assumption | apply State.updW_ev | apply State.set_ev | apply State.consRecord_ev | refine Evolves.ite ?_ fun _ => ?_ | intro _ | rfl) | exact rfl | assumption | split | dsimp only

theorem State.porterUnsync_ev {s t : State} (h : Evolves s t) : Evolves s (State.porterUnsync t) := by
  unfold State.porterUnsync
  repeat' first | (with_reducible first | exact h | assumption | apply State.updW_ev | apply State.set_ev | apply State.consRecord_ev | apply State.raiseInt_ev | apply State.switchShow_ev | refine Evolves.ite ?_ fun _ => ?_ | intro _ | rfl) | exact rfl | assumption | split | dsimp only

theorem State.strobe_ev {s t : State} {t' : ℕ} (h : Evolves s t) : Evolves s (State.strobe t t') := by
  unfold State.strobe
  repeat' first | (with_reducible first | exact h | assumption | apply State.updW_ev | apply State.count_ev | apply State.porterUnsync_ev | apply State.set_ev | apply State.porterSynced_ev | refine Evolves.ite ?_ fun _ => ?_ | intro _ | rfl) | exact rfl | assumption | split | dsimp only

theorem State.almRefuse_ev {s t : State} {e : ℕ} {r : ℕ} (h : Evolves s t) : Evolves s (State.almRefuse t e r) := by
  unfold State.almRefuse
  repeat' first | (with_reducible first | exact h | assumption | apply State.set_ev | apply State.consRecord_ev | apply State.raiseInt_ev | refine Evolves.ite ?_ fun _ => ?_ | intro _ | rfl) | exact rfl | assumption | split | dsimp only

theorem State.bankValid_ev {s t : State} {b : ℕ} {v : Bool} (h : Evolves s t) : Evolves s (State.bankValid t b v) := by
  unfold State.bankValid
  repeat' first | (with_reducible first | exact h | assumption | apply State.set_ev | refine Evolves.ite ?_ fun _ => ?_ | intro _ | rfl) | exact rfl | assumption | split | dsimp only

theorem State.almValidate_ev {s t : State} (h : Evolves s t) : Evolves s (State.almValidate t) := by
  unfold State.almValidate
  repeat' first | (with_reducible first | exact h | assumption | apply State.almRefuse_ev | apply State.bankValid_ev | apply State.set_ev | refine Evolves.ite ?_ fun _ => ?_ | intro _ | rfl) | exact rfl | assumption | split | dsimp only

theorem State.almArm_ev {s t : State} (h : Evolves s t) : Evolves s (State.almArm t) := by
  unfold State.almArm
  repeat' first | (with_reducible first | exact h | assumption | apply State.almRefuse_ev | apply State.updN_ev | apply State.set_ev | refine Evolves.ite ?_ fun _ => ?_ | intro _ | rfl) | exact rfl | assumption | split | dsimp only

theorem State.almSwitch_ev {s t : State} (h : Evolves s t) : Evolves s (State.almSwitch t) := by
  unfold State.almSwitch
  repeat' first | (with_reducible first | exact h | assumption | apply State.set_ev | apply State.updN_ev | apply State.posShow_ev | apply State.updW_ev | apply State.consRecord_ev | apply State.raiseInt_ev | refine Evolves.ite ?_ fun _ => ?_ | intro _ | rfl) | exact rfl | assumption | split | dsimp only

theorem State.porterMatrix_ev {s t : State} (h : Evolves s t) : Evolves s (State.porterMatrix t) := by
  unfold State.porterMatrix
  repeat' first | (with_reducible first | exact h | assumption | apply State.updW_ev | apply State.set_ev | apply State.switchShow_ev | refine Evolves.ite ?_ fun _ => ?_ | intro _ | rfl) | exact rfl | assumption | split | dsimp only

theorem State.matrixStart_ev {s t : State} (h : Evolves s t) : Evolves s (State.matrixStart t) := by
  unfold State.matrixStart
  repeat' first | (with_reducible first | exact h | assumption | apply State.posShow_ev | apply State.almSwitch_ev | apply State.set_ev | apply State.porterMatrix_ev | apply State.delayDue_ev | apply State.resync_ev | apply State.each_ev | refine Evolves.ite ?_ fun _ => ?_ | intro _ | rfl) | exact rfl | assumption | split | dsimp only

theorem State.fetch_ev {s t : State} {i : ℕ} (h : Evolves s t) : Evolves s (State.fetch t i) := by
  unfold State.fetch
  repeat' first | (with_reducible first | exact h | assumption | apply State.updN_ev | apply State.draw_ev | refine Evolves.ite ?_ fun _ => ?_ | intro _ | rfl) | exact rfl | assumption | split | dsimp only

theorem State.winMissed_ev {s t : State} {i : ℕ} (h : Evolves s t) : Evolves s (State.winMissed t i) := by
  unfold State.winMissed
  repeat' first | (with_reducible first | exact h | assumption | apply State.count_ev | apply State.consRecord_ev | apply State.raiseInt_ev | apply State.each_ev | refine Evolves.ite ?_ fun _ => ?_ | intro _ | rfl) | exact rfl | assumption | split | dsimp only

theorem State.exclStart_ev {s t : State} {i : ℕ} (h : Evolves s t) : Evolves s (State.exclStart t i) := by
  unfold State.exclStart
  repeat' first | (with_reducible first | exact h | assumption | apply State.updN_ev | apply State.winMissed_ev | apply State.portSend_ev | apply State.each_ev | refine Evolves.ite ?_ fun _ => ?_ | intro _ | rfl) | exact rfl | assumption | split | dsimp only

theorem State.stampTx_ev {s t : State} {x : ℕ} (h : Evolves s t) : Evolves s (State.stampTx t x) := by
  unfold State.stampTx
  repeat' first | (with_reducible first | exact h | assumption | apply State.set64_ev | refine Evolves.ite ?_ fun _ => ?_ | intro _ | rfl) | exact rfl | assumption | split | dsimp only

theorem State.syncWindow_ev {s t : State} {i : ℕ} (h : Evolves s t) : Evolves s (State.syncWindow t i) := by
  unfold State.syncWindow
  repeat' first | (with_reducible first | exact h | assumption | apply State.portSend_ev | apply State.stampTx_ev | apply State.each_ev | refine Evolves.ite ?_ fun _ => ?_ | intro _ | rfl) | exact rfl | assumption | split | dsimp only

theorem State.delaySend_ev {s t : State} {i : ℕ} {ports : List ℕ} (h : Evolves s t) : Evolves s (State.delaySend t i ports) := by
  unfold State.delaySend
  repeat' first | (with_reducible first | exact h | assumption | apply State.updK_ev | apply State.portSend_ev | apply State.stampTx_ev | apply State.each_ev | refine Evolves.ite ?_ fun _ => ?_ | intro _ | rfl) | exact rfl | assumption | split | dsimp only

theorem State.ptp_ev {s t : State} {x : ℕ} {f : List Byte} (h : Evolves s t) : Evolves s (State.ptp t x f).1 := by
  unfold State.ptp
  repeat' first | (with_reducible first | exact h | assumption | apply State.stampTx_ev | refine Evolves.ite ?_ fun _ => ?_ | intro _ | rfl) | exact rfl | assumption | split | dsimp only

theorem State.classSend_ev {s t : State} {ports : List ℕ} {f : List Byte} (h : Evolves s t) : Evolves s (State.classSend t ports f) := by
  unfold State.classSend
  repeat' first | (with_reducible first | exact h | assumption | apply State.ptp_ev | apply State.portSend_ev | apply State.updN_ev | apply State.each_ev | refine Evolves.ite ?_ fun _ => ?_ | intro _ | rfl) | exact rfl | assumption | split | dsimp only

end Sys2Proof.Machine
end

