-- ==== Sys2Proof/Laws/Evolves3.lean ====
section
/-! SUPPORT. Evolves for the operations of Machine/ on State: clock, consist network, poll bus, CAN, islands. -/

set_option linter.unusedTactic false
set_option linter.unreachableTactic false

namespace Sys2Proof.Machine

theorem State.arbLoop_ev {s t : State} {ports : List Nat} {len n used : Nat} (h : Evolves s t) : Evolves s (t.arbLoop ports len n used) := by
  induction n generalizing t used with
  | zero => exact h
  | succ n ih =>
    unfold State.arbLoop
    split
    · exact h
    · split
      · exact ih (State.each_ev (State.qTake_ev h) fun _ _ g => State.count_ev g)
      · dsimp only
        split
        · exact h
        · exact ih (State.qTake_ev (State.classSend_ev h))

theorem State.arbWindow_ev {s t : State} {i : ℕ} (h : Evolves s t) : Evolves s (State.arbWindow t i) := by
  unfold State.arbWindow
  repeat' first | (with_reducible first | exact h | assumption | apply State.delaySend_ev | apply State.arbLoop_ev | refine Evolves.ite ?_ fun _ => ?_ | intro _ | rfl) | exact rfl | assumption | split | dsimp only

theorem State.rxDrop_ev {s t : State} {x : ℕ} {f : Fld} (h : Evolves s t) : Evolves s (State.rxDrop t x f) := by
  unfold State.rxDrop
  repeat' first | (with_reducible first | exact h | assumption | apply State.raiseInt_ev | apply State.count_ev | refine Evolves.ite ?_ fun _ => ?_ | intro _ | rfl) | exact rfl | assumption | split | dsimp only

theorem State.frameToQueue_ev {s t : State} {x : ℕ} {q : ℕ} {tag : ℕ} {qfull : Fld} {good : Fld} {stamp : Bool} {f : List Byte} (h : Evolves s t) : Evolves s (State.frameToQueue t x q tag qfull good stamp f) := by
  unfold State.frameToQueue
  repeat' first | (with_reducible first | exact h | assumption | apply State.qPacket_ev | apply State.count_ev | refine Evolves.ite ?_ fun _ => ?_ | intro _ | rfl) | exact rfl | assumption | split | dsimp only

theorem State.listWrite_ev {s t : State} {ident : ℕ} {vt : Option ℕ} {pay : List Byte} {l : List ℕ} {short : Fld} (h : Evolves s t) : Evolves s (State.listWrite t ident vt pay l short) := by
  unfold State.listWrite
  refine Evolves.ite ?_ fun g => State.count_ev g
  refine foldl_ev (g := fun x : State × Nat × Bool => x.1) ?_ _ _ h
  intro b a g
  dsimp only at g ⊢
  split
  · exact g
  · split
    · exact g
    · split
      · exact State.imgWrite_ev g
      · exact g

theorem State.kind0_ev {s t : State} {x : ℕ} {r : ℕ} {f : List Byte} {g : List Byte} (h : Evolves s t) : Evolves s (State.kind0 t x r f g) := by
  unfold State.kind0
  repeat' first | (with_reducible first | exact h | assumption | apply State.consRecord_ev | apply State.count_ev | apply State.raiseInt_ev | apply State.updN_ev | apply State.frameToQueue_ev | apply State.listWrite_ev | refine Evolves.ite ?_ fun _ => ?_ | intro _ | rfl) | exact rfl | assumption | split | dsimp only

theorem State.kind1Recv_ev {s t : State} {x : ℕ} {g : List Byte} (h : Evolves s t) : Evolves s (State.kind1Recv t x g) := by
  unfold State.kind1Recv
  repeat' first | (with_reducible first | exact h | assumption | apply State.count_ev | apply State.consRecord_ev | apply State.syncMeasure_ev | apply State.updK_ev | apply State.delaySample_ev | refine Evolves.ite ?_ fun _ => ?_ | intro _ | rfl) | exact rfl | assumption | split | dsimp only

theorem State.otherFrame_ev {s t : State} {x : ℕ} {f : List Byte} (h : Evolves s t) : Evolves s (State.otherFrame t x f) := by
  unfold State.otherFrame
  repeat' first | (with_reducible first | exact h | assumption | apply State.frameToQueue_ev | apply State.count_ev | refine Evolves.ite ?_ fun _ => ?_ | intro _ | rfl) | exact rfl | assumption | split | dsimp only

theorem State.arbRecv_ev {s t : State} {x : ℕ} {f : List Byte} (h : Evolves s t) : Evolves s (State.arbRecv t x f) := by
  unfold State.arbRecv
  repeat' first | (with_reducible first | exact h | assumption | apply State.otherFrame_ev | apply State.count_ev | apply State.updN_ev | refine Evolves.ite ?_ fun _ => ?_ | intro _ | rfl) | exact rfl | assumption | split | dsimp only

theorem State.consRecv_ev {s t : State} {x : ℕ} {f : List Byte} {fcsOk : Bool} (h : Evolves s t) : Evolves s (State.consRecv t x f fcsOk) := by
  unfold State.consRecv
  repeat' first | (with_reducible first | exact h | assumption | apply State.rxDrop_ev | apply State.count_ev | apply State.arbRecv_ev | apply State.kind1Recv_ev | apply State.noteOwn_ev | apply State.kind0_ev | refine Evolves.ite ?_ fun _ => ?_ | intro _ | rfl) | exact rfl | assumption | split | dsimp only

theorem State.missCheck_ev {s t : State} {r : ℕ} (h : Evolves s t) : Evolves s (State.missCheck t r) := by
  unfold State.missCheck
  repeat' first | (with_reducible first | exact h | assumption | apply State.raiseInt_ev | apply State.count_ev | apply State.consRecord_ev | refine Evolves.ite ?_ fun _ => ?_ | intro _ | rfl) | exact rfl | assumption | split | dsimp only

theorem State.updPoll_ev {s t : State} {c : ℕ} {f : PollS → PollS} (h : Evolves s t) : Evolves s (State.updPoll t c f) := by
  exact .rest h rfl

theorem State.pollRecord_ev {s t : State} {c : ℕ} {code : ℕ} {sev : ℕ} {w1 : ℕ} (h : Evolves s t) : Evolves s (State.pollRecord t c code sev w1) := by
  unfold State.pollRecord
  repeat' first | (with_reducible first | exact h | assumption | apply State.record_ev | refine Evolves.ite ?_ fun _ => ?_ | intro _ | rfl) | exact rfl | assumption | split | dsimp only

theorem State.pollShow_ev {s t : State} {c : ℕ} (h : Evolves s t) : Evolves s (State.pollShow t c) := by
  unfold State.pollShow
  repeat' first | (with_reducible first | exact h | assumption | apply State.set_ev | refine Evolves.ite ?_ fun _ => ?_ | intro _ | rfl) | exact rfl | assumption | split | dsimp only

theorem State.pollStop_ev {s t : State} {c : ℕ} {fault : ℕ} {bit : ℕ} {code : ℕ} (h : Evolves s t) : Evolves s (State.pollStop t c fault bit code) := by
  unfold State.pollStop
  repeat' first | (with_reducible first | exact h | assumption | apply State.pollShow_ev | apply State.updPoll_ev | apply State.pollRecord_ev | apply State.raiseInt_ev | refine Evolves.ite ?_ fun _ => ?_ | intro _ | rfl) | exact rfl | assumption | split | dsimp only

theorem State.echoSeen_ev {s t : State} {c : ℕ} {ok : Bool} (h : Evolves s t) : Evolves s (State.echoSeen t c ok) := by
  unfold State.echoSeen
  repeat' first | (with_reducible first | exact h | assumption | apply State.updPoll_ev | apply State.count_ev | apply State.pollStop_ev | refine Evolves.ite ?_ fun _ => ?_ | intro _ | rfl) | exact rfl | assumption | split | dsimp only

theorem State.pollBlocked_ev {s t : State} {c : ℕ} (h : Evolves s t) : Evolves s (State.pollBlocked t c) := by
  unfold State.pollBlocked
  repeat' first | (with_reducible first | exact h | assumption | apply State.raiseInt_ev | apply State.count_ev | apply State.updPoll_ev | apply State.pollRecord_ev | apply State.set_ev | refine Evolves.ite ?_ fun _ => ?_ | intro _ | rfl) | exact rfl | assumption | split | dsimp only

theorem State.pollMissed_ev {s t : State} {c : ℕ} {e : ℕ} (h : Evolves s t) : Evolves s (State.pollMissed t c e) := by
  unfold State.pollMissed
  repeat' first | (with_reducible first | exact h | assumption | apply State.count_ev | apply State.raiseInt_ev | apply State.set_ev | apply State.once_ev | apply State.pollRecord_ev | refine Evolves.ite ?_ fun _ => ?_ | intro _ | rfl) | exact rfl | assumption | split | dsimp only

theorem State.answerData_ev {s t : State} {c : ℕ} {a : ℕ} {fcode : ℕ} {n : ℕ} (h : Evolves s t) : Evolves s (State.answerData t c a fcode n).1 := by
  unfold State.answerData
  repeat' first | (with_reducible first | exact h | assumption | apply State.count_ev | apply State.qTake_ev | refine Evolves.ite ?_ fun _ => ?_ | intro _ | rfl) | exact rfl | assumption | split | dsimp only

theorem State.answer_ev {s t : State} {c : ℕ} {m : MasterFrame} {echoOk : Bool} (h : Evolves s t) : Evolves s (State.answer t c m echoOk) := by
  unfold State.answer
  repeat' first | (with_reducible first | exact h | assumption | apply State.pollBlocked_ev | apply State.answerData_ev | apply State.emit_ev | apply State.count_ev | apply State.echoSeen_ev | refine Evolves.ite ?_ fun _ => ?_ | intro _ | rfl) | exact rfl | assumption | split | dsimp only

theorem State.answerFill_ev {s t : State} {c : ℕ} {j : ℕ} (h : Evolves s t) : Evolves s (State.answerFill t c j) := by
  unfold State.answerFill
  repeat' first | (with_reducible first | exact h | assumption | apply State.updPoll_ev | apply State.each_ev | refine Evolves.ite ?_ fun _ => ?_ | intro _ | rfl) | exact rfl | assumption | split | dsimp only

theorem State.pollCommit_ev {s t : State} {j : ℕ} (h : Evolves s t) : Evolves s (State.pollCommit t j) := by
  unfold State.pollCommit
  repeat' first | (with_reducible first | exact h | assumption | apply State.answerFill_ev | apply State.each_ev | refine Evolves.ite ?_ fun _ => ?_ | intro _ | rfl) | exact rfl | assumption | split | dsimp only

theorem State.slotBegin_ev {s t : State} {c : ℕ} {i : ℕ} {echoOk : Bool} (h : Evolves s t) : Evolves s (State.slotBegin t c i echoOk) := by
  unfold State.slotBegin
  repeat' first | (with_reducible first | exact h | assumption | apply State.updPoll_ev | apply State.pollBlocked_ev | apply State.emit_ev | apply State.count_ev | apply State.echoSeen_ev | apply State.answer_ev | refine Evolves.ite ?_ fun _ => ?_ | intro _ | rfl) | exact rfl | assumption | split | dsimp only

theorem State.replyTimeout_ev {s t : State} {c : ℕ} (h : Evolves s t) : Evolves s (State.replyTimeout t c) := by
  unfold State.replyTimeout
  repeat' first | (with_reducible first | exact h | assumption | apply State.updPoll_ev | apply State.raiseInt_ev | apply State.count_ev | apply State.pollMissed_ev | refine Evolves.ite ?_ fun _ => ?_ | intro _ | rfl) | exact rfl | assumption | split | dsimp only

theorem State.periodStart_ev {s t : State} {c : ℕ} (h : Evolves s t) : Evolves s (State.periodStart t c) := by
  unfold State.periodStart
  repeat' first | (with_reducible first | exact h | assumption | apply State.set_ev | apply State.updPoll_ev | apply State.pollRecord_ev | apply State.pollShow_ev | apply State.each_ev | refine Evolves.ite ?_ fun _ => ?_ | intro _ | rfl) | exact rfl | assumption | split | dsimp only

theorem State.slaveDeliver_ev {s t : State} {c : ℕ} {m : MasterFrame} {data : List Byte} (h : Evolves s t) : Evolves s (State.slaveDeliver t c m data) := by
  unfold State.slaveDeliver
  repeat' first | (with_reducible first | exact h | assumption | apply State.qPacket_ev | apply State.count_ev | apply State.listWrite_ev | refine Evolves.ite ?_ fun _ => ?_ | intro _ | rfl) | exact rfl | assumption | split | dsimp only

theorem State.slaveBad_ev {s t : State} {c : ℕ} {sl : Option PollSlot} (h : Evolves s t) : Evolves s (State.slaveBad t c sl) := by
  unfold State.slaveBad
  repeat' first | (with_reducible first | exact h | assumption | apply State.raiseInt_ev | apply State.count_ev | apply State.pollMissed_ev | refine Evolves.ite ?_ fun _ => ?_ | intro _ | rfl) | exact rfl | assumption | split | dsimp only

theorem State.slaveFrame_ev {s t : State} {c : ℕ} {data : List Byte} {ok : Bool} (h : Evolves s t) : Evolves s (State.slaveFrame t c data ok) := by
  unfold State.slaveFrame
  repeat' first | (with_reducible first | exact h | assumption | apply State.updPoll_ev | apply State.count_ev | apply State.slaveBad_ev | apply State.pollMissed_ev | apply State.set_ev | apply State.slaveDeliver_ev | refine Evolves.ite ?_ fun _ => ?_ | intro _ | rfl) | exact rfl | assumption | split | dsimp only

theorem State.masterFrame_ev {s t : State} {c : ℕ} {fcode : ℕ} {set : ℕ} {addr : ℕ} {echoOk : Bool} (h : Evolves s t) : Evolves s (State.masterFrame t c fcode set addr echoOk) := by
  unfold State.masterFrame
  repeat' first | (with_reducible first | exact h | assumption | apply State.pollStop_ev | apply State.count_ev | apply State.updPoll_ev | apply State.answer_ev | refine Evolves.ite ?_ fun _ => ?_ | intro _ | rfl) | exact rfl | assumption | split | dsimp only

theorem State.pollValid_ev {s t : State} {c : ℕ} {b : ℕ} {v : Bool} (h : Evolves s t) : Evolves s (State.pollValid t c b v) := by
  unfold State.pollValid
  repeat' first | (with_reducible first | exact h | assumption | apply State.set_ev | refine Evolves.ite ?_ fun _ => ?_ | intro _ | rfl) | exact rfl | assumption | split | dsimp only

theorem State.pollValidate_ev {s t : State} {c : ℕ} (h : Evolves s t) : Evolves s (State.pollValidate t c) := by
  unfold State.pollValidate
  extract_lets b all no
  have hno : ∀ e r, Evolves s (no t e r) := fun e r => State.set_ev (State.set_ev (State.pollValid_ev h))
  clear_value all no
  split
  · exact hno _ _
  · split
    · exact hno _ _
    · exact State.set_ev (State.set_ev (State.pollValid_ev h))

theorem State.pollArm_ev {s t : State} {c : ℕ} (h : Evolves s t) : Evolves s (State.pollArm t c) := by
  unfold State.pollArm
  repeat' first | (with_reducible first | exact h | assumption | apply State.updPoll_ev | apply State.set_ev | apply State.pollRecord_ev | refine Evolves.ite ?_ fun _ => ?_ | intro _ | rfl) | exact rfl | assumption | split | dsimp only

theorem State.pollCtl_ev {s t : State} {c : ℕ} {v : ℕ} (h : Evolves s t) : Evolves s (State.pollCtl t c v) := by
  unfold State.pollCtl
  repeat' first | (with_reducible first | exact h | assumption | apply State.setB_ev | apply State.set_ev | apply State.updPoll_ev | apply State.pollShow_ev | refine Evolves.ite ?_ fun _ => ?_ | intro _ | rfl) | exact rfl | assumption | split | dsimp only

theorem State.updCan_ev {s t : State} {c : ℕ} {f : CanS → CanS} (h : Evolves s t) : Evolves s (State.updCan t c f) := by
  exact .rest h rfl

theorem State.updMb_ev {s t : State} {c : ℕ} {m : ℕ} {f : MboxS → MboxS} (h : Evolves s t) : Evolves s (State.updMb t c m f) := by
  unfold State.updMb
  repeat' first | (with_reducible first | exact h | assumption | apply State.updCan_ev | refine Evolves.ite ?_ fun _ => ?_ | intro _ | rfl) | exact rfl | assumption | split | dsimp only

theorem State.canRecord_ev {s t : State} {c : ℕ} {code : ℕ} {sev : ℕ} {w1 : ℕ} {w2 : ℕ} (h : Evolves s t) : Evolves s (State.canRecord t c code sev w1 w2) := by
  unfold State.canRecord
  repeat' first | (with_reducible first | exact h | assumption | apply State.record_ev | refine Evolves.ite ?_ fun _ => ?_ | intro _ | rfl) | exact rfl | assumption | split | dsimp only

theorem State.canJoin_ev {s t : State} {c : ℕ} (h : Evolves s t) : Evolves s (State.canJoin t c) := by
  unfold State.canJoin
  repeat' first | (with_reducible first | exact h | assumption | apply State.set_ev | refine Evolves.ite ?_ fun _ => ?_ | intro _ | rfl) | exact rfl | assumption | split | dsimp only

theorem State.canDetect_ev {s t : State} {c : ℕ} (h : Evolves s t) : Evolves s (State.canDetect t c) := by
  unfold State.canDetect
  repeat' first | (with_reducible first | exact h | assumption | apply State.set_ev | apply State.updCan_ev | refine Evolves.ite ?_ fun _ => ?_ | intro _ | rfl) | exact rfl | assumption | split | dsimp only

theorem State.canZero_ev {s t : State} {c : ℕ} (h : Evolves s t) : Evolves s (State.canZero t c) := by
  unfold State.canZero
  repeat' first | (with_reducible first | exact h | assumption | apply State.set_ev | refine Evolves.ite ?_ fun _ => ?_ | intro _ | rfl) | exact rfl | assumption | split | dsimp only

theorem State.canClamp_ev {s t : State} {c : ℕ} (h : Evolves s t) : Evolves s (State.canClamp t c) := by
  unfold State.canClamp
  repeat' first | (with_reducible first | exact h | assumption | apply State.set_ev | refine Evolves.ite ?_ fun _ => ?_ | intro _ | rfl) | exact rfl | assumption | split | dsimp only

theorem State.canStart_ev {s t : State} {c : ℕ} (h : Evolves s t) : Evolves s (State.canStart t c) := by
  unfold State.canStart
  repeat' first | (with_reducible first | exact h | assumption | apply State.updCan_ev | apply State.canZero_ev | apply State.canJoin_ev | apply State.canClamp_ev | apply State.canDetect_ev | refine Evolves.ite ?_ fun _ => ?_ | intro _ | rfl) | exact rfl | assumption | split | dsimp only

theorem State.canInit_ev {s t : State} {c : ℕ} (h : Evolves s t) : Evolves s (State.canInit t c) := by
  unfold State.canInit
  repeat' first | (with_reducible first | exact h | assumption | apply State.updCan_ev | apply State.set_ev | refine Evolves.ite ?_ fun _ => ?_ | intro _ | rfl) | exact rfl | assumption | split | dsimp only

theorem State.canIdle_ev {s t : State} {c : ℕ} (h : Evolves s t) : Evolves s (State.canIdle t c) := by
  unfold State.canIdle
  repeat' first | (with_reducible first | exact h | assumption | apply State.canInit_ev | apply State.canDetect_ev | apply State.canZero_ev | refine Evolves.ite ?_ fun _ => ?_ | intro _ | rfl) | exact rfl | assumption | split | dsimp only

theorem State.canStop_ev {s t : State} {c : ℕ} (h : Evolves s t) : Evolves s (State.canStop t c) := by
  unfold State.canStop
  repeat' first | (with_reducible first | exact h | assumption | apply State.updCan_ev | apply State.canInit_ev | refine Evolves.ite ?_ fun _ => ?_ | intro _ | rfl) | exact rfl | assumption | split | dsimp only

theorem State.canRecover_ev {s t : State} {c : ℕ} (h : Evolves s t) : Evolves s (State.canRecover t c) := by
  unfold State.canRecover
  repeat' first | (with_reducible first | exact h | assumption | apply State.updCan_ev | refine Evolves.ite ?_ fun _ => ?_ | intro _ | rfl) | exact rfl | assumption | split | dsimp only

theorem State.canRedetect_ev {s t : State} {c : ℕ} (h : Evolves s t) : Evolves s (State.canRedetect t c) := by
  unfold State.canRedetect
  repeat' first | (with_reducible first | exact h | assumption | apply State.updCan_ev | apply State.canDetect_ev | apply State.canZero_ev | refine Evolves.ite ?_ fun _ => ?_ | intro _ | rfl) | exact rfl | assumption | split | dsimp only

theorem State.canErrState_ev {s t : State} {c : ℕ} (h : Evolves s t) : Evolves s (State.canErrState t c) := by
  unfold State.canErrState
  repeat' first | (with_reducible first | exact h | assumption | apply State.set_ev | apply State.updCan_ev | apply State.canRecord_ev | apply State.raiseInt_ev | apply State.count_ev | apply State.once_ev | refine Evolves.ite ?_ fun _ => ?_ | intro _ | rfl) | exact rfl | assumption | split | dsimp only

theorem State.mbStat_ev {s t : State} {c : ℕ} {m : ℕ} {st : ℕ} (h : Evolves s t) : Evolves s (State.mbStat t c m st) := by
  unfold State.mbStat
  repeat' first | (with_reducible first | exact h | assumption | apply State.set_ev | refine Evolves.ite ?_ fun _ => ?_ | intro _ | rfl) | exact rfl | assumption | split | dsimp only

theorem State.mbResult_ev {s t : State} {c : ℕ} {m : ℕ} {r : ℕ} (h : Evolves s t) : Evolves s (State.mbResult t c m r) := by
  unfold State.mbResult
  repeat' first | (with_reducible first | exact h | assumption | apply State.set_ev | refine Evolves.ite ?_ fun _ => ?_ | intro _ | rfl) | exact rfl | assumption | split | dsimp only

theorem State.mbHold_ev {s t : State} {c m n : Nat} (h : Evolves s t) : Evolves s (t.mbHold c m n) := by
  induction n generalizing t with
  | zero => exact State.mbStat_ev h
  | succ n ih =>
    unfold State.mbHold
    dsimp only
    split
    · exact State.mbStat_ev (State.updMb_ev h)
    · split
      · exact State.mbStat_ev (State.updMb_ev (State.updQ_ev h))
      · exact ih (State.mbResult_ev (State.count_ev (State.qTake_ev h)))

theorem State.mbRequest_ev {s t : State} {c : ℕ} {m : ℕ} (h : Evolves s t) : Evolves s (State.mbRequest t c m) := by
  unfold State.mbRequest
  repeat' first | (with_reducible first | exact h | assumption | apply State.mbStat_ev | apply State.updMb_ev | apply State.mbHold_ev | apply State.count_ev | apply State.mbResult_ev | refine Evolves.ite ?_ fun _ => ?_ | intro _ | rfl) | exact rfl | assumption | split | dsimp only

theorem State.canCommit_ev {s t : State} {j : ℕ} (h : Evolves s t) : Evolves s (State.canCommit t j) := by
  unfold State.canCommit
  repeat' first | (with_reducible first | exact h | assumption | apply State.mbRequest_ev | apply State.each_ev | refine Evolves.ite ?_ fun _ => ?_ | intro _ | rfl) | exact rfl | assumption | split | dsimp only

theorem State.canSof_ev {s t : State} {c : ℕ} {tdcv : ℕ} (h : Evolves s t) : Evolves s (State.canSof t c tdcv) := by
  unfold State.canSof
  repeat' first | (with_reducible first | exact h | assumption | apply State.mbStat_ev | apply State.updCan_ev | apply State.set_ev | refine Evolves.ite ?_ fun _ => ?_ | intro _ | rfl) | exact rfl | assumption | split | dsimp only

theorem State.mbPop_ev {s t : State} {c : ℕ} {m : ℕ} {idle : ℕ} (h : Evolves s t) : Evolves s (State.mbPop t c m idle) := by
  unfold State.mbPop
  repeat' first | (with_reducible first | exact h | assumption | apply State.mbStat_ev | apply State.updMb_ev | apply State.qTakeHeld_ev | apply State.mbHold_ev | refine Evolves.ite ?_ fun _ => ?_ | intro _ | rfl) | exact rfl | assumption | split | dsimp only

theorem State.mbOver_ev {s t : State} {c : ℕ} {m : ℕ} {st : ℕ} (h : Evolves s t) : Evolves s (State.mbOver t c m st) := by
  unfold State.mbOver
  repeat' first | (with_reducible first | exact h | assumption | apply State.mbPop_ev | apply State.mbStat_ev | apply State.updMb_ev | refine Evolves.ite ?_ fun _ => ?_ | intro _ | rfl) | exact rfl | assumption | split | dsimp only

theorem State.canWire_ev {s t : State} {c : ℕ} {f : CanFrame} (h : Evolves s t) : Evolves s (State.canWire t c f) := by
  unfold State.canWire
  repeat' first | (with_reducible first | exact h | assumption | apply State.emit_ev | refine Evolves.ite ?_ fun _ => ?_ | intro _ | rfl) | exact rfl | assumption | split | dsimp only

theorem State.canSent_ev {s t : State} {c : ℕ} (h : Evolves s t) : Evolves s (State.canSent t c) := by
  unfold State.canSent
  repeat' first | (with_reducible first | exact h | assumption | apply State.updCan_ev | apply State.canWire_ev | apply State.canErrState_ev | apply State.set_ev | apply State.mbResult_ev | apply State.count_ev | apply State.canIdle_ev | apply State.mbOver_ev | refine Evolves.ite ?_ fun _ => ?_ | intro _ | rfl) | exact rfl | assumption | split | dsimp only

theorem State.canAbandon_ev {s t : State} {c : ℕ} {m : ℕ} {r : ℕ} (h : Evolves s t) : Evolves s (State.canAbandon t c m r) := by
  unfold State.canAbandon
  repeat' first | (with_reducible first | exact h | assumption | apply State.mbResult_ev | apply State.raiseInt_ev | apply State.count_ev | apply State.mbOver_ev | refine Evolves.ite ?_ fun _ => ?_ | intro _ | rfl) | exact rfl | assumption | split | dsimp only

theorem State.canUnsent_ev {s t : State} {c : ℕ} {m : ℕ} {r : ℕ} (h : Evolves s t) : Evolves s (State.canUnsent t c m r) := by
  unfold State.canUnsent
  repeat' first | (with_reducible first | exact h | assumption | apply State.updCan_ev | apply State.canAbandon_ev | apply State.mbStat_ev | apply State.updMb_ev | apply State.count_ev | apply State.mbResult_ev | refine Evolves.ite ?_ fun _ => ?_ | intro _ | rfl) | exact rfl | assumption | split | dsimp only

theorem State.canFailed_ev {s t : State} {c : ℕ} {m : ℕ} {r : ℕ} (h : Evolves s t) : Evolves s (State.canFailed t c m r) :=
  State.canIdle_ev (State.canUnsent_ev h)

theorem State.rateLock_ev {s t : State} {c : ℕ} (h : Evolves s t) : Evolves s (State.rateLock t c) := by
  unfold State.rateLock
  repeat' first | (with_reducible first | exact h | assumption | apply State.canRecord_ev | apply State.raiseInt_ev | refine Evolves.ite ?_ fun _ => ?_ | intro _ | rfl) | exact rfl | assumption | split | dsimp only

theorem State.detGood_ev {s t : State} {c : ℕ} {f : CanFrame} (h : Evolves s t) : Evolves s (State.detGood t c f) := by
  unfold State.detGood
  repeat' first | (with_reducible first | exact h | assumption | apply State.updCan_ev | apply State.set_ev | apply State.rateLock_ev | apply State.canJoin_ev | refine Evolves.ite ?_ fun _ => ?_ | intro _ | rfl) | exact rfl | assumption | split | dsimp only

theorem State.detBad_ev {s t : State} {c : ℕ} {e : CanErr} (h : Evolves s t) : Evolves s (State.detBad t c e) := by
  unfold State.detBad
  repeat' first | (with_reducible first | exact h | assumption | apply State.updCan_ev | refine Evolves.ite ?_ fun _ => ?_ | intro _ | rfl) | exact rfl | assumption | split | dsimp only

theorem State.errCount_ev {s t : State} {c : ℕ} {e : CanErr} {sending : Bool} (h : Evolves s t) : Evolves s (State.errCount t c e sending) := by
  unfold State.errCount
  repeat' first | (with_reducible first | exact h | assumption | apply State.set_ev | refine Evolves.ite ?_ fun _ => ?_ | intro _ | rfl) | exact rfl | assumption | split | dsimp only

theorem State.canError_ev {s t : State} {c : ℕ} {e : CanErr} (h : Evolves s t) : Evolves s (State.canError t c e) := by
  unfold State.canError
  repeat' first | (with_reducible first | exact h | assumption | apply State.count_ev | apply State.setB_ev | apply State.set_ev | apply State.detBad_ev | apply State.errCount_ev | apply State.raiseInt_ev | apply State.mbResult_ev | apply State.once_ev | apply State.canRecord_ev | apply State.canUnsent_ev | apply State.canIdle_ev | apply State.canErrState_ev | refine Evolves.ite ?_ fun _ => ?_ | intro _ | rfl) | exact rfl | assumption | split | dsimp only

theorem State.canDeliver_ev {s t : State} {c : ℕ} {f : CanFrame} (h : Evolves s t) : Evolves s (State.canDeliver t c f) := by
  unfold State.canDeliver
  repeat' first | (with_reducible first | exact h | assumption | apply State.count_ev | apply State.listWrite_ev | apply State.qPacket_ev | apply State.raiseInt_ev | refine Evolves.ite ?_ fun _ => ?_ | intro _ | rfl) | exact rfl | assumption | split | dsimp only

theorem State.recGood_ev {s t : State} {c : ℕ} (h : Evolves s t) : Evolves s (State.recGood t c) := by
  unfold State.recGood
  repeat' first | (with_reducible first | exact h | assumption | apply State.draw_ev | apply State.set_ev | refine Evolves.ite ?_ fun _ => ?_ | intro _ | rfl) | exact rfl | assumption | split | dsimp only

theorem State.canRecv_ev {s t : State} {c : ℕ} {f : CanFrame} (h : Evolves s t) : Evolves s (State.canRecv t c f) := by
  unfold State.canRecv
  repeat' first | (with_reducible first | exact h | assumption | apply State.count_ev | apply State.canErrState_ev | apply State.recGood_ev | apply State.canDeliver_ev | apply State.detGood_ev | refine Evolves.ite ?_ fun _ => ?_ | intro _ | rfl) | exact rfl | assumption | split | dsimp only

theorem State.fioRaise_ev {s t : State} {i : ℕ} {b : ℕ} (h : Evolves s t) : Evolves s (State.fioRaise t i b) := by
  unfold State.fioRaise
  repeat' first | (with_reducible first | exact h | assumption | apply State.raiseInt_ev | refine Evolves.ite ?_ fun _ => ?_ | intro _ | rfl) | exact rfl | assumption | split | dsimp only

theorem State.fioRecord_ev {s t : State} {i : ℕ} {code : ℕ} {sev : ℕ} {w1 : ℕ} (h : Evolves s t) : Evolves s (State.fioRecord t i code sev w1) := by
  unfold State.fioRecord
  repeat' first | (with_reducible first | exact h | assumption | apply State.record_ev | refine Evolves.ite ?_ fun _ => ?_ | intro _ | rfl) | exact rfl | assumption | split | dsimp only

theorem State.fioLoad_ev {s t : State} {i : ℕ} {slotB : Bool} (h : Evolves s t) : Evolves s (State.fioLoad t i slotB) := by
  unfold State.fioLoad
  repeat' first | (with_reducible first | exact h | assumption | apply State.count_ev | apply State.set_ev | apply State.setB_ev | apply State.updIl_ev | apply State.dlSend_ev | refine Evolves.ite ?_ fun _ => ?_ | intro _ | rfl) | exact rfl | assumption | split | dsimp only

theorem State.fioRun_ev {s t : State} {i : ℕ} (h : Evolves s t) : Evolves s (State.fioRun t i) := by
  unfold State.fioRun
  repeat' first | (with_reducible first | exact h | assumption | apply State.set_ev | apply State.updIl_ev | refine Evolves.ite ?_ fun _ => ?_ | intro _ | rfl) | exact rfl | assumption | split | dsimp only

theorem State.fioDown_ev {s t : State} {i : ℕ} {st : ℕ} {reason : ℕ} (h : Evolves s t) : Evolves s (State.fioDown t i st reason) := by
  unfold State.fioDown
  repeat' first | (with_reducible first | exact h | assumption | apply State.fioRecord_ev | apply State.fioRaise_ev | apply State.set_ev | refine Evolves.ite ?_ fun _ => ?_ | intro _ | rfl) | exact rfl | assumption | split | dsimp only

theorem State.fioOff_ev {s t : State} {i : ℕ} (h : Evolves s t) : Evolves s (State.fioOff t i) := by
  unfold State.fioOff
  repeat' first | (with_reducible first | exact h | assumption | apply State.updIl_ev | apply State.set_ev | refine Evolves.ite ?_ fun _ => ?_ | intro _ | rfl) | exact rfl | assumption | split | dsimp only

theorem State.fioCmd_ev {s t : State} {i : ℕ} {v : ℕ} (h : Evolves s t) : Evolves s (State.fioCmd t i v) := by
  unfold State.fioCmd
  repeat' first | (with_reducible first | exact h | assumption | apply State.set_ev | apply State.fioOff_ev | apply State.fioLoad_ev | apply State.dlSend_ev | apply State.updIl_ev | refine Evolves.ite ?_ fun _ => ?_ | intro _ | rfl) | exact rfl | assumption | split | dsimp only

theorem State.fioInCfg_ev {s t : State} {i : ℕ} {n : ℕ} {v : ℕ} (h : Evolves s t) : Evolves s (State.fioInCfg t i n v) := by
  unfold State.fioInCfg
  repeat' first | (with_reducible first | exact h | assumption | apply State.setB_ev | apply State.set_ev | apply State.dlSend_ev | apply State.updIl_ev | refine Evolves.ite ?_ fun _ => ?_ | intro _ | rfl) | exact rfl | assumption | split | dsimp only

theorem State.fioOutCfg_ev {s t : State} {i : ℕ} {n : ℕ} {v : ℕ} (h : Evolves s t) : Evolves s (State.fioOutCfg t i n v) := by
  unfold State.fioOutCfg
  repeat' first | (with_reducible first | exact h | assumption | apply State.setB_ev | apply State.set_ev | apply State.dlSend_ev | apply State.updIl_ev | refine Evolves.ite ?_ fun _ => ?_ | intro _ | rfl) | exact rfl | assumption | split | dsimp only

theorem State.refreshSlot_ev {s t : State} {i : ℕ} {got : Bool} {seen : List ℕ} {mv : ℕ} (h : Evolves s t) : Evolves s (State.refreshSlot t i got seen mv) := by
  unfold State.refreshSlot
  repeat' first | (with_reducible first | exact h | assumption | apply State.updIl_ev | apply State.deEnergise_ev | apply State.dlAsk_ev | refine Evolves.ite ?_ fun _ => ?_ | intro _ | rfl) | exact rfl | assumption | split | dsimp only

theorem State.fioStale_ev {s t : State} {i : ℕ} (h : Evolves s t) : Evolves s (State.fioStale t i) := by
  unfold State.fioStale
  repeat' first | (with_reducible first | exact h | assumption | apply State.fioRaise_ev | apply State.count_ev | apply State.set_ev | apply State.fioRecord_ev | apply State.markStale_ev | apply State.each_ev | refine Evolves.ite ?_ fun _ => ?_ | intro _ | rfl) | exact rfl | assumption | split | dsimp only

theorem State.fioMiss_ev {s t : State} {i : ℕ} {bad : Bool} (h : Evolves s t) : Evolves s (State.fioMiss t i bad) := by
  unfold State.fioMiss
  repeat' first | (with_reducible first | exact h | assumption | apply State.count_ev | apply State.fioStale_ev | refine Evolves.ite ?_ fun _ => ?_ | intro _ | rfl) | exact rfl | assumption | split | dsimp only

theorem State.fioInWrite_ev {s t : State} {i : ℕ} {n : ℕ} {st : ℕ} (h : Evolves s t) : Evolves s (State.fioInWrite t i n st) := by
  unfold State.fioInWrite
  repeat' first | (with_reducible first | exact h | assumption | apply State.imgWrite_ev | apply State.rejectWrite_ev | refine Evolves.ite ?_ fun _ => ?_ | intro _ | rfl) | exact rfl | assumption | split | dsimp only

theorem State.fioInputs_ev {s t : State} {i : ℕ} {filt : ℕ} {raw : ℕ} (h : Evolves s t) : Evolves s (State.fioInputs t i filt raw) := by
  unfold State.fioInputs
  repeat' first | (with_reducible first | exact h | assumption | apply State.set_ev | apply State.updIl_ev | apply State.fioRaise_ev | apply State.fioInWrite_ev | apply State.each_ev | refine Evolves.ite ?_ fun _ => ?_ | intro _ | rfl) | exact rfl | assumption | split | dsimp only

theorem State.rbSet_ev {s t : State} {i : ℕ} {n : ℕ} {f : ℕ} (h : Evolves s t) : Evolves s (State.rbSet t i n f) := by
  unfold State.rbSet
  repeat' first | (with_reducible first | exact h | assumption | apply State.set_ev | apply State.fioRaise_ev | apply State.once_ev | apply State.fioRecord_ev | refine Evolves.ite ?_ fun _ => ?_ | intro _ | rfl) | exact rfl | assumption | split | dsimp only

theorem State.rbCheck_ev {s t : State} {i : ℕ} {n : ℕ} {applied : Bool} {rb : ℕ} (h : Evolves s t) : Evolves s (State.rbCheck t i n applied rb) := by
  unfold State.rbCheck
  repeat' first | (with_reducible first | exact h | assumption | apply State.set_ev | apply State.updIl_ev | apply State.rbSet_ev | apply State.each_ev | refine Evolves.ite ?_ fun _ => ?_ | intro _ | rfl) | exact rfl | assumption | split | dsimp only

theorem State.fioOutputs_ev {s t : State} {i : ℕ} {rb : ℕ} {applied : ℕ} {num : ℕ} {echo : ℕ} (h : Evolves s t) : Evolves s (State.fioOutputs t i rb applied num echo) := by
  unfold State.fioOutputs
  repeat' first | (with_reducible first | exact h | assumption | apply State.set_ev | apply State.updIl_ev | apply State.once_ev | apply State.fioRaise_ev | apply State.count_ev | apply State.fioRecord_ev | apply State.rbCheck_ev | apply State.each_ev | refine Evolves.ite ?_ fun _ => ?_ | intro _ | rfl) | exact rfl | assumption | split | dsimp only

theorem State.fioGood_ev {s t : State} {i : ℕ} {b : List Byte} (h : Evolves s t) : Evolves s (State.fioGood t i b) := by
  unfold State.fioGood
  repeat' first | (with_reducible first | exact h | assumption | apply State.set_ev | apply State.updIl_ev | apply State.addSat_ev | apply State.setB_ev | apply State.once_ev | apply State.fioRaise_ev | apply State.fioRecord_ev | apply State.fioDown_ev | apply State.fioOutputs_ev | apply State.fioInputs_ev | refine Evolves.ite ?_ fun _ => ?_ | intro _ | rfl) | exact rfl | assumption | split | dsimp only

theorem State.uplink_ev {s t : State} {i : ℕ} {b : List Byte} (h : Evolves s t) : Evolves s (State.uplink t i b) := by
  unfold State.uplink
  repeat' first | (with_reducible first | exact h | assumption | apply State.fioRun_ev | apply State.fioDown_ev | apply State.fioGood_ev | apply State.fioMiss_ev | refine Evolves.ite ?_ fun _ => ?_ | intro _ | rfl) | exact rfl | assumption | split | dsimp only

theorem State.stageSend_ev {s t : State} {i : ℕ} {states : ℕ} (h : Evolves s t) : Evolves s (State.stageSend t i states) := by
  unfold State.stageSend
  repeat' first | (with_reducible first | exact h | assumption | apply State.updIl_ev | apply State.set_ev | apply State.dlAsk_ev | refine Evolves.ite ?_ fun _ => ?_ | intro _ | rfl) | exact rfl | assumption | split | dsimp only

theorem State.fioStage_ev {s t : State} {j : ℕ} {commits : Bool} (h : Evolves s t) : Evolves s (State.fioStage t j commits) := by
  unfold State.fioStage
  repeat' first | (with_reducible first | exact h | assumption | apply State.deEnergise_ev | apply State.updIl_ev | apply State.stageSend_ev | apply State.each_ev | refine Evolves.ite ?_ fun _ => ?_ | intro _ | rfl) | exact rfl | assumption | split | dsimp only

theorem State.commitSymbol_ev {s t : State} {i : ℕ} (h : Evolves s t) : Evolves s (State.commitSymbol t i) := by
  unfold State.commitSymbol
  repeat' first | (with_reducible first | exact h | assumption | apply State.updIl_ev | refine Evolves.ite ?_ fun _ => ?_ | intro _ | rfl) | exact rfl | assumption | split | dsimp only

theorem State.fioCommit_ev {s t : State} (h : Evolves s t) : Evolves s (State.fioCommit t) := by
  unfold State.fioCommit
  repeat' first | (with_reducible first | exact h | assumption | apply State.commitSymbol_ev | apply State.each_ev | refine Evolves.ite ?_ fun _ => ?_ | intro _ | rfl) | exact rfl | assumption | split | dsimp only

theorem State.fioStartCommit_ev {s t : State} (h : Evolves s t) : Evolves s (State.fioStartCommit t) := by
  unfold State.fioStartCommit
  repeat' first | (with_reducible first | exact h | assumption | apply State.commitSymbol_ev | apply State.stageSend_ev | apply State.each_ev | refine Evolves.ite ?_ fun _ => ?_ | intro _ | rfl) | exact rfl | assumption | split | dsimp only

theorem State.fioAllOff_ev {s t : State} (h : Evolves s t) : Evolves s (State.fioAllOff t) := by
  unfold State.fioAllOff
  repeat' first | (with_reducible first | exact h | assumption | apply State.updIl_ev | apply State.fioOff_ev | apply State.each_ev | refine Evolves.ite ?_ fun _ => ?_ | intro _ | rfl) | exact rfl | assumption | split | dsimp only

theorem State.updSp_ev {s t : State} {n : ℕ} {f : SpdChan → SpdChan} (h : Evolves s t) : Evolves s (State.updSp t n f) := by
  exact .rest h rfl

theorem State.spdRecord_ev {s t : State} {code : ℕ} {sev : ℕ} {n : ℕ} {w1 : ℕ} {v : ℤ} (h : Evolves s t) : Evolves s (State.spdRecord t code sev n w1 v) := by
  unfold State.spdRecord
  repeat' first | (with_reducible first | exact h | assumption | apply State.record_ev | refine Evolves.ite ?_ fun _ => ?_ | intro _ | rfl) | exact rfl | assumption | split | dsimp only

theorem State.spdFail_ev {s t : State} {n : ℕ} {cause : ℕ} (h : Evolves s t) : Evolves s (State.spdFail t n cause) := by
  unfold State.spdFail
  repeat' first | (with_reducible first | exact h | assumption | apply State.updSp_ev | apply State.raiseInt_ev | apply State.count_ev | apply State.spdRecord_ev | refine Evolves.ite ?_ fun _ => ?_ | intro _ | rfl) | exact rfl | assumption | split | dsimp only

theorem State.spdLevels_ev {s t : State} {n : ℕ} {l1 : ℕ} {l2 : ℕ} (h : Evolves s t) : Evolves s (State.spdLevels t n l1 l2) := by
  unfold State.spdLevels
  repeat' first | (with_reducible first | exact h | assumption | apply State.set_ev | refine Evolves.ite ?_ fun _ => ?_ | intro _ | rfl) | exact rfl | assumption | split | dsimp only

theorem State.trackEdge_ev {s t : State} {n : ℕ} {l1 : ℕ} {l2 : ℕ} {held : Bool} (h : Evolves s t) : Evolves s (State.trackEdge t n l1 l2 held) := by
  unfold State.trackEdge
  repeat' first | (with_reducible first | exact h | assumption | apply State.spdLevels_ev | apply State.count_ev | apply State.updSp_ev | apply State.spdFail_ev | refine Evolves.ite ?_ fun _ => ?_ | intro _ | rfl) | exact rfl | assumption | split | dsimp only

theorem State.trackFaultAt_ev {s t : State} {n : ℕ} {t2 : Bool} {lv : ℕ} (h : Evolves s t) : Evolves s (State.trackFaultAt t n t2 lv) := by
  unfold State.trackFaultAt
  repeat' first | (with_reducible first | exact h | assumption | apply State.set_ev | apply State.updSp_ev | apply State.spdFail_ev | refine Evolves.ite ?_ fun _ => ?_ | intro _ | rfl) | exact rfl | assumption | split | dsimp only

theorem State.spdUpdate_ev {s t : State} {r : SpdCons} (h : Evolves s t) : Evolves s (State.spdUpdate t r) := by
  unfold State.spdUpdate
  repeat' first | (with_reducible first | exact h | assumption | apply State.set_ev | apply State.recordSec_ev | apply State.raiseInt_ev | apply State.record_ev | refine Evolves.ite ?_ fun _ => ?_ | intro _ | rfl) | exact rfl | assumption | split | dsimp only

theorem State.spdEval_ev {s t : State} (h : Evolves s t) : Evolves s (State.spdEval t) := by
  unfold State.spdEval
  repeat' first | (with_reducible first | exact h | assumption | apply State.updSp_ev | apply State.spdUpdate_ev | apply State.imgWrite_ev | apply State.each_ev | refine Evolves.ite ?_ fun _ => ?_ | intro _ | rfl) | exact rfl | assumption | split | dsimp only

theorem State.readmit_ev {s t : State} {n : ℕ} (h : Evolves s t) : Evolves s (State.readmit t n) := by
  unfold State.readmit
  repeat' first | (with_reducible first | exact h | assumption | apply State.updSp_ev | apply State.spdRecord_ev | apply State.raiseInt_ev | refine Evolves.ite ?_ fun _ => ?_ | intro _ | rfl) | exact rfl | assumption | split | dsimp only

theorem State.spdCmd_ev {s t : State} {v : ℕ} (h : Evolves s t) : Evolves s (State.spdCmd t v) := by
  unfold State.spdCmd
  repeat' first | (with_reducible first | exact h | assumption | apply State.readmit_ev | apply State.set_ev | apply State.updSp_ev | apply State.each_ev | refine Evolves.ite ?_ fun _ => ?_ | intro _ | rfl) | exact rfl | assumption | split | dsimp only

theorem State.speedLoad_ev {s t : State} {c : SpeedCfg} {d01 : ℕ} {n : ℕ} (h : Evolves s t) : Evolves s (State.speedLoad t c d01 n) := by
  unfold State.speedLoad
  repeat' first | (with_reducible first | exact h | assumption | apply State.set_ev | apply State.setB_ev | apply State.updSp_ev | apply State.each_ev | refine Evolves.ite ?_ fun _ => ?_ | intro _ | rfl) | exact rfl | assumption | split | dsimp only

theorem State.spdOff_ev {s t : State} (h : Evolves s t) : Evolves s (State.spdOff t) := by
  unfold State.spdOff
  repeat' first | (with_reducible first | exact h | assumption | apply State.updSp_ev | apply State.each_ev | refine Evolves.ite ?_ fun _ => ?_ | intro _ | rfl) | exact rfl | assumption | split | dsimp only

theorem State.spdStart_ev {s t : State} {kind : ℕ} (h : Evolves s t) : Evolves s (State.spdStart t kind) := by
  unfold State.spdStart
  repeat' first | (with_reducible first | exact h | assumption | apply State.setSpd_ev | apply State.updSp_ev | apply State.each_ev | refine Evolves.ite ?_ fun _ => ?_ | intro _ | rfl) | exact rfl | assumption | split | dsimp only

theorem State.odoLatch_ev {s t : State} {n : ℕ} {c : ℕ} (h : Evolves s t) : Evolves s (State.odoLatch t n c) := by
  unfold State.odoLatch
  repeat' first | (with_reducible first | exact h | assumption | apply State.set_ev | refine Evolves.ite ?_ fun _ => ?_ | intro _ | rfl) | exact rfl | assumption | split | dsimp only

theorem State.mwEval_ev {s t : State} (h : Evolves s t) : Evolves s (State.mwEval t) := by
  unfold State.mwEval
  repeat' first | (with_reducible first | exact h | assumption | apply State.updMw_ev | refine Evolves.ite ?_ fun _ => ?_ | intro _ | rfl) | exact rfl | assumption | split | dsimp only

theorem State.mwStop_ev {s t : State} {st : ℕ} {cause : ℕ} (h : Evolves s t) : Evolves s (State.mwStop t st cause) := by
  unfold State.mwStop
  repeat' first | (with_reducible first | exact h | assumption | apply State.mwEval_ev | apply State.updMw_ev | refine Evolves.ite ?_ fun _ => ?_ | intro _ | rfl) | exact rfl | assumption | split | dsimp only

theorem State.mwEdge_ev {s t : State} {n : ℕ} {a : Bool} {b : Bool} (h : Evolves s t) : Evolves s (State.mwEdge t n a b) := by
  unfold State.mwEdge
  repeat' first | (with_reducible first | exact h | assumption | apply State.updMw_ev | apply State.mwEval_ev | refine Evolves.ite ?_ fun _ => ?_ | intro _ | rfl) | exact rfl | assumption | split | dsimp only

theorem State.mwStandstill_ev {s t : State} (h : Evolves s t) : Evolves s (State.mwStandstill t) := by
  unfold State.mwStandstill
  repeat' first | (with_reducible first | exact h | assumption | apply State.updMw_ev | apply State.mwEval_ev | refine Evolves.ite ?_ fun _ => ?_ | intro _ | rfl) | exact rfl | assumption | split | dsimp only

theorem State.mwFail_ev {s t : State} {n : ℕ} {cause : ℕ} (h : Evolves s t) : Evolves s (State.mwFail t n cause) := by
  unfold State.mwFail
  repeat' first | (with_reducible first | exact h | assumption | apply State.mwEval_ev | apply State.updMw_ev | refine Evolves.ite ?_ fun _ => ?_ | intro _ | rfl) | exact rfl | assumption | split | dsimp only

theorem State.mwHubGood_ev {s t : State} {b : List Byte} (h : Evolves s t) : Evolves s (State.mwHubGood t b) := by
  unfold State.mwHubGood
  repeat' first | (with_reducible first | exact h | assumption | apply State.updMw_ev | apply State.mwStop_ev | apply State.mwEval_ev | refine Evolves.ite ?_ fun _ => ?_ | intro _ | rfl) | exact rfl | assumption | split | dsimp only

theorem State.mwHubBad_ev {s t : State} (h : Evolves s t) : Evolves s (State.mwHubBad t) := by
  unfold State.mwHubBad
  repeat' first | (with_reducible first | exact h | assumption | apply State.updMw_ev | apply State.mwStop_ev | refine Evolves.ite ?_ fun _ => ?_ | intro _ | rfl) | exact rfl | assumption | split | dsimp only

theorem State.mwHubFrame_ev {s t : State} {b : List Byte} (h : Evolves s t) : Evolves s (State.mwHubFrame t b) := by
  unfold State.mwHubFrame
  repeat' first | (with_reducible first | exact h | assumption | apply State.mwHubBad_ev | apply State.updMw_ev | apply State.mwHubGood_ev | refine Evolves.ite ?_ fun _ => ?_ | intro _ | rfl) | exact rfl | assumption | split | dsimp only

theorem State.mwSend_ev {s t : State} (h : Evolves s t) : Evolves s (State.mwSend t) := by
  unfold State.mwSend
  repeat' first | (with_reducible first | exact h | assumption | apply State.setWire_ev | apply State.updMw_ev | refine Evolves.ite ?_ fun _ => ?_ | intro _ | rfl) | exact rfl | assumption | split | dsimp only

theorem State.mwReset_ev {s t : State} (h : Evolves s t) : Evolves s (State.mwReset t) := by
  unfold State.mwReset
  repeat' first | (with_reducible first | exact h | assumption | apply State.updMw_ev | refine Evolves.ite ?_ fun _ => ?_ | intro _ | rfl) | exact rfl | assumption | split | dsimp only

theorem State.soRecord_ev {s t : State} {code : ℕ} {sev : ℕ} {w0 : ℕ} {w1 : ℕ} (h : Evolves s t) : Evolves s (State.soRecord t code sev w0 w1) := by
  unfold State.soRecord
  repeat' first | (with_reducible first | exact h | assumption | apply State.record_ev | refine Evolves.ite ?_ fun _ => ?_ | intro _ | rfl) | exact rfl | assumption | split | dsimp only

theorem State.mwEntered_ev {s t : State} {st : ℕ} {cause : ℕ} (h : Evolves s t) : Evolves s (State.mwEntered t st cause) := by
  unfold State.mwEntered
  repeat' first | (with_reducible first | exact h | assumption | apply State.soRecord_ev | apply State.raiseInt_ev | refine Evolves.ite ?_ fun _ => ?_ | intro _ | rfl) | exact rfl | assumption | split | dsimp only

theorem State.swDiff_ev {s t : State} (h : Evolves s t) : Evolves s (State.swDiff t) := by
  unfold State.swDiff
  repeat' first | (with_reducible first | exact h | assumption | apply State.setB_ev | apply State.raiseInt_ev | refine Evolves.ite ?_ fun _ => ?_ | intro _ | rfl) | exact rfl | assumption | split | dsimp only

theorem State.mwXc_ev {s t : State} {v : ℕ} {valid : Bool} (h : Evolves s t) : Evolves s (State.mwXc t v valid) := by
  unfold State.mwXc
  repeat' first | (with_reducible first | exact h | assumption | apply State.raiseTo_ev | apply State.updSo_ev | apply State.set_ev | refine Evolves.ite ?_ fun _ => ?_ | intro _ | rfl) | exact rfl | assumption | split | dsimp only

theorem State.mwGood_ev {s t : State} {b : List Byte} (h : Evolves s t) : Evolves s (State.mwGood t b) := by
  unfold State.mwGood
  repeat' first | (with_reducible first | exact h | assumption | apply State.set_ev | apply State.set64_ev | apply State.mwXc_ev | apply State.updSo_ev | apply State.raiseInt_ev | apply State.once_ev | apply State.soRecord_ev | apply State.mwEntered_ev | apply State.swDiff_ev | apply State.each_ev | refine Evolves.ite ?_ fun _ => ?_ | intro _ | rfl) | exact rfl | assumption | split | dsimp only

theorem State.mwFrameIn_ev {s t : State} {b : List Byte} (h : Evolves s t) : Evolves s (State.mwFrameIn t b) := by
  unfold State.mwFrameIn
  repeat' first | (with_reducible first | exact h | assumption | apply State.raiseInt_ev | apply State.count_ev | apply State.updSo_ev | apply State.mwGood_ev | refine Evolves.ite ?_ fun _ => ?_ | intro _ | rfl) | exact rfl | assumption | split | dsimp only

theorem State.soFail_ev {s t : State} {n : ℕ} {cause : ℕ} (h : Evolves s t) : Evolves s (State.soFail t n cause) := by
  unfold State.soFail
  repeat' first | (with_reducible first | exact h | assumption | apply State.set_ev | apply State.updSo_ev | apply State.raiseInt_ev | apply State.count_ev | apply State.soRecord_ev | refine Evolves.ite ?_ fun _ => ?_ | intro _ | rfl) | exact rfl | assumption | split | dsimp only

theorem State.soSample_ev {s t : State} {n : ℕ} {mid : Bool} {out : Bool} {permit : Bool} {supOk : Bool} (h : Evolves s t) : Evolves s (State.soSample t n mid out permit supOk) := by
  unfold State.soSample
  repeat' first | (with_reducible first | exact h | assumption | apply State.updSo_ev | apply State.soFail_ev | apply State.each_ev | refine Evolves.ite ?_ fun _ => ?_ | intro _ | rfl) | exact rfl | assumption | split | dsimp only

theorem State.testNext_ev {s t : State} (h : Evolves s t) : Evolves s (State.testNext t) := by
  unfold State.testNext
  repeat' first | (with_reducible first | exact h | assumption | apply State.updSo_ev | refine Evolves.ite ?_ fun _ => ?_ | intro _ | rfl) | exact rfl | assumption | split | dsimp only

theorem State.testRoundEnd_ev {s t : State} (h : Evolves s t) : Evolves s (State.testRoundEnd t) := by
  unfold State.testRoundEnd
  repeat' first | (with_reducible first | exact h | assumption | apply State.set_ev | apply State.count_ev | apply State.soRecord_ev | apply State.raiseInt_ev | refine Evolves.ite ?_ fun _ => ?_ | intro _ | rfl) | exact rfl | assumption | split | dsimp only

theorem State.testCredit_ev {s t : State} {out : ℕ} (h : Evolves s t) : Evolves s (State.testCredit t out) := by
  unfold State.testCredit
  repeat' first | (with_reducible first | exact h | assumption | apply State.updSo_ev | apply State.testRoundEnd_ev | refine Evolves.ite ?_ fun _ => ?_ | intro _ | rfl) | exact rfl | assumption | split | dsimp only

theorem State.soSense_ev {s t : State} {mid : ℕ} {out : ℕ} {permit : ℕ} {supOk : Bool} (h : Evolves s t) : Evolves s (State.soSense t mid out permit supOk) := by
  unfold State.soSense
  repeat' first | (with_reducible first | exact h | assumption | apply State.set_ev | apply State.raiseInt_ev | apply State.updSo_ev | apply State.soSample_ev | apply State.testNext_ev | apply State.testCredit_ev | apply State.each_ev | refine Evolves.ite ?_ fun _ => ?_ | intro _ | rfl) | exact rfl | assumption | split | dsimp only

theorem State.testRound_ev {s t : State} (h : Evolves s t) : Evolves s (State.testRound t) := by
  unfold State.testRound
  repeat' first | (with_reducible first | exact h | assumption | apply State.updSo_ev | apply State.testRoundEnd_ev | apply State.testNext_ev | refine Evolves.ite ?_ fun _ => ?_ | intro _ | rfl) | exact rfl | assumption | split | dsimp only

theorem State.testEnd_ev {s t : State} {ok : Bool} (h : Evolves s t) : Evolves s (State.testEnd t ok) := by
  unfold State.testEnd
  repeat' first | (with_reducible first | exact h | assumption | apply State.updSo_ev | apply State.soFail_ev | apply State.mwEval_ev | apply State.updMw_ev | apply State.testRoundEnd_ev | apply State.testNext_ev | refine Evolves.ite ?_ fun _ => ?_ | intro _ | rfl) | exact rfl | assumption | split | dsimp only

theorem State.soStage_ev {s t : State} {j : ℕ} {commits : Bool} (h : Evolves s t) : Evolves s (State.soStage t j commits) := by
  unfold State.soStage
  repeat' first | (with_reducible first | exact h | assumption | apply State.updSo_ev | apply State.each_ev | refine Evolves.ite ?_ fun _ => ?_ | intro _ | rfl) | exact rfl | assumption | split | dsimp only

theorem State.soCommit_ev {s t : State} (h : Evolves s t) : Evolves s (State.soCommit t) := by
  unfold State.soCommit
  repeat' first | (with_reducible first | exact h | assumption | apply State.set_ev | apply State.updSo_ev | apply State.each_ev | refine Evolves.ite ?_ fun _ => ?_ | intro _ | rfl) | exact rfl | assumption | split | dsimp only

theorem State.swShow_ev {s t : State} (h : Evolves s t) : Evolves s (State.swShow t) := by
  unfold State.swShow
  repeat' first | (with_reducible first | exact h | assumption | apply State.set_ev | apply State.setB_ev | refine Evolves.ite ?_ fun _ => ?_ | intro _ | rfl) | exact rfl | assumption | split | dsimp only

theorem State.swTrip_ev {s t : State} {diff : ℕ} {cause : ℕ} (h : Evolves s t) : Evolves s (State.swTrip t diff cause) := by
  unfold State.swTrip
  repeat' first | (with_reducible first | exact h | assumption | apply State.updSo_ev | apply State.record_ev | apply State.mwStop_ev | refine Evolves.ite ?_ fun _ => ?_ | intro _ | rfl) | exact rfl | assumption | split | dsimp only

theorem State.swSample_ev {s t : State} {pins : ℕ} {mwPins : ℕ} (h : Evolves s t) : Evolves s (State.swSample t pins mwPins) := by
  unfold State.swSample
  repeat' first | (with_reducible first | exact h | assumption | apply State.swShow_ev | apply State.set64_ev | apply State.setSwRun_ev | apply State.addSat_ev | apply State.record_ev | apply State.raiseInt_ev | apply State.swTrip_ev | apply State.set_ev | apply State.updMw_ev | apply State.mwStop_ev | apply State.swDiff_ev | refine Evolves.ite ?_ fun _ => ?_ | intro _ | rfl) | exact rfl | assumption | split | dsimp only

theorem State.switchCheck_ev {s t : State} (h : Evolves s t) : Evolves s (State.switchCheck t) := by
  unfold State.switchCheck
  repeat' first | (with_reducible first | exact h | assumption | apply State.set_ev | apply State.setB_ev | apply State.swDiff_ev | refine Evolves.ite ?_ fun _ => ?_ | intro _ | rfl) | exact rfl | assumption | split | dsimp only

theorem State.subGo_ev {s t : State} {c : ℕ} (h : Evolves s t) : Evolves s (State.subGo t c) := by
  unfold State.subGo
  repeat' first | (with_reducible first | exact h | assumption | apply State.ledgerArrive_ev | refine Evolves.ite ?_ fun _ => ?_ | intro _ | rfl) | exact rfl | assumption | split | dsimp only

theorem State.flushStart_ev {s t : State} (h : Evolves s t) : Evolves s (State.flushStart t) := by
  unfold State.flushStart
  repeat' first | (with_reducible first | exact h | assumption | apply State.updLg_ev | refine Evolves.ite ?_ fun _ => ?_ | intro _ | rfl) | exact rfl | assumption | split | dsimp only

theorem State.pageOut_ev {s t : State} {n : Nat} (h : Evolves s t) : Evolves s (State.pageOut n t) := by
  induction n generalizing t with
  | zero => exact h
  | succ n ih =>
    unfold State.pageOut
    split
    · exact h
    · exact ih (State.updLg_ev (State.flashPut_ev h))

theorem State.headSave_ev {s t : State} (h : Evolves s t) : Evolves s (State.headSave t) := by
  unfold State.headSave
  repeat' first | (with_reducible first | exact h | assumption | apply State.updLg_ev | refine Evolves.ite ?_ fun _ => ?_ | intro _ | rfl) | exact rfl | assumption | split | dsimp only

theorem State.flushOne_ev {s t : State} {e : LKept} (h : Evolves s t) : Evolves s (State.flushOne t e) := by
  unfold State.flushOne
  repeat' first | (with_reducible first | exact h | assumption | apply State.updLg_ev | apply State.ledgerDrop_ev | apply State.count_ev | refine Evolves.ite ?_ fun _ => ?_ | intro _ | rfl) | exact rfl | assumption | split | dsimp only

theorem State.flushDone_ev {s t : State} (h : Evolves s t) : Evolves s (State.flushDone t) := by
  unfold State.flushDone
  repeat' first | (with_reducible first | exact h | assumption | apply State.updLg_ev | apply State.pageOut_ev | apply State.each_ev | apply State.flushOne_ev | apply State.ledgerShow_ev | apply State.headSave_ev | refine Evolves.ite ?_ fun _ => ?_ | intro _ | rfl) | exact rfl | assumption | split | dsimp only

theorem State.bucketGain_ev {s t : State} {j : ℕ} (h : Evolves s t) : Evolves s (State.bucketGain t j) := by
  unfold State.bucketGain
  repeat' first | (with_reducible first | exact h | assumption | apply State.updLg_ev | refine Evolves.ite ?_ fun _ => ?_ | intro _ | rfl) | exact rfl | assumption | split | dsimp only

theorem State.suppSummary_ev {s t : State} {b : ℕ} {n : ℕ} (h : Evolves s t) : Evolves s (State.suppSummary t b n) := by
  unfold State.suppSummary
  repeat' first | (with_reducible first | exact h | assumption | apply State.ledgerArrive_ev | refine Evolves.ite ?_ fun _ => ?_ | intro _ | rfl) | exact rfl | assumption | split | dsimp only

end Sys2Proof.Machine
end

