-- ==== Sys2Proof/Laws/Evolves4.lean ====
section
/-! SUPPORT. Evolves for the operations of Machine/ on State: speed, Millwright, safety outputs, Ledger, storage, Locksmith, updates, power. -/

set_option linter.unusedTactic false
set_option linter.unreachableTactic false

namespace Sys2Proof.Machine

theorem State.opSecond_ev {s t : State} (h : Evolves s t) : Evolves s (State.opSecond t) := by
  unfold State.opSecond
  repeat' first | (with_reducible first | exact h | assumption | apply State.set_ev | apply State.bucketGain_ev | apply State.updLg_ev | apply State.record_ev | apply State.suppSummary_ev | apply State.each_ev | refine Evolves.ite ?_ fun _ => ?_ | intro _ | rfl) | exact rfl | assumption | split | dsimp only

theorem State.thaw_ev {s t : State} {why : ℕ} (h : Evolves s t) : Evolves s (State.thaw t why) := by
  unfold State.thaw
  repeat' first | (with_reducible first | exact h | assumption | apply State.updLg_ev | apply State.set_ev | apply State.raiseInt_ev | apply State.record_ev | refine Evolves.ite ?_ fun _ => ?_ | intro _ | rfl) | exact rfl | assumption | split | dsimp only

theorem State.lgStat_ev {s t : State} {c : ℕ} (h : Evolves s t) : Evolves s (State.lgStat t c) := by
  unfold State.lgStat
  repeat' first | (with_reducible first | exact h | assumption | apply State.set_ev | refine Evolves.ite ?_ fun _ => ?_ | intro _ | rfl) | exact rfl | assumption | split | dsimp only

theorem State.lgMove_ev {s t : State} {f : LedgerS → Option LKept} (h : Evolves s t) : Evolves s (State.lgMove t f) := by
  unfold State.lgMove
  repeat' first | (with_reducible first | exact h | assumption | apply State.lgStat_ev | apply State.updLg_ev | apply State.set_ev | refine Evolves.ite ?_ fun _ => ?_ | intro _ | rfl) | exact rfl | assumption | split | dsimp only

theorem State.windowReady_ev {s t : State} (h : Evolves s t) : Evolves s (State.windowReady t) := by
  unfold State.windowReady
  repeat' first | (with_reducible first | exact h | assumption | apply State.set_ev | apply State.updLg_ev | apply State.setB_ev | apply State.raiseInt_ev | apply State.each_ev | refine Evolves.ite ?_ fun _ => ?_ | intro _ | rfl) | exact rfl | assumption | split | dsimp only

theorem State.lgCmd_ev {s t : State} {v : ℕ} (h : Evolves s t) : Evolves s (State.lgCmd t v) := by
  unfold State.lgCmd
  repeat' first | (with_reducible first | exact h | assumption | apply State.lgStat_ev | apply State.updLg_ev | apply State.set_ev | apply State.thaw_ev | apply State.lgMove_ev | apply State.flushStart_ev | refine Evolves.ite ?_ fun _ => ?_ | intro _ | rfl) | exact rfl | assumption | split | dsimp only

theorem State.lgCursor_ev {s t : State} {v : ℕ} (h : Evolves s t) : Evolves s (State.lgCursor t v) := by
  unfold State.lgCursor
  repeat' first | (with_reducible first | exact h | assumption | apply State.lgMove_ev | apply State.set_ev | refine Evolves.ite ?_ fun _ => ?_ | intro _ | rfl) | exact rfl | assumption | split | dsimp only

theorem State.freezeCheck_ev {s t : State} (h : Evolves s t) : Evolves s (State.freezeCheck t) := by
  unfold State.freezeCheck
  repeat' first | (with_reducible first | exact h | assumption | apply State.thaw_ev | refine Evolves.ite ?_ fun _ => ?_ | intro _ | rfl) | exact rfl | assumption | split | dsimp only

theorem State.lgCtl_ev {s t : State} {v : ℕ} (h : Evolves s t) : Evolves s (State.lgCtl t v) := by
  unfold State.lgCtl
  repeat' first | (with_reducible first | exact h | assumption | apply State.setB_ev | apply State.freezeCheck_ev | apply State.set_ev | refine Evolves.ite ?_ fun _ => ?_ | intro _ | rfl) | exact rfl | assumption | split | dsimp only

theorem State.bucketFill_ev {s t : State} {b : ℕ} (h : Evolves s t) : Evolves s (State.bucketFill t b) := by
  unfold State.bucketFill
  repeat' first | (with_reducible first | exact h | assumption | apply State.updLg_ev | refine Evolves.ite ?_ fun _ => ?_ | intro _ | rfl) | exact rfl | assumption | split | dsimp only

theorem State.rateEntry_ev {s t : State} {off : ℕ} {v : ℕ} (h : Evolves s t) : Evolves s (State.rateEntry t off v) := by
  unfold State.rateEntry
  repeat' first | (with_reducible first | exact h | assumption | apply State.bucketFill_ev | apply State.setB_ev | apply State.set_ev | refine Evolves.ite ?_ fun _ => ?_ | intro _ | rfl) | exact rfl | assumption | split | dsimp only

theorem State.rateDef_ev {s t : State} {v : ℕ} (h : Evolves s t) : Evolves s (State.rateDef t v) := by
  unfold State.rateDef
  repeat' first | (with_reducible first | exact h | assumption | apply State.bucketFill_ev | apply State.set_ev | refine Evolves.ite ?_ fun _ => ?_ | intro _ | rfl) | exact rfl | assumption | split | dsimp only

theorem State.headMount_ev {s t : State} (h : Evolves s t) : Evolves s (State.headMount t) := by
  unfold State.headMount
  repeat' first | (with_reducible first | exact h | assumption | apply State.set_ev | apply State.updLg_ev | apply State.ledgerPlace_ev | apply State.record_ev | apply State.each_ev | refine Evolves.ite ?_ fun _ => ?_ | intro _ | rfl) | exact rfl | assumption | split | dsimp only

theorem State.updDev_ev {s t : State} {d : Fin 2} {f : DevS → DevS} (h : Evolves s t) : Evolves s (State.updDev t d f) := by
  unfold State.updDev
  repeat' first | (with_reducible first | exact h | assumption | apply State.updSt_ev | refine Evolves.ite ?_ fun _ => ?_ | intro _ | rfl) | exact rfl | assumption | split | dsimp only

theorem State.flashWrite_ev {s t : State} {p : ℕ} {sector : ℕ} {b : List Byte} (h : Evolves s t) : Evolves s (State.flashWrite t p sector b) := by
  unfold State.flashWrite
  repeat' first | (with_reducible first | exact h | assumption | apply State.flashPut_ev | refine Evolves.ite ?_ fun _ => ?_ | intro _ | rfl) | exact rfl | assumption | split | dsimp only

theorem State.flashZero_ev {s t : State} {p : ℕ} {sector : ℕ} (h : Evolves s t) : Evolves s (State.flashZero t p sector) := by
  unfold State.flashZero
  repeat' first | (with_reducible first | exact h | assumption | apply State.flashCut_ev | refine Evolves.ite ?_ fun _ => ?_ | intro _ | rfl) | exact rfl | assumption | split | dsimp only

theorem State.devRecord_ev {s t : State} {d : Fin 2} {code : ℕ} {sev : ℕ} {w1 : ℕ} {w2 : ℕ} (h : Evolves s t) : Evolves s (State.devRecord t d code sev w1 w2) := by
  unfold State.devRecord
  repeat' first | (with_reducible first | exact h | assumption | apply State.record_ev | refine Evolves.ite ?_ fun _ => ?_ | intro _ | rfl) | exact rfl | assumption | split | dsimp only

theorem State.devShow_ev {s t : State} {d : Fin 2} (h : Evolves s t) : Evolves s (State.devShow t d) := by
  unfold State.devShow
  repeat' first | (with_reducible first | exact h | assumption | apply State.setB_ev | apply State.set_ev | refine Evolves.ite ?_ fun _ => ?_ | intro _ | rfl) | exact rfl | assumption | split | dsimp only

theorem State.devFail_ev {s t : State} {d : Fin 2} (h : Evolves s t) : Evolves s (State.devFail t d) := by
  unfold State.devFail
  repeat' first | (with_reducible first | exact h | assumption | apply State.devRecord_ev | apply State.raiseInt_ev | apply State.devShow_ev | apply State.updDev_ev | refine Evolves.ite ?_ fun _ => ?_ | intro _ | rfl) | exact rfl | assumption | split | dsimp only

theorem State.grownBad_ev {s t : State} {d : Fin 2} {block : ℕ} (h : Evolves s t) : Evolves s (State.grownBad t d block) := by
  unfold State.grownBad
  repeat' first | (with_reducible first | exact h | assumption | apply State.devShow_ev | apply State.updDev_ev | apply State.devRecord_ev | apply State.raiseInt_ev | refine Evolves.ite ?_ fun _ => ?_ | intro _ | rfl) | exact rfl | assumption | split | dsimp only

theorem State.blockErased_ev {s t : State} {d : Fin 2} {block : ℕ} (h : Evolves s t) : Evolves s (State.blockErased t d block) := by
  unfold State.blockErased
  repeat' first | (with_reducible first | exact h | assumption | apply State.updDev_ev | refine Evolves.ite ?_ fun _ => ?_ | intro _ | rfl) | exact rfl | assumption | split | dsimp only

theorem State.blockRefresh_ev {s t : State} {d : Fin 2} {block : ℕ} (h : Evolves s t) : Evolves s (State.blockRefresh t d block) := by
  unfold State.blockRefresh
  repeat' first | (with_reducible first | exact h | assumption | apply State.count_ev | apply State.blockErased_ev | apply State.once_ev | apply State.devRecord_ev | refine Evolves.ite ?_ fun _ => ?_ | intro _ | rfl) | exact rfl | assumption | split | dsimp only

theorem State.corrected_ev {s t : State} {d : Fin 2} {bits : ℕ} (h : Evolves s t) : Evolves s (State.corrected t d bits) := by
  unfold State.corrected
  repeat' first | (with_reducible first | exact h | assumption | apply State.raiseTo_ev | refine Evolves.ite ?_ fun _ => ?_ | intro _ | rfl) | exact rfl | assumption | split | dsimp only

theorem State.uncorr_ev {s t : State} {d : Fin 2} (h : Evolves s t) : Evolves s (State.uncorr t d) := by
  unfold State.uncorr
  repeat' first | (with_reducible first | exact h | assumption | apply State.count_ev | refine Evolves.ite ?_ fun _ => ?_ | intro _ | rfl) | exact rfl | assumption | split | dsimp only

theorem State.recovered_ev {s t : State} {d : Fin 2} {p : ℕ} {sector : ℕ} (h : Evolves s t) : Evolves s (State.recovered t d p sector) := by
  unfold State.recovered
  repeat' first | (with_reducible first | exact h | assumption | apply State.devRecord_ev | apply State.raiseInt_ev | apply State.uncorr_ev | refine Evolves.ite ?_ fun _ => ?_ | intro _ | rfl) | exact rfl | assumption | split | dsimp only

theorem State.lostSector_ev {s t : State} {d : Fin 2} {p : ℕ} {sector : ℕ} (h : Evolves s t) : Evolves s (State.lostSector t d p sector) := by
  unfold State.lostSector
  repeat' first | (with_reducible first | exact h | assumption | apply State.devRecord_ev | apply State.raiseInt_ev | apply State.uncorr_ev | refine Evolves.ite ?_ fun _ => ?_ | intro _ | rfl) | exact rfl | assumption | split | dsimp only

theorem State.scrubBlock_ev {s t : State} {d : Fin 2} {bits : ℕ} {reads : ℕ} {loss : List ScrubLoss} (h : Evolves s t) : Evolves s (State.scrubBlock t d bits reads loss) := by
  unfold State.scrubBlock
  repeat' first | (with_reducible first | exact h | assumption | apply State.corrected_ev | apply State.recovered_ev | apply State.lostSector_ev | apply State.blockRefresh_ev | apply State.set_ev | apply State.devRecord_ev | apply State.count_ev | apply State.each_ev | refine Evolves.ite ?_ fun _ => ?_ | intro _ | rfl) | exact rfl | assumption | split | dsimp only

theorem State.wearShow_ev {s t : State} {d : Fin 2} (h : Evolves s t) : Evolves s (State.wearShow t d) := by
  unfold State.wearShow
  repeat' first | (with_reducible first | exact h | assumption | apply State.set_ev | refine Evolves.ite ?_ fun _ => ?_ | intro _ | rfl) | exact rfl | assumption | split | dsimp only

theorem State.mountDev_ev {s t : State} {d : Fin 2} {x : NandId} (h : Evolves s t) : Evolves s (State.mountDev t d x) := by
  unfold State.mountDev
  repeat' first | (with_reducible first | exact h | assumption | apply State.updDev_ev | apply State.wearShow_ev | apply State.devShow_ev | apply State.devFail_ev | refine Evolves.ite ?_ fun _ => ?_ | intro _ | rfl) | exact rfl | assumption | split | dsimp only

theorem State.stEnd_ev {s t : State} {err : Bool} {reason : ℕ} {n : ℕ} (h : Evolves s t) : Evolves s (State.stEnd t err reason n) := by
  unfold State.stEnd
  repeat' first | (with_reducible first | exact h | assumption | apply State.set_ev | apply State.raiseInt_ev | apply State.updSt_ev | refine Evolves.ite ?_ fun _ => ?_ | intro _ | rfl) | exact rfl | assumption | split | dsimp only

theorem State.stGo_ev {s t : State} {op : ℕ} (h : Evolves s t) : Evolves s (State.stGo t op) := by
  unfold State.stGo
  repeat' first | (with_reducible first | exact h | assumption | apply State.raiseInt_ev | apply State.set_ev | apply State.stEnd_ev | apply State.updSt_ev | refine Evolves.ite ?_ fun _ => ?_ | intro _ | rfl) | exact rfl | assumption | split | dsimp only

theorem State.slotPass_ev {s t : State} {p : ℕ} {sector : ℕ} {b : List Byte} (h : Evolves s t) : Evolves s (State.slotPass t p sector b) := by
  unfold State.slotPass
  repeat' first | (with_reducible first | exact h | assumption | apply State.updU_ev | refine Evolves.ite ?_ fun _ => ?_ | intro _ | rfl) | exact rfl | assumption | split | dsimp only

theorem State.stComplete_ev {s t : State} {c : StCmd} {r : StResult} (h : Evolves s t) : Evolves s (State.stComplete t c r) := by
  unfold State.stComplete
  dsimp only
  refine State.stEnd_ev (foldl_ev (g := fun x : StRun => x.s) ?_ _ _ ?_)
  · intro g i hg
    unfold stSector
    repeat' first | (with_reducible first | assumption | apply State.hubWrite_ev | apply State.recovered_ev | apply State.set_ev | apply State.lostSector_ev | apply State.slotPass_ev | apply State.flashWrite_ev | apply State.flashZero_ev) | split | dsimp only
  · refine State.each_ev (State.each_ev (State.each_ev h fun _ _ g => State.grownBad_ev g) fun _ _ g => State.blockErased_ev g) fun _ _ g => ?_
    split
    · exact State.blockRefresh_ev (State.corrected_ev g)
    · exact State.corrected_ev g

theorem State.safeSave_ev {s t : State} (h : Evolves s t) : Evolves s (State.safeSave t) := by
  unfold State.safeSave
  repeat' first | (with_reducible first | exact h | assumption | apply State.updS_ev | refine Evolves.ite ?_ fun _ => ?_ | intro _ | rfl) | exact rfl | assumption | split | dsimp only

theorem State.pfSave_ev {s t : State} {fail : Bool} {lost0 : Bool} {lost1 : Bool} (h : Evolves s t) : Evolves s (State.pfSave t fail lost0 lost1) := by
  unfold State.pfSave
  repeat' first | (with_reducible first | exact h | assumption | apply State.safeSave_ev | apply State.headSave_ev | apply State.retSave_ev | apply State.flashWrite_ev | apply State.draw_ev | apply State.updLg_ev | apply State.updSt_ev | apply State.devRecord_ev | apply State.each_ev | refine Evolves.ite ?_ fun _ => ?_ | intro _ | rfl) | exact rfl | assumption | split | dsimp only

theorem State.sdRecord_ev {s t : State} {code : ℕ} {sev : ℕ} {w1 : ℕ} {w2 : ℕ} (h : Evolves s t) : Evolves s (State.sdRecord t code sev w1 w2) := by
  unfold State.sdRecord
  repeat' first | (with_reducible first | exact h | assumption | apply State.record_ev | refine Evolves.ite ?_ fun _ => ?_ | intro _ | rfl) | exact rfl | assumption | split | dsimp only

theorem State.sdClear_ev {s t : State} (h : Evolves s t) : Evolves s (State.sdClear t) := by
  unfold State.sdClear
  repeat' first | (with_reducible first | exact h | assumption | apply State.set_ev | refine Evolves.ite ?_ fun _ => ?_ | intro _ | rfl) | exact rfl | assumption | split | dsimp only

theorem State.sdError_ev {s t : State} {reason : ℕ} {n : ℕ} {lba : ℕ} (h : Evolves s t) : Evolves s (State.sdError t reason n lba) := by
  unfold State.sdError
  repeat' first | (with_reducible first | exact h | assumption | apply State.set_ev | apply State.sdRecord_ev | apply State.raiseInt_ev | refine Evolves.ite ?_ fun _ => ?_ | intro _ | rfl) | exact rfl | assumption | split | dsimp only

theorem State.sdInit_ev {s t : State} (h : Evolves s t) : Evolves s (State.sdInit t) := by
  unfold State.sdInit
  repeat' first | (with_reducible first | exact h | assumption | apply State.raiseInt_ev | apply State.set_ev | apply State.updSt_ev | apply State.sdClear_ev | refine Evolves.ite ?_ fun _ => ?_ | intro _ | rfl) | exact rfl | assumption | split | dsimp only

theorem State.sdRead_ev {s t : State} (h : Evolves s t) : Evolves s (State.sdRead t) := by
  unfold State.sdRead
  repeat' first | (with_reducible first | exact h | assumption | apply State.sdError_ev | apply State.set_ev | apply State.updSt_ev | refine Evolves.ite ?_ fun _ => ?_ | intro _ | rfl) | exact rfl | assumption | split | dsimp only

theorem State.sdOff_ev {s t : State} (h : Evolves s t) : Evolves s (State.sdOff t) := by
  unfold State.sdOff
  repeat' first | (with_reducible first | exact h | assumption | apply State.updSt_ev | apply State.set_ev | apply State.sdClear_ev | refine Evolves.ite ?_ fun _ => ?_ | intro _ | rfl) | exact rfl | assumption | split | dsimp only

theorem State.sdCmd_ev {s t : State} {v : ℕ} (h : Evolves s t) : Evolves s (State.sdCmd t v) := by
  unfold State.sdCmd
  repeat' first | (with_reducible first | exact h | assumption | apply State.sdInit_ev | apply State.sdRead_ev | apply State.sdOff_ev | refine Evolves.ite ?_ fun _ => ?_ | intro _ | rfl) | exact rfl | assumption | split | dsimp only

theorem State.sdInitDone_ev {s t : State} {r : SdInit} (h : Evolves s t) : Evolves s (State.sdInitDone t r) := by
  unfold State.sdInitDone
  repeat' first | (with_reducible first | exact h | assumption | apply State.updSt_ev | apply State.set_ev | apply State.raiseInt_ev | apply State.setB_ev | apply State.sdRecord_ev | apply State.each_ev | refine Evolves.ite ?_ fun _ => ?_ | intro _ | rfl) | exact rfl | assumption | split | dsimp only

theorem State.sdPartial_ev {s t : State} {q : ℕ} {b : List Byte} (h : Evolves s t) : Evolves s (State.sdPartial t q b) := by
  unfold State.sdPartial
  repeat' first | (with_reducible first | exact h | assumption | apply State.qPush_ev | apply State.each_ev | refine Evolves.ite ?_ fun _ => ?_ | intro _ | rfl) | exact rfl | assumption | split | dsimp only

theorem State.sdReadEnd_ev {s t : State} {lba : ℕ} {n : ℕ} {q : ℕ} {r : SdResult} (h : Evolves s t) : Evolves s (State.sdReadEnd t lba n q r) := by
  unfold State.sdReadEnd
  repeat' first | (with_reducible first | exact h | assumption | apply State.set_ev | apply State.addSat_ev | apply State.updSt_ev | apply State.qPacket_ev | apply State.raiseInt_ev | apply State.sdPartial_ev | apply State.sdError_ev | refine Evolves.ite ?_ fun _ => ?_ | intro _ | rfl) | exact rfl | assumption | split | dsimp only

theorem State.fuseShow_ev {s t : State} (h : Evolves s t) : Evolves s (State.fuseShow t) := by
  unfold State.fuseShow
  repeat' first | (with_reducible first | exact h | assumption | apply State.set_ev | apply State.set64_ev | refine Evolves.ite ?_ fun _ => ?_ | intro _ | rfl) | exact rfl | assumption | split | dsimp only

theorem State.lkRecord_ev {s t : State} {code : ℕ} {sev : ℕ} {w0 : ℕ} (h : Evolves s t) : Evolves s (State.lkRecord t code sev w0) := by
  unfold State.lkRecord
  repeat' first | (with_reducible first | exact h | assumption | apply State.record_ev | refine Evolves.ite ?_ fun _ => ?_ | intro _ | rfl) | exact rfl | assumption | split | dsimp only

theorem State.roomWipe_ev {s t : State} (h : Evolves s t) : Evolves s (State.roomWipe t) := by
  unfold State.roomWipe
  repeat' first | (with_reducible first | exact h | assumption | apply State.set_ev | apply State.updLk_ev | apply State.hubZero_ev | refine Evolves.ite ?_ fun _ => ?_ | intro _ | rfl) | exact rfl | assumption | split | dsimp only

theorem State.keyDerive_ev {s t : State} (h : Evolves s t) : Evolves s (State.keyDerive t) := by
  unfold State.keyDerive
  repeat' first | (with_reducible first | exact h | assumption | apply State.set_ev | apply State.updLk_ev | refine Evolves.ite ?_ fun _ => ?_ | intro _ | rfl) | exact rfl | assumption | split | dsimp only

theorem State.newNonce_ev {s t : State} (h : Evolves s t) : Evolves s (State.newNonce t) := by
  unfold State.newNonce
  repeat' first | (with_reducible first | exact h | assumption | apply State.draw_ev | apply State.set64_ev | refine Evolves.ite ?_ fun _ => ?_ | intro _ | rfl) | exact rfl | assumption | split | dsimp only

theorem State.shutOff_ev {s t : State} {restart : ℕ} (h : Evolves s t) : Evolves s (State.shutOff t restart) := by
  unfold State.shutOff
  repeat' first | (with_reducible first | exact h | assumption | apply State.set_ev | apply State.roomWipe_ev | apply State.updCyc_ev | apply State.setPower_ev | apply State.each_ev | refine Evolves.ite ?_ fun _ => ?_ | intro _ | rfl) | exact rfl | assumption | split | dsimp only

theorem State.sessEnd_ev {s t : State} (h : Evolves s t) : Evolves s (State.sessEnd t) := by
  unfold State.sessEnd
  repeat' first | (with_reducible first | exact h | assumption | apply State.updU_ev | apply State.set_ev | refine Evolves.ite ?_ fun _ => ?_ | intro _ | rfl) | exact rfl | assumption | split | dsimp only

theorem State.lkDone_ev {s t : State} (h : Evolves s t) : Evolves s (State.lkDone t) := by
  unfold State.lkDone
  repeat' first | (with_reducible first | exact h | assumption | apply State.raiseInt_ev | apply State.set_ev | refine Evolves.ite ?_ fun _ => ?_ | intro _ | rfl) | exact rfl | assumption | split | dsimp only

theorem State.lkError_ev {s t : State} {reason : ℕ} (h : Evolves s t) : Evolves s (State.lkError t reason) := by
  unfold State.lkError
  repeat' first | (with_reducible first | exact h | assumption | apply State.raiseInt_ev | apply State.set_ev | refine Evolves.ite ?_ fun _ => ?_ | intro _ | rfl) | exact rfl | assumption | split | dsimp only

theorem State.lkResult_ev {s t : State} {b : List Byte} (h : Evolves s t) : Evolves s (State.lkResult t b) := by
  unfold State.lkResult
  repeat' first | (with_reducible first | exact h | assumption | apply State.set_ev | apply State.each_ev | refine Evolves.ite ?_ fun _ => ?_ | intro _ | rfl) | exact rfl | assumption | split | dsimp only

theorem State.tokenRefuse_ev {s t : State} {reason : ℕ} (h : Evolves s t) : Evolves s (State.tokenRefuse t reason) := by
  unfold State.tokenRefuse
  repeat' first | (with_reducible first | exact h | assumption | apply State.newNonce_ev | apply State.lkRecord_ev | apply State.lkError_ev | refine Evolves.ite ?_ fun _ => ?_ | intro _ | rfl) | exact rfl | assumption | split | dsimp only

theorem State.tamper_ev {s t : State} {src : ℕ} {bad : Bool} (h : Evolves s t) : Evolves s (State.tamper t src bad) := by
  unfold State.tamper
  repeat' first | (with_reducible first | exact h | assumption | apply State.set_ev | apply State.roomWipe_ev | apply State.lkError_ev | apply State.lkResult_ev | apply State.updLk_ev | apply State.lkRecord_ev | apply State.count_ev | apply State.raiseInt_ev | apply State.serviceOnly_ev | apply State.setPassive_ev | refine Evolves.ite ?_ fun _ => ?_ | intro _ | rfl) | exact rfl | assumption | split | dsimp only

theorem State.tamperOwed_ev {s t : State} (h : Evolves s t) : Evolves s (State.tamperOwed t) := by
  unfold State.tamperOwed
  repeat' first | (with_reducible first | exact h | assumption | apply State.updLk_ev | apply State.each_ev | apply State.lkRecord_ev | intro _ | rfl) | exact rfl | assumption | split | dsimp only

theorem State.armShow_ev {s t : State} (h : Evolves s t) : Evolves s (State.armShow t) := by
  unfold State.armShow
  repeat' first | (with_reducible first | exact h | assumption | apply State.set_ev | refine Evolves.ite ?_ fun _ => ?_ | intro _ | rfl) | exact rfl | assumption | split | dsimp only

theorem State.tamperEdge_ev {s t : State} {src : ℕ} {firing : Bool} {bad : Bool} (h : Evolves s t) : Evolves s (State.tamperEdge t src firing bad) := by
  unfold State.tamperEdge
  repeat' first | (with_reducible first | exact h | assumption | apply State.set_ev | apply State.tamper_ev | apply State.lkRecord_ev | refine Evolves.ite ?_ fun _ => ?_ | intro _ | rfl) | exact rfl | assumption | split | dsimp only

theorem State.windowOpen_ev {s t : State} {sec : ℕ} (h : Evolves s t) : Evolves s (State.windowOpen t sec) := by
  unfold State.windowOpen
  repeat' first | (with_reducible first | exact h | assumption | apply State.updLk_ev | apply State.lkRecord_ev | apply State.raiseInt_ev | apply State.armShow_ev | apply State.set_ev | refine Evolves.ite ?_ fun _ => ?_ | intro _ | rfl) | exact rfl | assumption | split | dsimp only

theorem State.windowClose_ev {s t : State} (h : Evolves s t) : Evolves s (State.windowClose t) := by
  unfold State.windowClose
  repeat' first | (with_reducible first | exact h | assumption | apply State.updLk_ev | apply State.lkRecord_ev | apply State.raiseInt_ev | apply State.armShow_ev | apply State.set_ev | apply State.tamper_ev | apply State.each_ev | refine Evolves.ite ?_ fun _ => ?_ | intro _ | rfl) | exact rfl | assumption | split | dsimp only

theorem State.tokenTake_ev {s t : State} {r : ℕ} {f : State → State} (h : Evolves s t) (hf : ∀ u, Evolves s u → Evolves s (f u)) : Evolves s (State.tokenTake t r f) := by
  unfold State.tokenTake
  repeat' first | (with_reducible first | exact h | assumption | apply State.tokenRefuse_ev | apply State.newNonce_ev | apply State.lkDone_ev | refine Evolves.ite ?_ fun _ => ?_ | intro _ | rfl | apply hf) | exact rfl | assumption | split | dsimp only

theorem State.opOpen_ev {s t : State} {t' : List Byte} (h : Evolves s t) : Evolves s (State.opOpen t t') := by
  unfold State.opOpen
  repeat' first | (with_reducible first | exact h | assumption | apply State.tokenRefuse_ev | apply State.tokenTake_ev | apply State.windowOpen_ev | refine Evolves.ite ?_ fun _ => ?_ | intro _ | rfl) | exact rfl | assumption | split | dsimp only

theorem State.opRelease_ev {s t : State} {t' : List Byte} (h : Evolves s t) : Evolves s (State.opRelease t t') := by
  unfold State.opRelease
  repeat' first | (with_reducible first | exact h | assumption | apply State.tokenRefuse_ev | apply State.tokenTake_ev | apply State.lkRecord_ev | apply State.set_ev | refine Evolves.ite ?_ fun _ => ?_ | intro _ | rfl) | exact rfl | assumption | split | dsimp only

theorem setBit_testBit {m k i : Nat} (h : m.testBit i) : (setBit m k).testBit i := by
  unfold setBit
  split
  · exact h
  next hk =>
    have hk' : m / 2 ^ k % 2 = 0 := by
      have := Nat.mod_two_eq_zero_or_one (m / 2 ^ k)
      simp [bitOf] at hk; omega
    rcases Nat.lt_trichotomy i k with hi | hi | hi
    · rw [Nat.add_comm, Nat.testBit_two_pow_add_gt hi]; exact h
    · subst hi
      simp [Nat.testBit, Nat.shiftRight_eq_div_pow, Nat.one_and_eq_mod_two, hk'] at h
    · obtain ⟨d, rfl⟩ : ∃ d, i = (k + 1) + d := ⟨i - (k + 1), by omega⟩
      have e : (m + 2 ^ k) / 2 ^ (k + 1) = m / 2 ^ (k + 1) := by
        rw [pow_succ, ← Nat.div_div_eq_div_mul, ← Nat.div_div_eq_div_mul, Nat.add_div_right _ (by positivity)]
        omega
      have e2 : ∀ x, Nat.testBit x (k + 1 + d) = (x / 2 ^ (k + 1)).testBit d := fun x => by rw [Nat.testBit_div_two_pow, Nat.add_comm]
      rw [e2] at h ⊢
      rw [e]; exact h

theorem setRevoked_burns (k : LockS) (slot m : Nat) (h : ∀ i, (k.revoked slot).testBit i → m.testBit i) : k.burnsTo (k.setRevoked slot m) := by
  unfold LockS.setRevoked
  by_cases h0 : slot = 0
  · simp only [h0, if_true]
    simp only [LockS.revoked, h0, if_true] at h
    exact ⟨le_rfl, le_rfl, le_rfl, le_rfl, rfl, h, fun _ => id, fun _ => id⟩
  by_cases h1 : slot = 1
  · simp only [h1, if_true, Nat.one_ne_zero, if_false]
    simp only [LockS.revoked, h1, if_true, Nat.one_ne_zero, if_false] at h
    exact ⟨le_rfl, le_rfl, le_rfl, le_rfl, rfl, fun _ => id, h, fun _ => id⟩
  · simp only [h0, h1, if_false]
    simp only [LockS.revoked, h0, h1, if_false] at h
    exact ⟨le_rfl, le_rfl, le_rfl, le_rfl, rfl, fun _ => id, fun _ => id, h⟩

theorem State.opRevoke_ev {s t : State} {b : List Byte} (h : Evolves s t) : Evolves s (t.opRevoke b) := by
  unfold State.opRevoke
  dsimp only
  refine State.tokenTake_ev h fun u hu => State.lkRecord_ev (State.fuseShow_ev ?_)
  exact .burn _ hu (setRevoked_burns _ _ _ fun _ => setBit_testBit)

theorem LockS.burnsTo.trans {a b c : LockS} (h : a.burnsTo b) (g : b.burnsTo c) : a.burnsTo c :=
  ⟨h.1.trans g.1, h.2.1.trans g.2.1, h.2.2.1.trans g.2.2.1, h.2.2.2.1.trans g.2.2.2.1, h.2.2.2.2.1.trans g.2.2.2.2.1,
    fun i x => g.2.2.2.2.2.1 i (h.2.2.2.2.2.1 i x), fun i x => g.2.2.2.2.2.2.1 i (h.2.2.2.2.2.2.1 i x), fun i x => g.2.2.2.2.2.2.2 i (h.2.2.2.2.2.2.2 i x)⟩

theorem burnHash_burns (k : LockS) (slot h : Nat) (hs : slot = 1 ∨ slot = 2) : k.burnsTo (k.burnHash slot h) := by
  unfold LockS.burnHash
  split
  · exact ⟨le_rfl, le_rfl, le_rfl, le_rfl, rfl, fun _ => id, fun _ => id, fun _ => id⟩
  · dsimp only
    refine LockS.burnsTo.trans ?_ (setRevoked_burns _ _ _ fun i hi => by simp [hi])
    obtain rfl | rfl := hs <;> simp [LockS.burnsTo, LockS.burnt]

theorem transN_le (n d : Nat) : n ≤ transN n d := by
  unfold transN
  cases e : (List.range 17).find? fun m => decide (n < m) && lifeCode m == d with
  | none => exact le_rfl
  | some m =>
    have := List.find?_some e
    simp only [Bool.and_eq_true, decide_eq_true_eq] at this
    exact this.1.le

theorem State.transition_ev {s t : State} {b : List Byte} (h : Evolves s t) : Evolves s (t.transition b) := by
  unfold State.transition
  dsimp only
  refine State.shutOff_ev (State.lkRecord_ev (State.roomWipe_ev (State.fuseShow_ev ?_)))
  refine .burn _ (State.sessEnd_ev h) ?_
  refine LockS.burnsTo.trans ?_ (burnHash_burns _ _ _ (.inr rfl))
  refine LockS.burnsTo.trans ?_ (burnHash_burns _ _ _ (.inl rfl))
  exact ⟨transN_le _ _, le_rfl, le_rfl, le_rfl, rfl, fun _ => id, fun _ => id, fun _ => id⟩

theorem State.opTransition_ev {s t : State} {t' : List Byte} (h : Evolves s t) : Evolves s (State.opTransition t t') := by
  unfold State.opTransition
  repeat' first | (with_reducible first | exact h | assumption | apply State.tokenRefuse_ev | apply State.tokenTake_ev | apply State.transition_ev | refine Evolves.ite ?_ fun _ => ?_ | intro _ | rfl) | exact rfl | assumption | split | dsimp only

theorem State.opSign_ev {s t : State} {k : ℕ × ℕ} {b : List Byte} (h : Evolves s t) : Evolves s (State.opSign t k b) := by
  unfold State.opSign
  repeat' first | (with_reducible first | exact h | assumption | apply State.lkError_ev | apply State.lkDone_ev | apply State.draw_ev | apply State.lkResult_ev | refine Evolves.ite ?_ fun _ => ?_ | intro _ | rfl) | exact rfl | assumption | split | dsimp only

theorem State.opVerify_ev {s t : State} {b : List Byte} (h : Evolves s t) : Evolves s (State.opVerify t b) := by
  unfold State.opVerify
  repeat' first | (with_reducible first | exact h | assumption | apply State.lkDone_ev | apply State.setB_ev | apply State.lkError_ev | refine Evolves.ite ?_ fun _ => ?_ | intro _ | rfl) | exact rfl | assumption | split | dsimp only

theorem State.lkComplete_ev {s t : State} {o : LkOp} (h : Evolves s t) : Evolves s (State.lkComplete t o) := by
  unfold State.lkComplete
  repeat' first | (with_reducible first | exact h | assumption | apply State.updLk_ev | apply State.opOpen_ev | apply State.lkDone_ev | apply State.windowClose_ev | apply State.opRelease_ev | apply State.opTransition_ev | apply State.opVerify_ev | apply State.opRevoke_ev | apply State.lkError_ev | apply State.opSign_ev | apply State.lkResult_ev | refine Evolves.ite ?_ fun _ => ?_ | intro _ | rfl) | exact rfl | assumption | split | dsimp only

theorem State.lkCmd_ev {s t : State} {v : ℕ} (h : Evolves s t) : Evolves s (State.lkCmd t v) := by
  unfold State.lkCmd
  repeat' first | (with_reducible first | exact h | assumption | apply State.raiseInt_ev | apply State.set_ev | apply State.updLk_ev | apply State.lkResult_ev | refine Evolves.ite ?_ fun _ => ?_ | intro _ | rfl) | exact rfl | assumption | split | dsimp only

theorem State.updRecord_ev {s t : State} {code : ℕ} {sev : ℕ} {w0 : ℕ} {w2 : ℕ} (h : Evolves s t) : Evolves s (State.updRecord t code sev w0 w2) := by
  unfold State.updRecord
  repeat' first | (with_reducible first | exact h | assumption | apply State.record_ev | refine Evolves.ite ?_ fun _ => ?_ | intro _ | rfl) | exact rfl | assumption | split | dsimp only

theorem State.updDone_ev {s t : State} (h : Evolves s t) : Evolves s (State.updDone t) := by
  unfold State.updDone
  repeat' first | (with_reducible first | exact h | assumption | apply State.raiseInt_ev | apply State.updU_ev | apply State.set_ev | refine Evolves.ite ?_ fun _ => ?_ | intro _ | rfl) | exact rfl | assumption | split | dsimp only

theorem State.updError_ev {s t : State} {reason : ℕ} (h : Evolves s t) : Evolves s (State.updError t reason) := by
  unfold State.updError
  repeat' first | (with_reducible first | exact h | assumption | apply State.updU_ev | apply State.set_ev | refine Evolves.ite ?_ fun _ => ?_ | intro _ | rfl) | exact rfl | assumption | split | dsimp only

theorem State.updRefuse_ev {s t : State} {reason : ℕ} {w0 : ℕ} {w2 : ℕ} (h : Evolves s t) : Evolves s (State.updRefuse t reason w0 w2) := by
  unfold State.updRefuse
  repeat' first | (with_reducible first | exact h | assumption | apply State.updRecord_ev | apply State.raiseInt_ev | apply State.count_ev | apply State.updError_ev | refine Evolves.ite ?_ fun _ => ?_ | intro _ | rfl) | exact rfl | assumption | split | dsimp only

theorem State.bootShow_ev {s t : State} (h : Evolves s t) : Evolves s (State.bootShow t) := by
  unfold State.bootShow
  repeat' first | (with_reducible first | exact h | assumption | apply State.set_ev | apply State.each_ev | refine Evolves.ite ?_ fun _ => ?_ | intro _ | rfl) | exact rfl | assumption | split | dsimp only

theorem State.updVerify_ev {s t : State} {h' : List Byte} (h : Evolves s t) : Evolves s (State.updVerify t h') := by
  unfold State.updVerify
  repeat' first | (with_reducible first | exact h | assumption | apply State.updRefuse_ev | apply State.updU_ev | apply State.sessEnd_ev | apply State.updRecord_ev | apply State.updDone_ev | apply State.set_ev | refine Evolves.ite ?_ fun _ => ?_ | intro _ | rfl) | exact rfl | assumption | split | dsimp only

theorem State.slotOpen_ev {s t : State} {u : UpdSess} {h' : List Byte} (h : Evolves s t) : Evolves s (State.slotOpen t u h') := by
  unfold State.slotOpen
  repeat' first | (with_reducible first | exact h | assumption | apply State.updU_ev | apply State.set_ev | refine Evolves.ite ?_ fun _ => ?_ | intro _ | rfl) | exact rfl | assumption | split | dsimp only

theorem State.updBegin_ev {s t : State} {h' : List Byte} (h : Evolves s t) : Evolves s (State.updBegin t h') := by
  unfold State.updBegin
  repeat' first | (with_reducible first | exact h | assumption | apply State.raiseInt_ev | apply State.updError_ev | apply State.updRefuse_ev | apply State.updDone_ev | apply State.slotOpen_ev | refine Evolves.ite ?_ fun _ => ?_ | intro _ | rfl) | exact rfl | assumption | split | dsimp only

theorem State.updEnd_ev {s t : State} {bad : Bool} (h : Evolves s t) : Evolves s (State.updEnd t bad) := by
  unfold State.updEnd
  repeat' first | (with_reducible first | exact h | assumption | apply State.raiseInt_ev | apply State.updError_ev | apply State.updU_ev | apply State.set_ev | apply State.updRefuse_ev | apply State.updRecord_ev | apply State.updDone_ev | refine Evolves.ite ?_ fun _ => ?_ | intro _ | rfl) | exact rfl | assumption | split | dsimp only

theorem State.updAbort_ev {s t : State} (h : Evolves s t) : Evolves s (State.updAbort t) := by
  unfold State.updAbort
  repeat' first | (with_reducible first | exact h | assumption | apply State.raiseInt_ev | apply State.updError_ev | apply State.updDone_ev | apply State.sessEnd_ev | refine Evolves.ite ?_ fun _ => ?_ | intro _ | rfl) | exact rfl | assumption | split | dsimp only

theorem State.setTrial_ev {s t : State} {mask : ℕ} {raiseFloor : Bool} {next : ℕ} (h : Evolves s t) : Evolves s (State.setTrial t mask raiseFloor next) := by
  unfold State.setTrial
  repeat' first | (with_reducible first | exact h | assumption | apply State.bootShow_ev | apply State.updU_ev | refine Evolves.ite ?_ fun _ => ?_ | intro _ | rfl) | exact rfl | assumption | split | dsimp only

theorem State.updActivate_ev {s t : State} {now : Bool} (h : Evolves s t) : Evolves s (State.updActivate t now) := by
  unfold State.updActivate
  repeat' first | (with_reducible first | exact h | assumption | apply State.raiseInt_ev | apply State.updError_ev | apply State.updRefuse_ev | apply State.updRecord_ev | apply State.updDone_ev | apply State.sessEnd_ev | apply State.setTrial_ev | apply State.updCyc_ev | apply State.shutOff_ev | refine Evolves.ite ?_ fun _ => ?_ | intro _ | rfl) | exact rfl | assumption | split | dsimp only

theorem State.raiseSec_ev {s t : State} (h : Evolves s t) : Evolves s (State.raiseSec t) := by
  unfold State.raiseSec
  extract_lets e
  split
  next hc =>
    refine State.lkRecord_ev (State.fuseShow_ev (.burn _ h ?_))
    exact ⟨le_rfl, hc.2.2.le, le_rfl, le_rfl, rfl, fun _ => id, fun _ => id, fun _ => id⟩
  next => exact h

theorem State.updConfirm_ev {s t : State} (h : Evolves s t) : Evolves s (State.updConfirm t) := by
  unfold State.updConfirm
  repeat' first | (with_reducible first | exact h | assumption | apply State.raiseInt_ev | apply State.updError_ev | apply State.updU_ev | apply State.raiseSec_ev | apply State.updRecord_ev | apply State.updDone_ev | apply State.bootShow_ev | apply State.set_ev | refine Evolves.ite ?_ fun _ => ?_ | intro _ | rfl) | exact rfl | assumption | split | dsimp only

theorem State.updBooted_ev {s t : State} (h : Evolves s t) : Evolves s (State.updBooted t) := by
  unfold State.updBooted
  repeat' first | (with_reducible first | exact h | assumption | apply State.updDone_ev | apply State.bootShow_ev | apply State.updU_ev | refine Evolves.ite ?_ fun _ => ?_ | intro _ | rfl) | exact rfl | assumption | split | dsimp only

theorem State.abandon_ev {s t : State} (h : Evolves s t) : Evolves s (State.abandon t) := by
  unfold State.abandon
  repeat' first | (with_reducible first | exact h | assumption | apply State.updU_ev | apply State.updRecord_ev | apply State.raiseInt_ev | apply State.bootShow_ev | apply State.set_ev | refine Evolves.ite ?_ fun _ => ?_ | intro _ | rfl) | exact rfl | assumption | split | dsimp only

theorem State.failedBoot_ev {s t : State} {cause : ℕ} (h : Evolves s t) : Evolves s (State.failedBoot t cause) := by
  unfold State.failedBoot
  repeat' first | (with_reducible first | exact h | assumption | apply State.updU_ev | apply State.abandon_ev | apply State.updRecord_ev | apply State.bootShow_ev | refine Evolves.ite ?_ fun _ => ?_ | intro _ | rfl) | exact rfl | assumption | split | dsimp only

theorem State.updCmd_ev {s t : State} {v : ℕ} (h : Evolves s t) : Evolves s (State.updCmd t v) := by
  unfold State.updCmd
  repeat' first | (with_reducible first | exact h | assumption | apply State.raiseInt_ev | apply State.set_ev | apply State.updAbort_ev | apply State.updActivate_ev | apply State.updConfirm_ev | apply State.updBooted_ev | apply State.updU_ev | refine Evolves.ite ?_ fun _ => ?_ | intro _ | rfl) | exact rfl | assumption | split | dsimp only

theorem State.pwrRecord_ev {s t : State} {code : ℕ} {sev : ℕ} {w0 : ℕ} (h : Evolves s t) : Evolves s (State.pwrRecord t code sev w0) := by
  unfold State.pwrRecord
  repeat' first | (with_reducible first | exact h | assumption | apply State.record_ev | refine Evolves.ite ?_ fun _ => ?_ | intro _ | rfl) | exact rfl | assumption | split | dsimp only

theorem State.powerFail_ev {s t : State} {full0 : Bool} {full1 : Bool} (h : Evolves s t) : Evolves s (State.powerFail t full0 full1) := by
  unfold State.powerFail
  repeat' first | (with_reducible first | exact h | assumption | apply State.rejoinDrop_ev | apply State.pwrRecord_ev | apply State.set_ev | apply State.brLose_ev | apply State.fioPassive_ev | apply State.soOpen_ev | apply State.canPassive_ev | apply State.porterShut_ev | apply State.shutOff_ev | apply State.pfSave_ev | refine Evolves.ite ?_ fun _ => ?_ | intro _ | rfl) | exact rfl | assumption | split | dsimp only

theorem State.dozeOff_ev {s t : State} (h : Evolves s t) : Evolves s (State.dozeOff t) := by
  unfold State.dozeOff
  repeat' first | (with_reducible first | exact h | assumption | apply State.pwrRecord_ev | apply State.updPw_ev | apply State.set_ev | refine Evolves.ite ?_ fun _ => ?_ | intro _ | rfl) | exact rfl | assumption | split | dsimp only

theorem State.pwrStat_ev {s t : State} {c : ℕ} (h : Evolves s t) : Evolves s (State.pwrStat t c) := by
  unfold State.pwrStat
  repeat' first | (with_reducible first | exact h | assumption | apply State.set_ev | refine Evolves.ite ?_ fun _ => ?_ | intro _ | rfl) | exact rfl | assumption | split | dsimp only

theorem State.pwrDoze_ev {s t : State} (h : Evolves s t) : Evolves s (State.pwrDoze t) := by
  unfold State.pwrDoze
  repeat' first | (with_reducible first | exact h | assumption | apply State.pwrStat_ev | apply State.pwrRecord_ev | apply State.set_ev | refine Evolves.ite ?_ fun _ => ?_ | intro _ | rfl) | exact rfl | assumption | split | dsimp only

theorem State.pwrRun_ev {s t : State} (h : Evolves s t) : Evolves s (State.pwrRun t) := by
  unfold State.pwrRun
  repeat' first | (with_reducible first | exact h | assumption | apply State.pwrStat_ev | apply State.updPw_ev | apply State.dozeOff_ev | refine Evolves.ite ?_ fun _ => ?_ | intro _ | rfl) | exact rfl | assumption | split | dsimp only

theorem State.thermRecord_ev {s t : State} {code : ℕ} {sev : ℕ} {w0 : ℕ} (h : Evolves s t) : Evolves s (State.thermRecord t code sev w0) := by
  unfold State.thermRecord
  repeat' first | (with_reducible first | exact h | assumption | apply State.record_ev | refine Evolves.ite ?_ fun _ => ?_ | intro _ | rfl) | exact rfl | assumption | split | dsimp only

theorem State.tmaxTake_ev {s t : State} {i : ℕ} {t' : ℤ} (h : Evolves s t) : Evolves s (State.tmaxTake t i t') := by
  unfold State.tmaxTake
  repeat' first | (with_reducible first | exact h | assumption | apply State.updPw_ev | apply State.set_ev | refine Evolves.ite ?_ fun _ => ?_ | intro _ | rfl) | exact rfl | assumption | split | dsimp only

theorem State.thermSample_ev {s t : State} {t' : List ℤ} (h : Evolves s t) : Evolves s (State.thermSample t t') := by
  unfold State.thermSample
  repeat' first | (with_reducible first | exact h | assumption | apply State.tmaxTake_ev | apply State.set_ev | apply State.each_ev | refine Evolves.ite ?_ fun _ => ?_ | intro _ | rfl) | exact rfl | assumption | split | dsimp only

theorem State.thermStep_ev {s t : State} {v : ℕ} (h : Evolves s t) : Evolves s (State.thermStep t v) := by
  unfold State.thermStep
  repeat' first | (with_reducible first | exact h | assumption | apply State.thermRecord_ev | apply State.count_ev | apply State.raiseInt_ev | apply State.set_ev | refine Evolves.ite ?_ fun _ => ?_ | intro _ | rfl) | exact rfl | assumption | split | dsimp only

theorem State.thermEnter_ev {s t : State} {v : ℕ} (h : Evolves s t) : Evolves s (State.thermEnter t v) := by
  unfold State.thermEnter
  repeat' first | (with_reducible first | exact h | assumption | apply State.thermRecord_ev | apply State.raiseInt_ev | apply State.set_ev | refine Evolves.ite ?_ fun _ => ?_ | intro _ | rfl) | exact rfl | assumption | split | dsimp only

theorem State.thermCritical_ev {s t : State} (h : Evolves s t) : Evolves s (State.thermCritical t) := by
  unfold State.thermCritical
  repeat' first | (with_reducible first | exact h | assumption | apply State.thermStep_ev | apply State.thermEnter_ev | apply State.abdicate_ev | apply State.thermRecord_ev | refine Evolves.ite ?_ fun _ => ?_ | intro _ | rfl) | exact rfl | assumption | split | dsimp only

theorem State.thermDwell_ev {s t : State} (h : Evolves s t) : Evolves s (State.thermDwell t) := by
  unfold State.thermDwell
  repeat' first | (with_reducible first | exact h | assumption | apply State.thermCritical_ev | apply State.thermEnter_ev | apply State.thermStep_ev | refine Evolves.ite ?_ fun _ => ?_ | intro _ | rfl) | exact rfl | assumption | split | dsimp only

theorem State.thermApply_ev {s t : State} {j : ℕ} (h : Evolves s t) : Evolves s (State.thermApply t j) := by
  unfold State.thermApply
  repeat' first | (with_reducible first | exact h | assumption | apply State.set_ev | apply State.each_ev | refine Evolves.ite ?_ fun _ => ?_ | intro _ | rfl) | exact rfl | assumption | split | dsimp only

theorem State.sectionsTake_ev {s t : State} (h : Evolves s t) : Evolves s (State.sectionsTake t) := by
  unfold State.sectionsTake
  repeat' first | (with_reducible first | exact h | assumption | apply State.mirBudget_ev | apply State.smLoad_ev | apply State.serviceOnly_ev | apply State.speedLoad_ev | apply State.set_ev | apply State.setB_ev | apply State.switchCheck_ev | apply State.updSo_ev | apply State.each_ev | refine Evolves.ite ?_ fun _ => ?_ | intro _ | rfl) | exact rfl | assumption | split | dsimp only

theorem State.dimgLock_ev {s t : State} (h : Evolves s t) : Evolves s (State.dimgLock t) := by
  unfold State.dimgLock
  repeat' first | (with_reducible first | exact h | assumption | apply State.imgLock_ev | apply State.sectionsTake_ev | refine Evolves.ite ?_ fun _ => ?_ | intro _ | rfl) | exact rfl | assumption | split | dsimp only

theorem State.cfgNote_ev {s t : State} {c : SignedCfg} (h : Evolves s t) : Evolves s (State.cfgNote t c) := by
  unfold State.cfgNote
  repeat' first | (with_reducible first | exact h | assumption | apply State.setB_ev | apply State.set_ev | apply State.updRecord_ev | apply State.updU_ev | refine Evolves.ite ?_ fun _ => ?_ | intro _ | rfl) | exact rfl | assumption | split | dsimp only

theorem State.cfgTake_ev {s t : State} {c : SignedCfg} {kind : ℕ} (h : Evolves s t) : Evolves s (State.cfgTake t c kind) := by
  unfold State.cfgTake
  repeat' first | (with_reducible first | exact h | assumption | apply State.updS_ev | apply State.setCfg_ev | apply State.set64_ev | apply State.updI_ev | apply State.setB_ev | apply State.set_ev | apply State.armShow_ev | apply State.updLk_ev | apply State.dimgLock_ev | apply State.hubWrite_ev | apply State.each_ev | refine Evolves.ite ?_ fun _ => ?_ | intro _ | rfl) | exact rfl | assumption | split | dsimp only

theorem State.cfgLoad_ev {s t : State} {c : SignedCfg} {signed : Bool} {kind : ℕ} (h : Evolves s t) : Evolves s (State.cfgLoad t c signed kind) := by
  unfold State.cfgLoad
  repeat' first | (with_reducible first | exact h | assumption | apply State.cfgTake_ev | apply State.cfgNote_ev | apply State.serviceOnly_ev | refine Evolves.ite ?_ fun _ => ?_ | intro _ | rfl) | exact rfl | assumption | split | dsimp only

/-- The blank state of a start: its registers are the ones given. -/
theorem State.blank_ev {s t : State} {m : SMap Nat} (h : Evolves s t) (hm : Evolves t { t with regs := m }) : Evolves s (t.blank m) :=
  h.trans (.rest hm rfl)

theorem Evolves.merge {s t : State} {m w : SMap Nat} (h : Evolves s { t with regs := m }) : Evolves s { t with regs := regsMerge m w } :=
  Evolves.regsPuts h _

theorem State.startShow_ev {s t : State} {running : ℕ} {start : ℕ} (h : Evolves s t) : Evolves s (State.startShow t running start) := by
  unfold State.startShow
  repeat' first | (with_reducible first | exact h | assumption | apply State.bootShow_ev | apply State.setB_ev | apply State.set_ev | apply State.armShow_ev | apply State.fuseShow_ev | apply State.devShow_ev | apply State.swShow_ev | apply State.newNonce_ev | refine Evolves.ite ?_ fun _ => ?_ | intro _ | rfl) | exact rfl | assumption | split | dsimp only

theorem State.lanesBoot_ev {s t : State} (h : Evolves s t) : Evolves s (State.lanesBoot t) := by
  unfold State.lanesBoot
  repeat' first | (with_reducible first | exact h | assumption | apply State.set_ev | apply State.each_ev | refine Evolves.ite ?_ fun _ => ?_ | intro _ | rfl) | exact rfl | assumption | split | dsimp only

theorem State.pairBegin_ev {s t : State} {afterPassive : Bool} (h : Evolves s t) : Evolves s (State.pairBegin t afterPassive) := by
  unfold State.pairBegin
  repeat' first | (with_reducible first | exact h | assumption | apply State.mirPassive_ev | apply State.set_ev | apply State.enterStandby_ev | refine Evolves.ite ?_ fun _ => ?_ | intro _ | rfl) | exact rfl | assumption | split | dsimp only

theorem State.svcCauses_ev {s t : State} (h : Evolves s t) : Evolves s (State.svcCauses t) := by
  unfold State.svcCauses
  repeat' first | (with_reducible first | exact h | assumption | apply State.tamperOwed_ev | apply State.serviceOnly_ev | apply State.soRecord_ev | refine Evolves.ite ?_ fun _ => ?_ | intro _ | rfl) | exact rfl | assumption | split | dsimp only

theorem State.startKind_ev {s t : State} {kind : ℕ} {reason : ℕ} (h : Evolves s t) : Evolves s (State.startKind t kind reason) := by
  unfold State.startKind
  repeat' first | (with_reducible first | exact h | assumption | apply State.set_ev | apply State.record_ev | refine Evolves.ite ?_ fun _ => ?_ | intro _ | rfl) | exact rfl | assumption | split | dsimp only

theorem State.bootSelect_ev {s t : State} {n : Nat} (h : Evolves s t) : Evolves s (State.bootSelect n t).1 := by
  induction n generalizing t with
  | zero => exact h
  | succ n ih =>
    unfold State.bootSelect
    split
    · exact h
    · extract_lets u m f
      have hu : Evolves s u := State.updU_ev h
      clear_value u m f
      split
      · exact hu
      · exact ih (State.failedBoot_ev (State.set_ev hu))

theorem State.cobblerEnter_ev {s t : State} (h : Evolves s t) : Evolves s (State.cobblerEnter t) := by
  unfold State.cobblerEnter
  repeat' first | (with_reducible first | exact h | assumption | apply State.set_ev | apply State.updRecord_ev | apply State.updU_ev | apply State.porterShut_ev | apply State.soOpen_ev | apply State.each_ev | refine Evolves.ite ?_ fun _ => ?_ | intro _ | rfl) | exact rfl | assumption | split | dsimp only

theorem State.holdupMeasure_ev {s t : State} {uF : ℕ} (h : Evolves s t) : Evolves s (State.holdupMeasure t uF) := by
  unfold State.holdupMeasure
  repeat' first | (with_reducible first | exact h | assumption | apply State.setB_ev | apply State.set_ev | apply State.pwrRecord_ev | apply State.raiseInt_ev | refine Evolves.ite ?_ fun _ => ?_ | intro _ | rfl) | exact rfl | assumption | split | dsimp only

theorem State.startTamper_ev {s t : State} {arm : ℕ} {recovery : Bool} (h : Evolves s t) : Evolves s (State.startTamper t arm recovery) := by
  unfold State.startTamper
  repeat' first | (with_reducible first | exact h | assumption | apply State.lkRecord_ev | apply State.tamper_ev | apply State.each_ev | refine Evolves.ite ?_ fun _ => ?_ | intro _ | rfl) | exact rfl | assumption | split | dsimp only

theorem State.startBoot_ev {s t : State} {inp : StartInputs} (h : Evolves s t) : Evolves s (State.startBoot t inp) := by
  unfold State.startBoot
  repeat' first | (with_reducible first | exact h | assumption | apply State.startTamper_ev | apply State.cobblerEnter_ev | apply State.serviceOnly_ev | apply State.lkRecord_ev | apply State.bootSelect_ev | apply State.setB_ev | apply State.set_ev | apply State.updU_ev | apply State.raiseInt_ev | apply State.cfgLoad_ev | apply State.svcCauses_ev | apply State.keyDerive_ev | apply State.bootShow_ev | refine Evolves.ite ?_ fun _ => ?_ | intro _ | rfl) | exact rfl | assumption | split | dsimp only

theorem State.coldParts_ev {s t : State} {latch : Tri Bool} {g : LedgerS} (h : Evolves s t) : Evolves s (State.coldParts t latch g) := by
  unfold State.coldParts
  repeat' first | (with_reducible first | exact h | assumption | apply State.hubCut_ev | apply State.updL_ev | apply State.memCut_ev | apply State.setLatch_ev | apply State.updK_ev | apply State.updLg_ev | apply State.each_ev | refine Evolves.ite ?_ fun _ => ?_ | intro _ | rfl) | exact rfl | assumption | split | dsimp only

theorem State.startOff_ev {s t : State} {inp : StartInputs} (h : Evolves s t) : Evolves s (State.startOff t inp) := by
  unfold State.startOff
  repeat' first | (with_reducible first | exact h | assumption | apply State.coldParts_ev | apply State.blank_ev | apply State.mwReset_ev | apply State.spdStart_ev | apply State.spdOff_ev | apply State.clkStart_ev | apply State.updMw_ev | apply State.set_ev | apply State.lanesBoot_ev | apply State.set64_ev | apply State.startKind_ev | apply State.startShow_ev | apply State.holdupMeasure_ev | apply State.startBoot_ev | apply State.record_ev | apply State.setPassive_ev | apply State.pairBegin_ev | exact Evolves.regsCut _ Evolves.refl | exact Evolves.merge (Evolves.regsCut _ Evolves.refl) | refine Evolves.ite ?_ fun _ => ?_ | intro _ | rfl) | exact rfl | assumption | split | dsimp only

theorem State.storeFinish_ev {s t : State} (h : Evolves s t) : Evolves s (State.storeFinish t) := by
  unfold State.storeFinish
  repeat' first | (with_reducible first | exact h | assumption | apply State.stComplete_ev | refine Evolves.ite ?_ fun _ => ?_ | intro _ | rfl) | exact rfl | assumption | split | dsimp only

theorem State.cfgAgain_ev {s t : State} {kind : ℕ} (h : Evolves s t) : Evolves s (State.cfgAgain t kind) := by
  unfold State.cfgAgain
  repeat' first | (with_reducible first | exact h | assumption | apply State.cfgTake_ev | refine Evolves.ite ?_ fun _ => ?_ | intro _ | rfl) | exact rfl | assumption | split | dsimp only

theorem State.restartOutputs_ev {s t : State} (h : Evolves s t) : Evolves s (State.restartOutputs t) := by
  unfold State.restartOutputs
  repeat' first | (with_reducible first | exact h | assumption | apply State.soOpen_ev | apply State.fioStartCommit_ev | apply State.imgStart_ev | refine Evolves.ite ?_ fun _ => ?_ | intro _ | rfl) | exact rfl | assumption | split | dsimp only

theorem State.warmParts_ev {s t : State} {isl : SMap IslS} {so : SoS} (h : Evolves s t) : Evolves s (State.warmParts t isl so) := by
  unfold State.warmParts
  repeat' first | (with_reducible first | exact h | assumption | apply State.updSo_ev | apply State.setIsl_ev | refine Evolves.ite ?_ fun _ => ?_ | intro _ | rfl) | exact rfl | assumption | split | dsimp only

theorem State.restartRun_ev {s t : State} {kind : ℕ} {reason : ℕ} (h : Evolves s t) : Evolves s (State.restartRun t kind reason) := by
  unfold State.restartRun
  extract_lets s1 s2 s3 id k s4 run start cold was n1 n2 n3 n4 n5 n6
  have h1 : Evolves s s1 := State.fillAbandon_ev (State.restartOutputs_ev (State.windowClose_ev (Evolves.ite h fun g => State.rejoinDrop_ev g)))
  clear_value s1
  have h2 : Evolves s s2 := State.storeFinish_ev h1
  clear_value s2
  have h3 : Evolves s s3 := Evolves.ite h2 fun g => State.pfSave_ev g
  clear_value s3 id k
  have h4 : Evolves s s4 := Evolves.ite h3 fun g => State.thaw_ev g
  clear_value s4
  have g1 : Evolves s n1 := State.setLatch_ev (State.blank_ev h4 (.regsCut _ .refl))
  clear_value n1 run start cold was
  have g2 : Evolves s n2 := State.updLg_ev g1
  clear_value n2
  have g3 : Evolves s n3 := by
    unfold n3
    split
    · exact State.mwReset_ev (State.spdStart_ev (State.spdOff_ev (State.clkStart_ev g2)))
    · exact State.warmParts_ev (State.clearJump_ev g2)
  clear_value n3
  have g4 : Evolves s n4 := State.svcCauses_ev (State.startKind_ev (State.startShow_ev (State.lanesBoot_ev g3)))
  clear_value n4
  have g5 : Evolves s n5 := State.cfgAgain_ev g4
  clear_value n5
  have g6 : Evolves s n6 := State.pairBegin_ev g5
  clear_value n6
  exact Evolves.ite g6 fun g => State.record_ev g

theorem State.setWaking_ev {s t : State} {l : List ℕ} (h : Evolves s t) : Evolves s (State.setWaking t l) := by
  unfold State.setWaking
  repeat' first | (with_reducible first | exact h | assumption | apply State.updMc_ev | refine Evolves.ite ?_ fun _ => ?_ | intro _ | rfl) | exact rfl | assumption | split | dsimp only

theorem State.wake_ev {s t : State} {bits : ℕ} {ix : ℕ} {ticks : ℕ} (h : Evolves s t) : Evolves s (State.wake t bits ix ticks) := by
  unfold State.wake
  repeat' first | (with_reducible first | exact h | assumption | apply State.setWaking_ev | apply State.blank_ev | apply State.updLg_ev | apply State.spdStart_ev | apply State.mwReset_ev | apply State.clkWake_ev | apply State.ledgerShow_ev | apply State.set_ev | apply State.set64_ev | apply State.svcCauses_ev | apply State.keyDerive_ev | apply State.startKind_ev | apply State.startShow_ev | apply State.lanesBoot_ev | apply State.pwrRecord_ev | apply State.cfgAgain_ev | apply State.pairBegin_ev | exact Evolves.regsCut _ Evolves.refl | exact Evolves.merge (Evolves.regsCut _ Evolves.refl) | refine Evolves.ite ?_ fun _ => ?_ | intro _ | rfl) | exact rfl | assumption | split | dsimp only

theorem State.wakeBy_ev {s t : State} {src : WakeSrc} {ticks : ℕ} (h : Evolves s t) : Evolves s (State.wakeBy t src ticks) := by
  unfold State.wakeBy
  repeat' first | (with_reducible first | exact h | assumption | apply State.wake_ev | apply State.updPw_ev | refine Evolves.ite ?_ fun _ => ?_ | intro _ | rfl) | exact rfl | assumption | split | dsimp only

theorem State.banksSleep_ev {s t : State} (h : Evolves s t) : Evolves s (State.banksSleep t) := by
  unfold State.banksSleep
  repeat' first | (with_reducible first | exact h | assumption | apply State.set_ev | refine Evolves.ite ?_ fun _ => ?_ | intro _ | rfl) | exact rfl | assumption | split | dsimp only

theorem State.stableDone_ev {s t : State} {held : Option (ℕ × ℕ)} (h : Evolves s t) : Evolves s (State.stableDone t held) := by
  unfold State.stableDone
  repeat' first | (with_reducible first | exact h | assumption | apply State.setPower_ev | apply State.updPw_ev | apply State.wake_ev | refine Evolves.ite ?_ fun _ => ?_ | intro _ | rfl) | exact rfl | assumption | split | dsimp only

theorem State.stableEnter_ev {s t : State} (h : Evolves s t) : Evolves s (State.stableEnter t) := by
  unfold State.stableEnter
  repeat' first | (with_reducible first | exact h | assumption | apply State.rejoinDrop_ev | apply State.pwrRecord_ev | apply State.updMir_ev | apply State.stopSlew_ev | apply State.sessEnd_ev | apply State.brOff_ev | apply State.fioPassive_ev | apply State.soOpen_ev | apply State.smOff_ev | apply State.canPassive_ev | apply State.porterShut_ev | apply State.set_ev | apply State.fillAbandon_ev | apply State.qAllOff_ev | apply State.storeFinish_ev | apply State.flushDone_ev | apply State.flushStart_ev | apply State.pfSave_ev | apply State.setCour_ev | apply State.spdOff_ev | apply State.fioAllOff_ev | apply State.banksSleep_ev | apply State.stableDone_ev | apply State.each_ev | refine Evolves.ite ?_ fun _ => ?_ | intro _ | rfl) | exact rfl | assumption | split | dsimp only

theorem State.pwrStable_ev {s t : State} (h : Evolves s t) : Evolves s (State.pwrStable t) := by
  unfold State.pwrStable
  repeat' first | (with_reducible first | exact h | assumption | apply State.pwrStat_ev | apply State.updPw_ev | apply State.stableEnter_ev | refine Evolves.ite ?_ fun _ => ?_ | intro _ | rfl) | exact rfl | assumption | split | dsimp only

theorem State.pwrCmd_ev {s t : State} {v : ℕ} (h : Evolves s t) : Evolves s (State.pwrCmd t v) := by
  unfold State.pwrCmd
  repeat' first | (with_reducible first | exact h | assumption | apply State.pwrDoze_ev | apply State.pwrRun_ev | apply State.pwrStable_ev | apply State.pwrStat_ev | refine Evolves.ite ?_ fun _ => ?_ | intro _ | rfl) | exact rfl | assumption | split | dsimp only

theorem State.brRecord_ev {s t : State} {code : ℕ} {sev : ℕ} {addr : ℕ} {tag : ℕ} {st : ℕ} (h : Evolves s t) : Evolves s (State.brRecord t code sev addr tag st) := by
  unfold State.brRecord
  repeat' first | (with_reducible first | exact h | assumption | apply State.record_ev | refine Evolves.ite ?_ fun _ => ?_ | intro _ | rfl) | exact rfl | assumption | split | dsimp only

theorem State.brComplete_ev {s t : State} {tag : ℕ} {st : ℕ} {addr : ℕ} {data : List ℕ} (h : Evolves s t) : Evolves s (State.brComplete t tag st addr data) := by
  unfold State.brComplete
  repeat' first | (with_reducible first | exact h | assumption | apply State.brShow_ev | apply State.updBr_ev | refine Evolves.ite ?_ fun _ => ?_ | intro _ | rfl) | exact rfl | assumption | split | dsimp only

theorem State.brClose_ev {s t : State} {st : ℕ} {r : BrReq} (h : Evolves s t) : Evolves s (State.brClose t st r) := by
  unfold State.brClose
  repeat' first | (with_reducible first | exact h | assumption | apply State.brComplete_ev | apply State.count_ev | refine Evolves.ite ?_ fun _ => ?_ | intro _ | rfl) | exact rfl | assumption | split | dsimp only

theorem State.brCloseAll_ev {s t : State} {st : ℕ} (h : Evolves s t) : Evolves s (State.brCloseAll t st) := by
  unfold State.brCloseAll
  repeat' first | (with_reducible first | exact h | assumption | apply State.updBr_ev | apply State.brClose_ev | apply State.each_ev | refine Evolves.ite ?_ fun _ => ?_ | intro _ | rfl) | exact rfl | assumption | split | dsimp only

theorem State.brFollow_ev {s t : State} (h : Evolves s t) : Evolves s (State.brFollow t) := by
  unfold State.brFollow
  repeat' first | (with_reducible first | exact h | assumption | apply State.brCloseAll_ev | apply State.brShow_ev | apply State.set_ev | refine Evolves.ite ?_ fun _ => ?_ | intro _ | rfl) | exact rfl | assumption | split | dsimp only

theorem State.brCtl_ev {s t : State} {v : ℕ} (h : Evolves s t) : Evolves s (State.brCtl t v) := by
  unfold State.brCtl
  repeat' first | (with_reducible first | exact h | assumption | apply State.brFollow_ev | apply State.set_ev | refine Evolves.ite ?_ fun _ => ?_ | intro _ | rfl) | exact rfl | assumption | split | dsimp only

theorem State.brBoundary_ev {s t : State} (h : Evolves s t) : Evolves s (State.brBoundary t) := by
  unfold State.brBoundary
  repeat' first | (with_reducible first | exact h | assumption | apply State.brFollow_ev | apply State.updBr_ev | refine Evolves.ite ?_ fun _ => ?_ | intro _ | rfl) | exact rfl | assumption | split | dsimp only

theorem State.brRefuse_ev {s t : State} {r : BrReq} (h : Evolves s t) : Evolves s (State.brRefuse t r) := by
  unfold State.brRefuse
  repeat' first | (with_reducible first | exact h | assumption | apply State.count_ev | apply State.brComplete_ev | apply State.brRecord_ev | apply State.raiseInt_ev | refine Evolves.ite ?_ fun _ => ?_ | intro _ | rfl) | exact rfl | assumption | split | dsimp only

end Sys2Proof.Machine
end

