-- ==== Sys2Proof/Laws/Evolves5.lean ====
section
/-! SUPPORT. Evolves for the operations of Machine/ on State: starts, bridge, service, pages, lane memory, Assay, boundaries. -/

set_option linter.unusedTactic false
set_option linter.unreachableTactic false

namespace Sys2Proof.Machine

theorem State.brTakeReq_ev {s t : State} {r : BrReq} {bad : Bool} (h : Evolves s t) : Evolves s (State.brTakeReq t r bad) := by
  unfold State.brTakeReq
  repeat' first | (with_reducible first | exact h | assumption | apply State.qTake_ev | apply State.brRefuse_ev | apply State.brClose_ev | apply State.brShow_ev | apply State.updBr_ev | refine Evolves.ite ?_ fun _ => ?_ | intro _ | rfl) | exact rfl | assumption | split | dsimp only

theorem State.brTake_ev {s t : State} (h : Evolves s t) : Evolves s (State.brTake t) := by
  unfold State.brTake
  repeat' first | (with_reducible first | exact h | assumption | apply State.brFollow_ev | apply State.brTakeReq_ev | refine Evolves.ite ?_ fun _ => ?_ | intro _ | rfl) | exact rfl | assumption | split | dsimp only

theorem State.qpDrive_ev {s t : State} {l : List Byte} (h : Evolves s t) : Evolves s (State.qpDrive t l) := by
  unfold State.qpDrive
  repeat' first | (with_reducible first | exact h | assumption | apply State.setWire_ev | refine Evolves.ite ?_ fun _ => ?_ | intro _ | rfl) | exact rfl | assumption | split | dsimp only

theorem State.brStart_ev {s t : State} (h : Evolves s t) : Evolves s (State.brStart t) := by
  unfold State.brStart
  repeat' first | (with_reducible first | exact h | assumption | apply State.brFollow_ev | apply State.brShow_ev | apply State.qpDrive_ev | apply State.updBr_ev | refine Evolves.ite ?_ fun _ => ?_ | intro _ | rfl) | exact rfl | assumption | split | dsimp only

theorem State.qpResetDrive_ev {s t : State} (h : Evolves s t) : Evolves s (State.qpResetDrive t) := by
  unfold State.qpResetDrive
  repeat' first | (with_reducible first | exact h | assumption | apply State.updBr_ev | apply State.set_ev | apply State.courEvent_ev | refine Evolves.ite ?_ fun _ => ?_ | intro _ | rfl) | exact rfl | assumption | split | dsimp only

theorem State.brIdle_ev {s t : State} (h : Evolves s t) : Evolves s (State.brIdle t) := by
  unfold State.brIdle
  repeat' first | (with_reducible first | exact h | assumption | apply State.brShow_ev | apply State.updBr_ev | apply State.qpResetDrive_ev | refine Evolves.ite ?_ fun _ => ?_ | intro _ | rfl) | exact rfl | assumption | split | dsimp only

theorem State.brClosedError_ev {s t : State} {r : BrReq} {st : ℕ} (h : Evolves s t) : Evolves s (State.brClosedError t r st) := by
  unfold State.brClosedError
  repeat' first | (with_reducible first | exact h | assumption | apply State.setB_ev | apply State.set_ev | apply State.brRecord_ev | apply State.raiseInt_ev | refine Evolves.ite ?_ fun _ => ?_ | intro _ | rfl) | exact rfl | assumption | split | dsimp only

theorem State.brScanMiss_ev {s t : State} {e : ℕ} {addr : ℕ} {st : ℕ} (h : Evolves s t) : Evolves s (State.brScanMiss t e addr st) := by
  unfold State.brScanMiss
  repeat' first | (with_reducible first | exact h | assumption | apply State.raiseInt_ev | apply State.count_ev | apply State.once_ev | apply State.brRecord_ev | refine Evolves.ite ?_ fun _ => ?_ | intro _ | rfl) | exact rfl | assumption | split | dsimp only

theorem State.brScanWrite_ev {s t : State} {r : BrReq} (h : Evolves s t) : Evolves s (State.brScanWrite t r) := by
  unfold State.brScanWrite
  repeat' first | (with_reducible first | exact h | assumption | apply State.count_ev | apply State.imgWrite_ev | apply State.rejectWrite_ev | refine Evolves.ite ?_ fun _ => ?_ | intro _ | rfl) | exact rfl | assumption | split | dsimp only

theorem State.brEnd_ev {s t : State} {r : BrReq} {st : ℕ} (h : Evolves s t) : Evolves s (State.brEnd t r st) := by
  unfold State.brEnd
  repeat' first | (with_reducible first | exact h | assumption | apply State.count_ev | apply State.updBr_ev | apply State.brScanMiss_ev | apply State.brScanWrite_ev | apply State.brComplete_ev | apply State.brClosedError_ev | apply State.brIdle_ev | refine Evolves.ite ?_ fun _ => ?_ | intro _ | rfl) | exact rfl | assumption | split | dsimp only

theorem State.brPhase_ev {s t : State} {err : Bool} {w : ℕ} (h : Evolves s t) : Evolves s (State.brPhase t err w) := by
  unfold State.brPhase
  repeat' first | (with_reducible first | exact h | assumption | apply State.brEnd_ev | apply State.qpDrive_ev | apply State.updBr_ev | refine Evolves.ite ?_ fun _ => ?_ | intro _ | rfl) | exact rfl | assumption | split | dsimp only

theorem State.brCplWrite_ev {s t : State} (h : Evolves s t) : Evolves s (State.brCplWrite t) := by
  unfold State.brCplWrite
  repeat' first | (with_reducible first | exact h | assumption | apply State.brCplDrop_ev | apply State.brShow_ev | apply State.qPacket_ev | apply State.updBr_ev | apply State.raiseInt_ev | refine Evolves.ite ?_ fun _ => ?_ | intro _ | rfl) | exact rfl | assumption | split | dsimp only

theorem State.brScan_ev {s t : State} {j : ℕ} (h : Evolves s t) : Evolves s (State.brScan t j) := by
  unfold State.brScan
  repeat' first | (with_reducible first | exact h | assumption | apply State.brFollow_ev | apply State.updBr_ev | apply State.brScanMiss_ev | apply State.each_ev | refine Evolves.ite ?_ fun _ => ?_ | intro _ | rfl) | exact rfl | assumption | split | dsimp only

theorem State.brFlush_ev {s t : State} (h : Evolves s t) : Evolves s (State.brFlush t) := by
  unfold State.brFlush
  repeat' first | (with_reducible first | exact h | assumption | apply State.updBr_ev | apply State.brClose_ev | apply State.brShow_ev | apply State.each_ev | refine Evolves.ite ?_ fun _ => ?_ | intro _ | rfl) | exact rfl | assumption | split | dsimp only

theorem State.brResetCmd_ev {s t : State} (h : Evolves s t) : Evolves s (State.brResetCmd t) := by
  unfold State.brResetCmd
  repeat' first | (with_reducible first | exact h | assumption | apply State.updBr_ev | apply State.qpResetDrive_ev | refine Evolves.ite ?_ fun _ => ?_ | intro _ | rfl) | exact rfl | assumption | split | dsimp only

theorem State.brCmd_ev {s t : State} {v : ℕ} (h : Evolves s t) : Evolves s (State.brCmd t v) := by
  unfold State.brCmd
  repeat' first | (with_reducible first | exact h | assumption | apply State.brFlush_ev | apply State.brResetCmd_ev | refine Evolves.ite ?_ fun _ => ?_ | intro _ | rfl) | exact rfl | assumption | split | dsimp only

theorem State.qpLow_ev {s t : State} (h : Evolves s t) : Evolves s (State.qpLow t) := by
  unfold State.qpLow
  repeat' first | (with_reducible first | exact h | assumption | apply State.set_ev | apply State.brEnd_ev | refine Evolves.ite ?_ fun _ => ?_ | intro _ | rfl) | exact rfl | assumption | split | dsimp only

theorem State.quicenLine_ev {s t : State} {n : ℕ} {levels : ℕ} (h : Evolves s t) : Evolves s (State.quicenLine t n levels) := by
  unfold State.quicenLine
  repeat' first | (with_reducible first | exact h | assumption | apply State.setB_ev | apply State.set_ev | apply State.courEvent_ev | refine Evolves.ite ?_ fun _ => ?_ | intro _ | rfl) | exact rfl | assumption | split | dsimp only

theorem State.svcLink_ev {s t : State} {x : ℕ} {up : Bool} {speed : ℕ} (h : Evolves s t) : Evolves s (State.svcLink t x up speed) := by
  unfold State.svcLink
  repeat' first | (with_reducible first | exact h | assumption | apply State.set_ev | apply State.setB_ev | apply State.recordSec_ev | apply State.raiseInt_ev | refine Evolves.ite ?_ fun _ => ?_ | intro _ | rfl) | exact rfl | assumption | split | dsimp only

theorem State.svcCtl_ev {s t : State} {x : ℕ} (h : Evolves s t) : Evolves s (State.svcCtl t x) := by
  unfold State.svcCtl
  repeat' first | (with_reducible first | exact h | assumption | apply State.svcLink_ev | refine Evolves.ite ?_ fun _ => ?_ | intro _ | rfl) | exact rfl | assumption | split | dsimp only

theorem State.cobSend_ev {s t : State} {f : List Byte} {type : ℕ} {pay : List Byte} (h : Evolves s t) : Evolves s (State.cobSend t f type pay) := by
  unfold State.cobSend
  repeat' first | (with_reducible first | exact h | assumption | apply State.count_ev | apply State.emit_ev | refine Evolves.ite ?_ fun _ => ?_ | intro _ | rfl) | exact rfl | assumption | split | dsimp only

theorem State.cobIpSend_ev {s t : State} {f : List Byte} {proto : ℕ} {pay : List Byte} (h : Evolves s t) : Evolves s (State.cobIpSend t f proto pay) := by
  unfold State.cobIpSend
  repeat' first | (with_reducible first | exact h | assumption | apply State.cobSend_ev | apply State.draw_ev | refine Evolves.ite ?_ fun _ => ?_ | intro _ | rfl) | exact rfl | assumption | split | dsimp only

theorem State.tftpSend_ev {s t : State} {f : List Byte} {pay : List Byte} (h : Evolves s t) : Evolves s (State.tftpSend t f pay) := by
  unfold State.tftpSend
  repeat' first | (with_reducible first | exact h | assumption | apply State.cobIpSend_ev | apply State.draw_ev | refine Evolves.ite ?_ fun _ => ?_ | intro _ | rfl) | exact rfl | assumption | split | dsimp only

theorem State.tftpError_ev {s t : State} {f : List Byte} {code : ℕ} (h : Evolves s t) : Evolves s (State.tftpError t f code) := by
  unfold State.tftpError
  repeat' first | (with_reducible first | exact h | assumption | apply State.tftpSend_ev | apply State.draw_ev | refine Evolves.ite ?_ fun _ => ?_ | intro _ | rfl) | exact rfl | assumption | split | dsimp only

theorem State.tftpDeny_ev {s t : State} {f : List Byte} (h : Evolves s t) : Evolves s (State.tftpDeny t f) := by
  unfold State.tftpDeny
  repeat' first | (with_reducible first | exact h | assumption | apply State.tftpError_ev | apply State.draw_ev | refine Evolves.ite ?_ fun _ => ?_ | intro _ | rfl) | exact rfl | assumption | split | dsimp only

theorem State.cobArp_ev {s t : State} {f : List Byte} (h : Evolves s t) : Evolves s (State.cobArp t f) := by
  unfold State.cobArp
  repeat' first | (with_reducible first | exact h | assumption | apply State.cobSend_ev | refine Evolves.ite ?_ fun _ => ?_ | intro _ | rfl) | exact rfl | assumption | split | dsimp only

theorem State.cobRecv_ev {s t : State} {f : List Byte} (h : Evolves s t) : Evolves s (State.cobRecv t f) := by
  unfold State.cobRecv
  repeat' first | (with_reducible first | exact h | assumption | apply State.cobArp_ev | apply State.cobIpSend_ev | apply State.tftpDeny_ev | refine Evolves.ite ?_ fun _ => ?_ | intro _ | rfl) | exact rfl | assumption | split | dsimp only

theorem State.svcDrop_ev {s t : State} {x : ℕ} (h : Evolves s t) : Evolves s (State.svcDrop t x) := by
  unfold State.svcDrop
  repeat' first | (with_reducible first | exact h | assumption | apply State.raiseInt_ev | apply State.count_ev | refine Evolves.ite ?_ fun _ => ?_ | intro _ | rfl) | exact rfl | assumption | split | dsimp only

theorem State.svcRecv_ev {s t : State} {x : ℕ} {f : List Byte} {fcsOk : Bool} (h : Evolves s t) : Evolves s (State.svcRecv t x f fcsOk) := by
  unfold State.svcRecv
  repeat' first | (with_reducible first | exact h | assumption | apply State.svcDrop_ev | apply State.count_ev | apply State.cobRecv_ev | apply State.qPacket_ev | apply State.raiseInt_ev | refine Evolves.ite ?_ fun _ => ?_ | intro _ | rfl) | exact rfl | assumption | split | dsimp only

theorem State.svcSend_ev {s t : State} {x : ℕ} (h : Evolves s t) : Evolves s (State.svcSend t x) := by
  unfold State.svcSend
  repeat' first | (with_reducible first | exact h | assumption | apply State.qTake_ev | apply State.count_ev | apply State.ptp_ev | apply State.emit_ev | refine Evolves.ite ?_ fun _ => ?_ | intro _ | rfl) | exact rfl | assumption | split | dsimp only

theorem State.cobWrite_ev {s t : State} {k : ℕ} {hdr : List Byte} {pay : List Byte} (h : Evolves s t) : Evolves s (State.cobWrite t k hdr pay) := by
  unfold State.cobWrite
  repeat' first | (with_reducible first | exact h | assumption | apply State.flashWrite_ev | refine Evolves.ite ?_ fun _ => ?_ | intro _ | rfl) | exact rfl | assumption | split | dsimp only

theorem State.cobFold_ev {s t : State} {file : List Byte} {tab : List (Nat × Nat)} (h : Evolves s t) (l : List (Nat × Nat × Nat)) :
    Evolves s (l.foldl (State.cobPart file tab) (t, true, 0)).1 := by
  refine foldl_ev (g := fun x : State × Bool × Nat => x.1) ?_ _ _ h
  intro x e hx
  unfold State.cobPart
  repeat' first | (with_reducible first | assumption | apply State.updRefuse_ev | apply State.updRecord_ev | apply State.cobWrite_ev) | split | dsimp only

theorem State.cobInstall_ev {s t : State} {file : List Byte} (h : Evolves s t) : Evolves s (t.cobInstall file).1 := by
  unfold State.cobInstall
  extract_lets hd v tt tab r s1 s2
  clear_value hd v tt tab
  split
  · exact State.updRefuse_ev h
  split
  · exact State.updRefuse_ev h
  have hr : Evolves s r.1 := State.cobFold_ev h _
  have h2 : Evolves s s2 := State.bootShow_ev (State.updU_ev (State.setTrial_ev hr))
  clear_value s2 s1 r
  split
  · exact hr
  · exact State.updRecord_ev h2

theorem State.cobTftp_ev {s t : State} {req : List Byte} {file : List Byte} (h : Evolves s t) : Evolves s (State.cobTftp t req file) := by
  unfold State.cobTftp
  repeat' first | (with_reducible first | exact h | assumption | apply State.tftpDeny_ev | apply State.cobInstall_ev | apply State.tftpSend_ev | apply State.tftpError_ev | refine Evolves.ite ?_ fun _ => ?_ | intro _ | rfl) | exact rfl | assumption | split | dsimp only

theorem State.readClear_ev {s t : State} {a : Acc} {page : ℕ} {off : ℕ} (h : Evolves s t) : Evolves s (State.readClear t a page off) := by
  unfold State.readClear
  repeat' first | (with_reducible first | exact h | assumption | apply State.set_ev | apply State.each_ev | refine Evolves.ite ?_ fun _ => ?_ | intro _ | rfl) | exact rfl | assumption | split | dsimp only

theorem State.readLatch_ev {s t : State} {a : Acc} {page : ℕ} {off : ℕ} (h : Evolves s t) : Evolves s (State.readLatch t a page off) := by
  unfold State.readLatch
  repeat' first | (with_reducible first | exact h | assumption | apply State.set_ev | refine Evolves.ite ?_ fun _ => ?_ | intro _ | rfl) | exact rfl | assumption | split | dsimp only

theorem State.readAlso_ev {s t : State} {page : ℕ} {off : ℕ} (h : Evolves s t) : Evolves s (State.readAlso t page off) := by
  unfold State.readAlso
  repeat' first | (with_reducible first | exact h | assumption | apply State.updPw_ev | apply State.tagsMax_ev | refine Evolves.ite ?_ fun _ => ?_ | intro _ | rfl) | exact rfl | assumption | split | dsimp only

theorem State.pageRead_ev {s t : State} {a : Acc} {page : ℕ} {off : ℕ} (h : Evolves s t) : Evolves s (State.pageRead t a page off).1 := by
  unfold State.pageRead
  repeat' first | (with_reducible first | exact h | assumption | apply State.readAlso_ev | apply State.readClear_ev | apply State.readLatch_ev | refine Evolves.ite ?_ fun _ => ?_ | intro _ | rfl) | exact rfl | assumption | split | dsimp only

theorem State.readAt_ev {s t : State} {a : Acc} {page : ℕ} {off : ℕ} {bad : Bool} (h : Evolves s t) : Evolves s (State.readAt t a page off bad).1 := by
  unfold State.readAt
  repeat' first | (with_reducible first | exact h | assumption | apply State.tenantRefuse_ev | apply State.qPortPop_ev | apply State.pageRead_ev | refine Evolves.ite ?_ fun _ => ?_ | intro _ | rfl) | exact rfl | assumption | split | dsimp only

theorem State.access_ev {s t : State} {l : Fin 3} {p : Fin 4} {rd : Bool} {wr : Bool} {atom : Bool} {a : ℕ} {n : ℕ} {f : State → State} (h : Evolves s t) (hf : ∀ u, Evolves s u → Evolves s (f u)) : Evolves s (State.access t l p rd wr atom a n f) := by
  unfold State.access
  repeat' first | (with_reducible first | exact h | assumption | apply State.precise_ev | refine Evolves.ite ?_ fun _ => ?_ | intro _ | rfl | apply hf) | exact rfl | assumption | split | dsimp only

theorem State.sendWrite_ev {s t : State} {l : Fin 3} {p : Fin 4} {kind : RecKind} {addr : ℕ} {len : ℕ} {data : ℕ} {cmp : ℕ} (h : Evolves s t) : Evolves s (State.sendWrite t l p kind addr len data cmp) := by
  unfold State.sendWrite
  repeat' first | (with_reducible first | exact h | assumption | apply State.updP_ev | apply State.updL_ev | refine Evolves.ite ?_ fun _ => ?_ | intro _ | rfl) | exact rfl | assumption | split | dsimp only

theorem State.sendRead_ev {s t : State} {l : Fin 3} {p : Fin 4} {parts : List (ℕ × ℕ)} {k : HubCont} (h : Evolves s t) : Evolves s (State.sendRead t l p parts k) := by
  unfold State.sendRead
  repeat' first | (with_reducible first | exact h | assumption | apply State.updP_ev | apply State.updL_ev | apply State.each_ev | refine Evolves.ite ?_ fun _ => ?_ | intro _ | rfl) | exact rfl | assumption | split | dsimp only

theorem State.storeBytes_ev {s t : State} {l : Fin 3} {p : Fin 4} {a : ℕ} {b : List Byte} (h : Evolves s t) : Evolves s (State.storeBytes t l p a b) := by
  unfold State.storeBytes
  repeat' first | (with_reducible first | exact h | assumption | apply State.sendWrite_ev | apply State.updP_ev | apply State.lanePageWrite_ev | apply State.laneWrite_ev | apply State.each_ev | refine Evolves.ite ?_ fun _ => ?_ | intro _ | rfl) | exact rfl | assumption | split | dsimp only

theorem State.bcopyDone_ev {s t : State} {l : Fin 3} {p : Fin 4} {gd : Fin 32} {gs1 : Fin 32} {gs2 : Fin 32} {b : List Byte} (h : Evolves s t) : Evolves s (State.bcopyDone t l p gd gs1 gs2 b) := by
  unfold State.bcopyDone
  repeat' first | (with_reducible first | exact h | assumption | apply State.storeBytes_ev | apply State.updP_ev | refine Evolves.ite ?_ fun _ => ?_ | intro _ | rfl) | exact rfl | assumption | split | dsimp only

theorem State.bcrcDone_ev {s t : State} {l : Fin 3} {p : Fin 4} {gd : Fin 32} {gs1 : Fin 32} {gs2 : Fin 32} {sel : ℕ} {b : List Byte} (h : Evolves s t) : Evolves s (State.bcrcDone t l p gd gs1 gs2 sel b) := by
  unfold State.bcrcDone
  repeat' first | (with_reducible first | exact h | assumption | apply State.updP_ev | refine Evolves.ite ?_ fun _ => ?_ | intro _ | rfl) | exact rfl | assumption | split | dsimp only

theorem State.hubValue_ev {s t : State} {l : Fin 3} {p : Fin 4} {seq : ℕ} {addr : ℕ} {len : ℕ} {k : HubCont} {v : ℕ} (h : Evolves s t) : Evolves s (State.hubValue t l p seq addr len k v) := by
  unfold State.hubValue
  repeat' first | (with_reducible first | exact h | assumption | apply State.updP_ev | apply State.bcopyDone_ev | apply State.bcrcDone_ev | refine Evolves.ite ?_ fun _ => ?_ | intro _ | rfl) | exact rfl | assumption | split | dsimp only

theorem State.hubAnswer_ev {s t : State} {l : Fin 3} {p : Fin 4} {atomic : Bool} {seq : ℕ} {a : Ans} (h : Evolves s t) : Evolves s (State.hubAnswer t l p atomic seq a) := by
  unfold State.hubAnswer
  repeat' first | (with_reducible first | exact h | assumption | apply State.hubValue_ev | apply State.precise_ev | apply State.updP_ev | refine Evolves.ite ?_ fun _ => ?_ | intro _ | rfl) | exact rfl | assumption | split | dsimp only

theorem State.hubLoad_ev {s t : State} {r : Rec} {bad : Bool} (h : Evolves s t) : Evolves s (State.hubLoad t r bad).1 := by
  unfold State.hubLoad
  repeat' first | (with_reducible first | exact h | assumption | apply State.readAt_ev | apply State.sramLoad_ev | refine Evolves.ite ?_ fun _ => ?_ | intro _ | rfl) | exact rfl | assumption | split | dsimp only

theorem State.debugLoad_ev {s t : State} {r : Rec} (h : Evolves s t) : Evolves s (State.debugLoad t r).1 := by
  unfold State.debugLoad
  repeat' first | (with_reducible first | exact h | assumption | apply State.hubLoad_ev | refine Evolves.ite ?_ fun _ => ?_ | intro _ | rfl) | exact rfl | assumption | split | dsimp only

theorem State.debugAnswer_ev {s t : State} {l : Fin 3} (h : Evolves s t) : Evolves s (State.debugAnswer t l) := by
  unfold State.debugAnswer
  repeat' first | (with_reducible first | exact h | assumption | apply State.updL_ev | apply State.debugLoad_ev | apply State.hubAnswer_ev | apply State.each_ev | refine Evolves.ite ?_ fun _ => ?_ | intro _ | rfl) | exact rfl | assumption | split | dsimp only

theorem State.loadOp_ev {s t : State} {l : Fin 3} {p : Fin 4} {k : ℕ} {rd : Fin 32} {gs1 : Fin 32} {imm : BitVec 16} (h : Evolves s t) : Evolves s (State.loadOp t l p k rd gs1 imm) := by
  unfold State.loadOp
  repeat' first | (with_reducible first | exact h | assumption | apply State.access_ev | apply State.debugAnswer_ev | apply State.sendRead_ev | apply State.updP_ev | refine Evolves.ite ?_ fun _ => ?_ | intro _ | rfl) | exact rfl | assumption | split | dsimp only

theorem State.storeOp_ev {s t : State} {l : Fin 3} {p : Fin 4} {n : ℕ} {v : Word64} {gs1 : Fin 32} {imm : BitVec 16} (h : Evolves s t) : Evolves s (State.storeOp t l p n v gs1 imm) := by
  unfold State.storeOp
  repeat' first | (with_reducible first | exact h | assumption | apply State.access_ev | apply State.storeBytes_ev | apply State.updP_ev | refine Evolves.ite ?_ fun _ => ?_ | intro _ | rfl) | exact rfl | assumption | split | dsimp only

theorem State.atomicOp_ev {s t : State} {l : Fin 3} {p : Fin 4} {gd : Fin 32} {gs1 : Fin 32} {gs2 : Fin 32} {fn : ℕ} (h : Evolves s t) : Evolves s (State.atomicOp t l p gd gs1 gs2 fn) := by
  unfold State.atomicOp
  repeat' first | (with_reducible first | exact h | assumption | apply State.access_ev | apply State.sendWrite_ev | apply State.updP_ev | apply State.debugLoad_ev | apply State.hubAnswer_ev | apply State.laneWrite_ev | refine Evolves.ite ?_ fun _ => ?_ | intro _ | rfl) | exact rfl | assumption | split | dsimp only

theorem State.chunk_ev {s t : State} {l : Fin 3} {p : Fin 4} {gs2 : Fin 32} {src : Option ℕ} {dst : Option ℕ} {f : State → ℕ → State} (h : Evolves s t) (hf : ∀ u a, Evolves s u → Evolves s (f u a)) : Evolves s (State.chunk t l p gs2 src dst f) := by
  unfold State.chunk
  repeat' first | (with_reducible first | exact h | assumption | apply State.updP_ev | apply State.precise_ev | refine Evolves.ite ?_ fun _ => ?_ | intro _ | rfl | apply hf) | exact rfl | assumption | split | dsimp only

theorem State.chunkRead_ev {s t : State} {l : Fin 3} {p : Fin 4} {a : ℕ} {n : ℕ} {k : HubCont} {done : State → List Byte → State} (h : Evolves s t) (hf : ∀ u a, Evolves s u → Evolves s (done u a)) : Evolves s (State.chunkRead t l p a n k done) := by
  unfold State.chunkRead
  repeat' first | (with_reducible first | exact h | assumption | apply State.debugAnswer_ev | apply State.sendRead_ev | refine Evolves.ite ?_ fun _ => ?_ | intro _ | rfl | apply hf) | exact rfl | assumption | split | dsimp only

theorem State.cycRun_ev {s t : State} (h : Evolves s t) : Evolves s (State.cycRun t) := by
  unfold State.cycRun
  repeat' first | (with_reducible first | exact h | assumption | apply State.imgStart_ev | apply State.set_ev | apply State.fioStartCommit_ev | apply State.updCyc_ev | apply State.record_ev | refine Evolves.ite ?_ fun _ => ?_ | intro _ | rfl) | exact rfl | assumption | split | dsimp only

theorem State.intEnWrite_ev {s t : State} {page : ℕ} {v : ℕ} (h : Evolves s t) : Evolves s (State.intEnWrite t page v) := by
  unfold State.intEnWrite
  repeat' first | (with_reducible first | exact h | assumption | apply State.set_ev | apply State.courEvent_ev | refine Evolves.ite ?_ fun _ => ?_ | intro _ | rfl) | exact rfl | assumption | split | dsimp only

theorem State.almCmd_ev {s t : State} {v : ℕ} (h : Evolves s t) : Evolves s (State.almCmd t v) := by
  unfold State.almCmd
  repeat' first | (with_reducible first | exact h | assumption | apply State.almValidate_ev | apply State.almArm_ev | apply State.updN_ev | apply State.set_ev | refine Evolves.ite ?_ fun _ => ?_ | intro _ | rfl) | exact rfl | assumption | split | dsimp only

theorem State.porterCmd_ev {s t : State} {v : ℕ} (h : Evolves s t) : Evolves s (State.porterCmd t v) := by
  unfold State.porterCmd
  repeat' first | (with_reducible first | exact h | assumption | apply State.updW_ev | apply State.set_ev | refine Evolves.ite ?_ fun _ => ?_ | intro _ | rfl) | exact rfl | assumption | split | dsimp only

theorem State.pollCmd_ev {s t : State} {c : ℕ} {v : ℕ} (h : Evolves s t) : Evolves s (State.pollCmd t c v) := by
  unfold State.pollCmd
  repeat' first | (with_reducible first | exact h | assumption | apply State.pollValidate_ev | apply State.pollArm_ev | apply State.updPoll_ev | apply State.set_ev | refine Evolves.ite ?_ fun _ => ?_ | intro _ | rfl) | exact rfl | assumption | split | dsimp only

theorem State.canCmd_ev {s t : State} {c : ℕ} {v : ℕ} (h : Evolves s t) : Evolves s (State.canCmd t c v) := by
  unfold State.canCmd
  repeat' first | (with_reducible first | exact h | assumption | apply State.canStart_ev | apply State.canStop_ev | apply State.canRecover_ev | apply State.canRedetect_ev | refine Evolves.ite ?_ fun _ => ?_ | intro _ | rfl) | exact rfl | assumption | split | dsimp only

theorem State.mirCmd_ev {s t : State} {v : ℕ} (h : Evolves s t) : Evolves s (State.mirCmd t v) := by
  unfold State.mirCmd
  repeat' first | (with_reducible first | exact h | assumption | apply State.mirAbdicate_ev | apply State.mirRearm_ev | apply State.mirTake_ev | apply State.mirRestartPass_ev | refine Evolves.ite ?_ fun _ => ?_ | intro _ | rfl) | exact rfl | assumption | split | dsimp only

theorem State.qmgrCmd_ev {s t : State} {v : ℕ} (h : Evolves s t) : Evolves s (State.qmgrCmd t v) := by
  unfold State.qmgrCmd
  repeat' first | (with_reducible first | exact h | assumption | apply State.qEnable_ev | apply State.qDisable_ev | refine Evolves.ite ?_ fun _ => ?_ | intro _ | rfl) | exact rfl | assumption | split | dsimp only

theorem State.patchCmd_ev {s t : State} {v : ℕ} (h : Evolves s t) : Evolves s (State.patchCmd t v) := by
  unfold State.patchCmd
  repeat' first | (with_reducible first | exact h | assumption | apply State.patchArm_ev | apply State.patchCancel_ev | refine Evolves.ite ?_ fun _ => ?_ | intro _ | rfl) | exact rfl | assumption | split | dsimp only

theorem State.cmCmd_ev {s t : State} {v : ℕ} (h : Evolves s t) : Evolves s (State.cmCmd t v) := by
  unfold State.cmCmd
  repeat' first | (with_reducible first | exact h | assumption | apply State.cmAccept_ev | apply State.cmReject_ev | apply State.cmSet_ev | refine Evolves.ite ?_ fun _ => ?_ | intro _ | rfl) | exact rfl | assumption | split | dsimp only

theorem State.courSoft_ev {s t : State} {v : ℕ} (h : Evolves s t) : Evolves s (State.courSoft t v) := by
  unfold State.courSoft
  repeat' first | (with_reducible first | exact h | assumption | apply State.courEvent_ev | refine Evolves.ite ?_ fun _ => ?_ | intro _ | rfl) | exact rfl | assumption | split | dsimp only

theorem State.qmgrPort_ev {s t : State} {a : Acc} {off : ℕ} {v : ℕ} (h : Evolves s t) : ∀ u, State.qmgrPort t a off v = some u → Evolves s u := by
  unfold State.qmgrPort
  dsimp only
  intro u e
  repeat' split at e
  all_goals first
    | exact State.qmgrPort_ev h _ e
    | (obtain rfl := Option.some.inj e
       repeat' first | (with_reducible first | exact h | assumption | apply State.qselWrite_ev | apply State.qPortPush_ev | apply State.qClr_ev | apply State.setLasttag_ev | apply State.set_ev | apply State.qmgrCmd_ev | refine Evolves.ite ?_ fun _ => ?_ | intro _ | rfl) | exact rfl | assumption | split)
    | cases e

theorem State.cmdWrite_ev {s t : State} {a : Acc} {page : ℕ} {off : ℕ} {v : ℕ} (h : Evolves s t) : ∀ u, State.cmdWrite t a page off v = some u → Evolves s u := by
  unfold State.cmdWrite
  dsimp only
  intro u e
  repeat' split at e
  all_goals first
    | exact State.qmgrPort_ev h _ e
    | (obtain rfl := Option.some.inj e
       repeat' first | (with_reducible first | exact h | assumption | apply State.tenSoft_ev | apply State.pollCtl_ev | apply State.pollCmd_ev | apply State.canCmd_ev | apply State.fioCmd_ev | apply State.fioInCfg_ev | apply State.fioOutCfg_ev | apply State.pwrCmd_ev | apply State.lkCmd_ev | apply State.updCmd_ev | apply State.stGo_ev | apply State.lgCtl_ev | apply State.lgCmd_ev | apply State.lgCursor_ev | apply State.subGo_ev | apply State.rateEntry_ev | apply State.rateDef_ev | apply State.lmCmd_ev | apply State.courSoft_ev | apply State.cycRun_ev | apply State.askRestart_ev | apply State.dimgLock_ev | apply State.patchCmd_ev | apply State.epochCommit_ev | apply State.fillStart_ev | apply State.mirCmd_ev | apply State.almCmd_ev | apply State.porterCmd_ev | apply State.rateWrite_ev | apply State.syncCtl_ev | apply State.cmCmd_ev | apply State.spdCmd_ev | apply State.smReset_ev | apply State.brCtl_ev | apply State.brCmd_ev | apply State.sdCmd_ev | apply State.set_ev | refine Evolves.ite ?_ fun _ => ?_ | intro _ | rfl) | exact rfl | assumption | split)
    | cases e

theorem State.capTo_ev {s t : State} {f : Fld} {m : ℕ} (h : Evolves s t) : Evolves s (State.capTo t f m) := by
  unfold State.capTo
  repeat' first | (with_reducible first | exact h | assumption | apply State.set_ev | refine Evolves.ite ?_ fun _ => ?_ | intro _ | rfl) | exact rfl | assumption | split | dsimp only

theorem State.fixWin_ev {s t : State} {t' : ℕ} {w : ℕ} {off : ℕ} (h : Evolves s t) : Evolves s (State.fixWin t t' w off) := by
  unfold State.fixWin
  repeat' first | (with_reducible first | exact h | assumption | apply State.capTo_ev | apply State.set_ev | refine Evolves.ite ?_ fun _ => ?_ | intro _ | rfl) | exact rfl | assumption | split | dsimp only

theorem State.fixPoll_ev {s t : State} {c : ℕ} {off : ℕ} (h : Evolves s t) : Evolves s (State.fixPoll t c off) := by
  unfold State.fixPoll
  repeat' first | (with_reducible first | exact h | assumption | apply State.pollValid_ev | apply State.capTo_ev | apply State.set_ev | refine Evolves.ite ?_ fun _ => ?_ | intro _ | rfl) | exact rfl | assumption | split | dsimp only

theorem State.fixCan_ev {s t : State} {c : ℕ} {off : ℕ} (h : Evolves s t) : Evolves s (State.fixCan t c off) := by
  unfold State.fixCan
  repeat' first | (with_reducible first | exact h | assumption | apply State.capTo_ev | apply State.set_ev | refine Evolves.ite ?_ fun _ => ?_ | intro _ | rfl) | exact rfl | assumption | split | dsimp only

theorem State.fixAlm_ev {s t : State} {off : ℕ} (h : Evolves s t) : Evolves s (State.fixAlm t off) := by
  unfold State.fixAlm
  repeat' first | (with_reducible first | exact h | assumption | apply State.bankValid_ev | apply State.capTo_ev | apply State.set_ev | refine Evolves.ite ?_ fun _ => ?_ | intro _ | rfl) | exact rfl | assumption | split | dsimp only

theorem State.fixEth_ev {s t : State} {x : ℕ} {off : ℕ} (h : Evolves s t) : Evolves s (State.fixEth t x off) := by
  unfold State.fixEth
  repeat' first | (with_reducible first | exact h | assumption | apply State.set_ev | apply State.portDown_ev | refine Evolves.ite ?_ fun _ => ?_ | intro _ | rfl) | exact rfl | assumption | split | dsimp only

theorem State.fixQmgr_ev {s t : State} {off : ℕ} (h : Evolves s t) : Evolves s (State.fixQmgr t off) := by
  unfold State.fixQmgr
  repeat' first | (with_reducible first | exact h | assumption | apply State.capTo_ev | refine Evolves.ite ?_ fun _ => ?_ | intro _ | rfl) | exact rfl | assumption | split | dsimp only

theorem State.fixCycle_ev {s t : State} {off : ℕ} (h : Evolves s t) : Evolves s (State.fixCycle t off) := by
  unfold State.fixCycle
  repeat' first | (with_reducible first | exact h | assumption | apply State.capTo_ev | apply State.mirBudget_ev | refine Evolves.ite ?_ fun _ => ?_ | intro _ | rfl) | exact rfl | assumption | split | dsimp only

theorem State.fixSvc_ev {s t : State} {off : ℕ} (h : Evolves s t) : Evolves s (State.fixSvc t off) := by
  unfold State.fixSvc
  repeat' first | (with_reducible first | exact h | assumption | apply State.set_ev | apply State.svcCtl_ev | refine Evolves.ite ?_ fun _ => ?_ | intro _ | rfl) | exact rfl | assumption | split | dsimp only

theorem State.writeFix_ev {s t : State} {page : ℕ} {off : ℕ} {v : ℕ} (h : Evolves s t) : Evolves s (State.writeFix t page off v) := by
  unfold State.writeFix
  repeat' first | (with_reducible first | exact h | assumption | apply State.fixWin_ev | apply State.fixEth_ev | apply State.fixPoll_ev | apply State.fixCan_ev | apply State.set_ev | apply State.capTo_ev | apply State.updM_ev | apply State.fixCycle_ev | apply State.fixQmgr_ev | apply State.mirBudget_ev | apply State.fixSvc_ev | apply State.fixAlm_ev | apply State.testRound_ev | apply State.each_ev | refine Evolves.ite ?_ fun _ => ?_ | intro _ | rfl) | exact rfl | assumption | split | dsimp only

theorem State.plainWrite_ev {s t : State} {a : Acc} {page : ℕ} {off : ℕ} {v : ℕ} (h : Evolves s t) : Evolves s (State.plainWrite t a page off v) := by
  unfold State.plainWrite
  repeat' first | (with_reducible first | exact h | assumption | apply State.set_ev | apply State.each_ev | refine Evolves.ite ?_ fun _ => ?_ | intro _ | rfl) | exact rfl | assumption | split | dsimp only

theorem State.pageWrite_ev {s t : State} {a : Acc} {page : ℕ} {off : ℕ} {v : ℕ} (h : Evolves s t) : Evolves s (State.pageWrite t a page off v) := by
  unfold State.pageWrite
  split
  · exact h
  split
  · exact State.intEnWrite_ev h
  split
  · exact State.clearInt_ev h
  split
  next u e => exact State.cmdWrite_ev h u e
  next =>
    split
    · exact h
    · exact State.writeFix_ev (State.plainWrite_ev h)

theorem State.updWr_ev {s t : State} {p : Fin 4} {seq : ℕ} {f : WEnt → WEnt} (h : Evolves s t) : Evolves s (State.updWr t p seq f) := by
  unfold State.updWr
  repeat' first | (with_reducible first | exact h | assumption | apply State.updA_ev | refine Evolves.ite ?_ fun _ => ?_ | intro _ | rfl) | exact rfl | assumption | split | dsimp only

theorem State.updR_ev {s t : State} {p : Fin 4} {seq : ℕ} {atomic : Bool} {f : REnt → REnt} (h : Evolves s t) : Evolves s (State.updR t p seq atomic f) := by
  unfold State.updR
  repeat' first | (with_reducible first | exact h | assumption | apply State.updA_ev | refine Evolves.ite ?_ fun _ => ?_ | intro _ | rfl) | exact rfl | assumption | split | dsimp only

theorem State.updCk_ev {s t : State} {p : Fin 4} {k : ℕ} {f : CEnt → CEnt} (h : Evolves s t) : Evolves s (State.updCk t p k f) := by
  unfold State.updCk
  repeat' first | (with_reducible first | exact h | assumption | apply State.updA_ev | refine Evolves.ite ?_ fun _ => ?_ | intro _ | rfl) | exact rfl | assumption | split | dsimp only

theorem State.lagNote_ev {s t : State} {l : Fin 3} {p : Fin 4} {lag : ℕ} (h : Evolves s t) : Evolves s (State.lagNote t l p lag) := by
  unfold State.lagNote
  repeat' first | (with_reducible first | exact h | assumption | apply State.raiseTo_ev | apply State.set_ev | apply State.once_ev | apply State.record_ev | apply State.raiseInt_ev | refine Evolves.ite ?_ fun _ => ?_ | intro _ | rfl) | exact rfl | assumption | split | dsimp only

theorem State.lagsNote_ev {s t : State} {p : Fin 4} {ls : List (Fin 3 × ℕ)} (h : Evolves s t) : Evolves s (State.lagsNote t p ls) := by
  unfold State.lagsNote
  repeat' first | (with_reducible first | exact h | assumption | apply State.lagNote_ev | apply State.each_ev | refine Evolves.ite ?_ fun _ => ?_ | intro _ | rfl) | exact rfl | assumption | split | dsimp only

theorem State.occShow_ev {s t : State} {p : Fin 4} (h : Evolves s t) : Evolves s (State.occShow t p) := by
  unfold State.occShow
  repeat' first | (with_reducible first | exact h | assumption | apply State.raiseTo_ev | refine Evolves.ite ?_ fun _ => ?_ | intro _ | rfl) | exact rfl | assumption | split | dsimp only

theorem State.holdNote_ev {s t : State} {p : Fin 4} (h : Evolves s t) : Evolves s (State.holdNote t p) := by
  unfold State.holdNote
  repeat' first | (with_reducible first | exact h | assumption | apply State.raiseInt_ev | apply State.count_ev | refine Evolves.ite ?_ fun _ => ?_ | intro _ | rfl) | exact rfl | assumption | split | dsimp only

theorem State.isolate_ev {s t : State} {l : Fin 3} {kind : ℕ} {stray : Bool} {d : DivAt} {synd : ℕ} (h : Evolves s t) : Evolves s (State.isolate t l kind stray d synd) := by
  unfold State.isolate
  repeat' first | (with_reducible first | exact h | assumption | apply State.assayPassive_ev | apply State.setCause_ev | apply State.dropVoter_ev | apply State.divFill_ev | apply State.raiseInt_ev | apply State.count_ev | apply State.on_ev | apply State.recordX_ev | apply State.splitCheck_ev | refine Evolves.ite ?_ fun _ => ?_ | intro _ | rfl) | exact rfl | assumption | split | dsimp only

theorem State.diverge_ev {s t : State} {l : Fin 3} {kind : ℕ} {item : ℕ} {stray : Bool} {d : DivAt} {synd : ℕ} (h : Evolves s t) : Evolves s (State.diverge t l kind item stray d synd) := by
  unfold State.diverge
  repeat' first | (with_reducible first | exact h | assumption | apply State.isolate_ev | apply State.rejoinFail_ev | refine Evolves.ite ?_ fun _ => ?_ | intro _ | rfl) | exact rfl | assumption | split | dsimp only

theorem State.divergeFree_ev {s t : State} {l : Fin 3} {kind : ℕ} {item : ℕ} {d : DivAt} (h : Evolves s t) : Evolves s (State.divergeFree t l kind item d) := by
  unfold State.divergeFree
  repeat' first | (with_reducible first | exact h | assumption | apply State.diverge_ev | apply State.draw_ev | refine Evolves.ite ?_ fun _ => ?_ | intro _ | rfl) | exact rfl | assumption | split | dsimp only

theorem State.noMajority_ev {s t : State} {d : DivAt} (h : Evolves s t) : Evolves s (State.noMajority t d) := by
  unfold State.noMajority
  repeat' first | (with_reducible first | exact h | assumption | apply State.assayPassive_ev | refine Evolves.ite ?_ fun _ => ?_ | intro _ | rfl) | exact rfl | assumption | split | dsimp only

theorem State.writePerform_ev {s t : State} {r : Rec} (h : Evolves s t) : Evolves s (State.writePerform t r) := by
  unfold State.writePerform
  repeat' first | (with_reducible first | exact h | assumption | apply State.storeFault_ev | apply State.writeAt_ev | apply State.pageWrite_ev | apply State.sramStore_ev | refine Evolves.ite ?_ fun _ => ?_ | intro _ | rfl) | exact rfl | assumption | split | dsimp only

theorem State.atomicPerform_ev {s t : State} {r : Rec} {fn : ℕ} (h : Evolves s t) : Evolves s (State.atomicPerform t r fn).1 := by
  unfold State.atomicPerform
  by_cases c1 : !hubAddr r.addr r.len ∨ r.addr < 0x50000000
  · rw [if_pos c1]; exact State.storeFault_ev h
  rw [if_neg c1]
  by_cases c2 : t.power ≠ .run
  · rw [if_pos c2]; exact h
  rw [if_neg c2]
  cases t.sramRefusal (recAcc r) (r.addr - 0x50000000) r.len 2 with
  | some x => exact State.sramCount_ev (State.storeFault_ev h)
  | none =>
    by_cases c3 : r.addr - 0x50000000 < 0x400000
    · simp only [if_pos c3]; exact State.storeFault_ev h
    · simp only [if_neg c3]; exact State.hubSet_ev h

theorem State.creditTake_ev {s t : State} {a : Acc} {seq : ℕ} (h : Evolves s t) : Evolves s (State.creditTake t a seq) := by
  unfold State.creditTake
  repeat' first | (with_reducible first | exact h | assumption | apply State.tagTake_ev | apply State.takeCredit_ev | refine Evolves.ite ?_ fun _ => ?_ | intro _ | rfl) | exact rfl | assumption | split | dsimp only

theorem State.atomicServe_ev {s t : State} {p : Fin 4} {seq : ℕ} (h : Evolves s t) : Evolves s (State.atomicServe t p seq) := by
  unfold State.atomicServe
  repeat' first | (with_reducible first | exact h | assumption | apply State.updR_ev | apply State.hubAnswer_ev | apply State.each_ev | refine Evolves.ite ?_ fun _ => ?_ | intro _ | rfl) | exact rfl | assumption | split | dsimp only

theorem State.releaseRec_ev {s t : State} {p : Fin 4} {e : WEnt} {r : Rec} (h : Evolves s t) : Evolves s (State.releaseRec t p e r) := by
  unfold State.releaseRec
  repeat' first | (with_reducible first | exact h | assumption | apply State.updWr_ev | apply State.noteAccess_ev | apply State.creditTake_ev | apply State.atomicPerform_ev | apply State.updA_ev | apply State.atomicServe_ev | apply State.occShow_ev | apply State.writePerform_ev | refine Evolves.ite ?_ fun _ => ?_ | intro _ | rfl) | exact rfl | assumption | split | dsimp only

theorem State.releaseNext_ev {s t : State} {p : Fin 4} (h : Evolves s t) : Evolves s (State.releaseNext t p) := by
  unfold State.releaseNext
  repeat' first | (with_reducible first | exact h | assumption | apply State.releaseRec_ev | apply State.creditHold_ev | apply State.updWr_ev | refine Evolves.ite ?_ fun _ => ?_ | intro _ | rfl) | exact rfl | assumption | split | dsimp only

theorem State.releaseAll_ev {s t : State} {p : Fin 4} (h : Evolves s t) : Evolves s (State.releaseAll t p) := by
  unfold State.releaseAll
  repeat' first | (with_reducible first | exact h | assumption | apply State.releaseNext_ev | apply State.each_ev | refine Evolves.ite ?_ fun _ => ?_ | intro _ | rfl) | exact rfl | assumption | split | dsimp only

theorem State.wJudge_ev {s t : State} {p : Fin 4} {seq : ℕ} (h : Evolves s t) : Evolves s (State.wJudge t p seq) := by
  unfold State.wJudge
  repeat' first | (with_reducible first | exact h | assumption | apply State.lagsNote_ev | apply State.updWr_ev | apply State.diverge_ev | apply State.atWrite_ev | apply State.noMajority_ev | apply State.each_ev | refine Evolves.ite ?_ fun _ => ?_ | intro _ | rfl) | exact rfl | assumption | split | dsimp only

theorem State.wArrive_ev {s t : State} {l : Fin 3} {r : Rec} (h : Evolves s t) : Evolves s (State.wArrive t l r) := by
  unfold State.wArrive
  repeat' first | (with_reducible first | exact h | assumption | apply State.holdNote_ev | apply State.updA_ev | apply State.releaseAll_ev | apply State.wJudge_ev | apply State.occShow_ev | apply State.updWr_ev | apply State.atomicServe_ev | refine Evolves.ite ?_ fun _ => ?_ | intro _ | rfl) | exact rfl | assumption | split | dsimp only

theorem State.rServe_ev {s t : State} {p : Fin 4} {seq : ℕ} (h : Evolves s t) : Evolves s (State.rServe t p seq) := by
  unfold State.rServe
  repeat' first | (with_reducible first | exact h | assumption | apply State.updR_ev | apply State.lagsNote_ev | apply State.hubAnswer_ev | apply State.each_ev | refine Evolves.ite ?_ fun _ => ?_ | intro _ | rfl) | exact rfl | assumption | split | dsimp only

theorem State.captured_ev {s t : State} {p : Fin 4} {seq : ℕ} {a : Ans} {side : Bool} (h : Evolves s t) : Evolves s (State.captured t p seq a side) := by
  unfold State.captured
  repeat' first | (with_reducible first | exact h | assumption | apply State.rServe_ev | apply State.updR_ev | refine Evolves.ite ?_ fun _ => ?_ | intro _ | rfl) | exact rfl | assumption | split | dsimp only

theorem State.hubLoadRec_ev {s t : State} {r : Rec} (h : Evolves s t) : Evolves s (State.hubLoadRec t r).1 := by
  unfold State.hubLoadRec
  repeat' first | (with_reducible first | exact h | assumption | apply State.hubLoad_ev | refine Evolves.ite ?_ fun _ => ?_ | intro _ | rfl) | exact rfl | assumption | split | dsimp only

theorem State.captureTry_ev {s t : State} {p : Fin 4} {seq : ℕ} (h : Evolves s t) : Evolves s (State.captureTry t p seq) := by
  unfold State.captureTry
  repeat' first | (with_reducible first | exact h | assumption | apply State.creditHold_ev | apply State.updR_ev | apply State.noteAccess_ev | apply State.creditTake_ev | apply State.hubLoadRec_ev | apply State.captured_ev | refine Evolves.ite ?_ fun _ => ?_ | intro _ | rfl) | exact rfl | assumption | split | dsimp only

theorem State.rJudge_ev {s t : State} {p : Fin 4} {seq : ℕ} (h : Evolves s t) : Evolves s (State.rJudge t p seq) := by
  unfold State.rJudge
  repeat' first | (with_reducible first | exact h | assumption | apply State.on_ev | apply State.updR_ev | apply State.diverge_ev | apply State.rServe_ev | apply State.captureTry_ev | apply State.atRead_ev | apply State.noMajority_ev | apply State.each_ev | refine Evolves.ite ?_ fun _ => ?_ | intro _ | rfl) | exact rfl | assumption | split | dsimp only

theorem State.rArrive_ev {s t : State} {l : Fin 3} {r : Rec} (h : Evolves s t) : Evolves s (State.rArrive t l r) := by
  unfold State.rArrive
  repeat' first | (with_reducible first | exact h | assumption | apply State.holdNote_ev | apply State.updA_ev | apply State.rJudge_ev | apply State.occShow_ev | apply State.updR_ev | refine Evolves.ite ?_ fun _ => ?_ | intro _ | rfl) | exact rfl | assumption | split | dsimp only

theorem State.linkTake_ev {s t : State} {l : Fin 3} {r : Rec} (h : Evolves s t) : Evolves s (State.linkTake t l r) := by
  unfold State.linkTake
  repeat' first | (with_reducible first | exact h | assumption | apply State.updL_ev | refine Evolves.ite ?_ fun _ => ?_ | intro _ | rfl) | exact rfl | assumption | split | dsimp only

theorem State.ckptLast_ev {s t : State} {p : Fin 4} (h : Evolves s t) : Evolves s (State.ckptLast t p) := by
  unfold State.ckptLast
  repeat' first | (with_reducible first | exact h | assumption | apply State.updA_ev | refine Evolves.ite ?_ fun _ => ?_ | intro _ | rfl) | exact rfl | assumption | split | dsimp only

theorem State.ckptConf_ev {s t : State} {p : Fin 4} {k : ℕ} (h : Evolves s t) : Evolves s (State.ckptConf t p k) := by
  unfold State.ckptConf
  repeat' first | (with_reducible first | exact h | assumption | apply State.updM_ev | refine Evolves.ite ?_ fun _ => ?_ | intro _ | rfl) | exact rfl | assumption | split | dsimp only

theorem State.cJudge_ev {s t : State} {p : Fin 4} {k : ℕ} (h : Evolves s t) : Evolves s (State.cJudge t p k) := by
  unfold State.cJudge
  repeat' first | (with_reducible first | exact h | assumption | apply State.lagsNote_ev | apply State.updCk_ev | apply State.diverge_ev | apply State.divergeFree_ev | apply State.updA_ev | apply State.ckptConf_ev | apply State.noMajority_ev | apply State.each_ev | refine Evolves.ite ?_ fun _ => ?_ | intro _ | rfl) | exact rfl | assumption | split | dsimp only

theorem State.paceMatched_ev {s t : State} {p : Fin 4} {e : CEnt} (h : Evolves s t) : Evolves s (State.paceMatched t p e) := by
  unfold State.paceMatched
  repeat' first | (with_reducible first | exact h | assumption | apply State.releaseTry_ev | apply State.courShow_ev | apply State.updC_ev | refine Evolves.ite ?_ fun _ => ?_ | intro _ | rfl) | exact rfl | assumption | split | dsimp only

theorem State.startMatched_ev {s t : State} {p : Fin 4} {e : CEnt} (h : Evolves s t) : Evolves s (State.startMatched t p e) := by
  unfold State.startMatched
  repeat' first | (with_reducible first | exact h | assumption | apply State.set_ev | refine Evolves.ite ?_ fun _ => ?_ | intro _ | rfl) | exact rfl | assumption | split | dsimp only

theorem State.ckptHigh_ev {s t : State} {l : Fin 3} {p : Fin 4} {k : ℕ} (h : Evolves s t) : Evolves s (State.ckptHigh t l p k) := by
  unfold State.ckptHigh
  repeat' first | (with_reducible first | exact h | assumption | apply State.updA_ev | apply State.set64_ev | refine Evolves.ite ?_ fun _ => ?_ | intro _ | rfl) | exact rfl | assumption | split | dsimp only

theorem State.ckptJoined_ev {s t : State} {l : Fin 3} {p : Fin 4} {k : ℕ} {before : Bool} (h : Evolves s t) : Evolves s (State.ckptJoined t l p k before) := by
  unfold State.ckptJoined
  repeat' first | (with_reducible first | exact h | assumption | apply State.cJudge_ev | apply State.on_ev | apply State.paceMatched_ev | apply State.startMatched_ev | apply State.stampsFree_ev | apply State.ckptLast_ev | apply State.each_ev | refine Evolves.ite ?_ fun _ => ?_ | intro _ | rfl) | exact rfl | assumption | split | dsimp only

theorem State.cArrive_ev {s t : State} {l : Fin 3} {p : Fin 4} {c : Ckpt} (h : Evolves s t) : Evolves s (State.cArrive t l p c) := by
  unfold State.cArrive
  repeat' first | (with_reducible first | exact h | assumption | apply State.holdNote_ev | apply State.updA_ev | apply State.ckptJoined_ev | apply State.occShow_ev | apply State.ckptHigh_ev | apply State.updCk_ev | refine Evolves.ite ?_ fun _ => ?_ | intro _ | rfl) | exact rfl | assumption | split | dsimp only

theorem State.lateVote_ev {s t : State} {kind : ℕ} {app : Bool} {have_ : List (Fin 3)} {agree : Bool} {d : DivAt} (h : Evolves s t) : Evolves s (State.lateVote t kind app have_ agree d) := by
  unfold State.lateVote
  repeat' first | (with_reducible first | exact h | assumption | apply State.rejoinFail_ev | apply State.divergeFree_ev | apply State.assayPassive_ev | apply State.each_ev | refine Evolves.ite ?_ fun _ => ?_ | intro _ | rfl) | exact rfl | assumption | split | dsimp only

theorem State.skewExpire_ev {s t : State} {k : VoteKind} {p : Fin 4} {n : ℕ} (h : Evolves s t) : Evolves s (State.skewExpire t k p n) := by
  unfold State.skewExpire
  repeat' first | (with_reducible first | exact h | assumption | apply State.atWrite_ev | apply State.releaseAll_ev | apply State.lateVote_ev | apply State.atRead_ev | apply State.ckptLast_ev | refine Evolves.ite ?_ fun _ => ?_ | intro _ | rfl) | exact rfl | assumption | split | dsimp only

theorem State.unhold_ev {s t : State} {k : VoteKind} {p : Fin 4} (h : Evolves s t) : Evolves s (State.unhold t k p) := by
  unfold State.unhold
  repeat' first | (with_reducible first | exact h | assumption | apply State.cArrive_ev | apply State.updA_ev | apply State.rArrive_ev | apply State.wArrive_ev | apply State.each_ev | refine Evolves.ite ?_ fun _ => ?_ | intro _ | rfl) | exact rfl | assumption | split | dsimp only

theorem State.entryFree_ev {s t : State} {k : VoteKind} {p : Fin 4} {n : ℕ} (h : Evolves s t) : Evolves s (State.entryFree t k p n) := by
  unfold State.entryFree
  repeat' first | (with_reducible first | exact h | assumption | apply State.updA_ev | refine Evolves.ite ?_ fun _ => ?_ | intro _ | rfl) | exact rfl | assumption | split | dsimp only

theorem State.readCmd_ev {s t : State} {a : Acc} {page : ℕ} {off : ℕ} {bad : Bool} (h : Evolves s t) : Evolves s (State.readCmd t a page off bad) := by
  unfold State.readCmd
  repeat' first | (with_reducible first | exact h | assumption | apply State.readAt_ev | apply State.noteAccess_ev | apply State.captured_ev | refine Evolves.ite ?_ fun _ => ?_ | intro _ | rfl) | exact rfl | assumption | split | dsimp only

theorem State.updCls_ev {s t : State} {j : ℕ} {f : ClassS → ClassS} (h : Evolves s t) : Evolves s (State.updCls t j f) := by
  unfold State.updCls
  repeat' first | (with_reducible first | exact h | assumption | apply State.updCyc_ev | refine Evolves.ite ?_ fun _ => ?_ | intro _ | rfl) | exact rfl | assumption | split | dsimp only

theorem State.stallEntry_ev {s t : State} {miss : ℕ} {t' : ℕ} (h : Evolves s t) : Evolves s (State.stallEntry t miss t') := by
  unfold State.stallEntry
  repeat' first | (with_reducible first | exact h | assumption | apply State.set_ev | apply State.setB_ev | refine Evolves.ite ?_ fun _ => ?_ | intro _ | rfl) | exact rfl | assumption | split | dsimp only

theorem State.stallFill_ev {s t : State} {j : ℕ} {miss : ℕ} (h : Evolves s t) : Evolves s (State.stallFill t j miss) := by
  unfold State.stallFill
  repeat' first | (with_reducible first | exact h | assumption | apply State.set_ev | apply State.stallEntry_ev | apply State.each_ev | refine Evolves.ite ?_ fun _ => ?_ | intro _ | rfl) | exact rfl | assumption | split | dsimp only

theorem State.handOn_ev {s t : State} {j : ℕ} {t' : ℕ} {commits : Bool} (h : Evolves s t) : Evolves s (State.handOn t j t' commits) := by
  unfold State.handOn
  repeat' first | (with_reducible first | exact h | assumption | apply State.smFormAll_ev | apply State.fioStage_ev | apply State.soStage_ev | refine Evolves.ite ?_ fun _ => ?_ | intro _ | rfl) | exact rfl | assumption | split | dsimp only

theorem State.guardAt_ev {s t : State} {j : ℕ} {t' : ℕ} (h : Evolves s t) : Evolves s (State.guardAt t j t') := by
  unfold State.guardAt
  repeat' first | (with_reducible first | exact h | assumption | apply State.setCheck_ev | apply State.updCls_ev | apply State.handOn_ev | apply State.stallFill_ev | refine Evolves.ite ?_ fun _ => ?_ | intro _ | rfl) | exact rfl | assumption | split | dsimp only

theorem State.guardStart_ev {s t : State} {j : ℕ} (h : Evolves s t) : Evolves s (State.guardStart t j) := by
  unfold State.guardStart
  repeat' first | (with_reducible first | exact h | assumption | apply State.guardAt_ev | refine Evolves.ite ?_ fun _ => ?_ | intro _ | rfl) | exact rfl | assumption | split | dsimp only

theorem State.endNormal_ev {s t : State} {t' : ℕ} {j : ℕ} (h : Evolves s t) : Evolves s (State.endNormal t t' j) := by
  unfold State.endNormal
  repeat' first | (with_reducible first | exact h | assumption | apply State.commitClass_ev | apply State.updCls_ev | apply State.set_ev | refine Evolves.ite ?_ fun _ => ?_ | intro _ | rfl) | exact rfl | assumption | split | dsimp only

theorem State.endSkipped_ev {s t : State} {j : ℕ} (h : Evolves s t) : Evolves s (State.endSkipped t j) := by
  unfold State.endSkipped
  repeat' first | (with_reducible first | exact h | assumption | apply State.updCls_ev | apply State.set_ev | refine Evolves.ite ?_ fun _ => ?_ | intro _ | rfl) | exact rfl | assumption | split | dsimp only

theorem State.escalate_ev {s t : State} {t' : ℕ} {j : ℕ} (h : Evolves s t) : Evolves s (State.escalate t t' j) := by
  unfold State.escalate
  repeat' first | (with_reducible first | exact h | assumption | apply State.set_ev | apply State.fallbackClass_ev | apply State.abdicate_ev | apply State.updCyc_ev | apply State.record_ev | apply State.raiseInt_ev | refine Evolves.ite ?_ fun _ => ?_ | intro _ | rfl) | exact rfl | assumption | split | dsimp only

theorem State.endOverrun_ev {s t : State} {t' : ℕ} {j : ℕ} (h : Evolves s t) : Evolves s (State.endOverrun t t' j) := by
  unfold State.endOverrun
  repeat' first | (with_reducible first | exact h | assumption | apply State.updCls_ev | apply State.set_ev | apply State.discardClass_ev | apply State.count_ev | apply State.record_ev | apply State.raiseInt_ev | apply State.escalate_ev | refine Evolves.ite ?_ fun _ => ?_ | intro _ | rfl) | exact rfl | assumption | split | dsimp only

theorem State.classEnd_ev {s t : State} {t' : ℕ} {j : ℕ} (h : Evolves s t) : Evolves s (State.classEnd t t' j) := by
  unfold State.classEnd
  repeat' first | (with_reducible first | exact h | assumption | apply State.endOverrun_ev | apply State.endSkipped_ev | apply State.endNormal_ev | refine Evolves.ite ?_ fun _ => ?_ | intro _ | rfl) | exact rfl | assumption | split | dsimp only

theorem State.sampleEdge_ev {s t : State} {t' : ℕ} {j : ℕ} (h : Evolves s t) : Evolves s (State.sampleEdge t t' j) := by
  unfold State.sampleEdge
  repeat' first | (with_reducible first | exact h | assumption | apply State.set_ev | apply State.updCls_ev | apply State.commitClass_ev | refine Evolves.ite ?_ fun _ => ?_ | intro _ | rfl) | exact rfl | assumption | split | dsimp only

theorem State.cycleOn_ev {s t : State} {n : ℕ} {j : ℕ} (h : Evolves s t) : Evolves s (State.cycleOn t n j) := by
  unfold State.cycleOn
  repeat' first | (with_reducible first | exact h | assumption | apply State.updCls_ev | refine Evolves.ite ?_ fun _ => ?_ | intro _ | rfl) | exact rfl | assumption | split | dsimp only

theorem State.assayEdge_ev {s t : State} (h : Evolves s t) : Evolves s (State.assayEdge t) := by
  unfold State.assayEdge
  repeat' first | (with_reducible first | exact h | assumption | apply State.updA_ev | apply State.set64_ev | apply State.each_ev | refine Evolves.ite ?_ fun _ => ?_ | intro _ | rfl) | exact rfl | assumption | split | dsimp only

theorem State.rejoinEdge_ev {s t : State} {hall : List ℕ} (h : Evolves s t) : Evolves s (State.rejoinEdge t hall) := by
  unfold State.rejoinEdge
  repeat' first | (with_reducible first | exact h | assumption | apply State.rejoinConfirm_ev | apply State.holdCommand_ev | refine Evolves.ite ?_ fun _ => ?_ | intro _ | rfl) | exact rfl | assumption | split | dsimp only

theorem State.hallEdges_ev {s t : State} {hall : List ℕ} {com : List ℕ} (h : Evolves s t) : Evolves s (State.hallEdges t hall com) := by
  unfold State.hallEdges
  repeat' first | (with_reducible first | exact h | assumption | apply State.rejoinEdge_ev | apply State.assayEdge_ev | apply State.thermApply_ev | apply State.set_ev | apply State.canCommit_ev | apply State.pollCommit_ev | apply State.each_ev | refine Evolves.ite ?_ fun _ => ?_ | intro _ | rfl) | exact rfl | assumption | split | dsimp only

theorem State.realignSeen_ev {s t : State} (h : Evolves s t) : Evolves s (State.realignSeen t) := by
  unfold State.realignSeen
  repeat' first | (with_reducible first | exact h | assumption | apply State.updCyc_ev | refine Evolves.ite ?_ fun _ => ?_ | intro _ | rfl) | exact rfl | assumption | split | dsimp only

theorem State.boundaryTail_ev {s t : State} (h : Evolves s t) : Evolves s (State.boundaryTail t) := by
  unfold State.boundaryTail
  repeat' first | (with_reducible first | exact h | assumption | apply State.dozeOff_ev | apply State.shutOff_ev | apply State.pfSave_ev | apply State.restartOutputs_ev | apply State.restartRun_ev | apply State.stableEnter_ev | refine Evolves.ite ?_ fun _ => ?_ | intro _ | rfl) | exact rfl | assumption | split | dsimp only

theorem State.bnumTake_ev {s t : State} {n : ℕ} (h : Evolves s t) : Evolves s (State.bnumTake t n) := by
  unfold State.bnumTake
  repeat' first | (with_reducible first | exact h | assumption | apply State.set64_ev | apply State.updCyc_ev | refine Evolves.ite ?_ fun _ => ?_ | intro _ | rfl) | exact rfl | assumption | split | dsimp only

theorem State.boundarySteps_ev {s t : State} {n : ℕ} {t' : ℕ} {ending : List ℕ} (h : Evolves s t) : Evolves s (State.boundarySteps t n t' ending) := by
  unfold State.boundarySteps
  repeat' first | (with_reducible first | exact h | assumption | apply State.soCommit_ev | apply State.fioCommit_ev | apply State.classEnd_ev | apply State.patchApply_ev | apply State.cycleOn_ev | apply State.updCls_ev | apply State.sampleEdge_ev | apply State.hubSet_ev | apply State.staleVar_ev | apply State.hallEdges_ev | apply State.courEvent_ev | apply State.mirBoundary_ev | apply State.brBoundary_ev | apply State.each_ev | refine Evolves.ite ?_ fun _ => ?_ | intro _ | rfl) | exact rfl | assumption | split | dsimp only

theorem State.baseBoundary_ev {s t : State} (h : Evolves s t) : Evolves s (State.baseBoundary t) := by
  unfold State.baseBoundary
  repeat' first | (with_reducible first | exact h | assumption | apply State.guardAt_ev | apply State.bnumTake_ev | apply State.boundarySteps_ev | apply State.updLk_ev | apply State.boundaryTail_ev | apply State.realignSeen_ev | apply State.each_ev | refine Evolves.ite ?_ fun _ => ?_ | intro _ | rfl) | exact rfl | assumption | split | dsimp only

theorem State.idle_ev {s t : State} (h : Evolves s t) : Evolves s (State.idle t) := by
  unfold State.idle
  repeat' first | (with_reducible first | exact h | assumption | apply State.setCounter_ev | refine Evolves.ite ?_ fun _ => ?_ | intro _ | rfl) | exact rfl | assumption | split | dsimp only

theorem State.withFetchWord_ev {s t : State} {nbits : ℕ} {w : ℕ} (h : Evolves s t) : Evolves s (State.withFetchWord t nbits w) := by
  unfold State.withFetchWord
  repeat' first | (with_reducible first | exact h | assumption | apply State.withPending_ev | refine Evolves.ite ?_ fun _ => ?_ | intro _ | rfl) | exact rfl | assumption | split | dsimp only

end Sys2Proof.Machine
end

