-- ==== Sys2Proof/Laws/EvolvesExec.lean ====
section
/-! SUPPORT. Evolves for every command: what a command can do. -/

set_option linter.unusedTactic false
set_option linter.unreachableTactic false

namespace Sys2Proof.Machine

theorem execAluRegisterOp_ev (l : Fin 3) (p : Fin 4) (form : AluForm) (gd : Fin 32) (gs1 : Fin 32) (gs2 : Fin 32) (fn : BitVec 11) (s : State) : ∃ u, (execAluRegisterOp l p form gd gs1 gs2 fn s) = .next u ∧ Evolves s u := by
  refine ⟨_, rfl, ?_⟩
  repeat' first | (with_reducible first | exact Evolves.refl | assumption | apply State.unitP_ev | refine Evolves.ite ?_ fun _ => ?_ | intro _ | rfl) | exact rfl | assumption | split | dsimp only

theorem execImmediateOp_ev (l : Fin 3) (p : Fin 4) (k : Fin 8) (gd : Fin 32) (gs1 : Fin 32) (imm : BitVec 16) (s : State) : ∃ u, (execImmediateOp l p k gd gs1 imm s) = .next u ∧ Evolves s u := by
  refine ⟨_, rfl, ?_⟩
  repeat' first | (with_reducible first | exact Evolves.refl | assumption | apply State.unitP_ev | refine Evolves.ite ?_ fun _ => ?_ | intro _ | rfl) | exact rfl | assumption | split | dsimp only

theorem execUpperImmediate_ev (l : Fin 3) (p : Fin 4) (auipc : Bool) (gd : Fin 32) (gs1 : Fin 32) (imm : BitVec 16) (s : State) : ∃ u, (execUpperImmediate l p auipc gd gs1 imm s) = .next u ∧ Evolves s u := by
  refine ⟨_, rfl, ?_⟩
  repeat' first | (with_reducible first | exact Evolves.refl | assumption | apply State.unitP_ev | refine Evolves.ite ?_ fun _ => ?_ | intro _ | rfl) | exact rfl | assumption | split | dsimp only

theorem execBranch_ev (l : Fin 3) (p : Fin 4) (k : Fin 6) (gs1 : Fin 32) (gs2 : Fin 32) (disp : BitVec 16) (s : State) : ∃ u, (execBranch l p k gs1 gs2 disp s) = .next u ∧ Evolves s u := by
  refine ⟨_, rfl, ?_⟩
  repeat' first | (with_reducible first | exact Evolves.refl | assumption | apply State.unitP_ev | refine Evolves.ite ?_ fun _ => ?_ | intro _ | rfl) | exact rfl | assumption | split | dsimp only

theorem execJump_ev (l : Fin 3) (p : Fin 4) (disp : BitVec 26) (s : State) : ∃ u, (execJump l p disp s) = .next u ∧ Evolves s u := by
  refine ⟨_, rfl, ?_⟩
  repeat' first | (with_reducible first | exact Evolves.refl | assumption | apply State.unitP_ev | refine Evolves.ite ?_ fun _ => ?_ | intro _ | rfl) | exact rfl | assumption | split | dsimp only

theorem execJal_ev (l : Fin 3) (p : Fin 4) (disp : BitVec 26) (s : State) : ∃ u, (execJal l p disp s) = .next u ∧ Evolves s u := by
  refine ⟨_, rfl, ?_⟩
  repeat' first | (with_reducible first | exact Evolves.refl | assumption | apply State.unitP_ev | refine Evolves.ite ?_ fun _ => ?_ | intro _ | rfl) | exact rfl | assumption | split | dsimp only

theorem execJalr_ev (l : Fin 3) (p : Fin 4) (gd : Fin 32) (gs1 : Fin 32) (imm : BitVec 16) (s : State) : ∃ u, (execJalr l p gd gs1 imm s) = .next u ∧ Evolves s u := by
  refine ⟨_, rfl, ?_⟩
  repeat' first | (with_reducible first | exact Evolves.refl | assumption | apply State.unitP_ev | refine Evolves.ite ?_ fun _ => ?_ | intro _ | rfl) | exact rfl | assumption | split | dsimp only

theorem execFpArithmetic_ev (l : Fin 3) (p : Fin 4) (vd : Fin 32) (vs1 : Fin 32) (vs2 : Fin 32) (fn : BitVec 11) (s : State) : ∃ u, (execFpArithmetic l p vd vs1 vs2 fn s) = .next u ∧ Evolves s u := by
  refine ⟨_, rfl, ?_⟩
  repeat' first | (with_reducible first | exact Evolves.refl | assumption | apply State.unitP_ev | refine Evolves.ite ?_ fun _ => ?_ | intro _ | rfl) | exact rfl | assumption | split | dsimp only

theorem execFpConvertCompareMove_ev (l : Fin 3) (p : Fin 4) (rd : Fin 32) (rs1 : Fin 32) (rs2 : Fin 32) (fn : BitVec 11) (s : State) : ∃ u, (execFpConvertCompareMove l p rd rs1 rs2 fn s) = .next u ∧ Evolves s u := by
  refine ⟨_, rfl, ?_⟩
  repeat' first | (with_reducible first | exact Evolves.refl | assumption | apply State.unitP_ev | refine Evolves.ite ?_ fun _ => ?_ | intro _ | rfl) | exact rfl | assumption | split | dsimp only

theorem execSyscall_ev (l : Fin 3) (p : Fin 4) (g : Fin 32) (code : BitVec 10) (s : State) : ∃ u, (execSyscall l p g code s) = .next u ∧ Evolves s u := by
  refine ⟨_, rfl, ?_⟩
  repeat' first | (with_reducible first | exact Evolves.refl | assumption | apply State.unit_ev | apply State.precise_ev | refine Evolves.ite ?_ fun _ => ?_ | intro _ | rfl) | exact rfl | assumption | split | dsimp only

theorem execMcall_ev (l : Fin 3) (p : Fin 4) (g : Fin 32) (code : BitVec 10) (s : State) : ∃ u, (execMcall l p g code s) = .next u ∧ Evolves s u := by
  refine ⟨_, rfl, ?_⟩
  repeat' first | (with_reducible first | exact Evolves.refl | assumption | apply State.unit_ev | apply State.precise_ev | refine Evolves.ite ?_ fun _ => ?_ | intro _ | rfl) | exact rfl | assumption | split | dsimp only

theorem execBrk_ev (l : Fin 3) (p : Fin 4) (g : Fin 32) (_code : BitVec 10) (s : State) : ∃ u, (execBrk l p g _code s) = .next u ∧ Evolves s u := by
  refine ⟨_, rfl, ?_⟩
  repeat' first | (with_reducible first | exact Evolves.refl | assumption | apply State.unit_ev | apply State.updP_ev | apply State.precise_ev | refine Evolves.ite ?_ fun _ => ?_ | intro _ | rfl) | exact rfl | assumption | split | dsimp only

theorem execEret_ev (l : Fin 3) (p : Fin 4) (s : State) : ∃ u, (execEret l p s) = .next u ∧ Evolves s u := by
  refine ⟨_, rfl, ?_⟩
  repeat' first | (with_reducible first | exact Evolves.refl | assumption | apply State.unitP_ev | refine Evolves.ite ?_ fun _ => ?_ | intro _ | rfl) | exact rfl | assumption | split | dsimp only

theorem execFence_ev (l : Fin 3) (p : Fin 4) (s : State) : ∃ u, (execFence l p s) = .next u ∧ Evolves s u := by
  refine ⟨_, rfl, ?_⟩
  repeat' first | (with_reducible first | exact Evolves.refl | assumption | apply State.unitP_ev | refine Evolves.ite ?_ fun _ => ?_ | intro _ | rfl) | exact rfl | assumption | split | dsimp only

theorem execFenceI_ev (l : Fin 3) (p : Fin 4) (s : State) : ∃ u, (execFenceI l p s) = .next u ∧ Evolves s u := by
  refine ⟨_, rfl, ?_⟩
  repeat' first | (with_reducible first | exact Evolves.refl | assumption | apply State.unitP_ev | refine Evolves.ite ?_ fun _ => ?_ | intro _ | rfl) | exact rfl | assumption | split | dsimp only

theorem execMfs_ev (l : Fin 3) (p : Fin 4) (g : Fin 32) (n : BitVec 10) (s : State) : ∃ u, (execMfs l p g n s) = .next u ∧ Evolves s u := by
  refine ⟨_, rfl, ?_⟩
  repeat' first | (with_reducible first | exact Evolves.refl | assumption | apply State.unit_ev | apply State.updP_ev | refine Evolves.ite ?_ fun _ => ?_ | intro _ | rfl) | exact rfl | assumption | split | dsimp only

theorem execMts_ev (l : Fin 3) (p : Fin 4) (g : Fin 32) (n : BitVec 10) (s : State) : ∃ u, (execMts l p g n s) = .next u ∧ Evolves s u := by
  refine ⟨_, rfl, ?_⟩
  repeat' first | (with_reducible first | exact Evolves.refl | assumption | apply State.unit_ev | apply State.srWrite_ev | apply State.updP_ev | refine Evolves.ite ?_ fun _ => ?_ | intro _ | rfl) | exact rfl | assumption | split | dsimp only

theorem execPairStart_ev (l : Fin 3) (q : Fin 4) (s : State) : ∃ u, (execPairStart l q s) = .next u ∧ Evolves s u := by
  refine ⟨_, rfl, ?_⟩
  repeat' first | (with_reducible first | exact Evolves.refl | assumption | apply State.pairStart_ev | refine Evolves.ite ?_ fun _ => ?_ | intro _ | rfl) | exact rfl | assumption | split | dsimp only

theorem execGranuleTableWrite_ev (l : Fin 3) (v : BitVec 64) (s : State) : ∃ u, (execGranuleTableWrite l v s) = .next u ∧ Evolves s u := by
  refine ⟨_, rfl, ?_⟩
  repeat' first | (with_reducible first | exact Evolves.refl | assumption | apply State.granWrite_ev | refine Evolves.ite ?_ fun _ => ?_ | intro _ | rfl) | exact rfl | assumption | split | dsimp only

theorem execRdcnt_ev (l : Fin 3) (p : Fin 4) (gd : Fin 32) (sel : Fin 32) (gs2 : Fin 32) (fnHi : BitVec 7) (s : State) : ∃ u, (execRdcnt l p gd sel gs2 fnHi s) = .next u ∧ Evolves s u := by
  refine ⟨_, rfl, ?_⟩
  repeat' first | (with_reducible first | exact Evolves.refl | assumption | apply State.unitP_ev | refine Evolves.ite ?_ fun _ => ?_ | intro _ | rfl) | exact rfl | assumption | split | dsimp only

theorem execYield_ev (l : Fin 3) (p : Fin 4) (gd : Fin 32) (hi : Fin 32) (lo : Fin 32) (fnHi : BitVec 7) (s : State) : ∃ u, (execYield l p gd hi lo fnHi s) = .next u ∧ Evolves s u := by
  refine ⟨_, rfl, ?_⟩
  repeat' first | (with_reducible first | exact Evolves.refl | assumption | apply State.unit_ev | apply State.updP_ev | apply State.precise_ev | refine Evolves.ite ?_ fun _ => ?_ | intro _ | rfl) | exact rfl | assumption | split | dsimp only

theorem execPace_ev (l : Fin 3) (p : Fin 4) (gd : Fin 32) (gs1 : Fin 32) (gs2 : Fin 32) (fnHi : BitVec 7) (s : State) : ∃ u, (execPace l p gd gs1 gs2 fnHi s) = .next u ∧ Evolves s u := by
  refine ⟨_, rfl, ?_⟩
  repeat' first | (with_reducible first | exact Evolves.refl | assumption | apply State.unit_ev | apply State.updP_ev | apply State.updL_ev | apply State.paceTry_ev | refine Evolves.ite ?_ fun _ => ?_ | intro _ | rfl) | exact rfl | assumption | split | dsimp only

theorem execPaceComplete_ev (l : Fin 3) (p : Fin 4) (s : State) : ∃ u, (execPaceComplete l p s) = .next u ∧ Evolves s u := by
  refine ⟨_, rfl, ?_⟩
  repeat' first | (with_reducible first | exact Evolves.refl | assumption | apply State.paceTry_ev | refine Evolves.ite ?_ fun _ => ?_ | intro _ | rfl) | exact rfl | assumption | split | dsimp only

theorem execStampDue_ev (l : Fin 3) (p : Fin 4) (s : State) : ∃ u, (execStampDue l p s) = .next u ∧ Evolves s u := by
  refine ⟨_, rfl, ?_⟩
  repeat' first | (with_reducible first | exact Evolves.refl | assumption | apply State.updP_ev | refine Evolves.ite ?_ fun _ => ?_ | intro _ | rfl) | exact rfl | assumption | split | dsimp only

theorem execCheckpointReport_ev (l : Fin 3) (p : Fin 4) (s : State) : ∃ u, (execCheckpointReport l p s) = .next u ∧ Evolves s u := by
  refine ⟨_, rfl, ?_⟩
  repeat' first | (with_reducible first | exact Evolves.refl | assumption | apply State.updP_ev | apply State.updL_ev | refine Evolves.ite ?_ fun _ => ?_ | intro _ | rfl) | exact rfl | assumption | split | dsimp only

theorem execLaneReset_ev (l : Fin 3) (s : State) : ∃ u, (execLaneReset l s) = .next u ∧ Evolves s u := by
  refine ⟨_, rfl, ?_⟩
  repeat' first | (with_reducible first | exact Evolves.refl | assumption | apply State.laneReset_ev | refine Evolves.ite ?_ fun _ => ?_ | intro _ | rfl) | exact rfl | assumption | split | dsimp only

theorem execIntcPendClear_ev (l : Fin 3) (p : Fin 4) (n : Fin 40) (v : BitVec 32) (s : State) : ∃ u, (execIntcPendClear l p n v s) = .next u ∧ Evolves s u := by
  refine ⟨_, rfl, ?_⟩
  repeat' first | (with_reducible first | exact Evolves.refl | assumption | apply State.updP_ev | refine Evolves.ite ?_ fun _ => ?_ | intro _ | rfl) | exact rfl | assumption | split | dsimp only

theorem execIntcEnWrite_ev (l : Fin 3) (p : Fin 4) (n : Fin 40) (v : BitVec 32) (s : State) : ∃ u, (execIntcEnWrite l p n v s) = .next u ∧ Evolves s u := by
  refine ⟨_, rfl, ?_⟩
  repeat' first | (with_reducible first | exact Evolves.refl | assumption | apply State.updP_ev | refine Evolves.ite ?_ fun _ => ?_ | intro _ | rfl) | exact rfl | assumption | split | dsimp only

theorem execCntClrWrite_ev (l : Fin 3) (p : Fin 4) (v : BitVec 32) (s : State) : ∃ u, (execCntClrWrite l p v s) = .next u ∧ Evolves s u := by
  refine ⟨_, rfl, ?_⟩
  repeat' first | (with_reducible first | exact Evolves.refl | assumption | apply State.updP_ev | refine Evolves.ite ?_ fun _ => ?_ | intro _ | rfl) | exact rfl | assumption | split | dsimp only

theorem execDbgHalt_ev (l : Fin 3) (p : Fin 4) (s : State) : ∃ u, (execDbgHalt l p s) = .next u ∧ Evolves s u := by
  refine ⟨_, rfl, ?_⟩
  repeat' first | (with_reducible first | exact Evolves.refl | assumption | apply State.dbgHalt_ev | refine Evolves.ite ?_ fun _ => ?_ | intro _ | rfl) | exact rfl | assumption | split | dsimp only

theorem execDbgResume_ev (l : Fin 3) (p : Fin 4) (s : State) : ∃ u, (execDbgResume l p s) = .next u ∧ Evolves s u := by
  refine ⟨_, rfl, ?_⟩
  repeat' first | (with_reducible first | exact Evolves.refl | assumption | apply State.dbgResume_ev | refine Evolves.ite ?_ fun _ => ?_ | intro _ | rfl) | exact rfl | assumption | split | dsimp only

theorem execDbgStep_ev (l : Fin 3) (p : Fin 4) (s : State) : ∃ u, (execDbgStep l p s) = .next u ∧ Evolves s u := by
  refine ⟨_, rfl, ?_⟩
  repeat' first | (with_reducible first | exact Evolves.refl | assumption | apply State.dbgStep_ev | refine Evolves.ite ?_ fun _ => ?_ | intro _ | rfl) | exact rfl | assumption | split | dsimp only

theorem execDbgRegdataWrite_ev (l : Fin 3) (p : Fin 4) (v : ℕ) (s : State) : ∃ u, (execDbgRegdataWrite l p v s) = .next u ∧ Evolves s u := by
  refine ⟨_, rfl, ?_⟩
  repeat' first | (with_reducible first | exact Evolves.refl | assumption | apply State.dbgRegdata_ev | refine Evolves.ite ?_ fun _ => ?_ | intro _ | rfl) | exact rfl | assumption | split | dsimp only

theorem execBreakpointHit_ev (l : Fin 3) (p : Fin 4) (s : State) : ∃ u, (execBreakpointHit l p s) = .next u ∧ Evolves s u := by
  refine ⟨_, rfl, ?_⟩
  repeat' first | (with_reducible first | exact Evolves.refl | assumption | apply State.updP_ev | refine Evolves.ite ?_ fun _ => ?_ | intro _ | rfl) | exact rfl | assumption | split | dsimp only

theorem execWatchpointHit_ev (l : Fin 3) (p : Fin 4) (addr : ℕ) (len : ℕ) (store : Bool) (s : State) : ∃ u, (execWatchpointHit l p addr len store s) = .next u ∧ Evolves s u := by
  refine ⟨_, rfl, ?_⟩
  repeat' first | (with_reducible first | exact Evolves.refl | assumption | apply State.updP_ev | refine Evolves.ite ?_ fun _ => ?_ | intro _ | rfl) | exact rfl | assumption | split | dsimp only

theorem execStampFormation_ev (p : Fin 4) (s : State) : ∃ u, (execStampFormation p s) = .next u ∧ Evolves s u := by
  refine ⟨_, rfl, ?_⟩
  repeat' first | (with_reducible first | exact Evolves.refl | assumption | apply State.stampTry_ev | refine Evolves.ite ?_ fun _ => ?_ | intro _ | rfl) | exact rfl | assumption | split | dsimp only

theorem execStampArrivalAtLane_ev (l : Fin 3) (p : Fin 4) (num : ℕ) (s : State) : ∃ u, (execStampArrivalAtLane l p num s) = .next u ∧ Evolves s u := by
  refine ⟨_, rfl, ?_⟩
  repeat' first | (with_reducible first | exact Evolves.refl | assumption | apply State.stampArrive_ev | refine Evolves.ite ?_ fun _ => ?_ | intro _ | rfl) | exact rfl | assumption | split | dsimp only

theorem execEpochCommit_ev (a : Acc) (s : State) : ∃ u, (execEpochCommit a s) = .next u ∧ Evolves s u := by
  refine ⟨_, rfl, ?_⟩
  repeat' first | (with_reducible first | exact Evolves.refl | assumption | apply State.writeAt_ev | apply State.epochCommit_ev | refine Evolves.ite ?_ fun _ => ?_ | intro _ | rfl) | exact rfl | assumption | split | dsimp only

theorem execEpochDrained_ev (s : State) : ∃ u, (execEpochDrained s) = .next u ∧ Evolves s u := by
  refine ⟨_, rfl, ?_⟩
  repeat' first | (with_reducible first | exact Evolves.refl | assumption | apply State.flightShow_ev | apply State.raiseInt_ev | apply State.set_ev | refine Evolves.ite ?_ fun _ => ?_ | intro _ | rfl) | exact rfl | assumption | split | dsimp only

theorem execTenSoftWrite_ev (a : Acc) (t' : Fin 32) (v : ℕ) (s : State) : ∃ u, (execTenSoftWrite a s' v s) = .next u ∧ Evolves s u := by
  refine ⟨_, rfl, ?_⟩
  repeat' first | (with_reducible first | exact Evolves.refl | assumption | apply State.writeAt_ev | apply State.tenSoft_ev | refine Evolves.ite ?_ fun _ => ?_ | intro _ | rfl) | exact rfl | assumption | split | dsimp only

theorem execMemctlFillStart_ev (a : Acc) (s : State) : ∃ u, (execMemctlFillStart a s) = .next u ∧ Evolves s u := by
  refine ⟨_, rfl, ?_⟩
  repeat' first | (with_reducible first | exact Evolves.refl | assumption | apply State.writeAt_ev | apply State.fillStart_ev | refine Evolves.ite ?_ fun _ => ?_ | intro _ | rfl) | exact rfl | assumption | split | dsimp only

theorem execFillComplete_ev (s : State) : ∃ u, (execFillComplete s) = .next u ∧ Evolves s u := by
  refine ⟨_, rfl, ?_⟩
  repeat' first | (with_reducible first | exact Evolves.refl | assumption | apply State.fillDone_ev | refine Evolves.ite ?_ fun _ => ?_ | intro _ | rfl) | exact rfl | assumption | split | dsimp only

theorem execBankReady_ev (b : Fin 16) (s : State) : ∃ u, (execBankReady b s) = .next u ∧ Evolves s u := by
  refine ⟨_, rfl, ?_⟩
  repeat' first | (with_reducible first | exact Evolves.refl | assumption | apply State.setBank_ev | apply State.updMc_ev | refine Evolves.ite ?_ fun _ => ?_ | intro _ | rfl) | exact rfl | assumption | split | dsimp only

theorem execHubSramScrub_ev (corrected : List ℕ) (s : State) : ∃ u, (execHubSramScrub corrected s) = .next u ∧ Evolves s u := by
  refine ⟨_, rfl, ?_⟩
  repeat' first | (with_reducible first | exact Evolves.refl | assumption | apply State.scrubPass_ev | refine Evolves.ite ?_ fun _ => ?_ | intro _ | rfl) | exact rfl | assumption | split | dsimp only

theorem execHoldPointReached_ev (l : Fin 3) (p : Fin 4) (s : State) : ∃ u, (execHoldPointReached l p s) = .next u ∧ Evolves s u := by
  refine ⟨_, rfl, ?_⟩
  repeat' first | (with_reducible first | exact Evolves.refl | assumption | apply State.holdPoint_ev | refine Evolves.ite ?_ fun _ => ?_ | intro _ | rfl) | exact rfl | assumption | split | dsimp only

theorem execHoldTimeout_ev (s : State) : ∃ u, (execHoldTimeout s) = .next u ∧ Evolves s u := by
  refine ⟨_, rfl, ?_⟩
  repeat' first | (with_reducible first | exact Evolves.refl | assumption | apply State.furtherPass_ev | apply State.holdRelease_ev | refine Evolves.ite ?_ fun _ => ?_ | intro _ | rfl) | exact rfl | assumption | split | dsimp only

theorem execAdmissionWindowEnd_ev (s : State) : ∃ u, (execAdmissionWindowEnd s) = .next u ∧ Evolves s u := by
  refine ⟨_, rfl, ?_⟩
  repeat' first | (with_reducible first | exact Evolves.refl | assumption | apply State.windowEnd_ev | refine Evolves.ite ?_ fun _ => ?_ | intro _ | rfl) | exact rfl | assumption | split | dsimp only

theorem execConfirmationTimeout_ev (s : State) : ∃ u, (execConfirmationTimeout s) = .next u ∧ Evolves s u := by
  refine ⟨_, rfl, ?_⟩
  repeat' first | (with_reducible first | exact Evolves.refl | assumption | apply State.rejoinFail_ev | refine Evolves.ite ?_ fun _ => ?_ | intro _ | rfl) | exact rfl | assumption | split | dsimp only

theorem execCopyPassEnd_ev (crcFail : Bool) (s : State) : ∃ u, (execCopyPassEnd crcFail s) = .next u ∧ Evolves s u := by
  refine ⟨_, rfl, ?_⟩
  repeat' first | (with_reducible first | exact Evolves.refl | assumption | apply State.passEnd_ev | refine Evolves.ite ?_ fun _ => ?_ | intro _ | rfl) | exact rfl | assumption | split | dsimp only

theorem execPairComparatorMismatch_ev (l : Fin 3) (p : Fin 4) (item : Fin 5) (s : State) : ∃ u, (execPairComparatorMismatch l p item s) = .next u ∧ Evolves s u := by
  refine ⟨_, rfl, ?_⟩
  repeat' first | (with_reducible first | exact Evolves.refl | assumption | apply State.laneFault_ev | refine Evolves.ite ?_ fun _ => ?_ | intro _ | rfl) | exact rfl | assumption | split | dsimp only

theorem execLaneMemoryUncorrectable_ev (l : Fin 3) (p : Fin 4) (s : State) : ∃ u, (execLaneMemoryUncorrectable l p s) = .next u ∧ Evolves s u := by
  refine ⟨_, rfl, ?_⟩
  repeat' first | (with_reducible first | exact Evolves.refl | assumption | apply State.lmRecord_ev | apply State.laneFault_ev | refine Evolves.ite ?_ fun _ => ?_ | intro _ | rfl) | exact rfl | assumption | split | dsimp only

theorem execFlitWatchdogExpiry_ev (l : Fin 3) (s : State) : ∃ u, (execFlitWatchdogExpiry l s) = .next u ∧ Evolves s u := by
  refine ⟨_, rfl, ?_⟩
  repeat' first | (with_reducible first | exact Evolves.refl | assumption | apply State.laneFault_ev | refine Evolves.ite ?_ fun _ => ?_ | intro _ | rfl) | exact rfl | assumption | split | dsimp only

theorem execLaneReady_ev (l : Fin 3) (failed : Option (Fin 4)) (s : State) : ∃ u, (execLaneReady l failed s) = .next u ∧ Evolves s u := by
  refine ⟨_, rfl, ?_⟩
  repeat' first | (with_reducible first | exact Evolves.refl | assumption | apply State.laneReady_ev | refine Evolves.ite ?_ fun _ => ?_ | intro _ | rfl) | exact rfl | assumption | split | dsimp only

theorem execReadyDeadlineExpiry_ev (s : State) : ∃ u, (execReadyDeadlineExpiry s) = .next u ∧ Evolves s u := by
  refine ⟨_, rfl, ?_⟩
  repeat' first | (with_reducible first | exact Evolves.refl | assumption | apply State.readyDeadline_ev | refine Evolves.ite ?_ fun _ => ?_ | intro _ | rfl) | exact rfl | assumption | split | dsimp only

theorem execPeriodicTest_ev (failure : Option TestFail) (s : State) : ∃ u, (execPeriodicTest failure s) = .next u ∧ Evolves s u := by
  refine ⟨_, rfl, ?_⟩
  repeat' first | (with_reducible first | exact Evolves.refl | assumption | apply State.testRun_ev | refine Evolves.ite ?_ fun _ => ?_ | intro _ | rfl) | exact rfl | assumption | split | dsimp only

theorem execLmTestRunNow_ev (a : Acc) (failure : Option TestFail) (s : State) : ∃ u, (execLmTestRunNow a failure s) = .next u ∧ Evolves s u := by
  refine ⟨_, rfl, ?_⟩
  repeat' first | (with_reducible first | exact Evolves.refl | assumption | apply State.writeAt_ev | apply State.testRun_ev | refine Evolves.ite ?_ fun _ => ?_ | intro _ | rfl) | exact rfl | assumption | split | dsimp only

theorem execLmResetRejoin_ev (a : Acc) (l : Fin 3) (s : State) : ∃ u, (execLmResetRejoin a l s) = .next u ∧ Evolves s u := by
  refine ⟨_, rfl, ?_⟩
  repeat' first | (with_reducible first | exact Evolves.refl | assumption | apply State.writeAt_ev | apply State.lmReset_ev | refine Evolves.ite ?_ fun _ => ?_ | intro _ | rfl) | exact rfl | assumption | split | dsimp only

theorem execLmPowerDown_ev (a : Acc) (l : Fin 3) (s : State) : ∃ u, (execLmPowerDown a l s) = .next u ∧ Evolves s u := by
  refine ⟨_, rfl, ?_⟩
  repeat' first | (with_reducible first | exact Evolves.refl | assumption | apply State.writeAt_ev | apply State.lmPowerDown_ev | refine Evolves.ite ?_ fun _ => ?_ | intro _ | rfl) | exact rfl | assumption | split | dsimp only

theorem execLmAbandonRejoin_ev (a : Acc) (l : Fin 3) (s : State) : ∃ u, (execLmAbandonRejoin a l s) = .next u ∧ Evolves s u := by
  refine ⟨_, rfl, ?_⟩
  repeat' first | (with_reducible first | exact Evolves.refl | assumption | apply State.writeAt_ev | apply State.lmAbandon_ev | refine Evolves.ite ?_ fun _ => ?_ | intro _ | rfl) | exact rfl | assumption | split | dsimp only

theorem execRejoinBootComplete_ev (failed : Option (Fin 4)) (s : State) : ∃ u, (execRejoinBootComplete failed s) = .next u ∧ Evolves s u := by
  refine ⟨_, rfl, ?_⟩
  repeat' first | (with_reducible first | exact Evolves.refl | assumption | apply State.rejoinBoot_ev | refine Evolves.ite ?_ fun _ => ?_ | intro _ | rfl) | exact rfl | assumption | split | dsimp only

theorem execRejoinBootTimeout_ev (s : State) : ∃ u, (execRejoinBootTimeout s) = .next u ∧ Evolves s u := by
  refine ⟨_, rfl, ?_⟩
  repeat' first | (with_reducible first | exact Evolves.refl | assumption | apply State.rejoinFail_ev | refine Evolves.ite ?_ fun _ => ?_ | intro _ | rfl) | exact rfl | assumption | split | dsimp only

theorem execDebugAttach_ev (l : Fin 3) (s : State) : ∃ u, (execDebugAttach l s) = .next u ∧ Evolves s u := by
  refine ⟨_, rfl, ?_⟩
  repeat' first | (with_reducible first | exact Evolves.refl | assumption | apply State.attach_ev | refine Evolves.ite ?_ fun _ => ?_ | intro _ | rfl) | exact rfl | assumption | split | dsimp only

theorem execDebugDetach_ev (s : State) : ∃ u, (execDebugDetach s) = .next u ∧ Evolves s u := by
  refine ⟨_, rfl, ?_⟩
  repeat' first | (with_reducible first | exact Evolves.refl | assumption | apply State.detach_ev | refine Evolves.ite ?_ fun _ => ?_ | intro _ | rfl) | exact rfl | assumption | split | dsimp only

theorem execDebugLinkLoss_ev (s : State) : ∃ u, (execDebugLinkLoss s) = .next u ∧ Evolves s u := by
  refine ⟨_, rfl, ?_⟩
  repeat' first | (with_reducible first | exact Evolves.refl | assumption | apply State.detach_ev | refine Evolves.ite ?_ fun _ => ?_ | intro _ | rfl) | exact rfl | assumption | split | dsimp only

theorem execDetachBootEnd_ev (passed : Bool) (s : State) : ∃ u, (execDetachBootEnd passed s) = .next u ∧ Evolves s u := by
  refine ⟨_, rfl, ?_⟩
  repeat' first | (with_reducible first | exact Evolves.refl | assumption | apply State.detachEnd_ev | refine Evolves.ite ?_ fun _ => ?_ | intro _ | rfl) | exact rfl | assumption | split | dsimp only

theorem execDetachBootTimeout_ev (s : State) : ∃ u, (execDetachBootTimeout s) = .next u ∧ Evolves s u := by
  refine ⟨_, rfl, ?_⟩
  repeat' first | (with_reducible first | exact Evolves.refl | assumption | apply State.detachEnd_ev | refine Evolves.ite ?_ fun _ => ?_ | intro _ | rfl) | exact rfl | assumption | split | dsimp only

theorem execHeldPushComplete_ev (q : ℕ) (s : State) : ∃ u, (execHeldPushComplete q s) = .next u ∧ Evolves s u := by
  refine ⟨_, rfl, ?_⟩
  repeat' first | (with_reducible first | exact Evolves.refl | assumption | apply State.qHeldDone_ev | refine Evolves.ite ?_ fun _ => ?_ | intro _ | rfl) | exact rfl | assumption | split | dsimp only

theorem execQmgrQselWrite_ev (a : Acc) (v : ℕ) (s : State) : ∃ u, (execQmgrQselWrite a v s) = .next u ∧ Evolves s u := by
  refine ⟨_, rfl, ?_⟩
  repeat' first | (with_reducible first | exact Evolves.refl | assumption | apply State.writeAt_ev | apply State.qselWrite_ev | refine Evolves.ite ?_ fun _ => ?_ | intro _ | rfl) | exact rfl | assumption | split | dsimp only

theorem execQmgrQselTWrite_ev (a : Acc) (v : ℕ) (s : State) : ∃ u, (execQmgrQselTWrite a v s) = .next u ∧ Evolves s u := by
  refine ⟨_, rfl, ?_⟩
  repeat' first | (with_reducible first | exact Evolves.refl | assumption | apply State.writeAt_ev | apply State.qselWrite_ev | refine Evolves.ite ?_ fun _ => ?_ | intro _ | rfl) | exact rfl | assumption | split | dsimp only

theorem execQmgrPush_ev (a : Acc) (v : ℕ) (s : State) : ∃ u, (execQmgrPush a v s) = .next u ∧ Evolves s u := by
  refine ⟨_, rfl, ?_⟩
  repeat' first | (with_reducible first | exact Evolves.refl | assumption | apply State.writeAt_ev | apply State.qPortPush_ev | refine Evolves.ite ?_ fun _ => ?_ | intro _ | rfl) | exact rfl | assumption | split | dsimp only

theorem execQmgrPushLast_ev (a : Acc) (k : Fin 4) (v : ℕ) (s : State) : ∃ u, (execQmgrPushLast a k v s) = .next u ∧ Evolves s u := by
  refine ⟨_, rfl, ?_⟩
  repeat' first | (with_reducible first | exact Evolves.refl | assumption | apply State.writeAt_ev | apply State.qPortPush_ev | refine Evolves.ite ?_ fun _ => ?_ | intro _ | rfl) | exact rfl | assumption | split | dsimp only

theorem execQmgrQclr_ev (a : Acc) (v : ℕ) (s : State) : ∃ u, (execQmgrQclr a v s) = .next u ∧ Evolves s u := by
  refine ⟨_, rfl, ?_⟩
  repeat' first | (with_reducible first | exact Evolves.refl | assumption | apply State.writeAt_ev | apply State.qClr_ev | refine Evolves.ite ?_ fun _ => ?_ | intro _ | rfl) | exact rfl | assumption | split | dsimp only

theorem execQmgrEnable_ev (a : Acc) (s : State) : ∃ u, (execQmgrEnable a s) = .next u ∧ Evolves s u := by
  refine ⟨_, rfl, ?_⟩
  repeat' first | (with_reducible first | exact Evolves.refl | assumption | apply State.writeAt_ev | apply State.qEnable_ev | refine Evolves.ite ?_ fun _ => ?_ | intro _ | rfl) | exact rfl | assumption | split | dsimp only

theorem execQmgrDisable_ev (a : Acc) (s : State) : ∃ u, (execQmgrDisable a s) = .next u ∧ Evolves s u := by
  refine ⟨_, rfl, ?_⟩
  repeat' first | (with_reducible first | exact Evolves.refl | assumption | apply State.writeAt_ev | apply State.qDisable_ev | refine Evolves.ite ?_ fun _ => ?_ | intro _ | rfl) | exact rfl | assumption | split | dsimp only

theorem execTallyGrant_ev (portB : Bool) (bank : Fin 17) (r : ℕ) (waitNs : ℕ) (s : State) : ∃ u, (execTallyGrant portB bank r waitNs s) = .next u ∧ Evolves s u := by
  refine ⟨_, rfl, ?_⟩
  repeat' first | (with_reducible first | exact Evolves.refl | assumption | apply State.tallyGrant_ev | refine Evolves.ite ?_ fun _ => ?_ | intro _ | rfl) | exact rfl | assumption | split | dsimp only

theorem execQuotaPeriodEnd_ev (s : State) : ∃ u, (execQuotaPeriodEnd s) = .next u ∧ Evolves s u := by
  refine ⟨_, rfl, ?_⟩
  repeat' first | (with_reducible first | exact Evolves.refl | assumption | apply State.set_ev | apply State.updTl_ev | refine Evolves.ite ?_ fun _ => ?_ | intro _ | rfl) | exact rfl | assumption | split | dsimp only

theorem execFabricTagFreed_ev (system : Bool) (s : State) : ∃ u, (execFabricTagFreed system s) = .next u ∧ Evolves s u := by
  refine ⟨_, rfl, ?_⟩
  repeat' first | (with_reducible first | exact Evolves.refl | assumption | apply State.set_ev | refine Evolves.ite ?_ fun _ => ?_ | intro _ | rfl) | exact rfl | assumption | split | dsimp only

theorem execDataImageWrite_ev (w : Writer) (off : ℕ) (bytes : List Byte) (s : State) : ∃ u, (execDataImageWrite w off bytes s) = .next u ∧ Evolves s u := by
  refine ⟨_, rfl, ?_⟩
  repeat' first | (with_reducible first | exact Evolves.refl | assumption | apply State.sramStore_ev | apply State.imgWrite_ev | refine Evolves.ite ?_ fun _ => ?_ | intro _ | rfl) | exact rfl | assumption | split | dsimp only

theorem execDimgPatchArm_ev (a : Acc) (s : State) : ∃ u, (execDimgPatchArm a s) = .next u ∧ Evolves s u := by
  refine ⟨_, rfl, ?_⟩
  repeat' first | (with_reducible first | exact Evolves.refl | assumption | apply State.writeAt_ev | apply State.patchArm_ev | refine Evolves.ite ?_ fun _ => ?_ | intro _ | rfl) | exact rfl | assumption | split | dsimp only

theorem execDimgPatchCancel_ev (a : Acc) (s : State) : ∃ u, (execDimgPatchCancel a s) = .next u ∧ Evolves s u := by
  refine ⟨_, rfl, ?_⟩
  repeat' first | (with_reducible first | exact Evolves.refl | assumption | apply State.writeAt_ev | apply State.patchCancel_ev | refine Evolves.ite ?_ fun _ => ?_ | intro _ | rfl) | exact rfl | assumption | split | dsimp only

theorem execCycDoneWrite_ev (a : Acc) (j : Fin 8) (v : ℕ) (s : State) : ∃ u, (execCycDoneWrite a j v s) = .next u ∧ Evolves s u := by
  refine ⟨_, rfl, ?_⟩
  repeat' first | (with_reducible first | exact Evolves.refl | assumption | apply State.writeAt_ev | apply State.set_ev | refine Evolves.ite ?_ fun _ => ?_ | intro _ | rfl) | exact rfl | assumption | split | dsimp only

theorem execCycRestartWarm_ev (a : Acc) (s : State) : ∃ u, (execCycRestartWarm a s) = .next u ∧ Evolves s u := by
  refine ⟨_, rfl, ?_⟩
  repeat' first | (with_reducible first | exact Evolves.refl | assumption | apply State.writeAt_ev | apply State.askRestart_ev | refine Evolves.ite ?_ fun _ => ?_ | intro _ | rfl) | exact rfl | assumption | split | dsimp only

theorem execCycRestartCold_ev (a : Acc) (s : State) : ∃ u, (execCycRestartCold a s) = .next u ∧ Evolves s u := by
  refine ⟨_, rfl, ?_⟩
  repeat' first | (with_reducible first | exact Evolves.refl | assumption | apply State.writeAt_ev | apply State.askRestart_ev | refine Evolves.ite ?_ fun _ => ?_ | intro _ | rfl) | exact rfl | assumption | split | dsimp only

theorem execSafeWatchdogExpiry_ev (n : Fin 64) (s : State) : ∃ u, (execSafeWatchdogExpiry n s) = .next u ∧ Evolves s u := by
  refine ⟨_, rfl, ?_⟩
  repeat' first | (with_reducible first | exact Evolves.refl | assumption | apply State.smFail_ev | refine Evolves.ite ?_ fun _ => ?_ | intro _ | rfl) | exact rfl | assumption | split | dsimp only

theorem execSafeAutoRecovery_ev (n : Fin 64) (s : State) : ∃ u, (execSafeAutoRecovery n s) = .next u ∧ Evolves s u := by
  refine ⟨_, rfl, ?_⟩
  repeat' first | (with_reducible first | exact Evolves.refl | assumption | apply State.smWait_ev | refine Evolves.ite ?_ fun _ => ?_ | intro _ | rfl) | exact rfl | assumption | split | dsimp only

theorem execSmReset_ev (a : Acc) (n : Fin 64) (s : State) : ∃ u, (execSmReset a n s) = .next u ∧ Evolves s u := by
  refine ⟨_, rfl, ?_⟩
  repeat' first | (with_reducible first | exact Evolves.refl | assumption | apply State.writeAt_ev | apply State.smReset_ev | refine Evolves.ite ?_ fun _ => ?_ | intro _ | rfl) | exact rfl | assumption | split | dsimp only

theorem execHelloSend_ev (s : State) : ∃ u, (execHelloSend s) = .next u ∧ Evolves s u := by
  refine ⟨_, rfl, ?_⟩
  repeat' first | (with_reducible first | exact Evolves.refl | assumption | apply State.updMir_ev | refine Evolves.ite ?_ fun _ => ?_ | intro _ | rfl) | exact rfl | assumption | split | dsimp only

theorem execMirrorSegmentReceived_ev (l : Fin 2) (g : List Byte) (s : State) : ∃ u, (execMirrorSegmentReceived l g s) = .next u ∧ Evolves s u := by
  refine ⟨_, rfl, ?_⟩
  repeat' first | (with_reducible first | exact Evolves.refl | assumption | apply State.segRecv_ev | refine Evolves.ite ?_ fun _ => ?_ | intro _ | rfl) | exact rfl | assumption | split | dsimp only

theorem execBoundarySetApply_ev (s : State) : ∃ u, (execBoundarySetApply s) = .next u ∧ Evolves s u := by
  refine ⟨_, rfl, ?_⟩
  repeat' first | (with_reducible first | exact Evolves.refl | assumption | apply State.setApply_ev | refine Evolves.ite ?_ fun _ => ?_ | intro _ | rfl) | exact rfl | assumption | split | dsimp only

theorem execMirrorLinkTimeout_ev (l : Fin 2) (s : State) : ∃ u, (execMirrorLinkTimeout l s) = .next u ∧ Evolves s u := by
  refine ⟨_, rfl, ?_⟩
  repeat' first | (with_reducible first | exact Evolves.refl | assumption | apply State.linkSet_ev | apply State.set_ev | refine Evolves.ite ?_ fun _ => ?_ | intro _ | rfl) | exact rfl | assumption | split | dsimp only

theorem execMirrorBlockLockLoss_ev (l : Fin 2) (s : State) : ∃ u, (execMirrorBlockLockLoss l s) = .next u ∧ Evolves s u := by
  refine ⟨_, rfl, ?_⟩
  repeat' first | (with_reducible first | exact Evolves.refl | assumption | apply State.linkSet_ev | refine Evolves.ite ?_ fun _ => ?_ | intro _ | rfl) | exact rfl | assumption | split | dsimp only

theorem execPairWaitExpiry_ev (s : State) : ∃ u, (execPairWaitExpiry s) = .next u ∧ Evolves s u := by
  refine ⟨_, rfl, ?_⟩
  repeat' first | (with_reducible first | exact Evolves.refl | assumption | apply State.enterStandby_ev | apply State.updMir_ev | refine Evolves.ite ?_ fun _ => ?_ | intro _ | rfl) | exact rfl | assumption | split | dsimp only

theorem execLeaseExpiry_ev (s : State) : ∃ u, (execLeaseExpiry s) = .next u ∧ Evolves s u := by
  refine ⟨_, rfl, ?_⟩
  repeat' first | (with_reducible first | exact Evolves.refl | assumption | apply State.updMir_ev | refine Evolves.ite ?_ fun _ => ?_ | intro _ | rfl) | exact rfl | assumption | split | dsimp only

theorem execMirAbdicate_ev (a : Acc) (s : State) : ∃ u, (execMirAbdicate a s) = .next u ∧ Evolves s u := by
  refine ⟨_, rfl, ?_⟩
  repeat' first | (with_reducible first | exact Evolves.refl | assumption | apply State.writeAt_ev | apply State.mirAbdicate_ev | refine Evolves.ite ?_ fun _ => ?_ | intro _ | rfl) | exact rfl | assumption | split | dsimp only

theorem execMirRearm_ev (a : Acc) (s : State) : ∃ u, (execMirRearm a s) = .next u ∧ Evolves s u := by
  refine ⟨_, rfl, ?_⟩
  repeat' first | (with_reducible first | exact Evolves.refl | assumption | apply State.writeAt_ev | apply State.mirRearm_ev | refine Evolves.ite ?_ fun _ => ?_ | intro _ | rfl) | exact rfl | assumption | split | dsimp only

theorem execMirTake_ev (a : Acc) (s : State) : ∃ u, (execMirTake a s) = .next u ∧ Evolves s u := by
  refine ⟨_, rfl, ?_⟩
  repeat' first | (with_reducible first | exact Evolves.refl | assumption | apply State.writeAt_ev | apply State.mirTake_ev | refine Evolves.ite ?_ fun _ => ?_ | intro _ | rfl) | exact rfl | assumption | split | dsimp only

theorem execMirRestartPass_ev (a : Acc) (s : State) : ∃ u, (execMirRestartPass a s) = .next u ∧ Evolves s u := by
  refine ⟨_, rfl, ?_⟩
  repeat' first | (with_reducible first | exact Evolves.refl | assumption | apply State.writeAt_ev | apply State.mirRestartPass_ev | refine Evolves.ite ?_ fun _ => ?_ | intro _ | rfl) | exact rfl | assumption | split | dsimp only

theorem execSlewEnd_ev (s : State) : ∃ u, (execSlewEnd s) = .next u ∧ Evolves s u := by
  refine ⟨_, rfl, ?_⟩
  repeat' first | (with_reducible first | exact Evolves.refl | assumption | apply State.slewEnd_ev | refine Evolves.ite ?_ fun _ => ?_ | intro _ | rfl) | exact rfl | assumption | split | dsimp only

theorem execHoldoverExpiry_ev (s : State) : ∃ u, (execHoldoverExpiry s) = .next u ∧ Evolves s u := by
  refine ⟨_, rfl, ?_⟩
  repeat' first | (with_reducible first | exact Evolves.refl | assumption | apply State.clkEnter_ev | refine Evolves.ite ?_ fun _ => ?_ | intro _ | rfl) | exact rfl | assumption | split | dsimp only

theorem execDelayResponseTimeout_ev (node : Fin 15) (plane : Fin 2) (s : State) : ∃ u, (execDelayResponseTimeout node plane s) = .next u ∧ Evolves s u := by
  refine ⟨_, rfl, ?_⟩
  repeat' first | (with_reducible first | exact Evolves.refl | assumption | apply State.updK_ev | refine Evolves.ite ?_ fun _ => ?_ | intro _ | rfl) | exact rfl | assumption | split | dsimp only

theorem execCmAccept_ev (a : Acc) (s : State) : ∃ u, (execCmAccept a s) = .next u ∧ Evolves s u := by
  refine ⟨_, rfl, ?_⟩
  repeat' first | (with_reducible first | exact Evolves.refl | assumption | apply State.writeAt_ev | apply State.cmAccept_ev | refine Evolves.ite ?_ fun _ => ?_ | intro _ | rfl) | exact rfl | assumption | split | dsimp only

theorem execCmReject_ev (a : Acc) (s : State) : ∃ u, (execCmReject a s) = .next u ∧ Evolves s u := by
  refine ⟨_, rfl, ?_⟩
  repeat' first | (with_reducible first | exact Evolves.refl | assumption | apply State.writeAt_ev | apply State.cmReject_ev | refine Evolves.ite ?_ fun _ => ?_ | intro _ | rfl) | exact rfl | assumption | split | dsimp only

theorem execCmSet_ev (a : Acc) (s : State) : ∃ u, (execCmSet a s) = .next u ∧ Evolves s u := by
  refine ⟨_, rfl, ?_⟩
  repeat' first | (with_reducible first | exact Evolves.refl | assumption | apply State.writeAt_ev | apply State.cmSet_ev | refine Evolves.ite ?_ fun _ => ?_ | intro _ | rfl) | exact rfl | assumption | split | dsimp only

theorem execCmSyncCtlWrite_ev (a : Acc) (v : ℕ) (s : State) : ∃ u, (execCmSyncCtlWrite a v s) = .next u ∧ Evolves s u := by
  refine ⟨_, rfl, ?_⟩
  repeat' first | (with_reducible first | exact Evolves.refl | assumption | apply State.writeAt_ev | apply State.syncCtl_ev | refine Evolves.ite ?_ fun _ => ?_ | intro _ | rfl) | exact rfl | assumption | split | dsimp only

theorem execCmRateWrite_ev (a : Acc) (v : ℕ) (s : State) : ∃ u, (execCmRateWrite a v s) = .next u ∧ Evolves s u := by
  refine ⟨_, rfl, ?_⟩
  repeat' first | (with_reducible first | exact Evolves.refl | assumption | apply State.writeAt_ev | apply State.rateWrite_ev | refine Evolves.ite ?_ fun _ => ?_ | intro _ | rfl) | exact rfl | assumption | split | dsimp only

theorem execTimePulseOutput_ev (s : State) : ∃ u, (execTimePulseOutput s) = .next u ∧ Evolves s u := by
  refine ⟨_, rfl, ?_⟩
  repeat' first | (with_reducible first | exact Evolves.refl | assumption | apply State.updK_ev | refine Evolves.ite ?_ fun _ => ?_ | intro _ | rfl) | exact rfl | assumption | split | dsimp only

theorem execTimePulseCapture_ev (s : State) : ∃ u, (execTimePulseCapture s) = .next u ∧ Evolves s u := by
  refine ⟨_, rfl, ?_⟩
  repeat' first | (with_reducible first | exact Evolves.refl | assumption | apply State.raiseInt_ev | apply State.count_ev | apply State.set64_ev | refine Evolves.ite ?_ fun _ => ?_ | intro _ | rfl) | exact rfl | assumption | split | dsimp only

theorem execPortLinkLoss_ev (x : Fin 4) (s : State) : ∃ u, (execPortLinkLoss x s) = .next u ∧ Evolves s u := by
  refine ⟨_, rfl, ?_⟩
  repeat' first | (with_reducible first | exact Evolves.refl | assumption | apply State.linkLoss_ev | refine Evolves.ite ?_ fun _ => ?_ | intro _ | rfl) | exact rfl | assumption | split | dsimp only

theorem execPortTrainingComplete_ev (x : Fin 4) (fec : Bool) (s : State) : ∃ u, (execPortTrainingComplete x fec s) = .next u ∧ Evolves s u := by
  refine ⟨_, rfl, ?_⟩
  repeat' first | (with_reducible first | exact Evolves.refl | assumption | apply State.set_ev | apply State.setB_ev | apply State.consRecord_ev | apply State.raiseInt_ev | refine Evolves.ite ?_ fun _ => ?_ | intro _ | rfl) | exact rfl | assumption | split | dsimp only

theorem execPorterStrobe_ev (t4ns : ℕ) (s : State) : ∃ u, (execPorterStrobe t4ns s) = .next u ∧ Evolves s u := by
  refine ⟨_, rfl, ?_⟩
  repeat' first | (with_reducible first | exact Evolves.refl | assumption | apply State.strobe_ev | refine Evolves.ite ?_ fun _ => ?_ | intro _ | rfl) | exact rfl | assumption | split | dsimp only

theorem execPorterWindowOpen_ev (e : ℕ) (s : State) : ∃ u, (execPorterWindowOpen e s) = .next u ∧ Evolves s u := by
  refine ⟨_, rfl, ?_⟩
  repeat' first | (with_reducible first | exact Evolves.refl | assumption | apply State.switchShow_ev | apply State.updW_ev | refine Evolves.ite ?_ fun _ => ?_ | intro _ | rfl) | exact rfl | assumption | split | dsimp only

theorem execPorterWindowClose_ev (e : ℕ) (s : State) : ∃ u, (execPorterWindowClose e s) = .next u ∧ Evolves s u := by
  refine ⟨_, rfl, ?_⟩
  repeat' first | (with_reducible first | exact Evolves.refl | assumption | apply State.switchShow_ev | apply State.updW_ev | refine Evolves.ite ?_ fun _ => ?_ | intro _ | rfl) | exact rfl | assumption | split | dsimp only

theorem execPorterUnsilence_ev (a : Acc) (ports : ℕ) (s : State) : ∃ u, (execPorterUnsilence a ports s) = .next u ∧ Evolves s u := by
  refine ⟨_, rfl, ?_⟩
  repeat' first | (with_reducible first | exact Evolves.refl | assumption | apply State.writeAt_ev | apply State.updW_ev | refine Evolves.ite ?_ fun _ => ?_ | intro _ | rfl) | exact rfl | assumption | split | dsimp only

theorem execPorterSwitchArm_ev (a : Acc) (s : State) : ∃ u, (execPorterSwitchArm a s) = .next u ∧ Evolves s u := by
  refine ⟨_, rfl, ?_⟩
  repeat' first | (with_reducible first | exact Evolves.refl | assumption | apply State.writeAt_ev | apply State.set_ev | refine Evolves.ite ?_ fun _ => ?_ | intro _ | rfl) | exact rfl | assumption | split | dsimp only

theorem execAlmValidate_ev (a : Acc) (s : State) : ∃ u, (execAlmValidate a s) = .next u ∧ Evolves s u := by
  refine ⟨_, rfl, ?_⟩
  repeat' first | (with_reducible first | exact Evolves.refl | assumption | apply State.writeAt_ev | apply State.almValidate_ev | refine Evolves.ite ?_ fun _ => ?_ | intro _ | rfl) | exact rfl | assumption | split | dsimp only

theorem execAlmSwitchArm_ev (a : Acc) (s : State) : ∃ u, (execAlmSwitchArm a s) = .next u ∧ Evolves s u := by
  refine ⟨_, rfl, ?_⟩
  repeat' first | (with_reducible first | exact Evolves.refl | assumption | apply State.writeAt_ev | apply State.almArm_ev | refine Evolves.ite ?_ fun _ => ?_ | intro _ | rfl) | exact rfl | assumption | split | dsimp only

theorem execAlmSwitchCancel_ev (a : Acc) (s : State) : ∃ u, (execAlmSwitchCancel a s) = .next u ∧ Evolves s u := by
  refine ⟨_, rfl, ?_⟩
  repeat' first | (with_reducible first | exact Evolves.refl | assumption | apply State.writeAt_ev | apply State.updN_ev | apply State.set_ev | refine Evolves.ite ?_ fun _ => ?_ | intro _ | rfl) | exact rfl | assumption | split | dsimp only

theorem execBasicCycleStart_ev (s : State) : ∃ u, (execBasicCycleStart s) = .next u ∧ Evolves s u := by
  refine ⟨_, rfl, ?_⟩
  repeat' first | (with_reducible first | exact Evolves.refl | assumption | apply State.posShow_ev | apply State.updN_ev | refine Evolves.ite ?_ fun _ => ?_ | intro _ | rfl) | exact rfl | assumption | split | dsimp only

theorem execMatrixCycleStart_ev (s : State) : ∃ u, (execMatrixCycleStart s) = .next u ∧ Evolves s u := by
  refine ⟨_, rfl, ?_⟩
  repeat' first | (with_reducible first | exact Evolves.refl | assumption | apply State.matrixStart_ev | refine Evolves.ite ?_ fun _ => ?_ | intro _ | rfl) | exact rfl | assumption | split | dsimp only

theorem execExclusiveFetch_ev (e : ℕ) (s : State) : ∃ u, (execExclusiveFetch e s) = .next u ∧ Evolves s u := by
  refine ⟨_, rfl, ?_⟩
  repeat' first | (with_reducible first | exact Evolves.refl | assumption | apply State.fetch_ev | refine Evolves.ite ?_ fun _ => ?_ | intro _ | rfl) | exact rfl | assumption | split | dsimp only

theorem execExclusiveWindowStart_ev (e : ℕ) (s : State) : ∃ u, (execExclusiveWindowStart e s) = .next u ∧ Evolves s u := by
  refine ⟨_, rfl, ?_⟩
  repeat' first | (with_reducible first | exact Evolves.refl | assumption | apply State.exclStart_ev | refine Evolves.ite ?_ fun _ => ?_ | intro _ | rfl) | exact rfl | assumption | split | dsimp only

theorem execSyncWindow_ev (e : ℕ) (s : State) : ∃ u, (execSyncWindow e s) = .next u ∧ Evolves s u := by
  refine ⟨_, rfl, ?_⟩
  repeat' first | (with_reducible first | exact Evolves.refl | assumption | apply State.syncWindow_ev | refine Evolves.ite ?_ fun _ => ?_ | intro _ | rfl) | exact rfl | assumption | split | dsimp only

theorem execArbitratingWindow_ev (e : ℕ) (s : State) : ∃ u, (execArbitratingWindow e s) = .next u ∧ Evolves s u := by
  refine ⟨_, rfl, ?_⟩
  repeat' first | (with_reducible first | exact Evolves.refl | assumption | apply State.arbWindow_ev | refine Evolves.ite ?_ fun _ => ?_ | intro _ | rfl) | exact rfl | assumption | split | dsimp only

theorem execConsistFrameReceived_ev (x : Fin 4) (f : List Byte) (fcsOk : Bool) (s : State) : ∃ u, (execConsistFrameReceived x f fcsOk s) = .next u ∧ Evolves s u := by
  refine ⟨_, rfl, ?_⟩
  repeat' first | (with_reducible first | exact Evolves.refl | assumption | apply State.consRecv_ev | refine Evolves.ite ?_ fun _ => ?_ | intro _ | rfl) | exact rfl | assumption | split | dsimp only

theorem execDiscardTableAgeOut_ev (mac : ℕ) (s : State) : ∃ u, (execDiscardTableAgeOut mac s) = .next u ∧ Evolves s u := by
  refine ⟨_, rfl, ?_⟩
  repeat' first | (with_reducible first | exact Evolves.refl | assumption | apply State.updN_ev | refine Evolves.ite ?_ fun _ => ?_ | intro _ | rfl) | exact rfl | assumption | split | dsimp only

theorem execReceiveMissCheck_ev (r : ℕ) (s : State) : ∃ u, (execReceiveMissCheck r s) = .next u ∧ Evolves s u := by
  refine ⟨_, rfl, ?_⟩
  repeat' first | (with_reducible first | exact Evolves.refl | assumption | apply State.missCheck_ev | refine Evolves.ite ?_ fun _ => ?_ | intro _ | rfl) | exact rfl | assumption | split | dsimp only

theorem execPollSlotStart_ev (c : Fin 8) (e : ℕ) (echoOk : Bool) (s : State) : ∃ u, (execPollSlotStart c e echoOk s) = .next u ∧ Evolves s u := by
  refine ⟨_, rfl, ?_⟩
  repeat' first | (with_reducible first | exact Evolves.refl | assumption | apply State.slotBegin_ev | refine Evolves.ite ?_ fun _ => ?_ | intro _ | rfl) | exact rfl | assumption | split | dsimp only

theorem execPollReplyTimeout_ev (c : Fin 8) (s : State) : ∃ u, (execPollReplyTimeout c s) = .next u ∧ Evolves s u := by
  refine ⟨_, rfl, ?_⟩
  repeat' first | (with_reducible first | exact Evolves.refl | assumption | apply State.replyTimeout_ev | refine Evolves.ite ?_ fun _ => ?_ | intro _ | rfl) | exact rfl | assumption | split | dsimp only

theorem execPollBasicPeriodStart_ev (c : Fin 8) (s : State) : ∃ u, (execPollBasicPeriodStart c s) = .next u ∧ Evolves s u := by
  refine ⟨_, rfl, ?_⟩
  repeat' first | (with_reducible first | exact Evolves.refl | assumption | apply State.periodStart_ev | refine Evolves.ite ?_ fun _ => ?_ | intro _ | rfl) | exact rfl | assumption | split | dsimp only

theorem execPollSlaveFrameReceived_ev (c : Fin 8) (data : List Byte) (ok : Bool) (s : State) : ∃ u, (execPollSlaveFrameReceived c data ok s) = .next u ∧ Evolves s u := by
  refine ⟨_, rfl, ?_⟩
  repeat' first | (with_reducible first | exact Evolves.refl | assumption | apply State.slaveFrame_ev | refine Evolves.ite ?_ fun _ => ?_ | intro _ | rfl) | exact rfl | assumption | split | dsimp only

theorem execPollMasterFrameReceived_ev (c : Fin 8) (fcode : ℕ) (set : ℕ) (addr : ℕ) (echoOk : Bool) (s : State) : ∃ u, (execPollMasterFrameReceived c fcode set addr echoOk s) = .next u ∧ Evolves s u := by
  refine ⟨_, rfl, ?_⟩
  repeat' first | (with_reducible first | exact Evolves.refl | assumption | apply State.masterFrame_ev | refine Evolves.ite ?_ fun _ => ?_ | intro _ | rfl) | exact rfl | assumption | split | dsimp only

theorem execSlaveSilenceTimeout_ev (c : Fin 8) (s : State) : ∃ u, (execSlaveSilenceTimeout c s) = .next u ∧ Evolves s u := by
  refine ⟨_, rfl, ?_⟩
  repeat' first | (with_reducible first | exact Evolves.refl | assumption | apply State.raiseInt_ev | apply State.updPoll_ev | apply State.pollRecord_ev | refine Evolves.ite ?_ fun _ => ?_ | intro _ | rfl) | exact rfl | assumption | split | dsimp only

theorem execPollValidate_ev (a : Acc) (c : Fin 8) (s : State) : ∃ u, (execPollValidate a c s) = .next u ∧ Evolves s u := by
  refine ⟨_, rfl, ?_⟩
  repeat' first | (with_reducible first | exact Evolves.refl | assumption | apply State.writeAt_ev | apply State.pollValidate_ev | refine Evolves.ite ?_ fun _ => ?_ | intro _ | rfl) | exact rfl | assumption | split | dsimp only

theorem execPollSwitchArm_ev (a : Acc) (c : Fin 8) (s : State) : ∃ u, (execPollSwitchArm a c s) = .next u ∧ Evolves s u := by
  refine ⟨_, rfl, ?_⟩
  repeat' first | (with_reducible first | exact Evolves.refl | assumption | apply State.writeAt_ev | apply State.pollArm_ev | refine Evolves.ite ?_ fun _ => ?_ | intro _ | rfl) | exact rfl | assumption | split | dsimp only

theorem execPollSwitchCancel_ev (a : Acc) (c : Fin 8) (s : State) : ∃ u, (execPollSwitchCancel a c s) = .next u ∧ Evolves s u := by
  refine ⟨_, rfl, ?_⟩
  repeat' first | (with_reducible first | exact Evolves.refl | assumption | apply State.writeAt_ev | apply State.updPoll_ev | apply State.set_ev | refine Evolves.ite ?_ fun _ => ?_ | intro _ | rfl) | exact rfl | assumption | split | dsimp only

theorem execPollResume_ev (a : Acc) (c : Fin 8) (s : State) : ∃ u, (execPollResume a c s) = .next u ∧ Evolves s u := by
  refine ⟨_, rfl, ?_⟩
  repeat' first | (with_reducible first | exact Evolves.refl | assumption | apply State.writeAt_ev | apply State.updPoll_ev | refine Evolves.ite ?_ fun _ => ?_ | intro _ | rfl) | exact rfl | assumption | split | dsimp only

theorem execPollUnsilence_ev (a : Acc) (c : Fin 8) (s : State) : ∃ u, (execPollUnsilence a c s) = .next u ∧ Evolves s u := by
  refine ⟨_, rfl, ?_⟩
  repeat' first | (with_reducible first | exact Evolves.refl | assumption | apply State.writeAt_ev | apply State.updPoll_ev | refine Evolves.ite ?_ fun _ => ?_ | intro _ | rfl) | exact rfl | assumption | split | dsimp only

theorem execPollCtlWrite_ev (a : Acc) (c : Fin 8) (v : ℕ) (s : State) : ∃ u, (execPollCtlWrite a c v s) = .next u ∧ Evolves s u := by
  refine ⟨_, rfl, ?_⟩
  repeat' first | (with_reducible first | exact Evolves.refl | assumption | apply State.writeAt_ev | apply State.pollCtl_ev | refine Evolves.ite ?_ fun _ => ?_ | intro _ | rfl) | exact rfl | assumption | split | dsimp only

theorem execCanStart_ev (a : Acc) (c : Fin 16) (s : State) : ∃ u, (execCanStart a c s) = .next u ∧ Evolves s u := by
  refine ⟨_, rfl, ?_⟩
  repeat' first | (with_reducible first | exact Evolves.refl | assumption | apply State.writeAt_ev | apply State.canStart_ev | refine Evolves.ite ?_ fun _ => ?_ | intro _ | rfl) | exact rfl | assumption | split | dsimp only

theorem execCanStop_ev (a : Acc) (c : Fin 16) (s : State) : ∃ u, (execCanStop a c s) = .next u ∧ Evolves s u := by
  refine ⟨_, rfl, ?_⟩
  repeat' first | (with_reducible first | exact Evolves.refl | assumption | apply State.writeAt_ev | apply State.canStop_ev | refine Evolves.ite ?_ fun _ => ?_ | intro _ | rfl) | exact rfl | assumption | split | dsimp only

theorem execCanRecover_ev (a : Acc) (c : Fin 16) (s : State) : ∃ u, (execCanRecover a c s) = .next u ∧ Evolves s u := by
  refine ⟨_, rfl, ?_⟩
  repeat' first | (with_reducible first | exact Evolves.refl | assumption | apply State.writeAt_ev | apply State.canRecover_ev | refine Evolves.ite ?_ fun _ => ?_ | intro _ | rfl) | exact rfl | assumption | split | dsimp only

theorem execCanRedetect_ev (a : Acc) (c : Fin 16) (s : State) : ∃ u, (execCanRedetect a c s) = .next u ∧ Evolves s u := by
  refine ⟨_, rfl, ?_⟩
  repeat' first | (with_reducible first | exact Evolves.refl | assumption | apply State.writeAt_ev | apply State.canRedetect_ev | refine Evolves.ite ?_ fun _ => ?_ | intro _ | rfl) | exact rfl | assumption | split | dsimp only

theorem execCanBusoffRecovered_ev (c : Fin 16) (s : State) : ∃ u, (execCanBusoffRecovered c s) = .next u ∧ Evolves s u := by
  refine ⟨_, rfl, ?_⟩
  repeat' first | (with_reducible first | exact Evolves.refl | assumption | apply State.updCan_ev | apply State.canJoin_ev | apply State.canZero_ev | apply State.canRecord_ev | refine Evolves.ite ?_ fun _ => ?_ | intro _ | rfl) | exact rfl | assumption | split | dsimp only

theorem execCanListenExit_ev (c : Fin 16) (s : State) : ∃ u, (execCanListenExit c s) = .next u ∧ Evolves s u := by
  refine ⟨_, rfl, ?_⟩
  repeat' first | (with_reducible first | exact Evolves.refl | assumption | apply State.set_ev | refine Evolves.ite ?_ fun _ => ?_ | intro _ | rfl) | exact rfl | assumption | split | dsimp only

theorem execCanStartOfFrame_ev (c : Fin 16) (tdcv : ℕ) (s : State) : ∃ u, (execCanStartOfFrame c tdcv s) = .next u ∧ Evolves s u := by
  refine ⟨_, rfl, ?_⟩
  repeat' first | (with_reducible first | exact Evolves.refl | assumption | apply State.canSof_ev | refine Evolves.ite ?_ fun _ => ?_ | intro _ | rfl) | exact rfl | assumption | split | dsimp only

theorem execCanTxComplete_ev (c : Fin 16) (s : State) : ∃ u, (execCanTxComplete c s) = .next u ∧ Evolves s u := by
  refine ⟨_, rfl, ?_⟩
  repeat' first | (with_reducible first | exact Evolves.refl | assumption | apply State.canSent_ev | refine Evolves.ite ?_ fun _ => ?_ | intro _ | rfl) | exact rfl | assumption | split | dsimp only

theorem execCanArbitrationLost_ev (c : Fin 16) (s : State) : ∃ u, (execCanArbitrationLost c s) = .next u ∧ Evolves s u := by
  refine ⟨_, rfl, ?_⟩
  repeat' first | (with_reducible first | exact Evolves.refl | assumption | apply State.canFailed_ev | apply State.count_ev | refine Evolves.ite ?_ fun _ => ?_ | intro _ | rfl) | exact rfl | assumption | split | dsimp only

theorem execCanErrorDetected_ev (c : Fin 16) (e : CanErr) (s : State) : ∃ u, (execCanErrorDetected c e s) = .next u ∧ Evolves s u := by
  refine ⟨_, rfl, ?_⟩
  repeat' first | (with_reducible first | exact Evolves.refl | assumption | apply State.canError_ev | refine Evolves.ite ?_ fun _ => ?_ | intro _ | rfl) | exact rfl | assumption | split | dsimp only

theorem execCanFrameReceived_ev (c : Fin 16) (f : CanFrame) (s : State) : ∃ u, (execCanFrameReceived c f s) = .next u ∧ Evolves s u := by
  refine ⟨_, rfl, ?_⟩
  repeat' first | (with_reducible first | exact Evolves.refl | assumption | apply State.canRecv_ev | refine Evolves.ite ?_ fun _ => ?_ | intro _ | rfl) | exact rfl | assumption | split | dsimp only

theorem execFioStart_ev (a : Acc) (i : Fin 12) (slotB : Bool) (s : State) : ∃ u, (execFioStart a i slotB s) = .next u ∧ Evolves s u := by
  refine ⟨_, rfl, ?_⟩
  repeat' first | (with_reducible first | exact Evolves.refl | assumption | apply State.writeAt_ev | apply State.fioCmd_ev | refine Evolves.ite ?_ fun _ => ?_ | intro _ | rfl) | exact rfl | assumption | split | dsimp only

theorem execFioStop_ev (a : Acc) (i : Fin 12) (s : State) : ∃ u, (execFioStop a i s) = .next u ∧ Evolves s u := by
  refine ⟨_, rfl, ?_⟩
  repeat' first | (with_reducible first | exact Evolves.refl | assumption | apply State.writeAt_ev | apply State.fioCmd_ev | refine Evolves.ite ?_ fun _ => ?_ | intro _ | rfl) | exact rfl | assumption | split | dsimp only

theorem execFioReload_ev (a : Acc) (i : Fin 12) (slotB : Bool) (s : State) : ∃ u, (execFioReload a i slotB s) = .next u ∧ Evolves s u := by
  refine ⟨_, rfl, ?_⟩
  repeat' first | (with_reducible first | exact Evolves.refl | assumption | apply State.writeAt_ev | apply State.fioCmd_ev | refine Evolves.ite ?_ fun _ => ?_ | intro _ | rfl) | exact rfl | assumption | split | dsimp only

theorem execFioClearFault_ev (a : Acc) (i : Fin 12) (s : State) : ∃ u, (execFioClearFault a i s) = .next u ∧ Evolves s u := by
  refine ⟨_, rfl, ?_⟩
  repeat' first | (with_reducible first | exact Evolves.refl | assumption | apply State.writeAt_ev | apply State.fioCmd_ev | refine Evolves.ite ?_ fun _ => ?_ | intro _ | rfl) | exact rfl | assumption | split | dsimp only

theorem execFioLoadTimeout_ev (i : Fin 12) (s : State) : ∃ u, (execFioLoadTimeout i s) = .next u ∧ Evolves s u := by
  refine ⟨_, rfl, ?_⟩
  repeat' first | (with_reducible first | exact Evolves.refl | assumption | apply State.fioDown_ev | refine Evolves.ite ?_ fun _ => ?_ | intro _ | rfl) | exact rfl | assumption | split | dsimp only

theorem execFioInCfgWrite_ev (a : Acc) (i : Fin 12) (n : Fin 8) (v : ℕ) (s : State) : ∃ u, (execFioInCfgWrite a i n v s) = .next u ∧ Evolves s u := by
  refine ⟨_, rfl, ?_⟩
  repeat' first | (with_reducible first | exact Evolves.refl | assumption | apply State.writeAt_ev | apply State.fioInCfg_ev | refine Evolves.ite ?_ fun _ => ?_ | intro _ | rfl) | exact rfl | assumption | split | dsimp only

theorem execFioOutCfgWrite_ev (a : Acc) (i : Fin 12) (n : Fin 8) (v : ℕ) (s : State) : ∃ u, (execFioOutCfgWrite a i n v s) = .next u ∧ Evolves s u := by
  refine ⟨_, rfl, ?_⟩
  repeat' first | (with_reducible first | exact Evolves.refl | assumption | apply State.writeAt_ev | apply State.fioOutCfg_ev | refine Evolves.ite ?_ fun _ => ?_ | intro _ | rfl) | exact rfl | assumption | split | dsimp only

theorem execFioRefreshSlot_ev (i : Fin 12) (got : Bool) (seen : List ℕ) (mv : ℕ) (s : State) : ∃ u, (execFioRefreshSlot i got seen mv s) = .next u ∧ Evolves s u := by
  refine ⟨_, rfl, ?_⟩
  repeat' first | (with_reducible first | exact Evolves.refl | assumption | apply State.refreshSlot_ev | refine Evolves.ite ?_ fun _ => ?_ | intro _ | rfl) | exact rfl | assumption | split | dsimp only

theorem execFioUplinkTimeout_ev (i : Fin 12) (bad : Bool) (s : State) : ∃ u, (execFioUplinkTimeout i bad s) = .next u ∧ Evolves s u := by
  refine ⟨_, rfl, ?_⟩
  repeat' first | (with_reducible first | exact Evolves.refl | assumption | apply State.fioMiss_ev | refine Evolves.ite ?_ fun _ => ?_ | intro _ | rfl) | exact rfl | assumption | split | dsimp only

theorem execFioUplinkReceived_ev (i : Fin 12) (b : List Byte) (s : State) : ∃ u, (execFioUplinkReceived i b s) = .next u ∧ Evolves s u := by
  refine ⟨_, rfl, ?_⟩
  repeat' first | (with_reducible first | exact Evolves.refl | assumption | apply State.uplink_ev | refine Evolves.ite ?_ fun _ => ?_ | intro _ | rfl) | exact rfl | assumption | split | dsimp only

theorem execIslandMonostableExpiry_ev (i : Fin 12) (s : State) : ∃ u, (execIslandMonostableExpiry i s) = .next u ∧ Evolves s u := by
  refine ⟨_, rfl, ?_⟩
  repeat' first | (with_reducible first | exact Evolves.refl | assumption | apply State.updIl_ev | refine Evolves.ite ?_ fun _ => ?_ | intro _ | rfl) | exact rfl | assumption | split | dsimp only

theorem execIslandParityError_ev (i : Fin 12) (s : State) : ∃ u, (execIslandParityError i s) = .next u ∧ Evolves s u := by
  refine ⟨_, rfl, ?_⟩
  repeat' first | (with_reducible first | exact Evolves.refl | assumption | apply State.updIl_ev | refine Evolves.ite ?_ fun _ => ?_ | intro _ | rfl) | exact rfl | assumption | split | dsimp only

theorem execOutputCurrentLimitExpiry_ev (i : Fin 12) (n : Fin 8) (s : State) : ∃ u, (execOutputCurrentLimitExpiry i n s) = .next u ∧ Evolves s u := by
  refine ⟨_, rfl, ?_⟩
  repeat' first | (with_reducible first | exact Evolves.refl | assumption | apply State.updIl_ev | refine Evolves.ite ?_ fun _ => ?_ | intro _ | rfl) | exact rfl | assumption | split | dsimp only

theorem execIslandOvercurrentTrip_ev (i : Fin 12) (s : State) : ∃ u, (execIslandOvercurrentTrip i s) = .next u ∧ Evolves s u := by
  refine ⟨_, rfl, ?_⟩
  repeat' first | (with_reducible first | exact Evolves.refl | assumption | apply State.updIl_ev | refine Evolves.ite ?_ fun _ => ?_ | intro _ | rfl) | exact rfl | assumption | split | dsimp only

theorem execTrackEdge_ev (n : Fin 8) (l1 : ℕ) (l2 : ℕ) (held : Bool) (s : State) : ∃ u, (execTrackEdge n l1 l2 held s) = .next u ∧ Evolves s u := by
  refine ⟨_, rfl, ?_⟩
  repeat' first | (with_reducible first | exact Evolves.refl | assumption | apply State.trackEdge_ev | refine Evolves.ite ?_ fun _ => ?_ | intro _ | rfl) | exact rfl | assumption | split | dsimp only

theorem execSensorSupplyFault_ev (n : Fin 8) (mv : ℕ) (limiting : Bool) (s : State) : ∃ u, (execSensorSupplyFault n mv limiting s) = .next u ∧ Evolves s u := by
  refine ⟨_, rfl, ?_⟩
  repeat' first | (with_reducible first | exact Evolves.refl | assumption | apply State.updSp_ev | apply State.spdFail_ev | refine Evolves.ite ?_ fun _ => ?_ | intro _ | rfl) | exact rfl | assumption | split | dsimp only

theorem execStandstillTimeout_ev (n : Fin 8) (s : State) : ∃ u, (execStandstillTimeout n s) = .next u ∧ Evolves s u := by
  refine ⟨_, rfl, ?_⟩
  repeat' first | (with_reducible first | exact Evolves.refl | assumption | apply State.updSp_ev | refine Evolves.ite ?_ fun _ => ?_ | intro _ | rfl) | exact rfl | assumption | split | dsimp only

theorem execSpeedEvaluation_ev (s : State) : ∃ u, (execSpeedEvaluation s) = .next u ∧ Evolves s u := by
  refine ⟨_, rfl, ?_⟩
  repeat' first | (with_reducible first | exact Evolves.refl | assumption | apply State.spdEval_ev | refine Evolves.ite ?_ fun _ => ?_ | intro _ | rfl) | exact rfl | assumption | split | dsimp only

theorem execSpeedRegisterUpdate_ev (s : State) : ∃ u, (execSpeedRegisterUpdate s) = .next u ∧ Evolves s u := by
  refine ⟨_, rfl, ?_⟩
  repeat' first | (with_reducible first | exact Evolves.refl | assumption | apply State.spdUpdate_ev | refine Evolves.ite ?_ fun _ => ?_ | intro _ | rfl) | exact rfl | assumption | split | dsimp only

theorem execSpeedReadmit_ev (a : Acc) (mask : ℕ) (s : State) : ∃ u, (execSpeedReadmit a mask s) = .next u ∧ Evolves s u := by
  refine ⟨_, rfl, ?_⟩
  repeat' first | (with_reducible first | exact Evolves.refl | assumption | apply State.writeAt_ev | apply State.spdCmd_ev | refine Evolves.ite ?_ fun _ => ?_ | intro _ | rfl) | exact rfl | assumption | split | dsimp only

theorem execOdometerZero_ev (a : Acc) (mask : ℕ) (s : State) : ∃ u, (execOdometerZero a mask s) = .next u ∧ Evolves s u := by
  refine ⟨_, rfl, ?_⟩
  repeat' first | (with_reducible first | exact Evolves.refl | assumption | apply State.writeAt_ev | apply State.spdCmd_ev | refine Evolves.ite ?_ fun _ => ?_ | intro _ | rfl) | exact rfl | assumption | split | dsimp only

theorem execMwResetRelease_ev (s : State) : ∃ u, (execMwResetRelease s) = .next u ∧ Evolves s u := by
  refine ⟨_, rfl, ?_⟩
  repeat' first | (with_reducible first | exact Evolves.refl | assumption | apply State.mwStop_ev | apply State.updMw_ev | refine Evolves.ite ?_ fun _ => ?_ | intro _ | rfl) | exact rfl | assumption | split | dsimp only

theorem execMwTrackEdge_ev (n : Fin 8) (a : Bool) (b : Bool) (s : State) : ∃ u, (execMwTrackEdge n a b s) = .next u ∧ Evolves s u := by
  refine ⟨_, rfl, ?_⟩
  repeat' first | (with_reducible first | exact Evolves.refl | assumption | apply State.mwEdge_ev | refine Evolves.ite ?_ fun _ => ?_ | intro _ | rfl) | exact rfl | assumption | split | dsimp only

theorem execMwStandstillEntry_ev (s : State) : ∃ u, (execMwStandstillEntry s) = .next u ∧ Evolves s u := by
  refine ⟨_, rfl, ?_⟩
  repeat' first | (with_reducible first | exact Evolves.refl | assumption | apply State.mwStandstill_ev | refine Evolves.ite ?_ fun _ => ?_ | intro _ | rfl) | exact rfl | assumption | split | dsimp only

theorem execTrackFaultTimeout_ev (n : Fin 8) (mw : Bool) (t2 : Bool) (lv : ℕ) (s : State) : ∃ u, (execTrackFaultTimeout n mw t2 lv s) = .next u ∧ Evolves s u := by
  refine ⟨_, rfl, ?_⟩
  repeat' first | (with_reducible first | exact Evolves.refl | assumption | apply State.mwFail_ev | apply State.trackFaultAt_ev | refine Evolves.ite ?_ fun _ => ?_ | intro _ | rfl) | exact rfl | assumption | split | dsimp only

theorem execSpeedInitTimeout_ev (n : Fin 8) (mw : Bool) (s : State) : ∃ u, (execSpeedInitTimeout n mw s) = .next u ∧ Evolves s u := by
  refine ⟨_, rfl, ?_⟩
  repeat' first | (with_reducible first | exact Evolves.refl | assumption | apply State.mwEval_ev | apply State.updMw_ev | apply State.updSp_ev | refine Evolves.ite ?_ fun _ => ?_ | intro _ | rfl) | exact rfl | assumption | split | dsimp only

theorem execFrozenChannel_ev (n : Fin 8) (mw : Bool) (s : State) : ∃ u, (execFrozenChannel n mw s) = .next u ∧ Evolves s u := by
  refine ⟨_, rfl, ?_⟩
  repeat' first | (with_reducible first | exact Evolves.refl | assumption | apply State.mwFail_ev | apply State.spdFail_ev | refine Evolves.ite ?_ fun _ => ?_ | intro _ | rfl) | exact rfl | assumption | split | dsimp only

theorem execMwRomCheck_ev (ok : Bool) (s : State) : ∃ u, (execMwRomCheck ok s) = .next u ∧ Evolves s u := by
  refine ⟨_, rfl, ?_⟩
  repeat' first | (with_reducible first | exact Evolves.refl | assumption | apply State.mwStop_ev | refine Evolves.ite ?_ fun _ => ?_ | intro _ | rfl) | exact rfl | assumption | split | dsimp only

theorem execMwDiSample_ev (closed : ℕ) (s : State) : ∃ u, (execMwDiSample closed s) = .next u ∧ Evolves s u := by
  refine ⟨_, rfl, ?_⟩
  repeat' first | (with_reducible first | exact Evolves.refl | assumption | apply State.updMw_ev | refine Evolves.ite ?_ fun _ => ?_ | intro _ | rfl) | exact rfl | assumption | split | dsimp only

theorem execMwDiPulseTimeout_ev (s : State) : ∃ u, (execMwDiPulseTimeout s) = .next u ∧ Evolves s u := by
  refine ⟨_, rfl, ?_⟩
  repeat' first | (with_reducible first | exact Evolves.refl | assumption | apply State.updMw_ev | refine Evolves.ite ?_ fun _ => ?_ | intro _ | rfl) | exact rfl | assumption | split | dsimp only

theorem execMwCrossCheckTimeout_ev (lane : Bool) (s : State) : ∃ u, (execMwCrossCheckTimeout lane s) = .next u ∧ Evolves s u := by
  refine ⟨_, rfl, ?_⟩
  repeat' first | (with_reducible first | exact Evolves.refl | assumption | apply State.mwStop_ev | refine Evolves.ite ?_ fun _ => ?_ | intro _ | rfl) | exact rfl | assumption | split | dsimp only

theorem execMwHubFrameReceived_ev (b : List Byte) (s : State) : ∃ u, (execMwHubFrameReceived b s) = .next u ∧ Evolves s u := by
  refine ⟨_, rfl, ?_⟩
  repeat' first | (with_reducible first | exact Evolves.refl | assumption | apply State.mwHubFrame_ev | refine Evolves.ite ?_ fun _ => ?_ | intro _ | rfl) | exact rfl | assumption | split | dsimp only

theorem execMwFrameTimeout_ev (interval : Bool) (s : State) : ∃ u, (execMwFrameTimeout interval s) = .next u ∧ Evolves s u := by
  refine ⟨_, rfl, ?_⟩
  repeat' first | (with_reducible first | exact Evolves.refl | assumption | apply State.mwStop_ev | refine Evolves.ite ?_ fun _ => ?_ | intro _ | rfl) | exact rfl | assumption | split | dsimp only

theorem execHubHealthyLow_ev (s : State) : ∃ u, (execHubHealthyLow s) = .next u ∧ Evolves s u := by
  refine ⟨_, rfl, ?_⟩
  repeat' first | (with_reducible first | exact Evolves.refl | assumption | apply State.mwStop_ev | refine Evolves.ite ?_ fun _ => ?_ | intro _ | rfl) | exact rfl | assumption | split | dsimp only

theorem execMwEvaluationTick_ev (s : State) : ∃ u, (execMwEvaluationTick s) = .next u ∧ Evolves s u := by
  refine ⟨_, rfl, ?_⟩
  repeat' first | (with_reducible first | exact Evolves.refl | assumption | apply State.mwSend_ev | apply State.mwEval_ev | refine Evolves.ite ?_ fun _ => ?_ | intro _ | rfl) | exact rfl | assumption | split | dsimp only

theorem execHubFrameSend_ev (s : State) : ∃ u, (execHubFrameSend s) = .next u ∧ Evolves s u := by
  refine ⟨_, rfl, ?_⟩
  repeat' first | (with_reducible first | exact Evolves.refl | assumption | apply State.updSo_ev | apply State.setWire_ev | refine Evolves.ite ?_ fun _ => ?_ | intro _ | rfl) | exact rfl | assumption | split | dsimp only

theorem execMillwrightFrameReceived_ev (b : List Byte) (s : State) : ∃ u, (execMillwrightFrameReceived b s) = .next u ∧ Evolves s u := by
  refine ⟨_, rfl, ?_⟩
  repeat' first | (with_reducible first | exact Evolves.refl | assumption | apply State.mwFrameIn_ev | refine Evolves.ite ?_ fun _ => ?_ | intro _ | rfl) | exact rfl | assumption | split | dsimp only

theorem execSafetyOutputSense_ev (mid : ℕ) (out : ℕ) (permit : ℕ) (supplyOk : Bool) (s : State) : ∃ u, (execSafetyOutputSense mid out permit supplyOk s) = .next u ∧ Evolves s u := by
  refine ⟨_, rfl, ?_⟩
  repeat' first | (with_reducible first | exact Evolves.refl | assumption | apply State.soSense_ev | refine Evolves.ite ?_ fun _ => ?_ | intro _ | rfl) | exact rfl | assumption | split | dsimp only

theorem execSafetyOutputOverload_ev (n : Fin 8) (s : State) : ∃ u, (execSafetyOutputOverload n s) = .next u ∧ Evolves s u := by
  refine ⟨_, rfl, ?_⟩
  repeat' first | (with_reducible first | exact Evolves.refl | assumption | apply State.updSo_ev | refine Evolves.ite ?_ fun _ => ?_ | intro _ | rfl) | exact rfl | assumption | split | dsimp only

theorem execTestPulseDue_ev (s : State) : ∃ u, (execTestPulseDue s) = .next u ∧ Evolves s u := by
  refine ⟨_, rfl, ?_⟩
  repeat' first | (with_reducible first | exact Evolves.refl | assumption | apply State.testRound_ev | refine Evolves.ite ?_ fun _ => ?_ | intro _ | rfl) | exact rfl | assumption | split | dsimp only

theorem execSoTestRunNow_ev (a : Acc) (s : State) : ∃ u, (execSoTestRunNow a s) = .next u ∧ Evolves s u := by
  refine ⟨_, rfl, ?_⟩
  repeat' first | (with_reducible first | exact Evolves.refl | assumption | apply State.writeAt_ev | apply State.testRound_ev | refine Evolves.ite ?_ fun _ => ?_ | intro _ | rfl) | exact rfl | assumption | split | dsimp only

theorem execTestPulseEnd_ev (ok : Bool) (s : State) : ∃ u, (execTestPulseEnd ok s) = .next u ∧ Evolves s u := by
  refine ⟨_, rfl, ?_⟩
  repeat' first | (with_reducible first | exact Evolves.refl | assumption | apply State.testEnd_ev | refine Evolves.ite ?_ fun _ => ?_ | intro _ | rfl) | exact rfl | assumption | split | dsimp only

theorem execSwitchSample_ev (pins : ℕ) (mwPins : ℕ) (s : State) : ∃ u, (execSwitchSample pins mwPins s) = .next u ∧ Evolves s u := by
  refine ⟨_, rfl, ?_⟩
  repeat' first | (with_reducible first | exact Evolves.refl | assumption | apply State.swSample_ev | refine Evolves.ite ?_ fun _ => ?_ | intro _ | rfl) | exact rfl | assumption | split | dsimp only

theorem execSwitchMismatchTimeout_ev (s : State) : ∃ u, (execSwitchMismatchTimeout s) = .next u ∧ Evolves s u := by
  refine ⟨_, rfl, ?_⟩
  repeat' first | (with_reducible first | exact Evolves.refl | assumption | apply State.swTrip_ev | refine Evolves.ite ?_ fun _ => ?_ | intro _ | rfl) | exact rfl | assumption | split | dsimp only

theorem execLedgerRecordArrival_ev (r : LRec) (s : State) : ∃ u, (execLedgerRecordArrival r s) = .next u ∧ Evolves s u := by
  refine ⟨_, rfl, ?_⟩
  repeat' first | (with_reducible first | exact Evolves.refl | assumption | apply State.ledgerArrive_ev | refine Evolves.ite ?_ fun _ => ?_ | intro _ | rfl) | exact rfl | assumption | split | dsimp only

theorem execLgSubGo_ev (a : Acc) (s : State) : ∃ u, (execLgSubGo a s) = .next u ∧ Evolves s u := by
  refine ⟨_, rfl, ?_⟩
  repeat' first | (with_reducible first | exact Evolves.refl | assumption | apply State.writeAt_ev | apply State.subGo_ev | refine Evolves.ite ?_ fun _ => ?_ | intro _ | rfl) | exact rfl | assumption | split | dsimp only

theorem execLedgerFlushStart_ev (s : State) : ∃ u, (execLedgerFlushStart s) = .next u ∧ Evolves s u := by
  refine ⟨_, rfl, ?_⟩
  repeat' first | (with_reducible first | exact Evolves.refl | assumption | apply State.flushStart_ev | refine Evolves.ite ?_ fun _ => ?_ | intro _ | rfl) | exact rfl | assumption | split | dsimp only

theorem execLedgerFlushDone_ev (s : State) : ∃ u, (execLedgerFlushDone s) = .next u ∧ Evolves s u := by
  refine ⟨_, rfl, ?_⟩
  repeat' first | (with_reducible first | exact Evolves.refl | assumption | apply State.flushDone_ev | refine Evolves.ite ?_ fun _ => ?_ | intro _ | rfl) | exact rfl | assumption | split | dsimp only

theorem execLedgerFlushRetry_ev (s : State) : ∃ u, (execLedgerFlushRetry s) = .next u ∧ Evolves s u := by
  refine ⟨_, rfl, ?_⟩
  repeat' first | (with_reducible first | exact Evolves.refl | assumption | apply State.once_ev | apply State.raiseInt_ev | apply State.record_ev | apply State.flushStart_ev | apply State.updLg_ev | refine Evolves.ite ?_ fun _ => ?_ | intro _ | rfl) | exact rfl | assumption | split | dsimp only

theorem execOperatingMillisecond_ev (s : State) : ∃ u, (execOperatingMillisecond s) = .next u ∧ Evolves s u := by
  refine ⟨_, rfl, ?_⟩
  repeat' first | (with_reducible first | exact Evolves.refl | assumption | apply State.bucketGain_ev | apply State.updLg_ev | refine Evolves.ite ?_ fun _ => ?_ | intro _ | rfl) | exact rfl | assumption | split | dsimp only

theorem execOperatingSecond_ev (s : State) : ∃ u, (execOperatingSecond s) = .next u ∧ Evolves s u := by
  refine ⟨_, rfl, ?_⟩
  repeat' first | (with_reducible first | exact Evolves.refl | assumption | apply State.opSecond_ev | refine Evolves.ite ?_ fun _ => ?_ | intro _ | rfl) | exact rfl | assumption | split | dsimp only

theorem execQuicenRepeatHoldExpiry_ev (s : State) : ∃ u, (execQuicenRepeatHoldExpiry s) = .next u ∧ Evolves s u := by
  refine ⟨_, rfl, ?_⟩
  repeat' first | (with_reducible first | exact Evolves.refl | assumption | apply State.updLg_ev | refine Evolves.ite ?_ fun _ => ?_ | intro _ | rfl) | exact rfl | assumption | split | dsimp only

theorem execLedgerWindowReady_ev (s : State) : ∃ u, (execLedgerWindowReady s) = .next u ∧ Evolves s u := by
  refine ⟨_, rfl, ?_⟩
  repeat' first | (with_reducible first | exact Evolves.refl | assumption | apply State.windowReady_ev | refine Evolves.ite ?_ fun _ => ?_ | intro _ | rfl) | exact rfl | assumption | split | dsimp only

theorem execLgFlush_ev (a : Acc) (s : State) : ∃ u, (execLgFlush a s) = .next u ∧ Evolves s u := by
  refine ⟨_, rfl, ?_⟩
  repeat' first | (with_reducible first | exact Evolves.refl | assumption | apply State.writeAt_ev | apply State.lgCmd_ev | refine Evolves.ite ?_ fun _ => ?_ | intro _ | rfl) | exact rfl | assumption | split | dsimp only

theorem execLgFreeze_ev (a : Acc) (s : State) : ∃ u, (execLgFreeze a s) = .next u ∧ Evolves s u := by
  refine ⟨_, rfl, ?_⟩
  repeat' first | (with_reducible first | exact Evolves.refl | assumption | apply State.writeAt_ev | apply State.lgCmd_ev | refine Evolves.ite ?_ fun _ => ?_ | intro _ | rfl) | exact rfl | assumption | split | dsimp only

theorem execLgUnfreeze_ev (a : Acc) (s : State) : ∃ u, (execLgUnfreeze a s) = .next u ∧ Evolves s u := by
  refine ⟨_, rfl, ?_⟩
  repeat' first | (with_reducible first | exact Evolves.refl | assumption | apply State.writeAt_ev | apply State.lgCmd_ev | refine Evolves.ite ?_ fun _ => ?_ | intro _ | rfl) | exact rfl | assumption | split | dsimp only

theorem execLgNext_ev (a : Acc) (s : State) : ∃ u, (execLgNext a s) = .next u ∧ Evolves s u := by
  refine ⟨_, rfl, ?_⟩
  repeat' first | (with_reducible first | exact Evolves.refl | assumption | apply State.writeAt_ev | apply State.lgCmd_ev | refine Evolves.ite ?_ fun _ => ?_ | intro _ | rfl) | exact rfl | assumption | split | dsimp only

theorem execLgPrev_ev (a : Acc) (s : State) : ∃ u, (execLgPrev a s) = .next u ∧ Evolves s u := by
  refine ⟨_, rfl, ?_⟩
  repeat' first | (with_reducible first | exact Evolves.refl | assumption | apply State.writeAt_ev | apply State.lgCmd_ev | refine Evolves.ite ?_ fun _ => ?_ | intro _ | rfl) | exact rfl | assumption | split | dsimp only

theorem execLgNewest_ev (a : Acc) (s : State) : ∃ u, (execLgNewest a s) = .next u ∧ Evolves s u := by
  refine ⟨_, rfl, ?_⟩
  repeat' first | (with_reducible first | exact Evolves.refl | assumption | apply State.writeAt_ev | apply State.lgCmd_ev | refine Evolves.ite ?_ fun _ => ?_ | intro _ | rfl) | exact rfl | assumption | split | dsimp only

theorem execLgOldest_ev (a : Acc) (s : State) : ∃ u, (execLgOldest a s) = .next u ∧ Evolves s u := by
  refine ⟨_, rfl, ?_⟩
  repeat' first | (with_reducible first | exact Evolves.refl | assumption | apply State.writeAt_ev | apply State.lgCmd_ev | refine Evolves.ite ?_ fun _ => ?_ | intro _ | rfl) | exact rfl | assumption | split | dsimp only

theorem execLgCursorWrite_ev (a : Acc) (v : ℕ) (s : State) : ∃ u, (execLgCursorWrite a v s) = .next u ∧ Evolves s u := by
  refine ⟨_, rfl, ?_⟩
  repeat' first | (with_reducible first | exact Evolves.refl | assumption | apply State.writeAt_ev | apply State.lgCursor_ev | refine Evolves.ite ?_ fun _ => ?_ | intro _ | rfl) | exact rfl | assumption | split | dsimp only

theorem execFreezeMaxExpiry_ev (s : State) : ∃ u, (execFreezeMaxExpiry s) = .next u ∧ Evolves s u := by
  refine ⟨_, rfl, ?_⟩
  repeat' first | (with_reducible first | exact Evolves.refl | assumption | apply State.thaw_ev | refine Evolves.ite ?_ fun _ => ?_ | intro _ | rfl) | exact rfl | assumption | split | dsimp only

theorem execLgFreezeMaxWrite_ev (a : Acc) (v : ℕ) (s : State) : ∃ u, (execLgFreezeMaxWrite a v s) = .next u ∧ Evolves s u := by
  refine ⟨_, rfl, ?_⟩
  repeat' first | (with_reducible first | exact Evolves.refl | assumption | apply State.writeAt_ev | apply State.lgCtl_ev | refine Evolves.ite ?_ fun _ => ?_ | intro _ | rfl) | exact rfl | assumption | split | dsimp only

theorem execLgRateEntryWrite_ev (a : Acc) (off : ℕ) (v : ℕ) (s : State) : ∃ u, (execLgRateEntryWrite a off v s) = .next u ∧ Evolves s u := by
  refine ⟨_, rfl, ?_⟩
  repeat' first | (with_reducible first | exact Evolves.refl | assumption | apply State.writeAt_ev | apply State.rateEntry_ev | refine Evolves.ite ?_ fun _ => ?_ | intro _ | rfl) | exact rfl | assumption | split | dsimp only

theorem execLgRateDefWrite_ev (a : Acc) (v : ℕ) (s : State) : ∃ u, (execLgRateDefWrite a v s) = .next u ∧ Evolves s u := by
  refine ⟨_, rfl, ?_⟩
  repeat' first | (with_reducible first | exact Evolves.refl | assumption | apply State.writeAt_ev | apply State.rateDef_ev | refine Evolves.ite ?_ fun _ => ?_ | intro _ | rfl) | exact rfl | assumption | split | dsimp only

theorem execLedgerHeadMount_ev (s : State) : ∃ u, (execLedgerHeadMount s) = .next u ∧ Evolves s u := by
  refine ⟨_, rfl, ?_⟩
  repeat' first | (with_reducible first | exact Evolves.refl | assumption | apply State.headMount_ev | refine Evolves.ite ?_ fun _ => ?_ | intro _ | rfl) | exact rfl | assumption | split | dsimp only

theorem execNandDeviceFail_ev (d : Fin 2) (s : State) : ∃ u, (execNandDeviceFail d s) = .next u ∧ Evolves s u := by
  refine ⟨_, rfl, ?_⟩
  repeat' first | (with_reducible first | exact Evolves.refl | assumption | apply State.devFail_ev | refine Evolves.ite ?_ fun _ => ?_ | intro _ | rfl) | exact rfl | assumption | split | dsimp only

theorem execScrubBlock_ev (d : Fin 2) (bits : ℕ) (reads : ℕ) (loss : List ScrubLoss) (s : State) : ∃ u, (execScrubBlock d bits reads loss s) = .next u ∧ Evolves s u := by
  refine ⟨_, rfl, ?_⟩
  repeat' first | (with_reducible first | exact Evolves.refl | assumption | apply State.scrubBlock_ev | refine Evolves.ite ?_ fun _ => ?_ | intro _ | rfl) | exact rfl | assumption | split | dsimp only

theorem execStaticWearMove_ev (d : Fin 2) (s : State) : ∃ u, (execStaticWearMove d s) = .next u ∧ Evolves s u := by
  refine ⟨_, rfl, ?_⟩
  repeat' first | (with_reducible first | exact Evolves.refl | assumption | apply State.blockErased_ev | refine Evolves.ite ?_ fun _ => ?_ | intro _ | rfl) | exact rfl | assumption | split | dsimp only

theorem execNandMount_ev (d0 : NandId) (d1 : NandId) (s : State) : ∃ u, (execNandMount d0 d1 s) = .next u ∧ Evolves s u := by
  refine ⟨_, rfl, ?_⟩
  repeat' first | (with_reducible first | exact Evolves.refl | assumption | apply State.mountDev_ev | apply State.setB_ev | apply State.set_ev | refine Evolves.ite ?_ fun _ => ?_ | intro _ | rfl) | exact rfl | assumption | split | dsimp only

theorem execStRead_ev (a : Acc) (s : State) : ∃ u, (execStRead a s) = .next u ∧ Evolves s u := by
  refine ⟨_, rfl, ?_⟩
  repeat' first | (with_reducible first | exact Evolves.refl | assumption | apply State.writeAt_ev | apply State.stGo_ev | refine Evolves.ite ?_ fun _ => ?_ | intro _ | rfl) | exact rfl | assumption | split | dsimp only

theorem execStWrite_ev (a : Acc) (s : State) : ∃ u, (execStWrite a s) = .next u ∧ Evolves s u := by
  refine ⟨_, rfl, ?_⟩
  repeat' first | (with_reducible first | exact Evolves.refl | assumption | apply State.writeAt_ev | apply State.stGo_ev | refine Evolves.ite ?_ fun _ => ?_ | intro _ | rfl) | exact rfl | assumption | split | dsimp only

theorem execStDiscard_ev (a : Acc) (s : State) : ∃ u, (execStDiscard a s) = .next u ∧ Evolves s u := by
  refine ⟨_, rfl, ?_⟩
  repeat' first | (with_reducible first | exact Evolves.refl | assumption | apply State.writeAt_ev | apply State.stGo_ev | refine Evolves.ite ?_ fun _ => ?_ | intro _ | rfl) | exact rfl | assumption | split | dsimp only

theorem execStoreCommandComplete_ev (r : StResult) (s : State) : ∃ u, (execStoreCommandComplete r s) = .next u ∧ Evolves s u := by
  refine ⟨_, rfl, ?_⟩
  repeat' first | (with_reducible first | exact Evolves.refl | assumption | apply State.stComplete_ev | refine Evolves.ite ?_ fun _ => ?_ | intro _ | rfl) | exact rfl | assumption | split | dsimp only

theorem execSdCardDetect_ev (present : Bool) (s : State) : ∃ u, (execSdCardDetect present s) = .next u ∧ Evolves s u := by
  refine ⟨_, rfl, ?_⟩
  repeat' first | (with_reducible first | exact Evolves.refl | assumption | apply State.raiseInt_ev | apply State.setB_ev | apply State.sdRecord_ev | apply State.sdClear_ev | refine Evolves.ite ?_ fun _ => ?_ | intro _ | rfl) | exact rfl | assumption | split | dsimp only

theorem execSdInit_ev (a : Acc) (s : State) : ∃ u, (execSdInit a s) = .next u ∧ Evolves s u := by
  refine ⟨_, rfl, ?_⟩
  repeat' first | (with_reducible first | exact Evolves.refl | assumption | apply State.writeAt_ev | apply State.sdCmd_ev | refine Evolves.ite ?_ fun _ => ?_ | intro _ | rfl) | exact rfl | assumption | split | dsimp only

theorem execSdRead_ev (a : Acc) (s : State) : ∃ u, (execSdRead a s) = .next u ∧ Evolves s u := by
  refine ⟨_, rfl, ?_⟩
  repeat' first | (with_reducible first | exact Evolves.refl | assumption | apply State.writeAt_ev | apply State.sdCmd_ev | refine Evolves.ite ?_ fun _ => ?_ | intro _ | rfl) | exact rfl | assumption | split | dsimp only

theorem execSdPowerOff_ev (a : Acc) (s : State) : ∃ u, (execSdPowerOff a s) = .next u ∧ Evolves s u := by
  refine ⟨_, rfl, ?_⟩
  repeat' first | (with_reducible first | exact Evolves.refl | assumption | apply State.writeAt_ev | apply State.sdCmd_ev | refine Evolves.ite ?_ fun _ => ?_ | intro _ | rfl) | exact rfl | assumption | split | dsimp only

theorem execSdInitComplete_ev (r : SdInit) (s : State) : ∃ u, (execSdInitComplete r s) = .next u ∧ Evolves s u := by
  refine ⟨_, rfl, ?_⟩
  repeat' first | (with_reducible first | exact Evolves.refl | assumption | apply State.sdInitDone_ev | refine Evolves.ite ?_ fun _ => ?_ | intro _ | rfl) | exact rfl | assumption | split | dsimp only

theorem execSdReadEnd_ev (r : SdResult) (s : State) : ∃ u, (execSdReadEnd r s) = .next u ∧ Evolves s u := by
  refine ⟨_, rfl, ?_⟩
  repeat' first | (with_reducible first | exact Evolves.refl | assumption | apply State.sdReadEnd_ev | refine Evolves.ite ?_ fun _ => ?_ | intro _ | rfl) | exact rfl | assumption | split | dsimp only

theorem execTamperEvent_ev (src : Fin 6) (firing : Bool) (bad : Bool) (s : State) : ∃ u, (execTamperEvent src firing bad s) = .next u ∧ Evolves s u := by
  refine ⟨_, rfl, ?_⟩
  repeat' first | (with_reducible first | exact Evolves.refl | assumption | apply State.tamperEdge_ev | refine Evolves.ite ?_ fun _ => ?_ | intro _ | rfl) | exact rfl | assumption | split | dsimp only

theorem execServiceWindowEnd_ev (s : State) : ∃ u, (execServiceWindowEnd s) = .next u ∧ Evolves s u := by
  refine ⟨_, rfl, ?_⟩
  repeat' first | (with_reducible first | exact Evolves.refl | assumption | apply State.windowClose_ev | refine Evolves.ite ?_ fun _ => ?_ | intro _ | rfl) | exact rfl | assumption | split | dsimp only

theorem execLocksmithOpComplete_ev (s : State) : ∃ u, (execLocksmithOpComplete s) = .next u ∧ Evolves s u := by
  refine ⟨_, rfl, ?_⟩
  repeat' first | (with_reducible first | exact Evolves.refl | assumption | apply State.lkComplete_ev | refine Evolves.ite ?_ fun _ => ?_ | intro _ | rfl) | exact rfl | assumption | split | dsimp only

theorem execLkOpenWindow_ev (a : Acc) (s : State) : ∃ u, (execLkOpenWindow a s) = .next u ∧ Evolves s u := by
  refine ⟨_, rfl, ?_⟩
  repeat' first | (with_reducible first | exact Evolves.refl | assumption | apply State.writeAt_ev | apply State.lkCmd_ev | refine Evolves.ite ?_ fun _ => ?_ | intro _ | rfl) | exact rfl | assumption | split | dsimp only

theorem execLkCloseWindow_ev (a : Acc) (s : State) : ∃ u, (execLkCloseWindow a s) = .next u ∧ Evolves s u := by
  refine ⟨_, rfl, ?_⟩
  repeat' first | (with_reducible first | exact Evolves.refl | assumption | apply State.writeAt_ev | apply State.lkCmd_ev | refine Evolves.ite ?_ fun _ => ?_ | intro _ | rfl) | exact rfl | assumption | split | dsimp only

theorem execLkReleaseTamper_ev (a : Acc) (s : State) : ∃ u, (execLkReleaseTamper a s) = .next u ∧ Evolves s u := by
  refine ⟨_, rfl, ?_⟩
  repeat' first | (with_reducible first | exact Evolves.refl | assumption | apply State.writeAt_ev | apply State.lkCmd_ev | refine Evolves.ite ?_ fun _ => ?_ | intro _ | rfl) | exact rfl | assumption | split | dsimp only

theorem execLkLifecycleTransition_ev (a : Acc) (s : State) : ∃ u, (execLkLifecycleTransition a s) = .next u ∧ Evolves s u := by
  refine ⟨_, rfl, ?_⟩
  repeat' first | (with_reducible first | exact Evolves.refl | assumption | apply State.writeAt_ev | apply State.lkCmd_ev | refine Evolves.ite ?_ fun _ => ?_ | intro _ | rfl) | exact rfl | assumption | split | dsimp only

theorem execLkSign_ev (a : Acc) (s : State) : ∃ u, (execLkSign a s) = .next u ∧ Evolves s u := by
  refine ⟨_, rfl, ?_⟩
  repeat' first | (with_reducible first | exact Evolves.refl | assumption | apply State.writeAt_ev | apply State.lkCmd_ev | refine Evolves.ite ?_ fun _ => ?_ | intro _ | rfl) | exact rfl | assumption | split | dsimp only

theorem execLkPubkey_ev (a : Acc) (s : State) : ∃ u, (execLkPubkey a s) = .next u ∧ Evolves s u := by
  refine ⟨_, rfl, ?_⟩
  repeat' first | (with_reducible first | exact Evolves.refl | assumption | apply State.writeAt_ev | apply State.lkCmd_ev | refine Evolves.ite ?_ fun _ => ?_ | intro _ | rfl) | exact rfl | assumption | split | dsimp only

theorem execLkMac_ev (a : Acc) (s : State) : ∃ u, (execLkMac a s) = .next u ∧ Evolves s u := by
  refine ⟨_, rfl, ?_⟩
  repeat' first | (with_reducible first | exact Evolves.refl | assumption | apply State.writeAt_ev | apply State.lkCmd_ev | refine Evolves.ite ?_ fun _ => ?_ | intro _ | rfl) | exact rfl | assumption | split | dsimp only

theorem execLkVerify_ev (a : Acc) (s : State) : ∃ u, (execLkVerify a s) = .next u ∧ Evolves s u := by
  refine ⟨_, rfl, ?_⟩
  repeat' first | (with_reducible first | exact Evolves.refl | assumption | apply State.writeAt_ev | apply State.lkCmd_ev | refine Evolves.ite ?_ fun _ => ?_ | intro _ | rfl) | exact rfl | assumption | split | dsimp only

theorem execLkRevoke_ev (a : Acc) (s : State) : ∃ u, (execLkRevoke a s) = .next u ∧ Evolves s u := by
  refine ⟨_, rfl, ?_⟩
  repeat' first | (with_reducible first | exact Evolves.refl | assumption | apply State.writeAt_ev | apply State.lkCmd_ev | refine Evolves.ite ?_ fun _ => ?_ | intro _ | rfl) | exact rfl | assumption | split | dsimp only

theorem execBootedTimeout_ev (s : State) : ∃ u, (execBootedTimeout s) = .next u ∧ Evolves s u := by
  refine ⟨_, rfl, ?_⟩
  repeat' first | (with_reducible first | exact Evolves.refl | assumption | apply State.shutOff_ev | apply State.sessEnd_ev | apply State.failedBoot_ev | refine Evolves.ite ?_ fun _ => ?_ | intro _ | rfl) | exact rfl | assumption | split | dsimp only

theorem execTrialTimeout_ev (s : State) : ∃ u, (execTrialTimeout s) = .next u ∧ Evolves s u := by
  refine ⟨_, rfl, ?_⟩
  repeat' first | (with_reducible first | exact Evolves.refl | assumption | apply State.abandon_ev | apply State.sessEnd_ev | apply State.shutOff_ev | refine Evolves.ite ?_ fun _ => ?_ | intro _ | rfl) | exact rfl | assumption | split | dsimp only

theorem execUpdVerify_ev (a : Acc) (s : State) : ∃ u, (execUpdVerify a s) = .next u ∧ Evolves s u := by
  refine ⟨_, rfl, ?_⟩
  repeat' first | (with_reducible first | exact Evolves.refl | assumption | apply State.writeAt_ev | apply State.updCmd_ev | refine Evolves.ite ?_ fun _ => ?_ | intro _ | rfl) | exact rfl | assumption | split | dsimp only

theorem execUpdBegin_ev (a : Acc) (s : State) : ∃ u, (execUpdBegin a s) = .next u ∧ Evolves s u := by
  refine ⟨_, rfl, ?_⟩
  repeat' first | (with_reducible first | exact Evolves.refl | assumption | apply State.writeAt_ev | apply State.updCmd_ev | refine Evolves.ite ?_ fun _ => ?_ | intro _ | rfl) | exact rfl | assumption | split | dsimp only

theorem execUpdEnd_ev (a : Acc) (s : State) : ∃ u, (execUpdEnd a s) = .next u ∧ Evolves s u := by
  refine ⟨_, rfl, ?_⟩
  repeat' first | (with_reducible first | exact Evolves.refl | assumption | apply State.writeAt_ev | apply State.updCmd_ev | refine Evolves.ite ?_ fun _ => ?_ | intro _ | rfl) | exact rfl | assumption | split | dsimp only

theorem execUpdAbort_ev (a : Acc) (s : State) : ∃ u, (execUpdAbort a s) = .next u ∧ Evolves s u := by
  refine ⟨_, rfl, ?_⟩
  repeat' first | (with_reducible first | exact Evolves.refl | assumption | apply State.writeAt_ev | apply State.updCmd_ev | refine Evolves.ite ?_ fun _ => ?_ | intro _ | rfl) | exact rfl | assumption | split | dsimp only

theorem execUpdActivate_ev (a : Acc) (now : Bool) (s : State) : ∃ u, (execUpdActivate a now s) = .next u ∧ Evolves s u := by
  refine ⟨_, rfl, ?_⟩
  repeat' first | (with_reducible first | exact Evolves.refl | assumption | apply State.writeAt_ev | apply State.updCmd_ev | refine Evolves.ite ?_ fun _ => ?_ | intro _ | rfl) | exact rfl | assumption | split | dsimp only

theorem execUpdConfirm_ev (a : Acc) (s : State) : ∃ u, (execUpdConfirm a s) = .next u ∧ Evolves s u := by
  refine ⟨_, rfl, ?_⟩
  repeat' first | (with_reducible first | exact Evolves.refl | assumption | apply State.writeAt_ev | apply State.updCmd_ev | refine Evolves.ite ?_ fun _ => ?_ | intro _ | rfl) | exact rfl | assumption | split | dsimp only

theorem execUpdBooted_ev (a : Acc) (s : State) : ∃ u, (execUpdBooted a s) = .next u ∧ Evolves s u := by
  refine ⟨_, rfl, ?_⟩
  repeat' first | (with_reducible first | exact Evolves.refl | assumption | apply State.writeAt_ev | apply State.updCmd_ev | refine Evolves.ite ?_ fun _ => ?_ | intro _ | rfl) | exact rfl | assumption | split | dsimp only

theorem execUpdateCommandComplete_ev (bad : Bool) (s : State) : ∃ u, (execUpdateCommandComplete bad s) = .next u ∧ Evolves s u := by
  refine ⟨_, rfl, ?_⟩
  repeat' first | (with_reducible first | exact Evolves.refl | assumption | apply State.updVerify_ev | apply State.updBegin_ev | apply State.updEnd_ev | refine Evolves.ite ?_ fun _ => ?_ | intro _ | rfl) | exact rfl | assumption | split | dsimp only

theorem execSupplyInterruption_ev (vin : ℕ) (s : State) : ∃ u, (execSupplyInterruption vin s) = .next u ∧ Evolves s u := by
  refine ⟨_, rfl, ?_⟩
  repeat' first | (with_reducible first | exact Evolves.refl | assumption | apply State.raiseInt_ev | apply State.set_ev | refine Evolves.ite ?_ fun _ => ?_ | intro _ | rfl) | exact rfl | assumption | split | dsimp only

theorem execInterruptionEnd_ev (ms01 : ℕ) (s : State) : ∃ u, (execInterruptionEnd ms01 s) = .next u ∧ Evolves s u := by
  refine ⟨_, rfl, ?_⟩
  repeat' first | (with_reducible first | exact Evolves.refl | assumption | apply State.pwrRecord_ev | apply State.raiseTo_ev | apply State.count_ev | apply State.raiseInt_ev | apply State.set_ev | refine Evolves.ite ?_ fun _ => ?_ | intro _ | rfl) | exact rfl | assumption | split | dsimp only

theorem execInputFluctuation_ev (vin : ℕ) (s : State) : ∃ u, (execInputFluctuation vin s) = .next u ∧ Evolves s u := by
  refine ⟨_, rfl, ?_⟩
  repeat' first | (with_reducible first | exact Evolves.refl | assumption | apply State.once_ev | apply State.pwrRecord_ev | refine Evolves.ite ?_ fun _ => ?_ | intro _ | rfl) | exact rfl | assumption | split | dsimp only

theorem execPowerFailDeclare_ev (full0 : Bool) (full1 : Bool) (s : State) : ∃ u, (execPowerFailDeclare full0 full1 s) = .next u ∧ Evolves s u := by
  refine ⟨_, rfl, ?_⟩
  repeat' first | (with_reducible first | exact Evolves.refl | assumption | apply State.powerFail_ev | refine Evolves.ite ?_ fun _ => ?_ | intro _ | rfl) | exact rfl | assumption | split | dsimp only

theorem execHoldupStoreExhausted_ev (s : State) : ∃ u, (execHoldupStoreExhausted s) = .next u ∧ Evolves s u := by
  refine ⟨_, rfl, ?_⟩
  repeat' first | (with_reducible first | exact Evolves.refl | assumption | apply State.shutOff_ev | apply State.set_ev | refine Evolves.ite ?_ fun _ => ?_ | intro _ | rfl) | exact rfl | assumption | split | dsimp only

theorem execDozeEntry_ev (s : State) : ∃ u, (execDozeEntry s) = .next u ∧ Evolves s u := by
  refine ⟨_, rfl, ?_⟩
  repeat' first | (with_reducible first | exact Evolves.refl | assumption | apply State.updPw_ev | refine Evolves.ite ?_ fun _ => ?_ | intro _ | rfl) | exact rfl | assumption | split | dsimp only

theorem execClockStartOnDemand_ev (d : Fin 41) (ns : ℕ) (late : Bool) (s : State) : ∃ u, (execClockStartOnDemand d ns late s) = .next u ∧ Evolves s u := by
  refine ⟨_, rfl, ?_⟩
  repeat' first | (with_reducible first | exact Evolves.refl | assumption | apply State.count_ev | apply State.set_ev | apply State.record_ev | apply State.raiseInt_ev | refine Evolves.ite ?_ fun _ => ?_ | intro _ | rfl) | exact rfl | assumption | split | dsimp only

theorem execThermalSample_ev (t0 : ℤ) (t1 : ℤ) (t2 : ℤ) (t3 : ℤ) (s : State) : ∃ u, (execThermalSample t0 t1 t2 t3 s) = .next u ∧ Evolves s u := by
  refine ⟨_, rfl, ?_⟩
  repeat' first | (with_reducible first | exact Evolves.refl | assumption | apply State.thermSample_ev | refine Evolves.ite ?_ fun _ => ?_ | intro _ | rfl) | exact rfl | assumption | split | dsimp only

theorem execThermalDwellExpiry_ev (s : State) : ∃ u, (execThermalDwellExpiry s) = .next u ∧ Evolves s u := by
  refine ⟨_, rfl, ?_⟩
  repeat' first | (with_reducible first | exact Evolves.refl | assumption | apply State.thermDwell_ev | refine Evolves.ite ?_ fun _ => ?_ | intro _ | rfl) | exact rfl | assumption | split | dsimp only

theorem execThermalTrip_ev (die : Fin 4) (s : State) : ∃ u, (execThermalTrip die s) = .next u ∧ Evolves s u := by
  refine ⟨_, rfl, ?_⟩
  repeat' first | (with_reducible first | exact Evolves.refl | assumption | apply State.thermRecord_ev | apply State.setPassive_ev | apply State.set_ev | apply State.each_ev | refine Evolves.ite ?_ fun _ => ?_ | intro _ | rfl) | exact rfl | assumption | split | dsimp only

theorem execDimgLock_ev (a : Acc) (s : State) : ∃ u, (execDimgLock a s) = .next u ∧ Evolves s u := by
  refine ⟨_, rfl, ?_⟩
  repeat' first | (with_reducible first | exact Evolves.refl | assumption | apply State.writeAt_ev | apply State.dimgLock_ev | refine Evolves.ite ?_ fun _ => ?_ | intro _ | rfl) | exact rfl | assumption | split | dsimp only

theorem execStartFromOff_ev (c : StartInputs) (s : State) : ∃ u, (execStartFromOff c s) = .next u ∧ Evolves s u := by
  refine ⟨_, rfl, ?_⟩
  repeat' first | (with_reducible first | exact Evolves.refl | assumption | apply State.startOff_ev | refine Evolves.ite ?_ fun _ => ?_ | intro _ | rfl) | exact rfl | assumption | split | dsimp only

theorem execWakeEvent_ev (src : WakeSrc) (ticks : ℕ) (s : State) : ∃ u, (execWakeEvent src ticks s) = .next u ∧ Evolves s u := by
  refine ⟨_, rfl, ?_⟩
  repeat' first | (with_reducible first | exact Evolves.refl | assumption | apply State.wakeBy_ev | refine Evolves.ite ?_ fun _ => ?_ | intro _ | rfl) | exact rfl | assumption | split | dsimp only

theorem execWakeTimerExpiry_ev (ticks : ℕ) (s : State) : ∃ u, (execWakeTimerExpiry ticks s) = .next u ∧ Evolves s u := by
  refine ⟨_, rfl, ?_⟩
  repeat' first | (with_reducible first | exact Evolves.refl | assumption | apply State.wakeBy_ev | refine Evolves.ite ?_ fun _ => ?_ | intro _ | rfl) | exact rfl | assumption | split | dsimp only

theorem execDiWakeChange_ev (i : Fin 12) (n : Fin 8) (ticks : ℕ) (s : State) : ∃ u, (execDiWakeChange i n ticks s) = .next u ∧ Evolves s u := by
  refine ⟨_, rfl, ?_⟩
  repeat' first | (with_reducible first | exact Evolves.refl | assumption | apply State.wakeBy_ev | refine Evolves.ite ?_ fun _ => ?_ | intro _ | rfl) | exact rfl | assumption | split | dsimp only

theorem execCanWakePattern_ev (c : Fin 16) (ticks : ℕ) (s : State) : ∃ u, (execCanWakePattern c ticks s) = .next u ∧ Evolves s u := by
  refine ⟨_, rfl, ?_⟩
  repeat' first | (with_reducible first | exact Evolves.refl | assumption | apply State.wakeBy_ev | refine Evolves.ite ?_ fun _ => ?_ | intro _ | rfl) | exact rfl | assumption | split | dsimp only

theorem execPwrDoze_ev (a : Acc) (s : State) : ∃ u, (execPwrDoze a s) = .next u ∧ Evolves s u := by
  refine ⟨_, rfl, ?_⟩
  repeat' first | (with_reducible first | exact Evolves.refl | assumption | apply State.writeAt_ev | apply State.pwrCmd_ev | refine Evolves.ite ?_ fun _ => ?_ | intro _ | rfl) | exact rfl | assumption | split | dsimp only

theorem execPwrRun_ev (a : Acc) (s : State) : ∃ u, (execPwrRun a s) = .next u ∧ Evolves s u := by
  refine ⟨_, rfl, ?_⟩
  repeat' first | (with_reducible first | exact Evolves.refl | assumption | apply State.writeAt_ev | apply State.pwrCmd_ev | refine Evolves.ite ?_ fun _ => ?_ | intro _ | rfl) | exact rfl | assumption | split | dsimp only

theorem execPwrStable_ev (a : Acc) (s : State) : ∃ u, (execPwrStable a s) = .next u ∧ Evolves s u := by
  refine ⟨_, rfl, ?_⟩
  repeat' first | (with_reducible first | exact Evolves.refl | assumption | apply State.writeAt_ev | apply State.pwrCmd_ev | refine Evolves.ite ?_ fun _ => ?_ | intro _ | rfl) | exact rfl | assumption | split | dsimp only

theorem execBridgeRequestTake_ev (s : State) : ∃ u, (execBridgeRequestTake s) = .next u ∧ Evolves s u := by
  refine ⟨_, rfl, ?_⟩
  repeat' first | (with_reducible first | exact Evolves.refl | assumption | apply State.brTake_ev | refine Evolves.ite ?_ fun _ => ?_ | intro _ | rfl) | exact rfl | assumption | split | dsimp only

theorem execBridgeBusCycleStart_ev (s : State) : ∃ u, (execBridgeBusCycleStart s) = .next u ∧ Evolves s u := by
  refine ⟨_, rfl, ?_⟩
  repeat' first | (with_reducible first | exact Evolves.refl | assumption | apply State.brStart_ev | refine Evolves.ite ?_ fun _ => ?_ | intro _ | rfl) | exact rfl | assumption | split | dsimp only

theorem execBridgeDataPhaseEnd_ev (err : Bool) (data : BitVec 32) (s : State) : ∃ u, (execBridgeDataPhaseEnd err data s) = .next u ∧ Evolves s u := by
  refine ⟨_, rfl, ?_⟩
  repeat' first | (with_reducible first | exact Evolves.refl | assumption | apply State.brPhase_ev | refine Evolves.ite ?_ fun _ => ?_ | intro _ | rfl) | exact rfl | assumption | split | dsimp only

theorem execBridgeDataPhaseTimeout_ev (s : State) : ∃ u, (execBridgeDataPhaseTimeout s) = .next u ∧ Evolves s u := by
  refine ⟨_, rfl, ?_⟩
  repeat' first | (with_reducible first | exact Evolves.refl | assumption | apply State.brEnd_ev | refine Evolves.ite ?_ fun _ => ?_ | intro _ | rfl) | exact rfl | assumption | split | dsimp only

theorem execBridgeCompletionWrite_ev (s : State) : ∃ u, (execBridgeCompletionWrite s) = .next u ∧ Evolves s u := by
  refine ⟨_, rfl, ?_⟩
  repeat' first | (with_reducible first | exact Evolves.refl | assumption | apply State.brCplWrite_ev | refine Evolves.ite ?_ fun _ => ?_ | intro _ | rfl) | exact rfl | assumption | split | dsimp only

theorem execBridgeScanInstant_ev (cls : Fin 8) (s : State) : ∃ u, (execBridgeScanInstant cls s) = .next u ∧ Evolves s u := by
  refine ⟨_, rfl, ?_⟩
  repeat' first | (with_reducible first | exact Evolves.refl | assumption | apply State.brScan_ev | refine Evolves.ite ?_ fun _ => ?_ | intro _ | rfl) | exact rfl | assumption | split | dsimp only

theorem execBrFlush_ev (a : Acc) (s : State) : ∃ u, (execBrFlush a s) = .next u ∧ Evolves s u := by
  refine ⟨_, rfl, ?_⟩
  repeat' first | (with_reducible first | exact Evolves.refl | assumption | apply State.writeAt_ev | apply State.brCmd_ev | refine Evolves.ite ?_ fun _ => ?_ | intro _ | rfl) | exact rfl | assumption | split | dsimp only

theorem execBrReset_ev (a : Acc) (s : State) : ∃ u, (execBrReset a s) = .next u ∧ Evolves s u := by
  refine ⟨_, rfl, ?_⟩
  repeat' first | (with_reducible first | exact Evolves.refl | assumption | apply State.writeAt_ev | apply State.brCmd_ev | refine Evolves.ite ?_ fun _ => ?_ | intro _ | rfl) | exact rfl | assumption | split | dsimp only

theorem execQpResetAssert_ev (s : State) : ∃ u, (execQpResetAssert s) = .next u ∧ Evolves s u := by
  refine ⟨_, rfl, ?_⟩
  repeat' first | (with_reducible first | exact Evolves.refl | assumption | apply State.qpLow_ev | refine Evolves.ite ?_ fun _ => ?_ | intro _ | rfl) | exact rfl | assumption | split | dsimp only

theorem execQpResetRecoveryEnd_ev (s : State) : ∃ u, (execQpResetRecoveryEnd s) = .next u ∧ Evolves s u := by
  refine ⟨_, rfl, ?_⟩
  repeat' first | (with_reducible first | exact Evolves.refl | assumption | apply State.set_ev | refine Evolves.ite ?_ fun _ => ?_ | intro _ | rfl) | exact rfl | assumption | split | dsimp only

theorem execQuicenLineAssert_ev (n : Fin 11) (levels : BitVec 11) (s : State) : ∃ u, (execQuicenLineAssert n levels s) = .next u ∧ Evolves s u := by
  refine ⟨_, rfl, ?_⟩
  repeat' first | (with_reducible first | exact Evolves.refl | assumption | apply State.quicenLine_ev | refine Evolves.ite ?_ fun _ => ?_ | intro _ | rfl) | exact rfl | assumption | split | dsimp only

theorem execSvcLinkChange_ev (x : Fin 2) (up : Bool) (speed : Fin 3) (s : State) : ∃ u, (execSvcLinkChange x up speed s) = .next u ∧ Evolves s u := by
  refine ⟨_, rfl, ?_⟩
  repeat' first | (with_reducible first | exact Evolves.refl | assumption | apply State.svcLink_ev | refine Evolves.ite ?_ fun _ => ?_ | intro _ | rfl) | exact rfl | assumption | split | dsimp only

theorem execSvcFrameReceived_ev (x : Fin 2) (f : List Byte) (fcsOk : Bool) (s : State) : ∃ u, (execSvcFrameReceived x f fcsOk s) = .next u ∧ Evolves s u := by
  refine ⟨_, rfl, ?_⟩
  repeat' first | (with_reducible first | exact Evolves.refl | assumption | apply State.svcRecv_ev | refine Evolves.ite ?_ fun _ => ?_ | intro _ | rfl) | exact rfl | assumption | split | dsimp only

theorem execSvcFrameSend_ev (x : Fin 2) (s : State) : ∃ u, (execSvcFrameSend x s) = .next u ∧ Evolves s u := by
  refine ⟨_, rfl, ?_⟩
  repeat' first | (with_reducible first | exact Evolves.refl | assumption | apply State.svcSend_ev | refine Evolves.ite ?_ fun _ => ?_ | intro _ | rfl) | exact rfl | assumption | split | dsimp only

theorem execTftpWriteRequest_ev (sd : Bool) (req : List Byte) (file : List Byte) (s : State) : ∃ u, (execTftpWriteRequest sd req file s) = .next u ∧ Evolves s u := by
  refine ⟨_, rfl, ?_⟩
  repeat' first | (with_reducible first | exact Evolves.refl | assumption | apply State.cobInstall_ev | apply State.cobTftp_ev | refine Evolves.ite ?_ fun _ => ?_ | intro _ | rfl) | exact rfl | assumption | split | dsimp only

theorem execCobblerRestart_ev (s : State) : ∃ u, (execCobblerRestart s) = .next u ∧ Evolves s u := by
  refine ⟨_, rfl, ?_⟩
  repeat' first | (with_reducible first | exact Evolves.refl | assumption | apply State.shutOff_ev | refine Evolves.ite ?_ fun _ => ?_ | intro _ | rfl) | exact rfl | assumption | split | dsimp only

theorem execLoad_ev (l : Fin 3) (p : Fin 4) (k : Fin 7) (gd : Fin 32) (gs1 : Fin 32) (imm : BitVec 16) (s : State) : ∃ u, (execLoad l p k gd gs1 imm s) = .next u ∧ Evolves s u := by
  refine ⟨_, rfl, ?_⟩
  repeat' first | (with_reducible first | exact Evolves.refl | assumption | apply State.unit_ev | apply State.loadOp_ev | refine Evolves.ite ?_ fun _ => ?_ | intro _ | rfl) | exact rfl | assumption | split | dsimp only

theorem execStore_ev (l : Fin 3) (p : Fin 4) (k : Fin 4) (gs2 : Fin 32) (gs1 : Fin 32) (imm : BitVec 16) (s : State) : ∃ u, (execStore l p k gs2 gs1 imm s) = .next u ∧ Evolves s u := by
  refine ⟨_, rfl, ?_⟩
  repeat' first | (with_reducible first | exact Evolves.refl | assumption | apply State.unit_ev | apply State.storeOp_ev | refine Evolves.ite ?_ fun _ => ?_ | intro _ | rfl) | exact rfl | assumption | split | dsimp only

theorem execFpLoadStore_ev (l : Fin 3) (p : Fin 4) (k : Fin 4) (vr : Fin 32) (gs1 : Fin 32) (imm : BitVec 16) (s : State) : ∃ u, (execFpLoadStore l p k vr gs1 imm s) = .next u ∧ Evolves s u := by
  refine ⟨_, rfl, ?_⟩
  repeat' first | (with_reducible first | exact Evolves.refl | assumption | apply State.unit_ev | apply State.loadOp_ev | apply State.storeOp_ev | refine Evolves.ite ?_ fun _ => ?_ | intro _ | rfl) | exact rfl | assumption | split | dsimp only

theorem execAtomic_ev (l : Fin 3) (p : Fin 4) (gd : Fin 32) (gs1 : Fin 32) (gs2 : Fin 32) (fn : BitVec 11) (s : State) : ∃ u, (execAtomic l p gd gs1 gs2 fn s) = .next u ∧ Evolves s u := by
  refine ⟨_, rfl, ?_⟩
  repeat' first | (with_reducible first | exact Evolves.refl | assumption | apply State.unit_ev | apply State.atomicOp_ev | refine Evolves.ite ?_ fun _ => ?_ | intro _ | rfl) | exact rfl | assumption | split | dsimp only

theorem execBcopy_ev (l : Fin 3) (p : Fin 4) (gd : Fin 32) (gs1 : Fin 32) (gs2 : Fin 32) (fnHi : BitVec 7) (s : State) : ∃ u, (execBcopy l p gd gs1 gs2 fnHi s) = .next u ∧ Evolves s u := by
  refine ⟨_, rfl, ?_⟩
  repeat' first | (with_reducible first | exact Evolves.refl | assumption | apply State.unit_ev | apply State.chunk_ev | apply State.chunkRead_ev | apply State.bcopyDone_ev | refine Evolves.ite ?_ fun _ => ?_ | intro _ | rfl) | exact rfl | assumption | split | dsimp only

theorem execBfill_ev (l : Fin 3) (p : Fin 4) (gd : Fin 32) (gs1 : Fin 32) (gs2 : Fin 32) (fnHi : BitVec 7) (s : State) : ∃ u, (execBfill l p gd gs1 gs2 fnHi s) = .next u ∧ Evolves s u := by
  refine ⟨_, rfl, ?_⟩
  repeat' first | (with_reducible first | exact Evolves.refl | assumption | apply State.unit_ev | apply State.chunk_ev | apply State.storeBytes_ev | apply State.updP_ev | refine Evolves.ite ?_ fun _ => ?_ | intro _ | rfl) | exact rfl | assumption | split | dsimp only

theorem execBcrc_ev (l : Fin 3) (p : Fin 4) (gd : Fin 32) (gs1 : Fin 32) (gs2 : Fin 32) (fnHi : BitVec 7) (s : State) : ∃ u, (execBcrc l p gd gs1 gs2 fnHi s) = .next u ∧ Evolves s u := by
  refine ⟨_, rfl, ?_⟩
  repeat' first | (with_reducible first | exact Evolves.refl | assumption | apply State.unit_ev | apply State.chunk_ev | apply State.chunkRead_ev | apply State.bcrcDone_ev | refine Evolves.ite ?_ fun _ => ?_ | intro _ | rfl) | exact rfl | assumption | split | dsimp only

theorem execCycleRunWrite_ev (a : Acc) (v : ℕ) (s : State) : ∃ u, (execCycleRunWrite a v s) = .next u ∧ Evolves s u := by
  refine ⟨_, rfl, ?_⟩
  repeat' first | (with_reducible first | exact Evolves.refl | assumption | apply State.writeAt_ev | apply State.cycRun_ev | refine Evolves.ite ?_ fun _ => ?_ | intro _ | rfl) | exact rfl | assumption | split | dsimp only

theorem execRegisterWrite_ev (a : Acc) (page : ℕ) (off : ℕ) (v : ℕ) (s : State) : ∃ u, (execRegisterWrite a page off v s) = .next u ∧ Evolves s u := by
  refine ⟨_, rfl, ?_⟩
  repeat' first | (with_reducible first | exact Evolves.refl | assumption | apply State.writeAt_ev | apply State.pageWrite_ev | refine Evolves.ite ?_ fun _ => ?_ | intro _ | rfl) | exact rfl | assumption | split | dsimp only

theorem execIntClrWrite_ev (a : Acc) (page : ℕ) (v : ℕ) (s : State) : ∃ u, (execIntClrWrite a page v s) = .next u ∧ Evolves s u := by
  refine ⟨_, rfl, ?_⟩
  repeat' first | (with_reducible first | exact Evolves.refl | assumption | apply State.writeAt_ev | apply State.clearInt_ev | refine Evolves.ite ?_ fun _ => ?_ | intro _ | rfl) | exact rfl | assumption | split | dsimp only

theorem execIntEnWrite_ev (a : Acc) (page : ℕ) (v : ℕ) (s : State) : ∃ u, (execIntEnWrite a page v s) = .next u ∧ Evolves s u := by
  refine ⟨_, rfl, ?_⟩
  repeat' first | (with_reducible first | exact Evolves.refl | assumption | apply State.writeAt_ev | apply State.intEnWrite_ev | refine Evolves.ite ?_ fun _ => ?_ | intro _ | rfl) | exact rfl | assumption | split | dsimp only

theorem execCourSoftWrite_ev (a : Acc) (v : ℕ) (s : State) : ∃ u, (execCourSoftWrite a v s) = .next u ∧ Evolves s u := by
  refine ⟨_, rfl, ?_⟩
  repeat' first | (with_reducible first | exact Evolves.refl | assumption | apply State.writeAt_ev | apply State.courSoft_ev | refine Evolves.ite ?_ fun _ => ?_ | intro _ | rfl) | exact rfl | assumption | split | dsimp only

theorem execWriteRecordArrival_ev (l : Fin 3) (r : Rec) (s : State) : ∃ u, (execWriteRecordArrival l r s) = .next u ∧ Evolves s u := by
  refine ⟨_, rfl, ?_⟩
  repeat' first | (with_reducible first | exact Evolves.refl | assumption | apply State.wArrive_ev | apply State.linkTake_ev | refine Evolves.ite ?_ fun _ => ?_ | intro _ | rfl) | exact rfl | assumption | split | dsimp only

theorem execReadRecordArrival_ev (l : Fin 3) (r : Rec) (s : State) : ∃ u, (execReadRecordArrival l r s) = .next u ∧ Evolves s u := by
  refine ⟨_, rfl, ?_⟩
  repeat' first | (with_reducible first | exact Evolves.refl | assumption | apply State.rArrive_ev | apply State.linkTake_ev | refine Evolves.ite ?_ fun _ => ?_ | intro _ | rfl) | exact rfl | assumption | split | dsimp only

theorem execReadCapture_ev (p : Fin 4) (seq : ℕ) (s : State) : ∃ u, (execReadCapture p seq s) = .next u ∧ Evolves s u := by
  refine ⟨_, rfl, ?_⟩
  repeat' first | (with_reducible first | exact Evolves.refl | assumption | apply State.captureTry_ev | refine Evolves.ite ?_ fun _ => ?_ | intro _ | rfl) | exact rfl | assumption | split | dsimp only

theorem execLinkFlitCrcError_ev (l : Fin 3) (r : Rec) (again : Bool) (s : State) : ∃ u, (execLinkFlitCrcError l r again s) = .next u ∧ Evolves s u := by
  refine ⟨_, rfl, ?_⟩
  repeat' first | (with_reducible first | exact Evolves.refl | assumption | apply State.divergeFree_ev | apply State.updL_ev | refine Evolves.ite ?_ fun _ => ?_ | intro _ | rfl) | exact rfl | assumption | split | dsimp only

theorem execCheckpointArrival_ev (l : Fin 3) (p : Fin 4) (c : Ckpt) (s : State) : ∃ u, (execCheckpointArrival l p c s) = .next u ∧ Evolves s u := by
  refine ⟨_, rfl, ?_⟩
  repeat' first | (with_reducible first | exact Evolves.refl | assumption | apply State.cArrive_ev | apply State.updL_ev | refine Evolves.ite ?_ fun _ => ?_ | intro _ | rfl) | exact rfl | assumption | split | dsimp only

theorem execStampLateFlit_ev (l : Fin 3) (p : Fin 4) (d : ℕ) (s : State) : ∃ u, (execStampLateFlit l p d s) = .next u ∧ Evolves s u := by
  refine ⟨_, rfl, ?_⟩
  repeat' first | (with_reducible first | exact Evolves.refl | assumption | apply State.recordX_ev | apply State.raiseInt_ev | apply State.count_ev | apply State.divergeFree_ev | apply State.draw_ev | apply State.rejoinFail_ev | refine Evolves.ite ?_ fun _ => ?_ | intro _ | rfl) | exact rfl | assumption | split | dsimp only

theorem execSkewLimitExpiry_ev (k : VoteKind) (p : Fin 4) (n : ℕ) (s : State) : ∃ u, (execSkewLimitExpiry k p n s) = .next u ∧ Evolves s u := by
  refine ⟨_, rfl, ?_⟩
  repeat' first | (with_reducible first | exact Evolves.refl | assumption | apply State.skewExpire_ev | refine Evolves.ite ?_ fun _ => ?_ | intro _ | rfl) | exact rfl | assumption | split | dsimp only

theorem execBufferEntryFreed_ev (k : VoteKind) (p : Fin 4) (n : ℕ) (s : State) : ∃ u, (execBufferEntryFreed k p n s) = .next u ∧ Evolves s u := by
  refine ⟨_, rfl, ?_⟩
  repeat' first | (with_reducible first | exact Evolves.refl | assumption | apply State.unhold_ev | apply State.entryFree_ev | refine Evolves.ite ?_ fun _ => ?_ | intro _ | rfl) | exact rfl | assumption | split | dsimp only

theorem execTenantCreditReturned_ev (t' : ℕ) (s : State) : ∃ u, (execTenantCreditReturned s' s) = .next u ∧ Evolves s u := by
  refine ⟨_, rfl, ?_⟩
  repeat' first | (with_reducible first | exact Evolves.refl | assumption | apply State.updMc_ev | apply State.flightShow_ev | apply State.releaseAll_ev | apply State.captureTry_ev | apply State.each_ev | refine Evolves.ite ?_ fun _ => ?_ | intro _ | rfl) | exact rfl | assumption | split | dsimp only

theorem execHubFaultDetected_ev (k : HubFault) (s : State) : ∃ u, (execHubFaultDetected k s) = .next u ∧ Evolves s u := by
  refine ⟨_, rfl, ?_⟩
  repeat' first | (with_reducible first | exact Evolves.refl | assumption | apply State.setPassive_ev | refine Evolves.ite ?_ fun _ => ?_ | intro _ | rfl) | exact rfl | assumption | split | dsimp only

theorem execHubClockDeviation_ev (fabric : Bool) (dev10ppm : ℕ) (s : State) : ∃ u, (execHubClockDeviation fabric dev10ppm s) = .next u ∧ Evolves s u := by
  refine ⟨_, rfl, ?_⟩
  repeat' first | (with_reducible first | exact Evolves.refl | assumption | apply State.on_ev | apply State.raiseTo_ev | apply State.once_ev | apply State.record_ev | apply State.setPassive_ev | refine Evolves.ite ?_ fun _ => ?_ | intro _ | rfl) | exact rfl | assumption | split | dsimp only

theorem execQmgrPop_ev (a : Acc) (bad : Bool) (s : State) : ∃ u, (execQmgrPop a bad s) = .next u ∧ Evolves s u := by
  refine ⟨_, rfl, ?_⟩
  repeat' first | (with_reducible first | exact Evolves.refl | assumption | apply State.readCmd_ev | refine Evolves.ite ?_ fun _ => ?_ | intro _ | rfl) | exact rfl | assumption | split | dsimp only

theorem execCmTimeRead_ev (a : Acc) (s : State) : ∃ u, (execCmTimeRead a s) = .next u ∧ Evolves s u := by
  refine ⟨_, rfl, ?_⟩
  repeat' first | (with_reducible first | exact Evolves.refl | assumption | apply State.readCmd_ev | refine Evolves.ite ?_ fun _ => ?_ | intro _ | rfl) | exact rfl | assumption | split | dsimp only

theorem execCmCntRead_ev (a : Acc) (s : State) : ∃ u, (execCmCntRead a s) = .next u ∧ Evolves s u := by
  refine ⟨_, rfl, ?_⟩
  repeat' first | (with_reducible first | exact Evolves.refl | assumption | apply State.readCmd_ev | refine Evolves.ite ?_ fun _ => ?_ | intro _ | rfl) | exact rfl | assumption | split | dsimp only

theorem execTsTxlastRead_ev (a : Acc) (x : Fin 6) (s : State) : ∃ u, (execTsTxlastRead a x s) = .next u ∧ Evolves s u := by
  refine ⟨_, rfl, ?_⟩
  repeat' first | (with_reducible first | exact Evolves.refl | assumption | apply State.readCmd_ev | refine Evolves.ite ?_ fun _ => ?_ | intro _ | rfl) | exact rfl | assumption | split | dsimp only

theorem execTsPcapRead_ev (a : Acc) (s : State) : ∃ u, (execTsPcapRead a s) = .next u ∧ Evolves s u := by
  refine ⟨_, rfl, ?_⟩
  repeat' first | (with_reducible first | exact Evolves.refl | assumption | apply State.readCmd_ev | refine Evolves.ite ?_ fun _ => ?_ | intro _ | rfl) | exact rfl | assumption | split | dsimp only

theorem execOdometerRead_ev (a : Acc) (n : Fin 8) (s : State) : ∃ u, (execOdometerRead a n s) = .next u ∧ Evolves s u := by
  refine ⟨_, rfl, ?_⟩
  repeat' first | (with_reducible first | exact Evolves.refl | assumption | apply State.readCmd_ev | refine Evolves.ite ?_ fun _ => ?_ | intro _ | rfl) | exact rfl | assumption | split | dsimp only

theorem execHdbgTRead_ev (a : Acc) (s : State) : ∃ u, (execHdbgTRead a s) = .next u ∧ Evolves s u := by
  refine ⟨_, rfl, ?_⟩
  repeat' first | (with_reducible first | exact Evolves.refl | assumption | apply State.readCmd_ev | refine Evolves.ite ?_ fun _ => ?_ | intro _ | rfl) | exact rfl | assumption | split | dsimp only

theorem execReadClearAccess_ev (a : Acc) (page : ℕ) (off : ℕ) (s : State) : ∃ u, (execReadClearAccess a page off s) = .next u ∧ Evolves s u := by
  refine ⟨_, rfl, ?_⟩
  repeat' first | (with_reducible first | exact Evolves.refl | assumption | apply State.readCmd_ev | refine Evolves.ite ?_ fun _ => ?_ | intro _ | rfl) | exact rfl | assumption | split | dsimp only

theorem execGuardStart_ev (cls : Fin 8) (s : State) : ∃ u, (execGuardStart cls s) = .next u ∧ Evolves s u := by
  refine ⟨_, rfl, ?_⟩
  repeat' first | (with_reducible first | exact Evolves.refl | assumption | apply State.guardStart_ev | refine Evolves.ite ?_ fun _ => ?_ | intro _ | rfl) | exact rfl | assumption | split | dsimp only

theorem execBaseBoundary_ev (s : State) : ∃ u, (execBaseBoundary s) = .next u ∧ Evolves s u := by
  refine ⟨_, rfl, ?_⟩
  repeat' first | (with_reducible first | exact Evolves.refl | assumption | apply State.baseBoundary_ev | refine Evolves.ite ?_ fun _ => ?_ | intro _ | rfl) | exact rfl | assumption | split | dsimp only

/-- Every command completes, and by a command's means only. -/
theorem exec_evolves (c : Instr) (s : State) : ∃ u, exec c s = .next u ∧ Evolves s u :=
  match c with
  | .aluRegisterOp x0 x1 x2 x3 x4 x5 x6 => execAluRegisterOp_ev x0 x1 x2 x3 x4 x5 x6 s
  | .immediateOp x0 x1 x2 x3 x4 x5 => execImmediateOp_ev x0 x1 x2 x3 x4 x5 s
  | .upperImmediate x0 x1 x2 x3 x4 x5 => execUpperImmediate_ev x0 x1 x2 x3 x4 x5 s
  | .load x0 x1 x2 x3 x4 x5 => execLoad_ev x0 x1 x2 x3 x4 x5 s
  | .store x0 x1 x2 x3 x4 x5 => execStore_ev x0 x1 x2 x3 x4 x5 s
  | .atomic x0 x1 x2 x3 x4 x5 => execAtomic_ev x0 x1 x2 x3 x4 x5 s
  | .branch x0 x1 x2 x3 x4 x5 => execBranch_ev x0 x1 x2 x3 x4 x5 s
  | .jump x0 x1 x2 => execJump_ev x0 x1 x2 s
  | .jal x0 x1 x2 => execJal_ev x0 x1 x2 s
  | .jalr x0 x1 x2 x3 x4 => execJalr_ev x0 x1 x2 x3 x4 s
  | .fpLoadStore x0 x1 x2 x3 x4 x5 => execFpLoadStore_ev x0 x1 x2 x3 x4 x5 s
  | .fpArithmetic x0 x1 x2 x3 x4 x5 => execFpArithmetic_ev x0 x1 x2 x3 x4 x5 s
  | .fpConvertCompareMove x0 x1 x2 x3 x4 x5 => execFpConvertCompareMove_ev x0 x1 x2 x3 x4 x5 s
  | .syscall x0 x1 x2 x3 => execSyscall_ev x0 x1 x2 x3 s
  | .mcall x0 x1 x2 x3 => execMcall_ev x0 x1 x2 x3 s
  | .brk x0 x1 x2 x3 => execBrk_ev x0 x1 x2 x3 s
  | .eret x0 x1 => execEret_ev x0 x1 s
  | .fence x0 x1 => execFence_ev x0 x1 s
  | .fenceI x0 x1 => execFenceI_ev x0 x1 s
  | .mfs x0 x1 x2 x3 => execMfs_ev x0 x1 x2 x3 s
  | .mts x0 x1 x2 x3 => execMts_ev x0 x1 x2 x3 s
  | .pairStart x0 x1 => execPairStart_ev x0 x1 s
  | .granuleTableWrite x0 x1 => execGranuleTableWrite_ev x0 x1 s
  | .bcopy x0 x1 x2 x3 x4 x5 => execBcopy_ev x0 x1 x2 x3 x4 x5 s
  | .bfill x0 x1 x2 x3 x4 x5 => execBfill_ev x0 x1 x2 x3 x4 x5 s
  | .bcrc x0 x1 x2 x3 x4 x5 => execBcrc_ev x0 x1 x2 x3 x4 x5 s
  | .pace x0 x1 x2 x3 x4 x5 => execPace_ev x0 x1 x2 x3 x4 x5 s
  | .paceComplete x0 x1 => execPaceComplete_ev x0 x1 s
  | .rdcnt x0 x1 x2 x3 x4 x5 => execRdcnt_ev x0 x1 x2 x3 x4 x5 s
  | .yield x0 x1 x2 x3 x4 x5 => execYield_ev x0 x1 x2 x3 x4 x5 s
  | .stampDue x0 x1 => execStampDue_ev x0 x1 s
  | .checkpointReport x0 x1 => execCheckpointReport_ev x0 x1 s
  | .laneReset x0 => execLaneReset_ev x0 s
  | .pairComparatorMismatch x0 x1 x2 => execPairComparatorMismatch_ev x0 x1 x2 s
  | .laneMemoryUncorrectable x0 x1 => execLaneMemoryUncorrectable_ev x0 x1 s
  | .flitWatchdogExpiry x0 => execFlitWatchdogExpiry_ev x0 s
  | .linkFlitCrcError x0 x1 x2 => execLinkFlitCrcError_ev x0 x1 x2 s
  | .writeRecordArrival x0 x1 => execWriteRecordArrival_ev x0 x1 s
  | .readRecordArrival x0 x1 => execReadRecordArrival_ev x0 x1 s
  | .readCapture x0 x1 => execReadCapture_ev x0 x1 s
  | .checkpointArrival x0 x1 x2 => execCheckpointArrival_ev x0 x1 x2 s
  | .skewLimitExpiry x0 x1 x2 => execSkewLimitExpiry_ev x0 x1 x2 s
  | .bufferEntryFreed x0 x1 x2 => execBufferEntryFreed_ev x0 x1 x2 s
  | .hubFaultDetected x0 => execHubFaultDetected_ev x0 s
  | .hubClockDeviation x0 x1 => execHubClockDeviation_ev x0 x1 s
  | .laneReady x0 x1 => execLaneReady_ev x0 x1 s
  | .readyDeadlineExpiry => execReadyDeadlineExpiry_ev s
  | .periodicTest x0 => execPeriodicTest_ev x0 s
  | .lmTestRunNow x0 x1 => execLmTestRunNow_ev x0 x1 s
  | .lmResetRejoin x0 x1 => execLmResetRejoin_ev x0 x1 s
  | .lmPowerDown x0 x1 => execLmPowerDown_ev x0 x1 s
  | .lmAbandonRejoin x0 x1 => execLmAbandonRejoin_ev x0 x1 s
  | .rejoinBootComplete x0 => execRejoinBootComplete_ev x0 s
  | .rejoinBootTimeout => execRejoinBootTimeout_ev s
  | .copyPassEnd x0 => execCopyPassEnd_ev x0 s
  | .holdPointReached x0 x1 => execHoldPointReached_ev x0 x1 s
  | .holdTimeout => execHoldTimeout_ev s
  | .admissionWindowEnd => execAdmissionWindowEnd_ev s
  | .confirmationTimeout => execConfirmationTimeout_ev s
  | .debugAttach x0 => execDebugAttach_ev x0 s
  | .debugDetach => execDebugDetach_ev s
  | .debugLinkLoss => execDebugLinkLoss_ev s
  | .detachBootEnd x0 => execDetachBootEnd_ev x0 s
  | .detachBootTimeout => execDetachBootTimeout_ev s
  | .dbgHalt x0 x1 => execDbgHalt_ev x0 x1 s
  | .dbgResume x0 x1 => execDbgResume_ev x0 x1 s
  | .dbgStep x0 x1 => execDbgStep_ev x0 x1 s
  | .dbgRegdataWrite x0 x1 x2 => execDbgRegdataWrite_ev x0 x1 x2 s
  | .breakpointHit x0 x1 => execBreakpointHit_ev x0 x1 s
  | .watchpointHit x0 x1 x2 x3 x4 => execWatchpointHit_ev x0 x1 x2 x3 x4 s
  | .courSoftWrite x0 x1 => execCourSoftWrite_ev x0 x1 s
  | .stampFormation x0 => execStampFormation_ev x0 s
  | .stampArrivalAtLane x0 x1 x2 => execStampArrivalAtLane_ev x0 x1 x2 s
  | .stampLateFlit x0 x1 x2 => execStampLateFlit_ev x0 x1 x2 s
  | .intClrWrite x0 x1 x2 => execIntClrWrite_ev x0 x1 x2 s
  | .intEnWrite x0 x1 x2 => execIntEnWrite_ev x0 x1 x2 s
  | .intcPendClear x0 x1 x2 x3 => execIntcPendClear_ev x0 x1 x2 x3 s
  | .intcEnWrite x0 x1 x2 x3 => execIntcEnWrite_ev x0 x1 x2 x3 s
  | .cntClrWrite x0 x1 x2 => execCntClrWrite_ev x0 x1 x2 s
  | .baseBoundary => execBaseBoundary_ev s
  | .guardStart x0 => execGuardStart_ev x0 s
  | .cycDoneWrite x0 x1 x2 => execCycDoneWrite_ev x0 x1 x2 s
  | .cycleRunWrite x0 x1 => execCycleRunWrite_ev x0 x1 s
  | .cycRestartWarm x0 => execCycRestartWarm_ev x0 s
  | .cycRestartCold x0 => execCycRestartCold_ev x0 s
  | .dataImageWrite x0 x1 x2 => execDataImageWrite_ev x0 x1 x2 s
  | .dimgLock x0 => execDimgLock_ev x0 s
  | .dimgPatchArm x0 => execDimgPatchArm_ev x0 s
  | .dimgPatchCancel x0 => execDimgPatchCancel_ev x0 s
  | .epochCommit x0 => execEpochCommit_ev x0 s
  | .epochDrained => execEpochDrained_ev s
  | .tenSoftWrite x0 x1 x2 => execTenSoftWrite_ev x0 x1 x2 s
  | .memctlFillStart x0 => execMemctlFillStart_ev x0 s
  | .fillComplete => execFillComplete_ev s
  | .bankReady x0 => execBankReady_ev x0 s
  | .hubSramScrub x0 => execHubSramScrub_ev x0 s
  | .qmgrQselWrite x0 x1 => execQmgrQselWrite_ev x0 x1 s
  | .qmgrQselTWrite x0 x1 => execQmgrQselTWrite_ev x0 x1 s
  | .qmgrPush x0 x1 => execQmgrPush_ev x0 x1 s
  | .qmgrPushLast x0 x1 x2 => execQmgrPushLast_ev x0 x1 x2 s
  | .heldPushComplete x0 => execHeldPushComplete_ev x0 s
  | .qmgrPop x0 x1 => execQmgrPop_ev x0 x1 s
  | .qmgrQclr x0 x1 => execQmgrQclr_ev x0 x1 s
  | .qmgrEnable x0 => execQmgrEnable_ev x0 s
  | .qmgrDisable x0 => execQmgrDisable_ev x0 s
  | .tallyGrant x0 x1 x2 x3 => execTallyGrant_ev x0 x1 x2 x3 s
  | .quotaPeriodEnd => execQuotaPeriodEnd_ev s
  | .fabricTagFreed x0 => execFabricTagFreed_ev x0 s
  | .tenantCreditReturned x0 => execTenantCreditReturned_ev x0 s
  | .portLinkLoss x0 => execPortLinkLoss_ev x0 s
  | .portTrainingComplete x0 x1 => execPortTrainingComplete_ev x0 x1 s
  | .consistFrameReceived x0 x1 x2 => execConsistFrameReceived_ev x0 x1 x2 s
  | .discardTableAgeOut x0 => execDiscardTableAgeOut_ev x0 s
  | .basicCycleStart => execBasicCycleStart_ev s
  | .matrixCycleStart => execMatrixCycleStart_ev s
  | .exclusiveFetch x0 => execExclusiveFetch_ev x0 s
  | .exclusiveWindowStart x0 => execExclusiveWindowStart_ev x0 s
  | .arbitratingWindow x0 => execArbitratingWindow_ev x0 s
  | .syncWindow x0 => execSyncWindow_ev x0 s
  | .receiveMissCheck x0 => execReceiveMissCheck_ev x0 s
  | .almValidate x0 => execAlmValidate_ev x0 s
  | .almSwitchArm x0 => execAlmSwitchArm_ev x0 s
  | .almSwitchCancel x0 => execAlmSwitchCancel_ev x0 s
  | .porterStrobe x0 => execPorterStrobe_ev x0 s
  | .porterWindowOpen x0 => execPorterWindowOpen_ev x0 s
  | .porterWindowClose x0 => execPorterWindowClose_ev x0 s
  | .porterUnsilence x0 x1 => execPorterUnsilence_ev x0 x1 s
  | .porterSwitchArm x0 => execPorterSwitchArm_ev x0 s
  | .cmTimeRead x0 => execCmTimeRead_ev x0 s
  | .cmCntRead x0 => execCmCntRead_ev x0 s
  | .slewEnd => execSlewEnd_ev s
  | .holdoverExpiry => execHoldoverExpiry_ev s
  | .delayResponseTimeout x0 x1 => execDelayResponseTimeout_ev x0 x1 s
  | .cmAccept x0 => execCmAccept_ev x0 s
  | .cmReject x0 => execCmReject_ev x0 s
  | .cmSet x0 => execCmSet_ev x0 s
  | .cmSyncCtlWrite x0 x1 => execCmSyncCtlWrite_ev x0 x1 s
  | .cmRateWrite x0 x1 => execCmRateWrite_ev x0 x1 s
  | .timePulseOutput => execTimePulseOutput_ev s
  | .timePulseCapture => execTimePulseCapture_ev s
  | .tsTxlastRead x0 x1 => execTsTxlastRead_ev x0 x1 s
  | .tsPcapRead x0 => execTsPcapRead_ev x0 s
  | .pollBasicPeriodStart x0 => execPollBasicPeriodStart_ev x0 s
  | .pollSlotStart x0 x1 x2 => execPollSlotStart_ev x0 x1 x2 s
  | .pollReplyTimeout x0 => execPollReplyTimeout_ev x0 s
  | .pollSlaveFrameReceived x0 x1 x2 => execPollSlaveFrameReceived_ev x0 x1 x2 s
  | .pollMasterFrameReceived x0 x1 x2 x3 x4 => execPollMasterFrameReceived_ev x0 x1 x2 x3 x4 s
  | .slaveSilenceTimeout x0 => execSlaveSilenceTimeout_ev x0 s
  | .pollValidate x0 x1 => execPollValidate_ev x0 x1 s
  | .pollSwitchArm x0 x1 => execPollSwitchArm_ev x0 x1 s
  | .pollSwitchCancel x0 x1 => execPollSwitchCancel_ev x0 x1 s
  | .pollResume x0 x1 => execPollResume_ev x0 x1 s
  | .pollUnsilence x0 x1 => execPollUnsilence_ev x0 x1 s
  | .pollCtlWrite x0 x1 x2 => execPollCtlWrite_ev x0 x1 x2 s
  | .canStart x0 x1 => execCanStart_ev x0 x1 s
  | .canStop x0 x1 => execCanStop_ev x0 x1 s
  | .canRecover x0 x1 => execCanRecover_ev x0 x1 s
  | .canRedetect x0 x1 => execCanRedetect_ev x0 x1 s
  | .canFrameReceived x0 x1 => execCanFrameReceived_ev x0 x1 s
  | .canStartOfFrame x0 x1 => execCanStartOfFrame_ev x0 x1 s
  | .canTxComplete x0 => execCanTxComplete_ev x0 s
  | .canArbitrationLost x0 => execCanArbitrationLost_ev x0 s
  | .canErrorDetected x0 x1 => execCanErrorDetected_ev x0 x1 s
  | .canBusoffRecovered x0 => execCanBusoffRecovered_ev x0 s
  | .canListenExit x0 => execCanListenExit_ev x0 s
  | .canWakePattern x0 x1 => execCanWakePattern_ev x0 x1 s
  | .fioRefreshSlot x0 x1 x2 x3 => execFioRefreshSlot_ev x0 x1 x2 x3 s
  | .fioUplinkReceived x0 x1 => execFioUplinkReceived_ev x0 x1 s
  | .fioUplinkTimeout x0 x1 => execFioUplinkTimeout_ev x0 x1 s
  | .islandMonostableExpiry x0 => execIslandMonostableExpiry_ev x0 s
  | .islandParityError x0 => execIslandParityError_ev x0 s
  | .outputCurrentLimitExpiry x0 x1 => execOutputCurrentLimitExpiry_ev x0 x1 s
  | .islandOvercurrentTrip x0 => execIslandOvercurrentTrip_ev x0 s
  | .fioLoadTimeout x0 => execFioLoadTimeout_ev x0 s
  | .fioStart x0 x1 x2 => execFioStart_ev x0 x1 x2 s
  | .fioStop x0 x1 => execFioStop_ev x0 x1 s
  | .fioReload x0 x1 x2 => execFioReload_ev x0 x1 x2 s
  | .fioClearFault x0 x1 => execFioClearFault_ev x0 x1 s
  | .fioInCfgWrite x0 x1 x2 x3 => execFioInCfgWrite_ev x0 x1 x2 x3 s
  | .fioOutCfgWrite x0 x1 x2 x3 => execFioOutCfgWrite_ev x0 x1 x2 x3 s
  | .diWakeChange x0 x1 x2 => execDiWakeChange_ev x0 x1 x2 s
  | .trackEdge x0 x1 x2 x3 => execTrackEdge_ev x0 x1 x2 x3 s
  | .trackFaultTimeout x0 x1 x2 x3 => execTrackFaultTimeout_ev x0 x1 x2 x3 s
  | .sensorSupplyFault x0 x1 x2 => execSensorSupplyFault_ev x0 x1 x2 s
  | .standstillTimeout x0 => execStandstillTimeout_ev x0 s
  | .speedInitTimeout x0 x1 => execSpeedInitTimeout_ev x0 x1 s
  | .frozenChannel x0 x1 => execFrozenChannel_ev x0 x1 s
  | .speedEvaluation => execSpeedEvaluation_ev s
  | .speedReadmit x0 x1 => execSpeedReadmit_ev x0 x1 s
  | .odometerZero x0 x1 => execOdometerZero_ev x0 x1 s
  | .odometerRead x0 x1 => execOdometerRead_ev x0 x1 s
  | .mwResetRelease => execMwResetRelease_ev s
  | .hubFrameSend => execHubFrameSend_ev s
  | .mwHubFrameReceived x0 => execMwHubFrameReceived_ev x0 s
  | .mwFrameTimeout x0 => execMwFrameTimeout_ev x0 s
  | .millwrightFrameReceived x0 => execMillwrightFrameReceived_ev x0 s
  | .hubHealthyLow => execHubHealthyLow_ev s
  | .mwEvaluationTick => execMwEvaluationTick_ev s
  | .mwTrackEdge x0 x1 x2 => execMwTrackEdge_ev x0 x1 x2 s
  | .mwStandstillEntry => execMwStandstillEntry_ev s
  | .mwRomCheck x0 => execMwRomCheck_ev x0 s
  | .mwDiSample x0 => execMwDiSample_ev x0 s
  | .mwDiPulseTimeout => execMwDiPulseTimeout_ev s
  | .mwCrossCheckTimeout x0 => execMwCrossCheckTimeout_ev x0 s
  | .safetyOutputSense x0 x1 x2 x3 => execSafetyOutputSense_ev x0 x1 x2 x3 s
  | .testPulseDue => execTestPulseDue_ev s
  | .testPulseEnd x0 => execTestPulseEnd_ev x0 s
  | .soTestRunNow x0 => execSoTestRunNow_ev x0 s
  | .switchSample x0 x1 => execSwitchSample_ev x0 x1 s
  | .switchMismatchTimeout => execSwitchMismatchTimeout_ev s
  | .safeWatchdogExpiry x0 => execSafeWatchdogExpiry_ev x0 s
  | .safeAutoRecovery x0 => execSafeAutoRecovery_ev x0 s
  | .smReset x0 x1 => execSmReset_ev x0 x1 s
  | .mirrorSegmentReceived x0 x1 => execMirrorSegmentReceived_ev x0 x1 s
  | .boundarySetApply => execBoundarySetApply_ev s
  | .helloSend => execHelloSend_ev s
  | .mirrorLinkTimeout x0 => execMirrorLinkTimeout_ev x0 s
  | .pairWaitExpiry => execPairWaitExpiry_ev s
  | .leaseExpiry => execLeaseExpiry_ev s
  | .mirAbdicate x0 => execMirAbdicate_ev x0 s
  | .mirRearm x0 => execMirRearm_ev x0 s
  | .mirTake x0 => execMirTake_ev x0 s
  | .mirRestartPass x0 => execMirRestartPass_ev x0 s
  | .ledgerRecordArrival x0 => execLedgerRecordArrival_ev x0 s
  | .lgSubGo x0 => execLgSubGo_ev x0 s
  | .ledgerFlushStart => execLedgerFlushStart_ev s
  | .ledgerFlushDone => execLedgerFlushDone_ev s
  | .ledgerFlushRetry => execLedgerFlushRetry_ev s
  | .lgFlush x0 => execLgFlush_ev x0 s
  | .operatingMillisecond => execOperatingMillisecond_ev s
  | .operatingSecond => execOperatingSecond_ev s
  | .quicenRepeatHoldExpiry => execQuicenRepeatHoldExpiry_ev s
  | .lgFreeze x0 => execLgFreeze_ev x0 s
  | .lgUnfreeze x0 => execLgUnfreeze_ev x0 s
  | .freezeMaxExpiry => execFreezeMaxExpiry_ev s
  | .lgFreezeMaxWrite x0 x1 => execLgFreezeMaxWrite_ev x0 x1 s
  | .lgCursorWrite x0 x1 => execLgCursorWrite_ev x0 x1 s
  | .lgNext x0 => execLgNext_ev x0 s
  | .lgPrev x0 => execLgPrev_ev x0 s
  | .lgNewest x0 => execLgNewest_ev x0 s
  | .lgOldest x0 => execLgOldest_ev x0 s
  | .ledgerWindowReady => execLedgerWindowReady_ev s
  | .lgRateEntryWrite x0 x1 x2 => execLgRateEntryWrite_ev x0 x1 x2 s
  | .lgRateDefWrite x0 x1 => execLgRateDefWrite_ev x0 x1 s
  | .ledgerHeadMount => execLedgerHeadMount_ev s
  | .stRead x0 => execStRead_ev x0 s
  | .stWrite x0 => execStWrite_ev x0 s
  | .stDiscard x0 => execStDiscard_ev x0 s
  | .storeCommandComplete x0 => execStoreCommandComplete_ev x0 s
  | .scrubBlock x0 x1 x2 x3 => execScrubBlock_ev x0 x1 x2 x3 s
  | .staticWearMove x0 => execStaticWearMove_ev x0 s
  | .nandDeviceFail x0 => execNandDeviceFail_ev x0 s
  | .nandMount x0 x1 => execNandMount_ev x0 x1 s
  | .sdCardDetect x0 => execSdCardDetect_ev x0 s
  | .sdInit x0 => execSdInit_ev x0 s
  | .sdRead x0 => execSdRead_ev x0 s
  | .sdReadEnd x0 => execSdReadEnd_ev x0 s
  | .sdPowerOff x0 => execSdPowerOff_ev x0 s
  | .supplyInterruption x0 => execSupplyInterruption_ev x0 s
  | .interruptionEnd x0 => execInterruptionEnd_ev x0 s
  | .powerFailDeclare x0 x1 => execPowerFailDeclare_ev x0 x1 s
  | .startFromOff x0 => execStartFromOff_ev x0 s
  | .pwrDoze x0 => execPwrDoze_ev x0 s
  | .pwrRun x0 => execPwrRun_ev x0 s
  | .pwrStable x0 => execPwrStable_ev x0 s
  | .dozeEntry => execDozeEntry_ev s
  | .wakeEvent x0 x1 => execWakeEvent_ev x0 x1 s
  | .wakeTimerExpiry x0 => execWakeTimerExpiry_ev x0 s
  | .clockStartOnDemand x0 x1 x2 => execClockStartOnDemand_ev x0 x1 x2 s
  | .thermalSample x0 x1 x2 x3 => execThermalSample_ev x0 x1 x2 x3 s
  | .thermalDwellExpiry => execThermalDwellExpiry_ev s
  | .thermalTrip x0 => execThermalTrip_ev x0 s
  | .lkOpenWindow x0 => execLkOpenWindow_ev x0 s
  | .lkCloseWindow x0 => execLkCloseWindow_ev x0 s
  | .serviceWindowEnd => execServiceWindowEnd_ev s
  | .lkReleaseTamper x0 => execLkReleaseTamper_ev x0 s
  | .lkLifecycleTransition x0 => execLkLifecycleTransition_ev x0 s
  | .lkSign x0 => execLkSign_ev x0 s
  | .lkPubkey x0 => execLkPubkey_ev x0 s
  | .lkMac x0 => execLkMac_ev x0 s
  | .lkVerify x0 => execLkVerify_ev x0 s
  | .lkRevoke x0 => execLkRevoke_ev x0 s
  | .locksmithOpComplete => execLocksmithOpComplete_ev s
  | .tamperEvent x0 x1 x2 => execTamperEvent_ev x0 x1 x2 s
  | .updVerify x0 => execUpdVerify_ev x0 s
  | .updBegin x0 => execUpdBegin_ev x0 s
  | .updEnd x0 => execUpdEnd_ev x0 s
  | .updAbort x0 => execUpdAbort_ev x0 s
  | .updActivate x0 x1 => execUpdActivate_ev x0 x1 s
  | .updConfirm x0 => execUpdConfirm_ev x0 s
  | .updBooted x0 => execUpdBooted_ev x0 s
  | .bootedTimeout => execBootedTimeout_ev s
  | .trialTimeout => execTrialTimeout_ev s
  | .tftpWriteRequest x0 x1 x2 => execTftpWriteRequest_ev x0 x1 x2 s
  | .cobblerRestart => execCobblerRestart_ev s
  | .bridgeRequestTake => execBridgeRequestTake_ev s
  | .bridgeBusCycleStart => execBridgeBusCycleStart_ev s
  | .bridgeDataPhaseEnd x0 x1 => execBridgeDataPhaseEnd_ev x0 x1 s
  | .bridgeDataPhaseTimeout => execBridgeDataPhaseTimeout_ev s
  | .bridgeCompletionWrite => execBridgeCompletionWrite_ev s
  | .bridgeScanInstant x0 => execBridgeScanInstant_ev x0 s
  | .brFlush x0 => execBrFlush_ev x0 s
  | .brReset x0 => execBrReset_ev x0 s
  | .qpResetAssert => execQpResetAssert_ev s
  | .qpResetRecoveryEnd => execQpResetRecoveryEnd_ev s
  | .quicenLineAssert x0 x1 => execQuicenLineAssert_ev x0 x1 s
  | .svcFrameReceived x0 x1 x2 => execSvcFrameReceived_ev x0 x1 x2 s
  | .svcFrameSend x0 => execSvcFrameSend_ev x0 s
  | .svcLinkChange x0 x1 x2 => execSvcLinkChange_ev x0 x1 x2 s
  | .hdbgTRead x0 => execHdbgTRead_ev x0 s
  | .readClearAccess x0 x1 x2 => execReadClearAccess_ev x0 x1 x2 s
  | .registerWrite x0 x1 x2 x3 => execRegisterWrite_ev x0 x1 x2 x3 s
  | .safetyOutputOverload x0 => execSafetyOutputOverload_ev x0 s
  | .holdupStoreExhausted => execHoldupStoreExhausted_ev s
  | .inputFluctuation x0 => execInputFluctuation_ev x0 s
  | .speedRegisterUpdate => execSpeedRegisterUpdate_ev s
  | .sdInitComplete x0 => execSdInitComplete_ev x0 s
  | .updateCommandComplete x0 => execUpdateCommandComplete_ev x0 s
  | .mirrorBlockLockLoss x0 => execMirrorBlockLockLoss_ev x0 s

end Sys2Proof.Machine
end

