-- ==== Sys2Proof/Laws/Forms.lean ====
section
/-! SUPPORT. Every memory operation keeps the one form of the memories, and every register operation that of the register file. -/

namespace Sys2Proof.Machine

variable {s : State}

theorem State.memWf_iff : s.memWf = true ↔
    Memory.wf s.hub = true ∧ Memory.wf s.flash = true ∧ Memory.wf s.lanes.a.mem = true ∧ Memory.wf s.lanes.b.mem = true ∧ Memory.wf s.lanes.c.mem = true := by
  simp only [State.memWf, Bool.and_eq_true, and_assoc]

theorem State.regsWf_iff : s.regsWf = true ↔ SMap.Rising s.regs := by simp only [State.regsWf, decide_eq_true_eq]

theorem State.memWf_hubWrite (o : Nat) (b : List Byte) (h : s.memWf = true) : (s.hubWrite o b).memWf = true := by
  rw [State.memWf_iff] at *
  exact ⟨Memory.wf_writeBytes h.1, h.2⟩

theorem State.memWf_hubCut (p : Nat × Byte → Bool) (h : s.memWf = true) : (s.hubCut p).memWf = true := by
  rw [State.memWf_iff] at *
  exact ⟨Memory.wf_filter h.1, h.2⟩

theorem State.memWf_hubFill (o n x : Nat) (h : s.memWf = true) : (s.hubFill o n x).memWf = true := by
  rw [State.memWf_iff] at *
  refine ⟨?_, h.2⟩
  have hp := Memory.wf_pattern (fun i => BitVec.ofNat 8 (x / 2 ^ (8 * ((o + i) % 8)))) o n
  unfold State.hubFill
  split
  · exact Memory.wf_splice h.1 (by decide) (fun e he => by cases he) (Nat.le_add_right o n)
  · exact Memory.wf_splice h.1 hp.1 hp.2 (Nat.le_add_right o n)

theorem State.memWf_flashPut (k : Nat) (b : List Byte) (h : s.memWf = true) : (s.flashPut k b).memWf = true := by
  rw [State.memWf_iff] at *
  exact ⟨h.1, Memory.wf_writeBytes h.2.1, h.2.2⟩

theorem State.memWf_flashCut (p : Nat × Byte → Bool) (h : s.memWf = true) : (s.flashCut p).memWf = true := by
  rw [State.memWf_iff] at *
  exact ⟨h.1, Memory.wf_filter h.2.1, h.2.2⟩

/-- A lane memory changed by something that keeps the form. -/
theorem State.memWf_updL (l : Fin 3) (f : LaneS → LaneS) (hf : ∀ n, Memory.wf n.mem = true → Memory.wf (f n).mem = true) (h : s.memWf = true) :
    (s.updL l f).memWf = true := by
  rw [State.memWf_iff] at *
  obtain ⟨h1, h2, h3, h4, h5⟩ := h
  match l with
  | 0 => exact ⟨h1, h2, hf _ h3, h4, h5⟩
  | 1 => exact ⟨h1, h2, h3, hf _ h4, h5⟩
  | 2 => exact ⟨h1, h2, h3, h4, hf _ h5⟩

theorem State.regsWf_set (f : Fld) (v : Nat) (h : s.regsWf = true) : (s.set f v).regsWf = true := by
  rw [State.regsWf_iff] at *
  exact SMap.rising_put h

end Sys2Proof.Machine
end

