-- ==== Sys2Proof/Laws/Pairs.lean ====
section
/-! SUPPORT. A core pair: what writing a register, retiring a unit, folding a record and entering an exception change. -/

namespace Sys2Proof.Machine

/-- Folding a contribution record changes the digest only. -/
@[simp] theorem PairS.fold_parts (q : PairS) (k m a v : Nat) :
    (q.fold k m a v).g = q.g ∧ (q.fold k m a v).v = q.v ∧ (q.fold k m a v).pc = q.pc ∧ (q.fold k m a v).sr = q.sr ∧ (q.fold k m a v).cnt = q.cnt ∧
    (q.fold k m a v).stepping = q.stepping ∧ (q.fold k m a v).inBlk = q.inBlk ∧ (q.fold k m a v).wait = q.wait ∧
    (∀ i, (q.fold k m a v).rg i = q.rg i) ∧ (∀ i, (q.fold k m a v).rv i = q.rv i) ∧ (∀ n, (q.fold k m a v).rs n = q.rs n) ∧
    (∀ n, (q.fold k m a v).cev n = q.cev n) := by
  and_intros <;> intros <;> simp only [PairS.rg, PairS.rv, PairS.rs, PairS.cev, PairS.fold]

theorem PairS.wg_rg_same (q : PairS) {i : Fin 32} (v : Word64) (h : i ≠ 0) : (q.wg i v).rg i = v := by
  unfold PairS.wg
  rw [if_neg h, (PairS.fold_parts _ _ _ _ _).2.2.2.2.2.2.2.2.1]
  unfold PairS.rg
  rw [if_neg h]
  exact SMap.get_put_same _ _ _ _

/-- g0 reads 0 and discards writes (02 R41). -/
@[simp] theorem PairS.wg_zero (q : PairS) (v : Word64) : q.wg 0 v = q := rfl

@[simp] theorem PairS.rg_zero (q : PairS) : q.rg 0 = 0 := rfl

theorem PairS.wg_rg_ne (q : PairS) {i j : Fin 32} (v : Word64) (h : j ≠ i) : (q.wg i v).rg j = q.rg j := by
  unfold PairS.wg
  split
  · rfl
  · rw [(PairS.fold_parts _ _ _ _ _).2.2.2.2.2.2.2.2.1]
    unfold PairS.rg
    split
    · rfl
    · exact SMap.get_put_ne (fun e => h (Fin.ext e))

@[simp] theorem PairS.wg_parts (q : PairS) (i : Fin 32) (v : Word64) :
    (q.wg i v).v = q.v ∧ (q.wg i v).pc = q.pc ∧ (q.wg i v).sr = q.sr ∧ (q.wg i v).cnt = q.cnt ∧ (q.wg i v).stepping = q.stepping ∧
    (∀ n, (q.wg i v).rs n = q.rs n) ∧ (∀ n, (q.wg i v).rv n = q.rv n) ∧ ∀ n, (q.wg i v).cev n = q.cev n := by
  unfold PairS.wg
  split <;> and_intros <;> intros <;> rfl

theorem PairS.wv_rv_same (q : PairS) (i : Fin 32) (v : Word64) : (q.wv i v).rv i = v := SMap.get_put_same _ _ _ _

theorem PairS.wv_rv_ne (q : PairS) {i j : Fin 32} (v : Word64) (h : j ≠ i) : (q.wv i v).rv j = q.rv j :=
  SMap.get_put_ne (fun e => h (Fin.ext e))

@[simp] theorem PairS.wv_parts (q : PairS) (i : Fin 32) (v : Word64) :
    (q.wv i v).g = q.g ∧ (q.wv i v).pc = q.pc ∧ (q.wv i v).sr = q.sr ∧ (q.wv i v).cnt = q.cnt ∧
    (∀ n, (q.wv i v).rg n = q.rg n) ∧ (∀ n, (q.wv i v).rs n = q.rs n) ∧ ∀ n, (q.wv i v).cev n = q.cev n := by
  and_intros <;> intros <;> rfl

@[simp] theorem PairS.next_parts (q : PairS) :
    q.next.pc = q.pc + 4 ∧ (∀ i, q.next.rg i = q.rg i) ∧ (∀ i, q.next.rv i = q.rv i) ∧ (∀ n, q.next.rs n = q.rs n) ∧
    (∀ n, q.next.cev n = q.cev n) ∧ q.next.digest = q.digest ∧ q.next.g = q.g ∧ q.next.v = q.v ∧ q.next.sr = q.sr := by
  and_intros <;> intros <;> rfl

@[simp] theorem PairS.bump_parts (q : PairS) (n : Nat) :
    (q.bump n).pc = q.pc ∧ (∀ i, (q.bump n).rg i = q.rg i) ∧ (∀ i, (q.bump n).rv i = q.rv i) ∧ (∀ k, (q.bump n).rs k = q.rs k) ∧
    (q.bump n).digest = q.digest ∧ (q.bump n).g = q.g ∧ (q.bump n).v = q.v ∧ (q.bump n).sr = q.sr := by
  and_intros <;> intros <;> rfl

theorem PairS.bump_cev_same (q : PairS) (n : Nat) : (q.bump n).cev n = q.cev n + 1 := by
  simp only [PairS.bump, PairS.cev, SMap.get_put_same]

theorem PairS.bump_cev_ne (q : PairS) {n k : Nat} (h : k ≠ n) : (q.bump n).cev k = q.cev k := by
  simp only [PairS.bump, PairS.cev]
  exact SMap.get_put_ne h

/-- A unit's retirement leaves registers, pc and digest alone (02 R75, 03 R90). -/
@[simp] theorem PairS.retire_parts (q : PairS) :
    q.retire.pc = q.pc ∧ q.retire.g = q.g ∧ q.retire.v = q.v ∧ q.retire.sr = q.sr ∧ q.retire.digest = q.digest ∧
    (∀ i, q.retire.rg i = q.rg i) ∧ (∀ i, q.retire.rv i = q.rv i) ∧ ∀ n, q.retire.rs n = q.rs n := by
  unfold PairS.retire
  dsimp only
  generalize ({ q.bump 0 with inBlk := false } : PairS).cev 0 % 256 = m
  by_cases h : m = 0 <;> by_cases g : q.stepping = true <;> simp only [h, if_true, if_false] <;> split <;> and_intros <;> intros <;> rfl

theorem PairS.retire_cnt (q : PairS) : q.retire.cnt = (q.bump 0).cnt := by
  unfold PairS.retire
  dsimp only
  generalize ({ q.bump 0 with inBlk := false } : PairS).cev 0 % 256 = m
  by_cases h : m = 0 <;> simp only [h, if_true, if_false] <;> split <;> rfl

/-- The retired unit count advances by one; the other event counters keep their values. -/
theorem PairS.retire_cev (q : PairS) (n : Nat) : q.retire.cev n = if n = 0 then q.cev 0 + 1 else q.cev n := by
  have h : q.retire.cev n = (q.bump 0).cev n := by unfold PairS.cev; rw [PairS.retire_cnt]
  rw [h]
  split
  · rename_i h; subst h; exact q.bump_cev_same 0
  · rename_i h; exact q.bump_cev_ne h

theorem PairS.ws_rs_same (q : PairS) (n : Nat) (v : Word64) : (q.ws n v).rs n = v := SMap.get_put_same _ _ _ _

theorem PairS.ws_rs_ne (q : PairS) {n k : Nat} (v : Word64) (h : k ≠ n) : (q.ws n v).rs k = q.rs k := SMap.get_put_ne h

@[simp] theorem PairS.ws_parts (q : PairS) (n : Nat) (v : Word64) :
    (q.ws n v).pc = q.pc ∧ (q.ws n v).g = q.g ∧ (q.ws n v).v = q.v ∧ (q.ws n v).cnt = q.cnt ∧ (q.ws n v).digest = q.digest ∧
    (∀ i, (q.ws n v).rg i = q.rg i) ∧ ∀ i, (q.ws n v).rv i = q.rv i := by
  and_intros <;> intros <;> rfl

theorem PairS.wsd_rs (q : PairS) (n k : Nat) (v : Word64) : (q.wsd n v).rs k = if k = n then v else q.rs k := by
  unfold PairS.wsd
  rw [(PairS.fold_parts _ _ _ _ _).2.2.2.2.2.2.2.2.2.2.1]
  split
  · rename_i h; subst h; exact q.ws_rs_same k v
  · rename_i h; exact q.ws_rs_ne v h

@[simp] theorem PairS.wsd_parts (q : PairS) (n : Nat) (v : Word64) :
    (q.wsd n v).pc = q.pc ∧ (q.wsd n v).g = q.g ∧ (q.wsd n v).v = q.v ∧ (q.wsd n v).cnt = q.cnt ∧
    (∀ i, (q.wsd n v).rg i = q.rg i) ∧ ∀ i, (q.wsd n v).rv i = q.rv i := by
  and_intros <;> intros <;> rfl

/-- The system registers after entry to the runtime (02 R46). -/
theorem PairS.enter_rs_runtime (q : PairS) (code info addr : Nat) (ret : Word64) (blk : Bool) (k : Nat) :
    (q.enter false code info addr ret blk).rs k =
      if k = 0 then BitVec.ofNat 64 (entryStatus (q.rs 0).toNat false) else if k = 3 then BitVec.ofNat 64 addr
      else if k = 2 then BitVec.ofNat 64 (causeWord code info blk) else if k = 1 then ret else q.rs k := by
  show ((((q.wsd 1 ret).wsd 2 (BitVec.ofNat 64 (causeWord code info blk))).wsd 3 (BitVec.ofNat 64 addr)).wsd 0
    (BitVec.ofNat 64 (entryStatus (q.rs 0).toNat false))).rs k = _
  rw [PairS.wsd_rs, PairS.wsd_rs, PairS.wsd_rs, PairS.wsd_rs]

/-- The system registers after entry to the monitor. -/
theorem PairS.enter_rs_monitor (q : PairS) (code info addr : Nat) (ret : Word64) (blk : Bool) (k : Nat) :
    (q.enter true code info addr ret blk).rs k =
      if k = 0 then BitVec.ofNat 64 (entryStatus (q.rs 0).toNat true) else if k = 0x102 then BitVec.ofNat 64 addr
      else if k = 0x101 then BitVec.ofNat 64 (causeWord code info blk) else if k = 0x100 then ret else q.rs k := by
  show ((((q.wsd 0x100 ret).wsd 0x101 (BitVec.ofNat 64 (causeWord code info blk))).wsd 0x102 (BitVec.ofNat 64 addr)).wsd 0
    (BitVec.ofNat 64 (entryStatus (q.rs 0).toNat true))).rs k = _
  rw [PairS.wsd_rs, PairS.wsd_rs, PairS.wsd_rs, PairS.wsd_rs]

theorem PairS.enter_pc (q : PairS) (code info addr : Nat) (ret : Word64) (blk : Bool) :
    (q.enter false code info addr ret blk).pc = q.rs 0x004 + BitVec.ofNat 64 (code * 0x40) ∧
    (q.enter true code info addr ret blk).pc = q.rs 0x103 + BitVec.ofNat 64 (code * 0x40) := by
  constructor
  · show ((((q.wsd 1 ret).wsd 2 (BitVec.ofNat 64 (causeWord code info blk))).wsd 3 (BitVec.ofNat 64 addr)).wsd 0
      (BitVec.ofNat 64 (entryStatus (q.rs 0).toNat false))).rs 4 + _ = _
    rw [PairS.wsd_rs, PairS.wsd_rs, PairS.wsd_rs, PairS.wsd_rs]
    rfl
  · show ((((q.wsd 0x100 ret).wsd 0x101 (BitVec.ofNat 64 (causeWord code info blk))).wsd 0x102 (BitVec.ofNat 64 addr)).wsd 0
      (BitVec.ofNat 64 (entryStatus (q.rs 0).toNat true))).rs 0x103 + _ = _
    rw [PairS.wsd_rs, PairS.wsd_rs, PairS.wsd_rs, PairS.wsd_rs]
    rfl

theorem PairS.enter_regs (q : PairS) (mon : Bool) (code info addr : Nat) (ret : Word64) (blk : Bool) (i : Fin 32) :
    (q.enter mon code info addr ret blk).rg i = q.rg i ∧ (q.enter mon code info addr ret blk).rv i = q.rv i := by
  have h1 : (q.enter mon code info addr ret blk).g = q.g := by cases mon <;> simp [PairS.enter]
  have h2 : (q.enter mon code info addr ret blk).v = q.v := by cases mon <;> simp [PairS.enter]
  exact ⟨by unfold PairS.rg; rw [h1], by unfold PairS.rv; rw [h2]⟩

theorem entryStatus_lt (v : Nat) (mon : Bool) (h : v < 2 ^ 64) : entryStatus v mon < 2 ^ 64 := by
  unfold entryStatus
  cases mon <;>
    exact putBits_lt (putBits_lt (putBits_lt (putBits_lt (putBits_lt h (by decide)) (by decide)) (by decide)) (by decide)) (by decide)

/-- A change of one pair leaves the rest of the module alone. -/
theorem State.updP_const (s : State) (l : Fin 3) (p : Fin 4) (f : PairS → PairS) : s.updP l p f = s.updP l p fun _ => f (s.pr l p) := by
  have := State.updP_updP s l p (fun _ => s.pr l p) f
  rw [State.updP_self] at this
  exact this

end Sys2Proof.Machine
end

