-- ==== Sys2Proof/Laws/LaneMem.lean ====
section
/-! SUPPORT. Units that end in an exception, lane memory under loads and stores, and the chunks of block instructions. -/

namespace Sys2Proof.Machine

theorem State.unit_fpOff {s : State} {l : Fin 3} {p : Fin 4} {body : State → State} (h : s.runs l p) (hf : ¬ (s.pr l p).fpOn) :
    s.unit l p false false true body = s.precise l p 0x0C 0 0 false := by
  obtain ⟨h1, h2, h3⟩ := h
  unfold State.unit
  simp only [h1, Bool.not_true, Bool.false_eq_true, if_false, h2, State.updP_self]
  have hx : (if s.laneState l = lBoot then none else s.rangeFault l p .fetch (s.pr l p).pc.toNat 4) = none := by
    split
    · rfl
    · rename_i hb; exact h3.resolve_left hb
  rw [hx]
  unfold PairS.fpOn at hf
  push Not at hf
  simp [hf.1, hf.2]

theorem State.unit_illegal {s : State} {l : Fin 3} {p : Fin 4} {priv fp} {body : State → State} (h : s.runs l p) :
    s.unit l p true priv fp body = s.precise l p 0x02 0 0 false := by
  obtain ⟨h1, h2, h3⟩ := h
  unfold State.unit
  simp only [h1, Bool.not_true, Bool.false_eq_true, if_false, h2, State.updP_self]
  have hx : (if s.laneState l = lBoot then none else s.rangeFault l p .fetch (s.pr l p).pc.toNat 4) = none := by
    split
    · rfl
    · rename_i hb; exact h3.resolve_left hb
  rw [hx]
  simp

theorem State.unit_priv {s : State} {l : Fin 3} {p : Fin 4} {fp} {body : State → State} (h : s.runs l p) :
    s.unit l p false true fp body = s.precise l p 0x03 0 0 false := by
  obtain ⟨h1, h2, h3⟩ := h
  unfold State.unit
  simp only [h1, Bool.not_true, Bool.false_eq_true, if_false, h2, State.updP_self]
  have hx : (if s.laneState l = lBoot then none else s.rangeFault l p .fetch (s.pr l p).pc.toNat 4) = none := by
    split
    · rfl
    · rename_i hb; exact h3.resolve_left hb
  rw [hx]
  simp

theorem State.precise_done (s : State) (l p c i a) (h : if (s.pr l p).toMonitor c = true then (s.pr l p).st 5 = false else (s.pr l p).st 4 = false) :
   s.precise l p c i a true = s.updP l p fun _ => ((s.pr l p).retire.enter ((s.pr l p).toMonitor c) c i a ((s.pr l p).pc + 4) (s.pr l p).inBlk).bump 4 := by
  unfold State.precise; dsimp only
  split at h <;> rename_i hm <;> simp only [hm, h, Bool.false_eq_true, if_true, if_false] <;> rw [State.updP_const]

theorem State.precise_undone (s : State) (l p c i a) (h : if (s.pr l p).toMonitor c = true then (s.pr l p).st 5 = false else (s.pr l p).st 4 = false) :
   s.precise l p c i a false = s.updP l p fun _ => ((s.pr l p).enter ((s.pr l p).toMonitor c) c i a ((s.pr l p).pc) (s.pr l p).inBlk).bump 4 := by
  unfold State.precise; dsimp only
  split at h <;> rename_i hm <;> simp only [hm, h, Bool.false_eq_true, if_true, if_false] <;> rw [State.updP_const]

theorem PairS.toMonitor_mcall (q : PairS) : q.toMonitor 9 = true := by unfold PairS.toMonitor; simp

theorem PairS.bump_same (q : PairS) (n) : (q.bump n).toMonitor = q.toMonitor ∧ (q.bump n).st = q.st ∧ (q.bump n).pc = q.pc ∧ (q.bump n).inBlk = q.inBlk := ⟨rfl, rfl, rfl, rfl⟩

theorem leBytes_length (n v) : (leBytes n v).length = n := by induction n generalizing v with
  | zero => rfl
  | succ n ih => simp [leBytes, ih]

theorem State.laneWrite_mem (s : State) (l p a b) : ((s.laneWrite l p a b).ln l).mem = (b.zipIdx).foldl (fun m x => SMap.put m (memKey p (a + x.2)) 0 x.1) (s.ln l).mem := by
  unfold State.laneWrite; rw [State.ln_updL]
  suffices H : ∀ (b : List Byte) (n : LaneS) (k : Nat), (b.foldl (fun (x : LaneS × Nat) y => (x.1.wb (memKey p x.2) y, x.2 + 1)) (n, a + k)).1.mem = (b.zipIdx k).foldl (fun m x => SMap.put m (memKey p (a + x.2)) 0 x.1) n.mem from H b _ 0
  intro b; induction b with
  | nil => intros; rfl
  | cons y r ih => intro n k; exact ih _ (k+1)

theorem memKey_inj (p : Fin 4) (a i j : Nat) (h : memKey p (a+i) = memKey p (a+j)) (hi : i < 64) (hj : j < 64) : i = j := by
  unfold memKey at h; have := p.isLt; split at h <;> split at h <;> omega

theorem puts_frame (p : Fin 4) (a : Nat) (x) : ∀ (b : List (Byte × Nat)) (m : SMap Byte), (∀ e ∈ b, x ≠ memKey p (a + e.2)) →
   SMap.get (b.foldl (fun m x => SMap.put m (memKey p (a + x.2)) 0 x.1) m) x 0 = SMap.get m x 0 := by
  intro b; induction b with
  | nil => intros; rfl
  | cons e r ih => intro m h; rw [List.foldl_cons, ih _ (fun e he => h e (List.mem_cons_of_mem _ he)), SMap.get_put_ne (h e List.mem_cons_self)]

theorem puts_read (p : Fin 4) (a : Nat) : ∀ (b : List Byte) (k i : Nat) (m : SMap Byte) (h : i < b.length), k + b.length ≤ 64 →
   SMap.get ((b.zipIdx k).foldl (fun m x => SMap.put m (memKey p (a + x.2)) 0 x.1) m) (memKey p (a + (k + i))) 0 = b[i] := by
  intro b; induction b with
  | nil => intro k i m h; cases h
  | cons y r ih =>
    intro k i m h hk
    simp only [List.length_cons] at h hk
    rw [List.zipIdx_cons, List.foldl_cons]
    cases i with
    | zero =>
      rw [puts_frame]
      · exact SMap.get_put_same _ _ _ _
      · intro e he hx
        have := List.mem_zipIdx he
        have := memKey_inj p a _ _ hx (by omega) (by omega)
        omega
    | succ i =>
      have := ih (k+1) i (SMap.put m (memKey p (a + k)) 0 y) (by omega) (by omega)
      rw [show k + (i+1) = k + 1 + i by omega]; exact this

theorem State.laneRead_laneWrite (s : State) (l p a b) (h : b.length ≤ 64) : (s.laneWrite l p a b).laneRead l p a b.length = b := by
  unfold State.laneRead; rw [State.laneWrite_mem]
  apply List.ext_getElem
  · simp
  · intro i h1 h2
    simp only [List.getElem_map, List.getElem_range]
    have := puts_read p a b 0 i (s.ln l).mem h2 (by omega)
    simpa using this

theorem State.laneWrite_frame (s : State) (l p a b x) (h : ∀ i < b.length, x ≠ memKey p (a + i)) : SMap.get ((s.laneWrite l p a b).ln l).mem x 0 = SMap.get (s.ln l).mem x 0 := by
  rw [State.laneWrite_mem]; apply puts_frame; intro e he
  have := List.mem_zipIdx he
  exact h _ (by omega)

theorem State.laneRead_updP (s : State) (l p f a n m) : (s.updP l p f).laneRead l m a n = s.laneRead l m a n := by
  unfold State.laneRead State.updP; rw [State.ln_updL]

theorem State.mem_updP (s : State) (l p f) : ((s.updP l p f).ln l).mem = (s.ln l).mem := by unfold State.updP; rw [State.ln_updL]

theorem State.pr_laneWrite (s : State) (l p a b m r) : (s.laneWrite l p a b).pr m r = s.pr m r := by
  unfold State.pr State.laneWrite
  by_cases e : m = l
  · subst e; rw [State.ln_updL]
    suffices H : ∀ (b : List Byte) (n : LaneS) (k : Nat), (b.foldl (fun (x : LaneS × Nat) y => (x.1.wb (memKey p x.2) y, x.2 + 1)) (n, k)).1.pairs = n.pairs by rw [H]
    intro b; induction b with
    | nil => intros; rfl
    | cons y r ih => intro n k; exact ih _ _
  · rw [State.ln_updL_ne e]

theorem Region.isMem_only (s : State) (a) (h : (s.region a).isMem = true) : (s.region a).isDev = false ∧ (s.region a).isHub = false := by
  cases hr : s.region a <;> simp_all [Region.isMem, Region.isDev, Region.isHub]

theorem State.storeOp_eq (s : State) (l p n v gs1 imm) (h : s.accFault l p false true false ((s.pr l p).ea gs1 imm) n = none) (hm : (s.region ((s.pr l p).ea gs1 imm)).isMem = true) :
   s.storeOp l p n v gs1 imm = ((s.updP l p fun q => (q.bump 2).foldStore 0x10 ((s.pr l p).ea gs1 imm) (leBytes n v.toNat)).laneWrite l p ((s.pr l p).ea gs1 imm) (leBytes n v.toNat)).updP l p fun q => q.next.retire := by
  unfold State.storeOp State.access; simp only [h]; unfold State.storeBytes
  have := Region.isMem_only s _ hm
  have e : ∀ f, (s.updP l p f).region = s.region := fun f => rfl
  simp only [e, this.1, this.2, Bool.false_eq_true, if_false, State.updP_updP]

theorem State.storeOp_memory (s : State) (l p n v gs1 imm) (hn : n ≤ 8) (h : s.accFault l p false true false ((s.pr l p).ea gs1 imm) n = none) (hm : (s.region ((s.pr l p).ea gs1 imm)).isMem = true) :
   let a := (s.pr l p).ea gs1 imm; let t := s.storeOp l p n v gs1 imm
   t.pr l p = ((((s.pr l p).bump 2).foldStore 0x10 a (leBytes n v.toNat)).next).retire ∧ t.laneRead l p a n = leBytes n v.toNat ∧ s.keepsBut t [] ∧ t.hub = s.hub ∧ (∀ m, m ≠ l → t.ln m = s.ln m) ∧
      ∀ x, (∀ i < n, x ≠ memKey p (a + i)) → SMap.get (t.ln l).mem x 0 = SMap.get (s.ln l).mem x 0 := by
  intro a t
  have ht := State.storeOp_eq s l p n v gs1 imm h hm
  refine ⟨?_, ?_, ?_, ?_, ?_, ?_⟩
  · show (s.storeOp l p n v gs1 imm).pr l p = _
    rw [ht, State.pr_updP, State.pr_laneWrite, State.pr_updP]
  · show (s.storeOp l p n v gs1 imm).laneRead l p a n = _
    rw [ht, State.laneRead_updP]
    have := State.laneRead_laneWrite (s.updP l p fun q => (q.bump 2).foldStore 0x10 a (leBytes n v.toNat)) l p a (leBytes n v.toNat) (by rw [leBytes_length]; omega)
    rw [leBytes_length] at this; exact this
  · show s.keepsBut (s.storeOp l p n v gs1 imm) []
    rw [ht]; exact ⟨rfl, fun _ _ => rfl⟩
  · show (s.storeOp l p n v gs1 imm).hub = s.hub
    rw [ht]; rfl
  · intro m hmn; show (s.storeOp l p n v gs1 imm).ln m = _
    rw [ht]; unfold State.updP State.laneWrite; rw [State.ln_updL_ne hmn, State.ln_updL_ne hmn, State.ln_updL_ne hmn]
  · intro x hx; show SMap.get ((s.storeOp l p n v gs1 imm).ln l).mem x 0 = _
    rw [ht, State.mem_updP, State.laneWrite_frame, State.mem_updP]
    rw [leBytes_length]; exact hx

theorem State.chunk_body {s : State} {l p gs2 src dst n} {f : State → Nat → State} (hn : min 64 ((s.pr l p).rg gs2).toNat = n) (h0 : 0 < n) (hf : s.chunkFault l p src dst n = none) :
   s.chunk l p gs2 src dst f = f s n := by
  unfold State.chunk; simp only [hn, Nat.ne_of_gt h0, if_false, hf]

theorem State.storeBytes_memory {s : State} {l p a b} (h : (s.region a).isMem = true) :
   s.storeBytes l p a b = (s.updP l p fun q => q.foldStore 0x10 a b).laneWrite l p a b := by
  unfold State.storeBytes; have := Region.isMem_only s a h
  simp only [this.1, this.2, Bool.false_eq_true, if_false]

theorem bcrc_selector : ∀ sel : Fin 4, (BitVec.ofNat 7 sel.val).toNat = sel.val := by decide

theorem PairS.foldStore_rg (q : PairS) (k a l i) : (q.foldStore k a l).rg i = q.rg i := by
  unfold PairS.foldStore
  split
  · rfl
  · generalize storeRecs a l = r
    induction r generalizing q with
    | nil => rfl
    | cons e r ih => rw [List.foldl_cons, ih]; exact (PairS.fold_parts _ _ _ _ _).2.2.2.2.2.2.2.2.1 i

/-- A PACE that may not complete stays as it is. -/
theorem State.paceTry_none {s : State} {l : Fin 3} {p : Fin 4} (h : s.paceReady l p = none) : s.paceTry l p = s := by
  unfold State.paceTry
  rw [h]

/-- Outside DEBUG a PACE without a release stays. -/
theorem State.paceReady_none {s : State} {l : Fin 3} {p : Fin 4} (hr : (s.pr l p).release = none) (hd : s.laneState l ≠ lDebug) :
    s.paceReady l p = none := by
  unfold State.paceReady
  dsimp only
  rw [hr]
  split
  · rw [if_neg hd]
    split <;> rfl
  · rfl

end Sys2Proof.Machine
end

