-- ==== Sys2Proof/Laws/Passive.lean ====
section
/-! SUPPORT. The registers of the lane manager and the mask of voters over the passive state and a lane's leaving the vote. -/

namespace Sys2Proof.Machine

variable {s t u : State} {z : Bool}

/-- Keys of the lane manager's registers, and the key of the mask of voters. -/
def lmKey (k : Nat) : Prop := (1179648 ≤ k ∧ k < 1310720) ∨ k = ASSAY_voters.key

/-- The lane manager's registers and the mask of voters read the same; with z, the passive latch, its cause and the supply are the same too. -/
def State.sameLm (s t : State) (z : Bool := false) : Prop :=
  (∀ g : Fld, lmKey g.key → t.get g = s.get g) ∧ (z = true → t.latch = s.latch ∧ t.aoCause = s.aoCause ∧ t.power = s.power)

theorem lmKey_page {g : Fld} (h : lmKey g.key) : g.pageOf = 9 ∨ g.pageOf = 8 := by
  unfold Fld.pageOf
  rcases h with h | h
  · left; omega
  · right; rw [h]; decide

theorem State.sameLm_refl : s.sameLm s z := ⟨fun _ _ => rfl, fun _ => ⟨rfl, rfl, rfl⟩⟩
theorem State.sameLm_trans (h : s.sameLm t z) (h' : t.sameLm u z) : s.sameLm u z :=
  ⟨fun g k => (h'.1 g k).trans (h.1 g k), fun e => ⟨(h'.2 e).1.trans (h.2 e).1, (h'.2 e).2.1.trans (h.2 e).2.1, (h'.2 e).2.2.trans (h.2 e).2.2⟩⟩
theorem State.sameLm_weaken (h : s.sameLm t z) : s.sameLm t := ⟨h.1, fun e => by cases e⟩
theorem State.sameLm_set {f : Fld} {v : Nat} (h : s.sameLm t z) (k : ¬ lmKey f.key) : s.sameLm (t.set f v) z := ⟨fun g hg => by
  rw [State.get_set_ne, h.1 g hg]
  intro e
  exact k (e ▸ hg), h.2⟩
theorem State.sameLm_upd {f : State → State} (h : s.sameLm t z) (e : (f t).regs = t.regs)
    (e' : ((f t).latch, (f t).aoCause, (f t).power) = (t.latch, t.aoCause, t.power)) : s.sameLm (f t) z := ⟨fun g hg => by
  rw [← h.1 g hg]; unfold State.get; rw [e], fun k => by
  simp only [Prod.mk.injEq] at e'
  rw [e'.1, e'.2.1, e'.2.2]; exact h.2 k⟩
theorem State.sameLm_keeps (h : s.sameLm t z) {ps : List Nat} (k : t.keepsBut u ps) (h9 : 9 ∉ ps) (h8 : 8 ∉ ps) : s.sameLm u z := ⟨fun g hg => by
  rw [k.2 g (by rcases lmKey_page hg with e | e <;> rw [e] <;> assumption), h.1 g hg], fun e => by
  have hr := k.1
  simp only [State.rest, Prod.mk.injEq] at hr
  rw [hr.1.2.2.2.2.2.1, hr.1.2.2.2.2.2.2.1, hr.2.1]; exact h.2 e⟩
theorem State.sameLm_ite {c : Prop} [Decidable c] {a b : State} (ha : s.sameLm a z) (hb : s.sameLm b z) : s.sameLm (if c then a else b) z := by
  split
  · exact ha
  · exact hb
theorem State.sameLm_each {α : Type} {l : List α} {f : State → α → State} (h : s.sameLm t z) (hf : ∀ u a, a ∈ l → s.sameLm u z → s.sameLm (f u a) z) :
    s.sameLm (t.each l f) z := by
  unfold State.each
  induction l generalizing t with
  | nil => exact h
  | cons a r ih => exact ih (hf t a List.mem_cons_self h) fun u b hb => hf u b (List.mem_cons_of_mem _ hb)
theorem State.sameLm_raiseInt {page bit : Nat} (h : s.sameLm t z) (h9 : page % 128 ≠ 9) (h8 : page % 128 ≠ 8) : s.sameLm (t.raiseInt page bit) z :=
  State.sameLm_keeps h (State.keepsBut_raiseInt (ps := [0x0A, page % 128]) State.keepsBut_refl (by simp) (by simp)) (by simp; omega) (by simp; omega)
theorem State.sameLm_courEvent {n : Nat} (h : s.sameLm t z) : s.sameLm (t.courEvent n) z :=
  State.sameLm_keeps h (State.keepsBut_courEvent (ps := [0x0A]) State.keepsBut_refl (by simp)) (by simp) (by simp)
theorem State.sameLm_recordX {code sev tenant lanes : Nat} {ws : List Nat} (h : s.sameLm t z) (hs : sev < 8) : s.sameLm (t.recordX code sev tenant lanes ws) z :=
  State.sameLm_keeps h (State.keepsBut_recordX (ps := [7, 0x0A]) State.keepsBut_refl hs (by simp) (by simp)) (by simp) (by simp)
theorem State.sameLm_record {code sev : Nat} {ws : List Nat} (h : s.sameLm t z) (hs : sev < 8) : s.sameLm (t.record code sev ws) z :=
  State.sameLm_recordX h hs

/-- What a change of one state part that holds no register leaves. -/
theorem State.sameLm_updI {f : ImgS → ImgS} (h : s.sameLm t z) : s.sameLm (t.updI f) z := State.sameLm_upd (f := fun t => t.updI f) h rfl rfl
theorem State.sameLm_hubWrite {o : Nat} {b : List Byte} (h : s.sameLm t z) : s.sameLm (t.hubWrite o b) z := State.sameLm_upd (f := fun t => t.hubWrite o b) h rfl rfl
theorem State.sameLm_setHdr {d : Desc} {v : Nat} (h : s.sameLm t z) : s.sameLm (t.setHdr d v) z := State.sameLm_upd (f := fun t => t.setHdr d v) h rfl rfl
theorem State.sameLm_updIl {i : Nat} {f : IslS → IslS} (h : s.sameLm t z) : s.sameLm (t.updIl i f) z := State.sameLm_upd (f := fun t => t.updIl i f) h rfl rfl
theorem State.sameLm_setWire {i : Nat} {b : List Byte} (h : s.sameLm t z) : s.sameLm (t.setWire i b) z := State.sameLm_upd (f := fun t => t.setWire i b) h rfl rfl
theorem State.sameLm_setCans {m : SMap CanS} (h : s.sameLm t z) : s.sameLm (t.setCans m) z := State.sameLm_upd (f := fun t => t.setCans m) h rfl rfl
theorem State.sameLm_updN {f : ConsS → ConsS} (h : s.sameLm t z) : s.sameLm (t.updN f) z := State.sameLm_upd (f := fun t => t.updN f) h rfl rfl
theorem State.sameLm_updSo {f : SoS → SoS} (h : s.sameLm t z) : s.sameLm (t.updSo f) z := State.sameLm_upd (f := fun t => t.updSo f) h rfl rfl
theorem State.sameLm_updBr {f : BridgeS → BridgeS} (h : s.sameLm t z) : s.sameLm (t.updBr f) z := State.sameLm_upd (f := fun t => t.updBr f) h rfl rfl
theorem State.sameLm_updA {f : AssayS → AssayS} (h : s.sameLm t z) : s.sameLm (t.updA f) z := State.sameLm_upd (f := fun t => t.updA f) h rfl rfl
theorem State.sameLm_updL {l : Fin 3} {f : LaneS → LaneS} (h : s.sameLm t z) : s.sameLm (t.updL l f) z := State.sameLm_upd (f := fun t => t.updL l f) h rfl rfl
theorem State.sameLm_updC {l : Fin 4} {f : CourS → CourS} (h : s.sameLm t z) : s.sameLm (t.updC l f) z := State.sameLm_upd (f := fun t => t.updC l f) h rfl rfl
theorem State.sameLm_draw (h : s.sameLm t z) : s.sameLm t.draw z := State.sameLm_upd (f := fun t => t.draw) h rfl rfl
theorem State.sameLm_setLatch {a : Tri Bool} {c : Nat} (h : s.sameLm t) : s.sameLm (t.setLatch a c) := ⟨h.1, fun e => by cases e⟩

theorem State.sameLm_acceptWrite {d : Desc} {i w k : Nat} {vt : Option Nat} {b : List Byte} (h : s.sameLm t z) : s.sameLm (t.acceptWrite d i w vt k b) z := by
  unfold State.acceptWrite
  dsimp only
  have h1 : s.sameLm (if bitOf (t.hdr d) 3 = true then t.count DIMG_MERGED_0 else t) z :=
    State.sameLm_ite (State.sameLm_set h (by unfold lmKey; decide)) h
  have h2 := State.sameLm_setHdr (d := d) (v := if bitOf (t.hdr d) 3 = true then setBit (t.hdr d) 4 else setBit (t.hdr d) 3) h1
  exact State.sameLm_ite (State.sameLm_updI (State.sameLm_hubWrite h2))
    (State.sameLm_ite (State.sameLm_updI (State.sameLm_hubWrite h2)) (State.sameLm_hubWrite h2))

theorem State.sameLm_judgeWrite {d : Desc} {i w k : Nat} {vt : Option Nat} {b : List Byte} (h : s.sameLm t z) : s.sameLm (t.judgeWrite d i w vt k b).1 z := by
  unfold State.judgeWrite
  split
  · exact State.sameLm_raiseInt (State.sameLm_setHdr (State.sameLm_set (State.sameLm_set h (by unfold lmKey; decide)) (by unfold lmKey; decide))) (by decide) (by decide)
  · split
    · exact h
    · split
      · exact State.sameLm_acceptWrite h
      · exact State.sameLm_record (State.sameLm_raiseInt (State.sameLm_setHdr (State.sameLm_set (State.sameLm_set (State.sameLm_set h (by unfold lmKey; decide))
          (by unfold lmKey; decide)) (by unfold lmKey; decide))) (by decide) (by decide)) (by decide)

theorem State.sameLm_stageFallback {v : Nat} (h : s.sameLm t z) : s.sameLm (t.stageFallback v) z := by
  unfold State.stageFallback
  split
  · rename_i d hd
    have h1 : s.sameLm (t.imgWriteRaw 0xA002 v t.now none (t.hubRead d.fb d.size)).1 z := by
      unfold State.imgWriteRaw
      split
      · split
        · exact h
        · exact State.sameLm_judgeWrite h
      · exact h
    exact State.sameLm_ite (State.sameLm_updI h1) h1
  · exact h

theorem State.sameLm_smOff (h : s.sameLm t z) : s.sameLm t.smOff z := by
  unfold State.smOff State.smShow
  refine State.sameLm_set (State.sameLm_each h fun u x _ hu => State.sameLm_stageFallback (State.sameLm_set hu ?_)) ?_
  · simp [lmKey, Fld.key, SM_R_STAT_0, ASSAY_voters]; omega
  · simp [lmKey, Fld.key, SAFEMSG_failed, ASSAY_voters]

theorem State.sameLm_setMode {m : Nat} (h : s.sameLm t z) : s.sameLm (t.setMode m) z := by
  unfold State.setMode
  exact State.sameLm_ite h (State.sameLm_raiseInt (State.sameLm_set (State.sameLm_set h (by unfold lmKey; decide)) (by unfold lmKey; decide)) (by decide) (by decide))

theorem State.sameLm_canPassive (h : s.sameLm t z) : s.sameLm t.canPassive z := by
  unfold State.canPassive
  refine State.sameLm_setCans (State.sameLm_each (State.sameLm_each h fun u c hc hu => State.sameLm_ite (State.sameLm_set hu ?_) hu) fun u e _ hu => ?_)
  · simp [lmKey, Fld.key, CAN_state, ASSAY_voters]; omega
  · split
    · exact State.sameLm_set hu (by simp [lmKey, Fld.key, CAN_M_STAT_0, ASSAY_voters]; omega)
    · exact hu

theorem State.sameLm_fioPassive (h : s.sameLm t z) : s.sameLm t.fioPassive z := by
  unfold State.fioPassive
  refine State.sameLm_each h fun u i _ hu => State.sameLm_ite ?_ hu
  unfold State.deEnergise State.dlAsk State.dlSend State.ulSend
  exact State.sameLm_ite (State.sameLm_setWire (State.sameLm_updIl (State.sameLm_setWire (State.sameLm_updIl hu)))) (State.sameLm_setWire (State.sameLm_updIl hu))

theorem State.sameLm_brPassive (h : s.sameLm t z) : s.sameLm t.brPassive z := by
  unfold State.brPassive
  refine State.sameLm_ite h ?_
  dsimp only
  unfold State.brShow
  have k : ∀ {u : State}, s.sameLm u z → s.sameLm u.sysfailOut z := fun {u} hu => by
    unfold State.sysfailOut
    exact State.sameLm_ite hu (State.sameLm_ite (State.sameLm_set hu (by unfold lmKey; decide))
      (State.sameLm_courEvent (State.sameLm_set (State.sameLm_set hu (by unfold lmKey; decide)) (by unfold lmKey; decide))))
  refine State.sameLm_set (State.sameLm_set (State.sameLm_set (k (State.sameLm_ite (State.sameLm_record ?_ (by decide)) ?_)) (by unfold lmKey; decide))
    (by unfold lmKey; decide)) (by unfold lmKey; decide) <;>
  exact State.sameLm_set (State.sameLm_set (State.sameLm_updBr h) (by unfold lmKey; decide)) (by unfold lmKey; decide)

/-- What follows the latch when the module becomes passive leaves the latch, its cause, the lane manager's registers and the mask of voters. -/
theorem State.setPassive_latched {c : Nat} (h : s.passive = false) : (s.setLatch (Tri.all true) c).sameLm (s.setPassive c) true := by
  unfold State.setPassive
  rw [h]
  simp only [Bool.false_eq_true, if_false]
  refine State.sameLm_setMode (State.sameLm_brPassive ?_)
  unfold State.soOpen
  refine State.sameLm_updSo (State.sameLm_set (State.sameLm_fioPassive (State.sameLm_canPassive ?_)) (by unfold lmKey; decide))
  unfold State.porterShut
  refine State.sameLm_updN (State.sameLm_set ?_ (by unfold lmKey; decide))
  unfold State.mirPassive
  exact State.sameLm_ite (State.sameLm_set (State.sameLm_set (State.sameLm_smOff State.sameLm_refl) (by unfold lmKey; decide)) (by unfold lmKey; decide))
    (State.sameLm_smOff State.sameLm_refl)

/-- Entering the passive state leaves the lane manager's registers and the mask of voters. -/
theorem State.sameLm_setPassive {c : Nat} (h : s.sameLm t) : s.sameLm (t.setPassive c) := by
  by_cases p : t.passive = true
  · unfold State.setPassive; rw [if_pos p]; exact h
  · exact State.sameLm_trans (State.sameLm_setLatch h) (State.sameLm_weaken (State.setPassive_latched (by simpa using p)))

/-- The latch is set in all three copies and the cause kept; a second cause changes nothing. -/
theorem State.setPassive_passive (s : State) (c : Nat) : (s.setPassive c).passive = true ∧ (s.passive = false → (s.setPassive c).latch = Tri.all true ∧
    (s.setPassive c).aoCause = c ∧ (s.setPassive c).power = s.power) ∧ (s.passive = true → s.setPassive c = s) := by
  by_cases p : s.passive = true
  · have e : s.setPassive c = s := by unfold State.setPassive; rw [if_pos p]
    rw [e]; exact ⟨p, fun h => absurd (p.symm.trans h) (by simp), fun _ => rfl⟩
  · have p' : s.passive = false := by simpa using p
    have h := (State.setPassive_latched (c := c) p').2 rfl
    exact ⟨by unfold State.passive; rw [h.1]; rfl, fun _ => ⟨h.1, h.2.1, h.2.2⟩, fun e => absurd e p⟩

/-- Filling the divergence registers leaves them too. -/
theorem State.sameLm_divFill {lane kind synd : Nat} {pas stray : Bool} {d : DivAt} (h : s.sameLm t z) : s.sameLm (t.divFill lane kind pas stray d synd).1 z := by
  unfold State.divFill
  dsimp only
  split
  · exact h
  · iterate 12 refine State.sameLm_set ?_ (by unfold lmKey; decide)
    iterate 4 (try refine State.sameLm_set ?_ (by unfold lmKey; decide))
    exact h

theorem State.sameLm_assayPassive {kind cause : Nat} {d : DivAt} (h : s.sameLm t) : s.sameLm (t.assayPassive kind cause d)  := by
  unfold State.assayPassive
  exact State.sameLm_ite h (State.sameLm_recordX (State.sameLm_setPassive (State.sameLm_divFill h)) (by decide))

theorem State.voteAddr_sameLm (h : s.sameLm t z) (rs : List (Fin 3 × Rec)) : s.sameLm (t.voteAddr rs).1 z := by
  unfold State.voteAddr
  split
  · split
    · exact h
    · exact State.sameLm_draw h
  · exact State.sameLm_draw h

/-- The check of the votes that remain leaves them. -/
theorem State.sameLm_splitCheck (h : s.sameLm t) : s.sameLm t.splitCheck  := by
  unfold State.splitCheck State.voteSplit
  split
  · rename_i x hx
    refine State.sameLm_assayPassive ?_
    split at hx
    · cases hx; exact State.voteAddr_sameLm h _
    · split at hx
      · cases hx; exact State.voteAddr_sameLm h _
      · split at hx
        · cases hx; exact h
        · cases hx
  · exact h

theorem State.sameLm_courDropLane {l : Fin 3} (h : s.sameLm t z) : s.sameLm (t.courDropLane l) z :=
  State.sameLm_each h fun _ _ _ hu => State.sameLm_updC hu

theorem State.sameLm_stampsFree {p : Fin 4} (h : s.sameLm t z) : s.sameLm (t.stampsFree p) z := by
  unfold State.stampsFree State.courShow State.raiseTo State.setB
  refine State.sameLm_set (State.sameLm_set (State.sameLm_set (State.sameLm_updC h) ?_) ?_) ?_ <;> (revert p; unfold lmKey; decide)

/-- A lane that leaves the vote is ISOLATED, and its bit of the mask of voters is 0. -/
theorem State.unvote_lane (s : State) (l : Fin 3) :
    (s.unvote l).laneState l = lIsolated ∧ (s.unvote l).get ASSAY_voters = clrBit (s.get ASSAY_voters) l.val % 8 ∧
    (∀ m, m ≠ l → (s.unvote l).laneState m = s.laneState m) ∧
    ∀ g : Fld, lmKey g.key → g.key ≠ ASSAY_voters.key → g.key ≠ (laneField l).key → g.key ≠ LANEMGR_iso_count.key → g.key ≠ (rawOf 9).key → (s.unvote l).get g = s.get g := by
  let v := clrBit (s.get ASSAY_voters) l.val
  let b := (((s.updA fun x => x.dropLane l).set ASSAY_voters v).set (laneField l) lIsolated).set (ASSAY_LAG_0 l.val) 0
  have h1 : b.sameLm (if (((b.updL l fun n => { n with out := [], reports := [], replayed := [] }).freeDone.courDropLane l).each allPairs fun s p => s.stampsFree p).passive then
      (((b.updL l fun n => { n with out := [], reports := [], replayed := [] }).freeDone.courDropLane l).each allPairs fun s p => s.stampsFree p)
      else if popc 3 v = 2 then (((b.updL l fun n => { n with out := [], reports := [], replayed := [] }).freeDone.courDropLane l).each allPairs fun s p => s.stampsFree p).setMode 2
      else (((b.updL l fun n => { n with out := [], reports := [], replayed := [] }).freeDone.courDropLane l).each allPairs fun s p => s.stampsFree p).setPassive 7) := by
    have : b.sameLm (((b.updL l fun n => { n with out := [], reports := [], replayed := [] }).freeDone.courDropLane l).each allPairs fun s p => s.stampsFree p) :=
      State.sameLm_each (State.sameLm_courDropLane (State.sameLm_updA (State.sameLm_updL State.sameLm_refl))) fun _ _ _ hu => State.sameLm_stampsFree hu
    exact State.sameLm_ite this (State.sameLm_ite (State.sameLm_setMode this) (State.sameLm_setPassive this))
  have hu : s.unvote l = (((if (((b.updL l fun n => { n with out := [], reports := [], replayed := [] }).freeDone.courDropLane l).each allPairs fun s p => s.stampsFree p).passive then
      (((b.updL l fun n => { n with out := [], reports := [], replayed := [] }).freeDone.courDropLane l).each allPairs fun s p => s.stampsFree p)
      else if popc 3 v = 2 then (((b.updL l fun n => { n with out := [], reports := [], replayed := [] }).freeDone.courDropLane l).each allPairs fun s p => s.stampsFree p).setMode 2
      else (((b.updL l fun n => { n with out := [], reports := [], replayed := [] }).freeDone.courDropLane l).each allPairs fun s p => s.stampsFree p).setPassive 7).count LANEMGR_iso_count).raiseInt 9 0).splitCheck := rfl
  rw [hu]
  revert h1
  generalize (if (((b.updL l fun n => { n with out := [], reports := [], replayed := [] }).freeDone.courDropLane l).each allPairs fun s p => s.stampsFree p).passive then
      (((b.updL l fun n => { n with out := [], reports := [], replayed := [] }).freeDone.courDropLane l).each allPairs fun s p => s.stampsFree p)
      else if popc 3 v = 2 then (((b.updL l fun n => { n with out := [], reports := [], replayed := [] }).freeDone.courDropLane l).each allPairs fun s p => s.stampsFree p).setMode 2
      else (((b.updL l fun n => { n with out := [], reports := [], replayed := [] }).freeDone.courDropLane l).each allPairs fun s p => s.stampsFree p).setPassive 7) = w
  intro h1
  have hg : ∀ g : Fld, lmKey g.key → g.key ≠ LANEMGR_iso_count.key → g.key ≠ (rawOf 9).key →
      (((w.count LANEMGR_iso_count).raiseInt 9 0).splitCheck).get g = b.get g := fun g hk h2 h3 => by
    rw [(State.sameLm_splitCheck State.sameLm_refl).1 g hk, ← h1.1 g hk]
    have hp : g.pageOf ≠ 0x0A := by rcases lmKey_page hk with e | e <;> rw [e] <;> decide
    have : (w.count LANEMGR_iso_count).get g = w.get g := State.get_set_ne _ h2
    rw [← this]
    unfold State.raiseInt
    dsimp only
    split
    · rw [State.get_courEvent hp]; exact State.get_set_ne _ h3
    · exact State.get_set_ne _ h3
  have kl : ∀ m : Fin 3, lmKey (laneField m).key ∧ (laneField m).key ≠ LANEMGR_iso_count.key ∧ (laneField m).key ≠ (rawOf 9).key ∧
      (laneField m).key ≠ ASSAY_voters.key ∧ ∀ k : Fin 3, (laneField m).key ≠ (ASSAY_LAG_0 k.val).key := by unfold lmKey; decide
  have kv : lmKey ASSAY_voters.key ∧ ASSAY_voters.key ≠ LANEMGR_iso_count.key ∧ ASSAY_voters.key ≠ (rawOf 9).key ∧
      (∀ k : Fin 3, ASSAY_voters.key ≠ (laneField k).key) ∧ ∀ k : Fin 3, ASSAY_voters.key ≠ (ASSAY_LAG_0 k.val).key := by unfold lmKey; decide
  have kw : ∀ m : Fin 3, lIsolated % 2 ^ (laneField m).w = lIsolated := by decide
  have kd : ∀ m k : Fin 3, m ≠ k → (laneField m).key ≠ (laneField k).key := by decide
  refine ⟨?_, ?_, ?_, ?_⟩
  · unfold State.laneState
    rw [hg _ (kl l).1 (kl l).2.1 (kl l).2.2.1]
    show State.get (State.set _ _ _) _ = _
    rw [State.get_set_ne _ ((kl l).2.2.2.2 l), State.get_set_same]
    exact kw l
  · rw [hg _ kv.1 kv.2.1 kv.2.2.1]
    show State.get (State.set _ _ _) _ = _
    rw [State.get_set_ne _ (kv.2.2.2.2 l), State.get_set_ne _ (kv.2.2.2.1 l), State.get_set_same]
    rfl
  · intro m hm
    unfold State.laneState
    rw [hg _ (kl m).1 (kl m).2.1 (kl m).2.2.1]
    show State.get (State.set _ _ _) _ = _
    rw [State.get_set_ne _ ((kl m).2.2.2.2 l), State.get_set_ne _ (kd m l hm), State.get_set_ne _ (kl m).2.2.2.1]
    rfl
  · intro g hk h1 h2 h3 h4
    rw [hg g hk h3 h4]
    show State.get (State.set _ _ _) _ = _
    rw [State.get_set_ne, State.get_set_ne _ h2, State.get_set_ne _ h1]
    · rfl
    · intro e
      have : ∀ k : Fin 3, ¬ lmKey (ASSAY_LAG_0 k.val).key := by unfold lmKey; decide
      exact this l (e ▸ hk)

/-- LM_CAUSE of a lane after it is set. -/
theorem State.setCause_reads (s : State) (l : Fin 3) (c p i : Nat) (hc : c < 16) (hp : p < 4) (hi : i < 8) :
    (s.setCause l c p i).get (LM_CAUSE_0 l.val) = c ∧ (s.setCause l c p i).get (LM_CAUSE_4 l.val) = p ∧ (s.setCause l c p i).get (LM_CAUSE_8 l.val) = i ∧
    ∀ g : Fld, g.key ≠ (LM_CAUSE_0 l.val).key → g.key ≠ (LM_CAUSE_4 l.val).key → g.key ≠ (LM_CAUSE_8 l.val).key → (s.setCause l c p i).get g = s.get g := by
  have k1 : ∀ l : Fin 3, (LM_CAUSE_0 l.val).key ≠ (LM_CAUSE_4 l.val).key ∧ (LM_CAUSE_0 l.val).key ≠ (LM_CAUSE_8 l.val).key ∧
      (LM_CAUSE_4 l.val).key ≠ (LM_CAUSE_8 l.val).key := by decide
  unfold State.setCause
  refine ⟨?_, ?_, ?_, fun g h0 h4 h8 => ?_⟩
  · rw [State.get_set_ne _ (k1 l).2.1, State.get_set_ne _ (k1 l).1, State.get_set_same]
    exact Nat.mod_eq_of_lt hc
  · rw [State.get_set_ne _ (k1 l).2.2, State.get_set_same]
    exact Nat.mod_eq_of_lt hp
  · rw [State.get_set_same]
    exact Nat.mod_eq_of_lt (Nat.lt_of_lt_of_le hi (show 8 ≤ 2 ^ 4 by decide))
  · rw [State.get_set_ne _ h8, State.get_set_ne _ h4, State.get_set_ne _ h0]

/-- A record of the lane manager leaves its registers. -/
theorem State.sameLm_lmRecord {code sev mask : Nat} {l : Fin 3} (h : s.sameLm t z) (hs : sev < 8) : s.sameLm (t.lmRecord code sev l mask) z :=
  State.sameLm_recordX h hs

end Sys2Proof.Machine
end

