-- ==== Sys2Proof/WellFormed.lean ====
section
/-! DEFINITION. Well-formed commands: every operand within the width spec/ gives the thing it stands for. What a command does is defined for
ill-formed ones too (an over-wide operand is cut to its width where it is used). -/

namespace Sys2Proof

/-- n fits w bits. -/
def within (w n : Nat) : Bool := decide (n < 2 ^ w)

/-- A temperature in 0.1 °C fits the 16-bit register (20 R497). -/
def degree (t : Int) : Bool := decide (-32768 ≤ t) && decide (t < 32768)

/-- The 16-bit sequence number (01 R16). -/
def Acc.ok (a : Acc) : Bool := within 16 a.seq

/-- A record: 16-bit sequence number, a 40-bit address, data of 1 to 64 bytes, an atomic of 4 or 8 (01 R16; 02 R59, R63). -/
def Rec.ok (r : Rec) : Bool :=
  within 16 r.seq && within 40 r.addr && decide (0 < r.len) && decide (r.len ≤ 64) && within (8 * r.len) r.data && within (8 * r.len) r.cmp &&
  (match r.kind with | .atomic fn => decide (fn < 32) && (r.len == 4 || r.len == 8) | _ => true)

/-- A checkpoint report: a 64-bit count, 1,280 enable bits (03 R90, 05 R140). -/
def Ckpt.ok (c : Ckpt) : Bool := within 64 c.count && (match c.pace with | some (en, _) => within 1280 en | none => true)

/-- A 16-bit producer identity and a 64-bit time (06 R165); a lane access as Acc.ok. -/
def Writer.ok (w : Writer) : Bool :=
  match w with
  | .lane a => a.ok
  | .unit id stamp => within 16 id && within 64 stamp

/-- A CAN frame: 29-bit identifier, 4-bit DLC, at most 8 bytes, 64 with the FD format (12 R316, R325). -/
def CanFrame.ok (f : CanFrame) : Bool := within 29 f.id && within 4 f.dlc && decide (f.data.length ≤ if f.fdf then 64 else 8)

/-- A unit's record: 16-bit code, severity 0 to 7, tenant byte, at most four words (18 R442). -/
def LRec.ok (r : LRec) : Bool := within 16 r.code && within 3 r.sev && within 8 r.tenant && decide (r.params.length ≤ 4)

/-- What a start finds: 64 switch positions, input voltage (15 R396, 20 R488). -/
def StartInputs.ok (c : StartInputs) : Bool := within 64 c.pins && within 64 c.mwPins && within 12 c.vin

/-- Every operand of a command within its width. -/
def Instr.wellFormed (i : Instr) : Bool :=
  match i with
  | .aluRegisterOp _ _ _ _ _ _ _ => true
  | .immediateOp _ _ _ _ _ _ => true
  | .upperImmediate _ _ _ _ _ _ => true
  | .load _ _ _ _ _ _ => true
  | .store _ _ _ _ _ _ => true
  | .atomic _ _ _ _ _ _ => true
  | .branch _ _ _ _ _ _ => true
  | .jump _ _ _ => true
  | .jal _ _ _ => true
  | .jalr _ _ _ _ _ => true
  | .fpLoadStore _ _ _ _ _ _ => true
  | .fpArithmetic _ _ _ _ _ _ => true
  | .fpConvertCompareMove _ _ _ _ _ _ => true
  | .syscall _ _ _ _ => true
  | .mcall _ _ _ _ => true
  | .brk _ _ _ _ => true
  | .eret _ _ => true
  | .fence _ _ => true
  | .fenceI _ _ => true
  | .mfs _ _ _ _ => true
  | .mts _ _ _ _ => true
  | .pairStart _ _ => true
  | .granuleTableWrite _ _ => true
  | .bcopy _ _ _ _ _ _ => true
  | .bfill _ _ _ _ _ _ => true
  | .bcrc _ _ _ _ _ _ => true
  | .pace _ _ _ _ _ _ => true
  | .paceComplete _ _ => true
  | .rdcnt _ _ _ _ _ _ => true
  | .yield _ _ _ _ _ _ => true
  | .stampDue _ _ => true
  | .checkpointReport _ _ => true
  | .laneReset _ => true
  | .pairComparatorMismatch _ _ _ => true
  | .laneMemoryUncorrectable _ _ => true
  | .flitWatchdogExpiry _ => true
  | .linkFlitCrcError _ r _ => r.ok
  | .writeRecordArrival _ r => r.ok
  | .readRecordArrival _ r => r.ok
  | .readCapture _ seq => within 16 seq
  | .checkpointArrival _ _ c => c.ok
  | .skewLimitExpiry _ _ n => within 64 n
  | .bufferEntryFreed _ _ n => within 64 n
  | .hubFaultDetected _ => true
  | .hubClockDeviation _ _ => true
  | .laneReady _ _ => true
  | .readyDeadlineExpiry => true
  | .periodicTest _ => true
  | .lmTestRunNow a _ => a.ok
  | .lmResetRejoin a _ => a.ok
  | .lmPowerDown a _ => a.ok
  | .lmAbandonRejoin a _ => a.ok
  | .rejoinBootComplete _ => true
  | .rejoinBootTimeout => true
  | .copyPassEnd _ => true
  | .holdPointReached _ _ => true
  | .holdTimeout => true
  | .admissionWindowEnd => true
  | .confirmationTimeout => true
  | .debugAttach _ => true
  | .debugDetach => true
  | .debugLinkLoss => true
  | .detachBootEnd _ => true
  | .detachBootTimeout => true
  | .dbgHalt _ _ => true
  | .dbgResume _ _ => true
  | .dbgStep _ _ => true
  | .dbgRegdataWrite _ _ v => within 32 v
  | .breakpointHit _ _ => true
  | .watchpointHit _ _ addr len _ => within 64 addr && decide (0 < len && len ≤ 64)
  | .courSoftWrite a v => a.ok && within 32 v
  | .stampFormation _ => true
  | .stampArrivalAtLane _ _ num => within 16 num
  | .stampLateFlit _ _ d => within 64 d
  | .intClrWrite a page v => a.ok && decide (page ≤ 0x65) && within 32 v
  | .intEnWrite a page v => a.ok && decide (page ≤ 0x65) && within 32 v
  | .intcPendClear _ _ _ _ => true
  | .intcEnWrite _ _ _ _ => true
  | .cntClrWrite _ _ _ => true
  | .baseBoundary => true
  | .guardStart _ => true
  | .cycDoneWrite a _ v => a.ok && within 32 v
  | .cycleRunWrite a v => a.ok && within 32 v
  | .cycRestartWarm a => a.ok
  | .cycRestartCold a => a.ok
  | .dataImageWrite w off bytes => w.ok && decide (off + bytes.length ≤ 0x400000) && decide (0 < bytes.length)
  | .dimgLock a => a.ok
  | .dimgPatchArm a => a.ok
  | .dimgPatchCancel a => a.ok
  | .epochCommit a => a.ok
  | .epochDrained => true
  | .tenSoftWrite a _ v => a.ok && within 32 v
  | .memctlFillStart a => a.ok
  | .fillComplete => true
  | .bankReady _ => true
  | .hubSramScrub _ => true
  | .qmgrQselWrite a v => a.ok && within 32 v
  | .qmgrQselTWrite a v => a.ok && within 32 v
  | .qmgrPush a v => a.ok && within 32 v
  | .qmgrPushLast a _ v => a.ok && within 32 v
  | .heldPushComplete q => decide (q < 1024)
  | .qmgrPop a _ => a.ok
  | .qmgrQclr a v => a.ok && within 32 v
  | .qmgrEnable a => a.ok
  | .qmgrDisable a => a.ok
  | .tallyGrant _ _ _ _ => true
  | .quotaPeriodEnd => true
  | .fabricTagFreed _ => true
  | .tenantCreditReturned t => decide (t ≤ 32)
  | .portLinkLoss _ => true
  | .portTrainingComplete _ _ => true
  | .consistFrameReceived _ f _ => decide (f.length ≤ 2048)
  | .discardTableAgeOut mac => within 48 mac
  | .basicCycleStart => true
  | .matrixCycleStart => true
  | .exclusiveFetch e => decide (e < 4096)
  | .exclusiveWindowStart e => decide (e < 4096)
  | .arbitratingWindow e => decide (e < 4096)
  | .syncWindow e => decide (e < 4096)
  | .receiveMissCheck r => decide (r < 4096)
  | .almValidate a => a.ok
  | .almSwitchArm a => a.ok
  | .almSwitchCancel a => a.ok
  | .porterStrobe _ => true
  | .porterWindowOpen e => decide (e < 4096)
  | .porterWindowClose e => decide (e < 4096)
  | .porterUnsilence a ports => a.ok && within 8 ports
  | .porterSwitchArm a => a.ok
  | .cmTimeRead a => a.ok
  | .cmCntRead a => a.ok
  | .slewEnd => true
  | .holdoverExpiry => true
  | .delayResponseTimeout _ _ => true
  | .cmAccept a => a.ok
  | .cmReject a => a.ok
  | .cmSet a => a.ok
  | .cmSyncCtlWrite a v => a.ok && within 32 v
  | .cmRateWrite a v => a.ok && within 32 v
  | .timePulseOutput => true
  | .timePulseCapture => true
  | .tsTxlastRead a _ => a.ok
  | .tsPcapRead a => a.ok
  | .pollBasicPeriodStart _ => true
  | .pollSlotStart _ e _ => decide (e < 1024)
  | .pollReplyTimeout _ => true
  | .pollSlaveFrameReceived _ data _ => decide (data.length ≤ 64)
  | .pollMasterFrameReceived _ fcode set addr _ => within 4 fcode && within 4 set && within 16 addr
  | .slaveSilenceTimeout _ => true
  | .pollValidate a _ => a.ok
  | .pollSwitchArm a _ => a.ok
  | .pollSwitchCancel a _ => a.ok
  | .pollResume a _ => a.ok
  | .pollUnsilence a _ => a.ok
  | .pollCtlWrite a _ v => a.ok && within 32 v
  | .canStart a _ => a.ok
  | .canStop a _ => a.ok
  | .canRecover a _ => a.ok
  | .canRedetect a _ => a.ok
  | .canFrameReceived _ f => f.ok
  | .canStartOfFrame _ _ => true
  | .canTxComplete _ => true
  | .canArbitrationLost _ => true
  | .canErrorDetected _ _ => true
  | .canBusoffRecovered _ => true
  | .canListenExit _ => true
  | .canWakePattern _ _ => true
  | .fioRefreshSlot _ _ _ _ => true
  | .fioUplinkReceived _ b => decide (b.length ≤ 64)
  | .fioUplinkTimeout _ _ => true
  | .islandMonostableExpiry _ => true
  | .islandParityError _ => true
  | .outputCurrentLimitExpiry _ _ => true
  | .islandOvercurrentTrip _ => true
  | .fioLoadTimeout _ => true
  | .fioStart a _ _ => a.ok
  | .fioStop a _ => a.ok
  | .fioReload a _ _ => a.ok
  | .fioClearFault a _ => a.ok
  | .fioInCfgWrite a _ _ v => a.ok && within 32 v
  | .fioOutCfgWrite a _ _ v => a.ok && within 32 v
  | .diWakeChange _ _ _ => true
  | .trackEdge _ _ _ _ => true
  | .trackFaultTimeout _ _ _ _ => true
  | .sensorSupplyFault _ _ _ => true
  | .standstillTimeout _ => true
  | .speedInitTimeout _ _ => true
  | .frozenChannel _ _ => true
  | .speedEvaluation => true
  | .speedReadmit a mask => a.ok && within 8 mask
  | .odometerZero a mask => a.ok && within 8 mask
  | .odometerRead a _ => a.ok
  | .mwResetRelease => true
  | .hubFrameSend => true
  | .mwHubFrameReceived b => decide (b.length ≤ 64)
  | .mwFrameTimeout _ => true
  | .millwrightFrameReceived b => decide (b.length ≤ 64)
  | .hubHealthyLow => true
  | .mwEvaluationTick => true
  | .mwTrackEdge _ _ _ => true
  | .mwStandstillEntry => true
  | .mwRomCheck _ => true
  | .mwDiSample closed => within 8 closed
  | .mwDiPulseTimeout => true
  | .mwCrossCheckTimeout _ => true
  | .safetyOutputSense mid out permit _ => within 8 mid && within 8 out && within 8 permit
  | .testPulseDue => true
  | .testPulseEnd _ => true
  | .soTestRunNow a => a.ok
  | .switchSample pins mwPins => within 64 pins && within 64 mwPins
  | .switchMismatchTimeout => true
  | .safeWatchdogExpiry _ => true
  | .safeAutoRecovery _ => true
  | .smReset a _ => a.ok
  | .mirrorSegmentReceived _ g => decide (g.length ≤ 2068)
  | .boundarySetApply => true
  | .helloSend => true
  | .mirrorLinkTimeout _ => true
  | .pairWaitExpiry => true
  | .leaseExpiry => true
  | .mirAbdicate a => a.ok
  | .mirRearm a => a.ok
  | .mirTake a => a.ok
  | .mirRestartPass a => a.ok
  | .ledgerRecordArrival r => r.ok
  | .lgSubGo a => a.ok
  | .ledgerFlushStart => true
  | .ledgerFlushDone => true
  | .ledgerFlushRetry => true
  | .lgFlush a => a.ok
  | .operatingMillisecond => true
  | .operatingSecond => true
  | .quicenRepeatHoldExpiry => true
  | .lgFreeze a => a.ok
  | .lgUnfreeze a => a.ok
  | .freezeMaxExpiry => true
  | .lgFreezeMaxWrite a v => a.ok && within 32 v
  | .lgCursorWrite a v => a.ok && within 32 v
  | .lgNext a => a.ok
  | .lgPrev a => a.ok
  | .lgNewest a => a.ok
  | .lgOldest a => a.ok
  | .ledgerWindowReady => true
  | .lgRateEntryWrite a off v => a.ok && decide (off < 4096 && off % 4 = 0) && within 32 v
  | .lgRateDefWrite a v => a.ok && within 32 v
  | .ledgerHeadMount => true
  | .stRead a => a.ok
  | .stWrite a => a.ok
  | .stDiscard a => a.ok
  | .storeCommandComplete _ => true
  | .scrubBlock _ _ _ _ => true
  | .staticWearMove _ => true
  | .nandDeviceFail _ => true
  | .nandMount _ _ => true
  | .sdCardDetect _ => true
  | .sdInit a => a.ok
  | .sdRead a => a.ok
  | .sdReadEnd _ => true
  | .sdPowerOff a => a.ok
  | .supplyInterruption vin => within 12 vin
  | .interruptionEnd _ => true
  | .powerFailDeclare _ _ => true
  | .startFromOff c => c.ok
  | .pwrDoze a => a.ok
  | .pwrRun a => a.ok
  | .pwrStable a => a.ok
  | .dozeEntry => true
  | .wakeEvent _ _ => true
  | .wakeTimerExpiry _ => true
  | .clockStartOnDemand _ _ _ => true
  | .thermalSample t0 t1 t2 t3 => degree t0 && degree t1 && degree t2 && degree t3
  | .thermalDwellExpiry => true
  | .thermalTrip _ => true
  | .lkOpenWindow a => a.ok
  | .lkCloseWindow a => a.ok
  | .serviceWindowEnd => true
  | .lkReleaseTamper a => a.ok
  | .lkLifecycleTransition a => a.ok
  | .lkSign a => a.ok
  | .lkPubkey a => a.ok
  | .lkMac a => a.ok
  | .lkVerify a => a.ok
  | .lkRevoke a => a.ok
  | .locksmithOpComplete => true
  | .tamperEvent _ _ _ => true
  | .updVerify a => a.ok
  | .updBegin a => a.ok
  | .updEnd a => a.ok
  | .updAbort a => a.ok
  | .updActivate a _ => a.ok
  | .updConfirm a => a.ok
  | .updBooted a => a.ok
  | .bootedTimeout => true
  | .trialTimeout => true
  | .tftpWriteRequest _ _ _ => true
  | .cobblerRestart => true
  | .bridgeRequestTake => true
  | .bridgeBusCycleStart => true
  | .bridgeDataPhaseEnd _ _ => true
  | .bridgeDataPhaseTimeout => true
  | .bridgeCompletionWrite => true
  | .bridgeScanInstant _ => true
  | .brFlush a => a.ok
  | .brReset a => a.ok
  | .qpResetAssert => true
  | .qpResetRecoveryEnd => true
  | .quicenLineAssert _ _ => true
  | .svcFrameReceived _ f _ => decide (f.length ≤ 2048)
  | .svcFrameSend _ => true
  | .svcLinkChange _ _ _ => true
  | .hdbgTRead a => a.ok
  | .readClearAccess a page off => a.ok && decide (page ≤ 0x65) && decide (off < 4096 && off % 4 = 0)
  | .registerWrite a page off v => a.ok && decide (page ≤ 0x65) && decide (off < 4096 && off % 4 = 0) && within 32 v
  | .safetyOutputOverload _ => true
  | .holdupStoreExhausted => true
  | .inputFluctuation vin => within 12 vin
  | .speedRegisterUpdate => true
  | .sdInitComplete _ => true
  | .updateCommandComplete _ => true
  | .mirrorBlockLockLoss _ => true

end Sys2Proof
end

