-- ==== Sys2Proof/Tests/Slice0.lean ====
section
/-! SUPPORT. Tests: ill-formed commands refused, values from the examples of spec/, and for every statement a state and operands that meet its hypotheses. -/

namespace Sys2Proof.Tests

open Sys2Proof.Machine

/-! ## Well-formedness -/

/-- A well-formed sender and record, and over-wide ones. -/
def acc : Acc := { pair := 0, level := 1, tenant := 0, seq := 7 }
def badAcc : Acc := { acc with seq := 2 ^ 16 }
def rec : Rec := { pair := 0, kind := .write, seq := 0, addr := 0, len := 4, data := 0, cmp := 0, level := 1, tenant := 0 }
def badRec : Rec := { rec with len := 65 }
def rep : Ckpt := { count := 0, digest := 0, pace := none }
def badRep : Ckpt := { rep with count := 2 ^ 64 }
def can : CanFrame := { id := 5, ext := false, rtr := false, fdf := false, brs := false, esi := false, dlc := 1, data := [1] }
def badCan : CanFrame := { can with data := List.replicate 9 0 }
def led : LRec := { code := 0x1001, sev := 3, tenant := 0xFF, params := [] }
def badLed : LRec := { led with sev := 8 }
def badWriter : Writer := .unit (2 ^ 16) 0
def cfg0 : SignedCfg := { digest := 0, ident := 0, major := 0, good := true, sw := none, quicen := false, arm := 0, own := 0, tx := [], rx := [], image := [], so := [], laneVar := none, speed := none, mirCtl := 0, mirRs := 0 }
def inp : StartInputs := { cfg := cfg0, vin := 0, uF := 0, pins := 0, mwPins := 0, tests := true }
def badInp : StartInputs := { inp with vin := 4096 }

set_option maxRecDepth 100000 in
/-- An ill-formed command for each check of an operand, part A. -/
theorem test_ill_formed_A_refused : ([.linkFlitCrcError 0 badRec false,
    .writeRecordArrival 0 badRec,
    .readRecordArrival 0 badRec,
    .readCapture 0 (2 ^ 16),
    .checkpointArrival 0 0 badRep,
    .skewLimitExpiry .write 0 (2 ^ 64),
    .bufferEntryFreed .write 0 (2 ^ 64),
    .lmTestRunNow badAcc none,
    .lmResetRejoin badAcc 0,
    .lmPowerDown badAcc 0,
    .lmAbandonRejoin badAcc 0,
    .dbgRegdataWrite 0 0 (2 ^ 32),
    .watchpointHit 0 0 (2 ^ 64) 4 false,
    .watchpointHit 0 0 0 0 false,
    .watchpointHit 0 0 0 65 false,
    .courSoftWrite badAcc 0,
    .courSoftWrite acc (2 ^ 32),
    .stampArrivalAtLane 0 0 (2 ^ 16),
    .stampLateFlit 0 0 (2 ^ 64),
    .intClrWrite badAcc 0 0,
    .intClrWrite acc (0x65 + 1) 0,
    .intClrWrite acc 0 (2 ^ 32),
    .intEnWrite badAcc 0 0,
    .intEnWrite acc (0x65 + 1) 0,
    .intEnWrite acc 0 (2 ^ 32),
    .cycDoneWrite badAcc 0 0,
    .cycDoneWrite acc 0 (2 ^ 32),
    .cycleRunWrite badAcc 0] : List Instr).all (fun i => !i.wellFormed) = true := by decide
set_option maxRecDepth 100000 in
/-- An ill-formed command for each check of an operand, part B. -/
theorem test_ill_formed_B_refused : ([.cycleRunWrite acc (2 ^ 32),
    .cycRestartWarm badAcc,
    .cycRestartCold badAcc,
    .dataImageWrite badWriter 0 [0],
    .dataImageWrite (.lane acc) 0x400000 [0],
    .dataImageWrite (.lane acc) 0 [],
    .dimgLock badAcc,
    .dimgPatchArm badAcc,
    .dimgPatchCancel badAcc,
    .epochCommit badAcc,
    .tenSoftWrite badAcc 0 0,
    .tenSoftWrite acc 0 (2 ^ 32),
    .memctlFillStart badAcc,
    .qmgrQselWrite badAcc 0,
    .qmgrQselWrite acc (2 ^ 32),
    .qmgrQselTWrite badAcc 0,
    .qmgrQselTWrite acc (2 ^ 32),
    .qmgrPush badAcc 0,
    .qmgrPush acc (2 ^ 32),
    .qmgrPushLast badAcc 0 0,
    .qmgrPushLast acc 0 (2 ^ 32),
    .heldPushComplete 1024,
    .qmgrPop badAcc false,
    .qmgrQclr badAcc 0,
    .qmgrQclr acc (2 ^ 32),
    .qmgrEnable badAcc,
    .qmgrDisable badAcc,
    .tenantCreditReturned (32 + 1)] : List Instr).all (fun i => !i.wellFormed) = true := by decide
set_option maxRecDepth 100000 in
/-- An ill-formed command for each check of an operand, part C. -/
theorem test_ill_formed_C_refused : ([.consistFrameReceived 0 (List.replicate (2048 + 1) 0) false,
    .discardTableAgeOut (2 ^ 48),
    .exclusiveFetch 4096,
    .exclusiveWindowStart 4096,
    .arbitratingWindow 4096,
    .syncWindow 4096,
    .receiveMissCheck 4096,
    .almValidate badAcc,
    .almSwitchArm badAcc,
    .almSwitchCancel badAcc,
    .porterWindowOpen 4096,
    .porterWindowClose 4096,
    .porterUnsilence badAcc 0,
    .porterUnsilence acc (2 ^ 8),
    .porterSwitchArm badAcc,
    .cmTimeRead badAcc,
    .cmCntRead badAcc,
    .cmAccept badAcc,
    .cmReject badAcc,
    .cmSet badAcc,
    .cmSyncCtlWrite badAcc 0,
    .cmSyncCtlWrite acc (2 ^ 32),
    .cmRateWrite badAcc 0,
    .cmRateWrite acc (2 ^ 32),
    .tsTxlastRead badAcc 0,
    .tsPcapRead badAcc,
    .pollSlotStart 0 1024 false,
    .pollSlaveFrameReceived 0 (List.replicate (64 + 1) 0) false] : List Instr).all (fun i => !i.wellFormed) = true := by decide
set_option maxRecDepth 100000 in
/-- An ill-formed command for each check of an operand, part D. -/
theorem test_ill_formed_D_refused : ([.pollMasterFrameReceived 0 (2 ^ 4) 0 0 false,
    .pollMasterFrameReceived 0 0 (2 ^ 4) 0 false,
    .pollMasterFrameReceived 0 0 0 (2 ^ 16) false,
    .pollValidate badAcc 0,
    .pollSwitchArm badAcc 0,
    .pollSwitchCancel badAcc 0,
    .pollResume badAcc 0,
    .pollUnsilence badAcc 0,
    .pollCtlWrite badAcc 0 0,
    .pollCtlWrite acc 0 (2 ^ 32),
    .canStart badAcc 0,
    .canStop badAcc 0,
    .canRecover badAcc 0,
    .canRedetect badAcc 0,
    .canFrameReceived 0 badCan,
    .fioUplinkReceived 0 (List.replicate (64 + 1) 0),
    .fioStart badAcc 0 false,
    .fioStop badAcc 0,
    .fioReload badAcc 0 false,
    .fioClearFault badAcc 0,
    .fioInCfgWrite badAcc 0 0 0,
    .fioInCfgWrite acc 0 0 (2 ^ 32),
    .fioOutCfgWrite badAcc 0 0 0,
    .fioOutCfgWrite acc 0 0 (2 ^ 32),
    .speedReadmit badAcc 0,
    .speedReadmit acc (2 ^ 8),
    .odometerZero badAcc 0,
    .odometerZero acc (2 ^ 8)] : List Instr).all (fun i => !i.wellFormed) = true := by decide
set_option maxRecDepth 100000 in
/-- An ill-formed command for each check of an operand, part E. -/
theorem test_ill_formed_E_refused : ([.odometerRead badAcc 0,
    .mwHubFrameReceived (List.replicate (64 + 1) 0),
    .millwrightFrameReceived (List.replicate (64 + 1) 0),
    .mwDiSample (2 ^ 8),
    .safetyOutputSense (2 ^ 8) 0 0 false,
    .safetyOutputSense 0 (2 ^ 8) 0 false,
    .safetyOutputSense 0 0 (2 ^ 8) false,
    .soTestRunNow badAcc,
    .switchSample (2 ^ 64) 0,
    .switchSample 0 (2 ^ 64),
    .smReset badAcc 0,
    .mirrorSegmentReceived 0 (List.replicate (2068 + 1) 0),
    .mirAbdicate badAcc,
    .mirRearm badAcc,
    .mirTake badAcc,
    .mirRestartPass badAcc,
    .ledgerRecordArrival badLed,
    .lgSubGo badAcc,
    .lgFlush badAcc,
    .lgFreeze badAcc,
    .lgUnfreeze badAcc,
    .lgFreezeMaxWrite badAcc 0,
    .lgFreezeMaxWrite acc (2 ^ 32),
    .lgCursorWrite badAcc 0,
    .lgCursorWrite acc (2 ^ 32),
    .lgNext badAcc,
    .lgPrev badAcc,
    .lgNewest badAcc] : List Instr).all (fun i => !i.wellFormed) = true := by decide
set_option maxRecDepth 100000 in
/-- An ill-formed command for each check of an operand, part F. -/
theorem test_ill_formed_F_refused : ([.lgOldest badAcc,
    .lgRateEntryWrite badAcc 0 0,
    .lgRateEntryWrite acc 4096 0,
    .lgRateEntryWrite acc 2 0,
    .lgRateEntryWrite acc 0 (2 ^ 32),
    .lgRateDefWrite badAcc 0,
    .lgRateDefWrite acc (2 ^ 32),
    .stRead badAcc,
    .stWrite badAcc,
    .stDiscard badAcc,
    .sdInit badAcc,
    .sdRead badAcc,
    .sdPowerOff badAcc,
    .supplyInterruption (2 ^ 12),
    .startFromOff badInp,
    .pwrDoze badAcc,
    .pwrRun badAcc,
    .pwrStable badAcc,
    .thermalSample 32768 0 0 0,
    .thermalSample (-32769) 0 0 0,
    .thermalSample 0 32768 0 0,
    .thermalSample 0 (-32769) 0 0,
    .thermalSample 0 0 32768 0,
    .thermalSample 0 0 (-32769) 0,
    .thermalSample 0 0 0 32768,
    .thermalSample 0 0 0 (-32769),
    .lkOpenWindow badAcc,
    .lkCloseWindow badAcc] : List Instr).all (fun i => !i.wellFormed) = true := by decide
set_option maxRecDepth 100000 in
/-- An ill-formed command for each check of an operand, part G. -/
theorem test_ill_formed_G_refused : ([.lkReleaseTamper badAcc,
    .lkLifecycleTransition badAcc,
    .lkSign badAcc,
    .lkPubkey badAcc,
    .lkMac badAcc,
    .lkVerify badAcc,
    .lkRevoke badAcc,
    .updVerify badAcc,
    .updBegin badAcc,
    .updEnd badAcc,
    .updAbort badAcc,
    .updActivate badAcc false,
    .updConfirm badAcc,
    .updBooted badAcc,
    .brFlush badAcc,
    .brReset badAcc,
    .svcFrameReceived 0 (List.replicate (2048 + 1) 0) false,
    .hdbgTRead badAcc,
    .readClearAccess badAcc 0 0,
    .readClearAccess acc (0x65 + 1) 0,
    .readClearAccess acc 0 4096,
    .readClearAccess acc 0 2,
    .registerWrite badAcc 0 0 0,
    .registerWrite acc (0x65 + 1) 0 0,
    .registerWrite acc 0 4096 0,
    .registerWrite acc 0 2 0,
    .registerWrite acc 0 0 (2 ^ 32),
    .inputFluctuation (2 ^ 12)] : List Instr).all (fun i => !i.wellFormed) = true := by decide

/-! ## States that the tests and witnesses share -/

/-- A runtime access of core pair 0, and a module with queue n of one line enabled in the given mode. -/
def rt : Acc := { pair := 0, level := 1, tenant := 0, seq := 7 }
def mon : Acc := { pair := 0, level := 2, tenant := 0, seq := 7 }
def wq (pkt : Nat) : State := (((State.reset.set (QMGR_CFG_LINES_0 0) 1).set (QMGR_CFG_MODE_0 0) pkt).set (QMGR_CFG_MAX_0 0) 64).updQ 0 fun q => { q with enabled := true }
def hh : QHeld := { src := some (0, 3, 32), addr := 0x4000E044, word := 5, k := 0, tag := 0, poison := false }

/-! ## Witnesses: the lanes, the Assay, the Courier, the cycle unit, the data image -/

/-- A lane in BOOT whose pair 0 runs, the same with some of its registers set, and a module of ACTIVE lanes. -/
def wl : State := State.reset.set LM_STATE_0 lBoot
def wl' (g : SMap Word64) (sr : SMap Word64) : State := wl.updP 0 0 fun q => { q with g := g, sr := sr }
def wact (voters : Nat) : State :=
  ((((State.reset.set LM_STATE_0 (if bitOf voters 0 then lActive else lIsolated)).set LM_STATE_4 (if bitOf voters 1 then lActive else lIsolated)).set
    LM_STATE_8 (if bitOf voters 2 then lActive else lIsolated)).set ASSAY_voters voters).set MEMCTL_BANKSTAT_0 0xAAAAAAAA
theorem witness_runs : wl.runs 0 0 ∧ (wl.pr 0 0).fpOn ∧ (wl.pr 0 0).level = 2 ∧ (wl.pr 0 0).st 5 = false ∧ wl.writesOpen 0 0 = false ∧
    (wl.pr 0 0).release = none ∧ wl.laneState 0 ≠ lDebug ∧ wl.onLink 0 = false := by
  unfold State.runs PairS.fpOn; decide
theorem witness_integer : aluResult .x64 0x001 ((wl' [(1, 5), (2, 7)] []).pr 0 0 |>.rg 1) ((wl' [(1, 5), (2, 7)] []).pr 0 0 |>.rg 2) = some 12 ∧
    immResult 0 ((wl' [(1, 5)] []).pr 0 0 |>.rg 1) 0xFFFF = some 4 := by decide
theorem witness_traps : let s := wl' [] [(0, 0x20)]; let t := wl' [] [(0, 0x11), (0x105, 0x500)]; let u := wl' [] [(0, 0)]
    (s.runs 0 0 ∧ (s.pr 0 0).level = 0 ∧ (s.pr 0 0).st 5 = true ∧ (s.pr 0 0).toMonitor 0x08 = true) ∧
    (t.runs 0 0 ∧ (t.pr 0 0).level = 1 ∧ (t.pr 0 0).toMonitor 0x08 = false ∧ (t.pr 0 0).st 4 = true ∧ (t.pr 0 0).st 5 = false) ∧
    u.runs 0 0 ∧ (u.pr 0 0).level = 0 ∧ (u.pr 0 0).toMonitor 0x0B = true ∧ (u.pr 0 0).st 5 = false ∧ ¬ (u.pr 0 0).fpOn := by
  unfold State.runs PairS.fpOn; decide
theorem witness_debug : let s := State.reset.set LM_STATE_0 lDebug
    s.laneState 0 = lDebug ∧ (s.updP 0 0 fun q => { q with sr := [(0, 0x402)] }).canRun 0 0 = true ∧ (s.pr 0 0).halted = false := by decide
theorem witness_access : wl.accFault 0 0 true false false 0x1000 8 = none ∧ wl.accFault 0 0 false true false 0x1000 8 = none ∧ wl.accFault 0 0 true true true 0x1000 8 = none ∧
    (wl.region 0x1000).isMem = true ∧ ((wl' [(1, 0x1000)] []).pr 0 0).ea 1 0 = 0x1000 ∧ wl.accFault 0 0 true false false 0x1000 4 = none ∧
    wl.accFault 0 0 false true false 0x1000 4 = none := by decide
theorem witness_fp : fpArith fmt64 0 0 0x3FF0000000000000 0x4000000000000000 0 = some (0x4008000000000000, 0) := by decide
theorem witness_chunk : let s := wl' [(1, 0x1000), (2, 0x2000), (3, 8)] []
    s.runs 0 0 ∧ blockIllegal 1 2 3 true = false ∧ blockIllegal 1 2 3 false = false ∧ s.chunkFault 0 0 (some 0x2000) (some 0x1000) 8 = none ∧
    s.chunkFault 0 0 none (some 0x1000) 8 = none ∧ s.chunkFault 0 0 (some 0x2000) none 8 = none ∧ (s.region 0x2000).isMem = true ∧
    min 64 ((s.pr 0 0).rg 3).toNat = 8 ∧ min 64 ((wl.pr 0 0).rg 3).toNat = 0 ∧ blockIllegal 1 1 3 true = true ∧ blockIllegal 1 0 0 false = true := by
  unfold State.runs; decide
theorem witness_system : (wl.pr 0 0).srPriv 0x103 = false ∧ ((wl' [] [(0, 0)]).pr 0 0).srPriv 0x103 = true ∧ srListed 0x103 = true ∧
    bitOf (wl.ln 0).mpairrun 1 = false ∧ wl.nPairs = 4 ∧ granRuns 0 (SMap.get (wl.ln 0).gran 0 0) = false ∧ granRuns 0 1 = false ∧
    (let s := wl.updL 0 fun n => { n with mpairrun := 0 }; granRuns (s.ln 0).mpairrun 0 = false) := by decide
theorem witness_pace : let s := wl.updP 0 0 fun q => { q with wait := .pace 3, release := some (3, 9, []), due := [{ count := 256, digest := 0, pace := none }] }
    (s.pr 0 0).wait = .pace 3 ∧ (s.pr 0 0).release = some (3, 9, []) ∧ (s.pr 0 0).due ≠ [] ∧ (wact 7).onLink 0 = true ∧ wl.canRun 0 0 = true := by decide
theorem witness_registers : State.reset.reaches mon 0x0B 0x02C ∧ State.reset.reaches mon 0x0B 0x024 ∧ State.reset.reaches mon 0x0A 0x044 ∧ wl.laneLive 0 0 = true ∧
    (State.reset.set (COUR_ROUTE_2 304) 1).route 1216 = (0, true, 0) ∧ (State.reset.set (COUR_ROUTE_2 258) 1 |>.route 1032).2.1 = true ∧
    (State.reset.set (rawOf 0x0B) 5).get (rawOf 0x0B) &&& (0xFFFFFFFF - 1 % 2 ^ 32) = 4 := by unfold State.reaches; decide
theorem witness_lane_faults : (wact 7).laneState 0 = lActive ∧ (wact 7).listeners.contains 0 = true ∧ (wact 7).voters.length = 3 ∧ (wact 3).voters.length = 2 ∧
    (State.reset.set LM_STATE_0 lDebug).laneState 0 = lDebug ∧ (State.reset.set LM_STATE_4 lApprentice).laneState 1 = lApprentice := by decide
/-- A start: every lane in BOOT; two of them ready. -/
def wstart (a b c : Bool) : State := ((((State.reset.set LM_STATE_0 lBoot).set LM_STATE_4 lBoot).set LM_STATE_8 lBoot)).updM fun m => { m with ready := ⟨a, b, c⟩ }
theorem witness_starts : (wstart false true true).starting = true ∧ (wstart false true true).mgr.detach ≠ some 0 ∧
    (∀ m, (wstart false true true).laneState m = lBoot ∧ (wstart false true true).mgr.ready.get m = decide (m ≠ 0)) ∧
    (wstart false false true).mgr.ready.get 1 = false ∧ (∀ m : Fin 3, m ≠ 0 → (wstart true false false).mgr.ready.get m = false) := by decide
theorem witness_tests : (wact 7).reaches mon 0x09 0x078 ∧ (wact 7).lanesIn lDebug = [] ∧ (wact 7).get LM_REJ_STAT_0 = 0 ∧ (wact 7).passive = false := by
  unfold State.reaches; decide
theorem witness_manager : (wact 3).reaches mon 0x09 0x044 ∧ (wact 3).laneState 2 = lIsolated ∧ ((wact 3).lanesIn lActive).length = 2 ∧ (wact 3).rejoinLane = none ∧
    ((wact 3).recentStarts 2).length < (wact 3).get LM_REJOIN_24 ∧ (wact 7).laneState 2 ≠ lIsolated ∧ ((wact 1).lanesIn lActive).length ≠ 2 ∧
    ((wact 3).set LANEMGR_rejoin_lane 2).rejoinLane = some 2 ∧ ((wact 3).set LM_REJOIN_24 0).get LM_REJOIN_24 ≤ ((wact 3).recentStarts 2).length := by
  unfold State.reaches; decide
/-- A rejoin of lane 2 in a step of R115. -/
def wrj (step : Nat) : State := (((wact 3).set LANEMGR_rejoin_lane 2).set LM_REJ_STAT_0 step).set LM_STATE_8 (if step = 1 then lBoot else lApprentice)
theorem witness_rejoin : (∀ k, k ∈ [1, 2, 4] → (wrj k).rejoinLane = some 2 ∧ (wrj k).copySource = some 0 ∧ (wrj k).get LM_REJ_STAT_0 = k) ∧
    (wrj 1).laneState 2 = lBoot ∧ Memory.wf ((wrj 1).ln 0).mem = true ∧ (wrj 2).mgr.holdDue = false ∧ (wrj 2).dirtyCount ≤ (wrj 2).pMax ∧
    ((wrj 2).set LM_REJOIN_4 0 |>.updL 0 fun n => { n with dirty := [(0, 1)] }).pMax < ((wrj 2).set LM_REJOIN_4 0 |>.updL 0 fun n => { n with dirty := [(0, 1)] }).dirtyCount ∧
    (wrj 2).get LM_REJ_STAT_4 < (wrj 2).get LM_REJOIN_16 ∧ ((wrj 2).set LM_REJOIN_16 0).get LM_REJOIN_16 ≤ (wrj 2).get LM_REJ_STAT_4 := by decide
theorem witness_hold : let s := (wrj 2).updM fun m => { m with hold := some (Quad.all 0) }
    s.mgr.hold = some (Quad.all 0) ∧ s.laneState 0 = lActive ∧ (s.holdPairs 0).contains 0 = true ∧ (s.pr 0 0).held = false ∧
    (s.updP 0 0 fun q => { q with held := true }).allHeld = false ∧ s.allHeld = false ∧
    ((s.updP 0 0 fun q => { q with held := true }).updP 1 0 fun q => { q with held := true }).allHeld = true := by decide
theorem witness_attach : ((wact 7).set SW_READ_HI_0 (2 ^ 28)).attachRefusal 0 = 0 ∧ ((wact 3).set SW_READ_HI_0 (2 ^ 28)).attachRefusal 2 = 0 ∧ (wact 7).attachRefusal 0 ≠ 0 ∧
    (State.reset.set LM_STATE_0 lDebug).lanesIn lDebug = [0] ∧ (wl.updM fun m => { m with detach := some 0 }).mgr.detach = some 0 := by decide
/-- Pair 0 of lane 0, in DEBUG, with its debug page as given. -/
def wdb (d : SMap Nat) (h : Bool) : State := (State.reset.set LM_STATE_0 lDebug).updP 0 0 fun q => { q with dbg := d, halted := h }
theorem witness_halt : (wdb [] false).laneState 0 = lDebug ∧ ((wdb [] false).pr 0 0).halted = false ∧ ((wdb [(0x084, 2 ^ 31)] false).pr 0 0).bpHit = true ∧
    ((wdb [(0x0C4, 3 * 2 ^ 28)] false).pr 0 0).wpHit 0 4 true = true ∧ ((wdb [(0x048, 33), (0x050, 5)] true).pr 0 0).halted = true := by decide
theorem witness_stamps : let s := (wact 7).set (COUR_PAIRSTAT_13 0) 1; let w := s.updC 0 fun c => { c with waiting := 2 }
    let st : Stamp := { num := 4, due := 10, srcs := [], faults := [] }
    w.flag (COUR_PAIRSTAT_13 0) = true ∧ w.flag COURIER_suspended = false ∧ (w.cr 0).waiting ≠ 0 ∧ (w.cr 0).out.length < 256 ∧ (s.cr 0).waiting = 0 ∧
    ((s.updC 0 fun c => { c with flits := [(0, st)] }).cr 0).flits.find? (fun x => x.1 = (0 : Fin 3) && x.2.num = 4) = some (0, st) ∧
    ((s.updC 0 fun c => { c with rels := [(0, 7, 4, [])] }).cr 0).rels.find? (fun x => x.1 = (0 : Fin 3) && x.2.2.1 = 4) = some (0, 7, 4, []) := by decide
/-- A runtime write of four bytes to hub SRAM, a read there, and a module of the given voters that holds a write of it from lane 1. -/
def wwr (d : Nat) : Rec := { pair := 0, kind := .write, seq := 5, addr := 0x50400000, len := 4, data := d, cmp := 0, level := 1, tenant := 0 }
def wrd : Rec := { pair := 0, kind := .read, seq := 5, addr := 0x50400000, len := 4, data := 0, cmp := 0, level := 1, tenant := 0 }
def wen (recs : List (Fin 3 × Rec)) (rel : Option Rec) : WEnt :=
  { pair := 0, seq := 5, recs := recs, released := rel, complete := rel.isSome, app := false, t0 := 0, held := false, lags := [] }
def wre (first : Option Rec) : REnt :=
  { pair := 0, seq := 5, recs := [(0, wrd), (1, wrd)], first := first, capt := none, side := false, served := [], app := false, t0 := 0, held := false, lags := [] }
def was (v : Nat) (w : List WEnt) (r : List REnt) : State := ((wact v).set ASSAY_SKEW_16 0).updA fun a => { a with writes := w, reads := r }
theorem witness_votes : (was 7 [] []).linkHeard 0 (wwr 1) = true ∧ (was 7 [] []).wEnt 0 5 = none ∧ (was 7 [] []).occW 0 < 64 ∧
    (was 7 [wen [(1, wwr 1)] none] []).wEnt 0 5 = some (wen [(1, wwr 1)] none) ∧ (was 7 [wen [(1, wwr 1)] none] []).creditFree (recAcc (wwr 1)) = true ∧
    (was 7 [wen [(1, wwr 1)] none] []).sramRefusal (recAcc (wwr 1)) 0x400000 4 1 = none ∧ (was 3 [wen [(1, wwr 2)] none] []).voters.length = 2 ∧ wwr 2 ≠ wwr 1 ∧
    (was 7 [] []).passive = false := by decide
theorem witness_votes_full : (was 7 ((List.range 64).map fun n => { wen [] none with seq := 100 + n }) []).occW 0 = 64 ∧
    (was 7 ((List.range 64).map fun n => { wen [] none with seq := 100 + n }) []).wEnt 0 5 = none := by decide
theorem witness_third_vote : let s := was 7 [wen [(1, wwr 1), (2, wwr 1)] (some (wwr 1))] []
    s.linkHeard 0 (wwr 2) = true ∧ s.voters.length = 3 ∧ s.wEnt 0 5 = some (wen [(1, wwr 1), (2, wwr 1)] (some (wwr 1))) ∧
    s.wDone (wen [(0, wwr 1), (1, wwr 1), (2, wwr 1)] (some (wwr 1))) = true := by decide
theorem witness_reads : (was 7 [] []).linkHeard 0 wrd = true ∧ (0 : Fin 3) ∈ (was 7 [] []).voters ∧ (was 7 [] []).rEnt 0 5 false = none ∧
    (was 7 [] [wre (some wrd)]).rEnt 0 5 false = some (wre (some wrd)) ∧ (was 7 [] [wre (some wrd)]).captureOpen 0 5 = true ∧
    (was 7 [] [wre (some wrd)]).creditFree (recAcc wrd) = true ∧ (was 7 [] [wre (some wrd)]).sramRefusal (recAcc wrd) 0x400000 4 0 = none := by decide
theorem witness_checkpoints : let c : Ckpt := { count := 256, digest := 9, pace := none }; let e : CEnt := { pair := 0, count := 256, reps := [(1, c)], app := false, t0 := 0, lags := [] }
    (∀ m, ((was 7 [] []).assay.high.get m).get 0 ≤ 256) ∧ (was 7 [] []).assay.ckpts.filter (fun e => e.pair = (0 : Fin 4)) = [] ∧ (was 3 [] []).voters.length = 2 ∧
    ((was 3 [] []).updA fun a => { a with ckpts := [e] }).assay.ckpts.filter (fun e => e.pair = (0 : Fin 4)) = [e] ∧ ((was 3 [] []).assay.last.get 0).1 ≤ 256 := by decide
theorem witness_passive : State.reset.passive = false ∧ ({ State.reset with latch := Tri.all true } : State).passive = true := by decide
theorem witness_epochs : State.reset.reaches mon 0x0F 0x044 := by unfold State.reaches; decide
theorem witness_epoch_pending : (State.reset.set MEMCTL_EPOCH_16 0).get MEMCTL_EPOCH_16 = 0 ∧ (State.reset.set MEMCTL_EPOCH_16 1).get MEMCTL_EPOCH_16 ≠ 0 ∧
    (∀ f ∈ State.reset.memctl.flight, f.epoch = State.reset.get MEMCTL_EPOCH_0) ∧ State.reset.opens mon 0x13 0x060 ∧
    ((State.reset.updMc fun m => { m with flight := [{ owner := 3, epoch := 0, pair := 0, seq := 1, done := true }] }).memctl.flight.any fun f => f.owner = 3 && f.done) = true := by
  unfold State.opens; decide
set_option maxRecDepth 20000 in
theorem witness_queue_conflict : State.reset.queueConflict = none ∧
    (((State.reset.set (TEN_QUEUE_12 1 0) 1).set (TEN_QUEUE_12 2 0) 1).queueConflict).isSome = true := by decide
theorem witness_fill : (wact 7).reaches mon 0x0F 0x080 ∧ (wact 7).flag MEMCTL_fill_busy = false ∧ ((wact 7).set MEMCTL_fill_busy 1).flag MEMCTL_fill_busy = true ∧
    ((wact 7).set MEMCTL_FILL_BASE_0 0x3F000 |>.set MEMCTL_FILL_LEN_0 1).get MEMCTL_FILL_BASE_0 = 0x3F000 ∧
    ((List.range 16).any fun b => fillTouches 0 1 b && !fillCovers 0 1 b && State.reset.bank b != 2) = true ∧ (∀ b < 16, (wact 7).bank b = 2) ∧
    ((wact 7).updMc fun m => { m with waking := [3] }).memctl.waking.contains 3 = true := by unfold State.reaches; decide
theorem witness_cycle : State.reset.reaches mon 0x0B 0x00C ∧ State.reset.reaches mon 0x0B 0x044 ∧ State.reset.opens mon 0x0B 0x104 ∧ State.reset.flag CYCLE_running = false ∧
    State.reset.flag SYS_svc_only = false ∧ bitOf 1 0 = true ∧ bitOf 2 0 = false := by unfold State.reaches State.opens; decide
/-- Class 0 in progress with tenant 0 supervised. -/
def wcl (done : Nat) : State := (((State.reset.set CYCLE_running 1).set (CYC_CFG_21 0) 1).set (CYC_DSTAT_0 0) done).updCls 0 fun c => { c with begun := true, tmask := 1 }
theorem witness_guard : (wcl 1).classComplete 0 = true ∧ (wcl 0).classComplete 0 = false ∧ (wcl 0).power = .run ∧ (wcl 0).flag CYCLE_running = true ∧
    (wcl 0).flag (CYC_CFG_21 0) = true ∧ ((wcl 0).cls 0).begun = true ∧ ((wcl 0).cls 0).checked = false ∧ (wcl 0).flag (CYC_OVSTAT_8 0) = false ∧
    (((wcl 0).updCls 0 fun c => { c with overran := true }).cls 0).overran = true := by decide
theorem witness_boundary_alone : let s := { (State.reset.set CYCLE_running 1) with variant := .eulT3C }
    s.enabledClasses = [] ∧ s.pw.runDue = false ∧ s.pw.stabDue = false ∧ s.cyc.restart = 0 ∧ s.isF = false ∧ s.linksLive = false ∧ s.img.vars = [] ∧ s.so.staged = [] ∧
    (∀ i < 12, s.islandPresent i = true → s.get (FIO_state i) < 2) := by decide
def wd : Desc :=
  { v := 0, off := 0x200000, size := 4, kind := 0, owner := 0, wgroup := 0, cls := 0, merge := 0, retain := false, mirror := false, patch := true, fresh := 0, type := 2, fallback := false, safety := false, rsv := false }
def wim : State := (wact 7).updI fun i => { i with vars := [wd] }
theorem witness_image : wim.var 0 = some wd ∧ wim.img.vars.find? (fun e => e.val = wd.val) = some wd ∧ wim.flag SAFEMSG_loaded = false ∧ wim.isLate wd = false ∧
    (wim.updCls 0 fun c => { c with late := true }).isLate wd = true ∧ wim.sramRefusal rt wd.val 4 1 = none ∧ wim.touched wd.val 4 = [wd] ∧ wd.val + 4 ≤ 0x400000 := by decide
theorem witness_patch : wim.reaches mon 0x0C 0x074 ∧ wim.reaches mon 0x0C 0x040 ∧ wim.img.patch = none ∧ (wim.updI fun i => { i with patch := some (1, 0) }).img.patch.isSome = true ∧
    wim.patchRefusal 0 ≠ 0 ∧ (wim.hubWrite 0x101000 [0, 0, 0, 0, 1]).patchRefusal 0 = 0 := by
  unfold State.reaches; decide
theorem witness_fp_convert : fpConvert 0 0x010 5 0 0 0 = some (.g 5, 0) ∧ fpConvert 0 0x011 0 0 6 0 = some (.v 6, 0) := by decide

/-! ## The examples of spec/ -/

/-- One well-formed command of each kind of operand. -/
theorem test_well_formed_accepted : ([.linkFlitCrcError 0 rec false, .readCapture 0 65535, .checkpointArrival 0 0 rep, .courSoftWrite acc 5,
    .intClrWrite acc 0x65 7, .dataImageWrite (.lane acc) 0x3FFFFC [1, 2, 3, 4], .heldPushComplete 1023, .canFrameReceived 0 can, .ledgerRecordArrival led,
    .startFromOff inp, .thermalSample 1250 (-32768) 0 32767, .registerWrite acc 0x65 4092 5, .watchpointHit 0 0 0x1000 64 true] : List Instr).all
    (·.wellFormed) = true := by decide
/-- No row of the table gives bits. -/
theorem test_no_words : decodeTableWord 32 0xF8853001 = none ∧ State.reset.withFetchWord 32 0xF8853001 = State.reset := ⟨rfl, rfl⟩

/-- ASCII "123456789". -/
def nine : List Byte := [0x31, 0x32, 0x33, 0x34, 0x35, 0x36, 0x37, 0x38, 0x39]
set_option maxRecDepth 100000 in
/-- R71: the table's check values. -/
theorem test_crc_checks : bcrcStep 0 0xFFFFFFFF nine ^^^ 0xFFFFFFFF = 0xE3069283 ∧ bcrcStep 1 0xFFFFFFFF nine ^^^ 0xFFFFFFFF = 0xCBF43926 ∧
    bcrcStep 2 0 nine = 0x6C40DF5F0B497347 ∧ bcrcStep 3 0 nine = 0x31C3 := by decide
set_option maxRecDepth 100000 in
/-- R340: the check value of the field links. -/
theorem test_field_crc : crc16 0xFFFF nine = 0x29B1 := by decide
/-- 11, the poll example: the master frame word of fcode 0, address 0x2A1, set 1, k mod 16 = 1. -/
theorem test_poll_word : mfWord 0 0x2A1 1 1 = 0x02A111AF := by decide
/-- 10, the resynchronisation example: n = 7 drops one at each end; c = 7, rho = 3,439,272. -/
theorem test_resync_means : dropK 7 = 1 ∧ trimMean [(0, 0), (12, 1), (-8, 2), (20, 3), (5, 4), (-3, 5), (950, 6)] = some 7 ∧
    trimMean [(3408486, 0), (3452467, 1), (3353510, 2), (3518437, 3), (3430476, 4), (3386496, 5), (45079977, 6)] = some 3439272 := by decide
/-- The same example: CM_RATE becomes 3,423,879 with gain 1. -/
theorem test_resync_rate : (((State.reset.setRate 3408486).set CM_SYNC_CTL_12 1).rateUpdate 3439272).cmRate = 3423879 := by decide
/-- 14, the speed example: a period of 130,062 counts gives 768,864 mHz, and 22,222 mm/s with 920.0 mm and 100 pulses. -/
def spd : SpdChan := { SpdChan.init with st := 2, dir := 1, tLast := 130062, tEnd := some 0 }
def spdPar : SpdPar := { inv := false, ssTo := 100000000, minT := 3900, perSec := 100000000, num := 100000000000 }
theorem test_speed : spd.freq spdPar 1000 = 768864 ∧ spd.speed spdPar 9200 100 1000 = 22222 := by decide
/-- 22, the bridge example: words of a 16-bit write, a 4-word burst read and the read's completion word. -/
theorem test_bridge_words : (brReq (leBytes 4 0x01401A02 ++ leBytes 4 0x56 ++ leBytes 4 0x123)).word = 0x01401A02 ∧
    (brReq (leBytes 4 0x4E401000 ++ leBytes 4 0x57)).word = 0x4E401000 ∧ (brReq (leBytes 4 0x4E401000 ++ leBytes 4 0x57)).k = 4 ∧
    brRefused (leBytes 4 0x01401A02 ++ leBytes 4 0x56 ++ leBytes 4 0x123) false = false := by decide
/-- 23, the CYC_CFG example: 0x0020_2800 written to class 3 reads back 0x0020_0001. -/
theorem test_clamp : (match exec (.registerWrite { acc with level := 2 } 0x0B 0x0B0 0x00202800) State.reset with
    | .next t => (t.get (CYC_CFG_0 3), t.get (CYC_CFG_11 3), t.get (CYC_CFG_21 3))
    | _ => (9, 9, 9)) = (1, 0, 1) := by decide
/-- 23, the compact module's presence bits. -/
theorem test_pages : ({ State.reset with variant := .eulT3C } : State).sysPages 2 = 0xCC3C03FC ∧ ({ State.reset with variant := .eulT3C } : State).sysPages 3 = 0x3B := by decide
/-- 06, the descriptor example: words of variable 1,234 at 0x4D20. -/
theorem test_descriptor : (((State.reset.hubWrite 0x4D20 (leBytes 4 0x00123400)).hubWrite 0x4D24 (leBytes 4 0x49050003)).hubWrite 0x4D28 (leBytes 4 0x06000BB8)).desc 1234 =
    { v := 1234, off := 0x123400, size := 4, kind := 0, owner := 3, wgroup := 5, cls := 1, merge := 1, retain := false, mirror := true, patch := false,
      fresh := 3000, type := 2, fallback := true, safety := false, rsv := false } := by decide
/-- 04: P_max is 364 pages at the default adm_max. -/
theorem test_p_max : State.reset.pMax = 364 := by decide
/-- 00: BLK_ID of CAN8 reads 0x384E_4143 on EUL-T3F and 0 on EUL-T3C. -/
theorem test_can8 : (State.reset.pageRead mon 0x4A 0).2 = 0x384E4143 ∧ (({ State.reset with variant := .eulT3C } : State).pageRead mon 0x4A 0).2 = 0 := by decide
/-- R64: ADD wraps, DIV by zero gives all ones, the most negative number divided by -1 is itself. -/
theorem test_integer : alu64 0x001 0xFFFFFFFFFFFFFFFF 1 = some 0 ∧ alu64 0x014 5 0 = some 0xFFFFFFFFFFFFFFFF ∧
    alu64 0x014 0x8000000000000000 0xFFFFFFFFFFFFFFFF = some 0x8000000000000000 := by decide
/-- An instruction of a lane in BOOT: ADDI g3, g1, -1 writes g3 and moves the pc on. -/
theorem test_addi : (match exec (.immediateOp 0 0 0 3 1 0xFFFF) (wl' [(1, 5)] []) with
    | .next t => (((t.pr 0 0).rg 3).toNat, (t.pr 0 0).pc.toNat, (t.pr 0 0).cev 0)
    | _ => (0, 0, 0)) = (4, 4, 1) := by decide
/-- R40: g0 discards a write. -/
theorem test_g0 : (match exec (.immediateOp 0 0 0 0 1 1) (wl' [(1, 5)] []) with | .next t => ((t.pr 0 0).rg 0).toNat | _ => 9) = 0 := by decide
/-- R46: SYSCALL from the runtime, delegated nowhere, enters the monitor at vector base + 0x200 with the next pc saved. -/
theorem test_syscall : (match exec (.syscall 0 0 0 7) (wl' [] [(0, 1), (0x103, 0x4000)]) with
    | .next t => ((t.pr 0 0).pc.toNat, ((t.pr 0 0).rs 0x100).toNat, ((t.pr 0 0).rs 0x101).toNat, (t.pr 0 0).level)
    | _ => (0, 0, 0, 0)) = (0x4200, 4, 0x70008, 2) := by decide
/-- A store and a load of lane memory: bytes are little-endian. -/
theorem test_store_load : (match exec (.store 0 0 2 2 1 0) (wl' [(1, 0x1000), (2, 0x11223344)] []) with
    | .next t => ((t.ln 0).mem, match exec (.load 0 0 0 4 1 1) t with | .next u => ((u.pr 0 0).rg 4).toNat | _ => 0)
    | _ => ([], 0)) = ([(0x1000, 0x44), (0x1001, 0x33), (0x1002, 0x22), (0x1003, 0x11)], 0x33) := by decide
set_option maxRecDepth 100000 in
/-- R24: two lanes' equal write records are released; the written word stands in hub SRAM. -/
theorem test_vote : (match exec (.writeRecordArrival 0 (wwr 0x55)) (was 7 [wen [(1, wwr 0x55)] none] []) with | .next t => t.hub | _ => []) = [(0x400000, 0x55)] := by decide
set_option maxRecDepth 100000 in
set_option maxRecDepth 100000 in
/-- R23: with two voters left, a difference makes the module passive with cause 6. -/
theorem test_vote_differs : (match exec (.writeRecordArrival 0 (wwr 1)) (was 3 [wen [(1, wwr 2)] none] []) with | .next t => (t.passive, t.aoCause) | _ => (false, 0)) = (true, 6) := by decide
set_option maxRecDepth 100000 in
/-- R37, R38: a hub fault with two voters left makes the module passive and latches its cause. -/
theorem test_hub_fault : (match exec (.hubFaultDetected .copies) (was 3 [] []) with | .next t => (t.passive, t.aoCause) | _ => (false, 0)) = (true, 1) := by decide
set_option maxRecDepth 100000 in
/-- R156, R159, R160: an overrun is found at the guard start, and nothing is frozen. -/
theorem test_overrun : (match exec (.guardStart 0) (wcl 0) with | .next t => ((t.cls 0).overran, t.get CYC_STALL_T_0, (t.cls 0).late) | _ => (false, 9, true)) = (true, 1, false) := by decide
/-- R166: a lane's write of a variable is staged, not committed. -/
theorem test_staged : (match exec (.dataImageWrite (.lane rt) wd.val [1, 2, 3, 4]) wim with
    | .next t => (t.hubRead wd.stg 4, t.hubRead wd.val 4) | _ => ([], [])) = ([1, 2, 3, 4], [0, 0, 0, 0]) := by decide
/-- An empty queue of commands lets one tick pass; a command leaves the queue. -/
theorem test_step : (match step State.reset with | .next t => t.counter | _ => 0) = 1 ∧
    (match step (State.reset.withPending [.eret 0 0, .fence 0 0]) with | .next t => t.pending | _ => []) = [.fence 0 0] := by decide


/-! ## Witnesses -/

/-! StepRunsFrontCommand -/

theorem witness_step : (State.reset.withPending [.baseBoundary, .eret 0 0]).pending = .baseBoundary :: [.eret 0 0] ∧ State.reset.pending = [] ∧
    State.reset.power = .run ∧ (State.reset.setPower .off).power ≠ .run := by decide

/-! IntegerOperationResults -/

theorem witness_division : (5 : Word64) ≠ 0 ∧ ((7 : Word64).toInt ≠ -2 ^ 63 ∨ (5 : Word64).toInt ≠ -1) ∧ (BitVec.intMin 64).toInt = -2 ^ 63 ∧
    (BitVec.allOnes 64).toInt = -1 := by decide

/-! QueuePushes -/

theorem witness_push : (wq 0).reaches rt 0x0E 0x044 ∧ (wq 0).reaches rt 0x0E 0x048 ∧ (wq 0).qSel (copyOf rt) = 0 ∧ (wq 0).reaches rt 0x0E 0x040 ∧ (wq 0).reaches rt 0x0E 0x080 ∧
    ((wq 0).q 0).enabled = true ∧ ((wq 0).q 0).hold = [] ∧ (wq 0).qPkt 0 = false ∧ (wq 0).qPacked 0 = false ∧ ((wq 0).q 0).occ < (wq 0).qW 0 := by
  unfold State.reaches; decide
theorem witness_push_disabled : State.reset.reaches rt 0x0E 0x044 ∧ (State.reset.q (State.reset.qSel (copyOf rt))).enabled = false := by
  unfold State.reaches; decide
theorem witness_push_waits : let s := (wq 0).updQ 0 fun q => { q with occ := 16, vis := 16 }
    s.reaches rt 0x0E 0x044 ∧ (s.q (s.qSel (copyOf rt))).enabled = true ∧ s.qFits (s.qSel (copyOf rt)) = false := by unfold State.reaches; decide
theorem witness_push_packet : let s := wq 1; let n := s.qSel (copyOf rt)
    s.reaches rt 0x0E 0x048 ∧ (s.q n).enabled = true ∧ (s.q n).hold = [] ∧ s.qPkt n = true ∧ s.qPacked n = false ∧ (s.q n).prog = none ∧ 4 ≤ s.qMax n ∧ 2 ≤ s.qFree n := by
  unfold State.reaches; decide
theorem witness_held : let s := (wq 0).updQ 0 fun q => { q with hold := [hh] }
    (s.q 0).hold = hh :: [] ∧ (s.q 0).enabled = true ∧ s.qPkt 0 = false ∧ s.qPacked 0 = false ∧ (s.q 0).occ < s.qW 0 := by decide
theorem witness_held_waits : let s := (wq 0).updQ 0 fun q => { q with occ := 16, vis := 16, hold := [hh] }
    (s.q 0).hold = hh :: [] ∧ s.qFits 0 = false := by decide

/-! QueuePopsAndCommands -/

def wpop : State := ((wq 0).updQ 0 fun q => { q with occ := 1, vis := 1 }).hubSet 0 4 0x55
theorem witness_pop : wpop.power = .run ∧ rt.level ≠ 0 ∧ wpop.qSel (copyOf rt) = 0 ∧ (wpop.q 0).enabled = true ∧ (wpop.q 0).claim = false ∧ (wpop.q 0).vis ≠ 0 ∧
    wpop.qPkt 0 = false ∧ wpop.qPacked 0 = false ∧ (wpop.q 0).pkts = [] ∧ wpop.qParityBad 0 (wpop.qAt 0 0) = false ∧ wpop.rEnt rt.pair rt.seq false = none := by decide
theorem witness_pop_empty : (wq 0).qSel (copyOf rt) = 0 ∧ ((wq 0).q 0).enabled = true ∧ ((wq 0).q 0).claim = false ∧ ((wq 0).q 0).vis = 0 ∧
    (State.reset.q (State.reset.qSel (copyOf rt))).enabled = false := by decide
theorem witness_qcmd : (wq 0).reaches rt 0x0E 0x074 ∧ (wq 0).reaches mon 0x0E 0x118 ∧ (wq 0).qOverlap 0 = none ∧ (wq 0).qBankBad 0 = true ∧ ((wq 0).q 0).enabled = true := by
  unfold State.reaches; decide
theorem witness_qenable : let s := State.reset.set MEMCTL_BANKSTAT_0 0xAAAAAAAA
    s.reaches mon 0x0E 0x118 ∧ s.get QMGR_CSEL_0 = 0 ∧ s.qOverlap 0 = none ∧ s.qBankBad 0 = false ∧ (s.q 0).enabled = false ∧ s.qBase 0 + footprint (s.qL 0) ≤ 0x38000 := by
  unfold State.reaches; decide

/-! ConsistPortsPorterAndBanks -/

theorem witness_ports : let s := State.reset.set (ETH_LINK_STAT_0 1) 1
    (1 : Fin 4).val < s.nPorts ∧ s.flag (ETH_LINK_STAT_0 (1 : Fin 4).val) = true ∧ s.flag (ETH_LINK_STAT_0 (0 : Fin 4).val) = false := by decide
theorem witness_training : let s := State.reset.set (ETH_LINK_CTL_0 1) 1
    (1 : Fin 4).val < s.nPorts ∧ s.flag (ETH_LINK_CTL_0 1) = true ∧ s.flag (ETH_up 1) = false := by decide
def wport (st rej : Nat) : State := (State.reset.set PORTER_state st).updW fun p => { p with last := 1000, len := 250, rejects := rej, run := true }
theorem witness_strobe : (wport 2 0).get PORTER_state = 2 ∧ (wport 2 0).inTol 1250 (1000 + 250) = true ∧ (wport 2 0).inTol 900000 (1000 + 250) = false ∧
    (wport 2 0).cons.porter.rejects + 1 < 3 ∧ 3 ≤ (wport 2 2).cons.porter.rejects + 1 ∧ (wport 0 0).get PORTER_state = 0 := by decide
theorem witness_strobe_acquired : let s := (wport 1 0).updW fun p => { p with acqLast := some 1000, acqLen := some 250, good := 1 }
    s.get PORTER_state = 1 ∧ s.cons.porter.acqLast = some 1000 ∧ s.cons.porter.acqLen = some 250 ∧ s.cons.porter.good = 1 ∧ s.inTol 1250 (1000 + 250) = true := by decide
theorem witness_window : let s := ((wport 2 0).set (PORTER_W_SCHED_12 3) 1).set PWR_doze 0
    ¬ (512 ≤ 3 ∨ s.get PORTER_state ≠ 2 ∨ s.cons.porter.run = false ∨ s.get (PORTER_W_SCHED_12 (s.actW 3)) = 0 ∨
      (s.get (PORTER_W_SCHED_12 (s.actW 3)) = 3 ∧ s.inCharge = false) ∨ s.consMute = true) := by decide
theorem witness_window_not : State.reset.get PORTER_state ≠ 2 := by decide
theorem witness_alm : State.reset.reaches mon 0x37 0x04C ∧ State.reset.reaches mon 0x36 0x054 ∧
    (State.reset.listed ALM_E_SCHED_12).filter (fun e => e / 4096 = 1 - State.reset.get ALMANAC_active_bank) = [] ∧
    bitOf (State.reset.get ALMANAC_valid) (1 - State.reset.get ALMANAC_active_bank) = false := by unfold State.reaches; decide
theorem witness_alm_refused : let s := ((State.reset.set (ALM_E_SCHED_12 4097) 1).set (ALM_E_LEN_0 4097) 0xFFFF).set ALM_BASIC_0 1
    let all := (s.listed ALM_E_SCHED_12).filter fun e => e / 4096 = 1 - s.get ALMANAC_active_bank
    all.find? (fun e => s.entryRefusal all e != 0) = some 4097 := by decide
theorem witness_alm_arm : let s := (State.reset.set ALMANAC_valid 3).set ALM_SWITCH_0 5
    s.reaches mon 0x36 0x054 ∧ bitOf (s.get ALMANAC_valid) (1 - s.get ALMANAC_active_bank) = true ∧ ahead (s.get ALM_SWITCH_0) (s.get ALM_MCOUNT_0) = true ∧
    ahead ((s.set ALM_SWITCH_0 0).get ALM_SWITCH_0) ((s.set ALM_SWITCH_0 0).get ALM_MCOUNT_0) = false := by unfold State.reaches; decide

/-! ConsistCyclesAndFrames -/

def wex (kind : Nat) : State := ((State.reset.set (ALM_E_SCHED_12 0) kind).set (ALM_E_LEN_0 0) 500).set (ALM_E_SCHED_16 0) 1
theorem witness_matrix : State.reset.posOf State.reset.cons.k = 0 ∧ (State.reset.set CM_SYNC_CTL_0 0).flag CM_SYNC_CTL_0 = false ∧ State.reset.cons.swAt = 0 ∧
    (let s := State.reset.updN fun c => { c with k := 1, act := { b := 1000, m := 2, id := 0 } }; s.posOf s.cons.k ≠ 0) ∧
    (let s := State.reset.updN fun c => { c with swAt := 1 }; s.posOf s.cons.k = 0 ∧ s.cons.swAt = s.mOf s.cons.k + 1) := by decide
theorem witness_fetch : (wex 1).get (ALM_E_SCHED_12 ((wex 1).actE 0)) = 1 ∧ (wex 1).fetchOk ((wex 1).actE 0) [] = false ∧ (wex 0).get (ALM_E_SCHED_12 ((wex 0).actE 0)) ≠ 1 ∧
    (wex 1).listOf ((wex 1).get (ALM_E_LIST_0 0)) ((wex 1).get (ALM_E_LIST_16 0)) = [] := by decide
def won (s : State) : State := (((((s.set ALMANAC_valid 1).set PORTER_state 2).set CLOCKMAKER_state 2).set MIRROR_state 0).set ALM_FA_0 3).set (ALM_E_OWNER_0 0) 3
theorem witness_fetch_ok : (won (wex 1)).get (ALM_E_SCHED_12 ((won (wex 1)).actE 0)) = 1 ∧ (won (wex 1)).fetchOk ((won (wex 1)).actE 0) [] = true := by decide
theorem witness_exclusive : (wex 1).get (ALM_E_SCHED_12 ((wex 1).actE 0)) = 1 ∧ (wex 1).eOccurs ((wex 1).actE 0) (wex 1).cons.k = true ∧ SMap.find? (wex 1).cons.built 0 = none := by decide
theorem witness_exclusive_frame : let s := (wex 1).updN fun c => { c with built := [(0, List.replicate 9 0)] }
    SMap.find? s.cons.built 0 = some (List.replicate 9 0) ∧ s.consMute = false ∧ s.eOccurs (s.actE 0) s.cons.k = true ∧
    s.get (ALM_E_TXOFF_0 (s.actE 0)) * 40 + ((s.exclFrame 0 0 (List.replicate 9 0)).length + 24) * 8 + 2560 ≤ s.get (ALM_E_LEN_0 (s.actE 0)) * 40 := by decide
theorem witness_sync_window : let s := (((won (wex 3)).set CM_SYNC_CTL_1 1).set (CM_N_CFG_31 0) 1).set (CM_N_CFG_0 0) 3
    s.get (ALM_E_SCHED_12 (s.actE 0)) = 3 ∧ s.eOccurs (s.actE 0) s.cons.k = true ∧ s.get (ALM_E_OWNER_0 (s.actE 0)) = s.get ALM_FA_0 ∧ s.consMute = false ∧
    s.syncNode = true ∧ State.reset.syncNode = false := by decide
/-- Entry 0 arbitrating on port 0, which is up and joined with its switch open, and a packet of 20 bytes in queue 0 of class 7. -/
def warb : State :=
  let s := (((((won (wex 2)).set (ETH_up 0) 1).set (ETH_LINK_STAT_3 0) 1).set (ALM_TXQ_31 7) 1).set (PORTER_W_SCHED_12 0) 1).set (PORTER_W_SCHED_16 0) 1
  let s := (((s.updW fun p => { p with opened := [0] }).set (QMGR_CFG_LINES_0 0) 1).set (QMGR_CFG_MODE_0 0) 1).set (ALM_TXQ_0 0) 5
  let s := ([1, 2, 3, 4, 5, 6] : List Nat).foldl (fun s c => s.set (ALM_TXQ_0 c) 5) s
  (s.updQ 0 fun q => { q with enabled := true, occ := 6, vis := 6, pkts := [6] }).hubSet (s.qWord 0 0) 4 20
theorem witness_arbitrating : let e := warb.actE 0
    warb.get (ALM_E_SCHED_12 e) = 2 ∧ warb.eOccurs e warb.cons.k = true ∧ warb.consMute = false ∧ warb.sendPorts (warb.get (ALM_E_SCHED_16 e)) = [0] ∧
    warb.clk.reqDue = [] ∧ warb.clk.answers = [] ∧ warb.classHead = some (0, List.replicate 20 0, false) ∧ frameLen (List.replicate 20 0) + 6 ≤ 1518 := by decide
theorem witness_arbitrating_fits : ((List.replicate 20 (0 : Byte)).length + 30) * 8 + 2560 ≤ warb.get (ALM_E_LEN_0 (warb.actE 0)) * 40 ∧
    ((List.range 8).map fun c => (warb.q (warb.get (ALM_TXQ_0 c))).pkts.length).sum = 1 ∧ etherType (List.replicate 20 0) ≠ 0x88B5 ∧
    warb.flag (TS_PORTCTL_1 0) = false ∧ warb.switchOpen 0 = true ∧
    (let s := warb.set (ALM_E_LEN_0 0) 1; s.get (ALM_E_LEN_0 (s.actE 0)) * 40 < ((List.replicate 20 (0 : Byte)).length + 30) * 8 + 2560) := by decide
theorem witness_receive : let s := State.reset.set (ETH_up 0) 1
    s.flag (ETH_up (0 : Fin 4).val) = true ∧ s.power = .run ∧ s.flag PWR_doze = false ∧ frameLen (List.replicate 20 0) ≤ 1518 ∧
    (List.replicate 20 (0 : Byte)).length + 4 < 64 + tagLen (List.replicate 20 0) ∧ 64 + tagLen (List.replicate 60 0) ≤ (List.replicate 60 (0 : Byte)).length + 4 ∧
    etherType (List.replicate 60 0) ≠ 0x8808 ∧ (s.set (ETH_MAC_LO_0 0) 7).dstOk 0 (List.replicate 60 0) = false ∧ State.reset.flag (ETH_up 0) = false := by decide
theorem witness_receive_long : 1518 < frameLen (List.replicate 1520 0) := by
  unfold frameLen tagLen; rw [List.length_replicate]; split <;> omega
/-- A kind 0 frame of sender 7, entry 0, position 0, matrix cycle 0, one list of no values. -/
def wframe : List Byte := [255, 255, 255, 255, 255, 255, 2, 0, 0, 0, 0, 9, 0x88, 0xB5, 0x10, 0x80, 0, 7, 0, 0, 0, 0, 0, 0, 0, 0] ++ List.replicate 34 0
def wrxf : State := ((((State.reset.set (ETH_up 0) 1).set (ALM_E_SCHED_12 0) 1).set (ALM_E_OWNER_0 0) 7).set (ALM_R_MATCH_31 2) 1).set (ALM_R_MATCH_0 2) 7
theorem witness_receive_kind0 : frameLen wframe ≤ 1518 ∧ 64 + tagLen wframe ≤ wframe.length + 4 ∧ etherType wframe = 0x88B5 ∧ wrxf.dstOk 0 wframe = true ∧ wrxf.rxEntry 7 0 = some 2 ∧
    beAt wframe 16 2 = 7 ∧ (wrxf.set ALM_FA_0 3).get ALM_FA_0 ≠ 7 ∧ beAt wframe 36 2 = wrxf.cons.act.id ∧ wrxf.get (ALM_E_SCHED_12 (wrxf.actE 0)) = 1 ∧
    wrxf.get (ALM_E_OWNER_0 (wrxf.actE 0)) = 7 ∧ bitOf (beAt wframe 15 1) 7 = true ∧ wrxf.timeOk (wrxf.actE 0) 0 0 = true ∧ SMap.get wrxf.cons.rx 2 0 = 0 ∧
    wrxf.flag (ALM_R_TGT_28 2) = false ∧ wrxf.passive = false := by decide
theorem witness_receive_old : let s := wrxf.updN fun c => { c with rx := [(2, 1)] }
    SMap.get s.cons.rx 2 0 ≠ 0 ∧ (ahead 0 ((SMap.get s.cons.rx 2 0 - 1) / 64) || (0 == (SMap.get s.cons.rx 2 0 - 1) / 64 && decide ((SMap.get s.cons.rx 2 0 - 1) % 64 < 0))) = false := by decide
theorem witness_missed : wrxf.lastOcc (wrxf.actE (wrxf.get (ALM_R_MATCH_16 2))) = some 0 ∧ SMap.get wrxf.cons.rx 2 0 = 0 ∧ wrxf.flag (ALM_R_MATCH_31 2) = true ∧
    State.reset.flag (ALM_R_MATCH_31 2) = false ∧ SMap.get (wrxf.updN fun c => { c with rx := [(2, 1)] }).cons.rx 2 0 = wrxf.mOf 0 * 64 + wrxf.posOf 0 + 1 := by decide

/-! ClockmakerCommandsAndPulses -/

theorem witness_time_read : State.reset.power = .run ∧ rt.level ≠ 0 ∧ State.reset.rEnt rt.pair rt.seq false = none := by decide
theorem witness_slew : State.reset.clk.slewRate = 0 ∧ (State.reset.updK fun k => { k with slewRate := 5 }).clk.slewRate ≠ 0 := by decide
theorem witness_holdover : State.reset.get CLOCKMAKER_state ≠ 3 ∧ (State.reset.set CLOCKMAKER_state 3).get CLOCKMAKER_state = 3 := by decide
theorem witness_time_commands : State.reset.reaches mon 0x38 0x070 ∧ State.reset.reaches mon 0x38 0x064 ∧ State.reset.reaches mon 0x38 0x060 ∧
    State.reset.flag CLOCKMAKER_jump_pending = false ∧ (State.reset.set CLOCKMAKER_jump_pending 1).flag CLOCKMAKER_jump_pending = true := by unfold State.reaches; decide
theorem witness_time_set : State.reset.get CLOCKMAKER_state = 0 ∧ (let s := (State.reset.set CLOCKMAKER_state 2).set CM_SYNC_CTL_0 1
    ¬ (s.get CLOCKMAKER_state = 0 ∨ s.get CLOCKMAKER_state = 4 ∨ s.flag CM_SYNC_CTL_0 = false)) := by decide
theorem witness_pulse : let s := (State.reset.set CLOCKMAKER_state 2).set TS_PULSE_0 1
    (s.isS = false ∧ s.flag TS_PULSE_0 = true ∧ s.flag TS_PULSE_1 = false ∧ s.synced = true ∧ s.clk.pulse < s.now / 10 ^ (9 - s.get TS_PULSE_2) + 1) ∧
    (s.set TS_PULSE_1 1).flag TS_PULSE_1 = true ∧ State.reset.flag TS_PULSE_0 = false := by decide

/-! TimeResynchronisation -/

def wres (st : Nat) (d : Int) : State := ((State.reset.set CM_SYNC_CTL_0 1).set CLOCKMAKER_state st).set CM_SYNC_CTL_10 1 |>.set (CM_N_CFG_31 0) 1 |>.set (CM_N_CFG_0 0) 77 |>.updK
  fun k => { k with meas := [(0, (d, none, 2))] }
theorem witness_resync : let s := wres 2 50
    s.posOf s.cons.k = 0 ∧ s.cons.swAt = 0 ∧ s.flag CM_SYNC_CTL_0 = true ∧ s.get CLOCKMAKER_state = 2 ∧
    (((List.range 15).filterMap s.nodeDev).filter fun v => v.st = 2 || v.st = 3 || (unsynced v.st && unsynced 2)).map (fun v => (v.d, v.i)) = [(50, 0)] ∧
    (trimMean [(50, 0)]).getD 0 = 50 ∧ ((50 : Int).natAbs : Int) ≤ s.jumpMax ∧ s.get CM_SYNC_CTL_10 = 1 ∧ ((50 : Int).natAbs : Int) ≤ s.stepMax ∧
    ¬ ((10000000000 : Int).natAbs : Int) ≤ s.jumpMax := by decide
theorem witness_resync_missed : let s := (State.reset.set CM_SYNC_CTL_0 1).set CLOCKMAKER_state 2
    ((List.range 15).filterMap s.nodeDev).map (fun v => v.i) = [] ∧ 0 < s.get CM_SYNC_CTL_10 ∧ s.clk.miss + 1 < s.get CM_SYNC_CTL_14 ∧
    (s.updK fun k => { k with miss := 6 }).get CM_SYNC_CTL_14 ≤ (s.updK fun k => { k with miss := 6 }).clk.miss + 1 := by decide

/-! PollBusMasterAndSlave -/

def wpo (ctl1 : Nat) : State := ((((State.reset.set (POLL_CTL_0 0) 1).set (POLL_CTL_1 0) ctl1).set (POLL_VSTAT_17 0) 3).set MIRROR_state 0).set (POLL_E_SCHED_12 0 0) 2 |>.updPoll 0 fun p => { p with go := true }
theorem witness_poll : (wpo 1).pollPresent (0 : Fin 8).val = true ∧ (wpo 1).flag (POLL_CTL_0 0) = true ∧ (wpo 1).power = .run ∧ (wpo 1).flag (POLL_VSTAT_16 0) = false ∧
    (wpo 1).pollState 0 = 1 ∧ ((wpo 1).poll 0).go = true ∧ (wpo 1).get (POLL_E_SCHED_12 0 ((wpo 1).actP 0 0)) ≠ 3 ∧
    ((wpo 1).poll 0).k % 2 ^ (wpo 1).get (POLL_E_SCHED_0 0 ((wpo 1).actP 0 0)) = (wpo 1).get (POLL_E_SCHED_4 0 ((wpo 1).actP 0 0)) ∧
    (wpo 1).pollShut 0 ((wpo 1).slotStart 0 0) = false ∧ ((wpo 1).set (POLL_tx_silenced 0) 1).pollShut 0 0 = true ∧
    (wpo 1).answerOf 0 { fcode := 2, set := 0, addr := 1, word := 0 } = none ∧ (((wpo 1).updPoll 0 fun p => { p with echo := 2 }).poll 0).echo = 2 := by decide
theorem witness_poll_armed : let s := ((wpo 1).set (POLL_VSTAT_16 0) 1).updPoll 0 fun p => { p with swAt := 2 }
    s.flag (POLL_VSTAT_16 0) = true ∧ (s.poll 0).swAt = max ((s.poll 0).k + 1) (s.now / (500000 * 2 ^ (s.poll 0).per)) % 2 ^ 32 + 1 := by decide
theorem witness_poll_absent : (State.reset.withPending []).pollPresent (0 : Fin 8).val = true ∧ { State.reset with variant := .eulT3S }.pollPresent (7 : Fin 8).val = false := by decide
def wps : State := (wpo 1).updPoll 0 fun p => { p with slot := some { e := 0, n := 2 }, last := some { fcode := 0, set := 0, addr := 5, word := 0 } }
theorem witness_poll_reply : (wps.poll 0).slot = some { e := 0, n := 2 } ∧ (State.reset.poll 0).slot = none ∧ (State.reset.poll 0).last = none ∧
    (wps.set (POLL_SILENT_0 0) 1).get (POLL_SILENT_0 0) ≤ wps.oneMore (POLL_E_STAT_0 0 0) ∧ wps.flag (POLL_E_STAT_8 0 0) = false ∧
    (wps.poll 0).last = some { fcode := 0, set := 0, addr := 5, word := 0 } ∧ ([0, 0] : List Byte).length = 2 := by decide
theorem witness_poll_receive : let s := (wps.set (POLL_R_MATCH_31 0 3) 1).set (POLL_R_MATCH_0 0 3) 5
    let f := fun r => s.flag (POLL_R_MATCH_31 0 r) && s.get (POLL_R_MATCH_0 0 r) == 5 && s.get (POLL_R_MATCH_16 0 r) == 0 && (s.get (POLL_R_MATCH_12 0 r) == 0 || false)
    (s.listed fun e => POLL_R_MATCH_31 0 e).find? f = some 3 ∧ s.flag (POLL_R_TGT_28 0 3) = false ∧ s.passive = false ∧
    (wps.listed fun e => POLL_R_MATCH_31 0 e).find? f = none := by decide
theorem witness_poll_slave : (wpo 0).flag (POLL_CTL_1 0) = false ∧ (wpo 0).passive = false ∧ (wpo 0).flag PWR_doze = false ∧ ((wpo 0).poll 0).silent = false ∧
    ((wpo 0).set (POLL_A_MATCH_31 0 1) 1 |>.set (POLL_A_MATCH_16 0 1) 2).answerOf 0 { fcode := 2, set := 0, addr := 1, word := 0 } = some 1 ∧ (wpo 0).flag (POLL_tx_silenced 0) = false := by decide
theorem witness_poll_commands : State.reset.reaches mon (0x3A + (0 : Fin 8).val) 0x04C ∧ State.reset.reaches mon (0x3A + (0 : Fin 8).val) 0x040 ∧ State.reset.pollListBad 0 = none ∧
    ahead (State.reset.get (POLL_SWITCH_0 0)) (State.reset.get (POLL_BPCOUNT_0 0)) = false ∧
    (let s := State.reset.set (POLL_SWITCH_0 0) 9; ahead (s.get (POLL_SWITCH_0 0)) (s.get (POLL_BPCOUNT_0 0)) = true) := by unfold State.reaches; decide

/-! CanControllers -/

def wcan (st : Nat) : State := ((State.reset.set (CAN_state 0) st).set (CAN_M_STAT_0 0 2) 1).updMb 0 2 fun b => { b with frame := some { id := 5, ext := false, rtr := false, fdf := false, brs := false, esi := false, dlc := 1, data := [7] } }
def wsending : State := (wcan 2).updCan 0 fun k => { k with sending := some 2 }
theorem witness_can_commands : State.reset.reaches mon (0x42 + (0 : Fin 16).val) 0x054 ∧ (wcan 0).get (CAN_state 0) = 0 ∧ (wcan 2).get (CAN_state 0) ≠ 0 ∧ ((wcan 2).can 0).sending = none ∧
    (wsending.can 0).sending ≠ none ∧ (wcan 4).get (CAN_state 0) = 4 ∧ State.reset.isF = true := by unfold State.reaches; decide
theorem witness_can_redetect : let s := { wcan 2 with variant := .eulT3C }
    s.isF = false ∧ 2 ≤ s.get (CAN_state 0) ∧ (s.can 0).sending = none := by decide
theorem witness_can_recover : let s := (wcan 4).updCan 0 fun k => { k with recov := true }
    s.get (CAN_state 0) = 4 ∧ (s.can 0).recov = true ∧ (wcan 3).get (CAN_state 0) = 3 ∧ ¬ ((wcan 3).flag (CAN_CTL_0 0) = true ∨ (wcan 3).passive = true) := by decide
theorem witness_can_start_of_frame : ¬ ((wcan 2).get (CAN_state 0) ≠ 2 ∨ ((wcan 2).can 0).sending ≠ none ∨ (wcan 2).flag PWR_doze = true ∨ (wcan 2).power ≠ .run ∨ (wcan 2).mbReady 0 = []) := by decide
theorem witness_can_sent : (wsending.can 0).sending = some 2 ∧ (wsending.mb 0 2).frame.isSome = true ∧ (wsending.mb 0 2).next = none ∧ wsending.get (CAN_M_CTL_8 0 2) ≠ 1 ∧
    (wsending.can 0).redReq = false ∧ (wsending.can 0).stopReq = false ∧ wsending.flag (CAN_CTL_1 0) = false ∧ (wsending.set (CAN_CTL_1 0) 1).flag (CAN_CTL_1 0) = true ∧
    255 < (wsending.set (CAN_ERRCNT_0 0) 250).get (CAN_ERRCNT_0 0) + 8 := by decide
theorem witness_can_receive : let f : CanFrame := { id := 5, ext := false, rtr := false, fdf := false, brs := false, esi := false, dlc := 1, data := [7] }
    let s := ((((wcan 3).set (CAN_F_CTL_0 0 1) 1).set (CAN_F_CTL_1 0 1) 1).set (CAN_F_CTL_4 0 1) 1).set (CAN_F_ID_0 0 1) 5
    (List.range 128).find? (fun i => s.filterHit 0 i f) = some 1 ∧ s.get (CAN_F_CTL_4 0 1) = 1 ∧ s.isF = true ∧ s.passive = false := by decide
theorem witness_can_no_filter : let f : CanFrame := { id := 5, ext := false, rtr := false, fdf := false, brs := false, esi := false, dlc := 1, data := [7] }
    (List.range 128).all fun i => !(wcan 2).filterHit 0 i f := by decide
theorem witness_can_detect : let s := { wcan 1 with variant := .eulT3C }
    s.isF = false ∧ (s.can 0).cnt + 1 < s.get (CAN_AUTO_0 0) ∧ (let t := s.updCan 0 fun k => { k with cnt := 9 }; t.get (CAN_AUTO_0 0) ≤ (t.can 0).cnt + 1) := by decide

/-! FieldIoLinksAndIslands -/

def wfio (i st : Nat) : State := (State.reset.set (FIO_state i) st).updIl i fun q => { q with alive := true, linked := true, applied := 0x0F }
theorem witness_fio_commands : State.reset.reaches mon (0x52 + (8 : Fin 12).val) 0x040 ∧ State.reset.get (FIO_state 8) = 0 ∧ (wfio 8 4).get (FIO_state 8) = 4 ∧ (wfio 8 2).islOn 8 = true ∧
    State.reset.islOn 8 = false ∧ (wfio 8 5).get (FIO_state 8) = 5 ∧ State.reset.reaches mon (0x52 + (8 : Fin 12).val) 0x100 ∧ State.reset.reaches mon (0x52 + (2 : Fin 12).val) 0x100 := by
  unfold State.reaches; decide
theorem witness_fio_load : State.reset.islandPresent 8 = true ∧ (wfio 8 1).get (FIO_state 8) = 1 ∧ (State.reset.set (FIO_state 8) 9).get (FIO_state 8) = 1 := by decide
theorem witness_fio_slot : (wfio 2 2).islOn 2 = true ∧ ((wfio 2 2).il 2).alive = true ∧ (wfio 2 2).passive = false ∧ ((wfio 2 2).setLatch ⟨true, true, true⟩ 1).passive = true ∧
    (((wfio 2 2).updIl 2 fun q => { q with slots := some 6 }).il 2).slots = some 6 ∧ ((wfio 2 2).updIl 2 fun q => { q with slots := some 6 }).pulseDue 2 = false ∧
    ((wfio 2 2).il 2).halt = false := by decide
set_option maxRecDepth 20000 in
theorem witness_fio_uplink : uplinkGood 8 (islFrame [0xA0, 0, 1, 0, 0, 0]) 10 = true ∧ beAt (islFrame [0xA0, 0, 1, 0, 0, 0]) 2 1 = 1 ∧ uplinkGood 8 (islFrame [0xA0, 0, 0, 0, 0, 0]) 10 = true ∧
    uplinkGood 8 (islFrame [0x90, 0, 0, 0, 0, 0]) 9 = true ∧ uplinkGood 2 (islFrame [0x80, 0, 0, 0, 0, 0]) 8 = true ∧ uplinkGood 2 (islFrame [0x84, 0, 0, 0, 0, 0]) 8 = true ∧
    uplinkGood 2 [] 8 = false ∧ bitOf (beAt (islFrame [0x84, 0, 0, 0, 0, 0]) 0 1) 2 = true := by decide
theorem witness_fio_miss : (wfio 2 2).get (FIO_state 2) = 2 ∧ 3 ≤ ((wfio 2 2).set (FIO_LINK_0 2) 2).get (FIO_LINK_0 2) + 1 := by decide
theorem witness_island_faults : ((wfio 8 2).il 8).drive ≠ 0 ∧ bitOf ((wfio 8 2).il 8).drive (1 : Fin 8).val = true ∧ (State.reset.il 8).alive = false ∧
    { State.reset with variant := .eulT3S }.islandPresent 11 = false := by decide

/-! SpeedUnit -/

def wspd (st : Nat) : State := ((State.reset.set SPD_CFG_0 3).set SPD_CFG_8 1).updSp 0 fun c => { c with st := st }
theorem witness_speed_channel : (wspd 2).spdPresent (0 : Fin 8).val = true ∧ ((wspd 2).sp 0).st = 2 ∧ ((wspd 0).sp 0).st = 0 ∧ trackFault ((wspd 2).get (SPD_C_CFG_0 0)) 400 = true ∧
    trackFault ((wspd 2).get (SPD_C_CFG_0 0)) 200 = false ∧ ((wspd 1).sp 0).st = 1 ∧ ((wspd 1).sp 0).f1 = false ∧ ((wspd 1).sp 0).f2 = false ∧ ((wspd 1).sp 0).fs = false := by decide
theorem witness_speed_edge : let c := (wspd 2).sp 0
    (c.edge ((wspd 2).spdPar 0) true false 5).2.fail = 0 ∧ (quadPos true false + 4 - quadPos c.t1 c.t2) % 4 = 1 ∧ (quadPos true true + 4 - quadPos c.t1 c.t2) % 4 = 2 ∧
    ({ c with qerrs := [1, 2] }.edge ((wspd 2).spdPar 0) true true 5).2.fail = 6 ∧ ({ c with qerrs := [1, 2] }.edge ((wspd 2).spdPar 0) true true 5).1.st = 2 := by decide
theorem witness_speed_frozen : let s := (wspd 2).updSp 1 fun c => { c with st := 2, still := false, tLast := 4000, tEnd := some 0, dir := 1 }
    let t := ((s.set (SPD_C_CFG_16 1) 100).set SPD_WHEEL_0 9000).set SPD_WHEEL_16 60
    t.spdWitness 0 = true ∧ (wspd 2).spdWitness 0 = false ∧ (t.sp 0).st = 2 := by decide
theorem witness_speed_cons : ((bitList 8 3).filter fun n => ((wspd 2).sp n).st = 2).length = 1 ∧ ((bitList 8 3).filter fun n => ((wspd 1).sp n).st = 2).length < max 1 1 := by decide
theorem witness_speed_evaluation : ((wspd 2).set SPEED_loaded 1).flag SPEED_loaded = true ∧ ((wspd 2).set CYCLE_running 1).flag CYCLE_running = true ∧ (wspd 2).flag CYCLE_running = false ∧
    State.reset.flag SPEED_loaded = false := by decide
theorem witness_speed_command : (wspd 3).reaches mon 0x5E 0x05C ∧ (wspd 3).readmitNo 0 = 1 ∧ ((wspd 3).set SPD_CONS_STAT_0 3).readmitNo 0 = 0 ∧ ((wspd 3).sp 0).st = 3 := by
  unfold State.reaches; decide

/-! MillwrightStatesAndPermits -/

/-- A parameter ROM with its CRC. -/
def wrom (r : SMap Byte) : SMap Byte := writeBytes r 0xFFC (beBytes 4 (crc32c 0xFFFFFFFF ((List.range 0xFFC).map fun i => SMap.get r i 0) ^^^ 0xFFFFFFFF))
theorem witness_rom (r : SMap Byte) (m : MwS) : ({ m with rom := wrom r } : MwS).romGood = true := by
  have e : (List.range 0xFFC).map (fun i => SMap.get (wrom r) i 0) = (List.range 0xFFC).map fun i => SMap.get r i 0 :=
    List.map_congr_left fun i h => get_writeBytes_out (Or.inl (List.mem_range.mp h))
  unfold MwS.romGood MwS.romAt
  dsimp only
  rw [e]
  generalize hv : crc32c 0xFFFFFFFF ((List.range 0xFFC).map fun i => SMap.get r i 0) ^^^ 0xFFFFFFFF = v
  have hl : v < 2 ^ 32 := hv ▸ Nat.xor_lt_two_pow (crc32c_lt _ (by decide)) (by decide)
  have g : (List.range 4).map (fun i => SMap.get (wrom r) (0xFFC + i) 0) = beBytes 4 v := by
    apply List.ext_getElem
    · rw [beBytes_length]; rfl
    · intro i h1 h2
      rw [List.getElem_map, List.getElem_range]
      unfold wrom
      rw [hv]
      exact get_writeBytes_in h2
  rw [g, beNat_beBytes, show (256 : Nat) ^ 4 = 2 ^ 32 from rfl, Nat.mod_eq_of_lt hl]
  exact beq_self_eq_true v
theorem witness_prof : ({ MwS.init with rom := wrom [(0x101, 1)], img := 16 + 60 * 2 ^ 36 } : MwS).prof 0 2 ≠ 0 := by
  have : ∀ o < 0xFFC, SMap.get (wrom [(0x101, 1)]) o 0 = SMap.get ([(0x101, 1)] : SMap Byte) o 0 := fun o h => get_writeBytes_out (Or.inl h)
  unfold MwS.prof MwS.romAt
  simp only [List.range_succ, List.range_zero, List.nil_append, List.cons_append, List.map_cons, List.map_nil]
  rw [this _ (by decide), this _ (by decide)]
  decide
def wmw (st : Nat) : State := State.reset.updMw fun m => { m with st := st, rom := [(0x102, 3), (0x103, 1)], ch := [(0, { SpdChan.init with st := 2, still := false })] }
theorem witness_mw_reset : State.reset.mwOut ≠ 0 ∧ State.reset.mw.st = 0 ∧ (wmw 0).mw.img = 0 ∧ swLegal (16 + 60 * 2 ^ 36) = true ∧ swLegal 0 = false ∧ (MwS.init.prof 0 2) = 0 := by decide
theorem witness_mw_channel : (0 : Fin 8).val < (wmw 2).mwOut ∧ ((wmw 2).mw.chan 0).st = 2 ∧ trackFault 1 500 = true ∧ trackFault 1 100 = false ∧ ((wmw 2).mw.chan 5).st = 0 ∧
    max 1 ((wmw 2).mw.prof 3 1) ≤ ((bitList 8 ((wmw 2).mw.prof 2 1)).filter fun n => ((wmw 2).mw.chan n).st = 2).length ∧ (wmw 2).mwWitness 0 = false := by decide
def wfz : State := (wmw 2).updMw fun m =>
  let c : SMap SpdChan := [(0, { SpdChan.init with st := 2, still := false }), (1, { SpdChan.init with st := 2, still := false, tLast := 4000, tEnd := some 0, dir := 1 })]
  { m with img := 60 * 2 ^ 36, rom := [(0x102, 3), (0x103, 1), (0x104, 255)], ch := c }
theorem witness_mw_frozen : wfz.mwWitness 0 = true ∧ (wfz.mw.chan 0).st = 2 ∧ 0 < wfz.mwOut := by decide
def wsp : State := (wmw 2).updMw fun m => { m with hub := [0, 0, 0, 0, 0, 0, 0, 0, 0, 127, 255, 255, 255] }
theorem witness_mw_stops : wsp.mw.st = 2 ∧ wsp.mw.agreeLane (wsp.mw.cons wsp.mwNow) = false ∧ wsp.mw.agreeUnit (wsp.mw.cons wsp.mwNow) = false ∧
    (false && wsp.mw.romGood) = false ∧ { State.reset with variant := .eulT3S }.mwOut = 0 := by decide
set_option maxRecDepth 20000 in
theorem witness_mw_hub_frame : mwFrameOk 1 (mwFrame (0x10 :: List.replicate 15 0)) = true ∧ beAt (mwFrame (0x10 :: List.replicate 15 0)) 0 1 % 16 = 0 ∧ (wmw 2).mw.seqIn = 0 ∧
    mwFrameOk 1 [] = false := by decide
theorem witness_mw_hub_slices : bitOf (beAt ([0x10, 0, 0, 1] ++ List.replicate 16 0) 3 1) 0 = true ∧ beAt ([0x10, 0, 0, 1] ++ List.replicate 16 0) 13 2 = swSlice 0 0 ∧
    beAt ([0x10, 0, 0, 1] ++ List.replicate 16 0) 13 2 ≠ swSlice 16 0 := by decide

/-! SafetyOutputs -/

def wso : State := { State.reset.set SO_STATE_0 3 with so := { SoS.init with cmd := 3, bad := [(1 * 8 + 2, 2)], want := 1 } }
theorem witness_so : wso.mwOut ≠ 0 ∧ mwFrameOk 2 [] = false ∧ wso.so.noSup = false ∧
    (bitOf (wso.get SO_STATE_0) 1 != bitOf wso.so.cmd 1 || bitOf 0 1 != bitOf wso.so.permit 1) = false ∧ SMap.get wso.so.blank 1 0 = 0 ∧
    (2, true) ∈ soConditions (bitOf (wso.get SO_STATE_0) 1) (bitOf 1 1) (bitOf 0 1) (bitOf 0 1) (bitOf (wso.get MW_PERMIT_0) 1) true (wso.flag (SO_BIND_21 1) && !wso.inCharge) ∧
    2 ≤ SMap.get wso.so.bad (8 * 1 + 2) 0 ∧ (bitOf (wso.get SO_STATE_0) 1 != bitOf wso.so.cmd 1 || bitOf 2 1 != bitOf wso.so.permit 1) = true := by decide
theorem witness_so_rounds : (0 : Fin 8).val < wso.mwOut ∧ bitOf (wso.get SO_STATE_0) 0 = true ∧ bitOf (wso.get SO_STATE_0) 5 = false ∧
    (wso.updSo fun o => { o with test := some 1 }).so.test = some 1 ∧ wso.so.want ≠ 0 ∧ State.reset.so.want = 0 ∧ State.reset.so.test = none ∧
    ((List.range State.reset.mwOut).filter fun n => bitOf (State.reset.get SO_STATE_0) n && !bitOf (State.reset.get SO_FAILED_0) n) = [] := by decide
theorem witness_so_run_now : wso.reaches mon 0x60 0x048 := by unfold State.reaches; decide
set_option maxRecDepth 20000 in
theorem witness_so_frame : let b := mwFrame ([0x20, 1, 4] ++ List.replicate 13 0)
    mwFrameOk 2 b = true ∧ wso.so.mwSeq = 0 ∧ beAt b 1 1 ≠ wso.get MW_PERMIT_0 ∧ beAt b 2 1 % 8 = 4 ∧ wso.get MILLWRIGHT_state ≠ 4 := by decide

/-! SwitchesAndSafeConnections -/

def wrx : SafeRx := { carrier := 0, src := 0x10001, endpoint := 1, dst := 1, period := 10, texp := 10, maxAge := 0, maxGap := 4, kGood := 2, crcMax := 2, recMin := 100, autoRec := true }
def wsm (st : Nat) : State := { ((State.reset.set (SM_R_STAT_0 0) st).set (SM_R_BIND_31 0) 1) with safe := { State.reset.safe with rx := [wrx] }, counter := 50000000 }
theorem witness_sm : (wsm 2).safe.rx[(0 : Fin 64).val]? = some wrx ∧ (wsm 2).get (SM_R_STAT_0 0) = 2 ∧ (wsm 3).get (SM_R_STAT_0 0) = 3 ∧ wrx.autoRec = true ∧
    (wsm 2).safe.rx[(1 : Fin 64).val]? = none ∧ (wsm 0).get (SM_R_STAT_0 0) = 0 ∧ (wsm 3).flag (SM_R_BIND_31 0) = true ∧
    ((wsm 3).rxRun 0).failedAt + wrx.recMin * 500000 ≤ (wsm 3).counter ∧ ({ (wsm 3) with counter := 5 } : State).counter < ((wsm 3).rxRun 0).failedAt + wrx.recMin * 500000 := by decide
theorem witness_sm_reset : (wsm 3).reaches mon 0x61 0x044 := by unfold State.reaches; decide
def wsw : State := { (State.reset.set SWITCHES_passed 1) with swRun := [(4, 9), (60, 9), (64, 9)], mw := { MwS.init with st := 2 } }
theorem witness_sw : let d := swDebounce wsw.swRun 0 wsw.swRead (2 ^ 4 + 2 ^ 60) 64
    d.1 % 2 ^ 60 ≠ 0 ∧ bitOf d.1 60 = true ∧ wsw.flag SWITCHES_passed = true ∧ wsw.flag SWITCHES_changed = false ∧ wsw.mw.st = 2 ∧ wsw.mwOut ≠ 0 ∧
    (swDebounce d.2 64 wsw.mw.img 1 60).1 ≠ 0 ∧ (swDebounce wsw.swRun 0 wsw.swRead 0 64).1 = 0 ∧ (wsw.set SWITCHES_mw_diff 1).flag SWITCHES_mw_diff = true := by decide

/-! TallymanAndLatchedReads -/

theorem witness_tally : bitOf (State.reset.get TALLY_masked) 0 = false ∧ State.reset.flag (TALLY_HP_0 0) = true ∧ State.reset.flag (TALLY_HP_0 1) = false ∧
    SMap.get State.reset.tally.used 0 0 + 1 < State.reset.get (TALLY_HP_1 0) ∧ bitOf ((State.reset.set TALLY_masked 1).get TALLY_masked) 0 = true ∧
    (State.reset.updTl fun y => { y with used := [(0, 3)] }).get (TALLY_HP_1 0) ≤ SMap.get (State.reset.updTl fun y => { y with used := [(0, 3)] }).tally.used 0 0 + 1 := by decide
theorem witness_latched : State.reset.power = .run ∧ rt.level ≠ 0 ∧ bitOf (State.reset.byVar 0x3F 0x33 0x13) (0 : Fin 6).val = true ∧ State.reset.isS = false ∧
    { State.reset with variant := .eulT3S }.isS = true ∧ bitOf ({ State.reset with variant := .eulT3S }.byVar 0x3F 0x33 0x13) 2 = false ∧ State.reset.pagePresent 0x0D = true ∧
    State.reset.rEnt rt.pair rt.seq false = none := by decide

/-! RegisterWrites -/

theorem witness_write : State.reset.reaches mon 0x0D 0x040 ∧ State.reset.reaches mon 0x0D (0x080 + 4 * 2) ∧ State.reset.reaches mon 0x5A 0x090 ∧ State.reset.reaches mon 0x0B 0x040 ∧
    State.reset.reaches mon 0x42 0x050 ∧ State.reset.regAbsent 0x42 0x050 = true ∧ State.reset.flag CYCLE_run = false ∧ writeLevel 0x0D 0x040 = 2 ∧ rt.level = 1 := by
  unfold State.reaches; decide
theorem witness_write_ignored : ((State.reset.set (CAN_state 0) 2).get (CAN_state 0) ≠ 0) ∧ ((wq 0).q ((wq 0).get QMGR_CSEL_0)).enabled = true ∧
    State.reset.get ALM_ESEL_12 = State.reset.get ALMANAC_active_bank ∧ State.reset.get (POLL_ESEL_10 0) = State.reset.pollBank 0 ∧ (State.reset.set BR_CTL_0 1).flag BR_CTL_0 = true ∧
    State.reset.cmdWrite mon 0x36 0x100 0 = none := by decide
theorem witness_write_ignored_reach : State.reset.reaches mon 0x36 0x100 ∧ State.reset.writeIgnored 0x36 0x100 = true ∧ { State.reset with power := .off }.power ≠ .run ∧
    { State.reset with variant := .eulT3S }.pagePresent 0x62 = false := by unfold State.reaches; decide

/-! PairSegmentsAndSets -/

def wmir (st : Nat) : State := (((State.reset.set MIRROR_state st).set MIR_CTL_16 3).set MIR_PARTNER_8 3)
theorem witness_mir_hello : (wmir 1).linksLive = true ∧ (wmir 1).get MIRROR_state = 1 ∧ State.reset.linksLive = false ∧ bitOf ((wmir 1).get MIR_CTL_16) (0 : Fin 2).val = true ∧
    segGood [] = false := by decide
set_option maxRecDepth 40000 in
theorem witness_mir_segment : let g := segment 0x4D 1 0 7 ((wmir 2).leaseRec 0)
    segGood g = true ∧ beAt g 0 1 = 0x4D ∧ ¬ ((wmir 3).mir.applied = beAt g 4 8 + 1) ∧ (wmir 3).mir.segs = [] ∧ leaseIn g = some ((wmir 2).leaseRec 0) ∧
    beAt ((wmir 2).leaseRec 0) 1 1 % 8 = 2 ∧ bitOf (beAt ((wmir 2).leaseRec 0) 1 1) 5 = false ∧ beAt ((wmir 2).leaseRec 0) 2 2 % 2 = (wmir 1).get SW_CFG_LO_0 % 2 ∧
    beAt ((wmir 2).leaseRec 0) 8 4 = (wmir 1).img.cfgId := by decide
theorem witness_mir_set : let s := (wmir 3).updMir fun m => { m with setN := 8, segs := [(0, [0x4D, 1, 0, 0, 0, 0, 0, 0, 0, 0, 0, 7, 0, 0, 0, 0])] }
    s.get MIRROR_state = 3 ∧ s.mir.applied ≠ s.mir.setN ∧ s.wholeSet = some [[0x4D, 1, 0, 0, 0, 0, 0, 0, 0, 0, 0, 7, 0, 0, 0, 0]] ∧ State.reset.wholeSet = none := by decide
theorem witness_mir_records : let s : State := { State.reset with safe := { State.reset.safe with tx := [{ source := 0, carrier := 1, dest := 0x10001, endpoint := 1 }] } }
    beAt [5, 0, 0, 0, 0, 0, 0, 9] 0 1 = 5 ∧ beAt [5, 0, 0, 0, 0, 0, 0, 9] 2 2 < s.safe.tx.length ∧ bitOf (beAt [1, 32] 1 1) 5 = true ∧ s.mir.almN = 0 ∧ s.var (beAt [2, 0, 0, 0] 2 2) = none := by decide

/-! PairStates -/

theorem witness_mir_states : (wmir 3).linksLive = true ∧ bitOf ((wmir 3).get MIR_PARTNER_8) (0 : Fin 2).val = true ∧ ((wmir 3).updMir fun m => { m with own := [0] }).ownRecent = true ∧ (wmir 1).mir.pSeen = 0 ∧ (wmir 1).mir.ownSeen = false ∧
    ((wmir 1).updMir fun m => { m with ownSeen := true }).mir.ownSeen = true ∧ ((wmir 3).updMir fun m => { m with renewed := 1 }).mir.renewed ≠ 0 ∧ (wmir 3).mir.expired = false ∧
    ((wmir 3).set MIRROR_sync 1).flag MIRROR_sync = true ∧ (wmir 3).ownRecent = false ∧ (wmir 3).flag MIRROR_sync = false ∧ (wmir 3).get MIRROR_state = 3 ∧ (wmir 2).get MIRROR_state = 2 := by decide
theorem witness_mir_commands : (wmir 2).reaches mon 0x34 0x048 ∧ (wmir 3).reaches mon 0x34 0x048 ∧ (wmir 3).mir.renewed = 0 ∧ (wmir 3).mir.pActive = 0 ∧
    ((wmir 3).updMir fun m => { m with own := [0] }).ownRecent = true ∧ ((((wmir 2).set MIR_PARTNER_0 3).set MIR_PARTNER_5 1).set MIR_PARTNER_3 1).get MIR_PARTNER_0 = 3 ∧
    ((wmir 3).updMir fun m => { m with pActive := 1 }).counter < ((wmir 3).updMir fun m => { m with pActive := 1 }).mir.pActive - 1 + 500000 := by unfold State.reaches; decide

/-! LedgerRecordsAndFlushes -/

def wlr (sev : Nat) : LRec := { code := 0x1001, sev := sev, tenant := 0xFF, params := [0, 0, 0, 0] }
def wlg : State := State.reset.set LEDGER_mounted 1
def wlk : LKept := { wlg.ledgerForm (wlr 3) false 0 with staged := true }
theorem witness_ledger_record : wlg.flag LEDGER_frozen = false ∧ wlg.flag LEDGER_fmt = false ∧ SMap.get wlg.ledger.spent (wlg.bucketOf 0x1001) 0 < wlg.burstOf (wlg.bucketOf 0x1001) ∧
    wlg.flag LEDGER_mounted = true ∧ (wlg.ledger.recs.filter (·.staged)).length < 32768 ∧ State.reset.flag LEDGER_mounted = false ∧ State.reset.ledger.startBuf.length < 256 ∧
    (wlg.set LEDGER_frozen 1).flag LEDGER_frozen = true ∧ ((wlg.updLg fun g => { g with spent := [(4096, 1000)] }).burstOf 4096 ≤ 1000) := by decide
theorem witness_ledger_port : wlg.reaches rt 7 0x114 ∧ wlg.reaches rt 7 0x044 := by unfold State.reaches; decide
theorem witness_ledger_repeat : let s := (wlg.set LEDGER_fmt 1).updLg fun g => { g with recs := [wlk] }
    s.flag LEDGER_fmt = true ∧ s.ledger.recs.getLast? = some wlk ∧ wlk.flushed = false ∧ wlk.code = (s.ledgerForm (wlr 3) false 0).code ∧ wlk.sev = (s.ledgerForm (wlr 3) false 0).sev ∧
    wlk.params = (s.ledgerForm (wlr 3) false 0).params ∧ s.ledger.flushing = false ∧ s.unflushed ≠ [] ∧ s.flag LEDGER_mounted = true := by decide
theorem witness_ledger_full (f : Bool) (sev : Nat) : let s := wlg.updLg fun g => { g with recs := List.replicate 32768 { wlk with flushed := f, sev := sev } }
    32768 ≤ (s.ledger.recs.filter (·.staged)).length ∧ ∀ e ∈ s.ledger.recs, e.flushed = f ∧ e.sev = sev ∧ e.staged = true := by
  refine ⟨?_, fun e he => ?_⟩
  · show 32768 ≤ ((List.replicate 32768 _).filter _).length
    rw [List.filter_replicate_of_pos rfl, List.length_replicate]
  · rw [List.eq_of_mem_replicate he]; exact ⟨rfl, rfl, rfl⟩
theorem witness_ledger_flush : (wlg.updLg fun g => { g with flushing := true }).ledger.flushing = true ∧ wlg.power ≠ .off ∧ wlg.ledger.ms < 999 ∧ wlg.ledger.dropN = 0 ∧ wlg.ledger.refused = [] := by decide

/-! LedgerFreezeAndWindow -/

theorem witness_ledger_freeze : wlg.reaches rt 7 0x044 ∧ wlg.reaches rt 7 0x080 ∧ wlg.reaches mon 7 0x040 ∧ wlg.reaches mon 7 0x140 ∧ wlg.reaches mon 7 0x144 ∧ wlg.reaches mon 7 0x150 ∧
    ¬ (wlg.flag LEDGER_frozen = true) ∧ (wlg.set LEDGER_frozen 1).flag LEDGER_frozen = true ∧ wlg.flag CYCLE_running = false ∧
    ((wlg.set LEDGER_frozen 1).set LG_OPTIME_0 200).ledger.frozenAt + 120 * 1000 ≤ ((wlg.set LEDGER_frozen 1).set LG_OPTIME_0 200).opMs := by unfold State.reaches; decide
theorem witness_ledger_window : let s := wlg.updLg fun g => { g with move := some (some wlk), recs := [wlk, { wlk with seq := 1 }, { wlk with seq := 2 }] }
    s.ledger.move = some (some wlk) ∧ s.ledger.dist 1 < 2 ^ 31 ∧ s.ledger.after 1 ≠ none ∧ s.ledger.before 1 ≠ none ∧ s.ledger.seek 1 ≠ none ∧ 2 ^ 31 ≤ s.ledger.dist 0xFFFFFFFF ∧
    (wlg.updLg fun g => { g with move := some none }).ledger.move = some none ∧ wlg.ledger.move = none := by decide

/-! StorageCommands -/

def wst : State := (State.reset.set STORE_mounted 1).updSt fun t => { t with cmd := some { op := 1, part := 14, lba := 0, count := 1, buf := 0xF00000 } }
theorem witness_store : wst.reaches mon 6 0x050 ∧ wst.flag STORE_mounted = true ∧ wst.flag STORE_busy = false ∧ (wst.set STORE_busy 1).flag STORE_busy = true ∧ wst.get ST_PART_0 = 14 ∧
    (wst.set ST_PART_0 12).get ST_PART_0 = 12 ∧ (wst.set ST_PART_0 3).get ST_PART_0 = 3 ∧ bitOf ((wst.set ST_PART_0 3).get ST_SLOTOPEN_0) 3 = false ∧
    State.reset.flag STORE_mounted = false := by unfold State.reaches; decide
theorem witness_store_end : wst.store.cmd = some { op := 1, part := 14, lba := 0, count := 1, buf := 0xF00000 } ∧ (∃ d ∈ stDevs 14 (0 + 0), (wst.dev d).failed = false) ∧
    (∀ d : Fin 2, wst.flag (ST_D_STAT_2 d.val) = false) ∧ State.reset.store.cmd = none ∧ (∀ d ∈ stDevs 14 0, ((wst.devFail 0).dev d).failed = true) := by decide

/-! StoreUpkeepAndCard -/

theorem witness_nand : wst.flag STORE_mounted = true ∧ (wst.dev 0).failed = false ∧ ((wst.set (ST_D_SCRUB_0 0) 28671).get (ST_D_SCRUB_0 0)) + 1 = 28672 ∧
    State.reset.power = .run ∧ ((wst.devFail 0).dev 0).failed = true := by decide
theorem witness_wear : let v := (wst.updDev 0 fun v => { v with erase := [(7, 700)] }).dev 0
    v.leastWorn.2 + 600 < v.worst ∧ v.failed = false := by
  intro v
  have h : v.leastWorn.2 = 0 := congrArg Prod.snd (if_pos (by decide) : v.leastWorn = (_, 0))
  rw [h]
  decide
def wsd : State := ((((State.reset.set SDSLOT_present 1).set SD_STAT_0 1).set SD_CAP_0 100).updQ 0 fun q => { q with enabled := true }).set (QMGR_CFG_MODE_0 0) 1
theorem witness_sd : wsd.reaches mon 0x63 0x04C ∧ wsd.flag SDSLOT_busy = false ∧ wsd.flag SDSLOT_present = true ∧ wsd.flag SD_STAT_0 = true ∧ wsd.get SD_LBA_0 + clampR 1 32 (wsd.get SD_COUNT_0) ≤ wsd.get SD_CAP_0 ∧
    (wsd.q (wsd.get SD_QUEUE_0)).enabled = true ∧ wsd.qPkt (wsd.get SD_QUEUE_0) = true ∧ State.reset.flag SDSLOT_present = false ∧ wst.flag SDSLOT_present ≠ true := by unfold State.reaches; decide
theorem witness_sd_end : (wsd.updSt fun t => { t with sdInit := true }).store.sdInit = true ∧ (wsd.updSt fun t => { t with sd := some (0, 1, 0) }).store.sd = some (0, 1, 0) ∧
    ∀ b ∈ [List.replicate 512 (0 : Byte)], b.length = 512 := by
  refine ⟨rfl, rfl, fun b hb => ?_⟩
  rw [List.mem_singleton.mp hb]
  exact List.length_replicate

/-! PowerClocksAndHeat -/

def wth (st step t : Nat) : State := ((State.reset.set THERM_state st).set THERM_step step).set THERM_CTRL_T_0 t
theorem witness_power : State.reset.power = .run ∧ State.reset.flag PWR_ride = false ∧ (State.reset.set PWR_ride 1).flag PWR_ride = true ∧ (State.reset.setPower .stable).power = .stable ∧
    (State.reset.setPower .off).power ≠ .run ∧ State.reset.passive = false ∧ ((State.reset.set LM_STATE_0 lActive).lanesIn lActive) = [0] := by decide
theorem witness_heat : ((wth 0 0 1180).get THERM_state = 0 ∧ (wth 0 0 1180).ctrlT = 1180) ∧ ((wth 3 0 1129).get THERM_state = 3 ∧ (wth 3 0 1129).ctrlT = 1129) ∧ (wth 3 0 1130).ctrlT = 1130 ∧
    (wth 0 0 1080).ctrlT = 1080 ∧ (wth 2 1 1029).get THERM_state = 2 ∧ (wth 2 1 1029).get THERM_step = 1 ∧ (wth 2 1 1030).ctrlT = 1030 ∧ (wth 0 0 1000).ctrlT = 1000 ∧ (wth 0 0 999).ctrlT = 999 ∧
    (wth 1 0 949).get THERM_state = 1 ∧ (wth 1 0 950).ctrlT = 950 := by decide

/-! StartsAndSleep -/

def wcfg : SignedCfg := { digest := 0, ident := 0, major := 0, good := true, sw := none, quicen := false, arm := 0, own := 0, tx := [], rx := [], image := [], so := [], laneVar := none, speed := none, mirCtl := 0, mirRs := 0 }
theorem witness_start : State.reset.pw.started = false ∧ State.reset.passive = false ∧ State.reset.cyc.restart ≠ 2 ∧ State.reset.retSlot 0 = none ∧
    bitOf (2 ^ 61) 61 = true ∧ (State.reset.offKind 0).1 = 0 ∧ ((State.reset.updCyc fun c => { c with restart := 2 }).offKind 0).2 = 2 ∧ (State.reset.setLatch (Tri.all true) 1).passive = true := by decide
theorem witness_pwr_cmd : State.reset.reaches mon 2 0x040 ∧ (State.reset.set PWR_WAKE_EN_0 8).reaches mon 2 0x040 ∧ (State.reset.set PWR_WAKE_EN_0 8).get PWR_WAKE_EN_0 ≠ 0 ∧
    State.reset.rejoinLane = none ∧ State.reset.lanesIn lDebug = [] ∧ State.reset.flag PWR_doze = false ∧ (State.reset.set PWR_doze 1).flag PWR_doze = true ∧ State.reset.pw.held = none ∧
    State.reset.flag CYCLE_running = false ∧ (State.reset.set CYCLE_running 1).flag CYCLE_running = true := by unfold State.reaches; decide
def wdz : State := ((State.reset.set PWR_doze 1).set LM_STATE_0 lActive)
theorem witness_doze : let s := { wdz with lanes := wdz.lanes.set 0 { (wdz.lanes.get 0) with pairs := ⟨{ PairS.init with stopped := true }, { PairS.init with stopped := true }, { PairS.init with stopped := true }, { PairS.init with stopped := true }⟩ } }
    s.power = .run ∧ s.flag PWR_doze = true ∧ s.allPace = true ∧ s.lanesIn lActive ≠ [] := by decide
theorem witness_wake : let s := (State.reset.set PWR_WAKE_EN_0 8).setPower .stable
    s.wakeEnabled .timer = true ∧ s.power = .stable ∧ State.reset.wakeEnabled .timer = false ∧ ((State.reset.set PWR_WAKE_EN_0 8).updPw fun w => { w with stabDue := true }).pw.stabDue = true := by decide

/-! LocksmithOperations -/

def wlk' (op : Nat) (t : List Byte) : State := (State.reset.set SW_READ_HI_0 (2 ^ 28)).updLk fun k => { k with op := some { op := op, input := t }, n := 1, keys := some (1, 2) }
theorem witness_lock_cmd : (wlk' 1 []).reaches mon 4 0x060 ∧ (wlk' 1 []).lock.op ≠ none ∧ State.reset.reaches mon 4 0x060 ∧ State.reset.lock.op = none := by unfold State.reaches; decide
set_option maxRecDepth 20000 in
theorem witness_lock_token : (wlk' 1 []).life = 1 ∧ (wlk' 1 []).get LK_TAMPER_0 = 0 ∧ (wlk' 1 []).serviceEnable = true ∧ (wlk' 1 []).tokenReason [] 2 false false ≠ 0 ∧ State.reset.life = 0 ∧
    State.reset.serviceEnable = false ∧ (wlk' 3 []).get LK_TAMPER_8 = 0 ∧ transRule 1 (tokParam [0, 0, 0, 0, 0, 0, 0, 0, 0, 0, 0, 0, 0, 0, 0, 0, 0, 0, 0, 0, 0, 0, 0, 0, 0, 0, 0, 2]) = some ([1], 0) ∧
    transRule 1 0 = none ∧ (wlk' 8 []).lock.signedOk [] = none ∧ (wlk' 5 []).lock.keys = some (1, 2) ∧ ((wlk' 5 []).updLk fun k => { k with keys := none }).lock.keys = none ∧ ([] : List Byte).length ≠ 48 := by decide
theorem witness_tamper : let s := ((State.reset.updLk fun k => { k with window := some 5, arm := 1 }).set LK_TAMPER_8 1).set LK_ARM_0 1
    s.lock.window ≠ none ∧ bitOf s.lock.arm 0 = true ∧ bitOf (s.get LK_TAMPER_8) 0 = true ∧ bitOf (s.get LK_ARM_0) (0 : Fin 6).val = true ∧ s.power ≠ .off ∧ s.power ≠ .stable ∧
    bitOf (s.get LK_ARM_0) (1 : Fin 6).val = false := by decide

/-! FieldUpdate -/

def wup (cmd : Nat) : State := State.reset.updU fun u => { u with cmd := cmd }
def wse (slot : Option OpenSlot) : UpdSess := { table := [], raiseFloor := false, version := 1, last := 0, slot := slot }
def wos (f : Bool) : OpenSlot := { type := 1, hdr := [], next := 0, hash := shaIv, digest := none, failed := f }
theorem witness_update_cmd : (wup 0).reaches mon 5 0x040 ∧ (wup 0).upd.cmd = 0 ∧ (wup 2).reaches mon 5 0x040 ∧ (wup 2).upd.cmd ≠ 0 ∧ (wup 0).upd.sess = none ∧ (wup 0).flag SYS_svc_only = false ∧
    (wup 0).upd.onTrial = false ∧ ((wup 0).updU fun u => { u with onTrial := true }).upd.onTrial = true ∧ (wup 0).get UPD_SESSION_0 = tableMask (wse none).table ∧
    ((wup 0).set UPD_SESSION_0 1).get UPD_SESSION_0 ≠ tableMask (wse none).table := by unfold State.reaches; decide
theorem witness_update_end : (wup 1).contOk (wup 1).upd.input = false ∧ (wup 2).hdrReason (wup 2).upd.input = 1 ∧ ((wup 3).updU fun u => { u with sess := some (wse (some (wos true))) }).upd.sess = some (wse (some (wos true))) ∧
    (wse (some (wos true))).slot = some (wos true) ∧ (wos true).failed = true ∧ (wos false).failed = false ∧ (wos false).next ≠ 1 + (hdrLen (wos false).hdr + 4095) / 4096 + 1 := by decide
theorem witness_update_timeouts : State.reset.power = .run ∧ State.reset.upd.booted = false ∧ State.reset.upd.cobbler = false ∧ State.reset.upd.onTrial = false := by decide

/-! QuicenBridge -/

def wbq (k : Nat) : BrReq := { kind := k, addr := 0x100, size := 2, k := 2, tag := 7, data := [1, 2], n := 0, live := true, cls := 0, edge := 0 }
def wbr : State := (((((State.reset.set BR_CTL_0 1).set (QMGR_CFG_MODE_0 0) 1).set (QMGR_CFG_LINES_0 0) 4).set BR_SCANCTL_31 1).set CYCLE_running 1).updQ 0 fun q => { q with enabled := true }
theorem witness_bridge : wbr.isF = true ∧ wbr.passive = false ∧ wbr.power = .run ∧ wbr.flag BR_CTL_0 = true ∧ wbr.get MIRROR_state ≠ 1 ∧ wbr.get MIRROR_state ≠ 3 ∧
    (wbr.q (wbr.get BR_CPLQ_0)).enabled = true ∧ wbr.qPkt (wbr.get BR_CPLQ_0) = true ∧ wbr.qPeek (wbr.get BR_REQQ_0) = none ∧ wbr.brMaster = true ∧ wbr.bridge.bus = none ∧ wbr.bridge.wait = [] ∧
    wbr.flag BRIDGE_in_reset = false ∧ (wbq 1).k = 2 ∧ (wbq 1).n + 1 < (wbq 1).k ∧ (wbq 0).kind < 2 ∧ { State.reset with variant := .eulT3C }.isF = false := by decide
theorem witness_bridge_request : brRefused (leBytes 4 (0x100 + 2 ^ 25 + 2 ^ 30) ++ leBytes 4 7) false = false ∧ brRefused [] false = true ∧ (brReq (leBytes 4 (0x100 + 2 ^ 25 + 2 ^ 30) ++ leBytes 4 7)).kind = 1 ∧
    wbr.brFree (wbq 1) = true ∧ (wbr.updBr fun b => { b with wait := [wbq 1] }).bridge.wait = [wbq 1] ∧ (wbr.updBr fun b => { b with bus := some (wbq 1) }).bridge.bus = some (wbq 1) ∧
    (wbr.updBr fun b => { b with cpl := [brPacket 7 0 0x100 [1]] }).bridge.cpl = [brPacket 7 0 0x100 [1]] ∧ wbr.qRoom 0 12 = true ∧ (wbr.updQ 0 fun q => { q with occ := 64 }).qRoom 0 12 = false ∧
    (wbr.set (CYC_CFG_21 0) 1).flag (CYC_CFG_21 0) = true ∧ ((wbr.set (BR_S_ADDR_31 0) 1).flag (BR_S_ADDR_31 0) = true) ∧ brAligned 0 2 1 = true := by decide
def wpk : State := wbr.qPacket 0 0x62 (leBytes 4 (0x100 + 2 ^ 25 + 2 ^ 30) ++ leBytes 4 7)
theorem witness_bridge_peek : wpk.qPeek (wpk.get BR_REQQ_0) = some (leBytes 4 (0x100 + 2 ^ 25 + 2 ^ 30) ++ leBytes 4 7, false) ∧ wpk.qPkt (wpk.get BR_CPLQ_0) = true ∧ wpk.brMaster = true := by decide
theorem witness_bridge_cmd : wbr.reaches mon 0x62 0x04C := by unfold State.reaches; decide

/-! ServicePortsAndCobbler -/

def wsv : State := (((State.reset.set (SVC_LINK_0 0) 1).set (SVC_CTL_0 0) 1).set (SVC_TXQ_31 0) 1).set (SVC_CTL_1 0) 1
theorem witness_svc : wsv.svcUp 0 = true ∧ (0 : Fin 2).val < wsv.nSvc ∧ wsv.power = .run ∧ wsv.svcFits 0 2 = true ∧ wsv.flag (SVC_LINK_0 0) ≠ false ∧ wsv.flag (SVC_LINK_0 1) = false ∧ State.reset.svcUp 0 = false ∧
    frameLen [] ≤ 1518 ∧ ([] : List Byte).length + 4 < 64 + tagLen [] ∧ wsv.upd.cobbler = false ∧ wsv.flag (SVC_TXQ_31 0) = true ∧ wsv.qPeek (wsv.get (SVC_TXQ_0 0)) = none := by decide
def wfr : List Byte := [0xFF, 0xFF, 0xFF, 0xFF, 0xFF, 0xFF] ++ List.replicate 54 0
theorem witness_svc_frame : ¬ (1518 < frameLen wfr ∨ wfr.length + 4 < 64 + tagLen wfr ∨ true = false) ∧ wsv.svcDst 0 wfr = true ∧ wsv.svcDst 0 (0x02 :: wfr.tail) = false ∧
    ¬ (wsv.flag (SVC_RXQ_31 0) = true ∧ wsv.qRoom (wsv.get (SVC_RXQ_0 0)) wfr.length = true) := by decide
def wcb (i : Bool) : State := wsv.updU fun u => { u with cobbler := true, installed := i }
theorem witness_cobbler : (wcb false).power = .run ∧ (wcb false).upd.cobbler = true ∧ (wcb false).upd.installed = false ∧ (wcb false).contOk (List.take 512 []) = false ∧ (wcb false).svcUp 0 = true ∧
    (wcb true).upd.installed = true ∧ bitOf ((wcb true).get SW_READ_HI_0) 29 = false ∧ (wcb true).get LK_TAMPER_8 % 8 = 0 ∧ isTftp [] = false ∧ (wcb false).flag SDSLOT_present = false := by decide

/-! MemoryFormsAreKept -/

theorem witness_forms : (((State.reset.set LM_STATE_0 1).hubWrite 16 [1, 2]).withPending [.baseBoundary]).memWf = true ∧
    (((State.reset.set LM_STATE_0 1).hubWrite 16 [1, 2]).withPending [.baseBoundary]).regsWf = true := by decide

/-! FusesOnlyBurn -/

theorem witness_fuses : ∃ t, step State.reset = .next t := ⟨_, rfl⟩

/-! BoundariesAndStoppedPairs -/

def wstop : State := (State.reset.set LM_STATE_0 lBoot).updP 0 0 fun q => { q with stopped := true }
def wdue : State := (State.reset.set LM_STATE_0 lBoot).updP 0 0 fun q => { q with faults := [(5, 64)] }
def wfetch : State := (State.reset.set LM_STATE_0 lActive).updP 0 0 fun q => { q with pc := 0x900000 }
theorem witness_stopped : wstop.canRun 0 0 = false ∧ wstop.writesOpen 0 0 = false := by decide
theorem witness_boundary : wdue.canRun 0 0 = true ∧ ((wdue.pr 0 0).boundary).2 = true := by decide
theorem witness_fetch_refused : wfetch.canRun 0 0 = true ∧ wfetch.laneState 0 ≠ lBoot ∧ (wfetch.pr 0 0).boundary = (wfetch.pr 0 0, false) ∧
    (wfetch.rangeFault 0 0 .fetch 0x900000 4).isSome = true := by decide

end Sys2Proof.Tests
end

section
/-! Every step keeps the one form of the memories and of the register file: an induction over what a command can do (Evolves). -/

namespace Sys2Proof.Machine

variable {s t : State}

/-- The forms are a property of what a command's means act on. -/
theorem State.memWf_congr {u : State} (e : u.kept = t.kept) : u.memWf = t.memWf := by
  simp only [State.kept, State.mems, Prod.mk.injEq, Tri.mk.injEq] at e
  obtain ⟨-, -, -, hub, flash, ⟨ma, mb, mc⟩, -⟩ := e
  simp only [State.memWf, hub, flash, ma, mb, mc]

theorem State.regsWf_congr {u : State} (e : u.regs = t.regs) : u.regsWf = t.regsWf := by
  simp only [State.regsWf, e]

/-- A command leaves the memories in their one form. -/
theorem Evolves.memWf (h : Evolves s t) (hs : s.memWf = true) : t.memWf = true := by
  induction h with
  | refl => exact hs
  | rest _ e ih => rw [State.memWf_congr e]; exact ih
  | set _ _ _ ih | regsCut _ _ ih | regsPut _ _ _ ih | burn _ _ _ ih => exact ih
  | hubWrite o b _ ih => exact State.memWf_hubWrite o b ih
  | hubCut p _ ih => exact State.memWf_hubCut p ih
  | hubFill o n x _ ih => exact State.memWf_hubFill o n x ih
  | flashPut o b _ ih => exact State.memWf_flashPut o b ih
  | flashCut p _ ih => exact State.memWf_flashCut p ih
  | memPut l k b _ ih => exact State.memWf_updL l _ (fun _ hn => Memory.wf_put hn) ih
  | memCut l p _ ih => exact State.memWf_updL l _ (fun _ hn => Memory.wf_filter hn) ih

/-- A command leaves no register field listed twice. -/
theorem Evolves.regsWf (h : Evolves s t) (hs : s.regsWf = true) : t.regsWf = true := by
  induction h with
  | refl => exact hs
  | rest _ e ih => rw [State.regsWf_congr (congrArg (·.2.2.1) e)]; exact ih
  | set f v _ ih => exact State.regsWf_set f v ih
  | regsCut p _ ih => exact State.regsWf_iff.2 ((State.regsWf_iff.1 ih).filter p)
  | regsPut k v _ ih => exact State.regsWf_iff.2 (SMap.rising_reinsert (State.regsWf_iff.1 ih))
  | hubWrite _ _ _ ih | hubCut _ _ ih | hubFill _ _ _ _ ih | flashPut _ _ _ ih | flashCut _ _ ih | memPut _ _ _ _ ih | memCut _ _ _ ih
  | burn _ _ _ ih => exact ih

/-- A command touches neither the queue nor the module's variant. -/
theorem Evolves.queue_variant (h : Evolves s t) : t.pending = s.pending ∧ t.variant = s.variant := by
  induction h with
  | refl => exact ⟨rfl, rfl⟩
  | rest _ e ih => exact ⟨(congrArg (·.1) e).trans ih.1, (congrArg (·.2.1) e).trans ih.2⟩
  | set _ _ _ ih | regsCut _ _ ih | regsPut _ _ _ ih | burn _ _ _ ih | hubWrite _ _ _ ih | hubCut _ _ ih | hubFill _ _ _ _ ih
  | flashPut _ _ _ ih | flashCut _ _ ih | memPut _ _ _ _ ih | memCut _ _ _ ih => exact ih

/-- A step answers a next state, and that state comes by a command's means from the state with its front command taken. -/
theorem step_evolves (s : State) : ∃ t, step s = .next t ∧ Evolves (s.withPending s.pending.tail) t := by
  unfold step
  split
  next c rest hp => rw [hp]; exact exec_evolves c (s.withPending rest)
  next hp =>
    have e : s.withPending s.pending.tail = s := by simp only [State.withPending, hp, List.tail_nil]; rw [← hp]
    refine ⟨s.idle, rfl, ?_⟩
    rw [e]
    exact Evolves.ite .refl fun h => State.setCounter_ev h

/-- Settles O56, by induction over the means a command has (Evolves). -/
theorem memoryFormsAreKept : Obligations.MemoryFormsAreKept := by
  intro s hm hr
  obtain ⟨t, ht, ev⟩ := step_evolves s
  exact ⟨t, ht, ev.memWf hm, ev.regsWf hr, ev.queue_variant.1, ev.queue_variant.2⟩

end Sys2Proof.Machine
end

section
/-! Bit masks and maps built from lists: what one bit, or one key, reads. -/

namespace Sys2Proof.Machine

theorem bitOf_eq_testBit (v i : Nat) : bitOf v i = v.testBit i := by
  rw [Bool.eq_iff_iff, bitOf_iff]

@[simp] theorem bitOf_zero (i : Nat) : bitOf 0 i = false := by
  rw [bitOf_eq_testBit, Nat.zero_testBit]

theorem bitOf_of_two_pow_add {v i j : Nat} (h : v.testBit i = false) : (2 ^ i + v).testBit j = (v.testBit j || decide (i = j)) := by
  have e := bitOf_setBit v i j
  rw [setBit, bitOf_eq_testBit v i, h, if_neg Bool.false_ne_true, Nat.add_comm] at e
  rwa [bitOf_eq_testBit, bitOf_eq_testBit] at e

/-- One bit of a number with a bit cleared. -/
theorem bitOf_clrBit (v i j : Nat) : bitOf (clrBit v i) j = (bitOf v j && !decide (i = j)) := by
  unfold clrBit
  split
  · rename_i h
    rw [bitOf_eq_testBit] at h
    have hx : (v ^^^ 2 ^ i).testBit i = false := by rw [Nat.testBit_xor, h, Nat.testBit_two_pow_self]; rfl
    have hv : v = 2 ^ i + (v ^^^ 2 ^ i) := Nat.eq_of_testBit_eq fun k => by
      rw [bitOf_of_two_pow_add hx, Nat.testBit_xor, Nat.testBit_two_pow]
      by_cases hk : i = k
      · subst hk; simp [h]
      · simp [hk]
    have hs : v - 2 ^ i = v ^^^ 2 ^ i := by omega
    rw [hs, bitOf_eq_testBit, bitOf_eq_testBit, Nat.testBit_xor, Nat.testBit_two_pow]
    by_cases hk : i = j
    · subst hk; simp [h]
    · simp [hk]
  · rename_i h
    by_cases hk : i = j
    · subst hk; simpa using h
    · simp [hk]

/-- One bit of a mask that a list of bits is set in. -/
theorem bitOf_foldl_setBit (l : List Nat) (v j : Nat) : bitOf (l.foldl setBit v) j = (bitOf v j || decide (j ∈ l)) := by
  induction l generalizing v with
  | nil => simp
  | cons a r ih =>
    rw [List.foldl_cons, ih, bitOf_setBit]
    by_cases h : a = j
    · subst h; simp
    · simp [h, Ne.symm h]

/-- A mask whose set bits all lie below n is below 2 ^ n. -/
theorem lt_two_pow_of_bitOf {v n : Nat} (h : ∀ j, bitOf v j = true → j < n) : v < 2 ^ n :=
  Nat.lt_pow_two_of_testBit v fun j hj => by
    rw [← bitOf_eq_testBit, ← Bool.not_eq_true]
    exact fun e => absurd (h j e) (by omega)

/-- A key of a map that a list of keys is written in. -/
theorem SMap.get_foldl_put {α : Type} [DecidableEq α] (l : List Nat) (f : Nat → α) (m : SMap α) (d : α) (k : Nat) :
    SMap.get (l.foldl (fun c n => SMap.put c n d (f n)) m) k d = if k ∈ l then f k else SMap.get m k d := by
  induction l generalizing m with
  | nil => simp
  | cons a r ih =>
    rw [List.foldl_cons, ih, SMap.get_put]
    by_cases h : k ∈ r
    · simp [h]
    · by_cases e : k = a
      · subst e; simp
      · simp [h, e]

end Sys2Proof.Machine
end

section
/-! The Millwright (15 R381 to R392): what an evaluation decides, what a stop leaves, and what each of its commands comes to. -/

namespace Sys2Proof.Machine

variable {s : State} {m : MwS} {outs t n : Nat}

/-! ## Evaluation (R389, R390) -/

/-- An evaluation decides exceeded limit sets, interlocks and permits, and nothing else. -/
@[simp] theorem MwS.evaluate_fields (m : MwS) (outs t : Nat) :
    (m.evaluate outs t).st = m.st ∧ (m.evaluate outs t).cause = m.cause ∧ (m.evaluate outs t).bad = m.bad ∧ (m.evaluate outs t).good = m.good ∧
    (m.evaluate outs t).hub = m.hub ∧ (m.evaluate outs t).seqIn = m.seqIn ∧ (m.evaluate outs t).pos = m.pos ∧ (m.evaluate outs t).ref = m.ref ∧
    (m.evaluate outs t).dirBad = m.dirBad ∧ (m.evaluate outs t).seq = m.seq ∧ (m.evaluate outs t).di = m.di ∧
    (∀ n, (m.evaluate outs t).chan n = m.chan n) := by
  and_intros <;> intros <;> rfl

/-- The conditions a permit is decided by are those of the evaluated Millwright. -/
theorem MwS.conditions_evaluate (m : MwS) (outs t : Nat) (r : SpdCons) (n : Nat) :
    (m.evaluate outs t).conditions r n = (m.limits (m.cons t)).conditions r n := rfl

theorem MwS.conditions_run {r : SpdCons} (h : m.conditions r n = true) : m.st = 2 := by
  unfold MwS.conditions at h
  simp only [Bool.and_eq_true, decide_eq_true_eq] at h
  tauto

/-- An output's interlock after an evaluation. -/
theorem MwS.evaluate_lock (m : MwS) (outs t n : Nat) : bitOf (m.evaluate outs t).lock n = true ↔
    n < outs ∧ (bitOf m.lock n = true ∨
      (bitOf m.permits n = true ∨ m.test = some n) ∧ (m.evaluate outs t).conditions (m.cons t) n = false ∧ bitOf (m.hubByte 1) n = true) := by
  rw [MwS.conditions_evaluate]
  show bitOf (List.foldl setBit 0 _) n = true ↔ _
  rw [bitOf_foldl_setBit]
  simp [MwS.limits, MwS.hubByte, and_assoc]

/-- An output's permit after an evaluation. -/
theorem MwS.evaluate_permits (m : MwS) (outs t n : Nat) : bitOf (m.evaluate outs t).permits n = true ↔
    n < outs ∧ (m.evaluate outs t).conditions (m.cons t) n = true ∧ bitOf (m.evaluate outs t).lock n = false ∧ m.test ≠ some n := by
  rw [MwS.conditions_evaluate]
  show bitOf (List.foldl setBit 0 _) n = true ↔ _
  rw [bitOf_foldl_setBit]
  simp only [bitOf_zero, Bool.false_or, decide_eq_true_eq, List.mem_filter, List.mem_range, Bool.and_eq_true, Bool.not_eq_true', and_assoc]
  exact Iff.rfl

theorem MwS.evaluate_permits_zero (outs t : Nat) (h : m.st ≠ 2) : (m.evaluate outs t).permits = 0 := by
  have h0 : ∀ j, bitOf (m.evaluate outs t).permits j = true → j < 0 := fun j hj =>
    absurd (MwS.conditions_run ((m.evaluate_permits outs t j).1 hj).2.1) h
  simpa using lt_two_pow_of_bitOf h0

theorem MwS.evaluate_permits_lt (m : MwS) (t : Nat) (h : outs ≤ 8) : (m.evaluate outs t).permits < 256 :=
  lt_two_pow_of_bitOf (n := 8) fun j hj => Nat.lt_of_lt_of_le ((m.evaluate_permits outs t j).1 hj).1 h

/-! ## Stops (R382) -/

@[simp] theorem State.mwOut_updMw (s : State) (f : MwS → MwS) : (s.updMw f).mwOut = s.mwOut := rfl

@[simp] theorem State.mwNow_updMw (s : State) (f : MwS → MwS) : (s.updMw f).mwNow = s.mwNow := rfl

/-- The command leaves everything but the Millwright alone, and the Millwright as P says. -/
def State.mwGoes (s : State) (c : Instr) (P : MwS → Prop) : Prop := ∃ x : MwS, exec c s = .next (s.updMw fun _ => x) ∧ P x

/-- In a latched state, with its cause, and no output permitted. -/
def MwS.stopped (st cause : Nat) (x : MwS) : Prop := x.st = st ∧ x.cause = cause ∧ x.permits = 0

/-- A stop of a Millwright not stopped yet. -/
theorem State.mwStop_eq {st cause : Nat} (h : s.mw.st < 3) :
    s.mwStop st cause = s.updMw fun _ => ({ s.mw with st := st, cause := cause } : MwS).evaluate s.mwOut s.mwNow :=
  if_neg (by omega)

/-- A state other than RUN, once evaluated, permits nothing. -/
theorem MwS.stopped_evaluate (m : MwS) {st cause : Nat} (outs t : Nat) (h : st ≠ 2) :
    (({ m with st := st, cause := cause } : MwS).evaluate outs t).stopped st cause :=
  ⟨rfl, rfl, MwS.evaluate_permits_zero outs t h⟩

/-- A command that stops the Millwright. -/
theorem State.mwGoes_stop {c : Instr} {st cause : Nat} (e : exec c s = .next (s.mwStop st cause)) (h : s.mw.st < 3) (hst : st ≠ 2) :
    s.mwGoes c (MwS.stopped st cause) :=
  ⟨_, e.trans (congrArg _ (State.mwStop_eq h)), MwS.stopped_evaluate _ _ _ hst⟩

theorem State.mwUp_iff : s.mwUp = true ↔ s.mw.st = 1 ∨ s.mw.st = 2 := by simp [State.mwUp]

theorem State.mwOut_le (s : State) : s.mwOut ≤ 8 := by
  unfold State.mwOut State.byVar
  split <;> decide

/-- The Millwright in WAIT, each of its channels in init. -/
def MwS.released (m : MwS) (outs : Nat) : MwS :=
  { m with st := 1, ch := (List.range outs).foldl (fun c n => SMap.put c n SpdChan.init (m.chan n).enterInit) m.ch }

/-- R382, R383: the checks of a reset release, in their order. -/
theorem exec_mwResetRelease (h : s.mwOut ≠ 0) (h0 : s.mw.st = 0) :
    (s.mw.romGood = false → s.mwGoes .mwResetRelease (MwS.stopped 3 1)) ∧
    (s.mw.romGood = true → swLegal s.mw.img = false → s.mwGoes .mwResetRelease (MwS.stopped 3 3)) ∧
    (s.mw.romGood = true → swLegal s.mw.img = true → s.mw.prof 0 2 = 0 → s.mwGoes .mwResetRelease (MwS.stopped 3 4)) ∧
    (s.mw.romGood = true → swLegal s.mw.img = true → s.mw.prof 0 2 ≠ 0 →
      s.mwGoes .mwResetRelease fun x => x.st = 1 ∧ ∀ n < s.mwOut, x.chan n = (s.mw.chan n).enterInit) := by
  have h3 : s.mw.st < 3 := by omega
  have e : ¬ (s.mwOut = 0 ∨ s.mw.st ≠ 0) := by tauto
  refine ⟨fun hr => State.mwGoes_stop ?_ h3 (by decide), fun hr hl => State.mwGoes_stop ?_ h3 (by decide),
    fun hr hl hp => State.mwGoes_stop ?_ h3 (by decide), fun hr hl hp => ⟨s.mw.released s.mwOut, ?_, rfl, fun n hn => ?_⟩⟩
  · simp [exec, execMwResetRelease, e, hr]
  · simp [exec, execMwResetRelease, e, hr, hl]
  · simp [exec, execMwResetRelease, e, hr, hl, hp]
  · simp [exec, execMwResetRelease, e, hr, hl, hp]; rfl
  · exact (SMap.get_foldl_put _ _ _ _ _).trans (if_pos (List.mem_range.2 hn))

/-! ## Channels, positions and contacts (R381, R386, R387) -/

/-- One channel replaced by c: it reads c, and every other channel reads as before. -/
theorem MwS.chan_put (m x : MwS) (n : Nat) (c : SpdChan) (hx : x.ch = SMap.put m.ch n SpdChan.init c) :
    x.chan n = c ∧ ∀ k, k ≠ n → x.chan k = m.chan k := by
  unfold MwS.chan
  rw [hx]
  exact ⟨SMap.get_put_same _ _ _ _, fun k hk => SMap.get_put_ne hk⟩

/-- A command that replaces one channel and evaluates. -/
theorem State.mwGoes_chan {c : Instr} {n : Nat} {ch : SpdChan}
    (e : exec c s = .next (s.updMw fun m => { m with ch := SMap.put m.ch n SpdChan.init ch }).mwEval) :
    s.mwGoes c fun x => x.chan n = ch ∧ ∀ k, k ≠ n → x.chan k = s.mw.chan k :=
  ⟨({ s.mw with ch := SMap.put s.mw.ch n SpdChan.init ch } : MwS).evaluate s.mwOut s.mwNow, e, MwS.chan_put s.mw _ n ch rfl⟩

/-- The channel after an edge, as R386 wants it. -/
def MwS.edged (m : MwS) (n : Nat) (a b : Bool) (t : Nat) : SpdChan :=
  let r := (m.chan n).edge (m.par n) a b t
  if r.2.fail ≠ 0 then ({ r.1 with still := false } : SpdChan).failWith r.2.fail else { r.1 with still := false }

/-- Channel n counts toward the position once it reads c. -/
def MwS.counts (m : MwS) (n : Nat) (c : SpdChan) : Bool := bitOf (m.prof 2 1) n && decide (c.st = 2)

/-- The Millwright with channel n moved to c: position and forbidden directions follow where the channel counts. -/
def MwS.moved (m : MwS) (outs n : Nat) (c : SpdChan) : MwS :=
  let d := c.odo - (m.chan n).odo
  let bad := (List.range outs).filter fun o =>
    let dir := bitsOf (m.prof (52 + 4 * o) 1) 3 2
    m.counts n c && ((dir == 1 && decide (d < 0)) || (dir == 2 && decide (0 < d)))
  let x : MwS := { m with
    ch := SMap.put m.ch n SpdChan.init c
    pos := if m.counts n c then SMap.put m.pos n 0 (SMap.get m.pos n 0 + d) else m.pos
    dirBad := bad.foldl setBit m.dirBad }
  { x with ref := x.posOk }

theorem MwS.moved_pos (m : MwS) (outs n : Nat) (c : SpdChan) : SMap.get (m.moved outs n c).pos n 0 =
    if bitOf (m.prof 2 1) n = true ∧ c.st = 2 then SMap.get m.pos n 0 + (c.odo - (m.chan n).odo) else SMap.get m.pos n 0 := by
  have hc : m.counts n c = true ↔ bitOf (m.prof 2 1) n = true ∧ c.st = 2 := by simp [MwS.counts]
  have hp : (m.moved outs n c).pos = if m.counts n c then SMap.put m.pos n 0 (SMap.get m.pos n 0 + (c.odo - (m.chan n).odo)) else m.pos := rfl
  rw [hp]
  by_cases h : m.counts n c = true
  · rw [if_pos h, if_pos (hc.1 h), SMap.get_put_same]
  · rw [if_neg h, if_neg (hc.not.1 h)]

/-- Channel n moved to c, and an evaluation. -/
def State.mwMove (s : State) (n : Nat) (c : SpdChan) : State := (s.updMw fun _ => s.mw.moved s.mwOut n c).mwEval

theorem State.mwEdge_eq {n : Nat} {a b : Bool} (h : n < s.mwOut) (h0 : (s.mw.chan n).st ≠ 0) :
    s.mwEdge n a b = s.mwMove n (s.mw.edged n a b (s.mwNow - 20)) := by
  unfold State.mwEdge
  rw [if_neg (not_or.2 ⟨Nat.not_le.2 h, h0⟩)]
  rfl

/-- R386: an edge moves its channel, and the position where the channel counts. -/
theorem exec_mwTrackEdge (j : Fin 8) (a b : Bool) (h : j.val < s.mwOut) (h0 : (s.mw.chan j.val).st ≠ 0) :
    s.mwGoes (.mwTrackEdge j a b) fun x => x.chan j.val = s.mw.edged j.val a b (s.mwNow - 20) ∧ (∀ k, k ≠ j.val → x.chan k = s.mw.chan k) ∧
      SMap.get x.pos j.val 0 =
        if bitOf (s.mw.prof 2 1) j.val = true ∧ (s.mw.edged j.val a b (s.mwNow - 20)).st = 2
        then SMap.get s.mw.pos j.val 0 + ((s.mw.edged j.val a b (s.mwNow - 20)).odo - (s.mw.chan j.val).odo) else SMap.get s.mw.pos j.val 0 := by
  refine ⟨_, congrArg _ (State.mwEdge_eq h h0), ?_⟩
  obtain ⟨hc, hk⟩ := MwS.chan_put s.mw (s.mw.moved s.mwOut j.val (s.mw.edged j.val a b (s.mwNow - 20))) j.val _ rfl
  exact ⟨hc, hk, MwS.moved_pos s.mw s.mwOut j.val _⟩

/-- The valid channels of the profile's cmask. -/
def MwS.counted (m : MwS) : List Nat := (bitList 8 (m.prof 2 1)).filter fun n => (m.chan n).st = 2

/-- The Millwright with its counted channels at a standstill. -/
def MwS.stilled (m : MwS) : MwS :=
  { m with ch := m.counted.foldl (fun c n => SMap.put c n SpdChan.init { m.chan n with still := true }) m.ch }

theorem MwS.chan_stilled (m : MwS) (n : Nat) : m.stilled.chan n = if n ∈ m.counted then { m.chan n with still := true } else m.chan n :=
  SMap.get_foldl_put m.counted (fun n => ({ m.chan n with still := true } : SpdChan)) m.ch SpdChan.init n

theorem MwS.still_stilled (h : n ∈ m.counted) : (m.stilled.chan n).still = true := by rw [MwS.chan_stilled, if_pos h]

theorem MwS.counted_stilled (m : MwS) : m.stilled.counted = m.counted := by
  have hs : ∀ n, (m.stilled.chan n).st = (m.chan n).st := fun n => by rw [MwS.chan_stilled]; split <;> rfl
  show (bitList 8 (m.prof 2 1)).filter _ = (bitList 8 (m.prof 2 1)).filter _
  simp only [hs]

/-- The consolidation is valid where enough channels count, and then at a standstill where each of them is. -/
theorem MwS.cons_still_iff (m : MwS) (t : Nat) : (m.cons t).valid = true ∧ (m.cons t).still = true ↔
    max 1 (m.prof 3 1) ≤ m.counted.length ∧ ∀ n ∈ m.counted, (m.chan n).still = true := by
  unfold MwS.cons consolidate
  dsimp only
  split
  next h => exact ⟨fun x => absurd x.1 Bool.false_ne_true, fun x => absurd h (Nat.not_lt.2 x.1)⟩
  next h =>
    have h' : max 1 (m.prof 3 1) ≤ m.counted.length := Nat.not_lt.1 h
    simp only [h', true_and, List.all_eq_true]
    exact Iff.rfl

/-- The stilled Millwright's consolidation is at a standstill exactly where enough channels count. -/
theorem MwS.cons_stilled_iff (m : MwS) (t : Nat) :
    (m.stilled.cons t).valid = true ∧ (m.stilled.cons t).still = true ↔ max 1 (m.prof 3 1) ≤ m.counted.length := by
  rw [MwS.cons_still_iff, MwS.counted_stilled]
  exact ⟨fun h => h.1, fun h => ⟨h, fun _ hn => MwS.still_stilled hn⟩⟩

/-- R387: a standstill of enough channels sets the reference; of fewer it leaves position and reference. -/
theorem exec_mwStandstillEntry (h : s.mwOut ≠ 0) (hu : s.mw.st = 1 ∨ s.mw.st = 2) :
    (max 1 (s.mw.prof 3 1) ≤ s.mw.counted.length →
      s.mwGoes .mwStandstillEntry fun x => x.pos = [] ∧ x.ref = true ∧ x.dirBad = 0 ∧ ∀ n ∈ s.mw.counted, (x.chan n).still = true) ∧
    (s.mw.counted.length < max 1 (s.mw.prof 3 1) →
      s.mwGoes .mwStandstillEntry fun x => x.pos = s.mw.pos ∧ x.ref = s.mw.ref ∧ ∀ n ∈ s.mw.counted, (x.chan n).still = true) := by
  have e : ¬ (s.mwOut = 0 ∨ (!s.mwUp) = true) := by simp [h, State.mwUp_iff.2 hu]
  let still := s.mw.stilled
  constructor
  · intro hl
    let x : MwS := { still with pos := [], ref := true, dirBad := 0, exceeded :=
      ((List.range 4).filter fun i => bitOf still.exceeded i && !bitOf (still.prof (27 + 8 * i) 1) 0).foldl setBit 0 }
    exact ⟨x.evaluate s.mwOut s.mwNow, congrArg _ ((if_neg e).trans (if_pos ((MwS.cons_stilled_iff s.mw _).2 hl))), rfl, rfl, rfl,
      fun n hn => MwS.still_stilled hn⟩
  · intro hl
    refine ⟨still, congrArg _ ((if_neg e).trans (if_neg fun hc => ?_)), rfl, rfl, fun n hn => MwS.still_stilled hn⟩
    exact absurd ((MwS.cons_stilled_iff s.mw _).1 hc) (by omega)

/-- R386: a track in its fault band fails its channel. -/
theorem exec_trackFaultTimeout (j : Fin 8) (t2 : Bool) (lv : Nat) (h : j.val < s.mwOut) (hf : trackFault 1 lv = true) :
    s.mwGoes (.trackFaultTimeout j true t2 lv) fun x =>
      x.chan j.val = (s.mw.chan j.val).failWith (if t2 then 2 else 1) ∧ ∀ k, k ≠ j.val → x.chan k = s.mw.chan k :=
  have hc : j.val < s.mwOut ∧ trackFault 1 lv = true := ⟨h, hf⟩
  State.mwGoes_chan (congrArg _ (if_pos hc))

/-- R386: a channel's init ends. -/
theorem exec_speedInitTimeout (j : Fin 8) (h : j.val < s.mwOut) :
    s.mwGoes (.speedInitTimeout j true) fun x => x.chan j.val = (s.mw.chan j.val).initEnd ∧ ∀ k, k ≠ j.val → x.chan k = s.mw.chan k :=
  State.mwGoes_chan (congrArg _ (if_pos h))

/-- R386: a channel frozen while another reports motion fails with cause 4. -/
theorem exec_frozenChannel (j : Fin 8) (h : j.val < s.mwOut) (h2 : (s.mw.chan j.val).st = 2) (hw : s.mwWitness j.val = true) :
    s.mwGoes (.frozenChannel j true) fun x =>
      x.chan j.val = { s.mw.chan j.val with st := 3, cause := 4 } ∧ ∀ k, k ≠ j.val → x.chan k = s.mw.chan k := by
  have hf : (s.mw.chan j.val).failWith 4 = { s.mw.chan j.val with st := 3, cause := 4 } := if_pos (.inr h2)
  have hc : j.val < s.mwOut ∧ (s.mw.chan j.val).st = 2 ∧ s.mwWitness j.val = true := ⟨h, h2, hw⟩
  rw [← hf]
  exact State.mwGoes_chan (congrArg _ (if_pos hc))

/-- R381: one contact's sample changes that contact's reading and run only. -/
theorem MwS.diSample_other (m : MwS) {j k : Nat} (c : Bool) (h : k ≠ j) :
    bitOf (m.diSample j c).di k = bitOf m.di k ∧ SMap.get (m.diSample j c).diRun k 0 = SMap.get m.diRun k 0 := by
  have he : SMap.get (SMap.erase m.diRun j) k 0 = SMap.get m.diRun k 0 := by unfold SMap.get; rw [SMap.find?_erase_ne h]
  unfold MwS.diSample
  split
  · exact ⟨rfl, he⟩
  · split
    · refine ⟨?_, he⟩
      cases c
      · simp [bitOf_clrBit, Ne.symm h]
      · simp [bitOf_setBit, Ne.symm h]
    · refine ⟨rfl, ?_⟩
      dsimp only
      exact SMap.get_put_ne h

/-- R381: the third sample in a row unlike the reading changes it. -/
theorem MwS.diSample_same (m : MwS) (k : Nat) (c : Bool) :
    bitOf (m.diSample k c).di k = if c ≠ bitOf m.di k ∧ 3 ≤ SMap.get m.diRun k 0 + 1 then c else bitOf m.di k := by
  unfold MwS.diSample
  by_cases h : bitOf m.di k = c
  · simp [h]
  · by_cases h3 : 3 ≤ SMap.get m.diRun k 0 + 1
    · cases c <;> simp [h, h3, bitOf_clrBit, bitOf_setBit]
    · simp [h, h3]

/-- R381: every contact of a list of different ones is sampled once. -/
theorem MwS.foldl_diSample (l : List Nat) (v : Nat) (hl : l.Nodup) (m : MwS) (k : Nat) :
    let x := l.foldl (fun m k => m.diSample k (bitOf v k)) m
    bitOf x.di k = if k ∈ l then bitOf (m.diSample k (bitOf v k)).di k else bitOf m.di k := by
  induction l generalizing m with
  | nil => rfl
  | cons a r ih =>
    obtain ⟨ha, hr⟩ := List.nodup_cons.1 hl
    dsimp only
    rw [List.foldl_cons, ih hr]
    by_cases e : k = a
    · subst e; simp [ha]
    · obtain ⟨hd, hn⟩ := m.diSample_other (bitOf v a) e
      simp only [MwS.diSample_same, hd, hn, List.mem_cons, e, false_or]

theorem exec_mwDiSample (h : s.mwOut ≠ 0) (v : Nat) : s.mwGoes (.mwDiSample v) fun x => ∀ k < 8, bitOf x.di k =
    if bitOf v k ≠ bitOf s.mw.di k ∧ 3 ≤ SMap.get s.mw.diRun k 0 + 1 then bitOf v k else bitOf s.mw.di k := by
  refine ⟨_, congrArg _ (if_neg h), fun k hk => ?_⟩
  rw [MwS.foldl_diSample _ _ List.nodup_range, if_pos (List.mem_range.2 hk), MwS.diSample_same]

/-! ## Faults (R18, R383, R391) -/

/-- R383. -/
theorem exec_mwRomCheck (ok : Bool) :
    let bad := s.mwOut ≠ 0 ∧ (s.mw.st = 1 ∨ s.mw.st = 2) ∧ (ok && s.mw.romGood) = false
    (¬ bad → exec (.mwRomCheck ok) s = .next s) ∧ (bad → s.mwGoes (.mwRomCheck ok) (MwS.stopped 4 2)) := by
  intro bad
  have hb : (s.mwOut ≠ 0 ∧ s.mwUp = true ∧ (!(ok && s.mw.romGood)) = true) ↔ bad := by
    rw [State.mwUp_iff, Bool.not_eq_true']
  exact ⟨fun h => congrArg _ (if_neg (hb.not.2 h)),
    fun h => State.mwGoes_stop (congrArg _ (if_pos (hb.2 h))) (by have := h.2.1; omega) (by decide)⟩

/-- R391. -/
theorem exec_mwCrossCheckTimeout (lane : Bool) :
    let differs := s.mw.st = 2 ∧ (if lane then s.mw.agreeLane (s.mw.cons s.mwNow) else s.mw.agreeUnit (s.mw.cons s.mwNow)) = false
    (¬ differs → exec (.mwCrossCheckTimeout lane) s = .next s) ∧
    (differs → s.mwGoes (.mwCrossCheckTimeout lane) (MwS.stopped 4 (if lane then 10 else 9))) := by
  intro differs
  have hd : (s.mw.st = 2 ∧ (!(if lane then s.mw.agreeLane (s.mw.cons s.mwNow) else s.mw.agreeUnit (s.mw.cons s.mwNow))) = true) ↔ differs := by
    rw [Bool.not_eq_true']
  exact ⟨fun h => congrArg _ (if_neg (hd.not.2 h)),
    fun h => State.mwGoes_stop (congrArg _ (if_pos (hd.2 h))) (by have := h.1; omega) (by decide)⟩

/-- R18: frames missing. -/
theorem exec_mwFrameTimeout (iv : Bool) : (s.mw.st ≠ 2 → exec (.mwFrameTimeout iv) s = .next s) ∧
    (s.mw.st = 2 → s.mwGoes (.mwFrameTimeout iv) (MwS.stopped 4 (if iv then 8 else 7))) :=
  ⟨fun h => congrArg _ (if_neg h), fun h => State.mwGoes_stop (congrArg _ (if_pos h)) (by omega) (by decide)⟩

/-- R18: hub_healthy low. -/
theorem exec_hubHealthyLow : (¬ (s.mw.st = 1 ∨ s.mw.st = 2) → exec .hubHealthyLow s = .next s) ∧
    (s.mw.st = 1 ∨ s.mw.st = 2 → s.mwGoes .hubHealthyLow (MwS.stopped 4 11)) :=
  ⟨fun h => congrArg _ (if_neg (State.mwUp_iff.not.2 h)),
   fun h => State.mwGoes_stop (congrArg _ (if_pos (State.mwUp_iff.2 h))) (by omega) (by decide)⟩

/-! ## Frames (R18, R382, R392) -/

/-- What a bad hub frame leaves: the third in a row in RUN is a fault. -/
theorem State.mwHubBad_eq (s : State) : ∃ x : MwS, s.mwHubBad = s.updMw (fun _ => x) ∧ x.bad = s.mw.bad + 1 ∧ x.good = 0 ∧ x.hub = s.mw.hub ∧
    (s.mw.st = 2 → 3 ≤ s.mw.bad + 1 → x.stopped 4 7) ∧ (¬ (s.mw.st = 2 ∧ 3 ≤ s.mw.bad + 1) → x.st = s.mw.st ∧ x.permits = s.mw.permits) := by
  let x : MwS := { s.mw with bad := s.mw.bad + 1, good := 0 }
  by_cases h : s.mw.st = 2 ∧ 3 ≤ s.mw.bad + 1
  · refine ⟨({ x with st := 4, cause := 7 } : MwS).evaluate s.mwOut s.mwNow, (if_pos h).trans ?_, rfl, rfl, rfl,
      fun _ _ => MwS.stopped_evaluate _ _ _ (by decide), fun hn => absurd h hn⟩
    exact State.mwStop_eq (s := s.updMw fun _ => x) (by show s.mw.st < 3; omega)
  · exact ⟨x, if_neg h, rfl, rfl, rfl, fun h2 h3 => absurd ⟨h2, h3⟩ h, fun _ => ⟨rfl, rfl⟩⟩

/-- What a good hub frame leaves: unequal switch slices stop the Millwright, the fourth good frame in WAIT brings RUN. -/
theorem State.mwHubGood_eq (s : State) (b : List Byte) :
    let loaded := bitOf (beAt b 3 1) 0 = true
    let same := beAt b 13 2 = swSlice s.mw.img (beAt b 0 1 % 16)
    ∃ x : MwS, s.mwHubGood b = s.updMw (fun _ => x) ∧ x.bad = 0 ∧ x.hub = b.take 16 ∧ x.seqIn = s.mw.seqIn ∧
      (s.mw.st = 1 ∨ s.mw.st = 2 → loaded → ¬ same → x.stopped 3 5) ∧ (s.mw.st = 1 → loaded → same → 4 ≤ s.mw.good + 1 → x.st = 2) ∧
      (s.mw.st = 1 → loaded → same → s.mw.good + 1 < 4 → x.st = 1) ∧ (s.mw.st = 2 → (loaded → same) → x.st = 2) := by
  intro loaded same
  let req := if bitOf (beAt b 3 1) 1 then some (bitsOf (beAt b 3 1) 2 3) else none
  let good := if bitOf (beAt b 3 1) 0 && beAt b 13 2 == swSlice s.mw.img (beAt b 0 1 % 16) then s.mw.good + 1 else 0
  have hgood : loaded → same → good = s.mw.good + 1 := fun hl hs => if_pos (Bool.and_eq_true_iff.2 ⟨hl, beq_iff_eq.2 hs⟩)
  let x : MwS := { s.mw with hub := b.take 16, bad := 0, lock := s.mw.lock &&& beAt b 1 1, test := req.orElse fun _ => s.mw.test, good := good }
  by_cases h5 : (s.mw.st = 1 ∨ s.mw.st = 2) ∧ loaded ∧ ¬ same
  · obtain ⟨hu, hl, hs⟩ := h5
    have h5' : (s.updMw fun _ => x).mwUp = true ∧ bitOf (beAt b 3 1) 0 = true ∧ (!(beAt b 13 2 == swSlice s.mw.img (beAt b 0 1 % 16))) = true :=
      ⟨State.mwUp_iff.2 hu, hl, by simpa using hs⟩
    refine ⟨({ x with st := 3, cause := 5 } : MwS).evaluate s.mwOut s.mwNow, (if_pos h5').trans ?_, rfl, rfl, rfl,
      fun _ _ _ => MwS.stopped_evaluate _ _ _ (by decide), fun _ _ hs' => absurd hs' hs, fun _ _ hs' => absurd hs' hs, fun _ hs' => absurd (hs' hl) hs⟩
    exact State.mwStop_eq (s := s.updMw fun _ => x) (by show s.mw.st < 3; omega)
  · have h5' : ¬ ((s.updMw fun _ => x).mwUp = true ∧ bitOf (beAt b 3 1) 0 = true ∧ (!(beAt b 13 2 == swSlice s.mw.img (beAt b 0 1 % 16))) = true) :=
      fun ⟨hu, hl, hs⟩ => h5 ⟨State.mwUp_iff.1 hu, hl, by simpa using hs⟩
    by_cases h4 : s.mw.st = 1 ∧ 4 ≤ good
    · refine ⟨({ x with st := 2 } : MwS).evaluate s.mwOut s.mwNow, (if_neg h5').trans (if_pos h4), rfl, rfl, rfl,
        fun hu hl hs => absurd ⟨hu, hl, hs⟩ h5, fun _ _ _ _ => rfl, fun _ hl hs hg => ?_, fun _ _ => rfl⟩
      have := hgood hl hs
      omega
    · refine ⟨x.evaluate s.mwOut s.mwNow, (if_neg h5').trans (if_neg h4), rfl, rfl, rfl,
        fun hu hl hs => absurd ⟨hu, hl, hs⟩ h5, fun h1 hl hs hg => absurd ⟨h1, ?_⟩ h4, fun h1 _ _ _ => h1, fun h2 _ => h2⟩
      have := hgood hl hs
      omega

/-- The number of a hub frame follows the last one's. -/
theorem mwSeq_follows (seqIn q : Nat) : (seqIn = 0 || (seqIn - 1 + 1) % 16 == q) = true ↔ seqIn = 0 ∨ seqIn % 16 = q := by
  simp only [Bool.or_eq_true, decide_eq_true_eq, beq_iff_eq]
  by_cases h : seqIn = 0
  · simp [h]
  · rw [Nat.sub_add_cancel (Nat.pos_of_ne_zero h)]

/-- R18, R382, R392: a hub frame is good or bad by length, CRC, type and number. -/
theorem exec_mwHubFrameReceived (b : List Byte) (h : s.mwOut ≠ 0) (h0 : s.mw.st ≠ 0) :
    let q := beAt b 0 1 % 16
    let good := mwFrameOk 1 b = true ∧ (s.mw.seqIn = 0 ∨ s.mw.seqIn % 16 = q)
    (good → exec (.mwHubFrameReceived b) s = .next ((s.updMw fun m => { m with seqIn := q + 1 }).mwHubGood b)) ∧
    (¬ good → ∃ n, exec (.mwHubFrameReceived b) s = .next (s.updMw fun m => { m with seqIn := n }).mwHubBad) := by
  intro q good
  have e : ¬ (s.mwOut = 0 ∨ s.mw.st = 0) := by tauto
  by_cases hf : mwFrameOk 1 b = true
  · have hf' : ¬ ((!mwFrameOk 1 b) = true) := by simp [hf]
    refine ⟨fun hg => ?_, fun hg => ⟨q + 1, ?_⟩⟩
    · exact congrArg _ ((if_neg e).trans ((if_neg hf').trans (if_pos ((mwSeq_follows _ _).2 hg.2))))
    · exact congrArg _ ((if_neg e).trans ((if_neg hf').trans (if_neg fun hn => hg ⟨hf, (mwSeq_follows _ _).1 hn⟩)))
  · have hf' : (!mwFrameOk 1 b) = true := by simpa using hf
    exact ⟨fun hg => absurd hg.1 hf, fun _ => ⟨s.mw.seqIn, congrArg _ ((if_neg e).trans (if_pos hf'))⟩⟩

/-- The bytes of a part of a list that stands behind another part. -/
theorem beAt_append {l r : List Byte} {n : Nat} (i k : Nat) (h : l.length = n) : beAt (l ++ r) (n + i) k = beAt r i k := by
  unfold beAt sub
  rw [← h, List.drop_append, List.drop_of_length_le (Nat.le_add_right _ _), List.nil_append, Nat.add_sub_cancel_left]

/-- A number at the front of a list reads back. -/
theorem beAt_beBytes (n v : Nat) (r : List Byte) : beAt (beBytes n v ++ r) 0 n = v % 256 ^ n := by
  unfold beAt sub
  rw [List.drop_zero, List.take_append_of_le_length (by rw [beBytes_length]), List.take_of_length_le (by rw [beBytes_length]), beNat_beBytes]

/-- A Millwright frame of 16 bytes is a good one of its type, and carries its bytes. -/
theorem mwFrameOk_mwFrame {l : List Byte} {type : Nat} (hl : l.length = 16) (ht : beAt l 0 1 / 16 = type) : mwFrameOk type (mwFrame l) = true := by
  have hc : crc32c 0xFFFFFFFF l ^^^ 0xFFFFFFFF < 256 ^ 4 := Nat.xor_lt_two_pow (n := 32) (crc32c_lt l (by decide)) (by decide)
  have h16 : beAt (mwFrame l) 16 4 = crc32c 0xFFFFFFFF l ^^^ 0xFFFFFFFF := by
    have := beAt_append (r := beBytes 4 (crc32c 0xFFFFFFFF l ^^^ 0xFFFFFFFF)) 0 4 hl
    rw [mwFrame, this, ← List.append_nil (beBytes 4 _), beAt_beBytes, Nat.mod_eq_of_lt hc]
  have htake : (mwFrame l).take 16 = l := by rw [mwFrame, List.take_append_of_le_length (by omega), List.take_of_length_le (by omega)]
  have h0 : beAt (mwFrame l) 0 1 = beAt l 0 1 := by
    unfold beAt sub mwFrame
    rw [List.drop_zero, List.drop_zero, List.take_append_of_le_length (by omega)]
  have hlen : (mwFrame l).length = 20 := by rw [mwFrame, List.length_append, hl, beBytes_length]
  simp [mwFrameOk, hlen, h16, htake, h0, ht]

/-- The 16 bytes of a Millwright frame before its CRC. -/
def State.mwBody (s : State) : List Byte :=
  let m := s.mw
  let r := m.cons s.mwNow
  beBytes 1 (0x20 + m.seq % 16) ++ beBytes 1 m.permits ++ beBytes 1 (m.st + 8 * m.cause) ++
    beBytes 1 (m.exceeded % 16 + 16 * pack1 fun i => decide (i < 4) && m.setActive i) ++
    beBytes 4 (unsint 32 r.speed) ++ beBytes 1 (b2n r.valid + 2 * b2n r.still + 4 * r.dir + 16 * b2n m.ref + 32 * b2n m.posOk) ++ beBytes 1 r.mask ++
    beBytes 1 (s.get SO_STATE_16) ++ beBytes 1 m.di ++ beBytes 2 (unsint 16 (max (-32767) (min 32767 m.position))) ++ beBytes 2 (swSlice m.img m.seq)

/-- R392: the frame's type and number, permits, state with cause, and contacts, where R392 puts them. -/
theorem State.mwSend_frame (s : State) :
    let f := SMap.get s.mwSend.wire 81 []
    mwFrameOk 2 f = true ∧ beAt f 0 1 = 0x20 + s.mw.seq % 16 ∧ beAt f 1 1 = s.mw.permits % 256 ∧
      beAt f 2 1 = (s.mw.st + 8 * s.mw.cause) % 256 ∧ beAt f 11 1 = s.mw.di % 256 := by
  intro f
  have hf : f = mwFrame s.mwBody := by
    show SMap.get (SMap.put s.wire 81 [] (mwFrame s.mwBody)) 81 [] = _
    exact SMap.get_put_same _ _ _ _
  have hn : (0x20 + s.mw.seq % 16) % 256 = 0x20 + s.mw.seq % 16 := by omega
  rw [hf]
  unfold State.mwBody
  refine ⟨mwFrameOk_mwFrame ?_ ?_, ?_, ?_, ?_, ?_⟩
  · simp only [List.length_append, beBytes_length]
  · simp only [List.append_assoc, beAt_beBytes]
    omega
  · simp only [mwFrame, List.append_assoc, beAt_beBytes]
    omega
  · simp only [mwFrame, List.append_assoc]
    rw [show (1 : Nat) = 1 + 0 from rfl, beAt_append 0 _ (beBytes_length 1 _), beAt_beBytes]
    rfl
  · simp only [mwFrame, List.append_assoc]
    rw [show (2 : Nat) = 1 + (1 + 0) from rfl, beAt_append _ _ (beBytes_length 1 _), beAt_append _ _ (beBytes_length 1 _), beAt_beBytes]
    rfl
  · simp only [mwFrame, List.append_assoc]
    rw [show (11 : Nat) = 1 + (1 + (1 + (1 + (4 + (1 + (1 + (1 + 0))))))) from rfl]
    iterate 4 rw [beAt_append _ _ (beBytes_length 1 _)]
    rw [beAt_append _ _ (beBytes_length 4 _)]
    iterate 3 rw [beAt_append _ _ (beBytes_length 1 _)]
    rw [beAt_beBytes]
    rfl

/-- Sending takes the next number, and nothing else of the Millwright, of registers and of hub SRAM. -/
theorem State.mwSend_fields (s : State) : s.mwSend.mw = { s.mw with seq := (s.mw.seq + 1) % 16 } ∧ s.mwSend.regs = s.regs ∧ s.mwSend.hub = s.hub :=
  ⟨rfl, rfl, rfl⟩

/-- R389, R392: a tick evaluates and sends. -/
theorem exec_mwEvaluationTick (h : s.mwOut ≠ 0) (h0 : s.mw.st ≠ 0) : exec .mwEvaluationTick s = .next s.mwEval.mwSend :=
  congrArg _ (if_neg (by tauto))

/-- What an evaluation decides, with 15 R389 and R390's words. -/
theorem MwS.evaluate_spec (m : MwS) (outs t : Nat) : let e := m.evaluate outs t
    (∀ n, bitOf e.permits n = true → n < outs ∧ e.st = 2 ∧ e.conditions (m.cons t) n = true ∧ bitOf e.lock n = false ∧ m.test ≠ some n) ∧
    (∀ n < outs, bitOf m.permits n = true → e.conditions (m.cons t) n = false → bitOf (m.hubByte 1) n = true → bitOf e.lock n = true) ∧
    (∀ n < outs, bitOf m.lock n = true → bitOf e.lock n = true) ∧ e.st = m.st ∧ e.cause = m.cause ∧ (m.st ≠ 2 → e.permits = 0) := by
  intro e
  refine ⟨fun n hn => ?_, fun n hn hp hc hb => ?_, fun n hn hl => ?_, rfl, rfl, MwS.evaluate_permits_zero outs t⟩
  · obtain ⟨hlt, hc, hl, ht⟩ := (m.evaluate_permits outs t n).1 hn
    exact ⟨hlt, MwS.conditions_run hc, hc, hl, ht⟩
  · exact (m.evaluate_lock outs t n).2 ⟨hn, .inr ⟨.inl hp, hc, hb⟩⟩
  · exact (m.evaluate_lock outs t n).2 ⟨hn, .inl hl⟩

/-- Settles O39: an evaluation's permits and interlocks, and each command of the Millwright by the lemma above that says what it comes to. -/
theorem millwrightStatesAndPermits : Obligations.MillwrightStatesAndPermits := by
  refine ⟨MwS.evaluate_spec, fun s => ⟨fun h => congrArg _ (if_pos h), exec_mwResetRelease, fun j a b => ⟨fun h => congrArg _ (if_pos h), exec_mwTrackEdge j a b⟩,
    ⟨fun h => congrArg _ (if_pos ?_), fun h hu => (exec_mwStandstillEntry h hu).1, fun h hu => (exec_mwStandstillEntry h hu).2⟩,
    fun j => ⟨fun t2 lv => ⟨fun h => congrArg _ (if_neg h), exec_trackFaultTimeout j t2 lv⟩, fun h => congrArg _ (if_neg (Nat.not_lt.2 h)),
      exec_speedInitTimeout j, fun h => congrArg _ (if_neg h), exec_frozenChannel j⟩,
    exec_mwRomCheck, fun h => ⟨fun _ => congrArg _ (if_pos h), congrArg _ (if_pos h), congrArg _ (if_pos (.inl h))⟩,
    fun h => ⟨exec_mwDiSample h, congrArg _ (if_neg h)⟩, exec_mwCrossCheckTimeout, exec_mwFrameTimeout, exec_hubHealthyLow.1, exec_hubHealthyLow.2,
    fun b => ⟨fun h => congrArg _ (if_pos h), fun h h0 hb => ?_, fun h h0 hg => ?_⟩, fun h => congrArg _ (if_pos (.inr h)), fun h h0 => ?_⟩⟩
  case refine_1 =>
    rcases h with h | h
    · exact .inl h
    · exact .inr (by simpa using State.mwUp_iff.not.2 h)
  case refine_2 =>
    obtain ⟨n, e⟩ := (exec_mwHubFrameReceived b h h0).2 hb
    obtain ⟨x, hx, hP⟩ := State.mwHubBad_eq (s.updMw fun m => { m with seqIn := n })
    exact ⟨x, e.trans (congrArg _ hx), hP⟩
  case refine_3 =>
    have e := (exec_mwHubFrameReceived b h h0).1 hg
    obtain ⟨x, hx, hP⟩ := State.mwHubGood_eq (s.updMw fun m => { m with seqIn := beAt b 0 1 % 16 + 1 }) b
    exact ⟨x, e.trans (congrArg _ hx), hP⟩
  case refine_4 =>
    obtain ⟨hok, hseq, hper, hst, hdi⟩ := State.mwSend_frame s.mwEval
    obtain ⟨hmw, hregs, hhub⟩ := State.mwSend_fields s.mwEval
    have hp : s.mwEval.mw.permits < 256 := MwS.evaluate_permits_lt s.mw s.mwNow s.mwOut_le
    refine ⟨s.mwEval.mwSend, exec_mwEvaluationTick h h0, hmw, hregs, hhub, hok, hseq, ?_, hst, hdi⟩
    rw [hmw, hper, Nat.mod_eq_of_lt hp]

end Sys2Proof.Machine
end

section
/-! The registers of an island's page, its link state, and what leaves them alone (13 R339 to R361). -/

namespace Sys2Proof.Machine

variable {s t u : State} {i : Nat}

/-! ## Fields of an island's page -/

theorem fioKey (i o l w r : Nat) : (⟨0x52 + i, o, l, w, r, 0⟩ : Fld).key = (0x52 + i) * 131072 + (o * 32 + l) := by
  simp only [Fld.key]
  omega

/-- Two places of one island's page. -/
theorem fioKey_ne {i o l w r o' l' w' r' : Nat} (h : o * 32 + l ≠ o' * 32 + l') :
    (⟨0x52 + i, o, l, w, r, 0⟩ : Fld).key ≠ (⟨0x52 + i, o', l', w', r', 0⟩ : Fld).key := by
  rw [fioKey, fioKey]
  omega

theorem fioPage {i o l w r : Nat} (hi : i < 12) (h : o * 32 + l < 131072) : (⟨0x52 + i, o, l, w, r, 0⟩ : Fld).pageOf = 0x52 + i := by
  rw [Fld.pageOf, fioKey]
  omega

theorem bitOf_mod_two_pow {v i n : Nat} (h : i < n) : bitOf (v % 2 ^ n) i = bitOf v i := by
  rw [bitOf_eq_testBit, bitOf_eq_testBit, Nat.testBit_mod_two_pow]
  simp [h]

/-- A page's latched conditions hold the one just raised. -/
theorem State.bitOf_raw_raiseInt {page bit : Nat} (h : page < 128) (h' : page ≠ 0x0A) (hb : bit < 32) :
    bitOf ((s.raiseInt page bit).get (rawOf page)) bit = true := by
  rw [State.raiseInt_raw h h', bitOf_mod_two_pow hb, bitOf_setBit]
  simp

/-- Raising an interrupt leaves every register but its page's INT_RAW and the Courier's. -/
theorem State.get_raiseInt_ne {page bit : Nat} {g : Fld} (h : g.pageOf ≠ 0x0A) (h' : g.key ≠ (rawOf page).key) :
    (s.raiseInt page bit).get g = s.get g := by
  unfold State.raiseInt
  dsimp only
  split
  · rw [State.get_courEvent h, State.get_set_ne _ h']
  · exact State.get_set_ne _ h'

/-- One more count of a counter. -/
theorem State.get_count (s : State) (f : Fld) : (s.count f).get f = s.oneMore f := by
  unfold State.count State.addSat State.oneMore
  rw [State.get_set_same, Nat.mod_eq_of_lt (by have := Nat.two_pow_pos f.w; omega)]

theorem State.get_count_ne {f g : Fld} (h : g.key ≠ f.key) : (s.count f).get g = s.get g := State.get_set_ne _ h

theorem b2n_lt_two (b : Bool) : b2n b < 2 := by cases b <;> decide

theorem State.get_setB (s : State) (f : Fld) (b : Bool) (h : 0 < f.w) : (s.setB f b).get f = b2n b := by
  have h2 : 2 ^ 1 ≤ 2 ^ f.w := Nat.pow_le_pow_right (by decide) h
  unfold State.setB
  rw [State.get_set_same]
  exact Nat.mod_eq_of_lt (Nat.lt_of_lt_of_le (b2n_lt_two b) h2)

theorem State.get_setB_ne {f g : Fld} {b : Bool} (h : g.key ≠ f.key) : (s.setB f b).get g = s.get g := State.get_set_ne _ h

theorem beAt_lt (l : List Byte) (o n : Nat) : beAt l o n < 256 ^ n := by
  have hl : ∀ l : List Byte, leNat l < 256 ^ l.length := by
    intro l
    induction l with
    | nil => decide
    | cons b r ih =>
      have := b.isLt
      rw [leNat, List.length_cons, Nat.pow_succ]
      omega
  refine Nat.lt_of_lt_of_le (hl _) (Nat.pow_le_pow_right (by decide) ?_)
  rw [List.length_reverse, sub, List.length_take]
  exact Nat.min_le_left _ _

/-! ## The state of a link -/

@[simp] theorem State.il_updIl (s : State) (i : Nat) (f : IslS → IslS) : (s.updIl i f).il i = f (s.il i) := SMap.get_put_same _ _ _ _

theorem State.il_updIl_ne {j : Nat} {f : IslS → IslS} (h : j ≠ i) : (s.updIl i f).il j = s.il j := SMap.get_put_ne h

theorem State.il_setWire (s : State) (k : Nat) (b : List Byte) (j : Nat) : (s.setWire k b).il j = s.il j := rfl

theorem State.wire_setWire_same (s : State) (k : Nat) (b : List Byte) : SMap.get (s.setWire k b).wire k [] = b := SMap.get_put_same _ _ _ _

theorem State.wire_setWire_ne {k j : Nat} {b : List Byte} (h : j ≠ k) : SMap.get (s.setWire k b).wire j [] = SMap.get s.wire j [] := SMap.get_put_ne h

/-- What leaves island i's page, its link state and its lines apart, beside the lines themselves. -/
def State.fioOnly (s t : State) (i : Nat) : Prop :=
  t.hub = s.hub ∧ (∀ j, j ≠ i → t.il j = s.il j) ∧ ∀ g : Fld, g.pageOf ≠ 0x52 + i → t.get g = s.get g

theorem State.fioOnly_refl : s.fioOnly s i := ⟨rfl, fun _ _ => rfl, fun _ _ => rfl⟩

theorem State.fioOnly_set {f : Fld} {v : Nat} (h : s.fioOnly t i) (hf : f.pageOf = 0x52 + i) : s.fioOnly (t.set f v) i :=
  ⟨h.1, h.2.1, fun g hg => (State.get_set_ne t fun e => hg (by rw [← hf]; unfold Fld.pageOf; rw [e])).trans (h.2.2 g hg)⟩

theorem State.fioOnly_updIl {f : IslS → IslS} (h : s.fioOnly t i) : s.fioOnly (t.updIl i f) i :=
  ⟨h.1, fun j hj => (State.il_updIl_ne hj).trans (h.2.1 j hj), h.2.2⟩

theorem State.fioOnly_setWire {k : Nat} {b : List Byte} (h : s.fioOnly t i) : s.fioOnly (t.setWire k b) i := h

theorem State.fioOnly_dlSend {b0 b2 b3 w : Nat} {ask : Bool} (h : s.fioOnly t i) : s.fioOnly (t.dlSend i b0 b2 b3 w ask) i :=
  State.fioOnly_setWire (State.fioOnly_updIl h)

/-! ## Downlink frames (R340, R341) -/

/-- The link state once a downlink frame has left: it took the next number; l are the frames not echoed yet. -/
def IslS.sent (q : IslS) (l : List Nat) : IslS := { q with seq := (q.seq + 1) % 256, unechoed := l }

@[simp] theorem IslS.sent_fields (q : IslS) (l : List Nat) : (q.sent l).seq = (q.seq + 1) % 256 ∧ (q.sent l).slots = q.slots ∧
    (q.sent l).linked = q.linked ∧ (q.sent l).alive = q.alive ∧ (q.sent l).halt = q.halt ∧ (q.sent l).fault = q.fault ∧ (q.sent l).wet = q.wet ∧
    (q.sent l).supply = q.supply ∧ (q.sent l).latched = q.latched ∧ (q.sent l).chans = q.chans := by
  and_intros <;> rfl

theorem State.il_dlSend (s : State) (i b0 b2 b3 w : Nat) (ask : Bool) : ∃ l, (s.dlSend i b0 b2 b3 w ask).il i = (s.il i).sent l := by
  refine ⟨if ask then ((s.il i).unechoed ++ [(s.il i).seq]).drop ((s.il i).unechoed.length - 254) else (s.il i).unechoed, ?_⟩
  unfold State.dlSend
  dsimp only
  rw [State.il_setWire, State.il_updIl]
  rfl

/-- The line holds the frame sent. -/
theorem State.wire_dlSend (s : State) (i b0 b2 b3 w : Nat) (ask : Bool) : SMap.get (s.dlSend i b0 b2 b3 w ask).wire (32 + i) [] =
    islFrame [b0, (s.il i).seq, b2, b3, w / 256 % 256, w % 256] := State.wire_setWire_same _ _ _

theorem State.up_dlSend (s : State) (b0 b2 b3 w : Nat) (ask : Bool) :
    SMap.get (s.dlSend i b0 b2 b3 w ask).wire (48 + i) [] = SMap.get s.wire (48 + i) [] := State.wire_setWire_ne (by omega)

theorem State.dlSend_rest (s : State) (i b0 b2 b3 w : Nat) (ask : Bool) :
    (s.dlSend i b0 b2 b3 w ask).hub = s.hub ∧ (s.dlSend i b0 b2 b3 w ask).regs = s.regs := ⟨rfl, rfl⟩

/-- The answer of an island changes its line only. -/
theorem State.ulSend_rest (s : State) (i : Nat) (volts : List Nat) : (s.ulSend i volts).hub = s.hub ∧ (s.ulSend i volts).regs = s.regs ∧
    (∀ j, (s.ulSend i volts).il j = s.il j) := ⟨rfl, rfl, fun _ => rfl⟩

/-- A change of link state leaves registers, hub SRAM and lines. -/
theorem State.updIl_rest (s : State) (i : Nat) (f : IslS → IslS) : (s.updIl i f).hub = s.hub ∧ (s.updIl i f).regs = s.regs ∧ (s.updIl i f).wire = s.wire :=
  ⟨rfl, rfl, rfl⟩

/-- What an island makes of a good frame numbered n. -/
def IslS.took (f : IslS → IslS) (n : Nat) (q : IslS) : IslS := (f { q with good := n }).judge

/-- A downlink frame that asks for an answer, to an island whose link delivers and whose microcode runs. -/
theorem State.dlAsk_alive (s : State) (b0 b2 b3 : Nat) (volts : List Nat) (f : IslS → IslS) (hl : (s.il i).linked = true) (ha : (s.il i).alive = true) :
    s.dlAsk i b0 b2 b3 volts f = ((s.dlSend i b0 b2 b3 0 true).updIl i (IslS.took f (s.il i).seq)).ulSend i volts := by
  obtain ⟨l, hd⟩ := State.il_dlSend s i b0 b2 b3 0 true
  unfold State.dlAsk
  dsimp only
  rw [if_pos]
  · rfl
  · rw [hd]
    exact ⟨hl, ha⟩

/-- The same where the frame is lost or no microcode runs. -/
theorem State.dlAsk_dead (s : State) (b0 b2 b3 : Nat) (volts : List Nat) (f : IslS → IslS) (h : ((s.il i).linked && (s.il i).alive) = false) :
    s.dlAsk i b0 b2 b3 volts f = s.dlSend i b0 b2 b3 0 true := by
  obtain ⟨l, hd⟩ := State.il_dlSend s i b0 b2 b3 0 true
  unfold State.dlAsk
  dsimp only
  rw [if_neg]
  rw [hd, ← Bool.and_eq_true]
  exact Bool.eq_false_iff.1 h

/-- What a downlink frame that asks for an answer comes to: the frame is on its line and takes its number; an island whose link delivers and whose microcode
runs takes it and answers, another leaves the uplink line alone. -/
theorem State.dlAsk_spec (s : State) (b0 b2 b3 : Nat) (volts : List Nat) (f : IslS → IslS) :
    let z := s.dlAsk i b0 b2 b3 volts f
    z.hub = s.hub ∧ z.regs = s.regs ∧ SMap.get z.wire (32 + i) [] = islFrame [b0, (s.il i).seq, b2, b3, 0, 0] ∧
      ∃ l, let q := (s.il i).sent l
        ((s.il i).linked = true → (s.il i).alive = true →
          z.il i = q.took f (s.il i).seq ∧ SMap.get z.wire (48 + i) [] = (z.il i).answer (decide (8 ≤ i)) volts) ∧
        (((s.il i).linked && (s.il i).alive) = false → z.il i = q ∧ SMap.get z.wire (48 + i) [] = SMap.get s.wire (48 + i) []) := by
  intro z
  obtain ⟨l, hd⟩ := State.il_dlSend s i b0 b2 b3 0 true
  obtain ⟨hh, hr⟩ := State.dlSend_rest s i b0 b2 b3 0 true
  have hw := State.wire_dlSend s i b0 b2 b3 0 true
  by_cases h : ((s.il i).linked && (s.il i).alive) = true
  · obtain ⟨h1, h2⟩ := Bool.and_eq_true_iff.1 h
    have hz : z = _ := State.dlAsk_alive s b0 b2 b3 volts f h1 h2
    have hil : z.il i = ((s.il i).sent l).took f (s.il i).seq := by rw [hz, (State.ulSend_rest _ _ _).2.2, State.il_updIl, hd]
    refine ⟨?_, ?_, ?_, l, fun _ _ => ⟨hil, ?_⟩, fun hn => absurd h (by simp [hn])⟩
    · rw [hz, (State.ulSend_rest _ _ _).1, (State.updIl_rest _ _ _).1, hh]
    · rw [hz, (State.ulSend_rest _ _ _).2.1, (State.updIl_rest _ _ _).2.1, hr]
    · rw [hz, State.ulSend, State.wire_setWire_ne (by omega), (State.updIl_rest _ _ _).2.2]
      exact hw
    · rw [hz]
      exact State.wire_setWire_same _ _ _
  · have h' := Bool.eq_false_iff.2 h
    have hz : z = _ := State.dlAsk_dead s b0 b2 b3 volts f h'
    rw [hz]
    exact ⟨hh, hr, hw, l, fun h1 h2 => absurd (Bool.and_eq_true_iff.2 ⟨h1, h2⟩) h, fun _ => ⟨hd, State.up_dlSend s _ _ _ _ _⟩⟩

/-- Filters set on a list of channels leave the rest of the link state. -/
theorem IslS.foldl_setChan (q : IslS) (l : List Nat) (f : IslS → Nat → IChan) :
    ∃ c, l.foldl (fun p n => p.setChan n (f p n)) q = { q with chans := c } := by
  induction l generalizing q with
  | nil => exact ⟨q.chans, rfl⟩
  | cons a r ih =>
    obtain ⟨c, hc⟩ := ih (q.setChan a (f q a))
    exact ⟨c, hc⟩

/-- R347: an input sample leaves what concerns the link. -/
theorem IslS.sample_fields (q : IslS) (ua : List Nat) : (q.sample ua).seq = q.seq ∧ (q.sample ua).slots = q.slots ∧ (q.sample ua).linked = q.linked ∧
    (q.sample ua).good = q.good ∧ (q.sample ua).sampled = true := by
  obtain ⟨c, hc⟩ := q.foldl_setChan (List.range 8) fun p n => (p.chan n).sample q.first (currentClass (q.chan n).wb (ua.getD n 0))
  unfold IslS.sample
  dsimp only
  rw [hc]
  exact ⟨rfl, rfl, rfl, rfl, rfl⟩

/-! ## What an island's page shows over the writes of other units -/

/-- Keys of island i's page, but for the registers that conditions latch in or that only output read-back changes: INT_RAW, lost downlinks, input changes,
mismatch flags and latches, partner drive, missed stages. -/
def islKey (i k : Nat) : Prop :=
  (0x52 + i) * 131072 ≤ k ∧ k < (0x53 + i) * 131072 ∧ k / 32 % 4096 ∉ [0x020, 0x054, 0x08C, 0x090, 0x094, 0x098]

/-- These registers read the same. -/
def State.sameIsl (i : Nat) (s t : State) : Prop := ∀ g : Fld, islKey i g.key → t.get g = s.get g

theorem islKey_page {g : Fld} (hi : i < 12) (h : islKey i g.key) : g.pageOf = 0x52 + i := by
  obtain ⟨h1, h2, -⟩ := h
  unfold Fld.pageOf
  omega

theorem islKey_field {o l w r : Nat} (h : o * 32 + l < 131072) (ho : (o * 32 + l) / 32 ∉ [0x020, 0x054, 0x08C, 0x090, 0x094, 0x098]) :
    islKey i (⟨0x52 + i, o, l, w, r, 0⟩ : Fld).key := by
  rw [fioKey]
  refine ⟨by omega, by omega, ?_⟩
  rwa [show ((0x52 + i) * 131072 + (o * 32 + l)) / 32 % 4096 = (o * 32 + l) / 32 by omega]

/-- A register outside: on a lower page, on the page of the safe messages or above it, or one of those left out. -/
theorem not_islKey_low {f : Fld} (h : f.key < 0x52 * 131072) : ¬ islKey i f.key := fun hk => by have := hk.1; omega

theorem not_islKey_safe {o l w r : Nat} (hi : i < 12) : ¬ islKey i (⟨0x61, o, l, w, r, 0⟩ : Fld).key := fun hk => by
  have := hk.2.1
  unfold Fld.key at this
  dsimp only at this
  omega

theorem not_islKey_own {o l w r : Nat} (h : o * 32 + l < 131072) (ho : (o * 32 + l) / 32 ∈ [0x020, 0x054, 0x08C, 0x090, 0x094, 0x098]) :
    ¬ islKey i (⟨0x52 + i, o, l, w, r, 0⟩ : Fld).key := fun hk => by
  have h2 := hk.2.2
  rw [fioKey] at h2
  rw [show ((0x52 + i) * 131072 + (o * 32 + l)) / 32 % 4096 = (o * 32 + l) / 32 by omega] at h2
  exact h2 ho

theorem State.sameIsl_refl : State.sameIsl i s s := fun _ _ => rfl

theorem State.sameIsl_set {f : Fld} {v : Nat} (h : State.sameIsl i s t) (k : ¬ islKey i f.key) : State.sameIsl i s (t.set f v) := fun g hg =>
  (State.get_set_ne t fun e => k (e ▸ hg)).trans (h g hg)

/-- A change of what holds no register. -/
theorem State.sameIsl_regs (h : State.sameIsl i s t) (e : u.regs = t.regs) : State.sameIsl i s u := fun g hg => by
  rw [← h g hg]
  unfold State.get
  rw [e]

theorem State.sameIsl_keeps {ps : List Nat} (hi : i < 12) (h : State.sameIsl i s t) (k : t.keepsBut u ps) (hp : ∀ p ∈ ps, p < 0x52) :
    State.sameIsl i s u := fun g hg =>
  (k.2 g fun hm => by have := hp _ hm; rw [islKey_page hi hg] at this; omega).trans (h g hg)

theorem State.sameIsl_ite {c : Prop} [Decidable c] {a b : State} (ha : State.sameIsl i s a) (hb : State.sameIsl i s b) :
    State.sameIsl i s (if c then a else b) := by
  split
  · exact ha
  · exact hb

theorem State.sameIsl_each {α : Type} {l : List α} {f : State → α → State} (h : State.sameIsl i s t)
    (hf : ∀ u a, State.sameIsl i s u → State.sameIsl i s (f u a)) : State.sameIsl i s (t.each l f) := by
  unfold State.each
  induction l generalizing t with
  | nil => exact h
  | cons a r ih => exact ih (hf t a h)

theorem State.sameIsl_record {code sev : Nat} {ws : List Nat} (hi : i < 12) (h : State.sameIsl i s t) (hs : sev < 8) :
    State.sameIsl i s (t.record code sev ws) :=
  State.sameIsl_keeps hi h (State.keepsBut_record (ps := [7, 0x0A]) State.keepsBut_refl hs (by simp) (by simp)) (by simp)

theorem State.sameIsl_once {key ticks : Nat} {f : State → State} (h : State.sameIsl i s t) (hf : ∀ u, State.sameIsl i s u → State.sameIsl i s (f u)) :
    State.sameIsl i s (t.once key ticks f) := by
  unfold State.once
  exact State.sameIsl_ite (hf _ (State.sameIsl_regs h rfl)) h

/-- An interrupt of a lower page, of the safe messages, or of the island's own page, whose INT_RAW is left out. -/
theorem State.sameIsl_raiseInt {page bit : Nat} (hi : i < 12) (h : State.sameIsl i s t) (hp : ¬ islKey i (rawOf page).key) :
    State.sameIsl i s (t.raiseInt page bit) := fun g hg =>
  (State.get_raiseInt_ne (by rw [islKey_page hi hg]; omega) fun e => hp (e ▸ hg)).trans (h g hg)

section
variable {d : Desc} {w k v : Nat} {vt : Option Nat} {b : List Byte}

theorem State.sameIsl_acceptWrite {n : Nat} (h : State.sameIsl i s t) : State.sameIsl i s (t.acceptWrite d n w vt k b) := by
  have h1 : State.sameIsl i s (if bitOf (t.hdr d) 3 = true then t.count DIMG_MERGED_0 else t) :=
    State.sameIsl_ite (State.sameIsl_set h (not_islKey_low (by decide))) h
  unfold State.acceptWrite
  dsimp only
  exact State.sameIsl_ite (State.sameIsl_regs h1 rfl) (State.sameIsl_ite (State.sameIsl_regs h1 rfl) (State.sameIsl_regs h1 rfl))

theorem State.sameIsl_rejectWrite {n : Nat} (hi : i < 12) (h : State.sameIsl i s t) : State.sameIsl i s (t.rejectWrite d n) := by
  have h1 := State.sameIsl_set (f := DIMG_reject_count) (v := min (t.get DIMG_reject_count + 1) (2 ^ DIMG_reject_count.w - 1)) h (not_islKey_low (by decide))
  have h2 := State.sameIsl_set (v := n) (State.sameIsl_set (v := d.v) h1 (not_islKey_low (f := DIMG_REJ_LAST_0) (by decide)))
    (not_islKey_low (f := DIMG_REJ_LAST_16) (by decide))
  exact State.sameIsl_record hi (State.sameIsl_raiseInt hi (State.sameIsl_regs h2 rfl) (not_islKey_low (by decide))) (by decide)

theorem State.sameIsl_judgeWrite {n : Nat} (hi : i < 12) (h : State.sameIsl i s t) : State.sameIsl i s (t.judgeWrite d n w vt k b).1 := by
  unfold State.judgeWrite
  split
  · unfold State.lateWrite
    have h1 := State.sameIsl_set (f := DIMG_LATE_0) (v := min (t.get DIMG_LATE_0 + 1) (2 ^ DIMG_LATE_0.w - 1)) h (not_islKey_low (by decide))
    exact State.sameIsl_raiseInt hi (State.sameIsl_regs (State.sameIsl_set (v := d.v) h1 (not_islKey_low (f := DIMG_LATE_LAST_0) (by decide))) rfl)
      (not_islKey_low (by decide))
  · split
    · exact h
    · split
      · exact State.sameIsl_acceptWrite h
      · exact State.sameIsl_rejectWrite hi h

theorem State.sameIsl_imgWriteRaw {n : Nat} (hi : i < 12) (h : State.sameIsl i s t) : State.sameIsl i s (t.imgWriteRaw n v w vt b).1 := by
  unfold State.imgWriteRaw
  split
  · split
    · exact h
    · exact State.sameIsl_judgeWrite hi h
  · exact h

theorem State.sameIsl_stageFallback (hi : i < 12) (h : State.sameIsl i s t) : State.sameIsl i s (t.stageFallback v) := by
  unfold State.stageFallback
  split
  · dsimp only
    have h1 := State.sameIsl_imgWriteRaw (n := 0xA002) (v := v) (w := t.now) (vt := none) (b := t.hubRead ‹Desc›.fb ‹Desc›.size) hi h
    exact State.sameIsl_ite (State.sameIsl_regs h1 rfl) h1
  · exact h

/-- A mark of staleness changes the variable's record in hub SRAM only. -/
theorem State.regs_markStale (t : State) (v : Nat) : (t.markStale v).regs = t.regs := by
  unfold State.markStale
  split
  · split <;> rfl
  · rfl

end

/-! The safe message layer's checks of a carrier (R411) write its own page. -/

section
variable {n : Nat} {c : SafeRx} {p : List Byte}

theorem State.sameIsl_smShow (hi : i < 12) (h : State.sameIsl i s t) : State.sameIsl i s t.smShow := State.sameIsl_set h (not_islKey_safe hi)

theorem State.sameIsl_smBad (hi : i < 12) (h : State.sameIsl i s t) : State.sameIsl i s (t.smBad n) := by
  have h1 : State.sameIsl i s ((t.count (SM_R_ERR_0 n)).count SAFEMSG_err_count) :=
    State.sameIsl_set (State.sameIsl_set h (not_islKey_safe hi)) (not_islKey_safe hi)
  exact State.sameIsl_regs (State.sameIsl_raiseInt hi h1 (not_islKey_safe hi)) rfl

theorem State.sameIsl_smWait (hi : i < 12) (h : State.sameIsl i s t) : State.sameIsl i s (t.smWait n c) := by
  have h1 : State.sameIsl i s ((t.set (SM_R_STAT_0 n) 1).set (SM_R_STAT_6 n) 0) :=
    State.sameIsl_set (State.sameIsl_set h (not_islKey_safe hi)) (not_islKey_safe hi)
  exact State.sameIsl_smShow hi (State.sameIsl_stageFallback hi (State.sameIsl_regs h1 rfl))

theorem State.sameIsl_smFail {cause : Nat} (hi : i < 12) (h : State.sameIsl i s t) : State.sameIsl i s (t.smFail n c cause) := by
  have h1 : State.sameIsl i s ((t.set (SM_R_STAT_0 n) 3).set (SM_R_STAT_2 n) cause) :=
    State.sameIsl_set (State.sameIsl_set h (not_islKey_safe hi)) (not_islKey_safe hi)
  exact State.sameIsl_record hi (State.sameIsl_raiseInt hi (State.sameIsl_smShow hi (State.sameIsl_stageFallback hi (State.sameIsl_regs h1 rfl)))
    (not_islKey_safe hi)) (by decide)

theorem State.sameIsl_smDiscard {f : Fld} (hi : i < 12) (h : State.sameIsl i s t) (hf : ¬ islKey i f.key) :
    State.sameIsl i s (((t.count f).count SAFEMSG_err_count).smDiscardRec n) :=
  State.sameIsl_once (State.sameIsl_set (State.sameIsl_set h hf) (not_islKey_safe hi)) fun _ hu => State.sameIsl_record hi hu (by decide)

theorem State.sameIsl_smTake {age : Int} (hi : i < 12) (h : State.sameIsl i s t) : State.sameIsl i s (t.smTake n c p age) := by
  have hs : ∀ {u : State} {o l w r v : Nat}, State.sameIsl i s u → State.sameIsl i s (u.set ⟨0x61, o, l, w, r, 0⟩ v) := fun hu =>
    State.sameIsl_set hu (not_islKey_safe hi)
  unfold State.smTake
  extract_lets seq lost a b x y e
  have hb : State.sameIsl i s b := State.sameIsl_regs (hs (hs (hs (hs h)))) rfl
  have he : State.sameIsl i s e := State.sameIsl_ite
    (State.sameIsl_ite (State.sameIsl_record hi (State.sameIsl_raiseInt hi (hs (hs hb)) (not_islKey_safe hi)) (by decide)) (hs hb)) hb
  exact State.sameIsl_ite (State.sameIsl_imgWriteRaw hi he) he

theorem State.sameIsl_smCheck (hi : i < 12) (h : State.sameIsl i s t) : State.sameIsl i s (t.smCheck n c p) := by
  have hbad := State.sameIsl_smBad (n := n) hi h
  have hout : State.sameIsl i s ((((t.count (SM_R_ERR_8 n)).count SAFEMSG_err_count).smDiscardRec n).updRx n fun r => { r with outRun := r.outRun + 1 }) :=
    State.sameIsl_regs (State.sameIsl_smDiscard hi h (not_islKey_safe hi)) rfl
  unfold State.smCheck
  dsimp only
  refine State.sameIsl_ite h (State.sameIsl_ite hbad (State.sameIsl_ite (State.sameIsl_ite (State.sameIsl_smFail hi hbad) hbad) (State.sameIsl_ite ?_
    (State.sameIsl_ite (State.sameIsl_smFail hi h) (State.sameIsl_ite (State.sameIsl_smDiscard hi h (not_islKey_safe hi)) (State.sameIsl_ite ?_
    (State.sameIsl_ite h (State.sameIsl_ite (State.sameIsl_ite (State.sameIsl_smFail hi hout) hout) (State.sameIsl_smTake hi h)))))))))
  · exact State.sameIsl_record hi (State.sameIsl_raiseInt hi (State.sameIsl_smFail hi h) (not_islKey_safe hi)) (by decide)
  · exact State.sameIsl_record hi (State.sameIsl_regs (State.sameIsl_set (State.sameIsl_smWait hi h) (not_islKey_safe hi)) rfl) (by decide)

/-- A unit's write of a variable leaves what an island's page shows. -/
theorem State.sameIsl_imgWrite {m v w : Nat} {vt : Option Nat} {b : List Byte} (hi : i < 12) (h : State.sameIsl i s t) :
    State.sameIsl i s (t.imgWrite m v w vt b) := by
  have h1 := State.sameIsl_imgWriteRaw (n := m) (v := v) (w := w) (vt := vt) (b := b) hi h
  unfold State.imgWrite
  dsimp only
  split
  · exact h1
  · split
    · exact State.sameIsl_smCheck hi h1
    · exact h1

end

end Sys2Proof.Machine
end

section
/-! FieldIoLinksAndIslands: commands, loading and configuration items of an island (13 R344, R347, R353, R356, R360). -/

namespace Sys2Proof.Machine

variable {s t : State} {i : Nat}

@[simp] theorem State.get_updIl (s : State) (i : Nat) (f : IslS → IslS) (g : Fld) : (s.updIl i f).get g = s.get g := rfl
@[simp] theorem State.get_dlSend (s : State) (i b0 b2 b3 w : Nat) (ask : Bool) (g : Fld) : (s.dlSend i b0 b2 b3 w ask).get g = s.get g := rfl
@[simp] theorem State.il_set (s : State) (f : Fld) (v j : Nat) : (s.set f v).il j = s.il j := rfl

theorem State.islOn_set {f : Fld} {v : Nat} (h : (FIO_state i).key ≠ f.key) : (s.set f v).islOn i = s.islOn i := by
  unfold State.islOn
  rw [State.get_set_ne _ h]
  rfl

/-- The link state of an island being loaded with m. -/
def IslS.loading (m : SMap Byte) (q : IslS) : IslS :=
  { q with seq := (q.seq + 2048) % 256, alive := false, halt := false, applied := 0, held := none, tripped := false, ram := m, frozen := [],
           stageSent := false, expect := none, slots := none, unechoed := [] }

theorem IslS.loading_fields (m : SMap Byte) (q : IslS) :
    (q.loading m).ram = m ∧ (q.loading m).alive = false ∧ (q.loading m).applied = 0 ∧ (q.loading m).held = none := ⟨rfl, rfl, rfl, rfl⟩

/-- The registers of an island being loaded. -/
def State.fioLoadRegs (s : State) (i : Nat) (b : Bool) : State :=
  (((s.set (FIO_state i) 1).count (FIO_LINK_16 i)).setB (FIO_MC_0 i) b).set (FIO_MC_16 i) (ramCrc (s.islandRam b))

theorem State.fioLoad_eq (s : State) (i : Nat) (b : Bool) :
    s.fioLoad i b = ((s.fioLoadRegs i b).updIl i (IslS.loading (s.islandRam b))).dlSend i 0x40 0xF0 0 (ramCrc (s.islandRam b)) false := rfl

/-- What a load leaves (R344). -/
theorem State.fioLoad_spec (s : State) (b : Bool) (hi : i < 12) : let z := (s.fioLoad i b).set (FIO_CMD_STAT_0 i) 0
    z.get (FIO_state i) = 1 ∧ z.get (FIO_CMD_STAT_0 i) = 0 ∧ z.get (FIO_MC_0 i) = b2n b ∧ z.get (FIO_MC_16 i) = ramCrc (s.islandRam b) % 2 ^ 16 ∧
      z.get (FIO_LINK_16 i) = s.oneMore (FIO_LINK_16 i) ∧ (z.il i).ram = s.islandRam b ∧ (z.il i).alive = false ∧ (z.il i).applied = 0 ∧
      (z.il i).held = none ∧ s.fioOnly z i := by
  intro z
  obtain ⟨l, hl⟩ := State.il_dlSend ((s.fioLoadRegs i b).updIl i (IslS.loading (s.islandRam b))) i 0x40 0xF0 0 (ramCrc (s.islandRam b)) false
  rw [State.il_updIl] at hl
  obtain ⟨h1, h2, h3, h4⟩ := IslS.loading_fields (s.islandRam b) ((s.fioLoadRegs i b).il i)
  have hq : z.il i = IslS.sent (((s.fioLoadRegs i b).il i).loading (s.islandRam b)) l := by rw [State.il_set, State.fioLoad_eq, hl]
  have hg : ∀ g : Fld, g.key ≠ (FIO_CMD_STAT_0 i).key → z.get g = (s.fioLoadRegs i b).get g := fun g hn => by
    rw [State.get_set_ne _ hn, State.fioLoad_eq, State.get_dlSend, State.get_updIl]
  refine ⟨?_, State.get_set_same _ _ _, ?_, ?_, ?_, by rw [hq]; exact h1, by rw [hq]; exact h2, by rw [hq]; exact h3, by rw [hq]; exact h4, ?_⟩
  · rw [hg (FIO_state i) (fioKey_ne (by decide)), State.fioLoadRegs]
    simp (disch := (refine fioKey_ne ?_; omega)) only
      [FIO_state, FIO_LINK_16, FIO_MC_0, FIO_MC_16, State.get_set_ne, State.get_setB_ne, State.get_count_ne, State.get_set_same]
    rfl
  · rw [hg (FIO_MC_0 i) (fioKey_ne (by decide)), State.fioLoadRegs, State.get_set_ne _ (f := FIO_MC_16 i) (g := FIO_MC_0 i) (fioKey_ne (by decide)),
      State.get_setB _ _ _ (by decide : 0 < 1)]
  · rw [hg (FIO_MC_16 i) (fioKey_ne (by decide)), State.fioLoadRegs, State.get_set_same]
    rfl
  · rw [hg (FIO_LINK_16 i) (fioKey_ne (by decide)), State.fioLoadRegs]
    simp (disch := (refine fioKey_ne ?_; omega)) only
      [FIO_state, FIO_LINK_16, FIO_MC_0, FIO_MC_16, State.get_set_ne, State.get_setB_ne, State.get_count, State.oneMore]
  · refine State.fioOnly_set (State.fioOnly_dlSend (State.fioOnly_updIl ?_)) (fioPage hi (by decide))
    exact State.fioOnly_set (State.fioOnly_set (State.fioOnly_set (State.fioOnly_set State.fioOnly_refl (fioPage hi (by decide)))
      (fioPage hi (by decide))) (fioPage hi (by decide))) (fioPage hi (by decide))

/-! FIO_CMD's bits. -/

theorem State.fioCmd_start (s : State) (i : Nat) (b : Bool) : s.fioCmd i (1 + 16 * b2n b) =
    if s.get (FIO_state i) = 0 then (s.fioLoad i b).set (FIO_CMD_STAT_0 i) 0 else s.set (FIO_CMD_STAT_0 i) 1 := by
  cases b <;> rfl

theorem State.fioCmd_reload (s : State) (i : Nat) (b : Bool) : s.fioCmd i (4 + 16 * b2n b) =
    if s.get (FIO_state i) = 4 ∨ s.get (FIO_state i) = 5 then (s.fioLoad i b).set (FIO_CMD_STAT_0 i) 0 else s.set (FIO_CMD_STAT_0 i) 1 := by
  cases b <;> rfl

theorem State.fioOff_spec (s : State) (hi : i < 12) : let z := (s.fioOff i).set (FIO_CMD_STAT_0 i) 0
    z.get (FIO_state i) = 0 ∧ z.get (FIO_CMD_STAT_0 i) = 0 ∧ (z.il i).alive = false ∧ (z.il i).held = none ∧ s.fioOnly z i := by
  intro z
  have hil : (z.il i).alive = false ∧ (z.il i).held = none := by
    rw [State.il_set]
    unfold State.fioOff
    rw [State.il_updIl]
    exact ⟨rfl, rfl⟩
  have hst : z.get (FIO_state i) = 0 := by
    rw [State.get_set_ne (s.fioOff i) (g := FIO_state i) (f := FIO_CMD_STAT_0 i) (fioKey_ne (by decide))]
    exact State.get_set_same s (FIO_state i) 0
  exact ⟨hst, State.get_set_same _ _ _, hil.1, hil.2,
    State.fioOnly_set (State.fioOnly_updIl (State.fioOnly_set State.fioOnly_refl (fioPage hi (by decide)))) (fioPage hi (by decide))⟩

theorem State.fioCmd_clear (s : State) (i : Nat) : s.fioCmd i 8 =
    let u := s.set (FIO_CMD_STAT_0 i) 0
    if s.islOn i then
      let z := u.dlSend i 0x40 0x20 0 0 false
      if (z.il i).linked then z.updIl i fun q => { q with good := (u.il i).seq, fault := q.fault && q.cause } else z
    else u := by
  rw [← State.islOn_set (s := s) (fioKey_ne (i := i) (by decide) : _ ≠ (FIO_CMD_STAT_0 i).key)]
  rfl

/-- R356. -/
theorem State.fioCmd_clear_on (h : s.islOn i = true) (hi : i < 12) : let z := s.fioCmd i 8
    z.get (FIO_CMD_STAT_0 i) = 0 ∧ SMap.get z.wire (32 + i) [] = islFrame [0x40, (s.il i).seq, 0x20, 0, 0, 0] ∧
      (z.il i).fault = (if (s.il i).linked then (s.il i).fault && (s.il i).cause else (s.il i).fault) ∧ s.fioOnly z i := by
  rw [State.fioCmd_clear]
  dsimp only
  obtain ⟨l, hl⟩ := State.il_dlSend (s.set (FIO_CMD_STAT_0 i) 0) i 0x40 0x20 0 0 false
  have hw := State.wire_dlSend (s.set (FIO_CMD_STAT_0 i) 0) i 0x40 0x20 0 0 false
  have hp : s.fioOnly ((s.set (FIO_CMD_STAT_0 i) 0).dlSend i 0x40 0x20 0 0 false) i :=
    State.fioOnly_dlSend (State.fioOnly_set State.fioOnly_refl (fioPage hi (by decide)))
  have hg : ((s.set (FIO_CMD_STAT_0 i) 0).dlSend i 0x40 0x20 0 0 false).get (FIO_CMD_STAT_0 i) = 0 := by
    rw [State.get_dlSend, State.get_set_same]
    rfl
  rw [State.il_set] at hl hw
  have hlk : (((s.set (FIO_CMD_STAT_0 i) 0).dlSend i 0x40 0x20 0 0 false).il i).linked = (s.il i).linked := by rw [hl]; rfl
  rw [if_pos h, hlk]
  by_cases k : (s.il i).linked = true
  · rw [if_pos k, if_pos k]
    refine ⟨hg, hw, ?_, State.fioOnly_updIl hp⟩
    rw [State.il_updIl, hl]
    rfl
  · rw [if_neg k, if_neg k]
    exact ⟨hg, hw, by rw [hl]; rfl, hp⟩

/-! ## Configuration items -/

theorem clampR_two_twenty (x : Nat) : clampR 2 20 x = max 2 (min 20 x) := by
  unfold clampR
  split
  · omega
  · split
    · omega
    · omega

/-- The registers FIO_IN_CFG[n]. -/
def State.fioInRegs (s : State) (i n v : Nat) : State :=
  ((s.set (FIO_IN_CFG_0 i n) (max 1 (v % 256))).set (FIO_IN_CFG_8 i n) (max 1 (bitsOf v 8 8))).setB (FIO_IN_CFG_16 i n) (bitOf v 16)

/-- What the island makes of the item. -/
def IslS.inCfg (n v k : Nat) (q : IslS) : IslS :=
  let c := q.chan n
  { q with good := k }.setChan n { c with lim := max 1 (v % 256), brk := max 1 (bitsOf v 8 8), wb := bitOf v 16, cc := min c.cc (max 1 (v % 256)),
                                          cb := min c.cb (max 1 (bitsOf v 8 8)) }

theorem IslS.inCfg_chan (n v k : Nat) (q : IslS) : ((q.inCfg n v k).chan n).lim = max 1 (v % 256) ∧
    ((q.inCfg n v k).chan n).brk = max 1 (bitsOf v 8 8) ∧ ((q.inCfg n v k).chan n).wb = bitOf v 16 := by
  unfold IslS.inCfg IslS.setChan IslS.chan
  dsimp only
  rw [SMap.get_put_same]
  exact ⟨rfl, rfl, rfl⟩

theorem State.fioInCfg_eq (s : State) (i n v : Nat) : s.fioInCfg i n v =
    let u := s.fioInRegs i n v
    if u.islOn i then
      let z := u.dlSend i 0x40 n (b2n (bitOf v 16)) (max 1 (bitsOf v 8 8) * 256 + max 1 (v % 256)) false
      if (z.il i).linked then z.updIl i (IslS.inCfg n v (u.il i).seq) else z
    else u := rfl

/-- R347: FIO_IN_CFG[n] of an input island, and the item it sends. -/
theorem State.fioInCfg_spec (s : State) {n : Nat} (v : Nat) (hi : i < 12) (hn : n < 8) : let z := s.fioInCfg i n v
    z.get (FIO_IN_CFG_0 i n) = max 1 (v % 256) ∧ z.get (FIO_IN_CFG_8 i n) = max 1 (v / 256 % 256) ∧ z.get (FIO_IN_CFG_16 i n) = b2n (bitOf v 16) ∧
      s.fioOnly z i ∧ (s.islOn i = true → (s.il i).linked = true →
        ((z.il i).chan n).lim = max 1 (v % 256) ∧ ((z.il i).chan n).brk = max 1 (v / 256 % 256) ∧ ((z.il i).chan n).wb = bitOf v 16) := by
  have hb : bitsOf v 8 8 = v / 256 % 256 := rfl
  have hreg : (s.fioInRegs i n v).get (FIO_IN_CFG_0 i n) = max 1 (v % 256) ∧ (s.fioInRegs i n v).get (FIO_IN_CFG_8 i n) = max 1 (v / 256 % 256) ∧
      (s.fioInRegs i n v).get (FIO_IN_CFG_16 i n) = b2n (bitOf v 16) := by
    unfold State.fioInRegs
    rw [State.get_setB _ _ _ (by decide : 0 < 1)]
    simp (disch := (refine fioKey_ne ?_; omega)) only
      [FIO_IN_CFG_0, FIO_IN_CFG_8, FIO_IN_CFG_16, State.get_setB_ne, State.get_set_ne, State.get_set_same]
    refine ⟨Nat.mod_eq_of_lt ?_, ?_, trivial⟩
    · show max 1 (v % 256) < 256
      omega
    · rw [hb]
      refine Nat.mod_eq_of_lt ?_
      show max 1 (v / 256 % 256) < 256
      omega
  obtain ⟨h1, h2, h3⟩ := hreg
  have hp : s.fioOnly (s.fioInRegs i n v) i := State.fioOnly_set (State.fioOnly_set (State.fioOnly_set State.fioOnly_refl (fioPage hi (by omega)))
    (fioPage hi (by omega))) (fioPage hi (by omega))
  have hon : (s.fioInRegs i n v).islOn i = s.islOn i :=
    (State.islOn_set (fioKey_ne (by omega))).trans ((State.islOn_set (fioKey_ne (by omega))).trans (State.islOn_set (fioKey_ne (by omega))))
  have hil : (s.fioInRegs i n v).il i = s.il i := rfl
  rw [State.fioInCfg_eq]
  dsimp only
  rw [hon]
  by_cases k : s.islOn i = true
  · obtain ⟨l, hl⟩ := State.il_dlSend (s.fioInRegs i n v) i 0x40 n (b2n (bitOf v 16)) (max 1 (bitsOf v 8 8) * 256 + max 1 (v % 256)) false
    have hlk : (((s.fioInRegs i n v).dlSend i 0x40 n (b2n (bitOf v 16)) (max 1 (bitsOf v 8 8) * 256 + max 1 (v % 256)) false).il i).linked =
        (s.il i).linked := by rw [hl, hil]; rfl
    rw [if_pos k, hlk]
    by_cases m : (s.il i).linked = true
    · rw [if_pos m, State.il_updIl]
      exact ⟨h1, h2, h3, State.fioOnly_updIl (State.fioOnly_dlSend hp), fun _ _ => IslS.inCfg_chan _ _ _ _⟩
    · rw [if_neg m]
      exact ⟨h1, h2, h3, State.fioOnly_dlSend hp, fun _ hm => absurd hm m⟩
  · rw [if_neg k]
    exact ⟨h1, h2, h3, hp, fun hk => absurd hk k⟩

/-- The registers FIO_OUT_CFG[n]. -/
def State.fioOutRegs (s : State) (i n v : Nat) : State :=
  (((((s.set (FIO_OUT_CFG_0 i n) v).set (FIO_OUT_CFG_16 i n) (bitsOf v 16 5)).setB (FIO_OUT_CFG_21 i n) (bitOf v 21)).setB (FIO_OUT_CFG_22 i n)
    (bitOf v 22)).setB (FIO_OUT_CFG_23 i n) (bitOf v 23)).set (FIO_OUT_CFG_24 i n) (clampR 2 20 (bitsOf v 24 5))

theorem State.fioOutCfg_eq (s : State) (i n v : Nat) : s.fioOutCfg i n v =
    let u := s.fioOutRegs i n v
    if u.islOn i then
      let z := u.dlSend i 0x40 (16 + n) 0 (clampR 2 20 (bitsOf v 24 5)) false
      if (z.il i).linked then z.updIl i fun q => { q with good := (u.il i).seq, slew := SMap.put q.slew n 10 (clampR 2 20 (bitsOf v 24 5)) } else z
    else u := rfl

/-- An item of an output island is its registers and what its link does with it. -/
theorem State.fioOutCfg_regs (s : State) (n v : Nat) : (s.fioOutCfg i n v).regs = (s.fioOutRegs i n v).regs ∧
    (s.fioOnly (s.fioOutRegs i n v) i → s.fioOnly (s.fioOutCfg i n v) i) := by
  rw [State.fioOutCfg_eq]
  dsimp only
  split
  · split
    · exact ⟨rfl, fun h => State.fioOnly_updIl (State.fioOnly_dlSend h)⟩
    · exact ⟨rfl, State.fioOnly_dlSend⟩
  · exact ⟨rfl, id⟩

/-- R353: FIO_OUT_CFG[n] of an output island. -/
theorem State.fioOutCfg_spec (s : State) {n : Nat} (v : Nat) (hi : i < 12) (hn : n < 8) : let z := s.fioOutCfg i n v
    z.get (FIO_OUT_CFG_0 i n) = v % 2 ^ (FIO_OUT_CFG_0 i n).w ∧ z.get (FIO_OUT_CFG_16 i n) = v / 2 ^ 16 % 32 ∧
      z.get (FIO_OUT_CFG_21 i n) = b2n (bitOf v 21) ∧ z.get (FIO_OUT_CFG_22 i n) = b2n (bitOf v 22) ∧ z.get (FIO_OUT_CFG_23 i n) = b2n (bitOf v 23) ∧
      z.get (FIO_OUT_CFG_24 i n) = max 2 (min 20 (v / 2 ^ 24 % 32)) ∧ s.fioOnly z i := by
  obtain ⟨hr, hp⟩ := s.fioOutCfg_regs (i := i) n v
  have hget : ∀ g : Fld, (s.fioOutCfg i n v).get g = (s.fioOutRegs i n v).get g := fun g => by
    unfold State.get
    rw [hr]
  have hb1 : ∀ b : Bool, b2n b % 2 ^ 1 = b2n b := fun b => Nat.mod_eq_of_lt (b2n_lt_two b)
  dsimp only
  simp only [hget, State.fioOutRegs, State.setB]
  simp (disch := (refine fioKey_ne ?_; omega)) only
    [FIO_OUT_CFG_0, FIO_OUT_CFG_16, FIO_OUT_CFG_21, FIO_OUT_CFG_22, FIO_OUT_CFG_23, FIO_OUT_CFG_24, State.get_set_ne, State.get_set_same]
  refine ⟨trivial, ?_, hb1 _, hb1 _, hb1 _, ?_, hp ?_⟩
  · exact Nat.mod_mod _ 32
  · rw [clampR_two_twenty]
    refine Nat.mod_eq_of_lt ?_
    show max 2 (min 20 (bitsOf v 24 5)) < 32
    omega
  · exact State.fioOnly_set (State.fioOnly_set (State.fioOnly_set (State.fioOnly_set (State.fioOnly_set (State.fioOnly_set State.fioOnly_refl
      (fioPage hi (by omega))) (fioPage hi (by omega))) (fioPage hi (by omega))) (fioPage hi (by omega))) (fioPage hi (by omega))) (fioPage hi (by omega))

end Sys2Proof.Machine
end

section
/-! FieldIoLinksAndIslands: refresh slots, uplink frames and what happens in an island (13 R341 to R343, R351, R353, R357). -/

namespace Sys2Proof.Machine

variable {s t u : State} {i : Nat}

/-! ## Failed and halted -/

/-- A place of the island's page is not its INT_RAW. -/
theorem fio_ne_raw {o l w r : Nat} (h : o * 32 + l ≠ 1024) : (⟨0x52 + i, o, l, w, r, 0⟩ : Fld).key ≠ (rawOf (0x52 + i)).key := fioKey_ne h

theorem State.get_fioRaise {o l w r b : Nat} (hi : i < 12) (h : o * 32 + l ≠ 1024) (hl : o * 32 + l < 131072) :
    (s.fioRaise i b).get ⟨0x52 + i, o, l, w, r, 0⟩ = s.get ⟨0x52 + i, o, l, w, r, 0⟩ :=
  State.get_raiseInt_ne (by rw [fioPage hi hl]; omega) (fio_ne_raw h)

theorem State.get_fioRecord {o l w r code sev w1 : Nat} (hi : i < 12) (hs : sev < 8) (hl : o * 32 + l < 131072) :
    (s.fioRecord i code sev w1).get ⟨0x52 + i, o, l, w, r, 0⟩ = s.get ⟨0x52 + i, o, l, w, r, 0⟩ :=
  State.get_record hs (by rw [fioPage hi hl]; omega) (by rw [fioPage hi hl]; omega)

/-- A condition raised on the island's page shows there, over the record that follows. -/
theorem State.raw_fioRecord {b code sev w1 : Nat} (hi : i < 12) (hb : b < 32) (hs : sev < 8) :
    bitOf (((s.fioRaise i b).fioRecord i code sev w1).get (rawOf (0x52 + i))) b = true := by
  have h : ((s.fioRaise i b).fioRecord i code sev w1).get (rawOf (0x52 + i)) = (s.fioRaise i b).get (rawOf (0x52 + i)) :=
    State.get_fioRecord hi hs (by decide)
  rw [h]
  exact State.bitOf_raw_raiseInt (by omega) (by omega) hb

/-- R344. -/
theorem State.fioDown_spec {st reason : Nat} (hi : i < 12) (hst : st < 8) : (s.fioDown i st reason).get (FIO_state i) = st ∧
    bitOf ((s.fioDown i st reason).get (rawOf (0x52 + i))) 2 = true ∧ s.keepsBut (s.fioDown i st reason) [0x52 + i, 7, 0x0A] := by
  refine ⟨?_, State.raw_fioRecord hi (by decide) (by decide), ?_⟩
  · unfold State.fioDown
    refine (State.get_fioRecord hi (by decide) (by decide)).trans ((State.get_fioRaise hi (by decide) (by decide)).trans ?_)
    rw [← FIO_state, State.get_set_same]
    exact Nat.mod_eq_of_lt hst
  · have hp : (FIO_state i).pageOf ∈ [0x52 + i, 7, 0x0A] := by
      rw [FIO_state, fioPage hi (by decide)]
      simp
    have h1 : s.keepsBut ((s.set (FIO_state i) st).fioRaise i 2) [0x52 + i, 7, 0x0A] :=
      State.keepsBut_raiseInt (State.keepsBut_set State.keepsBut_refl hp) (by simp) (by rw [Nat.mod_eq_of_lt (by omega)]; simp)
    exact State.keepsBut_record h1 (by decide) (by simp) (by simp)

/-- Nothing that `fioDown` does besides its own registers. -/
theorem State.get_fioDown {o l w r st reason : Nat} (hi : i < 12) (hl : o * 32 + l < 131072) (h1 : o * 32 + l ≠ 1024) (h2 : o * 32 + l ≠ 512) :
    (s.fioDown i st reason).get ⟨0x52 + i, o, l, w, r, 0⟩ = s.get ⟨0x52 + i, o, l, w, r, 0⟩ :=
  (State.get_fioRecord hi (by decide) hl).trans ((State.get_fioRaise hi h1 hl).trans (State.get_set_ne _ (fioKey_ne h2)))

/-! ## Refresh slots -/

/-- The link state of a slot: whether the link delivers, and the blanking times running down. -/
def IslS.slot (got : Bool) (q : IslS) : IslS :=
  { q with linked := got, blank := q.blank.filterMap fun e => if e.2 ≤ 1 then none else some (e.1, e.2 - 1) }

/-- An input island's slot count. -/
def IslS.counted (pulse : Bool) (q : IslS) : IslS :=
  { q with slots := if pulse then some 0 else q.slots.map (· + 1), resync := q.resync && !pulse }

def IslS.supplied (mv : Nat) (q : IslS) : IslS := { q with supply := decide (mv < 12000 ∨ 170000 < mv) }

def IslS.killed (q : IslS) : IslS := { q with dead := true, held := none }

/-- In the seventh slot after a pulse an island that is not halted samples its inputs. -/
def IslS.sampling (slots : Option Nat) (seen : List Nat) (q : IslS) : IslS := if slots = some 7 ∧ q.halt = false then q.sample seen else q

/-- The state a slot asks from. -/
def State.slotOut (s : State) (i : Nat) (got : Bool) (mv : Nat) : State :=
  let s := s.updIl i (IslS.slot got)
  if got then s.updIl i (IslS.supplied mv) else s

theorem State.slotOut_spec (s : State) (i : Nat) (got : Bool) (mv : Nat) : (s.slotOut i got mv).hub = s.hub ∧ (s.slotOut i got mv).regs = s.regs ∧
    (s.slotOut i got mv).wire = s.wire ∧ ((s.slotOut i got mv).il i).seq = (s.il i).seq ∧ ((s.slotOut i got mv).il i).linked = got ∧
    ((s.slotOut i got mv).il i).alive = (s.il i).alive := by
  unfold State.slotOut
  cases got
  · simp only [Bool.false_eq_true, if_false, State.il_updIl]
    exact ⟨rfl, rfl, rfl, rfl, rfl, rfl⟩
  · simp only [if_true, State.il_updIl]
    exact ⟨rfl, rfl, rfl, rfl, rfl, rfl⟩

theorem State.refreshSlot_out (h : s.islOn i = true) (h8 : 8 ≤ i) (got : Bool) (seen : List Nat) (mv : Nat) : s.refreshSlot i got seen mv =
    let u := s.slotOut i got mv
    if s.passive then u.dlAsk i 0x30 0 0 seen IslS.killed else u.dlAsk i 0x10 0 0 seen id := by
  have hp : (s.slotOut i got mv).passive = s.passive := by
    unfold State.slotOut
    cases got <;> rfl
  unfold State.refreshSlot
  rw [h, if_neg (by decide)]
  dsimp only
  rw [if_pos h8, ← hp]
  rfl

theorem State.refreshSlot_in (h : s.islOn i = true) (h8 : i < 8) (got : Bool) (seen : List Nat) (mv : Nat) : s.refreshSlot i got seen mv =
    let pulse := s.pulseDue i
    let u := (s.updIl i (IslS.slot got)).updIl i (IslS.counted pulse)
    u.dlAsk i (0x10 + 8 * b2n pulse + 4 * b2n (decide ((u.il i).slots = some 7))) 0 0 [] (IslS.sampling (u.il i).slots seen) := by
  have hp : (s.updIl i (IslS.slot got)).pulseDue i = s.pulseDue i := by
    unfold State.pulseDue
    rw [State.il_updIl]
    rfl
  unfold State.refreshSlot
  rw [h, if_neg (by decide)]
  dsimp only
  rw [if_neg (by omega), ← hp]
  rfl

/-- A killed island drives nothing. -/
theorem IslS.took_killed (q : IslS) (n : Nat) : (q.took IslS.killed n).dead = true ∧ (q.took IslS.killed n).drive = 0 ∧
    (q.took IslS.killed n).good = n ∧ (q.took IslS.killed n).seq = q.seq ∧ (q.took IslS.killed n).linked = q.linked := by
  refine ⟨rfl, ?_, rfl, rfl, rfl⟩
  unfold IslS.drive
  rw [show (q.took IslS.killed n).dead = true from rfl]
  simp

theorem IslS.took_id (q : IslS) (n : Nat) : (q.took id n).good = n ∧ (q.took id n).seq = q.seq ∧ (q.took id n).linked = q.linked := ⟨rfl, rfl, rfl⟩

theorem IslS.took_sampling (q : IslS) (n : Nat) (o : Option Nat) (seen : List Nat) :
    (q.took (IslS.sampling o seen) n).good = n ∧ (q.took (IslS.sampling o seen) n).seq = q.seq ∧ (q.took (IslS.sampling o seen) n).linked = q.linked ∧
    (q.took (IslS.sampling o seen) n).slots = q.slots ∧ (o = some 7 → q.halt = false → (q.took (IslS.sampling o seen) n).sampled = true) := by
  obtain ⟨h1, h2, h3, h4, h5⟩ := IslS.sample_fields { q with good := n } seen
  unfold IslS.took IslS.sampling
  by_cases h : o = some 7 ∧ q.halt = false
  · rw [if_pos h]
    exact ⟨h4, h1, h3, h2, fun _ _ => h5⟩
  · rw [if_neg h]
    exact ⟨rfl, rfl, rfl, rfl, fun a b => absurd ⟨a, b⟩ h⟩

/-- What the island makes of a frame leaves its numbers and its link. -/
def IslS.keepsLink (f : IslS → IslS) : Prop := ∀ (q : IslS) (n : Nat), (q.took f n).good = n ∧ (q.took f n).seq = q.seq ∧ (q.took f n).linked = q.linked

/-- What a frame that asks leaves of what the slot set, whatever the island does with it. -/
theorem State.dlAsk_slot (u : State) (b0 : Nat) (volts : List Nat) (f : IslS → IslS)
    (hf : IslS.keepsLink f) : let z := u.dlAsk i b0 0 0 volts f
    (z.il i).linked = (u.il i).linked ∧ (z.il i).seq = ((u.il i).seq + 1) % 256 ∧ z.hub = u.hub ∧ z.regs = u.regs ∧
      ((u.il i).linked = true → (u.il i).alive = true → (z.il i).good = (u.il i).seq ∧ SMap.get z.wire (48 + i) [] = (z.il i).answer (decide (8 ≤ i)) volts) ∧
      (((u.il i).linked && (u.il i).alive) = false → SMap.get z.wire (48 + i) [] = SMap.get u.wire (48 + i) []) ∧
      SMap.get z.wire (32 + i) [] = islFrame [b0, (u.il i).seq, 0, 0, 0, 0] := by
  obtain ⟨hh, hr, hd, l, ha, hn⟩ := u.dlAsk_spec (i := i) b0 0 0 volts f
  obtain ⟨hg, hs, hl⟩ := hf ((u.il i).sent l) (u.il i).seq
  dsimp only at hh hr hd ha hn ⊢
  by_cases h : ((u.il i).linked && (u.il i).alive) = true
  · obtain ⟨h1, h2⟩ := Bool.and_eq_true_iff.1 h
    obtain ⟨hil, hup⟩ := ha h1 h2
    exact ⟨by rw [hil, hl]; rfl, by rw [hil, hs]; rfl, hh, hr, fun _ _ => ⟨by rw [hil, hg], hup⟩, fun hf => absurd h (by simp [hf]), hd⟩
  · obtain ⟨hil, hup⟩ := hn (Bool.eq_false_iff.2 h)
    exact ⟨by rw [hil]; rfl, by rw [hil]; rfl, hh, hr, fun h1 h2 => absurd (Bool.and_eq_true_iff.2 ⟨h1, h2⟩) h, fun _ => hup, hd⟩

/-- A slot's clause of the statement that is common to input and output islands. -/
def State.slotLeaves (s z : State) (i : Nat) (got : Bool) (volts : List Nat) : Prop :=
  (z.il i).linked = got ∧ (z.il i).seq = ((s.il i).seq + 1) % 256 ∧ z.hub = s.hub ∧ z.regs = s.regs ∧
    (got = true → (s.il i).alive = true → (z.il i).good = (s.il i).seq ∧ SMap.get z.wire (48 + i) [] = (z.il i).answer (decide (8 ≤ i)) volts) ∧
    ((got && (s.il i).alive) = false → SMap.get z.wire (48 + i) [] = SMap.get s.wire (48 + i) [])

/-- R342, R357: a slot of an output island. -/
theorem State.refreshSlot_out_spec (h : s.islOn i = true) (h8 : 8 ≤ i) (got : Bool) (seen : List Nat) (mv : Nat) : let z := s.refreshSlot i got seen mv
    s.slotLeaves z i got seen ∧ (s.passive = false → SMap.get z.wire (32 + i) [] = islFrame [0x10, (s.il i).seq, 0, 0, 0, 0]) ∧
      (s.passive = true → SMap.get z.wire (32 + i) [] = islFrame [0x30, (s.il i).seq, 0, 0, 0, 0] ∧
        (got = true → (s.il i).alive = true → (z.il i).dead = true ∧ (z.il i).drive = 0)) := by
  obtain ⟨uh, ur, uw, us, ul, ua⟩ := s.slotOut_spec i got mv
  rw [State.refreshSlot_out h h8]
  dsimp only
  have leaves : ∀ (b0 : Nat) (f : IslS → IslS), IslS.keepsLink f →
      s.slotLeaves ((s.slotOut i got mv).dlAsk i b0 0 0 seen f) i got seen ∧
        SMap.get ((s.slotOut i got mv).dlAsk i b0 0 0 seen f).wire (32 + i) [] = islFrame [b0, (s.il i).seq, 0, 0, 0, 0] := by
    intro b0 f hf
    obtain ⟨h1, h2, h3, h4, h5, h6, h7⟩ := (s.slotOut i got mv).dlAsk_slot (i := i) b0 seen f hf
    rw [ul, ua, us] at h5
    rw [ul, ua, uw] at h6
    exact ⟨⟨h1.trans ul, h2.trans (by rw [us]), h3.trans uh, h4.trans ur, h5, h6⟩, h7.trans (by rw [us])⟩
  by_cases hp : s.passive = true
  · rw [if_pos hp]
    obtain ⟨h1, h2⟩ := leaves 0x30 IslS.killed fun q n => (IslS.took_killed q n).2.2
    refine ⟨h1, fun hn => absurd hp (by simp [hn]), fun _ => ⟨h2, fun hg ha => ?_⟩⟩
    obtain ⟨-, -, -, l, hk, -⟩ := (s.slotOut i got mv).dlAsk_spec (i := i) 0x30 0 0 seen IslS.killed
    obtain ⟨hil, -⟩ := hk (ul.trans hg) (ua.trans ha)
    rw [hil]
    exact ⟨(IslS.took_killed _ _).1, (IslS.took_killed _ _).2.1⟩
  · rw [if_neg hp]
    obtain ⟨h1, h2⟩ := leaves 0x10 id IslS.took_id
    exact ⟨h1, fun _ => h2, fun hn => absurd hn hp⟩

/-- The seventh slot is the one after the sixth, where no pulse is due. -/
theorem slots_seven (pulse : Bool) (o : Option Nat) : decide ((if pulse then some 0 else o.map (· + 1)) = some 7) = (!pulse && o == some 6) := by
  cases pulse
  · cases o with
    | none => rfl
    | some n => by_cases h : n = 6 <;> simp [h]
  · rfl

/-- R342, R345, R347: a slot of an input island. -/
theorem State.refreshSlot_in_spec (h : s.islOn i = true) (h8 : i < 8) (got : Bool) (seen : List Nat) (mv : Nat) : let z := s.refreshSlot i got seen mv
    let pulse := s.pulseDue i
    let sample := !pulse && (s.il i).slots == some 6
    s.slotLeaves z i got [] ∧ SMap.get z.wire (32 + i) [] = islFrame [0x10 + 8 * b2n pulse + 4 * b2n sample, (s.il i).seq, 0, 0, 0, 0] ∧
      (z.il i).slots = (if pulse then some 0 else (s.il i).slots.map (· + 1)) ∧
      (sample = true → got = true → (s.il i).alive = true → (s.il i).halt = false → (z.il i).sampled = true) := by
  rw [State.refreshSlot_in h h8]
  dsimp only
  have hu : ((s.updIl i (IslS.slot got)).updIl i (IslS.counted (s.pulseDue i))).il i = ((s.il i).slot got).counted (s.pulseDue i) := by
    rw [State.il_updIl, State.il_updIl]
  have hsl : (((s.updIl i (IslS.slot got)).updIl i (IslS.counted (s.pulseDue i))).il i).slots =
      (if s.pulseDue i then some 0 else (s.il i).slots.map (· + 1)) := by rw [hu]; rfl
  generalize hz : (s.updIl i (IslS.slot got)).updIl i (IslS.counted (s.pulseDue i)) = u at hu hsl
  obtain ⟨uh, ur, uw⟩ : u.hub = s.hub ∧ u.regs = s.regs ∧ u.wire = s.wire := by rw [← hz]; exact ⟨rfl, rfl, rfl⟩
  obtain ⟨us, ul, ua, uk⟩ : (u.il i).seq = (s.il i).seq ∧ (u.il i).linked = got ∧ (u.il i).alive = (s.il i).alive ∧ (u.il i).halt = (s.il i).halt := by
    rw [hu]; exact ⟨rfl, rfl, rfl, rfl⟩
  have hdec := slots_seven (s.pulseDue i) (s.il i).slots
  rw [← hsl] at hdec ⊢
  rw [← hdec]
  obtain ⟨h1, h2, h3, h4, h5, h6, h7⟩ := u.dlAsk_slot (i := i) (0x10 + 8 * b2n (s.pulseDue i) + 4 * b2n (decide ((u.il i).slots = some 7))) []
    (IslS.sampling (u.il i).slots seen) fun q n => ⟨(IslS.took_sampling q n _ _).1, (IslS.took_sampling q n _ _).2.1, (IslS.took_sampling q n _ _).2.2.1⟩
  obtain ⟨-, -, -, l, ha, hn⟩ := u.dlAsk_spec (i := i) (0x10 + 8 * b2n (s.pulseDue i) + 4 * b2n (decide ((u.il i).slots = some 7))) 0 0 []
    (IslS.sampling (u.il i).slots seen)
  rw [ul, ua, us] at h5
  rw [ul, ua, uw] at h6
  refine ⟨⟨h1.trans ul, h2.trans (by rw [us]), h3.trans uh, h4.trans ur, h5, h6⟩, h7.trans (by rw [us]), ?_, ?_⟩
  · by_cases k : ((u.il i).linked && (u.il i).alive) = true
    · obtain ⟨k1, k2⟩ := Bool.and_eq_true_iff.1 k
      rw [(ha k1 k2).1, (IslS.took_sampling _ _ _ _).2.2.2.1]
      rfl
    · rw [(hn (Bool.eq_false_iff.2 k)).1]
      rfl
  · intro hs hg hal hh
    rw [(ha (ul.trans hg) (ua.trans hal)).1]
    exact (IslS.took_sampling _ _ _ _).2.2.2.2 (of_decide_eq_true hs) (uk.trans hh)

end Sys2Proof.Machine
end

section
/-! FieldIoLinksAndIslands: uplink frames, misses, and what happens in an island (13 R341, R343, R344, R353). -/

namespace Sys2Proof.Machine

variable {s t u : State} {i : Nat}

/-- What an island's page shows is the same over a frame. -/
theorem State.sameIsl_get {o l w r : Nat} (h : State.sameIsl i s t) (hl : o * 32 + l < 131072 := by decide)
    (ho : (o * 32 + l) / 32 ∉ [0x020, 0x054, 0x08C, 0x090, 0x094, 0x098] := by decide) :
    t.get ⟨0x52 + i, o, l, w, r, 0⟩ = s.get ⟨0x52 + i, o, l, w, r, 0⟩ := h _ (islKey_field hl ho)

theorem State.sameIsl_fioRaise {b : Nat} (hi : i < 12) (h : State.sameIsl i s t) : State.sameIsl i s (t.fioRaise i b) :=
  State.sameIsl_raiseInt hi h (not_islKey_own (by decide) (by decide))

theorem State.sameIsl_fioRecord {code sev w1 : Nat} (hi : i < 12) (h : State.sameIsl i s t) (hs : sev < 8) : State.sameIsl i s (t.fioRecord i code sev w1) :=
  State.sameIsl_record hi h hs

/-- A register left out of the frame. -/
theorem State.sameIsl_own {o l w r v : Nat} (h : State.sameIsl i s t) (hl : o * 32 + l < 131072 := by decide)
    (ho : (o * 32 + l) / 32 ∈ [0x020, 0x054, 0x08C, 0x090, 0x094, 0x098] := by decide) : State.sameIsl i s (t.set ⟨0x52 + i, o, l, w, r, 0⟩ v) :=
  State.sameIsl_set h (not_islKey_own hl ho)

/-! ## Inputs -/

theorem State.sameIsl_fioInWrite {n st : Nat} (hi : i < 12) (h : State.sameIsl i s t) : State.sameIsl i s (t.fioInWrite i n st) := by
  unfold State.fioInWrite
  refine State.sameIsl_ite h ?_
  split
  · exact State.sameIsl_ite (State.sameIsl_imgWrite hi h) (State.sameIsl_rejectWrite hi h)
  · exact h

theorem State.sameIsl_fioInputs {filt raw : Nat} (hi : i < 12) :
    State.sameIsl i ((s.set (FIO_IN_STATE_0 i) filt).set (FIO_IN_RAW_0 i) raw) (s.fioInputs i filt raw) := by
  unfold State.fioInputs
  generalize (s.set (FIO_IN_STATE_0 i) filt).set (FIO_IN_RAW_0 i) raw = t
  dsimp only
  refine State.sameIsl_ite State.sameIsl_refl ?_
  have h1 : ∀ c : Prop, ∀ [Decidable c], ∀ v : Nat, State.sameIsl i t
      (if c then ((t.updIl i fun q => { q with filt := some filt }).set (FIO_IN_CHG_0 i) v).fioRaise i 5 else t.updIl i fun q => { q with filt := some filt }) := by
    intro c _ v
    have h0 : State.sameIsl i t (t.updIl i fun q => { q with filt := some filt }) := State.sameIsl_regs State.sameIsl_refl rfl
    exact State.sameIsl_ite (State.sameIsl_fioRaise hi (State.sameIsl_own h0)) h0
  exact State.sameIsl_ite (h1 _ _) (State.sameIsl_each (h1 _ _) fun u n hu => State.sameIsl_fioInWrite hi hu)

/-! ## Outputs -/

theorem rbField_own (i f : Nat) : ¬ islKey i (rbField i f).key := by
  unfold rbField
  split
  · exact not_islKey_own (by decide) (by decide)
  · split
    · exact not_islKey_own (by decide) (by decide)
    · exact not_islKey_own (by decide) (by decide)

theorem State.sameIsl_rbSet {n f : Nat} (hi : i < 12) (h : State.sameIsl i s t) : State.sameIsl i s (t.rbSet i n f) := by
  unfold State.rbSet
  refine State.sameIsl_ite h ?_
  exact State.sameIsl_once (State.sameIsl_fioRaise hi (State.sameIsl_own (State.sameIsl_set h (rbField_own i f))))
    fun u hu => State.sameIsl_fioRecord hi hu (by decide)

theorem State.sameIsl_rbCheck {n rb : Nat} {applied : Bool} (hi : i < 12) (h : State.sameIsl i s t) : State.sameIsl i s (t.rbCheck i n applied rb) := by
  unfold State.rbCheck
  extract_lets a partner b cnt
  have hb : State.sameIsl i s b := State.sameIsl_ite (State.sameIsl_own (State.sameIsl_own h)) (State.sameIsl_own h)
  refine State.sameIsl_ite hb ?_
  split
  · exact State.sameIsl_ite (State.sameIsl_rbSet hi (State.sameIsl_regs hb rfl)) (State.sameIsl_regs hb rfl)
  · exact State.sameIsl_ite (State.sameIsl_each (State.sameIsl_regs hb rfl) fun u f hu => State.sameIsl_set hu (rbField_own i f)) (State.sameIsl_regs hb rfl)

theorem State.sameIsl_fioOutputs {rb applied num echo : Nat} (hi : i < 12) :
    State.sameIsl i (((s.set (FIO_OUT_STATE_0 i) applied).set (FIO_OUT_STATE_16 i) num).set (FIO_RB_0 i) rb) (s.fioOutputs i rb applied num echo) := by
  unfold State.fioOutputs
  generalize ((s.set (FIO_OUT_STATE_0 i) applied).set (FIO_OUT_STATE_16 i) num).set (FIO_RB_0 i) rb = t
  dsimp only
  refine State.sameIsl_each ?_ fun u n hu => State.sameIsl_rbCheck hi hu
  have h1 : State.sameIsl i t (t.updIl i fun q => { q with expect := none }) := State.sameIsl_regs State.sameIsl_refl rfl
  split
  · exact State.sameIsl_ite (State.sameIsl_ite (State.sameIsl_once (State.sameIsl_fioRaise hi (State.sameIsl_own h1))
      fun u hu => State.sameIsl_fioRecord hi hu (by decide)) h1) State.sameIsl_refl
  · exact State.sameIsl_refl

/-! ## A good uplink frame -/

/-- The state once the link's registers and the fault bit are taken from the frame. -/
def State.fioTaken (s : State) (i : Nat) (b : List Byte) : State :=
  let b0 := beAt b 0 1
  let echo := beAt b 1 1
  let before := (s.il i).unechoed.takeWhile (· ≠ echo)
  let found := (s.il i).unechoed.contains echo
  let s := (s.set (FIO_LINK_0 i) 0).set (FIO_LINK_8 i) echo
  let s := if found then (s.addSat (FIO_DLLOST_0 i) before.length).updIl i fun q => { q with unechoed := q.unechoed.drop (before.length + 1) } else s
  let rise := bitOf b0 3 && !s.flag (FIO_fault i)
  let s := s.setB (FIO_fault i) (bitOf b0 3)
  if rise then (s.fioRaise i 0).once (0x5203 * 65536 + i) ticksPerSec fun s => s.fioRecord i 0x5203 4 0xFF else s

theorem State.fioGood_eq (s : State) (i : Nat) (b : List Byte) : s.fioGood i b =
    let t := s.fioTaken i b
    let st := t.get (FIO_state i)
    if bitOf (beAt b 0 1) 2 ∧ st ≠ 4 then t.fioDown i 4 2
    else if st = 4 then t
    else
      let t := if st = 3 then (t.set (FIO_state i) 2).fioRecord i 0x5202 3 0xFF else t
      if 8 ≤ i then t.fioOutputs i (beAt b 2 2) (beAt b 4 1) (beAt b 5 1) (beAt b 1 1) else t.fioInputs i (beAt b 2 2) (beAt b 4 2) := rfl

theorem State.fioTaken_spec (s : State) (b : List Byte) (hi : i < 12) : (s.fioTaken i b).get (FIO_LINK_0 i) = 0 ∧
    (s.fioTaken i b).get (FIO_LINK_8 i) = beAt b 1 1 ∧ (s.fioTaken i b).get (FIO_fault i) = b2n (bitOf (beAt b 0 1) 3) ∧
    (s.fioTaken i b).get (FIO_state i) = s.get (FIO_state i) := by
  unfold State.fioTaken
  extract_lets b0 echo before found a c rise d
  have hc : State.sameIsl i a c := State.sameIsl_ite (State.sameIsl_regs (State.sameIsl_own State.sameIsl_refl) rfl) State.sameIsl_refl
  have hz : State.sameIsl i d (if rise then (d.fioRaise i 0).once (0x5203 * 65536 + i) ticksPerSec fun s => s.fioRecord i 0x5203 4 0xFF else d) :=
    State.sameIsl_ite (State.sameIsl_once (State.sameIsl_fioRaise hi State.sameIsl_refl) fun u hu => State.sameIsl_fioRecord hi hu (by decide)) State.sameIsl_refl
  generalize (if rise then (d.fioRaise i 0).once (0x5203 * 65536 + i) ticksPerSec fun s => s.fioRecord i 0x5203 4 0xFF else d) = z at hz ⊢
  refine ⟨(State.sameIsl_get hz).trans ?_, (State.sameIsl_get hz).trans ?_, (State.sameIsl_get hz).trans (State.get_setB _ _ _ (by decide : 0 < 1)),
    (State.sameIsl_get hz).trans ?_⟩
  · refine (State.get_setB_ne (fioKey_ne (by decide))).trans ((State.sameIsl_get hc).trans ((State.get_set_ne _ (fioKey_ne (by decide))).trans ?_))
    exact State.get_set_same s (FIO_LINK_0 i) 0
  · refine (State.get_setB_ne (fioKey_ne (by decide))).trans ((State.sameIsl_get hc).trans ((State.get_set_same _ (FIO_LINK_8 i) _).trans ?_))
    exact Nat.mod_eq_of_lt (beAt_lt b 1 1)
  · exact (State.get_setB_ne (fioKey_ne (by decide))).trans ((State.sameIsl_get hc).trans ((State.get_set_ne _ (fioKey_ne (by decide))).trans
      (State.get_set_ne _ (fioKey_ne (by decide)))))

/-- A stale island's link runs again (R343). -/
def State.fioFresh (s : State) (i st : Nat) : State := if st = 3 then (s.set (FIO_state i) 2).fioRecord i 0x5202 3 0xFF else s

theorem State.fioFresh_spec (s : State) (st : Nat) (hi : i < 12) : (s.fioFresh i st).get (FIO_LINK_0 i) = s.get (FIO_LINK_0 i) ∧
    (s.fioFresh i st).get (FIO_LINK_8 i) = s.get (FIO_LINK_8 i) ∧ (s.fioFresh i st).get (FIO_fault i) = s.get (FIO_fault i) ∧
    (s.fioFresh i st).get (FIO_state i) = (if st = 3 then 2 else s.get (FIO_state i)) := by
  unfold State.fioFresh
  split
  · exact ⟨(State.get_fioRecord hi (by decide) (by decide)).trans (State.get_set_ne _ (fioKey_ne (by decide))),
      (State.get_fioRecord hi (by decide) (by decide)).trans (State.get_set_ne _ (fioKey_ne (by decide))),
      (State.get_fioRecord hi (by decide) (by decide)).trans (State.get_set_ne _ (fioKey_ne (by decide))),
      (State.get_fioRecord hi (by decide) (by decide)).trans (State.get_set_same s (FIO_state i) 2)⟩
  · exact ⟨rfl, rfl, rfl, rfl⟩

/-- The clauses on the link's registers. -/
def State.fioLinked (z : State) (i : Nat) (b : List Byte) : Prop :=
  z.get (FIO_LINK_0 i) = 0 ∧ z.get (FIO_LINK_8 i) = beAt b 1 1 ∧ z.get (FIO_fault i) = b2n (bitOf (beAt b 0 1) 3)

theorem State.fioLinked_outputs {rb applied num echo : Nat} {b : List Byte} (hi : i < 12) (h : s.fioLinked i b) :
    (s.fioOutputs i rb applied num echo).fioLinked i b ∧ (s.fioOutputs i rb applied num echo).get (FIO_state i) = s.get (FIO_state i) := by
  have hz := State.sameIsl_fioOutputs (s := s) (rb := rb) (applied := applied) (num := num) (echo := echo) hi
  have hk : ∀ {o l w r : Nat}, o * 32 + l < 131072 → (o * 32 + l) / 32 ∉ [0x020, 0x054, 0x08C, 0x090, 0x094, 0x098] → (o * 32 + l) / 32 ∉ [0x084, 0x088] →
      (s.fioOutputs i rb applied num echo).get ⟨0x52 + i, o, l, w, r, 0⟩ = s.get ⟨0x52 + i, o, l, w, r, 0⟩ := fun h1 h2 h3 => by
    simp only [List.mem_cons, List.not_mem_nil, or_false, not_or] at h3
    exact (State.sameIsl_get hz h1 h2).trans ((State.get_set_ne _ (fioKey_ne (by omega))).trans ((State.get_set_ne _ (fioKey_ne (by omega))).trans
      (State.get_set_ne _ (fioKey_ne (by omega)))))
  exact ⟨⟨(hk (by decide) (by decide) (by decide)).trans h.1, (hk (by decide) (by decide) (by decide)).trans h.2.1,
    (hk (by decide) (by decide) (by decide)).trans h.2.2⟩, hk (by decide) (by decide) (by decide)⟩

theorem State.fioLinked_inputs {filt raw : Nat} {b : List Byte} (hi : i < 12) (h : s.fioLinked i b) :
    (s.fioInputs i filt raw).fioLinked i b ∧ (s.fioInputs i filt raw).get (FIO_state i) = s.get (FIO_state i) := by
  have hz := State.sameIsl_fioInputs (s := s) (filt := filt) (raw := raw) hi
  have hk : ∀ {o l w r : Nat}, o * 32 + l < 131072 → (o * 32 + l) / 32 ∉ [0x020, 0x054, 0x08C, 0x090, 0x094, 0x098] → (o * 32 + l) / 32 ∉ [0x084, 0x088] →
      (s.fioInputs i filt raw).get ⟨0x52 + i, o, l, w, r, 0⟩ = s.get ⟨0x52 + i, o, l, w, r, 0⟩ := fun h1 h2 h3 => by
    simp only [List.mem_cons, List.not_mem_nil, or_false, not_or] at h3
    exact (State.sameIsl_get hz h1 h2).trans ((State.get_set_ne _ (fioKey_ne (by omega))).trans (State.get_set_ne _ (fioKey_ne (by omega))))
  exact ⟨⟨(hk (by decide) (by decide) (by decide)).trans h.1, (hk (by decide) (by decide) (by decide)).trans h.2.1,
    (hk (by decide) (by decide) (by decide)).trans h.2.2⟩, hk (by decide) (by decide) (by decide)⟩

/-- What an output island's page shows of its frame. -/
theorem State.fioOutputs_shows (s : State) (b : List Byte) (echo : Nat) (hi : i < 12) : let z := s.fioOutputs i (beAt b 2 2) (beAt b 4 1) (beAt b 5 1) echo
    z.get (FIO_RB_0 i) = beAt b 2 2 ∧ z.get (FIO_OUT_STATE_0 i) = beAt b 4 1 ∧ z.get (FIO_OUT_STATE_16 i) = beAt b 5 1 := by
  have hz := State.sameIsl_fioOutputs (s := s) (rb := beAt b 2 2) (applied := beAt b 4 1) (num := beAt b 5 1) (echo := echo) hi
  refine ⟨(State.sameIsl_get hz).trans ?_, (State.sameIsl_get hz).trans ?_, (State.sameIsl_get hz).trans ?_⟩
  · exact (State.get_set_same _ (FIO_RB_0 i) _).trans (Nat.mod_eq_of_lt (beAt_lt b 2 2))
  · exact (State.get_set_ne _ (fioKey_ne (by decide))).trans ((State.get_set_ne _ (fioKey_ne (by decide))).trans
      ((State.get_set_same _ (FIO_OUT_STATE_0 i) _).trans (Nat.mod_eq_of_lt (beAt_lt b 4 1))))
  · exact (State.get_set_ne _ (fioKey_ne (by decide))).trans ((State.get_set_same _ (FIO_OUT_STATE_16 i) _).trans (Nat.mod_eq_of_lt (beAt_lt b 5 1)))

theorem State.fioInputs_shows (s : State) (b : List Byte) (hi : i < 12) : let z := s.fioInputs i (beAt b 2 2) (beAt b 4 2)
    z.get (FIO_IN_STATE_0 i) = beAt b 2 2 ∧ z.get (FIO_IN_RAW_0 i) = beAt b 4 2 := by
  have hz := State.sameIsl_fioInputs (s := s) (filt := beAt b 2 2) (raw := beAt b 4 2) hi
  refine ⟨(State.sameIsl_get hz).trans ?_, (State.sameIsl_get hz).trans ?_⟩
  · exact (State.get_set_ne _ (fioKey_ne (by decide))).trans ((State.get_set_same _ (FIO_IN_STATE_0 i) _).trans (Nat.mod_eq_of_lt (beAt_lt b 2 2)))
  · exact (State.get_set_same _ (FIO_IN_RAW_0 i) _).trans (Nat.mod_eq_of_lt (beAt_lt b 4 2))

/-- R341, R343, R356: a good uplink frame of an island whose link runs. -/
theorem State.fioGood_spec (b : List Byte) (hi : i < 12) (h : s.islOn i = true) : let z := s.fioGood i b
    z.fioLinked i b ∧ (bitOf (beAt b 0 1) 2 = true → z.get (FIO_state i) = 4) ∧
      (bitOf (beAt b 0 1) 2 = false → z.get (FIO_state i) = (if s.get (FIO_state i) = 4 then 4 else 2)) ∧
      (bitOf (beAt b 0 1) 2 = true → s.get (FIO_state i) ≠ 4 → bitOf (z.get (rawOf (0x52 + i))) 2 = true) ∧
      (bitOf (beAt b 0 1) 2 = false → s.get (FIO_state i) ≠ 4 → (i < 8 → z.get (FIO_IN_STATE_0 i) = beAt b 2 2 ∧ z.get (FIO_IN_RAW_0 i) = beAt b 4 2) ∧
        (8 ≤ i → z.get (FIO_RB_0 i) = beAt b 2 2 ∧ z.get (FIO_OUT_STATE_0 i) = beAt b 4 1 ∧ z.get (FIO_OUT_STATE_16 i) = beAt b 5 1)) := by
  have hst : 2 ≤ s.get (FIO_state i) ∧ s.get (FIO_state i) ≤ 4 := by
    unfold State.islOn at h
    simp only [Bool.and_eq_true, decide_eq_true_eq] at h
    exact ⟨h.1.2, h.2⟩
  obtain ⟨t1, t2, t3, t4⟩ := s.fioTaken_spec b hi
  rw [State.fioGood_eq]
  dsimp only
  rw [t4]
  by_cases h4 : s.get (FIO_state i) = 4
  · rw [if_neg fun k => k.2 h4, if_pos h4]
    exact ⟨⟨t1, t2, t3⟩, fun _ => t4.trans h4, fun _ => by rw [if_pos h4]; exact t4.trans h4, fun _ k => absurd h4 k, fun _ k => absurd h4 k⟩
  · by_cases hb : bitOf (beAt b 0 1) 2 = true
    · rw [if_pos ⟨hb, h4⟩]
      obtain ⟨d1, d2, -⟩ := State.fioDown_spec (s := s.fioTaken i b) (st := 4) (reason := 2) hi (by decide)
      have hn : bitOf (beAt b 0 1) 2 ≠ false := by simp [hb]
      exact ⟨⟨(State.get_fioDown hi (by decide) (by decide) (by decide)).trans t1, (State.get_fioDown hi (by decide) (by decide) (by decide)).trans t2,
        (State.get_fioDown hi (by decide) (by decide) (by decide)).trans t3⟩, fun _ => d1, fun k => absurd k hn, fun _ _ => d2, fun k => absurd k hn⟩
    · rw [if_neg fun k => hb k.1, if_neg h4]
      obtain ⟨f1, f2, f3, f4⟩ := (s.fioTaken i b).fioFresh_spec (s.get (FIO_state i)) hi
      have hl : ((s.fioTaken i b).fioFresh i (s.get (FIO_state i))).fioLinked i b := ⟨f1.trans t1, f2.trans t2, f3.trans t3⟩
      have hs2 : ((s.fioTaken i b).fioFresh i (s.get (FIO_state i))).get (FIO_state i) = 2 := by
        rw [f4, t4]
        split <;> omega
      unfold State.fioFresh at hl hs2
      generalize (if s.get (FIO_state i) = 3 then ((s.fioTaken i b).set (FIO_state i) 2).fioRecord i 0x5202 3 0xFF else s.fioTaken i b) = u at hl hs2 ⊢
      by_cases h8 : 8 ≤ i
      · rw [if_pos h8]
        obtain ⟨o1, o2⟩ := State.fioLinked_outputs (rb := beAt b 2 2) (applied := beAt b 4 1) (num := beAt b 5 1) (echo := beAt b 1 1) hi hl
        exact ⟨o1, fun k => absurd k hb, fun _ => by rw [if_neg h4]; exact o2.trans hs2, fun k => absurd k hb,
          fun _ _ => ⟨fun k => absurd k (by omega), fun _ => u.fioOutputs_shows b _ hi⟩⟩
      · rw [if_neg h8]
        obtain ⟨o1, o2⟩ := State.fioLinked_inputs (filt := beAt b 2 2) (raw := beAt b 4 2) hi hl
        exact ⟨o1, fun k => absurd k hb, fun _ => by rw [if_neg h4]; exact o2.trans hs2, fun k => absurd k hb,
          fun _ _ => ⟨fun _ => u.fioInputs_shows b hi, fun k => absurd k h8⟩⟩

/-! ## Loading ends, misses -/

theorem State.fioRun_spec (s : State) (hi : i < 12) : (s.fioRun i).get (FIO_state i) = 2 ∧ (s.fioRun i).get (FIO_LINK_0 i) = 0 ∧
    ((s.fioRun i).il i).alive = true ∧ s.fioOnly (s.fioRun i) i := by
  unfold State.fioRun
  dsimp only
  rw [State.il_updIl, State.get_updIl, State.get_updIl]
  exact ⟨(State.get_set_ne _ (f := FIO_LINK_0 i) (g := FIO_state i) (fioKey_ne (by decide))).trans (State.get_set_same s (FIO_state i) 2),
    State.get_set_same _ (FIO_LINK_0 i) 0, rfl,
    State.fioOnly_updIl (State.fioOnly_set (State.fioOnly_set State.fioOnly_refl (fioPage hi (by decide))) (fioPage hi (by decide)))⟩

/-- R343: what a third miss leaves of the island's page. -/
theorem State.fioStale_spec (s : State) (hi : i < 12) : (s.fioStale i).get (FIO_state i) = 3 ∧ (s.fioStale i).get (FIO_STALE_CNT_0 i) = s.oneMore (FIO_STALE_CNT_0 i) ∧
    bitOf ((s.fioStale i).get (rawOf (0x52 + i))) 1 = true ∧
    ∀ {o l w r : Nat}, o * 32 + l < 131072 → o * 32 + l ≠ 1024 → o * 32 + l ≠ 512 → o * 32 + l ≠ 2816 →
      (s.fioStale i).get ⟨0x52 + i, o, l, w, r, 0⟩ = s.get ⟨0x52 + i, o, l, w, r, 0⟩ := by
  have hr : (s.fioStale i).regs = ((((s.set (FIO_state i) 3).count (FIO_STALE_CNT_0 i)).fioRaise i 1).fioRecord i 0x5201 5 0xFF).regs := by
    unfold State.fioStale
    dsimp only
    generalize (((s.set (FIO_state i) 3).count (FIO_STALE_CNT_0 i)).fioRaise i 1).fioRecord i 0x5201 5 0xFF = t
    split
    · rfl
    · unfold State.each
      induction List.range 8 generalizing t with
      | nil => rfl
      | cons n l ih =>
        rw [List.foldl_cons, ih]
        split
        · exact State.regs_markStale t _
        · rfl
  have hg : ∀ g : Fld, (s.fioStale i).get g = ((((s.set (FIO_state i) 3).count (FIO_STALE_CNT_0 i)).fioRaise i 1).fioRecord i 0x5201 5 0xFF).get g := fun g => by
    unfold State.get
    rw [hr]
  have hk : ∀ {o l w r : Nat}, o * 32 + l < 131072 → o * 32 + l ≠ 1024 →
      (s.fioStale i).get ⟨0x52 + i, o, l, w, r, 0⟩ = ((s.set (FIO_state i) 3).count (FIO_STALE_CNT_0 i)).get ⟨0x52 + i, o, l, w, r, 0⟩ := fun h1 h2 =>
    (hg _).trans ((State.get_fioRecord hi (by decide) h1).trans (State.get_fioRaise hi h2 h1))
  refine ⟨(hk (by decide) (by decide)).trans ((State.get_count_ne (fioKey_ne (by decide))).trans (State.get_set_same s (FIO_state i) 3)),
    (hk (by decide) (by decide)).trans ((State.get_count _ (FIO_STALE_CNT_0 i)).trans ?_), (congrArg (bitOf · 1) (hg _)).trans
    (State.raw_fioRecord hi (by decide) (by decide)), fun h1 h2 h3 h4 => (hk h1 h2).trans ((State.get_count_ne (fioKey_ne h4)).trans
    (State.get_set_ne _ (fioKey_ne h3)))⟩
  unfold State.oneMore
  rw [State.get_set_ne _ (g := FIO_STALE_CNT_0 i) (f := FIO_state i) (fioKey_ne (by decide))]

/-- The counters of a missing or bad frame. -/
def State.fioMissed (s : State) (i : Nat) (bad : Bool) : State :=
  ((s.count (FIO_err_count i)).count (if bad then FIO_BAD_0 i else FIO_MISS_0 i)).count (FIO_LINK_0 i)

theorem State.fioMissed_spec (s : State) (i : Nat) (bad : Bool) : (s.fioMissed i bad).get (FIO_err_count i) = s.oneMore (FIO_err_count i) ∧
    (s.fioMissed i bad).get (if bad then FIO_BAD_0 i else FIO_MISS_0 i) = s.oneMore (if bad then FIO_BAD_0 i else FIO_MISS_0 i) ∧
    (s.fioMissed i bad).get (FIO_LINK_0 i) = s.oneMore (FIO_LINK_0 i) ∧ (s.fioMissed i bad).get (FIO_state i) = s.get (FIO_state i) ∧
    (s.fioMissed i bad).get (FIO_STALE_CNT_0 i) = s.get (FIO_STALE_CNT_0 i) := by
  unfold State.fioMissed
  cases bad <;>
    simp (disch := (refine fioKey_ne ?_; omega)) only [FIO_err_count, FIO_BAD_0, FIO_MISS_0, FIO_LINK_0, FIO_state, FIO_STALE_CNT_0, State.get_count_ne,
      State.get_count, State.oneMore, if_true, if_false, Bool.false_eq_true, and_self]

theorem State.fioMiss_eq (h : s.islOn i = true) (bad : Bool) : s.fioMiss i bad =
    let t := s.fioMissed i bad
    if t.get (FIO_state i) = 2 ∧ 3 ≤ t.get (FIO_LINK_0 i) then t.fioStale i else t := by
  unfold State.fioMiss
  rw [h]
  rfl

/-- R343: a missing or bad uplink frame. -/
theorem State.fioMiss_spec (h : s.islOn i = true) (hi : i < 12) (bad : Bool) : let z := s.fioMiss i bad
    z.get (FIO_err_count i) = s.oneMore (FIO_err_count i) ∧
      z.get (if bad then FIO_BAD_0 i else FIO_MISS_0 i) = s.oneMore (if bad then FIO_BAD_0 i else FIO_MISS_0 i) ∧
      z.get (FIO_LINK_0 i) = s.oneMore (FIO_LINK_0 i) ∧
      (s.get (FIO_state i) = 2 → 3 ≤ s.get (FIO_LINK_0 i) + 1 →
        z.get (FIO_state i) = 3 ∧ z.get (FIO_STALE_CNT_0 i) = s.oneMore (FIO_STALE_CNT_0 i) ∧ bitOf (z.get (rawOf (0x52 + i))) 1 = true) ∧
      (¬ (s.get (FIO_state i) = 2 ∧ 3 ≤ s.get (FIO_LINK_0 i) + 1) → z.get (FIO_state i) = s.get (FIO_state i)) := by
  obtain ⟨m1, m2, m3, m4, m5⟩ := s.fioMissed_spec i bad
  have hc : (s.fioMissed i bad).get (FIO_state i) = 2 ∧ 3 ≤ (s.fioMissed i bad).get (FIO_LINK_0 i) ↔ s.get (FIO_state i) = 2 ∧ 3 ≤ s.get (FIO_LINK_0 i) + 1 := by
    have hw : 2 ^ (FIO_LINK_0 i).w - 1 = 255 := rfl
    rw [m3, m4, State.oneMore, hw]
    omega
  rw [State.fioMiss_eq h]
  dsimp only
  by_cases k : s.get (FIO_state i) = 2 ∧ 3 ≤ s.get (FIO_LINK_0 i) + 1
  · rw [if_pos (hc.2 k)]
    obtain ⟨s1, s2, s3, s4⟩ := (s.fioMissed i bad).fioStale_spec hi
    refine ⟨(s4 (by decide) (by decide) (by decide) (by decide)).trans m1, ?_, (s4 (by decide) (by decide) (by decide) (by decide)).trans m3,
      fun _ _ => ⟨s1, s2.trans (by rw [State.oneMore, State.oneMore, m5]), s3⟩, fun n => absurd k n⟩
    cases bad
    · exact (s4 (by decide) (by decide) (by decide) (by decide)).trans m2
    · exact (s4 (by decide) (by decide) (by decide) (by decide)).trans m2
  · rw [if_neg fun n => k (hc.1 n)]
    exact ⟨m1, m2, m3, fun k1 k2 => absurd ⟨k1, k2⟩ k, fun _ => m4⟩

/-! ## Faults of an island -/

theorem IslS.tripped_drive (q : IslS) : ({ q with tripped := true } : IslS).drive = 0 := by
  unfold IslS.drive
  simp

theorem IslS.halted_spec (q : IslS) : ({ q with halt := true } : IslS).judge.halt = true ∧ ({ q with halt := true } : IslS).judge.fault = true ∧
    ({ q with halt := true } : IslS).judge.drive = 0 := by
  refine ⟨rfl, ?_, ?_⟩
  · unfold IslS.judge IslS.cause
    simp
  · unfold IslS.judge IslS.drive
    simp

theorem IslS.latched_spec (q : IslS) {v : Nat} (h : v ≠ 0) : ({ q with latched := v } : IslS).judge.latched = v ∧
    ({ q with latched := v } : IslS).judge.fault = true := by
  refine ⟨rfl, ?_⟩
  unfold IslS.judge IslS.cause
  simp [h]

theorem setBit_ne_zero (v n : Nat) : setBit v n ≠ 0 := fun h => by
  have := bitOf_setBit v n n
  rw [h, bitOf_zero] at this
  simp at this

/-- R344, R341: an uplink frame of an island that runs, or of one that does not. -/
theorem State.uplink_on (h : s.islOn i = true) (b : List Byte) : s.uplink i b =
    if uplinkGood i b (if 8 ≤ i then 9 else 8) then s.fioGood i b else s.fioMiss i true := by
  have hn : ¬ (s.islandPresent i = true ∧ s.get (FIO_state i) = 1) := by
    unfold State.islOn at h
    simp only [Bool.and_eq_true, decide_eq_true_eq] at h
    omega
  unfold State.uplink
  rw [if_neg hn, h, if_neg (by decide)]

theorem State.uplink_loading (h : s.islandPresent i = true) (h1 : s.get (FIO_state i) = 1) (b : List Byte) : s.uplink i b =
    if uplinkGood i b 10 then if beAt b 2 1 = 1 then s.fioRun i else s.fioDown i 5 0 else s := by
  unfold State.uplink
  rw [if_pos ⟨h, h1⟩]

theorem State.uplink_off (h : ¬ (s.islandPresent i = true ∧ s.get (FIO_state i) = 1)) (h1 : s.islOn i = false) (b : List Byte) : s.uplink i b = s := by
  unfold State.uplink
  rw [if_neg h, h1]
  rfl

/-! ## The commands -/

/-- R344: start, reload and stop; R356: clear fault. -/
theorem exec_fioCommands (k : Fin 12) {a : Acc} (h : s.reaches a (0x52 + k.val) 0x040) :
    exec (.fioStop a k) s = .next ((s.fioOff k.val).set (FIO_CMD_STAT_0 k.val) 0) ∧
    (∀ b, exec (.fioStart a k b) s = .next (if s.get (FIO_state k.val) = 0 then (s.fioLoad k.val b).set (FIO_CMD_STAT_0 k.val) 0
      else s.set (FIO_CMD_STAT_0 k.val) 1)) ∧
    (∀ b, exec (.fioReload a k b) s = .next (if s.get (FIO_state k.val) = 4 ∨ s.get (FIO_state k.val) = 5 then
      (s.fioLoad k.val b).set (FIO_CMD_STAT_0 k.val) 0 else s.set (FIO_CMD_STAT_0 k.val) 1)) ∧
    exec (.fioClearFault a k) s = .next (s.fioCmd k.val 8) :=
  ⟨congrArg Host.Outcome.next (State.writeAt_of_reaches h), fun b => congrArg Host.Outcome.next ((State.writeAt_of_reaches h).trans (s.fioCmd_start k.val b)),
    fun b => congrArg Host.Outcome.next ((State.writeAt_of_reaches h).trans (s.fioCmd_reload k.val b)), congrArg Host.Outcome.next (State.writeAt_of_reaches h)⟩

/-- R347, R353: configuration items reach islands of their kind only. -/
theorem exec_fioItems (k : Fin 12) {a : Acc} {n : Fin 8} (v : Nat) (h : s.reaches a (0x52 + k.val) (0x100 + 4 * n.val)) :
    exec (.fioInCfgWrite a k n v) s = .next (if k.val < 8 then s.fioInCfg k.val n.val v else s) ∧
    exec (.fioOutCfgWrite a k n v) s = .next (if 8 ≤ k.val then s.fioOutCfg k.val n.val v else s) :=
  ⟨congrArg Host.Outcome.next (State.writeAt_of_reaches h), congrArg Host.Outcome.next (State.writeAt_of_reaches h)⟩

/-- Settles O37: each command of a field I/O link by the lemma above that says what it leaves. -/
theorem fieldIoLinksAndIslands : Obligations.FieldIoLinksAndIslands := by
  intro k s
  have hi : k.val < 12 := k.isLt
  refine ⟨fun a h => ?_, fun a n v h => ?_, fun h => congrArg Host.Outcome.next (if_neg h), fun h h1 => ?_, fun got seen mv => ⟨fun h => ?_, fun h => ?_⟩,
    fun b => ⟨fun h h1 => ?_, fun h h1 => congrArg Host.Outcome.next (State.uplink_off h h1 b), fun h => ?_⟩, fun bad => ⟨fun h => ?_, fun h => ?_⟩, fun h => ?_, fun h => ?_,
    fun h => congrArg Host.Outcome.next (if_neg fun n => absurd (h ▸ n.2) (by decide)), fun h ha => ?_,
    fun n => ⟨fun h => congrArg Host.Outcome.next (if_neg h), fun h8 h => ?_⟩, fun h => congrArg Host.Outcome.next (if_neg h), fun h8 h => ?_⟩
  case refine_1 =>
    obtain ⟨e1, e2, e3, e4⟩ := exec_fioCommands k h
    refine ⟨⟨_, e1, s.fioOff_spec hi⟩, fun b => ⟨fun h0 => ⟨_, (e2 b).trans (congrArg Host.Outcome.next (if_pos h0)), s.fioLoad_spec b hi⟩,
      fun h0 => (e2 b).trans (congrArg Host.Outcome.next (if_neg h0)), fun h0 => ⟨_, (e3 b).trans (congrArg Host.Outcome.next (if_pos h0)), s.fioLoad_spec b hi⟩,
      fun h4 h5 => (e3 b).trans (congrArg Host.Outcome.next (if_neg fun h0 => h0.elim h4 h5))⟩, fun hn => e4.trans ?_, fun hn => ⟨_, e4, State.fioCmd_clear_on hn hi⟩⟩
    rw [State.fioCmd_clear, hn]
    rfl
  case refine_2 =>
    obtain ⟨e1, e2⟩ := exec_fioItems k v h
    exact ⟨fun h8 => e1.trans (congrArg Host.Outcome.next (if_neg (Nat.not_lt.2 h8))), fun h8 => e2.trans (congrArg Host.Outcome.next (if_neg (Nat.not_le.2 h8))),
      fun h8 => ⟨_, e1.trans (congrArg Host.Outcome.next (if_pos h8)), s.fioInCfg_spec v hi n.isLt⟩, fun h8 => ⟨_, e2.trans (congrArg Host.Outcome.next (if_pos h8)), s.fioOutCfg_spec v hi n.isLt⟩⟩
  case refine_3 => exact ⟨_, congrArg Host.Outcome.next (if_pos ⟨h, h1⟩), State.fioDown_spec hi (by decide)⟩
  case refine_4 =>
    show Host.Outcome.next (s.refreshSlot k.val got seen mv) = .next s
    unfold State.refreshSlot
    rw [h]
    rfl
  case refine_5 =>
    refine ⟨_, rfl, ?_⟩
    have hd : (got && decide ((s.il k.val).alive = false)) = true → (got && (s.il k.val).alive) = false := by
      cases got <;> cases (s.il k.val).alive <;> decide
    by_cases h8 : 8 ≤ k.val
    · obtain ⟨⟨a1, a2, a3, a4, a5, a6⟩, b, c⟩ := State.refreshSlot_out_spec h h8 got seen mv
      refine ⟨a1, a2, a3, a4, ?_, fun hn => a6 (hd hn), fun _ => b, fun _ => c, fun h => absurd h8 (Nat.not_le.2 h)⟩
      rwa [if_pos h8]
    · obtain ⟨⟨a1, a2, a3, a4, a5, a6⟩, b⟩ := State.refreshSlot_in_spec h (Nat.not_le.1 h8) got seen mv
      refine ⟨a1, a2, a3, a4, ?_, fun hn => a6 (hd hn), fun h => absurd h h8, fun h => absurd h h8, fun _ => b⟩
      rwa [if_neg h8]
  case refine_6 =>
    have e : exec (.fioUplinkReceived k b) s = .next _ := congrArg Host.Outcome.next (State.uplink_loading h h1 b)
    refine ⟨fun hg hb => ⟨_, e.trans (congrArg Host.Outcome.next ((if_pos hg).trans (if_pos hb))), s.fioRun_spec hi⟩, fun hg hb => ?_, fun hg => e.trans (congrArg Host.Outcome.next (if_neg hg))⟩
    obtain ⟨d1, d2, -⟩ := State.fioDown_spec (s := s) (st := 5) (reason := 0) hi (by decide)
    exact ⟨_, e.trans (congrArg Host.Outcome.next ((if_pos hg).trans (if_neg hb))), d1, d2⟩
  case refine_7 =>
    have e : exec (.fioUplinkReceived k b) s = .next _ := congrArg Host.Outcome.next (State.uplink_on h b)
    refine ⟨fun hg => e.trans (congrArg Host.Outcome.next (if_neg hg)), fun hg => ?_⟩
    obtain ⟨⟨l1, l2, l3⟩, r⟩ := State.fioGood_spec b hi h
    exact ⟨_, e.trans (congrArg Host.Outcome.next (if_pos hg)), l1, l2, l3, r⟩
  case refine_8 =>
    show Host.Outcome.next (s.fioMiss k.val bad) = .next s
    unfold State.fioMiss
    rw [h]
    rfl
  case refine_9 => exact ⟨_, rfl, State.fioMiss_spec h hi bad⟩
  case refine_10 =>
    refine ⟨_, congrArg Host.Outcome.next (if_pos h), State.il_updIl _ _ _, ?_, rfl⟩
    rw [State.il_updIl]
    exact IslS.tripped_drive _
  case refine_11 =>
    have hn : ¬ s.islandPresent k.val = true := by simp [h]
    exact ⟨congrArg Host.Outcome.next (if_neg hn), congrArg Host.Outcome.next (if_neg fun n => hn n.1)⟩
  case refine_12 =>
    obtain ⟨f1, f2, f3⟩ := IslS.halted_spec (s.il k.val)
    refine ⟨_, congrArg Host.Outcome.next (if_pos ⟨h, ha⟩), ?_⟩
    rw [State.il_updIl]
    exact ⟨f1, f2, f3, rfl⟩
  case refine_13 =>
    obtain ⟨f1, f2⟩ := IslS.latched_spec (s.il k.val) (setBit_ne_zero (s.il k.val).latched n.val)
    refine ⟨_, congrArg Host.Outcome.next (if_pos ⟨h8, h⟩), ?_⟩
    rw [State.il_updIl]
    exact ⟨f1, f2, rfl⟩
  case refine_14 =>
    obtain ⟨f1, f2⟩ := IslS.latched_spec (s.il k.val) (v := 0xFF) (by decide)
    refine ⟨_, congrArg Host.Outcome.next (if_pos ⟨h8, h⟩), ?_⟩
    rw [State.il_updIl]
    exact ⟨f1, f2, rfl⟩

end Sys2Proof.Machine
end

section
/-! What leaves the registers that votes, credits and the checks of hub SRAM read (01 R20 to R27; 03 R96, R102; 07 R183 to R189). -/

namespace Sys2Proof.Machine

variable {s t u : State} {l : Fin 3} {p : Fin 4}

/-- Keys of the registers that votes, credits and the checks of hub SRAM read: the mask of voters and the warn limit; states and causes of the lanes; queues;
the banks; the tenants' pages, but for the credits shown there. -/
def voteKey (k : Nat) : Prop :=
  k = ASSAY_voters.key ∨ k = ASSAY_SKEW_16.key ∨ (1181696 ≤ k ∧ k < 1182976) ∨ k / 131072 % 128 = 0x0E ∨ k = MEMCTL_BANKSTAT_0.key ∨
    (0x10 ≤ k / 131072 ∧ k / 131072 < 0x30 ∧ k % 131072 ≠ 513 ∧ k % 131072 ≠ 2176)

/-- From s to t these registers, and all but registers, hub SRAM, lanes, Courier and Ledger, stay. -/
def State.quiet (s t : State) : Prop := t.rest = s.rest ∧ ∀ g : Fld, voteKey g.key → t.get g = s.get g

theorem voteKey_page {g : Fld} (h : voteKey g.key) : g.pageOf ≠ 7 ∧ g.pageOf ≠ 0x0A ∧ g.pageOf ≠ 0x0D := by
  unfold Fld.pageOf
  have h1 : ASSAY_voters.key / 131072 = 8 := rfl
  have h2 : ASSAY_SKEW_16.key / 131072 = 8 := rfl
  have h3 : MEMCTL_BANKSTAT_0.key / 131072 = 0x0F := rfl
  unfold voteKey at h
  omega

/-- A field of another page of the hub, or of another place. -/
theorem not_voteKey {f : Fld} (h : f.pageOf = 7 ∨ f.pageOf = 0x0A ∨ f.pageOf = 0x0D) : ¬ voteKey f.key := fun k => by
  obtain ⟨h1, h2, h3⟩ := voteKey_page k
  rcases h with h | h | h
  · exact h1 h
  · exact h2 h
  · exact h3 h

theorem State.quiet_refl : s.quiet s := ⟨rfl, fun _ _ => rfl⟩

theorem State.quiet_set {f : Fld} {v : Nat} (h : s.quiet t) (k : ¬ voteKey f.key) : s.quiet (t.set f v) :=
  ⟨h.1, fun g hg => (State.get_set_ne t fun e => k (e ▸ hg)).trans (h.2 g hg)⟩

/-- A change of what holds no register and is left out. -/
theorem State.quiet_upd (h : s.quiet t) (hr : u.rest = t.rest) (hg : u.regs = t.regs) : s.quiet u :=
  ⟨hr.trans h.1, fun g k => by rw [← h.2 g k]; unfold State.get; rw [hg]⟩

theorem State.quiet_keeps {ps : List Nat} (h : s.quiet t) (k : t.keepsBut u ps) (hp : ∀ n ∈ ps, n = 7 ∨ n = 0x0A ∨ n = 0x0D) : s.quiet u :=
  ⟨k.1.trans h.1, fun g hg => (k.2 g fun hm => not_voteKey (hp _ hm) hg).trans (h.2 g hg)⟩

theorem State.quiet_ite {c : Prop} [Decidable c] {a b : State} (ha : s.quiet a) (hb : s.quiet b) : s.quiet (if c then a else b) := by
  split
  · exact ha
  · exact hb

theorem State.quiet_each {α : Type} {r : List α} {f : State → α → State} (h : s.quiet t) (hf : ∀ u a, s.quiet u → s.quiet (f u a)) : s.quiet (t.each r f) := by
  unfold State.each
  induction r generalizing t with
  | nil => exact h
  | cons a r ih => exact ih (hf t a h)

theorem State.quiet_updL {f : LaneS → LaneS} (h : s.quiet t) : s.quiet (t.updL l f) := State.quiet_upd h rfl rfl
theorem State.quiet_updP {f : PairS → PairS} (h : s.quiet t) : s.quiet (t.updP l p f) := State.quiet_upd h rfl rfl
theorem State.quiet_updC {f : CourS → CourS} (h : s.quiet t) : s.quiet (t.updC p f) := State.quiet_upd h rfl rfl

theorem State.quiet_raiseInt {page bit : Nat} (h : s.quiet t) (hp : ¬ voteKey (rawOf page).key) : s.quiet (t.raiseInt page bit) :=
  ⟨(State.rest_raiseInt t page bit).trans h.1, fun g hg =>
    (State.get_raiseInt_ne (voteKey_page hg).2.1 fun e => hp (e ▸ hg)).trans (h.2 g hg)⟩

theorem State.quiet_recordX {code sev tenant lanes : Nat} {ws : List Nat} (h : s.quiet t) (hs : sev < 8) : s.quiet (t.recordX code sev tenant lanes ws) :=
  State.quiet_keeps h (State.keepsBut_recordX (ps := [7, 0x0A]) State.keepsBut_refl hs (by simp) (by simp)) (by simp)

theorem State.quiet_record {code sev : Nat} {ws : List Nat} (h : s.quiet t) (hs : sev < 8) : s.quiet (t.record code sev ws) := State.quiet_recordX h hs

theorem State.quiet_once {key ticks : Nat} {f : State → State} (h : s.quiet t) (hf : ∀ u, s.quiet u → s.quiet (f u)) : s.quiet (t.once key ticks f) := by
  unfold State.once
  exact State.quiet_ite (hf _ (State.quiet_upd h rfl rfl)) h

/-! ## What reads them -/

theorem State.quiet_laneState (h : s.quiet t) (l : Fin 3) : t.laneState l = s.laneState l :=
  h.2 (laneField l) (by revert l; unfold voteKey; decide)

theorem State.voters_congr (hv : t.get ASSAY_voters = s.get ASSAY_voters) (hl : ∀ l, t.laneState l = s.laneState l) : t.voters = s.voters := by
  unfold State.voters
  rw [hv]
  simp only [hl]

theorem State.quiet_voters (h : s.quiet t) : t.voters = s.voters :=
  State.voters_congr (h.2 _ (.inl rfl)) (State.quiet_laneState h)

theorem State.quiet_rest (h : s.quiet t) : t.assay = s.assay ∧ t.latch = s.latch ∧ t.aoCause = s.aoCause ∧ t.memctl = s.memctl ∧ t.img = s.img ∧
    t.queues = s.queues ∧ t.power = s.power ∧ t.mgr = s.mgr := by
  have := h.1
  simp only [State.rest, Prod.mk.injEq] at this
  obtain ⟨⟨-, -, -, h1, h8, h2, h3, h4, -, h5, -, h6, -, -, -, -⟩, h7, -⟩ := this
  exact ⟨h1, h2, h3, h4, h5, h6, h7, h8⟩

theorem State.quiet_assay (h : s.quiet t) : t.assay = s.assay := (State.quiet_rest h).1

theorem State.quiet_passive (h : s.quiet t) : t.passive = s.passive := by
  unfold State.passive
  rw [(State.quiet_rest h).2.1]

/-- What two voters agree on depends on the voters only. -/
theorem State.agreed_congr {α : Type} [DecidableEq α] (h : t.voters = s.voters) (rs : List (Fin 3 × α)) : t.agreed rs = s.agreed rs := by
  unfold State.agreed State.mine
  rw [h]

/-! ## What is quiet -/

theorem State.quiet_linkTake {r : Rec} (h : s.quiet t) : s.quiet (t.linkTake l r) := State.quiet_updL h

theorem not_voteKey_raw8 : ¬ voteKey (rawOf 8).key := by unfold voteKey; decide

theorem State.quiet_occShow (h : s.quiet t) : s.quiet (t.occShow p) := by
  unfold State.occShow State.raiseTo
  refine State.quiet_set (State.quiet_set (State.quiet_set h ?_) ?_) ?_ <;> (revert p; unfold voteKey; decide)

/-- R102: a lag changes the lag registers of its lane, and may be recorded. -/
theorem State.quiet_lagNote {lag : Nat} (h : s.quiet t) : s.quiet (t.lagNote l p lag) := by
  have h1 : s.quiet ((t.set (ASSAY_LAG_0 l.val) lag).raiseTo (ASSAY_LAG_MAX_0 l.val) lag) := by
    unfold State.raiseTo
    refine State.quiet_set (State.quiet_set h ?_) ?_ <;> (revert l; unfold voteKey; decide)
  unfold State.lagNote
  exact State.quiet_ite h (State.quiet_ite (State.quiet_once h1 fun u hu => State.quiet_record (State.quiet_raiseInt hu not_voteKey_raw8) (by decide)) h1)

theorem State.quiet_lagsNote {ls : List (Fin 3 × Nat)} (h : s.quiet t) : s.quiet (t.lagsNote p ls) := State.quiet_each h fun _ _ hu => State.quiet_lagNote hu

/-- With warn 0 a lag changes no byte of hub SRAM. -/
theorem State.hub_lagNote {lag : Nat} (h : s.get ASSAY_SKEW_16 = 0) : (s.lagNote l p lag).hub = s.hub := by
  have hk : ((s.set (ASSAY_LAG_0 l.val) lag).raiseTo (ASSAY_LAG_MAX_0 l.val) lag).get ASSAY_SKEW_16 = 0 := by
    unfold State.raiseTo
    rw [State.get_set_ne, State.get_set_ne, h] <;> (revert l; decide)
  unfold State.lagNote
  split
  · rfl
  · dsimp only
    rw [hk, if_neg fun n => n.1 rfl]
    rfl

theorem State.hub_lagsNote {ls : List (Fin 3 × Nat)} (h : s.get ASSAY_SKEW_16 = 0) : (s.lagsNote p ls).hub = s.hub := by
  unfold State.lagsNote State.each
  induction ls generalizing s with
  | nil => rfl
  | cons a r ih =>
    rw [List.foldl_cons, ih (((State.quiet_lagNote State.quiet_refl).2 _ (.inr (.inl rfl))).trans h)]
    exact State.hub_lagNote h

/-- R49. -/
theorem State.quiet_pairStop (h : s.quiet t) : s.quiet (t.pairStop l p) := by
  have hc : ∀ {u : State} (v : Nat), s.quiet u → s.quiet (u.set (COUR_PAIRSTAT_0 p.val) v) ∧ s.quiet (u.set (COUR_PAIRSTAT_12 p.val) v) ∧
      s.quiet (u.set (COUR_PAIRSTAT_13 p.val) v) := fun v hu =>
    ⟨State.quiet_set hu (by revert p; unfold voteKey; decide), State.quiet_set hu (by revert p; unfold voteKey; decide),
      State.quiet_set hu (by revert p; unfold voteKey; decide)⟩
  have h1 : s.quiet (t.updP l p fun q => { q with stopped := true, stamps := [], release := none }) := State.quiet_updP h
  unfold State.pairStop
  extract_lets a b c w d e f g
  have hd : s.quiet e := (hc _ (hc _ (State.quiet_updC (hc _ (State.quiet_set h1 (by unfold voteKey; decide))).2.2)).1).2.1
  refine State.quiet_ite h1 (State.quiet_record (State.quiet_raiseInt (State.quiet_ite hd (State.quiet_raiseInt (State.quiet_set hd ?_) ?_)) ?_) (by decide)) <;>
  (unfold voteKey; decide)

theorem State.quiet_precise {code info addr : Nat} {done : Bool} (h : s.quiet t) : s.quiet (t.precise l p code info addr done) := by
  unfold State.precise
  exact State.quiet_ite (State.quiet_ite (State.quiet_pairStop h) (State.quiet_updP h))
    (State.quiet_ite (State.quiet_ite (State.quiet_pairStop h) (State.quiet_updP h)) (State.quiet_updP h))

/-! The lane's own pages and memory. -/

theorem State.quiet_srWrite {n v : Nat} (h : s.quiet t) : s.quiet (t.srWrite l p n v) := by
  unfold State.srWrite
  refine State.quiet_ite h (State.quiet_ite (State.quiet_ite h (State.quiet_each h fun u q hu => State.quiet_ite ?_ hu))
    (State.quiet_ite (State.quiet_ite h (State.quiet_updL h)) (State.quiet_ite (State.quiet_ite h ?_) (State.quiet_updP h))))
  · unfold State.pairStart
    exact State.quiet_ite (State.quiet_updP (State.quiet_updL hu)) hu
  · unfold State.granWrite
    exact State.quiet_ite h (State.quiet_updL h)

theorem State.quiet_dbgRegdata {v : Nat} (h : s.quiet t) : s.quiet (t.dbgRegdata l p v) := by
  unfold State.dbgRegdata
  exact State.quiet_ite (State.quiet_ite (State.quiet_updP h) (State.quiet_ite (State.quiet_updP h)
    (State.quiet_ite (State.quiet_updP h) (State.quiet_srWrite h)))) h

/-- A write of a lane-local page. -/
theorem State.quiet_lanePageWrite {r : Region} {off v : Nat} (h : s.quiet t) : s.quiet (t.lanePageWrite l r off v) := by
  unfold State.lanePageWrite
  split
  · exact State.quiet_ite h (State.quiet_ite (State.quiet_updP h) (State.quiet_ite (State.quiet_updP h) (State.quiet_ite (State.quiet_updP h) h)))
  · exact State.quiet_ite (State.quiet_updP h) h
  · rename_i n
    have h1 : s.quiet (if bitOf v 0 then t.dbgHalt l (pairIx n) else t) := State.quiet_ite (State.quiet_ite (State.quiet_updP h) h) h
    have h2 : s.quiet (if bitOf v 1 then (if bitOf v 0 then t.dbgHalt l (pairIx n) else t).dbgResume l (pairIx n)
        else if bitOf v 0 then t.dbgHalt l (pairIx n) else t) := State.quiet_ite (State.quiet_ite (State.quiet_updP h1) h1) h1
    exact State.quiet_ite h (State.quiet_ite (State.quiet_ite (State.quiet_ite (State.quiet_updP h2) h2) h2) (State.quiet_ite (State.quiet_updP h)
      (State.quiet_ite (State.quiet_updP h) (State.quiet_ite (State.quiet_dbgRegdata h) (State.quiet_ite
        (State.quiet_ite (State.quiet_updP h) (State.quiet_updP h)) (State.quiet_ite (State.quiet_ite (State.quiet_updP h) (State.quiet_updP h)) h))))))
  · exact h

theorem State.quiet_storeBytes {a : Nat} {b : List Byte} (h : s.quiet t) : s.quiet (t.storeBytes l p a b) := by
  unfold State.storeBytes
  refine State.quiet_ite (State.quiet_updP (State.quiet_each h fun u x hu => ?_))
    (State.quiet_ite (State.quiet_lanePageWrite (State.quiet_updP h)) (State.quiet_updL (State.quiet_updP h)))
  unfold State.sendWrite
  exact State.quiet_ite (State.quiet_updP hu) (State.quiet_updL (State.quiet_updP hu))

/-- A value for a pair that waits changes lanes, and what a stop of the pair shows. -/
theorem State.quiet_hubValue {seq addr len v : Nat} {k : HubCont} (h : s.quiet t) : s.quiet (t.hubValue l p seq addr len k v) := by
  unfold State.hubValue
  cases k with
  | load kind rd => exact State.quiet_updP h
  | atomic rd wide => exact State.quiet_updP h
  | bcopy gd gs1 gs2 n got =>
    exact State.quiet_ite (State.quiet_updP h) (State.quiet_updP (State.quiet_storeBytes (State.quiet_updP h)))
  | bcrc gd gs1 gs2 sel n got => exact State.quiet_ite (State.quiet_updP h) (State.quiet_updP (State.quiet_updP h))

theorem State.quiet_hubAnswer {atomic : Bool} {seq : Nat} {a : Ans} (h : s.quiet t) : s.quiet (t.hubAnswer l p atomic seq a) := by
  unfold State.hubAnswer
  split
  · refine State.quiet_ite ?_ h
    split
    · exact State.quiet_hubValue h
    · exact State.quiet_precise (State.quiet_updP h)
  · exact h

/-- Courier table. -/
theorem State.quiet_courShow (h : s.quiet t) : s.quiet (t.courShow p) := by
  unfold State.courShow State.raiseTo State.setB
  refine State.quiet_set (State.quiet_set (State.quiet_set h ?_) ?_) ?_ <;> (revert p; unfold voteKey; decide)

theorem State.quiet_stampsFree (h : s.quiet t) : s.quiet (t.stampsFree p) := State.quiet_courShow (State.quiet_updC h)

theorem State.quiet_courDropLane (h : s.quiet t) : s.quiet (t.courDropLane l) := State.quiet_each h fun _ _ hu => State.quiet_updC hu

end Sys2Proof.Machine
end

section
/-! Credits, the checks of hub SRAM, and the Assay's buffers over what follows a vote (01 R20 to R24; 03 R96; 07 R183 to R189). -/

namespace Sys2Proof.Machine

variable {s t u : State} {l : Fin 3} {p : Fin 4}

/-! ## Credits and tags (07 R189, R225) -/

theorem State.quiet_raiseTo {f : Fld} {v : Nat} (h : s.quiet t) (k : ¬ voteKey f.key) : s.quiet (t.raiseTo f v) := State.quiet_set h k

theorem State.quiet_flightShow {o : Nat} (h : s.quiet t) : s.quiet (t.flightShow o) := by
  have h1 : s.quiet (if o < 32 then (t.set (TEN_credits o) (t.creditsHeld o)).raiseTo (TEN_CRED_MAX_0 o) (t.creditsHeld o)
      else t.set MEMCTL_FWCRED_0 (t.creditsHeld o)) := by
    split
    · have k : (TEN_credits o).key % 131072 = 513 ∧ (TEN_credits o).key / 131072 = 0x10 + o ∧ (TEN_CRED_MAX_0 o).key % 131072 = 2176 ∧
          (TEN_CRED_MAX_0 o).key / 131072 = 0x10 + o := by
        simp only [TEN_credits, TEN_CRED_MAX_0, Fld.key]
        omega
      have c : ASSAY_voters.key / 131072 = 8 ∧ ASSAY_SKEW_16.key / 131072 = 8 ∧ MEMCTL_BANKSTAT_0.key / 131072 = 0x0F := ⟨rfl, rfl, rfl⟩
      refine State.quiet_raiseTo (State.quiet_set h ?_) ?_ <;> (unfold voteKey; omega)
    · exact State.quiet_set h (by unfold voteKey; decide)
  exact State.quiet_set (State.quiet_set h1 (by unfold voteKey; decide)) (by unfold voteKey; decide)

theorem State.quiet_tagsMax (h : s.quiet t) : s.quiet t.tagsMax := State.quiet_set h (by unfold voteKey; decide)

theorem State.quiet_tagTake {a : Acc} (h : s.quiet t) : s.quiet (t.tagTake a) := by
  unfold State.tagTake
  refine State.quiet_ite (State.quiet_ite (State.quiet_tagsMax (State.quiet_set h ?_)) (State.quiet_once (State.quiet_raiseInt (State.quiet_set h ?_) ?_) ?_))
    (State.quiet_tagsMax (State.quiet_set h ?_))
  · unfold voteKey; decide
  · unfold voteKey; decide
  · unfold voteKey; decide
  · exact fun u hu => State.quiet_recordX hu (by decide)
  · unfold voteKey; decide

/-- The flight an access takes. -/
def State.flightOf (s : State) (a : Acc) (seq : Nat) : Flight :=
  { owner := ownerOf a, epoch := s.get MEMCTL_EPOCH_0, pair := a.pair, seq := seq, done := true }

/-- R189: a credit taken is one flight more. -/
theorem State.quiet_creditTake (s : State) (a : Acc) (seq : Nat) :
    (s.updMc fun m => { m with flight := m.flight ++ [s.flightOf a seq] }).quiet (s.creditTake a seq) :=
  State.quiet_tagTake (State.quiet_flightShow State.quiet_refl)

/-- Firmware's accesses change no byte of hub SRAM as they take their credit. -/
theorem State.hub_creditTake (s : State) {a : Acc} (seq : Nat) (h : a.level ≠ 0) : (s.creditTake a seq).hub = s.hub := by
  have h1 : ∀ u : State, (u.flightShow (ownerOf a)).hub = u.hub := fun u => by
    unfold State.flightShow
    dsimp only
    split <;> rfl
  unfold State.creditTake State.tagTake
  rw [if_neg h]
  exact h1 _

theorem State.creditFree_congr {a : Acc} (hg : ∀ g : Fld, voteKey g.key → t.get g = s.get g) (hf : t.memctl.flight = s.memctl.flight) :
    t.creditFree a = s.creditFree a := by
  unfold State.creditFree State.creditsHeld State.creditLimit
  rw [hf]
  split
  · rename_i h
    rw [hg]
    have k : (TEN_CREDIT_0 (ownerOf a)).key % 131072 = 2048 ∧ (TEN_CREDIT_0 (ownerOf a)).key / 131072 = 0x10 + ownerOf a := by
      simp only [TEN_CREDIT_0, Fld.key]
      omega
    unfold voteKey
    omega
  · rfl

/-! ## The checks of hub SRAM (07 R183, R184, R198, R590) -/

theorem any_congr_mem {α : Type} {r : List α} {f g : α → Bool} (h : ∀ x ∈ r, f x = g x) : r.any f = r.any g := by
  rw [Bool.eq_iff_iff, List.any_eq_true, List.any_eq_true]
  exact ⟨fun ⟨x, hx, e⟩ => ⟨x, hx, h x hx ▸ e⟩, fun ⟨x, hx, e⟩ => ⟨x, hx, (h x hx).symm ▸ e⟩⟩

theorem State.flag_congr {f : Fld} (h : t.get f = s.get f) : t.flag f = s.flag f := by
  unfold State.flag
  rw [h]

/-- A place of a tenant's page that shows no credits. -/
theorem voteKey_tenant {n o c w r : Nat} (hn : n < 32) (h : o * 32 + c < 131072) (h1 : o * 32 + c ≠ 513) (h2 : o * 32 + c ≠ 2176) :
    voteKey (⟨0x10 + n, o, c, w, r, 0⟩ : Fld).key := by
  have k : (⟨0x10 + n, o, c, w, r, 0⟩ : Fld).key = (0x10 + n) * 131072 + (o * 32 + c) := by
    simp only [Fld.key]
    omega
  unfold voteKey
  omega

section
variable (hg : ∀ g : Fld, voteKey g.key → t.get g = s.get g)
include hg

theorem State.sramGrant_congr {n : Nat} (hn : n < 32) (off k : Nat) : t.sramGrant n off k = s.sramGrant n off k := by
  have hw : ∀ k : Nat, ((List.range 16).any fun w => !t.flag (TEN_AWIN_CTL_4 n w) && decide (t.get (TEN_AWIN_BASE_0 n w) ≤ off / 64) &&
      decide (off / 64 ≤ t.get (TEN_AWIN_LIMIT_0 n w)) && t.winGrants n w k) =
      ((List.range 16).any fun w => !s.flag (TEN_AWIN_CTL_4 n w) && decide (s.get (TEN_AWIN_BASE_0 n w) ≤ off / 64) &&
      decide (off / 64 ≤ s.get (TEN_AWIN_LIMIT_0 n w)) && s.winGrants n w k) := fun k => any_congr_mem fun w hw => by
    have hw : w < 16 := List.mem_range.1 hw
    unfold State.winGrants
    rw [hg (TEN_AWIN_BASE_0 n w) (voteKey_tenant hn (by omega) (by omega) (by omega)),
      hg (TEN_AWIN_LIMIT_0 n w) (voteKey_tenant hn (by omega) (by omega) (by omega)),
      State.flag_congr (hg (TEN_AWIN_CTL_4 n w) (voteKey_tenant hn (by omega) (by omega) (by omega))),
      State.flag_congr (hg (TEN_AWIN_CTL_0 n w) (voteKey_tenant hn (by omega) (by omega) (by omega))),
      State.flag_congr (hg (TEN_AWIN_CTL_1 n w) (voteKey_tenant hn (by omega) (by omega) (by omega))),
      State.flag_congr (hg (TEN_AWIN_CTL_2 n w) (voteKey_tenant hn (by omega) (by omega) (by omega)))]
  unfold State.sramGrant
  dsimp only
  rw [hw 0, hw 1, hw k]

theorem State.queueLayout_congr (n : Nat) : t.qBase n = s.qBase n ∧ t.qL n = s.qL n := by
  have k : (QMGR_CFG_BASE_0 n).key / 131072 % 128 = 0x0E ∧ (QMGR_CFG_LINES_0 n).key / 131072 % 128 = 0x0E := by
    simp only [QMGR_CFG_BASE_0, QMGR_CFG_LINES_0, Fld.key]
    omega
  exact ⟨hg _ (.inr (.inr (.inr (.inl k.1)))), hg _ (.inr (.inr (.inr (.inl k.2))))⟩

theorem State.sramRefusal_congr (hi : t.img = s.img) (hq : t.queues = s.queues) (hw : t.memctl.waking = s.memctl.waking) (a : Acc) (off n k : Nat) :
    t.sramRefusal a off n k = s.sramRefusal a off n k := by
  have hb : t.banksReady off n = s.banksReady off n := by
    unfold State.banksReady State.bankServes State.bank
    rw [hg MEMCTL_BANKSTAT_0 (.inr (.inr (.inr (.inr (.inl rfl))))), hw]
  have hen : t.flag (TEN_active_en a.tenant.val) = s.flag (TEN_active_en a.tenant.val) :=
    State.flag_congr (hg _ (voteKey_tenant a.tenant.isLt (by decide) (by decide) (by decide)))
  have hbuf : t.inQueueBuffer off n = s.inQueueBuffer off n := by
    unfold State.inQueueBuffer
    simp only [hq, State.queueLayout_congr hg]
  have hone : t.oneTarget off n = s.oneTarget off n := by
    unfold State.oneTarget State.targetBounds
    simp only [hi, hq, State.queueLayout_congr hg]
  unfold State.sramRefusal
  simp only [hb, hen, hbuf, hone, State.sramGrant_congr hg a.tenant.isLt]

end

/-- A range reads what was written to it. -/
theorem State.hubRead_hubWrite (s : State) (off : Nat) (b : List Byte) : (s.hubWrite off b).hubRead off b.length = b := by
  refine List.ext_getElem (by unfold State.hubRead; simp) fun i h1 h2 => ?_
  simp only [State.hubRead, List.getElem_map, List.getElem_range]
  exact get_writeBytes_in h2

/-! ## The Assay's buffers (01 R20) -/

/-- The Assay's buffers are the same. -/
def State.sameA (s t : State) : Prop := t.assay = s.assay

/-- What keeps all but registers, hub SRAM, lanes, Courier and Ledger keeps the Assay. -/
theorem State.assay_of_rest (h : t.rest = s.rest) : t.assay = s.assay := by
  simp only [State.rest, Prod.mk.injEq] at h
  exact h.1.2.2.2.1

theorem State.sameA_refl : s.sameA s := rfl
theorem State.sameA_quiet (h : s.sameA t) (h' : t.quiet u) : s.sameA u := (State.quiet_assay h').trans h
theorem State.sameA_set {f : Fld} {v : Nat} (h : s.sameA t) : s.sameA (t.set f v) := h
theorem State.sameA_raiseInt {page bit : Nat} (h : s.sameA t) : s.sameA (t.raiseInt page bit) :=
  (State.assay_of_rest (State.rest_raiseInt t page bit)).trans h
theorem State.sameA_courEvent {n : Nat} (h : s.sameA t) : s.sameA (t.courEvent n) :=
  (State.assay_of_rest (State.keepsBut_courEvent (ps := [0x0A]) State.keepsBut_refl (by simp)).1).trans h
theorem State.sameA_recordX {code sev tenant lanes : Nat} {ws : List Nat} (h : s.sameA t) (hs : sev < 8) : s.sameA (t.recordX code sev tenant lanes ws) :=
  (State.assay_of_rest (State.keepsBut_recordX (ps := [7, 0x0A]) State.keepsBut_refl hs (by simp) (by simp)).1).trans h
theorem State.sameA_record {code sev : Nat} {ws : List Nat} (h : s.sameA t) (hs : sev < 8) : s.sameA (t.record code sev ws) := State.sameA_recordX h hs
theorem State.sameA_ite {c : Prop} [Decidable c] {a b : State} (ha : s.sameA a) (hb : s.sameA b) : s.sameA (if c then a else b) := by
  split
  · exact ha
  · exact hb
theorem State.sameA_each {α : Type} {r : List α} {f : State → α → State} (h : s.sameA t) (hf : ∀ u a, s.sameA u → s.sameA (f u a)) : s.sameA (t.each r f) := by
  unfold State.each
  induction r generalizing t with
  | nil => exact h
  | cons a r ih => exact ih (hf t a h)

/-- Changes of other parts of the state. -/
theorem State.sameA_setHdr {d : Desc} {v : Nat} (h : s.sameA t) : s.sameA (t.setHdr d v) := h
theorem State.sameA_updI {f : ImgS → ImgS} (h : s.sameA t) : s.sameA (t.updI f) := h
theorem State.sameA_hubWrite {o : Nat} {b : List Byte} (h : s.sameA t) : s.sameA (t.hubWrite o b) := h
theorem State.sameA_updIl {i : Nat} {f : IslS → IslS} (h : s.sameA t) : s.sameA (t.updIl i f) := h
theorem State.sameA_setWire {i : Nat} {b : List Byte} (h : s.sameA t) : s.sameA (t.setWire i b) := h
theorem State.sameA_updBr {f : BridgeS → BridgeS} (h : s.sameA t) : s.sameA (t.updBr f) := h
theorem State.sameA_updSo {f : SoS → SoS} (h : s.sameA t) : s.sameA (t.updSo f) := h
theorem State.sameA_updN {f : ConsS → ConsS} (h : s.sameA t) : s.sameA (t.updN f) := h
theorem State.sameA_setCans {m : SMap CanS} (h : s.sameA t) : s.sameA (t.setCans m) := h
theorem State.sameA_setLatch {a : Tri Bool} {c : Nat} (h : s.sameA t) : s.sameA (t.setLatch a c) := h

theorem State.sameA_judgeWrite {d : Desc} {i w k : Nat} {vt : Option Nat} {b : List Byte} (h : s.sameA t) : s.sameA (t.judgeWrite d i w vt k b).1 := by
  unfold State.judgeWrite
  split
  · exact State.sameA_raiseInt (State.sameA_setHdr (State.sameA_set (State.sameA_set h)))
  · split
    · exact h
    · split
      · unfold State.acceptWrite
        dsimp only
        have h1 : s.sameA (if bitOf (t.hdr d) 3 = true then t.count DIMG_MERGED_0 else t) := State.sameA_ite (State.sameA_set h) h
        have h2 := State.sameA_setHdr (d := d) (v := if bitOf (t.hdr d) 3 = true then setBit (t.hdr d) 4 else setBit (t.hdr d) 3) h1
        exact State.sameA_ite (State.sameA_updI (State.sameA_hubWrite h2))
          (State.sameA_ite (State.sameA_updI (State.sameA_hubWrite h2)) (State.sameA_hubWrite h2))
      · unfold State.rejectWrite
        exact State.sameA_record (State.sameA_raiseInt (State.sameA_setHdr (State.sameA_set (State.sameA_set (State.sameA_set h))))) (by decide)

theorem State.sameA_stageFallback {v : Nat} (h : s.sameA t) : s.sameA (t.stageFallback v) := by
  unfold State.stageFallback
  split
  · rename_i d hd
    have h1 : s.sameA (t.imgWriteRaw 0xA002 v t.now none (t.hubRead d.fb d.size)).1 := by
      unfold State.imgWriteRaw
      split
      · split
        · exact h
        · exact State.sameA_judgeWrite h
      · exact h
    exact State.sameA_ite (State.sameA_updI h1) h1
  · exact h

theorem State.sameA_smOff (h : s.sameA t) : s.sameA t.smOff :=
  State.sameA_set (State.sameA_each h fun _ _ hu => State.sameA_stageFallback (State.sameA_set hu))

theorem State.sameA_canPassive (h : s.sameA t) : s.sameA t.canPassive := by
  unfold State.canPassive
  refine State.sameA_setCans (State.sameA_each (State.sameA_each h fun u c hu => State.sameA_ite (State.sameA_set hu) hu) fun u e hu => ?_)
  split
  · exact State.sameA_set hu
  · exact hu

theorem State.sameA_fioPassive (h : s.sameA t) : s.sameA t.fioPassive := by
  unfold State.fioPassive
  refine State.sameA_each h fun u i hu => State.sameA_ite ?_ hu
  unfold State.deEnergise State.dlAsk State.dlSend State.ulSend
  exact State.sameA_ite (State.sameA_setWire (State.sameA_updIl (State.sameA_setWire (State.sameA_updIl hu)))) (State.sameA_setWire (State.sameA_updIl hu))

theorem State.sameA_brPassive (h : s.sameA t) : s.sameA t.brPassive := by
  have k : ∀ {u : State}, s.sameA u → s.sameA u.sysfailOut := fun {u} hu => by
    unfold State.sysfailOut
    exact State.sameA_ite hu (State.sameA_ite (State.sameA_set hu) (State.sameA_courEvent (State.sameA_set (State.sameA_set hu))))
  have h1 : ∀ {f : BridgeS → BridgeS} {v w : Nat}, s.sameA (((t.updBr f).set BRIDGE_state v).addSat BR_DISCARD_0 w) := fun {_ _ _} =>
    State.sameA_set (State.sameA_set (State.sameA_updBr h))
  unfold State.brPassive
  refine State.sameA_ite h ?_
  dsimp only
  unfold State.brShow
  exact State.sameA_set (State.sameA_set (State.sameA_set (k (State.sameA_ite (State.sameA_record h1 (by decide)) h1))))

theorem State.sameA_setMode {m : Nat} (h : s.sameA t) : s.sameA (t.setMode m) := by
  unfold State.setMode
  exact State.sameA_ite h (State.sameA_raiseInt (State.sameA_set (State.sameA_set h)))

/-- R38: entering the passive state leaves the Assay's buffers. -/
theorem State.sameA_setPassive {c : Nat} (h : s.sameA t) : s.sameA (t.setPassive c) := by
  unfold State.setPassive
  refine State.sameA_ite h (State.sameA_setMode (State.sameA_brPassive ?_))
  unfold State.soOpen
  refine State.sameA_updSo (State.sameA_set (State.sameA_fioPassive (State.sameA_canPassive ?_)))
  unfold State.porterShut
  refine State.sameA_updN (State.sameA_set ?_)
  have h1 : s.sameA (t.setLatch (Tri.all true) c).smOff := State.sameA_smOff (State.sameA_setLatch h)
  unfold State.mirPassive
  exact State.sameA_ite (State.sameA_set (State.sameA_set h1)) h1

theorem State.sameA_divFill {lane kind synd : Nat} {pas stray : Bool} {d : DivAt} (h : s.sameA t) : s.sameA (t.divFill lane kind pas stray d synd).1 := by
  unfold State.divFill
  dsimp only
  split
  · exact h
  · iterate 16 refine State.sameA_set ?_
    exact h

theorem State.sameA_assayPassive {kind cause : Nat} {d : DivAt} (h : s.sameA t) : s.sameA (t.assayPassive kind cause d) := by
  unfold State.assayPassive
  exact State.sameA_ite h (State.sameA_recordX (State.sameA_setPassive (State.sameA_divFill h)) (by decide))

theorem State.sameA_voteAddr (h : s.sameA t) (rs : List (Fin 3 × Rec)) : s.sameA (t.voteAddr rs).1 := by
  unfold State.voteAddr
  split
  · split
    · exact h
    · exact h
  · exact h

theorem State.sameA_splitCheck (h : s.sameA t) : s.sameA t.splitCheck := by
  unfold State.splitCheck State.voteSplit
  split
  · rename_i x hx
    refine State.sameA_assayPassive ?_
    split at hx
    · cases hx; exact State.sameA_voteAddr h _
    · split at hx
      · cases hx; exact State.sameA_voteAddr h _
      · split at hx
        · cases hx; exact h
        · cases hx
  · exact h

/-- R38: a hub that is not passive becomes so, and keeps the first cause. -/
theorem State.assayPassive_spec (kind cause : Nat) (d : DivAt) (h : s.passive = false) :
    (s.assayPassive kind cause d).passive = true ∧ (s.assayPassive kind cause d).aoCause = cause := by
  have hf : (s.divFill 3 kind true false d 0).1.passive = false := by
    unfold State.passive at h ⊢
    rw [((State.sameLm_divFill (s := s) (z := true) State.sameLm_refl).2 rfl).1]
    exact h
  unfold State.assayPassive
  rw [h, if_neg (by decide)]
  dsimp only
  generalize s.divFill 3 kind true false d 0 = x at hf ⊢
  obtain ⟨hp, ho, -⟩ := State.setPassive_passive x.1 cause
  have hq : (x.1.setPassive cause).quiet ((x.1.setPassive cause).recordX 0x0803 7 0xFF (s.get ASSAY_voters) (d.words x.2 0)) :=
    State.quiet_recordX State.quiet_refl (by decide)
  exact ⟨(State.quiet_passive hq).trans hp, (State.quiet_rest hq).2.2.1.trans (ho hf).2.1⟩

end Sys2Proof.Machine
end

section
/-! AssayVotesOnWrites: votes of two and three lanes, and the write entries of a pair (01 R20 to R23). -/

namespace Sys2Proof.Machine

variable {s t u : State} {l m : Fin 3} {p : Fin 4} {n : Nat}

/-! ## Votes -/

theorem mem_listeners (h : l ∈ s.voters) : l ∈ s.listeners := by
  unfold State.listeners
  have hl : ∀ l : Fin 3, l ∈ allLanes := by decide
  exact List.mem_filter.2 ⟨hl l, by simp [h]⟩

/-- One record agrees with no other. -/
theorem State.agreed_single {α : Type} [DecidableEq α] (s : State) (x : Fin 3 × α) : s.agreed [x] = none := by
  have hl : s.mine [x] = [x] ∨ s.mine [x] = [] := by
    unfold State.mine
    rw [List.filter_cons]
    split
    · exact .inl rfl
    · exact .inr rfl
  unfold State.agreed
  rcases hl with hl | hl
  · rw [hl]
    simp
  · rw [hl]
    rfl

theorem State.split_single {α : Type} [DecidableEq α] (x : Fin 3 × α) (h : 2 ≤ s.voters.length) : s.split [x] = false := by
  have hl : (s.mine [x]).length ≤ 1 := List.length_filter_le _ _
  unfold State.split
  simp only [Bool.and_eq_false_iff, decide_eq_false_iff_not]
  exact .inl (.inr (by omega))

theorem State.mine_pair {α : Type} {a b : α} (hl : l ∈ s.voters) (hm : m ∈ s.voters) : s.mine [(m, a), (l, b)] = [(m, a), (l, b)] := by
  unfold State.mine
  simp [hl, hm]

/-- Two voters' records that are equal. -/
theorem State.agreed_pair {α : Type} [DecidableEq α] {a : α} (hl : l ∈ s.voters) (hm : m ∈ s.voters) (h : l ≠ m) : s.agreed [(m, a), (l, a)] = some a := by
  unfold State.agreed
  rw [State.mine_pair hl hm]
  simp [h.symm]

theorem State.agreed_pair_ne {α : Type} [DecidableEq α] {a b : α} (hl : l ∈ s.voters) (hm : m ∈ s.voters) (h : a ≠ b) : s.agreed [(m, a), (l, b)] = none := by
  unfold State.agreed
  rw [State.mine_pair hl hm]
  simp [h, h.symm]

theorem State.split_pair {α : Type} [DecidableEq α] {a b : α} (hl : l ∈ s.voters) (hm : m ∈ s.voters) (h : a ≠ b) (h2 : s.voters.length = 2) :
    s.split [(m, a), (l, b)] = true := by
  unfold State.split
  rw [State.agreed_pair_ne hl hm h, State.mine_pair hl hm, h2]
  rfl

theorem State.voters_three (h : s.voters.length = 3) : s.voters = [0, 1, 2] := by
  unfold State.voters at h ⊢
  exact List.filter_eq_self.2 (List.length_filter_eq_length_iff.1 h)

/-- Where three lanes vote, every lane votes. -/
theorem mem_voters_of_three (h : s.voters.length = 3) (l : Fin 3) : l ∈ s.voters := by
  rw [State.voters_three h]
  revert l
  decide

/-! ## Write entries -/

/-- A change of the entry of one write. -/
theorem State.wEnt_updWr {f : WEnt → WEnt} (hf : ∀ e, (f e).pair = e.pair ∧ (f e).seq = e.seq) :
    (s.updWr p n f).wEnt p n = (s.wEnt p n).map f := by
  have hc : ((fun e : WEnt => e.pair = p && decide (e.seq = n)) ∘ fun e => if e.pair = p ∧ e.seq = n then f e else e) =
      fun e => decide (e.pair = p) && decide (e.seq = n) := by
    funext e
    simp only [Function.comp_apply]
    split
    · rw [(hf e).1, (hf e).2]
    · rfl
  show List.find? _ (s.assay.writes.map _) = _
  rw [List.find?_map, hc]
  unfold State.wEnt
  cases hs : s.assay.writes.find? fun e => decide (e.pair = p) && decide (e.seq = n) with
  | none => rfl
  | some e =>
    have := List.find?_some hs
    simp only [Bool.and_eq_true, decide_eq_true_eq] at this
    simp [this]

/-- The writes of a pair not released yet. -/
def State.unreleased (s : State) (p : Fin 4) : List WEnt := s.assay.writes.filter fun e => e.pair = p && e.released.isNone

theorem State.unreleased_updWr {f : WEnt → WEnt} (hf : ∀ e, (f e).pair = e.pair ∧ (f e).released = e.released) :
    (s.updWr p n f).unreleased p = (s.unreleased p).map fun e => if e.pair = p ∧ e.seq = n then f e else e := by
  have hc : ((fun e : WEnt => decide (e.pair = p) && e.released.isNone) ∘ fun e => if e.pair = p ∧ e.seq = n then f e else e) =
      fun e => decide (e.pair = p) && e.released.isNone := by
    funext e
    simp only [Function.comp_apply]
    split
    · rw [(hf e).1, (hf e).2]
    · rfl
  show List.filter _ (s.assay.writes.map _) = _
  rw [List.filter_map, hc]
  rfl

theorem State.unreleased_congr (h : t.assay = s.assay) : t.unreleased p = s.unreleased p := by
  unfold State.unreleased
  rw [h]

theorem State.wEnt_congr (h : t.assay = s.assay) : t.wEnt p n = s.wEnt p n := by
  unfold State.wEnt
  rw [h]

theorem State.rEnt_congr {b : Bool} (h : t.assay.reads = s.assay.reads) : t.rEnt p n b = s.rEnt p n b := by
  unfold State.rEnt
  rw [h]

theorem State.wEnt_some {e : WEnt} (h : s.wEnt p n = some e) : e.pair = p ∧ e.seq = n ∧ e ∈ s.assay.writes := by
  have h1 := List.find?_some h
  simp only [Bool.and_eq_true, decide_eq_true_eq] at h1
  exact ⟨h1.1, h1.2, List.mem_of_find?_eq_some h⟩

/-! ## Release -/

theorem State.releaseAll_none (h : s.unreleased p = []) : s.releaseAll p = s := by
  unfold State.releaseAll
  rw [show (s.assay.writes.filter fun e => decide (e.pair = p) && e.released.isNone) = [] from h]
  rfl

theorem State.releaseAll_one {e : WEnt} (h : s.unreleased p = [e]) : s.releaseAll p = s.releaseNext p := by
  unfold State.releaseAll
  rw [show (s.assay.writes.filter fun e => decide (e.pair = p) && e.released.isNone) = [e] from h]
  rfl

/-- R38: a passive module releases nothing. -/
theorem State.releaseNext_passive (h : s.passive = true) : s.releaseNext p = s := by
  unfold State.releaseNext
  rw [if_pos h]

theorem State.releaseAll_passive (h : s.passive = true) : s.releaseAll p = s := by
  unfold State.releaseAll State.each
  generalize (s.assay.writes.filter fun e => decide (e.pair = p) && e.released.isNone) = r
  induction r with
  | nil => rfl
  | cons a r ih => rw [List.foldl_cons, State.releaseNext_passive h, ih]

/-- The pair's one write that is not released: without agreement it stays; with it, and with a credit, it is released. -/
theorem State.releaseNext_disagreed {e : WEnt} (h : s.unreleased p = [e]) (ha : s.agreed e.recs = none) : s.releaseNext p = s := by
  have hf : (s.assay.writes.find? fun e => decide (e.pair = p) && e.released.isNone) = some e := by
    rw [← List.head?_filter]
    exact congrArg List.head? h
  unfold State.releaseNext
  rw [hf]
  dsimp only
  rw [ha]
  split <;> rfl

theorem State.releaseNext_agreed {e : WEnt} {r : Rec} (h : s.unreleased p = [e]) (hp : s.passive = false) (ha : s.agreed e.recs = some r)
    (hc : s.creditFree (recAcc r) = true) : s.releaseNext p = s.releaseRec p e r := by
  have hf : (s.assay.writes.find? fun e => decide (e.pair = p) && e.released.isNone) = some e := by
    rw [← List.head?_filter]
    exact congrArg List.head? h
  unfold State.releaseNext
  rw [hf, hp, if_neg (by decide)]
  dsimp only
  rw [ha]
  dsimp only
  rw [if_pos hc]

/-! ## The vote of a write -/

def WEnt.noLags (e : WEnt) : WEnt := { e with lags := [] }

/-- The lane of an outvoted record diverges. -/
def State.wOutvoted (p : Fin 4) (n : Nat) (r : Rec) (s : State) (x : Fin 3 × Rec) : State :=
  s.diverge x.1 0 3 false ⟨p, n + 2 ^ 16, r.addr, 0, false⟩ (x.2.data ^^^ r.data)

theorem State.wJudge_agreed {e : WEnt} {r : Rec} (hw : s.wEnt p n = some e) (ha : (e.released.orElse fun _ => s.agreed e.recs) = some r) :
    ∃ ls, s.wJudge p n = ((s.lagsNote p ls).updWr p n WEnt.noLags).each (e.recs.filter fun x => decide (x.2 ≠ r)) (State.wOutvoted p n r) := by
  refine ⟨e.lags.filter fun x => e.recs.any fun y => decide (y.1 = x.1 ∧ y.2 = r), ?_⟩
  unfold State.wJudge
  rw [hw]
  dsimp only
  rw [ha]
  rfl

theorem State.wJudge_open {e : WEnt} (hw : s.wEnt p n = some e) (ha : (e.released.orElse fun _ => s.agreed e.recs) = none) :
    s.wJudge p n = if s.split e.recs then (s.atWrite e).1.noMajority (s.atWrite e).2 else s := by
  unfold State.wJudge
  rw [hw]
  dsimp only
  rw [ha]

/-- An answer to an atomic where none waits for it. -/
theorem State.atomicServe_none (h : s.rEnt p n true = none) : s.atomicServe p n = s := by
  unfold State.atomicServe
  rw [h]
  split <;> simp_all

/-! ## What stands over the bookkeeping of a vote -/

/-- The registers that votes, credits and checks read, the latch, the banks and credits, the image, the queues and the power are the same. -/
def State.stands (s t : State) : Prop :=
  (∀ g : Fld, voteKey g.key → t.get g = s.get g) ∧ t.latch = s.latch ∧ t.memctl = s.memctl ∧ t.img = s.img ∧ t.queues = s.queues ∧ t.power = s.power

theorem State.stands_quiet (h : s.stands t) (q : t.quiet u) : s.stands u := by
  obtain ⟨hg, h1, h2, h3, h4, h5⟩ := h
  obtain ⟨-, q1, -, q2, q3, q4, q5, -⟩ := State.quiet_rest q
  exact ⟨fun g k => (q.2 g k).trans (hg g k), q1.trans h1, q2.trans h2, q3.trans h3, q4.trans h4, q5.trans h5⟩

theorem State.stands_updA {f : AssayS → AssayS} (h : s.stands t) : s.stands (t.updA f) := h

theorem State.stands_refl : s.stands s := ⟨fun _ _ => rfl, rfl, rfl, rfl, rfl, rfl⟩

theorem State.stands_trans (h : s.stands t) (h' : t.stands u) : s.stands u :=
  ⟨fun g k => (h'.1 g k).trans (h.1 g k), h'.2.1.trans h.2.1, h'.2.2.1.trans h.2.2.1, h'.2.2.2.1.trans h.2.2.2.1, h'.2.2.2.2.1.trans h.2.2.2.2.1,
    h'.2.2.2.2.2.trans h.2.2.2.2.2⟩

theorem State.stands_voters (h : s.stands t) : t.voters = s.voters :=
  State.voters_congr (h.1 _ (.inl rfl)) fun l => h.1 (laneField l) (by revert l; unfold voteKey; decide)

theorem State.stands_passive (h : s.stands t) : t.passive = s.passive := by
  unfold State.passive
  rw [h.2.1]

theorem State.stands_creditFree {a : Acc} (h : s.stands t) : t.creditFree a = s.creditFree a := State.creditFree_congr h.1 (by rw [h.2.2.1])

/-- Noting whose access it is (06 R162). -/
theorem State.noteAccess_fields (s : State) (a : Acc) : (s.noteAccess a).regs = s.regs ∧ (s.noteAccess a).hub = s.hub ∧ (s.noteAccess a).assay = s.assay ∧
    (s.noteAccess a).memctl = s.memctl ∧ (s.noteAccess a).img = s.img ∧ (s.noteAccess a).queues = s.queues ∧ (s.noteAccess a).power = s.power := by
  unfold State.noteAccess
  split <;> exact ⟨rfl, rfl, rfl, rfl, rfl, rfl, rfl⟩

/-- An access that takes its credit: one flight more; the checks of hub SRAM are as before, and the Assay's buffers. -/
theorem State.access_spec (s : State) (a : Acc) (seq : Nat) : let z := (s.creditTake a seq).noteAccess a
    z.assay = s.assay ∧ z.memctl.flight = s.memctl.flight ++ [s.flightOf a seq] ∧ z.power = s.power ∧ (a.level ≠ 0 → z.hub = s.hub) ∧
      (∀ g : Fld, voteKey g.key → z.get g = s.get g) ∧ ∀ off n k, z.sramRefusal a off n k = s.sramRefusal a off n k := by
  intro z
  obtain ⟨n1, n2, n3, n4, n5, n6, n7⟩ := (s.creditTake a seq).noteAccess_fields a
  have q := s.quiet_creditTake a seq
  obtain ⟨q1, -, -, q2, q3, q4, q5, -⟩ := State.quiet_rest q
  have hg : ∀ g : Fld, voteKey g.key → z.get g = s.get g := fun g k => by
    refine Eq.trans ?_ (q.2 g k)
    unfold State.get
    rw [n1]
  refine ⟨n3.trans q1, ?_, n7.trans q5, fun h => n2.trans (s.hub_creditTake seq h), hg, fun off n k => ?_⟩
  · rw [n4, q2]
    rfl
  · refine State.sramRefusal_congr hg (n5.trans q3) (n6.trans q4) ?_ a off n k
    rw [n4, q2]
    rfl

end Sys2Proof.Machine
end

section
/-! AssayVotesOnWrites: the records of a write as they are heard, isolation, and the freed entry (01 R20 to R24; 03 R79, R93, R96, R102). -/

namespace Sys2Proof.Machine

variable {s t u : State} {l m : Fin 3} {p : Fin 4} {n : Nat} {r : Rec}

theorem exec_writeRecordArrival (hk : r.kind ≠ .read) (hl : s.linkHeard l r = true) :
    exec (.writeRecordArrival l r) s = .next ((s.linkTake l r).wArrive l r) :=
  congrArg Host.Outcome.next (if_pos (by simp [hk, hl]))

/-! ## The first record of a write -/

/-- The entry a first record takes. -/
def State.wFirst (s : State) (l : Fin 3) (r : Rec) : WEnt :=
  { pair := r.pair, seq := r.seq, recs := [(l, r)], released := none, complete := false, app := s.appNow, t0 := s.counter, held := false, lags := [(l, 0)] }

theorem State.wArrive_first (h : s.wEnt r.pair r.seq = none) (ho : s.occW r.pair < 64) : s.wArrive l r =
    (((s.updA fun a => { a with writes := a.writes ++ [s.wFirst l r] }).occShow r.pair).wJudge r.pair r.seq).releaseAll r.pair := by
  unfold State.wArrive
  dsimp only
  rw [h]
  dsimp only
  rw [if_neg (Nat.not_le.2 ho)]
  rfl

theorem State.unreleased_nil : s.unreleased p = [] ↔ ∀ e ∈ s.assay.writes, e.pair = p → e.released.isSome = true := by
  unfold State.unreleased
  rw [List.filter_eq_nil_iff]
  refine forall₂_congr fun e _ => ?_
  cases e.released <;> simp

theorem State.get_occShow {g : Fld} (h : g.pageOf ≠ 8) : (s.occShow p).get g = s.get g := by
  have hk : s.keepsBut (s.occShow p) [8] := by
    unfold State.occShow State.raiseTo
    refine State.keepsBut_set (State.keepsBut_set (State.keepsBut_set State.keepsBut_refl ?_) ?_) ?_ <;> (revert p; decide)
  exact hk.2 g (by simpa using h)

/-- R20: the first record of a write takes an entry, and decides nothing. -/
theorem State.wArrive_first_spec (h : s.wEnt r.pair r.seq = none) (ho : s.occW r.pair < 64) (h2 : 2 ≤ s.voters.length) (hu : s.unreleased r.pair = []) :
    s.wArrive l r = (s.updA fun a => { a with writes := a.writes ++ [s.wFirst l r] }).occShow r.pair := by
  rw [State.wArrive_first h ho]
  generalize hv : (s.updA fun a => { a with writes := a.writes ++ [s.wFirst l r] }).occShow r.pair = v
  have hq : (s.updA fun a => { a with writes := a.writes ++ [s.wFirst l r] }).quiet v := hv ▸ State.quiet_occShow State.quiet_refl
  have ha : v.assay.writes = s.assay.writes ++ [s.wFirst l r] := by rw [State.quiet_assay hq]; rfl
  have hvot : v.voters = s.voters := (State.quiet_voters hq).trans rfl
  have hw : v.wEnt r.pair r.seq = some (s.wFirst l r) := by
    unfold State.wEnt at h ⊢
    rw [ha, List.find?_append, h]
    simp [State.wFirst]
  have hun : v.unreleased r.pair = [s.wFirst l r] := by
    unfold State.unreleased at hu ⊢
    rw [ha, List.filter_append, hu]
    simp [State.wFirst]
  have hj : v.wJudge r.pair r.seq = v := by
    rw [State.wJudge_open hw (v.agreed_single (l, r)), show (s.wFirst l r).recs = [(l, r)] from rfl,
      State.split_single _ (by rw [hvot]; exact h2)]
    rfl
  rw [hj, State.releaseAll_one hun, State.releaseNext_disagreed hun (v.agreed_single (l, r))]

/-- R24: with the pair's 64 entries taken the record is held, and the hold counted. -/
theorem State.wArrive_held (h : s.wEnt r.pair r.seq = none) (ho : 64 ≤ s.occW r.pair) :
    s.wArrive l r = (s.updA fun a => { a with heldRecs := a.heldRecs ++ [(l, r)] }).holdNote r.pair := by
  unfold State.wArrive
  dsimp only
  rw [h]
  exact if_pos ho

theorem State.holdNote_spec (s : State) (p : Fin 4) : (s.holdNote p).assay = s.assay ∧ (s.holdNote p).get (ASSAY_HOLDS_0 p.val) = s.oneMore (ASSAY_HOLDS_0 p.val) := by
  refine ⟨State.sameA_raiseInt (State.sameA_set State.sameA_refl), ?_⟩
  unfold State.holdNote
  rw [State.get_raiseInt_ne, State.get_count]
  · revert p; decide
  · revert p; decide

/-! ## A further record -/

/-- The entry with one record more. -/
def WEnt.join (l : Fin 3) (r : Rec) (lag : Nat) (e : WEnt) : WEnt := { e with recs := e.recs ++ [(l, r)], lags := e.lags ++ [(l, lag)] }

theorem State.wArrive_next {e : WEnt} (h : s.wEnt r.pair r.seq = some e) (hn : ∀ x ∈ e.recs, x.1 ≠ l) : ∃ f : WEnt → WEnt,
    (∀ e, (f e).pair = e.pair ∧ (f e).seq = e.seq ∧ (f e).released = e.released ∧ (f e).recs = e.recs ++ [(l, r)]) ∧
    s.wArrive l r = (((s.updWr r.pair r.seq f).wJudge r.pair r.seq).releaseAll r.pair).atomicServe r.pair r.seq := by
  refine ⟨fun e => e.join l r (s.lagOf e.t0), fun e => ⟨rfl, rfl, rfl, rfl⟩, ?_⟩
  have ha : ¬ (e.recs.any fun x => decide (x.1 = l)) = true := by
    rw [List.any_eq_true]
    rintro ⟨x, hx, hd⟩
    exact hn x hx (of_decide_eq_true hd)
  unfold State.wArrive
  dsimp only
  rw [h]
  dsimp only
  rw [if_neg ha]
  rfl

theorem State.each_nil {α : Type} (s : State) (f : State → α → State) : s.each [] f = s := rfl

theorem State.stands_updWr {f : WEnt → WEnt} (h : s.stands t) : s.stands (t.updWr p n f) := State.stands_updA h

theorem State.assay_updWr {f : WEnt → WEnt} (h : t.assay = s.assay) : (t.updWr p n f).assay = (s.updWr p n f).assay := by
  unfold State.updWr State.updA
  rw [h]

/-- The state that has noted the lags of a settled vote whose records agree. -/
theorem State.wJudge_settled {e : WEnt} (hw : s.wEnt p n = some e) (ha : (e.released.orElse fun _ => s.agreed e.recs) = some r)
    (hr : ∀ x ∈ e.recs, x.2 = r) : s.stands (s.wJudge p n) ∧ (s.wJudge p n).assay = (s.updWr p n WEnt.noLags).assay ∧
    (s.get ASSAY_SKEW_16 = 0 → (s.wJudge p n).hub = s.hub) := by
  obtain ⟨ls, hj⟩ := State.wJudge_agreed hw ha
  have hf : (e.recs.filter fun x => decide (x.2 ≠ r)) = [] := List.filter_eq_nil_iff.2 fun x hx => by simp [hr x hx]
  have hq : s.quiet (s.lagsNote p ls) := State.quiet_lagsNote State.quiet_refl
  rw [hj, hf, State.each_nil]
  exact ⟨State.stands_updWr (State.stands_quiet State.stands_refl hq), State.assay_updWr (State.quiet_assay hq), fun h0 => State.hub_lagsNote h0⟩

/-! ## The release of a write (R20, R24) -/

/-- A released entry. -/
def WEnt.release (r : Rec) (e : WEnt) : WEnt := { e with released := some r, complete := true, held := false }

theorem State.sramStore_hub {a : Acc} {off : Nat} {b : List Byte} (hr : s.sramRefusal a off b.length 1 = none) (ho : ¬ off < 0x400000) :
    s.sramStore a off b = s.hubWrite off b := by
  unfold State.sramStore
  rw [hr]
  dsimp only
  rw [if_neg ho]

/-- A write that hub SRAM allows leaves its bytes there (02 R50). -/
theorem State.writePerform_sram (ha : 0x50400000 ≤ r.addr) (hb : r.addr + r.len ≤ 0x51000000) (hp : s.power = .run)
    (hr : s.sramRefusal (recAcc r) (r.addr - 0x50000000) r.len 1 = none) :
    s.writePerform r = s.hubWrite (r.addr - 0x50000000) (leBytes r.len r.data) := by
  have h1 : hubAddr r.addr r.len = true := by
    unfold hubAddr
    simp only [Bool.or_eq_true, Bool.and_eq_true, decide_eq_true_eq]
    omega
  have h2 : ¬ (r.addr - 0x50000000) < 0x400000 := by omega
  unfold State.writePerform
  rw [h1, if_neg (by decide), if_neg (by omega), if_neg (by simp [hp])]
  exact State.sramStore_hub (by rw [leBytes_length]; exact hr) h2

/-- A release takes a credit, and what a write leaves at its target follows. -/
theorem State.releaseRec_write {e : WEnt} (hk : r.kind = .write) : s.releaseRec p e r =
    (((s.updWr p e.seq (WEnt.release r)).creditTake (recAcc r) e.seq).noteAccess (recAcc r)).writePerform r := by
  unfold State.releaseRec
  dsimp only
  rw [hk]
  rfl

/-- R20, R24: a write to hub SRAM is released: it takes a credit, its bytes stand there, its entry shows the record released. -/
theorem State.releaseRec_sram {e : WEnt} (hw : s.wEnt p n = some e) (hk : r.kind = .write) (ha : 0x50400000 ≤ r.addr) (hb : r.addr + r.len ≤ 0x51000000)
    (hp : s.power = .run) (hr : s.sramRefusal (recAcc r) (r.addr - 0x50000000) r.len 1 = none) : let z := s.releaseRec p e r
    z.hubRead (r.addr - 0x50000000) r.len = leBytes r.len r.data ∧ z.wEnt p n = some (e.release r) ∧ z.assay.reads = s.assay.reads ∧
      z.memctl.flight.length = s.memctl.flight.length + 1 ∧
      (r.level ≠ 0 → ∀ x, x < r.addr - 0x50000000 ∨ r.addr - 0x50000000 + r.len ≤ x → SMap.get z.hub x 0 = SMap.get s.hub x 0) := by
  have hs := (State.wEnt_some hw).2.1
  obtain ⟨a1, a2, a3, a4, a5, a6⟩ := (s.updWr p e.seq (WEnt.release r)).access_spec (recAcc r) e.seq
  dsimp only
  rw [State.releaseRec_write hk, State.writePerform_sram ha hb (a3.trans hp) ((a6 _ _ _).trans hr)]
  generalize ((s.updWr p e.seq (WEnt.release r)).creditTake (recAcc r) e.seq).noteAccess (recAcc r) = z at a1 a2 a3 a4 a5 a6 ⊢
  refine ⟨?_, ?_, ?_, ?_, fun hl x hx => ?_⟩
  · have := z.hubRead_hubWrite (r.addr - 0x50000000) (leBytes r.len r.data)
    rwa [leBytes_length] at this
  · have e1 : (z.hubWrite (r.addr - 0x50000000) (leBytes r.len r.data)).wEnt p n = (s.updWr p n (WEnt.release r)).wEnt p n := State.wEnt_congr (a1.trans (by rw [hs]))
    rw [e1, State.wEnt_updWr (f := WEnt.release r) fun e => ⟨rfl, rfl⟩, hw]
    rfl
  · show z.assay.reads = _
    rw [a1]
    rfl
  · show z.memctl.flight.length = _
    rw [a2, List.length_append]
    rfl
  · have h1 : SMap.get (z.hubWrite (r.addr - 0x50000000) (leBytes r.len r.data)).hub x 0 = SMap.get z.hub x 0 :=
      get_writeBytes_out (by rw [leBytes_length]; exact hx)
    rw [h1, a4 hl]
    rfl

/-! ## The second record of two voters -/

/-- Where a write's vote is says no more than the free values drawn. -/
theorem State.atWrite_state (s : State) (e : WEnt) : (s.atWrite e).1 = s ∨ (s.atWrite e).1 = s.draw := by
  unfold State.atWrite State.voteAddr
  split
  · split
    · exact .inl rfl
    · exact .inr rfl
  · exact .inr rfl

theorem State.atWrite_fields (s : State) (e : WEnt) : (s.atWrite e).1.assay = s.assay ∧ (s.atWrite e).1.passive = s.passive ∧
    (s.atWrite e).1.voters = s.voters := by
  rcases s.atWrite_state e with h | h
  · rw [h]
    exact ⟨rfl, rfl, rfl⟩
  · rw [h]
    exact ⟨rfl, rfl, rfl⟩

/-- A second record joins the pair's one write that is not released. -/
theorem State.wArrive_second {e : WEnt} {r' : Rec} (hw : s.wEnt r.pair r.seq = some e) (hu : s.unreleased r.pair = [e]) (hr : e.recs = [(m, r')]) (h : l ≠ m) :
    ∃ (z : State) (e' : WEnt), s.stands z ∧ z.assay.reads = s.assay.reads ∧ z.hub = s.hub ∧ z.wEnt r.pair r.seq = some e' ∧ z.unreleased r.pair = [e'] ∧
      e'.recs = [(m, r'), (l, r)] ∧ e'.released = none ∧
      s.wArrive l r = ((z.wJudge r.pair r.seq).releaseAll r.pair).atomicServe r.pair r.seq := by
  obtain ⟨f, hf, he⟩ := State.wArrive_next (l := l) hw fun x hx => by
    rw [hr, List.mem_singleton] at hx
    rw [hx]
    exact h.symm
  obtain ⟨h1, h2, -⟩ := State.wEnt_some hw
  have hn : e.released.isNone = true := by
    have : e ∈ s.unreleased r.pair := by rw [hu]; exact List.mem_singleton_self e
    have := (List.mem_filter.1 this).2
    simp only [Bool.and_eq_true] at this
    exact this.2
  refine ⟨s.updWr r.pair r.seq f, f e, State.stands_updWr State.stands_refl, rfl, rfl, ?_, ?_, ?_, ?_, he⟩
  · rw [State.wEnt_updWr fun e => ⟨(hf e).1, (hf e).2.1⟩, hw]
    rfl
  · rw [State.unreleased_updWr fun e => ⟨(hf e).1, (hf e).2.2.1⟩, hu]
    simp [h1, h2]
  · rw [(hf e).2.2.2, hr]
    rfl
  · rw [(hf e).2.2.1]
    exact Option.isNone_iff_eq_none.1 hn

/-- R20: the equal record of a second voter releases the write. -/
theorem State.wArrive_equal {e : WEnt} (hw : s.wEnt r.pair r.seq = some e) (hu : s.unreleased r.pair = [e]) (hr : e.recs = [(m, r)]) (h : l ≠ m)
    (hl : l ∈ s.voters) (hm : m ∈ s.voters) (hno : s.rEnt r.pair r.seq true = none) (hp : s.passive = false) (h0 : s.get ASSAY_SKEW_16 = 0) (hk : r.kind = .write)
    (hc : s.creditFree (recAcc r) = true) (ha : 0x50400000 ≤ r.addr) (hb : r.addr + r.len ≤ 0x51000000) (hpw : s.power = .run)
    (href : s.sramRefusal (recAcc r) (r.addr - 0x50000000) r.len 1 = none) : let z := s.wArrive l r
    ∃ e', z.hubRead (r.addr - 0x50000000) r.len = leBytes r.len r.data ∧ z.wEnt r.pair r.seq = some e' ∧ e'.released = some r ∧ e'.complete = true ∧
      e'.recs = [(m, r), (l, r)] ∧ z.memctl.flight.length = s.memctl.flight.length + 1 ∧
      (r.level ≠ 0 → ∀ x, x < r.addr - 0x50000000 ∨ r.addr - 0x50000000 + r.len ≤ x → SMap.get z.hub x 0 = SMap.get s.hub x 0) := by
  obtain ⟨z, e1, zs, zr, zh, zw, zu, zrec, zn, he⟩ := State.wArrive_second hw hu hr h
  have hag : z.agreed e1.recs = some r := by
    rw [zrec, State.agreed_congr (State.stands_voters zs)]
    exact State.agreed_pair hl hm h
  obtain ⟨js, ja, jh⟩ := State.wJudge_settled (r := r) zw (by rw [zn]; exact hag) fun x hx => by
    rw [zrec] at hx
    simp only [List.mem_cons, List.not_mem_nil, or_false] at hx
    rcases hx with hx | hx <;> rw [hx]
  have jh := jh ((zs.1 _ (.inr (.inl rfl))).trans h0)
  generalize z.wJudge r.pair r.seq = y at js ja jh he
  have ys : s.stands y := State.stands_trans zs js
  obtain ⟨yg, -, ymem, yimg, yq, yp⟩ := ys
  have yw : y.wEnt r.pair r.seq = some e1.noLags := by
    rw [State.wEnt_congr ja, State.wEnt_updWr (f := WEnt.noLags) fun e => ⟨rfl, rfl⟩, zw]
    rfl
  have yu : y.unreleased r.pair = [e1.noLags] := by
    obtain ⟨h1, h2, -⟩ := State.wEnt_some zw
    rw [State.unreleased_congr ja, State.unreleased_updWr (f := WEnt.noLags) fun e => ⟨rfl, rfl⟩, zu]
    simp [h1, h2]
  have yr : y.assay.reads = s.assay.reads := by
    rw [ja]
    exact zr
  have yag : y.agreed e1.noLags.recs = some r := (State.agreed_congr (State.stands_voters js) _).trans hag
  have yc : y.creditFree (recAcc r) = true := (State.creditFree_congr yg (by rw [ymem])).trans hc
  obtain ⟨r1, r2, r3, r4, r5⟩ := State.releaseRec_sram yw hk ha hb (yp.trans hpw)
    ((State.sramRefusal_congr yg yimg yq (by rw [ymem]) _ _ _ _).trans href)
  have hrel : y.releaseAll r.pair = y.releaseRec r.pair e1.noLags r := (State.releaseAll_one yu).trans
    (State.releaseNext_agreed yu ((State.stands_passive js).trans ((State.stands_passive zs).trans hp)) yag yc)
  dsimp only
  rw [he, hrel, State.atomicServe_none ((State.rEnt_congr (r3.trans yr)).trans hno)]
  refine ⟨e1.noLags.release r, r1, r2, rfl, rfl, zrec, by rw [r4, ymem], fun hlv x hx => (r5 hlv x hx).trans ?_⟩
  rw [jh, zh]

/-- R23: differing records of the two voters make the module passive. -/
theorem State.wArrive_differ {e : WEnt} {r' : Rec} (hw : s.wEnt r.pair r.seq = some e) (hu : s.unreleased r.pair = [e]) (hr : e.recs = [(m, r')]) (h : l ≠ m)
    (hl : l ∈ s.voters) (hm : m ∈ s.voters) (hno : s.rEnt r.pair r.seq true = none) (hp : s.passive = false) (hd : r' ≠ r) (h2 : s.voters.length = 2) :
    let z := s.wArrive l r
    ∃ e', z.passive = true ∧ z.aoCause = 6 ∧ z.wEnt r.pair r.seq = some e' ∧ e'.released = none := by
  obtain ⟨z, e1, zs, zr, -, zw, -, zrec, zn, he⟩ := State.wArrive_second hw hu hr h
  have hv : z.voters = s.voters := State.stands_voters zs
  have hag : z.agreed e1.recs = none := by
    rw [zrec]
    exact State.agreed_pair_ne (by rw [hv]; exact hl) (by rw [hv]; exact hm) hd
  have hsp : z.split e1.recs = true := by
    rw [zrec]
    exact State.split_pair (by rw [hv]; exact hl) (by rw [hv]; exact hm) hd (by rw [hv]; exact h2)
  obtain ⟨w1, w2, w3⟩ := z.atWrite_fields e1
  have hj : z.wJudge r.pair r.seq = (z.atWrite e1).1.assayPassive 9 6 (z.atWrite e1).2 := by
    rw [State.wJudge_open zw (by rw [zn]; exact hag), if_pos hsp]
    unfold State.noMajority
    rw [w3, hv, if_pos h2]
  obtain ⟨p1, p2⟩ := State.assayPassive_spec (s := (z.atWrite e1).1) 9 6 (z.atWrite e1).2 (by rw [w2, State.stands_passive zs]; exact hp)
  have pa : ((z.atWrite e1).1.assayPassive 9 6 (z.atWrite e1).2).assay = z.assay := (State.sameA_assayPassive State.sameA_refl).trans w1
  dsimp only
  rw [he, hj, State.releaseAll_passive p1, State.atomicServe_none ((State.rEnt_congr ((congrArg AssayS.reads pa).trans zr)).trans hno)]
  exact ⟨e1, p1, p2, (State.wEnt_congr pa).trans zw, zn⟩

/-! ## A lane that is isolated (03 R96) -/

theorem State.sameLm_raise8 {bit : Nat} (h : s.sameLm t) : s.sameLm (t.raiseInt 8 bit) := by
  refine ⟨fun g hg => (State.get_raiseInt_ne ?_ fun e => ?_).trans (h.1 g hg), fun e => by cases e⟩
  · rcases lmKey_page hg with k | k <;> rw [k] <;> decide
  · rw [e] at hg
    revert hg
    unfold lmKey
    decide

/-- What an isolation does once the lane is out of the vote. -/
def State.isoTold (s : State) (l : Fin 3) (kind mask : Nat) (stray : Bool) (d : DivAt) (synd : Nat) : State :=
  let x := s.divFill l.val kind false stray d synd
  let s := (x.1.count ASSAY_div_count).raiseInt 0x08 0
  let s := s.on stray fun s => s.raiseInt 0x08 1
  let s := s.recordX 0x0801 6 0xFF mask (d.words x.2 synd)
  let s := s.on stray fun s => s.recordX 0x0802 6 0xFF mask (d.words x.2 synd)
  s.splitCheck

theorem State.isolate_three (h3 : s.voters.length = 3) (l : Fin 3) (kind : Nat) (stray : Bool) (d : DivAt) (synd : Nat) :
    s.isolate l kind stray d synd = ((s.dropVoter l).setCause l 1 0 0).isoTold l kind (s.get ASSAY_voters) stray d synd := by
  have h1 : s.voters.contains l = true := by simpa using mem_voters_of_three h3 l
  unfold State.isolate
  rw [h1, if_neg (by decide), if_neg (by omega)]
  rfl

theorem State.isoTold_same (s : State) (kind mask : Nat) (stray : Bool) (d : DivAt) (synd : Nat) :
    s.sameLm (s.isoTold l kind mask stray d synd) ∧ s.sameA (s.isoTold l kind mask stray d synd) := by
  unfold State.isoTold State.on
  constructor
  · have h1 := State.sameLm_raise8 (bit := 0) (State.sameLm_set (f := ASSAY_div_count)
      (v := min ((s.divFill l.val kind false stray d synd).1.get ASSAY_div_count + 1) (2 ^ ASSAY_div_count.w - 1))
      (State.sameLm_divFill (s := s) (lane := l.val) (kind := kind) (synd := synd) (pas := false) (stray := stray) (d := d) State.sameLm_refl) (by unfold lmKey; decide))
    have h2 := fun ws : List Nat => State.sameLm_recordX (code := 0x0801) (sev := 6) (tenant := 0xFF) (lanes := mask) (ws := ws)
      (State.sameLm_ite (c := stray = true) (State.sameLm_raise8 (bit := 1) h1) h1) (by decide)
    exact State.sameLm_splitCheck (State.sameLm_ite (State.sameLm_recordX (h2 _) (by decide)) (h2 _))
  · have h1 := State.sameA_raiseInt (page := 8) (bit := 0) (State.sameA_set (f := ASSAY_div_count)
      (v := min ((s.divFill l.val kind false stray d synd).1.get ASSAY_div_count + 1) (2 ^ ASSAY_div_count.w - 1))
      (State.sameA_divFill (s := s) (lane := l.val) (kind := kind) (synd := synd) (pas := false) (stray := stray) (d := d) State.sameA_refl))
    have h2 := fun ws : List Nat => State.sameA_recordX (code := 0x0801) (sev := 6) (tenant := 0xFF) (lanes := mask) (ws := ws)
      (State.sameA_ite (c := stray = true) (State.sameA_raiseInt (page := 8) (bit := 1) h1) h1) (by decide)
    exact State.sameA_splitCheck (State.sameA_ite (State.sameA_recordX (h2 _) (by decide)) (h2 _))

/-- A lane out of the vote, ISOLATED, with nothing of it kept. -/
def State.leftVote (s : State) (l : Fin 3) : State :=
  let s := s.updA fun x => x.dropLane l
  (((s.set ASSAY_voters (clrBit (s.get ASSAY_voters) l.val)).set (laneField l) lIsolated).set (ASSAY_LAG_0 l.val) 0).updL l
    fun n => { n with out := [], reports := [], replayed := [] }

theorem State.dropVoter_eq (s : State) (l : Fin 3) : s.dropVoter l =
    let v := clrBit ((s.updA fun x => x.dropLane l).get ASSAY_voters) l.val
    let w := ((s.leftVote l).freeDone.courDropLane l).each allPairs fun s p => s.stampsFree p
    ((if w.passive then w else if popc 3 v = 2 then w.setMode 2 else w.setPassive 7).count LANEMGR_iso_count).raiseInt 9 0 := rfl

/-- What follows R96 step 2 leaves the Assay's buffers. -/
theorem State.sameA_dropVoter (s : State) (l : Fin 3) : (s.leftVote l).freeDone.sameA (s.dropVoter l) := by
  rw [State.dropVoter_eq]
  generalize (s.leftVote l).freeDone = w
  have h1 : w.sameA ((w.courDropLane l).each allPairs fun s p => s.stampsFree p) :=
    State.sameA_each (State.sameA_quiet State.sameA_refl (State.quiet_courDropLane State.quiet_refl))
      fun u p hu => State.sameA_quiet hu (State.quiet_stampsFree State.quiet_refl)
  exact State.sameA_raiseInt (State.sameA_set (State.sameA_ite h1 (State.sameA_ite (State.sameA_setMode h1) (State.sameA_setPassive h1))))

/-- The writes a lane's leaving keeps are those of before, less its records. -/
theorem State.unreleased_dropVoter (h : s.unreleased p = []) : (s.dropVoter l).unreleased p = [] := by
  rw [State.unreleased_nil] at h ⊢
  intro e he hp
  rw [State.sameA_dropVoter s l] at he
  have he : e ∈ (s.assay.dropLane l).writes := (List.mem_filter.1 he).1
  obtain ⟨e0, h0, rfl⟩ := List.mem_map.1 he
  exact h e0 h0 hp

/-- R96: of three voters the one that diverges is out of the vote and ISOLATED, with its cause. -/
theorem State.isolate_spec (h3 : s.voters.length = 3) (l : Fin 3) (kind : Nat) (stray : Bool) (d : DivAt) (synd : Nat) : let z := s.isolate l kind stray d synd
    z.laneState l = lIsolated ∧ z.get ASSAY_voters = clrBit (s.get ASSAY_voters) l.val % 8 ∧ z.get (LM_CAUSE_0 l.val) = 1 ∧
      ∀ p, s.unreleased p = [] → z.unreleased p = [] := by
  have hk : ∀ l : Fin 3, (∀ m : Fin 3, (laneField l).key ≠ (LM_CAUSE_0 m.val).key ∧ (laneField l).key ≠ (LM_CAUSE_4 m.val).key ∧
      (laneField l).key ≠ (LM_CAUSE_8 m.val).key) ∧ ASSAY_voters.key ≠ (LM_CAUSE_0 l.val).key ∧ ASSAY_voters.key ≠ (LM_CAUSE_4 l.val).key ∧
      ASSAY_voters.key ≠ (LM_CAUSE_8 l.val).key ∧ lmKey (laneField l).key ∧ lmKey (LM_CAUSE_0 l.val).key ∧ lmKey ASSAY_voters.key := by
    unfold lmKey
    decide
  obtain ⟨k1, k2, k3, k4, k5, k6, k7⟩ := hk l
  obtain ⟨u1, u2, -, -⟩ := s.unvote_lane l
  have us : (s.dropVoter l).sameLm (s.unvote l) := State.sameLm_splitCheck State.sameLm_refl
  obtain ⟨c1, -, -, c2⟩ := (s.dropVoter l).setCause_reads l 1 0 0 (by decide) (by decide) (by decide)
  obtain ⟨i1, i2⟩ := ((s.dropVoter l).setCause l 1 0 0).isoTold_same (l := l) kind (s.get ASSAY_voters) stray d synd
  rw [State.isolate_three h3]
  refine ⟨?_, ?_, (i1.1 _ k6).trans c1, fun p hp => ?_⟩
  · exact (i1.1 _ k5).trans ((c2 _ (k1 l).1 (k1 l).2.1 (k1 l).2.2).trans ((us.1 _ k5).symm.trans u1))
  · exact (i1.1 _ k7).trans ((c2 _ k2 k3 k4).trans ((us.1 _ k7).symm.trans u2))
  · have ha : ((s.dropVoter l).setCause l 1 0 0).assay = (s.dropVoter l).assay := rfl
    exact (State.unreleased_congr (i2.trans ha)).trans (State.unreleased_dropVoter hp)

/-- A register that votes read is the same over the answers to an atomic. -/
theorem State.get_atomicServe {g : Fld} (h : voteKey g.key) : (s.atomicServe p n).get g = s.get g := by
  unfold State.atomicServe
  split
  · split
    · rename_i r a _ _
      have hq : ∀ (ls : List (Fin 3)) (u : State), u.quiet (u.each ls fun s l => s.hubAnswer l p true n a) := fun ls u =>
        State.quiet_each State.quiet_refl fun _ _ hu => State.quiet_hubAnswer hu
      exact (hq _ _).2 g h
    · rfl
  · rfl

/-- R22: a third lane's record that differs from the one released isolates that lane. -/
theorem State.wArrive_third {e : WEnt} {k : Fin 3} {r0 : Rec} (h3 : s.voters.length = 3) (hlm : l ≠ m) (hlk : l ≠ k)
    (hw : s.wEnt r.pair r.seq = some e) (hr : e.recs = [(m, r0), (k, r0)]) (he : e.released = some r0) (hd : r ≠ r0) (hu : s.unreleased r.pair = []) :
    let z := s.wArrive l r
    z.laneState l = lIsolated ∧ z.get ASSAY_voters = clrBit (s.get ASSAY_voters) l.val % 8 ∧ z.get (LM_CAUSE_0 l.val) = 1 := by
  obtain ⟨f, hf, hz⟩ := State.wArrive_next (l := l) hw fun x hx => by
    rw [hr] at hx
    simp only [List.mem_cons, List.not_mem_nil, or_false] at hx
    rcases hx with hx | hx <;> rw [hx]
    · exact hlm.symm
    · exact hlk.symm
  have hrec : (f e).recs = [(m, r0), (k, r0), (l, r)] := by rw [(hf e).2.2.2, hr]; rfl
  have hw2 : (s.updWr r.pair r.seq f).wEnt r.pair r.seq = some (f e) := by
    rw [State.wEnt_updWr fun e => ⟨(hf e).1, (hf e).2.1⟩, hw]
    rfl
  obtain ⟨ls, hj⟩ := State.wJudge_agreed (r := r0) hw2 (by rw [(hf e).2.2.1, he]; rfl)
  have hfil : ((f e).recs.filter fun x => decide (x.2 ≠ r0)) = [(l, r)] := by
    rw [hrec]
    simp [hd]
  rw [hfil] at hj
  have hq : (s.updWr r.pair r.seq f).quiet ((s.updWr r.pair r.seq f).lagsNote r.pair ls) := State.quiet_lagsNote State.quiet_refl
  have hst : s.stands (((s.updWr r.pair r.seq f).lagsNote r.pair ls).updWr r.pair r.seq WEnt.noLags) :=
    State.stands_updWr (State.stands_quiet (State.stands_updWr State.stands_refl) hq)
  have hun : (((s.updWr r.pair r.seq f).lagsNote r.pair ls).updWr r.pair r.seq WEnt.noLags).unreleased r.pair = [] := by
    rw [State.unreleased_updWr (f := WEnt.noLags) fun e => ⟨rfl, rfl⟩, State.unreleased_congr (State.quiet_assay hq),
      State.unreleased_updWr fun e => ⟨(hf e).1, (hf e).2.2.1⟩, hu]
    rfl
  generalize ((s.updWr r.pair r.seq f).lagsNote r.pair ls).updWr r.pair r.seq WEnt.noLags = y at hj hst hun
  have hv : y.voters = s.voters := State.stands_voters hst
  have hm : y.get ASSAY_voters = s.get ASSAY_voters := hst.1 _ (.inl rfl)
  have hy : y.voters.contains l = true := by simpa using mem_voters_of_three (by rw [hv]; exact h3) l
  have hj : (s.updWr r.pair r.seq f).wJudge r.pair r.seq = y.isolate l 0 false ⟨r.pair, r.seq + 2 ^ 16, r0.addr, 0, false⟩ (r.data ^^^ r0.data) := by
    rw [hj]
    exact if_pos hy
  obtain ⟨i1, i2, i3, i4⟩ := State.isolate_spec (s := y) (by rw [hv]; exact h3) l 0 false ⟨r.pair, r.seq + 2 ^ 16, r0.addr, 0, false⟩ (r.data ^^^ r0.data)
  have hkey : ∀ l : Fin 3, voteKey (laneField l).key ∧ voteKey (LM_CAUSE_0 l.val).key := by unfold voteKey; decide
  dsimp only
  rw [hz, hj, State.releaseAll_none (i4 _ hun)]
  exact ⟨(State.get_atomicServe (hkey l).1).trans i1, (State.get_atomicServe (.inl rfl)).trans (i2.trans (by rw [hm])),
    (State.get_atomicServe (hkey l).2).trans i3⟩

/-! ## The commands -/

/-- A record that leaves the link changes its lane only. -/
theorem State.linkTake_fields (s : State) (l : Fin 3) (r : Rec) : (s.linkTake l r).assay = s.assay ∧ (s.linkTake l r).hub = s.hub ∧
    (s.linkTake l r).memctl = s.memctl ∧ s.stands (s.linkTake l r) ∧ ∀ g : Fld, (s.linkTake l r).get g = s.get g :=
  ⟨rfl, rfl, rfl, State.stands_quiet State.stands_refl (State.quiet_linkTake State.quiet_refl), fun _ => rfl⟩

/-- R24, R27: an entry that is done with is freed, whatever lists it. -/
theorem State.entryFree_done (h : ∀ e ∈ s.assay.writes, e.pair = p → e.seq = n → s.wDone e = true) :
    s.entryFree .write p n = s.updA fun a => { a with writes := a.writes.filter fun e => !(e.pair = p && e.seq = n) } := by
  have hf : (s.assay.writes.filter fun e => !(decide (e.pair = p) && decide (e.seq = n) && s.wDone e)) =
      s.assay.writes.filter fun e => !(decide (e.pair = p) && decide (e.seq = n)) := List.filter_congr fun e he => by
    by_cases h1 : e.pair = p
    · by_cases h2 : e.seq = n
      · simp [h1, h2, h e he h1 h2]
      · simp [h2]
    · simp [h1]
  show ({ s with assay := { s.assay with writes := s.assay.writes.filter _ } } : State) = _
  rw [hf]
  rfl

/-- Settles O20: the first record, the held one, the second of two voters and the third of three, and the freed entry, each by the lemma above. -/
theorem assayVotesOnWrites : Obligations.AssayVotesOnWrites := by
  refine ⟨fun l r s hk hl h2 => ⟨fun hw ho hu => ?_, fun hw ho => ?_, fun e m hw hu hm hv hne hno hp h0 => ⟨fun hr hwr hc ha hb hpw href => ?_, fun r' hr hd hn => ?_⟩⟩,
    fun l m k r r0 e s hk hl h3 hlm hlk _ hw hr he hd hu => ?_, fun p n s hh h => ?_⟩
  case refine_1 =>
    obtain ⟨ta, -, -, ts, -⟩ := s.linkTake_fields l r
    have e := (s.linkTake l r).wArrive_first_spec (l := l) ((State.wEnt_congr ta).trans hw) ho (by rw [State.stands_voters ts]; exact h2)
      ((State.unreleased_congr ta).trans (State.unreleased_nil.2 hu))
    have hq := State.quiet_occShow (s := (s.linkTake l r).updA fun a => { a with writes := a.writes ++ [(s.linkTake l r).wFirst l r] }) (p := r.pair) State.quiet_refl
    refine ⟨_, (s.linkTake l r).wFirst l r, (exec_writeRecordArrival hk hl).trans (congrArg Host.Outcome.next e), ?_, rfl, rfl, rfl, rfl, rfl,
      fun g hg => State.get_occShow hg⟩
    rw [State.quiet_assay hq]
    rfl
  case refine_2 =>
    have ta := (s.linkTake_fields l r).1
    obtain ⟨ha, hg⟩ := ((s.linkTake l r).updA fun a => { a with heldRecs := a.heldRecs ++ [(l, r)] }).holdNote_spec r.pair
    refine ⟨_, (exec_writeRecordArrival hk hl).trans (congrArg Host.Outcome.next ((s.linkTake l r).wArrive_held ((State.wEnt_congr ta).trans hw) ho)), ?_, ?_, hg⟩
    · rw [ha]
      rfl
    · rw [ha]
      rfl
  case refine_3 =>
    obtain ⟨ta, -, -, ts, tg⟩ := s.linkTake_fields l r
    obtain ⟨e', z1, z2, z3, z4, z5, z6, z7⟩ := (s.linkTake l r).wArrive_equal (l := l) ((State.wEnt_congr ta).trans hw) ((State.unreleased_congr ta).trans hu) hr hne
      (by rw [State.stands_voters ts]; exact hv) (by rw [State.stands_voters ts]; exact hm) ((State.rEnt_congr (by rw [ta])).trans hno)
      ((State.stands_passive ts).trans hp) ((tg _).trans h0) hwr ((State.stands_creditFree ts).trans hc) ha hb hpw
      ((State.sramRefusal_congr ts.1 rfl rfl rfl _ _ _ _).trans href)
    exact ⟨_, e', exec_writeRecordArrival hk hl, z1, z2, z3, z4, z5, z6, z7⟩
  case refine_4 =>
    obtain ⟨ta, -, -, ts, -⟩ := s.linkTake_fields l r
    obtain ⟨e', z1, z2, z3, z4⟩ := (s.linkTake l r).wArrive_differ (l := l) ((State.wEnt_congr ta).trans hw) ((State.unreleased_congr ta).trans hu) hr hne
      (by rw [State.stands_voters ts]; exact hv) (by rw [State.stands_voters ts]; exact hm) ((State.rEnt_congr (by rw [ta])).trans hno)
      ((State.stands_passive ts).trans hp) hd (by rw [State.stands_voters ts]; exact hn)
    exact ⟨_, e', exec_writeRecordArrival hk hl, z1, z2, z3, z4⟩
  case refine_5 =>
    obtain ⟨ta, -, -, ts, tg⟩ := s.linkTake_fields l r
    obtain ⟨z1, z2, z3⟩ := (s.linkTake l r).wArrive_third (l := l) (by rw [State.stands_voters ts]; exact h3) hlm hlk ((State.wEnt_congr ta).trans hw) hr he hd
      ((State.unreleased_congr ta).trans (State.unreleased_nil.2 hu))
    exact ⟨_, exec_writeRecordArrival hk hl, z1, z2.trans (by rw [tg]), z3⟩
  case refine_6 =>
    refine ⟨_, congrArg Host.Outcome.next ?_, rfl⟩
    rw [State.entryFree_done h]
    show State.each _ (List.filter _ s.assay.heldRecs) _ = _
    rw [hh]
    rfl

end Sys2Proof.Machine
end

section
/-! AssayReadsAndCheckpoints: read records and their capture (01 R25 to R27; 03 R80, R85). -/

namespace Sys2Proof.Machine

variable {s t u : State} {l m : Fin 3} {p : Fin 4} {n : Nat} {r : Rec}

/-! ## Read-match entries -/

theorem State.rEnt_some {e : REnt} (h : s.rEnt p n false = some e) : e.pair = p ∧ e.seq = n ∧ e.isAtomic = false := by
  have h1 := List.find?_some h
  simp only [Bool.and_eq_true, decide_eq_true_eq, beq_iff_eq] at h1
  exact ⟨h1.1.1, h1.1.2, h1.2⟩

theorem REnt.isAtomic_congr {e e' : REnt} (h : e'.first = e.first) : e'.isAtomic = e.isAtomic := by
  unfold REnt.isAtomic
  rw [h]

/-- A change of the entry of one read. -/
theorem State.rEnt_updR {f : REnt → REnt} (hf : ∀ e, (f e).pair = e.pair ∧ (f e).seq = e.seq ∧ (f e).first = e.first) :
    (s.updR p n false f).rEnt p n false = (s.rEnt p n false).map f := by
  have hc : ((fun e : REnt => decide (e.pair = p) && decide (e.seq = n) && (e.isAtomic == false)) ∘
      fun e => if e.pair = p ∧ e.seq = n ∧ e.isAtomic = false then f e else e) =
      fun e => decide (e.pair = p) && decide (e.seq = n) && (e.isAtomic == false) := by
    funext e
    simp only [Function.comp_apply]
    split
    · rw [(hf e).1, (hf e).2.1, REnt.isAtomic_congr (hf e).2.2]
    · rfl
  show List.find? _ (s.assay.reads.map _) = _
  rw [List.find?_map, hc]
  unfold State.rEnt
  cases hs : s.assay.reads.find? fun e => decide (e.pair = p) && decide (e.seq = n) && (e.isAtomic == false) with
  | none => rfl
  | some e =>
    obtain ⟨h1, h2, h3⟩ := State.rEnt_some (s := s) hs
    simp [h1, h2, h3]

/-! ## The first record of a read -/

/-- The entry a voter's first record takes. -/
def State.rFirst (s : State) (l : Fin 3) (r : Rec) : REnt :=
  { pair := r.pair, seq := r.seq, recs := [(l, r)], first := some r, capt := none, side := false, served := [], app := s.appNow,
    t0 := s.counter, held := false, lags := [(l, 0)] }

/-- R80: a voter's first read record takes an entry and captures nothing. -/
theorem State.rArrive_first (hk : r.kind = .read) (hv : l ∈ s.voters) (h2 : 2 ≤ s.voters.length) (h : s.rEnt r.pair r.seq false = none)
    (ho : s.occR r.pair < 64) : s.rArrive l r = (s.updA fun a => { a with reads := a.reads ++ [s.rFirst l r] }).occShow r.pair := by
  have hc : s.voters.contains l = true := by simpa using hv
  have he : s.rArrive l r = ((s.updA fun a => { a with reads := a.reads ++ [s.rFirst l r] }).occShow r.pair).rJudge r.pair r.seq := by
    unfold State.rArrive
    dsimp only
    rw [h]
    dsimp only
    rw [if_neg (Nat.not_le.2 ho), if_pos hc]
    rfl
  rw [he]
  generalize hz : (s.updA fun a => { a with reads := a.reads ++ [s.rFirst l r] }).occShow r.pair = z
  have hq : (s.updA fun a => { a with reads := a.reads ++ [s.rFirst l r] }).quiet z := hz ▸ State.quiet_occShow State.quiet_refl
  have hw : z.rEnt r.pair r.seq false = some (s.rFirst l r) := by
    have ha : z.assay.reads = s.assay.reads ++ [s.rFirst l r] := by rw [State.quiet_assay hq]; rfl
    unfold State.rEnt at h ⊢
    rw [ha, List.find?_append, h]
    simp [State.rFirst, REnt.isAtomic, hk]
  have hvot : z.voters = s.voters := (State.quiet_voters hq).trans rfl
  have hs : z.rServe r.pair r.seq = z := by
    unfold State.rServe
    rw [hw]
    rfl
  unfold State.rJudge
  rw [hw]
  dsimp only
  rw [show (s.rFirst l r).recs = [(l, r)] from rfl, z.agreed_single (l, r), State.split_single (l, r) (by rw [hvot]; exact h2), if_neg (by decide)]
  exact hs

theorem exec_readRecordArrival (hk : r.kind = .read) (hl : s.linkHeard l r = true) :
    exec (.readRecordArrival l r) s = .next ((s.linkTake l r).rArrive l { r with data := 0, cmp := 0 }) :=
  congrArg Host.Outcome.next (if_pos (by simp [hk, hl]))

/-- A record that leaves the link changes no core pair. -/
theorem State.pr_linkTake (s : State) (l : Fin 3) (r : Rec) (p : Fin 4) : (s.linkTake l r).pr l p = s.pr l p := by
  unfold State.linkTake State.updL State.pr State.ln
  dsimp only
  rw [Tri.get_set_same]

/-! ## The capture (R26, R85) -/

/-- The entry once its value is captured. -/
def REnt.capture (a : Ans) (side : Bool) (e : REnt) : REnt := { e with capt := some a, side := side, held := false }

/-- The lanes of an entry answered. -/
def REnt.serve (ls : List (Fin 3)) (e : REnt) : REnt := { e with served := e.served ++ ls, lags := e.lags.filter fun x => !ls.contains x.1 }

/-- The lanes whose record made a capture are answered. -/
theorem State.rServe_captured {e : REnt} {a : Ans} (hw : s.rEnt p n false = some e) (hf : e.first = some r) (hc : e.capt = some a) :
    ∃ ls lg, s.rServe p n = ((s.updR p n false (REnt.serve ls)).lagsNote p lg).each ls fun s l => s.hubAnswer l p false n a := by
  refine ⟨(e.recs.filter fun x => decide (x.2 = r) && !e.served.contains x.1).map (·.1), e.lags.filter fun x =>
    ((e.recs.filter fun x => decide (x.2 = r) && !e.served.contains x.1).map (·.1)).contains x.1, ?_⟩
  unfold State.rServe
  rw [hw]
  dsimp only
  rw [hf, hc]
  rfl

/-- A captured value is kept, whatever the answers do. -/
theorem State.captured_spec {e : REnt} {a : Ans} {side : Bool} (hw : s.rEnt p n false = some e) (hf : e.first = some r) :
    ∃ e', (s.captured p n a side).rEnt p n false = some e' ∧ e'.capt = some a ∧ e'.recs = e.recs ∧ e'.first = some r := by
  have h1 : (s.updR p n false (REnt.capture a side)).rEnt p n false = some (e.capture a side) := by
    rw [State.rEnt_updR (f := REnt.capture a side) fun e => ⟨rfl, rfl, rfl⟩, hw]
    rfl
  obtain ⟨ls, lg, he⟩ := State.rServe_captured h1 hf rfl
  have hq : ((s.updR p n false (REnt.capture a side)).updR p n false (REnt.serve ls)).quiet
      ((((s.updR p n false (REnt.capture a side)).updR p n false (REnt.serve ls)).lagsNote p lg).each ls fun s l => s.hubAnswer l p false n a) :=
    State.quiet_each (State.quiet_lagsNote State.quiet_refl) fun _ _ hu => State.quiet_hubAnswer hu
  refine ⟨(e.capture a side).serve ls, ?_, rfl, rfl, hf⟩
  show ((s.updR p n false (REnt.capture a side)).rServe p n).rEnt p n false = _
  rw [he, State.rEnt_congr (congrArg AssayS.reads (State.quiet_assay hq)), State.rEnt_updR (f := REnt.serve ls) fun e => ⟨rfl, rfl, rfl⟩, h1]
  rfl

theorem State.sramLoad_hub {a : Acc} {off k : Nat} (hr : s.sramRefusal a off k 0 = none) : s.sramLoad a off k = (s, .value (s.hubNat off k)) := by
  unfold State.sramLoad
  rw [hr]

/-- A read of hub SRAM that is allowed gives its value. -/
theorem State.hubLoadRec_sram (ha : 0x50000000 ≤ r.addr) (hb : r.addr + r.len ≤ 0x51000000) (hp : s.power = .run)
    (hr : s.sramRefusal (recAcc r) (r.addr - 0x50000000) r.len 0 = none) : s.hubLoadRec r = (s, .value (s.hubNat (r.addr - 0x50000000) r.len)) := by
  have h1 : hubAddr r.addr r.len = true := by
    unfold hubAddr
    simp only [Bool.or_eq_true, Bool.and_eq_true, decide_eq_true_eq]
    omega
  have h2 : ¬ r.addr < 0x50000000 := by omega
  unfold State.hubLoadRec State.hubLoad
  rw [h1, if_pos rfl, if_neg h2, if_neg (by simp [hp])]
  exact State.sramLoad_hub hr

/-- R26: the pair's oldest read that is not captured takes the value hub SRAM has. -/
theorem State.captureTry_spec {e : REnt} (hw : s.rEnt p n false = some e) (hf : e.first = some r) (hc : e.capt = none) (ho : s.captureOpen p n = true)
    (hcr : s.creditFree (recAcc r) = true) (hp : s.power = .run) (ha : 0x50000000 ≤ r.addr) (hb : r.addr + r.len ≤ 0x51000000)
    (hr : s.sramRefusal (recAcc r) (r.addr - 0x50000000) r.len 0 = none) (hl : r.level ≠ 0) :
    ∃ e', (s.captureTry p n).rEnt p n false = some e' ∧ e'.capt = some (.value (s.hubNat (r.addr - 0x50000000) r.len)) ∧ e'.recs = e.recs ∧
      e'.first = some r := by
  obtain ⟨a1, -, a3, a4, -, a6⟩ := s.access_spec (recAcc r) (n + 2 ^ 16)
  have he : s.captureTry p n = (((s.creditTake (recAcc r) (n + 2 ^ 16)).noteAccess (recAcc r)).hubLoadRec r).1.captured p n
      (((s.creditTake (recAcc r) (n + 2 ^ 16)).noteAccess (recAcc r)).hubLoadRec r).2
      (recEffect r (((s.creditTake (recAcc r) (n + 2 ^ 16)).noteAccess (recAcc r)).hubLoadRec r).2) := by
    unfold State.captureTry
    rw [hw]
    dsimp only
    rw [hf]
    dsimp only
    rw [hc, ho, hcr, if_neg (by decide), if_neg (by decide)]
  rw [he]
  generalize (s.creditTake (recAcc r) (n + 2 ^ 16)).noteAccess (recAcc r) = z at a1 a3 a4 a6 ⊢
  have hn : z.hubNat (r.addr - 0x50000000) r.len = s.hubNat (r.addr - 0x50000000) r.len := by
    unfold State.hubNat State.hubRead
    rw [a4 hl]
  rw [State.hubLoadRec_sram ha hb (a3.trans hp) ((a6 _ _ _).trans hr), hn]
  exact State.captured_spec ((State.rEnt_congr (congrArg AssayS.reads a1)).trans hw) hf

/-- R85: a value captured stays. -/
theorem State.captureTry_again {e : REnt} {a : Ans} (hw : s.rEnt p n false = some e) (hf : e.first = some r) (hc : e.capt = some a) : s.captureTry p n = s := by
  unfold State.captureTry
  rw [hw]
  dsimp only
  rw [hf]
  dsimp only
  rw [hc]
  rfl

end Sys2Proof.Machine
end

section
/-! AssayReadsAndCheckpoints: checkpoint reports (03 R90, R91, R92, R95; 05 R134). -/

namespace Sys2Proof.Machine

variable {s t u : State} {l m : Fin 3} {p : Fin 4} {k : Nat} {c c' : Ckpt}

/-! ## Checkpoint entries of a pair -/

def State.ckptsOf (s : State) (p : Fin 4) : List CEnt := s.assay.ckpts.filter fun e => e.pair = p

theorem State.ckptsOf_congr (h : t.assay = s.assay) : t.ckptsOf p = s.ckptsOf p := by
  unfold State.ckptsOf
  rw [h]

theorem State.mem_ckptsOf {e : CEnt} : e ∈ s.ckptsOf p ↔ e ∈ s.assay.ckpts ∧ e.pair = p := by
  unfold State.ckptsOf
  rw [List.mem_filter, decide_eq_true_eq]

theorem State.cEnt_eq (s : State) (p : Fin 4) (k : Nat) : s.cEnt p k = (s.ckptsOf p).find? fun e => e.count = k := by
  unfold State.cEnt State.ckptsOf
  rw [List.find?_filter]
  simp

theorem State.cEnt_one {e : CEnt} (h : s.ckptsOf p = [e]) (hk : e.count = k) : s.cEnt p k = some e := by
  rw [State.cEnt_eq, h]
  simp [hk]

/-- Earlier counts of the pair wait for no vote. -/
theorem State.noneBelow (h : ∀ e ∈ s.ckptsOf p, e.count = k) (f : CEnt → Bool) :
    (s.assay.ckpts.filter fun e => decide (e.pair = p) && decide (e.count < k) && f e) = [] := by
  refine List.filter_eq_nil_iff.2 fun e he hn => ?_
  simp only [Bool.and_eq_true, decide_eq_true_eq] at hn
  have := h e (State.mem_ckptsOf.2 ⟨he, hn.1.1⟩)
  omega

/-- A change of the one entry of a pair. -/
theorem State.ckptsOf_updCk {e : CEnt} {f : CEnt → CEnt} (hf : ∀ e, (f e).pair = e.pair) (h : s.ckptsOf p = [e]) (hk : e.count = k) :
    (s.updCk p k f).ckptsOf p = [f e] := by
  have hp : e.pair = p := (State.mem_ckptsOf.1 (by rw [h]; exact List.mem_singleton_self e)).2
  have hc : ((fun e : CEnt => decide (e.pair = p)) ∘ fun e => if e.pair = p ∧ e.count = k then f e else e) = fun e => decide (e.pair = p) := by
    funext e
    simp only [Function.comp_apply]
    split
    · rw [hf]
    · rfl
  show List.filter _ (s.assay.ckpts.map _) = _
  rw [List.filter_map, hc]
  show (s.ckptsOf p).map _ = _
  rw [h]
  simp [hp, hk]

/-- Where no lane has reported a higher count, the votes are the reports. -/
theorem State.ckptVotes_reps {e : CEnt} (h : ∀ m, (s.assay.high.get m).get e.pair ≤ e.count) : s.ckptVotes e = e.reps.map fun r => (r.1, some (ckptKey r.2)) := by
  have hn : (s.voters.filter fun l => !(e.reps.any fun r => decide (r.1 = l)) && decide (e.count < (s.assay.high.get l).get e.pair)) = [] := by
    refine List.filter_eq_nil_iff.2 fun l _ => ?_
    have := h l
    simp only [Bool.and_eq_true, decide_eq_true_eq, not_and]
    omega
  unfold State.ckptVotes
  rw [hn]
  simp

theorem State.ckptVotes_congr {e : CEnt} (hv : t.voters = s.voters) (hh : t.assay.high = s.assay.high) : t.ckptVotes e = s.ckptVotes e := by
  unfold State.ckptVotes
  rw [hv, hh]

theorem ckptKey_none (h : c.pace = none) : ckptKey c = (c.digest, none) := by
  unfold ckptKey
  rw [h]
  rfl

/-! ## The vote of a count -/

theorem State.voters_updCk (s : State) (p : Fin 4) (k : Nat) (f : CEnt → CEnt) : (s.updCk p k f).voters = s.voters := rfl

theorem State.cJudge_open {e : CEnt} (hw : s.cEnt p k = some e) (ha : s.agreed (s.ckptVotes e) = none) :
    s.cJudge p k = if s.split (s.ckptVotes e) then s.noMajority e.at else s := by
  unfold State.cJudge
  rw [hw]
  dsimp only
  rw [ha]

/-- What a match makes of an admission's confirmation (04 R119) is the lane manager's. -/
theorem State.ckptConf_fields (s : State) (p : Fin 4) (k : Nat) : (s.ckptConf p k).regs = s.regs ∧ (s.ckptConf p k).assay = s.assay := by
  unfold State.ckptConf
  split
  · dsimp only
    split
    · exact ⟨rfl, rfl⟩
    · exact ⟨rfl, rfl⟩
  · exact ⟨rfl, rfl⟩

def AssayS.freeEmpty (a : AssayS) : AssayS := { a with ckpts := a.ckpts.filter fun e => !e.reps.isEmpty }

/-- Votes that all agree: lags are noted, and no lane diverges. -/
theorem State.cJudge_agreed {e : CEnt} {v : Option (BitVec 64 × Option Nat)} (hw : s.cEnt p k = some e) (ha : s.agreed (s.ckptVotes e) = some v)
    (hv : ∀ x ∈ s.ckptVotes e, x.2 = v) : ∃ (ls : List (Fin 3 × Nat)) (f : CEnt → CEnt), (∀ e, (f e).pair = e.pair ∧ (f e).count = e.count ∧ (f e).reps = e.reps) ∧
      s.cJudge p k = (((s.lagsNote p ls).updCk p k f).updA AssayS.freeEmpty).ckptConf p k := by
  have hf : ((s.ckptVotes e).filter fun x => decide (x.2 ≠ v)) = [] := List.filter_eq_nil_iff.2 fun x hx => by simp [hv x hx]
  refine ⟨e.lags.filter fun x => e.reps.any fun y => decide (y.1 = x.1 ∧ some (ckptKey y.2) = v),
    fun e' => { e' with lags := e'.lags.filter fun x => !(e.reps.any fun y => decide (y.1 = x.1 ∧ some (ckptKey y.2) = v)) }, fun e => ⟨rfl, rfl, rfl⟩, ?_⟩
  unfold State.cJudge
  rw [hw]
  dsimp only
  rw [ha]
  dsimp only
  have hc : ∀ ls f, ((s.lagsNote p ls).updCk p k f).ckptVotes e = s.ckptVotes e := fun ls f => by
    have hq : s.quiet (s.lagsNote p ls) := State.quiet_lagsNote State.quiet_refl
    have hh : (s.lagsNote p ls).assay.high = s.assay.high := congrArg AssayS.high (State.quiet_assay hq)
    exact State.ckptVotes_congr ((State.voters_updCk _ _ _ _).trans (State.quiet_voters hq)) hh
  rw [hc, hf]
  rfl

/-! ## What follows the vote -/

/-- R95: the pair's last match, from a list of its entries. -/
def State.ckptFull (s : State) (e : CEnt) : Option (Nat × Nat) :=
  match s.mine e.reps with
  | r :: t => if t.length + 1 = s.voters.length ∧ t.all (fun x => decide (ckptKey x.2 = ckptKey r.2)) then some (e.count, r.2.digest.toNat) else none
  | [] => none

def State.ckptBest (s : State) (b : Nat × Nat) (e : CEnt) : Nat × Nat :=
  match s.ckptFull e with
  | some x => if b.1 ≤ x.1 then x else b
  | none => b

theorem State.ckptLast_eq (s : State) (p : Fin 4) :
    s.ckptLast p = s.updA fun a => { a with last := a.last.set p ((s.ckptsOf p).foldl s.ckptBest (s.assay.last.get p)) } := rfl

/-- What the entry of a count does once its vote is judged: the Courier takes a match, and the last match and its stamps follow. -/
def State.ckptAfter (s : State) (l : Fin 3) (p : Fin 4) (k : Nat) (before : Bool) : State :=
  let s := match s.cEnt p k with
    | some e =>
      let now := (s.agreed (s.ckptVotes e)).isSome
      let s := s.on (now && !before) fun s => s.paceMatched p e
      s.startMatched p e
    | none => s
  let s := s.each (s.assay.ckpts.filter fun e => e.pair = p && decide (e.count < k) && !(e.reps.any fun r => r.1 = l)) fun s e => s.cJudge p e.count
  (s.ckptLast p).stampsFree p

theorem State.ckptJoined_eq (s : State) (l : Fin 3) (p : Fin 4) (k : Nat) (before : Bool) : s.ckptJoined l p k before = (s.cJudge p k).ckptAfter l p k before := rfl

/-- A vote that agrees on no PACE forms no release. -/
theorem State.paceMatched_none {e : CEnt} {d : BitVec 64} (h : s.agreed (s.ckptVotes e) = some (some (d, none))) : s.paceMatched p e = s := by
  unfold State.paceMatched
  rw [h]

theorem State.quiet_startMatched (e : CEnt) : s.quiet (s.startMatched p e) := by
  unfold State.startMatched
  exact State.quiet_ite (State.quiet_set State.quiet_refl (by revert p; unfold voteKey; decide)) State.quiet_refl

theorem State.startMatched_none {e : CEnt} (h : s.agreed (s.ckptVotes e) = none) : s.startMatched p e = s := by
  unfold State.startMatched
  rw [h]
  exact if_neg fun n => absurd n.2.2.1 (by decide)

/-- The pair's one entry, whose vote is open. -/
theorem State.ckptAfter_open {e : CEnt} (h : s.ckptsOf p = [e]) (hk : e.count = k) (ha : s.agreed (s.ckptVotes e) = none) (before : Bool) :
    s.ckptAfter l p k before = (s.ckptLast p).stampsFree p := by
  unfold State.ckptAfter
  dsimp only
  rw [State.cEnt_one h hk]
  dsimp only
  rw [ha, show s.on (Option.isSome none && !before) (fun s => s.paceMatched p e) = s from rfl, State.startMatched_none ha, State.noneBelow]
  · rfl
  · rw [h]
    intro e' he
    rw [List.mem_singleton.1 he, hk]

/-- The same where the vote has agreed on a report without PACE. -/
theorem State.ckptAfter_agreed {e : CEnt} {d : BitVec 64} (h : s.ckptsOf p = [e]) (hk : e.count = k) (ha : s.agreed (s.ckptVotes e) = some (some (d, none)))
    (before : Bool) : s.ckptAfter l p k before = ((s.startMatched p e).ckptLast p).stampsFree p := by
  have hq : s.quiet (s.startMatched p e) := State.quiet_startMatched e
  have hon : ∀ b : Bool, s.on b (fun s => s.paceMatched p e) = s := fun b => by
    unfold State.on
    split
    · exact State.paceMatched_none ha
    · rfl
  unfold State.ckptAfter
  dsimp only
  rw [State.cEnt_one h hk]
  dsimp only
  rw [hon, State.noneBelow]
  · rfl
  · rw [State.ckptsOf_congr (State.quiet_assay hq), h]
    intro e' he
    rw [List.mem_singleton.1 he, hk]

/-! ## H of a pair (05 R134) -/

theorem get64_set64_mod (s : State) {lo hi : Fld} (v : Nat) (hlo : lo.w = 32) (hhi : hi.w = 32) (h : lo.key ≠ hi.key) :
    (s.set64 lo hi v).get64 lo hi = v % 2 ^ 64 := by
  unfold State.set64 State.get64
  rw [State.get_set_same, State.get_set_ne _ h, State.get_set_same, hlo, hhi]
  omega

/-- The state that knows a lane's report of a count. -/
theorem State.ckptHigh_spec (hv : l ∈ s.voters) (hh : ∀ m, (s.assay.high.get m).get p ≤ k) : let z := s.ckptHigh l p k
    (∀ m, (z.assay.high.get m).get p ≤ k) ∧ z.assay.ckpts = s.assay.ckpts ∧ z.assay.last = s.assay.last ∧ z.hub = s.hub ∧
      z.courH p = max (s.courH p) k % 2 ^ 64 ∧ s.stands z := by
  have hkeys : ∀ p : Fin 4, (COUR_HIGH_LO_0 p.val).key ≠ (COUR_HIGH_HI_0 p.val).key ∧ ¬ voteKey (COUR_HIGH_LO_0 p.val).key ∧
      ¬ voteKey (COUR_HIGH_HI_0 p.val).key := by
    unfold voteKey
    decide
  have hkey := hkeys p
  intro z
  have hc : s.voters.contains l = true := by simpa using hv
  have hz : z = (s.updA fun a => { a with high := a.high.set l ((a.high.get l).set p (max ((a.high.get l).get p) k)) }).set64 (COUR_HIGH_LO_0 p.val)
      (COUR_HIGH_HI_0 p.val) (max (s.courH p) k) := if_pos hc
  rw [hz]
  refine ⟨fun m => ?_, rfl, rfl, rfl, get64_set64_mod _ _ rfl rfl hkey.1, ?_⟩
  · show ((s.assay.high.set l ((s.assay.high.get l).set p (max ((s.assay.high.get l).get p) k))).get m).get p ≤ k
    by_cases h : m = l
    · rw [h, Tri.get_set_same, Quad.get_set_same]
      exact Nat.max_le.2 ⟨hh l, Nat.le_refl k⟩
    · rw [Tri.get_set_ne h]
      exact hh m
  · exact State.stands_quiet (State.stands_updA State.stands_refl)
      (State.quiet_set (State.quiet_set State.quiet_refl hkey.2.1) hkey.2.2)

end Sys2Proof.Machine
end

section
/-! AssayReadsAndCheckpoints: the first and the second report of a count (03 R90, R91, R95; 05 R134). -/

namespace Sys2Proof.Machine

variable {s t u : State} {l m : Fin 3} {p : Fin 4} {k : Nat} {c c' : Ckpt}

/-! ## H of a pair stays -/

theorem State.courH_congr (hl : t.get (COUR_HIGH_LO_0 p.val) = s.get (COUR_HIGH_LO_0 p.val)) (hh : t.get (COUR_HIGH_HI_0 p.val) = s.get (COUR_HIGH_HI_0 p.val)) :
    t.courH p = s.courH p := by
  unfold State.courH State.get64
  rw [hl, hh]

theorem State.courH_courShow (s : State) (p : Fin 4) : (s.courShow p).courH p = s.courH p := by
  unfold State.courShow State.raiseTo State.setB
  refine State.courH_congr ?_ ?_ <;> (rw [State.get_set_ne, State.get_set_ne, State.get_set_ne] <;> (revert p; decide))

theorem State.courH_stampsFree (s : State) (p : Fin 4) : (s.stampsFree p).courH p = s.courH p := by
  unfold State.stampsFree
  exact State.courH_courShow _ p

theorem State.courH_occShow (s : State) (p : Fin 4) : (s.occShow p).courH p = s.courH p :=
  State.courH_congr (State.get_occShow (by unfold Fld.pageOf; revert p; decide)) (State.get_occShow (by unfold Fld.pageOf; revert p; decide))

/-! ## The first report of a count -/

/-- The entry a first report takes. -/
def State.cFirst (s : State) (l : Fin 3) (p : Fin 4) (c : Ckpt) : CEnt :=
  { pair := p, count := c.count, reps := [(l, c)], app := s.appNow, t0 := s.counter, lags := [(l, 0)] }

theorem State.cArrive_first (h : s.ckptsOf p = []) : s.cArrive l p c =
    (((s.ckptHigh l p c.count).updA fun a => { a with ckpts := a.ckpts ++ [s.cFirst l p c] }).occShow p).ckptJoined l p c.count false := by
  have hn : s.cEnt p c.count = none := by
    rw [State.cEnt_eq, h]
    rfl
  have ho : ¬ 1024 ≤ s.occK p := by
    unfold State.occK
    rw [show (s.assay.ckpts.filter fun e => decide (e.pair = p)) = [] from h]
    decide
  unfold State.cArrive
  rw [hn]
  dsimp only
  rw [if_neg ho]
  rfl

/-- R90, R134: the first report of a count takes an entry and raises H. -/
theorem State.cArrive_first_spec (hv : l ∈ s.voters) (h2 : 2 ≤ s.voters.length) (hh : ∀ m, (s.assay.high.get m).get p ≤ c.count) (h : s.ckptsOf p = []) :
    let z := s.cArrive l p c
    z.assay.ckpts = s.assay.ckpts ++ [s.cFirst l p c] ∧ z.courH p = max (s.courH p) c.count % 2 ^ 64 ∧ z.hub = s.hub := by
  obtain ⟨y1, y2, -, y4, y5, y6⟩ := State.ckptHigh_spec hv hh
  dsimp only
  rw [State.cArrive_first h, State.ckptJoined_eq]
  generalize s.ckptHigh l p c.count = y at y1 y2 y4 y5 y6 ⊢
  generalize hu : (y.updA fun a => { a with ckpts := a.ckpts ++ [s.cFirst l p c] }).occShow p = u
  have hq : (y.updA fun a => { a with ckpts := a.ckpts ++ [s.cFirst l p c] }).quiet u := hu ▸ State.quiet_occShow State.quiet_refl
  have hua : u.assay = { y.assay with ckpts := s.assay.ckpts ++ [s.cFirst l p c] } := by
    rw [State.quiet_assay hq, ← y2]
    rfl
  have hvot : u.voters = s.voters := (State.quiet_voters hq).trans (State.stands_voters (State.stands_updA y6))
  have huh : u.courH p = max (s.courH p) c.count % 2 ^ 64 := by
    rw [← hu, State.courH_occShow]
    exact y5
  have hub : u.hub = s.hub := by
    rw [← hu]
    exact y4
  have hof : u.ckptsOf p = [s.cFirst l p c] := by
    unfold State.ckptsOf at h ⊢
    rw [hua, List.filter_append, h]
    simp [State.cFirst]
  have hk : (s.cFirst l p c).count = c.count := rfl
  have hvotes : u.ckptVotes (s.cFirst l p c) = [(l, some (ckptKey c))] := State.ckptVotes_reps fun m => by
    rw [hua]
    exact y1 m
  have hag : u.agreed (u.ckptVotes (s.cFirst l p c)) = none := by
    rw [hvotes]
    exact u.agreed_single _
  have hj : u.cJudge p c.count = u := by
    rw [State.cJudge_open (State.cEnt_one hof hk) hag, hvotes, State.split_single _ (by rw [hvot]; exact h2)]
    rfl
  rw [hj, State.ckptAfter_open hof hk hag]
  have hs : (u.ckptLast p).quiet ((u.ckptLast p).stampsFree p) := State.quiet_stampsFree State.quiet_refl
  refine ⟨?_, ?_, hub⟩
  · rw [State.quiet_assay hs]
    show u.assay.ckpts = _
    rw [hua]
  · rw [State.courH_stampsFree]
    exact huh

/-! ## The second report of two voters -/

/-- The entry with one report more. -/
def State.ckptJoin (s : State) (l : Fin 3) (c : Ckpt) (e : CEnt) : CEnt := { e with reps := e.reps ++ [(l, c)], lags := e.lags ++ [(l, s.lagOf e.t0)] }

theorem State.cArrive_joined {e : CEnt} (h : s.cEnt p c.count = some e) (hn : ∀ x ∈ e.reps, x.1 ≠ l) : s.cArrive l p c =
    ((s.ckptHigh l p c.count).updCk p c.count (s.ckptJoin l c)).ckptJoined l p c.count (s.agreed (s.ckptVotes e)).isSome := by
  have ha : ¬ (e.reps.any fun x => decide (x.1 = l)) = true := by
    rw [List.any_eq_true]
    rintro ⟨x, hx, hd⟩
    exact hn x hx (of_decide_eq_true hd)
  unfold State.cArrive
  rw [h]
  dsimp only
  rw [if_neg ha]
  rfl

/-- A second report joins the pair's one entry. -/
theorem State.cArrive_second {e : CEnt} (hv : l ∈ s.voters) (hh : ∀ m, (s.assay.high.get m).get p ≤ c.count) (h : s.ckptsOf p = [e]) (hk : e.count = c.count)
    (hr : e.reps = [(m, c')]) (hm : m ≠ l) : ∃ (z : State) (e' : CEnt) (b : Bool), s.stands z ∧ z.assay.last = s.assay.last ∧ z.ckptsOf p = [e'] ∧
      e'.count = c.count ∧ e'.reps = [(m, c'), (l, c)] ∧ z.ckptVotes e' = [(m, some (ckptKey c')), (l, some (ckptKey c))] ∧
      s.cArrive l p c = (z.cJudge p c.count).ckptAfter l p c.count b := by
  obtain ⟨y1, y2, y3, -, -, y6⟩ := State.ckptHigh_spec hv hh
  have hp : e.pair = p := (State.mem_ckptsOf.1 (by rw [h]; exact List.mem_singleton_self e)).2
  have hrep : (s.ckptJoin l c e).reps = [(m, c'), (l, c)] := by
    show e.reps ++ _ = _
    rw [hr]
    rfl
  rw [State.cArrive_joined (State.cEnt_one h hk) (fun x hx => by rw [hr, List.mem_singleton] at hx; rw [hx]; exact hm), State.ckptJoined_eq]
  generalize s.ckptHigh l p c.count = y at y1 y2 y3 y6 ⊢
  have hof : y.ckptsOf p = [e] := by
    unfold State.ckptsOf at h ⊢
    rw [y2, h]
  have hvotes : (y.updCk p c.count (s.ckptJoin l c)).ckptVotes (s.ckptJoin l c e) = [(m, some (ckptKey c')), (l, some (ckptKey c))] := by
    refine (State.ckptVotes_reps fun m => ?_).trans (by rw [hrep]; rfl)
    show (y.assay.high.get m).get e.pair ≤ e.count
    rw [hp, hk]
    exact y1 m
  exact ⟨y.updCk p c.count (s.ckptJoin l c), s.ckptJoin l c e, (s.agreed (s.ckptVotes e)).isSome, State.stands_updA y6, y3,
    State.ckptsOf_updCk (f := s.ckptJoin l c) (fun e => rfl) hof hk, hk, hrep, hvotes, rfl⟩

/-- The entries once an agreed vote is judged. -/
theorem State.cJudge_agreed_spec {e : CEnt} {v : Option (BitVec 64 × Option Nat)} (h : s.ckptsOf p = [e]) (hk : e.count = k) (hr : e.reps ≠ [])
    (ha : s.agreed (s.ckptVotes e) = some v) (hv : ∀ x ∈ s.ckptVotes e, x.2 = v) : let y := s.cJudge p k
    ∃ e', y.ckptsOf p = [e'] ∧ e'.count = e.count ∧ e'.pair = e.pair ∧ e'.reps = e.reps ∧ y.assay.last = s.assay.last ∧ y.assay.high = s.assay.high ∧
      ∀ g : Fld, voteKey g.key → y.get g = s.get g := by
  obtain ⟨ls, f, hf, hj⟩ := State.cJudge_agreed (State.cEnt_one h hk) ha hv
  have hq : s.quiet (s.lagsNote p ls) := State.quiet_lagsNote State.quiet_refl
  have hla : (s.lagsNote p ls).assay = s.assay := State.quiet_assay hq
  have hlg := hq.2
  dsimp only
  rw [hj]
  generalize s.lagsNote p ls = w at hla hlg ⊢
  obtain ⟨c1, c2⟩ := ((w.updCk p k f).updA AssayS.freeEmpty).ckptConf_fields p k
  have hof : (w.updCk p k f).ckptsOf p = [f e] := State.ckptsOf_updCk (fun e => (hf e).1) ((State.ckptsOf_congr hla).trans h) hk
  refine ⟨f e, ?_, (hf e).2.1, (hf e).1, (hf e).2.2, ?_, ?_, fun g hg => ?_⟩
  · rw [State.ckptsOf_congr c2]
    show ((w.updCk p k f).assay.ckpts.filter fun e => !e.reps.isEmpty).filter (fun e => decide (e.pair = p)) = _
    rw [List.filter_comm, show (w.updCk p k f).assay.ckpts.filter (fun e => decide (e.pair = p)) = [f e] from hof]
    simp [(hf e).2.2, hr]
  · rw [c2]
    show w.assay.last = _
    rw [hla]
  · rw [c2]
    show w.assay.high = _
    rw [hla]
  · refine Eq.trans ?_ (hlg g hg)
    unfold State.get
    rw [c1]
    rfl

/-- R95: equal reports of all voters are the pair's last match. -/
theorem State.ckptLast_pair {e : CEnt} (h2 : s.voters.length = 2) (hl : l ∈ s.voters) (hm : m ∈ s.voters) (h : s.ckptsOf p = [e])
    (hr : e.reps = [(m, c'), (l, c)]) (hc : ckptKey c' = ckptKey c) (hb : (s.assay.last.get p).1 ≤ e.count) :
    (s.ckptLast p).assay.last.get p = (e.count, c'.digest.toNat) := by
  have hf : s.ckptFull e = some (e.count, c'.digest.toNat) := by
    unfold State.ckptFull
    rw [hr, State.mine_pair hl hm]
    simp [h2, hc]
  rw [State.ckptLast_eq, h]
  show (s.assay.last.set p (s.ckptBest (s.assay.last.get p) e)).get p = _
  rw [Quad.get_set_same]
  unfold State.ckptBest
  rw [hf]
  exact if_pos hb

/-- R91, R95: the equal report of the second voter. -/
theorem State.cArrive_equal {e : CEnt} (h2 : s.voters.length = 2) (hl : l ∈ s.voters) (hm : m ∈ s.voters) (hml : m ≠ l)
    (hh : ∀ m, (s.assay.high.get m).get p ≤ c.count) (h : s.ckptsOf p = [e]) (hk : e.count = c.count) (hr : e.reps = [(m, c')])
    (hc : c.pace = none) (hc' : c'.pace = none) (hb : (s.assay.last.get p).1 ≤ c.count) (hd : c'.digest = c.digest) : let z := s.cArrive l p c
    z.assay.last.get p = (c.count, c.digest.toNat) ∧ z.get ASSAY_voters = s.get ASSAY_voters := by
  obtain ⟨z, e1, b, zs, zl, zof, zk, zr, zv, he⟩ := State.cArrive_second hl hh h hk hr hml
  have hkey : ckptKey c' = ckptKey c := by rw [ckptKey_none hc, ckptKey_none hc', hd]
  have hvz : z.voters = s.voters := State.stands_voters zs
  rw [hkey, ckptKey_none hc] at zv
  have hag : z.agreed (z.ckptVotes e1) = some (some (c.digest, none)) := by
    rw [zv]
    exact State.agreed_pair (by rw [hvz]; exact hl) (by rw [hvz]; exact hm) hml.symm
  obtain ⟨e2, yof, yk, yp, yr, yl, yh, yg⟩ := State.cJudge_agreed_spec zof zk (by rw [zr]; exact List.cons_ne_nil _ _) hag fun x hx => by
    rw [zv] at hx
    simp only [List.mem_cons, List.not_mem_nil, or_false] at hx
    rcases hx with hx | hx <;> rw [hx]
  dsimp only
  rw [he]
  generalize z.cJudge p c.count = y at yof yl yh yg ⊢
  have hvy : y.voters = z.voters := State.voters_congr (yg _ (.inl rfl)) fun l => yg (laneField l) (by revert l; unfold voteKey; decide)
  have hvotes : y.ckptVotes e2 = z.ckptVotes e1 := by
    unfold State.ckptVotes
    rw [yr, yk, yp, yh, hvy]
  rw [State.ckptAfter_agreed yof (yk.trans zk) (by rw [hvotes, State.agreed_congr hvy]; exact hag) b]
  have hw : y.quiet (y.startMatched p e2) := State.quiet_startMatched e2
  generalize y.startMatched p e2 = w at hw ⊢
  have hvw : w.voters = s.voters := (State.quiet_voters hw).trans (hvy.trans hvz)
  have hlast : w.assay.last = s.assay.last := by rw [State.quiet_assay hw, yl, zl]
  have hs : (w.ckptLast p).quiet ((w.ckptLast p).stampsFree p) := State.quiet_stampsFree State.quiet_refl
  constructor
  · rw [State.quiet_assay hs, State.ckptLast_pair (l := l) (m := m) (by rw [hvw]; exact h2) (by rw [hvw]; exact hl) (by rw [hvw]; exact hm)
      ((State.ckptsOf_congr (State.quiet_assay hw)).trans yof) (yr.trans zr) hkey (by rw [hlast, yk, zk]; exact hb), yk, zk, hd]
  · exact (hs.2 _ (.inl rfl)).trans ((hw.2 _ (.inl rfl)).trans ((yg _ (.inl rfl)).trans (zs.1 _ (.inl rfl))))

/-- A passive module's voters are those of before. -/
theorem State.voters_assayPassive (s : State) (kind cause : Nat) (d : DivAt) : (s.assayPassive kind cause d).voters = s.voters := by
  have h : s.sameLm (s.assayPassive kind cause d) := State.sameLm_assayPassive State.sameLm_refl
  exact State.voters_congr (h.1 _ (by unfold lmKey; decide)) fun l => h.1 (laneField l) (by revert l; unfold lmKey; decide)

/-- R91: of two voters, differing reports make the module passive. -/
theorem State.cArrive_differ {e : CEnt} (h2 : s.voters.length = 2) (hl : l ∈ s.voters) (hm : m ∈ s.voters) (hml : m ≠ l)
    (hh : ∀ m, (s.assay.high.get m).get p ≤ c.count) (h : s.ckptsOf p = [e]) (hk : e.count = c.count) (hr : e.reps = [(m, c')])
    (hd : c'.digest ≠ c.digest) (hp : s.passive = false) : (s.cArrive l p c).passive = true ∧ (s.cArrive l p c).aoCause = 6 := by
  obtain ⟨z, e1, b, zs, -, zof, zk, -, zv, he⟩ := State.cArrive_second hl hh h hk hr hml
  have hkey : some (ckptKey c') ≠ some (ckptKey c) := fun n => hd (congrArg Prod.fst (Option.some.inj n))
  have hvz : z.voters = s.voters := State.stands_voters zs
  have hag : z.agreed (z.ckptVotes e1) = none := by
    rw [zv]
    exact State.agreed_pair_ne (by rw [hvz]; exact hl) (by rw [hvz]; exact hm) hkey
  have hsp : z.split (z.ckptVotes e1) = true := by
    rw [zv]
    exact State.split_pair (by rw [hvz]; exact hl) (by rw [hvz]; exact hm) hkey (by rw [hvz]; exact h2)
  have hj : z.cJudge p c.count = z.assayPassive 9 6 e1.at := by
    rw [State.cJudge_open (State.cEnt_one zof zk) hag, if_pos hsp]
    unfold State.noMajority
    rw [hvz, if_pos h2]
  obtain ⟨p1, p2⟩ := State.assayPassive_spec 9 6 e1.at ((State.stands_passive zs).trans hp)
  have xa : (z.assayPassive 9 6 e1.at).assay = z.assay := State.sameA_assayPassive State.sameA_refl
  have xv := z.voters_assayPassive 9 6 e1.at
  rw [he, hj]
  generalize z.assayPassive 9 6 e1.at = x at p1 p2 xa xv ⊢
  rw [State.ckptAfter_open ((State.ckptsOf_congr xa).trans zof) zk
    (by rw [State.ckptVotes_congr xv (congrArg AssayS.high xa), State.agreed_congr xv]; exact hag)]
  have hs : (x.ckptLast p).quiet ((x.ckptLast p).stampsFree p) := State.quiet_stampsFree State.quiet_refl
  exact ⟨(State.quiet_passive hs).trans p1, (State.quiet_rest hs).2.2.1.trans p2⟩

end Sys2Proof.Machine
end

section
/-! AssayReadsAndCheckpoints: lateness (01 R22, R27; 03 R92), and the commands. -/

namespace Sys2Proof.Machine

variable {s t u : State} {l m : Fin 3} {p : Fin 4} {n k : Nat} {r : Rec}

/-! ## Late votes -/

theorem State.nodup_voters (s : State) : s.voters.Nodup := List.Nodup.filter _ (by decide)

/-- The voters an entry waits for. -/
def State.lateOf (s : State) (ls : List (Fin 3)) : List (Fin 3) := s.voters.filter fun l => !ls.contains l

/-- An entry that waits for voters only. -/
theorem State.lateVote_voters (s : State) (kind : Nat) (ls : List (Fin 3)) (agree : Bool) (d : DivAt) : s.lateVote kind false ls agree d =
    if (s.lateOf ls).isEmpty then s
    else if agree then s.each (s.lateOf ls) fun s l => s.divergeFree l kind 4 d
    else if s.voters.length = 2 then s.assayPassive kind 7 d
    else if (s.lateOf ls).length = 1 then s.assayPassive 8 5 d
    else s.assayPassive kind 5 d := by
  have hn : (s.listeners.filter fun l => false && !s.voters.contains l && !ls.contains l) = [] := List.filter_eq_nil_iff.2 fun l _ => by simp
  unfold State.lateVote
  rw [hn]
  rfl

/-- Of three voters the one that two do not name is late. -/
theorem State.lateOf_third (h3 : s.voters.length = 3) (hlm : l ≠ m) {k : Fin 3} (hlk : l ≠ k) (hmk : m ≠ k) : s.lateOf [m, k] = [l] := by
  unfold State.lateOf
  rw [State.voters_three h3]
  revert l m k
  decide

/-- Of two voters, one is late where only the other is there. -/
theorem State.lateOf_second (h2 : s.voters.length = 2) (hm : m ∈ s.voters) : (s.lateOf [m]).isEmpty = false := by
  have he : s.lateOf [m] = s.voters.erase m := by
    rw [s.nodup_voters.erase_eq_filter]
    exact List.filter_congr fun x _ => by by_cases h : x = m <;> simp [h]
  have hl : (s.voters.erase m).length = 1 := by rw [List.length_erase_of_mem hm, h2]
  rw [he, List.isEmpty_eq_false_iff, ← List.length_pos_iff, hl]
  exact Nat.one_pos

theorem State.voters_draw (s : State) : s.draw.voters = s.voters := rfl

/-- Where a late vote is, once a record of it is known. -/
def DivAt.known (o : Option Rec) (d : DivAt) : DivAt := match o with
  | some r => { d with addr := r.addr }
  | none => d

/-- R92: a write's deadline judges who is late. -/
theorem State.skewExpire_write {e : WEnt} {o : Option Rec} (hh : s.mgr.hold = none) (hw : s.wEnt p n = some e) (ha : e.app = false)
    (ho : (e.released.orElse fun _ => s.agreed e.recs) = o) : ∃ (y : State) (d : DivAt), (y = s ∨ y = s.draw) ∧
      s.skewExpire .write p n = (y.lateVote 4 false (e.recs.map (·.1)) o.isSome d).releaseAll p := by
  refine ⟨(s.atWrite e).1, (s.atWrite e).2.known o, s.atWrite_state e, ?_⟩
  unfold State.skewExpire
  rw [hh, if_neg (by decide)]
  dsimp only
  rw [hw]
  dsimp only
  rw [ho, ha]
  rfl

/-- R22: a voter missing from a vote that the other two agree on is isolated. -/
theorem State.skewExpire_isolates {e : WEnt} {k : Fin 3} (hh : s.mgr.hold = none) (hw : s.wEnt p n = some e) (ha : e.app = false)
    (hr : e.recs = [(m, r), (k, r)]) (hrel : e.released = some r) (h3 : s.voters.length = 3) (hlm : l ≠ m) (hlk : l ≠ k) (hmk : m ≠ k)
    (hu : s.unreleased p = []) : let z := s.skewExpire .write p n
    z.laneState l = lIsolated ∧ z.get ASSAY_voters = clrBit (s.get ASSAY_voters) l.val % 8 := by
  obtain ⟨y, d, hy, he⟩ := State.skewExpire_write (o := some r) hh hw ha (by rw [hrel]; rfl)
  have hf : y.voters = s.voters ∧ y.get ASSAY_voters = s.get ASSAY_voters ∧ y.unreleased p = s.unreleased p := by
    rcases hy with rfl | rfl
    · exact ⟨rfl, rfl, rfl⟩
    · exact ⟨rfl, rfl, rfl⟩
  obtain ⟨yv, yg, yu⟩ := hf
  have h3' : y.draw.voters.length = 3 := by rw [State.voters_draw, yv]; exact h3
  have hc : y.draw.voters.contains l = true := by simpa using mem_voters_of_three h3' l
  have hl : ∃ synd, y.lateVote 4 false (e.recs.map (·.1)) true d = y.draw.isolate l 4 false d synd := by
    rw [State.lateVote_voters, hr, show [(m, r), (k, r)].map (·.1) = [m, k] from rfl, State.lateOf_third (by rw [yv]; exact h3) hlm hlk hmk]
    exact ⟨_, if_pos hc⟩
  obtain ⟨synd, hl⟩ := hl
  obtain ⟨i1, i2, -, i4⟩ := State.isolate_spec h3' l 4 false d synd
  dsimp only
  rw [he, show (some r).isSome = true from rfl, hl, State.releaseAll_none (i4 p (yu.trans hu))]
  exact ⟨i1, i2.trans (congrArg (fun v => clrBit v l.val % 8) yg)⟩

/-- R27: with two voters a late one makes the module passive. -/
theorem State.skewExpire_passive {e : WEnt} (hh : s.mgr.hold = none) (hw : s.wEnt p n = some e) (ha : e.app = false) (hr : e.recs = [(m, r)])
    (hrel : e.released = none) (h2 : s.voters.length = 2) (hm : m ∈ s.voters) (hp : s.passive = false) : let z := s.skewExpire .write p n
    z.passive = true ∧ z.aoCause = 7 := by
  obtain ⟨y, d, hy, he⟩ := State.skewExpire_write (o := none) hh hw ha (by rw [hrel, hr]; exact s.agreed_single _)
  have hf : y.voters = s.voters ∧ y.passive = s.passive := by
    rcases hy with rfl | rfl
    · exact ⟨rfl, rfl⟩
    · exact ⟨rfl, rfl⟩
  obtain ⟨yv, yp⟩ := hf
  have hl : y.lateVote 4 false (e.recs.map (·.1)) false d = y.assayPassive 4 7 d := by
    rw [State.lateVote_voters, hr, show [(m, r)].map (·.1) = [m] from rfl, State.lateOf_second (by rw [yv]; exact h2) (by rw [yv]; exact hm),
      if_neg (by decide), if_neg (by decide), if_pos (by rw [yv]; exact h2)]
  obtain ⟨p1, p2⟩ := State.assayPassive_spec 4 7 d (yp.trans hp)
  dsimp only
  rw [he, show (none : Option Rec).isSome = false from rfl, hl, State.releaseAll_passive p1]
  exact ⟨p1, p2⟩

/-- A deadline of no entry does nothing. -/
theorem State.skewExpire_none (hh : s.mgr.hold = none) : (s.wEnt p n = none → s.skewExpire .write p n = s) ∧
    (s.rEnt p n false = none → s.skewExpire .read p n = s) ∧ (s.cEnt p n = none → s.skewExpire .ckpt p n = s) := by
  unfold State.skewExpire
  rw [hh]
  refine ⟨fun h => ?_, fun h => ?_, fun h => ?_⟩
  · rw [h]
    rfl
  · rw [h]
    rfl
  · rw [h]
    rfl

/-! ## The commands -/

/-- The state once a report has left the lane. -/
def State.reportTake (s : State) (l : Fin 3) (p : Fin 4) (c : Ckpt) : State :=
  s.updL l fun n => { n with reports := dropFirst (fun x => x.1 = p && x.2.count = c.count) n.reports }

theorem State.reportTake_fields (s : State) (l : Fin 3) (p : Fin 4) (c : Ckpt) : (s.reportTake l p c).assay = s.assay ∧ (s.reportTake l p c).hub = s.hub ∧
    s.stands (s.reportTake l p c) ∧ ∀ g : Fld, (s.reportTake l p c).get g = s.get g :=
  ⟨rfl, rfl, State.stands_quiet State.stands_refl (State.quiet_updL State.quiet_refl), fun _ => rfl⟩

theorem exec_checkpointArrival {c : Ckpt} (hv : l ∈ s.voters) (hp : p.val < s.nPairs) :
    exec (.checkpointArrival l p c) s = .next ((s.reportTake l p c).cArrive l p c) :=
  congrArg Host.Outcome.next (if_pos (by simp [mem_listeners hv, hp]))

/-- Settles O21: the first read record, the capture, the reports of a count and the deadlines, each by the lemma above. -/
theorem assayReadsAndCheckpoints : Obligations.AssayReadsAndCheckpoints := by
  refine ⟨fun l r s hk hl hv h2 hn ho => ?_, fun p n e r s hw hf hrp hc hop hcr hpw ha hb href hlv => ?_,
    fun l p c s hv hpn hh => ⟨fun h2 h => ?_, fun m c' e h2 hm hml h _ hk hr hc hc' hb => ⟨fun hd => ?_, fun hd hps => ?_⟩⟩,
    fun p n s hh => ⟨fun e l m k r hw ha hr hrel h3 hlm hlk hmk hu => ?_, fun e m r hw ha hr hrel h2 hm hps => ?_, ?_⟩⟩
  case refine_1 =>
    obtain ⟨ta, -, -, ts, -⟩ := s.linkTake_fields l r
    have e := (s.linkTake l r).rArrive_first (l := l) (r := { r with data := 0, cmp := 0 }) hk (by rw [State.stands_voters ts]; exact hv)
      (by rw [State.stands_voters ts]; exact h2) ((State.rEnt_congr (by rw [ta])).trans hn) ho
    have hq := State.quiet_occShow (p := r.pair)
      (s := (s.linkTake l r).updA fun a => { a with reads := a.reads ++ [(s.linkTake l r).rFirst l { r with data := 0, cmp := 0 }] }) State.quiet_refl
    refine ⟨_, (s.linkTake l r).rFirst l { r with data := 0, cmp := 0 }, (exec_readRecordArrival hk hl).trans (congrArg Host.Outcome.next e), ?_, rfl, rfl, rfl,
      s.pr_linkTake l r r.pair, fun g hg => State.get_occShow hg⟩
    rw [State.quiet_assay hq]
    rfl
  case refine_2 =>
    obtain ⟨e', z1, z2, z3, z4⟩ := State.captureTry_spec hw hf hc hop hcr hpw ha hb href hlv
    exact ⟨s.captureTry p n, e', rfl, z1, z2, z3, congrArg Host.Outcome.next (State.captureTry_again z1 z4 z2)⟩
  case refine_3 =>
    obtain ⟨ta, -, ts, -⟩ := s.reportTake_fields l p c
    obtain ⟨z1, z2, z3⟩ := (s.reportTake l p c).cArrive_first_spec (l := l) (by rw [State.stands_voters ts]; exact hv) (by rw [State.stands_voters ts]; exact h2)
      (by rw [ta]; exact hh) ((State.ckptsOf_congr ta).trans h)
    exact ⟨_, (s.reportTake l p c).cFirst l p c, exec_checkpointArrival hv hpn, z1, rfl, rfl, z2, z3⟩
  case refine_4 =>
    obtain ⟨ta, -, ts, tg⟩ := s.reportTake_fields l p c
    obtain ⟨z1, z2⟩ := (s.reportTake l p c).cArrive_equal (l := l) (by rw [State.stands_voters ts]; exact h2) (by rw [State.stands_voters ts]; exact hv)
      (by rw [State.stands_voters ts]; exact hm) hml (by rw [ta]; exact hh) ((State.ckptsOf_congr ta).trans h) hk hr hc hc' (by rw [ta]; exact hb) hd
    exact ⟨_, exec_checkpointArrival hv hpn, z1, z2.trans (tg _)⟩
  case refine_5 =>
    obtain ⟨ta, -, ts, -⟩ := s.reportTake_fields l p c
    exact ⟨_, exec_checkpointArrival hv hpn, (s.reportTake l p c).cArrive_differ (l := l) (by rw [State.stands_voters ts]; exact h2)
      (by rw [State.stands_voters ts]; exact hv) (by rw [State.stands_voters ts]; exact hm) hml (by rw [ta]; exact hh) ((State.ckptsOf_congr ta).trans h) hk hr hd
      ((State.stands_passive ts).trans hps)⟩
  case refine_6 =>
    exact ⟨s.skewExpire .write p n, rfl, State.skewExpire_isolates hh hw ha hr hrel h3 hlm hlk hmk (State.unreleased_nil.2 hu)⟩
  case refine_7 => exact ⟨s.skewExpire .write p n, rfl, State.skewExpire_passive hh hw ha hr hrel h2 hm hps⟩
  case refine_8 =>
    obtain ⟨n1, n2, n3⟩ := State.skewExpire_none (p := p) (n := n) hh
    exact ⟨fun h => congrArg Host.Outcome.next (n1 h), fun h => congrArg Host.Outcome.next (n2 h), fun h => congrArg Host.Outcome.next (n3 h)⟩

end Sys2Proof.Machine
end

section
/-! The integer operations as numbers (02 R64): one statement per kind of operation. -/

namespace Sys2Proof.Machine

variable (a b : Word64)

theorem alu64_add_sub_mul : (alu64 0x001 a b).map BitVec.toNat = some ((a.toNat + b.toNat) % 2 ^ 64) ∧
    (alu64 0x002 a b).map BitVec.toNat = some ((2 ^ 64 + a.toNat - b.toNat) % 2 ^ 64) ∧
    (alu64 0x010 a b).map BitVec.toNat = some (a.toNat * b.toNat % 2 ^ 64) := by
  refine ⟨congrArg some (BitVec.toNat_add a b), congrArg some ?_, congrArg some (BitVec.toNat_mul a b)⟩
  have := b.isLt
  rw [BitVec.toNat_sub]
  omega

theorem alu64_shifts : (alu64 0x006 a b).map BitVec.toNat = some (a.toNat * 2 ^ (b.toNat % 64) % 2 ^ 64) ∧
    (alu64 0x007 a b).map BitVec.toNat = some (a.toNat / 2 ^ (b.toNat % 64)) ∧
    (alu64 0x008 a b).map BitVec.toInt = some (a.toInt / 2 ^ (b.toNat % 64)) := by
  refine ⟨congrArg some ?_, congrArg some ?_, congrArg some ?_⟩
  · rw [BitVec.toNat_shiftLeft, Nat.shiftLeft_eq]
  · rw [BitVec.toNat_ushiftRight, Nat.shiftRight_eq_div_pow]
  · rw [BitVec.toInt_sshiftRight, Int.shiftRight_eq_div_pow, Nat.cast_pow, Nat.cast_ofNat]

theorem alu64_compares : alu64 0x009 a b = some (if a.toInt < b.toInt then 1 else 0) ∧ alu64 0x00A a b = some (if a.toNat < b.toNat then 1 else 0) :=
  ⟨congrArg some (if_congr BitVec.slt_iff_toInt_lt rfl rfl), congrArg some (if_congr BitVec.ult_iff_toNat_lt rfl rfl)⟩

/-- The high half of an unsigned product fits 64 bits. -/
theorem alu64_mulhu : (alu64 0x012 a b).map BitVec.toNat = some (a.toNat * b.toNat / 2 ^ 64) := by
  have hlt : a.toNat * b.toNat / 2 ^ 64 < 2 ^ 64 := Nat.div_lt_of_lt_mul (Nat.mul_lt_mul'' a.isLt b.isLt)
  exact congrArg some ((BitVec.toNat_ofNat _ _).trans (Nat.mod_eq_of_lt hlt))

variable {a b}

theorem eq_intMin_of_toInt (h : a.toInt = -2 ^ 63) : a = BitVec.intMin 64 := BitVec.eq_of_toInt_eq h

theorem eq_neg_one_of_toInt (h : b.toInt = -1) : b = -1 := BitVec.eq_of_toInt_eq h

theorem alu64_signed_division (hb : b ≠ 0) : (a.toInt ≠ -2 ^ 63 ∨ b.toInt ≠ -1 → (alu64 0x014 a b).map BitVec.toInt = some (a.toInt.tdiv b.toInt)) ∧
    (alu64 0x016 a b).map BitVec.toInt = some (a.toInt.tmod b.toInt) := by
  refine ⟨fun h => congrArg some ?_, congrArg some ?_⟩
  · rw [if_neg hb]
    exact BitVec.toInt_sdiv_of_ne_or_ne a b (h.imp (fun h e => h (by rw [e]; rfl)) (fun h e => h (by rw [e]; rfl)))
  · rw [if_neg hb]
    exact BitVec.toInt_srem a b

theorem alu64_unsigned_division (hb : b ≠ 0) : (alu64 0x015 a b).map BitVec.toNat = some (a.toNat / b.toNat) ∧
    (alu64 0x017 a b).map BitVec.toNat = some (a.toNat % b.toNat) := by
  refine ⟨congrArg some ?_, congrArg some ?_⟩
  · rw [if_neg hb]
    exact BitVec.toNat_udiv
  · rw [if_neg hb]
    exact BitVec.toNat_umod

/-- The one signed quotient that 64 bits do not hold. -/
theorem alu64_division_overflow (ha : a.toInt = -2 ^ 63) (hb : b.toInt = -1) : alu64 0x014 a b = some a ∧ alu64 0x016 a b = some 0 := by
  rw [eq_intMin_of_toInt ha, eq_neg_one_of_toInt hb]
  decide

/-- A 32-bit form's result is the 32-bit operation's, sign-extended. -/
theorem aluResult_x32_toInt (fn : Nat) (a b : Word64) : (aluResult .x32 fn a b).map BitVec.toInt = (alu32 fn (lo32 a) (lo32 b)).map BitVec.toInt := by
  have hs : BitVec.toInt ∘ sext32 = BitVec.toInt := funext fun v => BitVec.toInt_signExtend_of_le (by decide)
  show ((alu32 fn (lo32 a) (lo32 b)).map sext32).map BitVec.toInt = _
  rw [Option.map_map, hs]

/-- Settles O3: one lemma above for each kind of operation; division by zero is the definition's own corner. -/
theorem integerOperationResults : Obligations.IntegerOperationResults := by
  intro a b
  obtain ⟨hadd, hsub, hmul⟩ := alu64_add_sub_mul a b
  obtain ⟨hsll, hsrl, hsra⟩ := alu64_shifts a b
  obtain ⟨hslt, hsltu⟩ := alu64_compares a b
  exact ⟨hadd, hsub, hsll, hsrl, hsra, hslt, hsltu, hmul, alu64_mulhu a b, fun hb => (alu64_signed_division hb).1, fun hb => (alu64_signed_division hb).2,
    fun hb => (alu64_unsigned_division hb).1, fun hb => (alu64_unsigned_division hb).2, ⟨rfl, rfl, rfl, rfl⟩, alu64_division_overflow,
    fun fn => aluResult_x32_toInt fn a b⟩

end Sys2Proof.Machine
end

section
/-! Integer, branch and jump instructions, RDCNT and the fences of a pair that runs (02 R40, R41, R58, R64, R73, R75, R77). -/

namespace Sys2Proof.Machine

variable {s : State} {l : Fin 3} {p : Fin 4}

/-! ## The pair after its unit -/

/-- A legal, unprivileged instruction that touches its pair alone. -/
theorem State.unitP_legal (h : s.runs l p) (f : PairS → PairS) :
    s.unitP l p false false false f = s.updP l p fun _ => (f (s.pr l p)).retire :=
  (State.unitP_of_runs h (.inl rfl)).trans (State.updP_const s l p _)

theorem next_unitP_legal (h : s.runs l p) (f : PairS → PairS) :
    (.next (s.unitP l p false false false f) : Out) = .next (s.updP l p fun _ => (f (s.pr l p)).retire) :=
  congrArg Host.Outcome.next (State.unitP_legal h f)

/-- The checks of an integer or system instruction of a pair that runs, in the order of R52: its fields, then its level. -/
theorem State.unit_checked (h : s.runs l p) (illegal priv : Bool) (body : State → State) : s.unit l p illegal priv false body =
    if illegal then s.precise l p 0x02 0 0 false else if priv then s.precise l p 0x03 0 0 false else body s := by
  cases illegal with
  | true => exact State.unit_illegal h
  | false =>
    cases priv with
    | true => exact State.unit_priv h
    | false => exact State.unit_of_runs h (.inl rfl)

/-- A legal instruction of a pair that runs is its body where the level permits it. -/
theorem State.unit_leveled (h : s.runs l p) (priv : Bool) (body : State → State) :
    s.unit l p false priv false body = if priv then s.precise l p 0x03 0 0 false else body s :=
  State.unit_checked h false priv body

theorem PairS.retire_next_rg (q : PairS) (i : Fin 32) : q.next.retire.rg i = q.rg i := by
  obtain ⟨-, -, -, -, -, hrg, -⟩ := q.next.retire_parts
  exact hrg i

theorem PairS.retire_next_pc (q : PairS) : q.next.retire.pc = q.pc + 4 := by
  rw [q.next.retire_parts.1, q.next_parts.1]

theorem PairS.retire_next_cev (q : PairS) (n : Nat) : q.next.retire.cev n = if n = 0 then q.cev 0 + 1 else q.cev n :=
  q.next.retire_cev n

/-- A pair that writes a general register and goes on: the register, the others, the pc, the counters and what stays (R41, R75). -/
theorem PairS.wg_next_retire (q : PairS) (gd : Fin 32) (v : Word64) :
    (gd ≠ 0 → (q.wg gd v).next.retire.rg gd = v) ∧ (∀ i, i ≠ gd → (q.wg gd v).next.retire.rg i = q.rg i) ∧ (q.wg gd v).next.retire.pc = q.pc + 4 ∧
    (∀ n, (q.wg gd v).next.retire.cev n = if n = 0 then q.cev 0 + 1 else q.cev n) ∧ (q.wg gd v).next.retire.v = q.v ∧
    (q.wg gd v).next.retire.sr = q.sr := by
  obtain ⟨wv, wpc, wsr, -, -, -, -, wc⟩ := q.wg_parts gd v
  obtain ⟨-, -, rv, rsr, -⟩ := (q.wg gd v).next.retire_parts
  refine ⟨fun h => ?_, fun i h => ?_, ?_, fun n => ?_, rv.trans wv, rsr.trans wsr⟩
  · rw [PairS.retire_next_rg, PairS.wg_rg_same q v h]
  · rw [PairS.retire_next_rg, PairS.wg_rg_ne q v h]
  · rw [PairS.retire_next_pc, wpc]
  · rw [PairS.retire_next_cev, wc, wc]

/-! ## The commands -/

theorem exec_aluRegisterOp_legal (h : s.runs l p) {form : AluForm} {gd gs1 gs2 : Fin 32} {fn : BitVec 11} {r : Word64}
    (hr : aluResult form fn.toNat ((s.pr l p).rg gs1) ((s.pr l p).rg gs2) = some r) :
    exec (.aluRegisterOp l p form gd gs1 gs2 fn) s = .next (s.updP l p fun _ => (((s.pr l p).wg gd r).next).retire) := by
  show execAluRegisterOp l p form gd gs1 gs2 fn s = _
  dsimp only [execAluRegisterOp]
  rw [hr]
  exact next_unitP_legal h _

theorem exec_immediateOp_legal (h : s.runs l p) {k : Fin 8} {gd gs1 : Fin 32} {imm : BitVec 16} {r : Word64}
    (hr : immResult k.val ((s.pr l p).rg gs1) imm = some r) :
    exec (.immediateOp l p k gd gs1 imm) s = .next (s.updP l p fun _ => (((s.pr l p).wg gd r).next).retire) := by
  show execImmediateOp l p k gd gs1 imm s = _
  dsimp only [execImmediateOp]
  rw [hr]
  exact next_unitP_legal h _

/-- RDCNT of a selector and fields that R73 and R65 allow. -/
theorem exec_rdcnt_legal (h : s.runs l p) {gd sel : Fin 32} (hs : sel.val < 8) :
    exec (.rdcnt l p gd sel 0 0) s = .next (s.updP l p fun _ => (((s.pr l p).wg gd (BitVec.ofNat 64 ((s.pr l p).cev sel.val))).next).retire) := by
  show execRdcnt l p gd sel 0 0 s = _
  unfold execRdcnt
  rw [show (decide (8 ≤ sel.val) || decide ((0 : Fin 32) ≠ 0) || decide ((0 : BitVec 7) ≠ 0)) = false by simpa using hs]
  exact next_unitP_legal h _

theorem exec_rdcnt_illegal (h : s.runs l p) {gd sel gs2 : Fin 32} {fnHi : BitVec 7} (hi : 8 ≤ sel.val ∨ gs2 ≠ 0 ∨ fnHi ≠ 0) :
    exec (.rdcnt l p gd sel gs2 fnHi) s = .next (s.precise l p 0x02 0 0 false) :=
  congrArg Host.Outcome.next ((State.unit_checked h _ _ _).trans (if_pos (by simpa [or_assoc] using hi)))

/-- R58: FENCE waits for the pair's open writes, and else only retires. -/
theorem exec_fence_open (ho : s.writesOpen l p = true) : exec (.fence l p) s = .next s :=
  congrArg Host.Outcome.next (if_pos ho)

theorem exec_fence_clear (h : s.runs l p) (ho : s.writesOpen l p = false) :
    exec (.fence l p) s = .next (s.updP l p fun _ => (s.pr l p).next.retire) :=
  congrArg Host.Outcome.next ((if_neg (by simp [ho])).trans (State.unitP_legal h _))

/-- Settles O2: each command is a legal unit of its pair; what the pair keeps is what a register write and a retirement leave. -/
theorem integerAndControlInstructions : Obligations.IntegerAndControlInstructions := by
  intro l p s h q
  have legal (f : PairS → PairS) := next_unitP_legal h f
  refine ⟨fun _ _ _ _ _ _ hr => exec_aluRegisterOp_legal h hr, fun _ _ _ _ _ hr => exec_immediateOp_legal h hr, fun _ _ => ⟨legal _, legal _⟩,
    fun _ _ _ _ => legal _, fun _ => legal _, fun _ => legal _, fun _ _ _ => legal _, fun gd v => ?_, q.wg_zero, fun gd v => ?_, fun gd v => ?_,
    fun _ => ⟨State.keepsBut_updP State.keepsBut_refl, rfl, fun _ _ => State.pr_updP_ne⟩⟩
  all_goals obtain ⟨hgd, hne, hpc, hcev, hv, hsr⟩ := q.wg_next_retire gd v
  · exact hgd
  · exact hne
  · exact ⟨hpc, hcev 0, hv, hsr⟩

/-- Settles O8: RDCNT writes the counter as it stands before its own retirement; the fences only retire, or wait. -/
theorem counterAndFenceInstructions : Obligations.CounterAndFenceInstructions := by
  intro l p s h q
  refine ⟨fun gd sel hs => ?_, fun _ _ _ _ hi => exec_rdcnt_illegal h hi, next_unitP_legal h _, exec_fence_clear h,
    exec_fence_open⟩
  obtain ⟨hgd, hne, hpc, hcev, -, -⟩ := q.wg_next_retire gd (BitVec.ofNat 64 (q.cev sel.val))
  refine ⟨_, exec_rdcnt_legal h hs, ?_⟩
  rw [State.pr_updP]
  exact ⟨rfl, hgd, hne, hpc, hcev 0, fun n hn => (hcev n).trans (if_neg hn), State.keepsBut_updP State.keepsBut_refl⟩

end Sys2Proof.Machine
end

section
/-! Exception entry and ERET (02 R46, R47): SR_STATUS field by field. -/

namespace Sys2Proof.Machine

variable {s : State} {l : Fin 3} {p : Fin 4}

/-! ## Entry -/

/-- SR_STATUS after entry to the runtime: the fields R46 names, then the bits it leaves. -/
theorem bitsOf_entryStatus_runtime (v : Nat) : bitsOf (entryStatus v false) 8 2 = v % 4 ∧ bitsOf (entryStatus v false) 10 1 = bitsOf v 2 1 ∧
    bitsOf (entryStatus v false) 4 1 = 1 ∧ bitsOf (entryStatus v false) 2 1 = 0 ∧ bitsOf (entryStatus v false) 0 2 = 1 ∧
    bitsOf (entryStatus v false) 3 1 = bitsOf v 3 1 ∧ bitsOf (entryStatus v false) 5 3 = bitsOf v 5 3 ∧
    bitsOf (entryStatus v false) 11 53 = bitsOf v 11 53 := by
  have e : entryStatus v false = putBits (putBits (putBits (putBits (putBits v 8 2 (v % 4)) 10 1 (bitsOf v 2 1)) 4 1 1) 2 1 0) 0 2 1 := rfl
  have hie : bitsOf v 2 1 % 2 = bitsOf v 2 1 := Nat.mod_mod _ _
  rw [e]
  and_intros <;> simp [bitsOf_putBits_same, bitsOf_putBits_low, bitsOf_putBits_high, hie]

/-- SR_STATUS after entry to the monitor. -/
theorem bitsOf_entryStatus_monitor (v : Nat) : bitsOf (entryStatus v true) 12 2 = v % 4 ∧ bitsOf (entryStatus v true) 14 1 = bitsOf v 2 1 ∧
    bitsOf (entryStatus v true) 5 1 = 1 ∧ bitsOf (entryStatus v true) 2 1 = 0 ∧ bitsOf (entryStatus v true) 0 2 = 2 ∧
    bitsOf (entryStatus v true) 3 2 = bitsOf v 3 2 ∧ bitsOf (entryStatus v true) 6 6 = bitsOf v 6 6 ∧
    bitsOf (entryStatus v true) 15 49 = bitsOf v 15 49 := by
  have e : entryStatus v true = putBits (putBits (putBits (putBits (putBits v 12 2 (v % 4)) 14 1 (bitsOf v 2 1)) 5 1 1) 2 1 0) 0 2 2 := rfl
  have hie : bitsOf v 2 1 % 2 = bitsOf v 2 1 := Nat.mod_mod _ _
  rw [e]
  and_intros <;> simp [bitsOf_putBits_same, bitsOf_putBits_low, bitsOf_putBits_high, hie]

theorem PairS.enter_status (q : PairS) (mon : Bool) (code info addr : Nat) (ret : Word64) (blk : Bool) :
    ((q.enter mon code info addr ret blk).rs 0).toNat = entryStatus (q.rs 0).toNat mon := by
  have hlt := entryStatus_lt (q.rs 0).toNat mon (q.rs 0).isLt
  have e : (q.enter mon code info addr ret blk).rs 0 = BitVec.ofNat 64 (entryStatus (q.rs 0).toNat mon) := by
    cases mon
    · exact q.enter_rs_runtime code info addr ret blk 0
    · exact q.enter_rs_monitor code info addr ret blk 0
  rw [e, BitVec.toNat_ofNat, Nat.mod_eq_of_lt hlt]

/-- The system registers that entry to the runtime does not write. -/
theorem PairS.enter_rs_runtime_ne (q : PairS) (code info addr : Nat) (ret : Word64) (blk : Bool) {n : Nat} (h0 : n ≠ 0) (h1 : n ≠ 1) (h2 : n ≠ 2)
    (h3 : n ≠ 3) : (q.enter false code info addr ret blk).rs n = q.rs n := by
  rw [PairS.enter_rs_runtime, if_neg h0, if_neg h3, if_neg h2, if_neg h1]

/-- The system registers that entry to the monitor does not write. -/
theorem PairS.enter_rs_monitor_ne (q : PairS) (code info addr : Nat) (ret : Word64) (blk : Bool) {n : Nat} (h0 : n ≠ 0) (h1 : n ≠ 0x100)
    (h2 : n ≠ 0x101) (h3 : n ≠ 0x102) : (q.enter true code info addr ret blk).rs n = q.rs n := by
  rw [PairS.enter_rs_monitor, if_neg h0, if_neg h3, if_neg h2, if_neg h1]

/-! ## ERET -/

/-- The status ERET leaves, from the fields at which the saved level, the saved ie and the exl of its level stand. -/
def eretStatus (v pl pi xl : Nat) : Nat := putBits (putBits (putBits v 0 2 (bitsOf v pl 2)) 2 1 (bitsOf v pi 1)) xl 1 0

theorem eretStatus_lt {v pl pi xl : Nat} (h : v < 2 ^ 64) (hx : xl < 64) : eretStatus v pl pi xl < 2 ^ 64 :=
  putBits_lt (putBits_lt (putBits_lt h (by decide)) (by decide)) hx

theorem bitsOf_eretStatus (v pl pi : Nat) {xl : Nat} (hx : 3 ≤ xl) : eretStatus v pl pi xl % 4 = bitsOf v pl 2 ∧
    bitsOf (eretStatus v pl pi xl) 2 1 = bitsOf v pi 1 ∧ bitsOf (eretStatus v pl pi xl) xl 1 = 0 := by
  have h0 : eretStatus v pl pi xl % 4 = bitsOf (eretStatus v pl pi xl) 0 2 := by simp [bitsOf]
  rw [h0]
  unfold eretStatus
  refine ⟨?_, ?_, bitsOf_putBits_same _ _ _ _⟩
  · rw [bitsOf_putBits_low (by omega), bitsOf_putBits_low (by decide), bitsOf_putBits_same]
    exact Nat.mod_mod _ _
  · rw [bitsOf_putBits_low hx, bitsOf_putBits_same]
    exact Nat.mod_mod _ _

/-- The pair after ERET, from those fields and the register that holds the return address. -/
def PairS.eretBy (q : PairS) (pl pi xl epc : Nat) : PairS :=
  { q.ws 0 (BitVec.ofNat 64 (eretStatus (q.rs 0).toNat pl pi xl)) with pc := q.rs epc }

theorem PairS.eret_runtime {q : PairS} (h : q.level = 1) : q.eret = q.eretBy 8 10 4 0x001 := by
  simp only [PairS.eret, h]
  rfl

theorem PairS.eret_monitor {q : PairS} (h : q.level = 2) : q.eret = q.eretBy 12 14 5 0x100 := by
  simp only [PairS.eret, h]
  rfl

theorem PairS.eretBy_parts (q : PairS) (pl pi epc : Nat) {xl : Nat} (h3 : 3 ≤ xl) (hx : xl < 64) : (q.eretBy pl pi xl epc).pc = q.rs epc ∧
    (q.eretBy pl pi xl epc).level = bitsOf (q.rs 0).toNat pl 2 ∧
    bitsOf ((q.eretBy pl pi xl epc).rs 0).toNat 2 1 = bitsOf (q.rs 0).toNat pi 1 ∧ bitsOf ((q.eretBy pl pi xl epc).rs 0).toNat xl 1 = 0 := by
  have hst : ((q.eretBy pl pi xl epc).rs 0).toNat = eretStatus (q.rs 0).toNat pl pi xl := by
    refine (congrArg BitVec.toNat (q.ws_rs_same 0 _)).trans ?_
    rw [BitVec.toNat_ofNat, Nat.mod_eq_of_lt (eretStatus_lt (q.rs 0).isLt hx)]
  rw [PairS.level, hst]
  exact ⟨rfl, bitsOf_eretStatus _ pl pi h3⟩

theorem exec_eret_allowed (h : s.runs l p) (hl : (s.pr l p).level ≠ 0) : exec (.eret l p) s = .next (s.updP l p fun _ => (s.pr l p).eret.retire) :=
  congrArg Host.Outcome.next (((State.unit_leveled h _ _).trans (if_neg (by simp [hl]))).trans (State.updP_const s l p _))

theorem exec_eret_tenant (h : s.runs l p) (hl : (s.pr l p).level = 0) : exec (.eret l p) s = .next (s.precise l p 0x03 0 0 false) :=
  congrArg Host.Outcome.next ((State.unit_leveled h _ _).trans (if_pos (decide_eq_true hl)))

/-- Settles O4: SR_STATUS by its fields, the other system registers by the four writes of an entry, ERET by the status it leaves. -/
theorem exceptionEntryAndReturn : Obligations.ExceptionEntryAndReturn := by
  refine ⟨fun q code info addr ret blk => ⟨?runtime, ?monitor, fun n h0 h1 h2 h3 => q.enter_rs_runtime_ne code info addr ret blk h0 h1 h2 h3,
    fun n h0 h1 h2 h3 => q.enter_rs_monitor_ne code info addr ret blk h0 h1 h2 h3, fun i => ?regs⟩,
    fun q h => ?eretRuntime, fun q h => ?eretMonitor, fun l p s h => ⟨exec_eret_allowed h, exec_eret_tenant h⟩⟩
  case runtime =>
    have hrs := q.enter_rs_runtime code info addr ret blk
    rw [PairS.enter_status]
    obtain ⟨hpl, hpi, hxl, hie, hlv, hrest⟩ := bitsOf_entryStatus_runtime (q.rs 0).toNat
    exact ⟨hrs 1, hrs 2, hrs 3, hpl, hpi, hxl, hie, hlv, (q.enter_pc code info addr ret blk).1, hrest⟩
  case monitor =>
    have hrs := q.enter_rs_monitor code info addr ret blk
    rw [PairS.enter_status]
    obtain ⟨hpl, hpi, hxl, hie, hlv, hrest⟩ := bitsOf_entryStatus_monitor (q.rs 0).toNat
    exact ⟨hrs 0x100, hrs 0x101, hrs 0x102, hpl, hpi, hxl, hie, hlv, (q.enter_pc code info addr ret blk).2, hrest⟩
  case regs =>
    obtain ⟨hg, hv⟩ := q.enter_regs false code info addr ret blk i
    exact ⟨hg, hv, q.enter_regs true code info addr ret blk i⟩
  case eretRuntime =>
    rw [PairS.eret_runtime h]
    exact q.eretBy_parts 8 10 0x001 (by decide) (by decide)
  case eretMonitor =>
    rw [PairS.eret_monitor h]
    exact q.eretBy_parts 12 14 0x100 (by decide) (by decide)

end Sys2Proof.Machine
end

section
/-! One chunk of a block instruction in lane memory (02 R66 to R71). -/

namespace Sys2Proof.Machine

variable {s : State} {l : Fin 3} {p : Fin 4} {gd gs1 gs2 : Fin 32} {n : Nat}

/-! ## The chunk -/

theorem State.laneRead_length (s : State) (l : Fin 3) (p : Fin 4) (a n : Nat) : (s.laneRead l p a n).length = n := by
  simp [State.laneRead]

theorem patternBytes_length (pat : Word64) (a n : Nat) : (patternBytes pat a n).length = n := by
  simp [patternBytes]

/-- A chunk's source in lane memory is read at once. -/
theorem State.chunkRead_memory {a : Nat} (hm : (s.region a).isMem = true) (k : HubCont) (done : State → List Byte → State) :
    s.chunkRead l p a n k done = done s (s.laneRead l p a n) := by
  obtain ⟨hdev, hhub⟩ := Region.isMem_only s a hm
  simp [State.chunkRead, hdev, hhub]

/-- A count of 0 only retires (R66). -/
theorem State.chunk_zero {src dst : Option Nat} {f : State → Nat → State} (h0 : min 64 ((s.pr l p).rg gs2).toNat = 0) :
    s.chunk l p gs2 src dst f = s.updP l p fun _ => (s.pr l p).next.retire :=
  (if_pos h0).trans (State.updP_const s l p _)

/-- What a chunk's store leaves: its bytes at the destination, the pair after its completion, every other byte and every register of the hub. -/
theorem State.storeBytes_chunk {a : Nat} {b : List Byte} (hb : b.length ≤ 64) (hm : (s.region a).isMem = true) (g : PairS → PairS) :
    ((s.storeBytes l p a b).updP l p g).laneRead l p a b.length = b ∧
    ((s.storeBytes l p a b).updP l p g).pr l p = g ((s.pr l p).foldStore 0x10 a b) ∧
    (∀ x, (∀ i < b.length, x ≠ memKey p (a + i)) → SMap.get (((s.storeBytes l p a b).updP l p g).ln l).mem x 0 = SMap.get (s.ln l).mem x 0) ∧
    s.keepsBut ((s.storeBytes l p a b).updP l p g) [] := by
  rw [State.storeBytes_memory hm]
  refine ⟨?_, ?_, fun x hx => ?_, rfl, fun _ _ => rfl⟩
  · rw [State.laneRead_updP, State.laneRead_laneWrite _ l p a b hb]
  · rw [State.pr_updP, State.pr_laneWrite, State.pr_updP]
  · rw [State.mem_updP, State.laneWrite_frame _ l p a b x hx, State.mem_updP]

theorem blockIllegal_without_source (h : blockIllegal gd gs1 gs2 true = false) : blockIllegal gd gs1 gs2 false = false := by
  simp_all [blockIllegal]

/-! ## The commands -/

theorem exec_bcopy_of_runs (h : s.runs l p) : exec (.bcopy l p gd gs1 gs2 0) s =
    .next (if blockIllegal gd gs1 gs2 true then s.precise l p 0x02 0 0 false else
      s.chunk l p gs2 (some ((s.pr l p).rg gs1).toNat) (some ((s.pr l p).rg gd).toNat) fun t n =>
        t.chunkRead l p ((s.pr l p).rg gs1).toNat n (.bcopy gd gs1 gs2 n []) fun t b => t.bcopyDone l p gd gs1 gs2 b) :=
  congrArg Host.Outcome.next (State.unit_checked h _ _ _)

theorem exec_bfill_of_runs (h : s.runs l p) : exec (.bfill l p gd gs1 gs2 0) s =
    .next (if blockIllegal gd gs1 gs2 false then s.precise l p 0x02 0 0 false else
      s.chunk l p gs2 none (some ((s.pr l p).rg gd).toNat) fun t n =>
        (t.storeBytes l p ((s.pr l p).rg gd).toNat (patternBytes ((s.pr l p).rg gs1) ((s.pr l p).rg gd).toNat n)).updP l p fun q =>
          q.chunkDone gd gs1 gs2 (q.rg gd + BitVec.ofNat 64 n) (q.rg gs1) n) :=
  congrArg Host.Outcome.next (State.unit_checked h _ _ _)

theorem exec_bcrc_of_runs (h : s.runs l p) (sel : Fin 4) : exec (.bcrc l p gd gs1 gs2 (BitVec.ofNat 7 sel.val)) s =
    .next (if blockIllegal gd gs1 gs2 true then s.precise l p 0x02 0 0 false else
      s.chunk l p gs2 (some ((s.pr l p).rg gs1).toNat) none fun t n =>
        t.chunkRead l p ((s.pr l p).rg gs1).toNat n (.bcrc gd gs1 gs2 sel n []) fun t b => t.bcrcDone l p gd gs1 gs2 sel.val b) := by
  have hsel : pairIx sel.val = sel := Fin.ext (Nat.mod_eq_of_lt sel.isLt)
  show execBcrc l p gd gs1 gs2 _ s = _
  unfold execBcrc
  rw [bcrc_selector, hsel, decide_eq_false (Nat.not_le.2 sel.isLt)]
  exact congrArg Host.Outcome.next (State.unit_checked h _ _ _)

/-- Settles O10: a legal block instruction is its chunk; the chunk's source is read first, and its store is that of lane memory. -/
theorem blockInstructions : Obligations.BlockInstructions := by
  intro l p s gd gs1 gs2 h q n a b
  have hn : n ≤ 64 := Nat.min_le_left _ _
  refine ⟨fun hi h0 hf ha hb => ?bcopy, fun hi h0 hf ha => ?bfill, fun sel hi h0 hf hb => ?bcrc, fun h0 hi => ⟨?_, ?_, ?_⟩,
    fun hi => ⟨?_, ?_⟩, fun hi => ?_⟩
  case bcopy =>
    have hlen := s.laneRead_length l p b n
    obtain ⟨hread, hpr, hframe, hkeep⟩ := State.storeBytes_chunk (l := l) (p := p) (b := s.laneRead l p b n) (hlen.trans_le hn) ha
      fun q => q.chunkDone gd gs1 gs2 (q.rg gd + BitVec.ofNat 64 n) (q.rg gs1 + BitVec.ofNat 64 n) n
    rw [hlen] at hread hframe
    rw [PairS.foldStore_rg, PairS.foldStore_rg] at hpr
    refine ⟨_, ?_, hread, hpr, hframe, hkeep⟩
    rw [exec_bcopy_of_runs h, hi, if_neg Bool.false_ne_true, State.chunk_body rfl h0 hf, State.chunkRead_memory hb, State.bcopyDone, State.laneRead_length]
  case bfill =>
    have hlen := patternBytes_length (q.rg gs1) a n
    obtain ⟨hread, hpr, hframe, hkeep⟩ := State.storeBytes_chunk (l := l) (p := p) (b := patternBytes (q.rg gs1) a n) (hlen.trans_le hn) ha
      fun q => q.chunkDone gd gs1 gs2 (q.rg gd + BitVec.ofNat 64 n) (q.rg gs1) n
    rw [hlen] at hread hframe
    rw [PairS.foldStore_rg, PairS.foldStore_rg] at hpr
    refine ⟨_, ?_, hread, hpr, hframe, hkeep⟩
    rw [exec_bfill_of_runs h, hi, if_neg Bool.false_ne_true, State.chunk_body rfl h0 hf]
  case bcrc =>
    rw [exec_bcrc_of_runs h, hi, if_neg Bool.false_ne_true, State.chunk_body rfl h0 hf, State.chunkRead_memory hb, State.bcrcDone,
      State.updP_const, State.laneRead_length]
  · rw [exec_bcopy_of_runs h, hi, if_neg Bool.false_ne_true, State.chunk_zero h0]
  · rw [exec_bfill_of_runs h, blockIllegal_without_source hi, if_neg Bool.false_ne_true, State.chunk_zero h0]
  · exact (exec_bcrc_of_runs h 0).trans (by rw [hi, if_neg Bool.false_ne_true, State.chunk_zero h0])
  · rw [exec_bcopy_of_runs h, hi, if_pos rfl]
  · exact (exec_bcrc_of_runs h 0).trans (by rw [hi, if_pos rfl])
  · rw [exec_bfill_of_runs h, hi, if_pos rfl]

end Sys2Proof.Machine
end

section
/-! System registers, pair start, the granule table and lane reset (02 R40, R42, R44, R55, R56, R78; 03 R88). -/

namespace Sys2Proof.Machine

variable {s : State} {l : Fin 3} {p : Fin 4}

/-! ## MFS and MTS -/

theorem exec_mfs_allowed (h : s.runs l p) {g : Fin 32} {n : BitVec 10} (hp : (s.pr l p).srPriv n.toNat = false) :
    exec (.mfs l p g n) s = .next (s.updP l p fun _ => (((s.pr l p).wg g (s.srRead l p n.toNat)).next).retire) :=
  congrArg Host.Outcome.next (((State.unit_leveled h _ _).trans (if_neg (by simp [hp]))).trans (State.updP_const s l p _))

theorem exec_mts_allowed (h : s.runs l p) {g : Fin 32} {n : BitVec 10} (hp : (s.pr l p).srPriv n.toNat = false) :
    exec (.mts l p g n) s = .next ((s.srWrite l p n.toNat ((s.pr l p).rg g).toNat).updP l p fun q =>
      ((q.fold 0x03 n.toNat 0 ((s.srWrite l p n.toNat ((s.pr l p).rg g).toNat).srRead l p n.toNat).toNat).next).retire) :=
  congrArg Host.Outcome.next ((State.unit_leveled h _ _).trans (if_neg (by simp [hp])))

/-- R44: a register the level may not reach. -/
theorem exec_mfs_mts_privileged (h : s.runs l p) {g : Fin 32} {n : BitVec 10} (hp : (s.pr l p).srPriv n.toNat = true) :
    exec (.mfs l p g n) s = .next (s.precise l p 0x03 0 0 false) ∧ exec (.mts l p g n) s = .next (s.precise l p 0x03 0 0 false) :=
  ⟨congrArg Host.Outcome.next ((State.unit_leveled h _ _).trans (if_pos hp)),
    congrArg Host.Outcome.next ((State.unit_leveled h _ _).trans (if_pos hp))⟩

/-- A register of the pair's own holds the clamped value. -/
theorem State.srWrite_own {k : Nat} (hk : srListed k = true) (hlt : k < 0x106) (v : Nat) :
    s.srWrite l p k v = s.updP l p fun q => q.ws k (BitVec.ofNat 64 (q.srClamp k v)) := by
  have h6 : k ≠ 0x106 := by omega
  have h7 : k ≠ 0x107 := by omega
  have h8 : k ≠ 0x108 := by omega
  have h9 : k ≠ 0x109 := by omega
  simp [State.srWrite, hk, h6, h7, h8, h9]

theorem State.srRead_own {k : Nat} (hk : srListed k = true) (hlt : k < 0x106) : s.srRead l p k = (s.pr l p).rs k := by
  have h6 : k ≠ 0x106 := by omega
  have h7 : k ≠ 0x107 := by omega
  have h8 : k ≠ 0x108 := by omega
  have h9 : k ≠ 0x109 := by omega
  simp [State.srRead, hk, h6, h7, h8, h9]

theorem State.srRead_srWrite {k : Nat} (hk : srListed k = true) (hlt : k < 0x106) (v : Nat) :
    (s.srWrite l p k v).srRead l p k = BitVec.ofNat 64 ((s.pr l p).srClamp k v) := by
  rw [State.srRead_own hk hlt, State.srWrite_own hk hlt, State.pr_updP, PairS.ws_rs_same]

/-! ## Pair start -/

/-- A pair as its start leaves it (R40, R56, R78): at the first word of its tightly coupled memory, its sequence numbers and debug page kept. -/
def PairS.started (o : PairS) : PairS := { PairS.init with pc := 0x1000000, seqR := o.seqR, seqW := o.seqW, dbg := o.dbg }

/-- The lane with the pair's run bit set and its start report on the link (R56, R90). -/
def LaneS.startReport (n : LaneS) (p : Fin 4) : LaneS :=
  { n with mpairrun := setBit n.mpairrun p.val, reports := n.reports ++ [(p, { count := 0, digest := 0, pace := none })] }

theorem State.pairStart_idle (hp : p.val < s.nPairs) (hr : bitOf (s.ln l).mpairrun p.val = false) :
    s.pairStart l p = (s.updL l fun n => n.startReport p).updP l p PairS.started :=
  if_pos ⟨hp, by simp [hr]⟩

theorem State.ln_updP (s : State) (l : Fin 3) (p : Fin 4) (f : PairS → PairS) :
    (s.updP l p f).ln l = { s.ln l with pairs := (s.ln l).pairs.set p (f (s.pr l p)) } :=
  State.ln_updL s l _

/-- A change of a lane that keeps its pairs. -/
theorem State.pr_updL {f : LaneS → LaneS} (hf : (f (s.ln l)).pairs = (s.ln l).pairs) (m : Fin 3) (r : Fin 4) : (s.updL l f).pr m r = s.pr m r := by
  unfold State.pr
  by_cases e : m = l
  · subst e
    rw [State.ln_updL, hf]
  · rw [State.ln_updL_ne e]

/-- A change of a lane leaves the rest of the module and every register. -/
theorem State.keepsBut_updL {f : LaneS → LaneS} {ps : List Nat} : s.keepsBut (s.updL l f) ps := ⟨rfl, fun _ _ => rfl⟩

/-! ## The granule table -/

theorem State.granWrite_free {v : Nat} (h : ¬ (s.isS = true ∧ 3072 ≤ (s.ln l).mgotx))
    (ho : granRuns (s.ln l).mpairrun (SMap.get (s.ln l).gran (s.ln l).mgotx 0) = false)
    (hn : granRuns (s.ln l).mpairrun (if 5 ≤ v % 8 then 5 else v % 8) = false) :
    s.granWrite l v = s.updL l fun n => { n with gran := SMap.put n.gran (s.ln l).mgotx 0 (if 5 ≤ v % 8 then 5 else v % 8) } := by
  unfold State.granWrite
  dsimp only
  rw [if_neg]
  · rfl
  · simp only [ho, hn, Bool.false_eq_true, or_false]
    exact h

/-! ## Lane reset -/

theorem State.laneReset_boot (s : State) (l : Fin 3) : (s.laneReset l).laneState l = lBoot := by
  refine (State.get_set_same _ (laneField l) lBoot).trans ?_
  match l with
  | 0 => rfl
  | 1 => rfl
  | 2 => rfl

theorem State.ln_laneReset (s : State) (l : Fin 3) : (s.laneReset l).ln l = (s.ln l).resetL := State.ln_updL s l _

theorem exec_laneReset_boot (h : s.laneState l = lBoot) : exec (.laneReset l) s = .next (s.laneReset l) :=
  congrArg Host.Outcome.next (if_pos h)

/-- Settles O9: system registers as the pair's level reaches them, a start, a write of the granule table and a reset, each by the lemma above. -/
theorem systemRegistersAndLaneControl : Obligations.SystemRegistersAndLaneControl := by
  refine ⟨fun l p s g n h => ⟨exec_mfs_allowed h, exec_mts_allowed h, exec_mfs_mts_privileged h, fun k v hk hlt => State.srRead_srWrite hk hlt v⟩,
    fun l p s hp hr => ?start, fun l v s h ho hn => ?granule, fun l s hb => ?reset⟩
  case start =>
    have hpr : (s.pairStart l p).pr l p = (s.pr l p).started := by
      rw [State.pairStart_idle hp hr, State.pr_updP, State.pr_updL rfl]
    have hln : (s.pairStart l p).ln l = { (s.ln l).startReport p with pairs := (s.ln l).pairs.set p (s.pr l p).started } := by
      rw [State.pairStart_idle hp hr, State.ln_updP, State.pr_updL rfl, State.ln_updL]
      rfl
    refine ⟨s.pairStart l p, rfl, ?_⟩
    rw [hpr, hln]
    refine ⟨?_, rfl, fun i => ⟨?_, rfl⟩, fun n => ⟨rfl, rfl⟩, rfl, rfl, rfl, ?_, fun m r h => ?_⟩
    · show bitOf (setBit (s.ln l).mpairrun p.val) p.val = true
      simp [bitOf_setBit]
    · exact ite_self 0
    · rw [State.pairStart_idle hp hr]
      exact State.keepsBut_updP State.keepsBut_updL
    · rw [State.pairStart_idle hp hr, State.pr_updP_ne h, State.pr_updL rfl]
  case granule =>
    refine ⟨_, congrArg Host.Outcome.next (State.granWrite_free h ho hn), ?_⟩
    rw [State.ln_updL]
    exact ⟨SMap.get_put_same _ _ _ _, fun i hi => SMap.get_put_ne hi, State.keepsBut_updL, rfl⟩
  case reset =>
    refine ⟨s.laneReset l, exec_laneReset_boot hb, s.laneReset_boot l, ?_⟩
    rw [State.ln_laneReset]
    exact ⟨rfl, rfl, rfl, rfl, fun m hm => State.ln_updL_ne hm, rfl, fun f hf => State.get_set_ne _ hf⟩

end Sys2Proof.Machine
end

section
/-! What comes before an instruction: a pair that may not run, the exception of a boundary, a refused fetch (02 R45, R49, R50, R52, R56, R76; 03 R93;
04 R111, R113, R129). -/

namespace Sys2Proof.Machine

variable {s : State} {l : Fin 3} {p : Fin 4} {il priv fp : Bool} {body : State → State} {q : PairS}

theorem State.unit_stopped (h : s.canRun l p = false) : s.unit l p il priv fp body = s := by
  simp [State.unit, h]

theorem State.unit_boundary (h : s.canRun l p = true) (hb : (s.pr l p).boundary = (q, true)) :
    s.unit l p il priv fp body = s.updP l p fun _ => q := by
  simp [State.unit, h, hb]

theorem State.unit_fetchRefused {a i : Nat} (h : s.canRun l p = true) (hl : s.laneState l ≠ lBoot) (hb : (s.pr l p).boundary = (q, false))
    (hf : (s.updP l p fun _ => q).rangeFault l p .fetch q.pc.toNat 4 = some (a, i)) :
    s.unit l p il priv fp body = (s.updP l p fun _ => q).precise l p 0x01 i a false := by
  simp [State.unit, h, hb, hl, hf]

/-- Settles O59: every instruction is a unit of its pair, and a unit that is stopped, preceded or refused comes to the same whatever its instruction. -/
theorem boundariesAndStoppedPairs : Obligations.BoundariesAndStoppedPairs := by
  intro l p s all
  have instructions (z : State) (hz : ∀ il priv fp body, s.unit l p il priv fp body = z) : all z := by
    have same (il priv fp body) : (.next (s.unit l p il priv fp body) : Out) = .next z := congrArg Host.Outcome.next (hz il priv fp body)
    exact ⟨fun _ _ _ _ _ => same _ _ _ _, fun _ _ _ _ => same _ _ _ _, fun _ _ _ _ => same _ _ _ _, fun _ _ _ _ => same _ _ _ _,
      fun _ _ _ _ => same _ _ _ _, fun _ _ _ _ => same _ _ _ _, fun _ _ _ _ => same _ _ _ _, fun _ => same _ _ _ _, fun _ => same _ _ _ _,
      fun _ _ _ => same _ _ _ _, fun _ _ _ _ => same _ _ _ _, fun _ _ _ _ => same _ _ _ _, fun _ _ _ _ => same _ _ _ _,
      fun _ _ => same _ _ _ _, fun _ _ => same _ _ _ _, fun _ _ => same _ _ _ _, same _ _ _ _,
      fun ho => (congrArg Host.Outcome.next (if_neg (by simp [ho]))).trans (same _ _ _ _), same _ _ _ _,
      fun _ _ => same _ _ _ _, fun _ _ => same _ _ _ _, fun _ _ _ _ => same _ _ _ _, fun _ _ _ _ => same _ _ _ _,
      fun _ _ _ _ => same _ _ _ _, fun _ _ _ _ => same _ _ _ _, fun _ _ _ _ => same _ _ _ _, fun _ _ _ _ => same _ _ _ _⟩
  exact ⟨fun h => instructions _ fun _ _ _ _ => State.unit_stopped h, fun h _ hb => instructions _ fun _ _ _ _ => State.unit_boundary h hb,
    fun h hl _ _ _ hb hf => instructions _ fun _ _ _ _ => State.unit_fetchRefused h hl hb hf⟩

end Sys2Proof.Machine
end

section
/-! DebugOfAHaltedPair: halt, resume, step, the selected register, breakpoints and watchpoints (04 R129). -/

namespace Sys2Proof.Machine

variable {s t : State} {l : Fin 3} {p : Fin 4}

/-! ## What changes lanes only -/

/-- From s to t nothing but lanes changes. -/
def State.lanesOnly (s t : State) : Prop := ∃ x, t = { s with lanes := x }

theorem State.lanesOnly_refl : s.lanesOnly s := ⟨_, rfl⟩

theorem State.lanesOnly_updL {f : LaneS → LaneS} (h : s.lanesOnly t) : s.lanesOnly (t.updL l f) := by
  obtain ⟨x, rfl⟩ := h
  exact ⟨_, rfl⟩

theorem State.lanesOnly_updP {f : PairS → PairS} (h : s.lanesOnly t) : s.lanesOnly (t.updP l p f) := State.lanesOnly_updL h

theorem State.lanesOnly_ite {c : Prop} [Decidable c] {a b : State} (ha : s.lanesOnly a) (hb : s.lanesOnly b) : s.lanesOnly (if c then a else b) := by
  split
  · exact ha
  · exact hb

theorem State.lanesOnly_each {α : Type} {r : List α} {f : State → α → State} (h : s.lanesOnly t) (hf : ∀ u a, s.lanesOnly u → s.lanesOnly (f u a)) :
    s.lanesOnly (t.each r f) := by
  unfold State.each
  induction r generalizing t with
  | nil => exact h
  | cons a r ih => exact ih (hf t a h)

/-- Registers, hub SRAM and all the rest stay. -/
theorem State.lanesOnly_frame (h : s.lanesOnly t) : s.keepsBut t [] ∧ t.hub = s.hub := by
  obtain ⟨x, rfl⟩ := h
  exact ⟨⟨rfl, fun _ _ => rfl⟩, rfl⟩

/-- A write of a system register: the pair's own, a start of pairs, or the granule table. -/
theorem State.lanesOnly_srWrite (n v : Nat) : s.lanesOnly (s.srWrite l p n v) := by
  have start (u : State) (q : Fin 4) (hu : s.lanesOnly u) : s.lanesOnly (u.pairStart l q) :=
    State.lanesOnly_ite (State.lanesOnly_updP (State.lanesOnly_updL hu)) hu
  have table : s.lanesOnly (s.granWrite l v) := State.lanesOnly_ite State.lanesOnly_refl (State.lanesOnly_updL State.lanesOnly_refl)
  unfold State.srWrite
  exact State.lanesOnly_ite State.lanesOnly_refl (State.lanesOnly_ite
    (State.lanesOnly_ite State.lanesOnly_refl (State.lanesOnly_each State.lanesOnly_refl fun u q hu => State.lanesOnly_ite (start u q hu) hu))
    (State.lanesOnly_ite (State.lanesOnly_ite State.lanesOnly_refl (State.lanesOnly_updL State.lanesOnly_refl))
      (State.lanesOnly_ite (State.lanesOnly_ite State.lanesOnly_refl table) (State.lanesOnly_updP State.lanesOnly_refl))))

/-! ## The selected register -/

/-- The register DBG_REGSEL selects, and the value both halves of DBG_REGDATA give with the high half written. -/
def PairS.dbgSel (q : PairS) : Nat := SMap.get q.dbg 0x048 0
def PairS.dbgData (q : PairS) (hi : Nat) : Nat := SMap.get q.dbg 0x050 0 + hi % 2 ^ 32 * 2 ^ 32

section
variable (hd : s.laneState l = lDebug) (hh : (s.pr l p).halted = true)
include hd hh

/-- A write of a halted pair of a lane in DEBUG, by the register selected. -/
theorem State.dbgRegdata_halted (hi : Nat) : s.dbgRegdata l p hi =
    let r := (s.pr l p).dbgSel
    let x := BitVec.ofNat 64 ((s.pr l p).dbgData hi)
    if r < 32 then s.updP l p fun q => if r = 0 then q else { q with g := SMap.put q.g r 0 x }
    else if r < 64 then s.updP l p fun q => { q with v := SMap.put q.v (r - 32) 0 x }
    else if r = 64 then s.updP l p fun q => { q with pc := x }
    else s.srWrite l p (r - 0x200) ((s.pr l p).dbgData hi) :=
  if_pos (by simp [hd, hh])

theorem State.lanesOnly_dbgRegdata (hi : Nat) : s.lanesOnly (s.dbgRegdata l p hi) := by
  have pair (f : PairS → PairS) : s.lanesOnly (s.updP l p f) := State.lanesOnly_updP State.lanesOnly_refl
  rw [State.dbgRegdata_halted hd hh]
  exact State.lanesOnly_ite (pair _) (State.lanesOnly_ite (pair _) (State.lanesOnly_ite (pair _) (State.lanesOnly_srWrite _ _)))

/-- g0 keeps its 0; another general register takes the value, and nothing else of the pair changes. -/
theorem State.dbgRegdata_general (hi : Nat) (i : Fin 32) (hr : (s.pr l p).dbgSel = i.val) : let t := s.dbgRegdata l p hi
    (t.pr l p).rg i = (if i = 0 then 0 else BitVec.ofNat 64 ((s.pr l p).dbgData hi)) ∧ (t.pr l p).v = (s.pr l p).v ∧
      (t.pr l p).pc = (s.pr l p).pc ∧ (t.pr l p).digest = (s.pr l p).digest := by
  rw [State.dbgRegdata_halted hd hh]
  simp only [hr, i.isLt, if_true, State.pr_updP]
  by_cases h0 : i = 0
  · simp only [h0, Fin.val_zero, if_true, PairS.rg_zero, and_self]
  · have hv : i.val ≠ 0 := fun e => h0 (Fin.ext e)
    simp only [if_neg hv, if_neg h0, PairS.rg, SMap.get_put_same, and_self]

theorem State.dbgRegdata_float (hi : Nat) (i : Fin 32) (hr : (s.pr l p).dbgSel = 32 + i.val) : let t := s.dbgRegdata l p hi
    (t.pr l p).rv i = BitVec.ofNat 64 ((s.pr l p).dbgData hi) ∧ (t.pr l p).g = (s.pr l p).g ∧ (t.pr l p).pc = (s.pr l p).pc := by
  have h1 : ¬ 32 + i.val < 32 := by omega
  have h2 : 32 + i.val < 64 := by omega
  rw [State.dbgRegdata_halted hd hh]
  simp only [hr, if_neg h1, if_pos h2, State.pr_updP, PairS.rv, Nat.add_sub_cancel_left, SMap.get_put_same, and_self]

theorem State.dbgRegdata_pc (hi : Nat) (hr : (s.pr l p).dbgSel = 64) : let t := s.dbgRegdata l p hi
    (t.pr l p).pc = BitVec.ofNat 64 ((s.pr l p).dbgData hi) ∧ (t.pr l p).g = (s.pr l p).g ∧ (t.pr l p).v = (s.pr l p).v := by
  rw [State.dbgRegdata_halted hd hh]
  simp [hr]

theorem State.dbgRegdata_system (hi : Nat) (hr : 65 ≤ (s.pr l p).dbgSel) :
    s.dbgRegdata l p hi = s.srWrite l p ((s.pr l p).dbgSel - 0x200) ((s.pr l p).dbgData hi) := by
  rw [State.dbgRegdata_halted hd hh]
  exact (if_neg (by omega)).trans ((if_neg (by omega)).trans (if_neg (by omega)))

end

/-- Outside DEBUG the debug page and its comparators do nothing. -/
theorem exec_dbg_outside (h : s.laneState l ≠ lDebug) (v a n : Nat) (w : Bool) :
    exec (.dbgHalt l p) s = .next s ∧ exec (.dbgResume l p) s = .next s ∧ exec (.dbgStep l p) s = .next s ∧
    exec (.dbgRegdataWrite l p v) s = .next s ∧ exec (.breakpointHit l p) s = .next s ∧ exec (.watchpointHit l p a n w) s = .next s := by
  have off (b : Bool) (u : State) : (if s.laneState l = lDebug && b then u else s) = s := if_neg (by simp [h])
  exact ⟨congrArg Host.Outcome.next (off _ _), congrArg Host.Outcome.next (if_neg h), congrArg Host.Outcome.next (if_neg h),
    congrArg Host.Outcome.next (off _ _), congrArg Host.Outcome.next (if_neg (by simp [h])), congrArg Host.Outcome.next (if_neg (by simp [h]))⟩

/-- Settles O18: each command tests for DEBUG first; the register written is the one DBG_REGSEL selects, by the lemmas above. -/
theorem debugOfAHaltedPair : Obligations.DebugOfAHaltedPair := by
  intro l p s q
  refine ⟨fun hd => ⟨fun hr => ?halt, ?resume, ?step, fun hr hb => ?breakpoint, fun a n w hr hw => ?watchpoint, fun hi hh => ?regdata⟩,
    fun hd v a n w => exec_dbg_outside hd v a n w⟩
  case halt => exact congrArg Host.Outcome.next (if_pos (by simpa [hd] using hr))
  case resume => exact congrArg Host.Outcome.next (if_pos hd)
  case step => exact congrArg Host.Outcome.next (if_pos hd)
  case breakpoint => exact congrArg Host.Outcome.next (if_pos (by simpa [hd] using ⟨hr, hb⟩))
  case watchpoint => exact congrArg Host.Outcome.next (if_pos (by simpa [hd] using ⟨hr, hw⟩))
  case regdata =>
    obtain ⟨hk, hub⟩ := State.lanesOnly_frame (State.lanesOnly_dbgRegdata hd hh hi)
    exact ⟨_, rfl, State.dbgRegdata_general hd hh hi, State.dbgRegdata_float hd hh hi, State.dbgRegdata_pc hd hh hi,
      State.dbgRegdata_system hd hh hi, hk, hub⟩

end Sys2Proof.Machine
end

section
/-! The lane manager's registers, its state and the passive latch over what the end of a rejoin, a boot or a lane's vote brings with it (04 R106 to R120). -/

namespace Sys2Proof.Machine

variable {s t u : State} {l : Fin 3} {p : Fin 4}

/-! ## What stays over interrupts, records and the Courier's work -/

/-- Keys of the lane manager's registers but its interrupt latch and its count of isolations, and the key of the mask of voters. -/
def mgKey (k : Nat) : Prop := lmKey k ∧ k ≠ (rawOf 9).key ∧ k ≠ LANEMGR_iso_count.key

/-- From s to t these registers, the lane manager's state and the passive latch stay. -/
def State.sameMg (s t : State) : Prop := (∀ g : Fld, mgKey g.key → t.get g = s.get g) ∧ t.mgr = s.mgr ∧ t.latch = s.latch

theorem mgKey_page {g : Fld} (h : mgKey g.key) : g.pageOf ≠ 7 ∧ g.pageOf ≠ 0x0A := by
  rcases lmKey_page h.1 with e | e <;> rw [e] <;> decide

theorem State.sameMg_refl : s.sameMg s := ⟨fun _ _ => rfl, rfl, rfl⟩

theorem State.sameMg_trans (h : s.sameMg t) (h' : t.sameMg u) : s.sameMg u :=
  ⟨fun g k => (h'.1 g k).trans (h.1 g k), h'.2.1.trans h.2.1, h'.2.2.trans h.2.2⟩

theorem State.sameMg_set {f : Fld} {v : Nat} (h : s.sameMg t) (k : ¬ mgKey f.key) : s.sameMg (t.set f v) :=
  ⟨fun g hg => (State.get_set_ne t fun e => k (e ▸ hg)).trans (h.1 g hg), h.2⟩

/-- A change of what holds no register, nor the lane manager's state, nor the latch. -/
theorem State.sameMg_upd (h : s.sameMg t) (hg : u.regs = t.regs) (hm : u.mgr = t.mgr) (hl : u.latch = t.latch) : s.sameMg u :=
  ⟨fun g k => by rw [← h.1 g k]; unfold State.get; rw [hg], hm.trans h.2.1, hl.trans h.2.2⟩

theorem State.sameMg_updA {f : AssayS → AssayS} (h : s.sameMg t) : s.sameMg (t.updA f) := State.sameMg_upd h rfl rfl rfl
theorem State.sameMg_updC {f : CourS → CourS} (h : s.sameMg t) : s.sameMg (t.updC p f) := State.sameMg_upd h rfl rfl rfl
theorem State.sameMg_updL {f : LaneS → LaneS} (h : s.sameMg t) : s.sameMg (t.updL l f) := State.sameMg_upd h rfl rfl rfl

theorem State.sameMg_each {α : Type} {r : List α} {f : State → α → State} (h : s.sameMg t) (hf : ∀ u a, s.sameMg u → s.sameMg (f u a)) :
    s.sameMg (t.each r f) := by
  unfold State.each
  induction r generalizing t with
  | nil => exact h
  | cons a r ih => exact ih (hf t a h)

/-- What changes pages of the Ledger and the Courier only. -/
theorem State.sameMg_keeps {ps : List Nat} (h : s.sameMg t) (k : t.keepsBut u ps) (hp : ∀ n ∈ ps, n = 7 ∨ n = 0x0A) : s.sameMg u := by
  obtain ⟨hr, hg⟩ := k
  simp only [State.rest, Prod.mk.injEq] at hr
  obtain ⟨⟨-, -, -, -, hm, hl, -⟩, -⟩ := hr
  exact ⟨fun g k => (hg g fun hn => (hp _ hn).elim (mgKey_page k).1 (mgKey_page k).2).trans (h.1 g k), hm.trans h.2.1, hl.trans h.2.2⟩

theorem State.sameMg_raiseInt {page bit : Nat} (h : s.sameMg t) (hp : ¬ mgKey (rawOf page).key) : s.sameMg (t.raiseInt page bit) := by
  have hr := State.rest_raiseInt t page bit
  simp only [State.rest, Prod.mk.injEq] at hr
  obtain ⟨⟨-, -, -, -, hm, hl, -⟩, -⟩ := hr
  exact ⟨fun g k => (State.get_raiseInt_ne (mgKey_page k).2 fun e => hp (e ▸ k)).trans (h.1 g k), hm.trans h.2.1, hl.trans h.2.2⟩

theorem State.sameMg_raise9 {bit : Nat} (h : s.sameMg t) : s.sameMg (t.raiseInt 9 bit) := State.sameMg_raiseInt h fun k => k.2.1 rfl

theorem State.sameMg_isolated (h : s.sameMg t) : s.sameMg (t.count LANEMGR_iso_count) := State.sameMg_set h fun k => k.2.2 rfl

theorem State.sameMg_lmRecord {code sev mask : Nat} (h : s.sameMg t) (hs : sev < 8) : s.sameMg (t.lmRecord code sev l mask) :=
  State.sameMg_keeps h (State.keepsBut_recordX (ps := [7, 0x0A]) State.keepsBut_refl hs (by simp) (by simp)) (by simp)

theorem State.sameMg_freeDone (h : s.sameMg t) : s.sameMg t.freeDone := State.sameMg_updA h
theorem State.sameMg_courDropLane (h : s.sameMg t) : s.sameMg (t.courDropLane l) := State.sameMg_each h fun _ _ hu => State.sameMg_updC hu

theorem State.sameMg_setMode {m : Nat} (h : s.sameMg t) : s.sameMg (t.setMode m) := by
  unfold State.setMode
  split
  · exact h
  · exact State.sameMg_raiseInt (State.sameMg_set (State.sameMg_set h (by unfold mgKey lmKey; decide)) (by unfold mgKey lmKey; decide))
      (by unfold mgKey lmKey; decide)

/-! ## The same change on both sides -/

/-- What a read gives after a write to its key does not depend on what stood there. -/
theorem SMap.get_put_key {α : Type} [DecidableEq α] (m n : SMap α) (k : Nat) (d v e : α) :
    SMap.get (SMap.put m k d v) k e = SMap.get (SMap.put n k d v) k e := by
  unfold SMap.get SMap.put
  split
  · rw [SMap.find?_erase_same, SMap.find?_erase_same]
  · rw [SMap.find?_insert_same (SMap.find?_erase_same m k), SMap.find?_insert_same (SMap.find?_erase_same n k)]

theorem State.sameMg_set_both (h : s.sameMg t) (f : Fld) (v : Nat) : (s.set f v).sameMg (t.set f v) := by
  refine ⟨fun g hg => ?_, h.2⟩
  by_cases e : g.key = f.key
  · show SMap.get (SMap.put _ _ _ _) g.key _ = SMap.get (SMap.put _ _ _ _) g.key _
    rw [e]
    exact SMap.get_put_key _ _ _ _ _ _
  · rw [State.get_set_ne _ e, State.get_set_ne _ e]
    exact h.1 g hg

theorem State.sameMg_setCause_both (h : s.sameMg t) (l : Fin 3) (cause pair item : Nat) :
    (s.setCause l cause pair item).sameMg (t.setCause l cause pair item) :=
  State.sameMg_set_both (State.sameMg_set_both (State.sameMg_set_both h _ _) _ _) _ _

/-! ## What reads them -/

theorem mgKey_lanes (l : Fin 3) : mgKey (laneField l).key ∧ mgKey (LM_CAUSE_0 l.val).key ∧ mgKey (LM_CAUSE_4 l.val).key ∧ mgKey (LM_CAUSE_8 l.val).key := by
  revert l; unfold mgKey lmKey; decide

theorem mgKey_single : mgKey LANEMGR_rejoin_lane.key ∧ mgKey LM_REJ_STAT_0.key ∧ mgKey LM_REJ_STAT_4.key ∧ mgKey LM_CMD_STAT_0.key ∧ mgKey ASSAY_voters.key := by
  unfold mgKey lmKey; decide

theorem State.sameMg_laneState (h : s.sameMg t) (l : Fin 3) : t.laneState l = s.laneState l := h.1 _ (mgKey_lanes l).1

theorem laneField_apart {l m : Fin 3} (h : m ≠ l) : (laneField m).key ≠ (laneField l).key := by
  revert l m; decide

/-- The state of a lane after a lane's state is set. -/
theorem State.laneState_set (s : State) (l m : Fin 3) {v : Nat} (hv : v < 8) :
    (s.set (laneField l) v).laneState m = if m = l then v else s.laneState m := by
  have width : (laneField l).w = 3 := by revert l; decide
  split
  · rename_i e
    rw [e]
    exact (State.get_set_same _ _ _).trans (by rw [width]; exact Nat.mod_eq_of_lt hv)
  · rename_i e
    exact State.get_set_ne _ (laneField_apart e)

theorem State.lanesIn_congr {st : Nat} (h : ∀ l, t.laneState l = st ↔ s.laneState l = st) : t.lanesIn st = s.lanesIn st := by
  unfold State.lanesIn
  refine List.filter_congr fun l _ => ?_
  rw [Bool.eq_iff_iff, beq_iff_eq, beq_iff_eq]
  exact h l

theorem State.rejoinLane_congr (h : t.get LANEMGR_rejoin_lane = s.get LANEMGR_rejoin_lane) : t.rejoinLane = s.rejoinLane := by
  unfold State.rejoinLane; rw [h]

theorem State.sameMg_rejoinLane (h : s.sameMg t) : t.rejoinLane = s.rejoinLane := State.rejoinLane_congr (h.1 _ mgKey_single.1)

theorem State.passive_congr (h : t.latch = s.latch) : t.passive = s.passive := by
  unfold State.passive; rw [h]

end Sys2Proof.Machine
end

section
/-! The hold released, and a rejoin that fails (04 R117 to R120; 05 R141, R145). -/

namespace Sys2Proof.Machine

variable {s t u : State} {l : Fin 3} {p : Fin 4}

/-! ## The releases the Courier forms -/

/-- From s to t the lanes, the lane manager's state, the latch and the registers of every page but the Courier's stay, and `suspended` too. -/
def State.sameRel (s t : State) : Prop := t.lanes = s.lanes ∧ t.mgr = s.mgr ∧ t.latch = s.latch ∧
  ∀ g : Fld, g.pageOf ≠ 0x0A ∨ g.key = COURIER_suspended.key → t.get g = s.get g

theorem State.sameRel_refl : s.sameRel s := ⟨rfl, rfl, rfl, fun _ _ => rfl⟩

theorem Fld.pageOf_congr {f g : Fld} (h : g.key = f.key) : g.pageOf = f.pageOf := congrArg (fun k => k / 131072 % 128) h

theorem State.sameRel_set {f : Fld} {v : Nat} (h : s.sameRel t) (hp : f.pageOf = 0x0A) (hk : f.key ≠ COURIER_suspended.key) : s.sameRel (t.set f v) := by
  obtain ⟨h1, h2, h3, h4⟩ := h
  refine ⟨h1, h2, h3, fun g hg => (State.get_set_ne t fun e => ?_).trans (h4 g hg)⟩
  rcases hg with hg | hg
  · exact hg ((Fld.pageOf_congr e).trans hp)
  · exact hk (e.symm.trans hg)

theorem State.sameRel_courShow (h : s.sameRel t) : s.sameRel (t.courShow p) := by
  unfold State.courShow State.setB State.raiseTo
  refine State.sameRel_set (State.sameRel_set (State.sameRel_set h ?_ ?_) ?_ ?_) ?_ ?_ <;> (revert p; decide)

theorem State.sameRel_releaseTry (h : s.sameRel t) : s.sameRel (t.releaseTry p) := by
  unfold State.releaseTry
  split
  · exact h
  · split
    · exact h
    · split
      · unfold State.release
        split
        · exact h
        · exact State.sameRel_courShow h
      · exact h

theorem State.sameRel_releaseAll (s : State) : s.sameRel (s.each allPairs fun s p => s.releaseTry p) := by
  have step (l : List (Fin 4)) : ∀ t, s.sameRel t → s.sameRel (t.each l fun s p => s.releaseTry p) := by
    unfold State.each
    induction l with
    | nil => exact fun _ h => h
    | cons p r ih => exact fun t h => ih _ (State.sameRel_releaseTry h)
  exact step _ _ State.sameRel_refl

/-! ## The hold released -/

/-- No hold is in progress, nor falls due. -/
def MgrS.unheld (m : MgrS) : MgrS := { m with hold := none, holdDue := false }

/-- A pair that runs on. -/
def PairS.unheld (q : PairS) : PairS := { q with held := false }

/-- Every pair runs on. -/
def State.pairsRun (s : State) : State := s.each allLanes fun s l => s.each allPairs fun s p => s.updP l p PairS.unheld

/-- A pair over a fold whose steps leave it, or do to it what need be done once only. -/
theorem State.pr_each {α : Type} {r : List α} {f : State → α → State} {g : PairS → PairS} {b : α → Bool} (hg : ∀ q, g (g q) = g q)
    (h : ∀ u a, (f u a).pr l p = if b a then g (u.pr l p) else u.pr l p) : (s.each r f).pr l p = if r.any b then g (s.pr l p) else s.pr l p := by
  unfold State.each
  induction r generalizing s with
  | nil => rfl
  | cons a r ih =>
    rw [List.foldl_cons, ih, h, List.any_cons]
    cases b a <;> cases r.any b <;> simp [hg]

theorem State.pr_updP_unheld (s : State) (l m : Fin 3) (p r : Fin 4) :
    (s.updP m r PairS.unheld).pr l p = if m == l && r == p then (s.pr l p).unheld else s.pr l p := by
  split
  · rename_i e
    obtain ⟨e1, e2⟩ := Bool.and_eq_true_iff.1 e
    rw [← beq_iff_eq.1 e1, ← beq_iff_eq.1 e2, State.pr_updP]
  · rename_i e
    refine State.pr_updP_ne (not_and_or.1 fun n => e ?_)
    rw [n.1, n.2, beq_self_eq_true, beq_self_eq_true, Bool.and_self]

theorem State.pr_pairsRun (s : State) (l : Fin 3) (p : Fin 4) : s.pairsRun.pr l p = (s.pr l p).unheld := by
  have every : (allLanes.any fun m => allPairs.any fun r => m == l && r == p) = true := by revert l p; decide
  have lane (u : State) (m : Fin 3) : (u.each allPairs fun s p => s.updP m p PairS.unheld).pr l p =
      if allPairs.any (fun r => m == l && r == p) then (u.pr l p).unheld else u.pr l p :=
    State.pr_each (g := PairS.unheld) (b := fun r => m == l && r == p) (fun _ => rfl) fun u r => u.pr_updP_unheld l m p r
  exact (State.pr_each (g := PairS.unheld) (b := fun m => allPairs.any fun r => m == l && r == p) (fun _ => rfl) lane).trans (if_pos every)

theorem State.lanesOnly_pairsRun (s : State) : s.lanesOnly s.pairsRun :=
  State.lanesOnly_each State.lanesOnly_refl fun _ _ hu => State.lanesOnly_each hu fun _ _ hv => State.lanesOnly_updP hv

theorem State.holdRelease_eq (s : State) : s.holdRelease =
    ((s.pairsRun.updM MgrS.unheld).set COURIER_suspended 0).each allPairs fun s p => s.releaseTry p := rfl

/-- What a release of the hold leaves: no hold, no pair held, the Courier at work again. -/
theorem State.holdRelease_spec (s : State) : s.holdRelease.mgr = s.mgr.unheld ∧ s.holdRelease.get COURIER_suspended = 0 ∧
    (∀ l p, s.holdRelease.pr l p = (s.pr l p).unheld) ∧ s.holdRelease.latch = s.latch ∧
    ∀ g : Fld, g.pageOf ≠ 0x0A → s.holdRelease.get g = s.get g := by
  rw [State.holdRelease_eq]
  obtain ⟨hl, hm, hx, hg⟩ := State.sameRel_releaseAll ((s.pairsRun.updM MgrS.unheld).set COURIER_suspended 0)
  have run (l : Fin 3) (p : Fin 4) : s.pairsRun.pr l p = (s.pr l p).unheld := s.pr_pairsRun l p
  obtain ⟨x, hs⟩ := s.lanesOnly_pairsRun
  rw [hs] at run hl hm hx hg ⊢
  refine ⟨hm, ?_, fun l p => ?_, hx, fun g hp => ?_⟩
  · exact (hg _ (.inr rfl)).trans (State.get_set_same _ _ _)
  · rw [← run]
    unfold State.pr State.ln
    rw [hl]
    rfl
  · exact (hg g (.inl hp)).trans (State.get_set_ne _ fun e => hp (Fld.pageOf_congr e))

theorem State.sameMg_holdRelease (s : State) : (s.updM MgrS.unheld).sameMg s.holdRelease := by
  obtain ⟨hm, -, -, hl, hg⟩ := s.holdRelease_spec
  exact ⟨fun g k => hg g (mgKey_page k).2, hm, hl⟩

/-! ## A rejoin that fails (R119, R120) -/

/-- The lane manager after a failed rejoin of lane l. -/
def State.rejoinLeft (s : State) (l : Fin 3) (cause pair item : Nat) : State :=
  ((((s.updM MgrS.unheld).set (laneField l) lIsolated).setCause l cause pair item).set LANEMGR_rejoin_lane 7).set LM_REJ_STAT_0 0

theorem State.sameMg_rejoinFail (s : State) (l : Fin 3) (cause pair item : Nat) {before : State → State} (hb : ∀ u : State, u.sameMg (before u)) :
    (s.rejoinLeft l cause pair item).sameMg (s.rejoinFail l cause pair item before) := by
  have h1 := State.sameMg_setCause_both (State.sameMg_set_both s.sameMg_holdRelease (laneField l) lIsolated) l cause pair item
  have h2 := State.sameMg_lmRecord (code := 0x0909) (sev := 5) (mask := s.activeMask) (l := l) (State.sameMg_trans h1 (hb _)) (by decide)
  have h3 := State.sameMg_set_both (State.sameMg_set_both h2 LANEMGR_rejoin_lane 7) LM_REJ_STAT_0 0
  exact State.sameMg_raise9 (State.sameMg_raise9 (State.sameMg_isolated (State.sameMg_freeDone (State.sameMg_courDropLane
    (State.sameMg_updA (State.sameMg_updL h3))))))

/-- The registers a failed rejoin writes are apart, and that of the voters from them. -/
theorem rejoinKeys_apart (l : Fin 3) :
    ((laneField l).key ≠ LANEMGR_rejoin_lane.key ∧ (laneField l).key ≠ LM_REJ_STAT_0.key ∧ LANEMGR_rejoin_lane.key ≠ LM_REJ_STAT_0.key) ∧
    (∀ m : Fin 3, (laneField m).key ≠ (LM_CAUSE_0 l.val).key ∧ (laneField m).key ≠ (LM_CAUSE_4 l.val).key ∧ (laneField m).key ≠ (LM_CAUSE_8 l.val).key) ∧
    (∀ g ∈ [LM_CAUSE_0 l.val, LM_CAUSE_4 l.val, LM_CAUSE_8 l.val], g.key ≠ LANEMGR_rejoin_lane.key ∧ g.key ≠ LM_REJ_STAT_0.key) ∧
    ∀ g ∈ [LM_CAUSE_0 l.val, LM_CAUSE_4 l.val, LM_CAUSE_8 l.val, laneField l], ASSAY_voters.key ≠ g.key := by
  revert l; decide

/-- What the lane manager shows after a failed rejoin. -/
theorem State.rejoinLeft_reads (s : State) (l : Fin 3) {cause pair item : Nat} (hc : cause < 16) (hp : pair < 4) (hi : item < 8) :
    let t := s.rejoinLeft l cause pair item
    t.laneState l = lIsolated ∧ (∀ m, m ≠ l → t.laneState m = s.laneState m) ∧ t.get (LM_CAUSE_0 l.val) = cause ∧ t.get (LM_CAUSE_4 l.val) = pair ∧
      t.get (LM_CAUSE_8 l.val) = item ∧ t.get LANEMGR_rejoin_lane = 7 ∧ t.get LM_REJ_STAT_0 = 0 ∧ t.get ASSAY_voters = s.get ASSAY_voters := by
  obtain ⟨⟨-, -, k3⟩, k4, k6, k7⟩ := rejoinKeys_apart l
  obtain ⟨c0, c4, c8, cg⟩ := ((s.updM MgrS.unheld).set (laneField l) lIsolated).setCause_reads l cause pair item hc hp hi
  have below {g : Fld} (h1 : g.key ≠ LANEMGR_rejoin_lane.key) (h2 : g.key ≠ LM_REJ_STAT_0.key) :
      (s.rejoinLeft l cause pair item).get g = (((s.updM MgrS.unheld).set (laneField l) lIsolated).setCause l cause pair item).get g := by
    unfold State.rejoinLeft
    rw [State.get_set_ne _ h2, State.get_set_ne _ h1]
  have lane (m : Fin 3) : (s.rejoinLeft l cause pair item).laneState m = ((s.updM MgrS.unheld).set (laneField l) lIsolated).laneState m :=
    (below (rejoinKeys_apart m).1.1 (rejoinKeys_apart m).1.2.1).trans (cg _ (k4 m).1 (k4 m).2.1 (k4 m).2.2)
  refine ⟨?_, fun m hm => ?_, ?_, ?_, ?_, ?_, ?_, ?_⟩
  · exact (lane l).trans ((State.laneState_set _ l l (by decide)).trans (if_pos rfl))
  · exact (lane m).trans ((State.laneState_set _ l m (by decide)).trans (if_neg hm))
  · exact (below (k6 _ (by simp)).1 (k6 _ (by simp)).2).trans c0
  · exact (below (k6 _ (by simp)).1 (k6 _ (by simp)).2).trans c4
  · exact (below (k6 _ (by simp)).1 (k6 _ (by simp)).2).trans c8
  · exact (State.get_set_ne _ k3).trans (State.get_set_same _ _ _)
  · exact State.get_set_same _ _ _
  · refine (below (by decide) (by decide)).trans ((cg _ ?_ ?_ ?_).trans (State.get_set_ne _ ?_)) <;> exact k7 _ (by simp)

/-- Lane r is out of the rejoin that failed: ISOLATED, with cause and item, and no hold in progress. -/
def State.rejoinOver (t : State) (r : Fin 3) (cause item : Nat) : Prop :=
  t.laneState r = lIsolated ∧ t.rejoinLane = none ∧ t.mgr.hold = none ∧ t.get (LM_CAUSE_0 r.val) = cause ∧ t.get (LM_CAUSE_8 r.val) = item

theorem State.rejoinOver_sameMg {cause item : Nat} (h : s.rejoinOver l cause item) (k : s.sameMg t) : t.rejoinOver l cause item := by
  obtain ⟨h1, h2, h3, h4, h5⟩ := h
  obtain ⟨-, k0, -, k8⟩ := mgKey_lanes l
  exact ⟨(State.sameMg_laneState k l).trans h1, (State.sameMg_rejoinLane k).trans h2, by rw [k.2.1]; exact h3, (k.1 _ k0).trans h4, (k.1 _ k8).trans h5⟩

theorem State.rejoinFail_over (s : State) (r : Fin 3) {cause pair item : Nat} (hc : cause < 16) (hp : pair < 4) (hi : item < 8) {before : State → State}
    (hb : ∀ u : State, u.sameMg (before u)) : (s.rejoinFail r cause pair item before).rejoinOver r cause item := by
  obtain ⟨h1, -, h2, -, h3, h4, -, -⟩ := s.rejoinLeft_reads r hc hp hi
  refine State.rejoinOver_sameMg ⟨h1, ?_, rfl, h2, h3⟩ (s.sameMg_rejoinFail r cause pair item hb)
  unfold State.rejoinLane
  rw [h4]
  rfl

end Sys2Proof.Machine
end

section
/-! LaneFaults: a comparator, the memory, the watchdog or the link of a lane fails (01 R16; 03 R96; 04 R106, R107, R112, R120). -/

namespace Sys2Proof.Machine

variable {s t : State} {l : Fin 3}

/-! ## A lane in BOOT that does not start -/

/-- The lane manager's state once lane l does not start. -/
def MgrS.notReady (m : MgrS) (l : Fin 3) : MgrS := { m with ready := m.ready.set l false, detach := if m.detach = some l then none else m.detach }

/-- The lane manager after the boot of lane l has failed. -/
def State.bootLeft (s : State) (l : Fin 3) (cause pair item : Nat) : State :=
  ((s.updM fun m => m.notReady l).set (laneField l) lIsolated).setCause l cause pair item

theorem State.sameMg_bootFault (s : State) (l : Fin 3) (cause pair item code : Nat) :
    (s.bootLeft l cause pair item).sameMg (s.bootFault l cause pair item code) :=
  State.sameMg_raise9 (State.sameMg_isolated (State.sameMg_lmRecord State.sameMg_refl (by decide)))

/-- What the lane manager shows after the boot of lane l has failed. -/
theorem State.bootFault_reads (s : State) (l : Fin 3) (code : Nat) {cause pair item : Nat} (hc : cause < 16) (hp : pair < 4) (hi : item < 8) :
    let t := s.bootFault l cause pair item code
    t.laneState l = lIsolated ∧ (∀ m, m ≠ l → t.laneState m = s.laneState m) ∧ t.get (LM_CAUSE_0 l.val) = cause ∧ t.get (LM_CAUSE_4 l.val) = pair ∧
      t.get (LM_CAUSE_8 l.val) = item ∧ t.rejoinLane = s.rejoinLane ∧ t.get ASSAY_voters = s.get ASSAY_voters ∧
      t.mgr = s.mgr.notReady l ∧ t.passive = s.passive := by
  obtain ⟨-, k4, k6, k7⟩ := rejoinKeys_apart l
  obtain ⟨-, m0, m4, m8⟩ := mgKey_lanes l
  obtain ⟨c0, c4, c8, cg⟩ := ((s.updM fun m => m.notReady l).set (laneField l) lIsolated).setCause_reads l cause pair item hc hp hi
  have hs := s.sameMg_bootFault l cause pair item code
  have lane (m : Fin 3) : (s.bootFault l cause pair item code).laneState m = ((s.updM fun m => m.notReady l).set (laneField l) lIsolated).laneState m :=
    (State.sameMg_laneState hs m).trans (cg _ (k4 m).1 (k4 m).2.1 (k4 m).2.2)
  refine ⟨?_, fun m hm => ?_, (hs.1 _ m0).trans c0, (hs.1 _ m4).trans c4, (hs.1 _ m8).trans c8, ?_, ?_, hs.2.1, State.passive_congr hs.2.2⟩
  · exact (lane l).trans ((State.laneState_set _ l l (by decide)).trans (if_pos rfl))
  · exact (lane m).trans ((State.laneState_set _ l m (by decide)).trans (if_neg hm))
  · refine (State.sameMg_rejoinLane hs).trans (State.rejoinLane_congr ((cg _ ?_ ?_ ?_).trans (State.get_set_ne _ (rejoinKeys_apart l).1.1.symm))) <;>
    exact (k6 _ (by simp)).1.symm
  · refine (hs.1 _ mgKey_single.2.2.2.2).trans ((cg _ ?_ ?_ ?_).trans (State.get_set_ne _ ?_)) <;> exact k7 _ (by simp)

/-! ## The lanes that are ready enter (R112) -/

theorem mem_allLanes (l : Fin 3) : l ∈ allLanes := by revert l; decide

theorem State.mem_readyLanes {m : Fin 3} : m ∈ s.readyLanes ↔ s.mgr.ready.get m = true ∧ s.laneState m = lBoot := by
  simp [State.readyLanes, mem_allLanes]

/-- A list of lanes set to ACTIVE: their states, and every other register. -/
theorem State.each_active (r : List (Fin 3)) (s : State) :
    (∀ m, (s.each r fun s l => s.set (laneField l) lActive).laneState m = if m ∈ r then lActive else s.laneState m) ∧
    ∀ g : Fld, (∀ m, g.key ≠ (laneField m).key) → (s.each r fun s l => s.set (laneField l) lActive).get g = s.get g := by
  unfold State.each
  induction r generalizing s with
  | nil => exact ⟨fun m => (if_neg (by simp)).symm, fun _ _ => rfl⟩
  | cons l r ih =>
    obtain ⟨h1, h2⟩ := ih (s.set (laneField l) lActive)
    refine ⟨fun m => ?_, fun g hg => (h2 g hg).trans (State.get_set_ne _ (hg l))⟩
    rw [List.foldl_cons, h1, State.laneState_set _ _ _ (by decide)]
    by_cases hm : m ∈ r <;> by_cases hl : m = l <;> simp [hm, hl]

theorem causeKeys_apart (l : Fin 3) : ∀ g ∈ [LM_CAUSE_0 l.val, LM_CAUSE_4 l.val, LM_CAUSE_8 l.val],
    mgKey g.key ∧ g.key ≠ ASSAY_voters.key ∧ ∀ m : Fin 3, g.key ≠ (laneField m).key := by
  revert l; unfold mgKey lmKey; decide

/-- The lanes that are ready become ACTIVE; the other lanes' states and every cause stay. -/
theorem State.lanesEnter_reads (s : State) : (∀ m, s.lanesEnter.laneState m = if m ∈ s.readyLanes then lActive else s.laneState m) ∧
    ∀ g : Fld, mgKey g.key → g.key ≠ ASSAY_voters.key → (∀ m, g.key ≠ (laneField m).key) → s.lanesEnter.get g = s.get g := by
  let u := s.each s.readyLanes fun s l => s.set (laneField l) lActive
  let v := u.set ASSAY_voters (s.readyLanes.foldl (fun m l => setBit m l.val) 0)
  have hs : ∀ g : Fld, mgKey g.key → s.lanesEnter.get g = v.get g :=
    (State.sameMg_set (f := COUR_PAIRSTAT_13 0) (v := 1) (State.sameMg_setMode (s := v) (m := if s.readyLanes.length = 3 then 3 else 2) State.sameMg_refl)
      (by unfold mgKey lmKey; decide)).1
  obtain ⟨h1, h2⟩ := State.each_active s.readyLanes s
  refine ⟨fun m => ?_, fun g hg hv hl => ?_⟩
  · exact ((hs _ (mgKey_lanes m).1).trans (State.get_set_ne _ ((rejoinKeys_apart m).2.2.2 _ (by simp)).symm)).trans (h1 m)
  · exact ((hs g hg).trans (State.get_set_ne _ hv)).trans (h2 g hl)

/-- A lane whose boot has failed leaves the other lanes in their start boot only if it was itself in it. -/
theorem State.starting_bootFault {cause pair item code : Nat} (hb : s.laneState l = lBoot) (hc : cause < 16) (hp : pair < 4) (hi : item < 8)
    (h : (s.bootFault l cause pair item code).starting = true) : s.starting = true := by
  obtain ⟨b1, b2, -, -, -, b3, -, -, b4⟩ := s.bootFault_reads l code hc hp hi
  have hA : (s.bootFault l cause pair item code).lanesIn lActive = s.lanesIn lActive := State.lanesIn_congr fun m => by
    by_cases e : m = l
    · rw [e, b1, hb]; decide
    · rw [b2 m e]
  have hB : l ∈ s.lanesIn lBoot := List.mem_filter.2 ⟨mem_allLanes l, beq_iff_eq.2 hb⟩
  unfold State.starting at h ⊢
  rw [hA, b3, b4] at h
  simp only [Bool.and_eq_true] at h ⊢
  refine ⟨h.1, ?_⟩
  rw [Bool.not_eq_true', List.isEmpty_eq_false_iff]
  exact List.ne_nil_of_mem hB

/-! ## A fault of a lane by its state -/

/-- Lane l has left for ISOLATED with its cause: what of the other lanes, the voters and the rejoin stays. -/
def State.faulted (s t : State) (l : Fin 3) (cause pair item : Nat) : Prop :=
  t.laneState l = lIsolated ∧ t.get (LM_CAUSE_0 l.val) = cause ∧ t.get (LM_CAUSE_4 l.val) = pair ∧ t.get (LM_CAUSE_8 l.val) = item ∧
  (∀ m, m ≠ l → t.laneState m = s.laneState m ∨
    (s.laneState l = lBoot ∧ s.starting = true ∧ s.laneState m = lBoot ∧ s.mgr.ready.get m = true ∧ t.laneState m = lActive)) ∧
  (s.laneState l = lActive → t.get ASSAY_voters = clrBit (s.get ASSAY_voters) l.val % 8) ∧
  (s.laneState l = lApprentice ∨ (s.laneState l = lBoot ∧ s.starting = false) → t.get ASSAY_voters = s.get ASSAY_voters) ∧
  (s.laneState l = lApprentice → t.get LANEMGR_rejoin_lane = 7)

section
variable {cause pair item : Nat} (code : Nat) (hc : cause < 16) (hp : pair < 4) (hi : item < 8)
include hc hp hi

theorem State.laneFault_active (h : s.laneState l = lActive) : s.faulted (s.laneFault l cause pair item code) l cause pair item := by
  have e : s.laneFault l cause pair item code = ((s.unvote l).setCause l cause pair item).lmRecord code 6 l s.activeMask := if_pos h
  obtain ⟨-, k4, -, k7⟩ := rejoinKeys_apart l
  obtain ⟨-, m0, m4, m8⟩ := mgKey_lanes l
  obtain ⟨u1, u2, u3, -⟩ := s.unvote_lane l
  obtain ⟨c0, c4, c8, cg⟩ := (s.unvote l).setCause_reads l cause pair item hc hp hi
  have hs : ((s.unvote l).setCause l cause pair item).sameMg (((s.unvote l).setCause l cause pair item).lmRecord code 6 l s.activeMask) :=
    State.sameMg_lmRecord State.sameMg_refl (by decide)
  have lane (m : Fin 3) : (s.laneFault l cause pair item code).laneState m = (s.unvote l).laneState m := by
    rw [e, State.sameMg_laneState hs]
    exact cg _ (k4 m).1 (k4 m).2.1 (k4 m).2.2
  refine ⟨(lane l).trans u1, ?_, ?_, ?_, fun m hm => .inl ((lane m).trans (u3 m hm)), fun _ => ?_, fun n => ?_, fun n => ?_⟩
  · rw [e]; exact (hs.1 _ m0).trans c0
  · rw [e]; exact (hs.1 _ m4).trans c4
  · rw [e]; exact (hs.1 _ m8).trans c8
  · rw [e]
    refine (hs.1 _ mgKey_single.2.2.2.2).trans ((cg _ ?_ ?_ ?_).trans u2) <;> exact k7 _ (by simp)
  · rw [h] at n; exact absurd n (by simp [lActive, lApprentice, lBoot])
  · rw [h] at n; exact absurd n (by decide)

theorem State.laneFault_rejoin (h : s.laneState l = lApprentice ∨ (s.laneState l = lBoot ∧ s.rejoinLane = some l)) :
    s.faulted (s.laneFault l cause pair item code) l cause pair item := by
  have hn : s.laneState l ≠ lActive := by
    rcases h with h | h
    · rw [h]; decide
    · rw [h.1]; decide
  have e : s.laneFault l cause pair item code = s.rejoinFail l cause pair item fun u => u.lmRecord code 6 l s.activeMask :=
    (if_neg hn).trans (if_pos h)
  obtain ⟨m1, m0, m4, m8⟩ := mgKey_lanes l
  obtain ⟨r1, r2, r3, r4, r5, r6, -, r7⟩ := s.rejoinLeft_reads l hc hp hi
  have hs := s.sameMg_rejoinFail l cause pair item (before := fun u => u.lmRecord code 6 l s.activeMask)
    fun u => State.sameMg_lmRecord State.sameMg_refl (by decide)
  rw [e]
  exact ⟨(hs.1 _ m1).trans r1, (hs.1 _ m0).trans r3, (hs.1 _ m4).trans r4, (hs.1 _ m8).trans r5,
    fun m hm => .inl ((State.sameMg_laneState hs m).trans (r2 m hm)), fun n => absurd n hn, fun _ => (hs.1 _ mgKey_single.2.2.2.2).trans r7,
    fun _ => (hs.1 _ mgKey_single.1).trans r6⟩

theorem State.laneFault_boot (h : s.laneState l = lBoot) (hr : s.rejoinLane ≠ some l) :
    s.faulted (s.laneFault l cause pair item code) l cause pair item := by
  have e : s.laneFault l cause pair item code = (s.bootFault l cause pair item code).enterTry :=
    (if_neg (by rw [h]; decide)).trans ((if_neg (by rw [h]; exact fun n => n.elim (by decide) fun n => hr n.2)).trans (if_pos h))
  have hst : (s.bootFault l cause pair item code).starting = true → s.starting = true := State.starting_bootFault h hc hp hi
  obtain ⟨b1, b2, b3, b4, b5, -, b6, b7, -⟩ := s.bootFault_reads l code hc hp hi
  have na : ¬ s.laneState l = lActive := by rw [h]; decide
  have np : ¬ s.laneState l = lApprentice := by rw [h]; decide
  rw [e]
  revert hst b1 b2 b3 b4 b5 b6 b7
  generalize s.bootFault l cause pair item code = u
  intro hst b1 b2 b3 b4 b5 b6 b7
  unfold State.enterTry
  split
  · rename_i enter
    have hu : u.starting = true := (Bool.and_eq_true_iff.1 (Bool.and_eq_true_iff.1 enter).1).1
    obtain ⟨e1, e2⟩ := u.lanesEnter_reads
    have keep (g : Fld) (hg : g ∈ [LM_CAUSE_0 l.val, LM_CAUSE_4 l.val, LM_CAUSE_8 l.val]) : u.lanesEnter.get g = u.get g :=
      e2 g (causeKeys_apart l g hg).1 (causeKeys_apart l g hg).2.1 (causeKeys_apart l g hg).2.2
    refine ⟨(e1 l).trans ?_, (keep _ (by simp)).trans b3, (keep _ (by simp)).trans b4, (keep _ (by simp)).trans b5, fun m hm => ?_,
      fun n => absurd n na, fun n => ?_, fun n => absurd n np⟩
    · rw [if_neg, b1]
      rw [State.mem_readyLanes, b1]
      exact fun n => absurd n.2 (by decide)
    · rw [e1 m]
      split
      · rename_i ready
        obtain ⟨q1, q2⟩ := State.mem_readyLanes.1 ready
        refine .inr ⟨h, hst hu, (b2 m hm).symm.trans q2, ?_, rfl⟩
        rw [b7] at q1
        exact (Tri.get_set_ne hm).symm.trans q1
      · exact .inl (b2 m hm)
    · exact absurd (hst hu) (by rw [(n.resolve_left np).2]; decide)
  · exact ⟨b1, b3, b4, b5, fun m hm => .inl (b2 m hm), fun n => absurd n na, fun _ => b6, fun n => absurd n np⟩

/-- R106, R107: a fault of a lane that runs in ACTIVE, APPRENTICE or BOOT. -/
theorem State.laneFault_faulted (h : s.laneState l = lActive ∨ s.laneState l = lApprentice ∨ s.laneState l = lBoot) :
    s.faulted (s.laneFault l cause pair item code) l cause pair item := by
  rcases h with h | h | h
  · exact State.laneFault_active code hc hp hi h
  · exact State.laneFault_rejoin code hc hp hi (.inl h)
  · by_cases hr : s.rejoinLane = some l
    · exact State.laneFault_rejoin code hc hp hi (.inr ⟨h, hr⟩)
    · exact State.laneFault_boot code hc hp hi h hr

end

/-- In DEBUG a fault of the lane has no effect. -/
theorem State.laneFault_debug (h : s.laneState l = lDebug) (cause pair item code : Nat) : s.laneFault l cause pair item code = s := by
  unfold State.laneFault
  simp [h, lDebug, lActive, lApprentice, lBoot]

/-! ## The lane link (01 R16) -/

theorem exec_linkFlitCrcError_again {r : Rec} (h3 : s.voters.length = 3) (hr : (s.ln l).replayed.contains r = true) :
    ∃ t, exec (.linkFlitCrcError l r true) s = .next t ∧ t.laneState l = lIsolated ∧ t.get (LM_CAUSE_0 l.val) = 1 ∧
      t.get ASSAY_voters = clrBit (s.get ASSAY_voters) l.val % 8 := by
  have hv : s.voters.contains l = true := List.contains_iff_mem.2 (mem_voters_of_three h3 l)
  have hl : s.listeners.contains l = true := List.contains_iff_mem.2 (mem_listeners (mem_voters_of_three h3 l))
  obtain ⟨i1, i2, i3, -⟩ := State.isolate_spec (s := s.draw) h3 l 7 false
    ⟨r.pair, r.seq + (if r.kind = .read then 0 else 2 ^ 16), r.addr, 0, false⟩ (Config.freeValue s.freeCtr % 2 ^ 64)
  refine ⟨_, congrArg Host.Outcome.next ((if_neg (by rw [hl]; decide)).trans ((if_pos (by rw [hr]; rfl)).trans (if_pos hv))), i1, i3, i2⟩

/-- Settles O13: a fault by the state of its lane (the lanes that are ready may then enter, log entry 6), and an isolation of one of three voters for the
second error of a flit. -/
theorem laneFaults : Obligations.LaneFaults := by
  intro l s gone
  have fault (cause pair item code : Nat) (hc : cause < 16) (hp : pair < 4) (hi : item < 8) {c : Instr}
      (hx : exec c s = .next (s.laneFault l cause pair item code))
      (h : s.laneState l = lActive ∨ s.laneState l = lApprentice ∨ s.laneState l = lBoot) : gone c cause pair item :=
    ⟨_, hx, State.laneFault_faulted code hc hp hi h⟩
  refine ⟨fun h => ⟨fun p i => fault 2 p.val i.val 0x0901 (by decide) p.isLt (by omega) rfl h, fun p => fault 3 p.val 0 0x0902 (by decide) p.isLt (by decide) ?_ h,
    fault 4 0 0 0x0903 (by decide) (by decide) (by decide) rfl h⟩, fun h p i => ⟨?_, ?_, ?_⟩, fun r h => ?_, fun r h3 hr => exec_linkFlitCrcError_again h3 hr⟩
  · have hd : s.laneState l ≠ lDebug := by rcases h with h | h | h <;> rw [h] <;> decide
    exact congrArg Host.Outcome.next (if_neg hd)
  · exact congrArg Host.Outcome.next (State.laneFault_debug h _ _ _ _)
  · exact congrArg Host.Outcome.next (State.laneFault_debug h _ _ _ _)
  · exact congrArg Host.Outcome.next (if_pos h)
  · exact congrArg Host.Outcome.next (if_neg (by rw [h]; decide))

end Sys2Proof.Machine
end

section
/-! LaneManagerCommands: reset and rejoin, power down, abandon (04 R114, R119, R120, R126). -/

namespace Sys2Proof.Machine

variable {s t : State} {l : Fin 3} {p : Fin 4}

/-! ## What a record keeps, whatever becomes of it (18 R446 to R453) -/

/-- A property that the parts of a record's path keep: registers of the Ledger and the Courier, the Ledger's own state, hub SRAM, the Courier's deliveries. -/
structure RecordKeeps (P : State → Prop) : Prop where
  set : ∀ (u : State) (f : Fld) (v : Nat), f.pageOf = 7 ∨ f.pageOf = 0x0A → P u → P (u.set f v)
  updLg : ∀ (u : State) (f : LedgerS → LedgerS), P u → P (u.updLg f)
  hubWrite : ∀ (u : State) (o : Nat) (b : List Byte), P u → P (u.hubWrite o b)
  deliver : ∀ (u : State) (n : Nat), P u → P (u.courDeliver n)

section
variable {P : State → Prop} (k : RecordKeeps P)
include k

theorem RecordKeeps.raiseInt {bit : Nat} (h : P s) : P (s.raiseInt 7 bit) := by
  have h1 := k.set s (rawOf 7) (setBit (s.get (rawOf 7)) bit) (.inl rfl) h
  have h2 := k.deliver _ (1024 + 7) h1
  unfold State.raiseInt State.courEvent
  dsimp only
  split
  · split
    · exact k.deliver _ _ h2
    · exact h2
  · exact h1

theorem RecordKeeps.ledgerShow (h : P s) : P s.ledgerShow := by
  have h1 := k.set s LG_STAGED_0 (min 0xFFFF (s.ledger.recs.filter fun e => !e.flushed).length) (.inl rfl) h
  have opt (u : State) (f : Fld) (o : Option LKept) (hf : f.pageOf = 7) (hu : P u) : P (match o with | some e => u.set f e.seq | none => u) := by
    cases o with
    | none => exact hu
    | some e => exact k.set u f e.seq (.inl hf) hu
  exact opt _ _ _ rfl (opt _ _ _ rfl (opt _ _ _ rfl h1))

theorem RecordKeeps.ledgerPut {r : LKept} {slot ring : Nat} (h : P s) : P (s.ledgerPut r slot ring) := by
  have h1 := RecordKeeps.ledgerShow k (k.hubWrite _ (slotOff slot) (LKept.bytes { r with seq := s.ledger.next % 2 ^ 32, slot := slot }) (k.updLg s (fun g =>
    { g with recs := g.recs ++ [{ r with seq := s.ledger.next % 2 ^ 32, slot := slot }], next := (g.next + 1) % 2 ^ 32,
             written := (g.written + 1) % 2 ^ 32, ring := ring, hold := 0 }) h))
  unfold State.ledgerPut
  dsimp only
  split
  · exact RecordKeeps.raiseInt k h1
  · exact h1

theorem RecordKeeps.count {f : Fld} (hf : f.pageOf = 7) (h : P s) : P (s.count f) := k.set s f _ (.inl hf) h

theorem RecordKeeps.ledgerPlace {r : LKept} (hr : r.sev < 8) (h : P s) : P (s.ledgerPlace r) := by
  unfold State.ledgerPlace
  dsimp only
  split
  · exact RecordKeeps.ledgerPut k h
  · split
    · exact RecordKeeps.ledgerPut k (k.updLg _ _ h)
    · split
      · exact RecordKeeps.ledgerPut k (k.updLg _ _ (RecordKeeps.count k (lgOver_page hr) h))
      · exact RecordKeeps.raiseInt k (k.updLg _ _ (RecordKeeps.count k rfl (RecordKeeps.count k (lgDrop_page hr) h)))

theorem RecordKeeps.ledgerKeep {r : LKept} (hr : r.sev < 8) (h : P s) : P (s.ledgerKeep r) := by
  unfold State.ledgerKeep
  split
  · exact RecordKeeps.ledgerPlace k hr h
  · split
    · exact k.updLg _ _ h
    · exact RecordKeeps.count k (lgDrop_page hr) h

theorem RecordKeeps.ledgerRefuse {b : Nat} (h : P s) : P (s.ledgerRefuse b) := by
  refine RecordKeeps.raiseInt k (k.updLg _ _ (RecordKeeps.count k ?_ h))
  split
  · exact lgSupp_page b
  · rfl

theorem RecordKeeps.recordX {code sev tenant lanes : Nat} {ws : List Nat} (hs : sev < 8) (h : P s) : P (s.recordX code sev tenant lanes ws) := by
  unfold State.recordX State.ledgerArrive
  dsimp only
  split
  · exact k.updLg _ _ (k.set _ _ _ (.inl rfl) (RecordKeeps.count k rfl h))
  · split
    · split
      · split
        · exact k.hubWrite _ _ _ (k.updLg _ _ h)
        · exact RecordKeeps.ledgerKeep k hs h
      · exact RecordKeeps.ledgerKeep k hs h
    · split
      · split
        · exact RecordKeeps.ledgerKeep k hs (k.updLg _ _ h)
        · exact RecordKeeps.ledgerRefuse k h
      · exact RecordKeeps.ledgerKeep k hs h

end

/-- No lane is in DEBUG, and the lanes are those of s: an event at the Courier then reaches no lane. -/
def State.lanesApart (s t : State) : Prop := t.lanesIn lDebug = [] ∧ t.lanes = s.lanes

theorem laneField_page (l : Fin 3) : (laneField l).pageOf = 9 := by revert l; decide

theorem State.lanesApart_set {f : Fld} {v : Nat} (h : s.lanesApart t) (hf : f.pageOf = 7 ∨ f.pageOf = 0x0A) : s.lanesApart (t.set f v) := by
  refine ⟨(State.lanesIn_congr fun l => ?_).trans h.1, h.2⟩
  have hl : (t.set f v).laneState l = t.laneState l := State.get_set_ne _ fun e => by
    rw [← Fld.pageOf_congr e, laneField_page] at hf
    exact absurd hf (by decide)
  rw [hl]

theorem State.recordKeeps_lanes (s : State) : RecordKeeps s.lanesApart where
  set _ _ _ hf h := State.lanesApart_set h hf
  updLg _ _ h := h
  hubWrite _ _ _ h := h
  deliver u n h := by
    unfold State.courDeliver
    rw [h.1]
    dsimp only [State.each_nil]
    split
    · exact h
    · split
      · exact State.lanesApart_set (State.lanesApart_set h (.inr rfl)) (.inr rfl)
      · exact h

/-- With no lane in DEBUG a record of the lane manager leaves every lane. -/
theorem State.lanes_lmRecord {code sev mask : Nat} (hs : sev < 8) (h : s.lanesIn lDebug = []) : (s.lmRecord code sev l mask).lanes = s.lanes :=
  (RecordKeeps.recordX s.recordKeeps_lanes hs ⟨h, rfl⟩).2

/-! ## Reset and rejoin (R114) -/

/-- The reset action accepted, but for its record: the lane is in BOOT and in rejoin, its start counted. -/
def State.rejoinBegun (s : State) (l : Fin 3) : State :=
  let s := s.set LM_CMD_STAT_0 0
  let ts := s.recentStarts l ++ [s.get LG_OPTIME_0]
  let s := s.updM fun m => { m with starts := m.starts.set l ts }
  let s := s.set LM_REJ_CNT_0 (putBits (s.get LM_REJ_CNT_0) (4 * l.val) 4 (min 15 ts.length))
  let s := (s.laneReset l).set (CLK_LANE_0 l.val) 0
  ((s.set LANEMGR_rejoin_lane l.val).set LM_REJ_STAT_0 1).set LM_REJ_STAT_4 0

section
variable (hi : s.laneState l = lIsolated ∨ s.laneState l = lOff)
include hi

theorem State.lmReset_idle : s.lmReset l =
    if (s.lanesIn lActive).length ≠ 2 then s.set LM_CMD_STAT_0 2
    else if s.rejoinLane.isSome then s.set LM_CMD_STAT_0 3
    else if s.get LM_REJOIN_24 ≤ (s.recentStarts l).length then s.set LM_CMD_STAT_0 4
    else (s.rejoinBegun l).lmRecord 0x0907 3 l (s.rejoinBegun l).activeMask :=
  if_neg (not_and_or.2 (hi.imp not_not_intro not_not_intro))

/-- With two lanes ACTIVE and the third idle no lane is in DEBUG. -/
theorem State.others_active (h2 : (s.lanesIn lActive).length = 2) {m : Fin 3} (hm : m ≠ l) : s.laneState m = lActive := by
  have two : ∀ (b : Fin 3 → Bool) (l m : Fin 3), (([0, 1, 2] : List (Fin 3)).filter b).length = 2 → b l = false → m ≠ l → b m = true := by decide
  refine beq_iff_eq.1 (two (fun l => s.laneState l == lActive) l m h2 ?_ hm)
  rcases hi with h | h <;> simp [h, lIsolated, lOff, lActive]

end

/-- The registers a start of a rejoin writes are apart. -/
theorem resetKeys_apart (l : Fin 3) :
    (∀ g ∈ [LM_CMD_STAT_0, LM_REJ_CNT_0, CLK_LANE_0 l.val, LANEMGR_rejoin_lane, LM_REJ_STAT_0, LM_REJ_STAT_4], ∀ m, (laneField m).key ≠ g.key) ∧
    (∀ g ∈ [LM_REJ_CNT_0, CLK_LANE_0 l.val, LANEMGR_rejoin_lane, LM_REJ_STAT_0, LM_REJ_STAT_4], LM_CMD_STAT_0.key ≠ g.key) ∧
    (∀ g ∈ [LM_REJ_STAT_0, LM_REJ_STAT_4], LANEMGR_rejoin_lane.key ≠ g.key) ∧ LM_REJ_STAT_0.key ≠ LM_REJ_STAT_4.key := by
  revert l; decide

theorem State.rejoinLane_of (h : s.get LANEMGR_rejoin_lane = l.val) : s.rejoinLane = some l := by
  unfold State.rejoinLane
  rw [h]
  clear h
  revert l; decide

theorem State.rejoinBegun_reads (s : State) (l : Fin 3) : let t := s.rejoinBegun l
    (∀ m, t.laneState m = if m = l then lBoot else s.laneState m) ∧ t.rejoinLane = some l ∧ t.get LM_REJ_STAT_0 = 1 ∧ t.get LM_REJ_STAT_4 = 0 ∧
      t.get LM_CMD_STAT_0 = 0 ∧ t.ln l = (s.ln l).resetL ∧ ∀ m, m ≠ l → t.ln m = s.ln m := by
  obtain ⟨k1, k2, k3, k4⟩ := resetKeys_apart l
  refine ⟨fun m => ?_, State.rejoinLane_of ?_, ?_, State.get_set_same _ _ _, ?_, State.ln_updL _ _ _, fun m hm => State.ln_updL_ne hm⟩
  · have skip (u : State) (f : Fld) (v : Nat) (hf : f ∈ [LM_CMD_STAT_0, LM_REJ_CNT_0, CLK_LANE_0 l.val, LANEMGR_rejoin_lane, LM_REJ_STAT_0, LM_REJ_STAT_4]) :
        (u.set f v).laneState m = u.laneState m := State.get_set_ne _ (k1 f hf m)
    unfold State.rejoinBegun State.laneReset
    dsimp only
    rw [skip, skip, skip, skip, State.laneState_set _ _ _ (by decide)]
    · exact congrArg (ite (m = l) lBoot) ((skip _ _ _ (by simp)).trans (show (s.set LM_CMD_STAT_0 0).laneState m = _ from skip _ _ _ (by simp)))
    all_goals simp
  · refine (State.get_set_ne _ (k3 _ (by simp))).trans ((State.get_set_ne _ (k3 _ (by simp))).trans ((State.get_set_same _ _ _).trans ?_))
    revert l; decide
  · exact (State.get_set_ne _ k4).trans (State.get_set_same _ _ _)
  · have skip (u : State) (f : Fld) (v : Nat) (hf : f ∈ [LM_REJ_CNT_0, CLK_LANE_0 l.val, LANEMGR_rejoin_lane, LM_REJ_STAT_0, LM_REJ_STAT_4]) :
        (u.set f v).get LM_CMD_STAT_0 = u.get LM_CMD_STAT_0 := State.get_set_ne _ (k2 f hf)
    unfold State.rejoinBegun State.laneReset
    dsimp only
    rw [skip, skip, skip, skip, State.get_set_ne]
    · exact (skip _ _ _ (by simp)).trans (show (s.set LM_CMD_STAT_0 0).get LM_CMD_STAT_0 = _ from State.get_set_same _ _ _)
    · exact (k1 _ (by simp) l).symm
    all_goals simp

/-- The reset action is accepted. -/
theorem State.lmReset_accepted (hi : s.laneState l = lIsolated ∨ s.laneState l = lOff) (h2 : (s.lanesIn lActive).length = 2) (hr : s.rejoinLane = none)
    (hn : (s.recentStarts l).length < s.get LM_REJOIN_24) : let t := s.lmReset l
    t.laneState l = lBoot ∧ t.rejoinLane = some l ∧ t.get LM_REJ_STAT_0 = 1 ∧ t.get LM_REJ_STAT_4 = 0 ∧ t.get LM_CMD_STAT_0 = 0 ∧
      t.ln l = (s.ln l).resetL ∧ (t.ln l).mem = (s.ln l).mem ∧ ∀ m, m ≠ l → t.laneState m = s.laneState m ∧ t.ln m = s.ln m := by
  have e : s.lmReset l = (s.rejoinBegun l).lmRecord 0x0907 3 l (s.rejoinBegun l).activeMask :=
    (State.lmReset_idle hi).trans ((if_neg (not_not_intro h2)).trans ((if_neg (by rw [hr]; decide)).trans (if_neg (Nat.not_le.2 hn))))
  obtain ⟨b1, b2, b3, b4, b5, b6, b7⟩ := s.rejoinBegun_reads l
  have hs : (s.rejoinBegun l).sameMg ((s.rejoinBegun l).lmRecord 0x0907 3 l (s.rejoinBegun l).activeMask) := State.sameMg_lmRecord State.sameMg_refl (by decide)
  have nd : (s.rejoinBegun l).lanesIn lDebug = [] := List.filter_eq_nil_iff.2 fun m _ n => by
    have hd := (b1 m).symm.trans (beq_iff_eq.1 n)
    by_cases hm : m = l
    · rw [if_pos hm] at hd; exact absurd hd (by decide)
    · rw [if_neg hm, State.others_active hi h2 hm] at hd; exact absurd hd (by decide)
  have ln (m : Fin 3) : (s.lmReset l).ln m = (s.rejoinBegun l).ln m := by
    rw [e]
    unfold State.ln
    rw [State.lanes_lmRecord (by decide) nd]
  obtain ⟨m1, m2, m3, m4, -⟩ := mgKey_single
  rw [← e] at hs
  exact ⟨(State.sameMg_laneState hs l).trans ((b1 l).trans (if_pos rfl)), (State.sameMg_rejoinLane hs).trans b2, (hs.1 _ m2).trans b3,
    (hs.1 _ m3).trans b4, (hs.1 _ m4).trans b5, (ln l).trans b6, by rw [ln l, b6]; rfl,
    fun m hm => ⟨(State.sameMg_laneState hs m).trans ((b1 m).trans (if_neg hm)), (ln m).trans (b7 m hm)⟩⟩

/-! ## Abandon (R126) -/

/-- A register set that a rejoin's end does not read. -/
theorem State.rejoinOver_set {cause item v : Nat} {f : Fld} (h : s.rejoinOver l cause item)
    (hf : ∀ g ∈ [laneField l, LANEMGR_rejoin_lane, LM_CAUSE_0 l.val, LM_CAUSE_8 l.val], g.key ≠ f.key) : (s.set f v).rejoinOver l cause item := by
  obtain ⟨h1, h2, h3, h4, h5⟩ := h
  exact ⟨(State.get_set_ne _ (hf _ (by simp))).trans h1, (State.rejoinLane_congr (State.get_set_ne _ (hf _ (by simp)))).trans h2, h3,
    (State.get_set_ne _ (hf _ (by simp))).trans h4, (State.get_set_ne _ (hf _ (by simp))).trans h5⟩

theorem State.lmAbandon_rejoin (h : s.rejoinLane = some l) :
    (s.lmAbandon l).rejoinOver l 8 6 ∧ (s.lmAbandon l).get LM_CMD_STAT_0 = 0 ∧ (s.lmAbandon l).get LM_REJ_STAT_0 = 0 := by
  have e : s.lmAbandon l = (s.rejoinFail l 8 0 6 id).set LM_CMD_STAT_0 0 := if_pos h
  have hs := s.sameMg_rejoinFail l 8 0 6 (before := id) fun _ => State.sameMg_refl
  rw [e]
  refine ⟨State.rejoinOver_set (s.rejoinFail_over l (by decide) (by decide) (by decide) fun _ => State.sameMg_refl) (by clear e hs h; revert l; decide),
    State.get_set_same _ _ _, (State.get_set_ne _ (by decide)).trans ((hs.1 _ mgKey_single.2.1).trans (State.get_set_same _ _ _))⟩

/-! ## LM_CMD -/

/-- A write of LM_CMD that reaches the register has the action's effect. -/
theorem exec_lmCmd {a : Acc} (h : s.reaches a 0x09 0x044) : exec (.lmResetRejoin a l) s = .next (s.lmReset l) ∧
    exec (.lmPowerDown a l) s = .next (s.lmPowerDown l) ∧ exec (.lmAbandonRejoin a l) s = .next (s.lmAbandon l) :=
  ⟨congrArg Host.Outcome.next (State.writeAt_of_reaches h), congrArg Host.Outcome.next (State.writeAt_of_reaches h),
    congrArg Host.Outcome.next (State.writeAt_of_reaches h)⟩

/-- Settles O15: each action by the lemma above, result 1 of an abandon of another lane as log entry 6 has it. -/
theorem laneManagerCommands : Obligations.LaneManagerCommands := by
  intro a l s hr idle
  obtain ⟨e1, e2, e3⟩ := exec_lmCmd (l := l) hr
  rw [e1, e2, e3]
  refine ⟨fun hi h2 hn hl => ⟨_, rfl, State.lmReset_accepted hi h2 hn hl⟩, fun hi => ?_, fun hi h2 => ?_, fun hi h2 hn => ?_, fun hi h2 hn hl => ?_,
    fun h => ?_, fun h => ?_, fun h => ?_, fun h => ?_⟩
  · exact congrArg Host.Outcome.next (if_pos (not_or.1 hi))
  · exact congrArg Host.Outcome.next ((State.lmReset_idle hi).trans (if_pos h2))
  · exact congrArg Host.Outcome.next ((State.lmReset_idle hi).trans ((if_neg (not_not_intro h2)).trans (if_pos (Option.isSome_iff_ne_none.2 hn))))
  · exact congrArg Host.Outcome.next ((State.lmReset_idle hi).trans ((if_neg (not_not_intro h2)).trans ((if_neg (by rw [hn]; decide)).trans (if_pos hl))))
  · exact congrArg Host.Outcome.next (if_pos h)
  · exact congrArg Host.Outcome.next (if_neg h)
  · exact congrArg Host.Outcome.next (if_neg h)
  · obtain ⟨⟨o1, o2, o3, o4, o5⟩, c1, c2⟩ := State.lmAbandon_rejoin h
    exact ⟨_, rfl, o1, o2, o3, o4, o5, c1, c2⟩

end Sys2Proof.Machine
end

section
/-! RejoinOfAnApprentice: boot, copy passes, hold, window and their failures (04 R115 to R120). -/

namespace Sys2Proof.Machine

variable {s t : State} {l r src : Fin 3} {p : Fin 4}

/-! ## Pages copied (R115, R116) -/

section
variable {α : Type}

theorem SMap.find?_none {m : SMap α} {k : Nat} (h : ∀ e ∈ m, e.1 ≠ k) : SMap.find? m k = none := by
  induction m with
  | nil => rfl
  | cons e m ih =>
    rw [SMap.find?, if_neg (h e List.mem_cons_self)]
    exact ih fun e he => h e (List.mem_cons_of_mem _ he)

theorem SMap.find?_filter (m : SMap α) (b : Nat → Bool) (k : Nat) : SMap.find? (m.filter fun e => b e.1) k = if b k then SMap.find? m k else none := by
  induction m with
  | nil => simp [SMap.find?]
  | cons e m ih =>
    rw [List.filter_cons]
    by_cases hk : e.1 = k
    · subst hk
      by_cases hb : b e.1 <;> simp_all [SMap.find?]
    · by_cases hb : b e.1 <;> simp_all [SMap.find?]

/-- Entries put over a map, in order of rising keys. -/
theorem SMap.get_puts [DecidableEq α] {m : SMap α} (h : SMap.Rising m) (o : SMap α) (k : Nat) (d : α) :
    SMap.get (m.foldl (fun o e => SMap.put o e.1 d e.2) o) k d = (SMap.find? m k).getD (SMap.get o k d) := by
  induction m generalizing o with
  | nil => rfl
  | cons e m ih =>
    obtain ⟨h1, h2⟩ := List.pairwise_cons.1 h
    rw [List.foldl_cons, ih h2, SMap.get_put, SMap.find?]
    by_cases hk : e.1 = k
    · rw [SMap.find?_none fun x hx => (hk ▸ h1 x hx).ne', if_pos hk.symm, if_pos hk]
      rfl
    · rw [if_neg (Ne.symm hk), if_neg hk]

end

/-- The bytes a copy of pages takes from the source. -/
def State.copied (s : State) (src : Fin 3) (all : Bool) (a : Nat) : Bool :=
  s.pageCopied src a && (all || SMap.get (s.ln src).dirty (a / 4096) 0 = 1)

theorem State.mem_copyPages {all : Bool} (hne : r ≠ src) (hw : Memory.wf (s.ln src).mem = true) (x : Nat) :
    SMap.get ((s.copyPages src r all).ln r).mem x 0 =
      if s.copied src all x = true then SMap.get (s.ln src).mem x 0 else SMap.get (s.ln r).mem x 0 := by
  have e : ((s.copyPages src r all).ln r).mem = ((s.ln src).mem.filter fun e => s.copied src all e.1).foldl (fun m e => SMap.put m e.1 0 e.2)
      ((s.ln r).mem.filter fun e => !s.copied src all e.1) := by
    unfold State.copyPages
    rw [State.ln_updL_ne hne, State.ln_updL]
    rfl
  rw [e, SMap.get_puts ((Memory.wf_iff.1 hw).1.filter _), SMap.find?_filter]
  unfold SMap.get
  rw [SMap.find?_filter _ (fun a => !s.copied src all a)]
  cases s.copied src all x <;> rfl

theorem State.pr_copyPages {all : Bool} (m : Fin 3) (q : Fin 4) : (s.copyPages src r all).pr m q = s.pr m q := by
  unfold State.copyPages
  dsimp only
  rw [State.pr_updL rfl, State.pr_updL rfl]

theorem State.dirty_copyPages {all : Bool} : ((s.copyPages src r all).ln src).dirty = [] := by
  unfold State.copyPages
  rw [State.ln_updL]

theorem State.get_copyPages {all : Bool} (g : Fld) : (s.copyPages src r all).get g = s.get g := rfl

/-! ## A further pass (R118, R120) -/

theorem State.furtherPass_exhausted (h : s.get LM_REJOIN_16 ≤ s.get LM_REJ_STAT_4) : s.furtherPass r = s.rejoinFail r 8 0 1 id := if_pos h

/-- What a further pass leaves: one pass more, and every pair and every other register as it was. -/
theorem State.furtherPass_next (h : s.get LM_REJ_STAT_4 < s.get LM_REJOIN_16) (h31 : s.get LM_REJ_STAT_4 < 31) : let t := s.furtherPass r
    t.get LM_REJ_STAT_4 = s.get LM_REJ_STAT_4 + 1 ∧ t.get LM_REJ_STAT_0 = 2 ∧ t.mgr = s.mgr ∧ (∀ m q, t.pr m q = s.pr m q) ∧
      ∀ g : Fld, g.key ≠ LM_REJ_STAT_0.key → g.key ≠ LM_REJ_STAT_4.key → t.get g = s.get g := by
  let u := (s.set LM_REJ_STAT_0 2).set LM_REJ_STAT_4 (s.get LM_REJ_STAT_4 + 1)
  have e : s.furtherPass r = match u.copySource with | some src => u.copyPages src r false | none => u := if_neg (Nat.not_le.2 h)
  have same : (s.furtherPass r).mgr = u.mgr ∧ (∀ m q, (s.furtherPass r).pr m q = u.pr m q) ∧ ∀ g, (s.furtherPass r).get g = u.get g := by
    rw [e]
    cases u.copySource with
    | none => exact ⟨rfl, fun _ _ => rfl, fun _ => rfl⟩
    | some src => exact ⟨rfl, State.pr_copyPages, State.get_copyPages⟩
  obtain ⟨h1, h2, h3⟩ := same
  refine ⟨?_, ?_, h1, h2, fun g g1 g2 => ?_⟩
  · exact (h3 _).trans ((State.get_set_same _ _ _).trans (Nat.mod_eq_of_lt (show s.get LM_REJ_STAT_4 + 1 < 32 by omega)))
  · exact (h3 _).trans ((State.get_set_ne _ (by decide)).trans (State.get_set_same _ _ _))
  · exact (h3 _).trans ((State.get_set_ne _ g2).trans (State.get_set_ne _ g1))

/-- A hold that is not reached in time: every pair runs on, and a further pass begins. -/
theorem State.holdTimeout_next (h : s.get LM_REJ_STAT_4 < s.get LM_REJOIN_16) (h31 : s.get LM_REJ_STAT_4 < 31) : let t := s.holdRelease.furtherPass r
    t.mgr.hold = none ∧ t.get COURIER_suspended = 0 ∧ t.get LM_REJ_STAT_4 = s.get LM_REJ_STAT_4 + 1 ∧
      ∀ m q, (t.pr m q).held = false ∧ (t.pr m q).pc = (s.pr m q).pc := by
  obtain ⟨r1, r2, r3, -, r4⟩ := s.holdRelease_spec
  have k := r4 LM_REJ_STAT_4 (by decide)
  rw [← k, ← r4 LM_REJOIN_16 (by decide)] at h
  rw [← k] at h31
  obtain ⟨f1, -, f2, f3, f4⟩ := State.furtherPass_next (r := r) h h31
  refine ⟨?_, (f4 _ (by decide) (by decide)).trans r2, f1.trans (by rw [k]), fun m q => ?_⟩
  · rw [f2, r1]
    rfl
  · rw [f3, r3]
    exact ⟨rfl, rfl⟩

/-! ## The boot of a rejoin (R115, R120) -/

section
variable (hr : s.rejoinLane = some r)
include hr

theorem State.rejoinBoot_failed (h : s.get LM_REJ_STAT_0 = 1) (p : Fin 4) : (s.rejoinBoot (some p)).rejoinOver r 5 0 := by
  have e : s.rejoinBoot (some p) = (s.rejoinFail r 5 p.val 0 fun u => u.lmRecord 0x0904 6 r s.activeMask).raiseInt 9 5 := by
    unfold State.rejoinBoot
    rw [hr]
    exact if_neg (not_not_intro h)
  rw [e]
  exact State.rejoinOver_sameMg (s.rejoinFail_over r (by decide) p.isLt (by decide) fun _ => State.sameMg_lmRecord State.sameMg_refl (by decide))
    (State.sameMg_raise9 State.sameMg_refl)

/-- The apprentice and its first pass, begun. -/
def State.apprenticed (s : State) (r : Fin 3) : State := ((s.set (laneField r) lApprentice).set LM_REJ_STAT_0 2).set LM_REJ_STAT_4 1

omit hr in
theorem State.laneState_apprenticed (m : Fin 3) : (s.apprenticed r).laneState m = if m = r then lApprentice else s.laneState m :=
  (State.get_set_ne _ ((resetKeys_apart r).1 _ (by simp) m)).trans
    ((State.get_set_ne _ ((resetKeys_apart r).1 _ (by simp) m)).trans (State.laneState_set _ _ _ (by decide)))

omit hr in
theorem State.apprenticed_pass : (s.apprenticed r).get LM_REJ_STAT_0 = 2 ∧ (s.apprenticed r).get LM_REJ_STAT_4 = 1 := by
  unfold State.apprenticed
  rw [State.get_set_ne _ (by decide)]
  exact ⟨State.get_set_same _ _ _, State.get_set_same _ _ _⟩

theorem State.rejoinBoot_passed (h : s.get LM_REJ_STAT_0 = 1) (hs : s.copySource = some src) (hb : s.laneState r = lBoot) :
    s.rejoinBoot none = (s.apprenticed r).copyPages src r true := by
  have src' : (s.apprenticed r).copySource = some src := by
    rw [← hs]
    refine congrArg List.head? (State.lanesIn_congr fun m => ?_)
    rw [State.laneState_apprenticed]
    split
    · rename_i e
      rw [e, hb]
      decide
    · rfl
  unfold State.rejoinBoot
  rw [hr]
  refine (if_neg (not_not_intro h)).trans ?_
  show (match (s.apprenticed r).copySource with | some src => (s.apprenticed r).copyPages src r true | none => s.apprenticed r) = _
  rw [src']

/-! ## The end of a pass (R115, R116, R118) -/

/-- With a pass running and no hold due, its end is a failure, a hold that falls due, or a further pass. -/
theorem State.passEnd_running (h : s.get LM_REJ_STAT_0 = 2) (hd : s.mgr.holdDue = false) (crcFail : Bool) : s.passEnd crcFail =
    if crcFail then s.rejoinFail r 8 0 2 id
    else if s.dirtyCount ≤ s.pMax then (s.set LM_REJ_DIRTY_0 s.dirtyCount).updM fun m => { m with holdDue := true }
    else (s.set LM_REJ_DIRTY_0 s.dirtyCount).furtherPass r := by
  have hp : (s.set LM_REJ_DIRTY_0 s.dirtyCount).pMax = s.pMax := by
    unfold State.pMax
    rw [State.get_set_ne _ (by decide)]
  unfold State.passEnd
  rw [hr]
  refine (if_neg (by rw [h, hd]; decide)).trans ?_
  dsimp only
  rw [hp]

end

/-! ## The window (R118, R119) -/

/-- A pair as the state block brings it. -/
def PairS.blockCopy (q : PairS) : PairS :=
  { q with held := false, stamps := [], release := none, due := [], halted := false, haltWhy := 0, stepping := false }

theorem LaneS.stateBlock_pair (n old : LaneS) (q : Fin 4) : (n.stateBlock old).pairs.get q = (n.pairs.get q).blockCopy := by
  match q with
  | 0 => rfl
  | 1 => rfl
  | 2 => rfl
  | 3 => rfl

/-- The stamps and releases still to come to the source go to the apprentice too (05 R144). -/
def State.stampsSent (s : State) (r src : Fin 3) : State :=
  s.each allPairs fun s p =>
    let coming (n : Nat) : Bool := (s.pr src p).stamps.any (fun st => st.num = n) || (s.cr p).flits.any fun f => f.1 = src && f.2.num = n
    s.updC p fun c =>
      { c with flits := c.flits ++ (c.out.filter fun o => coming o.st.num).map fun o => (r, o.st)
               rels := c.rels ++ ((c.rels.filter fun x => x.1 = src).map (·.2) ++ (s.pr src p).release.toList).map fun x => (r, x) }

theorem State.stampsSent_cour (s : State) (r src : Fin 3) : ∃ x, s.stampsSent r src = s.setCour x := by
  have fold (f : State → Fin 4 → CourS → CourS) (ps : List (Fin 4)) (t : State) (h : ∃ x, t = s.setCour x) :
      ∃ x, (t.each ps fun s p => s.updC p (f s p)) = s.setCour x := by
    unfold State.each
    induction ps generalizing t with
    | nil => exact h
    | cons p ps ih =>
      obtain ⟨x, rfl⟩ := h
      exact ih _ ⟨_, rfl⟩
  exact fold _ _ _ ⟨s.cour, rfl⟩

/-- The window up to the release of the hold: pages and state block copied, stamps and releases sent. -/
def State.windowCopied (s : State) (r src : Fin 3) : State :=
  let pages := s.dirtyCount
  let s := s.copyPages src r false
  let b := s.ln src
  let s := (s.updL r fun old => b.stateBlock old).stampsSent r src
  let s := s.set LM_REJ_DIRTY_0 pages
  let s := (s.set LM_REJ_WIN_0 ((13192 + 512 * pages) / 100)).set LM_REJ_STAT_0 4
  let s := s.updA fun x => { x with high := x.high.set r (x.high.get src) }
  s.updM fun m => { m with conf := Quad.all false }

theorem State.windowEnd_held {h : Quad Nat} (hh : s.mgr.hold = some h) (hr : s.rejoinLane = some r) (hs : s.copySource = some src) (ha : s.allHeld = true) :
    s.windowEnd = (s.windowCopied r src).holdRelease.updM fun m => { m with hold := none, confAt := (s.windowCopied r src).mgr.hold.getD (Quad.all 0) } := by
  unfold State.windowEnd
  rw [hh, hr, hs]
  exact if_neg (by rw [ha]; decide)

/-- Each pair of the apprentice is the source's, as the state block brings it. -/
theorem State.windowCopied_spec (s : State) (r src : Fin 3) : (s.windowCopied r src).mgr.hold = s.mgr.hold ∧
    (s.windowCopied r src).get LM_REJ_STAT_0 = 4 ∧ ∀ q, (s.windowCopied r src).pr r q = (s.pr src q).blockCopy := by
  unfold State.windowCopied
  dsimp only
  obtain ⟨x, hx⟩ := ((s.copyPages src r false).updL r fun old => ((s.copyPages src r false).ln src).stateBlock old).stampsSent_cour r src
  rw [hx]
  refine ⟨rfl, ?_, fun q => ?_⟩
  · rw [(State.updM_reads _ _).1, (State.updA_reads _ _).1]
    exact State.get_set_same _ _ _
  show ((s.copyPages src r false).updL r fun old => ((s.copyPages src r false).ln src).stateBlock old).pr r q = _
  unfold State.pr
  rw [State.ln_updL, LaneS.stateBlock_pair]
  exact congrArg PairS.blockCopy (State.pr_copyPages src q)

/-- The window gives the apprentice the state of the source's pairs. -/
theorem State.windowEnd_spec {h : Quad Nat} (hh : s.mgr.hold = some h) (hr : s.rejoinLane = some r) (hs : s.copySource = some src)
    (ha : s.allHeld = true) : let t := s.windowEnd
    t.get LM_REJ_STAT_0 = 4 ∧ t.mgr.hold = none ∧ t.mgr.confAt = h ∧ ∀ q, t.pr r q = (s.pr src q).blockCopy := by
  obtain ⟨w1, w2, w3⟩ := s.windowCopied_spec r src
  obtain ⟨-, -, r3, -, r4⟩ := (s.windowCopied r src).holdRelease_spec
  rw [State.windowEnd_held hh hr hs ha]
  refine ⟨(r4 _ (by decide)).trans w2, rfl, ?_, fun q => (r3 r q).trans ?_⟩
  · show (s.windowCopied r src).mgr.hold.getD (Quad.all 0) = h
    rw [w1, hh]
    rfl
  · rw [w3]
    rfl

/-! ## The commands -/

/-- What the lane manager's commands come to with lane r in rejoin. -/
theorem exec_rejoin (hr : s.rejoinLane = some r) :
    (s.get LM_REJ_STAT_0 = 1 → exec .rejoinBootTimeout s = .next (s.rejoinFail r 8 0 0 id)) ∧
    (s.get LM_REJ_STAT_0 = 4 → exec .confirmationTimeout s = .next (s.rejoinFail r 8 0 5 id)) ∧
    ∀ h, s.mgr.hold = some h → s.allHeld = false → exec .holdTimeout s = .next (s.holdRelease.furtherPass r) := by
  refine ⟨fun h => congrArg Host.Outcome.next ?_, fun h => congrArg Host.Outcome.next ?_, fun h hh ha => congrArg Host.Outcome.next ?_⟩
  · rw [hr]
    exact if_pos h
  · rw [hr]
    exact if_pos h
  · rw [hh, hr]
    exact if_neg (by rw [ha]; decide)

theorem State.holdPoint_reached {h : Quad Nat} (hr : s.rejoinLane = some r) (hh : s.mgr.hold = some h) (hl : s.laneState l = lActive)
    (hp : (s.holdPairs l).contains p = true) (hd : (s.pr l p).held = false) (hc : h.get p ≤ (s.pr l p).cev 0)
    (ha : (s.updP l p fun q => { q with held := true }).allHeld = false) : s.holdPoint l p = s.updP l p fun q => { q with held := true } := by
  unfold State.holdPoint
  rw [hh, hr]
  refine (if_pos ?_).trans (if_neg (by rw [ha]; decide))
  rw [hp, hd, decide_eq_true hl, decide_eq_true hc]
  rfl

/-- Settles O16: each command of a rejoin by the lemma above that says what it comes to (a pass copies at its start, log entries 6 and 7); a rejoin that
fails is over the same way for every cause. -/
theorem rejoinOfAnApprentice : Obligations.RejoinOfAnApprentice := by
  intro r src s hr hs fails
  obtain ⟨x1, x2, x3⟩ := exec_rejoin hr
  have ends (u : State) {c : Instr} {item : Nat} (hi : item < 8) (hx : exec c s = .next (u.rejoinFail r 8 0 item id)) : fails c 8 item :=
    ⟨_, hx, u.rejoinFail_over r (by decide) (by decide) hi fun _ => State.sameMg_refl⟩
  refine ⟨fun h1 => ⟨fun p => ⟨_, rfl, State.rejoinBoot_failed hr h1 p⟩, ends s (by decide) (x1 h1), fun hb hw => ?boot⟩, fun h2 hd => ?pass,
    fun h l p hh => ⟨fun hl hp hn hc ha => congrArg Host.Outcome.next (State.holdPoint_reached hr hh hl hp hn hc ha),
      fun ha hk h31 => ⟨_, x3 h hh ha, State.holdTimeout_next hk h31⟩, fun ha hne => ?window⟩, fun h4 => ends s (by decide) (x2 h4)⟩
  case boot =>
    have hne : r ≠ src := fun e => by
      have active := beq_iff_eq.1 (List.mem_filter.1 (List.mem_of_head? hs)).2
      rw [← e, hb] at active
      exact absurd active (by decide)
    refine ⟨_, congrArg Host.Outcome.next (State.rejoinBoot_passed hr h1 hs hb), ?_, ?_, ?_, State.dirty_copyPages, fun x => ?_⟩
    · rw [State.laneState, State.get_copyPages]
      exact (State.laneState_apprenticed r).trans (if_pos rfl)
    · rw [State.get_copyPages]
      exact State.apprenticed_pass.1
    · rw [State.get_copyPages]
      exact State.apprenticed_pass.2
    · refine (State.mem_copyPages (s := s.apprenticed r) hne hw x).trans ?_
      rw [State.copied, Bool.true_or, Bool.and_true]
      rfl
  case pass =>
    have e (crc : Bool) := State.passEnd_running hr h2 hd crc
    have k4 : (s.set LM_REJ_DIRTY_0 s.dirtyCount).get LM_REJ_STAT_4 = s.get LM_REJ_STAT_4 := State.get_set_ne _ (by decide)
    have k16 : (s.set LM_REJ_DIRTY_0 s.dirtyCount).get LM_REJOIN_16 = s.get LM_REJOIN_16 := State.get_set_ne _ (by decide)
    refine ⟨ends s (by decide) (congrArg Host.Outcome.next (e true)), fun hle => ?_, fun hlt hk => ?_, fun hlt hk h31 => ?_⟩
    · exact congrArg Host.Outcome.next ((e false).trans (if_pos hle))
    · exact ends _ (by decide) (congrArg Host.Outcome.next ((e false).trans ((if_neg (Nat.not_le.2 hlt)).trans
        (State.furtherPass_exhausted (by rw [k4, k16]; exact hk)))))
    · obtain ⟨f1, f2, -, -, f3⟩ := State.furtherPass_next (r := r) (by rw [k4, k16]; exact hk) (by rw [k4]; exact h31)
      refine ⟨_, congrArg Host.Outcome.next ((e false).trans (if_neg (Nat.not_le.2 hlt))), f1.trans (by rw [k4]), f2, funext fun m => ?_⟩
      refine (f3 _ ?_ ?_).trans (State.get_set_ne _ ?_) <;> (clear f1 f2 f3; revert m; decide)
  case window =>
    obtain ⟨w1, w2, w3, w4⟩ := State.windowEnd_spec hh hr hs ha
    refine ⟨_, rfl, w1, w2, w3, fun q => ?_⟩
    rw [w4]
    exact ⟨rfl, rfl, rfl, rfl, rfl, rfl⟩

end Sys2Proof.Machine
end

section
/-! The Courier's registers below COUR_PAIRSTAT over records, the passive state and a lane that leaves the vote (01 R38; 03 R96; 05 R150). -/

namespace Sys2Proof.Machine

variable {s t u : State} {l : Fin 3} {p : Fin 4}

/-- Keys of the Courier's registers below COUR_PAIRSTAT, but INT_RAW: enables, `suspended`, the count of late stamps, COUR_LEAD, COUR_SOFT. -/
def courKey (k : Nat) : Prop := k / 131072 = 0x0A ∧ k % 131072 / 32 < 0x050 ∧ k ≠ (rawOf 0x0A).key

/-- From s to t these registers stay. -/
def State.sameCk (s t : State) : Prop := ∀ g : Fld, courKey g.key → t.get g = s.get g

/-- A field of another page of the hub. -/
theorem not_courKey {f : Fld} (h : f.pageOf ≠ 0x0A) : ¬ courKey f.key := fun k => h (by
  unfold Fld.pageOf
  rw [k.1])

/-- A field of a higher page. -/
theorem not_courKey_above {f : Fld} (h : 0x0A < f.page) : ¬ courKey f.key := fun k => by
  have := k.1
  unfold Fld.key at this
  omega

theorem not_courKey_raw (n : Nat) : ¬ courKey (rawOf n).key := fun ⟨h, _, k⟩ => by
  have e : (rawOf n).key = n * 131072 + 1024 := by
    show ((0 * 128 + n) * 4096 + 0x020) * 32 + 0 = _
    omega
  have : n = 0x0A := by omega
  exact k (by rw [this])

theorem State.sameCk_refl : s.sameCk s := fun _ _ => rfl

theorem State.sameCk_set {f : Fld} {v : Nat} (h : s.sameCk t) (k : ¬ courKey f.key) : s.sameCk (t.set f v) :=
  fun g hg => (State.get_set_ne t fun e => k (e ▸ hg)).trans (h g hg)

/-- A change of what holds no register. -/
theorem State.sameCk_upd (h : s.sameCk t) (e : u.regs = t.regs) : s.sameCk u := fun g hg =>
  (congrArg (fun m => SMap.get m g.key g.rst) e).trans (h g hg)

theorem State.sameCk_updIl {i : Nat} {f : IslS → IslS} (h : s.sameCk t) : s.sameCk (t.updIl i f) := State.sameCk_upd h rfl
theorem State.sameCk_setWire {i : Nat} {b : List Byte} (h : s.sameCk t) : s.sameCk (t.setWire i b) := State.sameCk_upd h rfl
theorem State.sameCk_setCans {m : SMap CanS} (h : s.sameCk t) : s.sameCk (t.setCans m) := State.sameCk_upd h rfl
theorem State.sameCk_updSo {f : SoS → SoS} (h : s.sameCk t) : s.sameCk (t.updSo f) := State.sameCk_upd h rfl
theorem State.sameCk_updN {f : ConsS → ConsS} (h : s.sameCk t) : s.sameCk (t.updN f) := State.sameCk_upd h rfl

theorem State.sameCk_ite {c : Prop} [Decidable c] {a b : State} (ha : s.sameCk a) (hb : s.sameCk b) : s.sameCk (if c then a else b) := by
  split
  · exact ha
  · exact hb

theorem State.sameCk_each {α : Type} {r : List α} {f : State → α → State} (h : s.sameCk t) (hf : ∀ u a, s.sameCk u → s.sameCk (f u a)) :
    s.sameCk (t.each r f) := by
  unfold State.each
  induction r generalizing t with
  | nil => exact h
  | cons a r ih => exact ih (hf t a h)

/-! ## Events and records -/

theorem State.sameCk_courDeliver {n : Nat} (h : s.sameCk t) : s.sameCk (t.courDeliver n) := by
  unfold State.courDeliver
  have h1 : s.sameCk (t.each (t.lanesIn lDebug) fun u l =>
      u.updP l (pairIx (t.route n).1) fun q => { q with pend := setBit q.pend n, prio := SMap.put q.prio n 0 (t.route n).2.2 }) :=
    State.sameCk_each h fun _ _ hu => State.sameCk_upd hu rfl
  exact State.sameCk_ite h (State.sameCk_ite (State.sameCk_set (State.sameCk_set h1 (by unfold courKey; decide)) (not_courKey_raw _)) h1)

theorem State.sameCk_courEvent {n : Nat} (h : s.sameCk t) : s.sameCk (t.courEvent n) :=
  State.sameCk_ite (State.sameCk_courDeliver (State.sameCk_courDeliver h)) (State.sameCk_courDeliver h)

theorem State.sameCk_raiseInt {page bit : Nat} (h : s.sameCk t) : s.sameCk (t.raiseInt page bit) :=
  State.sameCk_ite (State.sameCk_courEvent (State.sameCk_set h (not_courKey_raw _))) (State.sameCk_set h (not_courKey_raw _))

/-- A field of the Ledger's page. -/
theorem State.sameCk_set7 {f : Fld} {v : Nat} (h : s.sameCk t) (k : f.pageOf = 7) : s.sameCk (t.set f v) :=
  State.sameCk_set h (not_courKey (by rw [k]; decide))

theorem State.sameCk_ledgerShow (h : s.sameCk t) : s.sameCk t.ledgerShow := by
  have opt (u : State) (f : Fld) (o : Option LKept) (hf : f.pageOf = 7) (hu : s.sameCk u) :
      s.sameCk (match o with | some e => u.set f e.seq | none => u) := by
    cases o with
    | none => exact hu
    | some e => exact State.sameCk_set7 hu hf
  exact opt _ _ _ rfl (opt _ _ _ rfl (opt _ _ _ rfl (State.sameCk_set7 h rfl)))

theorem State.sameCk_ledgerPut {r : LKept} {slot ring : Nat} (h : s.sameCk t) : s.sameCk (t.ledgerPut r slot ring) :=
  State.sameCk_ite (State.sameCk_raiseInt (State.sameCk_ledgerShow h)) (State.sameCk_ledgerShow h)

theorem State.sameCk_ledgerPlace {r : LKept} (hr : r.sev < 8) (h : s.sameCk t) : s.sameCk (t.ledgerPlace r) := by
  unfold State.ledgerPlace
  dsimp only
  split
  · exact State.sameCk_ledgerPut h
  · split
    · exact State.sameCk_ledgerPut h
    · split
      · exact State.sameCk_ledgerPut (State.sameCk_set7 h (lgOver_page hr))
      · exact State.sameCk_raiseInt (State.sameCk_set7 (State.sameCk_set7 h (lgDrop_page hr)) rfl)

theorem State.sameCk_ledgerKeep {r : LKept} (hr : r.sev < 8) (h : s.sameCk t) : s.sameCk (t.ledgerKeep r) :=
  State.sameCk_ite (State.sameCk_ledgerPlace hr h) (State.sameCk_ite h (State.sameCk_set7 h (lgDrop_page hr)))

theorem State.sameCk_ledgerRefuse {b : Nat} (h : s.sameCk t) : s.sameCk (t.ledgerRefuse b) := by
  refine State.sameCk_raiseInt (State.sameCk_set7 h ?_)
  split
  · exact lgSupp_page b
  · rfl

/-- A record changes registers of the Ledger, INT_RAW and COUR_DROP only (18 R448 to R453). -/
theorem State.sameCk_recordX {code sev tenant lanes : Nat} {ws : List Nat} (h : s.sameCk t) (hs : sev < 8) : s.sameCk (t.recordX code sev tenant lanes ws) := by
  unfold State.recordX State.ledgerArrive
  dsimp only
  split
  · exact State.sameCk_set7 (State.sameCk_set7 h rfl) rfl
  · split
    · split
      · exact State.sameCk_ite h (State.sameCk_ledgerKeep hs h)
      · exact State.sameCk_ledgerKeep hs h
    · exact State.sameCk_ite (State.sameCk_ite (State.sameCk_ledgerKeep hs h) (State.sameCk_ledgerRefuse h)) (State.sameCk_ledgerKeep hs h)

/-! ## The passive state (01 R38) -/

theorem State.sameCk_judgeWrite {d : Desc} {i w k : Nat} {vt : Option Nat} {b : List Byte} (h : s.sameCk t) : s.sameCk (t.judgeWrite d i w vt k b).1 := by
  unfold State.judgeWrite
  split
  · exact State.sameCk_raiseInt (State.sameCk_set (State.sameCk_set h (not_courKey (by decide))) (not_courKey (by decide)))
  · split
    · exact h
    · split
      · unfold State.acceptWrite
        have h1 : s.sameCk (if bitOf (t.hdr d) 3 = true then t.count DIMG_MERGED_0 else t) :=
          State.sameCk_ite (State.sameCk_set h (not_courKey (by decide))) h
        exact State.sameCk_ite h1 (State.sameCk_ite h1 h1)
      · exact State.sameCk_recordX (State.sameCk_raiseInt (State.sameCk_set (State.sameCk_set (State.sameCk_set h (not_courKey (by decide)))
          (not_courKey (by decide))) (not_courKey (by decide)))) (by decide)

theorem State.sameCk_stageFallback {v : Nat} (h : s.sameCk t) : s.sameCk (t.stageFallback v) := by
  unfold State.stageFallback
  split
  · rename_i d hd
    have h1 : s.sameCk (t.imgWriteRaw 0xA002 v t.now none (t.hubRead d.fb d.size)).1 := by
      unfold State.imgWriteRaw
      split
      · split
        · exact h
        · exact State.sameCk_judgeWrite h
      · exact h
    exact State.sameCk_ite h1 h1
  · exact h

theorem State.sameCk_smOff (h : s.sameCk t) : s.sameCk t.smOff := by
  refine State.sameCk_set (State.sameCk_each h fun u x hu => State.sameCk_stageFallback (State.sameCk_set hu ?_)) (not_courKey (by decide))
  exact not_courKey_above (show 0x0A < 0x61 by decide)

theorem State.sameCk_setMode {m : Nat} (h : s.sameCk t) : s.sameCk (t.setMode m) :=
  State.sameCk_ite h (State.sameCk_raiseInt (State.sameCk_set (State.sameCk_set h (not_courKey (by decide))) (not_courKey (by decide))))

theorem State.sameCk_canPassive (h : s.sameCk t) : s.sameCk t.canPassive := by
  unfold State.canPassive
  refine State.sameCk_setCans (State.sameCk_each (State.sameCk_each h fun u c hu => State.sameCk_ite (State.sameCk_set hu ?_) hu) fun u e hu => ?_)
  · exact not_courKey_above (show 0x0A < 0x42 + c by omega)
  · split
    · exact State.sameCk_set hu (not_courKey_above (show 0x0A < 0x42 + e.1 by omega))
    · exact hu

theorem State.sameCk_fioPassive (h : s.sameCk t) : s.sameCk t.fioPassive := by
  unfold State.fioPassive
  refine State.sameCk_each h fun u i hu => State.sameCk_ite ?_ hu
  unfold State.deEnergise State.dlAsk State.dlSend State.ulSend
  exact State.sameCk_ite (State.sameCk_setWire (State.sameCk_updIl (State.sameCk_setWire (State.sameCk_updIl hu)))) (State.sameCk_setWire (State.sameCk_updIl hu))

theorem State.sameCk_brPassive (h : s.sameCk t) : s.sameCk t.brPassive := by
  have low (u : State) (hu : s.sameCk u) : s.sameCk u.sysfailOut :=
    State.sameCk_ite hu (State.sameCk_ite (State.sameCk_set hu (not_courKey (by decide)))
      (State.sameCk_courEvent (State.sameCk_set (State.sameCk_set hu (not_courKey (by decide))) (not_courKey (by decide)))))
  have h1 {f : BridgeS → BridgeS} {v w : Nat} : s.sameCk (((t.updBr f).set BRIDGE_state v).addSat BR_DISCARD_0 w) :=
    State.sameCk_set (State.sameCk_set h (not_courKey (by decide))) (not_courKey (by decide))
  unfold State.brPassive
  refine State.sameCk_ite h ?_
  unfold State.brShow
  exact State.sameCk_set (State.sameCk_set (State.sameCk_set (low _ (State.sameCk_ite (State.sameCk_recordX h1 (by decide)) h1))
    (not_courKey (by decide))) (not_courKey (by decide))) (not_courKey (by decide))

theorem State.sameCk_setPassive {c : Nat} (h : s.sameCk t) : s.sameCk (t.setPassive c) := by
  have h1 : s.sameCk (t.setLatch (Tri.all true) c).smOff := State.sameCk_smOff (State.sameCk_upd h rfl)
  unfold State.setPassive
  refine State.sameCk_ite h (State.sameCk_setMode (State.sameCk_brPassive ?_))
  unfold State.soOpen
  refine State.sameCk_updSo (State.sameCk_set (State.sameCk_fioPassive (State.sameCk_canPassive ?_)) (not_courKey (by decide)))
  unfold State.porterShut
  refine State.sameCk_updN (State.sameCk_set ?_ (not_courKey (by decide)))
  unfold State.mirPassive
  exact State.sameCk_ite (State.sameCk_set (State.sameCk_set h1 (not_courKey (by decide))) (not_courKey (by decide))) h1

/-! ## A lane leaves the vote (03 R96) -/

theorem State.sameCk_divFill {lane kind synd : Nat} {pas stray : Bool} {d : DivAt} (h : s.sameCk t) : s.sameCk (t.divFill lane kind pas stray d synd).1 := by
  unfold State.divFill
  dsimp only
  split
  · exact h
  · iterate 16 refine State.sameCk_set ?_ (not_courKey (by decide))
    exact h

theorem State.sameCk_assayPassive {kind cause : Nat} {d : DivAt} (h : s.sameCk t) : s.sameCk (t.assayPassive kind cause d) :=
  State.sameCk_ite h (State.sameCk_recordX (State.sameCk_setPassive (State.sameCk_divFill h)) (by decide))

theorem State.sameCk_voteAddr (h : s.sameCk t) (rs : List (Fin 3 × Rec)) : s.sameCk (t.voteAddr rs).1 := by
  unfold State.voteAddr
  split
  · split
    · exact h
    · exact h
  · exact h

theorem State.sameCk_splitCheck (h : s.sameCk t) : s.sameCk t.splitCheck := by
  unfold State.splitCheck State.voteSplit
  split
  · rename_i x hx
    refine State.sameCk_assayPassive ?_
    split at hx
    · cases hx; exact State.sameCk_voteAddr h _
    · split at hx
      · cases hx; exact State.sameCk_voteAddr h _
      · split at hx
        · cases hx; exact h
        · cases hx
  · exact h

theorem State.sameCk_stampsFree (h : s.sameCk t) : s.sameCk (t.stampsFree p) := by
  unfold State.stampsFree State.courShow State.raiseTo State.setB
  refine State.sameCk_set (State.sameCk_set (State.sameCk_set h ?_) ?_) ?_ <;> (revert p; unfold courKey; decide)

theorem State.sameCk_dropVoter (h : s.sameCk t) : s.sameCk (t.dropVoter l) := by
  have lanes : ∀ l : Fin 3, (laneField l).pageOf ≠ 0x0A ∧ (ASSAY_LAG_0 l.val).pageOf ≠ 0x0A := by decide
  have h1 : s.sameCk (t.leftVote l) := State.sameCk_upd (State.sameCk_set (f := ASSAY_LAG_0 l.val) (v := 0) (State.sameCk_set (f := laneField l)
    (v := lIsolated) (State.sameCk_set (f := ASSAY_voters) (v := clrBit (t.get ASSAY_voters) l.val) h (not_courKey (by decide)))
    (not_courKey (lanes l).1)) (not_courKey (lanes l).2)) rfl
  have h2 : s.sameCk (((t.leftVote l).freeDone.courDropLane l).each allPairs fun s p => s.stampsFree p) :=
    State.sameCk_each (State.sameCk_each (State.sameCk_upd h1 rfl) fun _ _ hu => State.sameCk_upd hu rfl) fun _ _ hu => State.sameCk_stampsFree hu
  rw [State.dropVoter_eq]
  exact State.sameCk_raiseInt (State.sameCk_set (State.sameCk_ite h2 (State.sameCk_ite (State.sameCk_setMode h2) (State.sameCk_setPassive h2)))
    (not_courKey (by decide)))

/-- An isolation of one of three voters leaves them. -/
theorem State.sameCk_isolate {kind synd : Nat} {stray : Bool} {d : DivAt} (h3 : s.voters.length = 3) : s.sameCk (s.isolate l kind stray d synd) := by
  have causes : ∀ l : Fin 3, (LM_CAUSE_0 l.val).pageOf ≠ 0x0A ∧ (LM_CAUSE_4 l.val).pageOf ≠ 0x0A ∧ (LM_CAUSE_8 l.val).pageOf ≠ 0x0A := by decide
  have h1 : s.sameCk ((s.dropVoter l).setCause l 1 0 0) := State.sameCk_set (State.sameCk_set (State.sameCk_set
    (State.sameCk_dropVoter State.sameCk_refl) (not_courKey (causes l).1)) (not_courKey (causes l).2.1)) (not_courKey (causes l).2.2)
  rw [State.isolate_three h3]
  unfold State.isoTold
  have h2 := State.sameCk_raiseInt (page := 8) (bit := 0) (State.sameCk_set (f := ASSAY_div_count)
    (v := min ((((s.dropVoter l).setCause l 1 0 0).divFill l.val kind false stray d synd).1.get ASSAY_div_count + 1) (2 ^ ASSAY_div_count.w - 1))
    (State.sameCk_divFill (lane := l.val) (kind := kind) (synd := synd) (pas := false) (stray := stray) (d := d) h1) (not_courKey (by decide)))
  have h3 := fun ws : List Nat => State.sameCk_recordX (code := 0x0801) (sev := 6) (tenant := 0xFF) (lanes := s.get ASSAY_voters) (ws := ws)
    (State.sameCk_ite (c := stray = true) (State.sameCk_raiseInt (page := 8) (bit := 1) h2) h2) (by decide)
  exact State.sameCk_splitCheck (State.sameCk_ite (State.sameCk_recordX (h3 _) (by decide)) (h3 _))

end Sys2Proof.Machine
end

section
/-! StampsAndReleases: a stamp is formed, it or a release reaches a lane, and a lane is late for it (05 R133, R134, R136, R137, R141, R144, R145, R150). -/

namespace Sys2Proof.Machine

variable {s t : State} {l : Fin 3} {p : Fin 4}

/-! ## What a release leaves of the Courier's table (R141) -/

/-- What a release does not change of a pair's table. -/
def CourS.stampsOf (c : CourS) : Nat × List (Nat × Nat) × Nat × List Stamp × List (Fin 3 × Stamp) :=
  (c.waiting, c.refused, c.num, c.out.map (·.st), c.flits)

/-- From s to t nothing of the stamps of pair p changes, nor of the other pairs' tables, the lanes, hub SRAM, COUR_LASTD and other pages' registers. -/
def State.sameStamps (s t : State) (p : Fin 4) : Prop :=
  (t.cr p).stampsOf = (s.cr p).stampsOf ∧ (∀ r, r ≠ p → t.cr r = s.cr r) ∧ t.lanes = s.lanes ∧ t.hub = s.hub ∧
  ∀ g : Fld, g.pageOf ≠ 0x0A ∨ g.key = (COUR_LASTD_LO_0 p.val).key ∨ g.key = (COUR_LASTD_HI_0 p.val).key → t.get g = s.get g

theorem State.sameStamps_refl : s.sameStamps s p := ⟨rfl, fun _ _ => rfl, rfl, rfl, fun _ _ => rfl⟩

theorem State.sameStamps_trans {u : State} (h : s.sameStamps t p) (h' : t.sameStamps u p) : s.sameStamps u p := by
  obtain ⟨h1, h2, h3, h4, h5⟩ := h
  obtain ⟨k1, k2, k3, k4, k5⟩ := h'
  exact ⟨k1.trans h1, fun r hr => (k2 r hr).trans (h2 r hr), k3.trans h3, k4.trans h4, fun g hg => (k5 g hg).trans (h5 g hg)⟩

/-- COUR_PAIRSTAT, COUR_OCC and COUR_STAMPS stand apart from COUR_LASTD, in the Courier's page. -/
theorem courShowKeys_apart (p : Fin 4) : ∀ f ∈ [COUR_PAIRSTAT_0 p.val, COUR_PAIRSTAT_12 p.val, COUR_OCC_0 p.val, COUR_STAMPS_0 p.val],
    f.pageOf = 0x0A ∧ f.key ≠ (COUR_LASTD_LO_0 p.val).key ∧ f.key ≠ (COUR_LASTD_HI_0 p.val).key := by
  unfold Fld.pageOf
  revert p
  decide

theorem State.sameStamps_set {f : Fld} {v : Nat} (h : s.sameStamps t p)
    (hf : f ∈ [COUR_PAIRSTAT_0 p.val, COUR_PAIRSTAT_12 p.val, COUR_OCC_0 p.val, COUR_STAMPS_0 p.val]) : s.sameStamps (t.set f v) p := by
  obtain ⟨h1, h2, h3, h4, h5⟩ := h
  obtain ⟨hp, hlo, hhi⟩ := courShowKeys_apart p f hf
  refine ⟨h1, h2, h3, h4, fun g hg => (State.get_set_ne t fun e => ?_).trans (h5 g hg)⟩
  rcases hg with hg | hg | hg
  · exact hg ((Fld.pageOf_congr e).trans hp)
  · exact hlo (e.symm.trans hg)
  · exact hhi (e.symm.trans hg)

theorem State.sameStamps_courShow (h : s.sameStamps t p) : s.sameStamps (t.courShow p) p :=
  State.sameStamps_set (State.sameStamps_set (State.sameStamps_set h (by simp)) (by simp)) (by simp)

theorem State.sameStamps_undoze (h : s.sameStamps t p) : s.sameStamps t.undoze p := h

theorem State.sameStamps_updC {f : CourS → CourS} (h : s.sameStamps t p) (hf : (f (t.cr p)).stampsOf = (t.cr p).stampsOf) :
    s.sameStamps (t.updC p f) p := by
  obtain ⟨h1, h2, h3, h4, h5⟩ := h
  refine ⟨?_, fun r hr => ?_, h3, h4, h5⟩
  · rw [State.cr_updC, if_pos rfl, hf, h1]
  · rw [State.cr_updC, if_neg hr, h2 r hr]

theorem State.sameStamps_release (s : State) (p : Fin 4) : s.sameStamps (s.release p) p := by
  unfold State.release
  split
  · exact State.sameStamps_refl
  · rename_i r _
    have noted (o : OutStamp) : (if r.count < o.st.due then { o with carried := some r.count } else o).st = o.st := by split <;> rfl
    refine State.sameStamps_courShow (State.sameStamps_undoze (State.sameStamps_updC State.sameStamps_refl ?_))
    simp only [CourS.stampsOf, List.map_map, Function.comp_def, noted]

theorem State.sameStamps_releaseTry (s : State) (p : Fin 4) : s.sameStamps (s.releaseTry p) p := by
  unfold State.releaseTry
  split
  · exact State.sameStamps_refl
  · split
    · exact State.sameStamps_refl
    · split
      · exact s.sameStamps_release p
      · exact State.sameStamps_refl

/-! ## A stamp is formed (R133, R134) -/

/-- The sources a stamp formed now carries. -/
def State.sourcesTaken (s : State) (p : Fin 4) : List Nat := (bitList 1280 (s.cr p).waiting).take 16

/-- The stamp the Courier forms next for a pair. -/
def State.nextStamp (s : State) (p : Fin 4) : Stamp :=
  { num := (s.cr p).num, due := s.courH p + s.get COUR_LEAD_0, srcs := (s.sourcesTaken p).map fun n => (n, (s.route n).2.2), faults := (s.cr p).refused }

/-- A pair's table once stamp st is formed of the sources given and goes to the lanes ls. -/
def CourS.formed (c : CourS) (srcs : List Nat) (st : Stamp) (ls : List (Fin 3)) : CourS :=
  { c with waiting := srcs.foldl clrBit c.waiting, refused := [], num := (c.num + 1) % 256,
           out := c.out ++ [{ st := st, carried := none }], flits := c.flits ++ ls.map fun l => (l, st) }

/-- The state with the stamp in the pair's table and its D in COUR_LASTD. -/
def State.stamped (s : State) (p : Fin 4) : State :=
  (s.updC p fun c => c.formed (s.sourcesTaken p) (s.nextStamp p) s.listeners).set64 (COUR_LASTD_LO_0 p.val) (COUR_LASTD_HI_0 p.val) (s.nextStamp p).due

theorem State.cr_stamped (s : State) (p r : Fin 4) :
    (s.stamped p).cr r = if r = p then (s.cr p).formed (s.sourcesTaken p) (s.nextStamp p) s.listeners else s.cr r :=
  State.cr_updC s p r fun c => c.formed (s.sourcesTaken p) (s.nextStamp p) s.listeners

theorem State.formStamp_eq (s : State) (p : Fin 4) :
    s.formStamp p = (((s.stamped p).count (COUR_STAMPS_0 p.val)).undoze.courShow p).releaseTry p := rfl

/-- What follows the stamp in the table leaves it. -/
theorem State.sameStamps_formStamp (s : State) (p : Fin 4) : (s.stamped p).sameStamps (s.formStamp p) p := by
  rw [State.formStamp_eq]
  have counted : (s.stamped p).sameStamps ((s.stamped p).count (COUR_STAMPS_0 p.val)) p := State.sameStamps_set State.sameStamps_refl (by simp)
  exact State.sameStamps_trans (State.sameStamps_courShow (State.sameStamps_undoze counted)) (State.sameStamps_releaseTry _ p)

theorem lastdKeys_apart (p : Fin 4) : (COUR_LASTD_LO_0 p.val).key ≠ (COUR_LASTD_HI_0 p.val).key ∧ (COUR_LASTD_LO_0 p.val).pageOf = 0x0A ∧
    (COUR_LASTD_HI_0 p.val).pageOf = 0x0A := by
  unfold Fld.pageOf
  revert p
  decide

theorem State.formStamp_spec (s : State) (p : Fin 4) : let c := s.cr p; let t := s.formStamp p; let st := s.nextStamp p
    (t.cr p).waiting = (s.sourcesTaken p).foldl clrBit c.waiting ∧ (t.cr p).refused = [] ∧ (t.cr p).num = (c.num + 1) % 256 ∧
    (t.cr p).out.map (·.st) = c.out.map (·.st) ++ [st] ∧ (t.cr p).flits = c.flits ++ s.listeners.map (fun l => (l, st)) ∧
    t.get64 (COUR_LASTD_LO_0 p.val) (COUR_LASTD_HI_0 p.val) = st.due % 2 ^ 64 ∧ t.lanes = s.lanes ∧ t.hub = s.hub ∧
    (∀ r, r ≠ p → t.cr r = s.cr r) ∧ ∀ g : Fld, g.pageOf ≠ 0x0A → t.get g = s.get g := by
  intro c t st
  obtain ⟨apart, lo, hi⟩ := lastdKeys_apart p
  obtain ⟨table, others, lanes, hub, regs⟩ := s.sameStamps_formStamp p
  have lastd : (s.stamped p).get64 (COUR_LASTD_LO_0 p.val) (COUR_LASTD_HI_0 p.val) = st.due % 2 ^ 64 := get64_set64_mod _ _ rfl rfl apart
  rw [State.cr_stamped, if_pos rfl] at table
  simp only [CourS.stampsOf, CourS.formed, Prod.mk.injEq, List.map_append, List.map_cons, List.map_nil] at table
  obtain ⟨waiting, refused, num, out, flits⟩ := table
  refine ⟨waiting, refused, num, out, flits, ?_, lanes, hub, fun r hr => ?_, fun g hg => ?_⟩
  · rw [← lastd]
    unfold State.get64
    rw [regs _ (.inr (.inl rfl)), regs _ (.inr (.inr rfl))]
  · exact (others r hr).trans ((s.cr_stamped p r).trans (if_neg hr))
  · refine (regs g (.inl hg)).trans ((State.get_set_ne _ fun e => hg ?_).trans (State.get_set_ne _ fun e => hg ?_))
    · exact (Fld.pageOf_congr e).trans hi
    · exact (Fld.pageOf_congr e).trans lo

/-! ## When one is formed (R133, R137, R145) -/

section
variable {P : State → Prop} (k : RecordKeeps P)
include k

/-- The Courier's own interrupt. -/
theorem RecordKeeps.raiseIntA {bit : Nat} (h : P s) : P (s.raiseInt 0x0A bit) := by
  have raised := k.set s (rawOf 0x0A) (setBit (s.get (rawOf 0x0A)) bit) (.inr rfl) h
  have told := k.deliver _ (1024 + 0x0A) raised
  unfold State.raiseInt State.courEvent
  dsimp only
  split
  · split
    · exact k.deliver _ _ told
    · exact told
  · exact raised

theorem RecordKeeps.recordSec {inst code sev : Nat} {ws : List Nat} (hs : sev < 8) (h : P s) : P (s.recordSec inst code sev ws) := by
  unfold State.recordSec State.once
  dsimp only
  split
  · exact RecordKeeps.recordX k hs (k.updLg _ _ h)
  · exact h

end

/-- The stamps out of a pair, and those on their way, are the same. -/
def State.sameOut (s t : State) (p : Fin 4) : Prop := (t.cr p).out = (s.cr p).out ∧ (t.cr p).flits = (s.cr p).flits

theorem State.sameOut_updC {r : Fin 4} {f : CourS → CourS} (h : s.sameOut t p) (hf : ∀ c, (f c).out = c.out ∧ (f c).flits = c.flits) :
    s.sameOut (t.updC r f) p := by
  unfold State.sameOut
  rw [State.cr_updC]
  split
  · rename_i e
    rw [(hf _).1, (hf _).2, ← e]
    exact h
  · exact h

/-- An event at the Courier waits; no stamp comes of it. -/
theorem State.sameOut_courDeliver {n : Nat} (h : s.sameOut t p) : s.sameOut (t.courDeliver n) p := by
  have told : ∀ v : State, v.cr p = t.cr p → s.sameOut v p := fun v e => by
    unfold State.sameOut
    rw [e]
    exact h
  have debugged := told (t.each (t.lanesIn lDebug) fun v l => v.updP l (pairIx (t.route n).1) fun q =>
    { q with pend := setBit q.pend n, prio := SMap.put q.prio n 0 (t.route n).2.2 }) (State.cr_each fun _ _ => rfl)
  unfold State.courDeliver
  dsimp only
  split
  · exact h
  · split
    · exact debugged
    · exact State.sameOut_updC debugged fun _ => ⟨rfl, rfl⟩

theorem State.recordKeeps_sameOut (s : State) (p : Fin 4) : RecordKeeps fun t => s.sameOut t p where
  set _ _ _ _ h := h
  updLg _ _ h := h
  hubWrite _ _ _ h := h
  deliver _ _ h := State.sameOut_courDeliver h

/-- A full table delays the stamp. -/
theorem State.stampTry_full (h : 256 ≤ (s.cr p).out.length) : s.sameOut (s.stampTry p) p := by
  unfold State.stampTry
  dsimp only
  split
  · exact ⟨rfl, rfl⟩
  · exact RecordKeeps.recordSec (s.recordKeeps_sameOut p) (by decide) (RecordKeeps.raiseIntA (s.recordKeeps_sameOut p) ⟨rfl, rfl⟩)

theorem State.stampTry_forms (h1 : s.flag (COUR_PAIRSTAT_13 p.val) = true) (h2 : s.flag COURIER_suspended = false)
    (hw : (s.cr p).waiting ≠ 0 ∨ (s.cr p).refused ≠ []) (ho : (s.cr p).out.length < 256) : s.stampTry p = s.formStamp p := by
  have idle : (decide ((s.cr p).waiting = 0) && (s.cr p).refused.isEmpty) = false := by
    rcases hw with hw | hw <;> simp [hw]
  unfold State.stampTry State.courRunning
  dsimp only
  rw [h1, h2, idle, if_neg (by decide), if_neg (by omega)]

theorem State.stampTry_idle (hw : (s.cr p).waiting = 0) (hr : (s.cr p).refused = []) : s.stampTry p = s :=
  if_pos (by simp [hw, hr])

/-! ## A flit or a release reaches a lane (R136, R141) -/

/-- The flit of stamp n to lane l is no longer on its way. -/
def CourS.flitTaken (c : CourS) (l : Fin 3) (n : Nat) : CourS := { c with flits := dropFirst (fun y => y.1 = l && y.2.num = n) c.flits }

/-- The release that names stamp n is no longer on its way to lane l. -/
def CourS.releaseTaken (c : CourS) (l : Fin 3) (n : Nat) : CourS := { c with rels := dropFirst (fun y => y.1 = l && y.2.2.1 = n) c.rels }

theorem State.stampArrive_flit {n : Nat} {x : Fin 3 × Stamp} (h : (s.cr p).flits.find? (fun x => x.1 = l && x.2.num = n) = some x) :
    s.stampArrive l p n = if x.2.due ≤ (s.pr l p).cev 0 then s.updC p fun c => c.flitTaken l n
      else (s.updC p fun c => c.flitTaken l n).updP l p fun q => { q with stamps := q.stamps ++ [x.2] } := by
  unfold State.stampArrive
  dsimp only
  rw [h]
  rfl

theorem State.stampArrive_release {n : Nat} {x : Fin 3 × Nat × Nat × List Nat}
    (h : (s.cr p).flits.find? (fun x => x.1 = l && x.2.num = n) = none) (h' : (s.cr p).rels.find? (fun x => x.1 = l && x.2.2.1 = n) = some x) :
    s.stampArrive l p n = (s.updC p fun c => c.releaseTaken l n).updP l p fun q => { q with release := some x.2 } := by
  unfold State.stampArrive
  dsimp only
  rw [h, h']
  rfl

theorem State.stampArrive_flit_spec {n : Nat} {x : Fin 3 × Stamp} (h : (s.cr p).flits.find? (fun x => x.1 = l && x.2.num = n) = some x) :
    let t := s.stampArrive l p n
    (t.pr l p).stamps = (s.pr l p).stamps ++ (if (s.pr l p).cev 0 < x.2.due then [x.2] else []) ∧
      (t.cr p).flits = dropFirst (fun y => y.1 = l && y.2.num = n) (s.cr p).flits ∧ (t.pr l p).pend = (s.pr l p).pend ∧ s.keepsBut t [] := by
  have taken : ((s.updC p fun c => c.flitTaken l n).cr p).flits = dropFirst (fun y => y.1 = l && y.2.num = n) (s.cr p).flits := by
    rw [State.cr_updC, if_pos rfl]
    rfl
  have kept : s.keepsBut (s.updC p fun c => c.flitTaken l n) [] := State.keepsBut_updC State.keepsBut_refl
  dsimp only
  rw [State.stampArrive_flit h]
  split
  · rename_i late
    rw [if_neg (Nat.not_lt.2 late)]
    exact ⟨(List.append_nil _).symm, taken, rfl, kept⟩
  · rename_i early
    rw [if_pos (Nat.not_le.1 early), State.pr_updP]
    exact ⟨rfl, taken, rfl, State.keepsBut_updP kept⟩

/-! ## A lane late for a stamp (R136, R144, R150) -/

/-- What a stamp-late flit of a voter leaves behind before the Assay isolates its lane: it is counted, shown and recorded. -/
def State.lateTold (s : State) (p : Fin 4) (d : Nat) : State :=
  ((s.count COURIER_late_count).raiseInt 0x0A 0).recordX 0x0A01 6 0xFF (s.get ASSAY_voters) [p.val, d]

theorem State.sameLm_voters (h : s.sameLm t) : t.voters = s.voters :=
  State.voters_congr (h.1 _ (by unfold lmKey; decide)) fun l => h.1 (laneField l) (by revert l; unfold lmKey; decide)

theorem State.lateTold_spec (s : State) (p : Fin 4) (d : Nat) : s.sameLm (s.lateTold p d) ∧
    (s.lateTold p d).get COURIER_late_count = s.oneMore COURIER_late_count := by
  have counted : s.sameLm (s.count COURIER_late_count) := State.sameLm_set State.sameLm_refl (by unfold lmKey; decide)
  have told : (s.count COURIER_late_count).sameCk (s.lateTold p d) := State.sameCk_recordX (State.sameCk_raiseInt State.sameCk_refl) (by decide)
  exact ⟨State.sameLm_recordX (State.sameLm_raiseInt counted (by decide) (by decide)) (by decide),
    (told _ (by unfold courKey; decide)).trans (s.get_count _)⟩

theorem State.divergeFree_voter (h : l ∈ s.voters) (kind item : Nat) (d : DivAt) :
    s.divergeFree l kind item d = s.draw.isolate l kind false d (Config.freeValue s.freeCtr % 2 ^ 64) :=
  if_pos (List.contains_iff_mem.2 h)

/-- The Assay takes the flit of a voter as a checkpoint that is missing. -/
theorem exec_stampLateFlit_voter (h : l ∈ s.voters) (d : Nat) : ∃ (place : DivAt) (synd : Nat),
    exec (.stampLateFlit l p d) s = .next ((s.lateTold p d).draw.draw.isolate l 3 false place synd) := by
  have votes : l ∈ (s.lateTold p d).draw.voters := by
    rw [State.voters_draw, State.sameLm_voters (s.lateTold_spec p d).1]
    exact h
  have handed : exec (.stampLateFlit l p d) s =
      .next ((s.lateTold p d).draw.divergeFree l 3 4 ⟨p, 0, 0, Config.freeValue (s.lateTold p d).freeCtr % 2 ^ 64, true⟩) :=
    congrArg Host.Outcome.next (if_pos (List.contains_iff_mem.2 h))
  rw [State.divergeFree_voter votes] at handed
  exact ⟨_, _, handed⟩

/-- A late flit of an apprentice after its window fails the rejoin (R144). -/
theorem exec_stampLateFlit_apprentice (ha : s.laneState l = lApprentice) (h4 : s.get LM_REJ_STAT_0 = 4) (d : Nat) :
    exec (.stampLateFlit l p d) s = .next (s.rejoinFail l 8 0 4 id) := by
  have novote : s.voters.contains l = false := by simp [State.voters, ha, lApprentice, lActive]
  have heard : s.listeners.contains l = true := by simp [State.listeners, mem_allLanes, ha, h4]
  exact congrArg Host.Outcome.next ((if_neg (by rw [novote]; decide)).trans (if_pos heard))

/-- Settles O19: what a formed stamp changes, the full table and the empty one, what reaches a lane, and the late flit of a voter or of an apprentice, each by
the lemma above. -/
theorem stampsAndReleases : Obligations.StampsAndReleases := by
  refine ⟨fun p s running atWork => ⟨fun hw ho => ?form, fun full => ⟨_, rfl, State.stampTry_full full⟩,
    fun hw hr => congrArg Host.Outcome.next (State.stampTry_idle hw hr)⟩,
    fun l p n s => ⟨fun x h => ⟨_, rfl, State.stampArrive_flit_spec h⟩, fun x h h' => ?release⟩,
    fun l p d s => ⟨fun h3 => ?late, fun ha h4 => ?apprentice⟩⟩
  case form => exact ⟨_, congrArg Host.Outcome.next (State.stampTry_forms running atWork hw ho), s.formStamp_spec p⟩
  case release =>
    refine ⟨_, congrArg Host.Outcome.next (State.stampArrive_release h h'), ?_, ?_, State.keepsBut_updP (State.keepsBut_updC State.keepsBut_refl)⟩
    · rw [State.pr_updP]
    · show ((s.updC p fun c => c.releaseTaken l n).cr p).rels = _
      rw [State.cr_updC, if_pos rfl]
      rfl
  case late =>
    obtain ⟨place, synd, hx⟩ := exec_stampLateFlit_voter (p := p) (mem_voters_of_three h3 l) d
    obtain ⟨same, count⟩ := s.lateTold_spec p d
    generalize s.lateTold p d = u at hx same count
    have three : u.draw.draw.voters.length = 3 := by
      rw [State.voters_draw, State.voters_draw, State.sameLm_voters same]
      exact h3
    obtain ⟨isolated, mask, cause, -⟩ := State.isolate_spec three l 3 false place synd
    have kept := State.sameCk_isolate (l := l) (kind := 3) (stray := false) (d := place) (synd := synd) three
    refine ⟨_, hx, isolated, cause, mask.trans ?_, (kept _ (by unfold courKey; decide)).trans count⟩
    exact congrArg (fun v => clrBit v l.val % 8) (same.1 ASSAY_voters (.inr rfl))
  case apprentice =>
    obtain ⟨left, gone, -, cause, item⟩ := s.rejoinFail_over l (cause := 8) (pair := 0) (item := 4) (by decide) (by decide) (by decide) (before := id)
      fun _ => State.sameMg_refl
    exact ⟨_, exec_stampLateFlit_apprentice ha h4 d, left, cause, item, gone⟩

end Sys2Proof.Machine
end

section
/-! What the cycle unit and the train time read, over the values handed on at a guard start, a set that a standby finds missing, and the first values of a start
(06 R154, R169, R170; 10 R268; 17 R428). -/

namespace Sys2Proof.Machine

variable {s t u : State}

/-- Keys of the pages of the cycle unit and of the Clockmaker. -/
def cycKey (k : Nat) : Prop := k / 131072 = 0x0B ∨ k / 131072 = 0x38

/-- From s to t these registers, the supply, the classes, the counter and the clock stay. -/
def State.sameCyc (s t : State) : Prop :=
  (t.power, t.cyc, t.counter, t.clk) = (s.power, s.cyc, s.counter, s.clk) ∧ ∀ g : Fld, cycKey g.key → t.get g = s.get g

theorem cycKey_page {g : Fld} (h : cycKey g.key) : g.pageOf = 0x0B ∨ g.pageOf = 0x38 := by
  unfold Fld.pageOf
  rcases h with h | h
  · left; rw [h]
  · right; rw [h]

/-- A field of a higher page. -/
theorem not_cycKey_above {f : Fld} (h : 0x38 < f.page) : ¬ cycKey f.key := by
  unfold cycKey Fld.key
  omega

/-- A fold keeps what every step keeps. -/
theorem State.each_keeps {α : Type} {P : State → Prop} {r : List α} {f : State → α → State} (h : P t) (hf : ∀ u a, P u → P (f u a)) : P (t.each r f) := by
  unfold State.each
  induction r generalizing t with
  | nil => exact h
  | cons a r ih => exact ih (hf t a h)

/-! ## What keeps them -/

theorem State.sameCyc_refl : s.sameCyc s := ⟨rfl, fun _ _ => rfl⟩

theorem State.sameCyc_set {f : Fld} {v : Nat} (h : s.sameCyc t) (k : ¬ cycKey f.key) : s.sameCyc (t.set f v) :=
  ⟨h.1, fun g hg => (State.get_set_ne t fun e => k (e ▸ hg)).trans (h.2 g hg)⟩

/-- A change of what holds none of them. -/
theorem State.sameCyc_upd (h : s.sameCyc t) (e : (u.power, u.cyc, u.counter, u.clk) = (t.power, t.cyc, t.counter, t.clk)) (er : u.regs = t.regs) :
    s.sameCyc u :=
  ⟨e.trans h.1, fun g hg => (congrArg (fun m => SMap.get m g.key g.rst) er).trans (h.2 g hg)⟩

theorem State.sameCyc_updIl {i : Nat} {f : IslS → IslS} (h : s.sameCyc t) : s.sameCyc (t.updIl i f) := State.sameCyc_upd h rfl rfl
theorem State.sameCyc_setWire {k : Nat} {b : List Byte} (h : s.sameCyc t) : s.sameCyc (t.setWire k b) := State.sameCyc_upd h rfl rfl
theorem State.sameCyc_updI {f : ImgS → ImgS} (h : s.sameCyc t) : s.sameCyc (t.updI f) := State.sameCyc_upd h rfl rfl
theorem State.sameCyc_hubWrite {o : Nat} {b : List Byte} (h : s.sameCyc t) : s.sameCyc (t.hubWrite o b) := State.sameCyc_upd h rfl rfl

theorem State.parts_of_rest (h : t.rest = s.rest) : (t.power, t.cyc, t.counter, t.clk) = (s.power, s.cyc, s.counter, s.clk) ∧ t.img = s.img := by
  simp only [State.rest, Prod.mk.injEq] at h ⊢
  tauto

theorem State.sameCyc_keeps {ps : List Nat} (h : s.sameCyc t) (k : t.keepsBut u ps) (hB : 0x0B ∉ ps) (h38 : 0x38 ∉ ps) : s.sameCyc u :=
  ⟨(State.parts_of_rest k.1).1.trans h.1, fun g hg => (k.2 g (by rcases cycKey_page hg with e | e <;> rwa [e])).trans (h.2 g hg)⟩

theorem State.sameCyc_raiseInt {page bit : Nat} (h : s.sameCyc t) (hB : page % 128 ≠ 0x0B) (h38 : page % 128 ≠ 0x38) : s.sameCyc (t.raiseInt page bit) :=
  State.sameCyc_keeps h (State.keepsBut_raiseInt (ps := [0x0A, page % 128]) State.keepsBut_refl (by simp) (by simp)) (by simp; omega) (by simp; omega)

theorem State.sameCyc_record {code sev : Nat} {ws : List Nat} (h : s.sameCyc t) (hs : sev < 8) : s.sameCyc (t.record code sev ws) :=
  State.sameCyc_keeps h (State.keepsBut_record (ps := [7, 0x0A]) State.keepsBut_refl hs (by simp) (by simp)) (by simp) (by simp)

theorem State.sameCyc_ite {c : Prop} [Decidable c] {a b : State} (ha : s.sameCyc a) (hb : s.sameCyc b) : s.sameCyc (if c then a else b) := by
  split
  · exact ha
  · exact hb

/-! ## What reads them -/

theorem State.sameCyc_power (h : s.sameCyc t) : t.power = s.power := congrArg (·.1) h.1

theorem State.sameCyc_cyc (h : s.sameCyc t) : t.cyc = s.cyc := congrArg (·.2.1) h.1

theorem State.sameCyc_cls (h : s.sameCyc t) (j : Nat) : t.cls j = s.cls j := by
  unfold State.cls
  rw [State.sameCyc_cyc h]

/-- The train time is read from the counter, the clock and the Clockmaker's page (10 R268). -/
theorem State.now_congr (hc : t.counter = s.counter) (hk : t.clk = s.clk) (hg : ∀ g : Fld, g.key / 131072 = 0x38 → t.get g = s.get g) : t.now = s.now := by
  unfold State.now State.nowI State.cns State.rateEff State.get64
  rw [hc, hk, hg CM_ANCHOR_LO_0 rfl, hg CM_ANCHOR_HI_0 rfl, hg CM_OFFSET_LO_0 rfl, hg CM_OFFSET_HI_0 rfl, hg CM_RATE_0 rfl]

theorem State.sameCyc_now (h : s.sameCyc t) : t.now = s.now :=
  State.now_congr (congrArg (·.2.2.1) h.1) (congrArg (·.2.2.2) h.1) fun g k => h.2 g (.inr k)

/-! ## Staged values of variables and of output units (06 R154, R166; 13 R350, R351; 15 R393; 16 R409) -/

theorem State.sameCyc_acceptWrite {d : Desc} {i w k : Nat} {vt : Option Nat} {b : List Byte} (h : s.sameCyc t) : s.sameCyc (t.acceptWrite d i w vt k b) := by
  have counted : s.sameCyc (if bitOf (t.hdr d) 3 = true then t.count DIMG_MERGED_0 else t) :=
    State.sameCyc_ite (State.sameCyc_set h (by unfold cycKey; decide)) h
  unfold State.acceptWrite
  dsimp only
  exact State.sameCyc_ite (State.sameCyc_upd counted rfl rfl) (State.sameCyc_ite (State.sameCyc_upd counted rfl rfl) (State.sameCyc_upd counted rfl rfl))

theorem State.sameCyc_smForm {at0 n : Nat} {c : SafeTx} {d : Desc} (h : s.sameCyc t) : s.sameCyc (t.smForm at0 n c d) := by
  unfold State.smForm
  split
  · exact h
  · exact State.sameCyc_upd (State.sameCyc_set (f := SM_T_CNT_0 n) (State.sameCyc_set (f := SM_T_SEQ_0 n) (State.sameCyc_acceptWrite h)
      (not_cycKey_above (by simp [SM_T_SEQ_0]))) (not_cycKey_above (by simp [SM_T_CNT_0]))) rfl rfl

theorem State.sameCyc_smFormAll {j at0 : Nat} (h : s.sameCyc t) : s.sameCyc (t.smFormAll j at0) := by
  unfold State.smFormAll
  refine State.sameCyc_ite h (State.each_keeps h fun u x hu => ?_)
  split
  · exact State.sameCyc_ite (State.sameCyc_smForm hu) hu
  · exact hu

theorem State.sameCyc_soStage {j : Nat} {commits : Bool} (h : s.sameCyc t) : s.sameCyc (t.soStage j commits) := by
  unfold State.soStage
  refine State.sameCyc_ite h (State.each_keeps h fun u n hu => State.sameCyc_ite hu ?_)
  split
  · exact State.sameCyc_ite (State.sameCyc_upd hu rfl rfl) hu
  · exact hu

theorem State.sameCyc_dlAsk {i b0 b2 b3 : Nat} {volts : List Nat} {f : IslS → IslS} (h : s.sameCyc t) : s.sameCyc (t.dlAsk i b0 b2 b3 volts f) := by
  have sent : s.sameCyc (t.dlSend i b0 b2 b3 0 true) := State.sameCyc_setWire (State.sameCyc_updIl h)
  unfold State.dlAsk
  exact State.sameCyc_ite (State.sameCyc_setWire (State.sameCyc_updIl sent)) sent

theorem State.sameCyc_stageSend {i v : Nat} (h : s.sameCyc t) : s.sameCyc (t.stageSend i v) := by
  have shown : s.sameCyc (t.set (FIO_OUT_STATE_8 i) v) := State.sameCyc_set h (not_cycKey_above (by simp only [FIO_OUT_STATE_8]; omega))
  unfold State.stageSend
  dsimp only
  exact State.sameCyc_dlAsk (State.sameCyc_updIl shown)

theorem State.sameCyc_fioStage {j : Nat} {commits : Bool} (h : s.sameCyc t) : s.sameCyc (t.fioStage j commits) := by
  unfold State.fioStage
  refine State.each_keeps h fun u i hu => State.sameCyc_ite hu (State.sameCyc_ite (State.sameCyc_dlAsk hu) ?_)
  exact State.sameCyc_stageSend (State.sameCyc_ite (State.sameCyc_updIl hu) hu)

theorem State.sameCyc_handOn {j at0 : Nat} {commits : Bool} (h : s.sameCyc t) : s.sameCyc (t.handOn j at0 commits) := by
  unfold State.handOn
  exact State.sameCyc_fioStage (State.sameCyc_soStage (State.sameCyc_ite (State.sameCyc_smFormAll h) h))

/-! ## The check of a standby's set (17 R428) -/

theorem State.sameCyc_mirRecord {code sev w : Nat} (h : s.sameCyc t) (hs : sev < 8) : s.sameCyc (t.mirRecord code sev w) := State.sameCyc_record h hs

theorem State.sameCyc_syncEval (h : s.sameCyc t) : s.sameCyc t.syncEval := by
  have mir (f : Fld) (hf : f.key / 131072 = 0x34) : ¬ cycKey f.key := by unfold cycKey; omega
  have shown {v : Nat} : s.sameCyc (t.set MIR_SYNC_STAT_0 v) := State.sameCyc_set h (mir _ rfl)
  have told {v w c sev : Nat} (hs : sev < 8) : s.sameCyc ((((t.set MIR_SYNC_STAT_0 v).set MIRROR_sync w).raiseInt 0x34 2).mirRecord c sev v) :=
    State.sameCyc_mirRecord (State.sameCyc_raiseInt (State.sameCyc_set shown (mir _ rfl)) (by decide) (by decide)) hs
  unfold State.syncEval
  refine State.sameCyc_ite h (State.sameCyc_ite (told (by decide)) (State.sameCyc_ite ?_ shown))
  exact State.sameCyc_upd (State.sameCyc_set (f := MIR_SYNC_STAT_16) (v := 0) (told (by decide)) (mir _ rfl)) rfl rfl

theorem State.sameCyc_setLost {why : Nat} (h : s.sameCyc t) : s.sameCyc (t.setLost why) := by
  have counted : s.sameCyc (t.count (if why = 2 then MIR_SETS_LOST_0 else MIR_SETS_LOST_16)) :=
    State.sameCyc_set h (by split <;> (unfold cycKey; decide))
  unfold State.setLost
  exact State.sameCyc_syncEval (State.sameCyc_raiseInt (State.sameCyc_upd counted rfl rfl) (by decide) (by decide))

theorem State.sameCyc_setCheck (h : s.sameCyc t) : s.sameCyc t.setCheck := by
  unfold State.setCheck
  refine State.sameCyc_ite h (State.sameCyc_ite (State.sameCyc_upd h rfl rfl) (State.sameCyc_ite ?_ (State.sameCyc_ite (State.sameCyc_upd h rfl rfl) ?_)))
  · exact State.sameCyc_setLost (State.sameCyc_upd h rfl rfl)
  · exact State.sameCyc_upd h rfl rfl

/-! ## The first values of a start (06 R169; 13 R352) -/

theorem State.sameCyc_unstage {d : Desc} (h : s.sameCyc t) : s.sameCyc (t.unstage d) := by
  have shown : s.sameCyc (t.setHdr d (t.hdr d % 8)) := State.sameCyc_upd h rfl rfl
  unfold State.unstage
  dsimp only
  exact State.sameCyc_updI (State.sameCyc_ite shown (State.sameCyc_hubWrite shown))

theorem State.sameCyc_imgStart (h : s.sameCyc t) : s.sameCyc t.imgStart := by
  unfold State.imgStart
  dsimp only
  refine State.sameCyc_set (State.sameCyc_updI (State.each_keeps (State.each_keeps h fun u d hu => ?_) fun u d hu => ?_)) (by unfold cycKey; decide)
  · exact State.sameCyc_unstage hu
  · exact State.sameCyc_hubWrite (State.sameCyc_updI (State.sameCyc_hubWrite (State.sameCyc_hubWrite hu)))

theorem State.sameCyc_commitSymbol {i : Nat} (h : s.sameCyc t) : s.sameCyc (t.commitSymbol i) := by
  unfold State.commitSymbol
  refine State.sameCyc_ite h (State.sameCyc_ite ?_ (State.sameCyc_upd h rfl rfl))
  split
  · exact State.sameCyc_upd h rfl rfl
  · exact State.sameCyc_upd h rfl rfl

theorem State.sameCyc_fioStartCommit (h : s.sameCyc t) : s.sameCyc t.fioStartCommit := by
  unfold State.fioStartCommit
  exact State.each_keeps h fun u i hu => State.sameCyc_ite (State.sameCyc_commitSymbol (State.sameCyc_stageSend hu)) hu

end Sys2Proof.Machine
end

section
/-! CycleUnitCommands: the start of the cycle unit, done bits, restarts asked for, and the guard start (06 R154, R156 to R160, R162, R170, R172). -/

namespace Sys2Proof.Machine

variable {s : State} {j : Nat}

/-! ## The start of the unit (R169, R170; 21 R513) -/

theorem State.cycRun_idle (h : s.flag CYCLE_running = true ∨ s.flag SYS_svc_only = true) : s.cycRun = s := if_pos h

/-- A start writes the first values of variables and outputs, then the classes, then its record. -/
theorem State.cycRun_eq (hr : s.flag CYCLE_running = false) (hs : s.flag SYS_svc_only = false) :
    ∃ v ws, ((s.set CYCLE_run 1).set CYCLE_running 1).sameCyc v ∧
      s.cycRun = (v.updCyc fun c => { c with cls := [], next := v.now / v.baseNs + 1, realign := false, restart := 0 }).record 0x0B04 3 ws :=
  ⟨_, _, State.sameCyc_fioStartCommit (State.sameCyc_imgStart State.sameCyc_refl), if_neg (by rw [hr, hs]; decide)⟩

/-- A start: the unit runs, its next boundary is the first after the present time, and no class has begun. -/
theorem State.cycRun_starts (hr : s.flag CYCLE_running = false) (hs : s.flag SYS_svc_only = false) : let t := s.cycRun
    t.flag CYCLE_running = true ∧ t.flag CYCLE_run = true ∧ t.cyc.next = s.now / s.baseNs + 1 ∧ t.cyc.restart = 0 ∧ ∀ i, (t.cls i).begun = false := by
  obtain ⟨v, ws, values, e⟩ := State.cycRun_eq hr hs
  have noted : (v.updCyc fun c => { c with cls := [], next := v.now / v.baseNs + 1, realign := false, restart := 0 }).sameCyc s.cycRun := by
    rw [e]
    exact State.sameCyc_record State.sameCyc_refl (by decide)
  have time : v.now = s.now := (State.sameCyc_now values).trans (State.now_congr rfl rfl fun g k => by
    have other (f : Fld) (hf : f.key / 131072 = 0x0B) : g.key ≠ f.key := fun e => by rw [e, hf] at k; cases k
    rw [State.get_set_ne _ (other _ rfl), State.get_set_ne _ (other _ rfl)])
  have base : v.baseNs = s.baseNs := by
    unfold State.baseNs
    rw [values.2 _ (.inl rfl), State.get_set_ne _ (by decide), State.get_set_ne _ (by decide)]
  have shows (f : Fld) (hf : f.key / 131072 = 0x0B) : s.cycRun.get f = ((s.set CYCLE_run 1).set CYCLE_running 1).get f :=
    (noted.2 f (.inl hf)).trans (values.2 f (.inl hf))
  have running : s.cycRun.get CYCLE_running = 1 := (shows _ rfl).trans (State.get_set_same _ _ _)
  have run : s.cycRun.get CYCLE_run = 1 := by
    rw [shows _ rfl, State.get_set_ne _ (by decide), State.get_set_same]
    rfl
  refine ⟨bne_iff_ne.2 (by rw [running]; decide), bne_iff_ne.2 (by rw [run]; decide), ?_, ?_, fun i => ?_⟩
  · rw [State.sameCyc_cyc noted, ← time, ← base]
    rfl
  · rw [State.sameCyc_cyc noted]
    rfl
  · rw [State.sameCyc_cls noted]
    rfl

theorem exec_cycleRunWrite {a : Acc} (h : s.reaches a 0x0B 0x00C) (v : Nat) :
    exec (.cycleRunWrite a v) s = .next (if bitOf v 0 = true then s.cycRun else s) := congrArg Host.Outcome.next (State.writeAt_of_reaches h)

/-! ## Done bits (R157) -/

theorem exec_cycDoneWrite {a : Acc} {j : Fin 8} (h : s.opens a 0x0B (0x100 + 4 * j.val)) (v : Nat) :
    exec (.cycDoneWrite a j v) s = .next ((s.noteAccess a).set (CYC_DSTAT_0 j.val) (s.get (CYC_DSTAT_0 j.val) ||| v % 2 ^ 32)) := by
  have e : exec (.cycDoneWrite a j v) s = _ := congrArg Host.Outcome.next (State.writeAt_of_opens h)
  rw [e, (s.noteAccess_reads a).1]

theorem State.noteAccess_memories (s : State) (a : Acc) : (s.noteAccess a).hub = s.hub ∧ (s.noteAccess a).lanes = s.lanes := by
  obtain ⟨f, hf⟩ := s.noteAccess_eq a
  rw [hf]
  exact ⟨rfl, rfl⟩

/-! ## The stall monitor (R162) -/

/-- The entries of the stall monitor stand above its head. -/
theorem stallKey_le (i : Nat) : ∀ f ∈ [CYC_STALL_0 i, CYC_STALL_2 i, CYC_STALL_3 i, CYC_STALL_4 i, CYC_STALL_14 i, CYC_STALL_15 i],
    (CYC_STALL_0 0).key ≤ f.key := by
  simp only [List.forall_mem_cons, CYC_STALL_0, CYC_STALL_2, CYC_STALL_3, CYC_STALL_4, CYC_STALL_14, CYC_STALL_15, Fld.key]
  refine ⟨?_, ?_, ?_, ?_, ?_, ?_, by simp⟩ <;> omega

/-- An entry of the stall monitor leaves the classes and every register below the entries. -/
theorem State.stallEntry_keeps (s : State) (miss i : Nat) : (s.stallEntry miss i).cyc = s.cyc ∧
    ∀ g : Fld, g.key < (CYC_STALL_0 0).key → (s.stallEntry miss i).get g = s.get g := by
  refine ⟨by unfold State.stallEntry; split <;> rfl, fun g hg => ?_⟩
  have other {u : State} {v : Nat} {f : Fld} (hf : f ∈ [CYC_STALL_0 i, CYC_STALL_2 i, CYC_STALL_3 i, CYC_STALL_4 i, CYC_STALL_14 i, CYC_STALL_15 i]) :
      (u.set f v).get g = u.get g := State.get_set_ne u (Nat.ne_of_lt (Nat.lt_of_lt_of_le hg (stallKey_le i f hf)))
  unfold State.stallEntry State.setB
  split <;> rw [other (by simp), other (by simp), other (by simp), other (by simp), other (by simp), other (by simp)]

/-- What the stall monitor shows of an overrun: class and tenants missing; the classes stay. -/
theorem State.stallFill_reads (s : State) (j miss : Nat) : let t := s.stallFill j miss
    t.cyc = s.cyc ∧ t.get CYC_STALL_CLS_0 = j % 2 ^ 3 ∧ t.get CYC_STALL_CLS_31 = 1 ∧ t.get CYC_STALL_T_0 = miss % 2 ^ 32 := by
  let head := ((s.set CYC_STALL_CLS_0 j).set CYC_STALL_CLS_31 1).set CYC_STALL_T_0 miss
  have entries : (s.stallFill j miss).cyc = head.cyc ∧ ∀ g : Fld, g.key < (CYC_STALL_0 0).key → (s.stallFill j miss).get g = head.get g :=
    State.each_keeps (P := fun u => u.cyc = head.cyc ∧ ∀ g : Fld, g.key < (CYC_STALL_0 0).key → u.get g = head.get g) ⟨rfl, fun _ _ => rfl⟩
      fun u i ⟨hc, hg⟩ => ⟨(u.stallEntry_keeps miss i).1.trans hc, fun g k => ((u.stallEntry_keeps miss i).2 g k).trans (hg g k)⟩
  refine ⟨entries.1, ?_, ?_, ?_⟩ <;> rw [entries.2 _ (by decide)]
  · rw [State.get_set_ne _ (by decide), State.get_set_ne _ (by decide), State.get_set_same]
    rfl
  · rw [State.get_set_ne _ (by decide), State.get_set_same]
    rfl
  · exact State.get_set_same _ _ _

/-! ## The guard start (R154, R156, R159, R160, R162) -/

/-- The guard start of class j is due: the unit runs, the class is enabled, and its cycle is in progress and not checked. -/
def State.guardDue (s : State) (j : Nat) : Prop :=
  s.power = .run ∧ s.flag CYCLE_running = true ∧ s.flag (CYC_CFG_21 j) = true ∧ (s.cls j).begun = true ∧ (s.cls j).checked = false

theorem State.guardStart_due (h : s.guardDue j) : s.guardStart j = s.guardAt j (s.endOf j s.cyc.next * s.baseNs) := if_pos h

theorem State.guardStart_not_due (h : ¬ s.guardDue j) : s.guardStart j = s := if_neg h

/-- A class that was checked is not checked again before its next cycle. -/
theorem exec_guardStart_checked {j : Fin 8} (h : (s.cls j.val).checked = true) : exec (.guardStart j) s = .next s :=
  congrArg Host.Outcome.next (State.guardStart_not_due fun due => by
    obtain ⟨-, -, -, -, unchecked⟩ := due
    rw [h] at unchecked
    cases unchecked)

theorem State.cls_updCls (s : State) (j : Nat) (f : ClassS → ClassS) : (s.updCls j f).cls j = f (s.cls j) := SMap.get_put_same _ _ _ _

theorem State.cls_setCheck (s : State) (j : Nat) : s.setCheck.cls j = s.cls j := State.sameCyc_cls (State.sameCyc_setCheck State.sameCyc_refl) j

/-- Supervised tenants whose done bit is missing. -/
def State.missing (s : State) (j : Nat) : Nat := (s.cls j).tmask &&& (0xFFFFFFFF - s.get (CYC_DSTAT_0 j) % 2 ^ 32)

/-- Complete: outputs are late from now on, after a cycle that was not skipped (R160). -/
theorem State.guardAt_complete (h : s.classComplete j = true) (n : Nat) :
    (s.guardAt j n).cls j = { s.cls j with checked := true, overran := false, late := (s.cls j).late || !s.flag (CYC_OVSTAT_8 j) } := by
  unfold State.guardAt
  rw [h, if_pos rfl, State.sameCyc_cls (State.sameCyc_handOn State.sameCyc_refl), State.cls_updCls, State.cls_setCheck]

/-- Incomplete: the class has overrun, and the stall monitor shows it. -/
theorem State.guardAt_overrun (h : s.classComplete j = false) (n : Nat) : let t := s.guardAt j n
    t.cls j = { s.cls j with checked := true, overran := true, miss := s.missing j } ∧
    t.get CYC_STALL_CLS_0 = j % 2 ^ 3 ∧ t.get CYC_STALL_CLS_31 = 1 ∧ t.get CYC_STALL_T_0 = s.missing j % 2 ^ 32 := by
  let u := s.setCheck.updCls j fun c => { c with checked := true, overran := true, miss := s.missing j }
  have e : s.guardAt j n = (u.stallFill j (s.missing j)).handOn j n false := by
    unfold State.guardAt
    rw [h, if_neg (by decide)]
    rfl
  obtain ⟨cyc, cls, valid, tenants⟩ := u.stallFill_reads j (s.missing j)
  have handed : (u.stallFill j (s.missing j)).sameCyc (s.guardAt j n) := e ▸ State.sameCyc_handOn State.sameCyc_refl
  refine ⟨?_, (handed.2 _ (.inl rfl)).trans cls, (handed.2 _ (.inl rfl)).trans valid, (handed.2 _ (.inl rfl)).trans tenants⟩
  calc (s.guardAt j n).cls j = (u.stallFill j (s.missing j)).cls j := State.sameCyc_cls handed j
    _ = u.cls j := congrArg (fun c : CycS => SMap.get c.cls j ClassS.init) cyc
    _ = _ := by rw [State.cls_updCls, State.cls_setCheck]

/-! ## Outside a running unit (R152, R170) -/

theorem State.baseBoundary_idle (h : s.power ≠ .run ∨ s.flag CYCLE_running = false) : s.baseBoundary = s := if_neg fun ⟨power, running⟩ => by
  rcases h with h | h
  · exact h power
  · rw [h] at running
    cases running

/-- Settles O25: a start, done bits, restarts, and the guard start of a class complete or not, each by the lemma above. That the done bits are compared with the
tenants supervised, that outputs are late after the guard start, and that commands of a unit that does not run change nothing are the model's choices (log entries
14, 15 and 3). -/
theorem cycleUnitCommands : Obligations.CycleUnitCommands := by
  refine ⟨fun a v s reached => ⟨fun idle => ?idle, fun one stopped able => ?start⟩,
    fun a s reached => ⟨congrArg Host.Outcome.next (State.writeAt_of_reaches reached), congrArg Host.Outcome.next (State.writeAt_of_reaches reached)⟩,
    fun a j v s opened => ?done,
    fun j s => ⟨fun shut => congrArg Host.Outcome.next (State.guardStart_not_due shut), fun due complete => ?complete, fun due missed => ?overrun⟩,
    fun s idle => congrArg Host.Outcome.next (State.baseBoundary_idle idle)⟩
  case idle =>
    rw [exec_cycleRunWrite reached]
    rcases idle with zero | idle
    · rw [zero, if_neg (by decide)]
    · rw [State.cycRun_idle idle, ite_self]
  case start => exact ⟨_, (exec_cycleRunWrite reached v).trans (by rw [if_pos one]), State.cycRun_starts stopped able⟩
  case done =>
    obtain ⟨hub, lanes⟩ := s.noteAccess_memories a
    exact ⟨_, exec_cycDoneWrite opened v, State.get_set_same _ _ _, fun g hg => (State.get_set_ne _ hg).trans ((s.noteAccess_reads a).1 g), hub, lanes⟩
  case complete =>
    have cls := State.guardAt_complete complete (s.endOf j.val s.cyc.next * s.baseNs)
    refine ⟨_, congrArg Host.Outcome.next (State.guardStart_due due), ?_, ?_, fun normal => ?_, exec_guardStart_checked ?_⟩ <;> rw [cls]
    rw [normal]
    exact Bool.or_true _
  case overrun =>
    obtain ⟨cls, shown, valid, tenants⟩ := State.guardAt_overrun missed (s.endOf j.val s.cyc.next * s.baseNs)
    refine ⟨_, congrArg Host.Outcome.next (State.guardStart_due due), ?_, ?_, ?_, shown.trans (Nat.mod_eq_of_lt j.isLt), valid, tenants, exec_guardStart_checked ?_⟩ <;>
      rw [cls]

end Sys2Proof.Machine
end

section
/-! DataImageWrites: bytes of hub SRAM and headers of value records, and a write staged, late, or of an identity that the table does not name (06 R163, R164,
R166, R167). -/

namespace Sys2Proof.Machine

variable {s : State} {d : Desc} {id w : Nat} {vt : Option Nat} {b : List Byte}

/-! ## Hub SRAM and the header of a value record -/

theorem leNat_leBytes (n v : Nat) : leNat (leBytes n v) = v % 256 ^ n := by
  have h := beNat_beBytes n v
  rwa [beNat, beBytes, List.reverse_reverse] at h

/-- A range apart from the bytes written reads as before. -/
theorem State.hubRead_hubWrite_out {off n o : Nat} (h : off + n ≤ o ∨ o + b.length ≤ off) : (s.hubWrite o b).hubRead off n = s.hubRead off n :=
  List.map_congr_left fun i hi => get_writeBytes_out (by have := List.mem_range.1 hi; omega)

theorem State.hdr_setHdr (s : State) (d : Desc) (v : Nat) : (s.setHdr d v).hdr d = v % 2 ^ 16 := by
  have h := s.hubRead_hubWrite d.off (leBytes 2 v)
  rw [leBytes_length] at h
  unfold State.hdr State.setHdr State.hubNat State.hubSet
  rw [h, leNat_leBytes]
  rfl

/-- The header stands before the views. -/
theorem State.hubRead_setHdr (s : State) (v : Nat) {off n : Nat} (h : d.val ≤ off) : (s.setHdr d v).hubRead off n = s.hubRead off n :=
  State.hubRead_hubWrite_out (.inr (by rw [leBytes_length]; unfold Desc.val at h; omega))

theorem State.hubRead_congr {t : State} (h : t.hub = s.hub) (off n : Nat) : t.hubRead off n = s.hubRead off n := by
  unfold State.hubRead
  rw [h]

theorem State.hdr_congr {t : State} (h : t.hub = s.hub) : t.hdr d = s.hdr d := congrArg leNat (State.hubRead_congr h _ _)

theorem State.img_raiseInt (s : State) (page bit : Nat) : (s.raiseInt page bit).img = s.img := (State.parts_of_rest (State.rest_raiseInt s page bit)).2

/-! ## A write accepted (R166) -/

/-- With no merge rule: header, staged view, then writer and times; beside them only the count of merged writes changes. -/
theorem State.acceptWrite_eq (hm : d.merge = 0) (k : Nat) : ∃ (u : State) (h : Nat), u.hub = s.hub ∧ u.cour = s.cour ∧ (∀ g : Fld, g.pageOf ≠ 0x0C → u.get g = s.get g) ∧
    s.acceptWrite d id w vt k b = ((u.setHdr d h).hubWrite (d.stg + k) b).updI fun i =>
      { i with stage := SMap.insert (SMap.erase i.stage d.v) d.v { writer := id, wtime := w, vtime := vt, fb := false } } := by
  refine ⟨if bitOf (s.hdr d) 3 then s.count DIMG_MERGED_0 else s, _, ?_, ?_, fun g hg => ?_, if_pos hm⟩
  · split <;> rfl
  · split <;> rfl
  · split
    · exact State.get_count_ne fun e => hg (by unfold Fld.pageOf; rw [e]; rfl)
    · rfl

/-- A write of the whole value stands in the staged view; the committed value and what is outside the record stay. -/
theorem State.acceptWrite_stages (hm : d.merge = 0) (hl : b.length = d.size) : let t := s.acceptWrite d id w vt 0 b
    t.hubRead d.stg d.size = b ∧ t.hubRead d.val d.size = s.hubRead d.val d.size ∧
    SMap.find? t.img.stage d.v = some { writer := id, wtime := w, vtime := vt, fb := false } ∧
    (∀ x, x < d.off ∨ d.stg + d.size ≤ x → SMap.get t.hub x 0 = SMap.get s.hub x 0) ∧ (∀ g : Fld, g.pageOf ≠ 0x0C → t.get g = s.get g) ∧ t.cour = s.cour := by
  obtain ⟨u, h, hub, cour, regs, e⟩ := s.acceptWrite_eq (id := id) (w := w) (vt := vt) (b := b) hm 0
  rw [e]
  refine ⟨?_, ?_, SMap.find?_insert_same (SMap.find?_erase_same _ _), fun x hx => ?_, regs, cour⟩
  · rw [← hl]
    exact State.hubRead_hubWrite _ _ b
  · calc ((u.setHdr d h).hubWrite (d.stg + 0) b).hubRead d.val d.size = (u.setHdr d h).hubRead d.val d.size :=
          State.hubRead_hubWrite_out (.inl (Nat.le_refl _))
      _ = u.hubRead d.val d.size := State.hubRead_setHdr u h (Nat.le_refl _)
      _ = s.hubRead d.val d.size := State.hubRead_congr hub _ _
  · unfold Desc.stg at hx
    calc SMap.get (writeBytes (writeBytes u.hub d.off (leBytes 2 h)) (d.stg + 0) b) x 0 = SMap.get (writeBytes u.hub d.off (leBytes 2 h)) x 0 :=
          get_writeBytes_out (by unfold Desc.stg; omega)
      _ = SMap.get u.hub x 0 := get_writeBytes_out (by rw [leBytes_length]; omega)
      _ = SMap.get s.hub x 0 := by rw [hub]

/-! ## A write discarded (R160, R167) -/

/-- A late write: neither view changes; it is marked, counted and shown. -/
theorem State.lateWrite_spec (s : State) (d : Desc) : let t := s.lateWrite d
    t.hubRead d.val (2 * d.size) = s.hubRead d.val (2 * d.size) ∧ t.img = s.img ∧ bitOf (t.hdr d) 5 = true ∧
    t.get DIMG_LATE_0 = s.oneMore DIMG_LATE_0 ∧ t.get DIMG_LATE_LAST_0 = d.v % 2 ^ 16 := by
  let u := (s.count DIMG_LATE_0).set DIMG_LATE_LAST_0 d.v
  have hub : (s.lateWrite d).hub = (u.setHdr d (setBit (s.hdr d) 5)).hub := (State.raiseInt_hub _ _ _).1
  refine ⟨(State.hubRead_congr hub _ _).trans (State.hubRead_setHdr u _ (Nat.le_refl _)), State.img_raiseInt _ _ _, ?_, ?_, ?_⟩
  · rw [State.hdr_congr hub, State.hdr_setHdr, bitOf_mod_two_pow (by decide : 5 < 16), bitOf_setBit]
    simp
  · exact (State.get_raiseInt_ne (by decide) (by decide)).trans ((State.get_set_ne _ (by decide)).trans (State.get_count s DIMG_LATE_0))
  · exact (State.get_raiseInt_ne (by decide) (by decide)).trans (State.get_set_same _ _ _)

/-- A write of another identity: nothing is staged; it is counted and shown. -/
theorem State.rejectWrite_spec (s : State) (d : Desc) (id : Nat) : let t := s.rejectWrite d id
    t.img = s.img ∧ t.get DIMG_reject_count = s.oneMore DIMG_reject_count ∧ t.get DIMG_REJ_LAST_0 = d.v % 2 ^ 16 ∧ t.get DIMG_REJ_LAST_16 = id % 2 ^ 16 := by
  let u := ((s.count DIMG_reject_count).set DIMG_REJ_LAST_0 d.v).set DIMG_REJ_LAST_16 id
  have told (f : Fld) (h7 : f.pageOf ≠ 7) (hA : f.pageOf ≠ 0x0A) (hraw : f.key ≠ (rawOf 0x0C).key) : (s.rejectWrite d id).get f = u.get f :=
    (State.get_record (by decide) h7 hA).trans (State.get_raiseInt_ne hA hraw)
  refine ⟨((State.parts_of_rest (State.rest_record (by decide))).2).trans (State.img_raiseInt _ _ _), ?_, ?_, ?_⟩ <;>
    rw [told _ (by decide) (by decide) (by decide)]
  · rw [State.get_set_ne _ (by decide), State.get_set_ne _ (by decide), State.get_count]
  · rw [State.get_set_ne _ (by decide), State.get_set_same]
    rfl
  · exact State.get_set_same _ _ _

/-! ## The judgement of a write (R163, R167) -/

theorem State.judgeWrite_late (h : s.isLate d = true) (k : Nat) : s.judgeWrite d id w vt k b = (s.lateWrite d, .discarded) := if_pos h

theorem State.judgeWrite_owner (h : s.isLate d = false) (hm : d.merge = 0) (k : Nat) :
    s.judgeWrite d d.owner w vt k b = (s.acceptWrite d d.owner w vt k b, .accepted) := by
  unfold State.judgeWrite
  rw [h, if_neg (by decide), if_neg fun ⟨merged, _⟩ => merged hm, if_pos (.inl rfl)]

theorem State.judgeWrite_other (h : s.isLate d = false) (hm : d.merge = 0) (hi : id ≠ d.owner) (k : Nat) :
    s.judgeWrite d id w vt k b = (s.rejectWrite d id, .discarded) := by
  unfold State.judgeWrite
  rw [h, if_neg (by decide), if_neg fun ⟨merged, _⟩ => merged hm, if_neg (by rintro (e | ⟨merged, -⟩); exacts [hi e, merged hm])]

/-! ## The writers (R163, R164; 07 R183) -/

/-- A unit's write of a whole output or internal variable or input is judged. -/
theorem State.imgWriteRaw_judged (hv : s.var d.v = some d) (hk : d.kind < 2) (hl : b.length = d.size) :
    s.imgWriteRaw id d.v w vt b = s.judgeWrite d id w vt 0 b := by
  unfold State.imgWriteRaw
  rw [hv]
  exact if_neg (by omega)

/-- With no safe message section loaded, a unit's write is its judgement. -/
theorem exec_unitWrite {stamp : Nat} (hv : s.var d.v = some d) (hk : d.kind < 2) (hl : b.length = d.size)
    (hf : s.img.vars.find? (fun e => e.val = d.val) = some d)
    (hs : (s.judgeWrite d id stamp (some stamp) 0 b).2 = .accepted → (s.judgeWrite d id stamp (some stamp) 0 b).1.flag SAFEMSG_loaded = false) :
    exec (.dataImageWrite (.unit id stamp) d.val b) s = .next (s.judgeWrite d id stamp (some stamp) 0 b).1 := by
  show execDataImageWrite (.unit id stamp) d.val b s = _
  unfold execDataImageWrite State.imgWrite
  simp only [hf, State.imgWriteRaw_judged hv hk hl]
  refine congrArg Host.Outcome.next (if_pos ?_)
  by_cases ha : (s.judgeWrite d id stamp (some stamp) 0 b).2 = .accepted
  · right
    rw [hs ha]
    rfl
  · exact .inl ha

/-- A lane's write of a whole value view that its windows allow is judged with its tenant's identity. -/
theorem State.imgLaneWrite_judged {n : Nat} (hk : d.kind < 2) (hl : b.length = d.size) (ho : 0x102000 ≤ d.off) (ht : s.touched d.val d.size = [d]) :
    s.imgLaneWrite n d.val b = s.judgeWrite d n s.now none 0 b := by
  have above : 0x102000 ≤ d.val := Nat.le_trans ho (Nat.le_add_right _ _)
  unfold State.imgLaneWrite
  dsimp only
  rw [if_neg (by omega), if_neg (by omega), hl, ht]
  refine (if_neg (by unfold Desc.stg Desc.val; omega)).trans ?_
  rw [Nat.sub_self]

theorem exec_laneWrite {a : Acc} (hk : d.kind < 2) (hm : d.merge = 0) (hl : b.length = d.size) (h0 : 0 < d.size) (late : s.isLate d = false)
    (own : a.tenant.val = d.owner) (allowed : s.sramRefusal a d.val d.size 1 = none) (ho : 0x102000 ≤ d.off) (hi : d.val + d.size ≤ 0x400000)
    (ht : s.touched d.val d.size = [d]) : exec (.dataImageWrite (.lane a) d.val b) s = .next (s.acceptWrite d d.owner s.now none 0 b) := by
  have inside : d.val < 0x400000 := by omega
  have bytes : b ≠ [] := fun e => by rw [e] at hl; exact absurd hl (Nat.ne_of_lt h0)
  show execDataImageWrite (.lane a) d.val b s = _
  unfold execDataImageWrite State.sramStore
  simp only [inside, bytes, ne_eq, not_false_eq_true, and_self, if_true, hl, allowed, State.imgLaneWrite_judged hk hl ho ht, own,
    State.judgeWrite_owner late hm, reduceCtorEq, if_false]

/-- Settles O27: a write of the table's unit or tenant is accepted, a late one and one of another identity are discarded, each by the lemmas above. -/
theorem dataImageWrites : Obligations.DataImageWrites := by
  refine fun d b s hv hk hm hl h0 => ⟨fun id stamp hf hs => ⟨fun intime own => ?staged, fun late => ?late, fun intime other => ?other⟩,
    fun a intime own allowed ho hi ht => ?lane⟩
  case staged =>
    subst own
    have judged := State.judgeWrite_owner (w := stamp) (vt := some stamp) (b := b) intime hm 0
    obtain ⟨staged, value, note, apart, regs, -⟩ := State.acceptWrite_stages (s := s) (id := d.owner) (w := stamp) (vt := some stamp) hm hl
    refine ⟨_, exec_unitWrite hv hk hl hf fun _ => ?_, ?_⟩
    · rw [judged, State.flag_congr (regs _ (by decide))]
      exact hs
    · rw [judged]
      exact ⟨staged, value, note, apart, regs⟩
  case late =>
    have judged := State.judgeWrite_late (id := id) (w := stamp) (vt := some stamp) (b := b) late 0
    refine ⟨_, exec_unitWrite hv hk hl hf fun accepted => ?_, ?_⟩
    · rw [judged] at accepted
      cases accepted
    · rw [judged]
      exact s.lateWrite_spec d
  case other =>
    have judged := State.judgeWrite_other (w := stamp) (vt := some stamp) (b := b) intime hm other 0
    refine ⟨_, exec_unitWrite hv hk hl hf fun accepted => ?_, ?_⟩
    · rw [judged] at accepted
      cases accepted
    · rw [judged]
      exact s.rejectWrite_spec d id
  case lane =>
    obtain ⟨staged, value, note, -, -, cour⟩ := State.acceptWrite_stages (s := s) (id := d.owner) (w := s.now) (vt := none) hm hl
    exact ⟨_, exec_laneWrite hk hm hl h0 intime own allowed ho hi ht, staged, value, note, cour⟩

end Sys2Proof.Machine
end

section
/-! Parts of the state that no event, no record and no entry into the passive state touches (01 R38, 05 R131, 18 R448). -/

namespace Sys2Proof.Machine

/-- A part of the state that registers, the Ledger, hub SRAM, the lanes' pairs, the Courier, and what else the passive state acts on (the data image, islands,
transmitters, CAN controllers, safety outputs, the Porters, the bridge, the latch) are no part of. -/
structure Apart {β : Type} (part : State → β) : Prop where
  set : ∀ (u : State) (f : Fld) (v : Nat), part (u.set f v) = part u
  ledger : ∀ (u : State) (f : LedgerS → LedgerS), part (u.updLg f) = part u
  hub : ∀ (u : State) (o : Nat) (b : List Byte), part (u.hubWrite o b) = part u
  pair : ∀ (u : State) (l : Fin 3) (p : Fin 4) (f : PairS → PairS), part (u.updP l p f) = part u
  courier : ∀ (u : State) (p : Fin 4) (f : CourS → CourS), part (u.updC p f) = part u
  image : ∀ (u : State) (f : ImgS → ImgS), part (u.updI f) = part u
  island : ∀ (u : State) (i : Nat) (f : IslS → IslS), part (u.updIl i f) = part u
  wire : ∀ (u : State) (i : Nat) (b : List Byte), part (u.setWire i b) = part u
  cans : ∀ (u : State) (m : SMap CanS), part (u.setCans m) = part u
  outputs : ∀ (u : State) (f : SoS → SoS), part (u.updSo f) = part u
  consist : ∀ (u : State) (f : ConsS → ConsS), part (u.updN f) = part u
  bridge : ∀ (u : State) (f : BridgeS → BridgeS), part (u.updBr f) = part u
  latch : ∀ (u : State) (l : Tri Bool) (c : Nat), part (u.setLatch l c) = part u

/-- The state of tenants' memory: accesses in flight, the fill, waking banks, the scrub. -/
theorem memctl_apart : Apart State.memctl := by
  constructor <;> intros <;> rfl

section
variable {β : Type} {part : State → β}

theorem part_each {α : Type} {l : List α} {f : State → α → State} (s : State) (h : ∀ u a, part (f u a) = part u) : part (s.each l f) = part s :=
  State.each_keeps (P := fun u => part u = part s) rfl fun u a hu => (h u a).trans hu

theorem part_ite {c : Prop} [Decidable c] {a b : State} {x : β} (ha : part a = x) (hb : part b = x) : part (if c then a else b) = x := by
  split
  · exact ha
  · exact hb

variable (k : Apart part)
include k

theorem Apart.courDeliver (s : State) (n : Nat) : part (s.courDeliver n) = part s := by
  have debugged : part (s.each (s.lanesIn lDebug) fun u l =>
      u.updP l (pairIx (s.route n).1) fun q => { q with pend := setBit q.pend n, prio := SMap.put q.prio n 0 (s.route n).2.2 }) = part s :=
    part_each s fun u l => k.pair u l _ _
  exact part_ite rfl (part_ite ((k.set _ _ _).trans ((k.set _ _ _).trans debugged)) ((k.courier _ _ _).trans debugged))

theorem Apart.courEvent (s : State) (n : Nat) : part (s.courEvent n) = part s :=
  part_ite ((Apart.courDeliver k _ _).trans (Apart.courDeliver k _ _)) (Apart.courDeliver k _ _)

theorem Apart.raiseInt (s : State) (page bit : Nat) : part (s.raiseInt page bit) = part s :=
  part_ite ((Apart.courEvent k _ _).trans (k.set _ _ _)) (k.set _ _ _)

theorem Apart.recordKeeps (x : β) : RecordKeeps fun u => part u = x where
  set _ _ _ _ h := (k.set _ _ _).trans h
  updLg _ _ h := (k.ledger _ _).trans h
  hubWrite _ _ _ h := (k.hub _ _ _).trans h
  deliver _ _ h := (Apart.courDeliver k _ _).trans h

theorem Apart.record (s : State) {code sev : Nat} {ws : List Nat} (h : sev < 8) : part (s.record code sev ws) = part s :=
  RecordKeeps.recordX (Apart.recordKeeps k (part s)) h rfl

/-! ## The passive state (01 R38) -/

theorem Apart.acceptWrite (s : State) (d : Desc) (i w : Nat) (vt : Option Nat) (n : Nat) (b : List Byte) : part (s.acceptWrite d i w vt n b) = part s := by
  let merged := if bitOf (s.hdr d) 3 = true then s.count DIMG_MERGED_0 else s
  have marked (v : Nat) : part (merged.setHdr d v) = part s := (k.hub _ _ _).trans (part_ite (k.set _ _ _) rfl)
  have written (v o : Nat) (x : List Byte) : part ((merged.setHdr d v).hubWrite o x) = part s := (k.hub _ _ _).trans (marked v)
  exact part_ite ((k.image _ _).trans (written _ _ _)) (part_ite ((k.image _ _).trans (written _ _ _)) (written _ _ _))

theorem Apart.judgeWrite (s : State) (d : Desc) (i w : Nat) (vt : Option Nat) (n : Nat) (b : List Byte) : part (s.judgeWrite d i w vt n b).1 = part s := by
  unfold State.judgeWrite
  split
  · exact (Apart.raiseInt k _ _ _).trans ((k.hub _ _ _).trans ((k.set _ _ _).trans (k.set _ _ _)))
  · split
    · rfl
    · split
      · exact Apart.acceptWrite k s d i w vt n b
      · exact (Apart.record k _ (by decide)).trans ((Apart.raiseInt k _ _ _).trans ((k.hub _ _ _).trans
          ((k.set _ _ _).trans ((k.set _ _ _).trans (k.set _ _ _)))))

theorem Apart.imgWriteRaw (s : State) (i v w : Nat) (vt : Option Nat) (b : List Byte) : part (s.imgWriteRaw i v w vt b).1 = part s := by
  unfold State.imgWriteRaw
  split
  · split
    · rfl
    · exact Apart.judgeWrite k _ _ _ _ _ _ _
  · rfl

theorem Apart.stageFallback (s : State) (v : Nat) : part (s.stageFallback v) = part s := by
  unfold State.stageFallback
  split
  · exact part_ite ((k.image _ _).trans (Apart.imgWriteRaw k _ _ _ _ _ _)) (Apart.imgWriteRaw k _ _ _ _ _ _)
  · rfl

theorem Apart.smOff (s : State) : part s.smOff = part s :=
  (k.set _ _ _).trans (part_each s fun _ _ => (Apart.stageFallback k _ _).trans (k.set _ _ _))

theorem Apart.mirPassive (s : State) : part s.mirPassive = part s := part_ite ((k.set _ _ _).trans (k.set _ _ _)) rfl

theorem Apart.porterShut (s : State) : part s.porterShut = part s := by
  unfold State.porterShut
  exact (k.consist _ _).trans (k.set _ _ _)

theorem Apart.canPassive (s : State) : part s.canPassive = part s := by
  refine (k.cans _ _).trans ((part_each _ fun u e => ?_).trans (part_each _ fun u c => part_ite (k.set _ _ _) rfl))
  split
  · exact k.set _ _ _
  · rfl

theorem Apart.dlSend (s : State) (i b0 b2 b3 w : Nat) (ask : Bool) : part (s.dlSend i b0 b2 b3 w ask) = part s := (k.wire _ _ _).trans (k.island _ _ _)

theorem Apart.fioPassive (s : State) : part s.fioPassive = part s :=
  part_each s fun _ _ => part_ite (part_ite ((k.wire _ _ _).trans ((k.island _ _ _).trans (Apart.dlSend k _ _ _ _ _ _ _))) (Apart.dlSend k _ _ _ _ _ _ _)) rfl

theorem Apart.soOpen (s : State) : part s.soOpen = part s := (k.outputs _ _).trans (k.set _ _ _)

theorem Apart.sysfailOut (s : State) : part s.sysfailOut = part s :=
  part_ite rfl (part_ite (k.set _ _ _) ((Apart.courEvent k _ _).trans ((k.set _ _ _).trans (k.set _ _ _))))

theorem Apart.brPassive (s : State) : part s.brPassive = part s := by
  have lost (f : BridgeS → BridgeS) (n : Nat) : part (((s.updBr f).set BRIDGE_state 3).addSat BR_DISCARD_0 n) = part s :=
    (k.set _ _ _).trans ((k.set _ _ _).trans (k.bridge _ _))
  unfold State.brPassive
  refine part_ite rfl ?_
  unfold State.brShow
  exact (k.set _ _ _).trans ((k.set _ _ _).trans ((k.set _ _ _).trans ((Apart.sysfailOut k _).trans
    (part_ite ((Apart.record k _ (by decide)).trans (lost _ _)) (lost _ _)))))

theorem Apart.setMode (s : State) (m : Nat) : part (s.setMode m) = part s :=
  part_ite rfl ((Apart.raiseInt k _ _ _).trans ((k.set _ _ _).trans (k.set _ _ _)))

/-- Entering the passive state. -/
theorem Apart.setPassive (s : State) (c : Nat) : part (s.setPassive c) = part s := by
  refine part_ite rfl ?_
  calc part ((s.setLatch (Tri.all true) c).smOff.mirPassive.porterShut.canPassive.fioPassive.soOpen.brPassive.setMode 0)
    _ = part (s.setLatch (Tri.all true) c).smOff.mirPassive.porterShut.canPassive.fioPassive.soOpen := (Apart.setMode k _ _).trans (Apart.brPassive k _)
    _ = part (s.setLatch (Tri.all true) c).smOff.mirPassive.porterShut.canPassive := (Apart.soOpen k _).trans (Apart.fioPassive k _)
    _ = part (s.setLatch (Tri.all true) c).smOff.mirPassive := (Apart.canPassive k _).trans (Apart.porterShut k _)
    _ = part (s.setLatch (Tri.all true) c) := (Apart.mirPassive k _).trans (Apart.smOff k _)
    _ = part s := k.latch _ _ _

end

end Sys2Proof.Machine
end

section
/-! HubSramBanksAndFill: the banks of hub SRAM, the fill engine and the scrub (07 R198 to R200, 01 R37). -/

namespace Sys2Proof.Machine

variable {s t u : State}

/-! ## Folds of which one step moves what is observed -/

/-- Of a fold over distinct elements, one alone moves what is observed: its step takes place on what was there before, and what it leaves stays. -/
theorem State.each_once {α β : Type} {l : List α} {f : State → α → State} {a : α} (see : State → β) (hn : l.Nodup) (ha : a ∈ l)
    (apart : ∀ u, ∀ b ∈ l, b ≠ a → see (f u b) = see u) : ∃ u, see u = see s ∧ see (s.each l f) = see (f u a) := by
  have still (r : List α) (hr : ∀ b ∈ r, b ∈ l ∧ b ≠ a) (v : State) : see (v.each r f) = see v := by
    unfold State.each
    induction r generalizing v with
    | nil => rfl
    | cons b r ih =>
      obtain ⟨bl, ba⟩ := hr b List.mem_cons_self
      exact (ih (fun c hc => hr c (List.mem_cons_of_mem _ hc)) (f v b)).trans (apart v b bl ba)
  obtain ⟨before, after, rfl⟩ := List.append_of_mem ha
  obtain ⟨-, hn, hd⟩ := List.nodup_append.1 hn
  refine ⟨s.each before f, still before (fun b hb => ⟨by simp [hb], fun e => hd b hb a (by simp) e⟩) s, ?_⟩
  have hs : s.each (before ++ a :: after) f = (f (s.each before f) a).each after f := by
    simp only [State.each, List.foldl_append, List.foldl_cons]
  rw [hs]
  exact still after (fun b hb => ⟨by simp [hb], fun e => (List.nodup_cons.1 hn).1 (e ▸ hb)⟩) _

/-! ## Banks (R199) -/

theorem State.bank_congr (h : t.get MEMCTL_BANKSTAT_0 = s.get MEMCTL_BANKSTAT_0) (b : Nat) : t.bank b = s.bank b :=
  congrArg (fun v => bitsOf v (2 * b) 2) h

theorem bitsOf_mod_two_pow {v a n w : Nat} (h : a + n ≤ w) : bitsOf (v % 2 ^ w) a n = bitsOf v a n := by
  unfold bitsOf
  rw [← Nat.mod_mul_right_div_self, ← Nat.mod_mul_right_div_self, ← Nat.pow_add, Nat.mod_mod_of_dvd _ (Nat.pow_dvd_pow 2 h)]

/-- The two bits of one bank are written, and of no other. -/
theorem State.bank_setBank (s : State) {b c v : Nat} (hc : c < 16) (hv : v < 4) : (s.setBank b v).bank c = if c = b then v else s.bank c := by
  unfold State.bank State.setBank
  rw [State.get_set_same, bitsOf_mod_two_pow (show 2 * c + 2 ≤ MEMCTL_BANKSTAT_0.w by show _ ≤ 32; omega)]
  split
  · rename_i same
    rw [same, bitsOf_putBits_same]
    exact Nat.mod_eq_of_lt hv
  · rcases Nat.lt_or_ge c b with below | above
    · exact bitsOf_putBits_low (by omega)
    · exact bitsOf_putBits_high (by omega)

/-! ## A range filled with a pattern -/

theorem SMap.find?_append {α : Type} (m n : SMap α) (k : Nat) : SMap.find? (m ++ n) k = (SMap.find? m k).or (SMap.find? n k) := by
  induction m with
  | nil => rfl
  | cons e m ih =>
    rw [List.cons_append, SMap.find?, SMap.find?, ih]
    split <;> rfl

/-- The bytes other than 0 that a function gives the n places from an offset on, as a list. -/
theorem find?_listed (f : Nat → Byte) (off : Nat) {i n : Nat} (h : i < n) :
    (SMap.find? ((List.range n).filterMap fun i => if f i = 0 then none else some (off + i, f i)) (off + i)).getD 0 = f i := by
  induction n with
  | zero => omega
  | succ n ih =>
    have listed (zero : f n ≠ 0) : ([n].filterMap fun i => if f i = 0 then none else some (off + i, f i)) = [(off + n, f n)] :=
      List.filterMap_cons_some (if_neg zero)
    rw [List.range_succ, List.filterMap_append, SMap.find?_append]
    by_cases last : i = n
    · subst last
      rw [SMap.find?_none fun e he => Nat.ne_of_lt ((Memory.wf_pattern f off i).2 e he).2, Option.none_or]
      by_cases zero : f i = 0
      · simp [zero, SMap.find?]
      · rw [listed zero]
        simp [SMap.find?]
    · have other : SMap.find? ([n].filterMap fun i => if f i = 0 then none else some (off + i, f i)) (off + i) = none := by
        by_cases zero : f n = 0
        · simp [zero, SMap.find?]
        · rw [listed zero]
          simp [SMap.find?, Ne.symm last]
      rw [other, Option.or_none]
      exact ih (by omega)

/-- The byte of a 64-bit pattern at an address. -/
def fillByte (pat x : Nat) : Byte := BitVec.ofNat 8 (pat / 2 ^ (8 * (x % 8)))

/-- The bytes other than 0 of a range that holds a pattern. -/
def fillBytes (off n pat : Nat) : SMap Byte :=
  if pat = 0 then [] else (List.range n).filterMap fun i => if fillByte pat (off + i) = 0 then none else some (off + i, fillByte pat (off + i))

theorem fillBytes_in {off n x : Nat} (pat : Nat) (h : off ≤ x ∧ x < off + n) : (SMap.find? (fillBytes off n pat) x).getD 0 = fillByte pat x := by
  obtain ⟨i, rfl⟩ := Nat.exists_eq_add_of_le h.1
  unfold fillBytes
  split
  · rename_i zero
    rw [zero, fillByte, Nat.zero_div]
    rfl
  · exact find?_listed (fun i => fillByte pat (off + i)) off (by omega)

theorem fillBytes_out {off n x : Nat} (pat : Nat) (h : x < off ∨ off + n ≤ x) : SMap.find? (fillBytes off n pat) x = none := by
  unfold fillBytes
  split
  · rfl
  · refine SMap.find?_none fun e he => ?_
    have := (Memory.wf_pattern (fun i => fillByte pat (off + i)) off n).2 e he
    omega

/-- A filled byte of hub SRAM reads its byte of the pattern, any other what it read before. -/
theorem State.get_hubFill (s : State) (off n pat x : Nat) :
    SMap.get (s.hubFill off n pat).hub x 0 = if off ≤ x ∧ x < off + n then fillByte pat x else SMap.get s.hub x 0 := by
  have hub : (s.hubFill off n pat).hub =
      (s.hub.filter fun e => decide (e.1 < off)) ++ fillBytes off n pat ++ s.hub.filter fun e => decide (off + n ≤ e.1) := rfl
  unfold SMap.get
  rw [hub, SMap.find?_append, SMap.find?_append, SMap.find?_filter _ (fun a => decide (a < off)), SMap.find?_filter _ (fun a => decide (off + n ≤ a))]
  by_cases inside : off ≤ x ∧ x < off + n
  · rw [if_pos inside, if_neg (by simpa using inside.1), if_neg (by simpa using inside.2), Option.none_or, Option.or_none]
    exact fillBytes_in pat inside
  · rw [if_neg inside, fillBytes_out pat (by omega), Option.or_none]
    by_cases low : x < off
    · simp [low, show ¬ off + n ≤ x by omega]
    · simp [low, show off + n ≤ x by omega]

/-! ## The fill engine (R200) -/

/-- A field of the memory control page keeps what it reads over an interrupt of that page. -/
theorem State.get_raiseMemctl {bit : Nat} {g : Fld} (h : g.pageOf = 0x0F) (raw : g.key ≠ (rawOf 0x0F).key) : (s.raiseInt 0x0F bit).get g = s.get g :=
  State.get_raiseInt_ne (by rw [h]; decide) raw

theorem State.fillStart_busy (busy : s.flag MEMCTL_fill_busy = true) : s.fillStart = s.fillRefuse 3 := if_pos busy

theorem State.fillStart_beyond (idle : s.flag MEMCTL_fill_busy = false) (beyond : 0x3F000 < s.get MEMCTL_FILL_BASE_0 + s.get MEMCTL_FILL_LEN_0) :
    s.fillStart = s.fillRefuse 1 :=
  (if_neg (by rw [idle]; decide)).trans (if_pos beyond)

/-- Some bank is not ready and is covered in part only by the fill that the registers give. -/
def State.fillCutsBank (s : State) : Bool := (List.range 16).any fun b => fillTouches (s.get MEMCTL_FILL_BASE_0) (s.get MEMCTL_FILL_LEN_0) b &&
  !fillCovers (s.get MEMCTL_FILL_BASE_0) (s.get MEMCTL_FILL_LEN_0) b && s.bank b != 2

theorem State.fillStart_cut (idle : s.flag MEMCTL_fill_busy = false) (inside : s.get MEMCTL_FILL_BASE_0 + s.get MEMCTL_FILL_LEN_0 ≤ 0x3F000)
    (cut : s.fillCutsBank = true) : s.fillStart = s.fillRefuse 2 :=
  (if_neg (by rw [idle]; decide)).trans ((if_neg (by omega)).trans (if_pos cut))

/-- A start that nothing refuses: the engine runs with the base, length and pattern that stand, and hub SRAM is as before. -/
theorem State.fillStart_spec (idle : s.flag MEMCTL_fill_busy = false) (inside : s.get MEMCTL_FILL_BASE_0 + s.get MEMCTL_FILL_LEN_0 ≤ 0x3F000)
    (whole : s.fillCutsBank = false) :
    s.fillStart.flag MEMCTL_fill_busy = true ∧ s.fillStart.get MEMCTL_FILL_STAT_0 = 1 ∧
    s.fillStart.memctl.fill = (s.get MEMCTL_FILL_BASE_0, s.get MEMCTL_FILL_LEN_0, s.get64 MEMCTL_FILL_PAT_LO_0 MEMCTL_FILL_PAT_HI_0) ∧
    s.fillStart.hub = s.hub ∧ ∀ g : Fld, g.pageOf ≠ 0x0F → s.fillStart.get g = s.get g := by
  let begun := (((s.set MEMCTL_fill_busy 1).set MEMCTL_FILL_STAT_0 1).set MEMCTL_FILL_STAT_4 0).set MEMCTL_FILL_POS_0 0
  have started : s.fillStart = begun.updMc fun m =>
      { m with fill := (s.get MEMCTL_FILL_BASE_0, s.get MEMCTL_FILL_LEN_0, begun.get64 MEMCTL_FILL_PAT_LO_0 MEMCTL_FILL_PAT_HI_0) } :=
    (if_neg (by rw [idle]; decide)).trans ((if_neg (by omega)).trans (if_neg (Bool.eq_false_iff.1 whole)))
  have kept : s.keepsBut begun [0x0F] := by
    iterate 4 refine State.keepsBut_set ?_ (by decide)
    exact State.keepsBut_refl
  have other {g : Fld} (h1 : g.key ≠ MEMCTL_fill_busy.key) (h2 : g.key ≠ MEMCTL_FILL_STAT_0.key) (h3 : g.key ≠ MEMCTL_FILL_STAT_4.key)
      (h4 : g.key ≠ MEMCTL_FILL_POS_0.key) : begun.get g = s.get g := by
    rw [State.get_set_ne _ h4, State.get_set_ne _ h3, State.get_set_ne _ h2, State.get_set_ne _ h1]
  rw [started]
  refine ⟨?_, ?_, ?_, rfl, fun g hg => kept.2 g (by simpa using hg)⟩
  · show (begun.get MEMCTL_fill_busy != 0) = true
    rw [State.get_set_ne _ (by decide), State.get_set_ne _ (by decide), State.get_set_ne _ (by decide), State.get_set_same]
    decide
  · show begun.get MEMCTL_FILL_STAT_0 = 1
    rw [State.get_set_ne _ (by decide), State.get_set_ne _ (by decide), State.get_set_same]
    decide
  · show (_, _, begun.get64 MEMCTL_FILL_PAT_LO_0 MEMCTL_FILL_PAT_HI_0) = _
    unfold State.get64
    rw [other (by decide) (by decide) (by decide) (by decide), other (by decide) (by decide) (by decide) (by decide)]

/-- The banks that a fill of lines covers become ready. -/
def State.banksFilled (s : State) (base len : Nat) : State := s.each (List.range 16) fun s b => if fillCovers base len b then s.setBank b 2 else s

theorem State.bank_banksFilled (s : State) (base len : Nat) {b : Nat} (hb : b < 16) :
    (s.banksFilled base len).bank b = if fillCovers base len b = true then 2 else s.bank b := by
  obtain ⟨u, before, after⟩ := State.each_once (s := s) (f := fun s b => if fillCovers base len b then s.setBank b 2 else s) (fun v => v.bank b)
    List.nodup_range (List.mem_range.2 hb) fun u c _ hc => by
      split
      · exact (u.bank_setBank hb (by decide)).trans (if_neg (Ne.symm hc))
      · rfl
  refine after.trans ?_
  split
  · exact (u.bank_setBank hb (by decide)).trans (if_pos rfl)
  · exact before

theorem State.hub_banksFilled (s : State) (base len : Nat) : (s.banksFilled base len).hub = s.hub :=
  (State.hub_each fun _ _ => by split <;> exact ⟨rfl, rfl⟩).1

/-- The end of a fill: its lines hold the pattern, the banks it covers are ready, and the engine is free. -/
theorem State.fillDone_spec (s : State) : s.fillDone.flag MEMCTL_fill_busy = false ∧ s.fillDone.get MEMCTL_FILL_STAT_0 = 2 ∧
    s.fillDone.hub = (s.hubFill (s.memctl.fill.1 * 64) (s.memctl.fill.2.1 * 64) s.memctl.fill.2.2).hub ∧
    ∀ b < 16, s.fillDone.bank b = if fillCovers s.memctl.fill.1 s.memctl.fill.2.1 b = true then 2 else s.bank b := by
  let filled := (s.hubFill (s.memctl.fill.1 * 64) (s.memctl.fill.2.1 * 64) s.memctl.fill.2.2).banksFilled s.memctl.fill.1 s.memctl.fill.2.1
  let ended := ((filled.set MEMCTL_fill_busy 0).set MEMCTL_FILL_STAT_0 2).set MEMCTL_FILL_POS_0 s.memctl.fill.2.1
  have done : s.fillDone = ended.raiseInt 0x0F 2 := rfl
  have hub : ended.hub = (s.hubFill (s.memctl.fill.1 * 64) (s.memctl.fill.2.1 * 64) s.memctl.fill.2.2).hub := State.hub_banksFilled _ _ _
  rw [done, (ended.raiseInt_hub 0x0F 2).1, hub]
  refine ⟨?_, ?_, rfl, fun b hb => ?_⟩
  · unfold State.flag
    rw [State.get_raiseMemctl (by decide) (by decide), State.get_set_ne _ (by decide), State.get_set_ne _ (by decide), State.get_set_same]
    decide
  · rw [State.get_raiseMemctl (by decide) (by decide), State.get_set_ne _ (by decide), State.get_set_same]
    decide
  · have shown : (ended.raiseInt 0x0F 2).get MEMCTL_BANKSTAT_0 = filled.get MEMCTL_BANKSTAT_0 := by
      rw [State.get_raiseMemctl (by decide) (by decide), State.get_set_ne _ (by decide), State.get_set_ne _ (by decide), State.get_set_ne _ (by decide)]
    exact (State.bank_congr shown b).trans (State.bank_banksFilled _ _ _ hb)

/-! ## Banks that return from retention (R199) -/

theorem exec_bankReady_waking {b : Fin 16} (h : s.memctl.waking.contains b.val = true) :
    exec (.bankReady b) s = .next ((s.updMc fun m => { m with waking := m.waking.filter (· ≠ b.val) }).setBank b.val 2) :=
  congrArg Host.Outcome.next (if_pos h)

theorem exec_bankReady_idle {b : Fin 16} (h : s.memctl.waking.contains b.val = false) : exec (.bankReady b) s = .next s :=
  congrArg Host.Outcome.next (if_neg (by rw [h]; decide))

/-! ## The scrub (01 R37) -/

/-- A word the scrub corrects: counted for its bank and the module, shown, and its interrupt. -/
def State.scrubWord (s : State) (o : Nat) : State :=
  (((s.count (MEMCTL_ECC_0 (o / 0x100000))).count MEMCTL_ecc_count).set MEMCTL_ECC_LAST_0 (o / 8 * 8)).raiseInt 0x0F 4

/-- A scrub pass but for what a stuck bit does. -/
def State.scrubTold (s : State) (l : List Nat) : State :=
  ((s.each l State.scrubWord).count MEMCTL_SCRUB_0).updMc fun m => { m with scrubbed := l.map fun o => o / 8 * 8 }

theorem State.latch_of_rest (h : t.rest = s.rest) : t.latch = s.latch := by
  simp only [State.rest, Prod.mk.injEq] at h
  tauto

theorem State.scrubWord_keeps (s : State) (o : Nat) : (s.scrubWord o).latch = s.latch ∧ (s.scrubWord o).hub = s.hub := by
  let shown := ((s.count (MEMCTL_ECC_0 (o / 0x100000))).count MEMCTL_ecc_count).set MEMCTL_ECC_LAST_0 (o / 8 * 8)
  have latch : (shown.raiseInt 0x0F 4).latch = shown.latch := State.latch_of_rest (shown.rest_raiseInt 0x0F 4)
  exact ⟨latch, (shown.raiseInt_hub 0x0F 4).1⟩

theorem State.scrubTold_spec (s : State) (l : List Nat) : (s.scrubTold l).passive = s.passive ∧ (s.scrubTold l).hub = s.hub ∧
    (s.scrubTold l).memctl.scrubbed = l.map fun o => o / 8 * 8 := by
  have latch : (s.each l State.scrubWord).latch = s.latch := part_each s fun u o => (u.scrubWord_keeps o).1
  have hub : (s.each l State.scrubWord).hub = s.hub := part_each s fun u o => (u.scrubWord_keeps o).2
  exact ⟨State.passive_congr latch, hub, rfl⟩

/-- A stuck bit: the module becomes passive with cause 3, and the words of the pass are kept. -/
theorem State.stuckBit_spec (h : s.passive = false) {code : Nat} {ws : List Nat} : let z := (s.setPassive 3).record code 7 ws
    z.passive = true ∧ z.aoCause = 3 ∧ z.memctl = s.memctl := by
  have told : (s.setPassive 3).quiet ((s.setPassive 3).record code 7 ws) := State.quiet_record State.quiet_refl (by decide)
  obtain ⟨latched, caused, -⟩ := s.setPassive_passive 3
  obtain ⟨-, cause, -⟩ := caused h
  obtain ⟨-, -, kept, -⟩ := State.quiet_rest told
  exact ⟨(State.quiet_passive told).trans latched, kept.trans cause,
    (Apart.record memctl_apart _ (by decide)).trans (Apart.setPassive memctl_apart s 3)⟩

section
variable {l : List Nat} (h : ∀ o ∈ l, o < 0x1000000 ∧ s.bank (o / 0x100000) = 2)
include h

/-- A pass over words of ready banks ends by the first of them that the pass before corrected. -/
theorem State.scrubPass_eq : s.scrubPass l = (l.find? fun o => s.memctl.scrubbed.contains (o / 8 * 8)).elim (s.scrubTold l)
    fun o => ((s.scrubTold l).setPassive 3).record 0x0F05 7 [o / 8 * 8] := by
  unfold State.scrubPass
  rw [List.filter_eq_self.2 fun o ho => by simpa using h o ho]
  dsimp only
  cases l.find? fun o => s.memctl.scrubbed.contains (o / 8 * 8) <;> rfl

theorem State.scrubPass_clean (fresh : ∀ o ∈ l, o / 8 * 8 ∉ s.memctl.scrubbed) : s.scrubPass l = s.scrubTold l := by
  rw [State.scrubPass_eq h, List.find?_eq_none.2 fun o ho => by simpa using fresh o ho, Option.elim_none]

theorem State.scrubPass_stuck (again : ∃ o ∈ l, o / 8 * 8 ∈ s.memctl.scrubbed) :
    ∃ o, s.scrubPass l = ((s.scrubTold l).setPassive 3).record 0x0F05 7 [o / 8 * 8] := by
  have found : (l.find? fun o => s.memctl.scrubbed.contains (o / 8 * 8)).isSome = true := by
    rw [List.find?_isSome]
    simpa using again
  obtain ⟨o, ho⟩ := Option.isSome_iff_exists.1 found
  exact ⟨o, by rw [State.scrubPass_eq h, ho, Option.elim_some]⟩

end

/-- Settles O24: a fill's start, refused or not, its end, a bank that returns from retention, and a pass of the scrub, each by the lemma above. That hub SRAM is
written at the end of the fill, and that an end without a fill and a bank that does not wait change nothing, are the model's choices (log entries 7 and 3). -/
theorem hubSramBanksAndFill : Obligations.HubSramBanksAndFill := by
  refine ⟨fun a s reached => ?start, fun s busy => ?done, fun s idle => congrArg Host.Outcome.next (if_neg (by rw [idle]; decide)),
    fun b s => ⟨fun waits => ?wakes, exec_bankReady_idle⟩, fun l s active ready => ?scrub⟩
  case start =>
    have begun : exec (.memctlFillStart a) s = .next s.fillStart := congrArg Host.Outcome.next (State.writeAt_of_reaches reached)
    exact ⟨fun busy => begun.trans (congrArg Host.Outcome.next (State.fillStart_busy busy)),
      fun idle beyond => begun.trans (congrArg Host.Outcome.next (State.fillStart_beyond idle beyond)),
      fun idle inside cut => begun.trans (congrArg Host.Outcome.next (State.fillStart_cut idle inside cut)),
      fun idle inside whole => ⟨_, begun, State.fillStart_spec idle inside whole⟩⟩
  case done =>
    obtain ⟨free, state, hub, banks⟩ := s.fillDone_spec
    refine ⟨_, congrArg Host.Outcome.next (if_pos busy), free, state, fun x => ?_, banks⟩
    rw [hub]
    exact s.get_hubFill _ _ _ x
  case wakes =>
    refine ⟨_, exec_bankReady_waking waits, (State.bank_setBank _ b.isLt (by decide)).trans (if_pos rfl),
      fun c hc other => (State.bank_setBank _ hc (by decide)).trans (if_neg other), ?_, rfl⟩
    show (s.memctl.waking.filter (· ≠ b.val)).contains b.val = false
    simp
  case scrub =>
    obtain ⟨passive, hub, words⟩ := s.scrubTold_spec l
    by_cases again : ∃ o ∈ l, o / 8 * 8 ∈ s.memctl.scrubbed
    · obtain ⟨o, stuck⟩ := State.scrubPass_stuck ready again
      obtain ⟨latched, cause, kept⟩ := State.stuckBit_spec (passive.trans active) (code := 0x0F05) (ws := [o / 8 * 8])
      refine ⟨_, congrArg Host.Outcome.next stuck, (congrArg MemS.scrubbed kept).trans words, fun _ => ⟨latched, cause⟩, fun fresh => ?_⟩
      obtain ⟨w, hw, old⟩ := again
      exact absurd old (fresh w hw)
    · have fresh : ∀ o ∈ l, o / 8 * 8 ∉ s.memctl.scrubbed := fun o ho old => again ⟨o, ho, old⟩
      exact ⟨_, congrArg Host.Outcome.next (State.scrubPass_clean ready fresh), words, fun stuck => absurd stuck again, fun _ => ⟨passive.trans active, hub⟩⟩

end Sys2Proof.Machine
end

section
/-! EpochsCreditsAndSoftwareSources: commits of tenants' pending sets, drained epochs, software sources and returned credits (07 R188 to R193, R205). -/

namespace Sys2Proof.Machine

variable {s t u : State}

/-! ## Copies of fields -/

/-- A field takes the value of another. -/
def State.copyField (s : State) (x : Fld × Fld) : State := s.set x.2 (s.get x.1)

/-- Copies leave every field that none of them writes. -/
theorem State.get_copies_ne {l : List (Fld × Fld)} {g : Fld} (h : ∀ x ∈ l, g.key ≠ x.2.key) : (s.each l State.copyField).get g = s.get g := by
  unfold State.each
  induction l generalizing s with
  | nil => rfl
  | cons y r ih => exact (ih fun x hx => h x (List.mem_cons_of_mem _ hx)).trans (State.get_set_ne s (h y List.mem_cons_self))

/-- Copies into fields of their own, none of them read by another copy, take what stood before all of them. -/
theorem State.get_copies {l : List (Fld × Fld)} {x : Fld × Fld} (apart : l.Pairwise fun x y => x.2.key ≠ y.2.key)
    (fresh : ∀ x ∈ l, ∀ y ∈ l, x.1.key ≠ y.2.key) (hx : x ∈ l) : (s.each l State.copyField).get x.2 = s.get x.1 % 2 ^ x.2.w := by
  induction l generalizing s with
  | nil => cases hx
  | cons y r ih =>
    obtain ⟨first, rest⟩ := List.pairwise_cons.1 apart
    show ((s.copyField y).each r State.copyField).get x.2 = _
    rcases List.mem_cons.1 hx with rfl | hr
    · rw [State.get_copies_ne first]
      exact State.get_set_same _ _ _
    · rw [ih rest (fun a ha b hb => fresh a (List.mem_cons_of_mem _ ha) b (List.mem_cons_of_mem _ hb)) hr]
      exact congrArg (· % 2 ^ x.2.w) (State.get_set_ne s (fresh x hx y List.mem_cons_self))

/-! ## A tenant's pending and active set (R191) -/

/-- Window w: pending and active fields. -/
def windowFields (t w : Nat) : List (Fld × Fld) :=
  [(TEN_WIN_BASE_0 t w, TEN_AWIN_BASE_0 t w), (TEN_WIN_LIMIT_0 t w, TEN_AWIN_LIMIT_0 t w), (TEN_WIN_CTL_0 t w, TEN_AWIN_CTL_0 t w),
   (TEN_WIN_CTL_1 t w, TEN_AWIN_CTL_1 t w), (TEN_WIN_CTL_2 t w, TEN_AWIN_CTL_2 t w), (TEN_WIN_CTL_4 t w, TEN_AWIN_CTL_4 t w)]

/-- Entry k of the queue list: pending and active fields. -/
def queueFields (t k : Nat) : List (Fld × Fld) :=
  [(TEN_QUEUE_0 t k, TEN_AQUEUE_0 t k), (TEN_QUEUE_12 t k, TEN_AQUEUE_12 t k), (TEN_QUEUE_13 t k, TEN_AQUEUE_13 t k)]

/-- Every pending field of a tenant with its active field, the active ones by rising place in the page. -/
def tenantFields (t : Nat) : List (Fld × Fld) :=
  (TEN_ctl_en t, TEN_active_en t) :: ((List.range 16).flatMap (windowFields t) ++ (List.range 32).flatMap (queueFields t))

/-- Key of a place of tenant t's page. -/
def tenantKey (t place : Nat) : Nat := (0x10 + t) * 131072 + place

theorem windowFields_keys {t w : Nat} {x : Fld × Fld} (h : x ∈ windowFields t w) :
    tenantKey t (8192 + 512 * w) ≤ x.1.key ∧ x.1.key < tenantKey t (8192 + 512 * (w + 1)) ∧
    tenantKey t (16384 + 512 * w) ≤ x.2.key ∧ x.2.key < tenantKey t (16384 + 512 * (w + 1)) := by
  unfold tenantKey
  simp only [windowFields, List.mem_cons, List.not_mem_nil, or_false] at h
  rcases h with rfl | rfl | rfl | rfl | rfl | rfl <;>
    simp only [Fld.key, TEN_WIN_BASE_0, TEN_AWIN_BASE_0, TEN_WIN_LIMIT_0, TEN_AWIN_LIMIT_0, TEN_WIN_CTL_0, TEN_AWIN_CTL_0, TEN_WIN_CTL_1, TEN_AWIN_CTL_1,
      TEN_WIN_CTL_2, TEN_AWIN_CTL_2, TEN_WIN_CTL_4, TEN_AWIN_CTL_4] <;> omega

theorem queueFields_keys {t k : Nat} {x : Fld × Fld} (h : x ∈ queueFields t k) :
    tenantKey t (24576 + 128 * k) ≤ x.1.key ∧ x.1.key < tenantKey t (24576 + 128 * (k + 1)) ∧
    tenantKey t (28672 + 128 * k) ≤ x.2.key ∧ x.2.key < tenantKey t (28672 + 128 * (k + 1)) := by
  unfold tenantKey
  simp only [queueFields, List.mem_cons, List.not_mem_nil, or_false] at h
  rcases h with rfl | rfl | rfl <;>
    simp only [Fld.key, TEN_QUEUE_0, TEN_AQUEUE_0, TEN_QUEUE_12, TEN_AQUEUE_12, TEN_QUEUE_13, TEN_AQUEUE_13] <;> omega

theorem enableFields_keys (t : Nat) : (TEN_ctl_en t).key = tenantKey t 384 ∧ (TEN_active_en t).key = tenantKey t 512 := by
  unfold tenantKey
  simp only [Fld.key, TEN_ctl_en, TEN_active_en]
  omega

theorem mem_tenantFields {t : Nat} {x : Fld × Fld} : x ∈ tenantFields t ↔
    x = (TEN_ctl_en t, TEN_active_en t) ∨ (∃ w < 16, x ∈ windowFields t w) ∨ ∃ k < 32, x ∈ queueFields t k := by
  simp only [tenantFields, List.mem_cons, List.mem_append, List.mem_flatMap, List.mem_range]

/-- Where pending and active fields of a tenant lie in its page. -/
theorem tenantFields_keys {t : Nat} {x : Fld × Fld} (h : x ∈ tenantFields t) :
    (x.1.key = tenantKey t 384 ∨ (tenantKey t 8192 ≤ x.1.key ∧ x.1.key < tenantKey t 16384) ∨ (tenantKey t 24576 ≤ x.1.key ∧ x.1.key < tenantKey t 28672)) ∧
    (x.2.key = tenantKey t 512 ∨ (tenantKey t 16384 ≤ x.2.key ∧ x.2.key < tenantKey t 24576) ∨ (tenantKey t 28672 ≤ x.2.key ∧ x.2.key < tenantKey t 32768)) := by
  rcases mem_tenantFields.1 h with rfl | ⟨w, hw, hx⟩ | ⟨k, hk, hx⟩
  · exact ⟨.inl (enableFields_keys t).1, .inl (enableFields_keys t).2⟩
  · have keys := windowFields_keys hx
    unfold tenantKey at keys ⊢
    omega
  · have keys := queueFields_keys hx
    unfold tenantKey at keys ⊢
    omega

/-- No pending field is an active one. -/
theorem tenantFields_fresh (t : Nat) : ∀ x ∈ tenantFields t, ∀ y ∈ tenantFields t, x.1.key ≠ y.2.key := fun x hx y hy => by
  have pending := (tenantFields_keys hx).1
  have active := (tenantFields_keys hy).2
  unfold tenantKey at pending active
  omega

/-- The active fields lie at rising places. -/
theorem tenantFields_rising (t : Nat) : (tenantFields t).Pairwise fun x y => x.2.key < y.2.key := by
  refine List.pairwise_cons.2 ⟨fun x hx => ?_, List.pairwise_append.2 ⟨?_, ?_, fun x hx y hy => ?_⟩⟩
  · have en := (enableFields_keys t).2
    show (TEN_active_en t).key < x.2.key
    rcases List.mem_append.1 hx with hx | hx
    · obtain ⟨w, -, hx⟩ := List.mem_flatMap.1 hx
      have keys := windowFields_keys hx
      unfold tenantKey at keys en
      omega
    · obtain ⟨k, -, hx⟩ := List.mem_flatMap.1 hx
      have keys := queueFields_keys hx
      unfold tenantKey at keys en
      omega
  · refine List.pairwise_flatMap.2 ⟨fun w _ => ?_, (List.pairwise_lt_range (n := 16)).imp fun {v w} below x hx y hy => ?_⟩
    · simp only [windowFields, Fld.key, TEN_AWIN_BASE_0, TEN_AWIN_LIMIT_0, TEN_AWIN_CTL_0, TEN_AWIN_CTL_1, TEN_AWIN_CTL_2, TEN_AWIN_CTL_4,
        List.pairwise_cons, List.mem_cons, List.not_mem_nil, or_false, forall_eq_or_imp, forall_eq]
      refine ⟨by omega, by omega, by omega, by omega, by omega, by simp, List.Pairwise.nil⟩
    · have first := windowFields_keys hx
      have second := windowFields_keys hy
      unfold tenantKey at first second
      omega
  · refine List.pairwise_flatMap.2 ⟨fun k _ => ?_, (List.pairwise_lt_range (n := 32)).imp fun {j k} below x hx y hy => ?_⟩
    · simp only [queueFields, Fld.key, TEN_AQUEUE_0, TEN_AQUEUE_12, TEN_AQUEUE_13,
        List.pairwise_cons, List.mem_cons, List.not_mem_nil, or_false, forall_eq_or_imp, forall_eq]
      refine ⟨by omega, by omega, by simp, List.Pairwise.nil⟩
    · have first := queueFields_keys hx
      have second := queueFields_keys hy
      unfold tenantKey at first second
      omega
  · obtain ⟨w, hw, hx⟩ := List.mem_flatMap.1 hx
    obtain ⟨k, -, hy⟩ := List.mem_flatMap.1 hy
    have window := windowFields_keys hx
    have queue := queueFields_keys hy
    have := List.mem_range.1 hw
    unfold tenantKey at window queue
    omega

/-- R191: the copies of one tenant, and its epoch where one of them changed something. -/
theorem State.commitTenant_eq (s : State) (t : Nat) : s.commitTenant t =
    if (s.each (tenantFields t) State.copyField).regs = s.regs then s.each (tenantFields t) State.copyField
    else (s.each (tenantFields t) State.copyField).set (TEN_EPOCH_0 t) ((s.each (tenantFields t) State.copyField).get MEMCTL_EPOCH_0) := by
  have copies : s.each (tenantFields t) State.copyField =
      ((s.copyField (TEN_ctl_en t, TEN_active_en t)).each (List.range 16) fun u w => u.each (windowFields t w) State.copyField).each (List.range 32)
        fun u k => u.each (queueFields t k) State.copyField := by
    simp only [State.each, tenantFields, List.foldl_cons, List.foldl_append, List.foldl_flatMap]
  rw [copies]
  rfl

theorem State.get_commitTenant_ne {t : Nat} {g : Fld} (copied : ∀ x ∈ tenantFields t, g.key ≠ x.2.key) (epoch : g.key ≠ (TEN_EPOCH_0 t).key) :
    (s.commitTenant t).get g = s.get g := by
  rw [State.commitTenant_eq]
  split
  · exact State.get_copies_ne copied
  · exact (State.get_set_ne _ epoch).trans (State.get_copies_ne copied)

theorem tenEpoch_key (t : Nat) : (TEN_EPOCH_0 t).key = tenantKey t 3456 := by
  unfold tenantKey
  simp only [Fld.key, TEN_EPOCH_0]
  omega

/-- Outside tenant t's page its commit changes nothing. -/
theorem State.get_commitTenant_page {t : Nat} {g : Fld} (h : g.key < tenantKey t 0 ∨ tenantKey t 131072 ≤ g.key) : (s.commitTenant t).get g = s.get g := by
  refine State.get_commitTenant_ne (fun x hx e => ?_) fun e => ?_
  · have active := (tenantFields_keys hx).2
    unfold tenantKey at h active
    omega
  · rw [e, tenEpoch_key] at h
    unfold tenantKey at h
    omega

theorem State.get_commitTenant {t : Nat} {x : Fld × Fld} (hx : x ∈ tenantFields t) : (s.commitTenant t).get x.2 = s.get x.1 % 2 ^ x.2.w := by
  have copied : (s.each (tenantFields t) State.copyField).get x.2 = s.get x.1 % 2 ^ x.2.w :=
    State.get_copies ((tenantFields_rising t).imp Nat.ne_of_lt) (tenantFields_fresh t) hx
  rw [State.commitTenant_eq]
  split
  · exact copied
  · refine (State.get_set_ne _ fun e => ?_).trans copied
    have active := (tenantFields_keys hx).2
    rw [e, tenEpoch_key] at active
    unfold tenantKey at active
    omega

/-- A commit of every tenant: each active field takes its pending one. -/
theorem State.get_commitTenants {t : Nat} {x : Fld × Fld} (ht : t < 32) (hx : x ∈ tenantFields t) :
    (s.each (List.range 32) State.commitTenant).get x.2 = s.get x.1 % 2 ^ x.2.w := by
  obtain ⟨u, before, after⟩ := State.each_once (s := s) (f := State.commitTenant) (fun v => (v.get x.1, v.get x.2)) List.nodup_range (List.mem_range.2 ht)
    fun v r _ other => by
      have keys := tenantFields_keys hx
      unfold tenantKey at keys
      have pending : (v.commitTenant r).get x.1 = v.get x.1 := State.get_commitTenant_page (by unfold tenantKey; omega)
      have active : (v.commitTenant r).get x.2 = v.get x.2 := State.get_commitTenant_page (by unfold tenantKey; omega)
      rw [pending, active]
  obtain ⟨pending, -⟩ := Prod.mk.inj before
  obtain ⟨-, active⟩ := Prod.mk.inj after
  rw [active, State.get_commitTenant hx, pending]

/-! ## The commit (R191, R192) -/

/-- What the firmware pool's credits and the older epochs in flight do not show stays. -/
theorem State.get_flightShow_firmware {g : Fld} (credits : g.key ≠ MEMCTL_FWCRED_0.key) (older : g.key ≠ MEMCTL_OLD_0.key) (open_ : g.key ≠ MEMCTL_OLD_14.key) :
    (s.flightShow 32).get g = s.get g :=
  (State.get_setB_ne open_).trans ((State.get_set_ne _ older).trans (State.get_set_ne _ credits))

/-- The conflict as the registers show it. -/
def State.conflictShown (s : State) (q t u : Nat) (c : Bool) : State :=
  ((((s.set MEMCTL_EPOCH_STAT_0 1).set MEMCTL_EPOCH_STAT_1 q).set MEMCTL_EPOCH_STAT_11 t).set MEMCTL_EPOCH_STAT_16 u).setB MEMCTL_EPOCH_STAT_21 c

theorem State.conflictShown_reads (s : State) (q t u : Nat) (c : Bool) : let z := s.conflictShown q t u c
    z.get MEMCTL_EPOCH_STAT_0 = 1 ∧ z.get MEMCTL_EPOCH_STAT_1 = q % 2 ^ MEMCTL_EPOCH_STAT_1.w ∧ z.get MEMCTL_EPOCH_STAT_11 = t % 32 ∧
    z.get MEMCTL_EPOCH_STAT_16 = u % 32 ∧ z.get MEMCTL_EPOCH_STAT_21 = b2n c ∧ z.get MEMCTL_EPOCH_0 = s.get MEMCTL_EPOCH_0 := by
  unfold State.conflictShown
  refine ⟨?_, ?_, ?_, ?_, State.get_setB _ _ _ (by decide), ?_⟩ <;> rw [State.get_setB_ne (by decide)]
  · rw [State.get_set_ne _ (by decide), State.get_set_ne _ (by decide), State.get_set_ne _ (by decide), State.get_set_same]
    decide
  · rw [State.get_set_ne _ (by decide), State.get_set_ne _ (by decide), State.get_set_same]
  · rw [State.get_set_ne _ (by decide), State.get_set_same]
    rfl
  · rw [State.get_set_same]
    rfl
  · rw [State.get_set_ne _ (by decide), State.get_set_ne _ (by decide), State.get_set_ne _ (by decide), State.get_set_ne _ (by decide)]

/-- A refused commit: queue, both tenants and the kind of conflict are shown, and nothing else of the page but INT_RAW changes. -/
theorem State.epochCommit_conflict {q t u : Nat} {c : Bool} (h : s.queueConflict = some (q, t, u, c)) : let z := s.epochCommit
    z.get MEMCTL_EPOCH_STAT_0 = 1 ∧ z.get MEMCTL_EPOCH_STAT_1 = q % 2 ^ MEMCTL_EPOCH_STAT_1.w ∧ z.get MEMCTL_EPOCH_STAT_11 = t % 32 ∧
    z.get MEMCTL_EPOCH_STAT_16 = u % 32 ∧ z.get MEMCTL_EPOCH_STAT_21 = b2n c ∧ z.get MEMCTL_EPOCH_0 = s.get MEMCTL_EPOCH_0 ∧
    s.keepsBut z [7, 0x0A, 0x0F] := by
  let shown := s.conflictShown q t u c
  have refused : s.epochCommit = (shown.raiseInt 0x0F 1).record 0x0F02 4 shown.epochWords := by
    unfold State.epochCommit
    rw [h]
    rfl
  have told {g : Fld} (page : g.pageOf = 0x0F) (raw : g.key ≠ (rawOf 0x0F).key) : s.epochCommit.get g = shown.get g := by
    rw [refused, State.get_record (by decide) (by rw [page]; decide) (by rw [page]; decide), State.get_raiseMemctl page raw]
  have kept : s.keepsBut shown [7, 0x0A, 0x0F] := by
    iterate 5 refine State.keepsBut_set ?_ (by decide)
    exact State.keepsBut_refl
  obtain ⟨status, queue, first, second, kind, epoch⟩ := s.conflictShown_reads q t u c
  exact ⟨(told (by decide) (by decide)).trans status, (told (by decide) (by decide)).trans queue, (told (by decide) (by decide)).trans first,
    (told (by decide) (by decide)).trans second, (told (by decide) (by decide)).trans kind, (told (by decide) (by decide)).trans epoch,
    refused ▸ State.keepsBut_record (State.keepsBut_raiseInt kept (by decide) (by decide)) (by decide) (by decide) (by decide)⟩

/-- The epoch counted up and no conflict shown: where the copies of a commit begin. -/
def State.epochBegun (s : State) : State := (s.set MEMCTL_EPOCH_0 (s.get MEMCTL_EPOCH_0 + 1)).set MEMCTL_EPOCH_STAT_0 0

/-- After the copies a commit changes only what shows flights, drained, and registers of the Ledger and the Courier. -/
theorem State.get_epochCommit (h : s.queueConflict = none) {g : Fld} (h7 : g.pageOf ≠ 7) (hA : g.pageOf ≠ 0x0A) (drained : g.key ≠ MEMCTL_EPOCH_16.key)
    (credits : g.key ≠ MEMCTL_FWCRED_0.key) (older : g.key ≠ MEMCTL_OLD_0.key) (open_ : g.key ≠ MEMCTL_OLD_14.key) :
    s.epochCommit.get g = (s.epochBegun.each (List.range 32) State.commitTenant).get g := by
  unfold State.epochCommit
  rw [h]
  exact (State.get_record (by decide) h7 hA).trans ((State.get_setB_ne drained).trans (State.get_flightShow_firmware credits older open_))

/-- A field of a tenant's page is none of the memory control page, the Ledger or the Courier. -/
theorem tenantPage_apart {t : Nat} {g : Fld} (ht : t < 32) (low : tenantKey t 0 ≤ g.key) (high : g.key < tenantKey t 131072) :
    g.pageOf ≠ 7 ∧ g.pageOf ≠ 0x0A ∧ ∀ f : Fld, f.key < tenantKey 0 0 → g.key ≠ f.key := by
  unfold Fld.pageOf
  unfold tenantKey at *
  refine ⟨by omega, by omega, fun f hf => by omega⟩

/-- A commit copies every pending field of every tenant. -/
theorem State.epochCommit_tenant (h : s.queueConflict = none) {t : Nat} {x : Fld × Fld} (ht : t < 32) (hx : x ∈ tenantFields t) :
    s.epochCommit.get x.2 = s.get x.1 % 2 ^ x.2.w := by
  obtain ⟨pending, active⟩ := tenantFields_keys hx
  obtain ⟨-, -, apart⟩ := tenantPage_apart (g := x.1) ht (by unfold tenantKey at *; omega) (by unfold tenantKey at *; omega)
  obtain ⟨h7, hA, free⟩ := tenantPage_apart (g := x.2) ht (by unfold tenantKey at *; omega) (by unfold tenantKey at *; omega)
  rw [State.get_epochCommit h h7 hA (free _ (by decide)) (free _ (by decide)) (free _ (by decide)) (free _ (by decide)), State.get_commitTenants ht hx]
  exact congrArg (· % 2 ^ x.2.w) ((State.get_set_ne _ (apart _ (by decide))).trans (State.get_set_ne _ (apart _ (by decide))))

/-- A commit counts the epoch up and shows no conflict. -/
theorem State.epochCommit_epoch (h : s.queueConflict = none) :
    s.epochCommit.get MEMCTL_EPOCH_0 = (s.get MEMCTL_EPOCH_0 + 1) % 2 ^ MEMCTL_EPOCH_0.w ∧ s.epochCommit.get MEMCTL_EPOCH_STAT_0 = 0 := by
  have copied {g : Fld} (low : g.key < tenantKey 0 0) : (s.epochBegun.each (List.range 32) State.commitTenant).get g = s.epochBegun.get g := by
    have kept (u : State) (t : Nat) : (u.commitTenant t).get g = u.get g :=
      State.get_commitTenant_page (.inl (Nat.lt_of_lt_of_le low (by unfold tenantKey; omega)))
    exact State.get_each kept
  constructor <;> rw [State.get_epochCommit h (by decide) (by decide) (by decide) (by decide) (by decide) (by decide), copied (by decide)]
  · exact (State.get_set_ne _ (by decide)).trans (State.get_set_same _ _ _)
  · exact State.get_set_same _ _ _

/-! ## Drained (R193) -/

theorem State.flightShow_drained (s : State) : (s.flightShow 32).get MEMCTL_EPOCH_16 = s.get MEMCTL_EPOCH_16 :=
  State.get_flightShow_firmware (by decide) (by decide) (by decide)

/-- With no access of an older epoch in flight none is shown. -/
theorem State.flightShow_older (h : ∀ f ∈ s.memctl.flight, f.epoch = s.get MEMCTL_EPOCH_0) : (s.flightShow 32).get MEMCTL_OLD_0 = 0 := by
  have shown : (s.set MEMCTL_FWCRED_0 (s.creditsHeld 32)).get MEMCTL_EPOCH_0 = s.get MEMCTL_EPOCH_0 := State.get_set_ne s (by decide)
  have older : s.memctl.flight.filter (fun f => decide (f.epoch ≠ (s.set MEMCTL_FWCRED_0 (s.creditsHeld 32)).get MEMCTL_EPOCH_0)) = [] := by
    rw [shown]
    exact List.filter_eq_nil_iff.2 fun f hf => by simp [h f hf]
  refine (State.get_setB_ne (by decide)).trans ((State.get_set_same _ _ _).trans ?_)
  exact congrArg (fun l : List Flight => l.length % 2 ^ MEMCTL_OLD_0.w) older

theorem exec_epochDrained_due (undrained : s.get MEMCTL_EPOCH_16 = 0) (h : ∀ f ∈ s.memctl.flight, f.epoch = s.get MEMCTL_EPOCH_0) :
    exec .epochDrained s = .next (((s.flightShow 32).set MEMCTL_EPOCH_16 1).raiseInt 0x0F 0) :=
  congrArg Host.Outcome.next (if_pos ⟨s.flightShow_drained.trans undrained, State.flightShow_older h⟩)

theorem exec_epochDrained_again (drained : s.get MEMCTL_EPOCH_16 ≠ 0) : exec .epochDrained s = .next (s.flightShow 32) :=
  congrArg Host.Outcome.next (if_neg fun ⟨now, _⟩ => drained (s.flightShow_drained.symm.trans now))

theorem State.keepsBut_flightShow_firmware {ps : List Nat} (h : s.keepsBut t ps) (hF : 0x0F ∈ ps) : s.keepsBut (t.flightShow 32) ps :=
  State.keepsBut_set (State.keepsBut_set (State.keepsBut_set h hF) hF) hF

/-! ## Software sources (R188, R205) -/

/-- An event leaves every register but COUR_DROP and the Courier's INT_RAW. -/
theorem State.get_courEvent_ne {n : Nat} {g : Fld} (drop : g.key ≠ COUR_DROP_0.key) (raw : g.key ≠ (rawOf 0x0A).key) : (s.courEvent n).get g = s.get g := by
  have delivered (v : State) (m : Nat) : (v.courDeliver m).get g = v.get g := by
    have debugged : (v.each (v.lanesIn lDebug) fun u l =>
        u.updP l (pairIx (v.route m).1) fun q => { q with pend := setBit q.pend m, prio := SMap.put q.prio m 0 (v.route m).2.2 }).get g = v.get g :=
      State.get_each fun _ _ => rfl
    unfold State.courDeliver
    dsimp only
    split
    · rfl
    · split
      · exact (State.get_set_ne _ raw).trans ((State.get_count_ne drop).trans debugged)
      · exact debugged
  unfold State.courEvent
  dsimp only
  split
  · exact (delivered _ _).trans (delivered _ _)
  · exact delivered _ _

/-- COUR_ROUTE of a source lies above what an event changes. -/
theorem State.route_courEvent (s : State) (n m : Nat) : (s.courEvent n).route m = s.route m := by
  have above (k w : Nat) : (s.courEvent n).get ⟨0x0A, 0x400 + 4 * (m / 4), k, w, 0, 0⟩ = s.get ⟨0x0A, 0x400 + 4 * (m / 4), k, w, 0, 0⟩ := by
    have drop : COUR_DROP_0.key = 0x0A * 131072 + 6144 := rfl
    have raw : (rawOf 0x0A).key = 0x0A * 131072 + 1024 := rfl
    refine State.get_courEvent_ne ?_ ?_ <;> (simp only [Fld.key] at *; omega)
  unfold State.route State.flag
  simp only [above]

/-- A source that waits at a pair goes on waiting over another event. -/
theorem State.courEvent_keeps_waiting {n i : Nat} {p : Fin 4} (h : bitOf (s.cr p).waiting i = true) : bitOf ((s.courEvent n).cr p).waiting i = true := by
  unfold State.courEvent
  dsimp only
  split <;> simp [State.courDeliver_waiting, h]

/-- Bit k of a tenant's software register raises its source k, where that source's route is on and its pair runs. -/
theorem State.tenSoft_waiting {t v k : Nat} (hk : k < 2) (hv : bitOf v k = true) (on : (s.route (1216 + 2 * t + k)).2.1 = true)
    (runs : bitOf (s.get LM_PAIRSTOP_0) (pairIx (s.route (1216 + 2 * t + k)).1).val = false) :
    bitOf ((s.tenSoft t v).cr (pairIx (s.route (1216 + 2 * t + k)).1)).waiting (1216 + 2 * t + k) = true := by
  unfold State.tenSoft
  dsimp only
  obtain rfl | rfl : k = 0 ∨ k = 1 := by omega
  · rw [if_pos hv]
    have waits := State.courEvent_waiting on runs
    split
    · exact State.courEvent_keeps_waiting waits
    · exact waits
  · rw [if_pos hv]
    have first : ((if bitOf v 0 = true then s.courEvent (1216 + 2 * t) else s).route (1216 + 2 * t + 1) = s.route (1216 + 2 * t + 1)) ∧
        (if bitOf v 0 = true then s.courEvent (1216 + 2 * t) else s).get LM_PAIRSTOP_0 = s.get LM_PAIRSTOP_0 := by
      split
      · exact ⟨s.route_courEvent _ _, State.get_courEvent (by decide)⟩
      · exact ⟨rfl, rfl⟩
    obtain ⟨route, stopped⟩ := first
    rw [← route] at on runs ⊢
    rw [← stopped] at runs
    rw [show 1217 + 2 * t = 1216 + 2 * t + 1 by omega]
    exact State.courEvent_waiting on runs

theorem State.tenSoft_hub (s : State) (t v : Nat) : (s.tenSoft t v).hub = s.hub := by
  unfold State.tenSoft
  refine part_ite ((State.courEvent_hub _ _).1.trans ?_) ?_ <;> exact part_ite (State.courEvent_hub _ _).1 rfl

theorem State.tenSoft_none {t v : Nat} (h0 : bitOf v 0 = false) (h1 : bitOf v 1 = false) : s.tenSoft t v = s := by
  unfold State.tenSoft
  simp only [h0, h1, Bool.false_eq_true, if_false]

/-! ## Returned credits (R189) -/

/-- A fold whose steps change nothing. -/
theorem State.each_still {α : Type} {l : List α} {f : State → α → State} (h : ∀ a ∈ l, f s a = s) : s.each l f = s := by
  unfold State.each
  induction l with
  | nil => rfl
  | cons a r ih =>
    rw [List.foldl_cons, h a List.mem_cons_self]
    exact ih fun b hb => h b (List.mem_cons_of_mem _ hb)

/-- With no write unreleased and no read held, nothing goes on at a returned credit. -/
theorem State.nothing_waits (writes : ∀ e ∈ s.assay.writes, e.released.isSome = true) (reads : ∀ e ∈ s.assay.reads, e.held = false) :
    let z := s.each allPairs fun s p => s.releaseAll p
    (z.each (z.assay.reads.filter fun e => e.held) fun s e => s.captureTry e.pair e.seq) = s := by
  have released : s.each allPairs (fun s p => s.releaseAll p) = s := State.each_still fun p _ => State.releaseAll_none
    (List.filter_eq_nil_iff.2 fun e he => by simp [Option.isSome_iff_ne_none.1 (writes e he)])
  dsimp only
  rw [released, List.filter_eq_nil_iff.2 fun e he => by simp [reads e he]]
  rfl

theorem State.flightShow_assay (s : State) (o : Nat) : (s.flightShow o).assay = s.assay := part_ite (part := State.assay) rfl rfl

theorem exec_tenantCreditReturned_complete {t : Nat} (complete : (s.memctl.flight.any fun f => f.owner = t && f.done) = true)
    (writes : ∀ e ∈ s.assay.writes, e.released.isSome = true) (reads : ∀ e ∈ s.assay.reads, e.held = false) :
    exec (.tenantCreditReturned t) s =
      .next ((s.updMc fun m => { m with flight := dropFirst (fun f => f.owner = t && f.done) m.flight }).flightShow t) := by
  refine congrArg Host.Outcome.next ((if_pos complete).trans (State.nothing_waits ?_ ?_)) <;> rw [State.flightShow_assay]
  · exact writes
  · exact reads

/-- Settles O23: a commit that meets a conflict and one that does not, the drained epoch, the software register's bits and the oldest complete access of an owner,
each by the lemma above. That credits return oldest first, and that a return with nothing complete changes nothing, are the model's choices (log entries 36
and 3). -/
theorem epochsCreditsAndSoftwareSources : Obligations.EpochsCreditsAndSoftwareSources := by
  refine ⟨fun a s reached => ⟨fun q t u c conflict => ⟨_, congrArg Host.Outcome.next (State.writeAt_of_reaches reached), State.epochCommit_conflict conflict⟩,
      fun free => ⟨_, congrArg Host.Outcome.next (State.writeAt_of_reaches reached), ?free⟩⟩,
    fun s => ⟨fun undrained current => ⟨_, exec_epochDrained_due undrained current, ?drained⟩, exec_epochDrained_again⟩,
    fun a t v s opened => ⟨_, congrArg Host.Outcome.next (State.writeAt_of_opens opened), ?soft⟩,
    fun t s => ⟨fun none_complete => congrArg Host.Outcome.next (if_neg (by rw [none_complete]; decide)), exec_tenantCreditReturned_complete⟩⟩
  case free =>
    obtain ⟨epoch, status⟩ := State.epochCommit_epoch free
    refine ⟨epoch, status, fun t ht => ?_⟩
    have copied {a b : Fld} (hx : (a, b) ∈ tenantFields t) : s.epochCommit.get b = s.get a % 2 ^ b.w :=
      State.epochCommit_tenant (x := (a, b)) free ht hx
    have window {w : Nat} (hw : w < 16) {a b : Fld} (hx : (a, b) ∈ windowFields t w) := copied (mem_tenantFields.2 (.inr (.inl ⟨w, hw, hx⟩)))
    have queue {k : Nat} (hk : k < 32) {a b : Fld} (hx : (a, b) ∈ queueFields t k) := copied (mem_tenantFields.2 (.inr (.inr ⟨k, hk, hx⟩)))
    exact ⟨copied (mem_tenantFields.2 (.inl rfl)), fun w hw => ⟨window hw (.head _), window hw (.tail _ (.head _))⟩,
      fun k hk => ⟨queue hk (.head _), queue hk (.tail _ (.head _)), queue hk (.tail _ (.tail _ (.head _)))⟩⟩
  case drained =>
    refine ⟨?_, State.bitOf_raw_raiseInt (by decide) (by decide) (by decide), ?_,
      State.keepsBut_raiseInt (State.keepsBut_set (State.keepsBut_flightShow_firmware State.keepsBut_refl (by decide)) (by decide)) (by decide) (by decide)⟩
    · rw [State.get_raiseMemctl (by decide) (by decide), State.get_set_same]
      decide
    · rw [State.get_raiseMemctl (by decide) (by decide), State.get_set_ne _ (by decide)]
      exact State.flightShow_older current
  case soft =>
    obtain ⟨f, noted⟩ := State.noteAccess_eq s a
    rw [noted]
    exact ⟨State.tenSoft_hub _ _ _, State.tenSoft_none, fun k hk hv on runs => State.tenSoft_waiting hk hv on runs⟩

end Sys2Proof.Machine
end

section
/-! Queues: what is no part of them, where a ring's words and tag bytes lie, and what a word stored or an event leaves (08 R209, R210, R212, R220). -/

namespace Sys2Proof.Machine

variable {s t : State} {n : Nat}

/-! ## The queues and what is no part of them -/

theorem queues_apart : Apart State.queues := by
  constructor <;> intros <;> rfl

theorem State.q_congr (h : t.queues = s.queues) (n : Nat) : t.q n = s.q n := congrArg (fun m => SMap.get m n QS.init) h

@[simp] theorem State.q_updQ (s : State) (n : Nat) (f : QS → QS) : (s.updQ n f).q n = f (s.q n) := SMap.get_put_same _ _ _ _

theorem State.q_updQ_ne {m : Nat} {f : QS → QS} (h : m ≠ n) : (s.updQ n f).q m = s.q m := SMap.get_put_ne h

/-- R220 raises nothing but the source of the queue. -/
theorem State.qEvent_eq (s : State) (n old : Nat) (done : Bool) : s.qEvent n old done = s.courEvent n ∨ s.qEvent n old done = s := ite_eq_or_eq _ _ _

theorem State.qEvent_keeps (s : State) (n old : Nat) (done : Bool) : (s.qEvent n old done).queues = s.queues ∧ (s.qEvent n old done).hub = s.hub ∧
    ∀ g : Fld, g.pageOf ≠ 0x0A → (s.qEvent n old done).get g = s.get g := by
  rcases s.qEvent_eq n old done with e | e <;> rw [e]
  · exact ⟨Apart.courEvent queues_apart _ _, (State.courEvent_hub _ _).1, fun g hg => State.get_courEvent hg⟩
  · exact ⟨rfl, rfl, fun _ _ => rfl⟩

theorem State.get_updQ (s : State) (n : Nat) (f : QS → QS) (g : Fld) : (s.updQ n f).get g = s.get g := rfl

theorem State.hub_updQ (s : State) (n : Nat) (f : QS → QS) : (s.updQ n f).hub = s.hub := rfl

theorem State.q_qShow (s : State) (n : Nat) : s.qShow.q n = s.q n := rfl

/-- QMGR_STAT's two counts are all that is shown. -/
theorem State.qShow_keeps (s : State) : s.qShow.rest = s.rest ∧ s.qShow.hub = s.hub ∧
    ∀ g : Fld, g.key ≠ QMGR_enabled.key → g.key ≠ QMGR_held.key → s.qShow.get g = s.get g :=
  ⟨rfl, rfl, fun _ he hh => (State.get_set_ne _ hh).trans (State.get_set_ne _ he)⟩

/-! ## Numbers in hub SRAM -/

theorem State.hubNat_hubSet (s : State) (o k v : Nat) : (s.hubSet o k v).hubNat o k = v % 256 ^ k := by
  have h := s.hubRead_hubWrite o (leBytes k v)
  rw [leBytes_length] at h
  unfold State.hubNat State.hubSet
  rw [h, leNat_leBytes]

theorem State.hubNat_hubSet_out {o k v a b : Nat} (h : a + b ≤ o ∨ o + k ≤ a) : (s.hubSet o k v).hubNat a b = s.hubNat a b :=
  congrArg leNat (State.hubRead_hubWrite_out (by rwa [leBytes_length]))

theorem State.get_hubSet_out {o k v x : Nat} (h : x < o ∨ o + k ≤ x) : SMap.get (s.hubSet o k v).hub x 0 = SMap.get s.hub x 0 :=
  get_writeBytes_out (by rwa [leBytes_length])

theorem State.hubNat_congr (h : t.hub = s.hub) (a b : Nat) : t.hubNat a b = s.hubNat a b := congrArg leNat (State.hubRead_congr h a b)

/-! ## The ring (R209, R210) -/

/-- The ring lies where the registers say. -/
theorem State.ring_congr (h : t.regs = s.regs) (n : Nat) : t.qWord n = s.qWord n ∧ t.qTag n = s.qTag n ∧ t.qW n = s.qW n := by
  have same (g : Fld) : t.get g = s.get g := congrArg (fun m => SMap.get m g.key g.rst) h
  unfold State.qWord State.qTag State.qW State.qBase State.qL
  simp only [same, and_self]

theorem State.qAt_lt (j : Nat) (h : 0 < s.qW n) : s.qAt n j < s.qW n := Nat.mod_lt _ h

/-- A queue's words lie before its tag bytes. -/
theorem State.qWord_lt_qTag {i : Nat} (j : Nat) (h : i < s.qW n) : s.qWord n i + 4 ≤ s.qTag n j := by
  unfold State.qW at h
  unfold State.qWord State.qTag
  omega

/-- The tag byte that goes with a word: its parity, poison, the mark of the last, the bytes that count. -/
def tagByte (w : Nat) (poison last : Bool) (valid : Nat) : Nat := b2n (oddOnes w) + 2 * b2n poison + 4 * b2n last + 8 * valid

section
variable {i w valid : Nat} {poison last : Bool}

theorem State.qStore_word (hi : i < s.qW n) : (s.qStore n i w poison last valid).hubNat (s.qWord n i) 4 = w % 2 ^ 32 := by
  refine (State.hubNat_hubSet_out (.inl (State.qWord_lt_qTag i hi))).trans ((State.hubNat_hubSet s _ 4 _).trans ?_)
  exact Nat.mod_mod _ _

/-- The other words of the ring stay. -/
theorem State.qStore_word_ne {j : Nat} (hj : j < s.qW n) (h : j ≠ i) :
    (s.qStore n i w poison last valid).hubNat (s.qWord n j) 4 = s.hubNat (s.qWord n j) 4 := by
  refine (State.hubNat_hubSet_out (.inl (State.qWord_lt_qTag i hj))).trans (State.hubNat_hubSet_out ?_)
  unfold State.qWord
  omega

theorem State.qStore_tag (s : State) (n i w : Nat) (poison last : Bool) (valid : Nat) :
    (s.qStore n i w poison last valid).hubNat (s.qTag n i) 1 = tagByte (w % 2 ^ 32) poison last valid % 256 := State.hubNat_hubSet _ _ 1 _

/-- Beside a word and its tag byte no byte of hub SRAM changes. -/
theorem State.qStore_out {x : Nat} (word : x < s.qWord n i ∨ s.qWord n i + 4 ≤ x) (tag : x ≠ s.qTag n i) :
    SMap.get (s.qStore n i w poison last valid).hub x 0 = SMap.get s.hub x 0 :=
  (State.get_hubSet_out (by omega)).trans (State.get_hubSet_out word)

end

/-- The mark of the last word leaves the words. -/
theorem State.qMarkLast_word (i valid : Nat) {j : Nat} (hj : j < s.qW n) :
    (s.qMarkLast n i valid).hubNat (s.qWord n j) 4 = s.hubNat (s.qWord n j) 4 := State.hubNat_hubSet_out (.inl (State.qWord_lt_qTag i hj))

end Sys2Proof.Machine
end

section
/-! QueuePushes: words appended in stream mode (08 R212). -/

namespace Sys2Proof.Machine

variable {s : State} {n w k tag : Nat} {poison : Bool}

/-- What a push keeps of the word written: QMGR_PUSH_LASTk its k lowest bytes. -/
def pushedWord (k w : Nat) : Nat := if k = 0 then w else w % 2 ^ (8 * k)

/-- A word appended to a stream queue, but for the event of R220. -/
def State.streamPushed (s : State) (n w k : Nat) (poison : Bool) : State :=
  (s.qStore n (s.qAt n (s.q n).occ) (pushedWord k w) poison (decide (k ≠ 0)) k).updQ n fun q => { q with occ := q.occ + 1, vis := q.vis + 1 }

theorem State.qFits_stream (pkt : s.qPkt n = false) : s.qFits n = decide ((s.q n).occ < s.qW n) := by
  unfold State.qFits State.qFree
  rw [pkt, if_neg Bool.false_ne_true, decide_eq_decide]
  omega

theorem State.qPushStream_word (packed : s.qPacked n = false) : s.qPushStream n w k poison = s.streamPushed n w k poison :=
  if_neg (by rw [packed]; exact Bool.false_ne_true)

theorem State.qDo_stream (pkt : s.qPkt n = false) (packed : s.qPacked n = false) : s.qDo n w k tag poison =
    (s.streamPushed n w k poison).qEvent n (s.qLevel n) (decide (s.qLevel n < (s.streamPushed n w k poison).qLevel n)) := by
  unfold State.qDo
  rw [pkt, if_neg Bool.false_ne_true, State.qPushStream_word packed]

theorem State.streamPushed_keeps (s : State) (n w k : Nat) (poison : Bool) : let t := s.streamPushed n w k poison
    t.q n = { s.q n with occ := (s.q n).occ + 1, vis := (s.q n).vis + 1 } ∧ (∀ m, m ≠ n → t.q m = s.q m) ∧
      t.hub = (s.qStore n (s.qAt n (s.q n).occ) (pushedWord k w) poison (decide (k ≠ 0)) k).hub ∧ ∀ g : Fld, t.get g = s.get g :=
  ⟨State.q_updQ (s.qStore n (s.qAt n (s.q n).occ) (pushedWord k w) poison (decide (k ≠ 0)) k) n _, fun _ hm => State.q_updQ_ne hm, rfl, fun _ => rfl⟩

/-- The word at the ring's end with its tag byte, one word more, and nothing else but the event of R220. -/
theorem State.qDo_stream_spec (pkt : s.qPkt n = false) (packed : s.qPacked n = false) (room : (s.q n).occ < s.qW n) :
    let z := s.qDo n w k tag poison
    let i := s.qAt n (s.q n).occ
    z.q n = { s.q n with occ := (s.q n).occ + 1, vis := (s.q n).vis + 1 } ∧ (∀ m, m ≠ n → z.q m = s.q m) ∧
      z.hubNat (s.qWord n i) 4 = pushedWord k w % 2 ^ 32 ∧ z.hubNat (s.qTag n i) 1 = tagByte (pushedWord k w % 2 ^ 32) poison (decide (k ≠ 0)) k % 256 ∧
      (∀ x, (x < s.qWord n i ∨ s.qWord n i + 4 ≤ x) → x ≠ s.qTag n i → SMap.get z.hub x 0 = SMap.get s.hub x 0) ∧
      ∀ g : Fld, g.pageOf ≠ 0x0A → z.get g = s.get g := by
  have inside : s.qAt n (s.q n).occ < s.qW n := State.qAt_lt _ (Nat.zero_lt_of_lt room)
  obtain ⟨own, others, stored, same⟩ := s.streamPushed_keeps n w k poison
  rw [State.qDo_stream pkt packed]
  obtain ⟨queues, hub, regs⟩ := State.qEvent_keeps (s.streamPushed n w k poison) n (s.qLevel n)
    (decide (s.qLevel n < (s.streamPushed n w k poison).qLevel n))
  have hub := hub.trans stored
  refine ⟨(State.q_congr queues n).trans own, fun m hm => (State.q_congr queues m).trans (others m hm),
    (State.hubNat_congr hub _ _).trans (State.qStore_word inside), (State.hubNat_congr hub _ _).trans (State.qStore_tag s _ _ _ _ _ _),
    fun x word tag => ?_, fun g hg => (regs g hg).trans (same g)⟩
  rw [hub]
  exact State.qStore_out word tag

/-- A word of at most four bytes is kept whole. -/
theorem pushedWord_last (j : Fin 4) (v : Nat) : pushedWord (j.val + 1) v % 2 ^ 32 = v % 2 ^ (8 * (j.val + 1)) := by
  unfold pushedWord
  rw [if_neg (Nat.succ_ne_zero _)]
  exact Nat.mod_eq_of_lt (Nat.lt_of_lt_of_le (Nat.mod_lt _ (Nat.two_pow_pos _)) (Nat.pow_le_pow_right (by decide) (by omega)))

/-- The tag byte of a sound word. -/
theorem tagByte_sound (h : k ≤ 4) : tagByte w false (decide (k ≠ 0)) k % 256 = b2n (oddOnes w) + (if k = 0 then 0 else 4 + 8 * k) := by
  have parity := b2n_lt_two (oddOnes w)
  have clean : b2n false = 0 := rfl
  have set : b2n true = 1 := rfl
  unfold tagByte
  by_cases plain : k = 0
  · rw [if_pos plain, decide_eq_false (not_not_intro plain)]
    omega
  · rw [if_neg plain, decide_eq_true plain]
    omega

end Sys2Proof.Machine
end

section
/-! QueuePushes: the packet that one write makes, and the writes of the ports (08 R211 to R214, R216). -/

namespace Sys2Proof.Machine

variable {s : State} {n w k tag : Nat} {poison : Bool}

/-! ## Packet mode (R212 to R214) -/

@[simp] theorem State.q_qStore (s : State) (n i w : Nat) (poison last : Bool) (valid m : Nat) : (s.qStore n i w poison last valid).q m = s.q m := rfl

@[simp] theorem State.q_qMarkLast (s : State) (n i valid m : Nat) : (s.qMarkLast n i valid).q m = s.q m := rfl

/-- A packet of one word stored with its room for the length word, not yet closed. -/
def State.packetWord (s : State) (n w k : Nat) : State :=
  ((s.updQ n fun q => { q with occ := q.occ + 1 }).qStore n (s.qAt n ((s.q n).occ + 1)) (w % 2 ^ (8 * k)) false false 0).updQ n fun q => { q with occ := q.occ + 1 }

/-- The progress of that packet. -/
def State.packetProg (s : State) (n k tag : Nat) : QProg :=
  { res := s.qAt n (s.q n).occ, bytes := k, words := 1, cut := false, poison := false, tag := tag, lastIx := s.qAt n ((s.q n).occ + 1) }

/-- Its length word. -/
theorem packetProg_length (s : State) (n k tag : Nat) : let p := s.packetProg n k tag
    p.bytes + b2n p.cut * 2 ^ 16 + b2n p.poison * 2 ^ 17 + p.tag * 2 ^ 24 = k + 2 ^ 24 * tag := by
  dsimp only [State.packetProg]
  rw [show b2n false = 0 from rfl]
  omega

theorem State.qPushPkt_first_last (fresh : (s.q n).prog = none) (hk : k ≠ 0) (fits : k ≤ s.qMax n) :
    s.qPushPkt n w k tag false = (s.packetWord n w k).qFinish n (s.packetProg n k tag) := by
  have kept : min k ((s.updQ n fun q => { q with occ := q.occ + 1 }).qMax n - 0) = k := Nat.min_eq_left fits
  have next : (s.updQ n fun q => { q with occ := q.occ + 1 }).qAt n ((s.updQ n fun q => { q with occ := q.occ + 1 }).q n).occ =
      s.qAt n ((s.q n).occ + 1) := by
    unfold State.qAt
    rw [State.q_updQ]
    rfl
  unfold State.qPushPkt
  simp only [fresh, if_neg hk, kept, next, Nat.lt_irrefl, decide_false, Bool.or_false, Nat.zero_add]
  rfl

theorem State.qFinish_whole {p : QProg} (packed : s.qPacked n = false) (whole : p.cut = false) : s.qFinish n p =
    ((s.qMarkLast n p.lastIx (p.bytes + 4 - (p.bytes + 3) / 4 * 4)).qStore n p.res
      (p.bytes + b2n p.cut * 2 ^ 16 + b2n p.poison * 2 ^ 17 + p.tag * 2 ^ 24) false false 0).updQ n
      fun q => { q with vis := q.occ, pkts := q.pkts ++ [(s.q n).occ - (s.q n).vis], prog := none } := by
  have stream (v : Nat) : ¬ (s.qMarkLast n p.lastIx v).qPacked n = true := fun h => Bool.false_ne_true (packed.symm.trans h)
  unfold State.qFinish
  dsimp only
  rw [if_neg (fun h => Bool.false_ne_true (whole.symm.trans h)), if_neg (stream _),
    if_neg (show ¬ s.qPacked n = true from stream 0), State.q_qStore, State.q_qMarkLast]

/-- Neighbours in a ring of two words or more are apart. -/
theorem State.qAt_succ_ne (s : State) (j : Nat) (h : 2 ≤ s.qW n) : s.qAt n (j + 1) ≠ s.qAt n j := fun e => by
  have wraps : 1 ≡ 0 [MOD s.qW n] := Nat.ModEq.add_left_cancel' ((s.q n).head + j) e
  have one : 1 % s.qW n = 1 := Nat.mod_eq_of_lt h
  have zero : 0 % s.qW n = 0 := Nat.zero_mod _
  unfold Nat.ModEq at wraps
  omega

theorem State.packetWord_q (s : State) (n w k : Nat) : (s.packetWord n w k).q n = { s.q n with occ := (s.q n).occ + 2 } := by
  unfold State.packetWord
  rw [State.q_updQ, State.q_qStore, State.q_updQ]

theorem State.packetWord_hub (s : State) (n w k : Nat) : (s.packetWord n w k).hub =
    ((s.updQ n fun q => { q with occ := q.occ + 1 }).qStore n (s.qAt n ((s.q n).occ + 1)) (w % 2 ^ (8 * k)) false false 0).hub := rfl

theorem State.regs_qMarkLast (s : State) (n i valid : Nat) : (s.qMarkLast n i valid).regs = s.regs := rfl

theorem State.regs_updQ (s : State) (n : Nat) (f : QS → QS) : (s.updQ n f).regs = s.regs := rfl

theorem State.regs_packetWord (s : State) (n w k : Nat) : (s.packetWord n w k).regs = s.regs := rfl

section
variable (packed : s.qPacked n = false) (fresh : (s.q n).prog = none) (hk : k ≠ 0) (fits : k ≤ s.qMax n)
include packed fresh hk fits

/-- A packet that one write of QMGR_PUSH_LASTk makes: its word, the mark of the last, then its length word. -/
theorem State.qPushPkt_hub : (s.qPushPkt n w k tag false).hub =
    (((s.packetWord n w k).qMarkLast n (s.qAt n ((s.q n).occ + 1)) (k + 4 - (k + 3) / 4 * 4)).qStore n (s.qAt n (s.q n).occ)
      (k + 2 ^ 24 * tag) false false 0).hub := by
  rw [State.qPushPkt_first_last fresh hk fits, State.qFinish_whole (s := s.packetWord n w k) packed rfl, packetProg_length]
  rfl

theorem State.qPushPkt_q : (s.qPushPkt n w k tag false).q n =
    { s.q n with occ := (s.q n).occ + 2, vis := (s.q n).occ + 2, pkts := (s.q n).pkts ++ [(s.q n).occ + 2 - (s.q n).vis] } := by
  rw [State.qPushPkt_first_last fresh hk fits, State.qFinish_whole (s := s.packetWord n w k) packed rfl]
  rw [State.q_updQ, State.q_qStore, State.q_qMarkLast, s.packetWord_q n w k]
  dsimp only
  rw [fresh]

theorem State.qPushPkt_length (room : 2 ≤ s.qFree n) :
    (s.qPushPkt n w k tag false).hubNat (s.qWord n (s.qAt n (s.q n).occ)) 4 = (k + 2 ^ 24 * tag) % 2 ^ 32 := by
  have wide : 0 < s.qW n := by unfold State.qFree at room; omega
  obtain ⟨word, -, width⟩ := State.ring_congr ((State.regs_qMarkLast _ n (s.qAt n ((s.q n).occ + 1)) (k + 4 - (k + 3) / 4 * 4)).trans (s.regs_packetWord n w k)) n
  rw [State.hubNat_congr (State.qPushPkt_hub packed fresh hk fits), ← word]
  exact State.qStore_word (by rw [width]; exact State.qAt_lt _ wide)

theorem State.qPushPkt_word (room : 2 ≤ s.qFree n) :
    (s.qPushPkt n w k tag false).hubNat (s.qWord n (s.qAt n ((s.q n).occ + 1))) 4 = w % 2 ^ (8 * k) % 2 ^ 32 := by
  have wide : 2 ≤ s.qW n := by unfold State.qFree at room; omega
  have inside : s.qAt n ((s.q n).occ + 1) < s.qW n := State.qAt_lt _ (by omega)
  obtain ⟨marked, -, width⟩ := State.ring_congr (State.regs_qMarkLast (s.packetWord n w k) n (s.qAt n ((s.q n).occ + 1)) (k + 4 - (k + 3) / 4 * 4)) n
  obtain ⟨stored, -, width'⟩ := State.ring_congr (s.regs_packetWord n w k) n
  obtain ⟨first, -, width''⟩ := State.ring_congr (s.regs_updQ n fun q => { q with occ := q.occ + 1 }) n
  rw [State.hubNat_congr (State.qPushPkt_hub packed fresh hk fits), ← stored, ← marked,
    State.qStore_word_ne (by rw [width, width']; exact inside) (s.qAt_succ_ne (s.q n).occ wide), marked,
    State.qMarkLast_word _ _ (by rw [width']; exact inside), stored, State.hubNat_congr (s.packetWord_hub n w k), ← first]
  exact State.qStore_word (by rw [width'']; exact inside)

end

theorem State.qDo_packet (pkt : s.qPkt n = true) : s.qDo n w k tag poison =
    (s.qPushPkt n w k tag poison).qEvent n (s.qLevel n) (decide (s.qLevel n < (s.qPushPkt n w k tag poison).qLevel n)) := by
  unfold State.qDo
  rw [pkt, if_pos rfl]

/-! ## Writes of the ports, and writes that wait (R212, R216) -/

/-- A write of the runtime or the monitor to a push register, as it waits at a queue. -/
def State.pushWrite (s : State) (a : Acc) (off k v : Nat) : QHeld :=
  { src := some (a.pair, a.seq, ownerOf a), addr := regAddr 0x0E off, word := v, k := k, tag := s.get (QMGR_QSEL_16 (copyOf a)), poison := false }

theorem State.qGranted_firmware {a : Acc} (h : a.level ≠ 0) (n : Nat) (consume : Bool) : s.qGranted a n consume = true := by
  unfold State.qGranted
  rw [decide_eq_true h, Bool.true_or]

section
variable {a : Acc} {off v : Nat}

theorem State.qPortPush_disabled (firmware : a.level ≠ 0) (disabled : (s.q (s.qSel (copyOf a))).enabled = false) :
    s.qPortPush a off k v = s.storeFault a.pair a.seq (regAddr 0x0E off) := by
  unfold State.qPortPush
  simp only [State.qGranted_firmware firmware, disabled, Bool.not_true, Bool.not_false, Bool.false_eq_true, if_false, if_true]

theorem State.qPortPush_enabled (firmware : a.level ≠ 0) (on : (s.q (s.qSel (copyOf a))).enabled = true) :
    s.qPortPush a off k v = s.qPush (s.qSel (copyOf a)) (s.pushWrite a off k v) := by
  unfold State.qPortPush
  simp only [State.qGranted_firmware firmware, on, Bool.not_true, Bool.false_eq_true, if_false]
  rfl

end

theorem State.qPush_now {h : QHeld} (first : (s.q n).hold = []) (fits : s.qFits n = true) : s.qPush n h = s.qDo n h.word h.k h.tag h.poison :=
  if_pos (by rw [first, fits]; rfl)

/-- A write marked held or completed: queues, hub SRAM and registers stay, its Assay entry shows the mark. -/
theorem State.markDone_spec (s : State) (p : Fin 4) (seq : Nat) (b : Bool) : let z := s.markDone p seq b
    z.queues = s.queues ∧ z.hub = s.hub ∧ (∀ g : Fld, z.get g = s.get g) ∧ ∀ e ∈ z.assay.writes, e.pair = p → e.seq = seq → e.complete = b := by
  refine ⟨rfl, rfl, fun _ => rfl, fun e he hp hs => ?_⟩
  obtain ⟨x, -, rfl⟩ := List.mem_map.1 (show e ∈ s.assay.writes.map fun e => if e.pair = p ∧ e.seq = seq then { e with complete := b } else e from he)
  split at hp
  · rename_i own
    rw [if_pos own]
  · rename_i other
    rw [if_neg other] at hs
    exact absurd ⟨hp, hs⟩ other

/-- R216: a write that does not fit waits behind those before it. -/
theorem State.qPush_waits {a : Acc} {off v : Nat} (waits : (s.q n).hold ≠ [] ∨ s.qFits n = false) : s.qPush n (s.pushWrite a off k v) =
    (s.updQ n fun q => { q with hold := q.hold ++ [s.pushWrite a off k v] }).qShow.markDone a.pair a.seq false := by
  refine if_neg fun h => ?_
  rw [Bool.and_eq_true, List.isEmpty_iff] at h
  rcases waits with held | full
  · exact held h.1
  · exact Bool.false_ne_true (full.symm.trans h.2)

end Sys2Proof.Machine
end

section
/-! QueuePushes: the first write that waits, and the selection of a queue (08 R208, R211, R216). -/

namespace Sys2Proof.Machine

variable {s t : State} {n : Nat}

/-! ## The first write that waits (R216) -/

theorem State.mode_congr (h : t.regs = s.regs) (n : Nat) : t.qPkt n = s.qPkt n ∧ t.qPacked n = s.qPacked n := by
  have same (g : Fld) : t.flag g = s.flag g := congrArg (fun m => SMap.get m g.key g.rst != 0) h
  exact ⟨same _, same _⟩

theorem State.qHeldDone_none (empty : (s.q n).hold = []) : s.qHeldDone n = s := by
  unfold State.qHeldDone
  rw [empty]

section
variable {h : QHeld} {r : List QHeld} (held : (s.q n).hold = h :: r)
include held

theorem State.qHeldDone_stays (blocked : (s.q n).enabled = false ∨ s.qFits n = false) : s.qHeldDone n = s := by
  unfold State.qHeldDone
  rw [held]
  refine if_neg fun ready => ?_
  rw [Bool.and_eq_true] at ready
  rcases blocked with disabled | full
  · exact Bool.false_ne_true (disabled.symm.trans ready.1)
  · exact Bool.false_ne_true (full.symm.trans ready.2)

/-- The write is done as a push is, and then marked. -/
theorem State.qHeldDone_done (on : (s.q n).enabled = true) (fits : s.qFits n = true) :
    let t := ((s.updQ n fun q => { q with hold := r }).qDo n h.word h.k h.tag h.poison).qShow
    (s.qHeldDone n).queues = t.queues ∧
      ∀ p seq o, h.src = some (p, seq, o) → ∀ e ∈ (s.qHeldDone n).assay.writes, e.pair = p → e.seq = seq → e.complete = true := by
  unfold State.qHeldDone
  rw [held]
  dsimp only
  rw [on, fits, Bool.and_self, if_pos rfl]
  cases src : h.src with
  | none => exact ⟨rfl, fun _ _ _ none => nomatch none⟩
  | some x =>
    obtain ⟨p, seq, o⟩ := x
    obtain ⟨queues, -, -, complete⟩ := State.markDone_spec ((s.updQ n fun q => { q with hold := r }).qDo n h.word h.k h.tag h.poison).qShow p seq true
    refine ⟨queues, fun _ _ _ own => ?_⟩
    cases own
    exact complete

theorem State.qHeldDone_stream (on : (s.q n).enabled = true) (pkt : s.qPkt n = false) (packed : s.qPacked n = false) (room : (s.q n).occ < s.qW n) :
    (s.qHeldDone n).q n = { s.q n with hold := r, occ := (s.q n).occ + 1, vis := (s.q n).vis + 1 } := by
  have fits : s.qFits n = true := by rw [State.qFits_stream pkt, decide_eq_true room]
  have regs := s.regs_updQ n fun q => { q with hold := r }
  obtain ⟨pkt', packed'⟩ := State.mode_congr regs n
  have own : (s.updQ n fun q => { q with hold := r }).q n = { s.q n with hold := r } := State.q_updQ _ _ _
  have pushed := (State.qDo_stream_spec (s := s.updQ n fun q => { q with hold := r }) (w := h.word) (k := h.k) (tag := h.tag) (poison := h.poison)
    (pkt'.trans pkt) (packed'.trans packed) (by rw [own, (State.ring_congr regs n).2.2]; exact room)).1
  rw [own] at pushed
  exact (State.q_congr (State.qHeldDone_done held on fits).1 n).trans pushed

end

/-! ## QMGR_QSEL (R208, R211) -/

theorem portPage (c o l w r : Nat) (h : o * 32 + l < 131072) : (⟨0x0E, o, l, w, r, 1 + c⟩ : Fld).pageOf = 0x0E := by
  unfold Fld.pageOf Fld.key
  dsimp only
  omega

/-- Two places of one copy of the port's registers. -/
theorem portKey_ne {c o l w r o' l' w' r' : Nat} (h : o * 32 + l ≠ o' * 32 + l') :
    (⟨0x0E, o, l, w, r, 1 + c⟩ : Fld).key ≠ (⟨0x0E, o', l', w', r', 1 + c⟩ : Fld).key := by
  unfold Fld.key
  dsimp only
  omega

/-- A copy's place is no place of the page itself. -/
theorem portKey_ne_page {c o l w r o' l' w' r' : Nat} (h : o' * 32 + l' < 131072) :
    (⟨0x0E, o, l, w, r, 1 + c⟩ : Fld).key ≠ (⟨0x0E, o', l', w', r', 0⟩ : Fld).key := by
  unfold Fld.key
  dsimp only
  omega

theorem State.qselWrite_eq (s : State) (c v : Nat) : s.qselWrite c v = (((((((((s.set (QMGR_QSEL_0 c) v).set (QMGR_QSEL_16 c) (v / 2 ^ 16)).set
    (grpFld 0 c) 0).set (grpFld 1 c) 0).set (grpFld 2 c) 0).set (grpFld 3 c) 0).set (QMGR_LASTTAG_0 c) 0).set (QMGR_LASTTAG_5 c) 0).set
    (QMGR_LASTTAG_6 c) 0).set (QMGR_LASTTAG_7 c) 0 := rfl

theorem State.qselWrite_hub (s : State) (c v : Nat) : (s.qselWrite c v).hub = s.hub := by
  simp only [State.qselWrite_eq, State.set_fields]

theorem State.qselWrite_keeps (s : State) (c v : Nat) : s.keepsBut (s.qselWrite c v) [0x0E] := by
  have page {t : State} {o l w r v : Nat} (kept : s.keepsBut t [0x0E]) (h : o * 32 + l < 131072) :
      s.keepsBut (t.set ⟨0x0E, o, l, w, r, 1 + c⟩ v) [0x0E] := State.keepsBut_set kept (by rw [portPage c o l w r h]; decide)
  rw [State.qselWrite_eq]
  exact page (page (page (page (page (page (page (page (page (page State.keepsBut_refl
    (by decide)) (by decide)) (by decide)) (by decide)) (by decide)) (by decide)) (by decide)) (by decide)) (by decide)) (by decide)

theorem State.qselWrite_selects (s : State) (c v : Nat) : (s.qselWrite c v).get (QMGR_QSEL_0 c) = v % 2 ^ (QMGR_QSEL_0 c).w ∧
    (s.qselWrite c v).get (QMGR_QSEL_16 c) = v / 2 ^ 16 % 2 ^ (QMGR_QSEL_16 c).w := by
  rw [State.qselWrite_eq]
  constructor
  all_goals
    repeat refine (State.get_set_ne _ (portKey_ne (by decide))).trans ?_
    exact State.get_set_same _ _ _

/-- The copy's group latch and LASTTAG read 0. -/
theorem State.qselWrite_clears (s : State) (c v : Nat) {g : Fld}
    (h : g ∈ [grpFld 0 c, grpFld 1 c, grpFld 2 c, grpFld 3 c, QMGR_LASTTAG_0 c, QMGR_LASTTAG_5 c, QMGR_LASTTAG_6 c, QMGR_LASTTAG_7 c]) :
    (s.qselWrite c v).get g = 0 := by
  rw [State.qselWrite_eq]
  simp only [List.mem_cons, List.not_mem_nil, or_false] at h
  rcases h with rfl | rfl | rfl | rfl | rfl | rfl | rfl | rfl
  all_goals
    repeat refine (State.get_set_ne _ (portKey_ne (by decide))).trans ?_
    exact (State.get_set_same _ _ _).trans (Nat.zero_mod _)

end Sys2Proof.Machine
end

section
/-! QueuePushes: the commands (08 R211 to R214, R216). -/

namespace Sys2Proof.Machine

variable {s : State}

section
variable {cmd : Instr} {a : Acc} {off k v n : Nat} (does : exec cmd s = .next (s.qPortPush a off k v)) (firmware : a.level ≠ 0) (sel : s.qSel (copyOf a) = n)
include does firmware sel

theorem exec_push_disabled (disabled : (s.q n).enabled = false) : exec cmd s = .next (s.storeFault a.pair a.seq (0x4000E000 + off)) :=
  does.trans (congrArg Host.Outcome.next (State.qPortPush_disabled firmware (sel ▸ disabled)))

theorem exec_push_stores (hk : k ≤ 4) (on : (s.q n).enabled = true) (first : (s.q n).hold = []) (pkt : s.qPkt n = false) (packed : s.qPacked n = false)
    (room : (s.q n).occ < s.qW n) : let i := s.qAt n (s.q n).occ
    let w := pushedWord k v % 2 ^ 32
    ∃ z, exec cmd s = .next z ∧
      z.q n = { s.q n with occ := (s.q n).occ + 1, vis := (s.q n).vis + 1 } ∧ (∀ m, m ≠ n → z.q m = s.q m) ∧ z.hubNat (s.qWord n i) 4 = w ∧
      z.hubNat (s.qTag n i) 1 = b2n (oddOnes w) + (if k = 0 then 0 else 4 + 8 * k) ∧
      (∀ x, (x < s.qWord n i ∨ s.qWord n i + 4 ≤ x) → x ≠ s.qTag n i → SMap.get z.hub x 0 = SMap.get s.hub x 0) ∧
      ∀ g : Fld, g.pageOf ≠ 0x0A → z.get g = s.get g := by
  obtain ⟨own, others, word, tag, bytes, regs⟩ :=
    State.qDo_stream_spec (s := s) (w := v) (k := k) (tag := s.get (QMGR_QSEL_16 (copyOf a))) (poison := false) pkt packed room
  have pushed : s.qPortPush a off k v = s.qDo n v k (s.get (QMGR_QSEL_16 (copyOf a))) false := by
    rw [State.qPortPush_enabled firmware (sel ▸ on), sel]
    exact State.qPush_now first (by rw [State.qFits_stream pkt, decide_eq_true room])
  exact ⟨_, does.trans (congrArg Host.Outcome.next pushed), own, others, word, tag.trans (tagByte_sound hk), bytes, regs⟩

theorem exec_push_waits (on : (s.q n).enabled = true) (waits : (s.q n).hold ≠ [] ∨ s.qFits n = false) :
    ∃ z h, exec cmd s = .next z ∧ z.q n = { s.q n with hold := (s.q n).hold ++ [h] } ∧
      h.word = v ∧ h.k = k ∧ (∀ m, m ≠ n → z.q m = s.q m) ∧ z.hub = s.hub ∧ (∀ e ∈ z.assay.writes, e.pair = a.pair → e.seq = a.seq → e.complete = false) ∧
      ∀ g : Fld, g.pageOf ≠ 0x0E → z.get g = s.get g := by
  have pushed : s.qPortPush a off k v = (s.updQ n fun q => { q with hold := q.hold ++ [s.pushWrite a off k v] }).qShow.markDone a.pair a.seq false := by
    rw [State.qPortPush_enabled firmware (sel ▸ on), sel]
    exact State.qPush_waits waits
  obtain ⟨queues, hub, regs, complete⟩ := State.markDone_spec (s.updQ n fun q => { q with hold := q.hold ++ [s.pushWrite a off k v] }).qShow a.pair a.seq false
  have queues : _ = (s.updQ n fun q => { q with hold := q.hold ++ [s.pushWrite a off k v] }).queues := queues
  refine ⟨_, s.pushWrite a off k v, does.trans (congrArg Host.Outcome.next pushed), (State.q_congr queues n).trans (State.q_updQ s n _), rfl, rfl,
    fun m hm => (State.q_congr queues m).trans (State.q_updQ_ne hm), hub, complete, fun g hg => (regs g).trans ?_⟩
  exact (State.qShow_keeps _).2.2 g (fun e => hg (Fld.pageOf_congr e)) fun e => hg (Fld.pageOf_congr e)

/-- A packet of one write: R213 stores its length before its word. -/
theorem exec_push_packet (hk : k ≠ 0) (small : k ≤ 4) (on : (s.q n).enabled = true) (first : (s.q n).hold = []) (pkt : s.qPkt n = true)
    (packed : s.qPacked n = false) (fresh : (s.q n).prog = none) (wide : 4 ≤ s.qMax n) (room : 2 ≤ s.qFree n) : ∃ z, exec cmd s = .next z ∧
      z.hubNat (s.qWord n (s.qAt n (s.q n).occ)) 4 = (k + 2 ^ 24 * s.get (QMGR_QSEL_16 (copyOf a))) % 2 ^ 32 ∧
      z.hubNat (s.qWord n (s.qAt n ((s.q n).occ + 1))) 4 = pushedWord k v % 2 ^ 32 ∧
      z.q n = { s.q n with occ := (s.q n).occ + 2, vis := (s.q n).occ + 2, pkts := (s.q n).pkts ++ [(s.q n).occ + 2 - (s.q n).vis] } := by
  have fits : s.qFits n = true := by
    unfold State.qFits
    rw [pkt, if_pos rfl, fresh]
    dsimp only
    rw [packed, if_neg Bool.false_ne_true, decide_eq_true room]
  have pushed : s.qPortPush a off k v = s.qDo n v k (s.get (QMGR_QSEL_16 (copyOf a))) false := by
    rw [State.qPortPush_enabled firmware (sel ▸ on), sel]
    exact State.qPush_now first fits
  obtain ⟨queues, hub, -⟩ := State.qEvent_keeps (s.qPushPkt n v k (s.get (QMGR_QSEL_16 (copyOf a))) false) n (s.qLevel n)
    (decide (s.qLevel n < (s.qPushPkt n v k (s.get (QMGR_QSEL_16 (copyOf a))) false).qLevel n))
  have fit : k ≤ s.qMax n := Nat.le_trans small wide
  exact ⟨_, does.trans (congrArg Host.Outcome.next (pushed.trans (State.qDo_packet pkt))),
    (State.hubNat_congr hub _ _).trans (State.qPushPkt_length packed fresh hk fit room),
    (State.hubNat_congr hub _ _).trans ((State.qPushPkt_word packed fresh hk fit room).trans (by rw [pushedWord, if_neg hk])),
    (State.q_congr queues n).trans (State.qPushPkt_q packed fresh hk fit)⟩

end

theorem exec_qmgrPush {a : Acc} {v : Nat} (reached : s.reaches a 0x0E 0x044) : exec (.qmgrPush a v) s = .next (s.qPortPush a 0x044 0 v) :=
  congrArg Host.Outcome.next (State.writeAt_of_reaches reached)

theorem exec_qmgrPushLast {a : Acc} {j : Fin 4} {v : Nat} (reached : s.reaches a 0x0E (0x048 + 4 * j.val)) :
    exec (.qmgrPushLast a j v) s = .next (s.qPortPush a (0x048 + 4 * j.val) (j.val + 1) v) :=
  congrArg Host.Outcome.next (State.writeAt_of_reaches reached)

theorem exec_heldPushComplete (s : State) (n : Nat) : exec (.heldPushComplete n) s = .next (s.qHeldDone n) := rfl

theorem exec_qmgrQselWrite {a : Acc} {v : Nat} (reached : s.reaches a 0x0E 0x040) : exec (.qmgrQselWrite a v) s = .next (s.qselWrite (copyOf a) v) :=
  congrArg Host.Outcome.next (State.writeAt_of_reaches reached)

theorem exec_qmgrQselTWrite {a : Acc} {v : Nat} (reached : s.reaches a 0x0E 0x080) : exec (.qmgrQselTWrite a v) s = .next (s.qselWrite (a.pair.val * 3) v) :=
  congrArg Host.Outcome.next (State.writeAt_of_reaches reached)

/-- What a write of a copy of QMGR_QSEL leaves: the selection, latch and LASTTAG 0, all else as it was. -/
theorem State.qselWrite_spec (s : State) (c v : Nat) : (s.qselWrite c v).get (QMGR_QSEL_0 c) = v % 2 ^ (QMGR_QSEL_0 c).w ∧
    (s.qselWrite c v).get (QMGR_QSEL_16 c) = v / 2 ^ 16 % 2 ^ (QMGR_QSEL_16 c).w ∧ (∀ i < 4, (s.qselWrite c v).get (grpFld i c) = 0) ∧
    (s.qselWrite c v).get (QMGR_LASTTAG_0 c) = 0 ∧ (s.qselWrite c v).get (QMGR_LASTTAG_5 c) = 0 ∧ (s.qselWrite c v).get (QMGR_LASTTAG_6 c) = 0 ∧
    (s.qselWrite c v).get (QMGR_LASTTAG_7 c) = 0 ∧ s.keepsBut (s.qselWrite c v) [0x0E] ∧ (s.qselWrite c v).hub = s.hub := by
  obtain ⟨queue, tag⟩ := s.qselWrite_selects c v
  refine ⟨queue, tag, fun i hi => s.qselWrite_clears c v ?_, s.qselWrite_clears c v ?_, s.qselWrite_clears c v ?_, s.qselWrite_clears c v ?_,
    s.qselWrite_clears c v ?_, s.qselWrite_keeps c v, s.qselWrite_hub c v⟩
  · interval_cases i <;> simp
  all_goals simp

/-- Settles O29: a push to a disabled queue, a word stored, and a write that waits are the lemmas on exec_push above, for QMGR_PUSH and QMGR_PUSH_LASTk alike;
a write that waited is done as a push is. That a held write is incomplete until HELD_PUSH_COMPLETE is log entry 5, and that a completion without a held write
changes nothing is entry 3. -/
theorem queuePushes : Obligations.QueuePushes := by
  refine ⟨?push, ?packet, ?held, ?none, ?select⟩
  case push =>
    intro a k v s
    cases k with
    | none =>
      intro off cmd kk w reached
      have does := exec_qmgrPush (v := v) reached
      have firmware := reached.2.2.1
      exact ⟨exec_push_disabled does firmware rfl, exec_push_stores does firmware rfl (by decide), exec_push_waits does firmware rfl⟩
    | some j =>
      intro off cmd kk w reached
      have does := exec_qmgrPushLast (v := v) reached
      have firmware := reached.2.2.1
      have stores := exec_push_stores does firmware rfl j.isLt
      rw [pushedWord_last j v] at stores
      exact ⟨exec_push_disabled does firmware rfl, stores, exec_push_waits does firmware rfl⟩
  case packet =>
    intro a j v s reached n i
    have packet := exec_push_packet (exec_qmgrPushLast (v := v) reached) reached.2.2.1 rfl (Nat.succ_ne_zero _) j.isLt
    rw [pushedWord_last j v] at packet
    exact packet
  case held =>
    intro n h r s held
    refine ⟨fun blocked => ?_, fun on pkt packed room => ⟨_, exec_heldPushComplete s n, State.qHeldDone_stream held on pkt packed room, ?_⟩⟩
    · rw [exec_heldPushComplete, State.qHeldDone_stays held blocked]
    · exact (State.qHeldDone_done held on (by rw [State.qFits_stream pkt, decide_eq_true room])).2
  case none =>
    intro n s empty
    rw [exec_heldPushComplete, State.qHeldDone_none empty]
  case select =>
    intro a v s sel
    exact ⟨fun reached => ⟨_, exec_qmgrQselWrite reached, s.qselWrite_spec _ v⟩, fun reached => ⟨_, exec_qmgrQselTWrite reached, s.qselWrite_spec _ v⟩⟩

end Sys2Proof.Machine
end

section
/-! Reads of hub registers at their capture, by the runtime or the monitor (03 R85; 23 R553, R554). -/

namespace Sys2Proof.Machine

variable {s z : State} {a : Acc} {page off : Nat} {bad : Bool} {x : Ans} {c : Instr}

/-- A command that reads a register gives what the read answers. -/
theorem State.readGives_of_readAt (does : exec c s = .next (s.readCmd a page off bad)) (firmware : a.level ≠ 0) (read : s.readAt a page off bad = (z, x)) :
    s.readGives c a (regAddr page off) z x := by
  have noted : s.noteAccess a = s := if_neg firmware
  rw [State.readCmd, noted, read] at does
  refine ⟨fun free => does.trans ?_, fun e entry other => does.trans ?_, fun e r entry first uncaptured here => does.trans ?_⟩
  · dsimp only
    rw [free]
  · dsimp only
    rw [entry]
    dsimp only
    cases first : e.first with
    | none => rfl
    | some r =>
      refine congrArg Host.Outcome.next (if_neg fun ⟨uncaptured, here⟩ => ?_)
      rcases other r first with captured | elsewhere
      · exact captured (Option.isNone_iff_eq_none.1 uncaptured)
      · exact elsewhere here
  · dsimp only
    rw [entry]
    dsimp only
    rw [first]
    exact congrArg Host.Outcome.next (if_pos ⟨Option.isNone_iff_eq_none.2 uncaptured, here⟩)

/-- The page rules refuse the runtime and the monitor no read. -/
theorem State.pageRefused_read (firmware : a.level ≠ 0) (t page off : Nat) : s.pageRefused a.level.val t page off false = false := by
  unfold State.pageRefused
  split
  · rfl
  · rw [if_pos (by have := a.level.isLt; have : a.level.val ≠ 0 := fun e => firmware (Fin.ext e); omega), Bool.false_and]

theorem State.readAt_pop (on : s.power = .run) (firmware : a.level ≠ 0) : s.readAt a 0x0E 0x058 bad = s.qPortPop a bad := by
  unfold State.readAt
  rw [if_neg (by simp [on, State.pagePresent]), State.pageRefused_read firmware, if_neg Bool.false_ne_true, if_pos ⟨rfl, rfl⟩]

/-- Beside the pop, a read is that of the page. -/
theorem State.readAt_page (on : s.power = .run) (firmware : a.level ≠ 0) (present : s.pagePresent page = true) (no_pop : ¬ (page = 0x0E ∧ off = 0x058)) :
    s.readAt a page off bad = ((s.pageRead a page off).1, .value (s.pageRead a page off).2) := by
  have port : s.portReadRefused a off = false := by
    unfold State.portReadRefused
    simp [State.qGranted_firmware firmware]
  unfold State.readAt
  rw [if_neg (by simp [on, present]), State.pageRefused_read firmware, if_neg Bool.false_ne_true, if_neg no_pop, port, if_neg (by simp)]

/-- A register that the variant lacks. -/
theorem State.pageRead_absent (absent : s.regAbsent page off = true) : s.pageRead a page off = (s, 0) := if_pos (.inr absent)

/-- A register beyond the common header that shows its fields. -/
theorem State.pageRead_fields (present : s.pagePresent page = true) (there : s.regAbsent page off = false) (plain : off ∉ [0x000, 0x004, 0x008, 0x020, 0x02C, 0x028])
    (live : s.liveRead a page off = none) :
    s.pageRead a page off = (((s.readLatch a page off).readClear a page off).readAlso page off, s.plainRead a page off) := by
  simp only [List.mem_cons, List.not_mem_nil, or_false, not_or] at plain
  unfold State.pageRead
  simp [present, there, plain, live]

end Sys2Proof.Machine
end

section
/-! QueuePopsAndCommands: the pop of a word, the underrun, enable and disable (08 R217, R219, R222, R223). -/

namespace Sys2Proof.Machine

variable {s : State} {a : Acc} {bad : Bool} {n c : Nat}

/-! ## LASTTAG -/

section
variable {valid : Nat} {poison under last : Bool}

/-- Registers at another offset stay. -/
theorem State.get_setLasttag_ne {g : Fld} (h : g.key / 32 % 4096 ≠ 0x068) : (s.setLasttag c valid poison under last).get g = s.get g := by
  have other (l w : Nat) (hl : l < 32) : g.key ≠ (⟨0x0E, 0x068, l, w, 0, 1 + c⟩ : Fld).key := fun e => by
    rw [e] at h
    unfold Fld.key at h
    dsimp only at h
    omega
  exact (State.get_setB_ne (other 7 1 (by decide))).trans ((State.get_setB_ne (other 6 1 (by decide))).trans
    ((State.get_setB_ne (other 5 1 (by decide))).trans (State.get_set_ne _ (other 0 5 (by decide)))))

theorem State.get_setLasttag_valid : (s.setLasttag c valid poison under last).get (QMGR_LASTTAG_0 c) = valid % 32 :=
  (State.get_setB_ne (portKey_ne (by decide))).trans ((State.get_setB_ne (portKey_ne (by decide))).trans
    ((State.get_setB_ne (portKey_ne (by decide))).trans (State.get_set_same _ _ _)))

theorem State.get_setLasttag_under : (s.setLasttag c valid poison under last).get (QMGR_LASTTAG_6 c) = b2n under :=
  (State.get_setB_ne (portKey_ne (by decide))).trans (State.get_setB _ _ _ (show 0 < 1 by decide))

theorem State.setLasttag_page : s.keepsBut (s.setLasttag c valid poison under last) [0x0E] := by
  have page (l w : Nat) (h : l < 32) : (⟨0x0E, 0x068, l, w, 0, 1 + c⟩ : Fld).pageOf ∈ [0x0E] := by rw [portPage c 0x068 l w 0 (by omega)]; decide
  exact State.keepsBut_set (State.keepsBut_set (State.keepsBut_set (State.keepsBut_set State.keepsBut_refl (page 0 5 (by decide))) (page 5 1 (by decide)))
    (page 6 1 (by decide))) (page 7 1 (by decide))

theorem State.qW_setLasttag : (s.setLasttag c valid poison under last).qW n = s.qW n :=
  congrArg (16 * ·) (State.get_setLasttag_ne (g := QMGR_CFG_LINES_0 n) (by unfold Fld.key QMGR_CFG_LINES_0; dsimp only; omega))

theorem State.setLasttag_others : (s.setLasttag c valid poison under last).queues = s.queues ∧ (s.setLasttag c valid poison under last).hub = s.hub := by
  simp only [State.setLasttag, State.setB, State.set_fields, and_self]

end

/-! ## Pops -/

theorem State.qPortPop_disabled (firmware : a.level ≠ 0) (disabled : (s.q (s.qSel (copyOf a))).enabled = false) : s.qPortPop a bad = (s, .error 5) := by
  unfold State.qPortPop
  simp only [State.qGranted_firmware firmware, disabled, Bool.not_true, Bool.not_false, Bool.false_eq_true, if_false, if_true]

theorem State.qPortPop_enabled (firmware : a.level ≠ 0) (on : (s.q (s.qSel (copyOf a))).enabled = true) :
    s.qPortPop a bad = ((s.qPop (s.qSel (copyOf a)) (copyOf a) bad).1, .value (s.qPop (s.qSel (copyOf a)) (copyOf a) bad).2) := by
  unfold State.qPortPop
  simp only [State.qGranted_firmware firmware, on, Bool.not_true, Bool.false_eq_true, if_false]

section
variable (free : (s.q n).claim = false)
include free

theorem State.qTakeHeld_free : s.qTakeHeld n = s := if_neg (by rw [free]; exact Bool.false_ne_true)

theorem State.qPop_empty (empty : (s.q n).vis = 0) : s.qPop n c bad = s.qUnderrun n c := by
  unfold State.qPop
  rw [State.qTakeHeld_free free]
  exact if_pos empty

/-- The pop of a sound word of a stream queue: the word's mark of a bad pop goes, LASTTAG shows its tag byte, and the head moves on. -/
theorem State.qPop_word (filled : (s.q n).vis ≠ 0) (packed : s.qPacked n = false) (sound : s.qParityBad n (s.qAt n 0) = false) :
    ∃ f : QS → QS, s.qPop n c false = (((s.updQ n fun q => { q with bad := q.bad.filter fun i => i != s.qAt n 0 }).setLasttag c
        (s.hubNat (s.qTag n (s.qAt n 0)) 1 / 8) (bitOf (s.hubNat (s.qTag n (s.qAt n 0)) 1) 1) false (bitOf (s.hubNat (s.qTag n (s.qAt n 0)) 1) 2)).updQ n f,
        s.hubNat (s.qWord n (s.qAt n 0)) 4) ∧
      ∀ q : QS, q.pkts = [] → f q =
        { q with head := (q.head + 1) % s.qW n, occ := q.occ - 1, vis := q.vis - 1, last := s.hubNat (s.qWord n (s.qAt n 0)) 4 } := by
  have unpacked (f : QS → QS) : (s.updQ n f).qPacked n = false := (State.mode_congr (s.regs_updQ n f) n).2.trans packed
  unfold State.qPop
  rw [State.qTakeHeld_free free]
  dsimp only
  rw [if_neg filled]
  simp only [packed, unpacked, Bool.false_eq_true, if_false, List.range_one, List.map_cons, List.map_nil, Bool.false_or, sound, List.filter_cons, List.filter_nil,
    List.foldl_cons, List.foldl_nil, Nat.zero_max, List.isEmpty_nil, Bool.not_true, List.any_cons, List.any_nil, Bool.or_false, List.contains_cons,
    List.contains_nil, List.getD_cons_zero]
  refine ⟨_, rfl, fun q stream => ?_⟩
  have width (f : QS → QS) : (s.updQ n f).qW n = s.qW n := (State.ring_congr (s.regs_updQ n f) n).2.2
  rw [stream, State.qW_setLasttag, width]

end

theorem State.hub_count (s : State) (f : Fld) : (s.count f).hub = s.hub := rfl

/-- R219: the mark, LASTTAG's under, one more count, the interrupt, and the word popped last. -/
theorem State.qUnderrun_spec (s : State) (n c : Nat) : (s.qUnderrun n c).2 = (s.q n).last ∧ (s.qUnderrun n c).1.q n = { s.q n with sticky := true } ∧
    (∀ m, m ≠ n → (s.qUnderrun n c).1.q m = s.q m) ∧ (s.qUnderrun n c).1.hub = s.hub ∧
    (s.qUnderrun n c).1.get QMGR_UNDERRUN_0 = min (s.get QMGR_UNDERRUN_0 + 1) (2 ^ QMGR_UNDERRUN_0.w - 1) ∧
    bitOf ((s.qUnderrun n c).1.get (rawOf 0x0E)) 2 = true ∧ (s.qUnderrun n c).1.get (QMGR_LASTTAG_6 c) = 1 := by
  let marked := s.updQ n fun q => { q with sticky := true }
  let shown := marked.setLasttag c 0 false true false
  have own : marked.q n = { s.q n with sticky := true } := State.q_updQ _ _ _
  have hub : (s.qUnderrun n c).1.hub = marked.hub := (State.raiseInt_hub _ _ _).1.trans ((State.hub_count shown _).trans State.setLasttag_others.2)
  have queues : (s.qUnderrun n c).1.queues = marked.queues :=
    (Apart.raiseInt queues_apart _ _ _).trans ((queues_apart.set _ _ _).trans State.setLasttag_others.1)
  have told : shown.q n = { s.q n with sticky := true } := (State.q_congr State.setLasttag_others.1 n).trans own
  refine ⟨show (shown.q n).last = _ by rw [told], (State.q_congr queues n).trans own, fun m hm => (State.q_congr queues m).trans (State.q_updQ_ne hm), hub,
    ?_, State.bitOf_raw_raiseInt (by decide) (by decide) (by decide), ?_⟩
  · have before : shown.get QMGR_UNDERRUN_0 = s.get QMGR_UNDERRUN_0 := State.get_setLasttag_ne (by decide)
    refine (State.get_raiseInt_ne (by decide) (by decide)).trans ((State.get_count shown _).trans ?_)
    rw [State.oneMore, before]
  · have page : (QMGR_LASTTAG_6 c).pageOf ≠ 0x0A := fun e => absurd ((portPage c 0x068 6 1 0 (by decide)).symm.trans e) (by decide)
    exact (State.get_raiseInt_ne page (portKey_ne_page (by decide))).trans
      ((State.get_count_ne (portKey_ne_page (by decide))).trans State.get_setLasttag_under)

/-- What the pop of a sound word leaves. -/
theorem State.qPop_word_spec {v : Nat} {z : State} (free : (s.q n).claim = false) (filled : (s.q n).vis ≠ 0) (packed : s.qPacked n = false)
    (sound : s.qParityBad n (s.qAt n 0) = false) (stream : (s.q n).pkts = []) (popped : s.qPop n c false = (z, v)) : v = s.hubNat (s.qWord n (s.qAt n 0)) 4 ∧
    z.q n = { s.q n with head := ((s.q n).head + 1) % s.qW n, occ := (s.q n).occ - 1, vis := (s.q n).vis - 1, last := s.hubNat (s.qWord n (s.qAt n 0)) 4,
                         bad := (s.q n).bad.filter fun i => i != s.qAt n 0 } ∧
    (∀ m, m ≠ n → z.q m = s.q m) ∧ z.hub = s.hub ∧ z.get (QMGR_LASTTAG_6 c) = 0 ∧
    z.get (QMGR_LASTTAG_0 c) = s.hubNat (s.qTag n (s.qAt n 0)) 1 / 8 % 32 ∧ ∀ g : Fld, g.pageOf ≠ 0x0E → z.get g = s.get g := by
  obtain ⟨f, pop, moves⟩ := State.qPop_word (c := c) free filled packed sound
  let cleared := s.updQ n fun q => { q with bad := q.bad.filter fun i => i != s.qAt n 0 }
  have own : cleared.q n = { s.q n with bad := (s.q n).bad.filter fun i => i != s.qAt n 0 } := State.q_updQ _ _ _
  let shown := cleared.setLasttag c (s.hubNat (s.qTag n (s.qAt n 0)) 1 / 8) (bitOf (s.hubNat (s.qTag n (s.qAt n 0)) 1) 1) false
    (bitOf (s.hubNat (s.qTag n (s.qAt n 0)) 1) 2)
  have hub : (shown.updQ n f).hub = s.hub := (shown.hub_updQ n f).trans (State.setLasttag_others.2.trans (s.hub_updQ n _))
  obtain ⟨rfl, rfl⟩ := Prod.mk.inj (popped.symm.trans pop)
  refine ⟨rfl, ?_, fun m hm => (State.q_updQ_ne hm).trans ((State.q_congr State.setLasttag_others.1 m).trans (State.q_updQ_ne hm)),
    hub, (shown.get_updQ n f _).trans State.get_setLasttag_under, (shown.get_updQ n f _).trans State.get_setLasttag_valid,
    fun g hg => (shown.get_updQ n f g).trans ((State.setLasttag_page.2 g (by simpa using hg)).trans (s.get_updQ n _ g))⟩
  refine (State.q_updQ _ n f).trans ?_
  rw [State.q_congr State.setLasttag_others.1 n, own]
  exact moves _ stream

/-! ## Enable and disable -/

theorem State.qRefuse_spec (s : State) (n r o : Nat) : (s.qRefuse n r o).get QMGR_CMD_STAT_0 = 1 ∧ (s.qRefuse n r o).get QMGR_CMD_STAT_1 = r % 2 ^ QMGR_CMD_STAT_1.w ∧
    (s.qRefuse n r o).get QMGR_CMD_STAT_4 = o % 2 ^ QMGR_CMD_STAT_4.w ∧ bitOf ((s.qRefuse n r o).get (rawOf 0x0E)) 3 = true ∧
    ∀ m, (s.qRefuse n r o).q m = s.q m := by
  have told {g : Fld} (h : g.pageOf = 0x0E) (raw : g.key ≠ (rawOf 0x0E).key) :
      (s.qRefuse n r o).get g = (((s.set QMGR_CMD_STAT_0 1).set QMGR_CMD_STAT_1 r).set QMGR_CMD_STAT_4 o).get g :=
    (State.get_record (by decide) (by rw [h]; decide) (by rw [h]; decide)).trans (State.get_raiseInt_ne (by rw [h]; decide) raw)
  refine ⟨?_, ?_, ?_, ?_, fun m => State.q_congr ((Apart.record queues_apart _ (by decide)).trans (Apart.raiseInt queues_apart _ _ _)) m⟩
  · rw [told (by decide) (by decide), State.get_set_ne _ (by decide), State.get_set_ne _ (by decide), State.get_set_same]
    rfl
  · rw [told (by decide) (by decide), State.get_set_ne _ (by decide), State.get_set_same]
  · rw [told (by decide) (by decide), State.get_set_same]
  · exact (congrArg (bitOf · 3) (State.get_record (by decide) (by decide) (by decide))).trans (State.bitOf_raw_raiseInt (by decide) (by decide) (by decide))

section
variable (named : s.get QMGR_CSEL_0 = n)
include named

theorem State.qEnable_overlap {o : Nat} (overlap : s.qOverlap n = some o) : s.qEnable = s.qRefuse n 1 o := by
  unfold State.qEnable
  dsimp only
  rw [named, overlap]

variable (alone : s.qOverlap n = none)
include alone

theorem State.qEnable_judged : s.qEnable = if s.qBankBad n then s.qRefuse n 2 0 else if (s.q n).enabled then s.qRefuse n 3 0
    else if 0x38000 < s.qBase n + footprint (s.qL n) then s.qRefuse n 4 0
    else ((((s.set QMGR_CMD_STAT_0 0).set QMGR_CMD_STAT_1 0).set QMGR_CMD_STAT_4 0).updQ n fun q =>
      { QS.init with enabled := true, last := q.last, sticky := q.sticky }).qShow := by
  unfold State.qEnable
  dsimp only
  rw [named, alone]

theorem State.qEnable_done (ready : s.qBankBad n = false) (off : (s.q n).enabled = false) (inside : s.qBase n + footprint (s.qL n) ≤ 0x38000) :
    s.qEnable.q n = { QS.init with enabled := true, last := (s.q n).last, sticky := (s.q n).sticky } ∧ (∀ m, m ≠ n → s.qEnable.q m = s.q m) ∧
      s.qEnable.get QMGR_CMD_STAT_0 = 0 ∧ s.qEnable.hub = s.hub := by
  rw [State.qEnable_judged named alone, ready, if_neg Bool.false_ne_true, off, if_neg Bool.false_ne_true, if_neg (Nat.not_lt.2 inside)]
  let opened := ((s.set QMGR_CMD_STAT_0 0).set QMGR_CMD_STAT_1 0).set QMGR_CMD_STAT_4 0
  refine ⟨(State.q_qShow _ n).trans (State.q_updQ opened n _), fun m hm => (State.q_qShow _ m).trans (State.q_updQ_ne (s := opened) hm), ?_,
    (State.qShow_keeps _).2.1⟩
  rw [(State.qShow_keeps _).2.2 _ (by decide) (by decide), State.get_updQ, State.get_set_ne _ (by decide), State.get_set_ne _ (by decide), State.get_set_same,
    Nat.zero_mod]

end

/-- Completions of the bridge that wait are no part of a queue or of hub SRAM. -/
theorem State.brCplDrop_keeps (s : State) (n : Nat) : (s.brCplDrop n).queues = s.queues ∧ (s.brCplDrop n).hub = s.hub :=
  ⟨part_ite (part := State.queues) rfl rfl, part_ite (part := State.hub) rfl rfl⟩

/-- R223: the queue is empty, its word popped last and its mark stay; the writes that waited leave no other queue changed. -/
theorem State.qDisable_enabled (on : (s.q n).enabled = true) : (s.qDisable n).q n = { QS.init with last := (s.q n).last, sticky := (s.q n).sticky } ∧
    (∀ m, m ≠ n → (s.qDisable n).q m = s.q m) ∧ (s.qDisable n).hub = s.hub := by
  let emptied := s.updQ n fun q => { QS.init with last := q.last, sticky := q.sticky }
  have kept : (s.qDisable n).queues = emptied.queues ∧ (s.qDisable n).hub = emptied.hub := by
    unfold State.qDisable
    dsimp only
    rw [on, Bool.not_true, if_neg Bool.false_ne_true]
    have waited := State.each_keeps (P := fun u => u.queues = emptied.queues ∧ u.hub = emptied.hub) (t := emptied) (r := (s.q n).hold)
      (f := fun s h => match h.src with
        | some (p, seq, _) => (s.storeFault p seq h.addr).markDone p seq true
        | none => s) ⟨rfl, rfl⟩ fun u h hu => by
      split
      · exact hu
      · exact hu
    exact ⟨(State.brCplDrop_keeps _ n).1.trans waited.1, (State.brCplDrop_keeps _ n).2.trans waited.2⟩
  exact ⟨(State.q_congr kept.1 n).trans (State.q_updQ s n _), fun m hm => (State.q_congr kept.1 m).trans (State.q_updQ_ne hm), kept.2⟩

theorem State.qDisable_disabled (off : (s.q n).enabled = false) : s.qDisable n = s := if_pos (by rw [off]; rfl)

/-! ## The commands -/

theorem exec_qmgrPop (s : State) (a : Acc) (bad : Bool) : exec (.qmgrPop a bad) s = .next (s.readCmd a 0x0E 0x058 bad) := rfl

theorem exec_qmgrQclr {v : Nat} (reached : s.reaches a 0x0E 0x074) : exec (.qmgrQclr a v) s =
    .next (if bitOf v 0 = true then s.updQ (s.qSel (copyOf a)) fun q => { q with sticky := false } else s) := by
  refine congrArg Host.Outcome.next ((State.writeAt_of_reaches reached).trans ?_)
  unfold State.qClr
  dsimp only
  rw [State.qGranted_firmware reached.2.2.1, Bool.not_true, if_neg Bool.false_ne_true]

theorem exec_qmgrEnable (reached : s.reaches a 0x0E 0x118) : exec (.qmgrEnable a) s = .next s.qEnable :=
  congrArg Host.Outcome.next (State.writeAt_of_reaches reached)

theorem exec_qmgrDisable (reached : s.reaches a 0x0E 0x118) : exec (.qmgrDisable a) s = .next (s.qDisable (s.get QMGR_CSEL_0)) :=
  congrArg Host.Outcome.next (State.writeAt_of_reaches reached)

/-- Settles O30: a pop of a disabled queue, of an empty one and of a sound word, each as the read of QMGR_POP that answers it; QCLR, enable in the order of its
refusals, and disable. -/
theorem queuePopsAndCommands : Obligations.QueuePopsAndCommands := by
  refine ⟨?pops, ?qclr, ?commands⟩
  case pops =>
    intro a bad s run firmware n does
    have gives {z : State} {x : Ans} (popped : s.qPortPop a bad = (z, x)) : does z x :=
      State.readGives_of_readAt (exec_qmgrPop s a bad) firmware ((State.readAt_pop run firmware).trans popped)
    refine ⟨fun disabled => gives (State.qPortPop_disabled firmware disabled), fun on free empty => ?_,
      fun on free filled pkt packed clean stream sound => ?_⟩
    · obtain ⟨answer, spec⟩ := s.qUnderrun_spec n (copyOf a)
      refine ⟨(s.qUnderrun n (copyOf a)).1, gives ?_, spec⟩
      rw [State.qPortPop_enabled firmware on, State.qPop_empty free empty, answer]
    · rcases popped : s.qPop n (copyOf a) false with ⟨z, v⟩
      obtain ⟨answer, spec⟩ := State.qPop_word_spec free filled packed sound stream popped
      refine ⟨z, gives ?_, spec⟩
      rw [State.qPortPop_enabled firmware on, clean, popped, answer]
  case qclr => exact fun a v s reached => exec_qmgrQclr reached
  case commands =>
    intro a s reached n
    rw [exec_qmgrEnable reached, exec_qmgrDisable reached]
    refine ⟨fun o overlap => congrArg Host.Outcome.next (State.qEnable_overlap rfl overlap), fun alone => ?_, fun r o => s.qRefuse_spec n r o,
      fun off => congrArg Host.Outcome.next (State.qDisable_disabled off), fun on => ⟨_, rfl, State.qDisable_enabled on⟩⟩
    have judged := State.qEnable_judged (s := s) rfl alone
    refine ⟨fun bad => ?_, fun ready on => ?_, fun ready off beyond => ?_, fun ready off inside => ⟨_, rfl, State.qEnable_done rfl alone ready off inside⟩⟩
    · rw [judged, bad, if_pos rfl]
    · rw [judged, ready, if_neg Bool.false_ne_true, on, if_pos rfl]
    · rw [judged, ready, if_neg Bool.false_ne_true, off, if_neg Bool.false_ne_true, if_pos beyond]

end Sys2Proof.Machine
end

section
/-! TallymanAndLatchedReads: grants, quotas and tags (08 R225 to R229). -/

namespace Sys2Proof.Machine

variable {s t : State} {b r ns : Nat} {pB : Bool}

/-! ## What a record limited to once per second leaves -/

theorem tally_apart : Apart State.tally := by
  constructor <;> intros <;> rfl

theorem Apart.recordSec {β : Type} {part : State → β} (k : Apart part) (s : State) (inst code : Nat) {sev : Nat} (ws : List Nat) (h : sev < 8) :
    part (s.recordSec inst code sev ws) = part s := RecordKeeps.recordSec (Apart.recordKeeps k (part s)) h rfl

theorem State.get_recordSec {inst code sev : Nat} {ws : List Nat} {g : Fld} (h : sev < 8) (h7 : g.pageOf ≠ 7) (hA : g.pageOf ≠ 0x0A) :
    (s.recordSec inst code sev ws).get g = s.get g := by
  unfold State.recordSec State.once
  dsimp only
  split
  · exact State.get_record h h7 hA
  · rfl

/-! ## Fields of the page -/

/-- The page's places, by offset and bit. -/
theorem tallyKey (o l w r : Nat) : (⟨0x0D, o, l, w, r, 0⟩ : Fld).key = 0x0D * 131072 + (o * 32 + l) := by
  unfold Fld.key
  dsimp only
  omega

theorem tallyPage (o l w r : Nat) (h : o * 32 + l < 131072) : (⟨0x0D, o, l, w, r, 0⟩ : Fld).pageOf = 0x0D := by
  unfold Fld.pageOf
  rw [tallyKey]
  omega

theorem tallyKey_ne {o l w r o' l' w' r' : Nat} (h : o * 32 + l ≠ o' * 32 + l') :
    (⟨0x0D, o, l, w, r, 0⟩ : Fld).key ≠ (⟨0x0D, o', l', w', r', 0⟩ : Fld).key := by
  rw [tallyKey, tallyKey]
  omega

/-! ## A grant (R226 to R229) -/

/-- What a wait of 1023 ns or more shows before the grant is counted. -/
def State.waitShown (s : State) (b ns : Nat) (pB : Bool) : State :=
  if ns < 1023 then s else ((s.count TALLY_sat_count).raiseInt 0x0D 0).recordSec 0 0x0D01 2 [b + 32 * b2n pB]

theorem State.waitShown_tally (s : State) (b ns : Nat) (pB : Bool) : (s.waitShown b ns pB).tally = s.tally :=
  part_ite rfl ((Apart.recordSec tally_apart _ _ _ _ (by decide)).trans ((Apart.raiseInt tally_apart _ _ _).trans (tally_apart.set _ _ _)))

/-- Fields of the Tallyman's page but the count of long waits and INT_RAW stay. -/
theorem State.get_waitShown {g : Fld} (page : g.pageOf = 0x0D) (sat : g.key ≠ TALLY_sat_count.key) (raw : g.key ≠ (rawOf 0x0D).key) :
    (s.waitShown b ns pB).get g = s.get g := by
  unfold State.waitShown
  split
  · rfl
  · rw [State.get_recordSec (by decide) (by rw [page]; decide) (by rw [page]; decide), State.get_raiseInt_ne (by rw [page]; decide) raw, State.get_count_ne sat]

theorem State.waitShown_long (long : 1023 ≤ ns) : (s.waitShown b ns pB).get TALLY_sat_count = s.oneMore TALLY_sat_count ∧
    bitOf ((s.waitShown b ns pB).get (rawOf 0x0D)) 0 = true := by
  unfold State.waitShown
  rw [if_neg (Nat.not_lt.2 long), State.get_recordSec (by decide) (by decide) (by decide), State.get_recordSec (by decide) (by decide) (by decide)]
  exact ⟨(State.get_raiseInt_ne (by decide) (by decide)).trans (State.get_count s _), State.bitOf_raw_raiseInt (by decide) (by decide) (by decide)⟩

theorem State.waitShown_short (short : ns < 1023) : s.waitShown b ns pB = s := if_pos short

/-- One more grant of a requester in the period. -/
def State.grantCounted (s : State) (r : Nat) : State := s.updTl fun y => { y with used := SMap.put y.used r 0 (SMap.get s.tally.used r 0 + 1) }

theorem State.used_grantCounted (s : State) (r : Nat) : SMap.get (s.grantCounted r).tally.used r 0 = SMap.get s.tally.used r 0 + 1 :=
  SMap.get_put_same s.tally.used r 0 (SMap.get s.tally.used r 0 + 1)

/-- The quota of a hard-partition requester after one more grant (R229). -/
def State.quotaUsed (s : State) (r : Nat) : State :=
  if s.flag (TALLY_HP_0 r) then
    if s.get (TALLY_HP_1 r) ≤ SMap.get s.tally.used r 0 + 1 then ((s.grantCounted r).tallyMask r).raiseInt 0x0D 2 else s.grantCounted r
  else s

/-- Fields of the page but the mask and INT_RAW stay. -/
theorem State.get_quotaUsed {g : Fld} (page : g.pageOf = 0x0D) (mask : g.key ≠ TALLY_masked.key) (raw : g.key ≠ (rawOf 0x0D).key) :
    (s.quotaUsed r).get g = s.get g := by
  unfold State.quotaUsed
  split
  · split
    · exact (State.get_raiseInt_ne (by rw [page]; decide) raw).trans (State.get_set_ne _ mask)
    · rfl
  · rfl

theorem State.quotaUsed_raw {i : Nat} (hi : i < 32) (h : bitOf (s.get (rawOf 0x0D)) i = true) : bitOf ((s.quotaUsed r).get (rawOf 0x0D)) i = true := by
  unfold State.quotaUsed
  split
  · split
    · rw [State.raiseInt_raw (by decide) (by decide), bitOf_mod_two_pow hi, bitOf_setBit]
      exact Bool.or_eq_true_iff.2 (.inl ((congrArg (bitOf · i) (State.get_set_ne _ (by decide))).trans h))
    · exact h
  · exact h

theorem State.quotaUsed_soft (soft : s.flag (TALLY_HP_0 r) = false) : s.quotaUsed r = s := if_neg (by rw [soft]; exact Bool.false_ne_true)

theorem State.quotaUsed_hard (hr : r < 15) (hard : s.flag (TALLY_HP_0 r) = true) : SMap.get (s.quotaUsed r).tally.used r 0 = SMap.get s.tally.used r 0 + 1 ∧
    (SMap.get s.tally.used r 0 + 1 < s.get (TALLY_HP_1 r) → (s.quotaUsed r).get TALLY_masked = s.get TALLY_masked) ∧
    (s.get (TALLY_HP_1 r) ≤ SMap.get s.tally.used r 0 + 1 → bitOf ((s.quotaUsed r).get TALLY_masked) r = true ∧
      bitOf ((s.quotaUsed r).get (rawOf 0x0D)) 2 = true) := by
  unfold State.quotaUsed
  rw [hard, if_pos rfl]
  by_cases spent : s.get (TALLY_HP_1 r) ≤ SMap.get s.tally.used r 0 + 1
  · rw [if_pos spent]
    refine ⟨?_, fun within => absurd spent (Nat.not_le.2 within), fun _ => ⟨?_, State.bitOf_raw_raiseInt (by decide) (by decide) (by decide)⟩⟩
    · rw [Apart.raiseInt tally_apart]
      exact s.used_grantCounted r
    · rw [State.get_raiseInt_ne (by decide) (by decide), State.tallyMask, State.get_set_same,
        bitOf_mod_two_pow (n := TALLY_masked.w) (show r < 16 by omega), bitOf_setBit, decide_eq_true rfl, Bool.or_true]
  · rw [if_neg spent]
    exact ⟨s.used_grantCounted r, fun _ => rfl, fun due => absurd due spent⟩

/-- The wait's high water at the bank and port. -/
def State.waitMost (s : State) (b ns : Nat) (f : Fld) : State := if b < 16 then s.raiseTo f ns else s

theorem State.get_waitMost (s : State) (ns : Nat) (f : Fld) (h : b < 16) : (s.waitMost b ns f).get f = max (s.get f) (min ns (2 ^ f.w - 1)) % 2 ^ f.w := by
  rw [State.waitMost, if_pos h]
  exact State.get_set_same _ _ _

theorem State.get_waitMost_ne {f g : Fld} (h : b < 16 → g.key ≠ f.key) : (s.waitMost b ns f).get g = s.get g := by
  unfold State.waitMost
  split
  · exact State.get_set_ne _ (h ‹_›)
  · rfl

theorem State.waitMost_tally (s : State) (b ns : Nat) (f : Fld) : (s.waitMost b ns f).tally = s.tally := part_ite (tally_apart.set _ _ _) rfl

theorem State.tallyGrant_A (s : State) (b r ns : Nat) : s.tallyGrant false b r ns = (s.waitShown b ns false).waitMost b ns (TALLY_WAITA_0 b) := rfl

theorem State.tallyGrant_masked (refused : 15 ≤ r ∨ bitOf (s.get TALLY_masked) r = true) : s.tallyGrant true b r ns = s :=
  if_pos (by rwa [Bool.true_and, Bool.or_eq_true, decide_eq_true_iff])

theorem State.tallyGrant_B (hr : r < 15) (eligible : bitOf (s.get TALLY_masked) r = false) :
    s.tallyGrant true b r ns = (((s.waitShown b ns true).waitMost b ns (TALLY_WAITB_0 b)).count (TALLY_GRANTS_0 r)).quotaUsed r := by
  refine (if_neg ?_).trans ?_
  · rw [Bool.true_and, eligible, Bool.or_false, decide_eq_true_iff]
    omega
  · rfl

/-- What a grant shows of its wait, the high water of which stands in f (R226). -/
def State.waitNoted (s z : State) (b ns : Nat) (f : Fld) : Prop :=
  (b < 16 → z.get f = max (s.get f) (min ns (2 ^ f.w - 1)) % 2 ^ f.w) ∧
    (1023 ≤ ns → z.get TALLY_sat_count = s.oneMore TALLY_sat_count ∧ bitOf (z.get (rawOf 0x0D)) 0 = true) ∧
    (ns < 1023 → z.get TALLY_sat_count = s.get TALLY_sat_count)

/-- The state after the wait of a grant is shown; of the page it changes the count of long waits, INT_RAW and the high water only. -/
theorem State.waited_spec (s : State) (b ns : Nat) (pB : Bool) {f : Fld} (page : f.pageOf = 0x0D) (sat : f.key ≠ TALLY_sat_count.key) (raw : f.key ≠ (rawOf 0x0D).key) :
    s.waitNoted ((s.waitShown b ns pB).waitMost b ns f) b ns f ∧ ((s.waitShown b ns pB).waitMost b ns f).tally = s.tally ∧
      ∀ g : Fld, g.pageOf = 0x0D → g.key ≠ TALLY_sat_count.key → g.key ≠ (rawOf 0x0D).key → (b < 16 → g.key ≠ f.key) →
        ((s.waitShown b ns pB).waitMost b ns f).get g = s.get g := by
  have most {g : Fld} (h : g.key ≠ f.key) : ((s.waitShown b ns pB).waitMost b ns f).get g = (s.waitShown b ns pB).get g := State.get_waitMost_ne fun _ => h
  refine ⟨⟨fun bank => ?_, fun long => ?_, fun short => ?_⟩, (State.waitMost_tally _ _ _ _).trans (s.waitShown_tally _ _ _),
    fun g page hs hr hf => (State.get_waitMost_ne hf).trans (State.get_waitShown page hs hr)⟩
  · rw [State.get_waitMost _ _ _ bank, State.get_waitShown page sat raw]
  · rw [most sat.symm, most raw.symm]
    exact State.waitShown_long long
  · rw [most sat.symm, State.waitShown_short short]

/-- A grant of port A. -/
theorem State.tallyGrant_A_spec (s : State) (r ns : Nat) (hb : b ≤ 16) : s.waitNoted (s.tallyGrant false b r ns) b ns (TALLY_WAITA_0 b) ∧
    (s.tallyGrant false b r ns).tally = s.tally ∧ (s.tallyGrant false b r ns).get TALLY_masked = s.get TALLY_masked := by
  obtain ⟨noted, tally, rest⟩ := s.waited_spec b ns false (f := TALLY_WAITA_0 b) (tallyPage _ _ _ _ (by omega)) (tallyKey_ne (by omega)) (tallyKey_ne (by omega))
  rw [State.tallyGrant_A]
  exact ⟨noted, tally, rest _ (by decide) (by decide) (by decide) fun _ => tallyKey_ne (by omega)⟩

/-- A grant of port B to a requester that is not masked. -/
theorem State.tallyGrant_B_spec (ns : Nat) (hb : b ≤ 16) (hr : r < 15) (eligible : bitOf (s.get TALLY_masked) r = false) : let z := s.tallyGrant true b r ns
    let u := SMap.get s.tally.used r 0 + 1
    s.waitNoted z b ns (TALLY_WAITB_0 b) ∧ z.get (TALLY_GRANTS_0 r) = s.oneMore (TALLY_GRANTS_0 r) ∧
      (s.flag (TALLY_HP_0 r) = false → z.tally = s.tally ∧ z.get TALLY_masked = s.get TALLY_masked) ∧
      (s.flag (TALLY_HP_0 r) = true → SMap.get z.tally.used r 0 = u ∧ (u < s.get (TALLY_HP_1 r) → z.get TALLY_masked = s.get TALLY_masked) ∧
        (s.get (TALLY_HP_1 r) ≤ u → bitOf (z.get TALLY_masked) r = true ∧ bitOf (z.get (rawOf 0x0D)) 2 = true)) := by
  obtain ⟨⟨most, long, short⟩, tally, rest⟩ := s.waited_spec b ns true (f := TALLY_WAITB_0 b) (tallyPage _ _ _ _ (by omega)) (tallyKey_ne (by omega)) (tallyKey_ne (by omega))
  dsimp only
  rw [State.tallyGrant_B hr eligible]
  generalize (s.waitShown b ns true).waitMost b ns (TALLY_WAITB_0 b) = w at most long short tally rest ⊢
  have counted {o l v d : Nat} (ho : o < 0x140) (h : l < 32) : (w.count (TALLY_GRANTS_0 r)).get ⟨0x0D, o, l, v, d, 0⟩ = w.get ⟨0x0D, o, l, v, d, 0⟩ :=
    State.get_count_ne (tallyKey_ne (o' := 0x140 + 4 * r) (l' := 0) (by omega))
  have kept {o l v d : Nat} (ho : 0x080 ≤ o ∧ o < 0x100) (h : l < 32) : (w.count (TALLY_GRANTS_0 r)).get ⟨0x0D, o, l, v, d, 0⟩ = s.get ⟨0x0D, o, l, v, d, 0⟩ :=
    (counted (by omega) h).trans (rest ⟨0x0D, o, l, v, d, 0⟩ (tallyPage _ _ _ _ (by omega)) (tallyKey_ne (o' := 0x030) (l' := 0) (by omega))
      (tallyKey_ne (o' := 0x020) (l' := 0) (by omega)) fun _ => tallyKey_ne (o' := 0x100 + 4 * b) (l' := 0) (by omega))
  have hp0 : (w.count (TALLY_GRANTS_0 r)).get (TALLY_HP_0 r) = s.get (TALLY_HP_0 r) := kept (by omega) (by decide)
  have hp1 : (w.count (TALLY_GRANTS_0 r)).get (TALLY_HP_1 r) = s.get (TALLY_HP_1 r) := kept (by omega) (by decide)
  have mask : (w.count (TALLY_GRANTS_0 r)).get TALLY_masked = s.get TALLY_masked :=
    (counted (by decide) (by decide)).trans (rest TALLY_masked (by decide) (by decide) (by decide) fun _ => tallyKey_ne (o' := 0x100 + 4 * b) (l' := 0) (by omega))
  refine ⟨⟨fun bank => ?_, fun far => ⟨?_, ?_⟩, fun near => ?_⟩, ?_, fun soft => ?_, fun hard => ?_⟩
  · rw [State.get_quotaUsed (g := TALLY_WAITB_0 b) (tallyPage _ _ _ _ (by omega)) (tallyKey_ne (by omega)) (tallyKey_ne (by omega)), ← most bank]
    exact counted (by omega) (by decide)
  · rw [State.get_quotaUsed (by decide) (by decide) (by decide), ← (long far).1]
    exact counted (by decide) (by decide)
  · exact State.quotaUsed_raw (by decide) ((congrArg (bitOf · 0) (counted (by decide) (by decide))).trans (long far).2)
  · rw [State.get_quotaUsed (by decide) (by decide) (by decide), ← short near]
    exact counted (by decide) (by decide)
  · rw [State.get_quotaUsed (g := TALLY_GRANTS_0 r) (tallyPage _ _ _ _ (by omega)) (tallyKey_ne (by omega)) (tallyKey_ne (by omega)), State.get_count, State.oneMore,
      State.oneMore, rest (TALLY_GRANTS_0 r) (tallyPage _ _ _ _ (by omega)) (tallyKey_ne (by omega)) (tallyKey_ne (by omega)) fun _ => tallyKey_ne (by omega)]
  · rw [State.quotaUsed_soft ((congrArg (· != 0) hp0).trans soft)]
    exact ⟨tally, mask⟩
  · have spent := State.quotaUsed_hard hr ((congrArg (· != 0) hp0).trans hard)
    rw [hp1, mask, show (w.count (TALLY_GRANTS_0 r)).tally = s.tally from tally] at spent
    exact spent

end Sys2Proof.Machine
end

section
/-! TallymanAndLatchedReads: reads that latch a high word or clear a counter (10 R291; 23 R566; 00 R11). -/

namespace Sys2Proof.Machine

variable {s : State} {a : Acc} {page off : Nat}

/-- Where a register has a single field from bit 0, which a read shows, the read answers that field. -/
theorem State.plainRead_single {row : Row} {i : Nat} (rows : rowsAt page off = [(row, i)]) (low : row.lo = 0) (shown : row.acc ≠ .wo) :
    s.plainRead a page off = s.get (row.fld page off (s.selOf a page off) i) := by
  simp [State.plainRead, rows, low, shown]

/-- A read changes no field of a register that has one field and does not clear. -/
theorem State.readClear_kept {row : Row} {i : Nat} (rows : rowsAt page off = [(row, i)]) (keeps : row.acc ≠ .rc) : s.readClear a page off = s := by
  simp [State.readClear, rows, keeps, State.each]

/-- A read puts the single field of a register that clears to its reset value. -/
theorem State.readClear_single {row : Row} {i : Nat} (rows : rowsAt page off = [(row, i)]) (clears : row.acc = .rc) :
    s.readClear a page off = s.set (row.fld page off (s.selOf a page off) i) (row.rst (pageInst page) i) := by
  simp [State.readClear, rows, clears, State.each]

/-! ## The error counter of a page (00 R11) -/

/-- ERR_CNT, which stands in every page's table. -/
def errorRow : Row := ⟨0x030, 1, 0, 0, 16, .rc, fun _ _ => 0, id⟩

theorem rowsAt_errors (h : page ≤ 0x65) : rowsAt page 0x030 = [(errorRow, 0)] := by
  interval_cases page <;> rfl

theorem State.selOf_errors (s : State) (a : Acc) (page : Nat) : s.selOf a page 0x030 = 0 := by
  unfold State.selOf
  split
  · rfl
  · split
    · rfl
    · split <;> rfl

theorem State.regAbsent_errors (s : State) (page : Nat) : s.regAbsent page 0x030 = false := by
  unfold State.regAbsent
  split
  · split <;> rfl
  · split <;> simp

theorem State.liveRead_errors (s : State) (a : Acc) (page : Nat) : s.liveRead a page 0x030 = none := by
  unfold State.liveRead
  rw [if_neg (by omega), if_neg (by omega)]
  split <;> rfl

theorem State.readLatch_errors (s : State) (a : Acc) (page : Nat) : s.readLatch a page 0x030 = s := by
  unfold State.readLatch
  split <;> rfl

theorem State.readAlso_errors (s : State) (page : Nat) : s.readAlso page 0x030 = s := by
  unfold State.readAlso
  split <;> rfl

theorem pagePresent_le (h : s.pagePresent page = true) : page ≤ 0x65 := by
  by_contra above
  rw [State.pagePresent, if_neg (by omega), if_neg (by omega), if_neg (by omega), if_neg (by omega), if_neg (by omega), if_neg (by omega), if_neg (by omega),
    if_neg (by omega), if_neg (by omega), if_neg (by omega)] at h
  exact above (of_decide_eq_true h)

theorem State.readAt_errors (on : s.power = .run) (firmware : a.level ≠ 0) (present : s.pagePresent page = true) :
    s.readAt a page 0x030 false = (s.set ⟨page, 0x030, 0, 16, 0, 0⟩ 0, .value (s.get ⟨page, 0x030, 0, 16, 0, 0⟩)) := by
  have rows := rowsAt_errors (pagePresent_le present)
  rw [State.readAt_page on firmware present (by omega), State.pageRead_fields present (s.regAbsent_errors page) (by decide) (s.liveRead_errors a page),
    s.readLatch_errors, State.readClear_single rows rfl, State.readAlso_errors, State.plainRead_single rows rfl (by decide), s.selOf_errors]
  rfl

theorem State.readGives_errors (on : s.power = .run) (firmware : a.level ≠ 0) (present : s.pagePresent page = true) :
    s.readGives (.readClearAccess a page 0x030) a (0x40000030 + 0x1000 * page) (s.set ⟨page, 0x030, 0, 16, 0, 0⟩ 0) (.value (s.get ⟨page, 0x030, 0, 16, 0, 0⟩)) := by
  rw [show 0x40000030 + 0x1000 * page = regAddr page 0x030 by unfold regAddr; omega]
  exact State.readGives_of_readAt rfl firmware (State.readAt_errors on firmware present)

/-! ## Low words whose read latches the high word (R291, R566) -/

/-- A register of one field from bit 0, whose read does nothing beside what it latches. -/
theorem State.readAt_latched {row : Row} {i : Nat} (on : s.power = .run) (firmware : a.level ≠ 0) (present : s.pagePresent page = true) (no_pop : page ≠ 0x0E)
    (there : s.regAbsent page off = false) (plain : off ∉ [0x000, 0x004, 0x008, 0x020, 0x02C, 0x028]) (live : s.liveRead a page off = none)
    (rows : rowsAt page off = [(row, i)]) (low : row.lo = 0) (keeps : row.acc ≠ .rc) (shown : row.acc ≠ .wo) (also : ∀ t : State, t.readAlso page off = t) :
    s.readAt a page off false = (s.readLatch a page off, .value (s.get (row.fld page off (s.selOf a page off) i))) := by
  rw [State.readAt_page on firmware present fun h => no_pop h.1, State.pageRead_fields present there plain live,
    State.readClear_kept rows keeps, also, State.plainRead_single rows low shown]

/-- A register of the page that the variant lacks. -/
theorem State.readAt_absent (on : s.power = .run) (firmware : a.level ≠ 0) (present : s.pagePresent page = true) (no_pop : page ≠ 0x0E)
    (absent : s.regAbsent page off = true) : s.readAt a page off false = (s, .value 0) := by
  rw [State.readAt_page on firmware present fun h => no_pop h.1, State.pageRead_absent absent]

theorem rowsAt_txlast {n : Nat} (h : n < 6) : rowsAt 0x39 (0x060 + 8 * n) = [(⟨0x060, 6, 8, 0, 32, .ro, fun _ _ => 0, id⟩, n)] := by
  interval_cases n <;> rfl

theorem State.regAbsent_txlast (s : State) {n : Nat} (h : n < 6) : s.regAbsent 0x39 (0x060 + 8 * n) = !bitOf (s.byVar 0x3F 0x33 0x13) n := by
  interval_cases n <;> rfl

theorem State.readLatch_txlast (s : State) (a : Acc) {n : Nat} (h : n < 6) :
    s.readLatch a 0x39 (0x060 + 8 * n) = s.set (TS_TXLAST_HI_0 n (copyOf a)) (s.get (txlastHi n)) := by
  interval_cases n <;> rfl

theorem State.selOf_txlast (s : State) (a : Acc) {n : Nat} (h : n < 6) : s.selOf a 0x39 (0x060 + 8 * n) = 0 := by
  interval_cases n <;> rfl

theorem State.readGives_txlast {x : Fin 6} (on : s.power = .run) (firmware : a.level ≠ 0) (here : bitOf (s.byVar 0x3F 0x33 0x13) x.val = true) :
    s.readGives (.tsTxlastRead a x) a (0x40039060 + 8 * x.val) (s.set (TS_TXLAST_HI_0 x.val (copyOf a)) (s.get (txlastHi x.val)))
      (.value (s.get (TS_TXLAST_LO_0 x.val))) := by
  have read := State.readAt_latched (a := a) on firmware rfl (by decide) ((s.regAbsent_txlast x.isLt).trans (by rw [here]; rfl))
    (by simp; omega) rfl (rowsAt_txlast x.isLt) rfl (by decide) (by decide) fun _ => rfl
  rw [s.readLatch_txlast a x.isLt, s.selOf_txlast a x.isLt] at read
  rw [show 0x40039060 + 8 * x.val = regAddr 0x39 (0x060 + 8 * x.val) by unfold regAddr; omega]
  exact State.readGives_of_readAt rfl firmware read

theorem State.readGives_txlast_absent {x : Fin 6} (on : s.power = .run) (firmware : a.level ≠ 0) (lacks : bitOf (s.byVar 0x3F 0x33 0x13) x.val = false) :
    s.readGives (.tsTxlastRead a x) a (0x40039060 + 8 * x.val) s (.value 0) := by
  rw [show 0x40039060 + 8 * x.val = regAddr 0x39 (0x060 + 8 * x.val) by unfold regAddr; omega]
  exact State.readGives_of_readAt rfl firmware (State.readAt_absent on firmware rfl (by decide) ((s.regAbsent_txlast x.isLt).trans (by rw [lacks]; rfl)))

theorem State.regAbsent_pcap (s : State) : s.regAbsent 0x39 0x0A4 = s.isS := Bool.and_true _

theorem State.readGives_pcap (on : s.power = .run) (firmware : a.level ≠ 0) (here : s.isS = false) :
    s.readGives (.tsPcapRead a) a 0x400390A4 (s.set (TS_PCAP_HI_0 (copyOf a)) (s.get pcapHi)) (.value (s.get TS_PCAP_LO_0)) :=
  State.readGives_of_readAt rfl firmware (State.readAt_latched on firmware rfl (by decide) (s.regAbsent_pcap.trans here) (by decide) rfl
    (row := ⟨0x0A4, 1, 0, 0, 32, .ro, fun _ _ => 0, id⟩) (i := 0) rfl rfl (by decide) (by decide) fun _ => rfl)

theorem State.readGives_pcap_absent (on : s.power = .run) (firmware : a.level ≠ 0) (lacks : s.isS = true) :
    s.readGives (.tsPcapRead a) a 0x400390A4 s (.value 0) :=
  State.readGives_of_readAt rfl firmware (State.readAt_absent on firmware rfl (by decide) (s.regAbsent_pcap.trans lacks))

theorem State.readGives_hdbgT (on : s.power = .run) (firmware : a.level ≠ 0) :
    s.readGives (.hdbgTRead a) a 0x40065048 (s.set (HDBG_T_HI_0 (copyOf a)) (s.get State.attach.HDBG_TS_HI)) (.value (s.get HDBG_T_LO_0)) :=
  State.readGives_of_readAt rfl firmware (State.readAt_latched (page := 0x65) (off := 0x048) on firmware rfl (by decide) rfl (by decide) rfl
    (row := ⟨0x048, 1, 0, 0, 32, .ros, fun _ _ => 0, id⟩) (i := 0) rfl rfl (by decide) (by decide) fun _ => rfl)

/-! ## The period's end and the tags (R227 to R229) -/

theorem State.quotaPeriodEnd_spec (s : State) : ∃ z, exec .quotaPeriodEnd s = .next z ∧ z.get TALLY_masked = 0 ∧ z.tally.used = [] ∧
    ∀ g : Fld, g.key ≠ TALLY_masked.key → z.get g = s.get g :=
  ⟨_, rfl, State.get_set_same _ _ _, rfl, fun _ h => State.get_set_ne _ h⟩

theorem State.fabricTagFreed_spec (s : State) (sys : Bool) : let f := if sys then TALLY_TAGS_13 else TALLY_TAGS_0
    ∃ z, exec (.fabricTagFreed sys) s = .next z ∧ z.get f = (s.get f - 1) % 2 ^ f.w ∧ s.keepsBut z [0x0D] ∧ ∀ g : Fld, g.key ≠ f.key → z.get g = s.get g := by
  have freed (f : Fld) (h : f.pageOf ∈ [0x0D]) : (s.set f (s.get f - 1)).get f = (s.get f - 1) % 2 ^ f.w ∧ s.keepsBut (s.set f (s.get f - 1)) [0x0D] ∧
      ∀ g : Fld, g.key ≠ f.key → (s.set f (s.get f - 1)).get g = s.get g :=
    ⟨State.get_set_same _ _ _, State.keepsBut_set State.keepsBut_refl h, fun _ h => State.get_set_ne _ h⟩
  cases sys with
  | false => exact ⟨_, rfl, freed TALLY_TAGS_0 (by decide)⟩
  | true => exact ⟨_, rfl, freed TALLY_TAGS_13 (by decide)⟩

/-- Settles O42: a wait is shown, counted against the quota and reported in that order; a read answers its page's field and latches or clears beside it. That a read
of a low word latches the high word for the reader's copy is log entry 34, that a grant of a masked requester or of one beyond the page does nothing log entry 3. -/
theorem tallymanAndLatchedReads : Obligations.TallymanAndLatchedReads := by
  unfold Obligations.TallymanAndLatchedReads
  refine ⟨fun s j r ns => ⟨?_, fun refused => ?_, fun hr eligible => ?_⟩, fun s => ⟨s.quotaPeriodEnd_spec, s.fabricTagFreed_spec⟩, fun s a on firmware =>
    ⟨fun x => ⟨State.readGives_txlast on firmware, State.readGives_txlast_absent on firmware⟩, State.readGives_pcap on firmware, State.readGives_pcap_absent on firmware,
      State.readGives_hdbgT on firmware, fun page present => State.readGives_errors on firmware present⟩⟩
  · exact ⟨s.tallyGrant false j.val r ns, rfl, s.tallyGrant_A_spec r ns (by omega)⟩
  · exact congrArg Host.Outcome.next (State.tallyGrant_masked refused)
  · exact ⟨s.tallyGrant true j.val r ns, rfl, State.tallyGrant_B_spec ns (by omega) hr eligible⟩

end Sys2Proof.Machine
end

section
/-! The consist network's records and the registers of a port's page, of the Porter's and of the Almanac's (09 R237, R255, R261, R267). -/

namespace Sys2Proof.Machine

variable {s t u : State} {x : Nat}

/-! ## Records of the consist network (R267) -/

theorem RecordKeeps.consRecord {P : State → Prop} (k : RecordKeeps P) {key code sev w0 w1 : Nat} {limited : Bool} (hs : sev < 8) (h : P s) :
    P (s.consRecord key code sev w0 w1 limited) := by
  unfold State.consRecord State.once
  dsimp only
  split
  · split
    · exact RecordKeeps.recordX k hs (k.updLg _ _ h)
    · exact h
  · exact RecordKeeps.recordX k hs h

theorem State.recordKeeps_keepsBut (s : State) {ps : List Nat} (h7 : 7 ∈ ps) (hA : 0x0A ∈ ps) : RecordKeeps fun t => s.keepsBut t ps where
  set _ _ _ hf h := State.keepsBut_set h (hf.elim (fun e => e ▸ h7) fun e => e ▸ hA)
  updLg _ _ h := State.keepsBut_updLg h
  hubWrite _ _ _ h := State.keepsBut_hubWrite h
  deliver _ _ h := State.keepsBut_courDeliver h hA

section
variable {key code sev w0 w1 : Nat} {limited : Bool} (hs : sev < 8)
include hs

theorem State.keepsBut_consRecord {ps : List Nat} (h7 : 7 ∈ ps) (hA : 0x0A ∈ ps) (h : s.keepsBut t ps) : s.keepsBut (t.consRecord key code sev w0 w1 limited) ps :=
  RecordKeeps.consRecord (s.recordKeeps_keepsBut h7 hA) hs h

theorem State.rest_consRecord : (s.consRecord key code sev w0 w1 limited).rest = s.rest :=
  (State.keepsBut_consRecord (ps := [7, 0x0A]) hs (by simp) (by simp) State.keepsBut_refl).1

theorem State.get_consRecord {g : Fld} (h7 : g.pageOf ≠ 7) (hA : g.pageOf ≠ 0x0A) : (s.consRecord key code sev w0 w1 limited).get g = s.get g :=
  (State.keepsBut_consRecord (ps := [7, 0x0A]) hs (by simp) (by simp) State.keepsBut_refl).2 g (by simp [h7, hA])

end

theorem State.cons_of_rest (h : t.rest = s.rest) : t.cons = s.cons := by
  simp only [State.rest, Prod.mk.injEq] at h
  obtain ⟨⟨-, -, -, -, -, -, -, -, -, -, -, -, -, -, cons, -⟩, -⟩ := h
  exact cons

theorem State.wire_of_rest (h : t.rest = s.rest) : t.wire = s.wire := by
  simp only [State.rest, Prod.mk.injEq] at h
  obtain ⟨-, -, wire, -⟩ := h
  exact wire

/-! ## The registers of a port's page -/

theorem ethKey (x o l w r : Nat) : (⟨0x30 + x, o, l, w, r, 0⟩ : Fld).key = (0x30 + x) * 131072 + (o * 32 + l) := by
  simp only [Fld.key]
  omega

theorem ethKey_ne {o l w r o' l' w' r' : Nat} (h : o * 32 + l ≠ o' * 32 + l') :
    (⟨0x30 + x, o, l, w, r, 0⟩ : Fld).key ≠ (⟨0x30 + x, o', l', w', r', 0⟩ : Fld).key := by
  rw [ethKey, ethKey]
  omega

theorem ethPage {o l w r : Nat} (hx : x < 4) (h : o * 32 + l < 131072) : (⟨0x30 + x, o, l, w, r, 0⟩ : Fld).pageOf = 0x30 + x := by
  rw [Fld.pageOf, ethKey]
  omega

theorem State.nPorts_le (s : State) : s.nPorts ≤ 4 := by
  unfold State.nPorts State.byVar
  split <;> decide

/-! ## The Porter's switches (R257, R258) -/

/-- The registers that switches and frames are formed from: DOZE, the pair's state, Almanac and Clockmaker, the Porter's state, active bank and windows, the
ports' addresses, and how a port is stamped. -/
def frameKey (k : Nat) : Prop :=
  k / 131072 % 128 ∈ [0x02, 0x34, 0x36, 0x38] ∨
  (k / 131072 % 128 = 0x37 ∧ (k % 131072 = 0x010 * 32 ∨ k % 131072 = 0x050 * 32 ∨ 0x100 * 32 ≤ k % 131072)) ∨
  ((0x30 ≤ k / 131072 % 128 ∧ k / 131072 % 128 < 0x34) ∧ 0x040 * 32 ≤ k % 131072 ∧ k % 131072 < 0x048 * 32) ∨
  (k / 131072 % 128 = 0x39 ∧ k % 131072 < 0x060 * 32)

theorem frameKey_window (w : Nat) : frameKey (PORTER_W_SCHED_12 w).key ∧ frameKey (PORTER_W_SCHED_16 w).key ∧ frameKey (PORTER_W_BUDGET_0 w).key := by
  and_intros <;> refine .inr (.inl ?_) <;> simp only [PORTER_W_SCHED_12, PORTER_W_SCHED_16, PORTER_W_BUDGET_0, Fld.key] <;> omega

theorem frameKey_porter : frameKey PWR_doze.key ∧ frameKey PORTER_state.key ∧ frameKey PORTER_STATE_0.key := by
  unfold frameKey
  decide

/-- What decides whether a port's switch is open. -/
theorem State.switchOpen_congr (latch : t.latch = s.latch) (regs : ∀ g : Fld, frameKey g.key → t.get g = s.get g)
    (opened : t.cons.porter.opened = s.cons.porter.opened)
    (silenced : bitOf (t.get PORTER_STATE_4) x = bitOf (s.get PORTER_STATE_4) x)
    (sent : ∀ e, SMap.get t.cons.porter.sent (4 * e + x) 0 = SMap.get s.cons.porter.sent (4 * e + x) 0) : t.switchOpen x = s.switchOpen x := by
  obtain ⟨doze, state, bank⟩ := frameKey_porter
  have lets (e : Nat) : t.winLets e x = s.winLets e x := by
    have entry : t.actW e = s.actW e := by rw [State.actW, regs _ bank]; rfl
    obtain ⟨kind, ports, budget⟩ := frameKey_window (s.actW e)
    simp only [State.winLets, entry, regs _ kind, regs _ ports, regs _ budget, sent]
  simp only [State.switchOpen, State.flag, State.passive_congr latch, regs _ doze, regs _ state, opened, silenced, lets]

theorem State.switchOpen_switchShow (s : State) (x : Nat) : s.switchShow.switchOpen x = s.switchOpen x :=
  State.switchOpen_congr rfl (fun _ k => State.get_set_ne _ fun e => absurd (e ▸ k) (by unfold frameKey; decide)) rfl
    (congrArg (bitOf · x) (State.get_set_ne _ (by decide))) fun _ => rfl

/-- PORTER_STATE shows the switches of the ports there are. -/
theorem State.switchShow_shows (s : State) (h : x < s.nPorts) : bitOf (s.switchShow.get PORTER_STATE_8) x = s.switchShow.switchOpen x := by
  have width : x < 4 := Nat.lt_of_lt_of_le h s.nPorts_le
  rw [State.switchOpen_switchShow]
  unfold State.switchShow
  rw [State.get_set_same, bitOf_mod_two_pow (n := PORTER_STATE_8.w) width, ← List.foldl_filter, bitOf_foldl_setBit]
  simp [h]

theorem State.switchOpen_none (h : s.cons.porter.opened = []) : s.switchOpen x = false := by
  simp [State.switchOpen, h]

theorem State.switchShow_none (h : s.cons.porter.opened = []) : s.switchShow.get PORTER_STATE_8 = 0 := by
  have shut (m x : Nat) : (if s.switchOpen x = true then setBit m x else m) = m := if_neg (by rw [State.switchOpen_none h]; exact Bool.false_ne_true)
  unfold State.switchShow
  rw [State.get_set_same]
  simp [shut]

end Sys2Proof.Machine
end

section
/-! ConsistPortsPorterAndBanks: links of the ports, the Porter's strobe and windows, Almanac banks (09 R239, R244, R245, R255 to R257, R259, R261). -/

namespace Sys2Proof.Machine

variable {s t : State} {x : Nat}

/-! ## A link lost or trained (R261) -/

/-- What follows a change of a link: bit 0 of the port's page and a record. -/
def State.portTold (s : State) (x : Nat) : State := (s.raiseInt (0x30 + x) 0).consRecord x (0x3001 + x) 4 x (s.get (ETH_LINK_DOWNS_0 x)) true

theorem State.get_portTold {o l w r : Nat} (hx : x < 4) (h : o * 32 + l ≠ 1024) (hl : o * 32 + l < 131072) :
    (s.portTold x).get ⟨0x30 + x, o, l, w, r, 0⟩ = s.get ⟨0x30 + x, o, l, w, r, 0⟩ := by
  have page : (⟨0x30 + x, o, l, w, r, 0⟩ : Fld).pageOf = 0x30 + x := ethPage hx hl
  exact (State.get_consRecord (by decide) (by omega) (by omega)).trans (State.get_raiseInt_ne (by omega) (ethKey_ne h))

theorem State.raw_portTold (s : State) (hx : x < 4) : bitOf ((s.portTold x).get (rawOf (0x30 + x))) 0 = true := by
  have page : (rawOf (0x30 + x)).pageOf = 0x30 + x := ethPage hx (by decide)
  rw [State.portTold, State.get_consRecord (by decide) (by omega) (by omega)]
  exact State.bitOf_raw_raiseInt (by omega) (by omega) (by decide)

theorem State.keepsBut_portTold (hx : x < 4) (h : s.keepsBut t [0x30 + x, 7, 0x0A]) : s.keepsBut (t.portTold x) [0x30 + x, 7, 0x0A] :=
  State.keepsBut_consRecord (by decide) (by simp) (by simp)
    (State.keepsBut_raiseInt h (by simp) (by rw [Nat.mod_eq_of_lt (by omega)]; exact List.mem_cons_self))

theorem State.keepsBut_setPort {o l w r v : Nat} (hx : x < 4) (h : s.keepsBut t [0x30 + x, 7, 0x0A]) (hl : o * 32 + l < 131072 := by decide) :
    s.keepsBut (t.set ⟨0x30 + x, o, l, w, r, 0⟩ v) [0x30 + x, 7, 0x0A] := State.keepsBut_set h (by rw [ethPage hx hl]; exact List.mem_cons_self)

theorem State.linkLoss_idle (h : s.nPorts ≤ x ∨ s.flag (ETH_LINK_STAT_0 x) = false) : s.linkLoss x = s :=
  if_pos (h.imp_right fun e => by rw [e]; rfl)

theorem State.linkLoss_up (there : x < s.nPorts) (linked : s.flag (ETH_LINK_STAT_0 x) = true) :
    s.linkLoss x = ((s.portDown x).count (ETH_LINK_DOWNS_0 x)).portTold x := if_neg (by simp [linked, there])

theorem State.linkLoss_spec (s : State) (hx : x < 4) : let z := ((s.portDown x).count (ETH_LINK_DOWNS_0 x)).portTold x
    z.get (ETH_up x) = 0 ∧ z.get (ETH_LINK_STAT_0 x) = 0 ∧ z.get (ETH_LINK_STAT_1 x) = 0 ∧ z.get (ETH_LINK_STAT_2 x) = 0 ∧ z.get (ETH_LINK_STAT_3 x) = 0 ∧
    z.get (ETH_LINK_DOWNS_0 x) = s.oneMore (ETH_LINK_DOWNS_0 x) ∧ bitOf (z.get (rawOf (0x30 + x))) 0 = true ∧ s.keepsBut z [0x30 + x, 7, 0x0A] := by
  refine ⟨?_, ?_, ?_, ?_, ?_, ?_, State.raw_portTold _ hx, State.keepsBut_portTold hx ?_⟩
  rotate_right
  · exact State.keepsBut_count (State.keepsBut_setPort hx (State.keepsBut_setPort hx (State.keepsBut_setPort hx (State.keepsBut_setPort hx
      (State.keepsBut_setPort hx State.keepsBut_refl))))) (by rw [show (ETH_LINK_DOWNS_0 x).pageOf = 0x30 + x from ethPage hx (by decide)]; exact List.mem_cons_self)
  all_goals refine (State.get_portTold hx (by decide) (by decide)).trans ?_
  all_goals simp [State.count, State.addSat, State.oneMore, State.portDown, State.get_set_ne, ethKey, ETH_up, ETH_LINK_STAT_0, ETH_LINK_STAT_1, ETH_LINK_STAT_2,
    ETH_LINK_STAT_3, ETH_LINK_DOWNS_0]

theorem State.training_idle {fec : Bool} (x : Fin 4) (h : s.nPorts ≤ x.val ∨ s.flag (ETH_LINK_CTL_0 x.val) = false ∨ s.flag (ETH_up x.val) = true) :
    exec (.portTrainingComplete x fec) s = .next s :=
  congrArg Host.Outcome.next (if_pos (h.imp_right (.imp_left fun e => by rw [e]; rfl)))

/-- The registers of a port whose training is complete. -/
def State.portUp (s : State) (x : Nat) (fec : Bool) : State :=
  ((((s.set (ETH_up x) 1).set (ETH_LINK_STAT_0 x) 1).set (ETH_LINK_STAT_1 x) 1).setB (ETH_LINK_STAT_2 x) (fec && s.flag (ETH_LINK_CTL_1 x))).set (ETH_LINK_STAT_3 x) 0

theorem exec_training_enabled {fec : Bool} (x : Fin 4) (there : x.val < s.nPorts) (enabled : s.flag (ETH_LINK_CTL_0 x.val) = true)
    (down : s.flag (ETH_up x.val) = false) :
    exec (.portTrainingComplete x fec) s = .next ((s.portUp x.val fec).portTold x.val) := by
  have fecKept : (((s.set (ETH_up x.val) 1).set (ETH_LINK_STAT_0 x.val) 1).set (ETH_LINK_STAT_1 x.val) 1).flag (ETH_LINK_CTL_1 x.val) =
      s.flag (ETH_LINK_CTL_1 x.val) := by
    simp [State.flag, State.get_set_ne, ethKey, ETH_up, ETH_LINK_STAT_0, ETH_LINK_STAT_1, ETH_LINK_CTL_1]
  rw [State.portUp, ← fecKept]
  exact congrArg Host.Outcome.next (if_neg (by simp [there, enabled, down]))

theorem State.portUp_spec (s : State) (fec : Bool) (hx : x < 4) : let z := (s.portUp x fec).portTold x
    z.get (ETH_up x) = 1 ∧ z.get (ETH_LINK_STAT_0 x) = 1 ∧ z.get (ETH_LINK_STAT_1 x) = 1 ∧ z.get (ETH_LINK_STAT_2 x) = b2n (fec && s.flag (ETH_LINK_CTL_1 x)) ∧
    z.get (ETH_LINK_STAT_3 x) = 0 ∧ bitOf (z.get (rawOf (0x30 + x))) 0 = true ∧ s.keepsBut z [0x30 + x, 7, 0x0A] := by
  refine ⟨?_, ?_, ?_, ?_, ?_, State.raw_portTold _ hx, State.keepsBut_portTold hx (State.keepsBut_setPort hx (State.keepsBut_setPort hx (State.keepsBut_setPort hx
    (State.keepsBut_setPort hx (State.keepsBut_setPort hx State.keepsBut_refl)))))⟩
  all_goals refine (State.get_portTold hx (by decide) (by decide)).trans ?_
  case refine_4 => exact (State.get_set_ne _ (ethKey_ne (by decide))).trans (State.get_setB _ (ETH_LINK_STAT_2 x) _ Nat.one_pos)
  all_goals simp [State.portUp, State.setB, State.get_set_ne, ethKey, ETH_up, ETH_LINK_STAT_0, ETH_LINK_STAT_1, ETH_LINK_STAT_2, ETH_LINK_STAT_3]

/-! ## Strobes (R255, R256) -/

theorem State.strobe_taken {t : Nat} (synced : s.get PORTER_state = 2) (near : s.inTol t (s.cons.porter.last + s.cons.porter.len) = true) :
    s.strobe t = s.updW fun p => { p with len := t - p.last, last := t, rejects := 0 } := by
  unfold State.strobe
  rw [if_pos synced, if_pos near]

/-- A strobe outside the tolerance: counted, and the cycle goes on at its own length. -/
def State.strobeMissed (s : State) : State :=
  (s.count PORTER_rej_count).updW fun p => { p with last := s.cons.porter.last + s.cons.porter.len, rejects := s.cons.porter.rejects + 1 }

theorem State.strobe_missed {t : Nat} (synced : s.get PORTER_state = 2) (far : s.inTol t (s.cons.porter.last + s.cons.porter.len) = false) :
    s.strobe t = if 3 ≤ s.cons.porter.rejects + 1 then s.strobeMissed.porterUnsync else s.strobeMissed := by
  unfold State.strobe
  rw [if_pos synced, if_neg (by rw [far]; exact Bool.false_ne_true)]
  rfl

theorem State.strobeMissed_spec (s : State) : s.strobeMissed.get PORTER_state = s.get PORTER_state ∧
    s.strobeMissed.get PORTER_rej_count = s.oneMore PORTER_rej_count ∧
    s.strobeMissed.cons.porter = { s.cons.porter with last := s.cons.porter.last + s.cons.porter.len, rejects := s.cons.porter.rejects + 1 } :=
  ⟨State.get_count_ne (by decide), State.get_count _ _, rfl⟩

theorem State.porterUnsync_spec (s : State) : s.porterUnsync.get PORTER_state = 0 ∧ s.porterUnsync.cons.porter.opened = [] ∧
    s.porterUnsync.cons.porter.run = false ∧
    s.porterUnsync.get PORTER_STATE_8 = 0 ∧ bitOf (s.porterUnsync.get (rawOf 0x37)) 0 = true := by
  let shut := (s.set PORTER_state 0).updW fun p => { p with rejects := 0, run := false, opened := [] }
  have cons : s.porterUnsync.cons = shut.cons := State.cons_of_rest ((State.rest_consRecord (by decide)).trans (State.rest_raiseInt _ _ _))
  have own {g : Fld} (h : g.pageOf = 0x37) : s.porterUnsync.get g = (shut.switchShow.raiseInt 0x37 0).get g :=
    State.get_consRecord (by decide) (by omega) (by omega)
  refine ⟨?_, by rw [cons]; rfl, by rw [cons]; rfl, ?_, ?_⟩
  · rw [own (by decide), State.get_raiseInt_ne (by decide) (by decide)]
    exact (State.get_set_ne _ (by decide)).trans (State.get_set_same s PORTER_state 0)
  · rw [own (by decide), State.get_raiseInt_ne (by decide) (by decide)]
    exact State.switchShow_none rfl
  · rw [own (by decide)]
    exact State.bitOf_raw_raiseInt (by decide) (by decide) (by decide)

theorem State.strobe_first {t : Nat} (off : s.get PORTER_state = 0) :
    s.strobe t = (s.set PORTER_state 1).updW fun p => { p with acqLast := some t, acqLen := none, good := 0 } := by
  unfold State.strobe
  rw [if_neg (by omega), if_pos off]

theorem State.strobe_fourth {t a l : Nat} (acquiring : s.get PORTER_state = 1) (last : s.cons.porter.acqLast = some a) (len : s.cons.porter.acqLen = some l)
    (good : s.cons.porter.good = 1) (near : s.inTol t (a + l) = true) :
    s.strobe t = (s.updW fun p => { p with acqLast := some t, acqLen := some (t - a), good := 2 }).porterSynced t (t - a) := by
  unfold State.strobe
  simp only [acquiring, last, len, good, near]
  rfl

theorem State.porterSynced_spec (s : State) (t len : Nat) : (s.porterSynced t len).get PORTER_state = 2 ∧ (s.porterSynced t len).cons.porter.len = len ∧
    (s.porterSynced t len).cons.porter.last = t ∧ (s.porterSynced t len).cons.porter.run = false := by
  have cons : (s.porterSynced t len).cons = ((s.set PORTER_state 2).updW fun p => { p with len := len, last := t, rejects := 0, run := false }).cons :=
    State.cons_of_rest (State.rest_consRecord (by decide))
  exact ⟨(State.get_consRecord (by decide) (by decide) (by decide)).trans (State.get_set_same s PORTER_state 2),
    by rw [cons]; rfl, by rw [cons]; rfl, by rw [cons]; rfl⟩

/-! ## Windows of the Porter (R257) -/

theorem exec_porterWindowOpen_shut {e : Nat} (h : 512 ≤ e ∨ s.get PORTER_state ≠ 2 ∨ s.cons.porter.run = false ∨ s.get (PORTER_W_SCHED_12 (s.actW e)) = 0 ∨
    (s.get (PORTER_W_SCHED_12 (s.actW e)) = 3 ∧ s.inCharge = false) ∨ s.consMute = true) : exec (.porterWindowOpen e) s = .next s :=
  congrArg Host.Outcome.next (if_pos (by simpa using h))

theorem exec_porterWindowOpen_opens {e : Nat}
    (h : ¬ (512 ≤ e ∨ s.get PORTER_state ≠ 2 ∨ s.cons.porter.run = false ∨ s.get (PORTER_W_SCHED_12 (s.actW e)) = 0 ∨
    (s.get (PORTER_W_SCHED_12 (s.actW e)) = 3 ∧ s.inCharge = false) ∨ s.consMute = true)) : exec (.porterWindowOpen e) s =
      .next (s.updW fun p => { p with opened := e :: p.opened.filter (· ≠ e), sent := p.sent.filter fun x => x.1 / 4 ≠ e }).switchShow :=
  congrArg Host.Outcome.next (if_neg (by simpa using h))

/-! ## Almanac banks (R244, R245) -/

theorem State.almRefuse_spec (s : State) {e r : Nat} (he : e < 4096) (hr : r < 16) :
    (s.almRefuse e r).get ALM_VSTAT_0 = e ∧ (s.almRefuse e r).get ALM_VSTAT_12 = r ∧
    (s.almRefuse e r).get ALMANAC_valid = s.get ALMANAC_valid ∧ bitOf ((s.almRefuse e r).get (rawOf 0x36)) 3 = true ∧ s.keepsBut (s.almRefuse e r) [0x36, 7, 0x0A] := by
  have own {g : Fld} (h : g.pageOf = 0x36) : (s.almRefuse e r).get g = (((s.set ALM_VSTAT_0 e).set ALM_VSTAT_12 r).raiseInt 0x36 3).get g :=
    State.get_consRecord (by decide) (by omega) (by omega)
  refine ⟨?_, ?_, ?_, ?_, ?_⟩
  · rw [own (by decide), State.get_raiseInt_ne (by decide) (by decide), State.get_set_ne _ (by decide), State.get_set_same]
    exact Nat.mod_eq_of_lt he
  · rw [own (by decide), State.get_raiseInt_ne (by decide) (by decide), State.get_set_same]
    exact Nat.mod_eq_of_lt hr
  · rw [own (by decide), State.get_raiseInt_ne (by decide) (by decide), State.get_set_ne _ (by decide), State.get_set_ne _ (by decide)]
  · rw [own (by decide)]
    exact State.bitOf_raw_raiseInt (by decide) (by decide) (by decide)
  · exact State.keepsBut_consRecord (by decide) (by simp) (by simp) (State.keepsBut_raiseInt
      (State.keepsBut_set (State.keepsBut_set State.keepsBut_refl (by decide)) (by decide)) (by simp) (by simp))

theorem State.entryRefusal_le (s : State) (all : List Nat) (e : Nat) : s.entryRefusal all e ≤ 4 := by
  unfold State.entryRefusal
  dsimp only
  repeat' split
  all_goals decide

/-- A bank's valid bit is one of two. -/
theorem State.bankValid_bit (s : State) {b : Nat} (hb : b < 2) (v : Bool) : bitOf ((s.bankValid b v).get ALMANAC_valid) b = v := by
  rw [State.bankValid, State.get_set_same, bitOf_mod_two_pow (n := ALMANAC_valid.w) hb]
  cases v
  · simp [bitOf_clrBit]
  · simp [bitOf_setBit]

/-- The entries of the inactive bank. -/
def State.inactive (s : State) : List Nat := (s.listed ALM_E_SCHED_12).filter fun e => e / 4096 = 1 - s.get ALMANAC_active_bank

theorem State.almValidate_sound (h : ∀ e ∈ s.inactive, s.entryRefusal s.inactive e = 0) :
    s.almValidate = ((s.bankValid (1 - s.get ALMANAC_active_bank) true).set ALM_VSTAT_0 0).set ALM_VSTAT_12 0 := by
  have none : s.inactive.find? (fun e => s.entryRefusal s.inactive e != 0) = .none := List.find?_eq_none.2 fun e he => by simp [h e he]
  unfold State.almValidate
  dsimp only
  rw [← State.inactive, none]

theorem State.almValidate_refused {e : Nat} (h : s.inactive.find? (fun e => s.entryRefusal s.inactive e != 0) = some e) :
    s.almValidate = (s.bankValid (1 - s.get ALMANAC_active_bank) false).almRefuse (e % 4096) (s.entryRefusal s.inactive e) := by
  unfold State.almValidate
  dsimp only
  rw [← State.inactive, h]

/-- An arm is refused for entry 0 with a reason, and accepted for a count ahead. -/
theorem State.almArm_invalid (h : bitOf (s.get ALMANAC_valid) (1 - s.get ALMANAC_active_bank) = false) : s.almArm = s.almRefuse 0 0 :=
  if_pos (by rw [h]; rfl)

section
variable (valid : bitOf (s.get ALMANAC_valid) (1 - s.get ALMANAC_active_bank) = true)
include valid

theorem State.almArm_past (past : ahead (s.get ALM_SWITCH_0) (s.get ALM_MCOUNT_0) = false) : s.almArm = s.almRefuse 0 5 :=
  (if_neg (by rw [valid]; exact Bool.false_ne_true)).trans (if_pos (by rw [past]; rfl))

theorem State.almArm_ahead (future : ahead (s.get ALM_SWITCH_0) (s.get ALM_MCOUNT_0) = true) :
    s.almArm = (s.set ALM_VSTAT_16 1).updN fun c => { c with swAt := s.get ALM_SWITCH_0 + 1 } := by
  unfold State.almArm
  rw [valid, future]
  rfl

end

/-! ## The commands -/

theorem exec_porterCommands {a : Acc} (h : s.reaches a 0x37 0x04C) (v : Nat) :
    exec (.porterUnsilence a v) s = .next (s.updW fun p => { p with unsilence := p.unsilence ||| v % 16 }) ∧
    exec (.porterSwitchArm a) s = .next (s.set PORTER_STATE_12 1) :=
  ⟨congrArg Host.Outcome.next (State.writeAt_of_reaches h), congrArg Host.Outcome.next (State.writeAt_of_reaches h)⟩

theorem exec_almCommands {a : Acc} (h : s.reaches a 0x36 0x054) : exec (.almValidate a) s = .next s.almValidate ∧ exec (.almSwitchArm a) s = .next s.almArm ∧
    exec (.almSwitchCancel a) s = .next ((s.set ALM_VSTAT_16 0).updN fun c => { c with swAt := 0 }) :=
  ⟨congrArg Host.Outcome.next (State.writeAt_of_reaches h), congrArg Host.Outcome.next (State.writeAt_of_reaches h),
    congrArg Host.Outcome.next (State.writeAt_of_reaches h)⟩

/-- Settles O31: a link's loss and training, a strobe by the Porter's state, a window opened or closed, and the Almanac's bank commands, each by the lemma above. That
acquisition takes four strobes and in which order a bank's refusals come, a bank that is not valid with reason 0, are log entry 22, that a port, window or address that
the command does not concern stays as it is, log entry 3. -/
theorem consistPortsPorterAndBanks : Obligations.ConsistPortsPorterAndBanks := by
  unfold Obligations.ConsistPortsPorterAndBanks
  refine ⟨?ports, ?strobe, ?window, fun a v s h => exec_porterCommands h v, ?banks, fun mac s => ⟨_, rfl, rfl, rfl, rfl⟩⟩
  case ports =>
    intro x s
    refine ⟨fun idle => ?_, fun there linked => ?_, fun fec => ⟨State.training_idle x, fun there enabled down => ?_⟩⟩
    · exact congrArg Host.Outcome.next (State.linkLoss_idle idle)
    · exact ⟨_, congrArg Host.Outcome.next (State.linkLoss_up there linked), s.linkLoss_spec x.isLt⟩
    · exact ⟨_, exec_training_enabled x there enabled down, s.portUp_spec fec x.isLt⟩
  case strobe =>
    intro t s
    refine ⟨fun synced near => ?_, fun synced far few => ?_, fun synced far third => ?_, fun off => ?_, fun a l acquiring last len good near => ?_⟩
    · exact congrArg Host.Outcome.next (State.strobe_taken synced near)
    · obtain ⟨state, count, porter⟩ := s.strobeMissed_spec
      exact ⟨_, congrArg Host.Outcome.next ((State.strobe_missed synced far).trans (if_neg (by omega))), state.trans synced, count, porter⟩
    · exact ⟨_, congrArg Host.Outcome.next ((State.strobe_missed synced far).trans (if_pos third)), State.porterUnsync_spec _⟩
    · exact ⟨_, congrArg Host.Outcome.next (State.strobe_first off), State.get_set_same s PORTER_state 1, rfl, rfl⟩
    · exact ⟨_, congrArg Host.Outcome.next (State.strobe_fourth acquiring last len good near), State.porterSynced_spec _ t (t - a)⟩
  case window =>
    intro e s
    refine ⟨exec_porterWindowOpen_shut, fun yes => ?_, ?_⟩
    · refine ⟨_, exec_porterWindowOpen_opens yes, List.mem_cons_self, fun f hf => ?_, fun x hx => State.switchShow_shows _ hx⟩
      show f ∈ e :: s.cons.porter.opened.filter (· ≠ e) ↔ _
      simp [hf]
    · refine ⟨_, rfl, fun f => ?_, fun x hx => State.switchShow_shows _ hx⟩
      show f ∈ s.cons.porter.opened.filter (· ≠ e) ↔ _
      simp [and_comm]
  case banks =>
    intro a s h
    obtain ⟨validate, arm, cancel⟩ := exec_almCommands h
    rw [validate, arm, cancel]
    have bank : 1 - s.get ALMANAC_active_bank < 2 := by omega
    refine ⟨fun sound => ?_, fun e refused => ?_, fun invalid => ?_, fun valid past => ?_, fun valid future => ?_, _, rfl, ?_, rfl, rfl⟩
    · refine ⟨_, congrArg Host.Outcome.next (State.almValidate_sound sound), ?_, ?_, ?_, ?_⟩
      · rw [State.get_set_ne _ (by decide), State.get_set_ne _ (by decide)]
        exact s.bankValid_bit bank true
      · rw [State.get_set_ne _ (by decide), State.get_set_same]
        rfl
      · exact State.get_set_same _ _ _
      · exact State.keepsBut_set (State.keepsBut_set (State.keepsBut_set State.keepsBut_refl (by decide)) (by decide)) (by decide)
    · obtain ⟨entry, reason, kept, raw, keeps⟩ := State.almRefuse_spec (s.bankValid (1 - s.get ALMANAC_active_bank) false) (Nat.mod_lt e (by decide))
        (Nat.lt_of_le_of_lt (s.entryRefusal_le s.inactive e) (by decide))
      refine ⟨_, congrArg Host.Outcome.next (State.almValidate_refused refused), ?_, entry, reason, raw, ?_⟩
      · rw [kept]
        exact s.bankValid_bit bank false
      · exact State.keepsBut_trans (State.keepsBut_set State.keepsBut_refl (by decide)) keeps
    · rw [State.almArm_invalid invalid]
    · rw [State.almArm_past valid past]
    · exact ⟨_, congrArg Host.Outcome.next (State.almArm_ahead valid future), State.get_set_same s ALM_VSTAT_16 1, rfl, rfl⟩
    · exact State.get_set_same s ALM_VSTAT_16 0

end Sys2Proof.Machine
end

section
/-! What a frame sent on one port leaves to another: its switch, the contents of its frames, its transmitter (09 R239, R246 to R248, R257, R258; 10 R272). -/

namespace Sys2Proof.Machine

variable {s t u : State} {x y : Nat}

/-! ## Keys -/

theorem not_frameKey_eth {o l w r : Nat} (hx : x < 4) (hl : o * 32 + l < 131072) (h : o * 32 + l < 0x040 * 32 ∨ 0x048 * 32 ≤ o * 32 + l) :
    ¬ frameKey (⟨0x30 + x, o, l, w, r, 0⟩ : Fld).key := by
  rw [ethKey]
  unfold frameKey
  simp only [List.mem_cons, List.not_mem_nil, or_false]
  omega

theorem ethKey_porter {o l w r : Nat} (hx : x < 4) (hl : o * 32 + l < 131072) : (⟨0x30 + x, o, l, w, r, 0⟩ : Fld).key ≠ PORTER_STATE_4.key := by
  rw [ethKey]
  simp only [PORTER_STATE_4, Fld.key]
  omega

theorem not_frameKey_block (hx : x < 4) : ¬ frameKey (PORTER_BLK_0 x).key ∧ (PORTER_BLK_0 x).key ≠ PORTER_STATE_4.key := by
  simp only [frameKey, PORTER_BLK_0, PORTER_STATE_4, Fld.key, List.mem_cons, List.not_mem_nil, or_false]
  omega

theorem not_frameKey_stamp (hx : x < 4) : ¬ frameKey (TS_TXLAST_LO_0 x).key ∧ ¬ frameKey (txlastHi x).key ∧
    (TS_TXLAST_LO_0 x).key ≠ PORTER_STATE_4.key ∧ (txlastHi x).key ≠ PORTER_STATE_4.key := by
  simp only [frameKey, TS_TXLAST_LO_0, txlastHi, PORTER_STATE_4, Fld.key, List.mem_cons, List.not_mem_nil, or_false]
  omega

theorem frameKey_page {g : Fld} (h : g.pageOf ∈ [0x02, 0x34, 0x36, 0x38]) : frameKey g.key := .inl h

theorem frameKey_pageOf {g : Fld} (h : frameKey g.key) : g.pageOf ≠ 7 ∧ g.pageOf ≠ 0x0A := by
  simp only [frameKey, Fld.pageOf, List.mem_cons, List.not_mem_nil, or_false] at h ⊢
  omega

/-! ## What is kept for a port -/

/-- The parts of the state beside registers that frames are formed from. -/
def State.frameParts (s : State) :=
  (s.variant, s.counter, s.clk, s.latch, s.power, s.cons.k, s.cons.act, s.cons.rct, s.cons.porter.opened)

/-- From s to t, what port y sends, whether it sends, and what it sent last stay. -/
structure State.SameFor (y : Nat) (s t : State) : Prop where
  parts : t.frameParts = s.frameParts
  regs : ∀ g : Fld, frameKey g.key → t.get g = s.get g
  silenced : bitOf (t.get PORTER_STATE_4) y = bitOf (s.get PORTER_STATE_4) y
  sent : ∀ e, SMap.get t.cons.porter.sent (4 * e + y) 0 = SMap.get s.cons.porter.sent (4 * e + y) 0
  wire : SMap.get t.wire y [] = SMap.get s.wire y []

theorem State.SameFor.refl (y : Nat) (s : State) : s.SameFor y s := ⟨rfl, fun _ _ => rfl, rfl, fun _ => rfl, rfl⟩

theorem State.SameFor.trans (h : s.SameFor y t) (h' : t.SameFor y u) : s.SameFor y u :=
  ⟨h'.parts.trans h.parts, fun g k => (h'.regs g k).trans (h.regs g k), h'.silenced.trans h.silenced, fun e => (h'.sent e).trans (h.sent e), h'.wire.trans h.wire⟩

theorem State.frameParts_of_rest (h : t.rest = s.rest) : t.frameParts = s.frameParts := by
  simp only [State.rest, Prod.mk.injEq] at h
  obtain ⟨⟨-, variant, counter, -, -, latch, -, -, clk, -, -, -, -, -, cons, -⟩, power, -⟩ := h
  simp only [State.frameParts, variant, counter, latch, clk, cons, power]

/-- What leaves all but registers, and those registers, alone. -/
theorem State.SameFor.of_rest (hr : t.rest = s.rest) (hg : ∀ g : Fld, frameKey g.key ∨ g = PORTER_STATE_4 → t.get g = s.get g) : s.SameFor y t := by
  have cons := State.cons_of_rest hr
  have wire := State.wire_of_rest hr
  exact ⟨State.frameParts_of_rest hr, fun g k => hg g (.inl k), by rw [hg _ (.inr rfl)], fun e => by rw [cons], by rw [wire]⟩

theorem State.sameFor_set {f : Fld} {v : Nat} (k : ¬ frameKey f.key) (k4 : f.key ≠ PORTER_STATE_4.key) : s.SameFor y (s.set f v) :=
  .of_rest rfl fun _ hg => State.get_set_ne _ fun e => hg.elim (fun h => k (e ▸ h)) fun h => k4 (h ▸ e.symm)

theorem State.sameFor_raiseInt {page bit : Nat} (h : (0x30 ≤ page ∧ page < 0x34) ∨ page = 0x37) : s.SameFor y (s.raiseInt page bit) :=
  .of_rest (State.rest_raiseInt _ _ _) fun g hg => by
    refine State.get_raiseInt_ne (hg.elim (fun k => (frameKey_pageOf k).2) fun e => e ▸ by decide) fun e => ?_
    rcases hg with k | rfl
    · rw [e] at k
      simp only [frameKey, rawOf, Fld.key, List.mem_cons, List.not_mem_nil, or_false] at k
      omega
    · simp only [rawOf, PORTER_STATE_4, Fld.key] at e
      omega

theorem State.sameFor_consRecord {key code sev w0 w1 : Nat} {limited : Bool} (hs : sev < 8) : s.SameFor y (s.consRecord key code sev w0 w1 limited) :=
  .of_rest (State.rest_consRecord hs) fun g hg => by
    have page : g.pageOf ≠ 7 ∧ g.pageOf ≠ 0x0A := hg.elim frameKey_pageOf fun e => e ▸ by decide
    exact State.get_consRecord hs page.1 page.2

theorem State.sameFor_switchShow (s : State) (y : Nat) : s.SameFor y s.switchShow :=
  State.sameFor_set (by unfold frameKey; decide) (by decide)

/-- What every step of a fold keeps. -/
theorem State.each_keeps_mem {α : Type} {P : State → Prop} {l : List α} {f : State → α → State} (h : P s)
    (hf : ∀ u, ∀ a ∈ l, P u → P (f u a)) : P (s.each l f) := by
  unfold State.each
  induction l generalizing s with
  | nil => exact h
  | cons a r ih => exact ih (hf s a List.mem_cons_self h) fun u b hb => hf u b (List.mem_cons_of_mem _ hb)

theorem State.sameFor_each {α : Type} {l : List α} {f : State → α → State} (h : ∀ u : State, ∀ a ∈ l, u.SameFor y (f u a)) : s.SameFor y (s.each l f) :=
  State.each_keeps_mem (.refl y s) fun u a ha hu => hu.trans (h u a ha)

theorem State.SameFor.switchOpen (h : s.SameFor y t) : t.switchOpen y = s.switchOpen y := by
  have parts := h.parts
  simp only [State.frameParts, Prod.mk.injEq] at parts
  obtain ⟨-, -, -, latch, -, -, -, -, opened⟩ := parts
  exact State.switchOpen_congr latch h.regs opened h.silenced h.sent

/-! ## A frame on another port -/

section
variable (hx : x < 4) (hy : y < 4) (apart : x ≠ y)
include hy apart

/-- What a third blocked attempt silences is the port alone. -/
theorem State.sameFor_silence (s : State) : s.SameFor y (s.set PORTER_STATE_4 (setBit (s.get PORTER_STATE_4) x)) where
  parts := rfl
  regs _ k := State.get_set_ne _ fun e => absurd (e ▸ k) (by unfold frameKey; decide)
  silenced := by
    rw [State.get_set_same, bitOf_mod_two_pow (n := PORTER_STATE_4.w) hy, bitOf_setBit]
    simp [apart]
  sent _ := rfl
  wire := rfl

include hx

theorem State.sameFor_blocked (s : State) : s.SameFor y (s.blocked x) := by
  obtain ⟨block, block4⟩ := not_frameKey_block hx
  have port {o l w r v : Nat} {s : State} (hl : o * 32 + l < 131072) (h : 0x048 * 32 ≤ o * 32 + l) : s.SameFor y (s.set ⟨0x30 + x, o, l, w, r, 0⟩ v) :=
    State.sameFor_set (not_frameKey_eth hx hl (.inr h)) (ethKey_porter hx hl)
  have counted : s.SameFor y (((s.count (PORTER_BLK_0 x)).count (ETH_TX_BLOCKED_0 x)).raiseInt 0x37 1 |>.raiseInt (0x30 + x) 3) :=
    ((State.sameFor_set block block4).trans (port (by decide) (by decide))).trans
      ((State.sameFor_raiseInt (.inr rfl)).trans (State.sameFor_raiseInt (.inl (by omega))))
  have noted (n : Nat) : s.SameFor y ((((s.count (PORTER_BLK_0 x)).count (ETH_TX_BLOCKED_0 x)).raiseInt 0x37 1 |>.raiseInt (0x30 + x) 3).updW
      fun p => { p with blocked := SMap.put p.blocked x 0 n }) := counted.trans ⟨rfl, fun _ _ => rfl, rfl, fun _ => rfl, rfl⟩
  unfold State.blocked
  dsimp only
  split
  · exact ((noted _).trans ((State.sameFor_silence hy apart _).trans (State.sameFor_switchShow _ _))).trans
      ((State.sameFor_raiseInt (.inr rfl)).trans (State.sameFor_consRecord (by decide)))
  · exact noted _

theorem State.sameFor_portSend (s : State) (f : List Byte) : s.SameFor y (s.portSend x f) := by
  unfold State.portSend
  dsimp only
  split
  · exact State.sameFor_blocked hx hy apart s
  · have sent : s.SameFor y (s.emit x f) := ⟨rfl, fun _ _ => rfl, rfl, fun _ => rfl, s.wire_setWire_ne (Ne.symm apart)⟩
    have counted : s.SameFor y ((s.emit x f).count (ETH_TX_FRAMES_0 x)) := sent.trans (State.sameFor_set
      (not_frameKey_eth (o := 0x16C) (l := 0) hx (by decide) (.inr (by decide))) (ethKey_porter (o := 0x16C) (l := 0) hx (by decide)))
    refine (counted.trans (State.sameFor_each fun u e _ => ?_)).trans (State.sameFor_switchShow _ _)
    have used (n : Nat) : u.SameFor y (u.updW fun p => { p with sent := SMap.put p.sent (4 * e + x) 0 n }) :=
      ⟨rfl, fun _ _ => rfl, rfl, fun e' => SMap.get_put_ne (by omega), rfl⟩
    split
    · exact (used _).trans (State.sameFor_set (by unfold frameKey; decide) (by decide))
    · exact used _

end

theorem State.sameFor_stampTx (hx : x < 4) (s : State) (y : Nat) : s.SameFor y (s.stampTx x) := by
  obtain ⟨low, high, low4, high4⟩ := not_frameKey_stamp hx
  exact (State.sameFor_set low low4).trans (State.sameFor_set high high4)

/-! ## The frame on the port itself -/

section
variable {f : List Byte}

theorem State.wire_portSend_open (h : s.switchOpen x = true) : SMap.get (s.portSend x f).wire x [] = f := by
  unfold State.portSend
  rw [if_neg (by rw [h]; exact Bool.false_ne_true)]
  dsimp only
  refine (congrArg (SMap.get · x []) (part_each (part := State.wire) _ fun u e => ?_)).trans (s.wire_setWire_same x f)
  exact part_ite (part := State.wire) rfl rfl

theorem State.wire_blocked (s : State) (x : Nat) : (s.blocked x).wire = s.wire := by
  have raised (u : State) (page bit : Nat) : (u.raiseInt page bit).wire = u.wire := State.wire_of_rest (State.rest_raiseInt u page bit)
  have noted : (((s.count (PORTER_BLK_0 x)).count (ETH_TX_BLOCKED_0 x)).raiseInt 0x37 1 |>.raiseInt (0x30 + x) 3).wire = s.wire :=
      (raised _ _ _).trans (raised _ _ _)
  unfold State.blocked
  refine part_ite (part := State.wire) ?_ noted
  exact (State.wire_of_rest (State.rest_consRecord (by decide))).trans ((raised _ _ _).trans noted)

theorem State.wire_portSend_shut (h : s.switchOpen x = false) : (s.portSend x f).wire = s.wire := by
  unfold State.portSend
  rw [if_pos (by rw [h]; rfl)]
  exact s.wire_blocked x

/-- A frame that goes out leaves hub SRAM, the queues, and every register but those of ports and Porter. -/
theorem State.portSend_open_keeps (h : s.switchOpen x = true) (hx : x < 4) : (s.portSend x f).hub = s.hub ∧ (s.portSend x f).queues = s.queues ∧
    (s.portSend x f).cons.rct = s.cons.rct ∧ ∀ g : Fld, g.pageOf < 0x30 → (s.portSend x f).get g = s.get g := by
  unfold State.portSend
  rw [if_neg (by rw [h]; exact Bool.false_ne_true)]
  refine ⟨part_each (part := State.hub) _ fun _ _ => part_ite (part := State.hub) rfl rfl,
    part_each (part := State.queues) _ fun _ _ => part_ite (part := State.queues) rfl rfl,
    part_each (part := fun u => u.cons.rct) _ fun _ _ => part_ite (part := fun u : State => u.cons.rct) rfl rfl, fun g hg => ?_⟩
  have own {f : Fld} {v : Nat} (u : State) (hf : 0x30 ≤ f.pageOf) : (u.set f v).get g = u.get g := State.get_set_ne _ fun e => by
    have := Fld.pageOf_congr e
    omega
  refine (own _ (by decide)).trans ((State.get_each fun u e => ?_).trans (own _ (by rw [show (ETH_TX_FRAMES_0 x).pageOf = 0x30 + x from ethPage hx (by decide)]; omega)))
  exact part_ite (part := fun u : State => u.get g) (own _ (by decide)) rfl

end

/-! ## One port of several -/

/-- Of a fold over distinct elements: what holds up to one of them, what its step makes of that, and what stays to the end. -/
theorem State.each_at {l : List Nat} {f : State → Nat → State} {P Q : State → Prop} (hn : l.Nodup) {a : Nat} (ha : a ∈ l) (start : P s)
    (before : ∀ u, ∀ b ∈ l, b ≠ a → P u → P (f u b)) (here : ∀ u, P u → Q (f u a))
      (after : ∀ u, ∀ b ∈ l, b ≠ a → Q u → Q (f u b)) : Q (s.each l f) := by
  obtain ⟨l1, l2, rfl⟩ := List.append_of_mem ha
  obtain ⟨-, hn, hd⟩ := List.nodup_append.1 hn
  have cut : s.each (l1 ++ a :: l2) f = (f (s.each l1 f) a).each l2 f := by simp only [State.each, List.foldl_append, List.foldl_cons]
  rw [cut]
  exact State.each_keeps_mem (here _ (State.each_keeps_mem start fun u b hb => before u b (by simp [hb]) fun e => hd b hb a (by simp) e))
    fun u b hb => after u b (by simp [hb]) fun e => (List.nodup_cons.1 hn).1 (e ▸ hb)

theorem State.sendPorts_spec (s : State) (m : Nat) : (s.sendPorts m).Nodup ∧ ∀ x ∈ s.sendPorts m, x < 4 := by
  refine ⟨(List.nodup_range.filter _).filter _, fun x hx => ?_⟩
  exact List.mem_range.1 (List.mem_filter.1 (List.mem_filter.1 hx).1).1

/-- Frames sent on distinct ports, each by its switch: an open one sends the frame formed for the port as the command found the module, a shut one sends nothing. -/
theorem State.each_portSend {l : List Nat} (hn : l.Nodup) (hl : ∀ x ∈ l, x < 4) {before : State → Nat → State} {frame : State → Nat → List Byte}
    (stamp : ∀ u : State, ∀ b ∈ l, ∀ y, u.SameFor y (before u b)) (same : ∀ u, ∀ x ∈ l, s.SameFor x u → frame u x = frame s x) (hx : x ∈ l) :
    let z := s.each l fun u x => (before u x).portSend x (frame u x)
    (s.switchOpen x = true → SMap.get z.wire x [] = frame s x) ∧ (s.switchOpen x = false → SMap.get z.wire x [] = SMap.get s.wire x []) := by
  have others (u : State) (b : Nat) (hb : b ∈ l) (hbx : b ≠ x) : u.SameFor x ((before u b).portSend b (frame u b)) :=
    (stamp u b hb x).trans (State.sameFor_portSend (hl b hb) (hl x hx) hbx _ _)
  have sameHere (u : State) (hu : s.SameFor x u) : s.SameFor x (before u x) := hu.trans (stamp u x hx x)
  refine ⟨fun opened => ?_, fun shut => ?_⟩
  · refine State.each_at (P := s.SameFor x) (Q := fun u => SMap.get u.wire x [] = frame s x) hn hx (.refl x s) (fun u b hb hbx hu => hu.trans (others u b hb hbx))
      (fun u hu => ?_) fun u b hb hbx hu => (others u b hb hbx).wire.trans hu
    rw [State.wire_portSend_open ((sameHere u hu).switchOpen.trans opened), same u x hx hu]
  · refine State.each_at (P := s.SameFor x) (Q := fun u => SMap.get u.wire x [] = SMap.get s.wire x []) hn hx (.refl x s)
      (fun u b hb hbx hu => hu.trans (others u b hb hbx)) (fun u hu => ?_) fun u b hb hbx hu => (others u b hb hbx).wire.trans hu
    rw [State.wire_portSend_shut ((sameHere u hu).switchOpen.trans shut), (sameHere u hu).wire]

end Sys2Proof.Machine
end

section
/-! The frames of a port over what another port's frames leave, and their dispatch (09 R246 to R248; 10 R272). -/

namespace Sys2Proof.Machine

variable {s t u : State} {x y i : Nat}

/-! ## Contents of frames -/

theorem almPage {o l w r n : Nat} (h : o * 32 + l < 131072) : (⟨0x36, o, l, w, r, n⟩ : Fld).pageOf = 0x36 := by
  simp only [Fld.pageOf, Fld.key]
  omega

section
variable (h : s.SameFor y t)
include h

theorem State.SameFor.almanac {o l w r n : Nat} (hl : o * 32 + l < 131072) : t.get ⟨0x36, o, l, w, r, n⟩ = s.get ⟨0x36, o, l, w, r, n⟩ :=
  h.regs _ (frameKey_page (by rw [almPage hl]; decide))

theorem State.SameFor.page {g : Fld} (hg : g.pageOf ∈ [0x02, 0x34, 0x36, 0x38]) : t.get g = s.get g := h.regs g (frameKey_page hg)

theorem State.SameFor.cons : t.cons.k = s.cons.k ∧ t.cons.act = s.cons.act ∧ t.cons.rct = s.cons.rct := by
  have parts := h.parts
  simp only [State.frameParts, Prod.mk.injEq] at parts
  obtain ⟨-, -, -, -, -, k, act, rct, -⟩ := parts
  exact ⟨k, act, rct⟩

theorem State.SameFor.entry (e : Nat) : t.actE e = s.actE e ∧ t.eMac e = s.eMac e ∧ t.tagOf e = s.tagOf e := by
  refine ⟨?_, ?_, ?_⟩
  · rw [State.actE, h.page (by decide)]
    rfl
  · simp only [State.eMac, ALM_E_DMAC_LO_0, ALM_E_DMAC_HI_0, h.almanac (show 0x110 * 32 + 0 < 131072 by decide), h.almanac (show 0x114 * 32 + 0 < 131072 by decide)]
  · simp only [State.tagOf, State.flag, ALM_E_SCHED_20, ALM_E_SCHED_21, ALM_E_OWNER_16, h.almanac (show 0x108 * 32 + 20 < 131072 by decide),
      h.almanac (show 0x108 * 32 + 21 < 131072 by decide), h.almanac (show 0x10C * 32 + 16 < 131072 by decide)]
    rfl

theorem State.SameFor.ethMac (hx : x < 4) : t.ethMac x = s.ethMac x := by
  have own {o l w r : Nat} (low : 0x040 * 32 ≤ o * 32 + l) (high : o * 32 + l < 0x048 * 32) :
      t.get ⟨0x30 + x, o, l, w, r, 0⟩ = s.get ⟨0x30 + x, o, l, w, r, 0⟩ :=
    h.regs _ (.inr (.inr (.inl (by rw [ethKey]; omega))))
  rw [State.ethMac, show t.get (ETH_MAC_LO_0 x) = s.get (ETH_MAC_LO_0 x) from own (by decide) (by decide),
    show t.get (ETH_MAC_HI_0 x) = s.get (ETH_MAC_HI_0 x) from own (by decide) (by decide)]
  rfl

theorem State.SameFor.head88b5 (hx : x < 4) (e dst kind flags pos m len time : Nat) (tag : Option (Nat × Nat)) :
    t.head88b5 x e dst kind flags pos m len time tag = s.head88b5 x e dst kind flags pos m len time tag := by
  simp only [State.head88b5, h.ethMac hx, h.page (show ALM_FA_0.pageOf ∈ _ by decide), h.cons.2.1]

theorem State.SameFor.position (k : Nat) : t.posOf k = s.posOf k ∧ t.mOf k = s.mOf k := by
  simp only [State.posOf, State.mOf, h.cons.2.1, and_self]

theorem State.SameFor.exclFrame (hx : x < 4) (b : List Byte) : t.exclFrame i x b = s.exclFrame i x b := by
  obtain ⟨entry, -, -⟩ := h.entry i
  obtain ⟨-, mac, tag⟩ := h.entry (s.actE i)
  simp only [State.exclFrame, h.head88b5 hx, entry, mac, tag, h.cons.1, (h.position _).1, (h.position _).2]

theorem State.SameFor.txStamp (hx : x < 4) : t.txStamp x = s.txStamp x := by
  have parts := h.parts
  simp only [State.frameParts, Prod.mk.injEq] at parts
  obtain ⟨-, counter, clk, -⟩ := parts
  have delay : t.get (TS_PORTCTL_8 x) = s.get (TS_PORTCTL_8 x) := h.regs _ (.inr (.inr (.inr (by simp only [TS_PORTCTL_8, Fld.key]; omega))))
  have clock {g : Fld} (hg : g.pageOf = 0x38) : t.get g = s.get g := h.page (by rw [hg]; decide)
  simp only [State.txStamp, State.nowI, State.cns, State.rateEff, State.get64, delay, counter, clk, clock (g := CM_ANCHOR_LO_0) (by decide),
    clock (g := CM_ANCHOR_HI_0) (by decide), clock (g := CM_OFFSET_LO_0) (by decide), clock (g := CM_OFFSET_HI_0) (by decide), clock (g := CM_RATE_0) (by decide)]

theorem State.SameFor.kind1 (hx : x < 4) (dst : Nat) (payload : List Byte) : t.kind1 i x dst payload = s.kind1 i x dst payload := by
  have charge : t.inCharge = s.inCharge := by
    simp only [State.inCharge, h.page (show MIRROR_state.pageOf ∈ _ by decide)]
  obtain ⟨entry, -, -⟩ := h.entry i
  obtain ⟨-, -, tag⟩ := h.entry (s.actE i)
  simp only [State.kind1, h.head88b5 hx, charge, entry, tag, h.cons.1, (h.position _).1, (h.position _).2, h.txStamp hx]

theorem State.SameFor.syncPayload : t.syncPayload = s.syncPayload := by
  have clock {g : Fld} (hg : g.pageOf = 0x38) : t.get g = s.get g := h.page (by rw [hg]; decide)
  simp only [State.syncPayload, clock (g := CM_SYNC_CTL_2) (by decide), clock (g := CLOCKMAKER_state) (by decide), clock (g := CM_LASTCORR_HI_0) (by decide),
    clock (g := CM_LASTCORR_LO_0) (by decide), clock (g := CM_RESYNC_0) (by decide), clock (g := CM_RATE_0) (by decide)]

theorem State.SameFor.rctOf (f : List Byte) : t.rctOf x f = s.rctOf x f := by
  obtain ⟨-, -, rct⟩ := h.cons
  rw [State.rctOf, rct]
  rfl

end

/-! ## Exclusive windows (R248) -/

/-- What the state comes to where an exclusive window finds no frame, or one that does not fit. -/
theorem State.exclStart_idle (h : 4096 ≤ i ∨ s.get (ALM_E_SCHED_12 (s.actE i)) ≠ 1 ∨ s.eOccurs (s.actE i) s.cons.k = false) : s.exclStart i = s :=
  if_pos (by simpa using h)

section
variable (hi : i < 4096) (kind : s.get (ALM_E_SCHED_12 (s.actE i)) = 1) (due : s.eOccurs (s.actE i) s.cons.k = true)
include hi kind due

theorem State.exclStart_due : s.exclStart i = match SMap.find? s.cons.built i with
    | none => (s.updN fun c => { c with built := SMap.erase c.built i }).winMissed i
    | some b =>
      if s.get (ALM_E_LEN_0 (s.actE i)) * 40 < s.get (ALM_E_TXOFF_0 (s.actE i)) * 40 + ((s.exclFrame i 0 b).length + 24) * 8 + 2560 ∨ s.consMute = true then
        (s.updN fun c => { c with built := SMap.erase c.built i }).winMissed i
      else (s.updN fun c => { c with built := SMap.erase c.built i }).each (s.sendPorts (s.get (ALM_E_SCHED_16 (s.actE i))))
        fun s x => s.portSend x (s.exclFrame i x b) := by
  unfold State.exclStart
  rw [if_neg (by simp [hi, kind, due])]
  rfl

theorem State.exclStart_missed (none : SMap.find? s.cons.built i = none) :
    s.exclStart i = (s.updN fun c => { c with built := SMap.erase c.built i }).winMissed i := by
  rw [State.exclStart_due hi kind due, none]

theorem State.exclStart_sends {b : List Byte} (fetched : SMap.find? s.cons.built i = some b) (speaks : s.consMute = false)
    (fits : s.get (ALM_E_TXOFF_0 (s.actE i)) * 40 + ((s.exclFrame i 0 b).length + 24) * 8 + 2560 ≤ s.get (ALM_E_LEN_0 (s.actE i)) * 40) :
    s.exclStart i = (s.updN fun c => { c with built := SMap.erase c.built i }).each (s.sendPorts (s.get (ALM_E_SCHED_16 (s.actE i))))
      fun u x => u.portSend x (u.exclFrame i x b) := by
  rw [State.exclStart_due hi kind due, fetched]
  exact if_neg (by simp [speaks]; omega)

end

theorem State.exclFrames_sent {b : List Byte} {m : Nat} (hx : x ∈ s.sendPorts m) : let z := s.each (s.sendPorts m) fun u x => u.portSend x (u.exclFrame i x b)
    (s.switchOpen x = true → SMap.get z.wire x [] = s.exclFrame i x b) ∧ (s.switchOpen x = false → SMap.get z.wire x [] = SMap.get s.wire x []) :=
  State.each_portSend (before := fun u _ => u) (frame := fun u x => u.exclFrame i x b) (s.sendPorts_spec m).1 (s.sendPorts_spec m).2 (fun u _ _ _ => .refl _ u)
    (fun _ _ hy h => h.exclFrame ((s.sendPorts_spec m).2 _ hy) b) hx

/-- A missed window: counted on each of its ports there is, bit 1 of the Almanac's page, a record. -/
theorem State.winMissed_spec (s : State) (i : Nat) : bitOf ((s.winMissed i).get (rawOf 0x36)) 1 = true ∧ (s.winMissed i).wire = s.wire ∧
    ∀ x < s.nPorts, bitOf (s.get (ALM_E_SCHED_16 (s.actE i))) x = true → (s.winMissed i).get (ETH_TX_MISSED_0 x) = s.oneMore (ETH_TX_MISSED_0 x) := by
  let missed := s.each (bitList 4 (s.get (ALM_E_SCHED_16 (s.actE i)))) fun u x => if x < u.nPorts then u.count (ETH_TX_MISSED_0 x) else u
  have told : s.winMissed i = (missed.raiseInt 0x36 1).consRecord i 0x3603 3 i 1 true := rfl
  have wire : missed.wire = s.wire := part_each (part := State.wire) s fun _ _ => part_ite (part := State.wire) rfl rfl
  rw [told]
  refine ⟨?_, ?_, fun x hx bit => ?_⟩
  · rw [State.get_consRecord (by decide) (by decide) (by decide)]
    exact State.bitOf_raw_raiseInt (by decide) (by decide) (by decide)
  · exact (State.wire_of_rest ((State.rest_consRecord (by decide)).trans (State.rest_raiseInt _ _ _))).trans wire
  · have four : x < 4 := Nat.lt_of_lt_of_le hx s.nPorts_le
    have page : (ETH_TX_MISSED_0 x).pageOf = 0x30 + x := ethPage four (by decide)
    rw [State.get_consRecord (by decide) (by omega) (by omega), State.get_raiseInt (by omega) (by omega)]
    have other (u : State) (b : Nat) (hbx : b ≠ x) (v : Nat) : (u.set (ETH_TX_MISSED_0 b) v).get (ETH_TX_MISSED_0 x) = u.get (ETH_TX_MISSED_0 x) :=
      State.get_set_ne _ fun e => hbx (by simp only [ETH_TX_MISSED_0, ethKey] at e; omega)
    refine State.each_at (P := fun u => u.variant = s.variant ∧ u.get (ETH_TX_MISSED_0 x) = s.get (ETH_TX_MISSED_0 x))
      (Q := fun u => u.get (ETH_TX_MISSED_0 x) = s.oneMore (ETH_TX_MISSED_0 x)) (List.nodup_range.filter _)
        (List.mem_filter.2 ⟨List.mem_range.2 four, bit⟩) ⟨rfl, rfl⟩
      (fun u b _ hbx hu => ?_) (fun u hu => ?_) fun u b _ hbx hu => ?_
    · split
      · exact ⟨hu.1, (other u b hbx _).trans hu.2⟩
      · exact hu
    · have there : u.nPorts = s.nPorts := by rw [State.nPorts, State.byVar, hu.1]; rfl
      rw [if_pos (by omega), State.get_count, State.oneMore, hu.2]
      rfl
    · split
      · exact (other u b hbx _).trans hu
      · exact hu

/-! ## Sync windows (10 R272) -/

theorem State.syncWindow_idle (h : 4096 ≤ i ∨ s.get (ALM_E_SCHED_12 (s.actE i)) ≠ 3 ∨ s.eOccurs (s.actE i) s.cons.k = false ∨
    s.get (ALM_E_OWNER_0 (s.actE i)) ≠ s.get ALM_FA_0 ∨ s.syncNode = false ∨ s.consMute = true) : s.syncWindow i = s :=
  if_pos (by simpa using h)

theorem State.syncWindow_sends (hi : i < 4096) (kind : s.get (ALM_E_SCHED_12 (s.actE i)) = 3) (due : s.eOccurs (s.actE i) s.cons.k = true)
    (own : s.get (ALM_E_OWNER_0 (s.actE i)) = s.get ALM_FA_0) (node : s.syncNode = true) (speaks : s.consMute = false) :
    s.syncWindow i = s.each (s.sendPorts (s.get (ALM_E_SCHED_16 (s.actE i)))) fun u x =>
      (u.stampTx x).portSend x (u.kind1 i x (u.eMac (s.actE i)) u.syncPayload) :=
  if_neg (by simp [hi, kind, due, own, node, speaks])

theorem State.syncFrames_sent {e m : Nat} (hx : x ∈ s.sendPorts m) (opened : s.switchOpen x = true) :
    SMap.get (s.each (s.sendPorts m) fun u x => (u.stampTx x).portSend x (u.kind1 i x (u.eMac e) u.syncPayload)).wire x [] = s.kind1 i x (s.eMac e) s.syncPayload :=
  (State.each_portSend (before := State.stampTx) (frame := fun u x => u.kind1 i x (u.eMac e) u.syncPayload) (s.sendPorts_spec m).1 (s.sendPorts_spec m).2
    (fun u b hb y => State.sameFor_stampTx ((s.sendPorts_spec m).2 b hb) u y)
    (fun _ _ hy h => by rw [h.kind1 ((s.sendPorts_spec m).2 _ hy), (h.entry e).2.1, h.syncPayload]) hx).1 opened

end Sys2Proof.Machine
end

section
/-! ConsistCyclesAndFrames: basic and matrix cycles, and the fetch of an exclusive window's frame (09 R241, R245, R248, R249, R258, R259, R261). -/

namespace Sys2Proof.Machine

variable {s t u : State} {x i : Nat}

/-! ## Positions (R241) -/

theorem State.posShow_spec (s : State) : s.posShow.cons = s.cons ∧ s.posShow.get ALM_POS_0 = s.posOf s.cons.k % 2 ^ ALM_POS_0.w ∧
    s.posShow.get ALM_MCOUNT_0 = s.mOf s.cons.k ∧ s.posShow.hub = s.hub ∧
    ∀ g : Fld, g.key ≠ ALM_POS_0.key → g.key ≠ ALM_MCOUNT_0.key → s.posShow.get g = s.get g := by
  refine ⟨rfl, ?_, ?_, rfl, fun g hp hm => (State.get_set_ne _ hm).trans (State.get_set_ne _ hp)⟩
  · exact (State.get_set_ne _ (by decide)).trans (State.get_set_same _ _ _)
  · exact (State.get_set_same _ _ _).trans (Nat.mod_mod _ _)

/-! ## A matrix cycle starts (R241, R245, R258, R259, R261) -/

/-- The ports that are up join. -/
def State.joined (s : State) : State := s.each ((List.range s.nPorts).filter fun x => s.flag (ETH_up x)) fun u x => u.set (ETH_LINK_STAT_3 x) 1

theorem State.joined_keeps (s : State) : s.joined.cons = s.cons ∧ s.joined.hub = s.hub ∧ ∀ g : Fld, 0x34 ≤ g.pageOf → s.joined.get g = s.get g := by
  refine ⟨part_each (part := State.cons) s fun _ _ => rfl, part_each (part := State.hub) s fun _ _ => rfl, fun g hg => ?_⟩
  refine State.each_keeps_mem (P := fun u => u.get g = s.get g) rfl fun u x hx hu => (State.get_set_ne _ fun e => ?_).trans hu
  have four : x < 4 := Nat.lt_of_lt_of_le (List.mem_range.1 (List.mem_filter.1 hx).1) s.nPorts_le
  have page : (ETH_LINK_STAT_3 x).pageOf = 0x30 + x := ethPage four (by decide)
  have := Fld.pageOf_congr e
  omega

theorem State.joined_port (there : x < s.nPorts) (up : s.flag (ETH_up x) = true) : s.joined.get (ETH_LINK_STAT_3 x) = 1 := by
  have listed : x ∈ (List.range s.nPorts).filter fun x => s.flag (ETH_up x) := List.mem_filter.2 ⟨List.mem_range.2 there, up⟩
  refine State.each_at (P := fun _ => True) (Q := fun u => u.get (ETH_LINK_STAT_3 x) = 1) (List.nodup_range.filter _) listed trivial (fun _ _ _ _ _ => trivial)
    (fun u _ => State.get_set_same _ _ _) fun u b _ hbx hu => (State.get_set_ne _ fun e => hbx ?_).trans hu
  simp only [ETH_LINK_STAT_3, ethKey] at e
  omega

@[simp] theorem State.get_updW (s : State) (f : PorterS → PorterS) (g : Fld) : (s.updW f).get g = s.get g := rfl

/-- An armed switch of the Porter's bank at this count. -/
def State.porterTurned (s : State) : State :=
  if s.flag PORTER_STATE_12 && s.get PORTER_SWITCH_0 == s.get ALM_MCOUNT_0 then
    ((s.set PORTER_STATE_0 (1 - s.get PORTER_STATE_0)).set PORTER_STATE_12 0).updW fun p => { p with opened := [] }
  else s

theorem State.porterTurned_spec (s : State) : s.porterTurned.get PORTER_STATE_0 =
      (if s.flag PORTER_STATE_12 = true ∧ s.get PORTER_SWITCH_0 = s.get ALM_MCOUNT_0 then 1 - s.get PORTER_STATE_0 else s.get PORTER_STATE_0) ∧
    s.porterTurned.cons = { s.cons with porter := s.porterTurned.cons.porter } ∧ s.porterTurned.cons.porter.unsilence = s.cons.porter.unsilence ∧
    s.porterTurned.hub = s.hub ∧ ∀ g : Fld, g.key ≠ PORTER_STATE_0.key → g.key ≠ PORTER_STATE_12.key → s.porterTurned.get g = s.get g := by
  by_cases turn : s.flag PORTER_STATE_12 = true ∧ s.get PORTER_SWITCH_0 = s.get ALM_MCOUNT_0
  · have e : s.porterTurned = ((s.set PORTER_STATE_0 (1 - s.get PORTER_STATE_0)).set PORTER_STATE_12 0).updW fun p => { p with opened := [] } :=
      if_pos (by simpa using turn)
    rw [if_pos turn, e]
    refine ⟨?_, rfl, rfl, rfl, fun g h0 h12 => ?_⟩
    · rw [State.get_updW, State.get_set_ne _ (by decide), State.get_set_same]
      exact Nat.mod_eq_of_lt (by show _ < 2; omega)
    · rw [State.get_updW, State.get_set_ne _ h12, State.get_set_ne _ h0]
  · have e : s.porterTurned = s := if_neg (by simpa using turn)
    rw [if_neg turn, e]
    exact ⟨rfl, rfl, rfl, rfl, fun _ _ _ => rfl⟩

/-- What a matrix cycle start leaves the Porter with. -/
theorem State.porterMatrix_spec (s : State) : let z := s.porterMatrix
    z.cons = { s.cons with porter := z.cons.porter } ∧ z.cons.porter.run = decide (s.get PORTER_state = 2) ∧ z.cons.porter.blocked = [] ∧
    z.cons.porter.unsilence = 0 ∧ z.get PORTER_STATE_4 = s.get PORTER_STATE_4 % 16 &&& (15 - s.cons.porter.unsilence) ∧
    z.get PORTER_STATE_0 = (if s.flag PORTER_STATE_12 = true ∧ s.get PORTER_SWITCH_0 = s.get ALM_MCOUNT_0 then 1 - s.get PORTER_STATE_0 else s.get PORTER_STATE_0) ∧
    z.hub = s.hub ∧ ∀ g : Fld, g.pageOf ≠ 0x37 → z.get g = s.get g := by
  obtain ⟨bank, cons, asked, hub, regs⟩ := s.porterTurned_spec
  have e : s.porterMatrix = ((s.porterTurned.set PORTER_STATE_4 (s.porterTurned.get PORTER_STATE_4 &&& (15 - s.porterTurned.cons.porter.unsilence))).updW fun p =>
      { p with run := decide ((s.porterTurned.set PORTER_STATE_4
        (s.porterTurned.get PORTER_STATE_4 &&& (15 - s.porterTurned.cons.porter.unsilence))).get PORTER_state = 2),
               blocked := [], unsilence := 0 }).switchShow := rfl
  rw [regs PORTER_STATE_4 (by decide) (by decide), asked, State.get_set_ne _ (by decide), regs PORTER_state (by decide) (by decide)] at e
  rw [e]
  refine ⟨?_, rfl, rfl, rfl, ?_, ?_, hub, fun g hg => ?_⟩
  · exact congrArg (fun c : ConsS => { c with porter := { s.porterTurned.cons.porter with
      run := decide (s.get PORTER_state = 2), blocked := [], unsilence := 0 } }) cons
  · refine (State.get_set_ne _ (by decide)).trans ((State.get_set_same _ _ _).trans ?_)
    rw [Nat.and_mod_two_pow]
    exact congrArg _ (Nat.mod_eq_of_lt (by show _ < 16; omega))
  · exact (State.get_set_ne _ (by decide)).trans ((State.get_set_ne _ (by decide)).trans bank)
  · have apart {f : Fld} (hf : f.pageOf = 0x37) : g.key ≠ f.key := fun e => hg ((Fld.pageOf_congr e).trans hf)
    exact (State.get_set_ne _ (apart (by decide))).trans ((State.get_set_ne _ (apart (by decide))).trans (regs g (apart (by decide)) (apart (by decide))))

/-- The base values of the bank that was active, where the inactive bank's stood. -/
def State.basesBack (s : State) : State := ((s.set ALM_BASIC_0 s.cons.act.b).set ALM_MATRIX_0 s.cons.act.m).set ALM_SCHED_ID_0 s.cons.act.id

/-- The banks change places, base values included. -/
def State.banksSwapped (s : State) : State :=
  ((s.basesBack.set ALMANAC_active_bank (1 - s.basesBack.get ALMANAC_active_bank)).set ALM_VSTAT_16 0).updN
    fun c => { c with act := { b := s.get ALM_BASIC_0, m := s.get ALM_MATRIX_0, id := s.get ALM_SCHED_ID_0 }, swAt := 0, built := [] }

theorem State.get_updN (s : State) (f : ConsS → ConsS) (g : Fld) : (s.updN f).get g = s.get g := rfl

theorem State.get_basesBack {g : Fld} (hb : g.key ≠ ALM_BASIC_0.key) (hm : g.key ≠ ALM_MATRIX_0.key) (hi : g.key ≠ ALM_SCHED_ID_0.key) :
    s.basesBack.get g = s.get g := (State.get_set_ne _ hi).trans ((State.get_set_ne _ hm).trans (State.get_set_ne _ hb))

theorem State.banksSwapped_spec (s : State) : s.banksSwapped.get ALMANAC_active_bank = 1 - s.get ALMANAC_active_bank ∧ s.banksSwapped.get ALM_VSTAT_16 = 0 ∧
    ∀ g : Fld, g.pageOf ≠ 0x36 → s.banksSwapped.get g = s.get g := by
  unfold State.banksSwapped
  simp only [State.get_updN]
  refine ⟨?_, State.get_set_same _ _ _, fun g hg => ?_⟩
  · rw [State.get_set_ne _ (by decide), State.get_set_same, State.get_basesBack (by decide) (by decide) (by decide)]
    exact Nat.mod_eq_of_lt (by show _ < 2; omega)
  · have apart {f : Fld} (hf : f.pageOf = 0x36) : g.key ≠ f.key := fun e => hg ((Fld.pageOf_congr e).trans hf)
    rw [State.get_set_ne _ (apart (by decide)), State.get_set_ne _ (apart (by decide)), State.get_basesBack (apart (by decide)) (apart (by decide)) (apart (by decide))]

/-- Basic cycles realign where the bank's length or number of them differs. -/
def State.realigned (s : State) (old : AlmBase) : State :=
  if s.cons.act.b = old.b ∧ s.cons.act.m = old.m then s else (s.updN fun c => { c with k := s.now / (s.cons.act.b * 1000) }).posShow

theorem State.realigned_spec (s : State) (old : AlmBase) : (s.realigned old).cons.swAt = s.cons.swAt ∧ (s.realigned old).cons.built = s.cons.built ∧
    (s.realigned old).cons.act = s.cons.act ∧ ∀ g : Fld, g.key ≠ ALM_POS_0.key → g.key ≠ ALM_MCOUNT_0.key → (s.realigned old).get g = s.get g := by
  unfold State.realigned
  split
  · exact ⟨rfl, rfl, rfl, fun _ _ _ => rfl⟩
  · obtain ⟨-, -, -, -, regs⟩ := State.posShow_spec (s.updN fun c => { c with k := s.now / (s.cons.act.b * 1000) })
    exact ⟨rfl, rfl, rfl, regs⟩

/-- The armed bank becomes active. -/
theorem State.almSwitch_spec (s : State) : let z := s.almSwitch
    z.get ALMANAC_active_bank = 1 - s.get ALMANAC_active_bank ∧ z.cons.swAt = 0 ∧ z.cons.built = [] ∧ z.get ALM_VSTAT_16 = 0 ∧
    z.cons.act = { b := s.get ALM_BASIC_0, m := s.get ALM_MATRIX_0, id := s.get ALM_SCHED_ID_0 } ∧ bitOf (z.get (rawOf 0x36)) 0 = true ∧
    z.get CM_SYNC_CTL_0 = s.get CM_SYNC_CTL_0 := by
  obtain ⟨bank, armed, others⟩ := s.banksSwapped_spec
  obtain ⟨swAt, built, act, regs⟩ := s.banksSwapped.realigned_spec s.cons.act
  let timed := (s.banksSwapped.realigned s.cons.act).updW fun p => { p with len := s.get ALM_BASIC_0 * 250 }
  have e : s.almSwitch = (timed.raiseInt 0x36 0).consRecord 0 0x3601 3 (timed.get ALMANAC_active_bank) (s.cons.swAt - 1) false := rfl
  have cons : s.almSwitch.cons = timed.cons :=
    State.cons_of_rest ((congrArg State.rest e).trans ((State.rest_consRecord (by decide)).trans (State.rest_raiseInt _ _ _)))
  have own {g : Fld} (h7 : g.pageOf ≠ 7) (hA : g.pageOf ≠ 0x0A) : s.almSwitch.get g = (timed.raiseInt 0x36 0).get g :=
      (congrArg (·.get g) e).trans (State.get_consRecord (by decide) h7 hA)
  have kept {g : Fld} (h7 : g.pageOf ≠ 7) (hA : g.pageOf ≠ 0x0A) (hr : g.key ≠ (rawOf 0x36).key) (hp : g.key ≠ ALM_POS_0.key) (hm : g.key ≠ ALM_MCOUNT_0.key) :
      s.almSwitch.get g = s.banksSwapped.get g := (own h7 hA).trans ((State.get_raiseInt_ne hA hr).trans (regs g hp hm))
  refine ⟨?_, ?_, ?_, ?_, ?_, ?_, ?_⟩
  · exact (kept (by decide) (by decide) (by decide) (by decide) (by decide)).trans bank
  · rw [cons]
    exact swAt
  · rw [cons]
    exact built
  · exact (kept (by decide) (by decide) (by decide) (by decide) (by decide)).trans armed
  · rw [cons]
    exact act
  · rw [own (by decide) (by decide)]
    exact State.bitOf_raw_raiseInt (by decide) (by decide) (by decide)
  · exact (kept (by decide) (by decide) (by decide) (by decide) (by decide)).trans (others _ (by decide))

theorem State.delayDue_off {m : Nat} (free : s.flag CM_SYNC_CTL_0 = false) : s.delayDue m = s := if_pos (by rw [free]; rfl)

theorem State.resync_off (free : s.flag CM_SYNC_CTL_0 = false) : s.resync = s := if_pos (by rw [free]; rfl)

/-- A matrix cycle start of a module that keeps its own time (10 R274, R276). -/
theorem State.matrixStart_due (start : s.posOf s.cons.k = 0) (free : s.flag CM_SYNC_CTL_0 = false) :
    s.matrixStart = (if s.cons.swAt = s.mOf s.cons.k + 1 then s.posShow.almSwitch else s.posShow).joined.porterMatrix := by
  obtain ⟨-, -, count, -, regs⟩ := s.posShow_spec
  let switched := if s.cons.swAt = s.mOf s.cons.k + 1 then s.posShow.almSwitch else s.posShow
  obtain ⟨-, -, -, -, -, -, syncKept⟩ := s.posShow.almSwitch_spec
  obtain ⟨-, -, joinedRegs⟩ := switched.joined_keeps
  obtain ⟨-, -, -, -, -, -, -, porterRegs⟩ := switched.joined.porterMatrix_spec
  have sync : switched.get CM_SYNC_CTL_0 = s.get CM_SYNC_CTL_0 :=
    (part_ite (part := fun u : State => u.get CM_SYNC_CTL_0) syncKept rfl).trans (regs _ (by decide) (by decide))
  have still : switched.joined.porterMatrix.flag CM_SYNC_CTL_0 = false := by
    rw [State.flag, porterRegs _ (by decide), joinedRegs _ (by decide), sync]
    exact free
  have e : s.matrixStart = (switched.joined.porterMatrix.delayDue (switched.joined.porterMatrix.get ALM_MCOUNT_0)).resync := by
    unfold State.matrixStart
    rw [if_neg (by omega)]
    dsimp only
    rw [count]
    rfl
  rw [e, State.delayDue_off still, State.resync_off still]

section
variable (start : s.posOf s.cons.k = 0) (free : s.flag CM_SYNC_CTL_0 = false)
include start free

/-- A matrix cycle start that switches no bank. -/
theorem State.matrixStart_same_bank (unarmed : s.cons.swAt = 0) : let z := s.matrixStart
    (∀ x < s.nPorts, s.flag (ETH_up x) = true → z.get (ETH_LINK_STAT_3 x) = 1) ∧ z.cons.porter.run = decide (s.get PORTER_state = 2) ∧
    z.cons.porter.blocked = [] ∧ z.cons.porter.unsilence = 0 ∧ z.get PORTER_STATE_4 = s.get PORTER_STATE_4 % 16 &&& (15 - s.cons.porter.unsilence) ∧
    z.get PORTER_STATE_0 = (if s.flag PORTER_STATE_12 = true ∧ s.get PORTER_SWITCH_0 = s.mOf s.cons.k then 1 - s.get PORTER_STATE_0 else s.get PORTER_STATE_0) ∧
    z.get ALM_MCOUNT_0 = s.mOf s.cons.k ∧ z.cons.k = s.cons.k ∧ z.hub = s.hub := by
  obtain ⟨-, -, count, -, shown⟩ := s.posShow_spec
  obtain ⟨joinedCons, joinedHub, joinedRegs⟩ := s.posShow.joined_keeps
  obtain ⟨cons, run, blocked, asked, silenced, bank, hub, regs⟩ := s.posShow.joined.porterMatrix_spec
  have kept {g : Fld} (page : 0x34 ≤ g.pageOf) (hp : g.key ≠ ALM_POS_0.key) (hm : g.key ≠ ALM_MCOUNT_0.key) : s.posShow.joined.get g = s.get g :=
    (joinedRegs g page).trans (shown g hp hm)
  have counted : s.posShow.joined.get ALM_MCOUNT_0 = s.mOf s.cons.k := (joinedRegs _ (by decide)).trans count
  rw [kept (by decide) (by decide) (by decide)] at run silenced
  rw [State.flag, kept (g := PORTER_STATE_12) (by decide) (by decide) (by decide), kept (g := PORTER_SWITCH_0) (by decide) (by decide) (by decide),
    kept (g := PORTER_STATE_0) (by decide) (by decide) (by decide), counted] at bank
  rw [State.matrixStart_due start free, if_neg (by omega)]
  refine ⟨fun x hx up => ?_, run, blocked, asked, ?_, bank, (regs _ (by decide)).trans counted, ?_, hub.trans joinedHub⟩
  · have page : (ETH_LINK_STAT_3 x).pageOf = 0x30 + x := ethPage (Nat.lt_of_lt_of_le hx s.nPorts_le) (by decide)
    have upShown : s.posShow.flag (ETH_up x) = true := by
      rw [State.flag, shown _ (by simp [ETH_up, ALM_POS_0, Fld.key]; omega) (by simp [ETH_up, ALM_MCOUNT_0, Fld.key]; omega)]
      exact up
    exact (regs _ (by have := s.nPorts_le; omega)).trans (State.joined_port hx upShown)
  · rw [silenced, joinedCons]
    rfl
  · rw [cons, joinedCons]
    rfl

/-- A matrix cycle start at the armed count. -/
theorem State.matrixStart_switch (armed : s.cons.swAt = s.mOf s.cons.k + 1) : let z := s.matrixStart
    z.get ALMANAC_active_bank = 1 - s.get ALMANAC_active_bank ∧ z.cons.swAt = 0 ∧ z.cons.built = [] ∧ z.get ALM_VSTAT_16 = 0 ∧
    z.cons.act = { b := s.get ALM_BASIC_0, m := s.get ALM_MATRIX_0, id := s.get ALM_SCHED_ID_0 } ∧ bitOf (z.get (rawOf 0x36)) 0 = true := by
  obtain ⟨-, -, -, -, shown⟩ := s.posShow_spec
  obtain ⟨bank, swAt, built, done, act, raw, -⟩ := s.posShow.almSwitch_spec
  obtain ⟨joinedCons, -, joinedRegs⟩ := s.posShow.almSwitch.joined_keeps
  obtain ⟨cons, -, -, -, -, -, -, regs⟩ := s.posShow.almSwitch.joined.porterMatrix_spec
  have kept {g : Fld} (page : g.pageOf = 0x36) : s.posShow.almSwitch.joined.porterMatrix.get g = s.posShow.almSwitch.get g :=
    (regs g (by omega)).trans (joinedRegs g (by omega))
  rw [shown _ (by decide) (by decide)] at bank
  rw [shown _ (by decide) (by decide), shown _ (by decide) (by decide), shown _ (by decide) (by decide)] at act
  rw [joinedCons] at cons
  rw [State.matrixStart_due start free, if_pos armed]
  exact ⟨(kept (by decide)).trans bank, (congrArg ConsS.swAt cons).trans swAt, (congrArg ConsS.built cons).trans built, (kept (by decide)).trans done,
    (congrArg ConsS.act cons).trans act, by rw [kept (by decide)]; exact raw⟩

end

/-! ## The fetch (R248, R249) -/

/-- The variables of an entry's transmit list. -/
def State.fetchVars (s : State) (e : Nat) : List Desc :=
  ((s.listOf (s.get (ALM_E_LIST_0 e)) (s.get (ALM_E_LIST_16 e))).filter fun w => !bitOf w 31).filterMap fun w => s.var (w % 65536)

/-- The flags of a fetched frame: in charge, a substitute value, a stale one. -/
def State.fetchFlags (s : State) (vs : List Desc) : Nat :=
  0x80 + 64 * b2n (vs.any fun d => bitOf (s.hdr d) 2) + 32 * b2n (vs.any fun d => s.varState d == 2)

theorem foldl_min_le (l : List Nat) (a : Nat) : l.foldl min a ≤ a ∧ ∀ x ∈ l, l.foldl min a ≤ x := by
  induction l generalizing a with
  | nil => exact ⟨Nat.le_refl a, fun x hx => absurd hx List.not_mem_nil⟩
  | cons b r ih =>
    obtain ⟨first, others⟩ := ih (min a b)
    refine ⟨Nat.le_trans first (Nat.min_le_left a b), fun x hx => ?_⟩
    rcases List.mem_cons.1 hx with rfl | hx
    · exact Nat.le_trans first (Nat.min_le_right a x)
    · exact others x hx

/-- The earliest of the value times, and a free value where there is none. -/
def State.fetchTime (s : State) : List Nat → State × Nat
  | [] => (s.draw, Config.freeValue s.freeCtr)
  | a :: r => (s, r.foldl min a)

theorem State.fetchTime_spec (s : State) (times : List Nat) : (s.fetchTime times).1.hub = s.hub ∧ (s.fetchTime times).1.regs = s.regs ∧
    (∀ l, (s.fetchTime times).1.payloadOf l = s.payloadOf l) ∧ ∀ t ∈ times, (s.fetchTime times).2 ≤ t := by
  cases times with
  | nil => exact ⟨rfl, rfl, fun _ => rfl, fun t ht => absurd ht List.not_mem_nil⟩
  | cons a r =>
    refine ⟨rfl, rfl, fun _ => rfl, fun t ht => ?_⟩
    rcases List.mem_cons.1 ht with rfl | ht
    · exact (foldl_min_le r t).1
    · exact (foldl_min_le r a).2 t ht

/-- A frame held for its window. -/
def State.fetched (s : State) (i flags t : Nat) (l : List Nat) : State :=
  s.updN fun c => { c with built := SMap.put c.built i [] (beBytes 1 flags ++ beBytes 8 t ++ s.payloadOf l) }

theorem State.built_fetched (s : State) (i flags t : Nat) (l : List Nat) :
    SMap.get (s.fetched i flags t l).cons.built i [] = beBytes 1 flags ++ beBytes 8 t ++ s.payloadOf l :=
  SMap.get_put_same s.cons.built i [] (beBytes 1 flags ++ beBytes 8 t ++ s.payloadOf l)

theorem State.fetch_idle (h : 4096 ≤ i ∨ s.get (ALM_E_SCHED_12 (s.actE i)) ≠ 1) : s.fetch i = s := if_pos h

section
variable (hi : i < 4096) (kind : s.get (ALM_E_SCHED_12 (s.actE i)) = 1)
include hi kind

theorem State.fetch_refused (h : s.fetchOk (s.actE i) (s.fetchVars (s.actE i)) = false) :
    s.fetch i = s.updN fun c => { c with built := SMap.erase c.built i } :=
  (if_neg (by omega)).trans (if_pos (by rw [← State.fetchVars, h]; rfl))

theorem State.fetch_forms (h : s.fetchOk (s.actE i) (s.fetchVars (s.actE i)) = true) : ∃ t, SMap.get (s.fetch i).cons.built i [] =
      beBytes 1 (s.fetchFlags (s.fetchVars (s.actE i))) ++ beBytes 8 t ++ s.payloadOf (s.listOf (s.get (ALM_E_LIST_0 (s.actE i))) (s.get (ALM_E_LIST_16 (s.actE i)))) ∧
    (s.fetch i).hub = s.hub ∧ (s.fetch i).regs = s.regs ∧ ∀ d ∈ s.fetchVars (s.actE i), t ≤ s.hubNat (d.off + 8) 8 := by
  let timed := s.fetchTime ((s.fetchVars (s.actE i)).map fun d => s.hubNat (d.off + 8) 8)
  have formed : s.fetch i = timed.1.fetched i (s.fetchFlags (s.fetchVars (s.actE i))) timed.2
      (s.listOf (s.get (ALM_E_LIST_0 (s.actE i))) (s.get (ALM_E_LIST_16 (s.actE i)))) := by
    refine (if_neg (by omega)).trans ((if_neg (by rw [← State.fetchVars, h]; exact Bool.false_ne_true)).trans ?_)
    simp only [timed, State.fetchVars]
    split <;> next times =>
      simp only [times]
      rfl
  obtain ⟨hub, regs, payload, earliest⟩ := s.fetchTime_spec ((s.fetchVars (s.actE i)).map fun d => s.hubNat (d.off + 8) 8)
  rw [formed]
  refine ⟨timed.2, ?_, hub, regs, fun d hd => earliest _ (List.mem_map_of_mem hd)⟩
  rw [← payload]
  exact State.built_fetched _ _ _ _ _

end

end Sys2Proof.Machine
end

section
/-! ConsistCyclesAndFrames: arbitrating windows (09 R239, R250; 10 R274, R285). -/

namespace Sys2Proof.Machine

variable {s t u : State} {x i q : Nat} {f : List Byte} {ports : List Nat}

/-! ## The window (R250) -/

theorem State.arbWindow_idle (h : 4096 ≤ i ∨ s.get (ALM_E_SCHED_12 (s.actE i)) ≠ 2 ∨ s.eOccurs (s.actE i) s.cons.k = false ∨ s.consMute = true ∨
    s.sendPorts (s.get (ALM_E_SCHED_16 (s.actE i))) = []) : s.arbWindow i = s := by
  unfold State.arbWindow
  dsimp only
  split
  · rfl
  · rename_i due
    have none : s.sendPorts (s.get (ALM_E_SCHED_16 (s.actE i))) = [] := by
      refine (((h.resolve_left fun e => due (.inl e)).resolve_left fun e => due (.inr (.inl e))).resolve_left fun e => due (.inr (.inr (.inl ?_)))).resolve_left
        fun e => due (.inr (.inr (.inr e)))
      rw [e]
      rfl
    rw [none]
    rfl

/-- Where nothing of the Clockmaker's waits, the window is the transmit classes'. -/
theorem State.delaySend_none (due : s.clk.reqDue = []) (waiting : s.clk.answers = []) : s.delaySend i ports = s := by
  have clock : ({ s.clk with reqDue := [], answers := [] } : ClockS) = s.clk := by rw [← due, ← waiting]
  unfold State.delaySend
  rw [due, waiting]
  exact congrArg (fun k => ({ s with clk := k } : State)) clock

theorem State.arbWindow_due (hi : i < 4096) (kind : s.get (ALM_E_SCHED_12 (s.actE i)) = 2) (due : s.eOccurs (s.actE i) s.cons.k = true) (speaks : s.consMute = false)
    (anyPort : s.sendPorts (s.get (ALM_E_SCHED_16 (s.actE i))) ≠ []) (none : s.clk.reqDue = []) (waiting : s.clk.answers = []) :
    s.arbWindow i = s.arbLoop (s.sendPorts (s.get (ALM_E_SCHED_16 (s.actE i)))) (s.get (ALM_E_LEN_0 (s.actE i)))
      ((List.range 8).map fun c => (s.q (s.get (ALM_TXQ_0 c))).pkts.length).sum 0 := by
  unfold State.arbWindow
  dsimp only
  rw [if_neg (by simp [hi, kind, due, speaks]), if_neg (by simpa using anyPort), State.delaySend_none none waiting, none, waiting]
  exact congrArg _ (Nat.zero_mul _)

section
variable {len n : Nat} (head : s.classHead = some (q, f, false)) (short : frameLen f + 6 ≤ 1518) (whole : 14 ≤ f.length)
include head short whole

theorem State.arbLoop_full (full : len * 40 < (f.length + 30) * 8 + 2560) : s.arbLoop ports len n 0 = s := by
  cases n with
  | zero => rfl
  | succ n =>
    unfold State.arbLoop
    rw [head]
    dsimp only
    rw [if_neg (by simp only [Bool.false_eq_true, false_or]; omega), if_pos (by omega)]

theorem State.arbLoop_one (fits : (f.length + 30) * 8 + 2560 ≤ len * 40) : s.arbLoop ports len 1 0 = (s.classSend ports f).qTake q := by
  unfold State.arbLoop
  rw [head]
  dsimp only
  rw [if_neg (by simp only [Bool.false_eq_true, false_or]; omega), if_neg (by omega)]
  rfl

end

/-! ## A packet of a class (R239, R250) -/

theorem queuePage {o l w r n : Nat} (h : o * 32 + l < 131072) : (⟨0x0E, o, l, w, r, n⟩ : Fld).pageOf = 0x0E := by
  simp only [Fld.pageOf, Fld.key]
  omega

/-- The parity of a queue's words is that of hub SRAM and of the queue's place. -/
theorem State.parity_congr {j : Nat} (hub : t.hub = s.hub) (queue : t.q q = s.q q) (regs : ∀ g : Fld, g.pageOf < 0x30 → t.get g = s.get g) :
    t.qParityBad q (t.qAt q j) = s.qParityBad q (s.qAt q j) := by
  have base : t.qBase q = s.qBase q := regs _ (by rw [QMGR_CFG_BASE_0, queuePage (by decide)]; decide)
  have lines : t.qL q = s.qL q := regs _ (by rw [QMGR_CFG_LINES_0, queuePage (by decide)]; decide)
  simp only [State.qParityBad, State.qAt, State.qWord, State.qTag, State.qW, base, lines, queue, State.hubNat_congr hub]

/-- A queue's head packet that is whole: its words pass the parity check. -/
theorem State.qPeek_intact {p : List Byte × Bool} (peek : s.qPeek q = some p) (intact : p.2 = false) :
    ∃ k r, (s.q q).pkts = k :: r ∧ ∀ j < k, s.qParityBad q (s.qAt q j) = false := by
  unfold State.qPeek at peek
  dsimp only at peek
  split at peek
  · cases peek
  · split at peek
    · cases peek
    · next k r packets =>
      cases peek
      simp only [Bool.or_eq_false_iff, List.any_map, List.any_eq_false, List.mem_range, Function.comp_apply, Bool.not_eq_true] at intact
      exact ⟨k, r, packets, intact.2⟩

/-- The head packet of a queue goes. -/
theorem State.qTake_sound {k : Nat} {r : List Nat} (packets : (s.q q).pkts = k :: r) (sound : ∀ j < k, s.qParityBad q (s.qAt q j) = false) :
    ∃ g : QS → QS, s.qTake q = s.updQ q g ∧ ∀ o, (g o).pkts = r := by
  have clean : ((List.range k).map fun j => s.qAt q j).filter (fun i => s.qParityBad q i) = [] := by
    simpa [List.filter_eq_nil_iff] using sound
  unfold State.qTake
  dsimp only
  rw [packets]
  dsimp only
  rw [clean]
  exact ⟨_, rfl, fun _ => rfl⟩

/-- The highest class with a packet waiting: its queue holds one at least, and the words of an intact one pass the parity check. -/
theorem State.classHead_spec (head : s.classHead = some (q, f, false)) : (∃ c < 8, q = s.get (ALM_TXQ_0 c)) ∧
    ∃ k r, (s.q q).pkts = k :: r ∧ ∀ j < k, s.qParityBad q (s.qAt q j) = false := by
  obtain ⟨c, hc, waiting⟩ := List.mem_filterMap.1 (List.mem_of_head? head)
  have enabled : s.flag (ALM_TXQ_31 c) = true := by
    by_contra off
    rw [if_neg off] at waiting
    cases waiting
  rw [if_pos enabled] at waiting
  obtain ⟨⟨g, bad⟩, peek, same⟩ := Option.map_eq_some_iff.1 waiting
  cases same
  refine ⟨⟨c, by simp only [List.mem_cons, List.not_mem_nil, or_false] at hc; omega, rfl⟩, ?_⟩
  exact State.qPeek_intact peek rfl

/-- The step of a packet on one port. -/
def State.classPort (f : List Byte) (s : State) (x : Nat) : State :=
  (s.ptp x f).1.portSend x ((s.ptp x f).2 ++ (s.ptp x f).1.rctOf x (s.ptp x f).2)

theorem State.classSend_eq (foreign : etherType f ≠ 0x88B5) :
    s.classSend ports f = (s.each ports (State.classPort f)).updN fun c => { c with rct := (c.rct + 1) % 65536 } := by
  unfold State.classSend
  simp only [if_neg foreign]
  rfl

theorem State.sameFor_ptp (hx : x < 4) (s : State) (f : List Byte) (y : Nat) : s.SameFor y (s.ptp x f).1 := by
  unfold State.ptp
  split
  · exact .refl y s
  · split
    · exact State.sameFor_stampTx hx s y
    · exact .refl y s

theorem State.ptp_plain (plain : s.flag (TS_PORTCTL_1 x) = false) : s.ptp x f = (s, f) := if_pos (by rw [plain]; rfl)

theorem State.SameFor.plain (h : s.SameFor x t) (hx : x < 4) (plain : s.flag (TS_PORTCTL_1 x) = false) : t.flag (TS_PORTCTL_1 x) = false := by
  rw [State.flag, h.regs _ (.inr (.inr (.inr (by simp only [TS_PORTCTL_1, Fld.key]; omega))))]
  exact plain

section
variable (hn : ports.Nodup) (hl : ∀ x ∈ ports, x < 4) (ready : ∀ x ∈ ports, s.flag (TS_PORTCTL_1 x) = false ∧ s.switchOpen x = true)
include hn hl ready

/-- A packet leaves each of its ports with the trailer of its plane. -/
theorem State.classPorts_wire (hx : x ∈ ports) : SMap.get (s.each ports (State.classPort f)).wire x [] = f ++ s.rctOf x f := by
  have sent := (State.each_portSend (s := s) (before := fun u x => (u.ptp x f).1) (frame := fun u x => (u.ptp x f).2 ++ (u.ptp x f).1.rctOf x (u.ptp x f).2) hn hl
    (fun u b hb y => State.sameFor_ptp (hl b hb) u f y) (fun u y hy h => by
      rw [State.ptp_plain (h.plain (hl y hy) (ready y hy).1), State.ptp_plain (ready y hy).1, h.rctOf]) hx).1 (ready x hx).2
  rw [State.ptp_plain (ready x hx).1] at sent
  exact sent

/-- A packet that goes out on all of its ports leaves hub SRAM, the queues, the trailer's number, and every register but those of ports and Porter. -/
theorem State.classPorts_keeps : let z := s.each ports (State.classPort f)
    z.hub = s.hub ∧ z.queues = s.queues ∧ z.cons.rct = s.cons.rct ∧ ∀ g : Fld, g.pageOf < 0x30 → z.get g = s.get g := by
  unfold State.each
  induction ports generalizing s with
  | nil => exact ⟨rfl, rfl, rfl, fun _ _ => rfl⟩
  | cons a r ih =>
    obtain ⟨plain, opened⟩ := ready a List.mem_cons_self
    have four := hl a List.mem_cons_self
    have step : State.classPort f s a = s.portSend a (f ++ s.rctOf a f) := by rw [State.classPort, State.ptp_plain plain]
    obtain ⟨hub, queues, rct, regs⟩ := State.portSend_open_keeps (f := f ++ s.rctOf a f) opened four
    obtain ⟨fresh, hn⟩ := List.nodup_cons.1 hn
    obtain ⟨hub', queues', rct', regs'⟩ := ih (s := State.classPort f s a) hn (fun x hx => hl x (List.mem_cons_of_mem _ hx)) fun x hx => by
      have same : s.SameFor x (State.classPort f s a) := by
        rw [step]
        exact State.sameFor_portSend four (hl x (List.mem_cons_of_mem _ hx)) (fun e => fresh (e ▸ hx)) s _
      obtain ⟨plain, opened⟩ := ready x (List.mem_cons_of_mem _ hx)
      exact ⟨same.plain (hl x (List.mem_cons_of_mem _ hx)) plain, same.switchOpen.trans opened⟩
    rw [step] at hub' queues' rct' regs'
    rw [List.foldl_cons, step]
    exact ⟨hub'.trans hub, queues'.trans queues, rct'.trans rct, fun g hg => (regs' g hg).trans (regs g hg)⟩

end

/-- The packet of the one class that waits goes out on the window's ports, and its queue is empty. -/
theorem State.arbitrated {len : Nat} (head : s.classHead = some (q, f, false)) (short : frameLen f + 6 ≤ 1518) (whole : 14 ≤ f.length)
    (fits : (f.length + 30) * 8 + 2560 ≤ len * 40) (only : ((List.range 8).map fun c => (s.q (s.get (ALM_TXQ_0 c))).pkts.length).sum = 1)
      (foreign : etherType f ≠ 0x88B5)
    (hn : ports.Nodup) (hl : ∀ x ∈ ports, x < 4) (ready : ∀ x ∈ ports, s.flag (TS_PORTCTL_1 x) = false ∧ s.switchOpen x = true) :
    let z := s.arbLoop ports len 1 0
    (z.q q).pkts = [] ∧ z.cons.rct = (s.cons.rct + 1) % 65536 ∧ ∀ x ∈ ports, SMap.get z.wire x [] = f ++ s.rctOf x f := by
  obtain ⟨⟨c, hc, named⟩, k, r, packets, sound⟩ := State.classHead_spec head
  obtain ⟨hub, queues, rct, regs⟩ := State.classPorts_keeps (f := f) hn hl ready
  have last : r = [] := by
    have most := List.le_sum_of_mem (List.mem_map_of_mem (f := fun c => (s.q (s.get (ALM_TXQ_0 c))).pkts.length) (List.mem_range.2 hc))
    rw [only, ← named, packets, List.length_cons] at most
    exact List.eq_nil_of_length_eq_zero (by omega)
  let sent := s.classSend ports f
  have e : sent = (s.each ports (State.classPort f)).updN fun c => { c with rct := (c.rct + 1) % 65536 } := State.classSend_eq foreign
  have queue : sent.q q = s.q q := State.q_congr (by rw [e]; exact queues) q
  have ring (g : Fld) (hg : g.pageOf < 0x30) : sent.get g = s.get g := by
    rw [e]
    exact regs g hg
  have sound' : ∀ j < k, sent.qParityBad q (sent.qAt q j) = false := fun j hj => by
    rw [State.parity_congr (by rw [e]; exact hub) queue ring]
    exact sound j hj
  obtain ⟨g, taken, left⟩ := State.qTake_sound (by rw [queue]; exact packets) sound'
  rw [State.arbLoop_one head short whole fits, show s.classSend ports f = sent from rfl, taken]
  refine ⟨?_, ?_, fun x hx => ?_⟩
  · rw [State.q_updQ, left, last]
  · rw [e]
    exact congrArg (fun n => (n + 1) % 65536) rct
  · rw [e]
    exact State.classPorts_wire hn hl ready hx

end Sys2Proof.Machine
end

section
/-! ConsistCyclesAndFrames: frames received, frames missed, and the commands (09 R240, R251, R252, R254). -/

namespace Sys2Proof.Machine

variable {s : State} {x r : Nat} {f : List Byte} {ok : Bool}

/-! ## Frames received (R240, R251) -/

/-- A frame dropped: its counter, the port's errors, bit 1 of the port's page. -/
theorem State.rxDrop_spec (s : State) (hx : x < 4) {o w n : Nat} (hl : o * 32 < 131072) (err : o ≠ 0x030) (raw : o ≠ 0x020) :
    let c : Fld := ⟨0x30 + x, o, 0, w, n, 0⟩
    (s.rxDrop x c).get c = s.oneMore c ∧ (s.rxDrop x c).get (ETH_err_count x) = s.oneMore (ETH_err_count x) ∧
    bitOf ((s.rxDrop x c).get (rawOf (0x30 + x))) 1 = true ∧ s.keepsBut (s.rxDrop x c) [0x30 + x, 0x0A] ∧ (s.rxDrop x c).hub = s.hub := by
  intro c
  have page {o l w n : Nat} (h : o * 32 + l < 131072) : (⟨0x30 + x, o, l, w, n, 0⟩ : Fld).pageOf = 0x30 + x := ethPage hx h
  have own {o w n : Nat} (h : o * 32 + 0 < 131072) (hr : o ≠ 0x020) (u : State) :
      (u.raiseInt (0x30 + x) 1).get ⟨0x30 + x, o, 0, w, n, 0⟩ = u.get ⟨0x30 + x, o, 0, w, n, 0⟩ :=
    State.get_raiseInt_ne (by rw [page h]; omega) (ethKey_ne (by omega))
  refine ⟨?_, ?_, State.bitOf_raw_raiseInt (by omega) (by omega) (by decide), ?_, (State.raiseInt_hub _ _ _).1⟩
  · refine (own (by omega) raw _).trans ((State.get_count_ne (ethKey_ne (by omega))).trans (State.get_count s c))
  · refine (own (by decide) (by decide) _).trans ((State.get_count _ (ETH_err_count x)).trans ?_)
    unfold State.oneMore
    rw [show (s.count c).get (ETH_err_count x) = s.get (ETH_err_count x) from State.get_count_ne (ethKey_ne (by omega))]
  · refine State.keepsBut_raiseInt (State.keepsBut_count (State.keepsBut_count State.keepsBut_refl ?_) ?_) (by simp)
      (by rw [Nat.mod_eq_of_lt (by omega)]; exact List.mem_cons_self)
    · rw [page (by omega)]
      exact List.mem_cons_self
    · rw [show (ETH_err_count x).pageOf = 0x30 + x from page (by decide)]
      exact List.mem_cons_self

theorem State.consRecv_idle (h : s.nPorts ≤ x ∨ s.flag (ETH_up x) = false ∨ s.power ≠ .run ∨ s.flag PWR_doze = true) : s.consRecv x f ok = s :=
  if_pos (by simpa using h)

section
variable (there : x < s.nPorts) (up : s.flag (ETH_up x) = true) (run : s.power = .run) (awake : s.flag PWR_doze = false)
include there up run awake

theorem State.consRecv_long (long : 1518 < frameLen f) : s.consRecv x f ok = s.rxDrop x (ETH_RX_LONG_0 x) :=
  (if_neg (by simp [there, up, run, awake])).trans (if_pos long)

section
variable (size : frameLen f ≤ 1518)
include size

theorem State.consRecv_short (short : f.length + 4 < 64 + tagLen f) : s.consRecv x f ok = s.rxDrop x (ETH_RX_SHORT_0 x) :=
  (if_neg (by simp [there, up, run, awake])).trans ((if_neg (by omega)).trans (if_pos short))

section
variable (least : 64 + tagLen f ≤ f.length + 4)
include least

theorem State.consRecv_damaged : s.consRecv x f false = s.rxDrop x (ETH_RX_FCS_0 x) :=
  (if_neg (by simp [there, up, run, awake])).trans ((if_neg (by omega)).trans ((if_neg (by omega)).trans (if_pos rfl)))

theorem State.consRecv_elsewhere (data : etherType f ≠ 0x8808) (other : s.dstOk x f = false) : s.consRecv x f true = s.count (ETH_RX_NOMATCH_0 x) :=
  (if_neg (by simp [there, up, run, awake])).trans ((if_neg (by omega)).trans ((if_neg (by omega)).trans ((if_neg Bool.false_ne_true).trans
    ((if_neg data).trans (if_pos (by rw [other]; rfl))))))

/-- A kind 0 frame of another sender comes to its receive entry. -/
theorem State.consRecv_kind0 (type : etherType f = 0x88B5) (taken : s.dstOk x f = true) (kind : beAt (f.take 12 ++ f.drop (12 + tagLen f)) 14 1 = 0x10)
    (foreign : beAt (f.take 12 ++ f.drop (12 + tagLen f)) 16 2 ≠ s.get ALM_FA_0)
    (entry : s.rxEntry (beAt (f.take 12 ++ f.drop (12 + tagLen f)) 16 2) (beAt (f.take 12 ++ f.drop (12 + tagLen f)) 18 2 % 4096) = some r) :
    s.consRecv x f true = s.kind0 x r f (f.take 12 ++ f.drop (12 + tagLen f)) := by
  unfold State.consRecv
  rw [if_neg (by simp [there, up, run, awake]), if_neg (by omega), if_neg (by omega), if_neg (by simp), if_neg (by omega),
    if_neg (by simp [taken]), if_neg (by simp [type])]
  dsimp only
  rw [kind, if_neg (by decide), if_neg (by decide), if_neg (by decide), if_neg (fun h => foreign h.1), entry]

end
end
end

/-! ## A frame of an exclusive window (R251, R252) -/

/-- The occurrence a receive entry accepted last is not before this one. -/
def State.seen (s : State) (r m pos : Nat) : Prop :=
  let last := SMap.get s.cons.rx r 0
  last ≠ 0 ∧ (ahead m ((last - 1) / 64) || (m == (last - 1) / 64 && decide ((last - 1) % 64 < pos))) = false

section
variable {g : List Byte} (schedule : beAt g 36 2 = s.cons.act.id) (kind : s.get (ALM_E_SCHED_12 (s.actE (beAt g 18 2 % 4096))) = 1)
  (owner : s.get (ALM_E_OWNER_0 (s.actE (beAt g 18 2 % 4096))) = beAt g 16 2) (charge : bitOf (beAt g 15 1) 7 = true)
  (timely : s.timeOk (s.actE (beAt g 18 2 % 4096)) (beAt g 20 1) (beAt g 22 4) = true)
include schedule kind owner charge timely

theorem State.kind0_duplicate (old : s.seen r (beAt g 22 4) (beAt g 20 1)) : s.kind0 x r f g = s.count (ETH_RX_DUP_0 x) := by
  unfold State.kind0
  dsimp only
  rw [if_neg (by simp [schedule]), if_neg (by simp [kind, owner, charge]), if_neg (by simp [timely]), if_pos ⟨old.1, by rw [old.2]; rfl⟩]

theorem State.kind0_new (hx : x < 4) (new : ¬ s.seen r (beAt g 22 4) (beAt g 20 1)) (image : s.flag (ALM_R_TGT_28 r) = false) (live : s.passive = false) :
    s.kind0 x r f g = (((s.updN fun c => { c with rx := SMap.put c.rx r 0 (beAt g 22 4 * 64 + beAt g 20 1 + 1) }).count (ALM_R_CNT_0 r)).count
      (ETH_RX_GOOD_0 x)).listWrite
      (0x4000 + r) (some (beAt g 26 8)) (sub g 38 (beAt g 34 2)) (s.listOf (s.get (ALM_R_TGT_0 r)) (s.get (ALM_R_TGT_16 r))) (ALM_R_SHORT_0 r) := by
  let noted := (s.updN fun c => { c with rx := SMap.put c.rx r 0 (beAt g 22 4 * 64 + beAt g 20 1 + 1) }).count (ALM_R_CNT_0 r)
  have target {o l w n : Nat} (h : o * 32 + l ≠ 0x148 * 32) (hl : o * 32 + l < 131072) :
      noted.get ⟨0x36, o, l, w, n, 1 + r⟩ = s.get ⟨0x36, o, l, w, n, 1 + r⟩ :=
    State.get_count_ne (by simp only [ALM_R_CNT_0, Fld.key]; omega)
  have counted {o l w n : Nat} (h : o * 32 + l ≠ 0x148 * 32) (hl : o * 32 + l < 131072) :
      (noted.count (ETH_RX_GOOD_0 x)).get ⟨0x36, o, l, w, n, 1 + r⟩ = s.get ⟨0x36, o, l, w, n, 1 + r⟩ :=
    (State.get_count_ne (by simp only [ETH_RX_GOOD_0, Fld.key]; omega)).trans (target h hl)
  have flag : noted.flag (ALM_R_TGT_28 r) = false := (congrArg (· != 0) (target (by decide) (by decide))).trans image
  have elements : (noted.count (ETH_RX_GOOD_0 x)).listOf ((noted.count (ETH_RX_GOOD_0 x)).get (ALM_R_TGT_0 r)) ((noted.count (ETH_RX_GOOD_0 x)).get (ALM_R_TGT_16 r)) =
      s.listOf (s.get (ALM_R_TGT_0 r)) (s.get (ALM_R_TGT_16 r)) :=
    congrArg₂ s.listOf (counted (by decide) (by decide)) (counted (by decide) (by decide))
  unfold State.kind0
  dsimp only
  rw [if_neg (by simp [schedule]), if_neg (by simp [kind, owner, charge]), if_neg (by simp [timely]), if_neg fun h => new ⟨h.1, Bool.not_eq_eq_eq_not.1 h.2⟩]
  refine (if_neg (by rw [flag]; exact Bool.false_ne_true)).trans
    ((if_neg (by rw [show (noted.count (ETH_RX_GOOD_0 x)).passive = false from live]; exact Bool.false_ne_true)).trans ?_)
  exact congrArg ((noted.count (ETH_RX_GOOD_0 x)).listWrite (0x4000 + r) (some (beAt g 26 8)) (sub g 38 (beAt g 34 2)) · (ALM_R_SHORT_0 r)) elements

end

/-! ## Frames missed (R254) -/

theorem ahead_self (m : Nat) : ahead m m = false := by
  simp [ahead, unsint, sint]

theorem State.missCheck_idle (h : 4096 ≤ r ∨ s.flag (ALM_R_MATCH_31 r) = false ∨ s.power ≠ .run ∨ s.lastOcc (s.actE (s.get (ALM_R_MATCH_16 r))) = none) :
    s.missCheck r = s := by
  unfold State.missCheck
  split
  · rfl
  · next on =>
    have none : s.lastOcc (s.actE (s.get (ALM_R_MATCH_16 r))) = none :=
      ((h.resolve_left fun e => on (.inl e)).resolve_left fun e => on (.inr (.inl (by rw [e]; rfl)))).resolve_left fun e => on (.inr (.inr e))
    rw [none]

section
variable {k : Nat} (hr : r < 4096) (on : s.flag (ALM_R_MATCH_31 r) = true) (run : s.power = .run) (occurs : s.lastOcc (s.actE (s.get (ALM_R_MATCH_16 r))) = some k)
include hr on run occurs

theorem State.missCheck_arrived (last : SMap.get s.cons.rx r 0 = s.mOf k * 64 + s.posOf k + 1) (pos : s.posOf k < 64) : s.missCheck r = s := by
  unfold State.missCheck
  rw [if_neg (by simp [hr, on, run]), occurs]
  have count : (s.mOf k * 64 + s.posOf k + 1 - 1) / 64 = s.mOf k := by omega
  have place : (s.mOf k * 64 + s.posOf k + 1 - 1) % 64 = s.posOf k := by omega
  dsimp only
  rw [last, count, place, if_pos (by simp [ahead_self])]

theorem State.missCheck_absent (never : SMap.get s.cons.rx r 0 = 0) : let z := s.missCheck r
    z.get (ALM_R_CNT_16 r) = s.oneMore (ALM_R_CNT_16 r) ∧ z.get ALMANAC_miss_count = s.oneMore ALMANAC_miss_count ∧ bitOf (z.get (rawOf 0x36)) 2 = true ∧
    s.keepsBut z [0x36, 7, 0x0A] := by
  let counted := (s.count (ALM_R_CNT_16 r)).count ALMANAC_miss_count
  have e : s.missCheck r = (counted.raiseInt 0x36 2).consRecord r 0x3604 3 r ((counted.raiseInt 0x36 2).get (ALM_R_CNT_16 r)) true := by
    unfold State.missCheck
    rw [if_neg (by simp [hr, on, run]), occurs]
    exact if_neg fun h => h.1 never
  have page : (ALM_R_CNT_16 r).pageOf = 0x36 := almPage (by decide)
  have own {g : Fld} (hg : g.pageOf = 0x36) (raw : g.key ≠ (rawOf 0x36).key) : (s.missCheck r).get g = counted.get g := by
    rw [e, State.get_consRecord (by decide) (by omega) (by omega), State.get_raiseInt_ne (by omega) raw]
  refine ⟨?_, ?_, ?_, ?_⟩
  · rw [own page (by simp only [ALM_R_CNT_16, rawOf, Fld.key]; omega)]
    exact (State.get_count_ne (by simp only [ALM_R_CNT_16, ALMANAC_miss_count, Fld.key]; omega)).trans (State.get_count _ _)
  · rw [own (by decide) (by decide), State.get_count, State.oneMore, State.get_count_ne (by simp only [ALM_R_CNT_16, ALMANAC_miss_count, Fld.key]; omega)]
    rfl
  · rw [e, State.get_consRecord (by decide) (by decide) (by decide)]
    exact State.bitOf_raw_raiseInt (by decide) (by decide) (by decide)
  · rw [e]
    exact State.keepsBut_consRecord (by decide) (by simp) (by simp) (State.keepsBut_raiseInt (State.keepsBut_count (State.keepsBut_count State.keepsBut_refl
      (by rw [page]; exact List.mem_cons_self)) (by decide)) (by simp) (by simp))

end

/-! ## The commands -/

/-- Settles O32: a basic cycle, a matrix cycle start, the fetch, the windows, a frame received and one missed, each by the lemma above. That the index is
max(k + 1, now / b), that windows of other senders count as missed, and that the lowest fitting receive entry takes a frame are log entry 22; that an entry, port
or window the command does not concern stays as it is, log entry 3. -/
theorem consistCyclesAndFrames : Obligations.ConsistCyclesAndFrames := by
  unfold Obligations.ConsistCyclesAndFrames
  refine ⟨?basic, ?matrix, ?fetch, ?windows, ?received, ?missed⟩
  case basic =>
    intro s
    obtain ⟨cons, pos, count, hub, regs⟩ := State.posShow_spec (s.updN fun c => { c with k := max (c.k + 1) (s.now / (c.act.b * 1000)) })
    refine ⟨_, rfl, cons, pos, count, hub, fun g hg => regs g (fun e => hg ?_) fun e => hg ?_⟩
    · exact (Fld.pageOf_congr e).trans (by decide)
    · exact (Fld.pageOf_congr e).trans (by decide)
  case matrix =>
    intro s
    refine ⟨fun inside => congrArg Host.Outcome.next (if_pos inside), fun start free unarmed => ⟨_, rfl, State.matrixStart_same_bank start free unarmed⟩,
      fun start free armed => ⟨_, rfl, State.matrixStart_switch start free armed⟩⟩
  case fetch =>
    intro i s
    refine ⟨fun idle => congrArg Host.Outcome.next (State.fetch_idle idle), fun hi kind refused =>
      ⟨_, congrArg Host.Outcome.next (State.fetch_refused hi kind refused), ?_, rfl, rfl⟩,
      fun hi kind granted => ?_⟩
    · exact congrArg (·.getD []) (SMap.find?_erase_same s.cons.built i)
    · obtain ⟨t, built, hub, regs, earliest⟩ := State.fetch_forms hi kind granted
      exact ⟨_, t, rfl, built, hub, regs, earliest⟩
  case windows =>
    intro i s
    refine ⟨fun idle => congrArg Host.Outcome.next (State.exclStart_idle idle), fun hi kind due => ⟨fun none => ?_, fun b fetched speaks fits => ?_⟩,
      fun idle => congrArg Host.Outcome.next (State.syncWindow_idle idle), fun hi kind due own node speaks => ?_,
      fun idle => congrArg Host.Outcome.next (State.arbWindow_idle idle), fun q f hi kind due speaks anyPort reqs answers head whole short =>
        ⟨fun full => ?_, fun fits only foreign ready => ?_⟩⟩
    · exact ⟨_, congrArg Host.Outcome.next (State.exclStart_missed hi kind due none), State.winMissed_spec _ i⟩
    · exact ⟨_, congrArg Host.Outcome.next (State.exclStart_sends hi kind due fetched speaks fits), fun x hx =>
        State.exclFrames_sent (s := s.updN fun c => { c with built := SMap.erase c.built i }) hx⟩
    · exact ⟨_, congrArg Host.Outcome.next (State.syncWindow_sends hi kind due own node speaks), fun x hx opened => State.syncFrames_sent hx opened⟩
    · exact congrArg Host.Outcome.next ((State.arbWindow_due hi kind due speaks anyPort reqs answers).trans (State.arbLoop_full head short whole full))
    · have loop := State.arbWindow_due hi kind due speaks anyPort reqs answers
      rw [only] at loop
      exact ⟨_, congrArg Host.Outcome.next loop, State.arbitrated head short whole fits only foreign (s.sendPorts_spec _).1 (s.sendPorts_spec _).2 ready⟩
  case received =>
    intro x f ok s
    refine ⟨fun idle => congrArg Host.Outcome.next (State.consRecv_idle idle), fun there up run awake => ⟨fun long => ?_, fun size short => ?_, ?_, ?_, ?_⟩⟩
    · exact ⟨_, congrArg Host.Outcome.next (State.consRecv_long there up run awake long), s.rxDrop_spec x.isLt (by decide) (by decide) (by decide)⟩
    · exact ⟨_, congrArg Host.Outcome.next (State.consRecv_short there up run awake size short), s.rxDrop_spec x.isLt (by decide) (by decide) (by decide)⟩
    · rintro size least rfl
      exact ⟨_, congrArg Host.Outcome.next (State.consRecv_damaged there up run awake size least), s.rxDrop_spec x.isLt (by decide) (by decide) (by decide)⟩
    · rintro size least rfl data other
      exact congrArg Host.Outcome.next (State.consRecv_elsewhere there up run awake size least data other)
    · rintro r size least rfl type taken
      intro g i e pos m last old kind foreign entry schedule exclusive owner charge timely
      have arrives : exec (.consistFrameReceived x f true) s = .next (s.kind0 x.val r f g) :=
        congrArg Host.Outcome.next (State.consRecv_kind0 there up run awake size least type taken kind foreign entry)
      refine ⟨fun seen => ?_, fun new image live => ?_⟩
      · rw [arrives, State.kind0_duplicate schedule exclusive owner charge timely seen]
      · rw [arrives, State.kind0_new schedule exclusive owner charge timely x.isLt new image live]
  case missed =>
    intro r s
    refine ⟨fun idle => congrArg Host.Outcome.next (State.missCheck_idle idle), fun k hr on run occurs => ⟨fun last pos => ?_, fun never => ?_⟩⟩
    · exact congrArg Host.Outcome.next (State.missCheck_arrived hr on run occurs last pos)
    · exact ⟨_, rfl, State.missCheck_absent hr on run occurs never⟩

end Sys2Proof.Machine
end

section
/-! The Clockmaker (10): what its operations change, and what they leave of its own part, of the counter and of the registers (R155, R256, R263, R269, R271,
R278 to R280, R310). -/

namespace Sys2Proof.Machine

variable {s t u : State} {fs gs : List Fld}

/-! ## Signed numbers as words -/

theorem unsint_cast (w : Nat) (x : Int) : ((unsint w x : Nat) : Int) = x % 2 ^ w := Int.toNat_of_nonneg (Int.emod_nonneg _ (by positivity))

theorem unsint_lt (w : Nat) (x : Int) : unsint w x < 2 ^ w := by
  have := Int.emod_lt_of_pos x (show (0 : Int) < 2 ^ w by positivity)
  have cast := unsint_cast w x
  zify
  omega

theorem unsint_congr {w : Nat} {x y : Int} (h : x % 2 ^ w = y % 2 ^ w) : unsint w x = unsint w y := congrArg Int.toNat h

/-- A word read as a signed number is the word, modulo the words of its width. -/
theorem sint_emod (w v : Nat) : sint w v % 2 ^ w = (v : Int) % 2 ^ w := by
  unfold sint
  split
  · exact Int.emod_emod_of_dvd _ dvd_rfl
  · rw [Int.sub_emod_right, Int.emod_emod_of_dvd _ dvd_rfl]

theorem sint_unsint_emod (w : Nat) (x : Int) : sint w (unsint w x) % 2 ^ w = x % 2 ^ w := by
  rw [sint_emod, unsint_cast, Int.emod_emod_of_dvd _ dvd_rfl]

theorem unsint_sint_unsint_add (w : Nat) (x y : Int) : unsint w (sint w (unsint w x) + y) = unsint w (x + y) :=
  unsint_congr (Int.ModEq.add_right y (sint_unsint_emod w x))

/-! ## What stays -/

/-- A register outside the list, and outside the pages of the Ledger, the Courier and the cycle unit. -/
def Fld.outside (g : Fld) (fs : List Fld) : Bool := !([0x07, 0x0A, 0x0B].contains g.pageOf) && fs.all fun f => g.key != f.key

theorem Fld.outside_append {g : Fld} : g.outside (fs ++ gs) = (g.outside fs && g.outside gs) := by
  unfold Fld.outside
  rw [List.all_append]
  cases [0x07, 0x0A, 0x0B].contains g.pageOf <;> simp

theorem Fld.outside_of_subset {g : Fld} (h : g.outside gs = true) (sub : fs ⊆ gs) : g.outside fs = true := by
  simp only [Fld.outside, Bool.and_eq_true, List.all_eq_true] at h ⊢
  exact ⟨h.1, fun f hf => h.2 f (sub hf)⟩

theorem Fld.outside_ne {g f : Fld} (h : g.outside fs = true) (hf : f ∈ fs) : g.key ≠ f.key := by
  simp only [Fld.outside, Bool.and_eq_true, List.all_eq_true, bne_iff_ne] at h
  exact h.2 f hf

theorem Fld.outside_page {g : Fld} (h : g.outside fs = true) : g.pageOf ≠ 0x07 ∧ g.pageOf ≠ 0x0A ∧ g.pageOf ≠ 0x0B := by
  simpa [Fld.outside] using (Bool.and_eq_true_iff.1 h).1

/-- From s to t the Clockmaker's own part and the counter stay, and every register outside the list. -/
structure State.clockKept (s t : State) (fs : List Fld) : Prop where
  clk : t.clk = s.clk
  counter : t.counter = s.counter
  regs : ∀ g : Fld, g.outside fs = true → t.get g = s.get g

theorem State.clockKept.refl : s.clockKept s fs := ⟨rfl, rfl, fun _ _ => rfl⟩

theorem State.clockKept.trans (h : s.clockKept t fs) (h' : t.clockKept u gs) : s.clockKept u (fs ++ gs) where
  clk := h'.clk.trans h.clk
  counter := h'.counter.trans h.counter
  regs g hg := by
    rw [Fld.outside_append, Bool.and_eq_true] at hg
    exact (h'.regs g hg.2).trans (h.regs g hg.1)

theorem State.clockKept.mono (h : s.clockKept t fs) (sub : fs ⊆ gs) : s.clockKept t gs :=
  ⟨h.clk, h.counter, fun g hg => h.regs g (Fld.outside_of_subset hg sub)⟩

/-- A further change of registers of the list. -/
theorem State.clockKept.then (h : s.clockKept t gs) (h' : t.clockKept u fs) (sub : fs ⊆ gs) : s.clockKept u gs :=
  (h.trans h').mono (List.append_subset.2 ⟨List.Subset.refl _, sub⟩)

theorem State.clockKept.ite {p : Prop} [Decidable p] (ht : s.clockKept t fs) (hu : s.clockKept u fs) : s.clockKept (if p then t else u) fs := by
  split
  · exact ht
  · exact hu

theorem State.clockKept.get64 (h : s.clockKept t fs) {lo hi : Fld} (out : (lo.outside fs && hi.outside fs) = true) : t.get64 lo hi = s.get64 lo hi := by
  rw [Bool.and_eq_true] at out
  rw [State.get64, h.regs lo out.1, h.regs hi out.2, State.get64]

theorem State.clockKept.offset (h : s.clockKept t fs) (out : (CM_OFFSET_LO_0.outside fs && CM_OFFSET_HI_0.outside fs) = true) : t.offset = s.offset :=
  congrArg (sint 64) (h.get64 out)

theorem State.clockKept_set (s : State) (f : Fld) (v : Nat) : s.clockKept (s.set f v) [f] :=
  ⟨rfl, rfl, fun _ hg => State.get_set_ne s (Fld.outside_ne hg List.mem_cons_self)⟩

theorem State.clockKept_set64 (s : State) (lo hi : Fld) (v : Nat) : s.clockKept (s.set64 lo hi v) [lo, hi] :=
  (s.clockKept_set lo v).trans (State.clockKept_set _ hi _)

theorem State.clockKept_updN (s : State) (f : ConsS → ConsS) : s.clockKept (s.updN f) [] := ⟨rfl, rfl, fun _ _ => rfl⟩

theorem clk_apart : Apart State.clk := by
  constructor <;> intros <;> rfl

theorem counter_apart : Apart State.counter := by
  constructor <;> intros <;> rfl

theorem State.clockKept_raiseInt (s : State) (page bit : Nat) : s.clockKept (s.raiseInt page bit) [rawOf page] :=
  ⟨Apart.raiseInt clk_apart s page bit, Apart.raiseInt counter_apart s page bit, fun _ hg =>
    State.get_raiseInt_ne (Fld.outside_page hg).2.1 (Fld.outside_ne hg List.mem_cons_self)⟩

theorem State.clockKept_record (s : State) {code sev : Nat} {ws : List Nat} (h : sev < 8) : s.clockKept (s.record code sev ws) [] :=
  ⟨Apart.record clk_apart s h, Apart.record counter_apart s h, fun _ hg => State.get_record h (Fld.outside_page hg).1 (Fld.outside_page hg).2.1⟩

theorem State.clockKept_clkRecord (s : State) {code sev reason n : Nat} {c : Int} (h : sev < 8) : s.clockKept (s.clkRecord code sev reason c n) [] :=
  s.clockKept_record h

/-- A condition raised stays while others are raised beside it. -/
theorem State.bitOf_raw_raiseInt_of {page bit i : Nat} (h : page < 128) (h' : page ≠ 0x0A) (hi : i < 32) (raised : bitOf (s.get (rawOf page)) i = true) :
    bitOf ((s.raiseInt page bit).get (rawOf page)) i = true := by
  rw [State.raiseInt_raw h h', bitOf_mod_two_pow hi, bitOf_setBit, raised, Bool.true_or]

/-! ## Offset, anchor, rate, slews (R269, R278, R290) -/

theorem State.clockKept_addOffset (s : State) (c : Int) : s.clockKept (s.addOffset c) [CM_OFFSET_LO_0, CM_OFFSET_HI_0] := s.clockKept_set64 _ _ _

/-- A 64-bit signed value written to a pair of registers. -/
theorem State.get64_set64_unsint (s : State) {lo hi : Fld} (x : Int) (hlo : lo.w = 32) (hhi : hi.w = 32) (h : lo.key ≠ hi.key) :
    (s.set64 lo hi (unsint 64 x)).get64 lo hi = unsint 64 x :=
  (get64_set64_mod s _ hlo hhi h).trans (Nat.mod_eq_of_lt (unsint_lt 64 x))

theorem State.offset_word_addOffset (s : State) (c : Int) : (s.addOffset c).get64 CM_OFFSET_LO_0 CM_OFFSET_HI_0 = unsint 64 (s.offset + c) :=
  s.get64_set64_unsint _ rfl rfl (by decide)

/-- What a re-anchor moves from the product term into the offset. -/
def State.rateTerm (s : State) : Int := ((s.cns : Int) - (s.get64 CM_ANCHOR_LO_0 CM_ANCHOR_HI_0 : Nat)) * s.rateEff / 2 ^ 40

theorem State.clockKept_reanchor (s : State) : s.clockKept s.reanchor [CM_OFFSET_LO_0, CM_OFFSET_HI_0, CM_ANCHOR_LO_0, CM_ANCHOR_HI_0] :=
  (s.clockKept_addOffset s.rateTerm).trans (State.clockKept_set64 _ CM_ANCHOR_LO_0 CM_ANCHOR_HI_0 s.cns)

theorem State.anchor_reanchor (s : State) : s.reanchor.get64 CM_ANCHOR_LO_0 CM_ANCHOR_HI_0 = s.cns % 2 ^ 64 := get64_set64_mod _ _ rfl rfl (by decide)

theorem State.offset_word_reanchor (s : State) : s.reanchor.get64 CM_OFFSET_LO_0 CM_OFFSET_HI_0 = unsint 64 (s.offset + s.rateTerm) :=
  ((State.clockKept_set64 _ CM_ANCHOR_LO_0 CM_ANCHOR_HI_0 s.cns).get64 (by decide)).trans (s.offset_word_addOffset s.rateTerm)

theorem State.clockKept_setRate (s : State) (r : Int) :
    s.clockKept (s.setRate r) [CM_OFFSET_LO_0, CM_OFFSET_HI_0, CM_ANCHOR_LO_0, CM_ANCHOR_HI_0, CM_RATE_0] :=
  s.clockKept_reanchor.trans (State.clockKept_set _ CM_RATE_0 _)

theorem State.get_updK (s : State) (f : ClockS → ClockS) (g : Fld) : (s.updK f).get g = s.get g := rfl

/-! ## Jumps (R155, R256, R263, R280, R310) -/

theorem State.clockKept_clearJump (s : State) :
    s.clockKept s.clearJump [CLOCKMAKER_jump_pending, CLOCKMAKER_confirm, CM_PEND_LO_0, CM_PEND_HI_0] :=
  ((s.clockKept_set CLOCKMAKER_jump_pending 0).trans (State.clockKept_set _ CLOCKMAKER_confirm 0)).trans (State.clockKept_set64 _ CM_PEND_LO_0 CM_PEND_HI_0 0)

theorem State.clearJump_spec (s : State) : s.clearJump.get CLOCKMAKER_jump_pending = 0 ∧ s.clearJump.get CLOCKMAKER_confirm = 0 := by
  have pend (t : State) : t.clockKept (t.set64 CM_PEND_LO_0 CM_PEND_HI_0 0) [CM_PEND_LO_0, CM_PEND_HI_0] := t.clockKept_set64 _ _ _
  constructor
  · exact ((pend _).regs _ (by decide)).trans ((State.get_set_ne _ (by decide)).trans (State.get_set_same _ _ _))
  · exact ((pend _).regs _ (by decide)).trans (State.get_set_same _ _ _)

theorem State.clockKept_lastCorr (s : State) (c : Int) : s.clockKept (s.lastCorr c) [CM_LASTCORR_LO_0, CM_LASTCORR_HI_0] := s.clockKept_set64 _ _ _

theorem State.lastCorr_word (s : State) (c : Int) : (s.lastCorr c).get64 CM_LASTCORR_LO_0 CM_LASTCORR_HI_0 = unsint 64 c :=
  s.get64_set64_unsint c rfl rfl (by decide)

theorem State.clockKept_porterMarker (s : State) : s.clockKept s.porterMarker [PORTER_state, PORTER_STATE_8] :=
  ((s.clockKept_set PORTER_state 1).trans (State.clockKept_set _ PORTER_STATE_8 0)).trans ⟨rfl, rfl, fun _ _ => rfl⟩

theorem State.porterMarker_acquires (s : State) : s.porterMarker.get PORTER_state = 1 :=
  ((s.set PORTER_state 1).get_set_ne (f := PORTER_STATE_8) (v := 0) (by decide)).trans (s.get_set_same PORTER_state 1)

theorem State.clockKept_cycRealign (s : State) : s.clockKept s.cycRealign [] := by
  unfold State.cycRealign
  refine State.clockKept.ite (s.clockKept_updN _) ?_
  have raised (t : State) : t.clockKept (t.raiseInt 0x0B 2) [] :=
    ⟨(t.clockKept_raiseInt _ _).clk, (t.clockKept_raiseInt _ _).counter, fun g hg => State.get_raiseInt (Fld.outside_page hg).2.1 (Fld.outside_page hg).2.2⟩
  have moved (t : State) (m : CycS → CycS) : t.clockKept (t.updCyc m) [] := ⟨rfl, rfl, fun _ _ => rfl⟩
  exact (((s.clockKept_updN _).trans (moved _ _)).trans (raised _)).trans (State.clockKept_record _ (by decide))

theorem State.clockKept_pollRealign (s : State) : s.clockKept s.pollRealign [] :=
  State.each_keeps (P := fun u => s.clockKept u []) .refl fun u e hu =>
    have moved (m : SMap PollS) : s.clockKept (u.setPolls m) [] := ⟨hu.clk, hu.counter, hu.regs⟩
    State.clockKept.ite ((moved _).trans (State.clockKept_record _ (by decide))) (moved _)

theorem State.clockKept_fioRealign (s : State) : s.clockKept s.fioRealign [] := ⟨rfl, rfl, fun _ _ => rfl⟩

/-- What a jump sets going beside the Clockmaker. -/
theorem State.clockKept_realigned (s : State) : s.clockKept s.cycRealign.pollRealign.fioRealign [] :=
  (s.clockKept_cycRealign.trans (State.clockKept_pollRealign _)).trans (State.clockKept_fioRealign _)

theorem State.clockKept_takeJump (s : State) (c : Int) :
    s.clockKept (s.takeJump c) [CM_OFFSET_LO_0, CM_OFFSET_HI_0, CM_LASTCORR_LO_0, CM_LASTCORR_HI_0, PORTER_state, PORTER_STATE_8] :=
  (((s.clockKept_addOffset c).trans (State.clockKept_lastCorr _ c)).trans (State.clockKept_porterMarker _)).trans (State.clockKept_realigned _)

/-- An accepted jump: the offset, the correction shown, the Porter. -/
theorem State.takeJump_spec (s : State) (c : Int) : (s.takeJump c).get64 CM_OFFSET_LO_0 CM_OFFSET_HI_0 = unsint 64 (s.offset + c) ∧
    (s.takeJump c).get64 CM_LASTCORR_LO_0 CM_LASTCORR_HI_0 = unsint 64 c ∧ (s.takeJump c).get PORTER_state = 1 := by
  have marked : (s.addOffset c |>.lastCorr c).clockKept (s.takeJump c) [PORTER_state, PORTER_STATE_8] :=
    (State.clockKept_porterMarker _).trans (State.clockKept_realigned _)
  refine ⟨?_, ?_, ?_⟩
  · rw [marked.get64 (by decide), (State.clockKept_lastCorr _ c).get64 (by decide), s.offset_word_addOffset c]
  · rw [marked.get64 (by decide), State.lastCorr_word]
  · exact ((State.clockKept_realigned _).regs _ (by decide)).trans (State.porterMarker_acquires _)

/-! ## Changes of state (R271, R292) -/

/-- What a change of state tells: the page's condition 0 and the records. -/
def State.stateTold (s : State) (st reason : Nat) (c : Int) (n : Nat) : State :=
  let s := (s.raiseInt 0x38 0).clkRecord 0x3801 3 reason c n
  if st = 3 then s.clkRecord 0x3805 4 reason c n else if st = 4 then s.clkRecord 0x3806 5 reason c n else s

/-- A Clockmaker that has entered a state. -/
def State.stateSet (s : State) (st : Nat) : State :=
  let s := (s.set CLOCKMAKER_state st).setB CLOCKMAKER_sync (decide (st = 2 ∨ st = 3))
  if st = 2 then s.fioRealign else s

section
variable {st reason n : Nat} {c : Int}

theorem State.clkEnter_same (h : s.get CLOCKMAKER_state = st) : s.clkEnter st reason c n = s := if_pos h

theorem State.clkEnter_moved (h : s.get CLOCKMAKER_state ≠ st) : s.clkEnter st reason c n = (s.stateSet st).stateTold st reason c n := if_neg h

theorem State.clockKept_stateSet (s : State) (st : Nat) : s.clockKept (s.stateSet st) [CLOCKMAKER_state, CLOCKMAKER_sync] :=
  have entered := (s.clockKept_set CLOCKMAKER_state st).trans (State.clockKept_set _ CLOCKMAKER_sync (b2n (decide (st = 2 ∨ st = 3))))
  State.clockKept.ite (entered.trans (State.clockKept_fioRealign _)) entered

theorem State.stateSet_spec (s : State) (st : Nat) : (s.stateSet st).get CLOCKMAKER_state = st % 8 ∧
    (s.stateSet st).get CLOCKMAKER_sync = b2n (decide (st = 2 ∨ st = 3)) := by
  have shown (g : Fld) : (s.stateSet st).get g = ((s.set CLOCKMAKER_state st).setB CLOCKMAKER_sync (decide (st = 2 ∨ st = 3))).get g :=
    part_ite (part := fun u : State => u.get g) rfl rfl
  rw [shown, shown]
  exact ⟨(State.get_setB_ne (by decide)).trans (State.get_set_same _ _ _), State.get_setB _ _ _ (by decide)⟩

/-- What follows the raised condition are records. -/
theorem State.clockKept_told_raised (s : State) (st reason : Nat) (c : Int) (n : Nat) : (s.raiseInt 0x38 0).clockKept (s.stateTold st reason c n) [] :=
  have told := (s.raiseInt 0x38 0).clockKept_clkRecord (code := 0x3801) (sev := 3) (reason := reason) (n := n) (c := c) (by decide)
  .ite (told.trans (State.clockKept_clkRecord _ (by decide))) (.ite (told.trans (State.clockKept_clkRecord _ (by decide))) told)

theorem State.clockKept_stateTold (s : State) (st reason : Nat) (c : Int) (n : Nat) : s.clockKept (s.stateTold st reason c n) [rawOf 0x38] :=
  (s.clockKept_raiseInt 0x38 0).trans (s.clockKept_told_raised st reason c n)

theorem State.clockKept_clkEnter (s : State) (st reason : Nat) (c : Int) (n : Nat) :
    s.clockKept (s.clkEnter st reason c n) [CLOCKMAKER_state, CLOCKMAKER_sync, rawOf 0x38] := by
  by_cases h : s.get CLOCKMAKER_state = st
  · rw [State.clkEnter_same h]
    exact .refl
  · rw [State.clkEnter_moved h]
    exact (s.clockKept_stateSet st).trans (State.clockKept_stateTold _ st reason c n)

theorem State.state_clkEnter (s : State) (st reason : Nat) (c : Int) (n : Nat) :
    (s.clkEnter st reason c n).get CLOCKMAKER_state = if s.get CLOCKMAKER_state = st then st else st % 8 := by
  split
  case isTrue h => rw [State.clkEnter_same h, h]
  case isFalse h => rw [State.clkEnter_moved h, (State.clockKept_stateTold _ _ _ _ _).regs _ (by decide), (s.stateSet_spec st).1]

/-- A state the register can hold is the one shown. -/
theorem State.state_clkEnter_lt (h : st < 8) : (s.clkEnter st reason c n).get CLOCKMAKER_state = st := by
  rw [State.state_clkEnter, Nat.mod_eq_of_lt h, ite_self]

theorem State.state_clkEnter_mod (h : s.get CLOCKMAKER_state < 8) : (s.clkEnter st reason c n).get CLOCKMAKER_state = st % 8 := by
  rw [State.state_clkEnter]
  split
  case isTrue same => exact (Nat.mod_eq_of_lt (same ▸ h)).symm
  case isFalse => rfl

/-- Conditions raised before a change of state stay raised. -/
theorem State.raw_clkEnter {i : Nat} (hi : i < 32) (raised : bitOf (s.get (rawOf 0x38)) i = true) :
    bitOf ((s.clkEnter st reason c n).get (rawOf 0x38)) i = true := by
  by_cases h : s.get CLOCKMAKER_state = st
  · rwa [State.clkEnter_same h]
  · rw [State.clkEnter_moved h, (State.clockKept_told_raised _ _ _ _ _).regs _ (by decide)]
    exact State.bitOf_raw_raiseInt_of (by decide) (by decide) hi (by rwa [(s.clockKept_stateSet st).regs _ (by decide)])

end

end Sys2Proof.Machine
end

section
/-! ClockmakerCommandsAndPulses: reads of the time and the counter, the end of a slew, the commands of the Clockmaker, the pulse port (10 R268 to R271, R274,
R278, R280, R287, R289 to R291). -/

namespace Sys2Proof.Machine

variable {s t : State} {a : Acc} {page off v : Nat}

/-! ## Reads that show the time (R270) -/

/-- A register that shows something else of the state than its fields. -/
theorem State.pageRead_live (present : s.pagePresent page = true) (there : s.regAbsent page off = false) (plain : off ∉ [0x000, 0x004, 0x008, 0x020, 0x02C, 0x028])
    (live : s.liveRead a page off = some v) : s.pageRead a page off = (((s.readLatch a page off).readClear a page off).readAlso page off, v) := by
  simp only [List.mem_cons, List.not_mem_nil, or_false, not_or] at plain
  unfold State.pageRead
  simp [present, there, plain, live]

/-- Such a register, of one field that does not clear, read for its value and the latch it sets. -/
theorem State.readAt_live {row : Row} {i : Nat} (on : s.power = .run) (firmware : a.level ≠ 0) (present : s.pagePresent page = true) (no_pop : page ≠ 0x0E)
    (there : s.regAbsent page off = false) (plain : off ∉ [0x000, 0x004, 0x008, 0x020, 0x02C, 0x028]) (live : s.liveRead a page off = some v)
    (rows : rowsAt page off = [(row, i)]) (keeps : row.acc ≠ .rc) (also : ∀ t : State, t.readAlso page off = t) :
    s.readAt a page off false = (s.readLatch a page off, .value v) := by
  rw [State.readAt_page on firmware present fun h => no_pop h.1, State.pageRead_live present there plain live, State.readClear_kept rows keeps, also]

theorem State.readGives_time (on : s.power = .run) (firmware : a.level ≠ 0) :
    s.readGives (.cmTimeRead a) a 0x40038040 (s.set (CM_TIME_HI_0 (copyOf a)) (s.now / 2 ^ 32)) (.value (s.now % 2 ^ 32)) :=
  State.readGives_of_readAt rfl firmware (State.readAt_live (page := 0x38) (off := 0x040) on firmware rfl (by decide) rfl (by decide) rfl
    (row := ⟨0x040, 1, 0, 0, 32, .ro, fun _ _ => 0, id⟩) (i := 0) rfl (by decide) fun _ => rfl)

theorem State.readGives_counter (on : s.power = .run) (firmware : a.level ≠ 0) :
    s.readGives (.cmCntRead a) a 0x40038048 (s.set (CM_CNT_HI_0 (copyOf a)) (2 * s.counter / 2 ^ 32)) (.value (2 * s.counter % 2 ^ 32)) :=
  State.readGives_of_readAt rfl firmware (State.readAt_live (page := 0x38) (off := 0x048) on firmware rfl (by decide) rfl (by decide) rfl
    (row := ⟨0x048, 1, 0, 0, 32, .ro, fun _ _ => 0, id⟩) (i := 0) rfl (by decide) fun _ => rfl)

/-! ## The end of a slew (R278) -/

/-- What the truncated slew term lacks of the correction. -/
def State.slewRest (s : State) : Int := s.clk.slewC - ((s.cns : Int) - s.clk.slewFrom) * s.clk.slewRate / 2 ^ 40

theorem State.slewEnd_runs (runs : s.clk.slewRate ≠ 0) : s.slewEnd = s.stopSlew.addOffset s.slewRest := if_neg runs

theorem State.keepsBut_set64 {lo hi : Fld} {ps : List Nat} (h : s.keepsBut t ps) (pages : lo.pageOf ∈ ps ∧ hi.pageOf ∈ ps) :
    s.keepsBut (t.set64 lo hi v) ps := State.keepsBut_set (State.keepsBut_set h pages.1) pages.2

theorem State.keepsBut_reanchor (s : State) : s.keepsBut s.reanchor [0x38] :=
  State.keepsBut_set64 (State.keepsBut_set64 State.keepsBut_refl (by decide)) (by decide)

theorem State.slewEnd_spec (runs : s.clk.slewRate ≠ 0) : s.slewEnd.clk = { s.clk with slewRate := 0, slewC := 0, slewFrom := 0 } ∧
    s.slewEnd.get64 CM_ANCHOR_LO_0 CM_ANCHOR_HI_0 = s.cns % 2 ^ 64 ∧
    s.slewEnd.get64 CM_OFFSET_LO_0 CM_OFFSET_HI_0 = unsint 64 (s.offset + s.rateTerm + s.slewRest) ∧
    ∀ g : Fld, g.pageOf ≠ 0x38 → s.slewEnd.get g = s.get g := by
  have stopped : s.stopSlew.offset = sint 64 (unsint 64 (s.offset + s.rateTerm)) := congrArg (sint 64) s.offset_word_reanchor
  rw [State.slewEnd_runs runs]
  refine ⟨rfl, ?_, ?_, fun g hg => ?_⟩
  · exact ((State.clockKept_addOffset _ _).get64 (by decide)).trans s.anchor_reanchor
  · rw [State.offset_word_addOffset, stopped, unsint_sint_unsint_add]
  · have added : s.stopSlew.keepsBut (s.stopSlew.addOffset s.slewRest) [0x38] := State.keepsBut_set64 State.keepsBut_refl (by decide)
    exact (added.2 g (by simpa using hg)).trans (s.keepsBut_reanchor.2 g (by simpa using hg))

/-! ## Holdover (R271) -/

theorem State.holdoverExpiry_spec (held : s.get CLOCKMAKER_state = 3) : let z := s.clkEnter 4 7 0 0
    z.get CLOCKMAKER_state = 4 ∧ z.get CLOCKMAKER_sync = 0 ∧ bitOf (z.get (rawOf 0x38)) 0 = true ∧ s.keepsBut z [0x38, 7, 0x0A] := by
  have moved : s.clkEnter 4 7 0 0 = (s.stateSet 4).stateTold 4 7 0 0 := State.clkEnter_moved (by rw [held]; decide)
  refine ⟨State.state_clkEnter_lt (by decide), ?_, ?_, ?_⟩
  · rw [moved, (State.clockKept_stateTold _ _ _ _ _).regs _ (by decide), (s.stateSet_spec 4).2]
    rfl
  · rw [moved, (State.clockKept_told_raised _ _ _ _ _).regs _ (by decide)]
    exact State.bitOf_raw_raiseInt (by decide) (by decide) (by decide)
  · rw [moved]
    have entered : s.keepsBut (s.stateSet 4) [0x38, 7, 0x0A] := State.keepsBut_set (State.keepsBut_set State.keepsBut_refl (by decide)) (by decide)
    exact State.keepsBut_record (State.keepsBut_record (State.keepsBut_raiseInt entered (by simp) (by simp)) (by decide) (by simp) (by simp))
      (by decide) (by simp) (by simp)

/-! ## Jumps on command (R280) -/

/-- A jump taken on command: the jump, its condition and record, the command's status. -/
def State.jumpOnCommand (s : State) (code sev reason : Nat) (c : Int) (n : Nat) : State :=
  (((s.takeJump c).raiseInt 0x38 2).clkRecord code sev reason c n).cmStat 0

section
variable {code sev reason n : Nat} {c : Int} (hs : sev < 8)
include hs

theorem State.clockKept_jump_raised (s : State) : ((s.takeJump c).raiseInt 0x38 2).clockKept (s.jumpOnCommand code sev reason c n) [CM_CMD_STAT_0] :=
  (State.clockKept_clkRecord _ hs).trans (State.clockKept_set _ CM_CMD_STAT_0 0)

theorem State.clockKept_jump_taken (s : State) : (s.takeJump c).clockKept (s.jumpOnCommand code sev reason c n) [rawOf 0x38, CM_CMD_STAT_0] :=
  (State.clockKept_raiseInt _ 0x38 2).trans (s.clockKept_jump_raised hs)

theorem State.jumpOnCommand_spec (s : State) : let z := s.jumpOnCommand code sev reason c n
    z.get CM_CMD_STAT_0 = 0 ∧ z.get64 CM_OFFSET_LO_0 CM_OFFSET_HI_0 = unsint 64 (s.offset + c) ∧
    z.get64 CM_LASTCORR_LO_0 CM_LASTCORR_HI_0 = unsint 64 c ∧ z.get PORTER_state = 1 ∧ bitOf (z.get (rawOf 0x38)) 2 = true := by
  obtain ⟨offset, corr, porter⟩ := s.takeJump_spec c
  have taken := s.clockKept_jump_taken (code := code) (reason := reason) (n := n) (c := c) hs
  refine ⟨State.get_set_same _ _ _, (taken.get64 (by decide)).trans offset, (taken.get64 (by decide)).trans corr, (taken.regs _ (by decide)).trans porter, ?_⟩
  rw [(s.clockKept_jump_raised hs).regs _ (by decide)]
  exact State.bitOf_raw_raiseInt (by decide) (by decide) (by decide)

theorem State.clockKept_jumpOnCommand (s : State) : s.clockKept (s.jumpOnCommand code sev reason c n)
    [CM_OFFSET_LO_0, CM_OFFSET_HI_0, CM_LASTCORR_LO_0, CM_LASTCORR_HI_0, PORTER_state, PORTER_STATE_8, rawOf 0x38, CM_CMD_STAT_0] :=
  (s.clockKept_takeJump c).trans (s.clockKept_jump_taken hs)

end

/-- The correction refused, as a number. -/
def State.pendingCorr (s : State) : Int := sint 64 (s.get64 CM_PEND_LO_0 CM_PEND_HI_0)

theorem State.cmAccept_none (h : s.flag CLOCKMAKER_jump_pending = false) : s.cmAccept = s.set CM_CMD_STAT_0 1 := if_pos (by rw [h]; rfl)

theorem State.cmReject_none (h : s.flag CLOCKMAKER_jump_pending = false) : s.cmReject = s.set CM_CMD_STAT_0 1 := if_neg (by rw [h]; decide)

theorem State.cmAccept_pending (h : s.flag CLOCKMAKER_jump_pending = true) :
    ∃ n, s.cmAccept = s.clearJump.jumpOnCommand 0x3804 5 12 s.pendingCorr n := ⟨_, if_neg (by rw [h]; decide)⟩

theorem State.cmReject_pending (h : s.flag CLOCKMAKER_jump_pending = true) : s.cmReject = s.clearJump.cmStat 0 := if_pos h

theorem State.cmAccept_spec (h : s.flag CLOCKMAKER_jump_pending = true) : let z := s.cmAccept
    z.get CM_CMD_STAT_0 = 0 ∧ z.get CLOCKMAKER_jump_pending = 0 ∧ z.get CLOCKMAKER_confirm = 0 ∧
    z.get64 CM_OFFSET_LO_0 CM_OFFSET_HI_0 = unsint 64 (s.offset + s.pendingCorr) ∧
    z.get64 CM_LASTCORR_LO_0 CM_LASTCORR_HI_0 = unsint 64 s.pendingCorr ∧ z.get PORTER_state = 1 ∧ bitOf (z.get (rawOf 0x38)) 2 = true := by
  obtain ⟨n, e⟩ := State.cmAccept_pending h
  obtain ⟨pending, confirm⟩ := s.clearJump_spec
  obtain ⟨status, offset, corr, porter, raised⟩ :=
    s.clearJump.jumpOnCommand_spec (code := 0x3804) (sev := 5) (reason := 12) (n := n) (c := s.pendingCorr) (by decide)
  have kept := s.clearJump.clockKept_jumpOnCommand (code := 0x3804) (sev := 5) (reason := 12) (n := n) (c := s.pendingCorr) (by decide)
  rw [s.clockKept_clearJump.offset (by decide)] at offset
  rw [e]
  exact ⟨status, (kept.regs _ (by decide)).trans pending, (kept.regs _ (by decide)).trans confirm, offset, corr, porter, raised⟩

theorem State.cmReject_spec (h : s.flag CLOCKMAKER_jump_pending = true) : let z := s.cmReject
    z.get CM_CMD_STAT_0 = 0 ∧ z.get CLOCKMAKER_jump_pending = 0 ∧ z.get CLOCKMAKER_confirm = 0 ∧
    z.get64 CM_OFFSET_LO_0 CM_OFFSET_HI_0 = s.get64 CM_OFFSET_LO_0 CM_OFFSET_HI_0 ∧ s.keepsBut z [0x38] := by
  obtain ⟨pending, confirm⟩ := s.clearJump_spec
  have answered := s.clearJump.clockKept_set CM_CMD_STAT_0 0
  rw [State.cmReject_pending h]
  refine ⟨State.get_set_same _ _ _, (answered.regs _ (by decide)).trans pending, (answered.regs _ (by decide)).trans confirm,
    (s.clockKept_clearJump.trans answered).get64 (by decide), ?_⟩
  exact State.keepsBut_set (State.keepsBut_set64 (State.keepsBut_set (State.keepsBut_set State.keepsBut_refl (by decide)) (by decide)) (by decide)) (by decide)

/-! ## The time set (R269, R280) -/

/-- States, and the free domain, in which software may set the time. -/
def State.settable (s : State) : Prop := s.get CLOCKMAKER_state = 0 ∨ s.get CLOCKMAKER_state = 4 ∨ s.flag CM_SYNC_CTL_0 = false

theorem State.cmSet_refused (h : ¬ s.settable) : s.cmSet = s.set CM_CMD_STAT_0 2 := if_neg (by simpa [State.settable] using h)

/-- What a set adds to the offset. -/
def State.setCorr (s : State) : Int := sint 64 (unsint 64 ((s.get64 CM_SETVAL_LO_0 CM_SETVAL_HI_0 : Nat) - s.nowI))

theorem State.cmSet_done (h : s.settable) : ∃ n, s.cmSet = s.stopSlew.jumpOnCommand 0x3807 4 13 s.stopSlew.setCorr n :=
  ⟨_, if_pos (by simpa [State.settable] using h)⟩

/-- The time moves by what is added to the offset. -/
theorem State.now_of_offset {c : Int} (counter : t.counter = s.counter) (clk : t.clk = s.clk) (rate : t.get CM_RATE_0 = s.get CM_RATE_0)
    (anchor : t.get64 CM_ANCHOR_LO_0 CM_ANCHOR_HI_0 = s.get64 CM_ANCHOR_LO_0 CM_ANCHOR_HI_0)
    (offset : t.get64 CM_OFFSET_LO_0 CM_OFFSET_HI_0 = unsint 64 (s.offset + c)) : t.now = unsint 64 (s.nowI + c) := by
  have time : t.nowI = s.cns + sint 64 (unsint 64 (s.offset + c)) + s.rateTerm := by
    unfold State.nowI State.rateTerm State.rateEff State.cns
    rw [counter, clk, rate, anchor, offset]
  have before : s.nowI = s.cns + s.offset + s.rateTerm := rfl
  rw [State.now, time, before, add_comm (s.cns : Int), add_assoc, unsint_sint_unsint_add]
  congr 1
  ring

theorem State.now_set (v : Nat) (x : Int) : unsint 64 (x + sint 64 (unsint 64 ((v : Int) - x))) = v % 2 ^ 64 := by
  rw [add_comm, unsint_sint_unsint_add, Int.sub_add_cancel]
  zify
  exact unsint_cast 64 v

theorem State.cmSet_spec (h : s.settable) : let z := s.cmSet
    z.get CM_CMD_STAT_0 = 0 ∧ z.now = s.get64 CM_SETVAL_LO_0 CM_SETVAL_HI_0 % 2 ^ 64 ∧ z.counter = s.counter ∧
    z.get CLOCKMAKER_state = s.get CLOCKMAKER_state ∧ bitOf (z.get (rawOf 0x38)) 2 = true := by
  obtain ⟨n, e⟩ := State.cmSet_done h
  obtain ⟨status, offset, -, -, raised⟩ :=
    s.stopSlew.jumpOnCommand_spec (code := 0x3807) (sev := 4) (reason := 13) (n := n) (c := s.stopSlew.setCorr) (by decide)
  have kept := s.stopSlew.clockKept_jumpOnCommand (code := 0x3807) (sev := 4) (reason := 13) (n := n) (c := s.stopSlew.setCorr) (by decide)
  have value : s.stopSlew.get64 CM_SETVAL_LO_0 CM_SETVAL_HI_0 = s.get64 CM_SETVAL_LO_0 CM_SETVAL_HI_0 := s.clockKept_reanchor.get64 (by decide)
  rw [e]
  refine ⟨status, ?_, kept.counter, (kept.regs _ (by decide)).trans (s.clockKept_reanchor.regs CLOCKMAKER_state (by decide)), raised⟩
  rw [State.now_of_offset kept.counter kept.clk (kept.regs _ (by decide)) (kept.get64 (by decide)) offset, State.setCorr, State.now_set, value]

/-! ## Synchronisation and rate (R271, R289, R290) -/

/-- The fields of CM_SYNC_CTL as written. -/
def State.syncCtlFields (s : State) (v : Nat) : State :=
  (((((s.setB CM_SYNC_CTL_0 (bitOf v 0)).setB CM_SYNC_CTL_1 (bitOf v 1 && s.nodeCap)).set CM_SYNC_CTL_2 (v / 4)).set CM_SYNC_CTL_10
    (max 1 (bitsOf v 10 2))).set CM_SYNC_CTL_12 (v / 2 ^ 12)).set CM_SYNC_CTL_14 (max 1 (bitsOf v 14 3))

theorem State.syncCtl_eq (s : State) (v : Nat) : s.syncCtl v = if !bitOf v 0 then (s.syncCtlFields v).clkEnter 2 8 0 0
    else if !s.flag CM_SYNC_CTL_0 then (s.syncCtlFields v).clkEnter 0 9 0 0 else s.syncCtlFields v := rfl

theorem State.syncCtlFields_spec (s : State) (v : Nat) : let z := s.syncCtlFields v
    z.get CM_SYNC_CTL_0 = b2n (bitOf v 0) ∧ z.get CM_SYNC_CTL_1 = b2n (bitOf v 1 && s.nodeCap) ∧ z.get CM_SYNC_CTL_2 = v / 4 % 2 ^ 8 ∧
    z.get CM_SYNC_CTL_10 = max 1 (v / 2 ^ 10 % 4) ∧ z.get CM_SYNC_CTL_12 = v / 2 ^ 12 % 4 ∧ z.get CM_SYNC_CTL_14 = max 1 (v / 2 ^ 14 % 8) ∧
    z.get CLOCKMAKER_state = s.get CLOCKMAKER_state := by
  have bit (b : Bool) : b2n b % 2 ^ 1 = b2n b := Nat.mod_eq_of_lt (b2n_lt_two b)
  dsimp only
  simp (disch := decide) only [State.syncCtlFields, State.setB, State.get_set_ne, State.get_set_same]
  refine ⟨bit _, bit _, rfl, Nat.mod_eq_of_lt ?_, rfl, Nat.mod_eq_of_lt ?_, trivial⟩
  · show max 1 (v / 2 ^ 10 % 4) < 4
    omega
  · show max 1 (v / 2 ^ 14 % 8) < 8
    omega

theorem State.syncCtl_spec (s : State) (v : Nat) : let z := s.syncCtl v
    z.get CM_SYNC_CTL_0 = b2n (bitOf v 0) ∧ z.get CM_SYNC_CTL_1 = b2n (bitOf v 1 && s.nodeCap) ∧ z.get CM_SYNC_CTL_2 = v / 4 % 2 ^ 8 ∧
    z.get CM_SYNC_CTL_10 = max 1 (v / 2 ^ 10 % 4) ∧ z.get CM_SYNC_CTL_12 = v / 2 ^ 12 % 4 ∧ z.get CM_SYNC_CTL_14 = max 1 (v / 2 ^ 14 % 8) ∧
    z.get CLOCKMAKER_state = if bitOf v 0 = false then 2 else if s.flag CM_SYNC_CTL_0 = false then 0 else s.get CLOCKMAKER_state := by
  obtain ⟨on, node, domain, least, gain, misses, state⟩ := s.syncCtlFields_spec v
  have kept : (s.syncCtlFields v).clockKept (s.syncCtl v) [CLOCKMAKER_state, CLOCKMAKER_sync, rawOf 0x38] :=
    .ite (State.clockKept_clkEnter _ _ _ _ _) (.ite (State.clockKept_clkEnter _ _ _ _ _) .refl)
  refine ⟨(kept.regs _ (by decide)).trans on, (kept.regs _ (by decide)).trans node, (kept.regs _ (by decide)).trans domain, (kept.regs _ (by decide)).trans least,
    (kept.regs _ (by decide)).trans gain, (kept.regs _ (by decide)).trans misses, ?_⟩
  rw [State.syncCtl_eq]
  cases bitOf v 0 with
  | false => exact State.state_clkEnter_lt (by decide)
  | true =>
    cases s.flag CM_SYNC_CTL_0 with
    | false => exact State.state_clkEnter_lt (by decide)
    | true => exact state

theorem State.rateWrite_refused (h : ¬ (s.get CLOCKMAKER_state = 0 ∨ s.get CLOCKMAKER_state = 4)) : s.rateWrite v = s := if_neg h

theorem State.setRate_spec (s : State) (r : Int) : (s.setRate r).get CM_RATE_0 = unsint 32 (max (-549755813) (min 549755813 r)) ∧
    (s.setRate r).get64 CM_ANCHOR_LO_0 CM_ANCHOR_HI_0 = s.cns % 2 ^ 64 ∧ s.keepsBut (s.setRate r) [0x38] := by
  refine ⟨?_, ?_, State.keepsBut_set s.keepsBut_reanchor (by decide)⟩
  · exact (State.get_set_same _ _ _).trans (Nat.mod_eq_of_lt (unsint_lt 32 _))
  · exact ((s.reanchor.clockKept_set CM_RATE_0 _).get64 (by decide)).trans s.anchor_reanchor

/-! ## The time pulse port (R287) -/

/-- The number of the pulse period that the time stands in, from 1 on. -/
def State.pulseIndex (s : State) : Nat := s.now / 10 ^ (9 - s.get TS_PULSE_2) + 1

/-- A period that is due for its pulse. -/
def State.timePulseDue (s : State) : Prop :=
  s.isS = false ∧ s.flag TS_PULSE_0 = true ∧ s.flag TS_PULSE_1 = false ∧ s.synced = true ∧ s.clk.pulse < s.pulseIndex

theorem exec_timePulseOutput_due (h : s.timePulseDue) : exec .timePulseOutput s = .next (s.updK fun k => { k with pulse := s.pulseIndex }) := by
  obtain ⟨here, on, output, synced, later⟩ := h
  exact congrArg Host.Outcome.next (if_pos (by rw [here, on, output, synced]; exact decide_eq_true later))

theorem exec_timePulseOutput_idle (h : ¬ s.timePulseDue) : exec .timePulseOutput s = .next s := by
  refine congrArg Host.Outcome.next (if_neg fun due => h ?_)
  simp only [Bool.and_eq_true, Bool.not_eq_true', decide_eq_true_eq] at due
  obtain ⟨⟨⟨⟨here, on⟩, output⟩, synced⟩, later⟩ := due
  exact ⟨here, on, output, synced, later⟩

theorem exec_timePulseCapture_idle (h : ¬ (s.isS = false ∧ s.flag TS_PULSE_0 = true ∧ s.flag TS_PULSE_1 = true)) : exec .timePulseCapture s = .next s := by
  refine congrArg Host.Outcome.next (if_neg fun input => h ?_)
  simpa [and_assoc] using input

/-- An edge captured: the time, the count of edges, the page's condition 0. -/
def State.edgeCaptured (s : State) : State := ((s.set64 TS_PCAP_LO_0 pcapHi s.now).count ⟨0x39, 0x030, 0, 16, 0, 0⟩).raiseInt 0x39 0

theorem exec_timePulseCapture_edge (here : s.isS = false) (on : s.flag TS_PULSE_0 = true) (input : s.flag TS_PULSE_1 = true) :
    exec .timePulseCapture s = .next s.edgeCaptured := congrArg Host.Outcome.next (if_pos (by rw [here, on, input]; rfl))

theorem State.edgeCaptured_spec (s : State) : s.edgeCaptured.get64 TS_PCAP_LO_0 pcapHi = s.now ∧ bitOf (s.edgeCaptured.get (rawOf 0x39)) 0 = true ∧
    s.keepsBut s.edgeCaptured [0x39, 0x0A] := by
  have counted := (s.set64 TS_PCAP_LO_0 pcapHi s.now).clockKept_set ⟨0x39, 0x030, 0, 16, 0, 0⟩
  refine ⟨?_, State.bitOf_raw_raiseInt (by decide) (by decide) (by decide), ?_⟩
  · exact (((counted _).trans (State.clockKept_raiseInt _ 0x39 0)).get64 (by decide)).trans (s.get64_set64_unsint s.nowI rfl rfl (by decide))
  · exact State.keepsBut_raiseInt (State.keepsBut_count (State.keepsBut_set64 State.keepsBut_refl (by decide)) (by decide)) (by simp) (by simp)

/-! ## The commands -/

theorem exec_cmCommands (h : s.reaches a 0x38 0x070) : exec (.cmAccept a) s = .next s.cmAccept ∧ exec (.cmReject a) s = .next s.cmReject ∧
    exec (.cmSet a) s = .next s.cmSet :=
  ⟨congrArg Host.Outcome.next (State.writeAt_of_reaches h), congrArg Host.Outcome.next (State.writeAt_of_reaches h),
    congrArg Host.Outcome.next (State.writeAt_of_reaches h)⟩

theorem exec_cmSyncCtlWrite (h : s.reaches a 0x38 0x064) : exec (.cmSyncCtlWrite a v) s = .next (s.syncCtl v) :=
  congrArg Host.Outcome.next (State.writeAt_of_reaches h)

theorem exec_cmRateWrite (h : s.reaches a 0x38 0x060) : exec (.cmRateWrite a v) s = .next (s.rateWrite v) :=
  congrArg Host.Outcome.next (State.writeAt_of_reaches h)

/-- Settles O33: each command's part by its lemma above. That the end of a slew adds what the truncated term lacks and that a set of the time ends a slew first
are log entry 21; that an end of no slew, an expiry outside holdover and an edge of no input change nothing, log entry 3. -/
theorem clockmakerCommandsAndPulses : Obligations.ClockmakerCommandsAndPulses := by
  unfold Obligations.ClockmakerCommandsAndPulses
  refine ⟨fun a s on firmware => ⟨State.readGives_time on firmware, State.readGives_counter on firmware⟩, fun s => ?_⟩
  refine ⟨?idle, ?slew, ?other, ?holdover, ?response, ?jump, ?sync, ?rate, ?pulse, ?none, ?edge⟩
  case idle => exact fun still => congrArg Host.Outcome.next (if_pos still)
  case slew => exact fun runs => ⟨s.slewEnd, rfl, State.slewEnd_spec runs⟩
  case other => exact fun other => congrArg Host.Outcome.next (if_neg other)
  case holdover => exact fun held => ⟨_, congrArg Host.Outcome.next (if_pos held), State.holdoverExpiry_spec held⟩
  case response =>
    intro i p
    refine ⟨_, rfl, rfl, rfl, fun e => ?_⟩
    simp [State.updK, List.mem_filter, imp_iff_not_or]
  case jump =>
    intro a reached
    obtain ⟨accept, reject, set⟩ := exec_cmCommands reached
    refine ⟨fun none => ⟨?_, ?_⟩, fun pending => ⟨?_, ?_⟩, fun refused => ?_, fun settable => ?_⟩
    · rw [accept, State.cmAccept_none none]
    · rw [reject, State.cmReject_none none]
    · exact ⟨_, accept, State.cmAccept_spec pending⟩
    · exact ⟨_, reject, State.cmReject_spec pending⟩
    · rw [set, State.cmSet_refused refused]
    · exact ⟨_, set, State.cmSet_spec settable⟩
  case sync => exact fun a v reached => ⟨_, exec_cmSyncCtlWrite reached, s.syncCtl_spec v⟩
  case rate =>
    intro a v reached
    refine ⟨fun refused => ?_, fun free => ⟨_, (exec_cmRateWrite reached).trans (congrArg Host.Outcome.next (if_pos free)), s.setRate_spec (sint 32 v)⟩⟩
    rw [exec_cmRateWrite reached, State.rateWrite_refused refused]
  case pulse => exact ⟨exec_timePulseOutput_due, exec_timePulseOutput_idle⟩
  case none => exact exec_timePulseCapture_idle
  case edge => exact fun here on input => ⟨_, exec_timePulseCapture_edge here on input, s.edgeCaptured_spec⟩

end Sys2Proof.Machine
end

section
/-! TimeResynchronisation: what a resync finds at a matrix cycle start, and what it shows of the nodes (09 R241; 10 R275, R276). -/

namespace Sys2Proof.Machine

variable {s t u : State} {fs gs : List Fld} {i n : Nat}

/-! ## Deviations (R275, R276) -/

/-- From s to t stays what the nodes' deviations are formed from. -/
structure State.sameDevs (s t : State) : Prop where
  latch : t.latch = s.latch
  meas : t.clk.meas = s.clk.meas
  mirror : t.get MIRROR_state = s.get MIRROR_state
  address : t.get ALM_FA_0 = s.get ALM_FA_0
  regs : ∀ g : Fld, g.pageOf = 0x38 → t.get g = s.get g

theorem nodePage (hi : i < 15) : (CM_N_CFG_0 i).pageOf = 0x38 ∧ (CM_N_CFG_31 i).pageOf = 0x38 := by
  simp only [CM_N_CFG_0, CM_N_CFG_31, Fld.pageOf, Fld.key]
  omega

theorem State.sameDevs.node (h : s.sameDevs t) (hi : i < 15) : t.flag (CM_N_CFG_31 i) = s.flag (CM_N_CFG_31 i) ∧ t.get (CM_N_CFG_0 i) = s.get (CM_N_CFG_0 i) :=
  ⟨State.flag_congr (h.regs _ (nodePage hi).2), h.regs _ (nodePage hi).1⟩

theorem State.sameDevs.syncNode (h : s.sameDevs t) : t.syncNode = s.syncNode := by
  have listed : ((List.range 15).any fun i => t.flag (CM_N_CFG_31 i) && t.get (CM_N_CFG_0 i) == t.get ALM_FA_0) =
      (List.range 15).any fun i => s.flag (CM_N_CFG_31 i) && s.get (CM_N_CFG_0 i) == s.get ALM_FA_0 :=
    any_congr_mem fun i hi => by
      obtain ⟨enabled, address⟩ := h.node (List.mem_range.1 hi)
      rw [enabled, address, h.address]
  unfold State.syncNode State.inCharge State.passive
  rw [listed, h.mirror, h.latch, State.flag_congr (h.regs CM_SYNC_CTL_1 (by decide))]

theorem State.sameDevs.nodeDev (h : s.sameDevs t) (hi : i < 15) : t.nodeDev i = s.nodeDev i := by
  obtain ⟨enabled, address⟩ := h.node hi
  unfold State.nodeDev State.cmRate
  rw [enabled, address, h.address, h.syncNode, h.meas, h.regs CM_RATE_0 (by decide), h.regs CLOCKMAKER_state (by decide)]

/-- The deviations of a resync: those of senders that are synchronised, and of the others while the module is not. -/
def State.validDevs (s : State) : List NodeDev :=
  ((List.range 15).filterMap s.nodeDev).filter fun v => v.st = 2 || v.st = 3 || (unsynced v.st && unsynced (s.get CLOCKMAKER_state))

theorem State.sameDevs.validDevs (h : s.sameDevs t) : t.validDevs = s.validDevs := by
  unfold State.validDevs
  rw [List.filterMap_congr fun i hi => h.nodeDev (List.mem_range.1 hi), h.regs CLOCKMAKER_state (by decide)]

/-! ## What the resync shows (R275, R276) -/

/-- The registers that show a node's part in a resync, and the page's conditions. -/
def nodeShows (i : Nat) : List Fld :=
  [CM_N_STAT_1 i, CM_N_STAT_2 i, CM_N_STAT_0 i, CM_N_DEV_0 i, CM_N_STAT_3 i, CM_N_STAT_4 i, CM_N_STAT_5 i, CM_N_STAT_8 i, rawOf 0x38]

theorem State.clockKept_nodeShow (s : State) (valid : List NodeDev) (o : List Nat × List Nat) (i : Nat) : s.clockKept (s.nodeShow valid o i) (nodeShows i) := by
  have put {t : State} {f : Fld} {v : Nat} (h : s.clockKept t (nodeShows i)) (hf : [f] ⊆ nodeShows i) : s.clockKept (t.set f v) (nodeShows i) :=
    h.then (t.clockKept_set f v) hf
  have judged : s.clockKept (((s.setB (CM_N_STAT_1 i) (o.1.contains i)).setB (CM_N_STAT_2 i) (o.2.contains i)).setB (CM_N_STAT_0 i) (valid.any fun v => v.i = i))
      (nodeShows i) := put (put (put .refl (by simp [nodeShows])) (by simp [nodeShows])) (by simp [nodeShows])
  unfold State.nodeShow
  dsimp only
  split
  · have shown {d b0 b1 x : Nat} {t : State} (h : s.clockKept t (nodeShows i)) : s.clockKept (((((t.set (CM_N_DEV_0 i) d).set (CM_N_STAT_3 i) b0).set
        (CM_N_STAT_4 i) b1).set (CM_N_STAT_5 i) x).set (CM_N_STAT_8 i) 0) (nodeShows i) :=
      put (put (put (put (put h (by simp [nodeShows])) (by simp [nodeShows])) (by simp [nodeShows])) (by simp [nodeShows])) (by simp [nodeShows])
    exact .ite ((shown judged).then (State.clockKept_raiseInt _ 0x38 4) (by simp [nodeShows])) (shown judged)
  · exact put judged (by simp [nodeShows])

/-- The nodes' registers stand above the others of the page. -/
theorem outside_nodeShows {g : Fld} (h : g.outside [rawOf 0x38] = true) (below : g.key < (CM_N_CFG_0 0).key) : g.outside (nodeShows i) = true := by
  have raw := Fld.outside_ne h List.mem_cons_self
  simp only [Fld.outside, Bool.and_eq_true] at h ⊢
  refine ⟨h.1, ?_⟩
  simp only [nodeShows, List.all_cons, List.all_nil, Bool.and_eq_true, bne_iff_ne, and_true]
  simp only [CM_N_CFG_0, Fld.key] at below
  refine ⟨?_, ?_, ?_, ?_, ?_, ?_, ?_, ?_, raw⟩ <;>
    simp only [CM_N_STAT_0, CM_N_STAT_1, CM_N_STAT_2, CM_N_STAT_3, CM_N_STAT_4, CM_N_STAT_5, CM_N_STAT_8, CM_N_DEV_0, Fld.key] <;> omega

/-- A resync's value of each valid deviation, with its node. -/
def devValues (valid : List NodeDev) : List (Int × Nat) := valid.map fun v => (v.d, v.i)

/-- The nodes as a resync shows them. -/
def State.nodesShown (s : State) (valid : List NodeDev) : State :=
  s.each (List.range 15) fun u i => u.nodeShow valid (outliers (dropK (devValues valid).length) (devValues valid)) i

theorem State.nodesShown_spec (s : State) (valid : List NodeDev) : (s.nodesShown valid).clk = s.clk ∧
    ∀ g : Fld, g.outside [rawOf 0x38] = true → g.key < (CM_N_CFG_0 0).key → (s.nodesShown valid).get g = s.get g :=
  ⟨part_each (part := State.clk) s fun u i => (u.clockKept_nodeShow valid _ i).clk, fun g out below =>
    part_each (part := fun u : State => u.get g) s fun u i => (u.clockKept_nodeShow valid _ i).regs g (outside_nodeShows out below)⟩

/-- What a resync shows before it acts: the nodes, its counts; the measurements of the matrix cycle are used up. -/
def State.resyncShown (s : State) (valid : List NodeDev) : State :=
  ((((s.nodesShown valid).set CM_RESYNC_0 (devValues valid).length).set CM_RESYNC_4 (dropK (devValues valid).length)).set CM_RESYNC_8
    ((s.nodesShown valid).get CM_RESYNC_8 + 1)).updK fun k => { k with meas := [] }

theorem dropK_lt (n : Nat) : dropK n < 4 := by
  unfold dropK
  split
  · decide
  · split <;> decide

theorem State.resyncShown_spec (s : State) (valid : List NodeDev) : let z := s.resyncShown valid
    z.clk = { s.clk with meas := [] } ∧ z.get CM_RESYNC_0 = valid.length % 16 ∧ z.get CM_RESYNC_4 = dropK valid.length ∧
    z.get CM_RESYNC_8 = (s.get CM_RESYNC_8 + 1) % 2 ^ 24 ∧
    ∀ g : Fld, g.outside [rawOf 0x38, CM_RESYNC_0, CM_RESYNC_4, CM_RESYNC_8] = true → g.key < (CM_N_CFG_0 0).key → z.get g = s.get g := by
  obtain ⟨clk, regs⟩ := s.nodesShown_spec valid
  have length : (devValues valid).length = valid.length := List.length_map ..
  refine ⟨congrArg (fun k : ClockS => { k with meas := [] }) clk, ?_, ?_, ?_, fun g out below => ?_⟩
  · rw [State.resyncShown, State.get_updK, State.get_set_ne _ (by decide), State.get_set_ne _ (by decide), State.get_set_same, length]
    rfl
  · rw [State.resyncShown, State.get_updK, State.get_set_ne _ (by decide), State.get_set_same, length]
    exact Nat.mod_eq_of_lt (dropK_lt _)
  · rw [State.resyncShown, State.get_updK, State.get_set_same, regs _ (by decide) (by decide)]
    rfl
  · have counted : (s.nodesShown valid).clockKept ((((s.nodesShown valid).set CM_RESYNC_0 (devValues valid).length).set CM_RESYNC_4
        (dropK (devValues valid).length)).set CM_RESYNC_8 ((s.nodesShown valid).get CM_RESYNC_8 + 1)) [CM_RESYNC_0, CM_RESYNC_4, CM_RESYNC_8] :=
      ((State.clockKept_set _ _ _).trans (State.clockKept_set _ _ _)).trans (State.clockKept_set _ _ _)
    exact (counted.regs g (Fld.outside_of_subset out (by simp))).trans (regs g (Fld.outside_of_subset out (by simp)) below)

/-- A resync judges the valid deviations' number, then acts on the mean without the outliers. -/
theorem State.resync_on (on : s.flag CM_SYNC_CTL_0 = true) : ∃ rho, s.resync =
    if s.validDevs.length < s.get CM_SYNC_CTL_10 then (s.resyncShown s.validDevs).resyncMissed s.validDevs.length
    else (s.resyncShown s.validDevs).resyncTaken ((trimMean (devValues s.validDevs)).getD 0) rho ((devValues s.validDevs).map (·.1)) := by
  obtain ⟨-, -, -, -, regs⟩ := s.resyncShown_spec s.validDevs
  have length : (devValues s.validDevs).length = s.validDevs.length := List.length_map ..
  have e : s.resync = if (devValues s.validDevs).length < (s.resyncShown s.validDevs).get CM_SYNC_CTL_10
      then (s.resyncShown s.validDevs).resyncMissed (devValues s.validDevs).length
      else (s.resyncShown s.validDevs).resyncTaken ((trimMean (devValues s.validDevs)).getD 0)
        ((trimMean (s.validDevs.filterMap fun v => v.r.map fun r => (r, v.i))).getD (s.resyncShown s.validDevs).cmRate) ((devValues s.validDevs).map (·.1)) :=
    if_neg (by rw [on]; decide)
  rw [length, regs CM_SYNC_CTL_10 (by decide) (by decide)] at e
  exact ⟨_, e⟩

/-! ## The matrix cycle start before the resync (09 R241; R274) -/

/-- The delay requests due are noted in the Clockmaker's part. -/
theorem State.delayDue_eq (s : State) (m : Nat) : ∃ l, s.delayDue m = s.updK fun k => { k with reqDue := l } := by
  unfold State.delayDue
  split
  · exact ⟨s.clk.reqDue, rfl⟩
  · exact ⟨_, rfl⟩

/-- Neither the joins nor the Porter's part change the latch or the Clockmaker's part. -/
theorem State.porterMatrix_parts (s : State) : (s.joined.porterMatrix.latch, s.joined.porterMatrix.clk) = (s.latch, s.clk) := by
  let part (u : State) := (u.latch, u.clk)
  have joined : part s.joined = part s := part_each s fun _ _ => rfl
  have turned : part s.joined.porterTurned = part s.joined := part_ite rfl rfl
  exact turned.trans joined

/-- A matrix cycle start that switches no bank runs the resync, on a state with the same deviations. -/
theorem State.matrixStart_resync (start : s.posOf s.cons.k = 0) (unarmed : s.cons.swAt = 0) :
    ∃ u l, s.matrixStart = u.resync ∧ s.sameDevs u ∧ u.clk = { s.clk with reqDue := l } := by
  obtain ⟨-, -, -, -, shown⟩ := s.posShow_spec
  obtain ⟨-, -, joined⟩ := s.posShow.joined_keeps
  obtain ⟨-, -, -, -, -, -, -, porter⟩ := s.posShow.joined.porterMatrix_spec
  obtain ⟨latch, clk⟩ := Prod.mk.inj s.posShow.porterMatrix_parts
  obtain ⟨l, due⟩ := s.posShow.joined.porterMatrix.delayDue_eq (s.posShow.joined.porterMatrix.get ALM_MCOUNT_0)
  have same : (if s.posShow.cons.swAt = s.posShow.get ALM_MCOUNT_0 + 1 then s.posShow.almSwitch else s.posShow) = s.posShow :=
    if_neg (by show s.cons.swAt ≠ _; omega)
  have e : s.matrixStart = (s.posShow.joined.porterMatrix.updK fun k => { k with reqDue := l }).resync := by
    rw [← due]
    unfold State.matrixStart
    rw [if_neg (by omega)]
    dsimp only
    rw [same]
    rfl
  have kept {g : Fld} (page : 0x34 ≤ g.pageOf) (apart : g.pageOf ≠ 0x37) (pos : g.key ≠ ALM_POS_0.key) (count : g.key ≠ ALM_MCOUNT_0.key) :
      s.posShow.joined.porterMatrix.get g = s.get g := (porter g apart).trans ((joined g page).trans (shown g pos count))
  have other {g f : Fld} (page : g.pageOf = 0x38) (hf : f.pageOf = 0x36) : g.key ≠ f.key := fun e => by
    have := Fld.pageOf_congr e
    omega
  have meas : s.posShow.joined.porterMatrix.clk.meas = s.clk.meas := congrArg ClockS.meas clk
  refine ⟨_, l, e, ⟨latch, meas, kept (by decide) (by decide) (by decide) (by decide),
    kept (by decide) (by decide) (by decide) (by decide), fun g page => ?_⟩, congrArg (fun k : ClockS => { k with reqDue := l }) clk⟩
  exact kept (by omega) (by omega) (other page (by decide)) (other page (by decide))

end Sys2Proof.Machine
end

section
/-! TimeResynchronisation: a resync with too few deviations, and what becomes of its result (10 R271, R276 to R279). -/

namespace Sys2Proof.Machine

variable {s t u : State} {fs gs : List Fld} {n : Nat} {c rho : Int} {ds : List Int}

/-! ## What a resync leaves -/

/-- From s to t the measurements, the count of misses and every register outside the list stay. -/
structure State.resyncKept (s t : State) (fs : List Fld) : Prop where
  meas : t.clk.meas = s.clk.meas
  miss : t.clk.miss = s.clk.miss
  regs : ∀ g : Fld, g.outside fs = true → t.get g = s.get g

theorem State.clockKept.resyncKept (h : s.clockKept t fs) (sub : fs ⊆ gs) : s.resyncKept t gs :=
  ⟨congrArg ClockS.meas h.clk, congrArg ClockS.miss h.clk, (h.mono sub).regs⟩

theorem State.resyncKept.refl : s.resyncKept s fs := ⟨rfl, rfl, fun _ _ => rfl⟩

theorem State.resyncKept.then (h : s.resyncKept t gs) (h' : t.clockKept u fs) (sub : fs ⊆ gs) : s.resyncKept u gs where
  meas := (h'.resyncKept sub).meas.trans h.meas
  miss := (h'.resyncKept sub).miss.trans h.miss
  regs g hg := ((h'.resyncKept sub).regs g hg).trans (h.regs g hg)

theorem State.resyncKept.mono (h : s.resyncKept t fs) (sub : fs ⊆ gs) : s.resyncKept t gs :=
  ⟨h.meas, h.miss, fun g hg => h.regs g (Fld.outside_of_subset hg sub)⟩

theorem State.resyncKept.ite {p : Prop} [Decidable p] (ht : s.resyncKept t fs) (hu : s.resyncKept u fs) : s.resyncKept (if p then t else u) fs := by
  split
  · exact ht
  · exact hu

/-- A change of the Clockmaker's part that is about something else. -/
theorem State.resyncKept.updK (h : s.resyncKept t fs) {f : ClockS → ClockS} (meas : (f t.clk).meas = t.clk.meas) (miss : (f t.clk).miss = t.clk.miss) :
    s.resyncKept (t.updK f) fs := ⟨meas.trans h.meas, miss.trans h.miss, h.regs⟩

/-- The registers in which a correction ends. -/
def correctRegs : List Fld :=
  [CLOCKMAKER_jump_pending, CLOCKMAKER_confirm, CLOCKMAKER_jump_count, rawOf 0x38, CM_PEND_LO_0, CM_PEND_HI_0, CM_OFFSET_LO_0, CM_OFFSET_HI_0, CM_ANCHOR_LO_0,
    CM_ANCHOR_HI_0, CM_RATE_0, CM_LASTCORR_LO_0, CM_LASTCORR_HI_0, PORTER_state, PORTER_STATE_8]

/-- The registers in which a resync ends, beside those that show it. -/
def resyncRegs : List Fld := CLOCKMAKER_state :: CLOCKMAKER_sync :: correctRegs

theorem State.resyncKept.clkEnter (h : s.resyncKept t resyncRegs) {st reason : Nat} : s.resyncKept (t.clkEnter st reason c n) resyncRegs :=
  h.then (t.clockKept_clkEnter st reason c n) (by simp [resyncRegs, correctRegs])

/-- The count of misses as a resync leaves it. -/
def State.withMiss (s : State) (m : Nat) : State := s.updK fun k => { k with miss := m }

/-! ## Too few deviations (R271) -/

/-- What a missed resync tells: its condition and, once per second, its record; no jump is pending. -/
def State.missTold (s : State) (n : Nat) : State :=
  (s.clearJump.raiseInt 0x38 3).once (0x3808 * 65536) ticksPerSec fun s => s.clkRecord 0x3808 4 14 0 n

theorem State.clockKept_once (s : State) {key ticks : Nat} {f : State → State} (h : ∀ t : State, t.clockKept (f t) []) : s.clockKept (s.once key ticks f) [] := by
  have noted (g : LedgerS → LedgerS) : s.clockKept (s.updLg g) [] := ⟨rfl, rfl, fun _ _ => rfl⟩
  exact .ite ((noted _).trans (h _)) .refl

theorem State.clockKept_miss_raised (s : State) (n : Nat) : (s.clearJump.raiseInt 0x38 3).clockKept (s.missTold n) [] :=
  State.clockKept_once _ fun t => t.clockKept_clkRecord (by decide)

theorem State.clockKept_missTold (s : State) (n : Nat) :
    s.clockKept (s.missTold n) [CLOCKMAKER_jump_pending, CLOCKMAKER_confirm, CM_PEND_LO_0, CM_PEND_HI_0, rawOf 0x38] :=
  (s.clockKept_clearJump.trans (State.clockKept_raiseInt _ 0x38 3)).trans (s.clockKept_miss_raised n)

theorem State.missTold_spec (s : State) (n : Nat) : (s.missTold n).get CLOCKMAKER_jump_pending = 0 ∧ bitOf ((s.missTold n).get (rawOf 0x38)) 3 = true := by
  have raised := s.clockKept_miss_raised n
  refine ⟨?_, ?_⟩
  · exact (((State.clockKept_raiseInt _ 0x38 3).trans raised).regs _ (by decide)).trans s.clearJump_spec.1
  · rw [raised.regs _ (by decide)]
    exact State.bitOf_raw_raiseInt (by decide) (by decide) (by decide)

section
variable (kept : s.get CLOCKMAKER_state = 2)
include kept

theorem State.resyncMissed_within (within : s.clk.miss + 1 < s.get CM_SYNC_CTL_14) : s.resyncMissed n = (s.missTold n).withMiss (s.clk.miss + 1) := by
  have told := s.clockKept_missTold n
  have limit : ¬ (s.missTold n).get CM_SYNC_CTL_14 ≤ (s.missTold n).clk.miss + 1 := by
    rw [told.clk, told.regs _ (by decide)]
    omega
  rw [← told.clk]
  exact (if_neg (by omega)).trans ((if_pos kept).trans (if_neg limit))

theorem State.resyncMissed_limit (limit : s.get CM_SYNC_CTL_14 ≤ s.clk.miss + 1) :
    s.resyncMissed n = ((s.missTold n).withMiss (s.clk.miss + 1)).clkEnter 3 5 0 n := by
  have told := s.clockKept_missTold n
  have reached : (s.missTold n).get CM_SYNC_CTL_14 ≤ (s.missTold n).clk.miss + 1 := by
    rw [told.clk, told.regs _ (by decide)]
    exact limit
  rw [← told.clk]
  exact (if_neg (by omega)).trans ((if_pos kept).trans (if_pos reached))

end

theorem State.resyncMissed_acquiring (h : s.get CLOCKMAKER_state = 1) :
    s.resyncMissed n = ((s.missTold n).withMiss s.clk.miss).clkEnter s.clk.acqFrom 4 0 n := by
  rw [← (s.clockKept_missTold n).clk]
  exact if_pos h

theorem State.resyncMissed_other (h1 : s.get CLOCKMAKER_state ≠ 1) (h2 : s.get CLOCKMAKER_state ≠ 2) :
    s.resyncMissed n = (s.missTold n).withMiss s.clk.miss := by
  rw [← (s.clockKept_missTold n).clk]
  exact (if_neg h1).trans (if_neg h2)

/-- A missed resync is told, leaves a count of misses, and may change the state. -/
theorem State.resyncMissed_form (s : State) (n : Nat) : ∃ m, s.resyncMissed n = (s.missTold n).withMiss m ∨
    ∃ st reason, s.resyncMissed n = ((s.missTold n).withMiss m).clkEnter st reason 0 n := by
  by_cases h1 : s.get CLOCKMAKER_state = 1
  · exact ⟨_, .inr ⟨_, _, State.resyncMissed_acquiring h1⟩⟩
  · by_cases h2 : s.get CLOCKMAKER_state = 2
    · rcases Nat.lt_or_ge (s.clk.miss + 1) (s.get CM_SYNC_CTL_14) with within | limit
      · exact ⟨_, .inl (State.resyncMissed_within h2 within)⟩
      · exact ⟨_, .inr ⟨_, _, State.resyncMissed_limit h2 limit⟩⟩
    · exact ⟨_, .inl (State.resyncMissed_other h1 h2)⟩

theorem State.resyncMissed_tells (s : State) (n : Nat) : (∃ m, (s.withMiss m).resyncKept (s.resyncMissed n) resyncRegs) ∧
    (s.resyncMissed n).get CLOCKMAKER_jump_pending = 0 ∧ bitOf ((s.resyncMissed n).get (rawOf 0x38)) 3 = true := by
  obtain ⟨pending, raised⟩ := s.missTold_spec n
  have told (m : Nat) : (s.withMiss m).resyncKept ((s.missTold n).withMiss m) resyncRegs :=
    have kept := (s.clockKept_missTold n).resyncKept (gs := resyncRegs) (by simp [resyncRegs, correctRegs])
    ⟨kept.meas, rfl, kept.regs⟩
  obtain ⟨m, e | ⟨st, reason, e⟩⟩ := s.resyncMissed_form n
  · rw [e]
    exact ⟨⟨m, told m⟩, pending, raised⟩
  · rw [e]
    exact ⟨⟨m, (told m).clkEnter⟩, ((State.clockKept_clkEnter _ _ _ _ _).regs _ (by decide)).trans pending, State.raw_clkEnter (by decide) raised⟩

theorem State.resyncMissed_states (s : State) (n : Nat) : let st := s.get CLOCKMAKER_state; let z := s.resyncMissed n
    (st = 1 → z.get CLOCKMAKER_state = s.clk.acqFrom % 8) ∧
    (st = 2 → s.clk.miss + 1 < s.get CM_SYNC_CTL_14 → z.get CLOCKMAKER_state = 2 ∧ z.clk.miss = s.clk.miss + 1) ∧
    (st = 2 → s.get CM_SYNC_CTL_14 ≤ s.clk.miss + 1 → z.get CLOCKMAKER_state = 3) ∧ (st ≠ 1 → st ≠ 2 → z.get CLOCKMAKER_state = st) := by
  have told : (s.missTold n).get CLOCKMAKER_state = s.get CLOCKMAKER_state := (s.clockKept_missTold n).regs _ (by decide)
  refine ⟨fun h => ?_, fun h within => ?_, fun h limit => ?_, fun h1 h2 => ?_⟩
  · rw [State.resyncMissed_acquiring h]
    exact State.state_clkEnter_mod (lt_of_eq_of_lt (told.trans h) (by decide))
  · rw [State.resyncMissed_within h within]
    exact ⟨told.trans h, rfl⟩
  · rw [State.resyncMissed_limit h limit]
    exact State.state_clkEnter_lt (by decide)
  · rw [State.resyncMissed_other h1 h2]
    exact told

/-! ## Corrections (R277 to R279) -/

theorem State.stepMax_congr (h : s.clockKept t fs) (out : CM_JUMP_16.outside fs = true) : t.stepMax = s.stepMax := by
  unfold State.stepMax
  rw [h.regs _ out]

theorem State.stepMax_natAbs (s : State) (x : Nat) : x ≤ s.stepMax.natAbs ↔ (x : Int) ≤ s.stepMax := by
  unfold State.stepMax
  omega

/-- A correction small enough ends a pending jump and updates the rate before it is applied. -/
def State.accepted (s : State) (c rho : Int) : State := (s.clearJump.rateUpdate rho).lastCorr c

theorem State.clockKept_accepted (s : State) (c rho : Int) : s.clockKept (s.accepted c rho) correctRegs :=
  (((s.clockKept_clearJump.mono (by simp [correctRegs])).then (State.clockKept_setRate _ _) (by simp [correctRegs]))).then
    (State.clockKept_lastCorr _ c) (by simp [correctRegs])

theorem State.accepted_pending (s : State) (c rho : Int) : (s.accepted c rho).get CLOCKMAKER_jump_pending = 0 :=
  (((State.clockKept_setRate _ _).trans (State.clockKept_lastCorr _ c)).regs _ (by decide)).trans s.clearJump_spec.1

theorem State.correct_slews (near : (c.natAbs : Int) ≤ s.jumpMax) (small : (c.natAbs : Int) ≤ s.stepMax) :
    s.correct c rho ds = (s.accepted c rho).startSlew c := by
  have step : c.natAbs ≤ (s.accepted c rho).stepMax.natAbs := by
    rw [State.stepMax_natAbs, State.stepMax_congr (s.clockKept_accepted c rho) (by decide)]
    exact small
  exact (if_pos near).trans (if_pos step)

theorem State.startSlew_spec (s : State) (c : Int) : (s.startSlew c).clk.slewC = c ∧
    (s.startSlew c).clk.slewRate = sgn c * ((s.get CM_SLEW_0 * 2 ^ 40 / 1000000 : Nat) : Int) ∧
    (s.startSlew c).get CLOCKMAKER_jump_pending = s.get CLOCKMAKER_jump_pending :=
  ⟨rfl, rfl, s.clockKept_reanchor.regs CLOCKMAKER_jump_pending (by decide)⟩

theorem State.correct_refuses (far : ¬ (c.natAbs : Int) ≤ s.jumpMax) (none : s.flag CLOCKMAKER_jump_pending = false) :
    s.correct c rho ds = (s.updK fun k => { k with firstC := c }).jumpRefuse c 1 ds.length :=
  (if_neg far).trans (if_neg fun again => by rw [none] at again; exact Bool.false_ne_true again.1)

theorem State.jumpRefuse_marked (s : State) (c : Int) (conf n : Nat) :
    (((s.set CLOCKMAKER_jump_pending 1).set CLOCKMAKER_confirm conf).set64 CM_PEND_LO_0 CM_PEND_HI_0 (unsint 64 c)).clockKept (s.jumpRefuse c conf n)
      [CLOCKMAKER_jump_count, rawOf 0x38] :=
  ((State.clockKept_set _ CLOCKMAKER_jump_count _).trans (State.clockKept_raiseInt _ 0x38 1)).trans (State.clockKept_clkRecord _ (by decide))

theorem State.clockKept_jumpRefuse (s : State) (c : Int) (conf n : Nat) : s.clockKept (s.jumpRefuse c conf n)
    [CLOCKMAKER_jump_pending, CLOCKMAKER_confirm, CM_PEND_LO_0, CM_PEND_HI_0, CLOCKMAKER_jump_count, rawOf 0x38] :=
  (((s.clockKept_set CLOCKMAKER_jump_pending 1).trans (State.clockKept_set _ CLOCKMAKER_confirm conf)).trans
    (State.clockKept_set64 _ CM_PEND_LO_0 CM_PEND_HI_0 (unsint 64 c))).trans (s.jumpRefuse_marked c conf n)

theorem State.jumpRefuse_spec (s : State) (c : Int) {conf : Nat} (n : Nat) (h : conf < 4) : (s.jumpRefuse c conf n).get CLOCKMAKER_jump_pending = 1 ∧
    (s.jumpRefuse c conf n).get CLOCKMAKER_confirm = conf ∧ (s.jumpRefuse c conf n).get64 CM_PEND_LO_0 CM_PEND_HI_0 = unsint 64 c := by
  have marked := s.jumpRefuse_marked c conf n
  have worded := (State.clockKept_set64 ((s.set CLOCKMAKER_jump_pending 1).set CLOCKMAKER_confirm conf) CM_PEND_LO_0 CM_PEND_HI_0 (unsint 64 c)).trans marked
  refine ⟨?_, ?_, ?_⟩
  · exact (worded.regs _ (by decide)).trans ((State.get_set_ne _ (by decide)).trans (State.get_set_same _ _ _))
  · exact (worded.regs _ (by decide)).trans ((State.get_set_same _ _ _).trans (Nat.mod_eq_of_lt h))
  · exact (marked.get64 (by decide)).trans (State.get64_set64_unsint _ c rfl rfl (by decide))

theorem State.resyncKept.startSlew (h : s.resyncKept t correctRegs) : s.resyncKept (t.startSlew c) correctRegs :=
  (h.then t.clockKept_reanchor (by simp [correctRegs])).updK rfl rfl

theorem State.resyncKept.stopSlew (h : s.resyncKept t correctRegs) : s.resyncKept t.stopSlew correctRegs :=
  (h.then t.clockKept_reanchor (by simp [correctRegs])).updK rfl rfl

/-- However a correction ends, it leaves the state, the measurements and the count of misses. -/
theorem State.resyncKept_correct (s : State) (c rho : Int) (ds : List Int) : s.resyncKept (s.correct c rho ds) correctRegs := by
  have refused {t : State} (h : s.resyncKept t correctRegs) (conf : Nat) : s.resyncKept (t.jumpRefuse c conf ds.length) correctRegs :=
    h.then (t.clockKept_jumpRefuse c conf _) (by simp [correctRegs])
  unfold State.correct
  refine .ite ?applied (.ite (.ite (refused .refl _) ?taken) (refused (.updK .refl rfl rfl) _))
  case applied =>
    have ready := (s.clockKept_accepted c rho).resyncKept (gs := correctRegs) (List.Subset.refl _)
    have stepped := ready.stopSlew.then (State.clockKept_addOffset _ c) (by simp [correctRegs])
    exact .ite ready.startSlew (.ite (stepped.then (State.clockKept_porterMarker _) (by simp [correctRegs])) stepped)
  case taken =>
    have ready : s.resyncKept (s.clearJump.rateUpdate rho) correctRegs :=
      (s.clockKept_clearJump.trans (State.clockKept_setRate _ _)).resyncKept (by simp [correctRegs])
    have jumped := ready.stopSlew.then (State.clockKept_takeJump _ c) (by simp [correctRegs])
    exact jumped.then ((State.clockKept_raiseInt _ 0x38 2).trans (State.clockKept_clkRecord _ (by decide))) (by simp [correctRegs])

/-! ## Enough deviations (R271) -/

theorem State.resyncTaken_unset (h : s.get CLOCKMAKER_state = 0 ∨ s.get CLOCKMAKER_state = 4) : s.resyncTaken c rho ds =
    ((s.withMiss 0).updK fun k => { k with acqFrom := s.get CLOCKMAKER_state, c1 := c }).clkEnter 1 2 c ds.length := if_pos h

section
variable (acquiring : s.get CLOCKMAKER_state = 1)
include acquiring

theorem State.resyncTaken_agrees (agrees : ((c - s.clk.c1).natAbs : Int) ≤ s.stepMax) :
    s.resyncTaken c rho ds = ((s.withMiss 0).takeJump c).clkEnter 2 3 c ds.length :=
  (if_neg (by omega)).trans ((if_pos acquiring).trans (if_pos agrees))

theorem State.resyncTaken_differs (differs : ¬ ((c - s.clk.c1).natAbs : Int) ≤ s.stepMax) :
    s.resyncTaken c rho ds = (s.withMiss 0).clkEnter s.clk.acqFrom 4 c ds.length :=
  (if_neg (by omega)).trans ((if_pos acquiring).trans (if_neg differs))

end

theorem State.resyncTaken_corrects (h0 : ¬ (s.get CLOCKMAKER_state = 0 ∨ s.get CLOCKMAKER_state = 4)) (h1 : s.get CLOCKMAKER_state ≠ 1) :
    s.resyncTaken c rho ds = if s.get CLOCKMAKER_state = 3 then ((s.withMiss 0).correct c rho ds).clkEnter 2 6 c ds.length
      else (s.withMiss 0).correct c rho ds := (if_neg h0).trans (if_neg h1)

/-- A resync that is not missed starts the count of misses anew. -/
theorem State.resyncKept_resyncTaken (s : State) (c rho : Int) (ds : List Int) : (s.withMiss 0).resyncKept (s.resyncTaken c rho ds) resyncRegs := by
  have held (f : ClockS → ClockS) (meas : (f (s.withMiss 0).clk).meas = s.clk.meas) (miss : (f (s.withMiss 0).clk).miss = 0) :
      (s.withMiss 0).resyncKept ((s.withMiss 0).updK f) resyncRegs := .updK .refl meas miss
  have jumped : (s.withMiss 0).resyncKept ((s.withMiss 0).takeJump c) resyncRegs :=
    ((s.withMiss 0).clockKept_takeJump c).resyncKept (by simp [resyncRegs, correctRegs])
  have corrected : (s.withMiss 0).resyncKept ((s.withMiss 0).correct c rho ds) resyncRegs :=
    ((s.withMiss 0).resyncKept_correct c rho ds).mono (by simp [resyncRegs])
  exact .ite (State.resyncKept.clkEnter (held _ rfl rfl)) (.ite (.ite jumped.clkEnter (State.resyncKept.clkEnter .refl)) (.ite corrected.clkEnter corrected))

theorem State.resyncTaken_unset_spec (h : s.get CLOCKMAKER_state = 0 ∨ s.get CLOCKMAKER_state = 4) : let z := s.resyncTaken c rho ds
    z.get CLOCKMAKER_state = 1 ∧ z.clk.acqFrom = s.get CLOCKMAKER_state ∧ z.clk.c1 = c := by
  rw [State.resyncTaken_unset h]
  have clk := (((s.withMiss 0).updK fun k => { k with acqFrom := s.get CLOCKMAKER_state, c1 := c }).clockKept_clkEnter 1 2 c ds.length).clk
  exact ⟨State.state_clkEnter_lt (by decide), congrArg ClockS.acqFrom clk, congrArg ClockS.c1 clk⟩

theorem State.resyncTaken_agrees_spec (acquiring : s.get CLOCKMAKER_state = 1) (agrees : ((c - s.clk.c1).natAbs : Int) ≤ s.stepMax) :
    let z := s.resyncTaken c rho ds
    z.get CLOCKMAKER_state = 2 ∧ z.get64 CM_LASTCORR_LO_0 CM_LASTCORR_HI_0 = unsint 64 c := by
  rw [State.resyncTaken_agrees acquiring agrees]
  exact ⟨State.state_clkEnter_lt (by decide), ((State.clockKept_clkEnter _ _ _ _ _).get64 (by decide)).trans ((s.withMiss 0).takeJump_spec c).2.1⟩

theorem State.resyncTaken_differs_spec (acquiring : s.get CLOCKMAKER_state = 1) (differs : ¬ ((c - s.clk.c1).natAbs : Int) ≤ s.stepMax) :
    (s.resyncTaken c rho ds).get CLOCKMAKER_state = s.clk.acqFrom % 8 := by
  rw [State.resyncTaken_differs acquiring differs]
  exact State.state_clkEnter_mod (lt_of_eq_of_lt acquiring (by decide))

/-- SYNCED and HOLDOVER: what the correction leaves, in SYNCED. -/
theorem State.resyncTaken_synced (h : s.get CLOCKMAKER_state = 2 ∨ s.get CLOCKMAKER_state = 3) : let z := s.resyncTaken c rho ds
    z.get CLOCKMAKER_state = 2 ∧ ((s.withMiss 0).correct c rho ds).clockKept z [CLOCKMAKER_state, CLOCKMAKER_sync, rawOf 0x38] := by
  rw [State.resyncTaken_corrects (by omega) (by omega)]
  split
  case isTrue => exact ⟨State.state_clkEnter_lt (by decide), State.clockKept_clkEnter _ _ _ _ _⟩
  case isFalse other =>
    refine ⟨?_, .refl⟩
    rw [((s.withMiss 0).resyncKept_correct c rho ds).regs _ (by decide)]
    exact h.resolve_right other

theorem State.resyncTaken_slews_spec (h : s.get CLOCKMAKER_state = 2 ∨ s.get CLOCKMAKER_state = 3) (near : (c.natAbs : Int) ≤ s.jumpMax)
    (small : (c.natAbs : Int) ≤ s.stepMax) : let z := s.resyncTaken c rho ds
    z.clk.slewC = c ∧ z.clk.slewRate = sgn c * ((s.get CM_SLEW_0 * 2 ^ 40 / 1000000 : Nat) : Int) ∧ z.get CLOCKMAKER_jump_pending = 0 := by
  obtain ⟨-, kept⟩ := State.resyncTaken_synced (c := c) (rho := rho) (ds := ds) h
  rw [State.correct_slews (s := s.withMiss 0) near small] at kept
  obtain ⟨corr, rate, pending⟩ := ((s.withMiss 0).accepted c rho).startSlew_spec c
  rw [((s.withMiss 0).clockKept_accepted c rho).regs CM_SLEW_0 (by decide)] at rate
  exact ⟨(congrArg ClockS.slewC kept.clk).trans corr, (congrArg ClockS.slewRate kept.clk).trans rate,
    (kept.regs _ (by decide)).trans (pending.trans (State.accepted_pending _ _ _))⟩

theorem State.resyncTaken_refuses_spec (h : s.get CLOCKMAKER_state = 2 ∨ s.get CLOCKMAKER_state = 3) (far : ¬ (c.natAbs : Int) ≤ s.jumpMax)
    (none : s.flag CLOCKMAKER_jump_pending = false) : let z := s.resyncTaken c rho ds
    z.get CLOCKMAKER_jump_pending = 1 ∧ z.get CLOCKMAKER_confirm = 1 ∧ z.clk.firstC = c ∧ z.get64 CM_PEND_LO_0 CM_PEND_HI_0 = unsint 64 c ∧
    z.get64 CM_OFFSET_LO_0 CM_OFFSET_HI_0 = s.get64 CM_OFFSET_LO_0 CM_OFFSET_HI_0 := by
  obtain ⟨-, kept⟩ := State.resyncTaken_synced (c := c) (rho := rho) (ds := ds) h
  rw [State.correct_refuses (s := s.withMiss 0) far none] at kept
  have refused := ((s.withMiss 0).updK fun k => { k with firstC := c }).clockKept_jumpRefuse c 1 ds.length
  obtain ⟨pending, confirm, word⟩ := ((s.withMiss 0).updK fun k => { k with firstC := c }).jumpRefuse_spec c ds.length (conf := 1) (by decide)
  exact ⟨(kept.regs _ (by decide)).trans pending, (kept.regs _ (by decide)).trans confirm, congrArg ClockS.firstC (kept.clk.trans refused.clk),
    (kept.get64 (by decide)).trans word, (refused.trans kept).get64 (by decide)⟩

/-! ## The matrix cycle start -/

/-- What a resync acts on: the module's state with the n valid deviations shown and the measurements used up. -/
structure State.resyncReady (s t : State) (n : Nat) : Prop where
  clk : ∃ l, t.clk = { s.clk with reqDue := l, meas := [] }
  number : t.get CM_RESYNC_0 = n % 16
  dropped : t.get CM_RESYNC_4 = dropK n
  count : t.get CM_RESYNC_8 = (s.get CM_RESYNC_8 + 1) % 2 ^ 24
  regs : ∀ g : Fld, g.pageOf = 0x38 → (g.outside [rawOf 0x38, CM_RESYNC_0, CM_RESYNC_4, CM_RESYNC_8] && decide (g.key < (CM_N_CFG_0 0).key)) = true →
    t.get g = s.get g

theorem State.resyncReady.parts (h : s.resyncReady t n) :
    t.clk.meas = [] ∧ t.clk.miss = s.clk.miss ∧ t.clk.acqFrom = s.clk.acqFrom ∧ t.clk.c1 = s.clk.c1 := by
  obtain ⟨l, e⟩ := h.clk
  rw [e]
  exact ⟨rfl, rfl, rfl, rfl⟩

/-- The result of a resync: the mean of the valid deviations without the outliers. -/
def State.resyncMean (s : State) : Int := (trimMean (devValues s.validDevs)).getD 0

/-- With synchronisation on, a matrix cycle start that switches no bank misses a resync or takes its result. -/
theorem State.matrixStart_judges (start : s.posOf s.cons.k = 0) (unarmed : s.cons.swAt = 0) (on : s.flag CM_SYNC_CTL_0 = true) :
    ∃ u rho ds, s.resyncReady u s.validDevs.length ∧ s.matrixStart =
      if s.validDevs.length < s.get CM_SYNC_CTL_10 then u.resyncMissed s.validDevs.length else u.resyncTaken s.resyncMean rho ds := by
  obtain ⟨t, l, e, same, clk⟩ := State.matrixStart_resync start unarmed
  obtain ⟨rho, resync⟩ := State.resync_on ((State.flag_congr (same.regs CM_SYNC_CTL_0 (by decide))).trans on)
  obtain ⟨used, number, dropped, count, regs⟩ := t.resyncShown_spec t.validDevs
  rw [same.regs CM_RESYNC_8 (by decide)] at count
  rw [same.validDevs] at number dropped
  rw [same.regs CM_SYNC_CTL_10 (by decide), same.validDevs] at resync
  rw [same.validDevs] at used count regs
  refine ⟨_, rho, _, ⟨⟨l, ?_⟩, number, dropped, count, fun g page out => ?_⟩, e.trans resync⟩
  · rw [used, clk]
  · rw [Bool.and_eq_true, decide_eq_true_eq] at out
    exact (regs g out.1 out.2).trans (same.regs g page)

section
variable (ready : s.resyncReady t n)
include ready

/-- What any resync shows once it has acted. -/
theorem State.resyncReady.shown {m : Nat} (kept : (t.withMiss m).resyncKept u resyncRegs) :
    u.get CM_RESYNC_0 = n % 16 ∧ u.get CM_RESYNC_4 = dropK n ∧ u.get CM_RESYNC_8 = (s.get CM_RESYNC_8 + 1) % 2 ^ 24 ∧ u.clk.meas = [] :=
  ⟨(kept.regs _ (by decide)).trans ready.number, (kept.regs _ (by decide)).trans ready.dropped, (kept.regs _ (by decide)).trans ready.count,
    kept.meas.trans ready.parts.1⟩

theorem State.resyncReady.missed : let st := s.get CLOCKMAKER_state; let z := t.resyncMissed n
    bitOf (z.get (rawOf 0x38)) 3 = true ∧ z.get CLOCKMAKER_jump_pending = 0 ∧ (st = 1 → z.get CLOCKMAKER_state = s.clk.acqFrom % 8) ∧
    (st = 2 → s.clk.miss + 1 < s.get CM_SYNC_CTL_14 → z.get CLOCKMAKER_state = 2 ∧ z.clk.miss = s.clk.miss + 1) ∧
    (st = 2 → s.get CM_SYNC_CTL_14 ≤ s.clk.miss + 1 → z.get CLOCKMAKER_state = 3) ∧ (st ≠ 1 → st ≠ 2 → z.get CLOCKMAKER_state = st) := by
  obtain ⟨-, pending, raised⟩ := t.resyncMissed_tells n
  obtain ⟨-, miss, acqFrom, -⟩ := ready.parts
  have states := t.resyncMissed_states n
  rw [ready.regs CLOCKMAKER_state (by decide) (by decide), ready.regs CM_SYNC_CTL_14 (by decide) (by decide), miss, acqFrom] at states
  exact ⟨raised, pending, states⟩

theorem State.resyncReady.taken {c rho : Int} {ds : List Int} : let st := s.get CLOCKMAKER_state; let z := t.resyncTaken c rho ds
    z.clk.miss = 0 ∧ ((st = 0 ∨ st = 4) → z.get CLOCKMAKER_state = 1 ∧ z.clk.acqFrom = st ∧ z.clk.c1 = c) ∧
    (st = 1 → ((c - s.clk.c1).natAbs : Int) ≤ s.stepMax → z.get CLOCKMAKER_state = 2 ∧ z.get64 CM_LASTCORR_LO_0 CM_LASTCORR_HI_0 = unsint 64 c) ∧
    (st = 1 → ¬ ((c - s.clk.c1).natAbs : Int) ≤ s.stepMax → z.get CLOCKMAKER_state = s.clk.acqFrom % 8) ∧
    (st = 2 ∨ st = 3 → z.get CLOCKMAKER_state = 2 ∧
      ((c.natAbs : Int) ≤ s.jumpMax → (c.natAbs : Int) ≤ s.stepMax → z.clk.slewC = c ∧
        z.clk.slewRate = sgn c * ((s.get CM_SLEW_0 * 2 ^ 40 / 1000000 : Nat) : Int) ∧ z.get CLOCKMAKER_jump_pending = 0) ∧
      (¬ (c.natAbs : Int) ≤ s.jumpMax → s.flag CLOCKMAKER_jump_pending = false → z.get CLOCKMAKER_jump_pending = 1 ∧ z.get CLOCKMAKER_confirm = 1 ∧
        z.clk.firstC = c ∧ z.get64 CM_PEND_LO_0 CM_PEND_HI_0 = unsint 64 c ∧
        z.get64 CM_OFFSET_LO_0 CM_OFFSET_HI_0 = s.get64 CM_OFFSET_LO_0 CM_OFFSET_HI_0)) := by
  obtain ⟨-, -, acqFrom, c1⟩ := ready.parts
  have state : t.get CLOCKMAKER_state = s.get CLOCKMAKER_state := ready.regs _ (by decide) (by decide)
  have jump : t.jumpMax = s.jumpMax := congrArg (fun v : Nat => ((v * 100 : Nat) : Int)) (ready.regs CM_JUMP_0 (by decide) (by decide))
  have step : t.stepMax = s.stepMax := congrArg (fun v : Nat => ((v * 100 : Nat) : Int)) (ready.regs CM_JUMP_16 (by decide) (by decide))
  have offset : t.get64 CM_OFFSET_LO_0 CM_OFFSET_HI_0 = s.get64 CM_OFFSET_LO_0 CM_OFFSET_HI_0 := by
    rw [State.get64, ready.regs _ (by decide) (by decide), ready.regs CM_OFFSET_HI_0 (by decide) (by decide), State.get64]
  rw [← state, ← jump, ← step, ← c1, ← acqFrom, ← offset, ← ready.regs CM_SLEW_0 (by decide) (by decide),
    ← State.flag_congr (ready.regs CLOCKMAKER_jump_pending (by decide) (by decide))]
  exact ⟨(t.resyncKept_resyncTaken c rho ds).miss, State.resyncTaken_unset_spec, State.resyncTaken_agrees_spec, State.resyncTaken_differs_spec,
    fun held => ⟨(State.resyncTaken_synced held).1, State.resyncTaken_slews_spec held, State.resyncTaken_refuses_spec held⟩⟩

end

/-- Settles O34: the resync that the matrix cycle start runs, missed or taken, by the lemmas above. That a slew's rate is the ppm value times 2^40 / 10^6 rounded
toward zero and that ACQUIRING goes to SYNCED without an update of the rate are log entry 21. -/
theorem timeResynchronisation : Obligations.TimeResynchronisation := by
  unfold Obligations.TimeResynchronisation
  intro s start unarmed on st valid n c near
  obtain ⟨u, rho, ds, ready, judged⟩ := State.matrixStart_judges start unarmed on
  refine ⟨s.matrixStart, rfl, ?_⟩
  by_cases few : n < s.get CM_SYNC_CTL_10
  case pos =>
    obtain ⟨⟨m, kept⟩, -, -⟩ := u.resyncMissed_tells n
    obtain ⟨number, dropped, count, meas⟩ := ready.shown kept
    rw [judged.trans (if_pos few)]
    exact ⟨number, dropped, count, meas, fun _ => ready.missed, fun enough => absurd few (Nat.not_lt.2 enough)⟩
  case neg =>
    obtain ⟨number, dropped, count, meas⟩ := ready.shown (u.resyncKept_resyncTaken c rho ds)
    rw [judged.trans (if_neg few)]
    exact ⟨number, dropped, count, meas, fun less => absurd less few, fun _ => ready.taken⟩

end Sys2Proof.Machine
end
